-- ==== Sys2Proof/Word.lean ====
section
/-! DEFINITION. The word types of the Isaette IX9: bytes, 32-bit instruction and register words, 64-bit
register pairs, and the 8-bit operand codes of an instruction word (02 R36, R39). -/

namespace Sys2Proof

/-- One byte of memory (01 R33, 00 R2). -/
abbrev Byte := BitVec 8

/-- A native instruction word, a vector lane-register, a scalar register or MODE: 32 bits (02 R36, R48). -/
abbrev Word := BitVec 32

/-- A 64-bit operand: a vector or scalar pair (02 R42, 03 R72), and the container of every lane operand. -/
abbrev DWord := BitVec 64

/-- An 8-bit operand code of an instruction word (02 R39). -/
abbrev Code := BitVec 8

/-- A program counter: a 56-bit virtual address (02 R48). -/
abbrev PcVal := BitVec 56

end Sys2Proof
end

