-- ==== Sys2Proof/Machine/Bits.lean ====
section
/-! DEFINITION. Bit fields, sign extension and byte order: the small helpers every other file of the machine uses. -/

namespace Sys2Proof.Machine

/-- Bits [lo + n - 1 : lo] of a natural number (00 R1). -/
def field (x lo n : Nat) : Nat := x / 2 ^ lo % 2 ^ n

/-- Bit `i` of a natural number. -/
def bit (x i : Nat) : Bool := x / 2 ^ i % 2 = 1

/-- A Bool as the number 0 or 1. -/
def toNat01 (b : Bool) : Nat := if b then 1 else 0

/-- The signed value of the low `n` bits of `x` (SignExtend, 00 R11). -/
def signedOf (n x : Nat) : Int :=
  let y := x % 2 ^ n
  if n = 0 then 0 else if y < 2 ^ (n - 1) then (y : Int) else (y : Int) - 2 ^ n

/-- The low `n` bits of an integer, as a natural number. -/
def wrapTo (n : Nat) (x : Int) : Nat := (x % (2 ^ n : Int)).toNat

/-- The `n` bytes that start at `a`, read through `f`, as a little-endian number (00 R2). -/
def readLE (f : Nat → Byte) (a : Nat) : Nat → Nat
  | 0 => 0
  | n + 1 => (f a).toNat + 256 * readLE f (a + 1) n

/-- Byte `i` of a number, little-endian (00 R2). -/
def byteAt (x i : Nat) : Byte := BitVec.ofNat 8 (x / 256 ^ i)

/-- The first `n` bytes of a number, lowest first. -/
def bytesLE : Nat → Nat → List Byte
  | 0, _ => []
  | n + 1, x => BitVec.ofNat 8 x :: bytesLE n (x / 256)

/-- The number whose little-endian bytes are given. -/
def ofBytesLE : List Byte → Nat
  | [] => 0
  | b :: bs => b.toNat + 256 * ofBytesLE bs

/-- How many of the bits 0 to n - 1 of `x` are 1. -/
def popCount (x : Nat) : Nat → Nat
  | 0 => 0
  | n + 1 => popCount x n + toNat01 (bit x n)

/-- floor(log2 x), 0 for 0 and 1. -/
def log2Floor (x : Nat) : Nat := Nat.log2 x

/-- ceil(a / b). -/
def ceilDiv (a b : Nat) : Nat := (a + b - 1) / b

/-- The first number below `n` that has the property. -/
def findBelow (p : Nat → Bool) (n : Nat) : Option Nat := (List.range n).find? p

/-- Round up to a multiple. -/
def roundUp (x m : Nat) : Nat := ceilDiv x m * m

end Sys2Proof.Machine
end

