-- ==== Sys2Proof/Machine/Formats.lean ====
section
/-! DEFINITION. Element types and exact values: layouts and packing (06 R142 to R145, 05 R120), decoding, rounding
(R146 to R149), and conversion between types (R163 to R165). A flag set is a number: 1 NV, 2 DZ, 4 OF, 8 UF, 16 NX
(R151). -/

namespace Sys2Proof.Machine

/-! ### Element types by code (02 R51) -/

/-- A floating-point layout (R142): exponent bits, fraction bits, bias; `special` is 2 with infinities and NaNs, 1 with
NaNs only (e4m3), 0 with neither. -/
structure Fmt where
  ebits : Nat
  fbits : Nat
  bias : Nat
  special : Nat
deriving DecidableEq, Repr

/-- The layout of a floating-point etype code 0 to 8 (R142). -/
def fmtOf (t : Nat) : Fmt :=
  match t with
  | 0 => { ebits := 11, fbits := 52, bias := 1023, special := 2 }
  | 1 => { ebits := 8, fbits := 23, bias := 127, special := 2 }
  | 2 => { ebits := 8, fbits := 7, bias := 127, special := 2 }
  | 3 => { ebits := 5, fbits := 10, bias := 15, special := 2 }
  | 4 => { ebits := 5, fbits := 2, bias := 15, special := 2 }
  | 5 => { ebits := 4, fbits := 3, bias := 7, special := 1 }
  | 6 => { ebits := 3, fbits := 2, bias := 3, special := 0 }
  | 7 => { ebits := 2, fbits := 3, bias := 1, special := 0 }
  | _ => { ebits := 2, fbits := 1, bias := 1, special := 0 }

/-- Etype codes of the floating-point types. -/
def isFloat (t : Nat) : Bool := decide (t ≤ 8)
/-- Etype codes of the integer types, i4 included. -/
def isInt (t : Nat) : Bool := decide (9 ≤ t) && decide (t ≤ 17)
/-- Signed integer types (05 R120). -/
def isSigned (t : Nat) : Bool := decide (t ≤ 12) || decide (t = 17)

/-- Bits of an element's value (R142, R144; 05 R120). -/
def etypeWidth (t : Nat) : Nat :=
  match t with
  | 0 => 64 | 1 => 32 | 2 => 16 | 3 => 16 | 4 => 8 | 5 => 8 | 6 => 6 | 7 => 6 | 8 => 4
  | 9 => 64 | 10 => 32 | 11 => 16 | 12 => 8 | 13 => 64 | 14 => 32 | 15 => 16 | 16 => 8 | _ => 4

/-- Bits an element takes in a register (R145). -/
def etypeStride (t : Nat) : Nat := if etypeWidth t = 6 then 8 else etypeWidth t

/-- The etype's operand is a register pair (02 R42, 05 R124). -/
def etypeWide (t : Nat) : Bool := decide (etypeWidth t = 64)

/-- Elements per operand: one for a 64-bit type, otherwise those of a 32-bit register (R145, 05 R120). -/
def elemCount (t : Nat) : Nat := if etypeWide t then 1 else 32 / etypeStride t

/-- The bits of element `k` of an operand (R145). -/
def elemBits (t : Nat) (x : DWord) (k : Nat) : Nat := field x.toNat (etypeStride t * k) (etypeWidth t)

/-- The operand whose elements 0 to n - 1 have the bits `f k`; every other bit is 0. -/
def packElems (t : Nat) (f : Nat → Nat) : Nat → Nat
  | 0 => 0
  | n + 1 => packElems t f n + (f n % 2 ^ etypeWidth t) * 2 ^ (etypeStride t * n)

/-! ### Flags -/

/-- Invalid. -/
def flNV : Nat := 1
/-- Division by zero. -/
def flDZ : Nat := 2
/-- Overflow. -/
def flOF : Nat := 4
/-- Underflow. -/
def flUF : Nat := 8
/-- Inexact. -/
def flNX : Nat := 16

/-- The fields of MODE that a result depends on. -/
structure FMode where
  round : Nat
  sat : Bool
  ftz : Bool
deriving DecidableEq, Repr

/-! ### Values -/

/-- A value: a NaN (signalling or not), an infinity, or ±(m + δ) * 2 ^ e, where δ is 0, or an unknown number strictly
between 0 and 1 when `sticky`. -/
inductive FVal where
  | nan (signalling : Bool)
  | inf (neg : Bool)
  | num (neg : Bool) (m : Nat) (e : Int) (sticky : Bool)
deriving DecidableEq, Repr

/-- The value zero with a sign. -/
def FVal.zero (neg : Bool) : FVal := .num neg 0 0 false

/-- The value of an integer. -/
def FVal.ofInt (z : Int) : FVal := .num (decide (z < 0)) z.natAbs 0 false

/-- The value is zero. -/
def FVal.isZero : FVal → Bool
  | .num _ m _ st => decide (m = 0) && !st
  | _ => false

/-- NV for a signalling NaN. -/
def FVal.sigFlag : FVal → Nat
  | .nan true => flNV
  | _ => 0

/-- The value is a NaN. -/
def FVal.isNan : FVal → Bool
  | .nan _ => true
  | _ => false

/-- The sign; of a NaN, false. -/
def FVal.neg : FVal → Bool
  | .nan _ => false
  | .inf s => s
  | .num s _ _ _ => s

/-- The value with the opposite sign. -/
def FVal.negate : FVal → FVal
  | .nan b => .nan b
  | .inf s => .inf !s
  | .num s m e st => .num (!s) m e st

/-- The codebook of k16, in 128ths (R144). -/
def k16Table : List Int := [-128, -95, -71, -52, -35, -20, -9, 0, 10, 21, 33, 47, 64, 85, 107, 128]

/-- Decode the bits of a floating-point element (R142, R143). -/
def decodeFloat (f : Fmt) (x : Nat) : FVal :=
  let s := bit x (f.ebits + f.fbits)
  let ex := field x f.fbits f.ebits
  let fr := field x 0 f.fbits
  if ex = 2 ^ f.ebits - 1 ∧ f.special = 2 then
    (if fr = 0 then .inf s else .nan (!bit fr (f.fbits - 1)))
  else if ex = 2 ^ f.ebits - 1 ∧ f.special = 1 ∧ fr = 2 ^ f.fbits - 1 then .nan false
  else if ex = 0 then .num s fr (1 - (f.bias : Int) - f.fbits) false
  else .num s (2 ^ f.fbits + fr) ((ex : Int) - f.bias - f.fbits) false

/-- The types that MODE.ftz acts on (R147). -/
def flushes (t : Nat) : Bool := decide (t = 0) || decide (t = 1) || decide (t = 3)

/-- The bits are a subnormal of the layout. -/
def isSubnormal (f : Fmt) (x : Nat) : Bool := decide (field x f.fbits f.ebits = 0) && decide (field x 0 f.fbits ≠ 0)

/-- The bits of an element as an input: a subnormal is read as zero of its sign under ftz (R147). -/
def flushIn (t : Nat) (ftz : Bool) (x : Nat) : Nat :=
  if ftz && flushes t && isSubnormal (fmtOf t) x then x - field x 0 (fmtOf t).fbits else x

/-- The value of the bits of an element of any type, as an input under ftz (R142, R144, R147; 05 R120). -/
def elemValue (t : Nat) (ftz : Bool) (x : Nat) : FVal :=
  if isFloat t then decodeFloat (fmtOf t) (flushIn t ftz x)
  else if isInt t then .ofInt (if isSigned t then signedOf (etypeWidth t) x else (x : Int))
  else .num (decide (k16Table.getD x 0 < 0)) (k16Table.getD x 0).natAbs (-7) false

/-! ### Rounding -/

/-- Round m + δ, scaled by 2 ^ (-d), to an integer (R146, 00 R11). The result is the integer and whether it differs. -/
def roundShift (mode : Nat) (neg : Bool) (m d : Nat) (sticky : Bool) : Nat × Bool :=
  if d = 0 then (m, sticky)
  else
    let r := m / 2 ^ d
    let rem := m % 2 ^ d
    let half := 2 ^ (d - 1)
    let inexact := decide (rem ≠ 0) || sticky
    let up := match mode with
      | 0 => decide (half < rem) || (decide (rem = half) && (sticky || decide (r % 2 = 1)))
      | 1 => false
      | 2 => neg && inexact
      | 3 => !neg && inexact
      | _ => decide (half ≤ rem)
    (if up then r + 1 else r, inexact)

/-- Round m * 2 ^ e to a multiple of 2 ^ q. -/
def roundTo (mode : Nat) (neg : Bool) (m : Nat) (e q : Int) (sticky : Bool) : Nat × Bool :=
  if e ≤ q then roundShift mode neg m (q - e).toNat sticky
  else (m * 2 ^ (e - q).toNat, sticky)

/-- The canonical quiet NaN (R143). -/
def canonicalNan (f : Fmt) : Nat :=
  if f.special = 1 then 2 ^ (f.ebits + f.fbits) - 1
  else (2 ^ f.ebits - 1) * 2 ^ f.fbits + 2 ^ (f.fbits - 1)

/-- The sign bit of a layout. -/
def signBit (f : Fmt) (neg : Bool) : Nat := if neg then 2 ^ (f.ebits + f.fbits) else 0

/-- Infinity. -/
def infBits (f : Fmt) (neg : Bool) : Nat := signBit f neg + (2 ^ f.ebits - 1) * 2 ^ f.fbits

/-- The largest finite magnitude, without its sign (R142). -/
def maxBits (f : Fmt) : Nat :=
  match f.special with
  | 2 => (2 ^ f.ebits - 1) * 2 ^ f.fbits - 1
  | 1 => 2 ^ (f.ebits + f.fbits) - 2
  | _ => 2 ^ (f.ebits + f.fbits) - 1

/-- The overflowed result (R149). -/
def overflowBits (f : Fmt) (round : Nat) (sat neg : Bool) : Nat :=
  let toward : Bool := match round with
    | 0 => true
    | 1 => false
    | 2 => neg
    | 3 => !neg
    | _ => true
  if f.special = 2 ∧ !sat ∧ toward then infBits f neg else signBit f neg + maxBits f

/-- Round a nonzero exact value to a layout: bits and flags (R146 to R149). -/
def roundNum (f : Fmt) (round : Nat) (sat flush neg : Bool) (m : Nat) (e : Int) (sticky : Bool) : Nat × Nat :=
  let big := e + Nat.log2 m
  let emin : Int := 1 - (f.bias : Int)
  let r1 := roundTo round neg m e (big - f.fbits) sticky
  let carry := decide (2 ^ (f.fbits + 1) ≤ r1.1)
  let big' := if carry then big + 1 else big
  let frac1 := if carry then 2 ^ f.fbits else r1.1
  let expMax : Int := (maxBits f / 2 ^ f.fbits : Nat) - (f.bias : Int)
  let fracMax := 2 ^ f.fbits + maxBits f % 2 ^ f.fbits
  if expMax < big' ∨ (big' = expMax ∧ fracMax < frac1) then
    (overflowBits f round sat neg, flOF + flNX)
  else if big' < emin then
    if flush then (signBit f neg, flUF + flNX)
    else
      let r2 := roundTo round neg m e (emin - f.fbits) sticky
      (signBit f neg + r2.1, if r2.2 then flUF + flNX else 0)
  else (signBit f neg + (big' + f.bias).toNat * 2 ^ f.fbits + (frac1 - 2 ^ f.fbits), if r1.2 then flNX else 0)

/-- Conversion to a floating-point type (R146 to R150, R163): bits and flags. -/
def toFloat (t : Nat) (md : FMode) (v : FVal) : Nat × Nat :=
  let f := fmtOf t
  let round := if t ≤ 3 then md.round else 0
  match v with
  | .nan sig =>
    if f.special = 0 then (0, flNV) else (canonicalNan f, if sig then flNV else 0)
  | .inf s => if f.special = 2 then (infBits f s, 0) else (signBit f s + maxBits f, flNV)
  | .num s m e st =>
    if m = 0 && !st then (signBit f s, 0)
    else roundNum f round md.sat (md.ftz && flushes t) s m e st

/-- Least value of an integer type (05 R120). -/
def typeMin (t : Nat) : Int := if isSigned t then -(2 ^ (etypeWidth t - 1) : Int) else 0
/-- Greatest value of an integer type. -/
def typeMax (t : Nat) : Int := if isSigned t then 2 ^ (etypeWidth t - 1) - 1 else 2 ^ etypeWidth t - 1

/-- Narrow: clamp or wrap an exact integer into a type, as bits (05 R122). -/
def narrow (t : Nat) (sat : Bool) (z : Int) : Nat :=
  wrapTo (etypeWidth t) (if sat then min (max z (typeMin t)) (typeMax t) else z)

/-- Conversion of a float to an integer type (R164). -/
def toInt (t round : Nat) (v : FVal) : Nat × Nat :=
  match v with
  | .nan _ => (0, flNV)
  | .inf s => (wrapTo (etypeWidth t) (if s then typeMin t else typeMax t), flNV)
  | .num s m e st =>
    let r := roundTo round s m e 0 st
    let z : Int := if s then -(r.1 : Int) else r.1
    if z < typeMin t then (wrapTo (etypeWidth t) (typeMin t), flNV)
    else if typeMax t < z then (wrapTo (etypeWidth t) (typeMax t), flNV)
    else (wrapTo (etypeWidth t) z, if r.2 then flNX else 0)

/-- Compare ±(m + δ) * 2 ^ e with z * 2 ^ (-8): -1, 0 or 1. -/
def cmpScaled (s : Bool) (m : Nat) (e : Int) (st : Bool) (z : Int) : Int :=
  let e8 := e + 8
  let lhs : Int := if 0 ≤ e8 then (m : Int) * 2 ^ e8.toNat else m
  let rhs : Int := if 0 ≤ e8 then z else z * 2 ^ (-e8).toNat
  let l : Int := if s then -lhs else lhs
  if l < rhs then -1 else if rhs < l then 1 else if st then (if s then -1 else 1) else 0

/-- Conversion to k16: the nearest code, ties to the smaller magnitude (R165). -/
def toK16 (v : FVal) : Nat × Nat :=
  match v with
  | .nan _ => (7, flNV)
  | .inf s => (if s then 0 else 15, flNV)
  | .num s m e st =>
    let c := ((List.range 15).filter (fun i =>
      let a := k16Table.getD i 0
      let b := k16Table.getD (i + 1) 0
      let o := cmpScaled s m e st (a + b)
      decide (0 < o) || (decide (o = 0) && decide (b.natAbs < a.natAbs)))).length
    (c, if cmpScaled s m e st (2 * k16Table.getD c 0) = 0 then 0 else flNX)

/-- Convert a value to any type (R163 to R165). -/
def convert (t : Nat) (md : FMode) (v : FVal) : Nat × Nat :=
  if isFloat t then toFloat t md v else if isInt t then toInt t md.round v else toK16 v

end Sys2Proof.Machine
end

