-- ==== Sys2Proof/Machine/Float.lean ====
section
/-! DEFINITION. Exact floating-point operations (06 R158 to R168): each gives an exact value, or one with a sticky
remainder, and the flags of its operands; the rounding is of Formats. -/

namespace Sys2Proof.Machine

/-! ### Sums, products, quotients, roots -/

/-- A value with the flags raised in forming it. -/
abbrev FRes := FVal × Nat

/-- The product (R158): 0 × ∞ is NaN with NV. -/
def fvMul (x y : FVal) : FRes :=
  let fl := x.sigFlag ||| y.sigFlag
  let s := x.neg != y.neg
  match x, y with
  | .nan _, _ => (.nan false, fl)
  | _, .nan _ => (.nan false, fl)
  | .inf _, .inf _ => (.inf s, fl)
  | .inf _, .num _ m _ st => if m = 0 && !st then (.nan false, fl ||| flNV) else (.inf s, fl)
  | .num _ m _ st, .inf _ => if m = 0 && !st then (.nan false, fl ||| flNV) else (.inf s, fl)
  | .num _ m e _, .num _ n k _ => (.num s (m * n) (e + k) false, fl)

/-- The exact sum of finite values with a common exponent. -/
def sumNums (q : Int) : List FVal → Int
  | [] => 0
  | .num s m e _ :: vs =>
    let x : Int := (m : Int) * 2 ^ (e - q).toNat
    (if s then -x else x) + sumNums q vs
  | _ :: vs => sumNums q vs

/-- The least exponent of nonzero finite values. -/
def minExp : List FVal → Int → Int
  | [], q => q
  | .num _ m e _ :: vs, q => minExp vs (if m = 0 then q else min e q)
  | _ :: vs, q => minExp vs q

/-- The greatest exponent of finite values; 0 for none. -/
def someExp : List FVal → Int
  | [] => 0
  | .num _ m e _ :: vs => if m = 0 then someExp vs else e
  | _ :: vs => someExp vs

/-- The sum of terms, each exact: infinities of both signs give NaN with NV; zero sums follow R148. -/
def fvSum (round : Nat) (terms : List FVal) : FRes :=
  let fl := terms.foldl (fun f v => f ||| v.sigFlag) 0
  if terms.any (·.isNan) then (.nan false, fl)
  else
    let pos := terms.any (fun v => match v with | .inf false => true | _ => false)
    let neg := terms.any (fun v => match v with | .inf true => true | _ => false)
    if pos && neg then (.nan false, fl ||| flNV)
    else if pos then (.inf false, fl)
    else if neg then (.inf true, fl)
    else
      let q := minExp terms (someExp terms)
      let z := sumNums q terms
      if z = 0 then
        if terms.all (fun v => v.isZero && v.neg) then (FVal.zero true, fl)
        else if terms.all (fun v => v.isZero && !v.neg) then (FVal.zero false, fl)
        else (FVal.zero (round = 2), fl)
      else (.num (decide (z < 0)) z.natAbs q false, fl)

/-- x * y + z, rounded once later: 0 × ∞ raises NV even when z is a quiet NaN (R151). -/
def fvFma (round : Nat) (x y z : FVal) : FRes :=
  let p := fvMul x y
  let r := fvSum round [p.1, z]
  (r.1, p.2 ||| r.2)

/-- The quotient to at least 130 bits with its sticky remainder (R158). -/
def fvDiv (x y : FVal) : FRes :=
  let fl := x.sigFlag ||| y.sigFlag
  let s := x.neg != y.neg
  match x, y with
  | .nan _, _ => (.nan false, fl)
  | _, .nan _ => (.nan false, fl)
  | .inf _, .inf _ => (.nan false, fl ||| flNV)
  | .inf _, .num _ _ _ _ => (.inf s, fl)
  | .num _ _ _ _, .inf _ => (FVal.zero s, fl)
  | .num _ m e _, .num _ n k _ =>
    if n = 0 then (if m = 0 then (.nan false, fl ||| flNV) else (.inf s, fl ||| flDZ))
    else if m = 0 then (FVal.zero s, fl)
    else
      let b := 130 + Nat.log2 n
      let a := m * 2 ^ b
      (.num s (a / n) (e - k - b) (decide (a % n ≠ 0)), fl)

/-- floor(sqrt n), from the bit i - 1 down, `r` being the part found. -/
def isqrtFrom (n : Nat) : Nat → Nat → Nat
  | 0, r => r
  | i + 1, r =>
    let c := r + 2 ^ i
    isqrtFrom n i (if c * c ≤ n then c else r)

/-- floor(sqrt n). -/
def isqrt (n : Nat) : Nat := isqrtFrom n (Nat.log2 n / 2 + 1) 0

/-- The square root (R158). -/
def fvSqrt (x : FVal) : FRes :=
  match x with
  | .nan sig => (.nan false, if sig then flNV else 0)
  | .inf s => if s then (.nan false, flNV) else (.inf false, 0)
  | .num s m e _ =>
    if m = 0 then (FVal.zero s, 0)
    else if s then (.nan false, flNV)
    else
      let odd : Nat := if e % 2 = 0 then 0 else 1
      let a := m * 2 ^ (260 + odd)
      let r := isqrt a
      (.num false r ((e - odd) / 2 - 130) (decide (r * r ≠ a)), 0)

/-- The reciprocal square root (R158). -/
def fvRsqrt (x : FVal) : FRes :=
  match x with
  | .nan sig => (.nan false, if sig then flNV else 0)
  | .inf s => if s then (.nan false, flNV) else (FVal.zero false, 0)
  | .num s m e _ =>
    if m = 0 then (.inf s, flDZ)
    else if s then (.nan false, flNV)
    else
      let odd : Nat := if e % 2 = 0 then 0 else 1
      let m' := m * 2 ^ odd
      let b := 400 + 2 * Nat.log2 m'
      let r := isqrt (2 ^ b / m')
      (.num false r (-((e - odd) / 2) - (b / 2 : Nat)) (decide (r * r * m' ≠ 2 ^ b)), 0)

/-- The reciprocal (R158). -/
def fvRcp (x : FVal) : FRes := fvDiv (.num false 1 0 false) x

/-! ### 2 to the x and log2 x (R158): correctly rounded from 400-bit fixed point -/

/-- Bits of the fixed point. -/
def fixBits : Nat := 400

/-- Sum of y ^ (2k + 1) / (2k + 1) in fixed point, k from `k`; `p` is y ^ (2k + 1), `y2` is y squared. -/
def atanhSum (y2 : Nat) : Nat → Nat → Nat → Nat
  | 0, _, _ => 0
  | n + 1, k, p => p / (2 * k + 1) + atanhSum y2 n (k + 1) (p * y2 / 2 ^ fixBits)

/-- ln((1 + y) / (1 - y)) in fixed point, for y below 1/2. -/
def atanh2 (y : Nat) : Nat := 2 * atanhSum (y * y / 2 ^ fixBits) 130 0 y

/-- ln 2 in fixed point: y = 1/3. -/
def ln2Fix : Nat := atanh2 (2 ^ fixBits / 3)

/-- Sum of the exponential series from the term `t` of index `k`. -/
def expSum (x : Nat) : Nat → Nat → Nat → Nat
  | 0, _, _ => 0
  | n + 1, k, t => t + expSum x n (k + 1) (t * x / 2 ^ fixBits / (k + 1))

/-- 2 ^ f for a fixed-point fraction f, rounded down. -/
def exp2Frac (f : Nat) : Nat := expSum (f * ln2Fix / 2 ^ fixBits) 120 0 (2 ^ fixBits)

/-- 2 ^ x (R158): exact for an integer x; otherwise a lower bound close enough for one correct rounding to f32 or
f64, with a sticky remainder. An exponent beyond ±4,000 is cut there, where every result overflows or is tiny. -/
def fvExp2 (x : FVal) : FRes :=
  match x with
  | .nan sig => (.nan false, if sig then flNV else 0)
  | .inf s => (if s then FVal.zero false else .inf false, 0)
  | .num s m e _ =>
    let cut := fun (n : Int) => max (-4000) (min 4000 n)
    if m = 0 then (.num false 1 0 false, 0)
    else if 12 < e + Nat.log2 m then (.num false 1 (if s then -4000 else 4000) false, 0)
    else
      let d := (-e).toNat
      let ip := if 0 ≤ e then m * 2 ^ e.toNat else m / 2 ^ d
      let fr := if 0 ≤ e then 0 else m % 2 ^ d
      if fr = 0 then (.num false 1 (cut (if s then -(ip : Int) else ip)) false, 0)
      else
        let n : Int := if s then -(ip : Int) - 1 else ip
        let num := if s then 2 ^ d - fr else fr
        let f := num * 2 ^ fixBits / 2 ^ d
        (.num false (exp2Frac f) (cut n - fixBits) true, 0)

/-- log2 x (R158): exact for a power of two; otherwise from ln y / ln 2 with y in [3/4, 3/2). -/
def fvLog2 (x : FVal) : FRes :=
  match x with
  | .nan sig => (.nan false, if sig then flNV else 0)
  | .inf s => if s then (.nan false, flNV) else (.inf false, 0)
  | .num s m e _ =>
    if m = 0 then (.inf true, flDZ)
    else if s then (.nan false, flNV)
    else
      let k := Nat.log2 m
      if m = 2 ^ k then (FVal.ofInt (e + k), 0)
      else
        let big := decide (3 * 2 ^ k ≤ 2 * m)
        let top := if big then k + 1 else k
        let ex : Int := e + top
        let one := 2 ^ top
        let y := if big then (one - m) * 2 ^ fixBits / (one + m) else (m - one) * 2 ^ fixBits / (one + m)
        let l : Int := ((atanh2 y * 2 ^ fixBits / ln2Fix : Nat) : Int)
        let z : Int := ex * 2 ^ fixBits + (if big then -l else l)
        (.num (decide (z < 0)) z.natAbs (-(fixBits : Int)) true, 0)

/-- floor(log2 |x|) as a value (R158, fgetexp). -/
def fvGetExp (x : FVal) : FRes :=
  match x with
  | .nan sig => (.nan false, if sig then flNV else 0)
  | .inf _ => (.inf false, 0)
  | .num _ m e _ => if m = 0 then (.inf true, flDZ) else (FVal.ofInt (e + Nat.log2 m), 0)

/-- x * 2 ^ n (R158, fscale); n beyond ±8,000 is cut there. -/
def fvScale (x : FVal) (n : Int) : FRes :=
  match x with
  | .nan sig => (.nan false, if sig then flNV else 0)
  | .inf s => (.inf s, 0)
  | .num s m e st => (if m = 0 then .num s m e st else .num s m (e + max (-8000) (min 8000 n)) st, 0)

/-- Round to an integral value (R168); the sign of the operand stays on a zero. -/
def fvRint (round : Nat) (x : FVal) : FRes :=
  match x with
  | .nan sig => (.nan false, if sig then flNV else 0)
  | .inf s => (.inf s, 0)
  | .num s m e st => if 0 ≤ e then (.num s m e st, 0) else (.num s (roundTo round s m e 0 st).1 0 false, 0)

/-! ### Order (R148, R159, R160) -/

/-- x < y for values that are not NaN. -/
def fvLt (x y : FVal) : Bool :=
  match x, y with
  | .nan _, _ => false
  | _, .nan _ => false
  | .inf s, .inf t => s && !t
  | .inf s, _ => s
  | _, .inf t => !t
  | a, b =>
    let q := minExp [a, b] (someExp [a, b])
    decide (sumNums q [a] < sumNums q [b])

/-- x = y for values that are not NaN. -/
def fvEq (x y : FVal) : Bool := !x.isNan && !y.isNan && !fvLt x y && !fvLt y x

/-- fmin and fmax on values and their flushed bits (R159): `greater` for fmax. -/
def fvMinMax (f : Fmt) (greater : Bool) (x y : FVal) (xb yb : Nat) : Nat × Nat :=
  let fl := x.sigFlag ||| y.sigFlag
  if x.isNan && y.isNan then (canonicalNan f, fl)
  else if x.isNan then (yb, fl)
  else if y.isNan then (xb, fl)
  else if fvEq x y then (xb, fl)
  else (if fvLt x y != greater then xb else yb, fl)

/-- The class bit of an element's raw bits (R160). -/
def classOf (f : Fmt) (x : Nat) : Nat :=
  match decodeFloat f x with
  | .nan true => 0
  | .nan false => 1
  | .inf true => 2
  | .inf false => 9
  | .num s m _ _ =>
    if m = 0 then (if s then 5 else 6)
    else if isSubnormal f x then (if s then 4 else 7)
    else if s then 3 else 8

/-! ### Arithmetic by etype -/

/-- Round a result to an etype: bits and all flags. -/
def finish (t : Nat) (md : FMode) (r : FRes) : Nat × Nat :=
  let z := toFloat t md r.1
  (z.1, z.2 ||| r.2)

/-- An arithmetic form of two operands and an accumulator on elements of type `t` (R158, R162). -/
inductive FOp where
  | add | sub | mul | fma | fms | nma | div | min | max
deriving DecidableEq, Repr

/-- Bits and flags of an element of a two- or three-operand form. -/
def fopElem (op : FOp) (t : Nat) (md : FMode) (xb yb ab : Nat) : Nat × Nat :=
  let x := elemValue t md.ftz xb
  let y := elemValue t md.ftz yb
  let a := elemValue t md.ftz ab
  match op with
  | .add => finish t md (fvSum md.round [x, y])
  | .sub => finish t md (fvSum md.round [x, y.negate])
  | .mul => finish t md (fvMul x y)
  | .fma => finish t md (fvFma md.round x y a)
  | .fms => finish t md (fvFma md.round x y a.negate)
  | .nma => finish t md (fvFma md.round x.negate y a)
  | .div => finish t md (fvDiv x y)
  | .min => fvMinMax (fmtOf t) false x y (flushIn t md.ftz xb) (flushIn t md.ftz yb)
  | .max => fvMinMax (fmtOf t) true x y (flushIn t md.ftz xb) (flushIn t md.ftz yb)

/-- A form of one operand. -/
inductive FUn where
  | rcp | rsq | sqrt | exp2 | log2 | getexp | rint
deriving DecidableEq, Repr

/-- Bits and flags of a one-operand form (R158, R168). -/
def funElem (op : FUn) (t : Nat) (md : FMode) (xb : Nat) : Nat × Nat :=
  let x := elemValue t md.ftz xb
  match op with
  | .rcp => finish t md (fvRcp x)
  | .rsq => finish t md (fvRsqrt x)
  | .sqrt => finish t md (fvSqrt x)
  | .exp2 => finish t md (fvExp2 x)
  | .log2 => finish t md (fvLog2 x)
  | .getexp => finish t md (fvGetExp x)
  | .rint => finish t md (fvRint md.round x)

/-- The comparisons of R160: 0 equal, 1 less, 2 less or equal, 3 unordered. The result and the flags. -/
def fcmpElem (op t : Nat) (md : FMode) (xb yb : Nat) : Bool × Nat :=
  let x := elemValue t md.ftz xb
  let y := elemValue t md.ftz yb
  let sig := x.sigFlag ||| y.sigFlag
  let any := if x.isNan || y.isNan then flNV else 0
  match op with
  | 0 => (fvEq x y, sig)
  | 1 => (fvLt x y, any)
  | 2 => (fvLt x y || fvEq x y, any)
  | _ => (x.isNan || y.isNan, sig)

/-- fdot2 (R162): two exact products and an f32 accumulator, rounded once to f32. -/
def fdot2Elem (t : Nat) (md : FMode) (x y : DWord) (ab : Nat) : Nat × Nat :=
  let el := fun z k => elemValue t md.ftz (elemBits t z k)
  let p0 := fvMul (el x 0) (el y 0)
  let p1 := fvMul (el x 1) (el y 1)
  let r := fvSum md.round [elemValue 1 md.ftz ab, p0.1, p1.1]
  finish 1 md (r.1, r.2 ||| p0.2 ||| p1.2)

/-- cvt (R163): element 0, from etype `src` to etype `t`. -/
def cvtElem (src t : Nat) (md : FMode) (xb : Nat) : Nat × Nat :=
  if isInt src && isInt t then
    (narrow t md.sat (if isSigned src then signedOf (etypeWidth src) xb else (xb : Int)), 0)
  else convert t md (elemValue src md.ftz xb)

end Sys2Proof.Machine
end

