-- ==== Sys2Proof/Config.lean ====
section
/-! DEFINITION. What an implementation fixes, and the FREE VALUES of the model: opaque constants with no body, of
which nothing can be proved, for what the spec leaves open. -/

namespace Sys2Proof.Config

/-- The number of arithmetic-clock cycles that pass at one step: free, applied to the step counter (log entry 4, DESIGN CHOICE).
The spec fixes no cycle count for a step of this model (cycle counts are timing). -/
opaque cycles : Nat → BitVec 16

/-- A free 64-bit value, applied to the counter of free values in State (log entry 5, DESIGN CHOICE): every choice or value that
the spec leaves open takes a fresh one. -/
opaque freeValue : Nat → BitVec 64

/-- A free choice below `n`, from the free value of index `k`; 0 when there is nothing to choose from. -/
def freeChoice (n k : Nat) : Nat := (freeValue k).toNat % n

/-- SHAKE256 cut to 256 bits, of a byte string: an uninterpreted function (02 R64, 18 R447, R448; log entry 6, DESIGN CHOICE).
The spec names the standard and does not restate it. -/
opaque shake256 : List Byte → BitVec 256

/-- The XMSS signature under the device's identity key of a one-time index and a message: uninterpreted
(18 R447, R448; log entry 6, DESIGN CHOICE). -/
opaque xmssSign : Nat → List Byte → List Byte

/-- ML-KEM-1024 encapsulation: key and coins to ciphertext and shared secret, uninterpreted (18 R448; log entry 6, DESIGN CHOICE). -/
opaque mlkemEncaps : List Byte → Nat → List Byte × BitVec 256

/-- The firmware version word that fwcall 0 returns, fixed by the signed image that runs (16 R408; log entry 7, DESIGN CHOICE). -/
opaque firmwareVersion : BitVec 64

/-- The bytes of the running firmware image, of which the attestation report holds the digest (18 R448; log entry 7, DESIGN CHOICE). -/
opaque firmwareImage : List Byte

/-- The XMSS signature that comes with that image, the firmware public key, and its digest in the fuses of the I/O die
(18 R447; log entry 7, DESIGN CHOICE). -/
opaque firmwareSignature : List Byte

@[inherit_doc firmwareSignature] opaque firmwareKey : List Byte

@[inherit_doc firmwareSignature] opaque fusedDigest : BitVec 256

/-- Verification of an XMSS signature of RFC 8391 under a public key: key, message, signature (18 R447; log entry 7,
DESIGN CHOICE). -/
opaque xmssVerify : List Byte → List Byte → List Byte → Bool

/-- The tag by which a write of BAR2 is authenticated under a session key; R448 gives none (log entry 119, DESIGN CHOICE). -/
opaque sessionTag : BitVec 256 → List Byte → List Byte

/-- A byte of the identity block that no rule of the spec fixes (serial number, calibration): 19 R460, log entry 7, DESIGN CHOICE. -/
opaque identityByte : Nat → Byte

/-- The hash of R435 that chooses a link among the mask's links, of a device and address bits [51:12] (log entry 8, DESIGN CHOICE). -/
opaque linkHash : Nat → Nat → Nat

/-- The set of the cluster TLB that a virtual page uses; R235 gives none (log entry 8, DESIGN CHOICE). -/
opaque clusterTlbSet : Nat → BitVec 9

/-- The bank (high byte) and row of a line within its HBM channel; no rule gives the mapping (19 R456, log entry 27, DESIGN CHOICE). -/
opaque lineRow : Nat → BitVec 32

/-- The native code of a Plaquel image: the firmware's schedule is its own choice under R64 (log entry 9, DESIGN CHOICE). -/
opaque scheduleChoice : Nat → Nat

end Sys2Proof.Config
end

