-- ==== Sys2Proof/Machine/Map.lean ====
section
/-! DEFINITION. Sparse maps as plain data: a list of (key, value) pairs with strictly rising keys. A map of values
with a default never lists an entry equal to the default, so equal maps are equal lists; a map of records lists
every entry put into it. -/

namespace Sys2Proof.Machine

/-- A map from Nat: pairs with strictly rising keys. -/
abbrev SMap (α : Type) := List (Nat × α)

/-- The entry of key `k`, if listed. -/
def mapFind {α : Type} (k : Nat) : SMap α → Option α
  | [] => none
  | (i, x) :: m => if i < k then mapFind k m else if i = k then some x else none

/-- Put `x` at key `k`. -/
def mapPut {α : Type} (k : Nat) (x : α) : SMap α → SMap α
  | [] => [(k, x)]
  | (i, y) :: m =>
    if i < k then (i, y) :: mapPut k x m
    else if i = k then (k, x) :: m
    else (k, x) :: (i, y) :: m

/-- Drop the entry of key `k` (with rising keys the second branch drops that entry alone). -/
def mapDrop {α : Type} (k : Nat) : SMap α → SMap α
  | [] => []
  | (i, y) :: m =>
    if i < k then (i, y) :: mapDrop k m
    else if i = k then m.dropWhile (fun e => decide (e.1 ≤ k))
    else (i, y) :: m

/-- The value at `k`, `d` when none is listed. -/
def mapGet {α : Type} (d : α) (m : SMap α) (k : Nat) : α := (mapFind k m).getD d

/-- Set the value at `k`: an entry equal to the default is not listed. -/
def mapSet {α : Type} [DecidableEq α] (d : α) (m : SMap α) (k : Nat) (x : α) : SMap α :=
  if x = d then mapDrop k m else mapPut k x m

/-- Keys strictly rise, and every key is at least `lo`. -/
def mapRising {α : Type} (lo : Nat) : SMap α → Bool
  | [] => true
  | (i, _) :: m => decide (lo ≤ i) && mapRising (i + 1) m

/-- The canonical form of a map with default `d`. -/
def mapWf {α : Type} [DecidableEq α] (d : α) (m : SMap α) : Bool :=
  mapRising 0 m && m.all (fun e => decide (e.2 ≠ d))

/-- Set the values of `n` consecutive keys from `k`, the value of key k + i being `f i`. -/
def mapSetRange {α : Type} [DecidableEq α] (d : α) (f : Nat → α) : Nat → Nat → SMap α → SMap α
  | _, 0, m => m
  | k, n + 1, m => mapSet d (mapSetRange d f k n m) (k + n) (f n)

/-- Drop every key in [lo, lo + n). -/
def mapDropRange {α : Type} (lo n : Nat) (m : SMap α) : SMap α :=
  m.takeWhile (fun e => decide (e.1 < lo)) ++
    (m.dropWhile (fun e => decide (e.1 < lo))).dropWhile (fun e => decide (e.1 < lo + n))

end Sys2Proof.Machine
end

