-- ==== Sys2Proof/Syntax.lean ====
section
/-! DEFINITION. The abstract syntax: one constructor per row of the opcode table, in the table's order. A native word
keeps its operand fields as the codes of 02 R39 (their files and widths depend on the opcode and on MODE); an event of
the device (95) names the agent it is about. -/

namespace Sys2Proof

/-- One row of the opcode table: an instruction word (02 R44) or an event of the device (95). -/
inductive Instr where
  /-- BR (R71). -/
  | br (p : BitVec 5) (s : BitVec 1) (k : BitVec 2) (o : BitVec 16)
  /-- BRX (R73). -/
  | brx (a : Code)
  /-- CALL (R75). -/
  | call (i : BitVec 24)
  /-- CALLX (R75). -/
  | callx (a : Code)
  /-- RET (R75). -/
  | ret
  /-- REGANG (R77). -/
  | regang (m : Code)
  /-- EXIT (R79). -/
  | exit
  /-- NOP (R95). -/
  | nop
  /-- YIELD (R95). -/
  | yield
  /-- PROMO (R95). -/
  | promo
  /-- PROMO_DEMOTE (R95). -/
  | promoDemote
  /-- PAND (R81). -/
  | pand (d : Code) (a : Code) (b : Code)
  /-- POR (R81). -/
  | por (d : Code) (a : Code) (b : Code)
  /-- PXOR (R81). -/
  | pxor (d : Code) (a : Code) (b : Code)
  /-- PNOT (R81). -/
  | pnot (d : Code) (a : Code)
  /-- EXSAVE (R80). -/
  | exsave (d : Code)
  /-- EXAND (R80). -/
  | exand (d : Code) (a : Code) (b : BitVec 1)
  /-- EXLOAD (R80). -/
  | exload (a : Code)
  /-- BALLOT (R83). -/
  | ballot (d : Code) (a : Code)
  /-- VOTE (R83). -/
  | vote (d : Code) (a : Code) (b : BitVec 2)
  /-- POPC (R83). -/
  | popc (d : Code) (a : Code)
  /-- MPFX (R83). -/
  | mpfx (d : Code) (a : Code)
  /-- SHFL (R84). -/
  | shfl (d : Code) (a : Code) (b : Code)
  /-- SHFLI (R84). -/
  | shfli (d : Code) (m : BitVec 2) (c : BitVec 5)
  /-- GRED (R85). -/
  | gred (d : Code) (a : Code) (b : BitVec 3)
  /-- PSETS (R81). -/
  | psets (d : Code) (a : Code)
  /-- MSET (R86). -/
  | mset (s : BitVec 3) (i : BitVec 16)
  /-- MSETG (R87). -/
  | msetg (i : BitVec 23)
  /-- MGET (R87). -/
  | mget (d : Code)
  /-- MSETR (R87). -/
  | msetr (a : Code)
  /-- WAIT (R89). -/
  | wait (l : BitVec 6) (s : BitVec 6) (c : BitVec 6) (t : BitVec 6)
  /-- WAITR (R89). -/
  | waitr (a : BitVec 3) (b : Code)
  /-- REGROW (R92). -/
  | regrow (d : Code) (i : BitVec 16)
  /-- REGSHR (R94). -/
  | regshr (i : BitVec 16)
  /-- FLGET (R153). -/
  | flget (d : Code)
  /-- FLCLR (R153). -/
  | flclr (m : BitVec 5)
  /-- SADD (R125). -/
  | sadd (d : Code) (a : Code) (b : Code)
  /-- SSUB (R125). -/
  | ssub (d : Code) (a : Code) (b : Code)
  /-- SMUL (R125). -/
  | smul (d : Code) (a : Code) (b : Code)
  /-- SAND (R125). -/
  | sand (d : Code) (a : Code) (b : Code)
  /-- SOR (R125). -/
  | sor (d : Code) (a : Code) (b : Code)
  /-- SXOR (R125). -/
  | sxor (d : Code) (a : Code) (b : Code)
  /-- SSHL (R125). -/
  | sshl (d : Code) (a : Code) (b : Code)
  /-- SSHR (R125). -/
  | sshr (d : Code) (a : Code) (b : Code)
  /-- SSLT (R125). -/
  | sslt (d : Code) (a : Code) (b : Code)
  /-- SMOVI (R126). -/
  | smovi (d : Code) (i : BitVec 16)
  /-- SMOVHI (R126). -/
  | smovhi (d : Code) (i : BitVec 16)
  /-- SREAD (R127). -/
  | sread (d : Code) (a : Code) (b : Code)
  /-- IADD (R128). -/
  | iadd (d : Code) (a : Code) (b : Code)
  /-- ISUB (R128). -/
  | isub (d : Code) (a : Code) (b : Code)
  /-- IMUL (R128). -/
  | imul (d : Code) (a : Code) (b : Code)
  /-- IMULH (R128). -/
  | imulh (d : Code) (a : Code) (b : Code)
  /-- IMAD (R128). -/
  | imad (d : Code) (a : Code) (b : Code)
  /-- IDIV (R131). -/
  | idiv (d : Code) (a : Code) (b : Code)
  /-- IREM (R131). -/
  | irem (d : Code) (a : Code) (b : Code)
  /-- IMIN (R128). -/
  | imin (d : Code) (a : Code) (b : Code)
  /-- IMAX (R128). -/
  | imax (d : Code) (a : Code) (b : Code)
  /-- IABS (R128). -/
  | iabs (d : Code) (a : Code)
  /-- INEG (R128). -/
  | ineg (d : Code) (a : Code)
  /-- ICMPEQ (R133). -/
  | icmpeq (d : Code) (a : Code) (b : Code)
  /-- ICMPNE (R133). -/
  | icmpne (d : Code) (a : Code) (b : Code)
  /-- ICMPLT (R133). -/
  | icmplt (d : Code) (a : Code) (b : Code)
  /-- ICMPLE (R133). -/
  | icmple (d : Code) (a : Code) (b : Code)
  /-- ISEL (R134). -/
  | isel (d : Code) (a : Code) (b : Code)
  /-- IMOVI (R135). -/
  | imovi (d : Code) (i : BitVec 16)
  /-- IMOVHI (R135). -/
  | imovhi (d : Code) (i : BitVec 16)
  /-- VBCST (R135). -/
  | vbcst (d : Code) (a : Code)
  /-- IADDI (R128). -/
  | iaddi (d : Code) (i : BitVec 16)
  /-- IADDC (R130). -/
  | iaddc (d : Code) (a : Code) (b : Code)
  /-- IMADW (R129). -/
  | imadw (d : Code) (a : Code) (b : Code)
  /-- AND (R136). -/
  | and (d : Code) (a : Code) (b : Code)
  /-- OR (R136). -/
  | or (d : Code) (a : Code) (b : Code)
  /-- XOR (R136). -/
  | xor (d : Code) (a : Code) (b : Code)
  /-- SHL (R137). -/
  | shl (d : Code) (a : Code) (b : Code)
  /-- SHR (R137). -/
  | shr (d : Code) (a : Code) (b : Code)
  /-- SAR (R137). -/
  | sar (d : Code) (a : Code) (b : Code)
  /-- ROL (R137). -/
  | rol (d : Code) (a : Code) (b : Code)
  /-- ROR (R137). -/
  | ror (d : Code) (a : Code) (b : Code)
  /-- BCNT (R138). -/
  | bcnt (d : Code) (a : Code)
  /-- CLZ (R138). -/
  | clz (d : Code) (a : Code)
  /-- BFE (R139). -/
  | bfe (d : Code) (a : Code) (b : Code)
  /-- BFI (R139). -/
  | bfi (d : Code) (a : Code) (b : Code)
  /-- LEA (R140). -/
  | lea (d : Code) (a : Code) (b : Code)
  /-- CVT (R163). -/
  | cvt (d : Code) (a : Code) (b : Code)
  /-- CVTPK (R166). -/
  | cvtpk (d : Code) (a : Code)
  /-- UNPK (R166). -/
  | unpk (d : Code) (a : Code)
  /-- FRINT (R168). -/
  | frint (d : Code) (a : Code)
  /-- CVTQ (R167). -/
  | cvtq (d : Code) (a : Code) (b : Code)
  /-- CVTDQ (R167). -/
  | cvtdq (d : Code) (a : Code) (b : Code)
  /-- FADD (R158). -/
  | fadd (d : Code) (a : Code) (b : Code)
  /-- FSUB (R158). -/
  | fsub (d : Code) (a : Code) (b : Code)
  /-- FMUL (R158). -/
  | fmul (d : Code) (a : Code) (b : Code)
  /-- FFMA (R158). -/
  | ffma (d : Code) (a : Code) (b : Code)
  /-- FFMS (R158). -/
  | ffms (d : Code) (a : Code) (b : Code)
  /-- FNMA (R158). -/
  | fnma (d : Code) (a : Code) (b : Code)
  /-- FMIN (R159). -/
  | fmin (d : Code) (a : Code) (b : Code)
  /-- FMAX (R159). -/
  | fmax (d : Code) (a : Code) (b : Code)
  /-- FABS (R161). -/
  | fabs (d : Code) (a : Code)
  /-- FNEG (R161). -/
  | fneg (d : Code) (a : Code)
  /-- VMOV (R161). -/
  | vmov (d : Code) (a : Code)
  /-- FCMPEQ (R160). -/
  | fcmpeq (d : Code) (a : Code) (b : Code)
  /-- FCMPLT (R160). -/
  | fcmplt (d : Code) (a : Code) (b : Code)
  /-- FCMPLE (R160). -/
  | fcmple (d : Code) (a : Code) (b : Code)
  /-- FCMPUN (R160). -/
  | fcmpun (d : Code) (a : Code) (b : Code)
  /-- FCLASS (R160). -/
  | fclass (d : Code) (a : Code)
  /-- FRCP (R158). -/
  | frcp (d : Code) (a : Code)
  /-- FRSQ (R158). -/
  | frsq (d : Code) (a : Code)
  /-- FSQRT (R158). -/
  | fsqrt (d : Code) (a : Code)
  /-- FDIV (R158). -/
  | fdiv (d : Code) (a : Code) (b : Code)
  /-- FEXP2 (R158). -/
  | fexp2 (d : Code) (a : Code)
  /-- FLOG2 (R158). -/
  | flog2 (d : Code) (a : Code)
  /-- FHADD (R162). -/
  | fhadd (d : Code) (a : Code) (b : Code)
  /-- FHMUL (R162). -/
  | fhmul (d : Code) (a : Code) (b : Code)
  /-- FHFMA (R162). -/
  | fhfma (d : Code) (a : Code) (b : Code)
  /-- FHMIN (R162). -/
  | fhmin (d : Code) (a : Code) (b : Code)
  /-- FHMAX (R162). -/
  | fhmax (d : Code) (a : Code) (b : Code)
  /-- FDOT2 (R162). -/
  | fdot2 (d : Code) (a : Code) (b : Code)
  /-- FSEL (R161). -/
  | fsel (d : Code) (a : Code) (b : Code)
  /-- FSCALE (R158). -/
  | fscale (d : Code) (a : Code) (b : Code)
  /-- FGETEXP (R158). -/
  | fgetexp (d : Code) (a : Code)
  /-- FCOPYSIGN (R161). -/
  | fcopysign (d : Code) (a : Code) (b : Code)
  /-- LDB (R178). -/
  | ldb (d : Code) (a : Code) (n : BitVec 6) (s : BitVec 2)
  /-- LDBS (R178). -/
  | ldbs (d : Code) (a : Code) (n : BitVec 6) (s : BitVec 2)
  /-- LDH (R178). -/
  | ldh (d : Code) (a : Code) (n : BitVec 6) (s : BitVec 2)
  /-- LDHS (R178). -/
  | ldhs (d : Code) (a : Code) (n : BitVec 6) (s : BitVec 2)
  /-- LDW (R178). -/
  | ldw (d : Code) (a : Code) (n : BitVec 6) (s : BitVec 2)
  /-- LDD (R178). -/
  | ldd (d : Code) (a : Code) (n : BitVec 6) (s : BitVec 2)
  /-- LDQ (R178). -/
  | ldq (d : Code) (a : Code) (n : BitVec 6) (s : BitVec 2)
  /-- LD_ACQ (R220). -/
  | ldAcq (d : Code) (a : Code) (c : BitVec 3) (r : BitVec 1) (w : BitVec 1) (s : BitVec 2)
  /-- STB (R178). -/
  | stb (d : Code) (a : Code) (n : BitVec 6) (s : BitVec 2)
  /-- STH (R178). -/
  | sth (d : Code) (a : Code) (n : BitVec 6) (s : BitVec 2)
  /-- STW (R178). -/
  | stw (d : Code) (a : Code) (n : BitVec 6) (s : BitVec 2)
  /-- STD (R178). -/
  | std (d : Code) (a : Code) (n : BitVec 6) (s : BitVec 2)
  /-- STQ (R178). -/
  | stq (d : Code) (a : Code) (n : BitVec 6) (s : BitVec 2)
  /-- ST_REL (R219). -/
  | stRel (d : Code) (a : Code) (c : BitVec 3) (l : BitVec 1) (w : BitVec 1) (s : BitVec 2)
  /-- PREF (R187). -/
  | pref (l : BitVec 1) (a : Code) (n : BitVec 6) (s : BitVec 1)
  /-- PGLOB (R173). -/
  | pglob (d : Code) (a : Code)
  /-- ATADD (R183). -/
  | atadd (d : Code) (a : Code) (c : BitVec 3) (r : BitVec 1) (w : BitVec 1) (s : BitVec 2)
  /-- ATFADD (R183). -/
  | atfadd (d : Code) (a : Code) (c : BitVec 3) (r : BitVec 1) (w : BitVec 1) (s : BitVec 2)
  /-- ATMIN (R183). -/
  | atmin (d : Code) (a : Code) (c : BitVec 3) (r : BitVec 1) (w : BitVec 1) (s : BitVec 2)
  /-- ATMAX (R183). -/
  | atmax (d : Code) (a : Code) (c : BitVec 3) (r : BitVec 1) (w : BitVec 1) (s : BitVec 2)
  /-- ATAND (R183). -/
  | atand (d : Code) (a : Code) (c : BitVec 3) (r : BitVec 1) (w : BitVec 1) (s : BitVec 2)
  /-- ATOR (R183). -/
  | ator (d : Code) (a : Code) (c : BitVec 3) (r : BitVec 1) (w : BitVec 1) (s : BitVec 2)
  /-- ATXOR (R183). -/
  | atxor (d : Code) (a : Code) (c : BitVec 3) (r : BitVec 1) (w : BitVec 1) (s : BitVec 2)
  /-- ATXCHG (R183). -/
  | atxchg (d : Code) (a : Code) (c : BitVec 3) (l : BitVec 1) (r : BitVec 1) (w : BitVec 1) (s : BitVec 2)
  /-- ATCAS (R183). -/
  | atcas (d : Code) (a : Code) (c : BitVec 3) (l : BitVec 1) (r : BitVec 1) (w : BitVec 1) (s : BitVec 2)
  /-- FENCE_ACQ (R221). -/
  | fenceAcq (c : BitVec 3)
  /-- FENCE_REL (R221). -/
  | fenceRel (c : BitVec 3)
  /-- FENCE_ACQREL (R221). -/
  | fenceAcqrel (c : BitVec 3)
  /-- FENCE_SC (R221). -/
  | fenceSc (c : BitVec 3)
  /-- FENCE_PATH (R229). -/
  | fencePath (a : BitVec 6) (b : BitVec 6)
  /-- MWATCH (R185). -/
  | mwatch (d : Code) (a : Code) (n : BitVec 6) (s : BitVec 1)
  /-- MWAIT (R186). -/
  | mwait (d : Code) (a : Code)
  /-- TICK (R190). -/
  | tick
  /-- CMAINT (R188). -/
  | cmaint (o : BitVec 2) (a : Code) (n : BitVec 6) (s : BitVec 1)
  /-- BINIT (R261). -/
  | binit (a : Code) (b : Code)
  /-- BARV (R262). -/
  | barv (p : BitVec 6) (a : Code)
  /-- BWAIT (R263). -/
  | bwait (a : Code)
  /-- BWAIT_GEN (R263). -/
  | bwaitGen (a : Code) (b : Code)
  /-- BARW (R263). -/
  | barw (p : BitVec 6) (a : Code)
  /-- BADDX (R264). -/
  | baddx (a : Code) (b : Code)
  /-- BADDX_E (R264). -/
  | baddxE (a : Code) (b : Code)
  /-- BTEST (R265). -/
  | btest (a : Code) (b : Code)
  /-- BTEST_WORD1 (R265). -/
  | btestWord1 (a : Code) (b : Code)
  /-- NGJOIN (R269). -/
  | ngjoin (a : Code)
  /-- NGJOIN_LEAVE (R269). -/
  | ngjoinLeave (a : Code)
  /-- NGARV (R270). -/
  | ngarv (p : BitVec 6) (a : Code)
  /-- NGWAIT (R270). -/
  | ngwait (a : Code)
  /-- NGWAIT_GEN (R270). -/
  | ngwaitGen (a : Code) (b : Code)
  /-- NGWAIT_READ (R270). -/
  | ngwaitRead (a : Code) (b : Code)
  /-- BSETM (R269). -/
  | bsetm (a : Code) (b : Code)
  /-- BSETM_DEVICE (R269). -/
  | bsetmDevice (a : Code) (b : Code)
  /-- BSETM_ROOT (R269). -/
  | bsetmRoot (a : Code) (b : Code)
  /-- CPYC (R282). -/
  | cpyc (x : BitVec 1) (c : BitVec 1) (g : BitVec 4) (a : Code) (b : Code)
  /-- CPY (R284). -/
  | cpy (a : Code) (b : Code)
  /-- GATH (R286). -/
  | gath (a : Code) (b : Code)
  /-- SCAT (R286). -/
  | scat (a : Code) (b : Code)
  /-- MCAST (R289). -/
  | mcast (a : Code) (b : Code)
  /-- SCLP (R291). -/
  | sclp (a : Code) (b : Code)
  /-- GQRY (R295). -/
  | gqry (a : Code) (b : Code)
  /-- GCNCL (R296). -/
  | gcncl (a : Code) (b : Code)
  /-- EXPB (R304). -/
  | expb (d : Code) (a : Code) (b : Code)
  /-- EXPB_G (R304). -/
  | expbG (d : Code) (a : Code) (b : Code)
  /-- EXPN (R305). -/
  | expn (d : Code) (a : Code)
  /-- SEGR (R306). -/
  | segr (d : Code) (a : Code)
  /-- XSAVE (R310). -/
  | xsave (a : Code) (n : BitVec 6) (s : BitVec 1)
  /-- XRST (R310). -/
  | xrst (a : Code) (n : BitVec 6) (s : BitVec 1)
  /-- VSORT (R313). -/
  | vsort (d : Code) (a : Code)
  /-- VTOPK (R313). -/
  | vtopk (d : Code) (a : Code) (b : Code)
  /-- TKMRG (R315). -/
  | tkmrg (d : Code) (a : Code) (b : Code)
  /-- CTOPK (R316). -/
  | ctopk (d : Code) (a : Code) (b : Code)
  /-- HINS (R320). -/
  | hins (d : Code) (a : Code) (b : Code)
  /-- HACC (R320). -/
  | hacc (d : Code) (a : Code) (b : Code)
  /-- HFIND (R320). -/
  | hfind (d : Code) (a : Code) (b : Code)
  /-- HINIT (R318). -/
  | hinit (a : Code) (b : Code)
  /-- TALLOC (R174). -/
  | talloc (d : Code) (a : Code) (b : Code)
  /-- TFREE (R175). -/
  | tfree (a : Code)
  /-- MLOOP (R344). -/
  | mloop (a : Code)
  /-- MDRAIN (R353). -/
  | mdrain (z : BitVec 1) (s : BitVec 1) (a : Code) (b : Code)
  /-- MZERO (R355). -/
  | mzero (a : Code)
  /-- TACC (R357). -/
  | tacc (d : Code) (a : Code) (b : Code)
  /-- EVSET (R347). -/
  | evset (a : Code)
  /-- EVCLR (R347). -/
  | evclr (a : Code)
  /-- EVWAIT (R347). -/
  | evwait (a : Code)
  /-- EVWAIT_CLEAR (R347). -/
  | evwaitClear (a : Code)
  /-- MPT (R359). -/
  | mpt (a : Code)
  /-- MSAVE (R355). -/
  | msave (a : Code) (b : Code)
  /-- MRESTORE (R355). -/
  | mrestore (a : Code) (b : Code)
  /-- RINV (R368). -/
  | rinv (a : Code) (b : Code)
  /-- RINVH (R369). -/
  | rinvh (a : Code) (b : Code)
  /-- RWAIT (R371). -/
  | rwait (d : Code) (a : Code)
  /-- RPOLL (R371). -/
  | rpoll (d : Code) (a : Code)
  /-- RGET (R372). -/
  | rget (a : Code) (b : Code)
  /-- RGET_BARN (R372). -/
  | rgetBarn (a : Code) (b : Code)
  /-- RDROP (R373). -/
  | rdrop (a : Code)
  /-- RBIND (R376). -/
  | rbind (a : Code) (b : Code)
  /-- RPUT (R377). -/
  | rput (a : Code) (b : Code)
  /-- RFAIL (R377). -/
  | rfail (a : Code) (b : Code)
  /-- TCARM (R382). -/
  | tcarm (a : Code) (b : Code)
  /-- TCADD (R383). -/
  | tcadd (a : Code) (b : Code)
  /-- TRAP (R394). -/
  | trap (c : BitVec 16)
  /-- TVEC (R393). -/
  | tvec (l : BitVec 1) (a : Code) (b : Code)
  /-- TRET (R395). -/
  | tret
  /-- TRET_SKIP (R395). -/
  | tretSkip
  /-- TDONE (R396). -/
  | tdone (a : Code)
  /-- SYSRD (R404). -/
  | sysrd (n : Code) (a : Code)
  /-- SYSWR (R404). -/
  | syswr (n : Code) (a : Code)
  /-- TLBIP (R407). -/
  | tlbip (a : Code) (b : Code)
  /-- TLBIA (R407). -/
  | tlbia (a : Code)
  /-- TLBALL (R407). -/
  | tlball
  /-- FWCALL (R408). -/
  | fwcall (a : Code) (b : Code)
  /-- REGANG_MERGE (R77). -/
  | regangMerge (gang : Nat) (pc : PcVal)
  /-- GANG_END (R79). -/
  | gangEnd (gang : Nat)
  /-- REGROW_GRANT (R92). -/
  | regrowGrant (core lg : Nat)
  /-- REGROW_TIMEOUT (R93). -/
  | regrowTimeout (gang : Nat)
  /-- PROMOTION_EVALUATION (R106). -/
  | promotionEvaluation (core lg : Nat)
  /-- DEMOTION (R108). -/
  | demotion (core lg : Nat)
  /-- EARLY_LOAD_REREAD (R113). -/
  | earlyLoadReread (gang : Nat) (early : List (Nat × DWord))
  /-- BRANCH_MISPREDICT (R96). -/
  | branchMispredict (gang : Nat)
  /-- MEMORY_OPERATION_COMPLETE (R52). -/
  | memoryOperationComplete (gang id : Nat)
  /-- RELEASE_COMPLETE (R219). -/
  | releaseComplete (gang id : Nat)
  /-- MWAIT_TIMEOUT (R186). -/
  | mwaitTimeout (gang : Nat)
  /-- REUSE_CLOCK_ADVANCE (R190). -/
  | reuseClockAdvance (wid : Nat)
  /-- GT_ADVANCE (R198). -/
  | gtAdvance
  /-- PAGE_WALK (R237). -/
  | pageWalk (core pasid va access : Nat)
  /-- HEAT_SWEEP (R241). -/
  | heatSweep
  /-- TLB_INVALIDATION_COMPLETE (R250). -/
  | tlbInvalidationComplete (gang id : Nat)
  /-- TEARDOWN_COMPLETE (R252). -/
  | teardownComplete (pasid : Nat)
  /-- NAMED_GROUP_NODE_ARRIVAL (R267). -/
  | namedGroupNodeArrival (part gid node : Nat)
  /-- NAMED_GROUP_COMPLETION (R267). -/
  | namedGroupCompletion (part gid : Nat)
  /-- GLEANER_COMMAND_START (R275). -/
  | gleanerCommandStart (core : Nat)
  /-- COPY_UNIT (R285). -/
  | copyUnit (core ticket : Nat)
  /-- GATHER_ROW (R287). -/
  | gatherRow (core ticket row : Nat)
  /-- MULTICAST_ACK (R290). -/
  | multicastAck (core ticket receiver : Nat)
  /-- SCALE_PLACEMENT (R291). -/
  | scalePlacement (core ticket : Nat)
  /-- GLEANER_COMMAND_COMPLETION (R292). -/
  | gleanerCommandCompletion (core ticket : Nat)
  /-- MLOOP_ENTRY_START (R348). -/
  | mloopEntryStart (cluster slot : Nat)
  /-- THRESHER_PASS_GRANT (R349). -/
  | thresherPassGrant (cluster : Nat)
  /-- THRESHER_PASS_END (R332). -/
  | thresherPassEnd (cluster : Nat)
  /-- TILE_PORT_START (R483). -/
  | tilePortStart (cluster : Nat)
  /-- TILE_OPERATION_COMPLETE (R354). -/
  | tileOperationComplete (cluster : Nat)
  /-- INVOCATION_ARRIVAL (R375). -/
  | invocationArrival (msg : Nat)
  /-- DEPENDENT_MESSAGE_AT_HOME (R369). -/
  | dependentMessageAtHome (msg : Nat)
  /-- BIND_REPORT (R376). -/
  | bindReport (msg : Nat)
  /-- RESULT_POSTED (R377). -/
  | resultPosted (msg : Nat)
  /-- RGET_RESULT_ARRIVAL (R372). -/
  | rgetResultArrival (msg : Nat)
  /-- INVOCATION_FABRIC_TIMEOUT (R378). -/
  | invocationFabricTimeout (msg : Nat)
  /-- TCADD_ARRIVAL (R383). -/
  | tcaddArrival (msg : Nat)
  /-- PENDING_FIRE_COPY (R381). -/
  | pendingFireCopy (cell : Nat)
  /-- PREEMPT_GRACE_EXPIRY (R399). -/
  | preemptGraceExpiry (wid : Nat)
  /-- PREEMPTION_SAVE (R400). -/
  | preemptionSave (wid : Nat)
  /-- WORKGROUP_RESTORE (R403). -/
  | workgroupRestore (wid core : Nat)
  /-- FWCALL_REPLY (R408). -/
  | fwcallReply (gang : Nat)
  /-- PLAQUEL_TRANSLATION (R64). -/
  | plaquelTranslation (launch : Nat)
  /-- DOORBELL_WRITE (R412). -/
  | doorbellWrite (queue : Nat)
  /-- QUEUE_POLL (R412). -/
  | queuePoll
  /-- LAUNCH_PACKET (R423). -/
  | launchPacket (queue : Nat)
  /-- WAIT_AND_PACKET (R420). -/
  | waitAndPacket (queue : Nat)
  /-- WAIT_AND_POLL (R420). -/
  | waitAndPoll (queue pkt : Nat)
  /-- WAIT_AND_TIMEOUT (R420). -/
  | waitAndTimeout (queue pkt : Nat)
  /-- TRIGGER_ARM_PACKET (R419). -/
  | triggerArmPacket (queue : Nat)
  /-- COPY_PACKET (R419). -/
  | copyPacket (queue : Nat)
  /-- SIGNAL_PACKET (R419). -/
  | signalPacket (queue : Nat)
  /-- PARTITION_CONFIGURE (R421). -/
  | partitionConfigure (queue : Nat)
  /-- PARTITION_REMOVE (R421). -/
  | partitionRemove (queue : Nat)
  /-- PARTITION_QUEUE_DESCRIPTOR (R413). -/
  | partitionQueueDescriptor (queue : Nat)
  /-- PARTITION_TEARDOWN (R252). -/
  | partitionTeardown (queue : Nat)
  /-- PARTITION_FLUSH (R64). -/
  | partitionFlush (queue : Nat)
  /-- DISPATCH (R426). -/
  | dispatch (die : Nat)
  /-- WORKGROUP_ADMISSION (R196). -/
  | workgroupAdmission (launch : Nat) (cores : List Nat)
  /-- HEAD_AGEING (R429). -/
  | headAgeing (die queue : Nat)
  /-- WORKGROUP_RETIREMENT (R430). -/
  | workgroupRetirement (wid : Nat)
  /-- WG_PREEMPT_WRITE (R399). -/
  | wgPreemptWrite (value : Word)
  /-- TFQ_REPLY_RETRY (R406). -/
  | tfqReplyRetry (die entry : Nat)
  /-- TFQ_REPLY_DELIVER (R406). -/
  | tfqReplyDeliver (die entry : Nat)
  /-- TFQ_REPLY_FAIL (R406). -/
  | tfqReplyFail (die entry fcause : Nat)
  /-- TFQ_HEAD_WRITE (R406). -/
  | tfqHeadWrite (die : Nat) (value : Word)
  /-- REGISTER_WRITE (R405). -/
  | registerWrite (window : Bool) (die number : Nat) (value : DWord)
  /-- POLICY_COMMIT (R442). -/
  | policyCommit (part : Nat)
  /-- HOST_BAR0_ACCESS (R438): `addr` is the function's number times 2^40, the size of its BAR, and the offset in it. -/
  | hostBar0Access (write : Bool) (addr size data : Nat)
  /-- ATTESTATION_REQUEST (R448). -/
  | attestationRequest (nonce : List Byte) (key : Option (List Byte))
  /-- DVFS_REQ (R453). -/
  | dvfsReq (value : Word)
  /-- CLOCK_SWITCH_END (R452). -/
  | clockSwitchEnd
  /-- VOLTAGE_SLEW_END (R452). -/
  | voltageSlewEnd
  /-- THERMAL_THROTTLE (R449). -/
  | thermalThrottle (die temp : Nat)
  /-- THROTTLE_END (R449). -/
  | throttleEnd
  /-- THERMAL_SHUTDOWN (R449). -/
  | thermalShutdown (die temp : Nat)
  /-- POWER_CAP_STEP (R450). -/
  | powerCapStep (average : Nat)
  /-- TELEMETRY_SAMPLE (R458). -/
  | telemetrySample (power inlet hot : Nat)
  /-- PATROL_SCRUB (R455). -/
  | patrolScrub (line verdict : Nat)
  /-- ROW_ACTIVATION_REFRESH (R456). -/
  | rowActivationRefresh (row : Nat)
  /-- MESH_FLIT_ERROR (R204): `found` holds, of a header, the tenants that its copies name; of a payload, the line of memory
  that it was for, if any. -/
  | meshFlitError (header : Bool) (die pasid : Nat) (found : List Nat)
  /-- LUMEN_MESSAGE_RECEIVE (R433). -/
  | lumenMessageReceive (link : Nat) (crcOk : Bool) (header : DWord) (payload : List Byte)
  /-- HELD_MESSAGE_RELEASE (R436). -/
  | heldMessageRelease (link : Nat)
  /-- LINK_RECALIBRATION (R457). -/
  | linkRecalibration (link : Nat) (far : Option Nat)
  /-- INBOUND_ACCESS (R253). -/
  | inboundAccess (src spart pasid kind addr size data : Nat)
  /-- INBOUND_TIMEOUT (R253). -/
  | inboundTimeout (id : Nat)
  /-- INITIATOR_TIMEOUT (R253). -/
  | initiatorTimeout (msg : Nat)
  /-- DEVICE_RESET (R437, R432): `pins` holds the identifier strap in its low 12 bits and, of each link in turn, 13 bits for
  what training finds: 0 when the link cannot train, otherwise 1 more than the device at its far end. -/
  | deviceReset (pins : Nat) (bridge : Bool)
  /-- ILLEGAL_INSTRUCTION (R46). -/
  | illegalInstruction (word : Word)
  /-- PAGE_REQUEST_REPLY (R244). -/
  | pageRequestReply (die entry : Nat) (resolved : Bool)
deriving DecidableEq, Repr

end Sys2Proof
end

