-- ==== Sys2Proof/WellFormed.lean ====
section
/-! DEFINITION. Static legality: which operand codes and field values an instruction word may hold whatever MODE holds
(02 R39, R41, R42, R46). -/

namespace Sys2Proof

/-- Why a word is rejected (02 R46). -/
inductive Reject where
  | unassignedOpcode
  | reservedSubOp
  | reservedField
  | reservedValue
  | illegalOperand
deriving DecidableEq, Repr

/-- Vector source: v0 to v239 or a fixed source; 0xFF is illegal (R39). -/
def vSrc (c : Code) : Bool := decide (c.toNat ≤ 0xFE)

/-- Vector destination: v0 to v239, or 0xF0 to discard (R41). -/
def vDst (c : Code) : Bool := decide (c.toNat ≤ 0xF0)

/-- 64-bit vector source: an even register, or a fixed source but xih (R40, R42). -/
def vSrc64 (c : Code) : Bool :=
  (decide (c.toNat < 0xF0) && decide (c.toNat % 2 = 0)) || (decide (0xF0 ≤ c.toNat) && decide (c.toNat ≤ 0xFD))

/-- 64-bit vector destination: an even register, or 0xF0 to discard (R41, R42). -/
def vDst64 (c : Code) : Bool := decide (c.toNat ≤ 0xF0) && decide (c.toNat % 2 = 0)

/-- 128-bit vector source: a multiple of 4, fixed sources included (R42, R482; log entry 12, DEDUCED). -/
def vSrc128 (c : Code) : Bool := decide (c.toNat ≤ 0xFE) && decide (c.toNat % 4 = 0)

/-- 128-bit vector destination: a multiple of 4, or 0xF0 to discard. -/
def vDst128 (c : Code) : Bool := decide (c.toNat ≤ 0xF0) && decide (c.toNat % 4 = 0)

/-- The 32-register group of rget: v0 to v208 (15 R372). -/
def vGroup32 (c : Code) : Bool := decide (c.toNat ≤ 0xD0)

/-- A uniform fixed source: 0xF0 to 0xF2 and 0xF4 to 0xFA (R40). -/
def uniformCode (c : Code) : Bool :=
  (decide (0xF0 ≤ c.toNat) && decide (c.toNat ≤ 0xF2)) || (decide (0xF4 ≤ c.toNat) && decide (c.toNat ≤ 0xFA))

/-- Scalar source: s0 to s31 or a uniform fixed source (R39, R40). -/
def sSrc (c : Code) : Bool := decide (c.toNat < 32) || uniformCode c

/-- Scalar destination: s0 to s31, or 0xF0 to discard (R41). -/
def sDst (c : Code) : Bool := decide (c.toNat < 32) || decide (c.toNat = 0xF0)

/-- Scalar field that is read and then written: a register, or 0xF0. -/
def sBoth (c : Code) : Bool := sDst c

/-- 64-bit scalar source: a register or a uniform fixed source, its code even (03 R72). -/
def sSrc64 (c : Code) : Bool := sSrc c && decide (c.toNat % 2 = 0)

/-- 64-bit scalar destination: an even register, or 0xF0. -/
def sDst64 (c : Code) : Bool := (decide (c.toNat < 32) && decide (c.toNat % 2 = 0)) || decide (c.toNat = 0xF0)

/-- Scalar register only (14 R339, 15 R365). -/
def sReg (c : Code) : Bool := decide (c.toNat < 32)

/-- Even scalar register only (03 R72, 14 R339, 15 R365). -/
def sReg64 (c : Code) : Bool := decide (c.toNat < 32) && decide (c.toNat % 2 = 0)

/-- Scalar quad of registers, first a multiple of 4 (11 R277, 15 R365). -/
def sQuadReg (c : Code) : Bool := decide (c.toNat < 32) && decide (c.toNat % 4 = 0)

/-- Scalar quad operand of tlbip: a multiple of 4, uniform fixed sources included (16 R407; R39). -/
def sQuadSrc (c : Code) : Bool := sSrc c && decide (c.toNat % 4 = 0)

/-- Predicate source: p0 to p23, 0xF0 reads 0, 0xF1 reads 1 (R39). -/
def pSrc (c : Code) : Bool := decide (c.toNat < 24) || decide (c.toNat = 0xF0) || decide (c.toNat = 0xF1)

/-- Predicate destination: p0 to p23, or 0xF0 to discard (R41). -/
def pDst (c : Code) : Bool := decide (c.toNat < 24) || decide (c.toNat = 0xF0)

/-- Barrier register (R39). -/
def bReg (c : Code) : Bool := decide (c.toNat < 16)

/-- A 23-bit MODE image that holds no reserved value (R50; 03 R86, R87). -/
def modeImageOk (i : BitVec 23) : Bool :=
  let guard := i.toNat % 32
  (decide (guard < 24) || decide (guard = 31)) && decide (i.toNat / 64 % 32 < 19) &&
    decide (i.toNat / 2048 % 8 < 5) && decide (i.toNat / 131072 % 64 < 62)

/-- mset: the value's must-be-0 bits and the field's own range (03 R86). -/
def msetImageOk (s : BitVec 3) (i : BitVec 16) : Bool :=
  match s.toNat with
  | 0 => decide (i.toNat < 64) && (decide (i.toNat % 32 < 24) || decide (i.toNat % 32 = 31))
  | 1 => decide (i.toNat < 19)
  | 2 => decide (i.toNat < 5)
  | 3 => decide (i.toNat < 2)
  | 4 => decide (i.toNat < 2)
  | 5 => decide (i.toNat < 2)
  | 6 => decide (i.toNat < 62)
  | _ => decide (i.toNat < 1024) && decide (i.toNat % 32 < 19) && decide (i.toNat / 32 % 8 < 5)

/-- regrow and regshr: n is a multiple of 8 from 8 to 232 (03 R91). -/
def allocStepOk (i : BitVec 16) : Bool :=
  decide (i.toNat % 8 = 0) && decide (8 ≤ i.toNat) && decide (i.toNat ≤ 232)

/-- Data field of an ordered form: written (a load, ret = 1) or only read; 32 or 64 bits (R38, R41, R42). -/
def dataOk (written w64 : Bool) (d : Code) : Bool :=
  match written, w64 with
  | true, true => vDst64 d
  | true, false => vDst d
  | false, true => vSrc64 d
  | false, false => vSrc d

/-- Data field of atcas: an even register, or a multiple of 4 when w64 = 1; or a fixed source (07 R183). -/
def casDataOk (written w64 : Bool) (d : Code) : Bool :=
  if d.toNat < 0xF0 then decide (d.toNat % (if w64 then 4 else 2) = 0)
  else if written then decide (d.toNat = 0xF0)
  else decide (d.toNat ≤ (if w64 then 0xFD else 0xFE))

/-- The system register numbers of 16 R405. -/
def sysRegKnown (n : Code) : Bool := decide (n.toNat ≤ 7) || (decide (0x20 ≤ n.toNat) && decide (n.toNat ≤ 0x30))

/-- The 64-bit system registers of 16 R405. -/
def sysRegWide (n : Code) : Bool := [0x07, 0x24, 0x25, 0x27, 0x2B, 0x2D].contains n.toNat

/-- Operand of sysrd (written) or syswr (read): an even pair for a 64-bit register (16 R404). -/
def sysOperandOk (written : Bool) (n a : Code) : Bool :=
  match written, sysRegWide n with
  | true, true => sDst64 a
  | true, false => sDst a
  | false, true => sSrc64 a
  | false, false => sSrc a

/-- Go on when the condition holds; otherwise the rejection. -/
def need (ok : Bool) (r : Reject) (rest : Option Reject) : Option Reject := if ok then rest else some r


/-- The first static rule that an instruction breaks, if any: its operand codes (R39, R41, R42) and its reserved values. -/
def illegality (i : Instr) : Option Reject :=
  match i with
  | .br p s k _ => need (!(k = 0 && decide (24 ≤ p.toNat))) .reservedValue <| need (!(k ≠ 0 && (p ≠ 0 || s ≠ 0))) .reservedField <| none
  | .brx a => need (sReg64 a) .illegalOperand <| none
  | .call _ => none
  | .callx a => need (sReg64 a) .illegalOperand <| none
  | .ret => none
  | .regang _ => none
  | .exit => none
  | .nop => none
  | .yield => none
  | .promo => none
  | .promoDemote => none
  | .pand d a b => need (pDst d) .illegalOperand <| need (pSrc a) .illegalOperand <| need (pSrc b) .illegalOperand <| none
  | .por d a b => need (pDst d) .illegalOperand <| need (pSrc a) .illegalOperand <| need (pSrc b) .illegalOperand <| none
  | .pxor d a b => need (pDst d) .illegalOperand <| need (pSrc a) .illegalOperand <| need (pSrc b) .illegalOperand <| none
  | .pnot d a => need (pDst d) .illegalOperand <| need (pSrc a) .illegalOperand <| none
  | .exsave d => need (sDst d) .illegalOperand <| none
  | .exand d a _ => need (sDst d) .illegalOperand <| need (pSrc a) .illegalOperand <| none
  | .exload a => need (sSrc a) .illegalOperand <| none
  | .ballot d a => need (sDst d) .illegalOperand <| need (pSrc a) .illegalOperand <| none
  | .vote d a b => need (decide (b.toNat ≤ 2)) .reservedValue <| need (pDst d) .illegalOperand <| need (pSrc a) .illegalOperand <| none
  | .popc d a => need (sDst d) .illegalOperand <| need (pSrc a) .illegalOperand <| none
  | .mpfx d a => need (vDst d) .illegalOperand <| need (pSrc a) .illegalOperand <| none
  | .shfl d a b => need (vDst d) .illegalOperand <| need (vSrc a) .illegalOperand <| need (vSrc b) .illegalOperand <| none
  | .shfli d _ _ => need (vDst d) .illegalOperand <| none
  | .gred d a b => need (decide (b.toNat ≤ 5)) .reservedValue <| need (vDst d) .illegalOperand <| need (vSrc a) .illegalOperand <| none
  | .psets d a => need (pDst d) .illegalOperand <| need (sSrc a) .illegalOperand <| none
  | .mset s i => need (msetImageOk s i) .reservedValue <| none
  | .msetg i => need (modeImageOk i) .reservedValue <| none
  | .mget d => need (sDst d) .illegalOperand <| none
  | .msetr a => need (sSrc a) .illegalOperand <| none
  | .wait _ _ _ _ => none
  | .waitr a b => need (decide (a.toNat ≤ 5)) .reservedValue <| need (sSrc b) .illegalOperand <| none
  | .regrow d i => need (allocStepOk i) .reservedValue <| need (pDst d) .illegalOperand <| none
  | .regshr i => need (allocStepOk i) .reservedValue <| none
  | .flget d => need (sDst d) .illegalOperand <| none
  | .flclr _ => none
  | .sadd d a b => need (sDst d) .illegalOperand <| need (sSrc a) .illegalOperand <| need (sSrc b) .illegalOperand <| none
  | .ssub d a b => need (sDst d) .illegalOperand <| need (sSrc a) .illegalOperand <| need (sSrc b) .illegalOperand <| none
  | .smul d a b => need (sDst d) .illegalOperand <| need (sSrc a) .illegalOperand <| need (sSrc b) .illegalOperand <| none
  | .sand d a b => need (sDst d) .illegalOperand <| need (sSrc a) .illegalOperand <| need (sSrc b) .illegalOperand <| none
  | .sor d a b => need (sDst d) .illegalOperand <| need (sSrc a) .illegalOperand <| need (sSrc b) .illegalOperand <| none
  | .sxor d a b => need (sDst d) .illegalOperand <| need (sSrc a) .illegalOperand <| need (sSrc b) .illegalOperand <| none
  | .sshl d a b => need (sDst d) .illegalOperand <| need (sSrc a) .illegalOperand <| need (sSrc b) .illegalOperand <| none
  | .sshr d a b => need (sDst d) .illegalOperand <| need (sSrc a) .illegalOperand <| need (sSrc b) .illegalOperand <| none
  | .sslt d a b => need (sDst d) .illegalOperand <| need (sSrc a) .illegalOperand <| need (sSrc b) .illegalOperand <| none
  | .smovi d _ => need (sDst d) .illegalOperand <| none
  | .smovhi d _ => need (sDst d) .illegalOperand <| none
  | .sread d a b => need (sDst d) .illegalOperand <| need (vSrc a) .illegalOperand <| need (sSrc b) .illegalOperand <| none
  | .iadd d a b => need (vDst d) .illegalOperand <| need (vSrc a) .illegalOperand <| need (vSrc b) .illegalOperand <| none
  | .isub d a b => need (vDst d) .illegalOperand <| need (vSrc a) .illegalOperand <| need (vSrc b) .illegalOperand <| none
  | .imul d a b => need (vDst d) .illegalOperand <| need (vSrc a) .illegalOperand <| need (vSrc b) .illegalOperand <| none
  | .imulh d a b => need (vDst d) .illegalOperand <| need (vSrc a) .illegalOperand <| need (vSrc b) .illegalOperand <| none
  | .imad d a b => need (vDst d) .illegalOperand <| need (vSrc a) .illegalOperand <| need (vSrc b) .illegalOperand <| none
  | .idiv d a b => need (vDst d) .illegalOperand <| need (vSrc a) .illegalOperand <| need (vSrc b) .illegalOperand <| none
  | .irem d a b => need (vDst d) .illegalOperand <| need (vSrc a) .illegalOperand <| need (vSrc b) .illegalOperand <| none
  | .imin d a b => need (vDst d) .illegalOperand <| need (vSrc a) .illegalOperand <| need (vSrc b) .illegalOperand <| none
  | .imax d a b => need (vDst d) .illegalOperand <| need (vSrc a) .illegalOperand <| need (vSrc b) .illegalOperand <| none
  | .iabs d a => need (vDst d) .illegalOperand <| need (vSrc a) .illegalOperand <| none
  | .ineg d a => need (vDst d) .illegalOperand <| need (vSrc a) .illegalOperand <| none
  | .icmpeq d a b => need (pDst d) .illegalOperand <| need (vSrc a) .illegalOperand <| need (vSrc b) .illegalOperand <| none
  | .icmpne d a b => need (pDst d) .illegalOperand <| need (vSrc a) .illegalOperand <| need (vSrc b) .illegalOperand <| none
  | .icmplt d a b => need (pDst d) .illegalOperand <| need (vSrc a) .illegalOperand <| need (vSrc b) .illegalOperand <| none
  | .icmple d a b => need (pDst d) .illegalOperand <| need (vSrc a) .illegalOperand <| need (vSrc b) .illegalOperand <| none
  | .isel d a b => need (vDst d) .illegalOperand <| need (vSrc a) .illegalOperand <| need (vSrc b) .illegalOperand <| none
  | .imovi d _ => need (vDst d) .illegalOperand <| none
  | .imovhi d _ => need (vDst d) .illegalOperand <| none
  | .vbcst d a => need (vDst d) .illegalOperand <| need (sSrc a) .illegalOperand <| none
  | .iaddi d _ => need (vDst d) .illegalOperand <| none
  | .iaddc d a b => need (vDst d) .illegalOperand <| need (vSrc a) .illegalOperand <| need (vSrc b) .illegalOperand <| none
  | .imadw d a b => need (vDst d) .illegalOperand <| need (vSrc a) .illegalOperand <| need (vSrc b) .illegalOperand <| none
  | .and d a b => need (vDst d) .illegalOperand <| need (vSrc a) .illegalOperand <| need (vSrc b) .illegalOperand <| none
  | .or d a b => need (vDst d) .illegalOperand <| need (vSrc a) .illegalOperand <| need (vSrc b) .illegalOperand <| none
  | .xor d a b => need (vDst d) .illegalOperand <| need (vSrc a) .illegalOperand <| need (vSrc b) .illegalOperand <| none
  | .shl d a b => need (vDst d) .illegalOperand <| need (vSrc a) .illegalOperand <| need (vSrc b) .illegalOperand <| none
  | .shr d a b => need (vDst d) .illegalOperand <| need (vSrc a) .illegalOperand <| need (vSrc b) .illegalOperand <| none
  | .sar d a b => need (vDst d) .illegalOperand <| need (vSrc a) .illegalOperand <| need (vSrc b) .illegalOperand <| none
  | .rol d a b => need (vDst d) .illegalOperand <| need (vSrc a) .illegalOperand <| need (vSrc b) .illegalOperand <| none
  | .ror d a b => need (vDst d) .illegalOperand <| need (vSrc a) .illegalOperand <| need (vSrc b) .illegalOperand <| none
  | .bcnt d a => need (vDst d) .illegalOperand <| need (vSrc a) .illegalOperand <| none
  | .clz d a => need (vDst d) .illegalOperand <| need (vSrc a) .illegalOperand <| none
  | .bfe d a b => need (vDst d) .illegalOperand <| need (vSrc a) .illegalOperand <| need (vSrc b) .illegalOperand <| none
  | .bfi d a b => need (vDst d) .illegalOperand <| need (vSrc a) .illegalOperand <| need (vSrc b) .illegalOperand <| none
  | .lea d a b => need (vDst64 d) .illegalOperand <| need (vSrc64 a) .illegalOperand <| need (vSrc b) .illegalOperand <| none
  | .cvt d a b => need (decide (b.toNat ≤ 18)) .reservedValue <| need (vDst d) .illegalOperand <| need (vSrc a) .illegalOperand <| none
  | .cvtpk d a => need (vDst d) .illegalOperand <| need (vSrc a) .illegalOperand <| none
  | .unpk d a => need (vDst d) .illegalOperand <| need (vSrc a) .illegalOperand <| none
  | .frint d a => need (vDst d) .illegalOperand <| need (vSrc a) .illegalOperand <| none
  | .cvtq d a b => need (vDst d) .illegalOperand <| need (vSrc a) .illegalOperand <| need (vSrc64 b) .illegalOperand <| none
  | .cvtdq d a b => need (vDst d) .illegalOperand <| need (vSrc a) .illegalOperand <| need (vSrc64 b) .illegalOperand <| none
  | .fadd d a b => need (vDst d) .illegalOperand <| need (vSrc a) .illegalOperand <| need (vSrc b) .illegalOperand <| none
  | .fsub d a b => need (vDst d) .illegalOperand <| need (vSrc a) .illegalOperand <| need (vSrc b) .illegalOperand <| none
  | .fmul d a b => need (vDst d) .illegalOperand <| need (vSrc a) .illegalOperand <| need (vSrc b) .illegalOperand <| none
  | .ffma d a b => need (vDst d) .illegalOperand <| need (vSrc a) .illegalOperand <| need (vSrc b) .illegalOperand <| none
  | .ffms d a b => need (vDst d) .illegalOperand <| need (vSrc a) .illegalOperand <| need (vSrc b) .illegalOperand <| none
  | .fnma d a b => need (vDst d) .illegalOperand <| need (vSrc a) .illegalOperand <| need (vSrc b) .illegalOperand <| none
  | .fmin d a b => need (vDst d) .illegalOperand <| need (vSrc a) .illegalOperand <| need (vSrc b) .illegalOperand <| none
  | .fmax d a b => need (vDst d) .illegalOperand <| need (vSrc a) .illegalOperand <| need (vSrc b) .illegalOperand <| none
  | .fabs d a => need (vDst d) .illegalOperand <| need (vSrc a) .illegalOperand <| none
  | .fneg d a => need (vDst d) .illegalOperand <| need (vSrc a) .illegalOperand <| none
  | .vmov d a => need (vDst d) .illegalOperand <| need (vSrc a) .illegalOperand <| none
  | .fcmpeq d a b => need (pDst d) .illegalOperand <| need (vSrc a) .illegalOperand <| need (vSrc b) .illegalOperand <| none
  | .fcmplt d a b => need (pDst d) .illegalOperand <| need (vSrc a) .illegalOperand <| need (vSrc b) .illegalOperand <| none
  | .fcmple d a b => need (pDst d) .illegalOperand <| need (vSrc a) .illegalOperand <| need (vSrc b) .illegalOperand <| none
  | .fcmpun d a b => need (pDst d) .illegalOperand <| need (vSrc a) .illegalOperand <| need (vSrc b) .illegalOperand <| none
  | .fclass d a => need (vDst d) .illegalOperand <| need (vSrc a) .illegalOperand <| none
  | .frcp d a => need (vDst d) .illegalOperand <| need (vSrc a) .illegalOperand <| none
  | .frsq d a => need (vDst d) .illegalOperand <| need (vSrc a) .illegalOperand <| none
  | .fsqrt d a => need (vDst d) .illegalOperand <| need (vSrc a) .illegalOperand <| none
  | .fdiv d a b => need (vDst d) .illegalOperand <| need (vSrc a) .illegalOperand <| need (vSrc b) .illegalOperand <| none
  | .fexp2 d a => need (vDst d) .illegalOperand <| need (vSrc a) .illegalOperand <| none
  | .flog2 d a => need (vDst d) .illegalOperand <| need (vSrc a) .illegalOperand <| none
  | .fhadd d a b => need (vDst d) .illegalOperand <| need (vSrc a) .illegalOperand <| need (vSrc b) .illegalOperand <| none
  | .fhmul d a b => need (vDst d) .illegalOperand <| need (vSrc a) .illegalOperand <| need (vSrc b) .illegalOperand <| none
  | .fhfma d a b => need (vDst d) .illegalOperand <| need (vSrc a) .illegalOperand <| need (vSrc b) .illegalOperand <| none
  | .fhmin d a b => need (vDst d) .illegalOperand <| need (vSrc a) .illegalOperand <| need (vSrc b) .illegalOperand <| none
  | .fhmax d a b => need (vDst d) .illegalOperand <| need (vSrc a) .illegalOperand <| need (vSrc b) .illegalOperand <| none
  | .fdot2 d a b => need (vDst d) .illegalOperand <| need (vSrc a) .illegalOperand <| need (vSrc b) .illegalOperand <| none
  | .fsel d a b => need (vDst d) .illegalOperand <| need (vSrc a) .illegalOperand <| need (vSrc b) .illegalOperand <| none
  | .fscale d a b => need (vDst d) .illegalOperand <| need (vSrc a) .illegalOperand <| need (vSrc b) .illegalOperand <| none
  | .fgetexp d a => need (vDst d) .illegalOperand <| need (vSrc a) .illegalOperand <| none
  | .fcopysign d a b => need (vDst d) .illegalOperand <| need (vSrc a) .illegalOperand <| need (vSrc b) .illegalOperand <| none
  | .ldb d a n _ => need (decide (n ≠ 63)) .reservedValue <| need (vDst d) .illegalOperand <| need (vSrc64 a) .illegalOperand <| none
  | .ldbs d a n _ => need (decide (n ≠ 63)) .reservedValue <| need (vDst d) .illegalOperand <| need (vSrc64 a) .illegalOperand <| none
  | .ldh d a n _ => need (decide (n ≠ 63)) .reservedValue <| need (vDst d) .illegalOperand <| need (vSrc64 a) .illegalOperand <| none
  | .ldhs d a n _ => need (decide (n ≠ 63)) .reservedValue <| need (vDst d) .illegalOperand <| need (vSrc64 a) .illegalOperand <| none
  | .ldw d a n _ => need (decide (n ≠ 63)) .reservedValue <| need (vDst d) .illegalOperand <| need (vSrc64 a) .illegalOperand <| none
  | .ldd d a n _ => need (decide (n ≠ 63)) .reservedValue <| need (vDst64 d) .illegalOperand <| need (vSrc64 a) .illegalOperand <| none
  | .ldq d a n _ => need (decide (n ≠ 63)) .reservedValue <| need (vDst128 d) .illegalOperand <| need (vSrc64 a) .illegalOperand <| none
  | .ldAcq d a c r w _ => need (decide (c ≠ 7)) .reservedValue <| need (!(r = 1 && c ≠ 4)) .reservedValue <| need (vSrc64 a) .illegalOperand <| need (dataOk true (w = 1) d) .illegalOperand <| none
  | .stb d a n _ => need (decide (n ≠ 63)) .reservedValue <| need (vSrc d) .illegalOperand <| need (vSrc64 a) .illegalOperand <| none
  | .sth d a n _ => need (decide (n ≠ 63)) .reservedValue <| need (vSrc d) .illegalOperand <| need (vSrc64 a) .illegalOperand <| none
  | .stw d a n _ => need (decide (n ≠ 63)) .reservedValue <| need (vSrc d) .illegalOperand <| need (vSrc64 a) .illegalOperand <| none
  | .std d a n _ => need (decide (n ≠ 63)) .reservedValue <| need (vSrc64 d) .illegalOperand <| need (vSrc64 a) .illegalOperand <| none
  | .stq d a n _ => need (decide (n ≠ 63)) .reservedValue <| need (vSrc128 d) .illegalOperand <| need (vSrc64 a) .illegalOperand <| none
  | .stRel d a c _ w _ => need (decide (c ≠ 7)) .reservedValue <| need (vSrc64 a) .illegalOperand <| need (dataOk false (w = 1) d) .illegalOperand <| none
  | .pref _ a n _ => need (decide (n ≠ 63)) .reservedValue <| need (vSrc64 a) .illegalOperand <| none
  | .pglob d a => need (vDst64 d) .illegalOperand <| need (vSrc64 a) .illegalOperand <| none
  | .atadd d a c r w _ => need (decide (c ≠ 7)) .reservedValue <| need (vSrc64 a) .illegalOperand <| need (dataOk (r = 1) (w = 1) d) .illegalOperand <| none
  | .atfadd d a c r w _ => need (decide (c ≠ 7)) .reservedValue <| need (vSrc64 a) .illegalOperand <| need (dataOk (r = 1) (w = 1) d) .illegalOperand <| none
  | .atmin d a c r w _ => need (decide (c ≠ 7)) .reservedValue <| need (vSrc64 a) .illegalOperand <| need (dataOk (r = 1) (w = 1) d) .illegalOperand <| none
  | .atmax d a c r w _ => need (decide (c ≠ 7)) .reservedValue <| need (vSrc64 a) .illegalOperand <| need (dataOk (r = 1) (w = 1) d) .illegalOperand <| none
  | .atand d a c r w _ => need (decide (c ≠ 7)) .reservedValue <| need (vSrc64 a) .illegalOperand <| need (dataOk (r = 1) (w = 1) d) .illegalOperand <| none
  | .ator d a c r w _ => need (decide (c ≠ 7)) .reservedValue <| need (vSrc64 a) .illegalOperand <| need (dataOk (r = 1) (w = 1) d) .illegalOperand <| none
  | .atxor d a c r w _ => need (decide (c ≠ 7)) .reservedValue <| need (vSrc64 a) .illegalOperand <| need (dataOk (r = 1) (w = 1) d) .illegalOperand <| none
  | .atxchg d a c _ r w _ => need (decide (c ≠ 7)) .reservedValue <| need (vSrc64 a) .illegalOperand <| need (dataOk (r = 1) (w = 1) d) .illegalOperand <| none
  | .atcas d a c _ r w _ => need (decide (c ≠ 7)) .reservedValue <| need (vSrc64 a) .illegalOperand <| need (casDataOk (r = 1) (w = 1) d) .illegalOperand <| none
  | .fenceAcq c => need (decide (c ≠ 7)) .reservedValue <| none
  | .fenceRel c => need (decide (c ≠ 7)) .reservedValue <| none
  | .fenceAcqrel c => need (decide (c ≠ 7)) .reservedValue <| none
  | .fenceSc c => need (decide (c ≠ 7)) .reservedValue <| none
  | .fencePath a b => need (decide (a ≠ 0) && decide (b ≠ 0)) .reservedField <| none
  | .mwatch d a n _ => need (decide (n ≠ 63)) .reservedValue <| need (vDst d) .illegalOperand <| need (vSrc64 a) .illegalOperand <| none
  | .mwait d a => need (sDst d) .illegalOperand <| need (sSrc a) .illegalOperand <| none
  | .tick => none
  | .cmaint _ a n _ => need (decide (n ≠ 63)) .reservedValue <| need (vSrc64 a) .illegalOperand <| none
  | .binit a b => need (bReg a) .illegalOperand <| need (sSrc b) .illegalOperand <| none
  | .barv _ a => need (bReg a) .illegalOperand <| none
  | .bwait a => need (bReg a) .illegalOperand <| none
  | .bwaitGen a b => need (bReg a) .illegalOperand <| need (sSrc b) .illegalOperand <| none
  | .barw _ a => need (bReg a) .illegalOperand <| none
  | .baddx a b => need (bReg a) .illegalOperand <| need (sSrc b) .illegalOperand <| none
  | .baddxE a b => need (bReg a) .illegalOperand <| need (sSrc b) .illegalOperand <| none
  | .btest a b => need (bReg a) .illegalOperand <| need (sDst64 b) .illegalOperand <| none
  | .btestWord1 a b => need (bReg a) .illegalOperand <| need (sDst64 b) .illegalOperand <| none
  | .ngjoin a => need (sSrc a) .illegalOperand <| none
  | .ngjoinLeave a => need (sSrc a) .illegalOperand <| none
  | .ngarv _ a => need (sSrc a) .illegalOperand <| none
  | .ngwait a => need (sSrc a) .illegalOperand <| none
  | .ngwaitGen a b => need (sSrc a) .illegalOperand <| need (sSrc b) .illegalOperand <| none
  | .ngwaitRead a b => need (sSrc a) .illegalOperand <| need (sDst b) .illegalOperand <| none
  | .bsetm a b => need (sSrc a) .illegalOperand <| need (sSrc64 b) .illegalOperand <| none
  | .bsetmDevice a b => need (sSrc a) .illegalOperand <| need (sSrc64 b) .illegalOperand <| none
  | .bsetmRoot a b => need (sSrc a) .illegalOperand <| need (sSrc64 b) .illegalOperand <| none
  | .cpyc _ c g a b => need (!(c = 0 && g ≠ 0)) .reservedValue <| need (sQuadReg a) .illegalOperand <| need (sDst b) .illegalOperand <| none
  | .cpy a b => need (sSrc a) .illegalOperand <| need (sDst b) .illegalOperand <| none
  | .gath a b => need (sSrc a) .illegalOperand <| need (sDst b) .illegalOperand <| none
  | .scat a b => need (sSrc a) .illegalOperand <| need (sDst b) .illegalOperand <| none
  | .mcast a b => need (sSrc a) .illegalOperand <| need (sDst b) .illegalOperand <| none
  | .sclp a b => need (sSrc a) .illegalOperand <| need (sDst b) .illegalOperand <| none
  | .gqry a b => need (sSrc a) .illegalOperand <| need (sDst b) .illegalOperand <| none
  | .gcncl a b => need (sSrc a) .illegalOperand <| need (sDst b) .illegalOperand <| none
  | .expb d a b => need (sDst d) .illegalOperand <| need (vSrc64 a) .illegalOperand <| need (vSrc b) .illegalOperand <| none
  | .expbG d a b => need (sBoth d) .illegalOperand <| need (vSrc64 a) .illegalOperand <| need (vSrc b) .illegalOperand <| none
  | .expn d a => need (pDst d) .illegalOperand <| need (pDst a) .illegalOperand <| none
  | .segr d a => need (vDst d) .illegalOperand <| need (vSrc a) .illegalOperand <| none
  | .xsave a n _ => need (decide (n ≠ 63)) .reservedValue <| need (vSrc64 a) .illegalOperand <| none
  | .xrst a n _ => need (decide (n ≠ 63)) .reservedValue <| need (vSrc64 a) .illegalOperand <| none
  | .vsort d a => need (vDst128 d) .illegalOperand <| need (sDst a) .illegalOperand <| none
  | .vtopk d a b => need (vDst128 d) .illegalOperand <| need (sDst a) .illegalOperand <| need (sSrc b) .illegalOperand <| none
  | .tkmrg d a b => need (vSrc128 d) .illegalOperand <| need (sSrc a) .illegalOperand <| need (sDst b) .illegalOperand <| none
  | .ctopk d a b => need (sDst d) .illegalOperand <| need (sSrc a) .illegalOperand <| need (sSrc b) .illegalOperand <| none
  | .hins d a b => need (sSrc d) .illegalOperand <| need (vSrc a) .illegalOperand <| need (vSrc b) .illegalOperand <| none
  | .hacc d a b => need (sSrc d) .illegalOperand <| need (vSrc a) .illegalOperand <| need (vSrc b) .illegalOperand <| none
  | .hfind d a b => need (vDst d) .illegalOperand <| need (vSrc a) .illegalOperand <| need (sSrc b) .illegalOperand <| none
  | .hinit a b => need (sSrc a) .illegalOperand <| need (sSrc b) .illegalOperand <| none
  | .talloc d a b => need (sDst d) .illegalOperand <| need (sSrc a) .illegalOperand <| need (sSrc b) .illegalOperand <| none
  | .tfree a => need (sSrc a) .illegalOperand <| none
  | .mloop a => need (sReg a) .illegalOperand <| none
  | .mdrain _ _ a b => need (sReg a) .illegalOperand <| need (sReg b) .illegalOperand <| none
  | .mzero a => need (sReg a) .illegalOperand <| none
  | .tacc d a b => need (sReg d) .illegalOperand <| need (vSrc a) .illegalOperand <| need (sSrc b) .illegalOperand <| none
  | .evset a => need (sSrc a) .illegalOperand <| none
  | .evclr a => need (sSrc a) .illegalOperand <| none
  | .evwait a => need (sSrc a) .illegalOperand <| none
  | .evwaitClear a => need (sSrc a) .illegalOperand <| none
  | .mpt a => need (sSrc64 a) .illegalOperand <| none
  | .msave a b => need (sReg a) .illegalOperand <| need (sReg64 b) .illegalOperand <| none
  | .mrestore a b => need (sReg a) .illegalOperand <| need (sReg64 b) .illegalOperand <| none
  | .rinv a b => need (sReg a) .illegalOperand <| need (sReg64 b) .illegalOperand <| none
  | .rinvh a b => need (sReg a) .illegalOperand <| need (sReg64 b) .illegalOperand <| none
  | .rwait d a => need (sDst d) .illegalOperand <| need (sReg64 a) .illegalOperand <| none
  | .rpoll d a => need (sDst d) .illegalOperand <| need (sReg64 a) .illegalOperand <| none
  | .rget a b => need (sReg64 a) .illegalOperand <| need (vGroup32 b) .illegalOperand <| none
  | .rgetBarn a b => need (sReg64 a) .illegalOperand <| need (sReg b) .illegalOperand <| none
  | .rdrop a => need (sReg64 a) .illegalOperand <| none
  | .rbind a b => need (sReg a) .illegalOperand <| need (sQuadReg b) .illegalOperand <| none
  | .rput a b => need (sReg64 a) .illegalOperand <| need (sReg64 b) .illegalOperand <| none
  | .rfail a b => need (sReg64 a) .illegalOperand <| need (sReg b) .illegalOperand <| none
  | .tcarm a b => need (sReg a) .illegalOperand <| need (sReg b) .illegalOperand <| none
  | .tcadd a b => need (sReg a) .illegalOperand <| need (sReg b) .illegalOperand <| none
  | .trap _ => none
  | .tvec _ a b => need (sSrc64 a) .illegalOperand <| need (sSrc64 b) .illegalOperand <| none
  | .tret => none
  | .tretSkip => none
  | .tdone a => need (sSrc a) .illegalOperand <| none
  | .sysrd n a => need (sysRegKnown n) .reservedValue <| need (sysOperandOk true n a) .illegalOperand <| none
  | .syswr n a => need (sysRegKnown n) .reservedValue <| need (sysOperandOk false n a) .illegalOperand <| none
  | .tlbip a b => need (sSrc a) .illegalOperand <| need (sQuadSrc b) .illegalOperand <| none
  | .tlbia a => need (sSrc a) .illegalOperand <| none
  | .tlball => none
  | .fwcall a b => need (sSrc a) .illegalOperand <| need (sDst64 b) .illegalOperand <| none
  | .regangMerge _ _ => none
  | .gangEnd _ => none
  | .regrowGrant _ _ => none
  | .regrowTimeout _ => none
  | .promotionEvaluation _ _ => none
  | .demotion _ _ => none
  | .earlyLoadReread _ _ => none
  | .branchMispredict _ => none
  | .memoryOperationComplete _ _ => none
  | .releaseComplete _ _ => none
  | .mwaitTimeout _ => none
  | .reuseClockAdvance _ => none
  | .gtAdvance => none
  | .pageWalk _ _ _ _ => none
  | .heatSweep => none
  | .tlbInvalidationComplete _ _ => none
  | .teardownComplete _ => none
  | .namedGroupNodeArrival _ _ _ => none
  | .namedGroupCompletion _ _ => none
  | .gleanerCommandStart _ => none
  | .copyUnit _ _ => none
  | .gatherRow _ _ _ => none
  | .multicastAck _ _ _ => none
  | .scalePlacement _ _ => none
  | .gleanerCommandCompletion _ _ => none
  | .mloopEntryStart _ _ => none
  | .thresherPassGrant _ => none
  | .thresherPassEnd _ => none
  | .tilePortStart _ => none
  | .tileOperationComplete _ => none
  | .invocationArrival _ => none
  | .dependentMessageAtHome _ => none
  | .bindReport _ => none
  | .resultPosted _ => none
  | .rgetResultArrival _ => none
  | .invocationFabricTimeout _ => none
  | .tcaddArrival _ => none
  | .pendingFireCopy _ => none
  | .preemptGraceExpiry _ => none
  | .preemptionSave _ => none
  | .workgroupRestore _ _ => none
  | .fwcallReply _ => none
  | .plaquelTranslation _ => none
  | .doorbellWrite _ => none
  | .queuePoll => none
  | .launchPacket _ => none
  | .waitAndPacket _ => none
  | .waitAndPoll _ _ => none
  | .waitAndTimeout _ _ => none
  | .triggerArmPacket _ => none
  | .copyPacket _ => none
  | .signalPacket _ => none
  | .partitionConfigure _ => none
  | .partitionRemove _ => none
  | .partitionQueueDescriptor _ => none
  | .partitionTeardown _ => none
  | .partitionFlush _ => none
  | .dispatch _ => none
  | .workgroupAdmission _ _ => none
  | .headAgeing _ _ => none
  | .workgroupRetirement _ => none
  | .wgPreemptWrite _ => none
  | .tfqReplyRetry _ _ => none
  | .tfqReplyDeliver _ _ => none
  | .tfqReplyFail _ _ _ => none
  | .tfqHeadWrite _ _ => none
  | .registerWrite _ _ _ _ => none
  | .policyCommit _ => none
  | .hostBar0Access _ _ _ _ => none
  | .attestationRequest _ _ => none
  | .dvfsReq _ => none
  | .clockSwitchEnd => none
  | .voltageSlewEnd => none
  | .thermalThrottle _ _ => none
  | .throttleEnd => none
  | .thermalShutdown _ _ => none
  | .powerCapStep _ => none
  | .telemetrySample _ _ _ => none
  | .patrolScrub _ _ => none
  | .rowActivationRefresh _ => none
  | .meshFlitError _ _ _ _ => none
  | .lumenMessageReceive _ _ _ _ => none
  | .heldMessageRelease _ => none
  | .linkRecalibration _ _ => none
  | .inboundAccess _ _ _ _ _ _ _ => none
  | .inboundTimeout _ => none
  | .initiatorTimeout _ => none
  | .deviceReset _ _ => none
  | .illegalInstruction _ => none
  | .pageRequestReply _ _ _ => none

/-- Well-formed: no static rule is broken. What depends on MODE or on the gang is checked when the word issues. -/
def WellFormed (i : Instr) : Bool := (illegality i).isNone

end Sys2Proof
end

