-- ==== Sys2Proof/Machine/State.lean ====
section
/-! DEFINITION. The state of the whole device as plain data: every piece of state the spec gives the machine, and the
model's own agenda and counters. Lanes, slices, gangs, workgroups, cores, clusters, dies and partitions are
records held in maps keyed by number: gang key = workgroup key * 32 + gang number, workgroup key = coreid * 16 +
slot, coreid = 60 * die + 4 * cluster + core (02 R40), cluster key = 15 * die + cluster (17 R421). -/

namespace Sys2Proof.Machine

/-- Why a step stops with a fault. -/
inductive Fault where
  /-- The device is held in reset after a thermal shutdown (19 R449): every step but DEVICE_RESET stops.
  Raised by `step` alone. Safe: the spec says that only a device reset leaves this state. -/
  | heldInReset
deriving DecidableEq, Repr

/-- Why an instruction is refused. -/
inductive Refusal where
  /-- No meaning yet for the instruction of that mnemonic. Raised by a refused arm of `exec` alone. Safe. -/
  | notModelled (mnemonic : String)
deriving DecidableEq, Repr

/-! ## The gang -/

/-- A tile handle (07 R174): rows, row bytes, level (0 BARN, 1 ACC, 2 SCL) and granules in order. -/
structure Tile where
  rows : Nat
  rowBytes : Nat
  level : Nat
  granules : List Nat
deriving DecidableEq, Repr

/-- What a line's page leaves with it in the L1 (07 R202): its W as stored, and the 64 KiB virtual page. -/
structure Page where
  w : Bool
  va : Nat
deriving DecidableEq, Repr

/-- Where a lane's access performs: a byte of this device's memory, one of another device, one of a Barn; or why it does
not. -/
inductive Target where
  | mem (a : Nat) (page : Page)
  | remote (pa : Nat) (page : Page)
  | tile (core : Nat) (t : Tile) (off : Nat)
  | refused (owner : Option Nat) (pa : Nat)
  | bad (a : Nat)
deriving DecidableEq, Repr

/-- A store of a gang whose bytes stand dirty in an L1 line of another device: what its report names when the write-back
is poisoned (08 R218, R230) (log entry 84, DEDUCED). -/
structure StoreNote where
  gang : Nat
  /-- `Gang.age` of the gang. -/
  age : Nat
  id : Nat
  /-- Its number among the gang's operations on ST. -/
  seq : Nat
  lanes : Word
  addr : DWord
  opc : DWord
  part : Nat
  pasid : Nat
deriving DecidableEq, Repr

/-- What holds later operations of a gang (08 R220 to R222, R229): the number of the operation, release or fence; the paths
held (bits 0 to 5 as R52, bit 6 for every other memory, expand or remote instruction); the scope of an acquire. -/
structure Hold where
  id : Nat
  paths : Nat
  scope : Option Nat
deriving DecidableEq, Repr

/-- A lane of a memory operation that performs late: its place, the value stored, the next-use code, and the lock-list
entry that its release removes. -/
structure LateLane where
  lane : Nat
  target : Target
  value : Nat
  code : Nat
  lock : Option (Nat × Nat)
deriving DecidableEq, Repr

/-- What performs late: a load, a store, a release with its scope (with no lane: a fence), a path fence. -/
inductive LateKind where
  | load (d : Code) (size : Nat) (signed : Bool)
  | store (size : Nat)
  | release (scope size : Nat)
  | pathFence (drain : Bool)
deriving DecidableEq, Repr

/-- An operation of a gang that has issued and performs at a later turn (08 R219, R221, R222, R229; 07 R180). -/
structure LateOp where
  id : Nat
  kind : LateKind
  /-- Its access path. -/
  path : Nat
  /-- The operations that must have performed, or for a path fence completed, before it. -/
  after : List Nat
  lanes : List LateLane
  /-- A release of dom scope or wider that has done its actions: the write-backs to other devices whose acknowledgement it
  waits for (08 R219). -/
  acked : Option (List Nat) := none
deriving DecidableEq, Repr

/-- One operation counted on an access path (02 R52): it leaves the counter when it and every older operation of the
path have completed. -/
structure OutOp where
  /-- The path: 0 LD, 1 ST, 2 CP, 3 TL, 4 GX, 5 RM. -/
  path : Nat
  /-- The operation's number in the device's issue order. -/
  id : Nat
  /-- It has performed: its completion may be counted. -/
  perf : Bool
  /-- It has completed, and is held while an older operation of its path has not. -/
  done : Bool
  /-- Its number among the operations that the gang has issued on the path, from 1. -/
  seq : Nat
  /-- The PC of its instruction (04 R115). -/
  pc : PcVal
deriving DecidableEq, Repr

/-- The fields of a trap record that depend on the cause (16 R387, R388). -/
structure TrapReq where
  cause : Nat
  sub : Nat := 0
  lanes : Word := 0xFFFFFFFF
  aux : Word := 0
  addr : DWord := 0
  opc : DWord := 0
  device : Nat := 0
  rcause : Nat := 0
  handle : DWord := 0
deriving DecidableEq, Repr

/-- A report kept for a later instruction: a poisoned access (08 R231), a failed Gleaner command (11 R294), Thresher
operation (14 R356) or rget (15 R372). -/
structure Report where
  /-- The operation's number: reports are taken oldest first. -/
  id : Nat
  path : Nat
  /-- The operation's number among those the gang has issued on the path. -/
  seq : Nat
  record : TrapReq
  /-- Poisoned load: the marked registers and lanes; empty otherwise. -/
  marks : List (Nat × Word)
  /-- Poisoned store: reported at a release of dom scope or wider; 6 when to host memory (08 R230). -/
  relScope : Option Nat
deriving DecidableEq, Repr

/-- A register that waits for a value from outside the core (scoreboard, 04 R97): the operation and the lanes. -/
structure PendReg where
  id : Nat
  reg : Nat
  lanes : Word
deriving DecidableEq, Repr

/-- Why a PC-group cannot issue (03 R68): the condition it waits for. -/
inductive Block where
  | counters (ld st cp tl : Nat)
  | path (p n : Nat)
  | ops (ids : List Nat)
  | pushed (ids : List Nat)
  | answers (ids : List Nat)
  | drained (paths : Nat)
  | regs (ids : List Nat)
  | watch
  | barrierArrive (b : Nat)
  | barrierGen (b gen : Nat)
  | barrierRoom (b n : Nat)
  | groupArrive (gid : Nat)
  | groupWait (gid : Nat)
  | groupMember (gid : Nat)
  | groupGen (gid gen : Nat)
  | topk (gid gen : Nat)
  | regrow (d : Code) (n since : Nat)
  | tile (h : Nat)
  | collective
  | cancel (id : Nat) (d : Code)
  | formation
  | gleanerFull
  | tableFull
  | eventBit (n : Nat)
  | eventClear (n : Nat)
  | handle (h : DWord)
  | invalidation (id : Nat)
  | firmware (id : Nat)
deriving DecidableEq, Repr

/-- The return stack of a slice (03 R74): hardware entries, oldest first, and the spilled-group count G. -/
structure RetStack where
  entries : List DWord
  spilled : Nat
deriving DecidableEq, Repr

/-- The lane and slice registers of a gang (02 R48). -/
structure Regs where
  /-- Vector registers: register * 32 + lane. -/
  v : SMap Word
  /-- Predicates: bit l of entry n is p n of lane l. -/
  p : SMap Word
  /-- Scalar registers: slice * 32 + register (02 R49). -/
  sc : SMap Word
  exec : Word
  /-- MODE of each slice; a slice not listed holds the reset value (02 R50). -/
  mode : SMap Word
  fpf : BitVec 5
  xi : SMap DWord
  xo : SMap Word
  xk : SMap Word
  /-- xst (12 R303). -/
  xst : DWord
  /-- The broken mark of a dissolved expand group (12 R304). -/
  broken : Bool
deriving DecidableEq, Repr

/-- Program counters and PC-groups of a gang (03 R67 to R79). -/
structure Flow where
  /-- PC of each slice. -/
  pc : SMap PcVal
  /-- Lowest slice of each slice's PC-group. -/
  grp : SMap Nat
  exited : BitVec 8
  /-- Slices that wait at a regang, and the mask of each slice's regang. -/
  waiting : BitVec 8
  wmask : SMap (BitVec 8)
  /-- The word with which each slice last stalled, parked or began to wait: a trap that it takes there records it (16 R388). -/
  words : SMap Word
  /-- Lowest slice of the PC-group that the fetch slot serves, and its instruction count (R68). -/
  served : Nat
  count : Nat
  rst : SMap RetStack
  /-- Blocked PC-groups: lowest slice to the condition waited for (R68). -/
  blocks : SMap Block
deriving DecidableEq, Repr

/-- Trap, park and pre-emption state of a gang (16 R389, 09 R244, 16 R399). -/
structure TrapState where
  level : Nat
  hpc1 : DWord
  hpc2 : DWord
  frame : DWord
  /-- Lanes of a parked or resumed memory instruction that have not performed (04 R115). -/
  unfinished : Word
  /-- Lowest slice of the PC-group whose instruction the unfinished mask belongs to. -/
  unfinishedOf : Nat
  /-- PC of the memory instruction that its next issue replays for the unfinished lanes only (09 R245). -/
  replay : Option PcVal
  /-- Handler levels whose entry found such an instruction (16 R395). -/
  delivered : List Nat
  parked : Bool
  /-- Pre-emption requested, taken, and the recorded mask (R399, 14 R359). -/
  preempt : Bool
  taken : Bool
  tmask : DWord
deriving DecidableEq, Repr

/-- The watch of a gang (07 R185, R186). -/
structure Watch where
  /-- Line address (local physical address div 128) and the virtual line watched, when armed. -/
  armed : Option (Nat × Nat)
  /-- Causes kept until the mwait: written, invalidated, lost. -/
  fired : Bool
  invalid : Bool
  lost : Bool
  /-- The timeout of the mwait in progress has passed. -/
  timedOut : Bool
  /-- The number of the mwatch that armed it. -/
  id : Nat
deriving DecidableEq, Repr

/-- An entry of the lock list: an 8-byte-aligned address and its space (04 R103). -/
structure LockEntry where
  addr : Nat
  space : Nat
  /-- When it was entered. -/
  since : Nat
deriving DecidableEq, Repr

/-- One resident gang. -/
structure Gang where
  live : Bool
  wid : Nat
  num : Nat
  /-- Lane group (01 R28). -/
  lg : Nat
  /-- Allocation A (02 R43). -/
  alloc : Nat
  /-- The committed map (04 R100): the row of the lane group that holds each vector register. -/
  rows : List Nat
  /-- Role entry order of admission, for the herd's ring (04 R99). -/
  age : Nat
  regs : Regs
  flow : Flow
  trap : TrapState
  out : List OutOp
  /-- Operations issued on each path so far. -/
  issued : SMap Nat
  pend : List PendReg
  reports : List Report
  watch : Watch
  locks : List LockEntry
  /-- Step at which the promo hint was given (04 R102). -/
  hint : Option Nat
  /-- Acquires and fences that are not complete: they hold later accesses of the gang (08 R220 to R222, R229). -/
  holds : List Hold
  /-- Operations that perform at a later turn. -/
  late : List LateOp
  /-- Lines of other devices whose fetch for the instruction in issue came back poisoned (03 R76, 16 R395). -/
  fetchFails : List (Nat × TrapReq)
  /-- Answers of far homes to the instruction in issue: handle, question, answer (15 R371, R373). -/
  polls : List (DWord × Nat × Nat)
  /-- Address of the last exit word of each exited slice (16 R391). -/
  exitPc : SMap PcVal
deriving DecidableEq, Repr

/-! ## The workgroup -/

/-- A workgroup barrier register (10 R256). -/
structure Bar where
  gen : BitVec 16
  init : Bool
  ovf : Bool
  e : Nat
  x : Nat
  a : Nat
  arrived : Word
  rc : Nat
  kc : Nat
  /-- The barw words of gangs that have arrived and now wait: 4 * gang + handler level to the PC at which it issued (R263,
  R272; log entry 19, DEDUCED). -/
  barw : SMap PcVal
deriving DecidableEq, Repr

/-- An expand group (12 R303): its members in order, and per owner the start and the exclusive prefix. -/
structure XGroup where
  members : List Nat
  total : Nat
  start : SMap DWord
  pre : SMap Nat
deriving DecidableEq, Repr

/-- A formation that waits for its members (12 R304). -/
structure XForming where
  gang : Nat
  desc : Word
  /-- Register of the total, the word, and xst before the formation. -/
  dest : Code
  word : Word
  old : DWord
  start : SMap DWord
  len : SMap Nat
deriving DecidableEq, Repr

/-- A gang's contribution to a cpyc collective (11 R282). -/
structure Contribution where
  gang : Nat
  flags : BitVec 8
  quad : List Word
  /-- Ticket register, and the word. -/
  dest : Code
  word : Word
deriving DecidableEq, Repr

/-- One resident workgroup. -/
structure Workgroup where
  live : Bool
  wgid : Nat
  gangs : Nat
  /-- Index in the neighbourhood, and the number of the neighbourhood, when in one (17 R428). -/
  nbh : Option Nat
  nbhId : Nat
  part : Nat
  pasid : Nat
  /-- Number of the launch. -/
  launch : Nat
  /-- The per-lane slot base PB and slot size Z (07 R172). -/
  pb : DWord
  z : Nat
  rclock : BitVec 16
  mcount : Nat
  ticks : List DWord
  bars : SMap Bar
  tiles : SMap Tile
  /-- Barn granules of the allocation. -/
  barn : List Nat
  groups : List XGroup
  forming : List XForming
  assembling : List Contribution
  /-- Ended fatally, with the record (16 R397, R398). -/
  fatal : Option (List Byte)
  /-- Pre-emption posted, and the context address of the post (16 R399, R400). -/
  posted : Option DWord
  /-- Order of admission. -/
  age : Nat
  /-- Ended by the removal of its partition (17 R421). -/
  removed : Bool
deriving DecidableEq, Repr

/-! ## Core, cluster, die -/

/-- A line of an L1 data cache (07 R192, R193). -/
structure L1Line where
  way : Nat
  valid : BitVec 128
  dirty : BitVec 128
  data : BitVec 1024
  slot : Nat
  deadline : BitVec 16
  noReuse : Bool
  orphan : Bool
  /-- The page's W as stored (07 R202). -/
  leafW : Bool
  /-- Stores whose bytes it holds dirty (04 R115, 08 R230). -/
  notes : List StoreNote
deriving DecidableEq, Repr

/-- A TLB entry (09 R235). -/
structure TlbEntry where
  pasid : Nat
  /-- Page size: 16, 21 or 30 bits. -/
  bits : Nat
  vpn : Nat
  /-- Domain physical address of the page. -/
  base : Nat
  r : Bool
  w : Bool
  x : Bool
  d : Bool
  leafW : Bool
deriving DecidableEq, Repr

/-- An entry of a walk cache (09 R235): the table of a level that the entries of the levels above lead to, for the virtual
addresses that share `prefix` (the address without the bits below those levels). -/
structure WalkEntry where
  pasid : Nat
  level : Nat
  prefix_ : Nat
  table : Nat
deriving DecidableEq, Repr

/-- A byte in a lane group's store queue (08 R218): lane group, the core whose Barn it goes to, bank address, byte, and the
store that it is of; oldest first. -/
structure QueuedByte where
  lg : Nat
  core : Nat
  addr : Nat
  val : Byte
  note : Option StoreNote := none
deriving DecidableEq, Repr

/-- An instruction in a seat's reorder window (04 R111): its PC-group, its PC and its word; the register rows that its
destinations take, by register; the side-file entries that they take; once it has dispatched, what a load found, by register
and lane (register * 32 + lane; of xrst by byte), and nothing of another; whether a load is early, so that it is read again
(04 R113); and whether it waits for lines of another device. -/
structure Renamed where
  group : Nat
  pc : PcVal
  word : Word
  rows : List (Nat × Nat)
  side : Nat
  loaded : Option (List (Nat × DWord))
  early : Bool
  sent : Bool
deriving DecidableEq, Repr

/-- The sprinter seat of a lane group (04 R101, R106): its holder, the free rows of its rename pool, the reorder window
oldest first, the PC of a load that a squash restarts (04 R113), the evaluations without strength. -/
structure Seat where
  holder : Option Nat
  pool : List Nat
  window : List Renamed
  restart : Option PcVal
  idle : Nat
  demoting : Bool
deriving DecidableEq, Repr

/-- A Gleaner command (11 R275 to R296). -/
structure Gcmd where
  ticket : Nat
  id : Nat
  wid : Nat
  gang : Nat
  pasid : Nat
  part : Nat
  /-- 0 cpyc, 1 cpy, 2 gath, 3 scat, 4 mcast, 5 sclp. -/
  kind : Nat
  /-- Command block, or the flags of a cpyc. -/
  block : List Byte
  /-- Segments of a cpyc: gang and quad. -/
  segs : List Contribution
  /-- Receiver entries of an mcast. -/
  receivers : List (List Byte)
  opc : DWord
  /-- 1 queued, 2 running, 3 parked, then as 11 R295. -/
  state : Nat
  moved : Nat
  delivered : BitVec 256
  acked : BitVec 64
  /-- Rows or receivers that failed. -/
  lost : BitVec 256
  /-- Row or receiver at whose fault it parked. -/
  parkedAt : Nat
  failed : Option (Nat × TrapReq)
  /-- Owners that have refused it: one alarm each (18 R443). -/
  alarmed : List Nat
  /-- Bytes of a row or receiver that perform on this device when its writes to other devices have: the part, the address, the
  bytes (11 R293). -/
  held : List (Nat × Nat × List Byte)
  /-- Retried by the firmware, resuming ahead of commands not started. -/
  retried : Bool
  cancelled : Bool
deriving DecidableEq, Repr

/-- One core. -/
structure Core where
  l1 : SMap L1Line
  tlb : List TlbEntry
  /-- Barn banks: byte address in the core's 448 KiB. -/
  banks : SMap Byte
  squeue : List QueuedByte
  seats : SMap Seat
  sprinterRun : SMap Nat
  /-- Herd pointer of each lane group: the gang key that issued last, and the ring order. -/
  ring : SMap (List Nat)
  herdPtr : SMap Nat
  gleaner : List Gcmd
  ticket : Nat
  /-- Status of commands that ended: workgroup, ticket, status word; newest first, at most 48. -/
  ended : List (Nat × Nat × Word)
  /-- Lent L1 ways that an admission takes back, while their write-backs are under way (07 R195). -/
  reclaiming : List Nat
  /-- The write-backs that this waits for. -/
  drains : List Nat
deriving DecidableEq, Repr

/-- An entry of a cluster's reservation table (14 R345). -/
structure Mentry where
  slot : Nat
  id : Nat
  wid : Nat
  gang : Nat
  pasid : Nat
  part : Nat
  /-- Opcode: 0xE2 mloop, 0xE3 mdrain, 0xE4 mzero, 0xE5 tacc, 0xEA msave, 0xEB mrestore. -/
  op : Nat
  /-- Sub-op of an mdrain. -/
  sub : Nat
  /-- Request or drain block, or the address bytes of a save. -/
  block : List Byte
  /-- Accumulator handle and tile index. -/
  handle : Nat
  tile : Nat
  /-- tacc: row, half and values. -/
  row : Nat
  half : Nat
  values : SMap DWord
  opc : DWord
  started : Bool
  startAge : Nat
  step : Nat
  prow : Nat
  parked : Bool
  /-- Drain snapshot: the tile's bytes. -/
  snap : Option (List Byte)
  /-- The occupancy bitmap and the scale headers of A and B, as the start has read them (R348). -/
  occ : List Byte
  hdr : List Byte × List Byte
  /-- Lines of the step in progress that the panel buffer holds (R352). -/
  panel : List (List Byte)
  /-- A write of it that came back poisoned from another device, or a read of its tile that did (R356; 13 R334). -/
  failed : Option TrapReq
deriving DecidableEq, Repr

/-- One cluster. -/
structure Cluster where
  tlb : List (Nat × TlbEntry)
  /-- The walk cache of non-leaf entries (09 R235). -/
  walkCache : List WalkEntry
  /-- Accumulator bytes, granule * 16384 + offset. -/
  acc : SMap Byte
  /-- Accumulator granules in use, and per first granule the drain format and the failed mark (13 R333). -/
  accUsed : List Nat
  drainFmt : SMap DWord
  failedTile : SMap Bool
  scl : SMap Byte
  sclUsed : List Nat
  events : BitVec 256
  /-- What set each event bit (R226): core + 1 when only Thresher operations of that core have, 0 otherwise. -/
  evFrom : SMap Nat
  table : List Mentry
  /-- The pass that runs: table slot and number of steps. -/
  pass : Option (Nat × Nat)
  /-- The operation at the tile port. -/
  port : Option Nat
  part : Option Nat
  /-- The peer predictor (07 R202): index to tag and peer cluster. -/
  predictor : SMap (Nat × Nat)
  /-- 8-byte words of accumulator (level 1) and scale (level 2) memory whose next read is an uncorrectable error (13 R334). -/
  upset : List (Nat × Nat)
deriving DecidableEq, Repr

/-- A translation-fault queue entry that has no answer yet, and the agent it speaks for (16 R406). -/
structure TfqAgent where
  entry : Nat
  kind : Nat
  key : Nat
  ident : Nat
  record : TrapReq
  /-- The 128 bytes of the entry. -/
  bytes : List Byte
  /-- The job of the firmware that resolves its mirror write. -/
  mirror : Option Nat := none
deriving DecidableEq, Repr

/-- One compute die. -/
structure Die where
  /-- The cluster disabled by harvesting (01 R17). -/
  disabled : Nat
  tfqBase : DWord
  tfqHead : Word
  tfqTail : Word
  tfqSeq : Nat
  /-- Entries that wait for room in the ring, oldest first. -/
  waiting : List TfqAgent
  /-- Entries written and not yet answered. -/
  opened : List TfqAgent
  /-- Dispatcher: v of each partition, last queue served per priority, reservation (17 R426, R429). -/
  share : SMap Nat
  lastQueue : SMap Nat
  reserved : Option (Nat × List Nat)
  /-- Partitions with an admissible head at the last choice (17 R426). -/
  contending : List Nat
deriving DecidableEq, Repr

/-! ## Partitions, queues, launches, cells, handles, messages -/

/-- A translated Plaquel image (02 R64) in the partition's translation region: its digest, the native address of its first
word, the local address where the region holds it, its bytes (the native words, then the data section with the code
references replaced), the bytes from one Plaquel word to the next, and its kernels (first Plaquel word, count). -/
structure Native where
  digest : BitVec 256
  base : DWord
  place : Nat
  size : Nat
  stride : Nat
  kernels : List (Nat × Nat)
  /-- It stands in the translation cache: neither flushed nor dropped since. -/
  cached : Bool
deriving DecidableEq, Repr

/-- One partition (01 R30, 17 R421). -/
structure Part where
  live : Bool
  clusters : List Nat
  channels : List Nat
  quota : Nat
  share : Nat
  cells : Nat × Nat
  slots : Nat × Nat
  nextSlot : Nat
  pool : Nat × Nat
  poolUsed : List Nat
  notice : Nat × Nat
  noticeIdx : Nat
  noticeSeq : Nat
  sprintCtl : Word
  nuCtl : Word
  l2Quota : Word
  /-- Named-group table (10 R266). -/
  ngTable : SMap DWord
  /-- Code-address table: Plaquel address to digest, least recently launched last (02 R64). -/
  codeTable : List (Nat × BitVec 256)
  /-- Translation cache and region. -/
  natives : List Native
  /-- Epoch of its keys (18 R446): drawn anew at each op 1. -/
  keyEpoch : Nat
  /-- The policy record in force at the targets (18 R440). -/
  policy : List Byte
  /-- Sources blocked at the link ports (18 R444). -/
  blocked : List (Nat × Nat)
  /-- Channels that it held when it was removed (09 R253, cause 3). -/
  lastChannels : List Nat
deriving DecidableEq, Repr

/-- A node of a named group (10 R267, R268). -/
structure GroupNode where
  cur : Nat
  pending : Nat
  arrived : Nat
  /-- It has arrived at its parent in the current generation. -/
  passed : Bool
deriving DecidableEq, Repr

/-- A list handed in by a ctopk that waits for its group (12 R316): gang key, PC, locator, image, and once the
generation has completed its count, or none within it when the lists differ. -/
structure TopkIn where
  gang : Nat
  pc : PcVal
  loc : Nat
  image : List Byte
  result : Option (Option Nat)
deriving DecidableEq, Repr

/-- A named group of a partition: its nodes by number (nbh or die nodes at 16 + die or 64 + nbh, device 1, root 2),
the binding, the generation, which is the same at every node, the devices that have arrived at a root, and the lists
handed in by a ctopk. -/
structure NamedGroup where
  bound : Option Nat
  gen : BitVec 16
  nodes : SMap GroupNode
  devices : List Nat
  /-- Position to workgroup key. -/
  members : SMap Nat
  topk : List TopkIn
  /-- Merged lists of the other devices, at the root. -/
  lists : List (List Byte)
deriving DecidableEq, Repr

/-- What the firmware of one device asks of the firmware of another, or does itself, for a mirror page (09 R248, R249):
build a table of mirror leaves whose descriptors begin at a number; swap a descriptor from live to collapsing; replace
the leaf by one that maps the owner's page; write state 2. -/
inductive MirrorStep where
  | split (first : Nat)
  | claim
  | leaf (owner : Nat)
  | finish
deriving DecidableEq, Repr

/-- What a message in flight carries (15 R368 to R383, 08 R230, 18 R433). -/
inductive MsgKind where
  | invoke
  | dependent
  | forward
  | bindReport (dev part rslot : Nat)
  | result (bytes : Nat)
  | failReport (cause : Nat)
  | cellAdd (cell inc tag : Nat)
  | cellRaise (cell : Nat)
  | read (size : Nat)
  | write (size : Nat)
  /-- A plain load that fetches its line for the L1: the next-use code, the page, whether the line may still be filled, and
  the bytes that the L1 held when it issued. -/
  | fill (size code : Nat) (page : Page) (keep : Bool) (known : List (Option Byte))
  /-- A fetch of a line for the L1 alone: by a prefetch, or (`want`) by an instruction that waits for it. -/
  | fetch (code : Nat) (page : Page) (keep want : Bool)
  /-- A write-back of a core's dirty bytes. -/
  | flush (core : Nat) (dirty : BitVec 128)
  /-- An mwatch, for the lanes that receive its word; and a watch that wakes: its number and the code. -/
  | watch (lanes : Word)
  | wake (id code : Nat)
  | atomic (op size : Nat) (x : DWord)
  | rget (opid : Nat)
  /-- A question to the home of a handle (15 R371, R373): 0 its status, 1 that it be dropped. -/
  | ask (what : Nat)
  | accepted
  | completion (status : Nat)
  /-- A handle's result slot is free at its device, and whether the handle was done. -/
  | freeSlot (part slot : Nat) (done : Bool)
  /-- Home has recorded a result as posted (15 R364, R369). -/
  | recorded
  | groupArrive (part gid : Nat)
  | groupNotice (part gid : Nat)
  | rootCount (part gid n : Nat)
  /-- A mirror page's step, with its descriptor (09 R248, R249). -/
  | mirror (step : MirrorStep) (index : Nat)
  /-- A host's access to the management window of another device of the group (18 R438): an offset, and the value written
  or none for a read of `n` bytes. -/
  | window (off n : Nat) (value : Option DWord)
deriving DecidableEq, Repr

/-- A message in flight. -/
structure Msg where
  id : Nat
  kind : MsgKind
  src : Nat
  dst : Nat
  part : Nat
  tpart : Nat
  pasid : Nat
  cell : Nat
  handle : DWord
  dep : DWord
  block : List Byte
  addr : Nat
  data : Nat
  /-- Issuing gang and operation, lane, register. -/
  gang : Nat
  opid : Nat
  lane : Nat
  reg : Nat
  opc : DWord
  link : Option Nat
  /-- The stores whose bytes a write-back carries. -/
  notes : List StoreNote
  /-- The translation generation of its PASID that it started under (09 R252). -/
  gen : Nat
deriving DecidableEq, Repr

/-- A slot of the handle resolution table (15 R363, R364): state 0 pending, 1 bound, 2 done, 3 broken. -/
structure HSlot where
  gen : BitVec 24
  used : Bool
  kind : Nat
  part : Nat
  state : Nat
  cause : Nat
  bytes : Nat
  /-- Executing device, partition and result slot. -/
  dev : Nat
  epart : Nat
  rslot : Nat
  dropped : Bool
  accepted : Bool
  waitlist : List Msg
  /-- The gang and operation whose RM count it holds. -/
  issuer : Nat
  opid : Nat
deriving DecidableEq, Repr

/-- An invocation accepted by this device, until its result slot is freed or it breaks (15 R374 to R377)
(log entry 53, DEDUCED). -/
structure Exec where
  handle : DWord
  /-- Home device, and the issuing partition. -/
  home : Nat
  spart : Nat
  /-- Cell, entry index, and the executing partition. -/
  cell : Nat
  idx : Nat
  part : Nat
  /-- The workgroup that bound it, and the result slot. -/
  bound : Option (Nat × Nat)
  /-- 0 running, 1 put, 2 broken, 3 recorded as done by its home; and the bytes put. -/
  settled : Nat
  bytes : Nat
  /-- Home has freed its result slot (15 R373, R379): the record stays for messages that name it. -/
  freed : Bool
deriving DecidableEq, Repr

/-- A trigger cell (15 R380). -/
structure TCell where
  inbox : DWord
  counter : Nat
  threshold : Nat
  packet : DWord
  queue : Nat
  tagm : BitVec 16
  tagv : BitVec 16
  flags : BitVec 16
  pasid : Nat
  owner : Option Nat
  ilog : Nat
  pend : Nat
  tail : Word
  bind : Word
  head : Word
  /-- Entries finished at or after head. -/
  fin : List Word
deriving DecidableEq, Repr

/-- A packet that runs (17 R418). -/
structure Packet where
  id : Nat
  type : Nat
  seq : Nat
  fence : Bool
  bytes : List Byte
  comp : Option Nat
  part : Nat
  pasid : Nat
  /-- Launch number, or the mask of the conditions that held at the last reading. -/
  ref : Nat
  /-- Its effects have been sent and are under way: the cause and the result of its record. -/
  fate : Option (Nat × Nat)
  /-- A WAIT-AND whose reading meets a fault that is being resolved waits for the next poll (17 R412, R420); a SIGNAL whose
  write is under way has its raise still to make (17 R419). -/
  held : Bool
deriving DecidableEq, Repr

/-- A hardware work queue (17 R411 to R413). -/
structure Queue where
  desc : List Byte
  /-- Priority: of its descriptor, or of the management queue (17 R410). -/
  prio : Nat
  rd : Word
  wr : Word
  running : List Packet
  stalled : Bool
  /-- Packets that fires have copied, each with the write index before which it stands (15 R381; log entry 20, DEDUCED). -/
  fed : List (Word × List Byte)
deriving DecidableEq, Repr

/-- A launch in progress (17 R422 to R430). -/
structure Launch where
  id : Nat
  queue : Nat
  /-- The queue's priority when it started. -/
  prio : Nat
  pkt : Nat
  part : Nat
  pasid : Nat
  record : List Byte
  /-- Address of the record. -/
  addr : Nat
  args : List Word
  /-- Native code base: none while Plaquel translation runs (02 R64); and the native bytes of a unit of a role's entry. -/
  code : Option DWord
  stride : Nat
  next : Nat
  retired : Nat
  fatal : Option (List Byte)
  /-- The cause with which it ends from outside: 8 with its PASID, 12 with its partition (17 R417). -/
  doom : Option Nat
  passes : Nat
  failedOnce : Bool
  aged : Bool
deriving DecidableEq, Repr

/-- What is kept of a gang of a saved workgroup beside its context: the operations that its counters count, what its reports
and locks name beside their bytes there, what the fetch slot served, its marks, what holds its accesses, and the rgets
withdrawn (16 R400, R401) (log entry 67, DEDUCED). -/
structure SavedGang where
  num : Nat
  /-- The mask of the regang at which each slice waits, and its word. -/
  wmask : SMap (BitVec 8)
  words : SMap Word
  out : List OutOp
  issued : SMap Nat
  reports : List Report
  served : Nat
  unfinishedOf : Nat
  replay : Option PcVal
  delivered : List Nat
  locks : List LockEntry
  broken : Bool
  watch : Watch
  hint : Option Nat
  holds : List Hold
  late : List LateOp
  rgets : List Msg
deriving DecidableEq, Repr

/-- A saved workgroup: its number, the slot and core it was saved from, its context in memory, and what the device
keeps of it beside the context (16 R400, R403) (log entry 67, DEDUCED). -/
structure Saved where
  id : Nat
  wid : Nat
  addr : DWord
  bytes : Nat
  part : Nat
  pasid : Nat
  launch : Nat
  nbh : Option Nat
  nbhId : Nat
  age : Nat
  pb : DWord
  z : Nat
  /-- Barn granules of its allocation. -/
  barn : Nat
  /-- The barw marks of its barrier registers. -/
  barw : List (Nat × SMap PcVal)
  /-- The Gleaner commands and Thresher operations of its records, in their order. -/
  cmds : List Gcmd
  ops : List Mentry
  gangs : List SavedGang
  /-- Gangs that had ended: number, allocation and xst, which members of their expand groups read (12 R311). -/
  ended : List (Nat × Nat × DWord)
deriving DecidableEq, Repr

/-! ## Device-wide records -/

/-- A firmware call that waits for its reply (16 R408). -/
structure FwCall where
  gang : Nat
  id : Nat
  code : Word
  arg : DWord
  /-- The result pair. -/
  dest : Code
deriving DecidableEq, Repr

/-- An invalidation that has not completed (09 R250): the gang and the number it stalls on, the messages of the device,
and the late operations of gangs, that use a translation it has removed. -/
structure Inval where
  gang : Nat
  id : Nat
  msgs : List Nat
  late : List (Nat × Nat)
deriving DecidableEq, Repr

/-- A mirror page whose write the firmware resolves, or whose step for another device waits for its invalidation
(09 R248, R249). -/
structure MirrorJob where
  id : Nat
  /-- Die and ring slot of the fault; or the device that asked, with its number for the request. -/
  fault : Option (Nat × Nat)
  asker : Nat × Nat
  pasid : Nat
  va : Nat
  /-- 0 to be judged, 1 claimed, 2 leaves replaced, 3 finished, 4 another device collapses the page. -/
  phase : Nat
  index : Nat
  /-- Messages and invalidations that it waits for. -/
  waits : List Nat
  /-- The claim's answer: 0 swapped, otherwise the state found. -/
  answer : Nat
deriving DecidableEq, Repr

/-- A write of the queue front end whose page the firmware or the host resolves: it is tried again (17 R412). -/
structure FrontWrite where
  part : Nat
  pasid : Nat
  addr : Nat
  bytes : List Byte
deriving DecidableEq, Repr

/-- The end of a partition or of a PASID that has begun and waits for the work that it ends (09 R252, 16 R397, 17 R421): the
PARTITION op, or 0 for a key erase; the partition or PASID; and the packet that asked, if one did. -/
structure Ending where
  op : Nat
  what : Nat
  pkt : Nat
deriving DecidableEq, Repr

/-- A teardown of a PASID that has not been reported (09 R252): the PASID, its packet and queue, and the generation that it
ends. -/
structure Teardown where
  pasid : Nat
  pkt : Nat
  queue : Nat
  gen : Nat
deriving DecidableEq, Repr

/-- The privileged system registers of device scope (16 R405). -/
structure SysRegs where
  sysPart : Word
  pasidBase : DWord
  mirrorBase : DWord
  inboundTmo : Word
  inflogBase : DWord
  /-- INFLOG_BASE has been written (16 R405). -/
  inflogSet : Bool
  inflogHead : Word
  inflogTail : Word
  inflogLost : Word
  inflogSeq : Nat
  ctxBase : DWord
deriving DecidableEq, Repr

/-- DVFS, thermal and power state (19 R449 to R454). -/
structure Power where
  reqFreq : Nat
  reqVolt : Nat
  freq : Nat
  volt : Nat
  busy : Bool
  deny : Nat
  /-- Target of the step in progress (busy), and what it does: 1 the voltage slews and then the clock switches, 2 the clock
  switches and the step ends, 3 the clock switches and then the voltage slews, 4 the voltage slews and the step ends. -/
  target : Nat × Nat
  phase : Nat
  /-- The accepted request that waits for the step in progress. -/
  waiting : Option (Nat × Nat)
  /-- The frequency that the power cap allows (19 R450). -/
  capFreq : Nat
  throttled : Bool
  clockStopped : Bool
  cap : Nat
  shutdown : Bool
deriving DecidableEq, Repr

/-- What a cluster has counted since the last telemetry sample: issue slots in which a lane group held a resident gang, those
in which one issued, and cycles in which a pass ran (19 R458). -/
structure Slots where
  resident : Nat
  issued : Nat
  busy : Nat
deriving DecidableEq, Repr

/-- Nothing counted. -/
def Slots.none : Slots := { resident := 0, issued := 0, busy := 0 }

/-- One Lumen link (18 R432 to R436, 19 R457) (log entry 81, DEDUCED). -/
structure Link where
  up : Bool
  /-- Device at the far end, as training learned it. -/
  far : Option Nat
  /-- Failed receptions of the flit that is due: the first, and the failed replays of it. -/
  replays : Nat
  /-- Sequence number of the flit that is due. -/
  seqIn : Nat
  /-- It has gone down and requests are outstanding on it: the messages held since, and the masks of before. -/
  draining : Bool
  held : List Nat
  oldMasks : SMap Nat
deriving DecidableEq, Repr

/-- An inbound access in progress (09 R253). -/
structure Inbound where
  id : Nat
  src : Nat
  spart : Nat
  pasid : Nat
  /-- 0 read, 1 write, 2 atomic, 3 read of an engine, 4 write of an engine, 5 mwatch, 6 write-back. -/
  kind : Nat
  addr : Nat
  size : Nat
  data : Nat
  /-- What the initiator names the request by. -/
  tag : Nat
  /-- It is an access of the host, which the bridge of the group forwards (01 R34, 18 R438). -/
  host : Bool
  /-- The translation generation of its PASID here that it started under (09 R252). -/
  gen : Nat
deriving DecidableEq, Repr

/-- How the plain loads and stores of the instruction in issue perform (log entry 83, DEDUCED): as it issues; its loads at
a later turn (08 R213 item 3); the upper half of a 16-byte access at a later turn (07 R180). -/
inductive Pace where
  | now
  | late
  | halves
deriving DecidableEq, Repr

/-- A turn of the device: an event of the opcode table; an issue slot of a lane group, at a pace of its own; a seat that
renames the next instruction of its predicted fetch order, dispatches the oldest entry of its window that can, or retires the
oldest entry (04 R111 to R113); a byte of a core's store queues that reaches its bank (08 R218); an uncorrectable error
that strikes a word of a cluster's accumulator or scale memory (13 R334); the firmware's next step for a mirror page (09 R248, R249); its mark on a frame that it migrates, or that it has migrated (09 R253); or a host's access to
the management window of the device that a function stands for (18 R438, R442), also a write under an attestation session
key (R448); or a new firmware image with its signature for the next boot (R447). -/
inductive Turn where
  | event (i : Instr)
  | issue (core lg : Nat)
  | issueAt (pace : Pace) (core lg : Nat)
  | rename (core lg group : Nat) (pc : PcVal)
  | dispatch (core lg index : Nat)
  | retire (core lg : Nat)
  | drain (core index : Nat)
  | upset (cluster level word : Nat)
  | mirror (id : Nat)
  | migrate (frame : Nat) (on : Bool)
  | window (fn off n : Nat) (value : Option DWord)
  | sealed (fn off n : Nat) (value : DWord) (key : Nat) (tag : List Byte)
  | flash (image signature : List Byte)
deriving DecidableEq, Repr

/-- Who watches a line (07 R185): a gang of this device, or the mwatch of that number on another device. -/
inductive Watcher where
  | gang (key : Nat)
  | far (dev id : Nat)
deriving DecidableEq, Repr

/-- The state of the device. -/
structure State where
  /-- Key of the gang in focus: the one whose instruction issues (the model's own). -/
  cur : Nat
  gangs : SMap Gang
  wgs : SMap Workgroup
  cores : SMap Core
  clusters : SMap Cluster
  dies : SMap Die
  parts : SMap Part
  /-- Local memory of the device by local physical address (07 R197). -/
  mem : List Host.Cell
  /-- Poisoned lines (19 R455). -/
  badLines : List Nat
  /-- Frames marked in migration (09 R253). -/
  migrating : List Nat
  /-- The translation caches of the I/O dies (09 R235): 0 the queue front end's, 1 the cell store's (log entry 11, DEDUCED). -/
  ioTlb : SMap (List TlbEntry)
  /-- The management window BAR2 (18 R442). -/
  window : SMap Byte
  sys : SysRegs
  power : Power
  groups : SMap NamedGroup
  handles : SMap HSlot
  msgs : List Msg
  /-- Messages held for a handle that this device executes (15 R369). -/
  held : List Msg
  execs : List Exec
  /-- Actions of alarms and uncorrectable errors that the reeve firmware has not carried out yet (18 R444, 07 R204):
  action, PASID, partition. -/
  alarms : List (Nat × Nat × Nat)
  cells : SMap TCell
  queues : SMap Queue
  frontWrites : List FrontWrite
  launches : List Launch
  /-- A choice of a dispatcher that is being admitted: launch, cores, and the dispatcher's die (17 R426). -/
  admission : Option (Nat × List Nat × Nat)
  saved : List Saved
  promo : List (Nat × Nat)
  watches : List (Nat × Watcher)
  gt : BitVec 12
  sweep : Nat
  teardowns : List Teardown
  endings : List Ending
  invals : List Inval
  mirrors : List MirrorJob
  fwcalls : List FwCall
  links : SMap Link
  inbound : List Inbound
  /-- Outcome of the host's last BAR0 access: status 0 successful or 1 unsupported request, and the bytes read (18 R438). -/
  hostReply : Option (Nat × Nat)
  logIndex : Nat
  logCount : Nat
  routes : SMap Nat
  /-- The management agent has loaded a route table (18 R435). -/
  routesLoaded : Bool
  /-- Corrections of each row since the last 24 h boundary, spare rows used in each bank, the spare of each remapped row,
  and lines scrubbed in each stack (19 R455, R456). -/
  rowFixes : SMap Nat
  spares : SMap Nat
  remap : SMap Nat
  scrubbed : SMap Nat
  eventIdx : Nat
  sigIndex : Nat
  sessions : List (BitVec 256)
  /-- The firmware image of the next boot with its signature, and the image that runs; the device stays in its boot loader
  when the signature does not verify (18 R447). -/
  flash : List Byte × List Byte
  image : List Byte
  bootFailed : Bool
  /-- Policy records whose load runs (18 R442). -/
  commits : List Nat
  /-- Cycles since the last telemetry sample, and what the clusters counted in them (19 R458). -/
  windowCycles : Nat
  slots : SMap Slots
  kept : List Nat
  devid : Nat
  bridge : Bool
  pcieUp : Bool
  clock : DWord
  /-- The word being issued and its address (for the trap record, 16 R388). -/
  ir : Word
  /-- Next operation number; next free value (log entries 4, 5); next workgroup age. -/
  nextId : Nat
  fresh : Nat
  /-- Turns to come, oldest first; empty: the model's own order (log entry 3, DESIGN CHOICE). -/
  agenda : List Turn
  pace : Pace
  stepNo : Nat
deriving DecidableEq, Repr

/-! ## Empty records and the state after reset -/

/-- No such gang. -/
def Gang.absent : Gang :=
  { live := false, wid := 0, num := 0, lg := 0, alloc := 8, rows := [], age := 0
    regs := { v := [], p := [], sc := [], exec := 0, mode := [], fpf := 0, xi := [], xo := [], xk := [], xst := 0,
              broken := false }
    flow := { pc := [], grp := [], exited := 0, waiting := 0, wmask := [], words := [], served := 0, count := 0, rst := [],
              blocks := [] }
    trap := { level := 0, hpc1 := 0, hpc2 := 0, frame := 0, unfinished := 0, unfinishedOf := 0, replay := Option.none, delivered := [], parked := false,
              preempt := false, taken := false, tmask := 0 }
    out := [], issued := [], pend := [], reports := []
    watch := { armed := Option.none, fired := false, invalid := false, lost := false, timedOut := false, id := 0 }
    locks := [], hint := Option.none, holds := [], late := [], fetchFails := [], polls := [], exitPc := [] }

/-- A barrier register as admission leaves it, but b0 (10 R256). -/
def Bar.zero : Bar :=
  { gen := 0, init := false, ovf := false, e := 0, x := 0, a := 0, arrived := 0, rc := 0, kc := 0, barw := [] }

/-- No such workgroup. -/
def Workgroup.absent : Workgroup :=
  { live := false, wgid := 0, gangs := 0, nbh := Option.none, nbhId := 0, part := 0, pasid := 0, launch := 0,
    pb := 0, z := 1024, rclock := 0, mcount := 0, ticks := [], bars := [], tiles := [], barn := [], groups := [],
    forming := [], assembling := [], fatal := Option.none, posted := Option.none, age := 0,
    removed := false }

/-- A core with nothing resident. -/
def Core.empty : Core :=
  { l1 := [], tlb := [], banks := [], squeue := [], seats := [], sprinterRun := [], ring := [], herdPtr := [],
    gleaner := [], ticket := 0, ended := [], reclaiming := [], drains := [] }

/-- An empty sprinter seat (04 R106). -/
def Seat.empty : Seat :=
  { holder := Option.none, pool := [], window := [], restart := Option.none, idle := 0, demoting := false }

/-- A cluster after reset: memories and event bits 0 (13 R334, 14 R347). -/
def Cluster.empty : Cluster :=
  { tlb := [], walkCache := [], acc := [], accUsed := [], drainFmt := [], failedTile := [], scl := [], sclUsed := [], events := 0, evFrom := [],
    table := [], pass := Option.none, port := Option.none, part := Option.none,
    predictor := [], upset := [] }

/-- A die after reset (16 R405, 17 R426); the disabled cluster is log entry 2, DESIGN CHOICE. -/
def Die.empty : Die :=
  { disabled := 14, tfqBase := 0, tfqHead := 0, tfqTail := 0, tfqSeq := 0, waiting := [], opened := [],
    share := [], lastQueue := [], reserved := Option.none, contending := [] }

/-- A partition that is not configured. The per-partition registers hold their reset values (16 R405). -/
def Part.absent : Part :=
  { live := false, clusters := [], channels := [], quota := 12, share := 1, cells := (0, 0), slots := (0, 0),
    nextSlot := 0, pool := (0, 0), poolUsed := [], notice := (0, 0), noticeIdx := 0, noticeSeq := 1,
    sprintCtl := 0x0000001F, nuCtl := 0x010085C0, l2Quota := 0x0000000C, ngTable := [], codeTable := [],
    natives := [], keyEpoch := 0, policy := [], blocked := [], lastChannels := [] }

/-- A node with no member. -/
def GroupNode.empty : GroupNode := { cur := 0, pending := 0, arrived := 0, passed := false }

/-- A named group that no workgroup has joined. -/
def NamedGroup.empty : NamedGroup := { bound := Option.none, gen := 0, nodes := [], devices := [], members := [], topk := [], lists := [] }

/-- A handle slot after reset: generation 0, free (15 R363). -/
def HSlot.free : HSlot :=
  { gen := 0, used := false, kind := 0, part := 0, state := 0, cause := 0, bytes := 0, dev := 0, epart := 0,
    rslot := 0, dropped := false, accepted := false, waitlist := [], issuer := 0, opid := 0 }

/-- A trigger cell zeroed and disarmed (15 R380). -/
def TCell.zero : TCell :=
  { inbox := 0, counter := 0, threshold := 0, packet := 0, queue := 0, tagm := 0, tagv := 0, flags := 0, pasid := 0,
    owner := Option.none, ilog := 0, pend := 0, tail := 0, bind := 0, head := 0, fin := [] }

/-- A queue whose descriptor has V = 0 (17 R411). -/
def Queue.empty : Queue := { desc := [], prio := 0, rd := 0, wr := 0, running := [], stalled := false, fed := [] }

/-- A link that has not trained (18 R432). -/
def Link.down : Link :=
  { up := false, far := Option.none, replays := 0, seqIn := 0, draining := false, held := [], oldMasks := [] }

/-- The device right after reset: every field at the value the spec gives; the others are named in log entries 1, 2
and 101 (DESIGN CHOICE) and in INVENTORY.md. -/
def State.reset : State :=
  { cur := 0, gangs := [], wgs := [], cores := [], clusters := [], dies := [], parts := [], mem := []
    badLines := [], migrating := [], ioTlb := [], window := []
    sys := { sysPart := 0, pasidBase := 0, mirrorBase := 0, inboundTmo := 2000, inflogBase := 0, inflogSet := false, inflogHead := 0,
             inflogTail := 0, inflogLost := 0, inflogSeq := 0, ctxBase := 0 }
    power := { reqFreq := 2400, reqVolt := 800, freq := 2400, volt := 800, busy := false, deny := 0,
               target := (2400, 800), phase := 0, waiting := Option.none, capFreq := 2400, throttled := false, clockStopped := false,
               cap := 3600, shutdown := false }
    groups := [], handles := [], msgs := [], held := [], execs := [], alarms := [], cells := []
    queues := [(4095, { Queue.empty with prio := 3 })], frontWrites := [], launches := [], admission := Option.none, saved := []
    promo := [], watches := [], gt := 0, sweep := 0, teardowns := [], endings := [], invals := [], mirrors := [], fwcalls := [], links := []
    inbound := [], hostReply := Option.none, logIndex := 0, logCount := 0, routes := [], routesLoaded := false, rowFixes := []
    spares := [], remap := [], scrubbed := [], eventIdx := 0, sigIndex := 0, sessions := []
    flash := (Config.firmwareImage, Config.firmwareSignature), image := Config.firmwareImage, bootFailed := false, commits := []
    windowCycles := 0, slots := [], kept := [], devid := 0
    bridge := false, pcieUp := false, clock := 0, ir := 0, nextId := 0, fresh := 0, agenda := [], pace := .now,
    stepNo := 0 }

end Sys2Proof.Machine
end

