-- ==== Sys2Proof/Machine/Regs.lean ====
section
/-! DEFINITION. Records of the state by key, and the one home of every gang register: reads, writes, lanes, slices,
PC-groups (02 R48, R49; 03 R67; 00 R11). -/

namespace Sys2Proof.Machine

/-! ### Records by key -/

/-- The gang of a key. -/
def State.gangAt (s : State) (k : Nat) : Gang := (mapFind k s.gangs).getD Gang.absent
/-- Put the gang of a key. -/
def State.setGangAt (s : State) (k : Nat) (g : Gang) : State := { s with gangs := mapPut k g s.gangs }
/-- The gang in focus. -/
def State.gang (s : State) : Gang := s.gangAt s.cur
/-- Put the gang in focus. -/
def State.setGang (s : State) (g : Gang) : State := s.setGangAt s.cur g
/-- Change the gang of a key. -/
def State.updGangAt (s : State) (k : Nat) (f : Gang → Gang) : State := s.setGangAt k (f (s.gangAt k))
/-- Change the gang in focus. -/
def State.updGang (s : State) (f : Gang → Gang) : State := s.setGang (f s.gang)

/-- The workgroup of a key. -/
def State.wgAt (s : State) (k : Nat) : Workgroup := (mapFind k s.wgs).getD Workgroup.absent
/-- Put a workgroup. -/
def State.setWgAt (s : State) (k : Nat) (w : Workgroup) : State := { s with wgs := mapPut k w s.wgs }
/-- Change a workgroup. -/
def State.updWgAt (s : State) (k : Nat) (f : Workgroup → Workgroup) : State := s.setWgAt k (f (s.wgAt k))
/-- The workgroup of the gang in focus. -/
def State.wg (s : State) : Workgroup := s.wgAt s.gang.wid
/-- Change the workgroup of the gang in focus. -/
def State.updWg (s : State) (f : Workgroup → Workgroup) : State := s.updWgAt s.gang.wid f

/-- The core of a coreid. -/
def State.coreAt (s : State) (k : Nat) : Core := (mapFind k s.cores).getD Core.empty
/-- Change a core. -/
def State.updCore (s : State) (k : Nat) (f : Core → Core) : State := { s with cores := mapPut k (f (s.coreAt k)) s.cores }
/-- The cluster of a key 15 * die + cluster. -/
def State.clusterAt (s : State) (k : Nat) : Cluster := (mapFind k s.clusters).getD Cluster.empty
/-- Change a cluster. -/
def State.updCluster (s : State) (k : Nat) (f : Cluster → Cluster) : State :=
  { s with clusters := mapPut k (f (s.clusterAt k)) s.clusters }
/-- A die. -/
def State.dieAt (s : State) (k : Nat) : Die := (mapFind k s.dies).getD Die.empty
/-- Change a die. -/
def State.updDie (s : State) (k : Nat) (f : Die → Die) : State := { s with dies := mapPut k (f (s.dieAt k)) s.dies }
/-- A partition. -/
def State.partAt (s : State) (k : Nat) : Part := (mapFind k s.parts).getD Part.absent
/-- Change a partition. -/
def State.updPart (s : State) (k : Nat) (f : Part → Part) : State := { s with parts := mapPut k (f (s.partAt k)) s.parts }
/-- A trigger cell. -/
def State.cellAt (s : State) (k : Nat) : TCell := (mapFind k s.cells).getD TCell.zero
/-- Put a trigger cell. -/
def State.setCell (s : State) (k : Nat) (c : TCell) : State := { s with cells := mapPut k c s.cells }
/-- A queue. -/
def State.queueAt (s : State) (k : Nat) : Queue := (mapFind k s.queues).getD Queue.empty
/-- Change a queue. -/
def State.updQueue (s : State) (k : Nat) (f : Queue → Queue) : State := { s with queues := mapPut k (f (s.queueAt k)) s.queues }
/-- A handle slot. -/
def State.slotAt (s : State) (k : Nat) : HSlot := (mapFind k s.handles).getD HSlot.free
/-- Change a handle slot. -/
def State.updSlot (s : State) (k : Nat) (f : HSlot → HSlot) : State := { s with handles := mapPut k (f (s.slotAt k)) s.handles }
/-- A link. -/
def State.linkAt (s : State) (k : Nat) : Link := (mapFind k s.links).getD Link.down
/-- Change a link. -/
def State.updLink (s : State) (k : Nat) (f : Link → Link) : State := { s with links := mapPut k (f (s.linkAt k)) s.links }

/-- Coreid of a workgroup key. -/
def coreOfWid (wid : Nat) : Nat := wid / 16
/-- Slot of a workgroup key. -/
def slotOfWid (wid : Nat) : Nat := wid % 16
/-- Die of a coreid (02 R40). -/
def dieOfCore (c : Nat) : Nat := c / 60
/-- Cluster key of a coreid. -/
def clusterOfCore (c : Nat) : Nat := 15 * (c / 60) + c % 60 / 4
/-- Key of a gang. -/
def gangKey (wid num : Nat) : Nat := wid * 32 + num
/-- Core of a gang. -/
def Gang.core (g : Gang) : Nat := coreOfWid g.wid
/-- Cluster of a gang. -/
def Gang.cluster (g : Gang) : Nat := clusterOfCore g.core

/-- Keys of the live gangs. -/
def State.liveGangs (s : State) : List Nat := (s.gangs.filter (fun e => e.2.live)).map (·.1)
/-- Keys of the live gangs of a workgroup. -/
def State.gangsOf (s : State) (wid : Nat) : List Nat :=
  (s.gangs.filter (fun e => e.2.live && decide (e.2.wid = wid))).map (·.1)
/-- Keys of the live gangs of a core. -/
def State.gangsOnCore (s : State) (c : Nat) : List Nat :=
  (s.gangs.filter (fun e => e.2.live && decide (e.2.core = c))).map (·.1)
/-- Keys of the live workgroups of a core. -/
def State.wgsOnCore (s : State) (c : Nat) : List Nat :=
  (s.wgs.filter (fun e => e.2.live && decide (coreOfWid e.1 = c))).map (·.1)

/-- A fresh free value: the index used and the state with the counter moved on (log entry 5, DESIGN CHOICE). -/
def State.takeFresh (s : State) : Nat × State := (s.fresh, { s with fresh := s.fresh + 1 })

/-! ### Registers of a gang -/

/-- v r of lane l. -/
def Gang.v (g : Gang) (r l : Nat) : Word := mapGet 0 g.regs.v (r * 32 + l)
/-- Write v r of lane l. -/
def Gang.setV (g : Gang) (r l : Nat) (x : Word) : Gang :=
  { g with regs := { g.regs with v := mapSet 0 g.regs.v (r * 32 + l) x } }
/-- The pair v r, v (r + 1) of lane l: the even register holds bits [31:0] (02 R42). -/
def Gang.vPair (g : Gang) (r l : Nat) : DWord := g.v (r + 1) l ++ g.v r l
/-- Write a pair. -/
def Gang.setVPair (g : Gang) (r l : Nat) (x : DWord) : Gang :=
  (g.setV r l (x.setWidth 32)).setV (r + 1) l ((x >>> 32).setWidth 32)
/-- p i of lane l. -/
def Gang.p (g : Gang) (i l : Nat) : Bool := (mapGet 0 g.regs.p i).getLsbD l
/-- p i of all lanes, as a mask. -/
def Gang.pMask (g : Gang) (i : Nat) : Word := mapGet 0 g.regs.p i
/-- Write p i of all lanes. -/
def Gang.setPMask (g : Gang) (i : Nat) (m : Word) : Gang :=
  { g with regs := { g.regs with p := mapSet 0 g.regs.p i m } }
/-- s i of slice k. -/
def Gang.s (g : Gang) (k i : Nat) : Word := mapGet 0 g.regs.sc (k * 32 + i)
/-- Write s i of slice k. -/
def Gang.setS (g : Gang) (k i : Nat) (x : Word) : Gang :=
  { g with regs := { g.regs with sc := mapSet 0 g.regs.sc (k * 32 + i) x } }
/-- The reset value of MODE (02 R50). -/
def modeReset : Word := 0x007A005F
/-- MODE of slice k. -/
def Gang.mode (g : Gang) (k : Nat) : Word := mapGet modeReset g.regs.mode k
/-- Write MODE of slice k. -/
def Gang.setMode (g : Gang) (k : Nat) (x : Word) : Gang :=
  { g with regs := { g.regs with mode := mapSet modeReset g.regs.mode k x } }
/-- PC of slice k. -/
def Gang.pc (g : Gang) (k : Nat) : PcVal := mapGet 0 g.flow.pc k
/-- Lowest slice of slice k's PC-group. -/
def Gang.grp (g : Gang) (k : Nat) : Nat := mapGet 0 g.flow.grp k
/-- Return stack of slice k. -/
def Gang.rst (g : Gang) (k : Nat) : RetStack := mapGet { entries := [], spilled := 0 } g.flow.rst k
/-- Write the return stack of slice k. -/
def Gang.setRst (g : Gang) (k : Nat) (r : RetStack) : Gang :=
  { g with flow := { g.flow with rst := mapSet { entries := [], spilled := 0 } g.flow.rst k r } }

/-! ### Fields of MODE (02 R50) -/

/-- MODE.guard. -/
def modeGuard (m : Word) : Nat := m.toNat % 32
/-- MODE.sense. -/
def modeSense (m : Word) : Bool := bit m.toNat 5
/-- MODE.etype. -/
def modeEtype (m : Word) : Nat := field m.toNat 6 5
/-- MODE.round. -/
def modeRound (m : Word) : Nat := field m.toNat 11 3
/-- MODE.sat. -/
def modeSat (m : Word) : Bool := bit m.toNat 14
/-- MODE.ftz. -/
def modeFtz (m : Word) : Bool := bit m.toNat 15
/-- MODE.fpx. -/
def modeFpx (m : Word) : Bool := bit m.toNat 16
/-- MODE.nu. -/
def modeNu (m : Word) : Nat := field m.toNat 17 6

/-! ### Slices and lanes -/

/-- Slice k has exited. -/
def Gang.exitedAt (g : Gang) (k : Nat) : Bool := g.flow.exited.getLsbD k
/-- Issuing(): slice k belongs to the PC-group being served (00 R11, 03 R67). -/
def Gang.issuing (g : Gang) (k : Nat) : Bool := decide (k < 8) && !g.exitedAt k && decide (g.grp k = g.flow.served)
/-- The slices of Issuing(), ascending. -/
def Gang.issuingList (g : Gang) : List Nat := (List.range 8).filter g.issuing
/-- Issuing() as a mask. -/
def Gang.issuingMask (g : Gang) : Nat := ((List.range 8).map (fun k => if g.issuing k then 2 ^ k else 0)).sum
/-- The lowest slice of Issuing() (02 R49): the served group's number. -/
def Gang.low (g : Gang) : Nat := g.flow.served
/-- The PC being issued. -/
def Gang.pcNow (g : Gang) : PcVal := g.pc g.low
/-- Every non-exited slice of the gang is in Issuing() (03 R91, 10 R260). -/
def Gang.whole (g : Gang) : Bool := (List.range 8).all (fun k => g.exitedAt k || g.issuing k)
/-- Slices that issue and hold a value of a mode field: all slices of Issuing() satisfy `f`. -/
def Gang.allIssuing (g : Gang) (f : Nat → Bool) : Bool := (List.range 8).all (fun k => !g.issuing k || f k)

/-- Guard(l) (00 R11). -/
def Gang.guard (g : Gang) (l : Nat) : Bool :=
  let m := g.mode (l / 4)
  if modeGuard m = 31 then true else g.p (modeGuard m) l == !modeSense m

/-- EXEC bit of lane l. -/
def Gang.execBit (g : Gang) (l : Nat) : Bool := g.regs.exec.getLsbD l

/-- Lane l is in Active() (00 R11). -/
def Gang.active (g : Gang) (l : Nat) : Bool := decide (l < 32) && g.issuing (l / 4) && g.execBit l && g.guard l

/-- The lanes of Active() in ascending order. -/
def Gang.activeList (g : Gang) : List Nat := (List.range 32).filter g.active

/-- A mask of lanes. -/
def laneMask (f : Nat → Bool) : Word := BitVec.ofNat 32 ((List.range 32).map (fun l => if f l then 2 ^ l else 0)).sum

/-- Write register r in the lanes that `f` chooses, with the values `x` (every value is formed before any lane is
written, 00 R10). -/
def writeVMap (r : Nat) (f : Nat → Bool) (x : Nat → Word) : Nat → SMap Word → SMap Word
  | 0, m => m
  | l + 1, m =>
    let m' := writeVMap r f x l m
    if f l then mapSet 0 m' (r * 32 + l) (x l) else m'

/-- The reports without their marks on register r in the lanes chosen by `f` (08 R231). -/
def clearMarks (r : Nat) (f : Nat → Bool) (rs : List Report) : List Report :=
  rs.map (fun p => { p with marks := (p.marks.map (fun m =>
    if m.1 = r then (m.1, m.2 &&& ~~~ laneMask f) else m)).filter (fun m => decide (m.2 ≠ 0)) })

/-- Write register r in the lanes chosen by `f`: a poison mark there is cleared, its report stays (08 R231). -/
def Gang.writeLanes (g : Gang) (r : Nat) (f : Nat → Bool) (x : Nat → Word) : Gang :=
  { g with
    regs := { g.regs with v := writeVMap r f x 32 g.regs.v }
    reports := clearMarks r f g.reports }

/-- Write predicate i in the lanes chosen by `f`. -/
def Gang.writePLanes (g : Gang) (i : Nat) (f : Nat → Bool) (x : Nat → Bool) : Gang :=
  g.setPMask i (laneMask (fun l => if f l then x l else g.p i l))

/-- Write scalar i in the slices chosen by `f`. -/
def writeSMap (i : Nat) (f : Nat → Bool) (x : Nat → Word) : Nat → SMap Word → SMap Word
  | 0, m => m
  | k + 1, m =>
    let m' := writeSMap i f x k m
    if f k then mapSet 0 m' (k * 32 + i) (x k) else m'

/-- Write scalar i in the slices chosen by `f`. -/
def Gang.writeSlices (g : Gang) (i : Nat) (f : Nat → Bool) (x : Nat → Word) : Gang :=
  { g with regs := { g.regs with sc := writeSMap i f x 8 g.regs.sc } }

/-- Write a 32-bit vector field. -/
def Gang.putV32 (g : Gang) (d : Code) (f : Nat → Bool) (x : Nat → Word) : Gang :=
  if d = 0xF0 then g else g.writeLanes d.toNat f x

/-- Write a group of `n` registers: register i gets `x i`. -/
def Gang.putGroup (g : Gang) (d : Code) (f : Nat → Bool) (x : Nat → Nat → Word) : Nat → Gang
  | 0 => g
  | n + 1 => if d = 0xF0 then g else (g.putGroup d f x n).writeLanes (d.toNat + n) f (x n)

/-! ### Moving the PC (03 R67 to R71) -/

/-- Set the PC of every issuing slice. -/
def setPcMap (f : Nat → Bool) (x : Nat → PcVal) : Nat → SMap PcVal → SMap PcVal
  | 0, m => m
  | k + 1, m =>
    let m' := setPcMap f x k m
    if f k then mapSet 0 m' k (x k) else m'

/-- Move past the word: PC + 4 for every slice of Issuing(). -/
def Gang.advance (g : Gang) : Gang :=
  { g with flow := { g.flow with pc := setPcMap g.issuing (fun _ => g.pcNow + 4) 8 g.flow.pc } }

/-- Put the group number of the slices chosen by `f`. -/
def setGrpMap (f : Nat → Bool) (x : Nat → Nat) : Nat → SMap Nat → SMap Nat
  | 0, m => m
  | k + 1, m =>
    let m' := setGrpMap f x k m
    if f k then mapSet 0 m' k (x k) else m'

/-- Divide(Issuing()): every issuing slice takes the PC `x k`, and the slices fall into groups by new PC; the
group of the lowest slice keeps the fetch slot (03 R67, R69, R71). -/
def Gang.divide (g : Gang) (x : Nat → PcVal) : Gang :=
  let leader := fun k => ((List.range 8).find? (fun j => g.issuing j && decide (x j = x k))).getD k
  { g with flow := { g.flow with
      pc := setPcMap g.issuing x 8 g.flow.pc
      grp := setGrpMap g.issuing leader 8 g.flow.grp } }

/-- The gang in focus moves past its word. -/
def State.advance (s : State) : State := s.updGang Gang.advance

/-! ### Path counters (02 R52) -/

/-- The counter of a path: its outstanding operations. -/
def Gang.counter (g : Gang) (p : Nat) : Nat := (g.out.filter (fun o => decide (o.path = p))).length

/-- Raise a counter at issue: one operation more, newest last. -/
def Gang.raise (g : Gang) (p id : Nat) (perf : Bool) : Gang :=
  let n := mapGet 0 g.issued p + 1
  { g with
    out := g.out ++ [{ path := p, id := id, perf := perf, done := false, seq := n, pc := g.pcNow }]
    issued := mapSet 0 g.issued p n }

/-- Put a report in its place, oldest operation first (08 R231). -/
def insertReport (r : Report) : List Report → List Report
  | [] => [r]
  | q :: qs => if r.id < q.id then r :: q :: qs else q :: insertReport r qs

/-- The number of an operation among those of its path; the last issued when it has left the counter. -/
def Gang.seqOf (g : Gang) (p id : Nat) : Nat :=
  match g.out.find? (fun o => decide (o.id = id)) with
  | some o => o.seq
  | none => mapGet 0 g.issued p

/-- The oldest report that a wait for the path `p` to fall to `n` covers (03 R90, 08 R230): its operation must have
completed for the wait to end. -/
def Gang.coveredReport (g : Gang) (p n : Nat) : Option Report :=
  g.reports.find? (fun r => decide (r.path = p) && decide (n < 1 + (mapGet 0 g.issued p - r.seq)))

/-- Drop the completed operations that no older operation of path `p` holds. -/
def dropDone (p : Nat) : List OutOp → List OutOp
  | [] => []
  | o :: os => if o.path = p then (if o.done then dropDone p os else o :: os) else o :: dropDone p os

/-- The operation `id` completes: counters fall in issue order. -/
def Gang.complete (g : Gang) (id : Nat) : Gang :=
  let marked := g.out.map (fun o => if o.id = id then { o with done := true } else o)
  { g with out := match g.out.find? (fun o => decide (o.id = id)) with
      | some o => dropDone o.path marked
      | .none => marked }

/-- The operation `id` has performed. -/
def Gang.performed (g : Gang) (id : Nat) : Gang :=
  { g with out := g.out.map (fun o => if o.id = id then { o with perf := true } else o) }

/-- Some operation of a path in the set `ps` is outstanding. -/
def Gang.busyOn (g : Gang) (ps : Nat) : Bool := g.out.any (fun o => bit ps o.path)

end Sys2Proof.Machine
end

