-- ==== Sys2Proof/Machine/Phys.lean ====
section
/-! DEFINITION. Where bytes live: home memory by local physical address, the L1 data caches (07 R192 to R195, 08 R218),
the Barn banks and store queues (07 R174, R192; 08 R218), and the watches of home lines (07 R185, R186). -/

namespace Sys2Proof.Machine

/-! ### Bytes at home -/

/-- The byte at a local physical address, at its home; an unlisted byte reads 0 (log entry 10, DESIGN CHOICE). -/
def State.byteAt (s : State) (a : Nat) : Byte := mapGet 0 s.mem a

/-- The number that `n` bytes hold at their home (00 R2). -/
def State.readHome (s : State) (a n : Nat) : Nat := readLE s.byteAt a n

/-- The PASID table entry (09 R236) (log entry 63, DEDUCED). -/
def State.pasidEntry (s : State) (pasid : Nat) : Nat := s.readHome (s.sys.pasidBase.toNat + 8 * pasid) 8

/-- The translation generation of a PASID (09 R252). -/
def State.pasidGen (s : State) (pasid : Nat) : Nat := field (s.pasidEntry pasid) 48 16

/-! ### Operation numbers and messages -/

/-- A new operation number. -/
def State.takeId (s : State) : Nat × State := (s.nextId, { s with nextId := s.nextId + 1 })

/-- A message with nothing in it. -/
def Msg.blank : Msg :=
  { id := 0, kind := .invoke, src := 0, dst := 0, part := 0, tpart := 0, pasid := 0, cell := 0, handle := 0, dep := 0,
    block := [], addr := 0, data := 0, gang := 0, opid := 0, lane := 0, reg := 0, opc := 0, link := none, notes := [], gen := 0 }

/-- The key of no gang, for a message that none has sent. -/
def noGang : Nat := 2 ^ 32

/-- The link that route masks give a message: the hash among the links of the mask (18 R435). -/
def linkUnder (masks : SMap Nat) (dst addr : Nat) : Option Nat :=
  let ls := (List.range 36).filter (fun l => bit (mapGet 0 masks dst) l)
  if ls.isEmpty then none else ls[Config.linkHash dst (field addr 12 40) % ls.length]?

/-- The link a message to `dst` takes. -/
def State.linkTo (s : State) (dst addr : Nat) : Option Nat := linkUnder s.routes dst addr

/-- A message joins those in flight on its link; one whose hash named a link that has gone down is held while requests
are outstanding on that link (18 R436). -/
def State.launchMsg (s : State) (m : Msg) : State :=
  if m.dst = s.devid then { s with msgs := s.msgs ++ [{ m with link := none }] }
  else match s.links.find? (fun e => e.2.draining && decide (linkUnder e.2.oldMasks m.dst m.addr = some e.1)) with
    | some e => { s with msgs := s.msgs ++ [{ m with link := some e.1 }] }.updLink e.1 (fun l => { l with held := m.id :: l.held })
    | none => { s with msgs := s.msgs ++ [{ m with link := s.linkTo m.dst m.addr }] }

/-- Send a message: it carries the generation of its PASID (09 R252). -/
def State.send (s : State) (m : Msg) : State :=
  let (i, s) := s.takeId
  s.launchMsg { m with id := i, src := s.devid, gen := s.pasidGen m.pasid }

/-! ### Home memory -/

/-- Memory is in its canonical form: addresses strictly rise and no entry equals what an unlisted address reads as
(log entry 10, DESIGN CHOICE). -/
def memWf (m : List Host.Cell) : Bool := mapWf (0 : Byte) m

/-- Put `n` bytes at `a`, the byte at a + i being `f i`. -/
def State.putBytes (s : State) (a n : Nat) (f : Nat → Byte) : State := { s with mem := mapSetRange 0 f a n s.mem }

/-- The watch of gang `k` fires with cause 0 (07 R186). -/
def fireGang (s : State) (k : Nat) : State :=
  s.updGangAt k (fun g => { g with watch := { g.watch with armed := none, fired := true } })

/-- A watcher wakes with cause 0: a gang of this device, or one of another device by a message (07 R186)
(log entry 62, DESIGN CHOICE). -/
def fireWatcher (s : State) : Watcher → State
  | .gang k => fireGang s k
  | .far dev id => s.send { Msg.blank with kind := .wake id 0, dst := dev }

/-- Any write to a line reaches the watches armed on it (07 R186): line number = local address div 128. -/
def State.fireWatches (s : State) (line : Nat) : State :=
  let hit := s.watches.filter (fun w => decide (w.1 = line))
  let s := { s with watches := s.watches.filter (fun w => decide (w.1 ≠ line)) }
  hit.foldl (fun s w => fireWatcher s w.2) s

/-- Fire the watches of every line that [a, a + n) touches. -/
def State.fireRange (s : State) (a n : Nat) : State :=
  (List.range (if n = 0 then 0 else (a + n - 1) / 128 - a / 128 + 1)).foldl (fun s i => s.fireWatches (a / 128 + i)) s

/-- A write that reaches home: bytes, then watches; a write of a whole line clears a poison mark (19 R455). -/
def State.writeHome (s : State) (a n : Nat) (f : Nat → Byte) : State :=
  let s := (s.putBytes a n f).fireRange a n
  { s with badLines := s.badLines.filter (fun l => !(decide (a ≤ l * 128) && decide (l * 128 + 128 ≤ a + n))) }

/-- Write a little-endian number at home. -/
def State.writeHomeNum (s : State) (a n x : Nat) : State := s.writeHome a n (Machine.byteAt x)

/-- Write a list of bytes at home. -/
def State.writeHomeList (s : State) (a : Nat) (bs : List Byte) : State := s.writeHome a bs.length (fun i => bs.getD i 0)

/-- Read a list of bytes at home. -/
def State.readHomeList (s : State) (a n : Nat) : List Byte := (List.range n).map (fun i => s.byteAt (a + i))

/-! ### Barn banks and store queues (08 R218) -/

/-- The newest byte queued for a bank address of a core, in any lane group's store queue (08 R218). -/
def queuedByte (core a : Nat) : List QueuedByte → Option Byte
  | [] => none
  | q :: qs =>
    match queuedByte core a qs with
    | some b => some b
    | none => if q.core = core && decide (q.addr = a) then some q.val else none

/-- The byte in the banks, which engines read (08 R227). -/
def State.bankByte (s : State) (core a : Nat) : Byte := mapGet 0 (s.coreAt core).banks a

/-- The byte that a Barn load of core `by_` finds in the Barn of a core: the newest one queued in its own core's four
queues, otherwise the bank (08 R214, R218). -/
def State.barnByte (s : State) (by_ core a : Nat) : Byte :=
  match queuedByte core a (s.coreAt by_).squeue with
  | some b => b
  | none => s.bankByte core a

/-- A Barn store of core `by_`: into the lane group's store queue. -/
def State.barnStore (s : State) (by_ lg core a : Nat) (b : Byte) : State :=
  s.updCore by_ (fun c => { c with squeue := c.squeue ++ [{ lg := lg, core := core, addr := a, val := b }] })

/-- Put a byte into a bank. -/
def State.putBank (s : State) (core a : Nat) (b : Byte) : State :=
  s.updCore core (fun c => { c with banks := mapSet 0 c.banks a b })

/-- Queued bytes reach their banks, oldest first (log entry 60, DEDUCED). -/
def State.drainList (s : State) (qs : List QueuedByte) : State := qs.foldl (fun s q => s.putBank q.core q.addr q.val) s

/-- Write every byte queued on a core into the banks, and empty the queues. -/
def State.drainQueues (s : State) (core : Nat) : State :=
  (s.drainList (s.coreAt core).squeue).updCore core (fun c => { c with squeue := [] })

/-- Take from a queue the bytes that `f` names, given what is older than each: those taken, and those left, both oldest
first. -/
def takeQueued (f : List QueuedByte → QueuedByte → Bool) : List QueuedByte → List QueuedByte → List QueuedByte × List QueuedByte
  | _, [] => ([], [])
  | older, q :: qs =>
    let r := takeQueued f (older ++ [q]) qs
    if f older q then (q :: r.1, r.2) else (r.1, q :: r.2)

/-- The bytes of a core's queues that `f` names reach their banks, oldest first. -/
def State.drainSome (s : State) (by_ : Nat) (f : List QueuedByte → QueuedByte → Bool) : State :=
  let r := takeQueued f [] (s.coreAt by_).squeue
  (s.drainList r.1).updCore by_ (fun c => { c with squeue := r.2 })

/-- A byte of a core's queues goes to a bank address of a core. -/
def QueuedByte.at_ (q : QueuedByte) (core a : Nat) : Bool := decide (q.core = core) && decide (q.addr = a)

/-- Bytes that the core's queues hold for a bank address reach the bank (log entry 60, DEDUCED). -/
def State.drainFor (s : State) (by_ core a : Nat) : State := s.drainSome by_ (fun _ q => q.at_ core a)

/-- The byte of index `i` in a core's queues drains to its bank, unless an older byte for its address is queued
(08 R213 item 1, R218; log entry 60, DEDUCED). -/
def State.drainOne (s : State) (by_ i : Nat) : State :=
  s.drainSome by_ (fun older q => decide (older.length = i) && !older.any (fun o => o.at_ q.core q.addr))

/-- Every byte that any core's queues hold for the Barn of a core reaches its bank (07 R196). -/
def State.drainInto (s : State) (core : Nat) : State :=
  s.cores.foldl (fun s e => s.drainSome e.1 (fun _ q => decide (q.core = core))) s

/-- A write straight into the banks, by an engine (08 R227): a byte that the core's queues hold for the address is older
and is written first (08 R213 item 1; log entry 60, DEDUCED). -/
def State.bankStore (s : State) (core a : Nat) (b : Byte) : State :=
  (if (queuedByte core a (s.coreAt core).squeue).isSome then s.drainFor core core a else s).putBank core a b

/-! ### L1 data cache -/

/-- Byte `i` of a line. -/
def L1Line.byte (x : L1Line) (i : Nat) : Byte := x.data.extractLsb' (8 * i) 8

/-- The mask of bits [i, i + n). -/
def maskFrom (w i n : Nat) : BitVec w := BitVec.ofNat w (2 ^ n - 1) <<< i

/-- Write `n` bytes from offset `i` of a line: they become valid and dirty. -/
def L1Line.store (x : L1Line) (i n v : Nat) : L1Line :=
  { x with
    data := (x.data &&& ~~~ maskFrom 1024 (8 * i) (8 * n)) ||| (BitVec.ofNat 1024 (v % 256 ^ n) <<< (8 * i))
    valid := x.valid ||| maskFrom 128 i n
    dirty := x.dirty ||| maskFrom 128 i n }

/-- The line of a core's L1, if held. -/
def State.l1Line (s : State) (core line : Nat) : Option L1Line := mapFind line (s.coreAt core).l1

/-- The byte that a load of the core finds: its L1 copy where valid, otherwise home (08 R218) (log entry 83, DEDUCED). -/
def State.look (s : State) (core a : Nat) : Byte :=
  match s.l1Line core (a / 128) with
  | some x => if x.valid.getLsbD (a % 128) then x.byte (a % 128) else s.byteAt a
  | none => s.byteAt a

/-- The bytes an engine of the core reads: dirty L1 bytes, otherwise home (08 R227). -/
def State.engineByte (s : State) (core a : Nat) : Byte :=
  match s.l1Line core (a / 128) with
  | some x => if x.dirty.getLsbD (a % 128) then x.byte (a % 128) else s.byteAt a
  | none => s.byteAt a

/-- Put the dirty bytes of a line into home memory: bytes 0 to n - 1. -/
def mergeDirty (x : L1Line) (base : Nat) : Nat → List Host.Cell → List Host.Cell
  | 0, m => m
  | i + 1, m =>
    let m' := mergeDirty x base i m
    if x.dirty.getLsbD i then mapSet 0 m' (base + i) (x.byte i) else m'

/-- Put or drop a line of a core's L1. -/
def State.setLine (s : State) (core line : Nat) (x : Option L1Line) : State :=
  s.updCore core (fun c => { c with l1 := match x with
    | some y => mapPut line y c.l1
    | none => mapDrop line c.l1 })

/-- Lines of other devices have numbers of their own in an L1, above every local line (07 R192). -/
def farLine (pa : Nat) : Nat := 2 ^ 45 + pa / 128

/-- A line of another device. -/
def isFar (line : Nat) : Bool := decide (2 ^ 45 ≤ line)

/-- The domain physical address of a line of another device. -/
def farBase (line : Nat) : Nat := (line - 2 ^ 45) * 128

/-- The 128 bytes of a line, as a list. -/
def L1Line.bytes (x : L1Line) : List Byte := (List.range 128).map x.byte

/-- Fetches of a line that a core has under way fill its L1 no more: their bytes may be older than what the core has
written back or acquired since. Every line, when none is named (08 R218, R220) (log entry 84, DEDUCED). -/
def State.cancelFills (s : State) (core : Nat) (line : Option Nat) : State :=
  let hit := fun (m : Msg) => decide (coreOfWid (m.gang / 32) = core) && (match line with
    | some l => decide (farLine m.addr = l)
    | none => true)
  { s with msgs := s.msgs.map (fun (m : Msg) => match m.kind with
    | .fill n c p _ kn => if hit m then { m with kind := .fill n c p false kn } else m
    | .fetch c p _ w => if hit m then { m with kind := .fetch c p false w } else m
    | _ => m) }

/-- Put a line's dirty bytes at its home slice: of a local line at once, where a whole line clears a poison mark (19 R455);
of another device's by a message (08 R218) (log entry 84, DEDUCED). -/
def State.putDirty (s : State) (core line : Nat) (x : L1Line) : State :=
  if isFar line then
    let n := x.notes.head?
    (s.cancelFills core (some line)).send { Msg.blank with
      kind := .flush core x.dirty, gang := noGang, dst := farBase line / 2 ^ 40, addr := farBase line, block := x.bytes, notes := x.notes,
      part := (n.map (·.part)).getD 0, pasid := (n.map (·.pasid)).getD 0 }
  else ({ s with
    mem := mergeDirty x (line * 128) 128 s.mem
    badLines := if x.dirty = BitVec.allOnes 128 then s.badLines.filter (fun l => decide (l ≠ line)) else s.badLines }).fireWatches line

/-- Write one line's dirty bytes back to its home slice: the line stays, clean (08 R218). -/
def State.writeBackOne (s : State) (core line : Nat) : State :=
  match s.l1Line core line with
  | none => s
  | some x =>
    if x.dirty = 0 then s else (s.putDirty core line x).setLine core line (some { x with dirty := 0, notes := [] })

/-- Every line number a core's L1 holds. -/
def State.l1Lines (s : State) (core : Nat) : List Nat := (s.coreAt core).l1.map (·.1)

/-- Write back every dirty line of a core (08 R219): its entries in the promotion record are cleared (08 R224). -/
def State.writeBackAll (s : State) (core : Nat) : State :=
  let s := (s.l1Lines core).foldl (fun s l => s.writeBackOne core l) s
  { s with promo := s.promo.filter (fun e => decide (e.2 ≠ core)) }

/-- What a core writes has all reached the banks and the home slices, or is on its way there: its Barn stores, and every
dirty line (08 R219). -/
def State.pushCore (s : State) (core : Nat) : State := (s.drainQueues core).writeBackAll core

/-- Write a line back. Where the promotion record names this core for the line, every dirty line and queued Barn store of the
core goes with it, so that what came before its release is never behind the release at home, and the entry is cleared
(08 R223, R224) (log entry 85, DEDUCED). -/
def State.writeBack (s : State) (core line : Nat) : State :=
  if s.promo.contains (line, core) then s.pushCore core else s.writeBackOne core line

/-- Write back, then invalidate. -/
def State.flushLine (s : State) (core line : Nat) : State := (s.writeBack core line).setLine core line none

/-- An acquire at nbh scope or wider: every byte of the core's L1 is invalid but the dirty ones (08 R220). -/
def State.dropClean (s : State) (core : Nat) : State :=
  (s.cancelFills core none).updCore core (fun c => { c with l1 := c.l1.map (fun e => (e.1, { e.2 with valid := e.2.dirty })) })

/-- Physical Barn granules a core's workgroups hold. -/
def State.barnUsed (s : State) (core : Nat) : List Nat := ((s.wgsOnCore core).map (fun w => (s.wgAt w).barn)).flatten

/-- The L1 ways: 0 to 3, and the Barn ways with no allocated granule that no admission is taking back, 128 granules to a way
(07 R192, R195). -/
def State.l1Ways (s : State) (core : Nat) : List Nat :=
  let used := s.barnUsed core
  (List.range 32).filter (fun w => decide (w < 4) ||
    (!used.any (fun g => decide (g / 128 + 4 = w)) && !(s.coreAt core).reclaiming.contains w))

/-- Distance in ticks of a next-use code (07 R189); `dflt` is NU_CTL.dflt. Codes 0, 60 and 62 give 0. -/
def nuDistance (dflt code : Nat) : Nat :=
  let d := fun c => if c ≤ 16 then c else (5 + (c - 17) % 4) * 2 ^ (2 + (c - 17) / 4)
  if code = 0 ∨ code = 60 then 0 else if code = 61 then d dflt else d code

/-- Rewrite a line's next-use fields from an access's code (07 R193). -/
def State.touch (s : State) (wid code : Nat) (x : L1Line) : L1Line :=
  let w := s.wgAt wid
  let dflt := field (s.partAt w.part).nuCtl.toNat 10 6
  { x with
    slot := slotOfWid wid
    noReuse := decide (code = 0 ∨ code = 60)
    orphan := false
    deadline := w.rclock + BitVec.ofNat 16 (nuDistance dflt code) }

/-- Rank of a line as a victim (07 R194): class, then a number that rises with the preference; least class first. A line
overdue by 32,768 ticks or more reads a positive distance. -/
def State.victimRank (s : State) (core : Nat) (x : L1Line) : Nat × Int :=
  let clk := (s.wgAt (core * 16 + x.slot)).rclock
  let r : Int := if x.deadline - clk = 0x8000 then 32768 else (x.deadline - clk).toInt
  if x.valid = 0 then (1, 0)
  else if x.noReuse || x.orphan then (2, 0)
  else if r ≤ 0 then (3, -r)
  else (4, r)

/-- The better victim of two lines with their ways: lower class, then greater rank, then lower way. -/
def betterVictim (a b : Nat × (Nat × Int)) : Bool :=
  decide (a.2.1 < b.2.1) || (decide (a.2.1 = b.2.1) &&
    (decide (b.2.2 < a.2.2) || (decide (a.2.2 = b.2.2) && decide (a.1 < b.1))))

/-- The best victim of a nonempty list. -/
def bestVictim : (Nat × (Nat × Int)) → List (Nat × (Nat × Int)) → Nat
  | b, [] => b.1
  | b, c :: cs => bestVictim (if betterVictim c b then c else b) cs

/-- The way that a line takes (07 R194): the best victim of its set, a way that holds nothing ranking with the invalid
lines. -/
def State.chooseWay (s : State) (core line : Nat) : Nat :=
  let inSet := (s.coreAt core).l1.filter (fun e => decide (e.1 % 128 = line % 128))
  let cands := (s.l1Ways core).map (fun w => (w, match inSet.find? (fun e => decide (e.2.way = w)) with
    | some e => s.victimRank core e.2
    | none => (1, 0)))
  match cands with
  | [] => 0
  | b :: cs => bestVictim b cs

/-- Make room: the line in way `w` of the set of `line` is written back and dropped (08 R218). -/
def State.evict (s : State) (core line w : Nat) : State :=
  match (s.coreAt core).l1.find? (fun e => decide (e.1 % 128 = line % 128) && decide (e.2.way = w)) with
  | some e => s.flushLine core e.1
  | none => s

/-- The data of a line whose invalid bytes come from `f`: bytes 0 to n - 1. -/
def L1Line.mergeFrom (x : L1Line) (f : Nat → Byte) : Nat → BitVec 1024
  | 0 => 0
  | i + 1 =>
    let b := if x.valid.getLsbD i then x.byte i else f i
    x.mergeFrom f i ||| (b.setWidth 1024 <<< (8 * i))

/-- The line of a core's L1, allocated with no valid byte when absent (07 R194). -/
def State.allocLine (s : State) (core wid line code : Nat) (page : Page) : State × L1Line :=
  match s.l1Line core line with
  | some x => (s, s.touch wid code x)
  | none =>
    let w := s.chooseWay core line
    let s := s.evict core line w
    (s, s.touch wid code { way := w, valid := 0, dirty := 0, data := 0, slot := 0, deadline := 0, noReuse := false,
                           orphan := false, leafW := page.w, notes := [] })

/-! ### The peer predictor (07 R202) -/

/-- The reeve core of a die: C 0 of its lowest enabled cluster (01 R21). -/
def State.reeveCore (s : State) (die : Nat) : Nat := 60 * die + 4 * (if (s.dieAt die).disabled = 0 then 1 else 0)

/-- The cores of a cluster that take part in peer forwarding (01 R21). -/
def State.peerCores (s : State) (cl : Nat) : List Nat :=
  ((List.range 4).map (fun i => cl / 15 * 60 + cl % 15 * 4 + i)).filter (fun c => decide (c ≠ s.reeveCore (dieOfCore c)))

/-- The whole line as some core of a cluster holds it. -/
def State.peerLine (s : State) (cl line : Nat) : Option L1Line :=
  (s.peerCores cl).findSome? (fun c => (s.l1Line c line).filter (fun x => decide (x.valid = BitVec.allOnes 128)))

/-- A fill of a page with W = 0 first probes the predicted peer cluster: its line, or the entry is dropped. -/
def State.probe (s : State) (core line : Nat) (page : Page) : State × Option L1Line :=
  let cl := clusterOfCore core
  if page.w || decide (core = s.reeveCore (dieOfCore core)) then (s, none)
  else match mapFind (page.va % 256) (s.clusterAt cl).predictor with
    | none => (s, none)
    | some (tag, peer) =>
      if tag ≠ page.va / 256 then (s, none)
      else match s.peerLine peer line with
        | some x => (s, some x)
        | none => (s.updCluster cl (fun c => { c with predictor := mapDrop (page.va % 256) c.predictor }), none)

/-- Every cluster of a multicast reply records the lowest other cluster that received it. -/
def State.learn (s : State) (page : Page) (cls : List Nat) : State :=
  cls.foldl (fun s c => match cls.find? (fun d => decide (d ≠ c)) with
    | some d => s.updCluster c (fun k => { k with predictor := mapPut (page.va % 256) (page.va / 256, d) k.predictor })
    | none => s) s

/-- The home slice's reply to a fill of a page with W = 0 also reaches the clusters of the die whose fetch of the line it
has merged: those that hold the line, by a free choice (07 R201) (log entry 87, DESIGN CHOICE). -/
def State.multicast (s : State) (core line : Nat) (page : Page) : State :=
  let cl := clusterOfCore core
  if page.w || decide (core = s.reeveCore (dieOfCore core)) then s
  else
    let others := ((List.range 15).map (fun i => cl / 15 * 15 + i)).filter (fun c =>
      decide (c ≠ cl) && (s.peerLine c line).isSome)
    if others.isEmpty then s
    else
      let s' := { s with fresh := s.fresh + 1 }
      if Config.freeChoice 2 s.fresh = 0 then s'
      else s'.learn page ((List.range 120).filter (fun c => decide (c = cl) || others.contains c))

/-- A load through the L1: afterwards the whole line is valid, filled from a peer or from home where it was not. -/
def State.l1Fill (s : State) (core wid line code : Nat) (page : Page) : State :=
  let (s, x) := s.allocLine core wid line code page
  if x.valid = BitVec.allOnes 128 then s.setLine core line (some x)
  else
    let p := s.probe core line page
    match p.2 with
    | some y => p.1.setLine core line (some { x with data := x.mergeFrom y.byte 128, valid := BitVec.allOnes 128 })
    | none => (p.1.multicast core line page).setLine core line (some
        { x with data := x.mergeFrom (fun i => s.byteAt (line * 128 + i)) 128, valid := BitVec.allOnes 128 })

/-- The bytes of another device's line have come: they fill the L1 where it holds none of its own (07 R192). -/
def State.l1FillFar (s : State) (core wid line code : Nat) (page : Page) (data : Nat → Byte) : State :=
  let (s, x) := s.allocLine core wid line code page
  s.setLine core line (some { x with data := x.mergeFrom data 128, valid := BitVec.allOnes 128 })

/-- The core's L1 holds all of [a, a + n) of a line. -/
def State.l1Holds (s : State) (core line off n : Nat) : Bool :=
  match s.l1Line core line with
  | some x => (List.range n).all (fun i => x.valid.getLsbD (off + i))
  | none => false

/-- What the L1 holds of [off, off + n) of a line. -/
def State.l1Known (s : State) (core line off n : Nat) : List (Option Byte) :=
  (List.range n).map (fun i => match s.l1Line core line with
    | some x => if x.valid.getLsbD (off + i) then some (x.byte (off + i)) else none
    | none => none)

/-- A load that hits: the line's next-use fields, and the number. -/
def State.l1Hit (s : State) (core wid line off n code : Nat) : State × Nat :=
  match s.l1Line core line with
  | some x => (s.setLine core line (some (s.touch wid code x)), readLE x.byte off n)
  | none => (s, 0)

/-- A store of `n` bytes into a line of the L1 (08 R218). -/
def State.l1Put (s : State) (core wid line off n v code : Nat) (page : Page) : State :=
  let (s, x) := s.allocLine core wid line code page
  s.setLine core line (some (x.store off n v))

/-- A store into the L1 at a local address. -/
def State.l1Store (s : State) (core wid a n v code : Nat) (page : Page) : State :=
  s.l1Put core wid (a / 128) (a % 128) n v code page

/-- Two notes of one operation are one, with the lanes of both and the address of the lower. -/
def StoreNote.join (a b : StoreNote) : StoreNote := { a with lanes := a.lanes ||| b.lanes }

/-- Note a store at the line that holds its bytes dirty. -/
def addNote (n : StoreNote) : List StoreNote → List StoreNote
  | [] => [n]
  | m :: ms => if m.id = n.id && decide (m.gang = n.gang) then m.join n :: ms else m :: addNote n ms

/-- A line keeps the note of a store until its bytes go home (04 R115, 08 R230). -/
def State.noteStore (s : State) (core line : Nat) (n : StoreNote) : State :=
  match s.l1Line core line with
  | some x => s.setLine core line (some { x with notes := addNote n x.notes })
  | none => s

/-- A write of an engine or of a wide atomic at home: the issuing core's copy is written back first, the write
performs, and the copy is invalidated (07 R184, 08 R227). -/
def State.writeWide (s : State) (core a n : Nat) (f : Nat → Byte) : State :=
  ((s.flushLine core (a / 128)).writeHome a n f)

/-! ### The Barn -/

/-- The tile of a handle of a workgroup, if allocated. -/
def Workgroup.tile (w : Workgroup) (h : Nat) : Option Tile := mapFind h w.tiles

/-- Granule size of a level (07 R174). -/
def granuleSize (level : Nat) : Nat := if level = 0 then 128 else if level = 1 then 16384 else 512

/-- Extent of a tile in bytes: rows by row bytes, rounded up to the granule (07 R174). -/
def Tile.extent (t : Tile) : Nat := roundUp (t.rows * t.rowBytes) (granuleSize t.level)

/-- Physical byte of a tile's byte offset: granule number times its size plus the rest. -/
def Tile.phys (t : Tile) (off : Nat) : Nat :=
  t.granules.getD (off / granuleSize t.level) 0 * granuleSize t.level + off % granuleSize t.level

/-- `n` bytes of a BARN tile as a Barn load of core `by_` sees them. -/
def State.tileRead (s : State) (by_ core : Nat) (t : Tile) (off n : Nat) : Nat :=
  readLE (fun i => s.barnByte by_ core (t.phys i)) off n

/-- The same as a list of bytes, for a load of the tile's own core. -/
def State.tileBytes (s : State) (core : Nat) (t : Tile) (off n : Nat) : List Byte :=
  (List.range n).map (fun i => s.barnByte core core (t.phys (off + i)))

/-- `n` bytes of a BARN tile as the banks hold them. -/
def State.tileBankBytes (s : State) (core : Nat) (t : Tile) (off n : Nat) : List Byte :=
  (List.range n).map (fun i => s.bankByte core (t.phys (off + i)))

/-- A Barn store of `n` bytes by a lane group of core `by_`, through its store queue (log entry 61, DEDUCED). -/
def State.tileStore (s : State) (by_ lg core : Nat) (t : Tile) (off x : Nat) : Nat → State
  | 0 => s
  | n + 1 => (s.tileStore by_ lg core t off x n).barnStore by_ lg core (t.phys (off + n)) (Machine.byteAt x n)

/-- A write of bytes straight into the banks of a tile. Bytes outside its granules go nowhere. -/
def State.tileBankWrite (s : State) (core : Nat) (t : Tile) (off : Nat) : List Byte → State
  | [] => s
  | b :: bs =>
    let s := if off / granuleSize t.level < t.granules.length then s.bankStore core (t.phys off) b else s
    s.tileBankWrite core t (off + 1) bs

end Sys2Proof.Machine
end

