-- ==== Sys2Proof/Machine/Translate.lean ====
section
/-! DEFINITION. Translation: the PASID table and the five-level walk (09 R236 to R240), mirror descriptors (R247), the
TLBs (R235), and the access tables (18 R439 to R441). -/

namespace Sys2Proof.Machine

/-- What an access does to its page. -/
inductive Acc where
  | read
  | write
  | atomic
  | fetch
deriving DecidableEq, Repr

/-- Code of an access kind in a fault entry (16 R406). -/
def Acc.code : Acc → Nat
  | .read => 0
  | .write => 1
  | .atomic => 2
  | .fetch => 3

/-- 576 GiB: local addresses at or above it do not exist (07 R197). -/
def localLimit : Nat := 618475290624

/-- The leaf's permissions cover the access (09 R243). -/
def Acc.permits (a : Acc) (r w x : Bool) : Bool :=
  match a with
  | .read => r
  | .write => w
  | .atomic => r && w
  | .fetch => x

/-- The end of a walk: the leaf's address and value, and the bits of its page. -/
structure Leaf where
  addr : Nat
  entry : Nat
  bits : Nat
  /-- The tables that the walk has read, with their levels, but the first (R235). -/
  tables : List (Nat × Nat)
deriving DecidableEq, Repr

/-- A table entry with V = 1 that points to a table is malformed (09 R238, R239). -/
def tableMalformed (dev level e : Nat) : Bool :=
  decide (field e 52 12 ≠ 0) || decide (field e 2 10 ≠ 0) || decide (level = 4) || decide (field e 40 12 ≠ dev) ||
    decide (localLimit ≤ field e 12 28 * 4096)

/-- A leaf with V = 1 is malformed (09 R238, R239), its mirror descriptor apart. -/
def leafMalformed (dev level bits e : Nat) : Bool :=
  let d := field e 40 12
  let frame := field e 16 24
  decide (field e 52 12 ≠ 0) || decide (field e 12 4 ≠ 0) || decide (level < 2) || decide (2304 ≤ d) ||
    (if bit e 5 then decide (d ≠ 0)
     else (decide (d = dev) && decide (localLimit ≤ frame * 65536)) || decide (frame * 65536 % 2 ^ bits ≠ 0))

/-- The walk from a table at local address `t` (09 R237): levels still to read, as (level, low bit, index bits).
The error is the fault cause of R243. -/
def walkFrom (s : State) (va : Nat) : List (Nat × Nat × Nat) → Nat → Except Nat Leaf
  | [], _ => .error 0
  | (level, lo, n) :: ls, t =>
    let a := t + 8 * field va lo n
    let e := s.readHome a 8
    if !bit e 0 then .error 1
    else if bit e 1 then (if leafMalformed s.devid level lo e then .error 0 else .ok { addr := a, entry := e, bits := lo, tables := [] })
    else if tableMalformed s.devid level e then .error 0
    else match walkFrom s va ls (field e 12 28 * 4096) with
      | .error c => .error c
      | .ok l => .ok { l with tables := (level + 1, field e 12 28 * 4096) :: l.tables }

/-- The five levels (09 R237). -/
def walkLevels : List (Nat × Nat × Nat) := [(0, 48, 8), (1, 39, 9), (2, 30, 9), (3, 21, 9), (4, 16, 5)]

/-- Low bit of the index of the level above `level`: addresses that share the bits from there up share its table. -/
def prefixBit (level : Nat) : Nat := match level with
  | 1 => 48
  | 2 => 39
  | 3 => 30
  | _ => 21

/-- Where a walk starts: the deepest table that the walk cache knows for the address, or the root (09 R235). -/
def walkStart (cache : List WalkEntry) (pasid va root : Nat) : Nat × Nat :=
  match [4, 3, 2, 1].findSome? (fun n => cache.find? (fun e => decide (e.pasid = pasid) && decide (e.level = n) &&
      decide (e.prefix_ = va / 2 ^ prefixBit n))) with
  | some e => (e.level, e.table)
  | none => (0, root)

/-- The walk of a virtual address for a PASID (09 R236, R237, R239, R243), from the tables that a walk cache knows: a
malformed PASID entry first, then one that is not valid or in teardown. Level-0 entry 0xFF is never read: such an address has
no leaf (log entry 63, DEDUCED). -/
def State.walkVia (s : State) (cache : List WalkEntry) (pasid va : Nat) : Except Nat Leaf :=
  let e := s.pasidEntry pasid
  if !bit e 0 then .error 1
  else if field e 40 8 ≠ 0 ∨ field e 3 9 ≠ 0 ∨ localLimit ≤ field e 12 28 * 4096 then .error 0
  else if bit e 1 || decide (field va 48 8 = 0xFF) then .error 1
  else
    let st := walkStart cache pasid va (field e 12 28 * 4096)
    walkFrom s va (walkLevels.drop st.1) st.2

/-- The walk from the root. -/
def State.walk (s : State) (pasid va : Nat) : Except Nat Leaf := s.walkVia [] pasid va

/-- A copy of a mirror descriptor: device and page base, when its layout is legal (09 R247) (log entry 58, DEDUCED). -/
def mirrorCopy (s : State) (bits c : Nat) : Option (Nat × Nat) :=
  let d := field c 40 12
  let base := field c 16 24 * 65536
  if field c 52 12 ≠ 0 ∨ field c 0 16 ≠ 0 ∨ 2304 ≤ d ∨ base % 2 ^ bits ≠ 0 ∨ (d = s.devid ∧ localLimit ≤ base) then none
  else some (d, base)

/-- The page base that a read through a mirror leaf uses: the local copy, otherwise copy 0 (09 R247). -/
def State.mirrorBase (s : State) (bits index : Nat) : Except Nat Nat :=
  let a := s.sys.mirrorBase.toNat + 64 * index
  let count := s.readHome a 1
  let copies := (List.range count).map (fun i => mirrorCopy s bits (s.readHome (a + 8 + 8 * i) 8))
  let devs := copies.filterMap (fun c => c.map (·.1))
  if count = 0 ∨ 4 < count ∨ 2 < s.readHome (a + 1) 1 ∨ s.readHome (a + 2) 6 ≠ 0 ∨ s.readHome (a + 40) 24 ≠ 0 then .error 0
  else if copies.any (·.isNone) || !decide devs.Nodup then .error 0
  else
    let cs := copies.filterMap id
    match cs.find? (fun c => decide (c.1 = s.devid)), cs with
    | some c, _ => .ok (c.1 * 2 ^ 40 + c.2)
    | none, c :: _ => .ok (c.1 * 2 ^ 40 + c.2)
    | none, [] => .error 0

/-- The leaf after the walker's update of A, D and heat (09 R240). -/
def leafTouched (a : Acc) (e : Nat) : Nat :=
  let rh := field e 8 2
  let wh := field e 10 2
  let up := fun h => if h < 3 then h + 1 else h
  let rd := match a with
    | .read => true
    | .atomic => true
    | _ => false
  let wr := match a with
    | .write => true
    | .atomic => true
    | _ => false
  let rh' := if rd then up rh else rh
  let wh' := if wr then up wh else wh
  let d' := if wr then 1 else field e 7 1
  e - field e 6 6 * 64 + 64 + d' * 128 + rh' * 256 + wh' * 1024

/-- The TLB entry of a leaf (09 R235). -/
def State.leafEntry (s : State) (pasid va : Nat) (l : Leaf) : Except Nat TlbEntry :=
  let e := l.entry
  let mk := fun base w => ({ pasid := pasid, bits := l.bits, vpn := va / 2 ^ l.bits, base := base, r := bit e 2, w := w,
                             x := bit e 4, d := bit e 7, leafW := bit e 3 } : TlbEntry)
  if bit e 5 then
    match s.mirrorBase l.bits (field e 16 24) with
    | .ok b => .ok (mk b false)
    | .error c => .error c
  else .ok (mk (field e 40 12 * 2 ^ 40 + field e 16 24 * 65536) (bit e 3))

/-- Put an entry at the front of a core's L1 TLB, least recently used out (09 R235). -/
def State.fillL1Tlb (s : State) (core : Nat) (e : TlbEntry) : State :=
  s.updCore core (fun c => { c with tlb := (e :: c.tlb.filter (fun t =>
    !(decide (t.pasid = e.pasid) && decide (t.bits = e.bits) && decide (t.vpn = e.vpn)))).take 64 })

/-- Put an entry at the front of its set of the cluster TLB, 8 ways to a set (09 R235; the set is log entry 8, DESIGN CHOICE). -/
def State.fillClusterTlb (s : State) (cl : Nat) (e : TlbEntry) : State :=
  let set := (Config.clusterTlbSet e.vpn).toNat
  s.updCluster cl (fun c =>
    let others := c.tlb.filter (fun t => decide (t.1 ≠ set))
    let mine := c.tlb.filter (fun t => decide (t.1 = set) &&
      !(decide (t.2.pasid = e.pasid) && decide (t.2.bits = e.bits) && decide (t.2.vpn = e.vpn)))
    { c with tlb := ((set, e) :: mine.take 7) ++ others })

/-- An entry translates the page and permits the access; a write needs D cached as 1 (09 R235, R240). -/
def TlbEntry.hits (e : TlbEntry) (pasid va : Nat) (a : Acc) : Bool :=
  decide (e.pasid = pasid) && decide (e.vpn = va / 2 ^ e.bits) && a.permits e.r e.w e.x &&
    (e.d || (a matches .read) || (a matches .fetch))

/-- A translation: the domain physical address, and what its page leaves with a line. -/
structure Xlate where
  pa : Nat
  page : Page
deriving DecidableEq, Repr

/-- The physical address of `va` under an entry. -/
def TlbEntry.xlate (e : TlbEntry) (va : Nat) : Xlate := 
  { pa := e.base + va % 2 ^ e.bits, page := { w := e.leafW, va := va / 65536 } }

/-- A completed walk, from what a walk cache knows: the leaf is updated (R240); the entry that the TLBs take and the leaf; or
the cause of R243. Of the two outcomes that R242 gives a plain store to the entry that meets this update, or the sweeper's, the
store stands in full: it reaches the home slice as a whole, before the update or after it (log entry 107, DESIGN CHOICE). -/
def State.walkEnd (s : State) (cache : List WalkEntry) (pasid va : Nat) (a : Acc) : Except Nat (State × TlbEntry × Leaf) :=
  match s.walkVia cache pasid va with
  | .error c => .error c
  | .ok l =>
    match s.leafEntry pasid va l with
    | .error c => .error c
    | .ok e =>
      if bit l.entry 5 && bit l.entry 3 && ((a matches .write) || (a matches .atomic)) &&
          (bit l.entry 2 || !(a matches .atomic)) then .error 3
      else if !a.permits e.r e.w e.x then .error 2
      else
        let en := leafTouched a l.entry
        .ok (s.writeHomeNum l.addr 8 en, { e with d := bit en 7 }, l)

/-- A completed walk from the root. -/
def State.walkDone (s : State) (pasid va : Nat) (a : Acc) : Except Nat (State × TlbEntry) :=
  match s.walkEnd [] pasid va a with
  | .error c => .error c
  | .ok r => .ok (r.1, r.2.1)

/-- The tables that a walk has read stand in the cluster's walk cache: 64 entries, least recently used out (R235). -/
def State.fillWalkCache (s : State) (cl pasid va : Nat) (l : Leaf) : State :=
  let new := l.tables.map (fun t => ({ pasid := pasid, level := t.1, prefix_ := va / 2 ^ prefixBit t.1, table := t.2 } : WalkEntry))
  s.updCluster cl (fun c => { c with walkCache := (new ++ c.walkCache.filter (fun e =>
    !new.any (fun n => decide (n.pasid = e.pasid) && decide (n.level = e.level) && decide (n.prefix_ = e.prefix_)))).take 64 })

/-- A TLB knows the page, but not with the permission that the access needs (R235). -/
def TlbEntry.lacks (e : TlbEntry) (pasid va : Nat) (a : Acc) : Bool :=
  decide (e.pasid = pasid) && decide (e.vpn = va / 2 ^ e.bits) && !a.permits e.r e.w e.x

/-- Translation by a cluster: its TLB, then its walker, which starts again at the root after a permission miss, in this TLB or,
`missed`, in the L1 TLB of the core that asks (09 R234 to R240). The error is the cause of R243; faults are never cached. -/
def State.translateCluster (s : State) (missed : Bool) (cl pasid va : Nat) (a : Acc) : Except Nat (State × TlbEntry) :=
  let c := s.clusterAt cl
  match c.tlb.find? (fun e => e.2.hits pasid va a) with
  | some e => .ok (s.fillClusterTlb cl e.2, e.2)
  | none =>
    let cache := if missed || c.tlb.any (fun e => e.2.lacks pasid va a) then [] else c.walkCache
    match s.walkEnd cache pasid va a with
    | .error c => .error c
    | .ok (s, e, l) => .ok ((s.fillWalkCache cl pasid va l).fillClusterTlb cl e, e)

/-- Translate a virtual address for a core: its L1 TLB, then the cluster (09 R234, R235). -/
def State.translate (s : State) (core pasid va : Nat) (a : Acc) : Except Nat (State × Xlate) :=
  match (s.coreAt core).tlb.find? (fun e => e.hits pasid va a) with
  | some e => .ok (s.fillL1Tlb core e, e.xlate va)
  | none =>
    match s.translateCluster ((s.coreAt core).tlb.any (fun e => e.lacks pasid va a)) (clusterOfCore core) pasid va a with
    | .error c => .error c
    | .ok (s, e) => .ok (s.fillL1Tlb core e, e.xlate va)

/-- The local address of a byte of a partition's translation region (02 R64, R66) (log entry 9, DESIGN CHOICE). -/
def State.nativePlace (s : State) (part va : Nat) : Option Nat :=
  (s.partAt part).natives.findSome? (fun n =>
    if n.base.toNat ≤ va && decide (va < n.base.toNat + n.size) then some (n.place + (va - n.base.toNat)) else none)

/-- Translate for a master of a partition: its translation region is executable and readable and not writable (02 R66), and
anything else goes through the tables. -/
def State.xlate (s : State) (part core pasid va : Nat) (a : Acc) : Except Nat (State × Xlate) :=
  match s.nativePlace part va with
  | some p => if (a matches .write) || (a matches .atomic) then .error 2
      else .ok (s, { pa := s.devid * 2 ^ 40 + p, page := { w := false, va := va / 65536 } })
  | none => s.translate core pasid va a

/-- Translation by an I/O die for the queue front end (0) or the cell store (1): its cache of 256 entries, then a walker of
its own (09 R235; log entry 11, DEDUCED). -/
def State.translateIo (s : State) (iod pasid va : Nat) (a : Acc) : Except Nat (State × Xlate) :=
  let tlb := mapGet [] s.ioTlb iod
  let fill := fun (s : State) (e : TlbEntry) => { s with ioTlb := mapPut iod ((e :: tlb.filter (fun t =>
    !(decide (t.pasid = e.pasid) && decide (t.bits = e.bits) && decide (t.vpn = e.vpn)))).take 256) s.ioTlb }
  match tlb.find? (fun e => e.hits pasid va a) with
  | some e => .ok (fill s e, e.xlate va)
  | none =>
    match s.walkDone pasid va a with
    | .error c => .error c
    | .ok (s, e) => .ok (fill s e, e.xlate va)

/-! ### Access tables (18 R439 to R441) -/

/-- The HBM channel of a local address (07 R197). -/
def channelOf (a : Nat) : Nat := a / 3221225472

/-- The partition that owns a channel. -/
def State.channelOwner (s : State) (ch : Nat) : Option Nat :=
  (s.parts.find? (fun e => e.2.live && e.2.channels.contains ch)).map (·.1)

/-- Byte `i` of a partition's policy record. -/
def State.policyByte (s : State) (p i : Nat) : Nat := ((s.partAt p).policy.getD i 0).toNat

/-- Rights needed: R, W, I as bits 0, 1, 2 (18 R440, R441). -/
def Acc.rights : Acc → Nat
  | .read => 1
  | .write => 2
  | .atomic => 3
  | .fetch => 1

/-- All bits of `need` are in `have_`. -/
def covers (have_ need : Nat) : Bool := decide (have_ &&& need = need)

/-- An access of a master of class 0 to 5 of partition `part` to a resource of `owner` is admitted (18 R441). -/
def State.admits (s : State) (part : Nat) (owner : Option Nat) (need : Nat) : Bool :=
  match owner with
  | none => false
  | some q => decide (q = part) || covers (s.policyByte q part) need

/-- A host access (class 6) is admitted. -/
def State.admitsHost (s : State) (owner : Option Nat) (need : Nat) : Bool :=
  match owner with
  | none => false
  | some q => covers (s.policyByte q 8) need

/-- Remote grant `i` of a record. -/
def State.grant (s : State) (q i : Nat) : Nat :=
  ofBytesLE ((List.range 8).map (fun j => (s.partAt q).policy.getD (16 + 8 * i + j) 0))

/-- An inbound access (class 7) is admitted by a grant of the owner; a blocked source is refused everything
(18 R441, R444). -/
def State.admitsPeer (s : State) (owner : Option Nat) (src spart need : Nat) : Bool :=
  match owner with
  | none => false
  | some q =>
    !s.parts.any (fun e => e.2.blocked.contains (src, spart)) &&
    (List.range 6).any (fun i =>
      let g := s.grant q i
      bit g 35 && decide (field g 0 12 ≤ src) && decide (src ≤ field g 12 12) && bit (field g 24 8) spart &&
        covers (field g 32 3) need)

end Sys2Proof.Machine
end

