-- ==== Sys2Proof/Machine/Mem.lean ====
section
/-! DEFINITION. Memory as a gang reaches it: the per-lane slots (07 R171, R172), plain accesses of byte runs through
translation, tables and L1 (08 R218), messages to other devices (08 R230), the security log and alarms (18 R443 to
R445), and the translation-fault queue (16 R406). -/

namespace Sys2Proof.Machine

/-! ### Slots and canonical addresses -/

/-- A global address is canonical: bits [63:56] are 0 (07 R170). -/
def canonical (va : Nat) : Bool := decide (va < 2 ^ 56)

/-- A private-aperture address: bits [55:48] are 0xFF (07 R171). -/
def inAperture (va : Nat) : Bool := decide (field va 48 8 = 0xFF)

/-- First byte of the slot of a lane (07 R172). -/
def slotBase (w : Workgroup) (num lane : Nat) : Nat := w.pb.toNat + ((w.wgid * 32 + num) * 32 + lane) * w.z

/-- The global address an address denotes: an aperture address lies in the lane's slot (07 R171). -/
def globalOf (w : Workgroup) (num lane va : Nat) : Nat :=
  if inAperture va then slotBase w num lane + va % 2 ^ 48 else va

/-! ### Security log (18 R444, R445) -/

/-- Put a little-endian number into the management window. -/
def State.putWindow (s : State) (a n x : Nat) : State :=
  { s with window := mapSetRange 0 (Machine.byteAt x) a n s.window }

/-- Read a little-endian number from the management window's bytes. -/
def State.window? (s : State) (a n : Nat) : Nat := readLE (mapGet 0 s.window) a n

/-- One entry in the security log; a full ring overwrites the oldest and counts it lost (18 R445). -/
def State.logSecurity (s : State) (target src spart cls pasid kind action : Nat) : State :=
  let i := s.logIndex % 256
  let x := s.clock.toNat + target * 2 ^ 64 + src % 4096 * 2 ^ 128 + spart * 2 ^ 144 + cls * 2 ^ 152 +
    pasid % 2 ^ 20 * 2 ^ 160 + kind * 2 ^ 192 + action * 2 ^ 200
  let s := s.putWindow (0x2000 + 32 * i) 32 x
  let lost := if 256 ≤ s.logCount then s.window? 0x4004 4 + 1 else s.window? 0x4004 4
  let s := { s with logIndex := s.logIndex + 1, logCount := s.logCount + 1 }
  (s.putWindow 0x4000 4 (s.logIndex % 256)).putWindow 0x4004 4 lost

/-- The action of the owner of a refused resource; 0 when no partition owns it (18 R440, R444) (log entry 41, DEDUCED). -/
def State.alarmAction (s : State) (owner : Option Nat) : Nat :=
  match owner with
  | none => 0
  | some q => s.policyByte q 9 % 4

/-- A security alarm of a master of this device: the log, and the owner's action, which the firmware carries out
before the next turn (18 R444). -/
def State.alarm (s : State) (owner : Option Nat) (target part cls pasid kind : Nat) : State :=
  let act := s.alarmAction owner
  let s := s.logSecurity target s.devid part cls pasid kind act
  if act = 0 then s else { s with alarms := s.alarms ++ [(act, pasid, part)] }

/-! ### Plain accesses of byte runs -/

/-- Where a translated access ends up. -/
inductive Reach where
  | here (pa : Nat) (page : Page)
  | away (pa : Nat) (page : Page)
  | refused (owner : Option Nat) (pa : Nat)
  | bad (pa : Nat)
deriving DecidableEq, Repr

/-- Classify a translated address for a master of partition `part` (18 R439, R441; 19 R455). A read of a poisoned
line is bad. Access tables of another device are checked there. -/
def State.reach (s : State) (part : Nat) (need : Nat) (x : Xlate) : Reach :=
  let dev := x.pa / 2 ^ 40
  let a := x.pa % 2 ^ 40
  if dev ≠ s.devid then .away x.pa x.page
  else if !s.admits part (s.channelOwner (channelOf a)) need then .refused (s.channelOwner (channelOf a)) x.pa
  else if need % 2 = 1 && s.badLines.contains (a / 128) then .bad a
  else .here a x.page

/-- The translation that is found without changing anything: a TLB entry, or a walk with no update (07 R187, 09 R240). -/
def State.peek (s : State) (core pasid va : Nat) (acc : Acc) : Option Xlate :=
  match (s.coreAt core).tlb.find? (fun e => e.hits pasid va acc) with
  | some e => some (e.xlate va)
  | none => match s.walk pasid va with
    | .error _ => none
    | .ok l => match s.leafEntry pasid va l with
      | .error _ => none
      | .ok e => if acc.permits e.r e.w e.x then some (e.xlate va) else none

/-- The instruction word at a PC, for the record of a trap that no issue raises (16 R388); 0 when it cannot be read. -/
def State.wordAt (s : State) (core part pasid pc : Nat) : Nat :=
  match s.nativePlace part pc with
  | some a => s.readHome a 4
  | none => match s.peek core pasid pc .fetch with
  | none => 0
  | some x => match s.reach part 1 x with
    | .here a _ => s.readHome a 4
    | .away pa _ => if s.l1Holds core (farLine pa) (pa % 128) 4 then (s.l1Hit core 0 (farLine pa) (pa % 128) 4 0).2 else 0
    | _ => 0

/-- A plain load of `n` bytes (within one line) by the gang's core. -/
def State.plainLoad (s : State) (core wid a n code : Nat) (page : Page) : State × Nat :=
  let s := s.l1Fill core wid (a / 128) code page
  (s, readLE (s.look core) a n)

/-- Why a run of bytes of a gang stops: a translation fault with its cause; a place that a table refuses, with its owner; a
poisoned line; or bytes of another device that the L1 does not hold yet. The address is the virtual one. -/
inductive RunStop where
  | fault (c va : Nat)
  | refused (owner : Option Nat) (pa va : Nat)
  | bad (va : Nat)
  | away (pa : Nat) (page : Page) (va : Nat)
deriving DecidableEq, Repr

/-- Load a run of bytes of a gang through translation and the L1: chunks that stay within a line, the first address `va`. -/
def State.gangLoadRun (s : State) (core wid part pasid code : Nat) : List Nat → Nat → Except RunStop (State × List Byte)
  | [], _ => .ok (s, [])
  | n :: ns, va =>
    match s.xlate part core pasid va .read with
    | .error c => .error (.fault c va)
    | .ok (s, x) =>
      let r : Except RunStop (State × Nat) := match s.reach part 1 x with
        | .here a pg => .ok (s.plainLoad core wid a n code pg)
        | .away pa pg =>
          if s.l1Holds core (farLine pa) (pa % 128) n then .ok (s.l1Hit core wid (farLine pa) (pa % 128) n code)
          else .error (.away pa pg va)
        | .refused o pa => .error (.refused o pa va)
        | .bad _ => .error (.bad va)
      match r with
      | .error e => .error e
      | .ok (s, v) =>
        match s.gangLoadRun core wid part pasid code ns (va + n) with
        | .error e => .error e
        | .ok (s, bs) => .ok (s, bytesLE n v ++ bs)

/-- The note of a store that no path counts: a frame or a spill (08 R230). -/
def State.runNote (s : State) (va part pasid : Nat) : StoreNote :=
  let g := s.gang
  { gang := s.cur, age := g.age, id := s.nextId, seq := mapGet 0 g.issued 1, lanes := 0xFFFFFFFF, addr := BitVec.ofNat 64 va
    opc := g.pcNow.setWidth 64, part := part, pasid := pasid }

/-- Store a run of bytes of a gang through translation, into the L1, of this device's lines and of others'
(08 R218) (log entry 61, DEDUCED). -/
def State.gangStoreRun (s : State) (core wid part pasid code : Nat) : List (List Byte) → Nat → Except RunStop State
  | [], _ => .ok s
  | bs :: rest, va =>
    match s.xlate part core pasid va .write with
    | .error c => .error (.fault c va)
    | .ok (s, x) =>
      match s.reach part 2 x with
      | .here a pg =>
        (s.l1Store core wid a bs.length (ofBytesLE bs) code pg).gangStoreRun core wid part pasid code rest (va + bs.length)
      | .away pa pg =>
        ((s.l1Put core wid (farLine pa) (pa % 128) bs.length (ofBytesLE bs) code pg).noteStore core (farLine pa)
          (s.runNote va part pasid)).gangStoreRun core wid part pasid code rest (va + bs.length)
      | .refused o pa => .error (.refused o pa va)
      | .bad _ => .error (.bad va)

/-- Cut a list of bytes into chunks of at most `n`; `fuel` bounds the number of chunks. -/
def chunks (n : Nat) : Nat → List Byte → List (List Byte)
  | 0, _ => []
  | _, [] => []
  | k + 1, bs => bs.take n :: chunks n k (bs.drop n)

/-! ### Trap records and the translation-fault queue -/

/-- The 64 bytes of a trap record (16 R388). -/
def recordBytes (r : TrapReq) (level slices : Nat) (pc word : Nat) : List Byte :=
  bytesLE 1 r.cause ++ bytesLE 1 r.sub ++ bytesLE 1 level ++ bytesLE 1 slices ++ bytesLE 4 r.lanes.toNat ++
  bytesLE 8 pc ++ bytesLE 4 word ++ bytesLE 4 r.aux.toNat ++ bytesLE 8 r.addr.toNat ++ bytesLE 8 r.opc.toNat ++
  bytesLE 2 (r.device % 4096) ++ bytesLE 1 r.rcause ++ bytesLE 5 0 ++ bytesLE 8 r.handle.toNat ++ bytesLE 8 0

/-- The ring of a die is full (16 R406). -/
def Die.full (d : Die) : Bool := decide ((d.tfqTail - d.tfqHead).toNat = 1024)

/-- Write an entry into a die's ring: its 128 bytes with the sequence number, then TFQ_TAIL (16 R406). -/
def State.tfqPut (s : State) (die : Nat) (a : TfqAgent) : State :=
  let d := s.dieAt die
  let slot := d.tfqTail.toNat % 1024
  let bs := a.bytes.take 96 ++ bytesLE 4 d.tfqSeq ++ List.replicate 28 0
  let s := s.writeHomeList (d.tfqBase.toNat + 128 * slot) bs
  s.updDie die (fun d => { d with
    tfqTail := d.tfqTail + 1
    tfqSeq := d.tfqSeq + 1
    opened := if a.kind = 4 then d.opened else d.opened ++ [{ a with entry := slot }] })

/-- Queue an entry: written when there is room, otherwise the agent waits (16 R406). -/
def State.tfqWrite (s : State) (die : Nat) (a : TfqAgent) : State :=
  if (s.dieAt die).full || !(s.dieAt die).waiting.isEmpty then
    s.updDie die (fun d => { d with waiting := d.waiting ++ [a] })
  else s.tfqPut die a

/-- Bytes 0x00 to 0x5F of an entry (16 R406). -/
def tfqBytes (kind cause access pasid gen core slot gang ident addr lanes progress : Nat) (rec_ : List Byte) : List Byte :=
  bytesLE 1 kind ++ bytesLE 1 cause ++ bytesLE 1 access ++ bytesLE 1 0 ++ bytesLE 4 pasid ++ bytesLE 2 gen ++
  bytesLE 2 core ++ bytesLE 1 slot ++ bytesLE 1 gang ++ bytesLE 2 ident ++ bytesLE 8 addr ++ bytesLE 4 lanes ++
  bytesLE 4 progress ++ (rec_ ++ List.replicate 64 0).take 64

end Sys2Proof.Machine
end

