-- ==== Sys2Proof/Machine/Late.lean ====
section
/-! DEFINITION. What an access does at its places, now or at a later turn: releases, acquires and the promotion record
(08 R219, R220, R224), loads, stores and releases in the L1, at home, in a Barn or by a message (08 R218, R230), and the
operations of a gang that perform late (08 R213, R219, R222, R229; 07 R180). -/

namespace Sys2Proof.Machine

/-! ### Releases and acquires (08 R219, R220) -/

/-- The actions of a release at scope `sc` by a core: at nbh or wider its Barn stores reach the banks and every dirty line is
written back (08 R212, R219, R224) (log entries 60 and 83, DEDUCED). -/
def State.releaseActs (s : State) (core sc : Nat) : State := if 3 ≤ sc then s.pushCore core else s

/-- The actions of an acquire at scope `sc` by a core (08 R220) (log entry 83, DEDUCED). -/
def State.acquireActs (s : State) (core sc : Nat) : State := if 3 ≤ sc then s.dropClean core else s

/-- The number of an operation that performs late is among `ids`, or one of them has not performed. -/
def Gang.waitsOn (g : Gang) (ids : List Nat) : Bool :=
  g.out.any (fun o => ids.contains o.id && !o.perf) || g.late.any (fun o => ids.contains o.id)

/-- Operations on LD (and returning atomics) or ST of the gang that have not performed (log entry 60, DEDUCED). -/
def Gang.unperformed (g : Gang) (paths : Nat) : List Nat :=
  (g.out.filter (fun o => bit paths o.path && !o.perf)).map (·.id) ++ (g.late.filter (fun o => bit paths o.path)).map (·.id)

/-- The accesses of the gang that perform late: a path fence is none, and holds the paths of its set only (08 R229). -/
def Gang.lateAccesses (g : Gang) : List Nat :=
  (g.late.filter (fun o => !(o.kind matches .pathFence _))).map (·.id)

/-- What a release at scope `sc` still waits for: earlier loads, returning atomics and what performs late, and from dom scope
on the stores to other devices. A sys release waits as a dom release does: no store of a gang goes to host memory (08 R219)
(log entries 60 and 89, DEDUCED). -/
def Gang.releaseWaits (g : Gang) (sc : Nat) : List Nat :=
  g.unperformed (if 5 ≤ sc then 3 else 1) ++ g.lateAccesses

/-- Write-backs of a core that other devices have not acknowledged (08 R219). -/
def State.flushing (s : State) (core : Nat) : List Nat :=
  (s.msgs.filter (fun m => match m.kind with
    | .flush c _ => decide (c = core) && decide (m.src = s.devid)
    | _ => false)).map (·.id)

/-- The L2 slice that is home to a local address: die and slice (07 R197). -/
def sliceOf (a : Nat) : Nat := channelOf a / 24 * 32 + (field a 12 5 ^^^ field a 17 5)

/-- The slice that is home to a line of an L1, of this device or of another. -/
def lineHome (line : Nat) : Nat :=
  if isFar line then (farBase line / 2 ^ 40 + 1) * 2 ^ 10 + sliceOf (farBase line % 2 ^ 40) else sliceOf (line * 128)

/-- Enter a core-scope release into the promotion record of its home slice, 512 entries to a slice (08 R224). A core whose
entry another core's release takes over is pushed first, so that R223 holds for it still (log entry 85, DEDUCED). An entry that
is entered again counts as the newest of its record (log entry 122, DESIGN CHOICE). -/
def State.enterPromo (s : State) (line core : Nat) : State :=
  let s := match s.promo.find? (fun e => decide (e.1 = line) && decide (e.2 ≠ core)) with
    | some e => s.pushCore e.2
    | none => s
  let s := match s.promo.filter (fun e => decide (e.1 ≠ line) && decide (lineHome e.1 = lineHome line)) with
    | old :: rest => if 511 ≤ rest.length then s.writeBack old.2 old.1 else s
    | [] => s
  { s with promo := s.promo.filter (fun e => decide (e.1 ≠ line)) ++ [(line, core)] }

/-- What the core that the record names for a line, other than the requester, has issued and not performed: its release waits
for that (08 R224). -/
def State.pushWaits (s : State) (line core : Nat) : List Nat :=
  match s.promo.find? (fun e => decide (e.1 = line) && decide (e.2 ≠ core)) with
  | some e => ((s.gangs.filter (fun k => decide (k.2.core = e.2))).map (fun k => k.2.releaseWaits 4)).flatten
  | none => []

/-- A .rem acquire that reaches the slice: a recorded core other than the requester releases at dev scope, what it has issued
having performed (08 R224). -/
def State.pushPromo (s : State) (line core : Nat) : State :=
  match s.promo.find? (fun e => decide (e.1 = line)) with
  | some e => if e.2 = core then s else s.releaseActs e.2 4
  | none => s

/-! ### Places (07 R174, R197) -/

/-- The place is on another device. -/
def Target.far : Target → Bool
  | .remote _ _ => true
  | _ => false

/-- The place `n` bytes further, in the same line. -/
def Target.shift (n : Nat) : Target → Target
  | .mem a p => .mem (a + n) p
  | .remote pa p => .remote (pa + n) p
  | .tile c t off => .tile c t (off + n)
  | t => t

/-- The access does not perform there. -/
def Target.stopped : Target → Bool
  | .refused _ _ => true
  | .bad _ => true
  | _ => false

/-- The 128-byte line of a place; a Barn place by its core and bank address. -/
def Target.line : Target → Nat × Nat
  | .mem a _ => (0, a / 128)
  | .remote pa _ => (0, farLine pa)
  | .tile c t off => (c + 1, t.phys off / 128)
  | .refused _ pa => (0, pa / 128)
  | .bad a => (0, a / 128)

/-! ### Reports of poisoned accesses (08 R230; 18 R443) -/

/-- The kind that the security log gives a refused access, by the rights it needs: 1 R, 2 W, 3 both (18 R441, R445)
(log entry 49, DEDUCED). -/
def alarmKind (rights : Nat) : Nat := rights - 1

/-- One alarm for each owner that refused a lane, at the address of its lowest lane (18 R443). -/
def alarmOwners (kind : Nat) : List (Option Nat × Nat) → List (Option Nat) → State → State
  | [], _, s => s
  | (o, pa) :: rs, seen, s =>
    if seen.contains o then alarmOwners kind rs seen s
    else alarmOwners kind rs (o :: seen) (s.alarm o pa s.wg.part 0 s.wg.pasid kind)

/-- The report of lanes refused or bad on this device: cause 1 (18 R443), or cause 0 for a poisoned line (19 R455).
`regs` are the destination registers, empty for a store. -/
def State.reportPoison (s : State) (id path : Nat) (regs : List Nat) (lanes : Word) (dev rcause addr : Nat) (opc : DWord) :
    State :=
  let t : TrapReq := { cause := 0x10, lanes := lanes, addr := BitVec.ofNat 64 addr, opc := opc, device := dev, rcause := rcause }
  let mk := fun (g : Gang) => ({ id := id, path := path, seq := g.seqOf path id, record := t
                                 marks := regs.map (fun r => (r, lanes))
                                 relScope := if path = 1 then some 5 else none } : Report)
  s.updGang (fun g => { g with reports := insertReport (mk g) g.reports })

/-! ### Messages of lanes -/

/-- The registers a data field of `size` bytes names. -/
def dataRegs (d : Code) (size : Nat) : List Nat :=
  if d.toNat < 0xF0 then (List.range (max 1 (size / 4))).map (d.toNat + ·) else []

/-- Registers that a lane's message writes. -/
def Msg.regs (m : Msg) : List Nat :=
  let of := fun n => dataRegs (BitVec.ofNat 8 m.reg) n
  match m.kind with
  | .read size => of size
  | .fill size _ _ _ _ => of size
  | .atomic _ size _ => of size
  | .watch _ => of 4
  | _ => []

/-- Lanes that it writes them in. -/
def Msg.lanes (m : Msg) : Word :=
  match m.kind with
  | .watch ls => ls
  | _ => laneMask (fun k => decide (k = m.lane))

/-- An access to another device's memory, which that device answers (18 R433). -/
def MsgKind.isAccess : MsgKind → Bool
  | .read _ => true
  | .write _ => true
  | .atomic _ _ _ => true
  | .fill _ _ _ _ _ => true
  | .fetch _ _ _ _ => true
  | .flush _ _ => true
  | .watch _ => true
  | _ => false

/-- PC of the instruction of an operation of the gang in focus: of the one in issue, when the operation is not counted. -/
def State.opcOf (s : State) (id : Nat) : DWord :=
  match s.gang.out.find? (fun o => decide (o.id = id)) with
  | some o => o.pc.setWidth 64
  | none => s.gang.pcNow.setWidth 64

/-- Send the request of a lane to another device: its destination registers wait (04 R97). -/
def State.sendLane (s : State) (id pa l : Nat) (m0 : Msg) : State :=
  let w := s.wg
  let m := { m0 with dst := pa / 2 ^ 40, addr := pa, gang := s.cur, opid := id, lane := l, part := w.part,
                     pasid := w.pasid, opc := s.opcOf id }
  (s.send m).updGang (fun g => { g with
    pend := g.pend ++ m.regs.map (fun r => { id := id, reg := r, lanes := m.lanes }) })

/-- An operation whose last message has come back, and of which nothing performs later, has performed; an acquire that it
was returns at its scope (08 R220). -/
def State.settle (s : State) (key opid : Nat) : State :=
  if s.msgs.any (fun m => decide (m.gang = key) && decide (m.opid = opid) && m.kind.isAccess && decide (m.src = s.devid)) ||
      (s.gangAt key).late.any (fun o => decide (o.id = opid)) then s
  else
    let h := (s.gangAt key).holds.find? (fun h => decide (h.id = opid))
    let s := s.updGangAt key (fun g => { g.performed opid with holds := g.holds.filter (fun h => decide (h.id ≠ opid)) })
    match h.bind (·.scope) with
    | some sc => s.acquireActs (s.gangAt key).core sc
    | none => s

/-- The note of a store of the gang in focus, until its bytes have reached their home or bank (04 R115, 08 R214, R230). -/
def State.laneNote (s : State) (id l pa : Nat) : StoreNote :=
  let g := s.gang
  { gang := s.cur, age := g.age, id := id, seq := g.seqOf 1 id, lanes := laneMask (fun k => decide (k = l))
    addr := BitVec.ofNat 64 pa, opc := s.opcOf id, part := s.wg.part, pasid := s.wg.pasid }

/-! ### What an access does with its lanes -/

/-- What a memory instruction does with each lane, given its operation number, and the registers it writes. -/
structure Effect where
  /-- Perform a lane: the operation, the lane, its place in this device, in a Barn, or in a line that the L1 holds. -/
  act : Nat → State → Nat → Target → State
  /-- A lane whose access is refused or poisoned: a load writes 0. -/
  poison : State → Nat → State
  /-- The requests sent for a lane whose place is on another device; none: the lane performs here. -/
  request : State → Nat → Nat → Page → List Msg
  /-- What precedes them: the core's copy of the line. -/
  prep : State → Nat → Nat → Page → State := fun s _ _ _ => s
  /-- Registers written. -/
  regs : List Nat
  /-- What happens once the checks have passed, before any lane performs. -/
  before : State → State := id
  /-- What happens once the lanes have performed, given the operation number. -/
  after : Nat → State → State := fun _ s => s
  /-- The lanes perform as the instruction issues. -/
  now : Bool := true
  /-- What of the translated lanes performs at a later turn. -/
  late : Nat → List (Nat × Target) → Option LateOp := fun _ _ => none
  /-- What other cores have issued and must have performed before the translated lanes do (08 R224). -/
  push : State → List (Nat × Target) → List Nat := fun _ _ => []

/-- Perform the translated lanes in lane order. -/
def performLanes (e : Effect) (id : Nat) : List (Nat × Target) → State → State
  | [], s => s
  | (l, t) :: ts, s =>
    performLanes e id ts (match t with
      | .remote pa pg => match e.request s l pa pg with
        | [] => e.act id s l t
        | ms => ms.foldl (fun s m => s.sendLane id (pa + m.addr) l m) (e.prep s l pa pg)
      | .refused _ _ => e.poison s l
      | .bad _ => e.poison s l
      | t => e.act id s l t)

/-- The line number of a place in an L1, of this device's memory or another's. -/
def Target.l1 : Target → Option Nat
  | .mem a _ => some (a / 128)
  | .remote pa _ => some (farLine pa)
  | _ => none

/-- An operation of the gang that performs late touches a line of these lanes: program order of one location (08 R213). -/
def Gang.lateOn (g : Gang) (ts : List (Nat × Target)) : List Nat :=
  (g.late.filter (fun o => o.lanes.any (fun x => ts.any (fun t => decide (t.2.line = x.target.line))))).map (·.id)

/-! ### Loads, stores and releases at their places -/

/-- Extend a loaded value to 32 bits (07 R177). -/
def extendLoad (size : Nat) (signed : Bool) (v : Nat) : Word :=
  if signed then BitVec.ofNat 32 (wrapTo 32 (signedOf (8 * size) v)) else BitVec.ofNat 32 v

/-- Write a loaded value into lane `l` of the data field: one register, a pair or four registers (07 R177). -/
def Gang.putLoad (g : Gang) (d : Code) (size : Nat) (signed : Bool) (l v : Nat) : Gang :=
  let only := fun k => decide (k = l)
  if size ≤ 4 then g.putV32 d only (fun _ => extendLoad size signed v)
  else g.putGroup d only (fun i _ => BitVec.ofNat 32 (v / 2 ^ (32 * i))) (size / 4)

/-- The value a load of the gang finds at a place (08 R218): a line of another device in the L1, or in the predicted peer's
(07 R202); a neighbour's Barn as its own core's queues and those banks give it (08 R214). -/
def State.loadAt (s : State) (size code : Nat) (t : Target) : State × Nat :=
  let core := s.gang.core
  match t with
  | .mem a pg => s.plainLoad core s.gang.wid a size code pg
  | .remote pa pg =>
    let s := if s.l1Holds core (farLine pa) (pa % 128) size then s
      else match (s.probe core (farLine pa) pg).2 with
        | some y => s.l1FillFar core s.gang.wid (farLine pa) code pg y.byte
        | none => s
    s.l1Hit core s.gang.wid (farLine pa) (pa % 128) size code
  | .tile c t off => (s, s.tileRead core c t off size)
  | _ => (s, 0)

/-- The newest `n` bytes in a core's store queues are of a store. -/
def State.noteQueued (s : State) (core n : Nat) (x : StoreNote) : State :=
  s.updCore core (fun c => { c with
    squeue := c.squeue.take (c.squeue.length - n) ++ (c.squeue.drop (c.squeue.length - n)).map (fun q => { q with note := some x }) })

/-- A value that lane `l` of operation `id` stores at a place (08 R218): into the L1, or a store queue. -/
def State.storeAt (s : State) (id l size code v : Nat) (t : Target) : State :=
  match t with
  | .mem a pg => (s.l1Store s.gang.core s.gang.wid a size v code pg).noteStore s.gang.core (a / 128) (s.laneNote id l a)
  | .remote pa pg =>
    (s.l1Put s.gang.core s.gang.wid (farLine pa) (pa % 128) size v code pg).noteStore s.gang.core (farLine pa) (s.laneNote id l pa)
  | .tile core t off =>
    (s.tileStore s.gang.core s.gang.lg core t off v size).noteQueued s.gang.core size (s.laneNote id l (t.phys off))
  | _ => s

/-- The parts in which a plain access of `size` bytes performs (07 R180): offset, bytes, and the first of its registers. -/
def accessParts (size : Nat) : List (Nat × Nat × Nat) := if size = 16 then [(0, 8, 0), (8, 8, 2)] else [(0, size, 0)]

/-- The code of the register `i` after the one that a data field names. -/
def codeAfter (d : Code) (i : Nat) : Code := if d.toNat < 0xF0 then d + BitVec.ofNat 8 i else d

/-- The effect of the loads `ps` of a plain load (07 R178). -/
def loadParts (ps : List (Nat × Nat × Nat)) (d : Code) (size : Nat) (signed : Bool) (code : Nat → Nat) : Effect :=
  { act := fun _ s l t =>
      ps.foldl (fun s p =>
        let r := s.loadAt p.2.1 (code l) (t.shift p.1)
        r.1.updGang (fun g => g.putLoad (codeAfter d p.2.2) p.2.1 signed l r.2)) s
    poison := fun s l => s.updGang (fun g => g.putLoad d size false l 0)
    request := fun s l pa pg =>
      let core := s.gang.core
      if s.l1Holds core (farLine pa) (pa % 128) size || (s.probe core (farLine pa) pg).2.isSome then []
      else ps.map (fun p =>
        { Msg.blank with
          kind := .fill p.2.1 (code l) pg true (s.l1Known core (farLine pa) (pa % 128 + p.1) p.2.1)
          reg := (codeAfter d p.2.2).toNat, data := toNat01 signed, addr := p.1 })
    prep := fun s _ pa pg => (s.probe s.gang.core (farLine pa) pg).1
    regs := dataRegs d size }

/-- The effect of a plain load (07 R178). -/
def loadEffect (d : Code) (size : Nat) (signed : Bool) (code : Nat → Nat) : Effect :=
  loadParts (accessParts size) d size signed code

/-- The effect of the stores `ps` of a plain store of the values `v` (07 R178): every lane's data is read before any lane
performs. -/
def storeParts (ps : List (Nat × Nat × Nat)) (code v : Nat → Nat) : Effect :=
  { act := fun id s l t =>
      ps.foldl (fun s p => s.storeAt id l p.2.1 (code l) (v l / 256 ^ p.1 % 256 ^ p.2.1) (t.shift p.1)) s
    poison := fun s _ => s
    request := fun _ _ _ _ => []
    regs := [] }

/-- The effect of a plain store. -/
def storeEffect (size : Nat) (code v : Nat → Nat) : Effect := storeParts (accessParts size) code v

/-- The core's L1 copy of a line takes the bytes that an st.rel writes at its home slice, with the next-use fields of the
access (07 R193; 08 R219). -/
def State.updateCopy (s : State) (core line off size code v : Nat) : State :=
  match s.l1Line core line with
  | some x => s.setLine core line (some { (s.touch s.gang.wid code x).store off size v with dirty := x.dirty })
  | none => s

/-- st.rel at a place: at nbh scope or wider the write performs at home, and the core's L1 copy is updated; below, in
the L1, with the note to the promotion record (08 R219, R224). -/
def State.releaseStore (s : State) (id l size code sc v : Nat) (t : Target) : State :=
  let core := s.gang.core
  match t with
  | .mem a _ =>
    if sc < 3 then (s.storeAt id l size code v t).enterPromo (a / 128) core
    else (s.writeHomeNum a size v).updateCopy core (a / 128) (a % 128) size code v
  | .remote pa _ => (s.storeAt id l size code v t).enterPromo (farLine pa) core
  | t => s.storeAt id l size code v t

/-- The effect of the write of st.rel: of a line of another device at nbh scope or wider, a write at its home slice. -/
def releaseEffect (size sc : Nat) (code v : Nat → Nat) : Effect :=
  { act := fun id s l t => s.releaseStore id l size (code l) sc (v l) t
    poison := fun s _ => s
    request := fun _ l _ _ => if sc < 3 then [] else [{ Msg.blank with kind := .write size, data := v l }]
    prep := fun s l pa _ => s.updateCopy s.gang.core (farLine pa) (pa % 128) size (code l) (v l)
    regs := [] }

/-! ### Operations that perform late (08 R213, R219, R222, R229) -/

/-- Remove an address from the lock list (04 R103). -/
def lockLeave (ls : List LockEntry) (addr space : Nat) : List LockEntry :=
  ls.filter (fun e => !(decide (e.addr = addr / 8 * 8) && decide (e.space = space)))

/-- What an operation that performs late waits for has come: its operations have performed, or for a path fence completed
(08 R219, R229); of a release that has done its actions, the acknowledgements. -/
def State.lateReady (s : State) (g : Gang) (o : LateOp) : Bool :=
  match o.kind with
  | .pathFence _ => !g.out.any (fun x => o.after.contains x.id) && !g.late.any (fun x => o.after.contains x.id)
  | _ => !g.waitsOn o.after && !(o.acked.getD []).any (fun i => s.msgs.any (fun m => decide (m.id = i)))

/-- The value of a late lane. -/
def LateOp.laneOf (o : LateOp) (l : Nat) : LateLane :=
  (o.lanes.find? (fun x => decide (x.lane = l))).getD { lane := l, target := .bad 0, value := 0, code := 0, lock := none }

/-- The lock list once a late lane has performed (04 R103). -/
def LateLane.unlock (ls : List LockEntry) (x : LateLane) : List LockEntry :=
  match x.lock with
  | some k => lockLeave ls k.1 k.2
  | none => ls

/-- The gang in focus performs a late operation: its lanes, or a release's actions and then its lanes, or the draining of
the store queues for a path fence. -/
def State.performNow (s : State) (o : LateOp) : State :=
  let ts := o.lanes.map (fun x => (x.lane, x.target))
  let code := fun l => (o.laneOf l).code
  let v := fun l => (o.laneOf l).value
  let s := s.updGang (fun g => { g with late := g.late.filter (fun x => !(decide (x.id = o.id) && decide (x.path = o.path))) })
  let s := match o.kind with
    | .load d size signed =>
      let rs := dataRegs d size
      performLanes (loadEffect d size signed code) o.id ts (s.updGang (fun g => { g with
        pend := g.pend.filter (fun p => !(decide (p.id = o.id) && rs.contains p.reg)) }))
    | .store size => performLanes (storeEffect size code v) o.id ts s
    | .release sc size =>
      let s := performLanes (releaseEffect size sc code v) o.id ts (if o.acked.isNone then s.releaseActs s.gang.core sc else s)
      s.updGang (fun g => { g with locks := o.lanes.foldl LateLane.unlock g.locks })
    | .pathFence drain => if drain then s.drainQueues s.gang.core else s
  s.settle s.cur o.id

/-- The gang in focus goes on with a late operation: a release whose write-backs other devices must acknowledge does its actions
and waits for them (08 R219); any other performs. -/
def State.performLate (s : State) (o : LateOp) : State :=
  match o.kind, o.acked with
  | .release sc _, none =>
    let t := s.releaseActs s.gang.core sc
    if 5 ≤ sc && !(t.flushing s.gang.core).isEmpty then t.updGang (fun g => { g with
      late := g.late.map (fun x => if x.id = o.id && decide (x.path = o.path) then { x with acked := some (t.flushing s.gang.core) } else x) })
    else s.performNow o
  | _, _ => s.performNow o

/-- The gang of a key goes on with its late operation `id`, when it may. -/
def State.runLate (s : State) (key id : Nat) : State :=
  let g := s.gangAt key
  match g.late.find? (fun o => decide (o.id = id)) with
  | some o => if s.lateReady g o then { ({ s with cur := key }).performLate o with cur := s.cur } else s
  | none => s

/-- Before a run of bytes that the gang in focus stores at once, what it has issued earlier on those lines performs, as far as
it may; a store of it that may not would be overwritten, and goes (program order of one location, 08 R213). -/
def State.settleLines (s : State) (ts : List (Nat × Target)) : State :=
  let s := (s.gang.lateOn ts).foldl (fun s id => s.runLate s.cur id) s
  s.updGang (fun g => { g with late := g.late.map (fun o => { o with
    lanes := o.lanes.filter (fun x => !ts.any (fun t => decide (t.2.line = x.target.line))) }) })

/-- The lines of `n` bytes at a virtual address, as places of the gang in focus. -/
def State.runTargets (s : State) (va n : Nat) (acc : Acc) : List (Nat × Target) :=
  (List.range ((va + n - 1) / 128 - va / 128 + 1)).filterMap (fun i =>
    match s.xlate s.wg.part s.gang.core s.wg.pasid (max va ((va / 128 + i) * 128)) acc with
    | .ok (_, x) => if x.pa / 2 ^ 40 = s.devid then some (0, .mem (x.pa % 2 ^ 40) x.page) else some (0, .remote x.pa x.page)
    | .error _ => none)

/-- What the gang in focus has issued on the lines of a run and not performed (program order of one location, 08 R213). -/
def State.lateOnRun (s : State) (va n : Nat) (acc : Acc) : List Nat := s.gang.lateOn (s.runTargets va n acc)

end Sys2Proof.Machine
end

