-- ==== Sys2Proof/Machine/Ops.lean ====
section
/-! DEFINITION. The shared operations of a gang: taking a trap (16 R387 to R391, 02 R47), fatal termination (R397, R398),
returning from a trap (R395), ending a gang (03 R79), stalling (03 R68), and regang's merge and deadlock (03 R77, R78). -/

namespace Sys2Proof.Machine

/-- The outcome of a meaning. -/
abbrev Res := Host.Outcome State Fault Refusal

/-! ### The trap frame (16 R390, R391) -/

/-- The lowest non-exited slice; 0 when all have exited. -/
def Gang.firstLive (g : Gang) : Nat := ((List.range 8).find? (fun k => !g.exitedAt k)).getD 0

/-- Handler PC of level 1 or 2. -/
def Gang.hpc (g : Gang) (level : Nat) : DWord := if level = 1 then g.trap.hpc1 else g.trap.hpc2

/-- The EXEC part of slice k. -/
def Gang.execPart (g : Gang) (k : Nat) : Nat := field g.regs.exec.toNat (4 * k) 4

/-- The 16 bytes of slice k's state (16 R391). -/
def Gang.sliceEntry (g : Gang) (k : Nat) : List Byte :=
  if g.exitedAt k then
    bytesLE 8 (mapGet 0 g.exitPc k).toNat ++ bytesLE 1 16 ++ bytesLE 1 k ++ bytesLE 2 0 ++ bytesLE 4 (g.mode k).toNat
  else
    bytesLE 8 (g.pc k).toNat ++ bytesLE 1 (g.execPart k + 32 * toNat01 (g.flow.waiting.getLsbD k)) ++
    bytesLE 1 (g.grp k) ++ bytesLE 2 0 ++ bytesLE 4 (g.mode k).toNat

/-- The 1,024 bytes of a frame level (16 R390). -/
def Gang.frameBytes (g : Gang) (record : List Byte) : List Byte :=
  record ++ ((List.range 8).map g.sliceEntry).flatten ++
  ((List.range 8).map (fun k => ((List.range 4).map (fun i => bytesLE 4 (g.s k (28 + i)).toNat)).flatten)).flatten ++
  bytesLE 4 g.regs.fpf.toNat ++ bytesLE 4 g.trap.unfinished.toNat ++ List.replicate 56 0 ++
  ((List.range 4).map (fun r => ((List.range 32).map (fun l => bytesLE 4 (g.v r l).toNat)).flatten)).flatten ++
  List.replicate 128 0

/-- Frame address of a level (16 R389). -/
def Gang.frameAt (g : Gang) (level : Nat) : Nat := g.trap.frame.toNat + 1024 * (level - 1)

/-! ### The sprinter seat and the end of a gang -/

/-- Leave the sprinter seat, if held: the pool rows return (04 R101, R109). -/
def State.leaveSeat (s : State) (key : Nat) : State :=
  let g := s.gangAt key
  s.updCore g.core (fun c => { c with seats := c.seats.map (fun e =>
    if e.2.holder = some key then (e.1, Seat.empty) else e) })

/-- The watch is dropped (07 R186): armed, it is lost. -/
def Gang.loseWatch (g : Gang) : Gang :=
  if g.watch.armed.isSome then { g with watch := { g.watch with armed := none, lost := true } } else g

/-- A gang leaves the watch tables. -/
def State.dropWatches (s : State) (key : Nat) : State :=
  { s with watches := s.watches.filter (fun w => decide (w.2 ≠ .gang key)) }

/-- The expand group that gang `num` of a workgroup belongs to (12 R303). -/
def Workgroup.groupOf (w : Workgroup) (num : Nat) : Option XGroup := w.groups.find? (fun x => x.members.contains num)

/-- Fields of xst (12 R303). -/
def xstState (x : DWord) : Nat := field x.toNat 62 2
/-- G - 1. -/
def xstG1 (x : DWord) : Nat := field x.toNat 60 2
/-- The member index. -/
def xstM (x : DWord) : Nat := field x.toNat 58 2
/-- Rounds dealt. -/
def xstRound (x : DWord) : Nat := field x.toNat 0 32
/-- The value of xst with its fields. -/
def xstOf (state g1 m round : Nat) : DWord := BitVec.ofNat 64 (state * 2 ^ 62 + g1 * 2 ^ 60 + m * 2 ^ 58 + round % 2 ^ 32)

/-- A gang's rounds are not exhausted: its next expn would deal an item (12 R308). -/
def roundsLeft (x : XGroup) (xst : DWord) : Bool :=
  decide (xstState xst ≠ 0) && decide ((xstRound xst * 32 * x.members.length + 32 * xstM xst) < x.total)

/-- A member of an expand group ends with rounds left: the group is broken and every other member holds the mark
(12 R308). -/
def State.breakExpand (s : State) (key : Nat) : State :=
  let g := s.gangAt key
  match (s.wgAt g.wid).groupOf g.num with
  | none => s
  | some x =>
    if roundsLeft x g.regs.xst then
      let s := s.updWgAt g.wid (fun w => { w with groups := w.groups.filter (fun y => !y.members.contains g.num) })
      x.members.foldl (fun s m =>
        if m = g.num then s
        else s.updGangAt (gangKey g.wid m) (fun h => { h with regs := { h.regs with broken := true } })) s
    else s

/-- The fault entries of a gang are answered no more: none is left to retry or to trap (16 R406). -/
def State.dropFaults (s : State) (key : Nat) : State :=
  let other := fun (a : TfqAgent) => !((decide (a.kind = 0) || decide (a.kind = 3)) && decide (a.key = key))
  s.updDie (dieOfCore (s.gangAt key).core) (fun d => { d with opened := d.opened.filter other, waiting := d.waiting.filter other })

/-- A gang ends: its slot, seat, ring place, lock list and watch are released (03 R79, 04 R99, R103). -/
def State.endGang (s : State) (key : Nat) : State :=
  let g := s.gangAt key
  let s := (((s.breakExpand key).leaveSeat key).dropWatches key).dropFaults key
  let s := s.updCore g.core (fun c => { c with ring := c.ring.map (fun e => (e.1, e.2.filter (fun k => decide (k ≠ key)))) })
  s.setGangAt key { g with live := false, locks := [], watch := Gang.absent.watch,
                           flow := { g.flow with exited := 0xFF, waiting := 0, blocks := [] } }

/-! ### Fatal termination (16 R397, R398) -/

/-- The 80-byte fatal record (16 R398). -/
def fatalRecord (record : List Byte) (g : Gang) (wgid level code reason : Nat) : List Byte :=
  (record ++ List.replicate 64 0).take 64 ++ bytesLE 2 g.core ++ bytesLE 1 g.num ++ bytesLE 1 level ++ bytesLE 4 wgid ++
  bytesLE 4 code ++ bytesLE 1 reason ++ bytesLE 3 0

/-- A workgroup's engine work goes: Gleaner commands are cancelled (11 R296), table entries removed, expand groups
dissolved (16 R397). -/
def State.dropEngineWork (s : State) (wid : Nat) : State :=
  let core := coreOfWid wid
  let gone := (s.coreAt core).gleaner.filter (fun c => decide (c.wid = wid))
  let s := s.updCore core (fun c => { c with
    gleaner := c.gleaner.filter (fun x => decide (x.wid ≠ wid))
    ended := (gone.map (fun x => (wid, x.ticket, (5 : Word))) ++ c.ended).take 48 })
  let cl := clusterOfCore core
  let s := s.updCluster cl (fun c =>
    let mine := (c.table.filter (fun e => decide (e.wid = wid))).map (·.slot)
    { c with
      table := c.table.filter (fun e => decide (e.wid ≠ wid))
      pass := c.pass.filter (fun p => !mine.contains p.1)
      port := c.port.filter (fun p => !mine.contains p) })
  s.updWgAt wid (fun w => { w with groups := [], forming := [], assembling := [] })

/-- The launch of a workgroup fails, and keeps the record of the first workgroup of it that ended fatally (17 R430). -/
def State.failLaunch (s : State) (wid : Nat) (record : List Byte) : State :=
  let id := (s.wgAt wid).launch
  { s with launches := s.launches.map (fun l => if l.id = id then { l with fatal := some (l.fatal.getD record) } else l) }

/-- Every gang of a workgroup ends at once, fatally, with the record (16 R397). -/
def State.endWorkgroup (s : State) (wid : Nat) (record : List Byte) : State :=
  let s := (s.gangsOf wid).foldl (fun s k => s.endGang k) s
  let s := s.dropEngineWork wid
  s.updWgAt wid (fun w => { w with fatal := some (w.fatal.getD record) })

/-- Fatal termination of the gang in focus (16 R397). -/
def State.fatal (s : State) (record : List Byte) (level code reason : Nat) : State :=
  let g := s.gang
  let r := fatalRecord record g s.wg.wgid level code reason
  (s.endWorkgroup g.wid r).failLaunch g.wid r

/-! ### Taking a trap (16 R389) -/

/-- The gang as its handler finds it: flags, level, EXEC, MODE and PC of every slice, one PC-group, and s28 to s31
(16 R389). -/
def Gang.enter (g : Gang) (t : TrapReq) (level slices : Nat) : Gang :=
  let f := g.frameAt level
  let live := fun k => !g.exitedAt k
  let first := g.firstLive
  let ex := laneMask (fun l => live (l / 4))
  let g1 := { g with
    regs := { g.regs with
      fpf := 0
      exec := ex
      mode := g.regs.mode.filter (fun e => g.exitedAt e.1) }
    flow := { g.flow with
      pc := setPcMap live (fun _ => (g.hpc level).setWidth 56) 8 g.flow.pc
      grp := setGrpMap live (fun _ => first) 8 g.flow.grp
      waiting := 0
      wmask := []
      words := []
      served := first
      count := 0
      blocks := [] }
    trap := { g.trap with
      level := level
      unfinished := 0
      replay := none
      delivered := g.trap.delivered.filter (fun n => decide (n ≠ level)) ++ (if g.trap.replay.isSome then [level] else [])
      parked := false } }
  let g2 := ((g1.writeSlices 28 live (fun _ => BitVec.ofNat 32 f)).writeSlices 29 live
    (fun _ => BitVec.ofNat 32 (f / 2 ^ 32)))
  let g3 := (g2.writeSlices 30 live (fun _ => BitVec.ofNat 32 (t.cause + t.sub * 2 ^ 8 + level * 2 ^ 16))).writeSlices
    31 live (fun _ => BitVec.ofNat 32 slices)
  g3.loseWatch

/-- Taking a trap: the ONE entry of every cause (16 R389), with the 64 bytes of its record. `slices` are those of the trapping
PC-group. -/
def State.enterRecord (s : State) (t : TrapReq) (slices : Nat) (rec_ : List Byte) : State :=
  let g := s.gang
  let level := g.trap.level + 1
  if level = 3 then s.fatal rec_ g.trap.level 0 0
  else if g.hpc level = 0 then s.fatal rec_ g.trap.level 0 1
  else
    let s := s.leaveSeat s.cur
    let w := s.wg
    let s := s.settleLines (s.runTargets (g.frameAt level) 1024 .write)
    match s.gangStoreRun g.core g.wid w.part w.pasid 61 (chunks 128 8 (g.frameBytes rec_)) (g.frameAt level) with
    | .error e => (match e with
        | .refused o pa _ => s.alarm o pa w.part 0 w.pasid 1
        | _ => s).fatal rec_ g.trap.level 0 2
    | .ok s => (s.dropWatches s.cur).updGang (fun g => g.enter t level slices)

/-- Taking a trap at an instruction: `slices`, `pc` and `word` name the trapping PC-group's (16 R388, R389). -/
def State.enterTrap (s : State) (t : TrapReq) (slices pc word : Nat) : State :=
  s.enterRecord t slices (recordBytes t (min 2 (s.gang.trap.level + 1)) slices pc word)

/-- The trap of the instruction being issued: its PC-group, its PC and its word (16 R388). -/
def State.takeTrap (s : State) (t : TrapReq) : State :=
  s.enterTrap t s.gang.issuingMask s.gang.pcNow.toNat s.ir.toNat

/-- A trap of the gang in focus at the instruction where its served PC-group waits (03 R78, 10 R272). -/
def State.trapWaiting (s : State) (t : TrapReq) : State :=
  let g := s.gang
  s.enterTrap t g.issuingMask g.pcNow.toNat (mapGet (0 : Word) g.flow.words g.flow.served).toNat

/-- The outcome of an instruction that traps: every earlier effect of it is discarded (00 R13), so the trap is taken
in the state in which it issued. -/
def trapNow (t : TrapReq) (s : State) : Res := .next (s.takeTrap t)

/-- The illegal-instruction trap (02 R46). -/
def illegal (s : State) : Res := trapNow { cause := 0x01 } s

/-! ### Stalling (03 R68) -/

/-- The issuing slices keep the word at which they stay. -/
def Gang.keepWord (g : Gang) (w : Word) : Gang :=
  { g with flow := { g.flow with words := g.issuingList.foldl (fun m k => mapSet 0 m k w) g.flow.words } }

/-- The issuing PC-group cannot issue: it waits for the condition, its PC stays, and the fetch slot leaves it at the
next issue. -/
def State.stall (s : State) (b : Block) : State :=
  s.updGang (fun g =>
    let h := g.keepWord s.ir
    { h with flow := { h.flow with blocks := mapPut g.flow.served b g.flow.blocks } })

/-- The outcome of an instruction that stalls. -/
def stallOn (b : Block) (s : State) : Res := .next (s.stall b)

/-- The PC-group that waits on a condition goes on past its word, after `f`. -/
def Gang.finishBlock (g : Gang) (b : Block) (f : Gang → Gang) : Gang :=
  match g.flow.blocks.find? (fun e => decide (e.2 = b)) with
  | none => g
  | some (k, _) =>
    let old := g.flow.served
    let h := { g with flow := { g.flow with served := k, blocks := mapDrop k g.flow.blocks } }
    let h := (f h).advance
    { h with flow := { h.flow with served := old } }

/-! ### Parking at a translation fault (09 R244 to R246) -/

/-- The instruction being issued replays its unfinished lanes only (09 R245) (log entry 43, DEDUCED). -/
def Gang.replaying (g : Gang) : Bool := decide (g.trap.unfinishedOf = g.flow.served) && decide (g.trap.replay = some g.pcNow)

/-- A memory instruction has issued for every lane: nothing of it is left to replay (log entry 43, DEDUCED). -/
def Gang.finishReplay (g : Gang) : Gang := { g with trap := { g.trap with unfinished := 0, replay := none } }

/-- The gang in focus parks at its instruction, or at its fetch (kind 3, whose record has no word: none was fetched; log
entry 16, DEDUCED): the die's firmware receives the entry, with the lane mask `lanes`, and the gang
keeps the mask `keep` of lanes that a retry replays (09 R244, R246; 16 R406).
`cause` is the cause of 09 R243. -/
def State.park (s : State) (kind cause : Nat) (acc : Acc) (addr : Nat) (lanes keep : Word) : State :=
  let g := s.gang
  let w := s.wg
  let t : TrapReq := { cause := 0x0F, sub := cause, lanes := lanes, addr := BitVec.ofNat 64 addr }
  let rec_ := recordBytes t (if g.trap.level = 2 then 2 else g.trap.level + 1) g.issuingMask g.pcNow.toNat
    (if kind = 3 then 0 else s.ir.toNat)
  let gen := s.pasidGen w.pasid
  let bs := tfqBytes kind cause acc.code w.pasid gen g.core (slotOfWid g.wid) g.num 0 addr lanes.toNat 0 rec_
  let s := s.updGang (fun g => { g.keepWord (if kind = 3 then 0 else s.ir) with trap := { g.trap with
    parked := true
    unfinished := keep
    unfinishedOf := g.flow.served
    replay := if keep ≠ 0 || (decide (kind = 3) && g.replaying) then some g.pcNow else none } })
  s.tfqWrite (dieOfCore g.core) { entry := 0, kind := kind, key := s.cur, ident := 0, record := t, bytes := bs }

/-! ### Runs of bytes that an instruction reads or writes beside its lanes (03 R76, 16 R395) -/

/-- A report of a remote access fault at the instruction in issue (16 R387). -/
def State.remoteFault (s : State) (lanes : Word) (dev rcause pa : Nat) : TrapReq :=
  { cause := 0x10, lanes := lanes, addr := BitVec.ofNat 64 pa, opc := s.gang.pcNow.setWidth 64, device := dev, rcause := rcause }

/-- A line of another device is fetched for the instruction in issue, which waits and issues again; once the fetch has come
back poisoned, the instruction takes its fault (log entry 84, DEDUCED). -/
def State.fetchFar (s : State) (lanes : Word) (code pa : Nat) (page : Page) : Res :=
  let line := farLine pa
  match s.gang.fetchFails.find? (fun f => decide (f.1 = line)) with
  | some f => trapNow { f.2 with lanes := lanes } (s.updGang (fun g => { g with
      fetchFails := g.fetchFails.filter (fun x => decide (x.1 ≠ line)) }))
  | none =>
    let id := s.nextId
    stallOn (.answers [id]) (s.send { Msg.blank with
      kind := .fetch code page true true, dst := pa / 2 ^ 40, addr := pa, gang := s.cur, opid := id, part := s.wg.part
      pasid := s.wg.pasid, opc := s.gang.pcNow.setWidth 64, reg := 0xF0 })

/-- The outcome of an instruction whose run of bytes stops: parked at a translation fault, a remote access fault with its
alarm, or a wait for a line of another device. `lanes` are those that the record names. -/
def State.runStop (s : State) (lanes : Word) (acc : Acc) (code : Nat) : RunStop → Res
  | .fault c va => .next (s.park 0 c acc va lanes 0)
  | .refused o pa _ => trapNow (s.remoteFault lanes s.devid 1 pa) (s.alarm o pa s.wg.part 0 s.wg.pasid (acc.rights - 1))
  | .bad va => trapNow (s.remoteFault lanes s.devid 0 va) { s with alarms := s.alarms ++ [(1, s.wg.pasid, s.wg.part)] }
  | .away pa page _ => s.fetchFar lanes code pa page

/-! ### regang (03 R77, R78) -/

/-- Slices waiting at the regang at PC x. -/
def Gang.waitersAt (g : Gang) (x : PcVal) : List Nat :=
  (List.range 8).filter (fun k => !g.exitedAt k && g.flow.waiting.getLsbD k && decide (g.pc k = x))

/-- The merge condition at x: (mask ∪ W) minus the exited slices lies in W (03 R77). -/
def Gang.mergesAt (g : Gang) (x : PcVal) : Bool :=
  let w := g.waitersAt x
  match w with
  | [] => false
  | k :: _ =>
    let mask := mapGet (0 : BitVec 8) g.flow.wmask k
    (List.range 8).all (fun j => !(mask = 0 || mask.getLsbD j) || g.exitedAt j || w.contains j)

/-- The slices that wait at x become one PC-group at x + 4 (03 R77). -/
def Gang.mergeAt (g : Gang) (x : PcVal) : Gang :=
  let w := g.waitersAt x
  let inW := fun k => w.contains k
  let lead := w.headD 0
  { g with flow := { g.flow with
      pc := setPcMap inW (fun _ => x + 4) 8 g.flow.pc
      grp := setGrpMap inW (fun _ => lead) 8 g.flow.grp
      waiting := g.flow.waiting &&& ~~~ BitVec.ofNat 8 ((w.map (fun k => 2 ^ k)).sum)
      blocks := g.flow.blocks.filter (fun e => !w.contains e.1)
      served := if w.contains g.flow.served then lead else g.flow.served
      count := if w.contains g.flow.served then 0 else g.flow.count } }

/-- Every non-exited slice waits at a regang and no merge condition holds (03 R78). -/
def Gang.regangDead (g : Gang) : Bool :=
  (List.range 8).any (fun k => !g.exitedAt k) &&
  (List.range 8).all (fun k => g.exitedAt k || (g.flow.waiting.getLsbD k && !g.mergesAt (g.pc k)))

/-- The deadlock trap, when its condition holds after a regang, an exit or a tret (03 R78, 16 R395). Where slices wait at
several regangs, the record names the PC-group of the lowest live slice (log entry 88, DESIGN CHOICE). -/
def State.checkRegang (s : State) : State :=
  let g := s.gang
  if g.regangDead then
    let lead := g.grp g.firstLive
    let s := s.setGang { g with flow := { g.flow with served := lead } }
    s.trapWaiting { cause := 0x07 }
  else s

/-! ### Returning from a trap (16 R395) -/

/-- Slice k's entry in a frame: PC, ctl, group, MODE. -/
def frameSlice (f : List Byte) (k : Nat) : Nat × Nat × Nat × Nat :=
  let e := f.drop (0x40 + 16 * k)
  (ofBytesLE (e.take 8), ofBytesLE ((e.drop 8).take 1), ofBytesLE ((e.drop 9).take 1), ofBytesLE ((e.drop 12).take 4))

/-- A word of a frame. -/
def frameWord (f : List Byte) (off : Nat) : Nat := ofBytesLE ((f.drop off).take 4)

/-- The checks of R395 on the slice states of a frame. -/
def Gang.frameOk (g : Gang) (f : List Byte) : Bool :=
  (List.range 8).all (fun k => g.exitedAt k ||
    (let e := frameSlice f k
     let j := e.2.2.1
     let ej := frameSlice f j
     decide (e.1 < 2 ^ 56) && decide (e.1 % 4 = 0) && decide (e.2.1 < 64) &&
     modeImageOk (BitVec.ofNat 23 e.2.2.2) &&
     decide (j ≤ k) && !g.exitedAt j && decide (ej.2.2.1 = j) && decide (ej.1 = e.1) &&
     (bit ej.2.1 5 == bit e.2.1 5)))

/-- The gang restored from a frame (16 R395); `skip` moves the slices of the record's slices field past the word
(log entry 55, DEDUCED). -/
def Gang.restoreFrom (g : Gang) (f : List Byte) (skip : Bool) : Gang :=
  let live := fun k => !g.exitedAt k
  let slices := ofBytesLE ((f.drop 3).take 1)
  let ent := fun k => frameSlice f k
  let pcOf := fun k => BitVec.ofNat 56 (ent k).1 + (if skip && bit slices k then 4 else 0)
  let lead := match (List.range 8).find? (fun k => bit slices k && live k) with
    | some k => (ent k).2.2.1
    | none => g.firstLive
  let waiting := fun k => live k && bit (ent k).2.1 5
  let g1 := { g with
    regs := { g.regs with
      exec := laneMask (fun l => live (l / 4) && bit (ent (l / 4)).2.1 (l % 4))
      mode := (List.range 8).foldl (fun m k =>
        if live k then mapSet modeReset m k (BitVec.ofNat 32 ((ent k).2.2.2 % 2 ^ 23)) else m) g.regs.mode
      fpf := BitVec.ofNat 5 (frameWord f 0x140) }
    flow := { g.flow with
      pc := setPcMap live pcOf 8 g.flow.pc
      grp := setGrpMap live (fun k => (ent k).2.2.1) 8 g.flow.grp
      waiting := BitVec.ofNat 8 ((List.range 8).map (fun k => if waiting k then 2 ^ k else 0)).sum
      served := lead
      count := 0
      blocks := [] }
    trap := { g.trap with
      level := g.trap.level - 1
      unfinished := if skip then 0 else BitVec.ofNat 32 (frameWord f 0x144)
      unfinishedOf := lead
      replay := if !skip && g.trap.delivered.contains g.trap.level then some (pcOf lead) else none
      delivered := g.trap.delivered.filter (fun n => decide (n ≠ g.trap.level))
      parked := false } }
  let g2 := (List.range 4).foldl (fun g i =>
    g.writeSlices (28 + i) live (fun k => BitVec.ofNat 32 (frameWord f (0xC0 + 16 * k + 4 * i)))) g1
  (List.range 4).foldl (fun g r =>
    g.writeLanes r (fun _ => true) (fun l => BitVec.ofNat 32 (frameWord f (0x180 + 128 * r + 4 * l)))) g2

/-- The regang of every waiting slice of the gang, read again from the word at its PC: its mask (03 R77). -/
def State.rereadMasks (s : State) : State :=
  let g := s.gang
  let word := fun k => s.wordAt g.core s.wg.part s.wg.pasid (g.pc k).toNat
  let waits := (List.range 8).filter (fun k => g.flow.waiting.getLsbD k)
  s.setGang { g with flow := { g.flow with
    words := waits.foldl (fun m k => mapSet 0 m k (BitVec.ofNat 32 (word k))) []
    wmask := waits.foldl (fun m k => mapSet 0 m k (BitVec.ofNat 8 (field (word k) 8 8))) [] } }

/-- A line of another device that holds the regang of a slice restored as waiting, and that the L1 does not hold: it is
fetched before the gang is restored (log entry 84, DEDUCED). -/
def State.regangFar (s : State) (f : List Byte) : Option (Nat × Page) :=
  let g := s.gang
  (List.range 8).findSome? (fun k =>
    let e := frameSlice f k
    if g.exitedAt k || !bit e.2.1 5 || (s.nativePlace s.wg.part e.1).isSome then none
    else match s.peek g.core s.wg.pasid e.1 .fetch with
      | none => none
      | some x => match s.reach s.wg.part 1 x with
        | .away pa pg => if s.l1Holds g.core (farLine pa) (pa % 128) 4 then none else some (pa, pg)
        | _ => none)

/-- tret: the checks, the loads of the frame and the restoration (16 R395). -/
def State.trapReturn (s : State) (skip : Bool) : Res :=
  let g := s.gang
  if !g.whole then trapNow { cause := 0x08 } s
  else if g.trap.level = 0 then trapNow { cause := 0x1D, sub := 0 } s
  else if !(s.lateOnRun (g.frameAt g.trap.level) 1024 .read).isEmpty then
    stallOn (.ops (s.lateOnRun (g.frameAt g.trap.level) 1024 .read)) s
  else
    let w := s.wg
    match s.gangLoadRun g.core g.wid w.part w.pasid 61 (List.replicate 8 128) (g.frameAt g.trap.level) with
    | .error e => s.runStop 0xFFFFFFFF .read 61 e
    | .ok (s', f) =>
      if !g.frameOk f then trapNow { cause := 0x1D, sub := 1 } s
      else match s'.regangFar f with
        | some (pa, pg) => s'.fetchFar 0xFFFFFFFF 61 pa pg
        | none => .next ((s'.updGang (fun g => g.restoreFrom f skip)).rereadMasks.checkRegang)

end Sys2Proof.Machine
end

