-- ==== Sys2Proof/Machine/Operands.lean ====
section
/-! DEFINITION. Operands: how each field is read (02 R39, R40, R482), written (R41), checked at issue (R42, R43, R46, R47),
and held by the scoreboard (04 R97) or by a poisoned load (08 R231). -/

namespace Sys2Proof.Machine

/-! ### Fixed sources (02 R40, R482) -/

/-- How a field reads a fixed source (R482): as elements of a type, or as an integer of `w` bits. -/
inductive SrcKind where
  | elem (t : Nat)
  | int (w : Nat)
deriving DecidableEq, Repr

/-- The operand is a register pair. -/
def SrcKind.wide : SrcKind → Bool
  | .elem t => etypeWide t
  | .int w => decide (32 < w)

/-- The value of a fixed source in lane `l` of the gang in focus (R40); `wide` for a 64-bit operand. -/
def State.fixedInt (s : State) (wide : Bool) (c l : Nat) : Int :=
  let g := s.gang
  let cut := fun (x : DWord) => if wide then (x.toNat : Int) else (x.toNat % 2 ^ 32 : Nat)
  match c with
  | 0xF0 => 0
  | 0xF1 => 1
  | 0xF2 => -1
  | 0xF3 => l
  | 0xF4 => (l / 4 : Nat)
  | 0xF5 => g.num
  | 0xF6 => s.wg.wgid
  | 0xF7 => g.core
  | 0xF8 => s.devid
  | 0xF9 => cut s.clock
  | 0xFA => s.wg.rclock.toNat
  | 0xFB => (mapGet (0 : Word) g.regs.xo l).toNat
  | 0xFC => (mapGet (0 : Word) g.regs.xk l).toNat
  | 0xFD => cut (mapGet (0 : DWord) g.regs.xi l)
  | 0xFE => ((mapGet (0 : DWord) g.regs.xi l).toNat / 2 ^ 32 : Nat)
  | _ => 0

/-- The bits of an element of type `t` that holds an integer value, converted under rne (R40; log entry 13, DEDUCED). -/
def fixedElem (t : Nat) (z : Int) : Nat :=
  if isInt t then wrapTo (etypeWidth t) z
  else (convert t { round := 0, sat := false, ftz := false } (FVal.ofInt z)).1

/-- A fixed source as an operand: every element filled, or an integer of the width (R40, R482). -/
def fixedBits (k : SrcKind) (z : Int) : DWord :=
  match k with
  | .elem t => BitVec.ofNat 64 (packElems t (fun _ => fixedElem t z) (elemCount t))
  | .int w => BitVec.ofNat 64 (wrapTo (min w 64) z)

/-! ### Reading fields -/

/-- A vector field of the gang in focus, in lane `l`. -/
def State.vsrc (s : State) (k : SrcKind) (c : Code) (l : Nat) : DWord :=
  if c.toNat < 0xF0 then
    (if k.wide then s.gang.vPair c.toNat l else (s.gang.v c.toNat l).setWidth 64)
  else fixedBits k (s.fixedInt k.wide c.toNat l)

/-- A 32-bit vector field read as an integer or as raw bits. -/
def State.vsrc32 (s : State) (c : Code) (l : Nat) : Word := (s.vsrc (.int 32) c l).setWidth 32

/-- A 64-bit vector field read as an integer or as raw bits. -/
def State.vsrc64 (s : State) (c : Code) (l : Nat) : DWord := s.vsrc (.int 64) c l

/-- Register r of a quad or group that starts at a field; a fixed source gives word `i` of its sign-extended value. -/
def State.vword (s : State) (c : Code) (l i : Nat) : Word :=
  if c.toNat < 0xF0 then s.gang.v (c.toNat + i) l
  else BitVec.ofNat 32 (wrapTo 128 (s.fixedInt true c.toNat l) / 2 ^ (32 * i))

/-- A 32-bit scalar field in slice `k`. -/
def State.ssrc (s : State) (c : Code) (k : Nat) : Word :=
  if c.toNat < 32 then s.gang.s k c.toNat
  else BitVec.ofNat 32 (wrapTo 32 (s.fixedInt false c.toNat (4 * k)))

/-- A 64-bit scalar field in slice `k` (03 R72). -/
def State.ssrc64 (s : State) (c : Code) (k : Nat) : DWord :=
  if c.toNat < 32 then s.gang.s k (c.toNat + 1) ++ s.gang.s k c.toNat
  else BitVec.ofNat 64 (wrapTo 64 (s.fixedInt true c.toNat (4 * k)))

/-- Register `i` of a scalar quad in slice `k`; a fixed source gives word `i` of its sign-extended value. -/
def State.sword (s : State) (c : Code) (k i : Nat) : Word :=
  if c.toNat < 32 then s.gang.s k (c.toNat + i)
  else BitVec.ofNat 32 (wrapTo 128 (s.fixedInt true c.toNat (4 * k)) / 2 ^ (32 * i))

/-- A scalar field of a gang-wide instruction: the copy of the lowest slice of Issuing() (02 R49). -/
def State.sarg (s : State) (c : Code) : Word := s.ssrc c s.gang.low

/-- The same for a 64-bit field. -/
def State.sarg64 (s : State) (c : Code) : DWord := s.ssrc64 c s.gang.low

/-- A predicate field in lane `l`: 0xF0 reads 0 and 0xF1 reads 1 (R39). -/
def Gang.psrc (g : Gang) (c : Code) (l : Nat) : Bool :=
  if c.toNat < 24 then g.p c.toNat l else decide (c = 0xF1)

/-! ### Writing fields: code 0xF0 discards (R41) -/

/-- Write a vector field in the lanes `f` chooses: a pair in the lanes where it is wide. -/
def Gang.putV (g : Gang) (d : Code) (wide f : Nat → Bool) (x : Nat → DWord) : Gang :=
  if d = 0xF0 then g
  else (g.writeLanes d.toNat f (fun l => (x l).setWidth 32)).writeLanes (d.toNat + 1) (fun l => f l && wide l)
    (fun l => (x l >>> 32).setWidth 32)

/-- Write a predicate field. -/
def Gang.putP (g : Gang) (d : Code) (f : Nat → Bool) (x : Nat → Bool) : Gang :=
  if d = 0xF0 then g else g.writePLanes d.toNat f x

/-- Write a scalar field in the slices `f` chooses. -/
def Gang.putS (g : Gang) (d : Code) (f : Nat → Bool) (x : Nat → Word) : Gang :=
  if d = 0xF0 then g else g.writeSlices d.toNat f x

/-- Write a scalar pair. -/
def Gang.putS64 (g : Gang) (d : Code) (f : Nat → Bool) (x : Nat → DWord) : Gang :=
  if d = 0xF0 then g
  else (g.writeSlices d.toNat f (fun k => (x k).setWidth 32)).writeSlices (d.toNat + 1) f
    (fun k => (x k >>> 32).setWidth 32)

/-- Write one scalar value in every slice of Issuing() (02 R49). -/
def Gang.putSAll (g : Gang) (d : Code) (x : Word) : Gang := g.putS d g.issuing (fun _ => x)

/-! ### Checks at issue -/

/-- An operand field: its file, its width or group, and whether it is read and written. -/
inductive Opnd where
  /-- Vector source of 32, 64 or 128 bits. -/
  | vr (w : Nat) (c : Code)
  /-- Vector source of 32 or 64 bits that is read in lanes of the meaning's choice, active or not. -/
  | vl (w : Nat) (c : Code)
  /-- Vector destination. -/
  | vw (w : Nat) (c : Code)
  /-- Vector source and destination. -/
  | vx (w : Nat) (c : Code)
  /-- A group of n vector registers, its code a multiple of m; read, written; a fixed source allowed. -/
  | vg (n m : Nat) (rd wr fixed : Bool) (c : Code)
  /-- Scalar source of 32, 64 or 128 bits. -/
  | sr (w : Nat) (c : Code)
  /-- Scalar destination. -/
  | sw (w : Nat) (c : Code)
  /-- Scalar registers only, `w` bits, read. -/
  | so (w : Nat) (c : Code)
  /-- Predicate source. -/
  | pr (c : Code)
  /-- Predicate destination. -/
  | pw (c : Code)
  /-- Barrier register. -/
  | br (c : Code)
deriving DecidableEq, Repr

/-- The code is legal in its field (R39, R41, R42). -/
def Opnd.legal : Opnd → Bool
  | .vr w c => if w = 128 then vSrc128 c else if w = 64 then vSrc64 c else vSrc c
  | .vl w c => if w = 64 then vSrc64 c else vSrc c
  | .vw w c => if w = 128 then vDst128 c else if w = 64 then vDst64 c else vDst c
  | .vx w c => if w = 64 then vDst64 c else vDst c
  | .vg n m _ wr fixed c =>
    decide (c.toNat % m = 0) && (decide (c.toNat + n ≤ 240) ||
      (fixed && decide (0xF0 ≤ c.toNat) && (if wr then decide (c = 0xF0) else decide (c.toNat ≤ 0xFE))))
  | .sr w c => if w = 128 then sQuadSrc c else if w = 64 then sSrc64 c else sSrc c
  | .sw w c => if w = 64 then sDst64 c else sDst c
  | .so w c => decide (c.toNat < 32) && decide (c.toNat % (w / 32) = 0)
  | .pr c => pSrc c
  | .pw c => pDst c
  | .br c => bReg c

/-- The vector registers a field names: the first and their number. -/
def Opnd.vregs : Opnd → Option (Nat × Nat)
  | .vr w c => if c.toNat < 0xF0 then some (c.toNat, w / 32) else none
  | .vl w c => if c.toNat < 0xF0 then some (c.toNat, w / 32) else none
  | .vw w c => if c.toNat < 0xF0 then some (c.toNat, w / 32) else none
  | .vx w c => if c.toNat < 0xF0 then some (c.toNat, w / 32) else none
  | .vg n _ _ _ _ c => if c.toNat < 0xF0 then some (c.toNat, n) else none
  | _ => none

/-- The field's vector registers are read in the active lanes. -/
def Opnd.reads : Opnd → Bool
  | .vr _ _ => true
  | .vx _ _ => true
  | .vg _ _ rd _ _ _ => rd
  | _ => false

/-- Every register of the field lies below the allocation (R43). -/
def Opnd.inRange (alloc : Nat) (o : Opnd) : Bool :=
  match o.vregs with
  | some (r, n) => decide (r + n ≤ alloc)
  | none => true

/-- The field names the register `r` in the lanes that issue. -/
def Opnd.names (r : Nat) (o : Opnd) : Bool :=
  match o, o.vregs with
  | .vl _ _, _ => false
  | _, some (b, n) => decide (b ≤ r) && decide (r < b + n)
  | _, none => false

/-- What the issuing slices' fields are: for each slice the operands under its MODE, none where the etype is not
accepted (R46). -/
abbrev OpndsOf := Word → Option (List Opnd)

/-- The operands of slice k. -/
def Gang.opnds (g : Gang) (f : OpndsOf) (k : Nat) : List Opnd := (f (g.mode k)).getD []

/-- Some issuing slice makes the word illegal. -/
def Gang.illegalFor (g : Gang) (f : OpndsOf) : Bool :=
  (List.range 8).any (fun k => g.issuing k && (match f (g.mode k) with
    | some os => os.any (fun o => !o.legal)
    | none => true))

/-- Some issuing slice names a register outside the allocation. -/
def Gang.rangeFor (g : Gang) (f : OpndsOf) : Bool :=
  (List.range 8).any (fun k => g.issuing k && (g.opnds f k).any (fun o => !o.inRange g.alloc))

/-- A named register waits for a value from outside the core (04 R97). -/
def Gang.waitsFor (g : Gang) (f : OpndsOf) : Bool :=
  g.pend.any (fun p => (List.range 32).any (fun l => p.lanes.getLsbD l && g.issuing (l / 4) &&
    (g.opnds f (l / 4)).any (Opnd.names p.reg)))

/-- The oldest report whose marked register the word reads in an active lane (08 R231). -/
def Gang.poisonFor (g : Gang) (f : OpndsOf) : Option Report :=
  g.reports.find? (fun p => p.marks.any (fun m => (List.range 32).any (fun l => m.2.getLsbD l && g.active l &&
    (g.opnds f (l / 4)).any (fun o => o.reads && o.names m.1))))

/-- A register and lane of a field: one of the `n` registers from its code on, in one of the lanes. -/
def inField (c : Code) (n : Nat) (lanes : List Nat) (reg : Nat) (mask : Word) : Bool :=
  decide (c.toNat < 0xF0) && decide (c.toNat ≤ reg) && decide (reg < c.toNat + n) && lanes.any (fun l => mask.getLsbD l)

/-- The oldest report that marks a register of a field in one of the lanes, active or not (08 R231). -/
def Gang.markedIn (g : Gang) (c : Code) (n : Nat) (lanes : List Nat) : Option Report :=
  g.reports.find? (fun p => p.marks.any (fun m => inField c n lanes m.1 m.2))

/-- The operations that a register of a field waits for in one of the lanes, active or not (04 R97). -/
def Gang.pendingIn (g : Gang) (c : Code) (n : Nat) (lanes : List Nat) : List Nat :=
  (g.pend.filter (fun p => inField c n lanes p.reg p.lanes)).map (·.id)

/-- Take a report: its record is raised and the report goes (08 R231). -/
def State.takeReport (s : State) (p : Report) : Res :=
  trapNow p.record (s.updGang (fun g => { g with reports := g.reports.filter (fun q => decide (q.id ≠ p.id)) }))

/-- The scoreboard and the poison reports of a field that is read in lanes of the meaning's choice (04 R97; 08 R231). -/
def guardLanes (c : Code) (n : Nat) (lanes : List Nat) (s : State) (body : Res) : Res :=
  match s.gang.pendingIn c n lanes with
  | [] => (match s.gang.markedIn c n lanes with
    | some p => s.takeReport p
    | none => body)
  | ids => stallOn (.regs ids) s

/-- The prologue of a word with operands: illegal instruction, register range, the scoreboard, a poison report, then the
word's own effect (02 R47; 04 R97; 08 R231). -/
def guardOps (s : State) (f : OpndsOf) (body : State → Res) : Res :=
  let g := s.gang
  if g.illegalFor f then illegal s
  else if g.rangeFor f then trapNow { cause := 0x02 } s
  else if g.waitsFor f then stallOn (.regs (g.pend.map (·.id))) s
  else match g.poisonFor f with
    | some p => s.takeReport p
    | none => body s

/-- Operands that do not depend on MODE. -/
def fixedOps (os : List Opnd) : OpndsOf := fun _ => some os

/-- Operands that depend on the etype; none where it is not in the accepted set. -/
def etypeOps (accepted : Nat → Bool) (os : Nat → List Opnd) : OpndsOf :=
  fun m => if accepted (modeEtype m) then some (os (modeEtype m)) else none

/-- Width of a V field under an etype (05 R124, 06 R156). -/
def vwidth (t : Nat) : Nat := if etypeWide t then 64 else 32

/-- Etype of lane l's slice. -/
def Gang.et (g : Gang) (l : Nat) : Nat := modeEtype (g.mode (l / 4))

/-- The fields of MODE of lane l's slice that shape results. -/
def Gang.fmode (g : Gang) (l : Nat) : FMode :=
  let m := g.mode (l / 4)
  { round := modeRound m, sat := modeSat m, ftz := modeFtz m }

/-- The next state: the gang changed by `f`, then past the word. -/
def finishWith (s : State) (f : Gang → Gang) : Res := .next (s.updGang (fun g => (f g).advance))

end Sys2Proof.Machine
end

