-- ==== Sys2Proof/Machine/Flags.lean ====
section
/-! DEFINITION. The sticky flags FPF and the floating-point exception trap (06 R151, R152). -/

namespace Sys2Proof.Machine

/-- Every flag raised in a lane of Active(). -/
def laneFlags (g : Gang) (fl : Nat → Nat) : Nat := g.activeList.foldl (fun a l => a ||| fl l) 0

/-- Set flags in FPF: no instruction but flclr clears a bit (R151). -/
def Gang.raiseFlags (g : Gang) (fl : Nat) : Gang :=
  { g with regs := { g.regs with fpf := g.regs.fpf ||| BitVec.ofNat 5 fl } }

/-- The lanes that trap: fpx is 1 in the lane's slice, and NV, DZ or OF is raised there (R152). -/
def Gang.trapping (g : Gang) (fl : Nat → Nat) : Word :=
  laneMask (fun l => g.active l && modeFpx (g.mode (l / 4)) && decide (fl l % 8 ≠ 0))

/-- The end of an instruction that raises flags: FPF takes them; with a trapping lane nothing is written and the
floating-point exception trap is taken; otherwise the result is written (R151, R152). -/
def floatFinish (s : State) (fl : Nat → Nat) (commit : Gang → Gang) : Res :=
  let g := s.gang
  let all := laneFlags g fl
  let s1 := s.updGang (fun g => g.raiseFlags all)
  if g.trapping fl = 0 then finishWith s1 commit
  else trapNow { cause := 0x0A, lanes := g.trapping fl, aux := BitVec.ofNat 32 all } s1

end Sys2Proof.Machine
end

