-- ==== Sys2Proof/Machine/Access.lean ====
section
/-! DEFINITION. Memory instructions as a whole: address checks (07 R170 to R179), translation lane by lane and parking
(09 R243 to R246), loads, stores and atomics at their places (07 R183, R184; 08 R218), releases and acquires (08 R219,
R220, R224), and messages to other devices with their poison reports (08 R230, R231; 18 R443). -/

namespace Sys2Proof.Machine

/-! ### Releases and acquires (08 R219, R220) -/

/-- A pending poisoned store that a release or fence of scope `sc` reports (08 R230). No address map of the spec names host
memory, so every store is one of the domain: dom and sys report alike (log entry 89, DEDUCED). -/
def Gang.releaseReport (g : Gang) (sc : Nat) : Option Report :=
  g.reports.find? (fun r => match r.relScope with
    | some m => decide (m ≤ sc)
    | none => false)

/-- A release at scope `sc` (08 R219, R230): what replaces it, a report or a wait, or the state after its actions. From dom
scope on the write-backs to other devices have been acknowledged. -/
def State.release (s : State) (sc : Nat) : Except Res State :=
  let g := s.gang
  match g.releaseReport sc with
  | some p => .error (s.takeReport p)
  | none =>
    if !(g.releaseWaits sc).isEmpty then .error (stallOn (.ops (g.releaseWaits sc)) s)
    else
      let t := s.releaseActs g.core sc
      if 5 ≤ sc && !(t.flushing g.core).isEmpty then .error (stallOn (.answers (t.flushing g.core)) t) else .ok t

/-- An instruction whose effect follows a release. -/
def withRelease (s : State) (sc : Nat) (body : State → Res) : Res :=
  match s.release sc with
  | .error r => r
  | .ok t => body t

/-- The report that a release which performs late takes as it issues. A store found poisoned while the release waits is
reported at the next release of that scope (08 R219, R222, R230) (log entry 90, DEDUCED). -/
def reportOr (s : State) (sc : Nat) (body : Res) : Res :=
  match s.gang.releaseReport sc with
  | some p => s.takeReport p
  | none => body

/-- A release at scope `sc` performs as it issues: it waits for nothing, and no write-back to another device has to be
acknowledged (08 R219). -/
def State.releasesNow (s : State) (sc : Nat) : Bool :=
  (s.gang.releaseWaits sc).isEmpty &&
    (decide (sc < 5) || ((s.releaseActs s.gang.core sc).flushing s.gang.core).isEmpty)

/-! ### Holds (08 R220 to R222, R229) -/

/-- What holds operations on the paths of a set: bits 0 to 5 as 02 R52, bit 6 for the other memory, expand and remote
instructions. -/
def Gang.heldBy (g : Gang) (paths : Nat) : List Nat := (g.holds.filter (fun h => decide (h.paths &&& paths ≠ 0))).map (·.id)

/-- An instruction that issues operations on paths of a set waits while they are held. -/
def heldOr (paths : Nat) (s : State) (body : Res) : Res :=
  match s.gang.heldBy paths with
  | [] => body
  | ids => stallOn (.ops ids) s

/-- An event of an engine also follows the accesses and releases of its gang that perform late (08 R213, R225). -/
def engineOr (paths : Nat) (s : State) (body : Res) : Res :=
  match s.gang.lateAccesses with
  | [] => heldOr paths s body
  | ids => stallOn (.ops ids) s

/-! ### Addresses -/

/-- The form of a memory access. -/
structure Form where
  acc : Acc
  size : Nat
  sp : Nat
  /-- 0 LD, 1 ST. -/
  path : Nat
  /-- Rights the access tables ask for (18 R441). -/
  rights : Nat := acc.rights
  /-- Counted by the reuse clock (07 R190). -/
  ticks : Bool := true
deriving DecidableEq, Repr

/-- Where a lane's address lies. -/
inductive Place where
  | glob (va : Nat)
  | tile (core : Nat) (t : Tile) (off : Nat)
deriving DecidableEq, Repr

/-- Why an address is refused before any lane performs (07 R170, R171, R176). -/
inductive PlaceFault where
  | nonCanonical
  | bounds
  | tile (sub h : Nat)
deriving DecidableEq, Repr

/-- The workgroup of a neighbourhood index (07 R170, 17 R428). -/
def State.neighbour (s : State) (w : Workgroup) (i : Nat) : Option Nat :=
  if w.nbh.isNone then none
  else (s.wgs.find? (fun e => e.2.live && decide (e.2.nbhId = w.nbhId) && decide (e.2.nbh = some i))).map (·.1)

/-- The place an address pair names for lane `l`, or its first fault (07 R170, R171, R176). -/
def State.place (s : State) (sp size : Nat) (x : DWord) (l : Nat) : Except PlaceFault Place :=
  let g := s.gang
  let w := s.wg
  let va := x.toNat
  if sp < 2 then
    if !canonical va then .error (if sp = 0 then .nonCanonical else .bounds)
    else if inAperture va then
      (if va % 2 ^ 48 + size ≤ w.z then .ok (.glob (globalOf w g.num l va)) else .error .bounds)
    else if sp = 1 then .error .bounds
    else .ok (.glob va)
  else
    let hi := va / 2 ^ 32
    let h := hi % 64
    let reserved := if sp = 2 then hi / 64 else hi / 8192 + field hi 6 2
    let owner := if sp = 2 then some g.wid else s.neighbour w (field hi 8 5)
    if reserved ≠ 0 then .error (.tile 5 h)
    else match owner with
      | none => .error (.tile 3 h)
      | some wid =>
        match (s.wgAt wid).tile h with
        | none => .error (.tile 0 h)
        | some t =>
          if t.level ≠ 0 then .error (.tile 1 h)
          else if t.extent < va % 2 ^ 32 * size + size then .error (.tile 2 h)
          else .ok (.tile (coreOfWid wid) t (va % 2 ^ 32 * size))

/-- The lanes of a memory instruction: Active(), or its unfinished lanes when it is replayed (04 R115, 09 R245). -/
def Gang.memLane (g : Gang) (l : Nat) : Bool :=
  g.active l && (!g.replaying || g.trap.unfinished.getLsbD l)

/-- The lanes as a list. -/
def Gang.memLanes (g : Gang) : List Nat := (List.range 32).filter g.memLane

/-- The next-use code of an FM word in lane `l`: 62 takes the MODE.nu of the lane's slice (07 R189). -/
def Gang.nuCode (g : Gang) (n l : Nat) : Nat := if n = 62 then modeNu (g.mode (l / 4)) else n

/-- Order of the sub-causes of a tile bounds fault (07 R176). -/
def tileRank (sub : Nat) : Nat := if sub = 5 then 0 else sub + 1

/-- The fault of the checks of R179 over the lanes, if any: misalignment, non-canonical, private bounds, tile bounds;
the record's address is the lowest lane's (16 R387), and its lane mask the lanes that fail the same check (log entry 14,
DEDUCED). -/
def State.placeFault (s : State) (f : Form) (lanes : List Nat) (addr : Nat → DWord) : Option TrapReq :=
  let mask := fun (ls : List Nat) => laneMask (fun l => ls.contains l)
  let mis := lanes.filter (fun l => decide (f.sp < 2) && decide ((addr l).toNat % f.size ≠ 0))
  let pf : Nat → Option PlaceFault := fun l => match s.place f.sp f.size (addr l) l with
    | .error e => some e
    | .ok _ => none
  let nc := lanes.filter (fun l => decide (pf l = some .nonCanonical))
  let pb := lanes.filter (fun l => decide (pf l = some .bounds))
  let tb := lanes.filterMap (fun l => match pf l with
    | some (.tile sub h) => some (l, sub, h)
    | _ => none)
  match mis, nc, pb, tb with
  | l :: _, _, _, _ => some { cause := 0x0B, lanes := mask mis, addr := addr l }
  | [], l :: _, _, _ => some { cause := 0x0C, lanes := mask nc, addr := addr l }
  | [], [], l :: _, _ => some { cause := 0x0D, lanes := mask pb, addr := addr l }
  | [], [], [], t :: ts =>
    let best := ts.foldl (fun b c => if tileRank c.2.1 < tileRank b.2.1 then c else b) t
    some { cause := 0x0E, sub := best.2.1, lanes := mask (tb.map (·.1)), aux := BitVec.ofNat 32 best.2.2 }
  | [], [], [], [] => none

/-! ### Translation of the lanes -/

/-- The translated lanes, and the lanes that fault with cause and address. -/
structure Lanes where
  ok : List (Nat × Target)
  faults : List (Nat × Nat × Nat)

/-- Translate the lanes in lane order (07 R178, R179; 09 R234). -/
def translateLanes (f : Form) : List (Nat × Place) → State → State × Lanes
  | [], s => (s, { ok := [], faults := [] })
  | (l, .tile core t off) :: ps, s =>
    let r := translateLanes f ps s
    (r.1, { r.2 with ok := (l, .tile core t off) :: r.2.ok })
  | (l, .glob va) :: ps, s =>
    match s.xlate s.wg.part s.gang.core s.wg.pasid va f.acc with
    | .error c =>
      let r := translateLanes f ps s
      (r.1, { r.2 with faults := (l, c, va) :: r.2.faults })
    | .ok (s, x) =>
      let t := match s.reach s.wg.part f.rights x with
        | .here a pg => Target.mem a pg
        | .away pa pg => .remote pa pg
        | .refused o pa => .refused o pa
        | .bad a => .bad a
      let r := translateLanes f ps s
      (r.1, { r.2 with ok := (l, t) :: r.2.ok })

/-- Every advance of a workgroup's reuse clock: one tick, and the count starts again (07 R190). -/
def Workgroup.tickOnce (w : Workgroup) : Workgroup := { w with rclock := w.rclock + 1, mcount := 0 }

/-- Count a memory instruction of spaces 0 and 1; REUSE_CLOCK_ADVANCE follows at 65,536 (07 R190). -/
def Workgroup.countMem (w : Workgroup) : Workgroup := { w with mcount := w.mcount + 1 }

/-- The instruction counts for R190. -/
def State.countMem (s : State) (f : Form) : State := if f.ticks && decide (f.sp < 2) then s.updWg Workgroup.countMem else s

/-! ### The common flow of a memory instruction -/

/-- The lanes of a refused or bad target, with their addresses. -/
def refusedOf (ts : List (Nat × Target)) : List (Nat × Option Nat × Nat) :=
  ts.filterMap (fun t => match t.2 with
    | .refused o pa => some (t.1, o, pa)
    | _ => none)

/-- The lanes that read a poisoned line. -/
def badOf (ts : List (Nat × Target)) : List (Nat × Nat) :=
  ts.filterMap (fun t => match t.2 with
    | .bad a => some (t.1, a)
    | _ => none)

/-- After the lanes: reports and alarms for refused and poisoned lanes (08 R230, 18 R443, 19 R455, 13 R334). -/
def State.afterLanes (s : State) (path rights : Nat) (regs : List Nat) (id : Nat) (ts : List (Nat × Target)) : State :=
  let rf := refusedOf ts
  let bd := badOf ts
  let opc := s.opcOf id
  let s := match rf with
    | [] => s
    | r :: _ => (s.reportPoison id path regs (laneMask (fun l => rf.any (fun x => decide (x.1 = l)))) s.devid 1 r.2.2 opc)
  let s := alarmOwners (alarmKind rights) (rf.map (fun x => (x.2.1, x.2.2))) [] s
  match bd with
  | [] => s
  | _ => { s with alarms := s.alarms ++ [(1, s.wg.pasid, s.wg.part)] }

/-- The paths on which the accesses of a form count (08 R212, R229). -/
def Form.paths (f : Form) : Nat := if f.acc matches .atomic then 3 else 2 ^ f.path

/-- The lanes of an instruction perform, those that perform late are kept, and its operation has performed when nothing of
it is under way (08 R219, R220). -/
def State.runLanes (s : State) (f : Form) (e : Effect) (id : Nat) (ts : List (Nat × Target)) : State :=
  let s := (performLanes e id (ts.filter (fun t => e.now || t.2.stopped)) s).afterLanes f.path f.rights e.regs id ts
  let s := match e.late id ts with
    | some o => s.updGang (fun g => { g with
        late := g.late ++ [o]
        pend := g.pend ++ (match o.kind with
          | .load d n _ => (dataRegs d n).map (fun r => { id := id, reg := r, lanes := laneMask (fun l => o.lanes.any (fun x => x.lane == l)) })
          | _ => []) })
    | none => s
  let s := e.after id s
  if ts.any (fun t => t.2.far) then s.settle s.cur id else s

/-- The flow of every counted or Barn access (07 R178, R179; 02 R52; 09 R244): checks, the counter's limit, translation,
the lanes in order; then past the word, or parked with the lanes that fault. -/
def memFlow (s : State) (f : Form) (a : Code) (e : Effect) : Res :=
  let g := s.gang
  let lanes := g.memLanes
  let addr := s.vsrc64 a
  heldOr f.paths s (match s.placeFault f lanes addr with
    | some t => trapNow t s
    | none =>
      if f.sp ≠ 2 && decide (63 ≤ g.counter f.path) then stallOn (.path f.path 62) s
      else
        let places := lanes.filterMap (fun l => match s.place f.sp f.size (addr l) l with
          | .ok p => some (l, p)
          | .error _ => none)
        let r := translateLanes f places (e.before (s.countMem f))
        let id := r.1.nextId
        let s1 := { r.1 with nextId := id + 1 }
        if !(g.lateOn r.2.ok).isEmpty then stallOn (.ops (g.lateOn r.2.ok)) s
        else if !(e.push s r.2.ok).isEmpty then stallOn (.pushed (e.push s r.2.ok)) s
        else
          let perf := !r.2.ok.any (fun t => t.2.far) && (e.late id r.2.ok).isNone
          let count := decide (f.sp ≠ 2) && (!r.2.ok.isEmpty || r.2.faults.isEmpty)
          let s2 := if count then s1.updGang (fun g => g.raise f.path id perf) else s1
          let s3 := s2.runLanes f e id r.2.ok
          match r.2.faults with
          | [] => .next ((s3.updGang Gang.finishReplay).advance)
          | (_, c, va) :: _ =>
            let left := laneMask (fun l => r.2.faults.any (fun x => decide (x.1 = l)))
            .next (s3.park 0 c f.acc va left left))

/-! ### Loads, stores -/

/-- The data of lane `l` of a store: the low bytes of the data field (07 R177; 02 R482). -/
def State.storeData (s : State) (d : Code) (size l : Nat) : Nat :=
  (if size ≤ 4 then (s.vsrc32 d l).toNat
   else ((List.range (size / 4)).map (fun i => (s.vword d l i).toNat * 2 ^ (32 * i))).sum) % 256 ^ size

/-- The parts of an access that perform as it issues: of a 16-byte one the lower alone, when its halves perform apart. -/
def partsNow (halves : Bool) (size : Nat) : List (Nat × Nat × Nat) := (accessParts size).take (if halves then 1 else 2)

/-- The lanes of an operation that performs late, with what each stores, where it can perform at all. -/
def lateLanes (ts : List (Nat × Target)) (shift : Nat) (code v : Nat → Nat) : List LateLane :=
  (ts.filter (fun t => !t.2.stopped)).map (fun t =>
    { lane := t.1, target := t.2.shift shift, value := v t.1, code := code t.1, lock := none })

/-- The same at a pace: as it issues, or wholly or in its upper half at a later turn (08 R213 item 3, 07 R180)
(log entry 83, DEDUCED). -/
def pacedLoad (pace : Pace) (d : Code) (size : Nat) (signed : Bool) (code : Nat → Nat) : Effect :=
  match pace with
  | .now => loadEffect d size signed code
  | .late => { loadEffect d size signed code with
      now := false
      late := fun id ts => some { id := id, kind := .load d size signed, path := 0, after := []
                                  lanes := lateLanes ts 0 code (fun _ => 0) } }
  | .halves =>
    if size = 16 then { loadParts (partsNow true 16) d 16 signed code with
      late := fun id ts => some { id := id, kind := .load (codeAfter d 2) 8 signed, path := 0, after := []
                                  lanes := lateLanes ts 8 code (fun _ => 0) } }
    else loadEffect d size signed code

/-- The same at a pace. -/
def pacedStore (pace : Pace) (size : Nat) (code v : Nat → Nat) : Effect :=
  if pace = .halves && decide (size = 16) then { storeParts (partsNow true 16) code v with
    late := fun id ts => some { id := id, kind := .store 8, path := 1, after := []
                                lanes := lateLanes ts 8 code (fun l => v l / 2 ^ 64) } }
  else storeEffect size code v

/-- A plain load instruction (07 R177, R178). -/
def loadInstr (s : State) (d a : Code) (n sp size : Nat) (signed : Bool) : Res :=
  guardOps s (fixedOps [.vw (max 32 (8 * size)) d, .vr 64 a]) (fun s =>
    memFlow s { acc := .read, size := size, sp := sp, path := 0 } a (pacedLoad s.pace d size signed (s.gang.nuCode n)))

/-- A plain store instruction (07 R177, R178). -/
def storeInstr (s : State) (d a : Code) (n sp size : Nat) : Res :=
  guardOps s (fixedOps [.vr (max 32 (8 * size)) d, .vr 64 a]) (fun s =>
    memFlow s { acc := .write, size := size, sp := sp, path := 1 } a
      (pacedStore s.pace size (s.gang.nuCode n) (fun l => s.storeData d size l)))

/-! ### Ordered forms -/

/-- An acquire at scope `sc` whose operation `id` is under way holds the gang's later accesses; one that has completed acts
at once (08 R220, R222). -/
def State.acquireAfter (s : State) (id sc : Nat) : State :=
  if s.gang.waitsOn [id] then
    s.updGang (fun g => { g with holds := g.holds ++ [{ id := id, paths := 0x7F, scope := some sc }] })
  else s.acquireActs s.gang.core sc

/-- ld.acq at a place: below nbh scope as a plain load; wider, at the home slice, after the core's own dirty bytes of the
line are written back (08 R220; log entry 15, DEDUCED). -/
def State.acquireLoad (s : State) (size code sc : Nat) (rem_ : Bool) (t : Target) : State × Nat :=
  match t with
  | .mem a _ =>
    if sc < 3 then s.loadAt size code t
    else
      let s := s.writeBack s.gang.core (a / 128)
      let s := if rem_ then s.pushPromo (a / 128) s.gang.core else s
      (s, s.readHome a size)
  | t => s.loadAt size code t

/-- The effect of ld.acq: of a line of another device at nbh scope or wider, a read of its home slice. -/
def acquireEffect (d : Code) (size sc : Nat) (rem_ : Bool) (code : Nat → Nat) : Effect :=
  let e := loadEffect d size false code
  { e with
    act := fun _ s l t =>
      let v := s.acquireLoad size (code l) sc rem_ t
      v.1.updGang (fun g => g.putLoad d size false l v.2)
    request := fun s l pa pg =>
      if sc < 3 then e.request s l pa pg else [{ Msg.blank with kind := .read size, reg := d.toNat }]
    prep := fun s l pa pg =>
      if sc < 3 then e.prep s l pa pg
      else
        let s := s.writeBack s.gang.core (farLine pa)
        if rem_ then s.pushPromo (farLine pa) s.gang.core else s
    push := fun s ts =>
      if rem_ then (ts.map (fun t => (t.2.l1.map (fun line => s.pushWaits line s.gang.core)).getD [])).flatten else []
    after := fun id s => s.acquireAfter id sc }

/-- Enter an address into the lock list: no duplicates, four entries, the oldest dropped (04 R103). -/
def lockEnter (ls : List LockEntry) (addr space since : Nat) : List LockEntry :=
  let a := addr / 8 * 8
  if ls.any (fun e => decide (e.addr = a) && decide (e.space = space)) then ls
  else (if 4 ≤ ls.length then ls.drop 1 else ls) ++ [{ addr := a, space := space, since := since }]

/-! ### Atomics (07 R182 to R184) -/

/-- The operations of the table of R182. -/
inductive AtomOp where
  | add | fadd | min | max | and | or | xor | xchg | cas
deriving DecidableEq, Repr

/-- Code of an operation in a message. -/
def AtomOp.code : AtomOp → Nat
  | .add => 0 | .fadd => 1 | .min => 2 | .max => 3 | .and => 4 | .or => 5 | .xor => 6 | .xchg => 7 | .cas => 8

/-- The new value (R182, R183): `m` old, `x` operand, `c` compare operand; signedness for min and max. -/
def atomNew (op : AtomOp) (size : Nat) (signed : Bool) (m x c : Nat) : Nat :=
  let w := 8 * size
  let key := fun v => if signed then signedOf w v else ((v % 2 ^ w : Nat) : Int)
  match op with
  | .add => (m + x) % 2 ^ w
  | .fadd =>
    let t := if size = 8 then 0 else 1
    (fopElem .add t { round := 0, sat := false, ftz := false } m x 0).1
  | .min => if key x < key m then x else m
  | .max => if key m < key x then x else m
  | .and => m &&& x
  | .or => m ||| x
  | .xor => m ^^^ x
  | .xchg => x
  | .cas => if m = c then x else m

/-- An atomic's read and write at a place: the old value (07 R184). -/
def State.atomicAt (s : State) (size code sc : Nat) (f : Nat → Nat) (t : Target) : State × Nat :=
  match t with
  | .mem a lw =>
    let core := s.gang.core
    if sc < 3 then
      let r := s.plainLoad core s.gang.wid a size code lw
      (r.1.l1Store core s.gang.wid a size (f r.2) code lw, r.2)
    else
      let s := s.flushLine core (a / 128)
      let m := s.readHome a size
      (s.writeHomeNum a size (f m), m)
  | .tile core t off =>
    let s := (s.drainQueues core).drainQueues s.gang.core
    let m := s.tileRead core core t off size
    (s.tileBankWrite core t off (bytesLE size (f m)), m)
  | _ => (s, 0)

end Sys2Proof.Machine
end

