-- ==== Sys2Proof/Machine/Control.lean ====
section
/-! DEFINITION. Control, gang and predicate instructions, opcodes 0x01 to 0x29 (03 R67 to R96, 06 R153). -/

namespace Sys2Proof.Machine

/-! ### Branches (R71, R73) -/

/-- The PC plus 4 times a signed offset (R71), modulo 2^56 (log entry 88, DESIGN CHOICE). -/
def branchTarget (pc : PcVal) (off : Int) : PcVal := pc + BitVec.ofInt 56 (4 * off)

/-- Slice k takes the branch (R71). -/
def Gang.takes (g : Gang) (kind pred sense k : Nat) : Bool :=
  match kind with
  | 0 => (List.range 4).any (fun i => g.execBit (4 * k + i) && (g.p pred (4 * k + i) == decide (sense = 0)))
  | 1 => decide (g.execPart k = 0)
  | 2 => decide (g.execPart k ≠ 0)
  | _ => true

/-- br (R71): each slice decides; the group divides by new PC. -/
def execBr (p : BitVec 5) (sn : BitVec 1) (k : BitVec 2) (o : BitVec 16) (s : State) : Res :=
  if (k = 0 && decide (24 ≤ p.toNat)) || (k ≠ 0 && (p ≠ 0 || sn ≠ 0)) then illegal s
  else
    let g := s.gang
    .next (s.setGang (g.divide (fun i =>
      if g.takes k.toNat p.toNat sn.toNat i then branchTarget g.pcNow o.toInt else g.pcNow + 4)))

/-- A 64-bit target is no instruction address (R73). -/
def badTarget (t : DWord) : Bool := decide (2 ^ 56 ≤ t.toNat) || decide (t.toNat % 4 ≠ 0)

/-- The first issuing slice whose target is bad. -/
def Gang.firstBad (g : Gang) (t : Nat → DWord) : Option DWord :=
  (g.issuingList.find? (fun k => badTarget (t k))).map t

/-- brx (R73). -/
def execBrx (a : Code) (s : State) : Res :=
  guardOps s (fixedOps [.so 64 a]) (fun s =>
    let g := s.gang
    match g.firstBad (s.ssrc64 a) with
    | some t => trapNow { cause := 0x04, addr := t } s
    | none => .next (s.setGang (g.divide (fun k => (s.ssrc64 a k).setWidth 56))))

/-! ### Calls and the return stack (R74 to R76) -/

/-- Address of spilled group `k` of a slice: the highest 1,024 bytes of the slot of lane 4s (R74). -/
def State.spillAt (s : State) (slice k : Nat) : Nat :=
  slotBase s.wg s.gang.num (4 * slice) + s.wg.z - 32 * (k + 1)

/-- A spill or refill that the memory turns away (R76), as an access of lane 4s: nothing of the gang has changed. -/
def State.spillFault (s : State) (slice : Nat) (acc : Acc) (e : RunStop) : Res :=
  s.runStop (laneMask (fun l => decide (l = 4 * slice))) acc 61 e

/-- A run of spilled entries follows what the gang has issued on its lines and not performed (program order of one location,
08 R213): until then the instruction waits. -/
def runOr {α : Type} (s : State) (va : Nat) (acc : Acc) (body : Except Res α) : Except Res α :=
  match s.lateOnRun va 32 acc with
  | [] => body
  | ids => .error (stallOn (.ops ids) s)

/-- The checks and spills of call and callx, slice by slice (R75). `s0` is the state at issue. -/
def callSpills (s0 : State) (t : Nat → DWord) : List Nat → State → Except Res State
  | [], s => .ok s
  | k :: ks, s =>
    if badTarget (t k) then .error (trapNow { cause := 0x04, addr := t k } s0)
    else
      let r := s.gang.rst k
      if r.entries.length < 8 then callSpills s0 t ks s
      else if 32 ≤ r.spilled then .error (trapNow { cause := 0x05 } s0)
      else
        let w := s.wg
        let bytes := ((r.entries.take 4).map (fun e => bytesLE 8 e.toNat)).flatten
        runOr s0 (s.spillAt k r.spilled) .write (
          match s.gangStoreRun s.gang.core s.gang.wid w.part w.pasid 61 [bytes] (s.spillAt k r.spilled) with
          | .error e => .error (s0.spillFault k .write e)
          | .ok s => callSpills s0 t ks s)

/-- Push a return address; a full stack has spilled its four oldest entries (R75). -/
def RetStack.push (r : RetStack) (x : DWord) : RetStack :=
  if r.entries.length < 8 then { r with entries := r.entries ++ [x] }
  else { entries := r.entries.drop 4 ++ [x], spilled := r.spilled + 1 }

/-- Set the return stacks of the issuing slices. -/
def Gang.setRsts (g : Gang) (f : Nat → RetStack) : Gang :=
  g.issuingList.foldl (fun g k => g.setRst k (f k)) g

/-- call and callx with targets `t` (R75). -/
def State.callTo (s : State) (t : Nat → DWord) : Res :=
  match callSpills s t s.gang.issuingList s with
  | .error r => r
  | .ok s' =>
    let g := s.gang
    .next (s'.updGang (fun h => (h.setRsts (fun k => (g.rst k).push ((g.pcNow + 4).setWidth 64))).divide
      (fun k => (t k).setWidth 56)))

/-- call (R75). -/
def execCall (i : BitVec 24) (s : State) : Res :=
  s.callTo (fun _ => (branchTarget s.gang.pcNow i.toInt).setWidth 64)

/-- callx (R75). -/
def execCallx (a : Code) (s : State) : Res :=
  guardOps s (fixedOps [.so 64 a]) (fun s => s.callTo (s.ssrc64 a))

/-- The refills and checks of ret, slice by slice: the return stacks after the pop, and the targets (R75). -/
def retRefills (s0 : State) : List Nat → State → Except Res (State × List (Nat × RetStack × DWord))
  | [], s => .ok (s, [])
  | k :: ks, s =>
    let r := s.gang.rst k
    let w := s.wg
    let go := fun (s : State) (entries : List DWord) (spilled : Nat) =>
      let e := entries.getLastD 0
      if badTarget e then .error (trapNow { cause := 0x04, addr := e } s0)
      else match retRefills s0 ks s with
        | .error x => .error x
        | .ok (s, rs) => .ok (s, (k, { entries := entries.dropLast, spilled := spilled }, e) :: rs)
    if r.entries.isEmpty then
      if r.spilled = 0 then .error (trapNow { cause := 0x06 } s0)
      else runOr s0 (s.spillAt k (r.spilled - 1)) .read (
        match s.gangLoadRun s.gang.core s.gang.wid w.part w.pasid 61 [32] (s.spillAt k (r.spilled - 1)) with
        | .error e => .error (s0.spillFault k .read e)
        | .ok (s, bs) =>
          go s ((List.range 4).map (fun i => BitVec.ofNat 64 (ofBytesLE ((bs.drop (8 * i)).take 8)))) (r.spilled - 1))
    else go s r.entries r.spilled

/-- ret (R75). -/
def execRet (s : State) : Res :=
  match retRefills s s.gang.issuingList s with
  | .error r => r
  | .ok (s', rs) =>
    .next (s'.updGang (fun g =>
      (rs.foldl (fun g e => g.setRst e.1 e.2.1) g).divide (fun k =>
        match rs.find? (fun e => decide (e.1 = k)) with
        | some e => e.2.2.setWidth 56
        | none => g.pcNow)))

/-! ### Rejoining and exit (R77 to R79) -/

/-- The issuing slices wait at this regang with its mask. -/
def Gang.waitHere (g : Gang) (mask : BitVec 8) : Gang :=
  { g with flow := { g.flow with
      waiting := g.flow.waiting ||| BitVec.ofNat 8 g.issuingMask
      wmask := g.issuingList.foldl (fun m k => mapSet 0 m k mask) g.flow.wmask } }

/-- regang (R77, R78): wait; merge at once when the condition holds; otherwise look for a deadlock. -/
def execRegang (m : Code) (s : State) : Res :=
  let x := s.gang.pcNow
  let g := (s.gang.keepWord s.ir).waitHere m
  if g.mergesAt x then .next (s.setGang (g.mergeAt x)) else .next ((s.setGang g).checkRegang)

/-- The issuing slices have exited at this word (R79, 16 R391). -/
def Gang.exitHere (g : Gang) : Gang :=
  let left := g.flow.exited ||| BitVec.ofNat 8 g.issuingMask
  { g with
    flow := { g.flow with exited := left }
    exitPc := g.issuingList.foldl (fun m k => mapSet 0 m k g.pcNow) g.exitPc }

/-- exit (R79): the exit of the last slice first reports pending poison (08 R230). -/
def execExit (s : State) : Res :=
  let g := s.gang
  match g.whole, g.reports with
  | true, p :: _ => s.takeReport p
  | _, _ => .next ((s.setGang g.exitHere).checkRegang)

/-! ### Hints (R95) -/

/-- nop (R95). -/
def execNop (s : State) : Res := .next s.advance

/-- A gang moves to the last place of its ring's current rotation: directly before the gang that issued last (04 R99)
(log entry 102, DEDUCED). -/
def State.ringLast (s : State) (key : Nat) : State :=
  let g := s.gangAt key
  s.updCore g.core (fun c =>
    let r := mapGet [] c.ring g.lg
    let rest := r.filter (fun k => decide (k ≠ key))
    { c with ring :=
        if !r.contains key || decide (mapFind g.lg c.herdPtr = some key) then c.ring
        else match rest.findIdx? (fun k => decide (some k = mapFind g.lg c.herdPtr)) with
          | some i => mapPut g.lg (rest.take i ++ key :: rest.drop i) c.ring
          | none => mapPut g.lg (rest ++ [key]) c.ring })

/-- yield ends the turn of the fetch slot (R95, R68): the count is at its bound; and the gang goes to the last place of the
herd's rotation (04 R99). -/
def execYield (s : State) : Res :=
  .next ((s.updGang (fun g => { g.advance with flow := { g.advance.flow with count := 16 } })).ringLast s.cur)

/-- promo: the hint is kept for the promotion evaluation (R95, 04 R102). -/
def execPromo (s : State) : Res :=
  .next (s.updGang (fun g => { g.advance with hint := some s.clock.toNat }))

/-- promo demote: the gang leaves its seat unless it holds a lock (R95, 04 R109). -/
def execPromoDemote (s : State) : Res :=
  .next ((if s.gang.locks.isEmpty then s.leaveSeat s.cur else s).advance)

/-! ### Predicate logic (R81) -/

/-- A predicate form on the lanes of Active(). -/
def predForm (s : State) (d : Code) (srcs : List Opnd) (f : State → Nat → Bool) : Res :=
  guardOps s (fixedOps (.pw d :: srcs)) (fun s => finishWith s (fun g => g.putP d s.gang.active (f s)))

/-- pand (R81). -/
def execPand (d a b : Code) (s : State) : Res :=
  predForm s d [.pr a, .pr b] (fun s l => s.gang.psrc a l && s.gang.psrc b l)
/-- por (R81). -/
def execPor (d a b : Code) (s : State) : Res :=
  predForm s d [.pr a, .pr b] (fun s l => s.gang.psrc a l || s.gang.psrc b l)
/-- pxor (R81). -/
def execPxor (d a b : Code) (s : State) : Res :=
  predForm s d [.pr a, .pr b] (fun s l => s.gang.psrc a l != s.gang.psrc b l)
/-- pnot (R81). -/
def execPnot (d a : Code) (s : State) : Res :=
  predForm s d [.pr a] (fun s l => !s.gang.psrc a l)
/-- psets (R81). -/
def execPsets (d a : Code) (s : State) : Res :=
  predForm s d [.sr 32 a] (fun s l => (s.ssrc a (l / 4)).getLsbD l)

/-! ### EXEC (R80) -/

/-- exsave (R80). -/
def execExsave (d : Code) (s : State) : Res :=
  guardOps s (fixedOps [.sw 32 d]) (fun s => finishWith s (fun g => g.putSAll d s.gang.regs.exec))

/-- Write EXEC in the lanes of the issuing slices. -/
def Gang.setExec (g : Gang) (f : Nat → Bool) : Gang :=
  { g with regs := { g.regs with exec := laneMask (fun l => if g.issuing (l / 4) then f l else g.execBit l) } }

/-- exand (R80). -/
def execExand (d a : Code) (b : BitVec 1) (s : State) : Res :=
  guardOps s (fixedOps [.sw 32 d, .pr a]) (fun s =>
    let g := s.gang
    finishWith s (fun h => (h.setExec (fun l => g.execBit l && (g.psrc a l == decide (b = 0)))).putSAll d g.regs.exec))

/-- exload (R80). -/
def execExload (a : Code) (s : State) : Res :=
  guardOps s (fixedOps [.sr 32 a]) (fun s =>
    finishWith s (fun h => h.setExec (fun l => (s.ssrc a (l / 4)).getLsbD l)))

/-! ### Gang operations (R82 to R85) -/

/-- The mask of the lanes of Active() whose predicate is 1 (R83). -/
def Gang.ballotMask (g : Gang) (a : Code) : Word := laneMask (fun l => g.active l && g.psrc a l)

/-- The mask of Active(). -/
def Gang.activeMask (g : Gang) : Word := laneMask g.active

/-- ballot (R83). -/
def execBallot (d a : Code) (s : State) : Res :=
  guardOps s (fixedOps [.sw 32 d, .pr a]) (fun s => finishWith s (fun g => g.putSAll d (s.gang.ballotMask a)))

/-- popc (R83). -/
def execPopc (d a : Code) (s : State) : Res :=
  guardOps s (fixedOps [.sw 32 d, .pr a]) (fun s =>
    finishWith s (fun g => g.putSAll d (BitVec.ofNat 32 (popCount (s.gang.ballotMask a).toNat 32))))

/-- vote (R83): 0 any, 1 all, 2 uni. -/
def execVote (d a : Code) (b : BitVec 2) (s : State) : Res :=
  if b = 3 then illegal s
  else guardOps s (fixedOps [.pw d, .pr a]) (fun s =>
    let g := s.gang
    let m := g.ballotMask a
    let any := decide (m ≠ 0)
    let all := decide (m = g.activeMask)
    finishWith s (fun h => h.putP d g.active (fun _ => match b.toNat with
      | 0 => any
      | 1 => all
      | _ => all || !any)))

/-- mpfx (R83). -/
def execMpfx (d a : Code) (s : State) : Res :=
  guardOps s (fixedOps [.vw 32 d, .pr a]) (fun s =>
    let g := s.gang
    finishWith s (fun h => h.putV32 d g.active (fun l => BitVec.ofNat 32 (popCount (g.ballotMask a).toNat l))))

/-- The issuing slices hold one value of a field of MODE (R85). -/
def Gang.sameMode (g : Gang) (f : Word → Nat) : Bool := g.allIssuing (fun k => decide (f (g.mode k) = f (g.mode g.low)))

/-- The 64-bit etypes of shfl and shfli: a pair, otherwise one register (R84). -/
def shuffleOps (os : Nat → List Opnd) : OpndsOf := etypeOps (fun _ => true) os

/-- shfl (R84). R482 does not list its a field: a fixed source there is read as a raw integer of the field's width (log entry 105,
DEDUCED). -/
def execShfl (d a b : Code) (s : State) : Res :=
  if !s.gang.sameMode modeEtype then illegal s
  else guardOps s (shuffleOps (fun t => [.vw (vwidth t) d, .vr (vwidth t) a, .vr 32 b])) (fun s =>
    let g := s.gang
    let j := fun l => (s.vsrc32 b l).toNat % 32
    finishWith s (fun h => h.putV d (fun l => etypeWide (g.et l)) g.active (fun l =>
      s.vsrc (.int (vwidth (g.et l))) a (if g.active (j l) then j l else l))))

/-- The lane that shfli names: none outside 0 to 31 (R84). -/
def shuffleLane (mode c l : Nat) : Option Nat :=
  match mode with
  | 0 => some c
  | 1 => if c ≤ l then some (l - c) else none
  | 2 => if l + c < 32 then some (l + c) else none
  | _ => some (l ^^^ c)

/-- shfli (R84). -/
def execShfli (d : Code) (m : BitVec 2) (c : BitVec 5) (s : State) : Res :=
  if !s.gang.sameMode modeEtype then illegal s
  else guardOps s (shuffleOps (fun t => [.vx (vwidth t) d])) (fun s =>
    let g := s.gang
    let src := fun l => match shuffleLane m.toNat c.toNat l with
      | some j => if g.active j then j else l
      | none => l
    finishWith s (fun h => h.putV d (fun l => etypeWide (g.et l)) g.active (fun l =>
      s.vsrc (.int (vwidth (g.et l))) d (src l))))

/-- The etypes gred accepts (R85). -/
def gredTypes (b t : Nat) : Bool :=
  if b < 3 then [0, 1, 9, 10, 13, 14].contains t else [9, 10, 13, 14].contains t

/-- One step of gred: the new accumulator and its flags (R85). -/
def gredStep (b t : Nat) (md : FMode) (acc x : Nat) : Nat × Nat :=
  if isFloat t then
    match b with
    | 0 => fopElem .add t md acc x 0
    | 1 => fopElem .min t md acc x 0
    | _ => fopElem .max t md acc x 0
  else
    let w := etypeWidth t
    let v := fun y => if isSigned t then signedOf w y else ((y : Nat) : Int)
    match b with
    | 0 => (narrow t md.sat (v acc + v x), 0)
    | 1 => (if v x < v acc then x else acc, 0)
    | 2 => (if v acc < v x then x else acc, 0)
    | 3 => (acc &&& x, 0)
    | 4 => (acc ||| x, 0)
    | _ => (acc ^^^ x, 0)

/-- The reduction over the lanes that follow the first: accumulator, and the flags raised at each lane. -/
def gredFold (step : Nat → Nat → Nat × Nat) (x : Nat → Nat) : List Nat → Nat → List (Nat × Nat) → Nat × List (Nat × Nat)
  | [], acc, fl => (acc, fl)
  | l :: ls, acc, fl =>
    let r := step acc (x l)
    gredFold step x ls r.1 ((l, r.2) :: fl)

/-- gred (R85). -/
def execGred (d a : Code) (b : BitVec 3) (s : State) : Res :=
  let g := s.gang
  if 6 ≤ b.toNat || !(g.sameMode modeEtype && g.sameMode modeRound && g.sameMode (fun m => toNat01 (modeSat m)) &&
      g.sameMode (fun m => toNat01 (modeFtz m))) then illegal s
  else guardOps s (etypeOps (gredTypes b.toNat) (fun t => [.vw (vwidth t) d, .vr (vwidth t) a])) (fun s =>
    let g := s.gang
    let t := modeEtype (g.mode g.low)
    let md := g.fmode (4 * g.low)
    let x := fun l => (s.vsrc (.elem t) a l).toNat
    match g.activeList with
    | [] => .next s.advance
    | l0 :: ls =>
      let r := gredFold (gredStep b.toNat t md) x ls (x l0) []
      floatFinish s (fun l => ((r.2.find? (fun e => decide (e.1 = l))).map (·.2)).getD 0)
        (fun h => h.putV d (fun _ => etypeWide t) g.active (fun _ => BitVec.ofNat 64 r.1)))

/-! ### MODE (R86, R87) -/

/-- Replace `n` bits at `lo` of a number. -/
def putField (x lo n v : Nat) : Nat := x - field x lo n * 2 ^ lo + v % 2 ^ n * 2 ^ lo

/-- The MODE that mset writes (R86). -/
def msetValue (m : Word) (sel i : Nat) : Word :=
  BitVec.ofNat 32 (match sel with
    | 0 => putField (putField m.toNat 0 5 i) 5 1 (i / 32)
    | 1 => putField m.toNat 6 5 i
    | 2 => putField m.toNat 11 3 i
    | 3 => putField m.toNat 14 1 i
    | 4 => putField m.toNat 15 1 i
    | 5 => putField m.toNat 16 1 i
    | 6 => putField m.toNat 17 6 i
    | _ => putField (putField (putField (putField m.toNat 6 5 i) 11 3 (i / 32)) 14 1 (i / 256)) 15 1 (i / 512))

/-- Write the MODE of the issuing slices. -/
def Gang.setModes (g : Gang) (f : Nat → Word) : Gang := g.issuingList.foldl (fun h k => h.setMode k (f k)) g

/-- mset (R86). -/
def execMset (sel : BitVec 3) (i : BitVec 16) (s : State) : Res :=
  if !msetImageOk sel i then illegal s
  else finishWith s (fun g => g.setModes (fun k => msetValue (g.mode k) sel.toNat i.toNat))

/-- msetg (R87). -/
def execMsetg (i : BitVec 23) (s : State) : Res :=
  if !modeImageOk i then illegal s else finishWith s (fun g => g.setModes (fun _ => i.setWidth 32))

/-- mget (R87). -/
def execMget (d : Code) (s : State) : Res :=
  guardOps s (fixedOps [.sw 32 d]) (fun s =>
    finishWith s (fun g => g.putS d s.gang.issuing (fun k => (s.gang.mode k) &&& 0x007FFFFF)))

/-- msetr (R87): every issuing slice's image must pass the checks. -/
def execMsetr (a : Code) (s : State) : Res :=
  guardOps s (fixedOps [.sr 32 a]) (fun s =>
    let img := fun k => (s.ssrc a k).setWidth 23
    if s.gang.allIssuing (fun k => modeImageOk (img k)) then finishWith s (fun g => g.setModes (fun k => (img k).setWidth 32))
    else illegal s)

/-! ### Waiting on access paths (R89, R90) -/

/-- wait (R89, R90): a poisoned operation that the wait covers is reported; otherwise the four counters. -/
def execWait (l st c t : BitVec 6) (s : State) : Res :=
  let g := s.gang
  let n := fun p => match p with
    | 0 => l.toNat
    | 1 => st.toNat
    | 2 => c.toNat
    | _ => t.toNat
  match (List.range 4).filterMap (fun p => if n p = 63 then none else g.coveredReport p (n p)) with
  | r :: rs => s.takeReport (rs.foldl (fun a b => if b.id < a.id then b else a) r)
  | [] =>
    if (List.range 4).all (fun p => decide (n p = 63) || decide (g.counter p ≤ n p)) then .next s.advance
    else stallOn (.counters l.toNat st.toNat c.toNat t.toNat) s

/-- waitr (R89, R90). -/
def execWaitr (a : BitVec 3) (b : Code) (s : State) : Res :=
  if 6 ≤ a.toNat then illegal s
  else guardOps s (fixedOps [.sr 32 b]) (fun s =>
    let g := s.gang
    let n := (s.sarg b).toNat
    if 63 ≤ n then .next s.advance
    else match g.coveredReport a.toNat n with
      | some r => s.takeReport r
      | none => if g.counter a.toNat ≤ n then .next s.advance else stallOn (.path a.toNat n) s)

/-! ### Register allocation (R91 to R94) -/

/-- The rows that a sprinter seat holds: its pool, and the destinations of its window (04 R101). -/
def Seat.rows (x : Seat) : List Nat := x.pool ++ (x.window.map (fun e => e.rows.map (·.2))).flatten

/-- The seat of a lane group. -/
def State.seatAt (s : State) (core lg : Nat) : Seat := mapGet Seat.empty (s.coreAt core).seats lg

/-- Register rows that are free in a lane group: 768 less the resident allocations and the rows of its seat (R92). -/
def State.freeRows (s : State) (core lg : Nat) : Nat :=
  768 - ((s.gangsOnCore core).map (fun k => if (s.gangAt k).lg = lg then (s.gangAt k).alloc else 0)).sum -
    (s.seatAt core lg).rows.length

/-- The free rows themselves, lowest first: no committed map and no seat names them (04 R100). -/
def State.freeRowList (s : State) (core lg : Nat) : List Nat :=
  let maps := ((s.gangsOnCore core).map (fun k => if (s.gangAt k).lg = lg then (s.gangAt k).rows else [])).flatten
  (List.range 768).filter (fun r => !maps.contains r && !(s.seatAt core lg).rows.contains r)

/-- A gang's committed map names a row for each register of its allocation: rows past it return, and those that are missing
are the lowest free ones (04 R100; log entry 98, DESIGN CHOICE). -/
def State.fitRows (s : State) (key : Nat) : State :=
  let g := s.gangAt key
  let more := if g.alloc ≤ g.rows.length then [] else (s.freeRowList g.core g.lg).take (g.alloc - g.rows.length)
  s.updGangAt key (fun g => { g with rows := g.rows.take g.alloc ++ more })

/-- The blocked regrow request of a gang: its rows, and when it was made. -/
def Gang.request (g : Gang) : Option (Nat × Nat) :=
  g.flow.blocks.findSome? (fun b => match b.2 with
    | .regrow _ n since => some (n, since)
    | _ => none)

/-- The blocked requests of a lane group, but those of gangs that have taken a pre-emption (R93): since, gang key, rows. -/
def State.requests (s : State) (core lg : Nat) : List (Nat × Nat × Nat) :=
  (s.gangsOnCore core).filterMap (fun k =>
    let g := s.gangAt k
    if g.lg = lg && !g.trap.taken then g.request.map (fun r => (r.2, k, r.1)) else none)

/-- The registers [lo, lo + n) hold 0 (R92, R94). -/
def Gang.zeroRegs (g : Gang) (lo n : Nat) : Gang :=
  { g with regs := { g.regs with v := mapDropRange (lo * 32) (n * 32) g.regs.v } }

/-- The outcome of a regrow: rows granted, or the failure (R92). -/
def Gang.regrown (g : Gang) (d : Code) (n : Nat) (ok : Bool) : Gang :=
  let h := if ok then { g.zeroRegs g.alloc n with alloc := g.alloc + n } else g
  h.putP d (fun _ => true) (fun _ => ok)

/-- regrow (R91, R92) (log entry 59, DEDUCED). -/
def execRegrow (d : Code) (i : BitVec 16) (s : State) : Res :=
  if !allocStepOk i then illegal s
  else guardOps s (fixedOps [.pw d]) (fun s =>
    let g := s.gang
    if !g.whole then trapNow { cause := 0x08 } s
    else
      let s := s.leaveSeat s.cur
      let n := i.toNat
      let older := (s.requests g.core g.lg).any (fun r => decide (r.2.1 ≠ s.cur))
      if 240 < g.alloc + n then .next (s.updGang (fun g => (g.regrown d n false).advance))
      else if decide (n ≤ s.freeRows g.core g.lg) && !older then
        .next ((s.updGang (fun g => (g.regrown d n true).advance)).fitRows s.cur)
      else
        let r := s.takeId
        stallOn (.regrow d n r.1) r.2)

/-- regshr (R91, R94). -/
def execRegshr (i : BitVec 16) (s : State) : Res :=
  let g := s.gang
  if !allocStepOk i then illegal s
  else if !g.whole then trapNow { cause := 0x08 } s
  else if g.alloc < i.toNat + 8 then trapNow { cause := 0x02 } s
  else .next (((s.leaveSeat s.cur).updGang (fun g =>
    { g.zeroRegs (g.alloc - i.toNat) i.toNat with alloc := g.alloc - i.toNat }.advance)).fitRows s.cur)

/-! ### Sticky flags (06 R153) -/

/-- flget (06 R153). -/
def execFlget (d : Code) (s : State) : Res :=
  guardOps s (fixedOps [.sw 32 d]) (fun s => finishWith s (fun g => g.putSAll d (s.gang.regs.fpf.setWidth 32)))

/-- flclr (06 R153). -/
def execFlclr (m : BitVec 5) (s : State) : Res :=
  finishWith s (fun g => { g with regs := { g.regs with fpf := g.regs.fpf &&& ~~~ m } })

end Sys2Proof.Machine
end

