-- ==== Sys2Proof/Machine/MemInstr.lean ====
section
/-! DEFINITION. Memory instructions, opcodes 0xA0 to 0xBE (07 R173, R177 to R190; 08 R219 to R229). -/

namespace Sys2Proof.Machine

/-! ### Plain loads and stores (07 R177) -/

/-- ldb. -/
def execLdb (d a : Code) (n : BitVec 6) (sp : BitVec 2) (s : State) : Res :=
  if n = 63 then illegal s else loadInstr s d a n.toNat sp.toNat 1 false
/-- ldbs. -/
def execLdbs (d a : Code) (n : BitVec 6) (sp : BitVec 2) (s : State) : Res :=
  if n = 63 then illegal s else loadInstr s d a n.toNat sp.toNat 1 true
/-- ldh. -/
def execLdh (d a : Code) (n : BitVec 6) (sp : BitVec 2) (s : State) : Res :=
  if n = 63 then illegal s else loadInstr s d a n.toNat sp.toNat 2 false
/-- ldhs. -/
def execLdhs (d a : Code) (n : BitVec 6) (sp : BitVec 2) (s : State) : Res :=
  if n = 63 then illegal s else loadInstr s d a n.toNat sp.toNat 2 true
/-- ldw. -/
def execLdw (d a : Code) (n : BitVec 6) (sp : BitVec 2) (s : State) : Res :=
  if n = 63 then illegal s else loadInstr s d a n.toNat sp.toNat 4 false
/-- ldd. -/
def execLdd (d a : Code) (n : BitVec 6) (sp : BitVec 2) (s : State) : Res :=
  if n = 63 then illegal s else loadInstr s d a n.toNat sp.toNat 8 false
/-- ldq. -/
def execLdq (d a : Code) (n : BitVec 6) (sp : BitVec 2) (s : State) : Res :=
  if n = 63 then illegal s else loadInstr s d a n.toNat sp.toNat 16 false
/-- stb. -/
def execStb (d a : Code) (n : BitVec 6) (sp : BitVec 2) (s : State) : Res :=
  if n = 63 then illegal s else storeInstr s d a n.toNat sp.toNat 1
/-- sth. -/
def execSth (d a : Code) (n : BitVec 6) (sp : BitVec 2) (s : State) : Res :=
  if n = 63 then illegal s else storeInstr s d a n.toNat sp.toNat 2
/-- stw. -/
def execStw (d a : Code) (n : BitVec 6) (sp : BitVec 2) (s : State) : Res :=
  if n = 63 then illegal s else storeInstr s d a n.toNat sp.toNat 4
/-- std. -/
def execStd (d a : Code) (n : BitVec 6) (sp : BitVec 2) (s : State) : Res :=
  if n = 63 then illegal s else storeInstr s d a n.toNat sp.toNat 8
/-- stq. -/
def execStq (d a : Code) (n : BitVec 6) (sp : BitVec 2) (s : State) : Res :=
  if n = 63 then illegal s else storeInstr s d a n.toNat sp.toNat 16

/-! ### Ordered forms (07 R181; 08 R219, R220, R222, R223) -/

/-- Access size of an ordered form. -/
def wSize (w : BitVec 1) : Nat := if w = 1 then 8 else 4

/-- The address and space under which the lock list names a lane's location (04 R103). -/
def lockKey (sp size : Nat) (x : DWord) : Nat × Nat :=
  let v := x.toNat
  if sp < 2 then (v % 2 ^ 56, if inAperture v then 1 else 0)
  else (v / 2 ^ 32 * 2 ^ 48 + v % 2 ^ 32 * size, sp)

/-- ld.acq (08 R220, R222, R223). -/
def execLdAcq (d a : Code) (c : BitVec 3) (r w : BitVec 1) (sp : BitVec 2) (s : State) : Res :=
  if c = 7 || (r = 1 && c ≠ 4) then illegal s
  else guardOps s (fixedOps [.vw (8 * wSize w) d, .vr 64 a]) (fun s =>
    let size := wSize w
    let sc := c.toNat
    let code := s.gang.nuCode 62
    memFlow s { acc := .read, size := size, sp := sp.toNat, path := 0 } a (acquireEffect d size sc (r = 1) code))

/-- st.rel (08 R219, R222): the release's actions, then its own write. Where the release waits, for what the gang has issued or
for acknowledgements of other devices, that holds its own write alone, and the gang goes on (log entry 90, DEDUCED). -/
def execStRel (d a : Code) (c : BitVec 3) (lk w : BitVec 1) (sp : BitVec 2) (s : State) : Res :=
  if c = 7 then illegal s
  else guardOps s (fixedOps [.vr (8 * wSize w) d, .vr 64 a]) (fun s =>
    let size := wSize w
    let sc := c.toNat
    let code := s.gang.nuCode 62
    let key := fun l => lockKey sp.toNat size (s.vsrc64 a l)
    let v := fun l => s.storeData d size l
    let f : Form := { acc := .write, size := size, sp := sp.toNat, path := 1 }
    reportOr s sc (
      if s.releasesNow sc then
        let lanes := s.gang.memLanes
        memFlow s f a { releaseEffect size sc code v with
          before := fun s => s.releaseActs s.gang.core sc
          after := fun _ s =>
            if lk = 1 then s.updGang (fun h => { h with
              locks := lanes.foldl (fun ls l => lockLeave ls (key l).1 (key l).2) h.locks })
            else s }
      else memFlow s f a { releaseEffect size sc code v with
        now := false
        late := fun id ts => some { id := id, kind := .release sc size, path := 1, after := s.gang.releaseWaits sc
                                    lanes := (lateLanes ts 0 code v).map (fun x =>
                                      { x with lock := if lk = 1 then some (key x.lane) else none }) } }))

/-! ### Atomics (07 R182 to R184) -/

/-- Flags of an atomic carried in a request: operation code, and 16 when min and max are signed. -/
def atomTag (op : AtomOp) (signed : Bool) : Nat := op.code + 16 * toNat01 signed

/-- The lock-list entry of an atomic with .lock (04 R103): atxchg when the old value differs from the written one,
atcas when the comparison succeeds. -/
def lockTaken (op : AtomOp) (m x c : Nat) : Bool :=
  match op with
  | .xchg => decide (m ≠ x)
  | .cas => decide (m = c)
  | _ => false

/-- The operands of an atomic's words: data read, and written with ret = 1 (07 R182, R183). -/
def atomOps (op : AtomOp) (d a : Code) (size : Nat) (ret : Bool) : List Opnd :=
  match op with
  | .cas => .vr 64 a :: (if d.toNat < 0xF0 then [.vg (size / 2) (size / 2) true ret false d] else [])
  | _ => [if ret then .vx (8 * size) d else .vr (8 * size) d, .vr 64 a]

/-- Data `i` of lane `l` of an atomic, as a number of its size: compare and swap's new value is data 1 (07 R182, R183). -/
def State.atomWord (s : State) (d : Code) (size l i : Nat) : Nat :=
  if size = 8 then (s.vword d l (2 * i)).toNat + (s.vword d l (2 * i + 1)).toNat * 2 ^ 32 else (s.vword d l i).toNat

/-- The operand of lane `l`, or compare and swap's compare value; a fixed source gives its integer (02 R482). -/
def State.atomLow (s : State) (d : Code) (size l : Nat) : Nat :=
  if d.toNat < 0xF0 then s.atomWord d size l 0 else wrapTo (8 * size) (s.fixedInt (size = 8) d.toNat l)

/-- The value that lane `l` brings in: a float for atfadd, compare and swap's new value. -/
def State.atomNewArg (s : State) (op : AtomOp) (d : Code) (size l : Nat) : Nat :=
  match op with
  | .fadd => if d.toNat < 0xF0 then s.atomWord d size l 0
    else fixedElem (if size = 8 then 0 else 1) (s.fixedInt (size = 8) d.toNat l)
  | .cas => if d.toNat < 0xF0 then s.atomWord d size l 1 else s.atomLow d size l
  | _ => s.atomLow d size l

/-- The effect of an atomic: lane by lane, read, write, the old value for ret = 1, and with .lock the lock list and the
acquire (07 R182 to R184; 04 R103; 08 R220). -/
def State.atomEffect (s : State) (op : AtomOp) (d a : Code) (size sc : Nat) (lock ret : Bool) (sp : Nat) : Effect :=
  let code := s.gang.nuCode 62
  let low := fun l => s.atomLow d size l
  let k := fun l => s.atomNewArg op d size l
  let signed := fun l => decide (s.gang.et l < 13)
  { act := fun _ s' l t =>
      let r := s'.atomicAt size (code l) sc (fun m => atomNew op size (signed l) m (k l) (low l)) t
      let s1 := if ret then r.1.updGang (fun g => g.putLoad d size false l r.2) else r.1
      if lock && lockTaken op r.2 (k l) (low l) then
        let key := lockKey sp size (s.vsrc64 a l)
        s1.updGang (fun g => { g with locks := lockEnter g.locks key.1 key.2 s.stepNo })
      else s1
    poison := fun s l => if ret then s.updGang (fun g => g.putLoad d size false l 0) else s
    request := fun _ l _ _ =>
      let key := lockKey sp size (s.vsrc64 a l)
      [{ Msg.blank with kind := .atomic (atomTag op (signed l)) size (BitVec.ofNat 64 (k l)), data := low l
                        reg := if ret then d.toNat else 0xF0, dep := if lock then 1 else 0
                        handle := BitVec.ofNat 64 key.1, cell := key.2 }]
    prep := fun s _ pa _ => s.flushLine s.gang.core (farLine pa)
    regs := if ret then dataRegs d size else []
    after := fun id s => if lock then s.acquireAfter id sc else s }

/-- An atomic instruction. -/
def atomInstr (s : State) (op : AtomOp) (accepted : Nat → Bool) (d a : Code) (c : BitVec 3) (lock : Bool)
    (ret w : BitVec 1) (sp : BitVec 2) : Res :=
  if c = 7 || (op = .cas && !casDataOk (ret = 1) (w = 1) d) then illegal s
  else guardOps s (etypeOps accepted (fun _ => atomOps op d a (wSize w) (ret = 1))) (fun s =>
    memFlow s { acc := .atomic, size := wSize w, sp := sp.toNat, path := if ret = 1 then 0 else 1 } a
      (s.atomEffect op d a (wSize w) c.toNat lock (ret = 1) sp.toNat))

/-- Every etype is accepted. -/
def anyType (_ : Nat) : Bool := true

/-- atadd. -/
def execAtadd (d a : Code) (c : BitVec 3) (r w : BitVec 1) (sp : BitVec 2) (s : State) : Res :=
  atomInstr s .add anyType d a c false r w sp
/-- atfadd. -/
def execAtfadd (d a : Code) (c : BitVec 3) (r w : BitVec 1) (sp : BitVec 2) (s : State) : Res :=
  atomInstr s .fadd anyType d a c false r w sp
/-- atmin: signed under i32 and i64. -/
def execAtmin (d a : Code) (c : BitVec 3) (r w : BitVec 1) (sp : BitVec 2) (s : State) : Res :=
  atomInstr s .min (fun t => [9, 10, 13, 14].contains t) d a c false r w sp
/-- atmax. -/
def execAtmax (d a : Code) (c : BitVec 3) (r w : BitVec 1) (sp : BitVec 2) (s : State) : Res :=
  atomInstr s .max (fun t => [9, 10, 13, 14].contains t) d a c false r w sp
/-- atand. -/
def execAtand (d a : Code) (c : BitVec 3) (r w : BitVec 1) (sp : BitVec 2) (s : State) : Res :=
  atomInstr s .and anyType d a c false r w sp
/-- ator. -/
def execAtor (d a : Code) (c : BitVec 3) (r w : BitVec 1) (sp : BitVec 2) (s : State) : Res :=
  atomInstr s .or anyType d a c false r w sp
/-- atxor. -/
def execAtxor (d a : Code) (c : BitVec 3) (r w : BitVec 1) (sp : BitVec 2) (s : State) : Res :=
  atomInstr s .xor anyType d a c false r w sp
/-- atxchg. -/
def execAtxchg (d a : Code) (c : BitVec 3) (lk r w : BitVec 1) (sp : BitVec 2) (s : State) : Res :=
  atomInstr s .xchg anyType d a c (lk = 1) r w sp
/-- atcas. -/
def execAtcas (d a : Code) (c : BitVec 3) (lk r w : BitVec 1) (sp : BitVec 2) (s : State) : Res :=
  atomInstr s .cas anyType d a c (lk = 1) r w sp

/-! ### Fences (08 R221, R229) -/

/-- A fence of scope `c` whose steps hold every later access (08 R221): its waits, then the acquire and the release. A
poisoned store is reported by any fence of its scope (08 R230). -/
def fenceInstr (s : State) (c : BitVec 3) (rel sc : Bool) : Res :=
  if c = 7 then illegal s
  else
    let g := s.gang
    match g.releaseReport c.toNat with
    | some p => s.takeReport p
    | none =>
      let ids := g.unperformed (if sc then 3 else 1)
      if !ids.isEmpty then stallOn (.ops ids) s
      else
        let s := s.acquireActs g.core c.toNat
        if rel then withRelease s c.toNat (fun s => .next s.advance) else .next s.advance

/-- What performs late holds later operations on the paths of a set until then. -/
def State.holdLate (s : State) (kind : LateKind) (after : List Nat) (paths : Nat) : State :=
  let r := s.takeId
  r.2.updGang (fun g => { g with
    late := g.late ++ [{ id := r.1, kind := kind, path := 6, after := after, lanes := [] }]
    holds := g.holds ++ [{ id := r.1, paths := paths, scope := none }] })

/-- fence acq. -/
def execFenceAcq (c : BitVec 3) (s : State) : Res := fenceInstr s c false false
/-- fence rel (08 R221): while the release waits, later stores are held, and nothing else (log entry 90, DEDUCED). -/
def execFenceRel (c : BitVec 3) (s : State) : Res :=
  if c = 7 then illegal s
  else reportOr s c.toNat (.next ((if s.releasesNow c.toNat then s.releaseActs s.gang.core c.toNat
    else s.holdLate (.release c.toNat 0) (s.gang.releaseWaits c.toNat) 2).advance))
/-- fence acqrel. -/
def execFenceAcqrel (c : BitVec 3) (s : State) : Res := fenceInstr s c true false
/-- fence sc. -/
def execFenceSc (c : BitVec 3) (s : State) : Res := fenceInstr s c true true

/-- fence.path (08 R229): it waits until every operation on a source path has completed, and with ST the store queues reach
the banks; until then it holds the later operations on the target paths. -/
def execFencePath (a b : BitVec 6) (s : State) : Res :=
  if a = 0 || b = 0 then illegal s
  else
    let g := s.gang
    let ids := (g.out.filter (fun o => bit a.toNat o.path)).map (·.id) ++ (g.late.filter (fun o => bit a.toNat o.path)).map (·.id)
    .next ((if ids.isEmpty then (if bit a.toNat 1 then s.drainQueues g.core else s)
      else s.holdLate (.pathFence (bit a.toNat 1)) ids b.toNat).advance)

/-! ### pglob, pref, cmaint, tick (07 R173, R187, R188, R190) -/

/-- pglob (07 R173). -/
def execPglob (d a : Code) (s : State) : Res :=
  guardOps s (fixedOps [.vw 64 d, .vr 64 a]) (fun s =>
    let g := s.gang
    let x := fun l => s.vsrc64 a l
    let aper := fun l => canonical (x l).toNat && inAperture (x l).toNat
    let bad := g.activeList.filter (fun l => aper l && decide (s.wg.z ≤ (x l).toNat % 2 ^ 48))
    match bad with
    | l :: _ => trapNow { cause := 0x0D, lanes := laneMask (fun k => bad.contains k), addr := x l } s
    | [] => finishWith s (fun h => h.putV d (fun _ => true) g.active (fun l =>
        if aper l then BitVec.ofNat 64 (globalOf s.wg g.num l (x l).toNat) else x l)))

/-- A prefetch of a line of another device (07 R187, R192): a hit takes the code; otherwise the line is fetched. -/
def State.prefetchFar (s : State) (code pa : Nat) (page : Page) : State :=
  let core := s.gang.core
  if s.l1Holds core (farLine pa) 0 128 then (s.l1Hit core s.gang.wid (farLine pa) 0 1 code).1
  else s.send { Msg.blank with
    kind := .fetch code page true false, dst := pa / 2 ^ 40, addr := pa, gang := s.cur, opid := s.nextId, reg := 0xF0
    part := s.wg.part, pasid := s.wg.pasid, opc := s.gang.pcNow.setWidth 64 }

/-- pref (07 R187): no register, no fault, no count; what would fault or be refused is dropped. Level 1 fetches into the
L2 alone, which holds nothing of its own in this model (log entry 18, DEDUCED). -/
def execPref (lv : BitVec 1) (a : Code) (n : BitVec 6) (sp : BitVec 1) (s : State) : Res :=
  if n = 63 then illegal s
  else guardOps s (fixedOps [.vr 64 a]) (fun s => heldOr 64 s (
    let g := s.gang
    let w := s.wg
    let s1 := s.countMem { acc := .read, size := 1, sp := sp.toNat, path := 0 }
    let go := fun (t : State) l =>
      match s.place sp.toNat 1 (s.vsrc64 a l) l with
      | .ok (.glob va) => match t.peek g.core w.pasid va .read with
        | some x => match t.reach w.part 1 x with
          | .here pa pg => if lv = 0 then t.l1Fill g.core g.wid (pa / 128) (g.nuCode n.toNat l) pg else t
          | .away pa pg => if lv = 0 then t.prefetchFar (g.nuCode n.toNat l) pa pg else t
          | _ => t
        | none => t
      | _ => t
    .next (g.activeList.foldl go s1).advance))

/-- The newest write-back of a line of another device by a core is what the operation of the gang in focus waits for. -/
def State.claimFlush (s : State) (id core line : Nat) : State :=
  match (s.msgs.filter (fun m => match m.kind with
    | .flush c _ => decide (c = core) && decide (m.addr = farBase line) && decide (m.gang = noGang)
    | _ => false)).getLast? with
  | some x => { s with msgs := s.msgs.map (fun (m : Msg) => if m.id = x.id then { m with gang := s.cur, opid := id } else m) }
  | none => s

/-- cmaint (07 R188): clean, flush, invalidate, memory clean. R188 gives it no size: it is checked as an access of one byte,
so that no address is misaligned (log entry 91, DESIGN CHOICE; log entry 49, DEDUCED). -/
def execCmaint (o : BitVec 2) (a : Code) (n : BitVec 6) (sp : BitVec 1) (s : State) : Res :=
  if n = 63 then illegal s
  else guardOps s (fixedOps [.vr 64 a]) (fun s =>
    memFlow s { acc := .read, size := 1, sp := sp.toNat, path := 1, rights := 2, ticks := false } a
      { act := fun id s _ t =>
          let go := fun line => if o = 1 || o = 2 then s.flushLine s.gang.core line else s.writeBack s.gang.core line
          match t with
          | .mem pa _ => go (pa / 128)
          | .remote pa _ => (go (farLine pa)).claimFlush id s.gang.core (farLine pa)
          | _ => s
        poison := fun s _ => s
        request := fun _ _ _ _ => []
        regs := [] })

/-- tick (07 R190): the reuse clock advances; the tick times measure the tick period (07 R198). -/
def execTick (s : State) : Res :=
  .next ((s.updWg (fun w => { w.tickOnce with ticks := (s.clock :: w.ticks).take 8 })).advance)

/-! ### Watching a line (07 R185, R186) -/

/-- No watch. -/
def Watch.none : Watch := Gang.absent.watch

/-- A watcher's watch is lost (07 R186). -/
def loseWatcher (s : State) (w : Watcher) : State :=
  match w with
  | .gang k => s.updGangAt k Gang.loseWatch
  | .far dev id => s.send { Msg.blank with kind := .wake id 3, dst := dev }

/-- A watch enters the 128-entry table of its line's slice, which evicts its oldest watch, and that is lost (07 R186). -/
def State.enterWatch (s : State) (line : Nat) (w : Watcher) : State :=
  let mine := s.watches.filter (fun x => decide (sliceOf (x.1 * 128) = sliceOf (line * 128)))
  let s := match mine with
    | old :: _ => if 128 ≤ mine.length then
        loseWatcher { s with watches := s.watches.filter (fun x => decide (x.2 ≠ old.2)) } old.2 else s
    | [] => s
  { s with watches := s.watches ++ [(line, w)] }

/-- Arm the watch of the gang in focus on a local line. -/
def State.armWatch (s : State) (line vline : Nat) : State :=
  ((s.dropWatches s.cur).enterWatch line (.gang s.cur)).updGang (fun g =>
    { g with watch := { Watch.none with armed := some (line, vline) } })

/-- mwatch (07 R185): the lowest active lane's word, read at its home as the watch is armed, for every active lane: one
message does both at a home on another device (log entry 47, DEDUCED) (log entry 62, DESIGN CHOICE). -/
def execMwatch (d a : Code) (n : BitVec 6) (sp : BitVec 1) (s : State) : Res :=
  if n = 63 then illegal s
  else guardOps s (fixedOps [.vw 32 d, .vr 64 a]) (fun s =>
    let g := s.gang
    let f : Form := { acc := .read, size := 4, sp := sp.toNat, path := 0, ticks := false }
    let put := fun (s : State) v => s.updGang (fun h => h.putV32 d g.active (fun _ => BitVec.ofNat 32 v))
    heldOr 1 s (match g.memLanes with
    | [] =>
      if 63 ≤ g.counter 0 then stallOn (.path 0 62) s
      else
        let r := s.takeId
        .next ((((r.2.dropWatches s.cur).updGang (fun g => { g with watch := Watch.none })).updGang
          (fun g => (g.raise 0 r.1 true).finishReplay)).advance)
    | l :: _ =>
      match s.placeFault f [l] (s.vsrc64 a), s.place sp.toNat 4 (s.vsrc64 a l) l with
      | some t, _ => trapNow t s
      | none, .ok (.glob va) =>
        if 63 ≤ g.counter 0 then stallOn (.path 0 62) s
        else
          let r := translateLanes f [(l, .glob va)] s
          if !(g.lateOn r.2.ok).isEmpty then stallOn (.ops (g.lateOn r.2.ok)) s else
          let id := r.1.nextId
          let s1 := { r.1 with nextId := id + 1 }
          match r.2.faults, r.2.ok with
          | (_, c, _) :: _, _ =>
            let left := laneMask (fun k => decide (k = l))
            .next (s1.park 0 c .read va left left)
          | [], (_, .mem pa _) :: _ =>
            let s2 := (s1.flushLine g.core (pa / 128)).armWatch (pa / 128) (va / 128)
            .next (((put s2 (s2.readHome pa 4)).updGang (fun g => (g.raise 0 id true).finishReplay)).advance)
          | [], (_, .remote pa _) :: _ =>
            let s2 := ((s1.dropWatches s.cur).flushLine g.core (farLine pa)).updGang (fun g => (g.raise 0 id false).finishReplay)
            let s3 := s2.updGang (fun g => { g with watch := { Watch.none with armed := some (farLine pa, va / 128), id := s2.nextId } })
            .next ((s3.sendLane id pa l { Msg.blank with kind := .watch (laneMask g.active), reg := d.toNat }).advance)
          | [], ts =>
            let s2 := (put s1 0).updGang (fun g => (g.raise 0 id true).finishReplay)
            .next ((s2.afterLanes f.path f.rights (dataRegs d 4) id ts).advance)
      | none, _ => .next s.advance))

/-- The wake code of a watch, if it wakes (07 R186): 0 written, 2 invalidated, 3 lost, 1 timed out. -/
def Watch.wake (w : Watch) (timeout : Nat) : Option Nat :=
  if w.fired then some 0
  else if w.invalid then some 2
  else if w.lost || w.armed.isNone then some 3
  else if decide (timeout = 0) || w.timedOut then some 1
  else Option.none

/-- mwait (07 R186): any wake disarms the watch. -/
def execMwait (d a : Code) (s : State) : Res :=
  guardOps s (fixedOps [.sw 32 d, .sr 32 a]) (fun s =>
    match s.gang.watch.wake (s.sarg a).toNat with
    | some c => finishWith (s.dropWatches s.cur) (fun g =>
        { g.putSAll d (BitVec.ofNat 32 c) with watch := Watch.none })
    | none => stallOn .watch s)

end Sys2Proof.Machine
end

