-- ==== Sys2Proof/Machine/Barrier.lean ====
section
/-! DEFINITION. Barrier registers (10 R256 to R265), their deadlock (R272, R283), and named groups (R266 to R270). -/

namespace Sys2Proof.Machine

/-! ### The registers (R256 to R258) -/

/-- Barrier register `i` of a workgroup. -/
def Workgroup.bar (w : Workgroup) (i : Nat) : Bar := (mapFind i w.bars).getD Bar.zero
/-- Change a barrier register. -/
def Workgroup.updBar (w : Workgroup) (i : Nat) (f : Bar → Bar) : Workgroup := { w with bars := mapPut i (f (w.bar i)) w.bars }

/-- Complete(b) (R258). -/
def Bar.complete (b : Bar) : Bar :=
  if b.init && decide (b.e + b.x ≤ b.a) && decide (b.rc = 0) && decide (b.kc = 0) then
    { b with a := b.a - (b.e + b.x), x := 0, arrived := 0, gen := b.gen + 1 }
  else b

/-- A credit of A (R258): past 1,023 it stays there and ovf is set. -/
def Bar.count (b : Bar) : Bar := if b.a = 1023 then { b with ovf := true } else { b with a := b.a + 1 }

/-- A member arrival (R257). -/
def Bar.member (b : Bar) : Bar := b.count.complete
/-- A row credit. -/
def Bar.row (b : Bar) : Bar := { b with rc := b.rc - 1 }.complete
/-- An acknowledgement credit. -/
def Bar.ack (b : Bar) : Bar := { b with kc := b.kc - 1 }.complete
/-- A gang arrival. -/
def Bar.arrive (b : Bar) (g : Nat) : Bar := { b with arrived := b.arrived ||| BitVec.ofNat 32 (2 ^ g) }.count.complete
/-- Gang `g` has arrived in the current generation. -/
def Bar.here (b : Bar) (g : Nat) : Bool := b.arrived.getLsbD g

/-- The two words of R256. -/
def Bar.word (b : Bar) (i : Nat) : DWord :=
  if i = 0 then BitVec.ofNat 64 (b.gen.toNat * 2 ^ 48 + toNat01 b.init * 2 ^ 47 + toNat01 b.ovf * 2 ^ 46 + b.e * 2 ^ 32 +
    b.x * 2 ^ 16 + b.a)
  else BitVec.ofNat 64 (b.arrived.toNat * 2 ^ 32 + b.rc * 2 ^ 16 + b.kc)

/-- The register of the gang in focus that a field names. -/
def State.bar (s : State) (a : Code) : Bar := s.wg.bar a.toNat
/-- Change it. -/
def State.updBar (s : State) (a : Code) (f : Bar → Bar) : State := s.updWg (fun w => w.updBar a.toNat f)

/-- barrier misuse (R271): the register, or the group, in aux. -/
def misuse (sub what : Nat) (s : State) : Res := trapNow { cause := 0x11, sub := sub, aux := BitVec.ofNat 32 what } s

/-- The gang waits, by this block, at register `a` of its workgroup. -/
def Block.atBar (a : Nat) : Block → Bool
  | .barrierArrive b => decide (b = a)
  | .barrierGen b _ => decide (b = a)
  | _ => false

/-- A wait at a barrier register ends (R262, R263). -/
def State.barFreed (s : State) (g : Gang) : Block → Bool
  | .barrierArrive b => !((s.wgAt g.wid).bar b).here g.num
  | .barrierGen b gen => decide (((s.wgAt g.wid).bar b).gen.toNat ≠ gen)
  | .barrierRoom b n => decide (((s.wgAt g.wid).bar b).kc + n ≤ 4095)
  | _ => true

/-- Some gang of the workgroup waits at register `a` (R261). -/
def State.barWaiter (s : State) (wid a : Nat) : Bool :=
  (s.gangsOf wid).any (fun k =>
    let g := s.gangAt k
    g.flow.blocks.any (fun e => e.2.atBar a && !s.barFreed g e.2))

/-! ### Instructions (R259 to R265) -/

/-- binit (R261). -/
def execBinit (a b : Code) (s : State) : Res :=
  guardOps s (fixedOps [.br a, .sr 32 b]) (fun s =>
    let v := (s.sarg b).toNat
    let r := s.bar a
    if 1024 ≤ v || v = 0 then misuse 2 a.toNat s
    else if r.a ≠ 0 || r.arrived ≠ 0 || r.rc ≠ 0 || r.kc ≠ 0 || s.barWaiter s.gang.wid a.toNat then misuse 1 a.toNat s
    else .next (s.updBar a (fun r => { r with init := true, ovf := false, e := v, x := 0 })).advance)

/-- The waits of an arrive on the paths it names, LD and ST among them (R259, R262): none when they have passed, with the
store queues in the banks when an engine path is named. -/
def State.arrivePaths (s : State) (p : BitVec 6) : Except Res State :=
  let ps := (p ||| 3).toNat
  if s.gang.busyOn ps then .error (stallOn (.drained ps) s)
  else if !s.gang.lateAccesses.isEmpty then .error (stallOn (.ops s.gang.lateAccesses) s)
  else .ok (if p.toNat / 4 ≠ 0 then s.drainQueues s.gang.core else s)

/-- The arrival of barv and barw (R262): what replaces it, or the state in which the gang has arrived. -/
def State.arrive (s : State) (p : BitVec 6) (a : Code) : Except Res State :=
  if !s.gang.whole then .error (trapNow { cause := 0x08 } s)
  else if !(s.bar a).init then .error (misuse 0 a.toNat s)
  else match s.arrivePaths p with
    | .error r => .error r
    | .ok s =>
      if (s.bar a).here s.gang.num then .error (stallOn (.barrierArrive a.toNat) s)
      else .ok (s.updBar a (fun r => r.arrive s.gang.num))

/-- barv (R262). -/
def execBarv (p : BitVec 6) (a : Code) (s : State) : Res :=
  guardOps s (fixedOps [.br a]) (fun s =>
    match s.arrive p a with
    | .error r => r
    | .ok s => .next s.advance)

/-- The wait for the gang's own arrival (R263): an acquire at wg scope invalidates nothing. -/
def State.waitOwn (s : State) (a : Code) : Res :=
  if (s.bar a).here s.gang.num then stallOn (.barrierArrive a.toNat) s else .next s.advance

/-- bwait (R263). -/
def execBwait (a : Code) (s : State) : Res :=
  guardOps s (fixedOps [.br a]) (fun s => if !(s.bar a).init then misuse 0 a.toNat s else s.waitOwn a)

/-- bwait with a generation (R263): of its two misuses, the uninitialised register comes first (log entry 92, DESIGN
CHOICE). -/
def execBwaitGen (a b : Code) (s : State) : Res :=
  guardOps s (fixedOps [.br a, .sr 32 b]) (fun s =>
    let v := (s.sarg b).toNat
    if !(s.bar a).init then misuse 0 a.toNat s
    else if 2 ^ 16 ≤ v then misuse 2 a.toNat s
    else if (s.bar a).gen.toNat = v then stallOn (.barrierGen a.toNat v) s
    else .next s.advance)

/-- The mark of a barw of the gang at its handler level: what a handler arrives at leaves that of the interrupted barw alone
(log entry 19, DEDUCED). -/
def Gang.barwKey (g : Gang) : Nat := 4 * g.num + g.trap.level

/-- barw (R263): a barw that has arrived and issues again only waits (R272; log entry 19, DEDUCED). -/
def execBarw (p : BitVec 6) (a : Code) (s : State) : Res :=
  guardOps s (fixedOps [.br a]) (fun s =>
    let g := s.gang
    let mark := fun (s : State) x => s.updBar a (fun r => { r with barw := x r.barw })
    if mapFind g.barwKey (s.bar a).barw = some g.pcNow && g.whole then
      (if (s.bar a).here g.num then stallOn (.barrierArrive a.toNat) s
       else .next (mark s (mapDrop g.barwKey)).advance)
    else match s.arrive p a with
      | .error r => r
      | .ok s =>
        if (s.bar a).here g.num then stallOn (.barrierArrive a.toNat) (mark s (mapPut g.barwKey g.pcNow)) else .next s.advance)

/-- A barw of the gang that has arrived waits on only while the gang issues that word: at another PC of its level, or of a
level below, the mark is gone (log entry 19, DEDUCED). -/
def Bar.dropMark (level num : Nat) (pc : PcVal) (r : Bar) : Bar :=
  { r with barw := r.barw.filter (fun m =>
      !(decide (m.1 / 4 = num) && decide (level ≤ m.1 % 4) && decide (m ≠ (4 * num + level, pc)))) }

/-- The gang in focus issues at its PC: its barw marks that this leaves behind are dropped. -/
def State.dropMarks (s : State) : State :=
  let g := s.gang
  if (s.wg.bars.any (fun b => b.2.barw.any (fun m => decide (m.1 / 4 = g.num)))) then
    s.updWg (fun w => { w with bars := w.bars.map (fun b => (b.1, b.2.dropMark g.trap.level g.num g.pcNow)) })
  else s

/-- The change of baddx: the new E and X, if in range (R264). -/
def baddxNew (r : Bar) (v : Nat) (toE : Bool) : Option (Nat × Nat) :=
  let e : Int := if toE then (r.e : Int) + signedOf 11 v else r.e
  let x := if toE then r.x else r.x + v
  if e < 1 || 1023 < e + x then none else some (e.toNat, x)

/-- baddx and its E form (R264). -/
def baddInstr (a b : Code) (toE : Bool) (s : State) : Res :=
  guardOps s (fixedOps [.br a, .sr 32 b]) (fun s =>
    let v := (s.sarg b).toNat
    if !(s.bar a).init then misuse 0 a.toNat s
    else if (if toE then 2048 else 1024) ≤ v then misuse 2 a.toNat s
    else match baddxNew (s.bar a) v toE with
      | none => misuse 2 a.toNat s
      | some (e, x) => .next (s.updBar a (fun r => ({ r with e := e, x := x } : Bar).complete)).advance)

/-- baddx (R264). -/
def execBaddx (a b : Code) (s : State) : Res := baddInstr a b false s
/-- baddx e (R264). -/
def execBaddxE (a b : Code) (s : State) : Res := baddInstr a b true s

/-- btest of a word (R265). -/
def btestInstr (a b : Code) (i : Nat) (s : State) : Res :=
  guardOps s (fixedOps [.br a, .sw 64 b]) (fun s =>
    finishWith s (fun g => g.putS64 b s.gang.issuing (fun _ => (s.bar a).word i)))

/-- btest (R265). -/
def execBtest (a b : Code) (s : State) : Res := btestInstr a b 0 s
/-- btest of word 1 (R265). -/
def execBtestWord1 (a b : Code) (s : State) : Res := btestInstr a b 1 s

/-! ### Deadlock (R272, 11 R283) -/

/-- A PC-group's block is a stall in a barrier instruction, or in cpyc, that nothing has freed. -/
def State.barStalled (s : State) (g : Gang) : Block → Bool
  | .barrierArrive b => !s.barFreed g (.barrierArrive b)
  | .barrierGen b n => !s.barFreed g (.barrierGen b n)
  | .collective => true
  | _ => false

/-- The leaders of the PC-groups of a gang that do not wait at a regang. -/
def Gang.leaders (g : Gang) : List Nat :=
  (List.range 8).filter (fun k => !g.exitedAt k && decide (g.grp k = k) && !g.flow.waiting.getLsbD k)

/-- The first stalled PC-group of a gang whose every PC-group is stalled (R272; log entry 19, DEDUCED). -/
def State.stalledGroup (s : State) (key : Nat) : Option (Nat × Block) :=
  let g := s.gangAt key
  let ls := g.leaders
  if !g.trap.parked && !g.trap.taken && ls.all (fun k => match mapFind k g.flow.blocks with
      | some b => s.barStalled g b
      | none => false) then
    match ls with
    | k :: _ => (mapFind k g.flow.blocks).map (fun b => (k, b))
    | [] => none
  else none

/-- Flags byte of a command: a cpyc's sub-op, or the block's flags (11 R279, R281). -/
def Gcmd.flags (c : Gcmd) : Nat := if c.kind = 0 then (c.block.headD 0).toNat else (c.block.getD 1 0).toNat
/-- The barrier register that a command credits. -/
def Gcmd.credit (c : Gcmd) : Option Nat := if bit c.flags 4 then some (c.flags % 16) else none

/-- Every gang of the workgroup is stalled at its own barriers, or at cpyc beside them, and no Gleaner command that
credits a register is outstanding (R272, 11 R283). -/
def State.barDeadlock (s : State) (wid : Nat) : Bool :=
  let ks := s.gangsOf wid
  let st := ks.filterMap s.stalledGroup
  let cp := st.filter (fun x => match x.2 with
    | .collective => true
    | _ => false)
  let regs := st.filterMap (fun x => match x.2 with
    | .barrierArrive b => some b
    | .barrierGen b _ => some b
    | _ => none)
  let owed := ((s.coreAt (coreOfWid wid)).gleaner.filter (fun c => decide (c.wid = wid))).filterMap Gcmd.credit
  !ks.isEmpty && decide (st.length = ks.length) && !regs.isEmpty &&
    (if cp.isEmpty then !owed.any regs.contains else owed.isEmpty)

/-- The deadlock trap in every gang of the workgroup (R272): each saved PC is its stalled instruction. -/
def State.trapDeadlock (s : State) (wid : Nat) : State :=
  (s.gangsOf wid).foldl (fun s k =>
    match s.stalledGroup k with
    | none => s
    | some (lead, _) =>
      let s := ({ s with cur := k }).updGangAt k (fun g => { g with flow := { g.flow with served := lead } })
      s.trapWaiting { cause := 0x12 }) s

/-! ### Named groups (R266 to R270) -/

/-- Key of a named group of a partition. -/
def groupKey (part gid : Nat) : Nat := part * 1024 + gid
/-- The named-group table entry (R266). -/
def State.ngEntry (s : State) (part gid : Nat) : Nat := (mapGet (0 : DWord) (s.partAt part).ngTable gid).toNat
/-- Level: 0 nbh, 1 die, 2 dev, 3 dom. -/
def ngLevel (e : Nat) : Nat := field e 2 2
/-- Root device. -/
def ngRoot (e : Nat) : Nat := field e 4 12
/-- Scope of a group's level (08 R208). -/
def ngScope (e : Nat) : Nat := if ngLevel e = 0 then 3 else if ngLevel e = 3 then 5 else 4

/-- The group of a key. -/
def State.groupAt (s : State) (k : Nat) : NamedGroup := (mapFind k s.groups).getD NamedGroup.empty
/-- Change a group. -/
def State.updGroup (s : State) (k : Nat) (f : NamedGroup → NamedGroup) : State :=
  { s with groups := mapPut k (f (s.groupAt k)) s.groups }
/-- A node of a group: 1 the device node, 2 the root, 16 + die, 64 the neighbourhood node. -/
def NamedGroup.node (g : NamedGroup) (n : Nat) : GroupNode := (mapFind n g.nodes).getD GroupNode.empty
/-- Change a node. -/
def NamedGroup.updNode (g : NamedGroup) (n : Nat) (f : GroupNode → GroupNode) : NamedGroup :=
  { g with nodes := mapPut n (f (g.node n)) g.nodes }

/-- A workgroup's place in the groups of a level: node, position, key of the position, and what a binding names. -/
structure NgPlace where
  node : Nat
  pos : Nat
  key : Nat
  home : Nat
deriving DecidableEq, Repr

/-- The place of a workgroup in a group (R267); none in an nbh group for a workgroup of no neighbourhood. A position that it
holds it keeps, restored on another core as well (R273); otherwise it has its own core's. -/
def Workgroup.ngPlace (w : Workgroup) (g : NamedGroup) (wid level : Nat) : Option NgPlace :=
  let held := (g.members.find? (fun m => decide (m.2 = wid) && decide (1024 ≤ m.1))).map (fun m => m.1 - 1024)
  let c := held.getD (coreOfWid wid)
  if level = 0 then w.nbh.map (fun i => { node := 64, pos := i, key := i, home := w.nbhId })
  else some { node := 16 + dieOfCore c, pos := c % 60, key := 1024 + c, home := dieOfCore c }

/-- The number under which a saved workgroup holds its positions (R273): above every workgroup key. -/
def savedWid (id : Nat) : Nat := 16384 + id

/-- The workgroup that holds a position, when its bit stands in a mask (R267). A saved workgroup keeps its positions
(R273). -/
def State.ngHolder (s : State) (g : NamedGroup) (p : NgPlace) : Option Nat :=
  if bit (g.node p.node).cur p.pos || bit (g.node p.node).pending p.pos then
    (mapFind p.key g.members).filter (fun w => (s.wgAt w).live || decide (16384 ≤ w))
  else none

/-- The workgroup is a member in some mask. -/
def State.ngMember (s : State) (g : NamedGroup) (p : NgPlace) (wid level : Nat) : Bool :=
  (bit (g.node p.node).cur p.pos || bit (g.node p.node).pending p.pos) &&
  (match s.ngHolder g p with
    | some w => decide (w = wid)
    | none => true) &&
  (decide (2 ≤ level) || decide (g.bound = some p.home) || g.bound.isNone)

/-- Every mask of the group is empty. -/
def NamedGroup.allEmpty (g : NamedGroup) : Bool := g.nodes.all (fun e => decide (e.2.cur = 0) && decide (e.2.pending = 0))

/-- A new pending mask; current at once when no member of the node has arrived (R268). -/
def GroupNode.setPending (n : GroupNode) (idle : Bool) (m : Nat) : GroupNode :=
  if idle then { n with pending := m, cur := m } else { n with pending := m }

/-- No member of a node has arrived in the current generation; a root counts devices (R267, R268). -/
def NamedGroup.idle (g : NamedGroup) (node : Nat) : Bool :=
  if node = 2 then g.devices.isEmpty else decide ((g.node node).arrived = 0)

/-- A node's new pending mask. -/
def NamedGroup.setMask (g : NamedGroup) (node m : Nat) : NamedGroup :=
  g.updNode node (fun n => n.setPending (g.idle node) m)

/-- Set or clear a bit of a mask. -/
def putBit (m i : Nat) (b : Bool) : Nat := if bit m i = b then m else if b then m + 2 ^ i else m - 2 ^ i

/-- The node and the position that a position's key names. -/
def ngKeyPlace (key : Nat) : Nat × Nat := if key < 1024 then (64, key) else (16 + dieOfCore (key - 1024), (key - 1024) % 60)

/-- Positions whose bits stand in no mask hold no workgroup; a group whose masks are empty again is unbound (R267). -/
def NamedGroup.unbind (g : NamedGroup) : NamedGroup :=
  { g with
    bound := if g.allEmpty then none else g.bound
    members := g.members.filter (fun m =>
      let p := ngKeyPlace m.1
      bit (g.node p.1).cur p.2 || bit (g.node p.1).pending p.2) }

/-- A die's bit of the device node's pending mask, of a dev or dom group (R269). -/
def NamedGroup.dieBit (g : NamedGroup) (level die : Nat) (b : Bool) : NamedGroup :=
  if level < 2 then g else g.setMask 1 (putBit (g.node 1).pending die b)

/-- The group an instruction names, with the checks of R271: its id, its entry and its key. -/
def withGroup (s : State) (a : Code) (body : Nat → Nat → Nat → State → Res) : Res :=
  let gid := (s.sarg a).toNat
  let part := s.wg.part
  if 1024 ≤ gid || !bit (s.ngEntry part gid) 0 then misuse 3 gid s
  else body gid (s.ngEntry part gid) (groupKey part gid) s

/-- ngjoin (R269). A workgroup of no neighbourhood that joins an nbh group takes barrier misuse 4, as one of another
neighbourhood does: the table of R271 names no sub-cause for it (log entry 109, DESIGN CHOICE). -/
def execNgjoin (a : Code) (s : State) : Res :=
  guardOps s (fixedOps [.sr 32 a]) (fun s => withGroup s a (fun gid e k s =>
    let g := s.groupAt k
    match s.wg.ngPlace g s.gang.wid (ngLevel e) with
    | none => misuse 4 gid s
    | some p =>
      if ngLevel e < 2 && (match g.bound with
          | some b => decide (b ≠ p.home)
          | none => false) then misuse 4 gid s
      else if (match s.ngHolder g p with
          | some w => decide (w ≠ s.gang.wid)
          | none => false) then misuse 4 gid s
      else .next (s.updGroup k (fun g =>
        ({ g.setMask p.node (putBit (g.node p.node).pending p.pos true) with
            members := mapPut p.key s.gang.wid g.members
            bound := if ngLevel e < 2 then some p.home else none }).dieBit (ngLevel e) p.home true)).advance))

/-- A workgroup leaves its position of a group's pending mask, and its die the device node's when the die's mask has become
empty (R268, R269). -/
def NamedGroup.leave (g : NamedGroup) (level : Nat) (p : NgPlace) : NamedGroup :=
  let h := g.setMask p.node (putBit (g.node p.node).pending p.pos false)
  (if (h.node p.node).pending = 0 then h.dieBit level p.home false else h).unbind

/-- ngjoin leave (R269). By a workgroup that is no member it changes nothing: the spec gives it neither an effect nor a trap
(log entry 110, DESIGN CHOICE). -/
def execNgjoinLeave (a : Code) (s : State) : Res :=
  guardOps s (fixedOps [.sr 32 a]) (fun s => withGroup s a (fun _ e k s =>
    let g := s.groupAt k
    .next (match s.wg.ngPlace g s.gang.wid (ngLevel e) with
      | some p => if s.ngMember g p s.gang.wid (ngLevel e) then s.updGroup k (fun g => g.leave (ngLevel e) p) else s
      | none => s).advance))

/-- A workgroup's arrival at its node. -/
def NamedGroup.arriveAt (g : NamedGroup) (p : NgPlace) (wid : Nat) : NamedGroup :=
  { g.updNode p.node (fun n => { n with arrived := putBit n.arrived p.pos true }) with members := mapPut p.key wid g.members }

/-- The steps of an arrival at a group (R270): its release reports, its waits, then the arrival. -/
def State.ngArrive (s : State) (ps : BitVec 6) (gid e k : Nat) : Except Res State :=
  let g := s.groupAt k
  if !s.gang.whole then .error (trapNow { cause := 0x08 } s)
  else match s.wg.ngPlace g s.gang.wid (ngLevel e) with
    | none => .error (misuse 3 gid s)
    | some p =>
      if !s.ngMember g p s.gang.wid (ngLevel e) then .error (misuse 3 gid s)
      else match s.gang.releaseReport (ngScope e) with
        | some r => .error (s.takeReport r)
        | none => match s.arrivePaths ps with
          | .error r => .error r
          | .ok s =>
            if bit (g.node p.node).arrived p.pos then .error (stallOn (.groupArrive gid) s)
            else if !bit (g.node p.node).cur p.pos then .error (stallOn (.groupMember gid) s)
            else match s.release (ngScope e) with
              | .error r => .error r
              | .ok s => .ok (s.updGroup k (fun g => g.arriveAt p s.gang.wid))

/-- ngarv (R270). -/
def execNgarv (p : BitVec 6) (a : Code) (s : State) : Res :=
  guardOps s (fixedOps [.sr 32 a]) (fun s =>
    if !s.gang.whole then trapNow { cause := 0x08 } s
    else withGroup s a (fun gid e k s =>
      match s.ngArrive p gid e k with
      | .error r => r
      | .ok s => .next s.advance))

/-- A wait on a group by a member (R270, R271). -/
def ngWaiting (s : State) (a : Code) (body : NgPlace → Nat → Nat → Nat → State → Res) : Res :=
  withGroup s a (fun gid e k s =>
    match s.wg.ngPlace (s.groupAt k) s.gang.wid (ngLevel e) with
    | none => misuse 3 gid s
    | some p => if s.ngMember (s.groupAt k) p s.gang.wid (ngLevel e) then body p gid e k s else misuse 3 gid s)

/-- ngwait (R270). -/
def execNgwait (a : Code) (s : State) : Res :=
  guardOps s (fixedOps [.sr 32 a]) (fun s => ngWaiting s a (fun p gid e k s =>
    if bit ((s.groupAt k).node p.node).arrived p.pos then stallOn (.groupWait gid) s
    else .next (s.acquireActs s.gang.core (ngScope e)).advance))

/-- ngwait with a generation (R270). -/
def execNgwaitGen (a b : Code) (s : State) : Res :=
  guardOps s (fixedOps [.sr 32 a, .sr 32 b]) (fun s => ngWaiting s a (fun _ gid e k s =>
    let v := (s.sarg b).toNat
    if 2 ^ 16 ≤ v then misuse 2 gid s
    else if (s.groupAt k).gen.toNat = v then stallOn (.groupGen gid v) s
    else .next (s.acquireActs s.gang.core (ngScope e)).advance))

/-- ngwait read (R270). -/
def execNgwaitRead (a b : Code) (s : State) : Res :=
  guardOps s (fixedOps [.sr 32 a, .sw 32 b]) (fun s => withGroup s a (fun _ _ k s =>
    finishWith s (fun g => g.putSAll b ((s.groupAt k).gen.setWidth 32))))

/-- bsetm of a node of this device (R269): the new pending mask. -/
def State.setMask (s : State) (k node m : Nat) : State := s.updGroup k (fun g => g.setMask node m)

/-- bsetm (R269). It names the node of the issuing workgroup: from another neighbourhood or die than the bound one, or from
no neighbourhood at nbh level, it takes barrier misuse 4 as a join does, and it binds an unbound group to the issuer's. The
table of R271 and the rules of R267 speak of joins alone (log entry 108, DESIGN CHOICE). -/
def execBsetm (a b : Code) (s : State) : Res :=
  guardOps s (fixedOps [.sr 32 a, .sr 64 b]) (fun s => withGroup s a (fun gid e k s =>
    let m := (s.sarg64 b).toNat
    match s.wg.ngPlace (s.groupAt k) s.gang.wid (ngLevel e) with
    | none => misuse 4 gid s
    | some p =>
      if 2 ^ (if ngLevel e = 0 then 24 else 60) ≤ m then misuse 2 gid s
      else if ngLevel e < 2 && (match (s.groupAt k).bound with
          | some b => decide (b ≠ p.home)
          | none => false) then misuse 4 gid s
      else .next ((s.setMask k p.node m).updGroup k (fun g =>
        ({ g with bound := if ngLevel e < 2 then some p.home else none }).unbind)).advance))

/-- bsetm device (R269). -/
def execBsetmDevice (a b : Code) (s : State) : Res :=
  guardOps s (fixedOps [.sr 32 a, .sr 64 b]) (fun s => withGroup s a (fun gid e k s =>
    let m := (s.sarg64 b).toNat
    if ngLevel e < 2 then misuse 5 gid s
    else if 256 ≤ m then misuse 2 gid s
    else .next (s.setMask k 1 m).advance))

/-- bsetm root (R269): the count goes to the root device. -/
def execBsetmRoot (a b : Code) (s : State) : Res :=
  guardOps s (fixedOps [.sr 32 a, .sr 64 b]) (fun s => withGroup s a (fun gid e k s =>
    let n := (s.sarg64 b).toNat
    if ngLevel e ≠ 3 || n = 0 || 2304 < n then misuse 5 gid s
    else if ngRoot e = s.devid then .next (s.setMask k 2 n).advance
    else .next (s.send { Msg.blank with kind := .rootCount s.wg.part gid n, dst := ngRoot e, part := s.wg.part,
                                        pasid := s.wg.pasid }).advance))

/-! ### The network (R267, R268) -/

/-- Every masked member of a node has arrived; an empty mask never arrives. -/
def GroupNode.full (n : GroupNode) : Bool := decide (n.cur ≠ 0) && decide (n.cur &&& n.arrived = n.cur)

/-- The top node of a group has every arrival: a dom group's root counts devices (R267). -/
def State.groupDone (s : State) (part gid : Nat) : Bool :=
  let e := s.ngEntry part gid
  let g := s.groupAt (groupKey part gid)
  bit e 0 && (match ngLevel e with
    | 0 => (g.node 64).full
    | 1 => g.nodes.any (fun n => decide (16 ≤ n.1) && decide (n.1 < 24) && n.2.full)
    | 2 => (g.node 1).full
    | _ => decide (ngRoot e = s.devid) && decide ((g.node 2).cur ≠ 0) && decide ((g.node 2).cur ≤ g.devices.length))

/-- A generation completes at every node of this device: gen rises, arrivals are cleared, and pending masks become
current (R267, R268). -/
def NamedGroup.complete (g : NamedGroup) : NamedGroup :=
  ({ g with
      gen := g.gen + 1
      devices := []
      nodes := g.nodes.map (fun (e : Nat × GroupNode) =>
        (e.1, { e.2 with arrived := 0, passed := false, cur := e.2.pending })) }).unbind

/-- Every PC-group of a gang of the partition that waits in ngwait for the generation goes on, with the acquire at the group's
scope (R267, R270). -/
def State.wakeWaiter (s : State) (part gid key : Nat) : State :=
  let g := s.gangAt key
  if decide ((s.wgAt g.wid).part = part) && g.flow.blocks.any (fun b => decide (b.2 = .groupWait gid)) then
    (s.acquireActs g.core (ngScope (s.ngEntry part gid))).updGangAt key (fun g =>
      (List.range 8).foldl (fun g _ => g.finishBlock (.groupWait gid) (fun g => g)) g)
  else s

/-- A generation of a group completes at every node of this device, and wakes its waiters (R267). -/
def State.endGeneration (s : State) (part gid : Nat) : State :=
  s.liveGangs.foldl (fun s k => s.wakeWaiter part gid k) (s.updGroup (groupKey part gid) NamedGroup.complete)

/-- The workgroup of a key is the member that a place's bit stands for: the one that holds the position, or where none does
the one alone there (R268). -/
def State.settles (s : State) (g : NamedGroup) (w : Workgroup) (key level : Nat) (p : NgPlace) : Bool :=
  (bit (g.node p.node).cur p.pos || bit (g.node p.node).pending p.pos) && (match mapFind p.key g.members with
    | some k => decide (k = key)
    | none => (decide (2 ≤ level) || decide (g.bound = some p.home) || g.bound.isNone) &&
        !s.wgs.any (fun e => e.2.live && decide (e.1 ≠ key) && decide (e.2.part = w.part) &&
          decide ((e.2.ngPlace g e.1 level).map (·.key) = some p.key)))

/-- Before a workgroup is saved, the groups record the positions that stand for it: it keeps them (R273). -/
def State.holdPlaces (s : State) (wid : Nat) : State :=
  let w := s.wgAt wid
  s.groups.foldl (fun s kg =>
    let level := ngLevel (s.ngEntry w.part (kg.1 % 1024))
    match w.ngPlace kg.2 wid level with
    | some p =>
      if decide (kg.1 / 1024 = w.part) && s.settles kg.2 w wid level p then
        s.updGroup kg.1 (fun g => { g with members := mapPut p.key wid g.members })
      else s
    | none => s) s

/-- A retired workgroup's membership is settled (R268): it counts as arrived, and its bit leaves the pending masks.
`key` is the number under which it holds its positions. -/
def State.settleGroups (s : State) (w : Workgroup) (key : Nat) : State :=
  s.groups.foldl (fun s kg =>
    if kg.1 / 1024 ≠ w.part then s
    else
      let e := s.ngEntry w.part (kg.1 % 1024)
      match w.ngPlace kg.2 key (ngLevel e) with
      | none => s
      | some p =>
        if !s.settles kg.2 w key (ngLevel e) p then s
        else s.updGroup kg.1 (fun g =>
          let g := if bit (g.node p.node).cur p.pos then g.updNode p.node (fun n => { n with arrived := putBit n.arrived p.pos true })
            else g
          ({ g with members := mapDrop p.key g.members }).leave (ngLevel e) p)) s

/-- A workgroup retires from its named groups (R268). -/
def State.groupRetire (s : State) (wid : Nat) : State := s.settleGroups (s.wgAt wid) wid

/-- A wait at a named group ends (R270). -/
def State.groupFreed (s : State) (g : Gang) (b : Block) : Bool :=
  let w := s.wgAt g.wid
  let gid := match b with
    | .groupArrive i => i
    | .groupWait i => i
    | .groupMember i => i
    | .groupGen i _ => i
    | _ => 0
  let e := s.ngEntry w.part gid
  let ng := s.groupAt (groupKey w.part gid)
  match w.ngPlace ng g.wid (ngLevel e) with
  | none => true
  | some p => !s.ngMember ng p g.wid (ngLevel e) || (match b with
    | .groupArrive _ => !bit (ng.node p.node).arrived p.pos
    | .groupWait _ => !bit (ng.node p.node).arrived p.pos
    | .groupMember _ => bit (ng.node p.node).cur p.pos
    | .groupGen _ n => decide (ng.gen.toNat ≠ n)
    | _ => true)

end Sys2Proof.Machine
end

