-- ==== Sys2Proof/Machine/Cells.lean ====
section
/-! DEFINITION. Accesses of the agents outside the cores under a PASID (17 R412, R415), the notice rings (R484), and the
trigger cells: raises, fires and arming (15 R380 to R384). -/

namespace Sys2Proof.Machine

/-! ### Byte runs of an agent outside the cores -/

/-- Pieces of [va, va + n) that do not cross a 128-byte line: address, offset and length. -/
def linePieces : Nat → Nat → Nat → Nat → List (Nat × Nat × Nat)
  | 0, _, _, _ => []
  | fuel + 1, va, off, n =>
    if n = 0 then []
    else
      let k := min n (128 - va % 128)
      (va, off, k) :: linePieces fuel (va + k) (off + k) (n - k)

/-- The pieces of a run. -/
def runPieces (va n : Nat) : List (Nat × Nat × Nat) := linePieces (n / 128 + 2) va 0 n

/-- Bytes that another device answers with: free values (log entries 5 and 21, DESIGN CHOICE). -/
def State.farBytes (s : State) (n : Nat) : State × List Byte :=
  ({ s with fresh := s.fresh + n }, (List.range n).map (fun i => (Config.freeValue (s.fresh + i)).setWidth 8))

/-- An access of an agent outside the cores that a table refuses, or that reads a poisoned line (18 R443, R444;
19 R455). -/
def State.refuseDirect (s : State) (part cls pasid kind : Nat) : Reach → State
  | .refused o pa => s.alarm o pa part cls pasid kind
  | .bad _ => { s with alarms := s.alarms ++ [(1, pasid, part)] }
  | _ => s

/-- The translation cache of a master outside the cores (09 R235): the queue front end's, or the cell store's for class 4
(log entry 11, DEDUCED). -/
def ioDie (cls : Nat) : Nat := if cls = 4 then 1 else 0

/-- Why an access of an agent outside the cores does not perform: a translation fault with its cause and address; or a place
that is not canonical, is refused, or is poisoned. -/
inductive IoErr where
  | fault (c va : Nat)
  | stop
deriving DecidableEq, Repr

/-- Read the pieces of a run at their homes under a PASID. -/
def State.readPieces (part cls pasid : Nat) : List (Nat × Nat × Nat) → State → State × Except IoErr (List Byte)
  | [], s => (s, .ok [])
  | (va, _, n) :: ps, s =>
    if !canonical va then (s, .error .stop)
    else match s.translateIo (ioDie cls) pasid va .read with
      | .error c => (s, .error (.fault c va))
      | .ok (s, x) =>
        let r := s.reach part 1 x
        match r with
        | .here a _ =>
          let t := State.readPieces part cls pasid ps s
          (t.1, t.2.map (s.readHomeList a n ++ ·))
        | .away _ _ =>
          let f := s.farBytes n
          let t := State.readPieces part cls pasid ps f.1
          (t.1, t.2.map (f.2 ++ ·))
        | r => (s.refuseDirect part cls pasid 0 r, .error .stop)

/-- Read `n` bytes at a virtual address for a master of class `cls` of a partition. -/
def State.readRun (s : State) (part cls pasid va n : Nat) : State × Except IoErr (List Byte) :=
  State.readPieces part cls pasid (runPieces va n) s

/-- The same, for a reader that asks no one to resolve a fault. -/
def State.dirRead (s : State) (part cls pasid va n : Nat) : State × Option (List Byte) :=
  let r := s.readRun part cls pasid va n
  (r.1, r.2.toOption)

/-- The places of the pieces of a run that is written. -/
def State.writePlaces (part cls pasid : Nat) : List (Nat × Nat × Nat) → State → State × Except IoErr (List (Reach × Nat × Nat))
  | [], s => (s, .ok [])
  | (va, off, n) :: ps, s =>
    if !canonical va then (s, .error .stop)
    else match s.translateIo (ioDie cls) pasid va .write with
      | .error c => (s, .error (.fault c va))
      | .ok (s, x) =>
        match s.reach part 2 x with
        | .here a lw =>
          let t := State.writePlaces part cls pasid ps s
          (t.1, t.2.map ((.here a lw, off, n) :: ·))
        | .away pa pg =>
          let t := State.writePlaces part cls pasid ps s
          (t.1, t.2.map ((.away pa pg, off, n) :: ·))
        | r => (s.refuseDirect part cls pasid 1 r, .error .stop)

/-- Write bytes at a virtual address: every piece is translated and admitted before any is written. Pieces on another
device go as messages of operation `op`. -/
def State.writeRun (s : State) (op part cls pasid va : Nat) (bs : List Byte) : State × Except IoErr Unit :=
  match State.writePlaces part cls pasid (runPieces va bs.length) s with
  | (s, .error e) => (s, .error e)
  | (s, .ok ps) =>
    (ps.foldl (fun s p => match p with
      | (.here a _, off, n) => s.writeHomeList a ((bs.drop off).take n)
      | (.away pa _, off, n) =>
        s.send { Msg.blank with kind := .write n, dst := pa / 2 ^ 40, addr := pa, part := part, pasid := pasid,
                                data := ofBytesLE ((bs.drop off).take n), gang := noGang, opid := op, reg := 0xFF }
      | _ => s) s, .ok ())

/-- The same, for a writer that waits for nothing and asks no one to resolve a fault: whether it was admitted. -/
def State.dirWrite (s : State) (part cls pasid va : Nat) (bs : List Byte) : State × Bool :=
  let r := s.writeRun noGang part cls pasid va bs
  (r.1, r.2.toBool)

/-! ### Notices (17 R431, R484) -/

/-- The firmware writes a notice into the partition's ring; a full ring drops it, and its number is used (R484)
(log entry 30, DEDUCED). -/
def State.notice (s : State) (part reason what pend counter : Nat) : State :=
  let p := s.partAt part
  let a := p.notice.1 + 64 * (p.noticeIdx % p.notice.2)
  let entry := 1 + reason * 2 ^ 8 + what % 2 ^ 16 * 2 ^ 16 + pend % 2 ^ 8 * 2 ^ 32 + counter % 2 ^ 32 * 2 ^ 64 +
    p.noticeSeq % 2 ^ 32 * 2 ^ 96 + s.clock.toNat * 2 ^ 128
  let s := s.updPart part (fun p => { p with noticeSeq := p.noticeSeq + 1 })
  if p.notice.2 = 0 || s.byteAt a ≠ 0 then s
  else (s.writeHomeNum a 64 entry).updPart part (fun p => { p with noticeIdx := p.noticeIdx + 1 })

/-! ### Queues as a cell sees them (17 R411, R412) -/

/-- Fields of a queue's descriptor. -/
def Queue.byte (q : Queue) (off n : Nat) : Nat := ofBytesLE ((q.desc.drop off).take n)
/-- V. -/
def Queue.valid (q : Queue) : Bool := bit (q.byte 0x0B 1) 0
/-- Owning partition. -/
def Queue.part (q : Queue) : Nat := q.byte 0x0A 1
/-- PASID. -/
def Queue.pasid (q : Queue) : Nat := q.byte 0x0C 4
/-- Ring size in units. -/
def Queue.size (q : Queue) : Nat := 2 ^ q.byte 0x08 1
/-- Units that the ring holds: those between the indices and those that fires have copied. -/
def Queue.used (q : Queue) : Nat := (q.wr - q.rd).toNat + (q.fed.map (fun e => e.2.length / 8)).sum

/-! ### Raises and fires (15 R381) -/

/-- ovf is set and the reeve is notified (R381, 17 R431). -/
def State.cellOvf (s : State) (k reason : Nat) : State :=
  let c := s.cellAt k
  let s := s.setCell k { c with flags := c.flags ||| 8 }
  match c.owner with
  | some p => s.notice p reason k c.pend c.counter
  | none => s

/-- Copy a cell's bound packet into its queue: false when the queue has no room. A packet that cannot be read or is too
long, and a queue that is not the owner's, set ovf and the fire is gone (R381). -/
def State.copyFire (s : State) (k : Nat) : State × Bool :=
  let c := s.cellAt k
  let q := s.queueAt (c.queue % 4096)
  if !q.valid || decide (some q.part ≠ c.owner) then (s.cellOvf k 3, true)
  else
    let h := s.dirRead q.part 5 c.pasid c.packet.toNat 8
    let units := field (ofBytesLE (h.2.getD [])) 16 16
    if h.2.isNone || decide (units = 0) || decide (32 < units) then (h.1.cellOvf k 2, true)
    else
      let r := h.1.dirRead q.part 5 c.pasid c.packet.toNat (8 * units)
      match r.2 with
      | none => (r.1.cellOvf k 2, true)
      | some bs =>
        if q.size < q.used + units then (s, false)
        else (r.1.updQueue (c.queue % 4096) (fun q => { q with fed := q.fed ++ [(q.wr, bs)] }), true)

/-- One fire (R381): copied, or held while the queue is full or earlier fires are held. -/
def State.fireOnce (s : State) (k : Nat) : State :=
  let c := s.cellAt k
  let q := s.queueAt (c.queue % 4096)
  let hold := fun (s : State) =>
    if 255 ≤ c.pend then s.cellOvf k 1 else s.setCell k { s.cellAt k with pend := c.pend + 1 }
  let s :=
    if !q.valid || decide (some q.part ≠ c.owner) then s.cellOvf k 3
    else if c.pend ≠ 0 then hold s
    else
      let r := s.copyFire k
      if r.2 then r.1 else hold r.1
  let c := s.cellAt k
  s.setCell k (if bit c.flags.toNat 1 then { c with counter := c.counter - c.threshold }
    else { c with flags := c.flags &&& ~~~ 1 })

/-- Fire while armed and the counter reaches the threshold. -/
def State.fireLoop (k : Nat) : Nat → State → State
  | 0, s => s
  | n + 1, s =>
    let c := s.cellAt k
    if bit c.flags.toNat 0 && decide (c.threshold ≤ c.counter) then State.fireLoop k n (s.fireOnce k) else s

/-- A raise by `n`, firing included (R381, R384). -/
def State.raiseCell (s : State) (k n : Nat) : State :=
  let c := s.cellAt k
  let v := c.counter + n
  let s := s.setCell k { c with counter := min v (2 ^ 32 - 1) }
  let s := if 2 ^ 32 ≤ v then s.cellOvf k 0 else s
  s.fireLoop k (min v (2 ^ 32 - 1) / c.threshold + 1)

/-- PENDING_FIRE_COPY (R381): a held fire is copied once the queue has room. -/
def execPendingFireCopy (cell : Nat) (s : State) : Res :=
  let c := s.cellAt cell
  if c.pend = 0 then .next s
  else
    let r := s.copyFire cell
    .next (if r.2 then r.1.setCell cell { r.1.cellAt cell with pend := c.pend - 1 } else s)

/-! ### Arming (15 R380, R382) -/

/-- A number of a block. -/
def blockNum (b : List Byte) (off n : Nat) : Nat := ofBytesLE ((b.drop off).take n)

/-- Every byte of [off, off + n) is 0. -/
def blockZero (b : List Byte) (off n : Nat) : Bool := decide (blockNum b off n = 0)

/-- The block checks of tcarm (R382, R380). -/
def cellBlockOk (b : List Byte) : Bool :=
  let inbox := blockNum b 0 8
  let flags := blockNum b 0x1E 2
  let service := bit flags 2
  let ilog := blockNum b 0x25 1
  decide (flags < 8) && decide (blockNum b 0x0C 4 ≠ 0) && decide (blockNum b 0x10 8 % 8 = 0) &&
  decide (blockNum b 0x18 2 < 4096) && decide (blockNum b 0x20 4 < 2 ^ 20) && blockZero b 0x24 1 && decide (ilog ≤ 12) &&
  blockZero b 0x26 26 &&
  (if service then decide (inbox ≠ 0) && decide (inbox % 128 = 0) else decide (inbox = 0) && decide (ilog = 0))

/-- Write a cell from its block and fire it (R382). -/
def State.armCell (s : State) (k : Nat) (b : List Byte) (pasid part : Nat) : State :=
  let c : TCell := { inbox := BitVec.ofNat 64 (blockNum b 0 8), counter := blockNum b 8 4, threshold := blockNum b 0x0C 4
                     packet := BitVec.ofNat 64 (blockNum b 0x10 8), queue := blockNum b 0x18 2
                     tagm := BitVec.ofNat 16 (blockNum b 0x1A 2), tagv := BitVec.ofNat 16 (blockNum b 0x1C 2)
                     flags := BitVec.ofNat 16 (blockNum b 0x1E 2 % 8), pasid := pasid, owner := some part
                     ilog := blockNum b 0x25 1, pend := 0, tail := 0, bind := 0, head := 0, fin := [] }
  (s.setCell k c).fireLoop k (c.counter / c.threshold + 1)

/-- The cell may be armed by the partition: it owns it, and a service cell's inbox is empty (R366). -/
def TCell.armable (c : TCell) (part : Nat) : Bool :=
  decide (c.owner = some part) && !(bit c.flags.toNat 2 && decide (c.tail ≠ c.head))

end Sys2Proof.Machine
end

