-- ==== Sys2Proof/Decode.lean ====
section
/-! DEFINITION. The decoder from 32-bit words to instructions and the encoder back, from the formats of 02 R36 to R38,
the opcode grid of R44 and the sub-ops of R45. -/

namespace Sys2Proof

/-- Bits [lo + n - 1 : lo] of a word. -/
abbrev fld (w : Word) (lo n : Nat) : BitVec n := w.extractLsb' lo n

/-- The instruction, unless a reserved bit of the word (a bit of the mask) is 1 (R46). -/
def reservedZero (w mask : Word) (i : Instr) : Except Reject Instr :=
  if w &&& mask = 0 then .ok i else .error .reservedField


/-- Row 0_ of the opcode grid (R44): the opcodes 0x00 to 0x0F, by their low digit. -/
def parseRow0 (w : Word) (lo : Nat) : Except Reject Instr :=
  match lo with
  | 1 => reservedZero w 0x0#32 (.br (fld w 19 5) (fld w 18 1) (fld w 16 2) (fld w 0 16))
  | 2 => reservedZero w 0xff00ff#32 (.brx (fld w 8 8))
  | 3 => reservedZero w 0x0#32 (.call (fld w 0 24))
  | 4 => reservedZero w 0xff00ff#32 (.callx (fld w 8 8))
  | 5 =>
    if fld w 16 8 = 0#8 then reservedZero w 0xffff#32 (.ret)
    else .error .reservedSubOp
  | 6 =>
    if fld w 16 8 = 0#8 then reservedZero w 0xff#32 (.regang (fld w 8 8))
    else .error .reservedSubOp
  | 7 =>
    if fld w 16 8 = 0#8 then reservedZero w 0xffff#32 (.exit)
    else .error .reservedSubOp
  | 8 => reservedZero w 0xffffff#32 (.nop)
  | 9 =>
    if fld w 16 8 = 0#8 then reservedZero w 0xffff#32 (.yield)
    else .error .reservedSubOp
  | 10 =>
    if fld w 16 8 = 0#8 then reservedZero w 0xffff#32 (.promo)
    else if fld w 16 8 = 1#8 then reservedZero w 0xffff#32 (.promoDemote)
    else .error .reservedSubOp
  | _ => .error .unassignedOpcode

/-- Row 1_ of the opcode grid (R44): the opcodes 0x10 to 0x1F, by their low digit. -/
def parseRow1 (w : Word) (lo : Nat) : Except Reject Instr :=
  match lo with
  | 0 => reservedZero w 0x0#32 (.pand (fld w 16 8) (fld w 8 8) (fld w 0 8))
  | 1 => reservedZero w 0x0#32 (.por (fld w 16 8) (fld w 8 8) (fld w 0 8))
  | 2 => reservedZero w 0x0#32 (.pxor (fld w 16 8) (fld w 8 8) (fld w 0 8))
  | 3 => reservedZero w 0xff#32 (.pnot (fld w 16 8) (fld w 8 8))
  | 4 => reservedZero w 0xffff#32 (.exsave (fld w 16 8))
  | 5 => reservedZero w 0xfe#32 (.exand (fld w 16 8) (fld w 8 8) (fld w 0 1))
  | 6 => reservedZero w 0xff00ff#32 (.exload (fld w 8 8))
  | 7 => reservedZero w 0xff#32 (.ballot (fld w 16 8) (fld w 8 8))
  | 8 => reservedZero w 0xfc#32 (.vote (fld w 16 8) (fld w 8 8) (fld w 0 2))
  | 9 => reservedZero w 0xff#32 (.popc (fld w 16 8) (fld w 8 8))
  | 10 => reservedZero w 0xff#32 (.mpfx (fld w 16 8) (fld w 8 8))
  | 11 => reservedZero w 0x0#32 (.shfl (fld w 16 8) (fld w 8 8) (fld w 0 8))
  | 12 => reservedZero w 0x3fe0#32 (.shfli (fld w 16 8) (fld w 14 2) (fld w 0 5))
  | 13 => reservedZero w 0xf8#32 (.gred (fld w 16 8) (fld w 8 8) (fld w 0 3))
  | 14 => reservedZero w 0xff#32 (.psets (fld w 16 8) (fld w 8 8))
  | _ => .error .unassignedOpcode

/-- Row 2_ of the opcode grid (R44): the opcodes 0x20 to 0x2F, by their low digit. -/
def parseRow2 (w : Word) (lo : Nat) : Except Reject Instr :=
  match lo with
  | 0 => reservedZero w 0xf80000#32 (.mset (fld w 16 3) (fld w 0 16))
  | 1 => reservedZero w 0x800000#32 (.msetg (fld w 0 23))
  | 2 => reservedZero w 0xffff#32 (.mget (fld w 16 8))
  | 3 => reservedZero w 0xff00ff#32 (.msetr (fld w 8 8))
  | 4 => reservedZero w 0x0#32 (.wait (fld w 18 6) (fld w 12 6) (fld w 6 6) (fld w 0 6))
  | 5 => reservedZero w 0xfff800#32 (.waitr (fld w 8 3) (fld w 0 8))
  | 6 => reservedZero w 0x0#32 (.regrow (fld w 16 8) (fld w 0 16))
  | 7 => reservedZero w 0xff0000#32 (.regshr (fld w 0 16))
  | 8 => reservedZero w 0xffff#32 (.flget (fld w 16 8))
  | 9 => reservedZero w 0xffffe0#32 (.flclr (fld w 0 5))
  | _ => .error .unassignedOpcode

/-- Row 3_ of the opcode grid (R44): the opcodes 0x30 to 0x3F, by their low digit. -/
def parseRow3 (w : Word) (lo : Nat) : Except Reject Instr :=
  match lo with
  | 0 => reservedZero w 0x0#32 (.sadd (fld w 16 8) (fld w 8 8) (fld w 0 8))
  | 1 => reservedZero w 0x0#32 (.ssub (fld w 16 8) (fld w 8 8) (fld w 0 8))
  | 2 => reservedZero w 0x0#32 (.smul (fld w 16 8) (fld w 8 8) (fld w 0 8))
  | 3 => reservedZero w 0x0#32 (.sand (fld w 16 8) (fld w 8 8) (fld w 0 8))
  | 4 => reservedZero w 0x0#32 (.sor (fld w 16 8) (fld w 8 8) (fld w 0 8))
  | 5 => reservedZero w 0x0#32 (.sxor (fld w 16 8) (fld w 8 8) (fld w 0 8))
  | 6 => reservedZero w 0x0#32 (.sshl (fld w 16 8) (fld w 8 8) (fld w 0 8))
  | 7 => reservedZero w 0x0#32 (.sshr (fld w 16 8) (fld w 8 8) (fld w 0 8))
  | 8 => reservedZero w 0x0#32 (.sslt (fld w 16 8) (fld w 8 8) (fld w 0 8))
  | 9 => reservedZero w 0x0#32 (.smovi (fld w 16 8) (fld w 0 16))
  | 10 => reservedZero w 0x0#32 (.smovhi (fld w 16 8) (fld w 0 16))
  | 11 => reservedZero w 0x0#32 (.sread (fld w 16 8) (fld w 8 8) (fld w 0 8))
  | _ => .error .unassignedOpcode

/-- Row 4_ of the opcode grid (R44): the opcodes 0x40 to 0x4F, by their low digit. -/
def parseRow4 (w : Word) (lo : Nat) : Except Reject Instr :=
  match lo with
  | 0 => reservedZero w 0x0#32 (.iadd (fld w 16 8) (fld w 8 8) (fld w 0 8))
  | 1 => reservedZero w 0x0#32 (.isub (fld w 16 8) (fld w 8 8) (fld w 0 8))
  | 2 => reservedZero w 0x0#32 (.imul (fld w 16 8) (fld w 8 8) (fld w 0 8))
  | 3 => reservedZero w 0x0#32 (.imulh (fld w 16 8) (fld w 8 8) (fld w 0 8))
  | 4 => reservedZero w 0x0#32 (.imad (fld w 16 8) (fld w 8 8) (fld w 0 8))
  | 5 => reservedZero w 0x0#32 (.idiv (fld w 16 8) (fld w 8 8) (fld w 0 8))
  | 6 => reservedZero w 0x0#32 (.irem (fld w 16 8) (fld w 8 8) (fld w 0 8))
  | 7 => reservedZero w 0x0#32 (.imin (fld w 16 8) (fld w 8 8) (fld w 0 8))
  | 8 => reservedZero w 0x0#32 (.imax (fld w 16 8) (fld w 8 8) (fld w 0 8))
  | 9 => reservedZero w 0xff#32 (.iabs (fld w 16 8) (fld w 8 8))
  | 10 => reservedZero w 0xff#32 (.ineg (fld w 16 8) (fld w 8 8))
  | 11 => reservedZero w 0x0#32 (.icmpeq (fld w 16 8) (fld w 8 8) (fld w 0 8))
  | 12 => reservedZero w 0x0#32 (.icmpne (fld w 16 8) (fld w 8 8) (fld w 0 8))
  | 13 => reservedZero w 0x0#32 (.icmplt (fld w 16 8) (fld w 8 8) (fld w 0 8))
  | 14 => reservedZero w 0x0#32 (.icmple (fld w 16 8) (fld w 8 8) (fld w 0 8))
  | 15 => reservedZero w 0x0#32 (.isel (fld w 16 8) (fld w 8 8) (fld w 0 8))
  | _ => .error .unassignedOpcode

/-- Row 5_ of the opcode grid (R44): the opcodes 0x50 to 0x5F, by their low digit. -/
def parseRow5 (w : Word) (lo : Nat) : Except Reject Instr :=
  match lo with
  | 0 => reservedZero w 0x0#32 (.imovi (fld w 16 8) (fld w 0 16))
  | 1 => reservedZero w 0x0#32 (.imovhi (fld w 16 8) (fld w 0 16))
  | 2 => reservedZero w 0xff#32 (.vbcst (fld w 16 8) (fld w 8 8))
  | 3 => reservedZero w 0x0#32 (.iaddi (fld w 16 8) (fld w 0 16))
  | 4 => reservedZero w 0x0#32 (.iaddc (fld w 16 8) (fld w 8 8) (fld w 0 8))
  | 5 => reservedZero w 0x0#32 (.imadw (fld w 16 8) (fld w 8 8) (fld w 0 8))
  | _ => .error .unassignedOpcode

/-- Row 6_ of the opcode grid (R44): the opcodes 0x60 to 0x6F, by their low digit. -/
def parseRow6 (w : Word) (lo : Nat) : Except Reject Instr :=
  match lo with
  | 0 => reservedZero w 0x0#32 (.and (fld w 16 8) (fld w 8 8) (fld w 0 8))
  | 1 => reservedZero w 0x0#32 (.or (fld w 16 8) (fld w 8 8) (fld w 0 8))
  | 2 => reservedZero w 0x0#32 (.xor (fld w 16 8) (fld w 8 8) (fld w 0 8))
  | 3 => reservedZero w 0x0#32 (.shl (fld w 16 8) (fld w 8 8) (fld w 0 8))
  | 4 => reservedZero w 0x0#32 (.shr (fld w 16 8) (fld w 8 8) (fld w 0 8))
  | 5 => reservedZero w 0x0#32 (.sar (fld w 16 8) (fld w 8 8) (fld w 0 8))
  | 6 => reservedZero w 0x0#32 (.rol (fld w 16 8) (fld w 8 8) (fld w 0 8))
  | 7 => reservedZero w 0x0#32 (.ror (fld w 16 8) (fld w 8 8) (fld w 0 8))
  | 8 => reservedZero w 0xff#32 (.bcnt (fld w 16 8) (fld w 8 8))
  | 9 => reservedZero w 0xff#32 (.clz (fld w 16 8) (fld w 8 8))
  | 10 => reservedZero w 0x0#32 (.bfe (fld w 16 8) (fld w 8 8) (fld w 0 8))
  | 11 => reservedZero w 0x0#32 (.bfi (fld w 16 8) (fld w 8 8) (fld w 0 8))
  | 12 => reservedZero w 0x0#32 (.lea (fld w 16 8) (fld w 8 8) (fld w 0 8))
  | _ => .error .unassignedOpcode

/-- Row 7_ of the opcode grid (R44): the opcodes 0x70 to 0x7F, by their low digit. -/
def parseRow7 (w : Word) (lo : Nat) : Except Reject Instr :=
  match lo with
  | 0 => reservedZero w 0x0#32 (.cvt (fld w 16 8) (fld w 8 8) (fld w 0 8))
  | 1 => reservedZero w 0xff#32 (.cvtpk (fld w 16 8) (fld w 8 8))
  | 2 => reservedZero w 0xff#32 (.unpk (fld w 16 8) (fld w 8 8))
  | 3 => reservedZero w 0xff#32 (.frint (fld w 16 8) (fld w 8 8))
  | 4 => reservedZero w 0x0#32 (.cvtq (fld w 16 8) (fld w 8 8) (fld w 0 8))
  | 5 => reservedZero w 0x0#32 (.cvtdq (fld w 16 8) (fld w 8 8) (fld w 0 8))
  | _ => .error .unassignedOpcode

/-- Row 8_ of the opcode grid (R44): the opcodes 0x80 to 0x8F, by their low digit. -/
def parseRow8 (w : Word) (lo : Nat) : Except Reject Instr :=
  match lo with
  | 0 => reservedZero w 0x0#32 (.fadd (fld w 16 8) (fld w 8 8) (fld w 0 8))
  | 1 => reservedZero w 0x0#32 (.fsub (fld w 16 8) (fld w 8 8) (fld w 0 8))
  | 2 => reservedZero w 0x0#32 (.fmul (fld w 16 8) (fld w 8 8) (fld w 0 8))
  | 3 => reservedZero w 0x0#32 (.ffma (fld w 16 8) (fld w 8 8) (fld w 0 8))
  | 4 => reservedZero w 0x0#32 (.ffms (fld w 16 8) (fld w 8 8) (fld w 0 8))
  | 5 => reservedZero w 0x0#32 (.fnma (fld w 16 8) (fld w 8 8) (fld w 0 8))
  | 6 => reservedZero w 0x0#32 (.fmin (fld w 16 8) (fld w 8 8) (fld w 0 8))
  | 7 => reservedZero w 0x0#32 (.fmax (fld w 16 8) (fld w 8 8) (fld w 0 8))
  | 8 => reservedZero w 0xff#32 (.fabs (fld w 16 8) (fld w 8 8))
  | 9 => reservedZero w 0xff#32 (.fneg (fld w 16 8) (fld w 8 8))
  | 10 => reservedZero w 0xff#32 (.vmov (fld w 16 8) (fld w 8 8))
  | 11 => reservedZero w 0x0#32 (.fcmpeq (fld w 16 8) (fld w 8 8) (fld w 0 8))
  | 12 => reservedZero w 0x0#32 (.fcmplt (fld w 16 8) (fld w 8 8) (fld w 0 8))
  | 13 => reservedZero w 0x0#32 (.fcmple (fld w 16 8) (fld w 8 8) (fld w 0 8))
  | 14 => reservedZero w 0x0#32 (.fcmpun (fld w 16 8) (fld w 8 8) (fld w 0 8))
  | 15 => reservedZero w 0xff#32 (.fclass (fld w 16 8) (fld w 8 8))
  | _ => .error .unassignedOpcode

/-- Row 9_ of the opcode grid (R44): the opcodes 0x90 to 0x9F, by their low digit. -/
def parseRow9 (w : Word) (lo : Nat) : Except Reject Instr :=
  match lo with
  | 0 => reservedZero w 0xff#32 (.frcp (fld w 16 8) (fld w 8 8))
  | 1 => reservedZero w 0xff#32 (.frsq (fld w 16 8) (fld w 8 8))
  | 2 => reservedZero w 0xff#32 (.fsqrt (fld w 16 8) (fld w 8 8))
  | 3 => reservedZero w 0x0#32 (.fdiv (fld w 16 8) (fld w 8 8) (fld w 0 8))
  | 4 => reservedZero w 0xff#32 (.fexp2 (fld w 16 8) (fld w 8 8))
  | 5 => reservedZero w 0xff#32 (.flog2 (fld w 16 8) (fld w 8 8))
  | 6 => reservedZero w 0x0#32 (.fhadd (fld w 16 8) (fld w 8 8) (fld w 0 8))
  | 7 => reservedZero w 0x0#32 (.fhmul (fld w 16 8) (fld w 8 8) (fld w 0 8))
  | 8 => reservedZero w 0x0#32 (.fhfma (fld w 16 8) (fld w 8 8) (fld w 0 8))
  | 9 => reservedZero w 0x0#32 (.fhmin (fld w 16 8) (fld w 8 8) (fld w 0 8))
  | 10 => reservedZero w 0x0#32 (.fhmax (fld w 16 8) (fld w 8 8) (fld w 0 8))
  | 11 => reservedZero w 0x0#32 (.fdot2 (fld w 16 8) (fld w 8 8) (fld w 0 8))
  | 12 => reservedZero w 0x0#32 (.fsel (fld w 16 8) (fld w 8 8) (fld w 0 8))
  | 13 => reservedZero w 0x0#32 (.fscale (fld w 16 8) (fld w 8 8) (fld w 0 8))
  | 14 => reservedZero w 0xff#32 (.fgetexp (fld w 16 8) (fld w 8 8))
  | 15 => reservedZero w 0x0#32 (.fcopysign (fld w 16 8) (fld w 8 8) (fld w 0 8))
  | _ => .error .unassignedOpcode

/-- Row A_ of the opcode grid (R44): the opcodes 0xA0 to 0xAF, by their low digit. -/
def parseRowA (w : Word) (lo : Nat) : Except Reject Instr :=
  match lo with
  | 0 => reservedZero w 0x0#32 (.ldb (fld w 16 8) (fld w 8 8) (fld w 2 6) (fld w 0 2))
  | 1 => reservedZero w 0x0#32 (.ldbs (fld w 16 8) (fld w 8 8) (fld w 2 6) (fld w 0 2))
  | 2 => reservedZero w 0x0#32 (.ldh (fld w 16 8) (fld w 8 8) (fld w 2 6) (fld w 0 2))
  | 3 => reservedZero w 0x0#32 (.ldhs (fld w 16 8) (fld w 8 8) (fld w 2 6) (fld w 0 2))
  | 4 => reservedZero w 0x0#32 (.ldw (fld w 16 8) (fld w 8 8) (fld w 2 6) (fld w 0 2))
  | 5 => reservedZero w 0x0#32 (.ldd (fld w 16 8) (fld w 8 8) (fld w 2 6) (fld w 0 2))
  | 6 => reservedZero w 0x0#32 (.ldq (fld w 16 8) (fld w 8 8) (fld w 2 6) (fld w 0 2))
  | 7 => reservedZero w 0x8#32 (.ldAcq (fld w 16 8) (fld w 8 8) (fld w 5 3) (fld w 4 1) (fld w 2 1) (fld w 0 2))
  | 8 => reservedZero w 0x0#32 (.stb (fld w 16 8) (fld w 8 8) (fld w 2 6) (fld w 0 2))
  | 9 => reservedZero w 0x0#32 (.sth (fld w 16 8) (fld w 8 8) (fld w 2 6) (fld w 0 2))
  | 10 => reservedZero w 0x0#32 (.stw (fld w 16 8) (fld w 8 8) (fld w 2 6) (fld w 0 2))
  | 11 => reservedZero w 0x0#32 (.std (fld w 16 8) (fld w 8 8) (fld w 2 6) (fld w 0 2))
  | 12 => reservedZero w 0x0#32 (.stq (fld w 16 8) (fld w 8 8) (fld w 2 6) (fld w 0 2))
  | 13 => reservedZero w 0x8#32 (.stRel (fld w 16 8) (fld w 8 8) (fld w 5 3) (fld w 4 1) (fld w 2 1) (fld w 0 2))
  | 14 => reservedZero w 0xfe0002#32 (.pref (fld w 16 1) (fld w 8 8) (fld w 2 6) (fld w 0 1))
  | 15 => reservedZero w 0xff#32 (.pglob (fld w 16 8) (fld w 8 8))
  | _ => .error .unassignedOpcode

/-- Row B_ of the opcode grid (R44): the opcodes 0xB0 to 0xBF, by their low digit. -/
def parseRowB (w : Word) (lo : Nat) : Except Reject Instr :=
  match lo with
  | 0 => reservedZero w 0x10#32 (.atadd (fld w 16 8) (fld w 8 8) (fld w 5 3) (fld w 3 1) (fld w 2 1) (fld w 0 2))
  | 1 => reservedZero w 0x10#32 (.atfadd (fld w 16 8) (fld w 8 8) (fld w 5 3) (fld w 3 1) (fld w 2 1) (fld w 0 2))
  | 2 => reservedZero w 0x10#32 (.atmin (fld w 16 8) (fld w 8 8) (fld w 5 3) (fld w 3 1) (fld w 2 1) (fld w 0 2))
  | 3 => reservedZero w 0x10#32 (.atmax (fld w 16 8) (fld w 8 8) (fld w 5 3) (fld w 3 1) (fld w 2 1) (fld w 0 2))
  | 4 => reservedZero w 0x10#32 (.atand (fld w 16 8) (fld w 8 8) (fld w 5 3) (fld w 3 1) (fld w 2 1) (fld w 0 2))
  | 5 => reservedZero w 0x10#32 (.ator (fld w 16 8) (fld w 8 8) (fld w 5 3) (fld w 3 1) (fld w 2 1) (fld w 0 2))
  | 6 => reservedZero w 0x10#32 (.atxor (fld w 16 8) (fld w 8 8) (fld w 5 3) (fld w 3 1) (fld w 2 1) (fld w 0 2))
  | 7 => reservedZero w 0x0#32 (.atxchg (fld w 16 8) (fld w 8 8) (fld w 5 3) (fld w 4 1) (fld w 3 1) (fld w 2 1) (fld w 0 2))
  | 8 => reservedZero w 0x0#32 (.atcas (fld w 16 8) (fld w 8 8) (fld w 5 3) (fld w 4 1) (fld w 3 1) (fld w 2 1) (fld w 0 2))
  | 9 =>
    if fld w 16 8 = 0#8 then reservedZero w 0xf8ff#32 (.fenceAcq (fld w 8 3))
    else if fld w 16 8 = 1#8 then reservedZero w 0xf8ff#32 (.fenceRel (fld w 8 3))
    else if fld w 16 8 = 2#8 then reservedZero w 0xf8ff#32 (.fenceAcqrel (fld w 8 3))
    else if fld w 16 8 = 3#8 then reservedZero w 0xf8ff#32 (.fenceSc (fld w 8 3))
    else .error .reservedSubOp
  | 10 =>
    if fld w 16 8 = 0#8 then reservedZero w 0xc0c0#32 (.fencePath (fld w 8 6) (fld w 0 6))
    else .error .reservedSubOp
  | 11 => reservedZero w 0x2#32 (.mwatch (fld w 16 8) (fld w 8 8) (fld w 2 6) (fld w 0 1))
  | 12 => reservedZero w 0xff#32 (.mwait (fld w 16 8) (fld w 8 8))
  | 13 => reservedZero w 0xffffff#32 (.tick)
  | 14 => reservedZero w 0xfc0002#32 (.cmaint (fld w 16 2) (fld w 8 8) (fld w 2 6) (fld w 0 1))
  | _ => .error .unassignedOpcode

/-- Row C_ of the opcode grid (R44): the opcodes 0xC0 to 0xCF, by their low digit. -/
def parseRowC (w : Word) (lo : Nat) : Except Reject Instr :=
  match lo with
  | 0 =>
    if fld w 16 8 = 0#8 then reservedZero w 0x0#32 (.binit (fld w 8 8) (fld w 0 8))
    else .error .reservedSubOp
  | 1 => reservedZero w 0xc000ff#32 (.barv (fld w 16 6) (fld w 8 8))
  | 2 =>
    if fld w 16 8 = 0#8 then reservedZero w 0xff#32 (.bwait (fld w 8 8))
    else if fld w 16 8 = 1#8 then reservedZero w 0x0#32 (.bwaitGen (fld w 8 8) (fld w 0 8))
    else .error .reservedSubOp
  | 3 => reservedZero w 0xc000ff#32 (.barw (fld w 16 6) (fld w 8 8))
  | 4 =>
    if fld w 16 8 = 0#8 then reservedZero w 0x0#32 (.baddx (fld w 8 8) (fld w 0 8))
    else if fld w 16 8 = 1#8 then reservedZero w 0x0#32 (.baddxE (fld w 8 8) (fld w 0 8))
    else .error .reservedSubOp
  | 5 =>
    if fld w 16 8 = 0#8 then reservedZero w 0x0#32 (.btest (fld w 8 8) (fld w 0 8))
    else if fld w 16 8 = 1#8 then reservedZero w 0x0#32 (.btestWord1 (fld w 8 8) (fld w 0 8))
    else .error .reservedSubOp
  | 6 =>
    if fld w 16 8 = 0#8 then reservedZero w 0xff#32 (.ngjoin (fld w 8 8))
    else if fld w 16 8 = 1#8 then reservedZero w 0xff#32 (.ngjoinLeave (fld w 8 8))
    else .error .reservedSubOp
  | 7 => reservedZero w 0xc000ff#32 (.ngarv (fld w 16 6) (fld w 8 8))
  | 8 =>
    if fld w 16 8 = 0#8 then reservedZero w 0xff#32 (.ngwait (fld w 8 8))
    else if fld w 16 8 = 1#8 then reservedZero w 0x0#32 (.ngwaitGen (fld w 8 8) (fld w 0 8))
    else if fld w 16 8 = 2#8 then reservedZero w 0x0#32 (.ngwaitRead (fld w 8 8) (fld w 0 8))
    else .error .reservedSubOp
  | 9 =>
    if fld w 16 8 = 0#8 then reservedZero w 0x0#32 (.bsetm (fld w 8 8) (fld w 0 8))
    else if fld w 16 8 = 1#8 then reservedZero w 0x0#32 (.bsetmDevice (fld w 8 8) (fld w 0 8))
    else if fld w 16 8 = 2#8 then reservedZero w 0x0#32 (.bsetmRoot (fld w 8 8) (fld w 0 8))
    else .error .reservedSubOp
  | 10 => reservedZero w 0xc00000#32 (.cpyc (fld w 21 1) (fld w 20 1) (fld w 16 4) (fld w 8 8) (fld w 0 8))
  | 11 =>
    if fld w 16 8 = 0#8 then reservedZero w 0x0#32 (.cpy (fld w 8 8) (fld w 0 8))
    else .error .reservedSubOp
  | 12 =>
    if fld w 16 8 = 0#8 then reservedZero w 0x0#32 (.gath (fld w 8 8) (fld w 0 8))
    else .error .reservedSubOp
  | 13 =>
    if fld w 16 8 = 0#8 then reservedZero w 0x0#32 (.scat (fld w 8 8) (fld w 0 8))
    else .error .reservedSubOp
  | 14 =>
    if fld w 16 8 = 0#8 then reservedZero w 0x0#32 (.mcast (fld w 8 8) (fld w 0 8))
    else .error .reservedSubOp
  | 15 =>
    if fld w 16 8 = 0#8 then reservedZero w 0x0#32 (.sclp (fld w 8 8) (fld w 0 8))
    else if fld w 16 8 = 1#8 then reservedZero w 0x0#32 (.gqry (fld w 8 8) (fld w 0 8))
    else if fld w 16 8 = 2#8 then reservedZero w 0x0#32 (.gcncl (fld w 8 8) (fld w 0 8))
    else .error .reservedSubOp
  | _ => .error .unassignedOpcode

/-- Row D_ of the opcode grid (R44): the opcodes 0xD0 to 0xDF, by their low digit. -/
def parseRowD (w : Word) (lo : Nat) : Except Reject Instr :=
  match lo with
  | 0 => reservedZero w 0x0#32 (.expb (fld w 16 8) (fld w 8 8) (fld w 0 8))
  | 1 => reservedZero w 0x0#32 (.expbG (fld w 16 8) (fld w 8 8) (fld w 0 8))
  | 2 => reservedZero w 0xff#32 (.expn (fld w 16 8) (fld w 8 8))
  | 3 => reservedZero w 0xff#32 (.segr (fld w 16 8) (fld w 8 8))
  | 4 => reservedZero w 0xff0002#32 (.xsave (fld w 8 8) (fld w 2 6) (fld w 0 1))
  | 5 => reservedZero w 0xff0002#32 (.xrst (fld w 8 8) (fld w 2 6) (fld w 0 1))
  | 6 => reservedZero w 0xff#32 (.vsort (fld w 16 8) (fld w 8 8))
  | 7 => reservedZero w 0x0#32 (.vtopk (fld w 16 8) (fld w 8 8) (fld w 0 8))
  | 8 => reservedZero w 0x0#32 (.tkmrg (fld w 16 8) (fld w 8 8) (fld w 0 8))
  | 9 => reservedZero w 0x0#32 (.ctopk (fld w 16 8) (fld w 8 8) (fld w 0 8))
  | 10 => reservedZero w 0x0#32 (.hins (fld w 16 8) (fld w 8 8) (fld w 0 8))
  | 11 => reservedZero w 0x0#32 (.hacc (fld w 16 8) (fld w 8 8) (fld w 0 8))
  | 12 => reservedZero w 0x0#32 (.hfind (fld w 16 8) (fld w 8 8) (fld w 0 8))
  | 13 => reservedZero w 0xff0000#32 (.hinit (fld w 8 8) (fld w 0 8))
  | _ => .error .unassignedOpcode

/-- Row E_ of the opcode grid (R44): the opcodes 0xE0 to 0xEF, by their low digit. -/
def parseRowE (w : Word) (lo : Nat) : Except Reject Instr :=
  match lo with
  | 0 => reservedZero w 0x0#32 (.talloc (fld w 16 8) (fld w 8 8) (fld w 0 8))
  | 1 =>
    if fld w 16 8 = 0#8 then reservedZero w 0xff#32 (.tfree (fld w 8 8))
    else .error .reservedSubOp
  | 2 =>
    if fld w 16 8 = 0#8 then reservedZero w 0xff#32 (.mloop (fld w 8 8))
    else .error .reservedSubOp
  | 3 => reservedZero w 0xfc0000#32 (.mdrain (fld w 17 1) (fld w 16 1) (fld w 8 8) (fld w 0 8))
  | 4 =>
    if fld w 16 8 = 0#8 then reservedZero w 0xff#32 (.mzero (fld w 8 8))
    else .error .reservedSubOp
  | 5 => reservedZero w 0x0#32 (.tacc (fld w 16 8) (fld w 8 8) (fld w 0 8))
  | 6 =>
    if fld w 16 8 = 0#8 then reservedZero w 0xff#32 (.evset (fld w 8 8))
    else .error .reservedSubOp
  | 7 =>
    if fld w 16 8 = 0#8 then reservedZero w 0xff#32 (.evclr (fld w 8 8))
    else .error .reservedSubOp
  | 8 =>
    if fld w 16 8 = 0#8 then reservedZero w 0xff#32 (.evwait (fld w 8 8))
    else if fld w 16 8 = 1#8 then reservedZero w 0xff#32 (.evwaitClear (fld w 8 8))
    else .error .reservedSubOp
  | 9 =>
    if fld w 16 8 = 0#8 then reservedZero w 0xff#32 (.mpt (fld w 8 8))
    else .error .reservedSubOp
  | 10 =>
    if fld w 16 8 = 0#8 then reservedZero w 0x0#32 (.msave (fld w 8 8) (fld w 0 8))
    else .error .reservedSubOp
  | 11 =>
    if fld w 16 8 = 0#8 then reservedZero w 0x0#32 (.mrestore (fld w 8 8) (fld w 0 8))
    else .error .reservedSubOp
  | _ => .error .unassignedOpcode

/-- Row F_ of the opcode grid (R44): the opcodes 0xF0 to 0xFF, by their low digit. -/
def parseRowF (w : Word) (lo : Nat) : Except Reject Instr :=
  match lo with
  | 0 =>
    if fld w 16 8 = 0#8 then reservedZero w 0x0#32 (.rinv (fld w 8 8) (fld w 0 8))
    else .error .reservedSubOp
  | 1 =>
    if fld w 16 8 = 0#8 then reservedZero w 0x0#32 (.rinvh (fld w 8 8) (fld w 0 8))
    else .error .reservedSubOp
  | 2 => reservedZero w 0xff#32 (.rwait (fld w 16 8) (fld w 8 8))
  | 3 => reservedZero w 0xff#32 (.rpoll (fld w 16 8) (fld w 8 8))
  | 4 =>
    if fld w 16 8 = 0#8 then reservedZero w 0x0#32 (.rget (fld w 8 8) (fld w 0 8))
    else if fld w 16 8 = 1#8 then reservedZero w 0x0#32 (.rgetBarn (fld w 8 8) (fld w 0 8))
    else .error .reservedSubOp
  | 5 =>
    if fld w 16 8 = 0#8 then reservedZero w 0xff#32 (.rdrop (fld w 8 8))
    else .error .reservedSubOp
  | 6 =>
    if fld w 16 8 = 0#8 then reservedZero w 0x0#32 (.rbind (fld w 8 8) (fld w 0 8))
    else .error .reservedSubOp
  | 7 =>
    if fld w 16 8 = 0#8 then reservedZero w 0x0#32 (.rput (fld w 8 8) (fld w 0 8))
    else if fld w 16 8 = 1#8 then reservedZero w 0x0#32 (.rfail (fld w 8 8) (fld w 0 8))
    else if fld w 16 8 = 2#8 then reservedZero w 0x0#32 (.tcarm (fld w 8 8) (fld w 0 8))
    else if fld w 16 8 = 3#8 then reservedZero w 0x0#32 (.tcadd (fld w 8 8) (fld w 0 8))
    else .error .reservedSubOp
  | 8 => reservedZero w 0xff0000#32 (.trap (fld w 0 16))
  | 9 => reservedZero w 0xfe0000#32 (.tvec (fld w 16 1) (fld w 8 8) (fld w 0 8))
  | 10 =>
    if fld w 16 8 = 0#8 then reservedZero w 0xffff#32 (.tret)
    else if fld w 16 8 = 1#8 then reservedZero w 0xffff#32 (.tretSkip)
    else .error .reservedSubOp
  | 11 =>
    if fld w 16 8 = 0#8 then reservedZero w 0xff#32 (.tdone (fld w 8 8))
    else .error .reservedSubOp
  | 12 => reservedZero w 0xff#32 (.sysrd (fld w 16 8) (fld w 8 8))
  | 13 => reservedZero w 0xff#32 (.syswr (fld w 16 8) (fld w 8 8))
  | 14 =>
    if fld w 16 8 = 0#8 then reservedZero w 0x0#32 (.tlbip (fld w 8 8) (fld w 0 8))
    else if fld w 16 8 = 1#8 then reservedZero w 0xff#32 (.tlbia (fld w 8 8))
    else if fld w 16 8 = 2#8 then reservedZero w 0xffff#32 (.tlball)
    else if fld w 16 8 = 3#8 then reservedZero w 0x0#32 (.fwcall (fld w 8 8) (fld w 0 8))
    else .error .reservedSubOp
  | _ => .error .unassignedOpcode

/-- The word's instruction by its layout alone: opcode, sub-op and reserved bits (R36 to R38, R44, R45). -/
def parse (w : Word) : Except Reject Instr :=
  let lo := (fld w 24 4 : BitVec 4).toNat
  match (fld w 28 4 : BitVec 4).toNat with
  | 0 => parseRow0 w lo
  | 1 => parseRow1 w lo
  | 2 => parseRow2 w lo
  | 3 => parseRow3 w lo
  | 4 => parseRow4 w lo
  | 5 => parseRow5 w lo
  | 6 => parseRow6 w lo
  | 7 => parseRow7 w lo
  | 8 => parseRow8 w lo
  | 9 => parseRow9 w lo
  | 10 => parseRowA w lo
  | 11 => parseRowB w lo
  | 12 => parseRowC w lo
  | 13 => parseRowD w lo
  | 14 => parseRowE w lo
  | 15 => parseRowF w lo
  | _ => .error .unassignedOpcode

/-- The decoder: total on any word, rejecting by name (R46) (log entry 82, DEDUCED). -/
def decode (w : Word) : Except Reject Instr :=
  match parse w with
  | .error r => .error r
  | .ok i =>
    match illegality i with
    | none => .ok i
    | some r => .error r

/-- The encoder, from the layouts of R36 to R38 and the opcode grid: the word of an instruction, none for an event. -/
def encode (i : Instr) : Option Word :=
  match i with
  | .br p s k o => some (0x1#8 ++ p ++ s ++ k ++ o)
  | .brx a => some (0x2#8 ++ 0x0#8 ++ a ++ 0x0#8)
  | .call i => some (0x3#8 ++ i)
  | .callx a => some (0x4#8 ++ 0x0#8 ++ a ++ 0x0#8)
  | .ret => some (0x5#8 ++ 0x0#24)
  | .regang m => some (0x6#8 ++ 0x0#8 ++ m ++ 0x0#8)
  | .exit => some (0x7#8 ++ 0x0#24)
  | .nop => some (0x8#8 ++ 0x0#24)
  | .yield => some (0x9#8 ++ 0x0#24)
  | .promo => some (0xA#8 ++ 0x0#24)
  | .promoDemote => some (0xA#8 ++ 0x10000#24)
  | .pand d a b => some (0x10#8 ++ d ++ a ++ b)
  | .por d a b => some (0x11#8 ++ d ++ a ++ b)
  | .pxor d a b => some (0x12#8 ++ d ++ a ++ b)
  | .pnot d a => some (0x13#8 ++ d ++ a ++ 0x0#8)
  | .exsave d => some (0x14#8 ++ d ++ 0x0#16)
  | .exand d a b => some (0x15#8 ++ d ++ a ++ 0x0#7 ++ b)
  | .exload a => some (0x16#8 ++ 0x0#8 ++ a ++ 0x0#8)
  | .ballot d a => some (0x17#8 ++ d ++ a ++ 0x0#8)
  | .vote d a b => some (0x18#8 ++ d ++ a ++ 0x0#6 ++ b)
  | .popc d a => some (0x19#8 ++ d ++ a ++ 0x0#8)
  | .mpfx d a => some (0x1A#8 ++ d ++ a ++ 0x0#8)
  | .shfl d a b => some (0x1B#8 ++ d ++ a ++ b)
  | .shfli d m c => some (0x1C#8 ++ d ++ m ++ 0x0#9 ++ c)
  | .gred d a b => some (0x1D#8 ++ d ++ a ++ 0x0#5 ++ b)
  | .psets d a => some (0x1E#8 ++ d ++ a ++ 0x0#8)
  | .mset s i => some (0x20#8 ++ 0x0#5 ++ s ++ i)
  | .msetg i => some (0x21#8 ++ 0x0#1 ++ i)
  | .mget d => some (0x22#8 ++ d ++ 0x0#16)
  | .msetr a => some (0x23#8 ++ 0x0#8 ++ a ++ 0x0#8)
  | .wait l s c t => some (0x24#8 ++ l ++ s ++ c ++ t)
  | .waitr a b => some (0x25#8 ++ 0x0#13 ++ a ++ b)
  | .regrow d i => some (0x26#8 ++ d ++ i)
  | .regshr i => some (0x27#8 ++ 0x0#8 ++ i)
  | .flget d => some (0x28#8 ++ d ++ 0x0#16)
  | .flclr m => some (0x29#8 ++ 0x0#19 ++ m)
  | .sadd d a b => some (0x30#8 ++ d ++ a ++ b)
  | .ssub d a b => some (0x31#8 ++ d ++ a ++ b)
  | .smul d a b => some (0x32#8 ++ d ++ a ++ b)
  | .sand d a b => some (0x33#8 ++ d ++ a ++ b)
  | .sor d a b => some (0x34#8 ++ d ++ a ++ b)
  | .sxor d a b => some (0x35#8 ++ d ++ a ++ b)
  | .sshl d a b => some (0x36#8 ++ d ++ a ++ b)
  | .sshr d a b => some (0x37#8 ++ d ++ a ++ b)
  | .sslt d a b => some (0x38#8 ++ d ++ a ++ b)
  | .smovi d i => some (0x39#8 ++ d ++ i)
  | .smovhi d i => some (0x3A#8 ++ d ++ i)
  | .sread d a b => some (0x3B#8 ++ d ++ a ++ b)
  | .iadd d a b => some (0x40#8 ++ d ++ a ++ b)
  | .isub d a b => some (0x41#8 ++ d ++ a ++ b)
  | .imul d a b => some (0x42#8 ++ d ++ a ++ b)
  | .imulh d a b => some (0x43#8 ++ d ++ a ++ b)
  | .imad d a b => some (0x44#8 ++ d ++ a ++ b)
  | .idiv d a b => some (0x45#8 ++ d ++ a ++ b)
  | .irem d a b => some (0x46#8 ++ d ++ a ++ b)
  | .imin d a b => some (0x47#8 ++ d ++ a ++ b)
  | .imax d a b => some (0x48#8 ++ d ++ a ++ b)
  | .iabs d a => some (0x49#8 ++ d ++ a ++ 0x0#8)
  | .ineg d a => some (0x4A#8 ++ d ++ a ++ 0x0#8)
  | .icmpeq d a b => some (0x4B#8 ++ d ++ a ++ b)
  | .icmpne d a b => some (0x4C#8 ++ d ++ a ++ b)
  | .icmplt d a b => some (0x4D#8 ++ d ++ a ++ b)
  | .icmple d a b => some (0x4E#8 ++ d ++ a ++ b)
  | .isel d a b => some (0x4F#8 ++ d ++ a ++ b)
  | .imovi d i => some (0x50#8 ++ d ++ i)
  | .imovhi d i => some (0x51#8 ++ d ++ i)
  | .vbcst d a => some (0x52#8 ++ d ++ a ++ 0x0#8)
  | .iaddi d i => some (0x53#8 ++ d ++ i)
  | .iaddc d a b => some (0x54#8 ++ d ++ a ++ b)
  | .imadw d a b => some (0x55#8 ++ d ++ a ++ b)
  | .and d a b => some (0x60#8 ++ d ++ a ++ b)
  | .or d a b => some (0x61#8 ++ d ++ a ++ b)
  | .xor d a b => some (0x62#8 ++ d ++ a ++ b)
  | .shl d a b => some (0x63#8 ++ d ++ a ++ b)
  | .shr d a b => some (0x64#8 ++ d ++ a ++ b)
  | .sar d a b => some (0x65#8 ++ d ++ a ++ b)
  | .rol d a b => some (0x66#8 ++ d ++ a ++ b)
  | .ror d a b => some (0x67#8 ++ d ++ a ++ b)
  | .bcnt d a => some (0x68#8 ++ d ++ a ++ 0x0#8)
  | .clz d a => some (0x69#8 ++ d ++ a ++ 0x0#8)
  | .bfe d a b => some (0x6A#8 ++ d ++ a ++ b)
  | .bfi d a b => some (0x6B#8 ++ d ++ a ++ b)
  | .lea d a b => some (0x6C#8 ++ d ++ a ++ b)
  | .cvt d a b => some (0x70#8 ++ d ++ a ++ b)
  | .cvtpk d a => some (0x71#8 ++ d ++ a ++ 0x0#8)
  | .unpk d a => some (0x72#8 ++ d ++ a ++ 0x0#8)
  | .frint d a => some (0x73#8 ++ d ++ a ++ 0x0#8)
  | .cvtq d a b => some (0x74#8 ++ d ++ a ++ b)
  | .cvtdq d a b => some (0x75#8 ++ d ++ a ++ b)
  | .fadd d a b => some (0x80#8 ++ d ++ a ++ b)
  | .fsub d a b => some (0x81#8 ++ d ++ a ++ b)
  | .fmul d a b => some (0x82#8 ++ d ++ a ++ b)
  | .ffma d a b => some (0x83#8 ++ d ++ a ++ b)
  | .ffms d a b => some (0x84#8 ++ d ++ a ++ b)
  | .fnma d a b => some (0x85#8 ++ d ++ a ++ b)
  | .fmin d a b => some (0x86#8 ++ d ++ a ++ b)
  | .fmax d a b => some (0x87#8 ++ d ++ a ++ b)
  | .fabs d a => some (0x88#8 ++ d ++ a ++ 0x0#8)
  | .fneg d a => some (0x89#8 ++ d ++ a ++ 0x0#8)
  | .vmov d a => some (0x8A#8 ++ d ++ a ++ 0x0#8)
  | .fcmpeq d a b => some (0x8B#8 ++ d ++ a ++ b)
  | .fcmplt d a b => some (0x8C#8 ++ d ++ a ++ b)
  | .fcmple d a b => some (0x8D#8 ++ d ++ a ++ b)
  | .fcmpun d a b => some (0x8E#8 ++ d ++ a ++ b)
  | .fclass d a => some (0x8F#8 ++ d ++ a ++ 0x0#8)
  | .frcp d a => some (0x90#8 ++ d ++ a ++ 0x0#8)
  | .frsq d a => some (0x91#8 ++ d ++ a ++ 0x0#8)
  | .fsqrt d a => some (0x92#8 ++ d ++ a ++ 0x0#8)
  | .fdiv d a b => some (0x93#8 ++ d ++ a ++ b)
  | .fexp2 d a => some (0x94#8 ++ d ++ a ++ 0x0#8)
  | .flog2 d a => some (0x95#8 ++ d ++ a ++ 0x0#8)
  | .fhadd d a b => some (0x96#8 ++ d ++ a ++ b)
  | .fhmul d a b => some (0x97#8 ++ d ++ a ++ b)
  | .fhfma d a b => some (0x98#8 ++ d ++ a ++ b)
  | .fhmin d a b => some (0x99#8 ++ d ++ a ++ b)
  | .fhmax d a b => some (0x9A#8 ++ d ++ a ++ b)
  | .fdot2 d a b => some (0x9B#8 ++ d ++ a ++ b)
  | .fsel d a b => some (0x9C#8 ++ d ++ a ++ b)
  | .fscale d a b => some (0x9D#8 ++ d ++ a ++ b)
  | .fgetexp d a => some (0x9E#8 ++ d ++ a ++ 0x0#8)
  | .fcopysign d a b => some (0x9F#8 ++ d ++ a ++ b)
  | .ldb d a n s => some (0xA0#8 ++ d ++ a ++ n ++ s)
  | .ldbs d a n s => some (0xA1#8 ++ d ++ a ++ n ++ s)
  | .ldh d a n s => some (0xA2#8 ++ d ++ a ++ n ++ s)
  | .ldhs d a n s => some (0xA3#8 ++ d ++ a ++ n ++ s)
  | .ldw d a n s => some (0xA4#8 ++ d ++ a ++ n ++ s)
  | .ldd d a n s => some (0xA5#8 ++ d ++ a ++ n ++ s)
  | .ldq d a n s => some (0xA6#8 ++ d ++ a ++ n ++ s)
  | .ldAcq d a c r w s => some (0xA7#8 ++ d ++ a ++ c ++ r ++ 0x0#1 ++ w ++ s)
  | .stb d a n s => some (0xA8#8 ++ d ++ a ++ n ++ s)
  | .sth d a n s => some (0xA9#8 ++ d ++ a ++ n ++ s)
  | .stw d a n s => some (0xAA#8 ++ d ++ a ++ n ++ s)
  | .std d a n s => some (0xAB#8 ++ d ++ a ++ n ++ s)
  | .stq d a n s => some (0xAC#8 ++ d ++ a ++ n ++ s)
  | .stRel d a c l w s => some (0xAD#8 ++ d ++ a ++ c ++ l ++ 0x0#1 ++ w ++ s)
  | .pref l a n s => some (0xAE#8 ++ 0x0#7 ++ l ++ a ++ n ++ 0x0#1 ++ s)
  | .pglob d a => some (0xAF#8 ++ d ++ a ++ 0x0#8)
  | .atadd d a c r w s => some (0xB0#8 ++ d ++ a ++ c ++ 0x0#1 ++ r ++ w ++ s)
  | .atfadd d a c r w s => some (0xB1#8 ++ d ++ a ++ c ++ 0x0#1 ++ r ++ w ++ s)
  | .atmin d a c r w s => some (0xB2#8 ++ d ++ a ++ c ++ 0x0#1 ++ r ++ w ++ s)
  | .atmax d a c r w s => some (0xB3#8 ++ d ++ a ++ c ++ 0x0#1 ++ r ++ w ++ s)
  | .atand d a c r w s => some (0xB4#8 ++ d ++ a ++ c ++ 0x0#1 ++ r ++ w ++ s)
  | .ator d a c r w s => some (0xB5#8 ++ d ++ a ++ c ++ 0x0#1 ++ r ++ w ++ s)
  | .atxor d a c r w s => some (0xB6#8 ++ d ++ a ++ c ++ 0x0#1 ++ r ++ w ++ s)
  | .atxchg d a c l r w s => some (0xB7#8 ++ d ++ a ++ c ++ l ++ r ++ w ++ s)
  | .atcas d a c l r w s => some (0xB8#8 ++ d ++ a ++ c ++ l ++ r ++ w ++ s)
  | .fenceAcq c => some (0xB9#8 ++ 0x0#13 ++ c ++ 0x0#8)
  | .fenceRel c => some (0xB9#8 ++ 0x20#13 ++ c ++ 0x0#8)
  | .fenceAcqrel c => some (0xB9#8 ++ 0x40#13 ++ c ++ 0x0#8)
  | .fenceSc c => some (0xB9#8 ++ 0x60#13 ++ c ++ 0x0#8)
  | .fencePath a b => some (0xBA#8 ++ 0x0#10 ++ a ++ 0x0#2 ++ b)
  | .mwatch d a n s => some (0xBB#8 ++ d ++ a ++ n ++ 0x0#1 ++ s)
  | .mwait d a => some (0xBC#8 ++ d ++ a ++ 0x0#8)
  | .tick => some (0xBD#8 ++ 0x0#24)
  | .cmaint o a n s => some (0xBE#8 ++ 0x0#6 ++ o ++ a ++ n ++ 0x0#1 ++ s)
  | .binit a b => some (0xC0#8 ++ 0x0#8 ++ a ++ b)
  | .barv p a => some (0xC1#8 ++ 0x0#2 ++ p ++ a ++ 0x0#8)
  | .bwait a => some (0xC2#8 ++ 0x0#8 ++ a ++ 0x0#8)
  | .bwaitGen a b => some (0xC2#8 ++ 0x1#8 ++ a ++ b)
  | .barw p a => some (0xC3#8 ++ 0x0#2 ++ p ++ a ++ 0x0#8)
  | .baddx a b => some (0xC4#8 ++ 0x0#8 ++ a ++ b)
  | .baddxE a b => some (0xC4#8 ++ 0x1#8 ++ a ++ b)
  | .btest a b => some (0xC5#8 ++ 0x0#8 ++ a ++ b)
  | .btestWord1 a b => some (0xC5#8 ++ 0x1#8 ++ a ++ b)
  | .ngjoin a => some (0xC6#8 ++ 0x0#8 ++ a ++ 0x0#8)
  | .ngjoinLeave a => some (0xC6#8 ++ 0x1#8 ++ a ++ 0x0#8)
  | .ngarv p a => some (0xC7#8 ++ 0x0#2 ++ p ++ a ++ 0x0#8)
  | .ngwait a => some (0xC8#8 ++ 0x0#8 ++ a ++ 0x0#8)
  | .ngwaitGen a b => some (0xC8#8 ++ 0x1#8 ++ a ++ b)
  | .ngwaitRead a b => some (0xC8#8 ++ 0x2#8 ++ a ++ b)
  | .bsetm a b => some (0xC9#8 ++ 0x0#8 ++ a ++ b)
  | .bsetmDevice a b => some (0xC9#8 ++ 0x1#8 ++ a ++ b)
  | .bsetmRoot a b => some (0xC9#8 ++ 0x2#8 ++ a ++ b)
  | .cpyc x c g a b => some (0xCA#8 ++ 0x0#2 ++ x ++ c ++ g ++ a ++ b)
  | .cpy a b => some (0xCB#8 ++ 0x0#8 ++ a ++ b)
  | .gath a b => some (0xCC#8 ++ 0x0#8 ++ a ++ b)
  | .scat a b => some (0xCD#8 ++ 0x0#8 ++ a ++ b)
  | .mcast a b => some (0xCE#8 ++ 0x0#8 ++ a ++ b)
  | .sclp a b => some (0xCF#8 ++ 0x0#8 ++ a ++ b)
  | .gqry a b => some (0xCF#8 ++ 0x1#8 ++ a ++ b)
  | .gcncl a b => some (0xCF#8 ++ 0x2#8 ++ a ++ b)
  | .expb d a b => some (0xD0#8 ++ d ++ a ++ b)
  | .expbG d a b => some (0xD1#8 ++ d ++ a ++ b)
  | .expn d a => some (0xD2#8 ++ d ++ a ++ 0x0#8)
  | .segr d a => some (0xD3#8 ++ d ++ a ++ 0x0#8)
  | .xsave a n s => some (0xD4#8 ++ 0x0#8 ++ a ++ n ++ 0x0#1 ++ s)
  | .xrst a n s => some (0xD5#8 ++ 0x0#8 ++ a ++ n ++ 0x0#1 ++ s)
  | .vsort d a => some (0xD6#8 ++ d ++ a ++ 0x0#8)
  | .vtopk d a b => some (0xD7#8 ++ d ++ a ++ b)
  | .tkmrg d a b => some (0xD8#8 ++ d ++ a ++ b)
  | .ctopk d a b => some (0xD9#8 ++ d ++ a ++ b)
  | .hins d a b => some (0xDA#8 ++ d ++ a ++ b)
  | .hacc d a b => some (0xDB#8 ++ d ++ a ++ b)
  | .hfind d a b => some (0xDC#8 ++ d ++ a ++ b)
  | .hinit a b => some (0xDD#8 ++ 0x0#8 ++ a ++ b)
  | .talloc d a b => some (0xE0#8 ++ d ++ a ++ b)
  | .tfree a => some (0xE1#8 ++ 0x0#8 ++ a ++ 0x0#8)
  | .mloop a => some (0xE2#8 ++ 0x0#8 ++ a ++ 0x0#8)
  | .mdrain z s a b => some (0xE3#8 ++ 0x0#6 ++ z ++ s ++ a ++ b)
  | .mzero a => some (0xE4#8 ++ 0x0#8 ++ a ++ 0x0#8)
  | .tacc d a b => some (0xE5#8 ++ d ++ a ++ b)
  | .evset a => some (0xE6#8 ++ 0x0#8 ++ a ++ 0x0#8)
  | .evclr a => some (0xE7#8 ++ 0x0#8 ++ a ++ 0x0#8)
  | .evwait a => some (0xE8#8 ++ 0x0#8 ++ a ++ 0x0#8)
  | .evwaitClear a => some (0xE8#8 ++ 0x1#8 ++ a ++ 0x0#8)
  | .mpt a => some (0xE9#8 ++ 0x0#8 ++ a ++ 0x0#8)
  | .msave a b => some (0xEA#8 ++ 0x0#8 ++ a ++ b)
  | .mrestore a b => some (0xEB#8 ++ 0x0#8 ++ a ++ b)
  | .rinv a b => some (0xF0#8 ++ 0x0#8 ++ a ++ b)
  | .rinvh a b => some (0xF1#8 ++ 0x0#8 ++ a ++ b)
  | .rwait d a => some (0xF2#8 ++ d ++ a ++ 0x0#8)
  | .rpoll d a => some (0xF3#8 ++ d ++ a ++ 0x0#8)
  | .rget a b => some (0xF4#8 ++ 0x0#8 ++ a ++ b)
  | .rgetBarn a b => some (0xF4#8 ++ 0x1#8 ++ a ++ b)
  | .rdrop a => some (0xF5#8 ++ 0x0#8 ++ a ++ 0x0#8)
  | .rbind a b => some (0xF6#8 ++ 0x0#8 ++ a ++ b)
  | .rput a b => some (0xF7#8 ++ 0x0#8 ++ a ++ b)
  | .rfail a b => some (0xF7#8 ++ 0x1#8 ++ a ++ b)
  | .tcarm a b => some (0xF7#8 ++ 0x2#8 ++ a ++ b)
  | .tcadd a b => some (0xF7#8 ++ 0x3#8 ++ a ++ b)
  | .trap c => some (0xF8#8 ++ 0x0#8 ++ c)
  | .tvec l a b => some (0xF9#8 ++ 0x0#7 ++ l ++ a ++ b)
  | .tret => some (0xFA#8 ++ 0x0#24)
  | .tretSkip => some (0xFA#8 ++ 0x10000#24)
  | .tdone a => some (0xFB#8 ++ 0x0#8 ++ a ++ 0x0#8)
  | .sysrd n a => some (0xFC#8 ++ n ++ a ++ 0x0#8)
  | .syswr n a => some (0xFD#8 ++ n ++ a ++ 0x0#8)
  | .tlbip a b => some (0xFE#8 ++ 0x0#8 ++ a ++ b)
  | .tlbia a => some (0xFE#8 ++ 0x1#8 ++ a ++ 0x0#8)
  | .tlball => some (0xFE#8 ++ 0x20000#24)
  | .fwcall a b => some (0xFE#8 ++ 0x3#8 ++ a ++ b)
  | .regangMerge _ _ => none
  | .gangEnd _ => none
  | .regrowGrant _ _ => none
  | .regrowTimeout _ => none
  | .promotionEvaluation _ _ => none
  | .demotion _ _ => none
  | .earlyLoadReread _ _ => none
  | .branchMispredict _ => none
  | .memoryOperationComplete _ _ => none
  | .releaseComplete _ _ => none
  | .mwaitTimeout _ => none
  | .reuseClockAdvance _ => none
  | .gtAdvance => none
  | .pageWalk _ _ _ _ => none
  | .heatSweep => none
  | .tlbInvalidationComplete _ _ => none
  | .teardownComplete _ => none
  | .namedGroupNodeArrival _ _ _ => none
  | .namedGroupCompletion _ _ => none
  | .gleanerCommandStart _ => none
  | .copyUnit _ _ => none
  | .gatherRow _ _ _ => none
  | .multicastAck _ _ _ => none
  | .scalePlacement _ _ => none
  | .gleanerCommandCompletion _ _ => none
  | .mloopEntryStart _ _ => none
  | .thresherPassGrant _ => none
  | .thresherPassEnd _ => none
  | .tilePortStart _ => none
  | .tileOperationComplete _ => none
  | .invocationArrival _ => none
  | .dependentMessageAtHome _ => none
  | .bindReport _ => none
  | .resultPosted _ => none
  | .rgetResultArrival _ => none
  | .invocationFabricTimeout _ => none
  | .tcaddArrival _ => none
  | .pendingFireCopy _ => none
  | .preemptGraceExpiry _ => none
  | .preemptionSave _ => none
  | .workgroupRestore _ _ => none
  | .fwcallReply _ => none
  | .plaquelTranslation _ => none
  | .doorbellWrite _ => none
  | .queuePoll => none
  | .launchPacket _ => none
  | .waitAndPacket _ => none
  | .waitAndPoll _ _ => none
  | .waitAndTimeout _ _ => none
  | .triggerArmPacket _ => none
  | .copyPacket _ => none
  | .signalPacket _ => none
  | .partitionConfigure _ => none
  | .partitionRemove _ => none
  | .partitionQueueDescriptor _ => none
  | .partitionTeardown _ => none
  | .partitionFlush _ => none
  | .dispatch _ => none
  | .workgroupAdmission _ _ => none
  | .headAgeing _ _ => none
  | .workgroupRetirement _ => none
  | .wgPreemptWrite _ => none
  | .tfqReplyRetry _ _ => none
  | .tfqReplyDeliver _ _ => none
  | .tfqReplyFail _ _ _ => none
  | .tfqHeadWrite _ _ => none
  | .registerWrite _ _ _ _ => none
  | .policyCommit _ => none
  | .hostBar0Access _ _ _ _ => none
  | .attestationRequest _ _ => none
  | .dvfsReq _ => none
  | .clockSwitchEnd => none
  | .voltageSlewEnd => none
  | .thermalThrottle _ _ => none
  | .throttleEnd => none
  | .thermalShutdown _ _ => none
  | .powerCapStep _ => none
  | .telemetrySample _ _ _ => none
  | .patrolScrub _ _ => none
  | .rowActivationRefresh _ => none
  | .meshFlitError _ _ _ _ => none
  | .lumenMessageReceive _ _ _ _ => none
  | .heldMessageRelease _ => none
  | .linkRecalibration _ _ => none
  | .inboundAccess _ _ _ _ _ _ _ => none
  | .inboundTimeout _ => none
  | .initiatorTimeout _ => none
  | .deviceReset _ _ => none
  | .illegalInstruction _ => none
  | .pageRequestReply _ _ _ => none

/-- What the decoder reads from an instruction whose bits are `w`, numbered as the opcode table numbers them: one
32-bit word, which the hardware stores little-endian at a 4-byte-aligned address (02 R36, 00 R2). -/
def decodeTableWord (nbits w : Nat) : Option Instr :=
  match decode (BitVec.ofNat 32 (w % 2 ^ nbits)) with
  | .ok i => some i
  | .error _ => none

end Sys2Proof
end

