-- ==== Sys2Proof/Machine/Gleaner.lean ====
section
/-! DEFINITION. The Gleaner: command blocks and their checks, the queue and tickets, the collective copy, units, rows and
receivers, completion, failure, query and cancel (11 R275 to R299). -/

namespace Sys2Proof.Machine

/-! ### Places of an engine's access (08 R227) -/

/-- A source or destination of an engine: a global address, or a byte of a tile on a core. -/
inductive Loc where
  | glob (va : Nat)
  | barn (core : Nat) (t : Tile) (off : Nat)
deriving DecidableEq, Repr

/-- The place `n` bytes further. -/
def Loc.add : Loc → Nat → Loc
  | .glob va, n => .glob (va + n)
  | .barn c t o, n => .barn c t (o + n)

/-- Bytes up to the next 128-byte line. -/
def Loc.room : Loc → Nat
  | .glob va => 128 - va % 128
  | .barn _ _ o => 128 - o % 128

/-- The address that a record names: a Barn place has none. -/
def Loc.addr : Loc → Nat
  | .glob va => va
  | .barn _ _ _ => 0

/-- Why an engine's unit does not perform: a translation fault with its access and address, or a failure cause with its
address, device, target cause and the owner that refused it. -/
inductive XErr where
  | fault (c : Nat) (acc : Acc) (va : Nat)
  | fail (c va dev rcause : Nat) (refused : Option (Option Nat × Nat × Acc))
deriving DecidableEq, Repr

/-- Whose access it is: the core whose L1 it meets, the partition and the PASID; the number of the operation and its part
(a row, a receiver, a place), for its writes to other devices; and whether it translates through the cluster TLB alone, as
the Thresher's load pipes do (09 R235). -/
structure Agent where
  core : Nat
  part : Nat
  pasid : Nat
  op : Nat
  idx : Nat
  clusterTlb : Bool := false
  /-- Its writes on this device are held until those of the part to other devices have performed. -/
  hold : Bool := false
deriving DecidableEq, Repr

/-- The outcome of an access to another device: none when it performs, else the poisoned cause of 08 R230; a free choice
(log entry 21, DESIGN CHOICE). -/
def State.farOutcome (s : State) : State × Option Nat :=
  let k := Config.freeChoice 5 s.fresh
  ({ s with fresh := s.fresh + 1 }, if k = 0 then none else some (k - 1))

/-- Translate for an engine: through its core's TLBs, or the cluster's (09 R234, R235; 14 R352). -/
def State.engTranslate (s : State) (g : Agent) (va : Nat) (a : Acc) : Except Nat (State × Xlate) :=
  if g.clusterTlb then (s.translateCluster false (clusterOfCore g.core) g.pasid va a).map (fun r => (r.1, r.2.xlate va))
  else s.xlate g.part g.core g.pasid va a

/-- The failure cause of a poisoned completion, by its target cause (11 R293, 14 R356): 1 a refusal at the target, else 3. -/
def farCause (k : Nat) : Nat := if k = 1 then 1 else 3

/-- Bytes of another device's line as an engine of the core reads them: dirty L1 bytes, otherwise those of its home. -/
def State.overDirty (s : State) (core pa : Nat) (bs : List Byte) : List Byte :=
  match s.l1Line core (farLine pa) with
  | some x => bs.zipIdx.map (fun b => if x.dirty.getLsbD (pa % 128 + b.2) then x.byte (pa % 128 + b.2) else b.1)
  | none => bs

/-- Writes of an operation to other devices that have not performed (08 R227). -/
def State.engBusy (s : State) (op : Nat) : Bool :=
  s.msgs.any (fun m => decide (m.gang = noGang) && decide (m.opid = op) && decide (m.reg = 0xFF) && decide (m.src = s.devid))

/-- The same for one part of it. -/
def State.partBusy (s : State) (op idx : Nat) : Bool :=
  s.msgs.any (fun m => decide (m.gang = noGang) && decide (m.opid = op) && decide (m.reg = 0xFF) && decide (m.lane = idx) &&
    decide (m.src = s.devid))

/-- An engine reads `n` bytes within one line (08 R227). -/
def State.engRead (s : State) (g : Agent) (n : Nat) : Loc → State × Except XErr (List Byte)
  | .barn c t o => (s, .ok (s.tileBankBytes c t o n))
  | .glob va =>
    match s.engTranslate g va .read with
    | .error c => (s, .error (.fault c .read va))
    | .ok (s, x) =>
      match s.reach g.part 1 x with
      | .here a _ => (s, .ok ((List.range n).map (fun i => s.engineByte g.core (a + i))))
      | .away pa _ =>
        let r := s.farOutcome
        match r.2 with
        | none =>
          let f := r.1.farBytes n
          (f.1, .ok (s.overDirty g.core pa f.2))
        | some k => (r.1, .error (.fail (farCause k) va (pa / 2 ^ 40) k none))
      | .refused o pa => (s, .error (.fail 1 va s.devid 1 (some (o, pa, .read))))
      | .bad _ => ({ s with alarms := s.alarms ++ [(1, g.pasid, g.part)] }, .error (.fail 3 va s.devid 0 none))

/-- Change a command, named by its operation number. -/
def State.updCmd (s : State) (core id : Nat) (f : Gcmd → Gcmd) : State :=
  s.updCore core (fun c => { c with gleaner := c.gleaner.map (fun x => if x.id = id then f x else x) })

/-- An engine writes bytes within one line (08 R227). -/
def State.engWrite (s : State) (g : Agent) (bs : List Byte) : Loc → State × Except XErr Unit
  | .barn c t o => (s.tileBankWrite c t o bs, .ok ())
  | .glob va =>
    match s.engTranslate g va .write with
    | .error c => (s, .error (.fault c .write va))
    | .ok (s, x) =>
      match s.reach g.part 2 x with
      | .here a _ => (if g.hold then s.updCmd g.core g.op (fun c => { c with held := c.held ++ [(g.idx, a, bs)] })
          else s.writeWide g.core a bs.length (fun i => bs.getD i 0), .ok ())
      | .away pa _ =>
        ((s.flushLine g.core (farLine pa)).send { Msg.blank with
          kind := .write bs.length, dst := pa / 2 ^ 40, addr := pa, part := g.part, pasid := g.pasid, data := ofBytesLE bs
          gang := noGang, opid := g.op, lane := g.idx, reg := 0xFF, handle := BitVec.ofNat 64 va }, .ok ())
      | .refused o pa => (s, .error (.fail 1 va s.devid 1 (some (o, pa, .write))))
      | .bad _ => (s, .ok ())

/-- Move `n` bytes that lie within one line at both ends (R285). An error leaves memory as it was. -/
def State.moveUnit (s : State) (g : Agent) (src dst : Loc) (n : Nat) : State × Except XErr Unit :=
  let back := fun (t : State) => { s with fresh := t.fresh, alarms := t.alarms }
  match s.engRead g n src with
  | (t, .error e) => (back t, .error e)
  | (t, .ok bs) =>
    match t.engWrite g bs dst with
    | (u, .error e) => (back u, .error e)
    | (u, .ok _) => (u, .ok ())

/-- Length of the unit at offset `o` of a run of `n` bytes. -/
def unitLen (src dst : Loc) (o n : Nat) : Nat := min (n - o) (min (src.add o).room (dst.add o).room)

/-- Move a whole run in units, ascending; an error leaves memory as it was (R287: a row; R290: a receiver). -/
def State.moveRun (g : Agent) (src dst : Loc) (n : Nat) : Nat → Nat → State → State × Except XErr Unit
  | 0, _, s => (s, .ok ())
  | fuel + 1, o, s =>
    if n ≤ o then (s, .ok ())
    else
      let k := unitLen src dst o n
      match s.moveUnit g (src.add o) (dst.add o) k with
      | (t, .error e) => (t, .error e)
      | (t, .ok _) =>
        match State.moveRun g src dst n fuel (o + k) t with
        | (u, .error e) => ({ s with fresh := u.fresh, alarms := u.alarms }, .error e)
        | r => r

/-- Move `n` bytes from `src` to `dst`. -/
def State.moveAll (s : State) (g : Agent) (src dst : Loc) (n : Nat) : State × Except XErr Unit :=
  State.moveRun g src dst n (n / 4 + 2) 0 s

/-! ### Commands -/

/-- The agent of a command. -/
def Gcmd.agent (c : Gcmd) (idx : Nat) : Agent :=
  { core := coreOfWid c.wid, part := c.part, pasid := c.pasid, op := c.id, idx := idx }

/-- A field of a command's block. -/
def Gcmd.num (c : Gcmd) (off n : Nat) : Nat := blockNum c.block off n

/-- A Barn place of a workgroup by a locator (R278): an absent tile reads as an empty one. -/
def Workgroup.barnLoc (w : Workgroup) (core loc : Nat) : Loc :=
  .barn core ((w.tile (field loc 26 6)).getD { rows := 0, rowBytes := 0, level := 0, granules := [] }) (loc % 2 ^ 26)

/-- Fields of a segment quad (R281): address, offset, handle, bytes. -/
def segAddr (q : List Word) : Nat := (q.getD 0 0).toNat + (q.getD 1 0).toNat % 2 ^ 24 * 2 ^ 32
/-- Offset in the tile. -/
def segOff (q : List Word) : Nat := (q.getD 2 0).toNat % 2 ^ 19
/-- Tile handle. -/
def segHandle (q : List Word) : Nat := field (q.getD 3 0).toNat 19 6
/-- Bytes. -/
def segBytes (q : List Word) : Nat := (q.getD 3 0).toNat % 2 ^ 19

/-- The segments of a copy: source, destination, bytes (R281, R284). -/
def State.copySegs (s : State) (c : Gcmd) : List (Loc × Loc × Nat) :=
  let w := s.wgAt c.wid
  let core := coreOfWid c.wid
  if c.kind = 0 then
    (c.segs.filter (fun x => decide (segBytes x.quad ≠ 0))).map (fun x =>
      let b := w.barnLoc core (segHandle x.quad * 2 ^ 26 + segOff x.quad)
      let g := Loc.glob (segAddr x.quad)
      if bit c.flags 5 then (b, g, segBytes x.quad) else (g, b, segBytes x.quad))
  else
    let d := c.num 8 1
    let src := if d = 0 || d = 2 then Loc.glob (c.num 0x10 8) else w.barnLoc core (c.num 0x20 4)
    let dst := if d = 1 || d = 2 then Loc.glob (c.num 0x18 8) else w.barnLoc core (c.num 0x24 4)
    [(src, dst, c.num 0x28 4)]

/-- The unit at byte `o` of the segments: places, length, and the offset in its own segment. -/
def unitAt : List (Loc × Loc × Nat) → Nat → Option (Loc × Loc × Nat × Nat)
  | [], _ => none
  | (src, dst, n) :: r, o =>
    if n ≤ o then unitAt r (o - n) else some (src.add o, dst.add o, unitLen src dst o n, o)

/-- Bytes of all segments. -/
def segTotal (l : List (Loc × Loc × Nat)) : Nat := (l.map (fun x => x.2.2)).sum

/-- Row or receiver count. -/
def Gcmd.count (c : Gcmd) : Nat := if c.kind = 4 then c.num 9 1 else c.num 0x0A 2

/-- Row or receiver `i` has been delivered or has failed. -/
def Gcmd.settled (c : Gcmd) (i : Nat) : Bool :=
  c.lost.getLsbD i || (if c.kind = 4 then c.acked.getLsbD i else c.delivered.getLsbD i)

/-- Everything of the command has been done, and every write has performed (R292). -/
def State.cmdDone (s : State) (c : Gcmd) : Bool :=
  if s.engBusy c.id then false
  else if c.kind ≤ 1 then decide (segTotal (s.copySegs c) ≤ c.moved)
  else if c.kind = 5 then decide (c.moved ≠ 0)
  else (List.range c.count).all c.settled

/-- The command that an event of a core's Gleaner names: by its ticket, a running one first; or above 65,535 by its operation
number, since a restored command keeps its ticket, which one of its new core may share (16 R403). -/
def State.cmd (s : State) (core n : Nat) : Option Gcmd :=
  let q := (s.coreAt core).gleaner
  if 65536 ≤ n then q.find? (fun c => decide (c.id + 65536 = n))
  else match q.find? (fun c => decide (c.ticket = n) && decide (c.state = 2)) with
    | some c => some c
    | none => q.find? (fun c => decide (c.ticket = n))

/-- The status word of R295. -/
def statusWord (c : Gcmd) (state cause : Nat) : Word :=
  let rows := if c.kind = 2 || c.kind = 3 then popCount c.delivered.toNat 256 else 0
  BitVec.ofNat 32 (rows * 2 ^ 16 + cause * 16 + state)

/-- A command leaves the queue: its status is among the last 48 (R275, R295). -/
def State.endCmd (s : State) (core : Nat) (c : Gcmd) (state cause : Nat) : State :=
  s.updCore core (fun k => { k with
    gleaner := k.gleaner.filter (fun x => decide (x.id ≠ c.id))
    ended := ((c.wid, c.ticket, statusWord c state cause) :: k.ended).take 48 })

/-- The gangs that issued a command. -/
def Gcmd.issuers (c : Gcmd) : List Nat :=
  if c.kind = 0 then c.segs.map (fun x => gangKey c.wid x.gang) else [gangKey c.wid c.gang]

/-- Path of a command: CP or GX. -/
def Gcmd.path (c : Gcmd) : Nat := if c.kind = 2 || c.kind = 3 then 4 else 2

/-- The issuers' counters fall (R292, R52). -/
def State.lowerIssuers (s : State) (c : Gcmd) : State :=
  c.issuers.foldl (fun s k => s.updGangAt k (fun g => g.complete c.id)) s

/-- A barrier credit of a command (R257). -/
def State.creditCmd (s : State) (c : Gcmd) (f : Bar → Bar) : State :=
  match c.credit with
  | some b => s.updWgAt c.wid (fun w => w.updBar b f)
  | none => s

/-! ### Checks at issue (R280) -/

/-- A Barn range does not lie in its tile (07 R176): the tile bounds trap. -/
def Workgroup.rangeFault (w : Workgroup) (loc n mult level : Nat) : Option TrapReq :=
  let h := field loc 26 6
  let t : Nat → TrapReq := fun sub => { cause := 0x0E, sub := sub, aux := BitVec.ofNat 32 h }
  match w.tile h with
  | none => some (t 0)
  | some x =>
    if x.level ≠ level then some (t 1)
    else if loc % 2 ^ 26 % mult ≠ 0 || x.extent < loc % 2 ^ 26 + n then some (t 2)
    else none

/-- A global address in a block that R280 refuses. -/
def badGlobal (va : Nat) : Bool := !canonical va || inAperture va || decide (va % 4 ≠ 0)

/-- The header's fields are legal (R279): kind and reserved. -/
def headerOk (b : List Byte) (kind : Nat) : Bool :=
  let f := blockNum b 1 1
  decide (blockNum b 0 1 = kind) && decide (f < 64) && (bit f 4 || decide (f % 16 = 0)) &&
  (if bit f 5 then decide (blockNum b 2 2 < 16384) else blockZero b 2 2) && blockZero b 4 4

/-- Reserved and unused fields are 0 (R280, step 3). -/
def bodyZeroOk (b : List Byte) (kind : Nat) : Bool :=
  match kind with
  | 1 =>
    let d := blockNum b 8 1
    blockZero b 9 7 && blockZero b 0x2C 20 && (decide (3 < d) ||
      ((decide (d = 0) || decide (d = 2) || blockZero b 0x10 8) && (decide (d = 1) || decide (d = 2) || blockZero b 0x18 8) &&
       (decide (d = 1) || decide (d = 3) || blockZero b 0x20 4) && (decide (d = 0) || decide (d = 3) || blockZero b 0x24 4)))
  | 4 => blockZero b 0x0A 2 && blockZero b 0x20 32 &&
      (if blockNum b 8 1 = 0 then blockZero b 0x10 8 else if blockNum b 8 1 = 1 then blockZero b 0x0C 4 else true)
  | 5 => blockZero b 0x20 32
  | _ => blockZero b 9 1 && blockZero b 0x28 24

/-- Values lie in their ranges (R280, step 4). -/
def bodyRangeOk (b : List Byte) (kind : Nat) : Bool :=
  match kind with
  | 1 =>
    let d := blockNum b 8 1
    let n := blockNum b 0x28 4
    decide (d ≤ 3) && decide (4 ≤ n) && decide (n ≤ 2 ^ 30) && decide (n % 4 = 0) &&
      (decide (d = 1) || decide (d = 2) || decide (n ≤ 458752)) &&
      !((d = 0 || d = 2) && badGlobal (blockNum b 0x10 8)) && !((d = 1 || d = 2) && badGlobal (blockNum b 0x18 8))
  | 4 =>
    let m := blockNum b 9 1
    let n := blockNum b 0x18 4
    decide (blockNum b 8 1 ≤ 1) && decide (1 ≤ m) && decide (m ≤ 64) && decide (4 ≤ n) && decide (n ≤ 65536) &&
      decide (n % 4 = 0) && decide (blockNum b 0x1C 4 % 16 = 0) && !(blockNum b 8 1 = 1 && badGlobal (blockNum b 0x10 8))
  | 5 =>
    let n := blockNum b 0x1C 4
    !badGlobal (blockNum b 8 8) && !badGlobal (blockNum b 0x10 8) && decide (blockNum b 0x18 4 % 16 = 0) &&
      decide (4 ≤ n) && decide (n ≤ 131072) && decide (n % 4 = 0)
  | _ =>
    let iw := blockNum b 8 1
    let n := blockNum b 0x0A 2
    let rb := blockNum b 0x1C 4
    decide (iw ≤ 1) && decide (1 ≤ n) && decide (n ≤ 256) && decide (blockNum b 0x0C 4 % (if iw = 0 then 4 else 8) = 0) &&
      !badGlobal (blockNum b 0x10 8) && decide (4 ≤ rb) && decide (rb ≤ 65536) && decide (rb % 4 = 0) &&
      decide (blockNum b 0x20 4 % 4 = 0) && decide (blockNum b 0x24 4 % 4 = 0)

/-- The Barn ranges that a block names: locator, bytes, level (R280, step 6). -/
def blockRanges (b : List Byte) (kind : Nat) : List (Nat × Nat × Nat) :=
  match kind with
  | 1 =>
    let d := blockNum b 8 1
    let n := blockNum b 0x28 4
    (if d = 1 || d = 3 then [(blockNum b 0x20 4, n, 0)] else []) ++ (if d = 0 || d = 3 then [(blockNum b 0x24 4, n, 0)] else [])
  | 4 => (if blockNum b 8 1 = 0 then [(blockNum b 0x0C 4, blockNum b 0x18 4, 0)] else []) ++
      [(blockNum b 0x1C 4, 16 * blockNum b 9 1, 0)]
  | 5 => [(blockNum b 0x18 4, blockNum b 0x1C 4, 2)]
  | _ =>
    let n := blockNum b 0x0A 2
    [(blockNum b 0x0C 4, n * (if blockNum b 8 1 = 0 then 4 else 8), 0),
     (blockNum b 0x20 4, (n - 1) * blockNum b 0x24 4 + blockNum b 0x1C 4, 0)]

/-- A receiver entry's reserved and unused fields are 0 (R289). -/
def receiverZeroOk (e : List Byte) : Bool :=
  blockZero e 2 2 && (if blockNum e 0 1 = 0 then blockZero e 8 8
    else if blockNum e 0 1 = 1 then blockZero e 1 1 && blockZero e 4 4 else true)

/-- A receiver entry's values lie in their ranges. -/
def receiverRangeOk (e : List Byte) : Bool :=
  if blockNum e 0 1 = 0 then decide (blockNum e 1 1 ≤ 23)
  else decide (blockNum e 0 1 = 1) && !badGlobal (blockNum e 8 8)

/-- The tile-bounds fault of a receiver (R289, step 6). -/
def State.receiverFault (s : State) (w : Workgroup) (n : Nat) (e : List Byte) : Option TrapReq :=
  if blockNum e 0 1 ≠ 0 then none
  else match s.neighbour w (blockNum e 1 1) with
    | none => some { cause := 0x0E, sub := 3, aux := BitVec.ofNat 32 (field (blockNum e 4 4) 26 6) }
    | some wid => (s.wgAt wid).rangeFault (blockNum e 4 4) n 1 0

/-- The first fault of a list of ranges of the issuing workgroup. -/
def Workgroup.rangesFault (w : Workgroup) (rs : List (Nat × Nat × Nat)) : Option TrapReq :=
  rs.findSome? (fun r => w.rangeFault r.1 r.2.1 1 r.2.2)

/-- The receiver entries of an mcast, read from the banks (R289, R297). -/
def State.receivers (s : State) (b : List Byte) : List (List Byte) :=
  match s.wg.barnLoc s.gang.core (blockNum b 0x1C 4) with
  | .barn c t o => (List.range (blockNum b 9 1)).map (fun i => s.tileBankBytes c t (o + 16 * i) 16)
  | .glob _ => []

/-- The checks of R280 after the block has been read: the trap, or the receiver entries. -/
def State.blockFault (s : State) (kind : Nat) (b : List Byte) : Except TrapReq (List (List Byte)) :=
  let w := s.wg
  let f := blockNum b 1 1
  let misuse := fun sub => ({ cause := 0x13, sub := sub } : TrapReq)
  let listOk := kind = 4 && (w.rangesFault [(blockNum b 0x1C 4, 16 * blockNum b 9 1, 0)]).isNone
  let rs := if listOk then s.receivers b else []
  if !headerOk b kind || !bodyZeroOk b kind || !rs.all receiverZeroOk then .error (misuse 0)
  else if !bodyRangeOk b kind || !rs.all receiverRangeOk ||
      (bit f 5 && decide ((s.cellAt (blockNum b 2 2)).owner ≠ some w.part)) then .error (misuse 1)
  else if bit f 4 && !(w.bar (f % 16)).init then
    .error { cause := 0x11, sub := 0, aux := BitVec.ofNat 32 (f % 16) }
  else match w.rangesFault (blockRanges b kind) with
    | some t => .error t
    | none => match rs.findSome? (s.receiverFault w (blockNum b 0x18 4)) with
      | some t => .error t
      | none => .ok rs

/-- Fields of a new command. -/
def Gcmd.fresh (ticket id wid gang pasid part kind : Nat) (block : List Byte) (opc : DWord) : Gcmd :=
  { ticket := ticket, id := id, wid := wid, gang := gang, pasid := pasid, part := part, kind := kind, block := block,
    segs := [], receivers := [], opc := opc, state := 1, moved := 0, delivered := 0, acked := 0, lost := 0, parkedAt := 0,
    failed := none, alarmed := [], held := [], retried := false, cancelled := false }

/-- Put a command at the end of the core's queue: the next ticket is its own (R275, R276). -/
def State.enqueue (s : State) (core : Nat) (c : Gcmd) : State :=
  s.updCore core (fun k => { k with gleaner := k.gleaner ++ [c], ticket := (k.ticket + 1) % 65536 })

/-- cpy, gath, scat, mcast, sclp (R276 to R280). Every check of R280 comes before the stalls on a full counter or queue: R275
names those of R277 alone (log entry 112, DESIGN CHOICE). -/
def gleanerInstr (kind : Nat) (a b : Code) (s : State) : Res :=
  guardOps s (fixedOps [.sr 32 a, .sw 32 b]) (fun s =>
    let g := s.gang
    let w := s.wg
    let path := if kind = 2 || kind = 3 then 4 else 2
    engineOr (2 ^ path) s (
      let loc := (s.sarg a).toNat
      match w.rangeFault loc 64 64 0 with
      | some t => trapNow t s
      | none =>
        let block := match w.barnLoc g.core loc with
          | .barn c t o => s.tileBytes c t o 64
          | .glob _ => []
        match s.blockFault kind block with
        | .error t => trapNow t s
        | .ok rs =>
          let f := blockNum block 1 1
          let n := if kind = 4 then blockNum block 9 1 else blockNum block 0x0A 2
          if 63 ≤ g.counter path then stallOn (.path path 62) s
          else if 16 ≤ (s.coreAt g.core).gleaner.length then stallOn .gleanerFull s
          else if kind = 4 && bit f 4 && decide (4095 < (w.bar (f % 16)).kc + n) then stallOn (.barrierRoom (f % 16) n) s
          else
            let ticket := (s.coreAt g.core).ticket
            let r := s.takeId
            let c := { Gcmd.fresh ticket r.1 g.wid g.num w.pasid w.part kind block (g.pcNow.setWidth 64) with receivers := rs }
            let s := r.2.enqueue g.core c
            let s := if bit f 4 && (kind = 2 || kind = 3 || kind = 4) then
                s.updWg (fun w => w.updBar (f % 16) (fun r =>
                  if kind = 4 then { r with kc := r.kc + n } else { r with rc := r.rc + n }))
              else s
            .next (s.updGang (fun h => ((h.raise path r.1 false).putSAll b (BitVec.ofNat 32 ticket)).advance))))

/-- cpy (R284). -/
def execCpy (a b : Code) (s : State) : Res := gleanerInstr 1 a b s
/-- gath (R286). -/
def execGath (a b : Code) (s : State) : Res := gleanerInstr 2 a b s
/-- scat (R286). -/
def execScat (a b : Code) (s : State) : Res := gleanerInstr 3 a b s
/-- mcast (R289). -/
def execMcast (a b : Code) (s : State) : Res := gleanerInstr 4 a b s
/-- sclp (R291). -/
def execSclp (a b : Code) (s : State) : Res := gleanerInstr 5 a b s

/-! ### The collective copy (R281 to R283) -/

/-- The gang is stalled at its cpyc. -/
def Gang.atCollective (g : Gang) : Bool := g.flow.blocks.any (fun e => decide (e.2 = .collective))

/-- The contributions of the gangs that are stalled at their cpyc. -/
def State.contributions (s : State) (wid : Nat) : List Contribution :=
  (s.wgAt wid).assembling.filter (fun c => (s.gangAt (gangKey wid c.gang)).atCollective)

/-- Every gang of the workgroup that has not ended has issued its cpyc (R282). -/
def State.assembled (s : State) (wid : Nat) : Bool :=
  let cs := s.contributions wid
  !cs.isEmpty && (s.gangsOf wid).all (fun k => cs.any (fun c => decide (gangKey wid c.gang = k)))

/-- A gang's segment is refused: a reserved bit or a misalignment, then the bounds of its tile (R282). -/
def Workgroup.segmentFault (w : Workgroup) (c : Contribution) : Option TrapReq :=
  if 2 ^ 24 ≤ (c.quad.getD 1 0).toNat || 2 ^ 19 ≤ (c.quad.getD 2 0).toNat || 2 ^ 25 ≤ (c.quad.getD 3 0).toNat ||
      segAddr c.quad % 4 ≠ 0 || segOff c.quad % 4 ≠ 0 || segBytes c.quad % 4 ≠ 0 || inAperture (segAddr c.quad) then
    some { cause := 0x13, sub := 1 }
  else w.rangeFault (segHandle c.quad * 2 ^ 26 + segOff c.quad) (segBytes c.quad) 1 0

/-- The rejection of an assembled collective, if any: the gangs are checked one by one, in gang order (R282). -/
def Workgroup.rejectCollective (w : Workgroup) (cs : List Contribution) : Option TrapReq :=
  let flags := (cs.head?.map (·.flags)).getD 0
  let live := cs.filter (fun c => decide (segBytes c.quad ≠ 0))
  if cs.any (fun c => decide (c.flags ≠ flags)) then some { cause := 0x13, sub := 2 }
  else match live.findSome? w.segmentFault with
    | some t => some t
    | none =>
      if flags.getLsbD 4 && !(w.bar (flags.toNat % 16)).init then
        some { cause := 0x11, sub := 0, aux := BitVec.ofNat 32 (flags.toNat % 16) }
      else none

/-- A gang's cpyc is accepted: its counter, its ticket, and past the word (R276, R282). -/
def Gang.accepted (g : Gang) (id ticket : Nat) (c : Contribution) : Gang :=
  let lead := ((g.flow.blocks.find? (fun e => decide (e.2 = .collective))).map (·.1)).getD g.flow.served
  let h := { g with flow := { g.flow with served := lead, blocks := mapDrop lead g.flow.blocks } }
  ((h.raise 2 id false).putSAll c.dest (BitVec.ofNat 32 ticket)).advance

/-- The assembled collective is checked once: rejected in every gang, or accepted under one ticket (R282). With the queue
full it waits for an entry (R275). -/
def State.tryCollective (s : State) (wid : Nat) : State :=
  let w := s.wgAt wid
  let cs := s.contributions wid
  let core := coreOfWid wid
  if !s.assembled wid then s
  else match w.rejectCollective cs with
    | some t =>
      let s := s.updWgAt wid (fun w => { w with assembling := [] })
      cs.foldl (fun s c =>
        let k := gangKey wid c.gang
        let lead := (((s.gangAt k).flow.blocks.find? (fun e => decide (e.2 = .collective))).map (·.1)).getD 0
        let s := ({ s with cur := k, ir := c.word }).updGangAt k (fun g => { g with flow := { g.flow with served := lead } })
        s.takeTrap t) s
    | none =>
      if 16 ≤ (s.coreAt core).gleaner.length then s
      else
        let ticket := (s.coreAt core).ticket
        let r := s.takeId
        let lead := cs.headD { gang := 0, flags := 0, quad := [], dest := 0xF0, word := 0 }
        let c := { Gcmd.fresh ticket r.1 wid lead.gang w.pasid w.part 0 [lead.flags]
                     ((s.gangAt (gangKey wid lead.gang)).pcNow.setWidth 64) with segs := cs }
        let s := (r.2.enqueue core c).updWgAt wid (fun w => { w with assembling := [] })
        cs.foldl (fun s c => s.updGangAt (gangKey wid c.gang) (fun g => g.accepted r.1 ticket c)) s

/-- Put a contribution in gang order; a gang has one. -/
def insertContribution (c : Contribution) : List Contribution → List Contribution
  | [] => [c]
  | d :: ds => if d.gang < c.gang then d :: insertContribution c ds else if d.gang = c.gang then c :: ds else c :: d :: ds

/-- cpyc (R281, R282): the gang joins the collective and stalls until it is accepted or rejected. -/
def execCpyc (x c : BitVec 1) (gb : BitVec 4) (a b : Code) (s : State) : Res :=
  if c = 0 && gb ≠ 0 then illegal s
  else guardOps s (fixedOps [.so 128 a, .sw 32 b]) (fun s =>
    let g := s.gang
    if !g.whole then trapNow { cause := 0x08 } s
    else engineOr 4 s (if 63 ≤ g.counter 2 then stallOn (.path 2 62) s
    else
      let quad := (List.range 4).map (fun i => g.s g.low (a.toNat + i))
      let me : Contribution := { gang := g.num, flags := 0#2 ++ x ++ c ++ gb, quad := quad, dest := b, word := s.ir }
      let s := (s.stall .collective).updWg (fun w => { w with assembling := insertContribution me w.assembling })
      .next (s.tryCollective g.wid)))

/-! ### Query and cancel (R295, R296) -/

/-- The status of a ticket for a workgroup (R295) (log entry 64, DEDUCED). -/
def State.ticketStatus (s : State) (core wid ticket : Nat) : Word :=
  match (s.coreAt core).gleaner.find? (fun c => decide (c.ticket = ticket) && decide (c.wid = wid)) with
  | some c => statusWord c c.state 0
  | none => match (s.coreAt core).ended.find? (fun e => decide (e.1 = wid) && decide (e.2.1 = ticket)) with
    | some e => e.2.2
    | none => 7

/-- gqry (R295). -/
def execGqry (a b : Code) (s : State) : Res :=
  guardOps s (fixedOps [.sr 32 a, .sw 32 b]) (fun s =>
    let t := (s.sarg a).toNat
    if 65536 ≤ t then trapNow { cause := 0x13, sub := 1 } s
    else finishWith s (fun g => g.putSAll b (s.ticketStatus s.gang.core s.gang.wid t)))

/-- The credits that a cancelled command still owes (R296). -/
def State.payOwed (s : State) (c : Gcmd) : State :=
  if c.kind = 2 || c.kind = 3 then
    s.creditCmd c (fun b => { b with rc := b.rc - ((List.range c.count).filter (fun i => !c.settled i)).length }.complete)
  else if c.kind = 4 then
    s.creditCmd c (fun b => { b with kc := b.kc - ((List.range c.count).filter (fun i => !c.settled i)).length }.complete)
  else s.creditCmd c Bar.member

/-- Cancel a command (R296). -/
def State.cancelCmd (s : State) (core : Nat) (c : Gcmd) : State := ((s.payOwed c).endCmd core c 5 0).lowerIssuers c

/-- gcncl (R296) (log entry 64, DEDUCED): a command with writes to other devices in flight starts nothing more, and the
instruction waits for them. -/
def execGcncl (a b : Code) (s : State) : Res :=
  guardOps s (fixedOps [.sr 32 a, .sw 32 b]) (fun s =>
    let g := s.gang
    let t := (s.sarg a).toNat % 65536
    match (s.coreAt g.core).gleaner.find? (fun c => decide (c.ticket = t) && decide (c.wid = g.wid)) with
    | some c =>
      if s.engBusy c.id then stallOn (.cancel c.id b) (s.updCmd g.core c.id (fun c => { c with cancelled := true }))
      else finishWith (s.cancelCmd g.core c) (fun h => h.putSAll b 0)
    | none => finishWith s (fun h => h.putSAll b
        (if (s.coreAt g.core).ended.any (fun e => decide (e.1 = g.wid) && decide (e.2.1 = t)) then 1 else 7)))

/-! ### Running commands (R275, R285 to R291) -/

/-- The command that may start next: one that resumes first, retried or restored (R275, R288, R299), then the oldest queued,
with fewer than four running. -/
def State.nextStart (s : State) (core : Nat) : Option Gcmd :=
  let q := (s.coreAt core).gleaner
  if 4 ≤ (q.filter (fun c => decide (c.state = 2))).length then none
  else match q.find? (fun c => decide (c.state ≠ 2) && c.retried) with
    | some c => some c
    | none => q.find? (fun c => decide (c.state = 1))

/-- GLEANER_COMMAND_START (R275). -/
def execGleanerCommandStart (core : Nat) (s : State) : Res :=
  .next (match s.nextStart core with
    | some c => s.updCmd core c.id (fun c => { c with state := 2, retried := false })
    | none => s)

/-- The fault record of a failing row or unit (R293, 16 R387). -/
def Gcmd.failRec (c : Gcmd) (cause va dev rcause : Nat) : TrapReq :=
  { cause := 0x14, sub := cause, aux := BitVec.ofNat 32 c.ticket, addr := BitVec.ofNat 64 va, opc := c.opc,
    device := if cause = 3 then dev else 0, rcause := if cause = 3 then rcause else 0 }

/-- Keep the failure of the lowest-numbered failing part (R293). -/
def Gcmd.noteFail (c : Gcmd) (part : Nat) (t : TrapReq) : Gcmd :=
  { c with failed := match c.failed with
      | some (p, u) => if part < p then some (part, t) else some (p, u)
      | none => some (part, t) }

/-- The alarm of a refused part: once for each owner (18 R443). -/
def State.cmdAlarm (s : State) (core : Nat) (c : Gcmd) (r : Option (Option Nat × Nat × Acc)) : State :=
  match r with
  | none => s
  | some (o, pa, acc) =>
    let k := (o.map (· + 1)).getD 0
    if c.alarmed.contains k then s
    else (s.alarm o pa c.part 1 c.pasid (if acc = .write then 1 else 0)).updCmd core c.id
      (fun c => { c with alarmed := k :: c.alarmed })

/-- Park a command at a translation fault (R288): it gives up its running place, and the firmware is told. -/
def State.parkCmd (s : State) (core : Nat) (c : Gcmd) (at_ progress cause : Nat) (acc : Acc) (va : Nat) : State :=
  let gen := s.pasidGen c.pasid
  let s := s.updCmd core c.id (fun c => { c with state := 3, parkedAt := at_, retried := false })
  s.tfqWrite (dieOfCore core)
    { entry := 0, kind := 1, key := core, ident := c.id, record := { cause := 0 }
      bytes := tfqBytes 1 cause acc.code c.pasid gen core (slotOfWid c.wid) c.gang c.ticket va 0 progress [] }

/-- A part of a command fails (R293): its credit is given, and the command goes on. -/
def State.failPart (s : State) (core : Nat) (c : Gcmd) (part size : Nat) (t : TrapReq) : State :=
  let s := s.updCmd core c.id (fun c =>
    let c := { c.noteFail part t with held := c.held.filter (fun h => decide (h.1 ≠ part)) }
    if c.kind ≤ 1 || c.kind = 5 then { c with moved := c.moved + size }
    else { c with lost := c.lost ||| BitVec.ofNat 256 (2 ^ part) })
  if c.kind = 2 || c.kind = 3 then s.creditCmd c Bar.row else if c.kind = 4 then s.creditCmd c Bar.ack else s

/-- COPY_UNIT (R285): the next unit of a running copy. -/
def execCopyUnit (core ticket : Nat) (s : State) : Res :=
  match s.cmd core ticket with
  | none => .next s
  | some c =>
    if c.state ≠ 2 || 1 < c.kind || c.cancelled then .next s
    else match unitAt (s.copySegs c) c.moved with
      | none => .next s
      | some (src, dst, n, off) =>
        match s.moveUnit (c.agent c.moved) src dst n with
        | (t, .ok _) => .next (t.updCmd core c.id (fun c => { c with moved := c.moved + n }))
        | (t, .error (.fault k acc va)) => .next (t.parkCmd core c c.moved off k acc va)
        | (t, .error (.fail k va dev rc r)) => .next ((t.cmdAlarm core c r).failPart core c c.moved n (c.failRec k va dev rc))

/-- The index of a row, read from the banks when the row starts (R287). -/
def State.rowIndex (s : State) (c : Gcmd) (i : Nat) : Nat :=
  let n := if c.num 8 1 = 0 then 4 else 8
  match (s.wgAt c.wid).barnLoc (coreOfWid c.wid) (c.num 0x0C 4) with
  | .barn core t o => ofBytesLE (s.tileBankBytes core t (o + n * i) n)
  | .glob _ => 0

/-- The bytes of a part that have been held perform (R293). -/
def State.releaseHeld (s : State) (core : Nat) (c : Gcmd) (i : Nat) : State :=
  (c.held.filter (fun h => decide (h.1 = i))).foldl (fun s h => s.writeWide core h.2.1 h.2.2.length (fun j => h.2.2.getD j 0))
    (s.updCmd core c.id (fun c => { c with held := c.held.filter (fun h => decide (h.1 ≠ i)) }))

/-- A row is delivered (R287), or a receiver has acknowledged (R290), once every write of it has performed. -/
def State.partDone (s : State) (core : Nat) (c : Gcmd) (i : Nat) : State :=
  if s.partBusy c.id i then s
  else
    let s := s.releaseHeld core c i
    if c.kind = 4 then
      (s.updCmd core c.id (fun c => { c with acked := c.acked ||| BitVec.ofNat 64 (2 ^ i) })).creditCmd c Bar.ack
    else (s.updCmd core c.id (fun c => { c with delivered := c.delivered ||| BitVec.ofNat 256 (2 ^ i) })).creditCmd c Bar.row

/-- Part `i` of the command may start: it is neither settled nor in flight, the command is not being cancelled, and of the
rows of a gather or scatter fewer than 64 are in flight (R287). -/
def State.mayMove (s : State) (c : Gcmd) (i : Nat) : Bool :=
  decide (c.state = 2) && !c.cancelled && decide (i < c.count) && !c.settled i && !s.partBusy c.id i &&
    (decide (c.kind = 4) || decide (((List.range c.count).filter (s.partBusy c.id)).length < 64))

/-- A row or receiver moves: where some of its bytes go to other devices, those of this device wait for them, so that a row
that fails leaves them as they were (R287, R290, R293). -/
def State.movePart (s : State) (c : Gcmd) (i : Nat) (src dst : Loc) (n : Nat) : State × Except XErr Unit :=
  let r := s.moveAll (c.agent i) src dst n
  if r.1.partBusy c.id i then s.moveAll { c.agent i with hold := true } src dst n else r

/-- GATHER_ROW (R287, R288): one row of a running gather or scatter. -/
def execGatherRow (core ticket row : Nat) (s : State) : Res :=
  match s.cmd core ticket with
  | none => .next s
  | some c =>
    if (c.kind ≠ 2 && c.kind ≠ 3) || !s.mayMove c row then .next s
    else
      let x := s.rowIndex c row
      let ga := (c.num 0x10 8 + x * c.num 0x18 4) % 2 ^ 64
      let barn := ((s.wgAt c.wid).barnLoc core (c.num 0x20 4)).add (row * c.num 0x24 4)
      if x = (if c.num 8 1 = 0 then 2 ^ 32 - 1 else 2 ^ 64 - 1) then .next (s.partDone core c row)
      else if badGlobal ga then .next (s.failPart core c row 0 (c.failRec 2 ga 0 0))
      else match (if c.kind = 2 then s.movePart c row (.glob ga) barn (c.num 0x1C 4)
          else s.movePart c row barn (.glob ga) (c.num 0x1C 4)) with
        | (t, .ok _) => .next (t.partDone core c row)
        | (t, .error (.fault k acc va)) => .next (t.parkCmd core c row row k acc va)
        | (t, .error (.fail k va dev rc r)) => .next ((t.cmdAlarm core c r).failPart core c row 0 (c.failRec k va dev rc))

/-- The destination of a receiver entry (R289) (log entry 71, DEDUCED). -/
def State.receiverLoc (s : State) (c : Gcmd) (e : List Byte) : Loc :=
  if blockNum e 0 1 = 1 then .glob (blockNum e 8 8)
  else match s.neighbour (s.wgAt c.wid) (blockNum e 1 1) with
    | some wid => (s.wgAt wid).barnLoc (coreOfWid wid) (blockNum e 4 4)
    | none => (Workgroup.absent).barnLoc 0 0

/-- MULTICAST_ACK (R290): one receiver takes every byte and acknowledges (log entry 71, DEDUCED). -/
def execMulticastAck (core ticket receiver : Nat) (s : State) : Res :=
  match s.cmd core ticket with
  | none => .next s
  | some c =>
    if c.kind ≠ 4 || !s.mayMove c receiver then .next s
    else
      let dst := s.receiverLoc c (c.receivers.getD receiver [])
      let src := if c.num 8 1 = 1 then .glob (c.num 0x10 8) else (s.wgAt c.wid).barnLoc core (c.num 0x0C 4)
      match s.movePart c receiver src dst (c.num 0x18 4) with
      | (t, .ok _) => .next (t.partDone core c receiver)
      | (t, .error (.fault k acc va)) => .next (t.parkCmd core c receiver (va - dst.addr) k acc va)
      | (t, .error (.fail k va dev rc r)) =>
        .next ((t.cmdAlarm core c r).failPart core c receiver 0 (c.failRec k va dev rc))

/-! ### Scale placement (R291, 13 R328, R329) -/

/-- Scale bytes of one line: q codes, f16 or f32 scales (13 R328). -/
def lineBytes (scheme k : Nat) : Nat := match scheme with
  | 1 => k / 64
  | 2 => 2 * (k / 16)
  | _ => 4

/-- The element formats that a scheme allows (13 R325, R328): the nine narrow formats. -/
def schemeEtype (scheme et : Nat) : Bool := decide (1 ≤ scheme) && decide (scheme ≤ 3) && ([4, 5, 6, 7, 8, 12, 16, 17, 18].contains et)

/-- A layout record's fields are in their ranges (13 R328). -/
def layoutOk (r : List Byte) : Bool :=
  let sc := blockNum r 0 1
  let l := blockNum r 4 2
  let k := blockNum r 8 4
  schemeEtype sc (blockNum r 1 1) && blockZero r 2 2 && blockZero r 6 2 && blockZero r 0x18 40 &&
  decide (1 ≤ l) && decide (l ≤ 4096) && decide (1 ≤ k) && decide (k ≤ 2 ^ 24) &&
  (match sc with
    | 1 => decide (k % 64 = 0)
    | 2 => decide (k % 16 = 0)
    | _ => true) &&
  decide (lineBytes sc k ≤ blockNum r 0x0C 4) && (decide (sc = 1) || blockZero r 0x10 8)

/-- Q of a Q8S64 tensor, and the body of the others (13 R328). -/
def layoutQ (r : List Byte) : Nat := roundUp (blockNum r 4 2 * lineBytes (blockNum r 0 1) (blockNum r 8 4)) 4

/-- Runs of a Q8S64 tensor. -/
def layoutRuns (r : List Byte) : Nat :=
  if blockNum r 0 1 = 1 then ceilDiv (blockNum r 4 2 * (blockNum r 8 4 / 64)) 256 else 0

/-- Placed size (13 R329). -/
def placedSize (r : List Byte) : Nat :=
  16 + (if blockNum r 0 1 = 1 then layoutQ r + 4 * layoutRuns r else blockNum r 4 2 * lineBytes (blockNum r 0 1) (blockNum r 8 4))

/-- Read a run of global bytes by an engine: units within lines, concatenated. -/
def State.engReadRun (g : Agent) : List (Nat × Nat × Nat) → State → State × Except XErr (List Byte)
  | [], s => (s, .ok [])
  | (va, _, n) :: ps, s =>
    match s.engRead g n (.glob va) with
    | (t, .error e) => (t, .error e)
    | (t, .ok bs) => match State.engReadRun g ps t with
      | (u, .error e) => (u, .error e)
      | (u, .ok r) => (u, .ok (bs ++ r))

/-- Read the lines' scales, line by line. -/
def State.readLines (g : Agent) (src stride n : Nat) : Nat → State → State × Except XErr (List Byte)
  | 0, s => (s, .ok [])
  | l + 1, s =>
    match State.readLines g src stride n l s with
    | (t, .error e) => (t, .error e)
    | (t, .ok bs) => match State.engReadRun g (runPieces (src + l * stride) n) t with
      | (u, .error e) => (u, .error e)
      | (u, .ok r) => (u, .ok (bs ++ r))

/-- The placed form of a scale tensor (13 R329), or why it cannot be formed. -/
def State.placedForm (s : State) (g : Agent) (src layout limit : Nat) : State × Except XErr (List Byte) :=
  match State.engReadRun g (runPieces layout 64) s with
  | (t, .error e) => (t, .error e)
  | (t, .ok r) =>
    if layout % 64 ≠ 0 || !layoutOk r || limit < placedSize r then (t, .error (.fail 4 layout 0 0 none))
    else
      let l := blockNum r 4 2
      let n := lineBytes (blockNum r 0 1) (blockNum r 8 4)
      match State.readLines g src (blockNum r 0x0C 4) n l t with
      | (u, .error e) => (u, .error e)
      | (u, .ok bs) =>
        match State.engReadRun g (runPieces (src + blockNum r 0x10 8) (4 * layoutRuns r)) u with
        | (v, .error e) => (v, .error e)
        | (v, .ok ss) =>
          let pad := if blockNum r 0 1 = 1 then layoutQ r - bs.length else 0
          (v, .ok (r.take 12 ++ List.replicate 4 0 ++ bs ++ List.replicate pad 0 ++ ss))

/-- The 8-byte words of `n` bytes of a tile from an offset that they fill. -/
def Tile.wordsOf (t : Tile) (off n : Nat) : List Nat :=
  (List.range ((off + n) / 8 - ceilDiv off 8)).map (fun i => t.phys (8 * (ceilDiv off 8 + i)) / 8)

/-- Words that are written anew carry no error (13 R334). -/
def Cluster.rewritten (c : Cluster) (level : Nat) (words : List Nat) : Cluster :=
  { c with upset := c.upset.filter (fun u => !(decide (u.1 = level) && words.contains u.2)) }

/-- A read of bytes [a, a + n) of a cluster's memory meets an uncorrectable error (13 R334). -/
def Cluster.spoilt (c : Cluster) (level a n : Nat) : Bool :=
  c.upset.any (fun u => decide (u.1 = level) && decide (a / 8 ≤ u.2) && decide (u.2 * 8 < a + n))

/-- UPSET: an uncorrectable error strikes a word of a cluster's accumulator or scale memory (13 R334)
(log entry 93, DEDUCED). -/
def State.strike (s : State) (cl level word : Nat) : State := s.updCluster cl (fun c => { c with upset := (level, word) :: c.upset })

/-- Write bytes into a scale tile of a cluster. -/
def State.sclWrite (s : State) (cl : Nat) (t : Tile) (off : Nat) (bs : List Byte) : State :=
  s.updCluster cl (fun c => { (c.rewritten 2 (t.wordsOf off bs.length)) with scl := (List.range bs.length).foldl (fun m i =>
    if (off + i) / granuleSize t.level < t.granules.length then mapSet 0 m (t.phys (off + i)) (bs.getD i 0) else m) c.scl })

/-- SCALE_PLACEMENT (R291, 13 R329): the placed form is written whole, or nothing is. -/
def execScalePlacement (core ticket : Nat) (s : State) : Res :=
  match s.cmd core ticket with
  | none => .next s
  | some c =>
    if c.state ≠ 2 || c.kind ≠ 5 || c.moved ≠ 0 || c.cancelled then .next s
    else
      let r := s.placedForm (c.agent 0) (c.num 8 8) (c.num 0x10 8) (c.num 0x1C 4)
      let back := { s with fresh := r.1.fresh, alarms := r.1.alarms }
      match r.2 with
      | .ok bs =>
        match (s.wgAt c.wid).barnLoc core (c.num 0x18 4) with
        | .barn _ t o => .next ((r.1.sclWrite (clusterOfCore core) t o bs).updCmd core c.id (fun c => { c with moved := 1 }))
        | .glob _ => .next s
      | .error (.fault k acc va) => .next (back.parkCmd core c 0 0 k acc va)
      | .error (.fail k va dev rc x) => .next ((back.cmdAlarm core c x).failPart core c 0 1 (c.failRec k va dev rc))

/-! ### Completion and failure (R292 to R294) -/

/-- The report of a failed command for a gang that issued it (R294). -/
def State.reportCmd (s : State) (key : Nat) (c : Gcmd) (t : TrapReq) : State :=
  s.updGangAt key (fun g =>
    let r : Report := { id := c.id, path := c.path, seq := g.seqOf c.path c.id, record := t, marks := [], relScope := none }
    { g with reports := insertReport r g.reports })

/-- GLEANER_COMMAND_COMPLETION (R292): the final credit, the notify, the report of a failure, and the counters. -/
def execGleanerCommandCompletion (core ticket : Nat) (s : State) : Res :=
  match s.cmd core ticket with
  | none => .next s
  | some c =>
    if c.state ≠ 2 || !s.cmdDone c then .next s
    else
      let s := if c.kind ≤ 1 || c.kind = 5 then s.creditCmd c Bar.member else s
      let s := if c.kind ≠ 0 && bit c.flags 5 then s.raiseCell (c.num 2 2) 1 else s
      let s := match c.failed with
        | some (_, t) => c.issuers.foldl (fun (s : State) k => s.reportCmd k c t) s
        | none => s
      .next ((s.endCmd core c (if c.failed.isSome then 4 else 0)
        ((c.failed.map (fun (f : Nat × TrapReq) => f.2.sub)).getD 0)).lowerIssuers c)

/-- The firmware cannot resolve the fault at which a command parked: the part fails with its cause, and the command
resumes (R288, R293). -/
def State.gleanerFail (s : State) (core : Nat) (c : Gcmd) (cause va : Nat) : State :=
  let size := if c.kind = 5 then 1 else match unitAt (s.copySegs c) c.moved with
    | some (_, _, n, _) => n
    | none => 0
  (s.failPart core c c.parkedAt size (c.failRec cause va 0 0)).updCmd core c.id (fun c => { c with retried := true })

/-- A command that is being cancelled has nothing more in flight: it ends, and the gcncl that waits for it answers 0
(R296). -/
def State.endCancelled (s : State) (core : Nat) (c : Gcmd) : State :=
  s.liveGangs.foldl (fun s k => s.updGangAt k (fun g =>
    match g.flow.blocks.findSome? (fun b => match b.2 with
      | .cancel i d => if i = c.id then some d else none
      | _ => none) with
    | some d => g.finishBlock (.cancel c.id d) (fun h => h.putSAll d 0)
    | none => g)) (s.cancelCmd core c)

/-- A write of a command to another device has its completion, poisoned or not: the part it belongs to fails or is done
(R292, R293). -/
def State.cmdAnswer (s : State) (core : Nat) (c : Gcmd) (m : Msg) (status : Nat) : State :=
  let part := decide (2 ≤ c.kind) && decide (c.kind ≤ 4)
  let s :=
    if status ≠ 0 && !(part && c.settled m.lane) then
      s.failPart core c m.lane 0 (c.failRec (farCause (status - 1)) m.handle.toNat m.dst (status - 1))
    else if part && !c.settled m.lane then s.partDone core c m.lane
    else s
  if c.cancelled && !s.engBusy c.id then s.endCancelled core c else s

/-- How a turn of a core's Gleaner names a command. -/
def Gcmd.name (c : Gcmd) : Nat := 65536 + c.id

/-- The next turn of a running command. -/
def State.cmdEvent (s : State) (core : Nat) (c : Gcmd) : Option Res :=
  if c.state ≠ 2 || c.cancelled then none
  else if s.cmdDone c then some (execGleanerCommandCompletion core c.name s)
  else if c.kind ≤ 1 then (unitAt (s.copySegs c) c.moved).map (fun _ => execCopyUnit core c.name s)
  else if c.kind = 5 then some (execScalePlacement core c.name s)
  else ((List.range c.count).find? (s.mayMove c)).map (fun i =>
    if c.kind = 4 then execMulticastAck core c.name i s else execGatherRow core c.name i s)

/-- The next own event of a core's Gleaner. -/
def State.gleanerEvent (s : State) (core : Nat) : Option Res :=
  match (s.coreAt core).gleaner.findSome? (s.cmdEvent core) with
  | some r => some r
  | none => if (s.nextStart core).isSome then some (execGleanerCommandStart core s) else none

end Sys2Proof.Machine
end

