-- ==== Sys2Proof/Machine/Expand.lean ====
section
/-! DEFINITION. The expand unit, the selection instructions and the Barn hash tables (12 R301 to R322). -/

namespace Sys2Proof.Machine

/-- expand misuse (R321). -/
def xMisuse (sub : Nat) (s : State) : Res := trapNow { cause := 0x15, sub := sub } s

/-- The key etypes (R301). -/
def keyType (t : Nat) : Bool := [0, 1, 9, 10, 13, 14].contains t

/-! ### Formation (R303, R304) -/

/-- Number of owners. -/
def XGroup.owners (x : XGroup) : Nat := 32 * x.members.length

/-- The exclusive prefix of owner i. -/
def XGroup.prefix_ (x : XGroup) (i : Nat) : Nat := mapGet 0 x.pre i

/-- The length of owner i: up to the next prefix, or the total (R310). -/
def XGroup.len (x : XGroup) (i : Nat) : Nat := (if i + 1 < x.owners then x.prefix_ (i + 1) else x.total) - x.prefix_ i

/-- Exclusive prefixes of the lengths of owners 0 to n - 1. -/
def prefixMap (len : Nat → Nat) : Nat → SMap Nat × Nat
  | 0 => ([], 0)
  | n + 1 =>
    let r := prefixMap len n
    (mapSet 0 r.1 n r.2, r.2 + len n)

/-- Starts of owners 0 to n - 1. -/
def startMap (start : Nat → DWord) : Nat → SMap DWord
  | 0 => []
  | n + 1 => mapSet 0 (startMap start n) n (start n)

/-- Gang numbers that a descriptor names (R304). -/
def descMembers (d : Word) : List Nat := (List.range (field d.toNat 20 2 + 1)).map (fun i => field d.toNat (5 * i) 5)

/-- A descriptor is valid for a workgroup (R304): no reserved bit, gangs of the workgroup, all different; and the names past
the last member 0, as the table of R304 gives them, though its list of the misuse cases does not name them (log entry 113,
DESIGN CHOICE). -/
def descOk (w : Workgroup) (num : Nat) (d : Word) : Bool :=
  let ms := descMembers d
  decide (d.toNat < 2 ^ 22) && decide (field d.toNat (5 * ms.length) (20 - 5 * ms.length) = 0) &&
  ms.all (fun m => decide (m < w.gangs)) && decide ms.Nodup && ms.contains num

/-- A new group of `members` takes the place of the groups that they belonged to: the gangs that it does not name are
idle and hold the broken mark (R304). -/
def State.installGroup (s : State) (wid : Nat) (x : XGroup) : State :=
  let w := s.wgAt wid
  let gone := w.groups.filter (fun y => y.members.any x.members.contains)
  let left := (gone.map (·.members)).flatten.filter (fun m => !x.members.contains m)
  let s := left.foldl (fun s m => s.updGangAt (gangKey wid m) (fun g =>
    { g with regs := { g.regs with xst := 0, broken := true } })) s
  s.updWgAt wid (fun w => { w with groups := w.groups.filter (fun y => !y.members.any x.members.contains) ++ [x] })

/-- A gang as a member after formation: xst, its total in s[d], past its word (R304). -/
def Gang.formed (g : Gang) (g1 m total : Nat) (d : Code) : Gang :=
  let lead := ((g.flow.blocks.find? (fun e => decide (e.2 = .formation))).map (·.1)).getD g.flow.served
  let h := { g with
    flow := { g.flow with served := lead, blocks := mapDrop lead g.flow.blocks }
    regs := { g.regs with xst := xstOf 2 g1 m 0, broken := false } }
  (h.putSAll d (BitVec.ofNat 32 total)).advance

/-- The start and length that a gang's lane contributes (R304). -/
def State.laneRun (s : State) (a b : Code) (l : Nat) : DWord × Nat :=
  if s.gang.active l then (s.vsrc64 a l, (s.vsrc32 b l).toNat) else (0, 0)

/-- expb (R304): a group of the gang alone. -/
def execExpb (d a b : Code) (s : State) : Res :=
  guardOps s (fixedOps [.sw 32 d, .vr 64 a, .vr 32 b]) (fun s => heldOr 64 s (
    let g := s.gang
    if !g.whole then trapNow { cause := 0x08 } s
    else
      let p := prefixMap (fun l => (s.laneRun a b l).2) 32
      if 2 ^ 32 ≤ p.2 then trapNow { cause := 0x16 } s
      else
        let x : XGroup := { members := [g.num], total := p.2, start := startMap (fun l => (s.laneRun a b l).1) 32, pre := p.1 }
        .next ((s.installGroup g.wid x).updGang (fun g => g.formed 0 0 p.2 d))))

/-- The gang waits at its expb.g. -/
def Gang.atFormation (g : Gang) : Bool := g.flow.blocks.any (fun e => decide (e.2 = .formation))

/-- The state field of xst alone (R303). -/
def xstWith (x : DWord) (state : Nat) : DWord := BitVec.ofNat 64 (x.toNat % 2 ^ 62 + state * 2 ^ 62)

/-- The formation that a gang of a workgroup waits in. -/
def State.formingOf (s : State) (wid m : Nat) : Option XForming :=
  if (s.gangAt (gangKey wid m)).atFormation then (s.wgAt wid).forming.find? (fun f => decide (f.gang = m)) else none

/-- Every member named by a waiting formation has issued its own. -/
def State.formationReady (s : State) (wid : Nat) (f : XForming) : Bool :=
  (descMembers f.desc).all (fun m => (s.formingOf wid m).isSome)

/-- A member named by a waiting formation has ended without issuing it (R308). -/
def State.formationLost (s : State) (wid : Nat) (f : XForming) : Bool :=
  (descMembers f.desc).any (fun m => !(s.gangAt (gangKey wid m)).live)

/-- A gang no longer waits at its expb.g: the state of its xst is what it was before, since the formation has changed
nothing else of it (R304). -/
def State.leaveFormation (s : State) (wid : Nat) (f : XForming) : State :=
  (s.updWgAt wid (fun w => { w with forming := w.forming.filter (fun x => decide (x.gang ≠ f.gang)) })).updGangAt
    (gangKey wid f.gang) (fun g => { g with regs := { g.regs with xst := xstWith g.regs.xst (xstState f.old) } })

/-- A trap in each gang of a list that waits at its expb.g: its xst stands as before (R304), but the trap of an ended gang
leaves it idle (R308). -/
def State.trapFormation (s : State) (wid : Nat) (ms : List Nat) (t : TrapReq) : State :=
  ms.foldl (fun s m =>
    match s.formingOf wid m with
    | none => s
    | some f =>
      let k := gangKey wid m
      let lead := (((s.gangAt k).flow.blocks.find? (fun e => decide (e.2 = .formation))).map (·.1)).getD 0
      let s := ({ (s.leaveFormation wid f) with cur := k, ir := f.word }).updGangAt k (fun g => { g with
        flow := { g.flow with served := lead }
        regs := { g.regs with xst := if t.cause = 0x17 then 0 else g.regs.xst } })
      s.takeTrap t) s

/-- The waiting formations of a workgroup are looked at (R304, R308): broken by an ended member, refused, or formed. -/
def State.tryFormation (s : State) (wid : Nat) : State :=
  let fs := (s.wgAt wid).forming.filter (fun f => (s.gangAt (gangKey wid f.gang)).atFormation)
  match fs.find? (s.formationLost wid) with
  | some f => s.trapFormation wid (descMembers f.desc) { cause := 0x17 }
  | none => match fs.find? (s.formationReady wid) with
    | none => s
    | some f =>
      let ms := descMembers f.desc
      let get := fun m => (s.formingOf wid m).getD f
      if ms.any (fun m => decide ((get m).desc ≠ f.desc)) then s.trapFormation wid ms { cause := 0x15, sub := 1 }
      else
        let owner := fun i => get (ms.getD (i / 32) 0)
        let n := 32 * ms.length
        let p := prefixMap (fun i => mapGet 0 (owner i).len (i % 32)) n
        if 2 ^ 32 ≤ p.2 then s.trapFormation wid ms { cause := 0x16 }
        else
          let x : XGroup := { members := ms, total := p.2, start := startMap (fun i => mapGet 0 (owner i).start (i % 32)) n
                              pre := p.1 }
          let s1 := (s.installGroup wid x).updWgAt wid (fun w => { w with
            forming := w.forming.filter (fun y => !ms.contains y.gang) })
          ms.foldl (fun s m => s.updGangAt (gangKey wid m) (fun g =>
            g.formed (ms.length - 1) (ms.findIdx (fun y => decide (y = m))) p.2 (get m).dest)) s1

/-- expb.g (R304): the gang issues its formation, and stalls until every member has; of xst the state alone changes. -/
def execExpbG (d a b : Code) (s : State) : Res :=
  guardOps s (fixedOps [.sw 32 d, .vr 64 a, .vr 32 b]) (fun s => heldOr 64 s (
    let g := s.gang
    let desc := s.sarg d
    if !g.whole then trapNow { cause := 0x08 } s
    else if !descOk s.wg g.num desc then xMisuse 1 s
    else
      let f : XForming :=
        { gang := g.num, desc := desc, dest := d, word := s.ir, old := g.regs.xst
          start := startMap (fun l => (s.laneRun a b l).1) 32
          len := (List.range 32).foldl (fun m l => mapSet 0 m l (s.laneRun a b l).2) [] }
      let s := (s.stall .formation).updWg (fun w => { w with
        forming := w.forming.filter (fun y => decide (y.gang ≠ g.num)) ++ [f] })
      let s := s.updGang (fun g => { g with regs := { g.regs with
        xst := xstWith g.regs.xst 1, broken := false } })
      .next (s.tryFormation g.wid)))

/-! ### Rounds and sums (R305, R306) -/

/-- The group of the gang in focus, with the trap of a gang that is in none (R304, R308, R321). -/
def withXGroup (s : State) (body : XGroup → State → Res) : Res :=
  let g := s.gang
  if g.regs.broken then
    trapNow { cause := 0x17 } (s.updGang (fun g => { g with regs := { g.regs with broken := false, xst := 0 } }))
  else if xstState g.regs.xst ≠ 2 then xMisuse 0 s
  else match s.wg.groupOf g.num with
    | none => xMisuse 0 s
    | some x => body x s

/-- The owner of item q: the largest with items whose prefix is at most q (R305). -/
def XGroup.owner (x : XGroup) (q : Nat) : Nat :=
  ((List.range x.owners).foldl (fun o i => if decide (0 < x.len i) && decide (x.prefix_ i ≤ q) then some i else o) none).getD 0

/-- expn (R305). -/
def execExpn (d a : Code) (s : State) : Res :=
  guardOps s (fixedOps [.pw d, .pw a]) (fun s => heldOr 64 s (
    if !s.gang.whole then trapNow { cause := 0x08 } s
    else withXGroup s (fun x s =>
      let g := s.gang
      let n := x.members.length
      let m := xstM g.regs.xst
      let round := xstRound g.regs.xst
      let base := round * 32 * n + 32 * m
      let has := fun l => decide (base + l < x.total)
      let next := (round + 1) % 2 ^ 32
      let more := decide (next * 32 * n + 32 * m < x.total)
      let lanes := (List.range 32).filter has
      let set := fun (r : Regs) l =>
        let q := base + l
        let o := x.owner q
        let k := q - x.prefix_ o
        { r with xo := mapSet 0 r.xo l (BitVec.ofNat 32 o), xk := mapSet 0 r.xk l (BitVec.ofNat 32 k)
                 xi := mapSet 0 r.xi l (mapGet 0 x.start o + BitVec.ofNat 64 k) }
      finishWith s (fun g =>
        let r := lanes.foldl set g.regs
        (({ g with regs := { r with xst := xstOf 2 (n - 1) m next } }).putP d (fun _ => true) has).putP a (fun _ => true)
          (fun _ => more)))))

/-- One lane of segr in the state so far: the owner's accumulator takes the value; its flags (R306). A value register that
an earlier lane has added to is read as it then stands (00 R10). -/
def segrLane (x : XGroup) (d a : Code) (l : Nat) (s : State) : State × Nat :=
  let g := s.gang
  let t := g.et l
  let o := (mapGet (0 : Word) g.regs.xo l).toNat
  let key := gangKey g.wid (x.members.getD (o / 32) 0)
  let h := s.gangAt key
  let acc := if d = 0xF0 then 0 else if etypeWide t then (h.vPair d.toNat (o % 32)).toNat else (h.v d.toNat (o % 32)).toNat
  let r := gredStep 0 t (g.fmode l) acc (s.vsrc (.elem t) a l).toNat
  (s.setGangAt key (h.putV d (fun _ => etypeWide t) (fun k => decide (k = o % 32)) (fun _ => BitVec.ofNat 64 r.1)), r.2)

/-- The lanes of segr in order: the state, and each lane's flags. -/
def segrLanes (x : XGroup) (d a : Code) : List Nat → State → State × List (Nat × Nat)
  | [], s => (s, [])
  | l :: ls, s =>
    let r := segrLane x d a l s
    let t := segrLanes x d a ls r.1
    (t.1, (l, r.2) :: t.2)

/-- The lanes of the gang in focus that are owners of its active lanes, under etypes that `f` accepts. -/
def Gang.ownOwners (g : Gang) (x : XGroup) (f : Nat → Bool) : List Nat :=
  let o := fun l => (mapGet (0 : Word) g.regs.xo l).toNat
  (g.activeList.filter (fun l => f (g.et l) && decide (x.members[o l / 32]? = some g.num))).map (fun l => o l % 32)

/-- segr (R306, R307). Of the accumulators that it reads, those of its own gang are waited for and report a poisoned load;
what another member has under way or marked there stays that member's (log entry 114, DEDUCED). -/
def execSegr (d a : Code) (s : State) : Res :=
  guardOps s (etypeOps keyType (fun t => [.vw (vwidth t) d, .vr (vwidth t) a])) (fun s => heldOr 64 s (
    let g := s.gang
    let wide := (List.range 8).any (fun k => g.issuing k && etypeWide (modeEtype (g.mode k)))
    let short := match s.wg.groupOf g.num with
      | some x => x.members.any (fun m => decide ((s.gangAt (gangKey g.wid m)).alloc < d.toNat + (if wide then 2 else 1)))
      | none => false
    if d ≠ 0xF0 && short then trapNow { cause := 0x02 } s
    else withXGroup s (fun x s =>
      let g := s.gang
      let lost := fun l =>
        let o := (mapGet (0 : Word) g.regs.xo l).toNat
        decide (x.members.length ≤ o / 32) || !(s.gangAt (gangKey g.wid (x.members.getD (o / 32) 0))).live
      if g.activeList.any lost then
        trapNow { cause := 0x17 } (s.updGang (fun g => { g with regs := { g.regs with xst := 0 } }))
      else guardLanes d 2 (g.ownOwners x etypeWide) s (guardLanes d 1 (g.ownOwners x (fun t => !etypeWide t)) s (
        let r := segrLanes x d a g.activeList s
        let fl := fun l => ((r.2.find? (fun e => decide (e.1 = l))).map (·.2)).getD 0
        let all := laneFlags g fl
        if g.trapping fl = 0 then .next ((r.1.updGang (fun g => g.raiseFlags all)).advance)
        else trapNow { cause := 0x0A, lanes := g.trapping fl, aux := BitVec.ofNat 32 all }
          (s.updGang (fun g => g.raiseFlags all)))))))

/-! ### Saving expand state (R309, R310) -/

/-- The image of a group (R309): rounds by member. -/
def XGroup.image (x : XGroup) (round : Nat → Nat) : List Byte :=
  let n := x.members.length
  bytesLE 4 x.total ++ bytesLE 1 n ++ bytesLE 3 0 ++
  ((List.range 4).map (fun i => bytesLE 4 (if i < n then round i else 0))).flatten ++
  ((List.range 4).map (fun i => bytesLE 1 (x.members.getD i 0))).flatten ++ bytesLE 4 0 ++
  ((List.range (32 * n)).map (fun i => bytesLE 8 (mapGet 0 x.start i).toNat ++ bytesLE 4 (x.prefix_ i))).flatten

/-- Rounds dealt to the members of a group. -/
def State.roundOf (s : State) (wid : Nat) (x : XGroup) (i : Nat) : Nat :=
  xstRound (s.gangAt (gangKey wid (x.members.getD i 0))).regs.xst

/-- The checks on the address of an image (R310, 07 R179). -/
def State.imageFault (s : State) (sp size : Nat) (a : DWord) : Option TrapReq :=
  let t : Nat → TrapReq := fun c => { cause := c, lanes := 1, addr := a }
  if a.toNat % 32 ≠ 0 then some (t 0x0B)
  else match s.place sp size a 0 with
    | .error .nonCanonical => some (t 0x0C)
    | .error _ => some (t 0x0D)
    | .ok _ => none

/-- The accesses of an image by lane 0, in ascending order. -/
def State.imagePlaces (s : State) (sp size : Nat) (a : DWord) : List (Nat × Place) :=
  match s.place sp size a 0 with
  | .ok (.glob va) => (runPieces va size).map (fun p => (0, .glob p.1))
  | _ => []

/-- Pair the accesses with their pieces. -/
def imagePieces (va size : Nat) (ok : List (Nat × Target)) : List (Target × Nat × Nat) :=
  (ok.map (·.2)).zip ((runPieces va size).map (fun p => (p.2.1, p.2.2)))

/-- xsave (R310): lane 0's address, whether the lane is active or not. -/
def execXsave (a : Code) (n : BitVec 6) (sp : BitVec 1) (s : State) : Res :=
  if n = 63 then illegal s
  else guardOps s (fixedOps [.vl 64 a]) (fun s =>
    if !s.gang.whole then trapNow { cause := 0x08 } s
    else withXGroup s (fun x s =>
      let g := s.gang
      let addr := s.vsrc64 a 0
      let bs := x.image (s.roundOf g.wid x)
      let f : Form := { acc := .write, size := bs.length, sp := sp.toNat, path := 1, ticks := false }
      guardLanes a 2 [0] s (heldOr 2 s (match s.imageFault sp.toNat bs.length addr with
        | some t => trapNow t s
        | none =>
          if 63 ≤ g.counter 1 then stallOn (.path 1 62) s
          else
            let va := globalOf s.wg g.num 0 addr.toNat
            let r := translateLanes f (s.imagePlaces sp.toNat bs.length addr) (s.countMem f)
            match r.2.faults with
            | (_, c, fa) :: _ => .next (s.park 0 c .write fa 1 1)
            | [] =>
              if !(g.lateOn r.2.ok).isEmpty then stallOn (.ops (g.lateOn r.2.ok)) s
              else
                let id := r.1.nextId
                let s1 := ({ r.1 with nextId := id + 1 }).updGang (fun g => g.raise 1 id true)
                let s2 := (imagePieces va bs.length r.2.ok).foldl (fun (s : State) p =>
                  s.storeAt id 0 p.2.2 (g.nuCode n.toNat 0) (ofBytesLE ((bs.drop p.2.1).take p.2.2)) p.1) s1
                .next ((s2.afterLanes 1 2 [] id r.2.ok).updGang Gang.finishReplay).advance))))

/-- The checks on an image before it is restored (R310). -/
def imageOk (x : XGroup) (b : List Byte) : Bool :=
  let n := x.members.length
  let total := blockNum b 0 4
  let pre := fun i => blockNum b (0x20 + 12 * i + 8) 4
  decide (blockNum b 4 1 = n) && blockZero b 5 3 && blockZero b 0x1C 4 && decide (pre 0 = 0) &&
  (List.range (32 * n)).all (fun i => decide (pre i ≤ total) && (decide (i = 0) || decide (pre (i - 1) ≤ pre i))) &&
  (List.range n).all (fun i => decide (blockNum b (8 + 4 * i) 4 ≤ ceilDiv total 32))

/-- The round field of xst alone (R303). -/
def xstDealt (x : DWord) (round : Nat) : DWord := BitVec.ofNat 64 (x.toNat / 2 ^ 32 * 2 ^ 32 + round)

/-- A group and its members' rounds from an image (R310): of a member's xst the round alone is replaced. -/
def State.restoreGroup (s : State) (wid : Nat) (x : XGroup) (b : List Byte) : State :=
  let n := x.members.length
  let y : XGroup := { x with
    total := blockNum b 0 4
    start := startMap (fun i => BitVec.ofNat 64 (blockNum b (0x20 + 12 * i) 8)) (32 * n)
    pre := (List.range (32 * n)).foldl (fun m i => mapSet 0 m i (blockNum b (0x20 + 12 * i + 8) 4)) [] }
  let s := s.updWgAt wid (fun w => { w with groups := w.groups.map (fun z => if z.members = x.members then y else z) })
  (List.range n).foldl (fun s i => s.updGangAt (gangKey wid (x.members.getD i 0)) (fun g =>
    { g with regs := { g.regs with xst := xstDealt g.regs.xst (blockNum b (8 + 4 * i) 4) } })) s

/-- Read the pieces of an image: the bytes, or why they stop (R310). -/
def State.readImage (code : Nat) : List (Target × Nat × Nat) → State → Except RunStop (State × List Byte)
  | [], s => .ok (s, [])
  | (t, _, n) :: ps, s =>
    let one : Except RunStop (State × Nat) := match t with
      | .remote pa pg =>
        if s.l1Holds s.gang.core (farLine pa) (pa % 128) n then .ok (s.loadAt n code t) else .error (.away pa pg pa)
      | .refused o pa => .error (.refused o pa pa)
      | .bad pa => .error (.bad pa)
      | t => .ok (s.loadAt n code t)
    match one with
    | .error e => .error e
    | .ok (s, v) => match State.readImage code ps s with
      | .error e => .error e
      | .ok (u, r) => .ok (u, bytesLE n v ++ r)

/-- The bytes that lane 0 reads of an image at the address of the gang in focus; none where they do not all come (04 R113). -/
def State.xrstBytes (s : State) (a : Code) (n : BitVec 6) (sp : BitVec 1) : List Byte :=
  match s.wg.groupOf s.gang.num with
  | none => []
  | some x =>
    let size := 32 + 384 * x.members.length
    let addr := s.vsrc64 a 0
    let r := translateLanes { acc := .read, size := size, sp := sp.toNat, path := 0, ticks := false } (s.imagePlaces sp.toNat size addr) s
    match State.readImage (s.gang.nuCode n.toNat 0) (imagePieces (globalOf s.wg s.gang.num 0 addr.toNat) size r.2.ok) r.1 with
    | .ok (_, bs) => bs
    | .error _ => []

/-- xrst (R310): the loads complete before anything else of the gang issues; a poisoned completion is reported here. -/
def execXrst (a : Code) (n : BitVec 6) (sp : BitVec 1) (s : State) : Res :=
  if n = 63 then illegal s
  else guardOps s (fixedOps [.vl 64 a]) (fun s =>
    if !s.gang.whole then trapNow { cause := 0x08 } s
    else withXGroup s (fun x s =>
      let g := s.gang
      let addr := s.vsrc64 a 0
      let size := 32 + 384 * x.members.length
      let f : Form := { acc := .read, size := size, sp := sp.toNat, path := 0, ticks := false }
      guardLanes a 2 [0] s (heldOr 1 s (match s.imageFault sp.toNat size addr with
        | some t => trapNow t s
        | none =>
          if 63 ≤ g.counter 0 then stallOn (.path 0 62) s
          else
            let va := globalOf s.wg g.num 0 addr.toNat
            let r := translateLanes f (s.imagePlaces sp.toNat size addr) (s.countMem f)
            match r.2.faults with
            | (_, c, fa) :: _ => .next (s.park 0 c .read fa 1 1)
            | [] =>
              if !(g.lateOn r.2.ok).isEmpty then stallOn (.ops (g.lateOn r.2.ok)) s
              else match State.readImage (g.nuCode n.toNat 0) (imagePieces va size r.2.ok) r.1 with
              | .error e => s.runStop 1 .read (g.nuCode n.toNat 0) e
              | .ok (s', bs) =>
                if !imageOk x bs then xMisuse 2 s
                else
                  let id := s'.nextId
                  let s1 := ({ s' with nextId := id + 1 }).updGang (fun g => (g.raise 0 id true).finishReplay)
                  .next (s1.restoreGroup g.wid x bs).advance))))

/-! ### Selection (R312 to R316) -/

/-- A selection entry: key, index, and the free number that settles a tie (log entry 5, DESIGN CHOICE). -/
structure Ent where
  key : Nat
  idx : Nat
  tie : Nat
deriving DecidableEq, Repr

/-- Key `a` is greater than key `b` under an etype (R312, 06 R148). -/
def keyGreater (t a b : Nat) : Bool :=
  if isFloat t then fvLt (elemValue t false b) (elemValue t false a)
  else if isSigned t then decide (signedOf (etypeWidth t) b < signedOf (etypeWidth t) a)
  else decide (b < a)

/-- Insert in non-increasing key order; equal keys stand in the order of their free numbers. -/
def insertEnt (t : Nat) (e : Ent) : List Ent → List Ent
  | [] => [e]
  | x :: xs =>
    if keyGreater t e.key x.key || (!keyGreater t x.key e.key && decide (e.tie < x.tie)) then e :: x :: xs
    else x :: insertEnt t e xs

/-- Sort entries. -/
def sortEnts (t : Nat) (es : List Ent) : List Ent := es.foldl (fun acc e => insertEnt t e acc) []

/-- The key of a padding entry (R312). -/
def padKey (t : Nat) : Nat :=
  if isFloat t then canonicalNan (fmtOf t) else if isSigned t then 2 ^ (etypeWidth t - 1) else 0

/-- All ones in 64 bits. -/
def ones64 : Nat := 2 ^ 64 - 1

/-- The key type of a lane of a selection: its own slice's, and in a slice that does not issue that of the lowest slice
that does (03 R88). -/
def Gang.keyType (g : Gang) (l : Nat) : Nat := if g.issuing (l / 4) then g.et l else modeEtype (g.mode g.low)

/-- Insert a number into a list in the order of a rank. -/
def insertRank (rank : Nat → Nat) (t : Nat) : List Nat → List Nat
  | [] => [t]
  | x :: xs => if rank t ≤ rank x then t :: x :: xs else x :: insertRank rank t xs

/-- The key types of the issuing slices, each once, in an order that the rules leave free: R312 compares keys of one type
alone (log entry 22, DESIGN CHOICE). -/
def State.keyTypes (s : State) : List Nat :=
  let g := s.gang
  ((List.range 32).filter (fun t => (List.range 8).any (fun k => g.issuing k && decide (modeEtype (g.mode k) = t)))).foldr
    (insertRank (fun t => (Config.freeValue (s.fresh + 32 + t)).toNat)) []

/-- The valid entries of key type `t` in the gang's quad (R312). A fixed source in place of the quad is the key in its type and
the index as a 64-bit integer (02 R39; log entry 104, DEDUCED). -/
def State.entries (s : State) (q : Code) (t : Nat) : List Ent :=
  let g := s.gang
  ((g.activeList.filter (fun l => decide (g.keyType l = t))).map (fun l =>
    ({ key := (s.vsrc (.elem t) q l).toNat
       idx := (if q.toNat < 0xF0 then g.vPair (q.toNat + 2) l else s.vsrc (.int 64) q l).toNat, tie := (Config.freeValue (s.fresh + l)).toNat } : Ent))).filter
    (fun e => decide (e.idx ≠ ones64) && !(isFloat t && (elemValue t false e.key).isNan))

/-- The valid entries of the quad with their key types: in non-increasing key order within a type (R313). -/
def State.sorted (s : State) (q : Code) : List (Nat × Ent) :=
  s.keyTypes.flatMap (fun t => (sortEnts t (s.entries q t)).map (fun e => (t, e)))

/-- The entry that lane `l` receives, in its own key type: one of another type leaves a free key (log entry 22, DESIGN
CHOICE); past the last one, padding (R312). -/
def laneEnt (free : Nat → Nat) (ty : Nat → Nat) (es : List (Nat × Ent)) (l : Nat) : Ent :=
  match es[l]? with
  | some (t, e) => if t = ty l then e else { e with key := free l }
  | none => { key := padKey (ty l), idx := ones64, tie := 0 }

/-- Write entries into lanes 0 onward and pad the rest (R312); 0xF0 discards them (02 R41). -/
def Gang.putEntries (g : Gang) (free : Nat → Nat) (q : Code) (es : List (Nat × Ent)) : Gang :=
  if q = 0xF0 then g
  else
  let e := laneEnt free g.keyType es
  let all := fun _ => true
  let g := (g.writeLanes q.toNat all (fun l => BitVec.ofNat 32 (e l).key)).writeLanes (q.toNat + 1)
    (fun l => etypeWide (g.keyType l)) (fun l => BitVec.ofNat 32 ((e l).key / 2 ^ 32))
  (g.writeLanes (q.toNat + 2) all (fun l => BitVec.ofNat 32 (e l).idx)).writeLanes (q.toNat + 3) all
    (fun l => BitVec.ofNat 32 ((e l).idx / 2 ^ 32))

/-- The free keys of one selection, after the numbers that settle its ties and the order of its types. -/
def State.freeKey (s : State) (l : Nat) : Nat := (Config.freeValue (s.fresh + 64 + l)).toNat

/-- The quad of a selection word: under a 32-bit key etype its second register is neither read nor written (R301, R312). -/
def quadOps (wr : Bool) (q : Code) (t : Nat) : List Opnd :=
  if etypeWide t then [.vg 4 4 true wr true q]
  else .vg 1 4 true wr true q :: (if q.toNat < 0xF0 then [.vg 2 2 true wr false (q + 2)] else [])

/-- The operands of a selection word, which writes its quad or only reads it. -/
def selectOps (wr : Bool) (q : Code) (os : List Opnd) : OpndsOf := etypeOps keyType (fun t => quadOps wr q t ++ os)

/-- Pass the free numbers that one selection used. -/
def State.spendTies (s : State) : State := { s with fresh := s.fresh + 96 }

/-- A selection writes the entries it chose, and their number in s[a]. -/
def selectEnd (s : State) (d a : Code) (es : List (Nat × Ent)) : Res :=
  finishWith s.spendTies (fun g => (g.putEntries s.freeKey d es).putSAll a (BitVec.ofNat 32 es.length))

/-- vsort (R313). -/
def execVsort (d a : Code) (s : State) : Res :=
  guardOps s (selectOps true d [.sw 32 a]) (fun s => heldOr 64 s (
    if !s.gang.whole then trapNow { cause := 0x08 } s else selectEnd s d a (s.sorted d)))

/-- vtopk (R313). -/
def execVtopk (d a b : Code) (s : State) : Res :=
  guardOps s (selectOps true d [.sw 32 a, .sr 32 b]) (fun s => heldOr 64 s (
    let k := (s.sarg b).toNat
    if !s.gang.whole then trapNow { cause := 0x08 } s
    else if k = 0 || 32 < k then xMisuse 3 s
    else selectEnd s d a ((s.sorted d).take k)))

/-! ### Top-k lists (R314, R315) -/

/-- The header of a list is valid (R321, sub-cause 4). -/
def listOk (h : List Byte) : Bool :=
  let k := blockNum h 0 2
  decide (1 ≤ k) && decide (k ≤ 1024) && decide (blockNum h 2 2 ≤ k) && keyType (blockNum h 4 1) && blockZero h 5 11

/-- The entries of a list image, in order: ties keep the list's order by the numbers given. -/
def listEnts (b : List Byte) (tie : Nat → Nat) : List Ent :=
  (List.range (blockNum b 2 2)).map (fun j =>
    { key := blockNum b (16 + 16 * j) 8 % 2 ^ etypeWidth (blockNum b 4 1), idx := blockNum b (24 + 16 * j) 8, tie := tie j })

/-- One entry for each index, with the greatest key (R315). -/
def dedupe (t : Nat) : List Ent → List Ent
  | [] => []
  | e :: es =>
    let r := dedupe t es
    match r.find? (fun x => decide (x.idx = e.idx)) with
    | some x => if keyGreater t e.key x.key then e :: r.filter (fun y => decide (y.idx ≠ e.idx)) else r
    | none => e :: r

/-- The image of a list with capacity k. -/
def listImage (k t : Nat) (es : List Ent) : List Byte :=
  bytesLE 2 k ++ bytesLE 2 es.length ++ bytesLE 1 t ++ bytesLE 11 0 ++
  ((List.range k).map (fun j =>
    let e := es.getD j { key := padKey t, idx := ones64, tie := 0 }
    bytesLE 8 e.key ++ bytesLE 8 e.idx)).flatten

/-- The best entries of a union, one for each index (R315). -/
def mergeEnts (k t : Nat) (es : List Ent) : List Ent := (sortEnts t (dedupe t es)).take k

/-- The list that a locator names, or its trap: tile bounds first, then expand misuse (R321). -/
def State.listAt (s : State) (w : Workgroup) (core loc : Nat) : Except TrapReq (Loc × List Byte) :=
  match w.rangeFault loc 16 1 0 with
  | some t => .error t
  | none =>
    match w.barnLoc core loc with
    | .glob _ => .error { cause := 0x15, sub := 4 }
    | .barn c t o =>
      let h := s.tileBankBytes c t o 16
      match w.rangeFault loc (16 + 16 * blockNum h 0 2) 1 0 with
      | some t => .error t
      | none =>
        if loc % 16 ≠ 0 || !listOk h then .error { cause := 0x15, sub := 4 }
        else .ok (.barn c t o, s.tileBankBytes c t o (16 + 16 * blockNum h 0 2))

/-- Write bytes at a Barn place. -/
def State.barnWrite (s : State) (l : Loc) (bs : List Byte) : State :=
  match l with
  | .barn c t o => s.tileBankWrite c t o bs
  | .glob _ => s

/-- tkmrg (R315): the store queues first, then the banks (R322). The header's etype must be that of every issuing slice. -/
def execTkmrg (d a b : Code) (s : State) : Res :=
  guardOps s (selectOps false d [.sr 32 a, .sw 32 b]) (fun s => engineOr 64 s (
    let g := s.gang
    if !g.whole then trapNow { cause := 0x08 } s
    else
      let s1 := s.drainQueues g.core
      match s1.listAt s.wg g.core (s.sarg a).toNat with
      | .error x => trapNow x s
      | .ok (l, img) =>
        let t := blockNum img 4 1
        if s.keyTypes ≠ [t] then xMisuse 4 s
        else
          let k := blockNum img 0 2
          let tie := fun j => (Config.freeValue (s.fresh + 32 + j)).toNat
          let es := mergeEnts k t (listEnts img tie ++ s.entries d t)
          finishWith ({ s1 with fresh := s.fresh + 32 + k }.barnWrite l (listImage k t es))
            (fun g => g.putSAll b (BitVec.ofNat 32 es.length))))

/-- The union of list images, merged (R316): none when they differ in k or etype. -/
def mergeImages (fresh : Nat) (imgs : List (List Byte)) : Option (List Byte) :=
  match imgs with
  | [] => none
  | i0 :: _ =>
    let k := blockNum i0 0 2
    let t := blockNum i0 4 1
    if imgs.all (fun i => listOk i && decide (blockNum i 0 2 = k) && decide (blockNum i 4 1 = t)) then
      let es := ((List.range imgs.length).map (fun n =>
        listEnts (imgs.getD n []) (fun j => (Config.freeValue (fresh + 1024 * n + j)).toNat))).flatten
      some (listImage k t (mergeEnts k t es))
    else none

/-- The lists that a completing generation hands back (R316): written into every member's list, with its count; or no
list changes, and every member is told so. A saved member, whose key names a saved workgroup, takes the list when it is
restored. -/
def State.giveLists (s : State) (key : Nat) (merged : Option (List Byte)) : State :=
  let g := s.groupAt key
  let s1 := g.topk.foldl (fun (s : State) x =>
    match (if savedWid 0 ≤ x.gang / 32 then some none else x.result), merged with
    | none, some img =>
      let h := s.gangAt x.gang
      s.barnWrite ((s.wgAt h.wid).barnLoc h.core x.loc) img
    | _, _ => s) s
  s1.updGroup key (fun g => { g with
    lists := []
    topk := g.topk.map (fun (x : TopkIn) => match x.result with
      | some _ => x
      | none => { x with image := merged.getD x.image, result := some (merged.map (fun i => blockNum i 2 2)) }) })

/-- The lists handed in on this device in the current generation. -/
def NamedGroup.images (g : NamedGroup) : List (List Byte) := (g.topk.filter (fun x => x.result.isNone)).map (·.image)

/-- The images of a device as one message: none in, an empty block; lists that differ, a block that fits none. -/
def packImages (fresh : Nat) (imgs : List (List Byte)) : List Byte :=
  if imgs.isEmpty then [] else (mergeImages fresh imgs).getD [0]

/-- The generation completes on this device, with the other devices' lists (R267, R268, R316). -/
def State.completeGroup (s : State) (key : Nat) (others : List (List Byte)) : State :=
  let imgs := (s.groupAt key).images ++ others.filter (fun i => !i.isEmpty)
  let merged := if imgs.isEmpty then none else mergeImages s.fresh imgs
  let s := (s.giveLists key merged).endGeneration (key / 1024) (key % 1024)
  { s with fresh := s.fresh + 1024 * imgs.length }

/-- A node arrives at its parent, once in a generation (R267). -/
def State.nodeArrive (s : State) (part gid node : Nat) : State :=
  let k := groupKey part gid
  let e := s.ngEntry part gid
  let g := s.groupAt k
  let n := g.node node
  if !n.full || n.passed then s
  else if decide (16 ≤ node) && decide (node < 24) && decide (2 ≤ ngLevel e) then
    s.updGroup k (fun g => (g.updNode node (fun n => { n with passed := true })).updNode 1
      (fun n => { n with arrived := putBit n.arrived (node - 16) true }))
  else if node = 1 && decide (ngLevel e = 3) then
    let s := s.updGroup k (fun g => g.updNode 1 (fun n => { n with passed := true }))
    if ngRoot e = s.devid then
      s.updGroup k (fun g => if g.devices.contains s.devid then g else { g with devices := s.devid :: g.devices })
    else s.send { Msg.blank with kind := .groupArrive part gid, dst := ngRoot e, part := part
                                 block := packImages s.fresh g.images }
  else s

/-- NAMED_GROUP_NODE_ARRIVAL (R267). -/
def execNamedGroupNodeArrival (part gid node : Nat) (s : State) : Res := .next (s.nodeArrive part gid node)

/-- NAMED_GROUP_COMPLETION (R267): the completion, and its notice to the other devices that arrived: where the root's count is
below the number of devices with members, those that have not are told nothing (log entry 111, DESIGN CHOICE). -/
def execNamedGroupCompletion (part gid : Nat) (s : State) : Res :=
  let k := groupKey part gid
  if !s.groupDone part gid then .next s
  else
    let g := s.groupAt k
    let imgs := g.images ++ g.lists.filter (fun i => !i.isEmpty)
    let block := packImages s.fresh imgs
    let others := g.devices.filter (fun d => decide (d ≠ s.devid))
    let s1 := others.foldl (fun (s : State) d =>
      s.send { Msg.blank with kind := .groupNotice part gid, dst := d, part := part, block := block }) s
    .next (s1.completeGroup k g.lists)

/-- ctopk (R316): it arrives at the group with its list, waits for the generation, and writes the count. One that has
arrived and issues again only waits (log entry 19, DEDUCED). -/
def execCtopk (d a b : Code) (s : State) : Res :=
  guardOps s (fixedOps [.sw 32 d, .sr 32 a, .sr 32 b]) (fun s => engineOr 64 s (
    let g := s.gang
    if !g.whole then trapNow { cause := 0x08 } s
    else withGroup s a (fun gid e k s =>
      let mine := fun (x : TopkIn) => decide (x.gang = s.cur) && decide (x.pc = g.pcNow)
      let drop := s.updGroup k (fun ng => { ng with topk := ng.topk.filter (fun x => !mine x) })
      match (s.groupAt k).topk.find? mine with
      | some x => match x.result with
        | none => stallOn (.topk gid 0) s
        | some none => xMisuse 5 drop
        | some (some n) => finishWith (drop.acquireActs g.core (ngScope e)) (fun g => g.putSAll d (BitVec.ofNat 32 n))
      | none =>
        let loc := (s.sarg b).toNat
        match (s.drainQueues g.core).listAt s.wg g.core loc with
        | .error t => trapNow t s
        | .ok _ => match s.ngArrive 3 gid e k with
          | .error r => r
          | .ok s =>
            let s := s.drainQueues g.core
            match s.listAt s.wg g.core loc with
            | .error t => trapNow t s
            | .ok (_, img) => stallOn (.topk gid 0) (s.updGroup k (fun ng =>
                { ng with topk := ng.topk ++ [{ gang := s.cur, pc := g.pcNow, loc := loc, image := img, result := none }] })))))

/-- A gang's ctopk has its result. -/
def State.topkFreed (s : State) (key gid : Nat) : Bool :=
  let g := s.gangAt key
  !(s.groupAt (groupKey (s.wgAt g.wid).part gid)).topk.any (fun x => decide (x.gang = key) && x.result.isNone)

/-! ### Hash tables (R317 to R320) -/

/-- Fields of a table's header (R317). -/
structure HashTab where
  loc : Loc
  lg : Nat
  kw : Nat
  vtype : Nat
  plim : Nat
  op : Nat
deriving DecidableEq, Repr

/-- Bytes of a value. -/
def HashTab.vw (h : HashTab) : Nat := etypeWidth h.vtype / 8
/-- Bytes of half a slot. -/
def HashTab.half (h : HashTab) : Nat := max h.kw h.vw
/-- The place of slot j. -/
def HashTab.slot (h : HashTab) (j : Nat) : Loc := h.loc.add (16 + j * 2 * h.half)

/-- Bytes at a Barn place. -/
def State.barnRead (s : State) (l : Loc) (n : Nat) : Nat :=
  match l with
  | .barn c t o => ofBytesLE (s.tileBankBytes c t o n)
  | .glob _ => 0

/-- Bytes of a table with these fields (R317). -/
def tableBytes (lg kw vtype : Nat) : Nat := 16 + 2 ^ lg * (2 * max kw (etypeWidth vtype / 8))

/-- The fields are in their ranges (R317). -/
def hashOk (lg kw vtype plim op : Nat) : Bool :=
  decide (1 ≤ lg) && decide (lg ≤ 15) && decide (kw ≤ 1) && keyType vtype && decide (1 ≤ plim) && decide (plim ≤ 16) &&
    decide (op ≤ 2)

/-- hinit (R318). -/
def execHinit (a b : Code) (s : State) : Res :=
  guardOps s (fixedOps [.sr 32 a, .sr 32 b]) (fun s => engineOr 64 s (
    let g := s.gang
    let loc := (s.sarg a).toNat
    let v := (s.sarg b).toNat
    let lg := v % 16
    let kw := field v 4 1
    let vt := field v 5 5
    let plim := field v 10 5
    let op := field v 15 2
    match s.wg.rangeFault loc (tableBytes lg (4 + 4 * kw) vt) 1 0 with
    | some t => trapNow t s
    | none =>
      if loc % 16 ≠ 0 || 2 ^ 17 ≤ v || !hashOk lg kw vt plim op then xMisuse 4 s
      else
        let s1 := s.drainQueues g.core
        let half := max (4 + 4 * kw) (etypeWidth vt / 8)
        let slot := List.replicate (4 + 4 * kw) (0xFF : Byte) ++ List.replicate (2 * half - (4 + 4 * kw)) 0
        let bs := bytesLE 4 0 ++ bytesLE 1 lg ++ bytesLE 1 kw ++ bytesLE 1 vt ++ bytesLE 1 plim ++ bytesLE 1 op ++
          bytesLE 7 0 ++ (List.replicate (2 ^ lg) slot).flatten
        .next (s1.barnWrite (s.wg.barnLoc g.core loc) bs).advance))

/-- The table that a locator names, or its trap (R321). -/
def State.tableAt (s : State) (loc : Nat) : Except TrapReq HashTab :=
  let w := s.wg
  match w.rangeFault loc 16 1 0 with
  | some t => .error t
  | none =>
    let l := w.barnLoc s.gang.core loc
    let at_ := fun i => s.barnRead (l.add i) 1
    match w.rangeFault loc (tableBytes (at_ 4) (4 + 4 * (at_ 5)) (at_ 6)) 1 0 with
    | some t => .error t
    | none =>
      if loc % 16 ≠ 0 || !hashOk (at_ 4) (at_ 5) (at_ 6) (at_ 7) (at_ 8) || 4 ≤ at_ 9 || s.barnRead (l.add 10) 6 ≠ 0 then
        .error { cause := 0x15, sub := 4 }
      else .ok { loc := l, lg := at_ 4, kw := 4 + 4 * at_ 5, vtype := at_ 6, plim := at_ 7, op := at_ 8 }

/-- Where a probe ends (R319). -/
inductive Probe where
  | found (j : Nat)
  | empty (j : Nat)
  | limit
deriving DecidableEq, Repr

/-- Visit at most `n` slots from j (R319). -/
def State.hashProbe (s : State) (h : HashTab) (x : Nat) : Nat → Nat → Probe
  | 0, _ => .limit
  | n + 1, j =>
    let k := s.barnRead (h.slot j) h.kw
    if k = x then .found j else if k = 2 ^ (8 * h.kw) - 1 then .empty j else s.hashProbe h x n ((j + 1) % 2 ^ h.lg)

/-- Home slot (R319). -/
def homeSlot (lg x : Nat) : Nat := (x * 0x8F3A6C1DE25B4977 % 2 ^ 64) / 2 ^ (64 - lg)

/-- hacc's operation on values (R320). -/
def hashOp (h : HashTab) (m w : Nat) : Nat :=
  let md : FMode := { round := 0, sat := false, ftz := false }
  if isFloat h.vtype then
    match h.op with
    | 0 => (fopElem .add h.vtype md m w 0).1
    | 1 => (fopElem .min h.vtype md m w 0).1
    | _ => (fopElem .max h.vtype md m w 0).1
  else match h.op with
    | 0 => atomNew .add h.vw false m w 0
    | 1 => atomNew .min h.vw (isSigned h.vtype) m w 0
    | _ => atomNew .max h.vw (isSigned h.vtype) m w 0

/-- Set a sticky flag of a table. -/
def State.hashFlag (s : State) (h : HashTab) (b : Nat) : State :=
  s.barnWrite (h.loc.add 9) (bytesLE 1 (s.barnRead (h.loc.add 9) 1 ||| b))

/-- One lane of hins (0), hacc (1) or hfind (2): the state after it, the success flag and the value found (R320). -/
def hashLane (h : HashTab) (kind x w : Nat) (s : State) : State × Bool × Nat :=
  if x = 2 ^ (8 * h.kw) - 1 then ((if kind = 2 then s else s.hashFlag h 2), false, 0)
  else match s.hashProbe h x h.plim (homeSlot h.lg x) with
    | .found j =>
      let m := s.barnRead ((h.slot j).add h.half) h.vw
      (if kind = 1 then s.barnWrite ((h.slot j).add h.half) (bytesLE h.vw (hashOp h m w)) else s, true, m)
    | .empty j =>
      if kind = 2 then (s, false, 0)
      else
        let s := (s.barnWrite (h.slot j) (bytesLE h.kw x)).barnWrite ((h.slot j).add h.half) (bytesLE h.vw w)
        (s.barnWrite h.loc (bytesLE 4 (s.barnRead h.loc 4 + 1)), true, 0)
    | .limit => ((if kind = 2 then s else s.hashFlag h 1), false, 0)

/-- The lanes in order: the state, and each lane's outcome. -/
def hashLanes (h : HashTab) (kind : Nat) (key val : Nat → Nat) : List Nat → State → State × List (Nat × Bool × Nat)
  | [], s => (s, [])
  | l :: ls, s =>
    let r := hashLane h kind (key l) (val l) s
    let t := hashLanes h kind key val ls r.1
    (t.1, (l, r.2) :: t.2)

/-- The fields of hins, hacc and hfind that the table's header makes pairs (R320). -/
def HashTab.pairs (h : HashTab) (kind : Nat) (k v : Code) : List Opnd :=
  (if h.kw = 8 then [.vr 64 k] else []) ++
    (if h.vw = 8 then [if kind = 2 then .vw 64 v else .vr 64 v] else [])

/-- hins, hacc and hfind on a table (R320). -/
def hashRun (h : HashTab) (kind : Nat) (k v : Code) (s : State) : Res :=
  let g := s.gang
  let key := fun l => (s.vsrc (.int (8 * h.kw)) k l).toNat % 2 ^ (8 * h.kw)
  let val := fun l => (s.vsrc (.elem h.vtype) v l).toNat % 2 ^ (8 * h.vw)
  let r := hashLanes h kind key val g.activeList (s.drainQueues g.core)
  let out := fun l => ((r.2.find? (fun e => decide (e.1 = l))).map (·.2)).getD (false, 0)
  finishWith r.1 (fun g0 =>
    let g1 := if kind = 2 then g0.putV v (fun _ => decide (h.vw = 8)) (fun l => g.active l && (out l).1)
      (fun l => BitVec.ofNat 64 (out l).2) else g0
    (List.range 8).foldl (fun x k =>
      let m := g.mode k
      if modeGuard m = 31 then x
      else x.writePLanes (modeGuard m) (fun l => g.active l && decide (l / 4 = k))
        (fun l => (out l).1 != modeSense m)) g1)

/-- hins, hacc and hfind (R320): `v` is the value field, read by the first two and written by hfind. The header says which
fields are pairs: they are checked, waited for and reported as such. -/
def hashInstr (kind : Nat) (loc k v : Code) (s : State) : Res :=
  guardOps s (fixedOps [.sr 32 loc, .vr 32 k, if kind = 2 then .vw 32 v else .vr 32 v]) (fun s => engineOr 64 s (
    let g := s.gang
    match (s.drainQueues g.core).tableAt (s.sarg loc).toNat with
    | .error t => trapNow t s
    | .ok h =>
      let pair := fun (c : Code) n => n = 8 && c.toNat < 0xF0
      let odd := fun (c : Code) n => pair c n && decide (c.toNat % 2 = 1)
      let past := fun (c : Code) n => pair c n && decide (g.alloc < c.toNat + 2)
      if odd k h.kw || odd v h.vw then xMisuse 4 s
      else if past k h.kw || past v h.vw then trapNow { cause := 0x02 } s
      else guardOps s (fixedOps (h.pairs kind k v)) (hashRun h kind k v)))

/-- hins (R320). -/
def execHins (d a b : Code) (s : State) : Res := hashInstr 0 d a b s
/-- hacc (R320). -/
def execHacc (d a b : Code) (s : State) : Res := hashInstr 1 d a b s
/-- hfind (R320). -/
def execHfind (d a b : Code) (s : State) : Res := hashInstr 2 b a d s

end Sys2Proof.Machine
end

