-- ==== Sys2Proof/Machine/Thresher.lean ====
section
/-! DEFINITION. The Thresher: format blocks and request blocks and their checks, the reservation table and the event bits,
the start of an entry, passes and K-steps, the tile port, drains and their quantisation, saves and restores, and
failures (13 R324 to R338, 14 R339 to R360, R483). -/

namespace Sys2Proof.Machine

/-! ### Format blocks (13 R325 to R327) -/

/-- Element format. -/
def fbEtype (x : Nat) : Nat := x % 32
/-- Scheme. -/
def fbScheme (x : Nat) : Nat := field x 5 2
/-- kb0. -/
def fbKb0 (x : Nat) : Nat := field x 8 12
/-- line0. -/
def fbLine0 (x : Nat) : Nat := field x 20 12
/-- Locator of the placed scales. -/
def fbScl (x : Nat) : Nat := field x 32 32

/-- The format block names one of the 39 operand formats and its must-be-0 fields are 0 (R325, R327); `drain` for C. -/
def fmtBlockOk (drain : Bool) (x : Nat) : Bool :=
  !bit x 7 && (if fbScheme x = 0 then [0, 1, 2, 3, 4, 5, 6, 7, 8, 12, 16, 17].contains (fbEtype x)
    else schemeEtype (fbScheme x) (fbEtype x)) &&
  (!(drain || decide (fbScheme x = 0)) || decide (x / 256 = 0))

/-- K-step of a format (R325): one line's step fills 64 bytes. -/
def kstep (t : Nat) : Nat := 512 / etypeStride t

/-- K-step of a pair (R326). -/
def pairStep (a b : Nat) : Nat := min (kstep (fbEtype a)) (kstep (fbEtype b))

/-- The pair rule (R326). -/
def pairOk (a b rowBytes : Nat) : Bool :=
  if fbEtype a = 0 || fbEtype b = 0 then decide (fbEtype a = fbEtype b) && decide (rowBytes = 512) else decide (rowBytes = 256)

/-! ### Accumulator tiles (13 R333) -/

/-- Handle of an accumulator locator (R340). -/
def accHandle (x : Nat) : Nat := field x 26 6
/-- Tile index. -/
def accTile (x : Nat) : Nat := x % 65536

/-- The tile-bounds trap of an accumulator locator (R340). -/
def Workgroup.accFault (w : Workgroup) (x : Nat) : Option TrapReq :=
  let t : Nat → TrapReq := fun sub => { cause := 0x0E, sub := sub, aux := BitVec.ofNat 32 (accHandle x) }
  if field x 16 10 ≠ 0 then some (t 5)
  else match w.tile (accHandle x) with
    | none => some (t 0)
    | some k => if k.level ≠ 1 then some (t 1) else if k.rows / 64 ≤ accTile x then some (t 2) else none

/-- A tile of a handle, with empty rows when there is none. -/
def Workgroup.accTileOf (w : Workgroup) (h : Nat) : Tile :=
  (w.tile h).getD { rows := 0, rowBytes := 256, level := 1, granules := [] }

/-- Element type of a tile: f32, or f64 with 512-byte rows. -/
def Tile.accType (t : Tile) : Nat := if t.rowBytes = 512 then 0 else 1

/-- First byte of tile `i` of a handle in accumulator memory. Its granules are two consecutive entries of the table for
f64, so a row never crosses one. -/
def Tile.accRow (t : Tile) (i row : Nat) : Nat := t.phys ((64 * i + row) * t.rowBytes)

/-- First granule of tile `i`: the key of its drain format and failed mark. -/
def Tile.accKey (t : Tile) (i : Nat) : Nat := t.accRow i 0 / 16384

/-- The bytes of a row. -/
def Cluster.rowBytes (c : Cluster) (t : Tile) (i row : Nat) : List Byte :=
  (List.range t.rowBytes).map (fun k => mapGet 0 c.acc (t.accRow i row + k))

/-- Write a row. -/
def Cluster.setRow (c : Cluster) (t : Tile) (i row : Nat) (bs : List Byte) : Cluster :=
  { (c.rewritten 1 (t.wordsOf ((64 * i + row) * t.rowBytes) bs.length)) with acc := mapSetRange 0 (fun k => bs.getD k 0) (t.accRow i row) bs.length c.acc }

/-- Every value of a tile becomes +0. -/
def Cluster.zeroTile (c : Cluster) (t : Tile) (i : Nat) : Cluster :=
  { (c.rewritten 1 (t.wordsOf (64 * i * t.rowBytes) (64 * t.rowBytes))) with
      acc := (List.range 64).foldl (fun m r => mapDropRange (t.accRow i r) t.rowBytes m) c.acc }

/-- A read of a row of a tile meets an uncorrectable error (13 R334). -/
def Cluster.rowSpoilt (c : Cluster) (t : Tile) (i row : Nat) : Bool := c.spoilt 1 (t.accRow i row) t.rowBytes

/-- A read of a whole tile does. -/
def Cluster.tileSpoilt (c : Cluster) (t : Tile) (i : Nat) : Bool := (List.range 64).any (c.rowSpoilt t i)

/-- The failed mark of a tile. -/
def Cluster.failed (c : Cluster) (t : Tile) (i : Nat) : Bool := mapGet false c.failedTile (t.accKey i)

/-- Set or clear the failed mark. -/
def Cluster.setFailed (c : Cluster) (t : Tile) (i : Nat) (b : Bool) : Cluster :=
  { c with failedTile := mapSet false c.failedTile (t.accKey i) b }

/-- The elements of a row. -/
def rowElems (w : Nat) (bs : List Byte) : List Nat :=
  (List.range 64).map (fun j => ofBytesLE ((bs.drop (w * j)).take w))

/-- The values of a tile, row by row. -/
def Cluster.tileRows (c : Cluster) (t : Tile) (i : Nat) : List (List Nat) :=
  (List.range 64).map (fun r => rowElems (t.rowBytes / 64) (c.rowBytes t i r))

/-- The bytes of a row of values. -/
def rowImage (w : Nat) (xs : List Nat) : List Byte := (xs.map (bytesLE w)).flatten

/-- Write all values of a tile. -/
def Cluster.setRows (c : Cluster) (t : Tile) (i : Nat) (rows : List (List Nat)) : Cluster :=
  (List.range 64).foldl (fun c r => c.setRow t i r (rowImage (t.rowBytes / 64) (rows.getD r []))) c

/-! ### The reservation table (R345, R346) -/

/-- Fields of an operation's block. -/
def Mentry.num (e : Mentry) (off n : Nat) : Nat := blockNum e.block off n

/-- The agent of an operation. -/
def Mentry.agent (e : Mentry) : Agent :=
  { core := coreOfWid e.wid, part := e.part, pasid := e.pasid, op := e.id, idx := e.prow, clusterTlb := true }

/-- The operation of a slot. -/
def Cluster.entry (c : Cluster) (slot : Nat) : Option Mentry := c.table.find? (fun e => decide (e.slot = slot))

/-- Change an operation. -/
def State.updMop (s : State) (cl slot : Nat) (f : Mentry → Mentry) : State :=
  s.updCluster cl (fun c => { c with table := c.table.map (fun e => if e.slot = slot then f e else e) })

/-- An earlier operation on the same tile has not ended (R346). -/
def Cluster.behind (c : Cluster) (e : Mentry) : Bool :=
  c.table.any (fun f => decide (f.wid = e.wid) && decide (f.handle = e.handle) && decide (f.tile = e.tile) && decide (f.id < e.id))

/-- The tile of an operation. -/
def State.mopTile (s : State) (e : Mentry) : Tile := (s.wgAt e.wid).accTileOf e.handle

/-- A new operation of the gang in focus. -/
def State.newMop (s : State) (op sub loc : Nat) (block : List Byte) : Mentry :=
  let g := s.gang
  { slot := 0, id := 0, wid := g.wid, gang := g.num, pasid := s.wg.pasid, part := s.wg.part, op := op, sub := sub,
    block := block, handle := accHandle loc, tile := accTile loc, row := 0, half := 0, values := [],
    opc := g.pcNow.setWidth 64, started := false, startAge := 0, step := 0, prow := 0, parked := false, snap := none,
    occ := [], hdr := ([], []), panel := [], failed := none }

/-- An operation takes an entry of the table, or its PC-group stalls (R345, 02 R52). -/
def postMop (e : Mentry) (s : State) : Res :=
  let g := s.gang
  if 63 ≤ g.counter 3 then stallOn (.path 3 62) s
  else
    let used := (s.clusterAt g.cluster).table.map (·.slot)
    match findBelow (fun i => !used.contains i) 32 with
    | none => stallOn .tableFull s
    | some i =>
      let r := s.takeId
      let s := r.2.updCluster g.cluster (fun c => { c with table := c.table ++ [{ e with slot := i, id := r.1 }] })
      .next (s.updGang (fun h => (h.raise 3 r.1 false).advance))

/-- A block in the Barn, read at issue as a Barn load of the gang (R341). -/
def State.barnBlock (s : State) (loc n : Nat) : List Byte :=
  match s.wg.barnLoc s.gang.core loc with
  | .barn c t o => s.tileBytes c t o n
  | .glob _ => []

/-- Thresher misuse (R360). -/
def mMisuse (sub : Nat) : TrapReq := { cause := 0x18, sub := sub }

/-! ### mloop (R342 to R344) -/

/-- An address that follows the rules of abase (R342): in range, not in the aperture, a multiple of `m`. -/
def addrOk (va m : Nat) : Bool := canonical va && !inAperture va && decide (va % m = 0)

/-- The tile-bounds checks on a request block (R344, step 2), after its own locator. -/
def Workgroup.requestBounds (w : Workgroup) (b : List Byte) : Option TrapReq :=
  match w.accFault (blockNum b 0x38 4) with
  | some t => some t
  | none =>
    match (if bit (blockNum b 0x36 1) 2 then w.rangeFault (blockNum b 0x3C 4) (ceilDiv (blockNum b 0x34 2) 8) 1 0 else none) with
    | some t => some t
    | none => [blockNum b 0 8, blockNum b 8 8].findSome? (fun x =>
        if fbScheme x ≠ 0 && (w.tile (accHandle (fbScl x))).isNone then
          some { cause := 0x0E, sub := 0, aux := BitVec.ofNat 32 (accHandle (fbScl x)) }
        else none)

/-- The field rules of a request block (R344, step 3). -/
def requestOk (b : List Byte) (rowBytes : Nat) : Bool :=
  let a := blockNum b 0 8
  let x := blockNum b 8 8
  let ctl := blockNum b 0x36 1
  let occ := blockNum b 0x3C 4
  fmtBlockOk false a && fmtBlockOk false x && fmtBlockOk true (blockNum b 0x10 8) && pairOk a x rowBytes &&
  addrOk (blockNum b 0x18 8) 64 && addrOk (blockNum b 0x20 8) 64 &&
  decide (blockNum b 0x28 4 % 64 = 0) && decide (blockNum b 0x2C 4 % 64 = 0) &&
  decide (1 ≤ blockNum b 0x34 2) && decide (blockNum b 0x34 2 ≤ 4096) && decide (ctl < 32) && blockZero b 0x37 1 &&
  (if bit ctl 2 then decide (occ % 2 ^ 26 % 4 = 0) else decide (occ = 0)) &&
  decide (fbScl a % 2 ^ 26 % 16 = 0) && decide (fbScl x % 2 ^ 26 % 16 = 0)

/-- A scale locator names a handle of another level (R344, step 4). -/
def Workgroup.scaleLevelBad (w : Workgroup) (x : Nat) : Bool :=
  fbScheme x ≠ 0 && (match w.tile (accHandle (fbScl x)) with
    | some t => decide (t.level ≠ 2)
    | none => false)

/-- mloop (R342 to R345). -/
def execMloop (a : Code) (s : State) : Res :=
  guardOps s (fixedOps [.so 32 a]) (fun s => engineOr 8 s (
    let w := s.wg
    let loc := (s.sarg a).toNat
    match w.rangeFault loc 128 128 0 with
    | some t => trapNow t s
    | none =>
      let b := s.barnBlock loc 128
      match w.requestBounds b with
      | some t => trapNow t s
      | none =>
        if !requestOk b (w.accTileOf (accHandle (blockNum b 0x38 4))).rowBytes then trapNow (mMisuse 0) s
        else if w.scaleLevelBad (blockNum b 0 8) || w.scaleLevelBad (blockNum b 8 8) then trapNow (mMisuse 1) s
        else postMop (s.newMop 0xE2 0 (blockNum b 0x38 4) b) s))

/-! ### The tile instructions (R353, R355, R357) -/

/-- The field rules of a drain block (R353); `sh` with a shadow. -/
def drainOk (b : List Byte) (sh : Bool) : Bool :=
  let f := blockNum b 0x18 8
  addrOk (blockNum b 0 8) 64 && decide (blockNum b 8 4 % 64 = 0) && blockZero b 0x0C 4 && addrOk (blockNum b 0x10 8) 4 &&
  blockZero b 0x2C 4 && decide (blockNum b 0x38 2 < 512) && blockZero b 0x3A 6 &&
  (if sh then
    fmtBlockOk true f && addrOk (blockNum b 0x20 8) 64 && decide (blockNum b 0x28 4 % 64 = 0) &&
      addrOk (blockNum b 0x30 8) 64 && (decide (fbScheme f ≠ 0) || blockZero b 0x30 8)
  else blockZero b 0x18 8 && blockZero b 0x20 8 && blockZero b 0x28 4 && blockZero b 0x30 8)

/-- mdrain (R353). -/
def execMdrain (z sh : BitVec 1) (a b : Code) (s : State) : Res :=
  guardOps s (fixedOps [.so 32 a, .so 32 b]) (fun s => engineOr 8 s (
    let w := s.wg
    let loc := (s.sarg a).toNat
    match w.accFault loc with
    | some t => trapNow t s
    | none => match w.rangeFault (s.sarg b).toNat 64 64 0 with
      | some t => trapNow t s
      | none =>
        let blk := s.barnBlock (s.sarg b).toNat 64
        if !drainOk blk (decide (sh = 1)) then trapNow (mMisuse 0) s
        else postMop (s.newMop 0xE3 (sh.toNat + 2 * z.toNat) loc blk) s))

/-- mzero (R355). -/
def execMzero (a : Code) (s : State) : Res :=
  guardOps s (fixedOps [.so 32 a]) (fun s => engineOr 8 s (
    match s.wg.accFault (s.sarg a).toNat with
    | some t => trapNow t s
    | none => postMop (s.newMop 0xE4 0 (s.sarg a).toNat []) s))

/-- msave and mrestore (R355). -/
def imageInstr (op : Nat) (a b : Code) (s : State) : Res :=
  guardOps s (fixedOps [.so 32 a, .so 64 b]) (fun s => engineOr 8 s (
    match s.wg.accFault (s.sarg a).toNat with
    | some t => trapNow t s
    | none =>
      let va := (s.sarg64 b).toNat
      if !addrOk va 128 then trapNow (mMisuse 0) s
      else postMop (s.newMop op 0 (s.sarg a).toNat (bytesLE 8 va)) s))

/-- msave (R355). -/
def execMsave (a b : Code) (s : State) : Res := imageInstr 0xEA a b s
/-- mrestore (R355). -/
def execMrestore (a b : Code) (s : State) : Res := imageInstr 0xEB a b s

/-- The operands of tacc under an etype: a pair of values under f64 (R357). Any etype issues; the misuse trap refuses
those that do not fit the tile. -/
def taccOps (d a b : Code) : OpndsOf := fun m =>
  some [.so 32 d, .vr (if modeEtype m = 0 then 64 else 32) a, .sr 32 b]

/-- tacc (R357): the values are read at issue. -/
def execTacc (d a b : Code) (s : State) : Res :=
  guardOps s (taccOps d a b) (fun s => engineOr 8 s (
    let g := s.gang
    let loc := (s.sarg d).toNat
    match s.wg.accFault loc with
    | some t => trapNow t s
    | none =>
      let t := (s.wg.accTileOf (accHandle loc)).accType
      let sel := (s.sarg b).toNat
      if !g.allIssuing (fun k => decide (modeEtype (g.mode k) = t)) || decide (128 ≤ sel) then trapNow (mMisuse 0) s
      else postMop { s.newMop 0xE5 0 loc [] with
        row := sel % 64
        half := sel / 64
        values := g.activeList.map (fun l => (l, s.vsrc (.elem t) a l)) } s))

/-! ### Event bits (R347) -/

/-- A set of event bits is set at once by a source: 0 evset, core + 1 a Thresher operation of that core. -/
def Cluster.setEvents (c : Cluster) (mask : BitVec 256) (src : Nat) : Cluster :=
  { c with
    evFrom := (List.range 256).foldl (fun m b =>
      if !mask.getLsbD b then m
      else if c.events.getLsbD b && decide (mapGet 0 c.evFrom b ≠ src) then mapSet 0 m b 0
      else mapSet 0 m b src) c.evFrom
    events := c.events ||| mask }

/-- Event bits are cleared. -/
def Cluster.clearEvents (c : Cluster) (mask : BitVec 256) : Cluster :=
  { c with events := c.events &&& ~~~ mask, evFrom := c.evFrom.filter (fun e => !mask.getLsbD e.1) }

/-- The mask of one bit. -/
def eventMask (n : Nat) : BitVec 256 := BitVec.ofNat 256 (2 ^ n)

/-- An event-bit instruction: the index, or the misuse trap (R347). -/
def eventInstr (a : Code) (body : Nat → State → Res) (s : State) : Res :=
  guardOps s (fixedOps [.sr 32 a]) (fun s =>
    let n := (s.sarg a).toNat
    if 256 ≤ n then trapNow (mMisuse 2) s else body n s)

/-! ### An operation leaves the table (R351, R356) -/

/-- The event bits that an operation sets at its end. -/
def Mentry.setMask (e : Mentry) : BitVec 256 :=
  if e.op = 0xE2 then BitVec.ofNat 256 (e.num 0x60 32)
  else if e.op = 0xE3 && bit (e.num 0x38 2) 8 then eventMask (e.num 0x38 1) else 0

/-- The record of a failed operation (R356, 16 R387). -/
def Mentry.failRec (e : Mentry) (cause va dev rcause : Nat) : TrapReq :=
  { cause := 0x19, sub := cause, addr := BitVec.ofNat 64 va, opc := e.opc
    device := if cause = 2 then dev else 0, rcause := if cause = 2 then rcause else 0 }

/-- An operation ends: its event bits, the report of a failure, its entry, and the TL count (R351, R356). A failed mloop
marks its tile. What the bits let go on comes with `settleEvents`. -/
def State.leaveTable (s : State) (cl : Nat) (e : Mentry) (fail : Option TrapReq) : State :=
  let t := s.mopTile e
  let key := gangKey e.wid e.gang
  let s := s.updCluster cl (fun c =>
    let c := if fail.isSome && decide (e.op = 0xE2) then c.setFailed t e.tile true else c
    let c := if e.setMask = 0 then c else c.setEvents e.setMask (coreOfWid e.wid + 1)
    { c with
      table := c.table.filter (fun f => decide (f.slot ≠ e.slot))
      pass := c.pass.filter (fun p => decide (p.1 ≠ e.slot))
      port := c.port.filter (fun p => decide (p ≠ e.slot)) })
  let s := match fail with
    | some r => s.updGangAt key (fun g =>
        let rep : Report := { id := e.id, path := 3, seq := g.seqOf 3 e.id, record := r, marks := [], relScope := none }
        { g with reports := insertReport rep g.reports })
    | none => s
  s.updGangAt key (fun g => g.complete e.id)

/-- The alarm of a refused access of an operation (18 R443). -/
def State.mopAlarm (s : State) (e : Mentry) (r : Option (Option Nat × Nat × Acc)) : State :=
  match r with
  | none => s
  | some (o, pa, acc) => s.alarm o pa e.part 2 e.pasid (if acc = .write then 1 else 0)

/-- An operation parks at a translation fault and gives up the array or the port (R352, 16 R406). -/
def State.parkMop (s : State) (cl : Nat) (e : Mentry) (cause : Nat) (acc : Acc) (va : Nat) : State :=
  let core := coreOfWid e.wid
  let gen := s.pasidGen e.pasid
  let s := s.updCluster cl (fun c => { c with
    table := c.table.map (fun f => if f.slot = e.slot then { e with parked := true } else f)
    pass := c.pass.filter (fun p => decide (p.1 ≠ e.slot))
    port := c.port.filter (fun p => decide (p ≠ e.slot)) })
  s.tfqWrite (dieOfCore core)
    { entry := 0, kind := 2, key := cl, ident := e.id, record := { cause := 0 }
      bytes := tfqBytes 2 cause acc.code e.pasid gen core (slotOfWid e.wid) e.gang e.slot va 0
        (e.step * 65536 + e.prow) [] }

/-- The context that issued an operation is killed (07 R204, 13 R334). -/
def State.killFor (s : State) (e : Mentry) : State := { s with alarms := s.alarms ++ [(1, e.pasid, e.part)] }

/-- Lines and rows of an operation at the tile port: 128 for a drain with a shadow. -/
def Mentry.lines (e : Mentry) : Nat := if e.op = 0xE3 && bit e.sub 0 then 128 else 64

/-! ### Starting an entry (R348, 13 R330) -/

/-- The wait mask. -/
def Mentry.waitMask (e : Mentry) : BitVec 256 := BitVec.ofNat 256 (e.num 0x40 32)

/-- The entry is eligible (R348). -/
def Cluster.eligible (c : Cluster) (e : Mentry) : Bool :=
  decide (e.op = 0xE2) && !e.started && !e.parked && decide (e.waitMask &&& ~~~ c.events = 0) && !c.behind e

/-- The eligible entry may start now: no older one shares and consumes a wait bit (R348). -/
def Cluster.mayStart (c : Cluster) (e : Mentry) : Bool :=
  c.eligible e && !(bit (e.num 0x36 1) 4 && c.table.any (fun f => decide (f.id < e.id) && c.eligible f &&
    bit (f.num 0x36 1) 4 && decide (f.waitMask &&& e.waitMask ≠ 0)))

/-- Bytes of a scale tile. -/
def Cluster.sclBytes (c : Cluster) (t : Tile) (off n : Nat) : List Byte :=
  (List.range n).map (fun i => mapGet 0 c.scl (t.phys (off + i)))

/-- The SCL tile of a scale locator. -/
def Workgroup.sclTile (w : Workgroup) (x : Nat) : Tile :=
  (w.tile (accHandle (fbScl x))).getD { rows := 0, rowBytes := 0, level := 2, granules := [] }

/-- The placed header of an operand; empty without scales. -/
def State.scaleHeader (s : State) (e : Mentry) (off : Nat) : List Byte :=
  let x := e.num off 8
  if fbScheme x = 0 then []
  else (s.clusterAt (clusterOfCore (coreOfWid e.wid))).sclBytes ((s.wgAt e.wid).sclTile x) (fbScl x % 2 ^ 26) 16

/-- The read of a placed header meets an uncorrectable error (13 R334). -/
def State.headerSpoilt (s : State) (e : Mentry) (off : Nat) : Bool :=
  let x := e.num off 8
  fbScheme x ≠ 0 && (List.range 16).any (fun i => (s.clusterAt (clusterOfCore (coreOfWid e.wid))).spoilt 2
    (((s.wgAt e.wid).sclTile x).phys (fbScl x % 2 ^ 26 + i)) 1)

/-- A placed header passes the checks of R330, for an entry of K extent `k`. -/
def headerFits (t : Tile) (x k : Nat) (h : List Byte) : Bool :=
  fbScheme x = 0 || (
    let sc := blockNum h 0 1
    let l := blockNum h 4 2
    let kk := blockNum h 8 4
    schemeEtype sc (blockNum h 1 1) && blockZero h 2 2 && blockZero h 6 2 && blockZero h 0x0C 4 &&
    decide (1 ≤ l) && decide (l ≤ 4096) && decide (1 ≤ kk) && decide (kk ≤ 2 ^ 24) &&
    (decide (sc ≠ 1) || decide (kk % 64 = 0)) && (decide (sc ≠ 2) || decide (kk % 16 = 0)) &&
    decide (sc = fbScheme x) && decide (blockNum h 1 1 = fbEtype x) && decide (fbLine0 x + 64 ≤ l) &&
    decide (fbKb0 x * 64 + k ≤ kk) && decide (fbScl x % 2 ^ 26 + placedSize h ≤ t.extent))

/-- The occupancy bitmap, from the Barn banks (R348). -/
def State.occBytes (s : State) (e : Mentry) : List Byte :=
  if bit (e.num 0x36 1) 2 then
    match (s.wgAt e.wid).barnLoc (coreOfWid e.wid) (e.num 0x3C 4) with
    | .barn c t o => s.tileBankBytes c t o (ceilDiv (e.num 0x34 2) 8)
    | .glob _ => []
  else []

/-- The K extent of an entry (R343). -/
def Mentry.kExtent (e : Mentry) : Nat := e.num 0x34 2 * pairStep (e.num 0 8) (e.num 8 8)

/-- An eligible entry starts (R348): consume, zero, drain format, headers and bitmap in one step; a header that R330 refuses
ends the entry, and one whose read meets an uncorrectable error does too, its context killed (13 R334). -/
def State.startEntry (s : State) (cl : Nat) (e : Mentry) : State :=
  let t := s.mopTile e
  let w := s.wgAt e.wid
  let e1 := { e with
    started := true, startAge := s.clock.toNat, occ := s.occBytes e
    hdr := (s.scaleHeader e 0, s.scaleHeader e 8) }
  let spoilt := [0, 8].any (fun o => s.headerSpoilt e o)
  let s := s.updCluster cl (fun c =>
    let c := if bit (e.num 0x36 1) 4 then c.clearEvents e.waitMask else c
    let c := if bit (e.num 0x36 1) 3 then c.zeroTile t e.tile else c
    { c with
      drainFmt := mapPut (t.accKey e.tile) (BitVec.ofNat 64 (e.num 0x10 8)) c.drainFmt
      table := c.table.map (fun f => if f.slot = e.slot then e1 else f) })
  if spoilt then (s.killFor e).leaveTable cl e1 (some (e1.failRec 2 0 s.devid 0))
  else if headerFits (w.sclTile (e.num 0 8)) (e.num 0 8) e.kExtent e1.hdr.1 &&
      headerFits (w.sclTile (e.num 8 8)) (e.num 8 8) e.kExtent e1.hdr.2 then s
  else s.leaveTable cl e1 (some (e1.failRec 3 0 0 0))

/-- The entry leaves its wait bits set. -/
def Mentry.keepsBits (e : Mentry) : Bool := !bit (e.num 0x36 1) 4

/-- Insert an operation into a list in issue order. -/
def insertMop (e : Mentry) : List Mentry → List Mentry
  | [] => [e]
  | f :: fs => if e.id < f.id then e :: f :: fs else f :: insertMop e fs

/-- The entries that are eligible as the bits stand, in the order in which they start: those that leave their wait bits set,
then those that consume them, each oldest first (R348). -/
def Cluster.starters (c : Cluster) : List Mentry :=
  let es := (c.table.foldr insertMop []).filter c.eligible
  es.filter Mentry.keepsBits ++ es.filter (fun e => !e.keepsBits)

/-- An entry starts unless an older one has consumed a bit that it waits for (R348). -/
def State.startEligible (cl : Nat) (s : State) (e : Mentry) : State :=
  if (s.clusterAt cl).eligible e then s.startEntry cl e else s

/-- Every entry that is eligible starts: each in the first cycle in which it is (R348). -/
def State.startAll (s : State) (cl : Nat) : State := (s.clusterAt cl).starters.foldl (State.startEligible cl) s

/-! ### What an event bit lets go on (R347) -/

/-- The place of a gang among the waiters on an event bit: core, then lane group (R347). -/
def State.waitOrder (s : State) (key : Nat) : Nat := ((s.gangAt key).core * 4 + (s.gangAt key).lg) * 2 ^ 24 + key

/-- The gangs of a cluster that wait at an event bit by a block; one that a pre-emption has stopped waits no more. -/
def State.eventWaiters (s : State) (cl : Nat) (b : Block) : List Nat :=
  s.liveGangs.filter (fun k => decide ((s.gangAt k).cluster = cl) && !(s.gangAt k).trap.taken &&
    (s.gangAt k).flow.blocks.any (fun x => decide (x.2 = b)))

/-- Gangs of a cluster, but one, that wait to clear an event bit. -/
def State.clearWaiters (s : State) (cl key n : Nat) : List Nat :=
  (s.eventWaiters cl (.eventClear n)).filter (fun k => decide (k ≠ key))

/-- The bit is set, and the gang is the first of those that wait to clear it (R347). -/
def State.firstToClear (s : State) (key n : Nat) : Bool :=
  let cl := (s.gangAt key).cluster
  (s.clusterAt cl).events.getLsbD n && (s.clearWaiters cl key n).all (fun k => decide (s.waitOrder key < s.waitOrder k))

/-- The gang in focus has observed an event bit: an acquire at dev scope, unless Thresher operations of the own core alone have
set it (R347; 08 R226). -/
def State.observeEvent (s : State) (core n : Nat) : State :=
  if mapGet 0 (s.clusterAt (clusterOfCore core)).evFrom n = core + 1 then s else s.acquireActs core 4

/-- A PC-group of a gang that waits at an event bit by a block goes on. -/
def State.wakeAtEvent (n : Nat) (b : Block) (s : State) (key : Nat) : State :=
  (s.observeEvent (s.gangAt key).core n).updGangAt key (fun g => g.finishBlock b (fun g => g))

/-- Every gang that waits for bit `n` goes on when it is set, the bit staying set (R347). -/
def State.wakeReaders (cl : Nat) (s : State) (n : Nat) : State :=
  if (s.clusterAt cl).events.getLsbD n then
    (s.eventWaiters cl (.eventBit n)).foldl (fun s k =>
      (List.range 8).foldl (fun s _ =>
        if (s.gangAt k).flow.blocks.any (fun x => decide (x.2 = .eventBit n)) then s.wakeAtEvent n (.eventBit n) k else s) s) s
  else s

/-- Of the gangs that wait to clear bit `n`, the first takes it when it is set (R347). -/
def State.wakeClearer (cl : Nat) (s : State) (n : Nat) : State :=
  match (s.eventWaiters cl (.eventClear n)).find? (fun k => s.firstToClear k n) with
  | some k => (s.wakeAtEvent n (.eventClear n) k).updCluster cl (fun c => c.clearEvents (eventMask n))
  | none => s

/-- The event bits at which some gang of a cluster waits. -/
def State.waitedBits (s : State) (cl : Nat) : List Nat :=
  ((s.liveGangs.filter (fun k => decide ((s.gangAt k).cluster = cl))).flatMap (fun k => (s.gangAt k).flow.blocks.filterMap (fun b =>
    match b.2 with
    | .eventBit n => some n
    | .eventClear n => some n
    | _ => none))).eraseDups

/-- The event bits of a cluster have changed: every gang that waits for a set bit goes on, every entry that is eligible
starts, and of those that wait to clear a bit the first takes it, in this order; a start that fails sets bits in its turn
(R347, R348). At most `n` rounds. -/
def State.settleRounds (cl : Nat) : Nat → State → State
  | 0, s => s
  | n + 1, s =>
    let s1 := (s.waitedBits cl).foldl (State.wakeReaders cl) s
    let s2 := s1.startAll cl
    let s3 := (s2.waitedBits cl).foldl (State.wakeClearer cl) s2
    if (s1.clusterAt cl).starters.isEmpty then s3 else State.settleRounds cl n s3

/-- What the event bits of a cluster let go on (R347, R348): its table has 32 entries. -/
def State.settleEvents (s : State) (cl : Nat) : State := State.settleRounds cl 33 s

/-- MLOOP_ENTRY_START (R348): every eligible entry starts, once this one is the next that may. -/
def execMloopEntryStart (cluster slot : Nat) (s : State) : Res :=
  match (s.clusterAt cluster).entry slot with
  | none => .next s
  | some e => if !(s.clusterAt cluster).mayStart e then .next s else .next (s.settleEvents cluster)

/-- Event bits are cleared by an instruction, after the entries that they have made eligible have started (R347, R348). -/
def State.takeEvents (s : State) (cl : Nat) (mask : BitVec 256) : State :=
  (s.startAll cl).updCluster cl (fun c => c.clearEvents mask)

/-! ### The end of an operation (R351, R356) -/

/-- An operation ends, and what its event bits let go on does (R347, R348, R351, R356). -/
def State.endMop (s : State) (cl : Nat) (e : Mentry) (fail : Option TrapReq) : State := (s.leaveTable cl e fail).settleEvents cl

/-- The operation has done all it does, and waits for its writes to other devices alone (R354). -/
def State.mopWaits (s : State) (e : Mentry) : Bool := decide (e.lines ≤ e.prow) && s.engBusy e.id

/-- An operation has done all it does: it ends, with its own failure first, once every write of it has performed
(R351, R354, R356). -/
def State.finishMop (s : State) (cl : Nat) (e : Mentry) (fail : Option TrapReq) : State :=
  let fail := match fail with
    | some r => some r
    | none => e.failed
  if s.engBusy e.id then s.updMop cl e.slot (fun _ => { e with prow := 128, failed := fail })
  else s.endMop cl e fail

/-- An access of an operation has not performed: it parks, or ends failed (R352, R356). -/
def State.mopError (s : State) (cl : Nat) (e : Mentry) (x : XErr) : State :=
  match x with
  | .fault c acc va => s.parkMop cl e c acc va
  | .fail c va dev rc r => (s.mopAlarm e r).finishMop cl e (some (e.failRec (if c = 3 then 2 else c) va dev rc))

/-! ### Event-bit instructions (R347) -/

/-- evset (R347): a release at dev scope, then the bit. -/
def execEvset (a : Code) (s : State) : Res := eventInstr a (fun n s =>
  withRelease s 4 (fun s =>
    .next ((s.updCluster s.gang.cluster (fun c => c.setEvents (eventMask n) 0)).advance.settleEvents s.gang.cluster))) s

/-- evclr (R347). -/
def execEvclr (a : Code) (s : State) : Res := eventInstr a (fun n s =>
  .next (s.takeEvents s.gang.cluster (eventMask n)).advance) s

/-- Waiting for an event bit (R347): an acquire at dev scope unless Thresher operations of the own core alone have set it
(08 R226). -/
def evwaitInstr (clear : Bool) (a : Code) (s : State) : Res := eventInstr a (fun n s =>
  let g := s.gang
  let c := s.clusterAt g.cluster
  let block := if clear then Block.eventClear n else .eventBit n
  let waited := decide (mapFind g.flow.served g.flow.blocks = some block)
  if !c.events.getLsbD n || (clear && !waited && !(s.clearWaiters g.cluster s.cur n).isEmpty) then stallOn block s
  else
    let s := s.observeEvent g.core n
    .next ((if clear then s.takeEvents g.cluster (eventMask n) else s).updGang (fun g => { g with
      flow := { g.flow with blocks := mapDrop g.flow.served g.flow.blocks } })).advance) s

/-- evwait (R347). -/
def execEvwait (a : Code) (s : State) : Res := evwaitInstr false a s
/-- evwait, clear (R347). -/
def execEvwaitClear (a : Code) (s : State) : Res := evwaitInstr true a s

/-! ### Passes (R349, R350, R352; 13 R330 to R332) -/

/-- Effective priority (R349). -/
def State.effPrio (s : State) (e : Mentry) : Nat := min (e.num 0x36 1 % 4 + (s.clock.toNat - e.startAge) / 65536) 7

/-- The entry that the arbiter grants (R349). -/
def State.nextPass (s : State) (cl : Nat) : Option Mentry :=
  let c := s.clusterAt cl
  if c.pass.isSome then none
  else c.table.foldl (fun best e =>
    if decide (e.op = 0xE2) && e.started && !e.parked && decide (e.step < e.num 0x34 2) then
      match best with
      | none => some e
      | some b => if s.effPrio b < s.effPrio e || (decide (s.effPrio b = s.effPrio e) && decide (e.id < b.id)) then some e else some b
    else best) none

/-- THRESHER_PASS_GRANT (R349). -/
def execThresherPassGrant (cluster : Nat) (s : State) : Res :=
  .next (match s.nextPass cluster with
    | some e => s.updCluster cluster (fun c => { c with pass := some (e.slot, min 8 (e.num 0x34 2 - e.step)) })
    | none => s)

/-- Step t is occupied (R350). -/
def Mentry.occupied (e : Mentry) (t : Nat) : Bool := !bit (e.num 0x36 1) 2 || bit (e.occ.getD (t / 8) 0).toNat (t % 8)

/-- Address of line `r` of the panel buffer at the current step: A lines 0 to 63, then B lines (R343, R352). -/
def Mentry.lineAddr (e : Mentry) (r : Nat) : Nat :=
  let b := decide (64 ≤ r)
  let base := if b then e.num 0x20 8 else e.num 0x18 8
  let stride := if b then e.num 0x2C 4 else e.num 0x28 4
  let inc := signedOf 16 (if b then e.num 0x32 2 else e.num 0x30 2)
  wrapTo 64 ((base : Int) + ((r % 64 * stride : Nat) : Int) + (e.step : Int) * inc * 8)

/-- Bytes of a line of the step (R343). -/
def Mentry.lineLen (e : Mentry) (r : Nat) : Nat :=
  pairStep (e.num 0 8) (e.num 8 8) * etypeStride (fbEtype (if r < 64 then e.num 0 8 else e.num 8 8)) / 8

/-- Load the lines of a step that the panel buffer does not hold yet (R352) (log entry 23, DEDUCED). -/
def State.loadPanel : Nat → State → Mentry → State × Mentry × Option XErr
  | 0, s, e => (s, e, none)
  | n + 1, s, e =>
    if 128 ≤ e.prow then (s, e, none)
    else
      let va := e.lineAddr e.prow
      if !canonical va || inAperture va then (s, e, some (.fail 5 va 0 0 none))
      else match State.engReadRun e.agent (runPieces va (e.lineLen e.prow)) s with
        | (t, .error x) => (t, e, some x)
        | (t, .ok bs) => State.loadPanel n t { e with prow := e.prow + 1, panel := e.panel ++ [bs] }

/-- Where the scale of line `l`, K position `k` of an operand stands: offsets and bytes in its tile (R330). -/
def scalePlaces (x : Nat) (h : List Byte) (l k : Nat) : List (Nat × Nat) :=
  let off := fbScl x % 2 ^ 26 + 16
  let kk := blockNum h 8 4
  match fbScheme x with
  | 0 => []
  | 1 =>
    let n := l * (kk / 64) + k / 64
    [(off + n, 1), (off + layoutQ h + 4 * (n / 256), 4)]
  | 2 => [(off + 2 * (l * (kk / 16) + k / 16), 2)]
  | _ => [(off + 4 * l, 4)]

/-- The scale of line `l`, K position `k` of an operand (R330). -/
def Cluster.scaleOf (c : Cluster) (t : Tile) (x : Nat) (h : List Byte) (l k : Nat) : FVal :=
  let at_ := (scalePlaces x h l k).map (fun p => ofBytesLE (c.sclBytes t p.1 p.2))
  match fbScheme x with
  | 0 => .num false 1 0 false
  | 1 => (fvMul (FVal.ofInt (at_.getD 0 0 : Nat)) (elemValue 1 false (at_.getD 1 0))).1
  | 2 => elemValue 3 false (at_.getD 0 0)
  | _ => elemValue 1 false (at_.getD 0 0)

/-- A read of the scales of a step meets an uncorrectable error (13 R334). -/
def Cluster.scalesSpoilt (c : Cluster) (t : Tile) (x : Nat) (h : List Byte) (step n : Nat) : Bool :=
  !c.upset.isEmpty && (List.range 64).any (fun l => (List.range n).any (fun k =>
    (scalePlaces x h (fbLine0 x + l) (fbKb0 x * 64 + step * n + k)).any (fun p =>
      (List.range p.2).any (fun i => c.spoilt 2 (t.phys (p.1 + i)) 1))))

/-- The decoded elements of a line at step `t` (R330): `x` the format block, `n` the pair's K-step. -/
def Cluster.decodeLine (c : Cluster) (tile : Tile) (x : Nat) (h : List Byte) (t n line : Nat) (bs : List Byte) : List FVal :=
  let et := fbEtype x
  let z := ofBytesLE bs
  (List.range n).map (fun k =>
    (fvMul (elemValue et false (field z (etypeStride et * k) (etypeWidth et)))
      (c.scaleOf tile x h (fbLine0 x + line) (fbKb0 x * 64 + t * n + k))).1)

/-- Round to nearest even, nothing saturated or flushed (R331, R336). -/
def rneMode : FMode := { round := 0, sat := false, ftz := false }

/-- One element of a K-step (R331). -/
def stepElem (ty acc : Nat) (a b : List FVal) : Nat :=
  (convert ty rneMode (fvSum 0 (elemValue ty false acc :: a.zipWith (fun x y => (fvMul x y).1) b)).1).1

/-- One K-step on the values of a tile (R331). -/
def stepRows (ty : Nat) (as bs : List (List FVal)) (rows : List (List Nat)) : List (List Nat) :=
  rows.zipWith (fun row a => row.zipWith (fun acc b => stepElem ty acc a b) bs) as

/-- The values after the step whose panel is loaded. -/
def State.applyStep (s : State) (cl : Nat) (e : Mentry) (rows : List (List Nat)) : List (List Nat) :=
  let c := s.clusterAt cl
  let w := s.wgAt e.wid
  let n := pairStep (e.num 0 8) (e.num 8 8)
  let a := (List.range 64).map (fun l => c.decodeLine (w.sclTile (e.num 0 8)) (e.num 0 8) e.hdr.1 e.step n l (e.panel.getD l []))
  let b := (List.range 64).map (fun l => c.decodeLine (w.sclTile (e.num 8 8)) (e.num 8 8) e.hdr.2 e.step n l (e.panel.getD (64 + l) []))
  stepRows (s.mopTile e).accType a b rows

/-- A read of the tile, or of the scales of the step whose panel is loaded, meets an uncorrectable error (13 R334). -/
def State.stepSpoilt (s : State) (cl : Nat) (e : Mentry) : Bool :=
  let c := s.clusterAt cl
  let w := s.wgAt e.wid
  let n := pairStep (e.num 0 8) (e.num 8 8)
  c.tileSpoilt (s.mopTile e) e.tile || c.scalesSpoilt (w.sclTile (e.num 0 8)) (e.num 0 8) e.hdr.1 e.step n ||
    c.scalesSpoilt (w.sclTile (e.num 8 8)) (e.num 8 8) e.hdr.2 e.step n

/-- The poisoned completion of a read of the cluster's own memory (13 R334). -/
def State.spoiltErr (s : State) : XErr := .fail 3 0 s.devid 0 none

/-- The steps of a pass, in order; it ends early at an error (R350, R352). -/
def State.runSteps (cl : Nat) : Nat → State → Mentry → List (List Nat) → State × Mentry × List (List Nat) × Option XErr
  | 0, s, e, rows => (s, e, rows, none)
  | n + 1, s, e, rows =>
    if !e.occupied e.step then State.runSteps cl n s { e with step := e.step + 1 } rows
    else match State.loadPanel 128 s e with
      | (t, e1, some x) => (t, e1, rows, some x)
      | (t, e1, none) =>
        if t.stepSpoilt cl e1 then (t.killFor e1, e1, rows, some t.spoiltErr)
        else State.runSteps cl n t { e1 with step := e1.step + 1, prow := 0, panel := [] } (t.applyStep cl e1 rows)

/-- THRESHER_PASS_END (R332, R349 to R352): the pass's steps are applied; the entry completes, parks or ends failed. -/
def execThresherPassEnd (cluster : Nat) (s : State) : Res :=
  let c := s.clusterAt cluster
  match c.pass with
  | none => .next s
  | some (slot, n) =>
    match c.entry slot with
    | none => .next (s.updCluster cluster (fun c => { c with pass := none }))
    | some e =>
      let t := s.mopTile e
      let r := State.runSteps cluster n s e (c.tileRows t e.tile)
      let e1 := { r.2.1 with startAge := s.clock.toNat }
      let s := r.1.updCluster cluster (fun c => { (c.setRows t e.tile r.2.2.1) with
        table := c.table.map (fun f => if f.slot = slot then e1 else f), pass := none })
      match r.2.2.2 with
      | some x => .next (s.mopError cluster e1 x)
      | none => .next (if e1.num 0x34 2 ≤ e1.step then s.finishMop cluster e1 none else s)

/-! ### Quantising a tile (13 R336 to R338, 06 R155) -/

/-- The magnitude of a finite value; zero for the others. -/
def finiteMag : FVal → FVal
  | .num _ m e _ => .num false m e false
  | _ => FVal.zero false

/-- The greatest magnitude among finite values (06 R155). -/
def maxMag (xs : List FVal) : FVal := xs.foldl (fun m x => if fvLt m (finiteMag x) then finiteMag x else m) (FVal.zero false)

/-- E(t): the largest finite magnitude of an element type (06 R155). -/
def eMax (t : Nat) : FVal :=
  if isFloat t then decodeFloat (fmtOf t) (maxBits (fmtOf t)) else if isInt t then FVal.ofInt (typeMax t) else FVal.ofInt 1

/-- A scale rounded to f16 (3) or f32 (1), never infinite and never 0 (06 R155). -/
def roundScale (t : Nat) (x : FVal) : Nat :=
  let r := (convert t rneMode x).1
  if r = infBits (fmtOf t) false then maxBits (fmtOf t) else if r = 0 then 1 else r

/-- Elements of a group under a scale given as a value; all +0 when the group's magnitude is 0 (06 R155). -/
def quantElems (t : Nat) (zero : Bool) (c : FVal) (xs : List FVal) : List Nat :=
  xs.map (fun x => (convert t rneMode (if zero then FVal.zero false else (fvDiv x c).1)).1)

/-- The nearest integer, ties to even (06 R155). -/
def roundInt : FVal → Nat
  | .num s m e st => (roundTo 0 s m e 0 st).1
  | _ => 0

/-- A line's elements as bits, and its scale bytes with their offsets (R338). -/
abbrev QLine := List Nat × List (Nat × List Byte)

/-- Line `i` of a tile whose lines are `vals`, quantised in a format (R336, R338). -/
def quantLine (fb : Nat) (vals : List (List FVal)) (i : Nat) : QLine :=
  let t := fbEtype fb
  let xs := vals.getD i []
  match fbScheme fb with
  | 0 => (xs.map (fun x => (convert t rneMode x).1), [])
  | 1 =>
    let big := maxMag (vals.map maxMag)
    let sb := if big.isZero then 0 else roundScale 1 (fvDiv big (FVal.ofInt 255)).1
    let sv := elemValue 1 false sb
    let q := if big.isZero then 1 else min (max (roundInt (fvDiv (maxMag xs) sv).1) 1) 255
    (quantElems t big.isZero (fvMul (FVal.ofInt q) sv).1 xs,
      (i, bytesLE 1 q) :: (if i = 63 then [(64, bytesLE 4 sb)] else []))
  | 2 =>
    let gs := (List.range 4).map (fun g =>
      let ys := (xs.drop (16 * g)).take 16
      let m := maxMag ys
      let sb := if m.isZero then 0 else roundScale 3 (fvDiv m (eMax t)).1
      (quantElems t m.isZero (elemValue 3 false sb) ys, bytesLE 2 sb))
    ((gs.map (·.1)).flatten, [(8 * i, (gs.map (·.2)).flatten)])
  | _ =>
    let m := maxMag xs
    let sb := if m.isZero then 0 else roundScale 1 (fvDiv m (eMax t)).1
    (quantElems t m.isZero (elemValue 1 false sb) xs, [(4 * i, bytesLE 4 sb)])

/-- The bytes of a packed line (R324). -/
def packLine (t : Nat) (xs : List Nat) : List Byte := bytesLE (8 * etypeStride t) (packElems t (fun k => xs.getD k 0) 64)

/-! ### The tile port (R354 to R357, R483) -/

/-- The values of an image of a tile. -/
def imageRows (t : Tile) (bs : List Byte) : List (List Nat) :=
  (List.range 64).map (fun r => rowElems (t.rowBytes / 64) ((bs.drop (r * t.rowBytes)).take t.rowBytes))

/-- The image of a tile, as msave writes it (R355). -/
def Cluster.image (c : Cluster) (t : Tile) (i : Nat) : List Byte := ((List.range 64).map (c.rowBytes t i)).flatten

/-- Write a run of global bytes by an engine. -/
def State.engWriteRun (g : Agent) (va : Nat) (bs : List Byte) : List (Nat × Nat × Nat) → State → State × Except XErr Unit
  | [], s => (s, .ok ())
  | (a, o, n) :: ps, s =>
    match s.engWrite g ((bs.drop o).take n) (.glob a) with
    | (t, .error e) => (t, .error e)
    | (t, .ok _) => State.engWriteRun g va bs ps t

/-- Write runs at addresses, each checked first (R354); an error leaves memory as it was. -/
def State.writeAll (g : Agent) : List (Nat × List Byte) → State → State × Except XErr Unit
  | [], s => (s, .ok ())
  | (va, bs) :: ps, s =>
    if !canonical va || inAperture va then (s, .error (.fail 5 va 0 0 none))
    else match State.engWriteRun g va bs (runPieces va bs.length) s with
      | (t, .error e) => ({ s with fresh := t.fresh, alarms := t.alarms }, .error e)
      | (t, .ok _) => match State.writeAll g ps t with
        | (u, .error e) => ({ s with fresh := u.fresh, alarms := u.alarms }, .error e)
        | r => r

/-- What a drain writes for its line `r`: main lines 0 to 63, shadow lines 64 to 127 (R354). A line's scales are written
with the line. -/
def drainLine (e : Mentry) (fmtC : Nat) (vals : List (List FVal)) (r : Nat) : List (Nat × List Byte) :=
  let sh := decide (64 ≤ r)
  let fb := if sh then e.num 0x18 8 else fmtC
  let base := if sh then e.num 0x20 8 else e.num 0 8
  let stride := if sh then e.num 0x28 4 else e.num 8 4
  let scl := if sh then e.num 0x30 8 else e.num 0x10 8
  let i := r % 64
  let cols := if sh then (List.range 64).map (fun j => vals.map (fun row => row.getD j (FVal.zero false))) else vals
  let q := quantLine fb cols i
  ((base + i * stride) % 2 ^ 64, packLine (fbEtype fb) q.1) :: q.2.map (fun x => ((scl + x.1) % 2 ^ 64, x.2))

/-- Write the lines of a drain from its progress on; `n` is a bound on the lines left. -/
def State.drainLines (fmtC last : Nat) (vals : List (List FVal)) : Nat → State → Mentry → State × Mentry × Option XErr
  | 0, s, e => (s, e, none)
  | n + 1, s, e =>
    if last ≤ e.prow then (s, e, none)
    else match State.writeAll e.agent (drainLine e fmtC vals e.prow) s with
      | (t, .error x) => (t, e, some x)
      | (t, .ok _) => State.drainLines fmtC last vals n t { e with prow := e.prow + 1 }

/-- Move the rows of an image from the progress on: msave writes global memory, mrestore reads it (R355). -/
def State.imageLines (cl : Nat) (t : Tile) : Nat → State → Mentry → State × Mentry × Option XErr
  | 0, s, e => (s, e, none)
  | n + 1, s, e =>
    if 64 ≤ e.prow then (s, e, none)
    else
      let va := (e.num 0 8 + e.prow * t.rowBytes) % 2 ^ 64
      if !canonical va || inAperture va then (s, e, some (.fail 5 va 0 0 none))
      else if e.op = 0xEA && (s.clusterAt cl).rowSpoilt t e.tile e.prow then (s.killFor e, e, some s.spoiltErr)
      else if e.op = 0xEA then
        match State.writeAll e.agent [(va, (s.clusterAt cl).rowBytes t e.tile e.prow)] s with
        | (u, .error x) => (u, e, some x)
        | (u, .ok _) => State.imageLines cl t n u { e with prow := e.prow + 1 }
      else
        match State.engReadRun e.agent (runPieces va t.rowBytes) s with
        | (u, .error x) => (u, e, some x)
        | (u, .ok bs) => State.imageLines cl t n (u.updCluster cl (fun c => c.setRow t e.tile e.prow bs)) { e with prow := e.prow + 1 }

/-- The oldest tile-port operation that may run (R483). -/
def Cluster.nextPort (c : Cluster) : Option Mentry :=
  if c.port.isSome then none
  else c.table.foldl (fun best e =>
    if decide (e.op ≠ 0xE2) && !e.parked && !c.behind e then
      match best with
      | none => some e
      | some b => if e.id < b.id then some e else some b
    else best) none

/-- TILE_PORT_START (R354, R483): the port takes the operation; a drain takes its snapshot, and one that reads it with an
uncorrectable error has failed (13 R334). -/
def execTilePortStart (cluster : Nat) (s : State) : Res :=
  let c := s.clusterAt cluster
  match c.nextPort with
  | none => .next s
  | some e =>
    let first := e.op = 0xE3 && e.snap.isNone
    let snap := if first then some (c.image (s.mopTile e) e.tile) else e.snap
    let spoilt := first && c.tileSpoilt (s.mopTile e) e.tile
    let s := if spoilt then s.killFor e else s
    .next ((s.updMop cluster e.slot (fun e => { e with
      started := true, snap := snap, failed := if spoilt then some (e.failRec 2 0 s.devid 0) else e.failed })).updCluster cluster
      (fun c => { c with port := some e.slot }))

/-- The tile with +0 everywhere and its failed mark clear. -/
def State.clearTile (s : State) (cl : Nat) (e : Mentry) : State :=
  let t := s.mopTile e
  s.updCluster cl (fun c => (c.zeroTile t e.tile).setFailed t e.tile false)

/-- The tile after a tacc (R357). -/
def Cluster.taccRow (c : Cluster) (t : Tile) (e : Mentry) : Cluster :=
  let row := rowElems (t.rowBytes / 64) (c.rowBytes t e.tile e.row)
  let put := fun j x => match mapFind (j - 32 * e.half) e.values with
    | some v => if 32 * e.half ≤ j then (convert t.accType rneMode (fvSum 0 [elemValue t.accType false x, elemValue t.accType false v.toNat]).1).1 else x
    | none => x
  c.setRow t e.tile e.row (rowImage (t.rowBytes / 64) (row.zipIdx.map (fun x => put x.2 x.1)))

/-- A drain at the port (R354, R356): when all its lines are written, zero-after; it ends when every write has performed. -/
def State.runDrain (s : State) (cl : Nat) (e : Mentry) : State :=
  let t := s.mopTile e
  let c := s.clusterAt cl
  let after := fun (s : State) => if bit e.sub 1 then s.clearTile cl e else s
  let fmtC := (mapGet 1 c.drainFmt (t.accKey e.tile)).toNat
  if e.lines ≤ e.prow then s.finishMop cl e none
  else if e.failed.isSome && decide (e.prow = 0) then s.finishMop cl e none
  else if c.failed t e.tile then (after s).finishMop cl e (some (e.failRec 4 0 0 0))
  else if fbScheme fmtC = 0 && e.num 0x10 8 ≠ 0 then (after s).finishMop cl e (some (e.failRec 6 0 0 0))
  else
    let vals := (imageRows t (e.snap.getD [])).map (fun r => r.map (elemValue t.accType false))
    match State.drainLines fmtC e.lines vals 129 s e with
    | (s, e, some x) => s.mopError cl e x
    | (s, e, none) => (after s).finishMop cl e none

/-- An image operation at the port (R355, R356). -/
def State.runImage (s : State) (cl : Nat) (e : Mentry) : State :=
  let t := s.mopTile e
  if e.op = 0xEA && decide (e.prow = 0) && (s.clusterAt cl).failed t e.tile then s.finishMop cl e (some (e.failRec 4 0 0 0))
  else match State.imageLines cl t 65 s e with
    | (s, e, some x) => s.mopError cl e x
    | (s, e, none) =>
      (if e.op = 0xEB then s.updCluster cl (fun c => c.setFailed t e.tile false) else s).finishMop cl e none

/-- A tacc at the port (R357): its row is read and written. -/
def State.runTacc (s : State) (cl : Nat) (e : Mentry) : State :=
  let t := s.mopTile e
  if (s.clusterAt cl).rowSpoilt t e.tile e.row then (s.killFor e).endMop cl e (some (e.failRec 2 0 s.devid 0))
  else (s.updCluster cl (fun c => c.taccRow t e)).endMop cl e none

/-- TILE_OPERATION_COMPLETE (R354 to R357): the operation at the port takes its effect and ends, or parks, or waits for its
writes to other devices. -/
def execTileOperationComplete (cluster : Nat) (s : State) : Res :=
  let c := s.clusterAt cluster
  match c.port with
  | none => .next s
  | some slot =>
    match c.entry slot with
    | none => .next (s.updCluster cluster (fun c => { c with port := none }))
    | some e =>
      .next (if e.op = 0xE3 then s.runDrain cluster e
        else if e.op = 0xE4 then (s.clearTile cluster e).endMop cluster e none
        else if e.op = 0xE5 then s.runTacc cluster e
        else s.runImage cluster e)

/-- The operation at the tile port has something to do. -/
def State.portDue (s : State) (cl : Nat) : Bool :=
  match (s.clusterAt cl).port with
  | none => false
  | some slot => match (s.clusterAt cl).entry slot with
    | none => true
    | some e => !s.mopWaits e

/-- The next own event of a cluster's Thresher. -/
def State.thresherEvent (s : State) (cl : Nat) : Option Res :=
  let c := s.clusterAt cl
  if s.portDue cl then some (execTileOperationComplete cl s)
  else if c.pass.isSome then some (execThresherPassEnd cl s)
  else match c.table.find? c.mayStart with
    | some e => some (execMloopEntryStart cl e.slot s)
    | none =>
      if (s.nextPass cl).isSome then some (execThresherPassGrant cl s)
      else if c.nextPort.isSome then some (execTilePortStart cl s)
      else none

/-! ### Tile handles (07 R174, R175) -/

/-- Granules of an allocation. -/
def granulesFor (level rows rowBytes : Nat) : Nat := ceilDiv (rows * rowBytes) (granuleSize level)

/-- The operands of talloc are within its table. -/
def tallocOk (a b : Nat) : Bool :=
  let rb := b % 2 ^ 20
  decide (1 ≤ a) && decide (a < 65536) && decide (b < 2 ^ 22) &&
  (match field b 20 2 with
    | 0 => decide (rb % 4 = 0) && decide (4 ≤ rb) && decide (rb ≤ 458752)
    | 1 => (decide (rb = 256) || decide (rb = 512)) && decide (a % 64 = 0)
    | 2 => decide (rb % 4 = 0) && decide (4 ≤ rb) && decide (rb ≤ 4096)
    | _ => false)

/-- The free granules of a level for a workgroup, ascending (R174; the choice is log entry 24, DESIGN CHOICE). -/
def State.freeGranules (s : State) (wid level : Nat) : List Nat :=
  let w := s.wgAt wid
  let c := s.clusterAt (clusterOfCore (coreOfWid wid))
  if level = 0 then
    let used := (w.tiles.map (fun e => if e.2.level = 0 then e.2.granules else [])).flatten
    w.barn.filter (fun i => !used.contains i)
  else if level = 1 then (List.range 64).filter (fun i => !c.accUsed.contains i)
  else (List.range 256).filter (fun i => !c.sclUsed.contains i)

/-- A handle is given a tile: its granules are in use, and an ACC tile takes its own drain format (13 R333). -/
def State.giveTile (s : State) (wid h : Nat) (t : Tile) : State :=
  let s := s.updWgAt wid (fun w => { w with tiles := mapPut h t w.tiles })
  let cl := clusterOfCore (coreOfWid wid)
  if t.level = 1 then
    s.updCluster cl (fun c => { c with
      accUsed := c.accUsed ++ t.granules
      drainFmt := (List.range (t.rows / 64)).foldl (fun m i => mapPut (t.accKey i) (BitVec.ofNat 64 t.accType) m) c.drainFmt
      failedTile := (List.range (t.rows / 64)).foldl (fun m i => mapSet false m (t.accKey i) false) c.failedTile })
  else if t.level = 2 then s.updCluster cl (fun c => { c with sclUsed := c.sclUsed ++ t.granules })
  else s

/-- talloc (R174). -/
def execTalloc (d a b : Code) (s : State) : Res :=
  guardOps s (fixedOps [.sw 32 d, .sr 32 a, .sr 32 b]) (fun s =>
    let g := s.gang
    let x := (s.sarg a).toNat
    let y := (s.sarg b).toNat
    let level := field y 20 2
    let rb := y % 2 ^ 20
    if !tallocOk x y then finishWith s (fun h => h.putSAll d 0xFFFFFFF2)
    else match findBelow (fun h => (s.wg.tile h).isNone) 64 with
      | none => finishWith s (fun h => h.putSAll d 0xFFFFFFF0)
      | some h =>
        let free := s.freeGranules g.wid level
        let n := granulesFor level x rb
        if free.length < n then finishWith s (fun h => h.putSAll d 0xFFFFFFF1)
        else finishWith (s.giveTile g.wid h { rows := x, rowBytes := rb, level := level, granules := free.take n })
          (fun k => k.putSAll d (BitVec.ofNat 32 h)))

/-- An operation of the Thresher names a handle: its tile, its placed scales, its bitmap (R344, R175). -/
def Mentry.names (e : Mentry) (h : Nat) : Bool :=
  decide (e.handle = h) || (decide (e.op = 0xE2) &&
    ((fbScheme (e.num 0 8) ≠ 0 && decide (accHandle (fbScl (e.num 0 8)) = h)) ||
     (fbScheme (e.num 8 8) ≠ 0 && decide (accHandle (fbScl (e.num 8 8)) = h)) ||
     (bit (e.num 0x36 1) 2 && decide (accHandle (e.num 0x3C 4) = h))))

/-- A Gleaner command names a handle of its workgroup. -/
def Gcmd.names (c : Gcmd) (h : Nat) : Bool :=
  if c.kind = 0 then c.segs.any (fun x => decide (segBytes x.quad ≠ 0) && decide (segHandle x.quad = h))
  else (blockRanges c.block c.kind).any (fun r => decide (accHandle r.1 = h))

/-- A multicast delivers into a handle of another workgroup of the neighbourhood. -/
def State.receives (s : State) (wid h : Nat) (c : Gcmd) : Bool :=
  c.receivers.any (fun e => blockNum e 0 1 = 0 && decide (accHandle (blockNum e 4 4) = h) &&
    decide (s.neighbour (s.wgAt c.wid) (blockNum e 1 1) = some wid))

/-- An outstanding operation of the workgroup names the handle (R175). -/
def State.tileBusy (s : State) (wid h : Nat) : Bool :=
  let core := coreOfWid wid
  (s.coreAt core).gleaner.any (fun c => decide (c.wid = wid) && (c.names h || s.receives wid h c)) ||
  (s.clusterAt (clusterOfCore core)).table.any (fun e => decide (e.wid = wid) && e.names h) ||
  s.groups.any (fun e => e.2.topk.any (fun k => decide (k.gang / 32 = wid) && decide (accHandle k.loc = h)))

/-- A handle's granules go back (R175). -/
def State.freeTile (s : State) (wid h : Nat) : State :=
  match (s.wgAt wid).tile h with
  | none => s
  | some t =>
    let s := s.updWgAt wid (fun w => { w with tiles := mapDrop h w.tiles })
    let cl := clusterOfCore (coreOfWid wid)
    let rest := fun (l : List Nat) => l.filter (fun i => !t.granules.contains i)
    if t.level = 1 then s.updCluster cl (fun c => { c with accUsed := rest c.accUsed })
    else if t.level = 2 then s.updCluster cl (fun c => { c with sclUsed := rest c.sclUsed })
    else s

/-- tfree (R175). -/
def execTfree (a : Code) (s : State) : Res :=
  guardOps s (fixedOps [.sr 32 a]) (fun s =>
    let x := (s.sarg a).toNat
    let wid := s.gang.wid
    if 64 ≤ x || (s.wg.tile x).isNone then
      trapNow { cause := 0x0E, sub := 4, aux := BitVec.ofNat 32 (x % 64) } s
    else if s.tileBusy wid x then stallOn (.tile x) s
    else .next (s.freeTile wid x).advance)

end Sys2Proof.Machine
end

