-- ==== Sys2Proof/Machine/Remote.lean ====
section
/-! DEFINITION. Remote invocation, handles and trigger cells: the handle table, rinv and rinvh and their messages, waiting
and results, the service side, broken handles, tcarm and tcadd (15 R362 to R386). -/

namespace Sys2Proof.Machine

/-! ### Handles (R362 to R364) -/

/-- Home device of a handle. -/
def hDev (h : DWord) : Nat := field h.toNat 52 12
/-- Slot. -/
def hSlot (h : DWord) : Nat := field h.toNat 32 20
/-- Generation. -/
def hGen (h : DWord) : Nat := field h.toNat 8 24
/-- Kind. -/
def hKind (h : DWord) : Nat := field h.toNat 0 8

/-- A handle from its fields. -/
def handleOf (dev slot gen kind : Nat) : DWord := BitVec.ofNat 64 (dev * 2 ^ 52 + slot * 2 ^ 32 + gen * 2 ^ 8 + kind)

/-- A handle operand is misused: an invalid kind or device (R366, sub-cause 1). -/
def handleBad (h : DWord) : Bool := decide (3 ≤ hKind h) || decide (2304 ≤ hDev h)

/-- The slot of a handle of this device whose generation is current: not freed since (R363). -/
def State.current (s : State) (h : DWord) : Option Nat :=
  let x := s.slotAt (hSlot h)
  if hDev h = s.devid && x.used && decide (x.gen.toNat = hGen h) && decide (x.kind = hKind h) then some (hSlot h) else none

/-- The slot of a handle that a partition knows: current, of its own range, and not dropped (R363, R373)
(log entry 51, DEDUCED). -/
def State.known (s : State) (part : Nat) (h : DWord) : Option Nat :=
  match s.current h with
  | some k => if decide ((s.slotAt k).part = part) && !(s.slotAt k).dropped then some k else none
  | none => none

/-- The next free slot of a range: from its offset `i` on, wrapping, at most `n` looked at (R363). -/
def State.scanSlots (s : State) (first count : Nat) : Nat → Nat → Option Nat
  | 0, _ => none
  | n + 1, i => if (s.slotAt (first + i % count)).used then State.scanSlots s first count n (i + 1) else some (i % count)

/-- Allocate a handle for a partition (R363): its value, or none when the range has no free slot. -/
def State.newHandle (s : State) (part kind issuer opid : Nat) : Option (DWord × State) :=
  let p := s.partAt part
  match s.scanSlots p.slots.1 p.slots.2 p.slots.2 p.nextSlot with
  | none => none
  | some i =>
    let k := p.slots.1 + i
    let gen := (s.slotAt k).gen + 1
    some (handleOf s.devid k gen.toNat kind,
      (s.updPart part (fun p => { p with nextSlot := i + 1 })).updSlot k (fun _ =>
        { HSlot.free with gen := gen, used := true, kind := kind, part := part, dev := s.devid, issuer := issuer, opid := opid }))

/-- The status word of a handle at its home, or of one that names none (R371) (log entry 51, DEDUCED). -/
def State.handleStatus (s : State) (part : Nat) (h : DWord) : Word :=
  match s.known part h with
  | none => 3
  | some k =>
    let x := s.slotAt k
    if x.state ≤ 1 then 0
    else if x.state = 2 then BitVec.ofNat 32 (1 + x.bytes * 2 ^ 16)
    else BitVec.ofNat 32 (2 + x.cause * 2 ^ 8)

/-- The home of a handle is another device. -/
def State.farHandle (s : State) (h : DWord) : Bool := decide (hKind h ≠ 0) && decide (hDev h ≠ s.devid)

/-- The answer of a home to a question about a handle's status: the word, and the device where a result was posted
(R371). -/
def State.statusAnswer (s : State) (part : Nat) (h : DWord) : Nat :=
  (s.handleStatus part h).toNat + (s.slotAt (hSlot h)).dev * 2 ^ 32

/-- Remote misuse (R366). -/
def rMisuse (sub : Nat) : TrapReq := { cause := 0x1A, sub := sub }

/-! ### Freeing slots and breaking handles (R373, R379) -/

/-- Change the record of an invocation that this device executes. -/
def State.updExec (s : State) (h : DWord) (f : Exec → Exec) : State :=
  { s with execs := s.execs.map (fun x => if x.handle = h then f x else x) }

/-- A result slot of a partition of this device is free again. The record of the invocation stays, for what still names it;
one that was not done has no effect any more: it broke, or its home partition is gone (R379) (log entry 50, DEDUCED). -/
def State.freeResult (s : State) (h : DWord) (done : Bool) : State :=
  match s.execs.find? (fun x => decide (x.handle = h)) with
  | none => s
  | some x =>
    let s := s.updExec h (fun y => { y with freed := true, settled := if done || decide (y.settled = 3) then 3 else 2 })
    match x.bound with
    | some (_, n) => if x.freed then s else
        s.updPart x.part (fun p => { p with poolUsed := p.poolUsed.filter (fun i => decide (i ≠ n)) })
    | none => s

/-- A handle slot and its result slot are freed (R373) (log entry 50, DEDUCED). -/
def State.freeHandle (s : State) (k : Nat) (h : DWord) : State :=
  let x := s.slotAt k
  let s := s.updSlot k (fun x => { x with used := false, waitlist := [] })
  let done := decide (x.state = 2)
  if x.dev = s.devid then s.freeResult h done
  else s.send { Msg.blank with kind := .freeSlot x.epart x.rslot done, dst := x.dev, handle := h }

/-- The issuer's RM count of an invocation falls: accepted, or broken (R368). -/
def State.acceptHandle (s : State) (k : Nat) : State :=
  let x := s.slotAt k
  if x.accepted then s
  else (s.updSlot k (fun x => { x with accepted := true })).updGangAt x.issuer (fun g => g.complete x.opid)

/-- Break one handle: the state afterwards, and the handles that break with it (R379). -/
def State.breakOne (s : State) (h : DWord) (cause : Nat) : State × List DWord :=
  let held := (s.held.filter (fun m => decide (m.dep = h))).map (·.handle)
  let s := { s with held := s.held.filter (fun m => decide (m.dep ≠ h)) }
  if hDev h ≠ s.devid then
    (s.send { Msg.blank with kind := .failReport cause, dst := hDev h, handle := h }, held)
  else match s.current h with
    | none => (s, held)
    | some k =>
      let x := s.slotAt k
      if 2 ≤ x.state then (s, held)
      else
        let s := s.acceptHandle k
        let s := if x.state = 1 && decide (x.dev ≠ s.devid) then
            s.send { Msg.blank with kind := .failReport cause, dst := x.dev, handle := h } else s
        let s := s.updSlot k (fun x => { x with state := 3, cause := cause, waitlist := [] })
        (if x.dropped then s.freeHandle k h else s, x.waitlist.map (·.handle) ++ held)

/-- Break the handles of a list, and everything that waits on them with cause 7. -/
def State.breakAll : Nat → List (DWord × Nat) → State → State
  | 0, _, s => s
  | _ + 1, [], s => s
  | n + 1, (h, c) :: hs, s =>
    let r := s.breakOne h c
    State.breakAll n (hs ++ r.2.map (·, 7)) r.1

/-- Break a handle (R379). -/
def State.breakHandle (s : State) (h : DWord) (cause : Nat) : State :=
  State.breakAll (2 + s.held.length + (s.handles.map (fun e => e.2.waitlist.length)).sum) [(h, cause)] s

/-- A message has been dealt with. -/
def State.dropMsg (s : State) (id : Nat) : State := { s with msgs := s.msgs.filter (fun m => decide (m.id ≠ id)) }

/-- The message of a number. -/
def State.msg (s : State) (id : Nat) : Option Msg := s.msgs.find? (fun m => decide (m.id = id))

/-! ### rinv and rinvh (R367 to R369) -/

/-- The field rules of an invocation block (R367); `dep` for rinvh (log entry 52, DEDUCED). -/
def invBlockOk (dep : Bool) (b : List Byte) : Bool :=
  let bulk := bit (blockNum b 3 1) 0
  let alen := blockNum b 6 2
  (if dep then blockZero b 0 3 else decide (blockNum b 0 2 < 2304) && decide (blockNum b 2 1 < 8) && blockZero b 0x18 8) &&
  decide (blockNum b 3 1 < 2) && decide (blockNum b 4 2 < 16384) && decide (alen ≤ 256) && decide (alen % 8 = 0) &&
  (if bulk then canonical (blockNum b 8 8) && !inAperture (blockNum b 8 8) &&
      decide (1 ≤ blockNum b 0x10 4) && decide (blockNum b 0x10 4 ≤ 2 ^ 30)
    else blockZero b 8 8 && blockZero b 0x10 4) && blockZero b 0x20 32

/-- A rinv or rinvh whose block is good, after its release: the handle, the count and the message (R368, R369). -/
def sendInvocation (dep : Bool) (b : Code) (loc dst : Nat) (up : DWord) (s : State) : Res :=
  let w := s.wg
  let blk := s.barnBlock loc 64
  match s.newHandle w.part (if dep then 2 else 1) s.cur s.nextId with
  | none => finishWith s (fun h => h.putS64 b h.issuing (fun _ => 0))
  | some (h, t) =>
    let id := s.nextId
    let t := t.takeId.2.send { Msg.blank with
      kind := if dep then .dependent else .invoke
      dst := dst, part := w.part, tpart := blockNum blk 2 1, pasid := w.pasid
      cell := blockNum blk 4 2, handle := h, dep := up, gang := s.cur
      block := blk ++ s.barnBlock (loc + 64) (blockNum blk 6 2) }
    .next (t.updGang (fun g => ((g.raise 5 id false).putS64 b g.issuing (fun _ => h)).advance))

/-- rinv and rinvh (R366 to R369) (log entry 48, DEDUCED) (log entry 51, DEDUCED) (log entry 52, DEDUCED). -/
def invoke (dep : Bool) (a b : Code) (s : State) : Res :=
  guardOps s (fixedOps [.so 32 a, .so 64 b]) (fun s => engineOr 32 s (
    let g := s.gang
    let w := s.wg
    let loc := (s.sarg a).toNat
    match w.rangeFault loc 64 1 0 with
    | some t => trapNow t s
    | none => if loc % 64 ≠ 0 then trapNow (rMisuse 0) s else
      let blk := s.barnBlock loc 64
      let alen := blockNum blk 6 2
      match (if alen ≤ 256 then w.rangeFault (loc + 64) alen 1 0 else none) with
      | some t => trapNow t s
      | none =>
        let up : DWord := BitVec.ofNat 64 (blockNum blk 0x18 8)
        if !invBlockOk dep blk then trapNow (rMisuse 0) s
        else if dep && handleBad up then trapNow (rMisuse 1) s
        else if 63 ≤ g.counter 5 then stallOn (.path 5 62) s
        else
          let dst := if dep then (if hKind up = 0 then s.devid else hDev up) else blockNum blk 0 2
          if (s.newHandle w.part 1 0 0).isNone then sendInvocation dep b loc dst up s
          else withRelease s (if !dep && decide (dst = s.devid) then 4 else 5) (sendInvocation dep b loc dst up)))

/-- rinv (R368). -/
def execRinv (a b : Code) (s : State) : Res := invoke false a b s
/-- rinvh (R369). -/
def execRinvh (a b : Code) (s : State) : Res := invoke true a b s

/-! ### Arrival of messages (R369, R375) -/

/-- The alarm of a refused access of a peer device (18 R444): actions 1 and 2 block its source at the link ports
(log entry 54, DEDUCED). -/
def State.peerAlarm (s : State) (owner : Option Nat) (target src spart pasid kind : Nat) : State :=
  let act := s.alarmAction owner
  let s := s.logSecurity target src spart 7 pasid kind act
  if act = 3 then { s with alarms := s.alarms ++ [(3, pasid, spart)] }
  else if act = 0 then s
  else match owner with
    | some q => s.updPart q (fun p => { p with blocked := p.blocked ++ [(src, spart)] })
    | none => s

/-- The device whose master a message acts for: the issuer of an invocation, which is its handle's home, wherever the message
has been forwarded (R363, R369, R374). -/
def Msg.master (m : Msg) : Nat :=
  match m.kind with
  | .invoke => hDev m.handle
  | _ => m.src

/-- The alarm of a refused invocation or cell operation: of a partition here, or of a peer, which is blocked instead
(18 R443, R444) (log entry 54, DEDUCED). -/
def State.cellAlarm (s : State) (m : Msg) (kind : Nat) : State :=
  let owner := (s.cellAt m.cell).owner
  if m.master = s.devid then s.alarm owner m.cell m.part 4 m.pasid kind
  else s.peerAlarm owner m.cell m.master m.part m.pasid kind

/-- The access tables allow an invocation or a raise to the cell (R375, R383; 18 R441). -/
def State.cellAdmits (s : State) (m : Msg) : Bool :=
  let owner := (s.cellAt m.cell).owner
  if m.master = s.devid then s.admits m.part owner 4 else s.admitsPeer owner m.master m.part 4

/-- An inbox entry of an invocation (R374). -/
def inboxEntry (m : Msg) : List Byte :=
  let b := m.block
  bytesLE 8 m.handle.toNat ++ bytesLE 8 m.dep.toNat ++ bytesLE 2 m.master ++ bytesLE 1 m.part ++ bytesLE 1 1 ++
  (b.drop 0x14).take 4 ++ (b.drop 8).take 8 ++ (b.drop 0x10).take 4 ++ (b.drop 6).take 2 ++ List.replicate 26 0 ++
  ((b.drop 0x40) ++ List.replicate 256 0).take 256 ++ List.replicate 64 0

/-- Address of an entry of an inbox (R374). -/
def TCell.entryAt (c : TCell) (i : Nat) : Nat := (c.inbox.toNat + 384 * (i % 2 ^ c.ilog)) % 2 ^ 64

/-- An invocation reaches its cell: accepted, or its handle breaks (R375). -/
def State.acceptInvocation (s : State) (m : Msg) : State :=
  let c := s.cellAt m.cell
  if !s.cellAdmits m then (s.cellAlarm m 3).breakHandle m.handle 1
  else if c.owner ≠ some m.tpart || !bit c.flags.toNat 2 || !bit c.flags.toNat 0 then s.breakHandle m.handle 2
  else if (c.tail - c.head).toNat = 2 ^ c.ilog then s.breakHandle m.handle 3
  else
    let r := s.dirWrite m.tpart 4 c.pasid (c.entryAt c.tail.toNat) (inboxEntry m)
    if !r.2 then r.1.breakHandle m.handle 4
    else
      let s := r.1.setCell m.cell { c with tail := c.tail + 1 }
      let x : Exec := { handle := m.handle, home := hDev m.handle, spart := m.part, cell := m.cell
                        idx := c.tail.toNat, part := m.tpart, bound := none, settled := 0, bytes := 0, freed := false }
      let s := { s with execs := s.execs ++ [x] }
      let s := s.raiseCell m.cell 1
      if hDev m.handle = s.devid then
        match s.current m.handle with
        | some k => s.acceptHandle k
        | none => s
      else s.send { Msg.blank with kind := .accepted, dst := hDev m.handle, handle := m.handle }

/-- Two messages stand in an order that R369 or R370 promises: rinvs of one gang for one cell, rinvhs of one gang, and
messages forwarded to, or delivered behind, one upstream handle. -/
def Msg.inOrder (m x : Msg) : Bool :=
  decide (x.kind = m.kind) && decide (x.src = m.src) && decide (x.dst = m.dst) && (match m.kind with
    | .invoke => if m.dep = 0 then decide (x.dep = 0) && decide (x.gang = m.gang) && decide (x.cell = m.cell)
        else decide (x.dep = m.dep)
    | .dependent => decide (x.gang = m.gang)
    | .forward => decide (x.dep = m.dep)
    | _ => false)

/-- An earlier message of that order is still on its way (R369, R370). -/
def State.earlierInvocation (s : State) (m : Msg) : Bool := s.msgs.any (fun x => m.inOrder x && decide (x.id < m.id))

/-- INVOCATION_ARRIVAL (R375). -/
def execInvocationArrival (msg : Nat) (s : State) : Res :=
  match s.msg msg with
  | none => .next s
  | some m =>
    if m.kind ≠ .invoke || m.dst ≠ s.devid || s.earlierInvocation m then .next s
    else .next ((s.dropMsg msg).acceptInvocation m)

/-- A dependent message goes to its cell on this device, behind those that went before it (R369). -/
def State.deliver (s : State) (m : Msg) : State :=
  let r := s.takeId
  { r.2 with msgs := r.2.msgs ++ [{ m with id := r.1, kind := .invoke, src := s.devid, dst := s.devid, link := none }] }

/-- The state of an upstream handle as its executing device knows it: 0 running, 1 done, 2 broken. It is done once its home,
this device or another, has recorded its result (R364, R369). -/
def State.upstream (s : State) (x : Exec) : Nat :=
  let heard := if x.settled = 3 then 1 else if x.settled = 2 then 2 else 0
  if x.home ≠ s.devid then heard
  else match s.current x.handle with
    | some k => let n := (s.slotAt k).state
      if n ≤ 1 then 0 else n - 1
    | none => heard

/-- A forwarded message at the executing device: delivered when its upstream is done, held while it runs, at most 4,096
held (R369). -/
def State.holdOrDeliver (s : State) (m : Msg) : State :=
  match s.execs.find? (fun x => decide (x.handle = m.dep)) with
  | some x =>
    match s.upstream x with
    | 0 => if 4096 ≤ s.held.length then s.breakHandle m.handle 8 else { s with held := s.held ++ [m] }
    | 1 => s.deliver m
    | _ => s.breakHandle m.handle 7
  | none => s.breakHandle m.handle 7

/-- Forward a dependent message to the executing device of its upstream, behind those forwarded before it (R369, R370). -/
def State.forwardMsg (s : State) (x : HSlot) (m : Msg) : State :=
  let m := { m with kind := .forward, dst := x.dev, tpart := x.epart }
  if x.dev = s.devid then s.holdOrDeliver m
  else
    let r := s.takeId
    r.2.launchMsg { m with id := r.1, src := s.devid }

/-- DEPENDENT_MESSAGE_AT_HOME (R369, R370): by the state of the upstream handle. A forwarded message from another home is
held or delivered. Both in their order. -/
def execDependentMessageAtHome (msg : Nat) (s : State) : Res :=
  match s.msg msg with
  | none => .next s
  | some m =>
    if m.dst ≠ s.devid || s.earlierInvocation m then .next s
    else if m.kind = .forward then .next ((s.dropMsg msg).holdOrDeliver m)
    else if m.kind ≠ .dependent then .next s
    else
      let s := s.dropMsg msg
      match s.known m.part m.dep with
      | none => .next (s.breakHandle m.handle 9)
      | some k =>
        let x := s.slotAt k
        if x.state = 0 then
          (if 64 ≤ x.waitlist.length then .next (s.breakHandle m.handle 8)
          else .next (s.updSlot k (fun x => { x with waitlist := x.waitlist ++ [m] })))
        else if x.state = 3 then .next (s.breakHandle m.handle 7)
        else .next (s.forwardMsg x m)

/-- BIND_REPORT (R364, R369, R376): the handle is bound, and its waiting list goes to the executing device in order. One that
has broken keeps the place of the result slot until it is dropped, and that of one no longer current is free at once. -/
def execBindReport (msg : Nat) (s : State) : Res :=
  match s.msg msg with
  | none => .next s
  | some m =>
    match m.kind with
    | .bindReport dev part rslot =>
      if m.dst ≠ s.devid then .next s
      else
        let s := s.dropMsg msg
        match s.current m.handle with
        | none => .next (if dev = s.devid then s.freeResult m.handle false
            else s.send { Msg.blank with kind := .freeSlot part rslot false, dst := dev, handle := m.handle })
        | some k =>
          let x := s.slotAt k
          if x.state ≠ 0 then .next (s.updSlot k (fun x => { x with dev := dev, epart := part, rslot := rslot }))
          else
            let y := { x with state := 1, dev := dev, epart := part, rslot := rslot, waitlist := [] }
            .next (x.waitlist.foldl (fun s m => s.forwardMsg y m) (s.updSlot k (fun _ => y)))
    | _ => .next s

/-- Held messages of a handle go to their cells, in order (R369). -/
def State.deliverHeld (s : State) (h : DWord) : State :=
  (s.held.filter (fun m => decide (m.dep = h))).foldl (fun s m => s.deliver m)
    { s with held := s.held.filter (fun m => decide (m.dep ≠ h)) }

/-- The executing device knows that home has recorded the result of a handle, and delivers what it holds for it
(R364, R369). -/
def State.resultRecorded (s : State) (h : DWord) : State :=
  (s.updExec h (fun x => { x with settled := 3 })).deliverHeld h

/-- Home tells the device that executed a handle that its result is recorded: itself at once, another by a message
(log entry 115, DEDUCED). -/
def State.tellRecorded (s : State) (h : DWord) (dev : Nat) : State :=
  if dev = s.devid then s.resultRecorded h else s.send { Msg.blank with kind := .recorded, dst := dev, handle := h }

/-- A message that a handle is done or broken may be taken: the report of its binding has come before it (R364). -/
def State.mayPost (s : State) (m : Msg) : Bool :=
  match s.current m.handle with
  | some k => decide ((s.slotAt k).state ≠ 0) || !(m.kind matches .result _)
  | none => true

/-- RESULT_POSTED (R377): home records the result, and the executing device hears of it and delivers held messages; a report of a failure breaks the
handle, or, at the device that executes it, ends the invocation. -/
def execResultPosted (msg : Nat) (s : State) : Res :=
  match s.msg msg with
  | none => .next s
  | some m =>
    if m.dst ≠ s.devid || !s.mayPost m then .next s
    else match m.kind with
      | .result bytes =>
        let s := s.dropMsg msg
        match s.current m.handle with
        | none => .next s
        | some k =>
          let x := s.slotAt k
          if x.state ≠ 1 then .next s
          else
            let s := (s.updSlot k (fun x => { x with state := 2, bytes := bytes })).tellRecorded m.handle x.dev
            .next (if x.dropped then s.freeHandle k m.handle else s)
      | .failReport cause =>
        let s := s.dropMsg msg
        .next (if hDev m.handle = s.devid then s.breakHandle m.handle cause
          else
            let held := s.held.filter (fun x => decide (x.dep = m.handle))
            held.foldl (fun s x => s.breakHandle x.handle 7)
              ({ s with held := s.held.filter (fun x => decide (x.dep ≠ m.handle)) }.updExec m.handle (fun y =>
                { y with settled := if y.settled = 3 then 3 else 2 })))
      | _ => .next s

/-- INVOCATION_FABRIC_TIMEOUT (R378, cause 10): a message to another device that was not accepted in time, as the home of its
handle has it. -/
def execInvocationFabricTimeout (msg : Nat) (s : State) : Res :=
  match s.msg msg with
  | none => .next s
  | some m =>
    if (m.kind = .invoke || m.kind = .dependent || m.kind = .forward) && decide (m.dst ≠ s.devid) &&
        (match s.current m.handle with
          | some k => !(s.slotAt k).accepted
          | none => false) then
      .next ((s.dropMsg msg).breakHandle m.handle 10)
    else .next s

/-! ### Waiting and results (R371 to R373) -/

/-- The acquire of a status of 1 (R371): dev scope when the result was posted on this device, dom scope otherwise. -/
def State.observeResult (s : State) (core dev : Nat) : State := s.acquireActs core (if dev = s.devid then 4 else 5)

/-- A question to the far home of a handle: the PC-group waits for the answer, and issues again with it (R371, R373)
(log entry 94, DEDUCED). -/
def State.askHome (s : State) (h : DWord) (what : Nat) : Res :=
  let id := s.nextId
  stallOn (.answers [id]) (s.takeId.2.send { Msg.blank with
    kind := .ask what, dst := hDev h, part := s.wg.part, pasid := s.wg.pasid, handle := h, gang := s.cur, opid := id, reg := 0xF0 })

/-- The answer to a question of the instruction in issue. -/
def Gang.poll (g : Gang) (h : DWord) (what : Nat) : Option Nat :=
  (g.polls.find? (fun p => decide (p.1 = h) && decide (p.2.1 = what))).map (fun p => p.2.2)

/-- The answers have been used. -/
def Gang.usePoll (g : Gang) (h : DWord) : Gang := { g with polls := g.polls.filter (fun p => decide (p.1 ≠ h)) }

/-- rwait and rpoll (R371): they read the state at home, which another device answers. -/
def statusInstr (wait : Bool) (d a : Code) (s : State) : Res :=
  guardOps s (fixedOps [.sw 32 d, .so 64 a]) (fun s => heldOr 64 s (
    let g := s.gang
    let h := s.sarg64 a
    let done := fun (s : State) (x : Nat) =>
      let s := if x % 256 = 1 then s.observeResult g.core (x / 2 ^ 32) else s
      finishWith s (fun g => (g.usePoll h).putSAll d (BitVec.ofNat 32 x))
    if handleBad h then trapNow (rMisuse 1) s
    else if s.farHandle h then match g.poll h 0 with
      | none => s.askHome h 0
      | some x => if wait && decide (x % 2 ^ 32 = 0) then (s.updGang (fun g => g.usePoll h)).askHome h 0 else done s x
    else
      let x := s.statusAnswer s.wg.part h
      if wait && decide (x % 2 ^ 32 = 0) then stallOn (.handle h) s else done s x))

/-- rwait (R371). -/
def execRwait (d a : Code) (s : State) : Res := statusInstr true d a s
/-- rpoll (R371). -/
def execRpoll (d a : Code) (s : State) : Res := statusInstr false d a s

/-- The issue of an rget (R372): the request waits outside the gang. -/
def State.postRget (s : State) (h : DWord) (barn : Bool) (dest : Nat) (regs : List Nat) : Res :=
  let g := s.gang
  if 63 ≤ g.counter 5 then stallOn (.path 5 62) s
  else
    let id := s.nextId
    let s := s.takeId.2.send { Msg.blank with
      kind := .rget id, dst := if s.farHandle h then hDev h else s.devid, part := s.wg.part, pasid := s.wg.pasid, handle := h, gang := s.cur, opid := id,
      reg := dest, data := toNat01 barn, addr := s.ir.toNat, opc := g.pcNow.setWidth 64 }
    let waits : List PendReg := regs.map (fun r => { id := id, reg := r, lanes := 0xFFFFFFFF })
    .next (s.updGang (fun g => { g.raise 5 id false with pend := g.pend ++ waits }.advance))

/-- rget to registers (R372). -/
def execRget (a b : Code) (s : State) : Res :=
  guardOps s (fixedOps [.so 64 a, .vg 32 1 false true false b]) (fun s => heldOr 32 s (
    if handleBad (s.sarg64 a) then trapNow (rMisuse 1) s
    else s.postRget (s.sarg64 a) false b.toNat ((List.range 32).map (b.toNat + ·))))

/-- rget to the Barn (R372). -/
def execRgetBarn (a b : Code) (s : State) : Res :=
  guardOps s (fixedOps [.so 64 a, .so 32 b]) (fun s => engineOr 32 s (
    let loc := (s.sarg b).toNat
    if loc % 4 ≠ 0 then trapNow (rMisuse 0) s
    else if handleBad (s.sarg64 a) then trapNow (rMisuse 1) s
    else s.postRget (s.sarg64 a) true loc []))

/-- The rget of a message completes: its waiting registers are free and its RM count falls. -/
def State.endRget (s : State) (m : Msg) : State :=
  s.updGangAt m.gang (fun g => { g.complete m.opid with pend := g.pend.filter (fun p => decide (p.id ≠ m.opid)) })

/-- An rget completes failed (R372, 16 R387). -/
def State.failRget (s : State) (m : Msg) (sub state : Nat) : State :=
  (s.updGangAt m.gang (fun g =>
    let r : Report := { id := m.opid, path := 5, seq := g.seqOf 5 m.opid, marks := [], relScope := none,
                        record := { cause := 0x1B, sub := sub, aux := BitVec.ofNat 32 state, opc := m.opc, handle := m.handle } }
    { g with reports := insertReport r g.reports })).endRget m

/-- The bytes of a result slot of a partition of this device; the access tables do not check this read (R376). -/
def State.slotBytes (s : State) (part slot n : Nat) : List Byte := s.readHomeList ((s.partAt part).pool.1 + 4096 * slot) n

/-- The bytes of the result that this device holds for a handle, whatever its home, if it holds one (R376). -/
def State.heldResult (s : State) (h : DWord) : Option (List Byte) :=
  (s.execs.find? (fun x => decide (x.handle = h) && decide (x.settled ≠ 0))).bind (fun x =>
    x.bound.map (fun b => s.slotBytes x.part b.2 x.bytes))

/-- The result in the registers of an rget (R372). -/
def Gang.putResult (g : Gang) (reg : Nat) (bs : List Byte) : Gang :=
  (List.range (ceilDiv bs.length 128)).foldl (fun g r =>
    g.writeLanes (reg + r) (fun _ => true) (fun l => BitVec.ofNat 32 (ofBytesLE ((bs.drop (128 * r + 4 * l)).take 4)))) g

/-- An rget has its result: the status word, the device that holds it, and its bytes (R372). -/
def State.endsRget (s : State) (m : Msg) (st dev : Nat) (bs : List Byte) : State :=
  let g := s.gangAt m.gang
  if !g.live then s
  else if st % 256 = 1 then
    let s := s.observeResult g.core dev
    if m.data = 0 then (s.updGangAt m.gang (fun g => g.putResult m.reg bs)).endRget m
    else if ((s.wgAt g.wid).rangeFault m.reg bs.length 4 0).isSome then s.failRget m 0 1
    else match (s.wgAt g.wid).barnLoc g.core m.reg with
      | .barn c t o => (s.tileBankWrite c t o bs).endRget m
      | .glob _ => s
  else s.failRget m (if st % 256 = 2 then st / 256 else 0) (st % 256)

/-- An rget has the status of a done handle whose result another device than its home holds: it reads the slot where it
stands (R372, R376) (log entry 94, DEDUCED). -/
def State.fetchResult (s : State) (m : Msg) (st dev : Nat) : State :=
  if dev = s.devid then s.endsRget m st dev ((s.heldResult m.handle).getD [])
  else s.send { m with dst := dev }

/-- The answer of this device to an rget of another: as the handle's home, its status, the device of the result, and the bytes
if it holds them; as the device that holds the result for another home, the bytes (R372, R376). -/
def State.answerRget (s : State) (m : Msg) : State :=
  let reply := fun data bs => s.send { Msg.blank with kind := .completion 0, dst := m.src, opid := m.opid, data := data, block := bs }
  if hDev m.handle = s.devid then
    let st := (s.handleStatus m.part m.handle).toNat
    let x := s.slotAt (hSlot m.handle)
    reply (st + x.dev * 2 ^ 32) (if st % 256 = 1 && x.dev = s.devid then s.slotBytes x.epart x.rslot x.bytes else [])
  else match s.heldResult m.handle with
    | some bs => reply (1 + bs.length * 2 ^ 16 + s.devid * 2 ^ 32) bs
    | none => reply (3 + s.devid * 2 ^ 32) []

/-- RGET_RESULT_ARRIVAL (R372): the handle is no longer pending or bound; the answer goes to the gang, or to the device that
asks. -/
def execRgetResultArrival (msg : Nat) (s : State) : Res :=
  match s.msg msg with
  | none => .next s
  | some m =>
    match m.kind with
    | .rget _ =>
      let st := (s.handleStatus m.part m.handle).toNat
      if st = 0 || m.dst ≠ s.devid then .next s
      else
        let s := s.dropMsg msg
        let x := s.slotAt (hSlot m.handle)
        .next (if m.src ≠ s.devid then s.answerRget m
          else if st % 256 ≠ 1 then s.endsRget m st x.dev []
          else if x.dev = s.devid then s.endsRget m st x.dev (s.slotBytes x.epart x.rslot x.bytes)
          else s.fetchResult m st x.dev)
    | _ => .next s

/-- A handle of this device is dropped for a partition (R373). -/
def State.dropHandle (s : State) (part : Nat) (h : DWord) : State :=
  match s.known part h with
  | none => s
  | some k => if 2 ≤ (s.slotAt k).state then s.freeHandle k h else s.updSlot k (fun x => { x with dropped := true })

/-- rdrop (R373): at the handle's home, which another device acknowledges (log entry 94, DEDUCED). -/
def execRdrop (a : Code) (s : State) : Res :=
  guardOps s (fixedOps [.so 64 a]) (fun s => heldOr 64 s (
    let h := s.sarg64 a
    if handleBad h then trapNow (rMisuse 1) s
    else if s.farHandle h then match s.gang.poll h 1 with
      | none => s.askHome h 1
      | some _ => finishWith s (fun g => g.usePoll h)
    else .next (s.dropHandle s.wg.part h).advance))

/-- The home of a handle answers another device (R371, R373). -/
def State.answerHome (s : State) (m : Msg) (what : Nat) : State :=
  let s := s.dropMsg m.id
  let a := if what = 0 then s.statusAnswer m.part m.handle else 0
  let s := if what = 1 then s.dropHandle m.part m.handle else s
  s.send { Msg.blank with kind := .completion 0, dst := m.src, opid := m.opid, data := a }

/-- A far home has answered: the gang keeps the answer for its instruction. -/
def State.homeAnswered (s : State) (m : Msg) (what data : Nat) : State :=
  (s.dropMsg m.id).updGangAt m.gang (fun g => if g.live then { g with polls := g.polls ++ [(m.handle, what, data)] } else g)

/-! ### The service side (R374 to R377) -/

/-- An inbox entry is finished: its state byte, and head past the finished entries (R377). -/
def finishHead (bind : Word) : Nat → Word → List Word → Word × List Word
  | 0, h, f => (h, f)
  | n + 1, h, f => if h ≠ bind && f.contains h then finishHead bind n (h + 1) (f.filter (fun x => decide (x ≠ h))) else (h, f)

/-- Finish an entry of an inbox. -/
def State.finishEntry (s : State) (x : Exec) : State :=
  let c := s.cellAt x.cell
  let s := (s.dirWrite x.part 4 c.pasid ((c.entryAt x.idx + 0x13) % 2 ^ 64) [0]).1
  let r := finishHead c.bind (c.fin.length + 1) c.head (BitVec.ofNat 32 x.idx :: c.fin)
  s.setCell x.cell { s.cellAt x.cell with head := r.1, fin := r.2 }

/-- An invocation ends broken on the executing side (R377, R378): its entry is finished when it was bound. -/
def State.breakExec (s : State) (x : Exec) (cause : Nat) : State :=
  let s := if x.bound.isSome then s.finishEntry x else s
  (s.updExec x.handle (fun y => { y with settled := 2 })).breakHandle x.handle cause

/-- The cell operand of rbind and tcarm: its index, or sub-cause 0. -/
def cellArg (s : State) (a : Code) : Except TrapReq Nat :=
  let x := (s.sarg a).toNat
  if 16384 ≤ x then .error (rMisuse 0) else .ok x

/-- rbind (R376) (log entry 53, DEDUCED). -/
def execRbind (a b : Code) (s : State) : Res :=
  guardOps s (fixedOps [.so 32 a, .so 128 b]) (fun s => heldOr 64 s (
    let g := s.gang
    let part := s.wg.part
    let quad := fun (f : Nat → Nat) (g : Gang) => (List.range 4).foldl (fun g i =>
      g.writeSlices (b.toNat + i) g.issuing (fun _ => BitVec.ofNat 32 (f i))) g
    match cellArg s a with
    | .error t => trapNow t s
    | .ok k =>
      let c := s.cellAt k
      if c.owner ≠ some part || !bit c.flags.toNat 2 then trapNow (rMisuse 3) s
      else if c.bind = c.tail then finishWith s (quad (fun _ => 0))
      else
        let p := s.partAt part
        match findBelow (fun i => !p.poolUsed.contains i) p.pool.2,
            s.execs.find? (fun x => decide (x.cell = k) && decide (x.idx = c.bind.toNat) && x.bound.isNone) with
        | some n, some x =>
          let e := c.entryAt c.bind.toNat
          let s := (s.dirWrite part 4 c.pasid ((e + 0x13) % 2 ^ 64) [2]).1
          let s := s.setCell k { s.cellAt k with bind := c.bind + 1 }
          let s := s.updPart part (fun p => { p with poolUsed := n :: p.poolUsed })
          let s := s.updExec x.handle (fun y => { y with bound := some (g.wid, n) })
          let s := s.send { Msg.blank with kind := .bindReport s.devid part n, dst := x.home, handle := x.handle, part := part }
          let s := s.acquireActs g.core (if x.home = s.devid then 4 else 5)
          finishWith s (quad (fun i => if i < 2 then field x.handle.toNat (32 * i) 32 else field e (32 * (i - 2)) 32))
        | _, _ => finishWith s (quad (fun i => if i = 2 then 1 else 0))))

/-- The invocation that the issuing workgroup has bound and not ended (log entry 53, DEDUCED). -/
def State.ownExec (s : State) (h : DWord) : Option Exec :=
  s.execs.find? (fun x => decide (x.handle = h) && (decide (x.settled = 0) || decide (x.settled = 2)) &&
    (match x.bound with
      | some (w, _) => decide (w = s.gang.wid)
      | none => false))

/-- The common part of rput and rfail: the checks on the handle, the release at dom scope, and the end (R377). -/
def endInvocation (h : DWord) (body : Exec → State → Res) (s : State) : Res :=
  if handleBad h then trapNow (rMisuse 1) s
  else match s.ownExec h with
    | none => trapNow (rMisuse 2) s
    | some x =>
      if x.settled = 2 then .next s.advance else withRelease s 5 (body x)

/-- rput (R377) (log entry 48, DEDUCED). -/
def execRput (a b : Code) (s : State) : Res :=
  guardOps s (fixedOps [.so 64 a, .so 64 b]) (fun s => heldOr 64 s (
    let loc := (s.sarg64 b).toNat % 2 ^ 32
    let n := (s.sarg64 b).toNat / 2 ^ 32
    match s.wg.rangeFault loc n 1 0 with
    | some t => trapNow t s
    | none =>
      if 4096 < n || n % 4 ≠ 0 || loc % 4 ≠ 0 then trapNow (rMisuse 0) s
      else endInvocation (s.sarg64 a) (fun x s =>
        let bs := s.barnBlock loc n
        let slot := ((x.bound.map (·.2)).getD 0)
        let s := s.writeWide s.gang.core ((s.partAt x.part).pool.1 + 4096 * slot) n (fun i => bs.getD i 0)
        let s := (s.updExec x.handle (fun y => { y with settled := 1, bytes := n })).finishEntry x
        .next (s.send { Msg.blank with kind := .result n, dst := x.home, handle := x.handle, part := x.part }).advance) s))

/-- rfail (R377). -/
def execRfail (a b : Code) (s : State) : Res :=
  guardOps s (fixedOps [.so 64 a, .so 32 b]) (fun s => heldOr 64 s (
    let c := (s.sarg b).toNat
    if c < 64 || 256 ≤ c then trapNow (rMisuse 0) s
    else endInvocation (s.sarg64 a) (fun x s => .next (s.breakExec x c).advance) s))

/-! ### tcarm and tcadd (R382, R383) -/

/-- tcarm (R382) (log entry 48, DEDUCED). -/
def execTcarm (a b : Code) (s : State) : Res :=
  guardOps s (fixedOps [.so 32 a, .so 32 b]) (fun s => heldOr 64 s (
    let w := s.wg
    let loc := (s.sarg b).toNat
    match w.rangeFault loc 64 1 0 with
    | some t => trapNow t s
    | none => if loc % 64 ≠ 0 then trapNow (rMisuse 0) s else
      let blk := s.barnBlock loc 64
      match cellArg s a with
      | .error t => trapNow t s
      | .ok k =>
        if !cellBlockOk blk then trapNow (rMisuse 0) s
        else if !(s.cellAt k).armable w.part then trapNow (rMisuse 3) s
        else withRelease s 4 (fun s => .next (s.armCell k blk w.pasid w.part).advance)))

/-- tcadd (R383) (log entry 54, DEDUCED). -/
def execTcadd (a b : Code) (s : State) : Res :=
  guardOps s (fixedOps [.so 32 a, .so 32 b]) (fun s => heldOr 64 s (
    let w := s.wg
    let x := (s.sarg a).toNat
    let y := (s.sarg b).toNat
    let dev := x / 2 ^ 14
    let sc := if dev = s.devid then 4 else 5
    if 2304 ≤ dev || y % 65536 = 0 then trapNow (rMisuse 0) s
    else if dev = s.devid && decide ((s.cellAt (x % 16384)).owner ≠ some w.part) then trapNow (rMisuse 3) s
    else withRelease s sc (fun s => .next (s.send { Msg.blank with
      kind := .cellAdd (x % 16384) (y % 65536) (y / 65536), dst := dev, part := w.part, pasid := w.pasid,
      cell := x % 16384, gang := s.cur }).advance)))

/-- An entry of the inbound fault log, or a count of those lost (09 R254, 16 R405). The first entry has the number 0
(log entry 101, DESIGN CHOICE). -/
def State.inflog (s : State) (addr src cause kind pasid : Nat) : State :=
  let r := s.sys
  if !r.inflogSet || decide ((r.inflogTail - r.inflogHead).toNat = 1024) then
    { s with sys := { r with inflogLost := r.inflogLost + 1 } }
  else
    let x := addr % 2 ^ 64 + src % 4096 * 2 ^ 64 + cause * 2 ^ 80 + kind * 2 ^ 88 + pasid % 2 ^ 20 * 2 ^ 96 +
      s.clock.toNat * 2 ^ 128 + r.inflogSeq % 2 ^ 32 * 2 ^ 192
    let s := s.writeHomeNum (r.inflogBase.toNat + 32 * (r.inflogTail.toNat % 1024)) 32 x
    { s with sys := { s.sys with inflogTail := r.inflogTail + 1, inflogSeq := r.inflogSeq + 1 } }

/-- A refused or dropped cell operation of another device is logged (R383). -/
def State.cellDrop (s : State) (m : Msg) : State := if m.src = s.devid then s else s.inflog m.cell m.src 1 3 m.pasid

end Sys2Proof.Machine
end

