-- ==== Sys2Proof/Machine/Mirror.lean ====
section
/-! DEFINITION. Invalidations of translations (09 R250, R251; 07 R186, R202), and the pages that the firmware of the
devices keeps as mirrors: splitting and collapsing (09 R247 to R249). -/

namespace Sys2Proof.Machine

/-! ### Invalidations (09 R250, R251) -/

/-- What an invalidation covers: a PASID or every one, and a virtual range. -/
structure Cover where
  pasid : Option Nat
  lo : Nat
  hi : Nat
deriving DecidableEq, Repr

/-- A page of a PASID is covered. -/
def Cover.page (c : Cover) (pasid va size : Nat) : Bool :=
  (match c.pasid with
    | some p => decide (p = pasid)
    | none => true) && decide (va < c.hi) && decide (c.lo < va + size)

/-- A TLB entry is covered. -/
def Cover.entry (c : Cover) (e : TlbEntry) : Bool := c.page e.pasid (e.vpn * 2 ^ e.bits) (2 ^ e.bits)

/-- The W = 0 lines of a core's L1 leave it (07 R202). Lines of other pages may leave as well: an L1 may drop any line
(log entry 57, DEDUCED). -/
def State.dropReadOnly (s : State) (core : Nat) : State :=
  (s.l1Lines core).foldl (fun s l => match s.l1Line core l with
    | some x => if x.leafW then s else s.flushLine core l
    | none => s) s

/-- A watch on a covered page wakes with code 2, wherever its line is home (07 R186). -/
def State.wakeCovered (s : State) (c : Cover) : State :=
  s.liveGangs.foldl (fun s k =>
    let g := s.gangAt k
    match g.watch.armed with
    | some (_, v) =>
      if c.page (s.wgAt g.wid).pasid (v * 128) 128 then
        (s.dropWatches k).updGangAt k (fun g => { g with watch := { g.watch with armed := none, invalid := true } })
      else s
    | none => s) s

/-- A walk cache's table is covered: some address below it is. -/
def Cover.table (c : Cover) (e : WalkEntry) : Bool :=
  c.page e.pasid (e.prefix_ * 2 ^ prefixBit e.level) (2 ^ prefixBit e.level)

/-- The TLB entries of the device that an invalidation removes. -/
def State.coveredEntries (s : State) (c : Cover) : List TlbEntry :=
  ((s.cores.map (fun e => e.2.tlb)).flatten ++ (s.clusters.map (fun e => e.2.tlb.map (·.2))).flatten ++
    (s.ioTlb.map (·.2)).flatten).filter c.entry

/-- The entries go: TLBs, walk caches and the I/O dies' caches, the W = 0 lines, and the watches. -/
def State.invalidate (s : State) (c : Cover) : State :=
  let s : State := { s with
    cores := s.cores.map (fun (e : Nat × Core) => (e.1, { e.2 with tlb := e.2.tlb.filter (fun t => !c.entry t) }))
    clusters := s.clusters.map (fun (e : Nat × Cluster) => (e.1, { e.2 with
      tlb := e.2.tlb.filter (fun t => !c.entry t.2)
      walkCache := e.2.walkCache.filter (fun t => !c.table t) }))
    ioTlb := s.ioTlb.map (fun (e : Nat × List TlbEntry) => (e.1, e.2.filter (fun t => !c.entry t))) }
  let s := s.cores.foldl (fun s e => s.dropReadOnly e.1) s
  s.wakeCovered c

/-- An address lies in a page that one of the entries maps for a PASID. -/
def usedBy (es : List TlbEntry) (pasid pa : Nat) : Bool :=
  es.any (fun e => decide (e.pasid = pasid) && decide (e.base ≤ pa) && decide (pa < e.base + 2 ^ e.bits))

/-- The domain physical address of a place in memory. -/
def State.targetPa (s : State) : Target → Option Nat
  | .mem a _ => some (s.devid * 2 ^ 40 + a)
  | .remote pa _ => some pa
  | _ => none

/-- The late operations of a gang that perform at a page of one of the entries. -/
def State.lateUsing (s : State) (es : List TlbEntry) (k : Nat) : List (Nat × Nat) :=
  let g := s.gangAt k
  (g.late.filter (fun o => o.lanes.any (fun x => (s.targetPa x.target).any (usedBy es (s.wgAt g.wid).pasid)))).map
    (fun o => (k, o.id))

/-- A message is a write of a row or receiver of which bytes are held on a page of one of the entries (11 R293). -/
def State.heldUsing (s : State) (es : List TlbEntry) (m : Msg) : Bool :=
  decide (m.gang = noGang) && decide (m.reg = 0xFF) && s.cores.any (fun k => k.2.gleaner.any (fun c => decide (c.id = m.opid) &&
    c.held.any (fun h => decide (h.1 = m.lane) && usedBy es c.pasid (s.devid * 2 ^ 40 + h.2.1))))

/-- An invalidation starts under a number: it has completed once what used a removed entry has performed (R250)
(log entry 57, DEDUCED). -/
def State.startInval (s : State) (gang id : Nat) (c : Cover) : State :=
  let es := s.coveredEntries c
  let v : Inval := { gang := gang, id := id
                     msgs := (s.msgs.filter (fun m => decide (m.src = s.devid) && m.kind.isAccess &&
                       (usedBy es m.pasid m.addr || s.heldUsing es m))).map (·.id)
                     late := (s.liveGangs.map (s.lateUsing es)).flatten }
  let s := s.invalidate c
  { s with invals := s.invals ++ [v] }

/-- Every access that used a removed entry has performed. -/
def State.invalDone (s : State) (v : Inval) : Bool :=
  v.msgs.all (fun i => !s.msgs.any (fun m => decide (m.id = i))) &&
  v.late.all (fun e => !(s.gangAt e.1).late.any (fun o => decide (o.id = e.2)))

/-! ### Answers to a fault -/

/-- The entry has been answered. -/
def State.closeEntry (s : State) (die entry : Nat) : State :=
  s.updDie die (fun d => { d with opened := d.opened.filter (fun a => decide (a.entry ≠ entry)) })

/-- The parked agent of an entry is retried (R406, outcome 0). -/
def State.retryAgent (s : State) (a : TfqAgent) : State :=
  if a.kind = 1 then s.updCmd a.key a.ident (fun c => { c with retried := true })
  else if a.kind = 2 then
    s.updCluster a.key (fun c => { c with table := c.table.map (fun e => if e.id = a.ident then { e with parked := false } else e) })
  else s.updGangAt a.key (fun g => { g with trap := { g.trap with parked := false } })

/-! ### Mirror pages (09 R247 to R249) -/

/-- Address of a mirror descriptor (R247). -/
def State.mirrorAddr (s : State) (index : Nat) : Nat := s.sys.mirrorBase.toNat + 64 * index

/-- The copies of a descriptor: device and local base (R247). -/
def State.mirrorCopies (s : State) (index : Nat) : List (Nat × Nat) :=
  let a := s.mirrorAddr index
  (List.range (min 4 (s.readHome a 1))).map (fun i =>
    let c := s.readHome (a + 8 + 8 * i) 8
    (field c 40 12, field c 16 24 * 65536))

/-- The 64 bytes of a live descriptor of copies. -/
def mirrorBytes (copies : List (Nat × Nat)) : List Byte :=
  (bytesLE 1 copies.length ++ bytesLE 7 0 ++ (copies.map (fun (c : Nat × Nat) => bytesLE 8 (c.1 * 2 ^ 40 + c.2))).flatten ++
    List.replicate 64 0).take 64

/-- The part of every copy at an offset. -/
def copyParts (copies : List (Nat × Nat)) (off : Nat) : List (Nat × Nat) := copies.map (fun c => (c.1, c.2 + off))

/-- Split a mirror leaf: a table of smaller mirror leaves, whose new descriptors list the matching part of every copy, in a
place that the firmware chooses; the leaf becomes a pointer to it (R249) (log entry 95, DESIGN CHOICE). -/
def State.splitLeaf (s : State) (l : Leaf) (first : Nat) : State :=
  let sub := if l.bits = 30 then 21 else 16
  let n := 2 ^ (l.bits - sub)
  let t := Config.freeChoice (localLimit / 4096) s.fresh * 4096
  let copies := s.mirrorCopies (field l.entry 16 24)
  let s := { s with fresh := s.fresh + 1 }
  let s := (List.range n).foldl (fun s k =>
    s.writeHomeList (s.mirrorAddr (first + k)) (mirrorBytes (copyParts copies (k * 2 ^ sub)))) s
  let s := s.writeHomeList t (((List.range n).map (fun k =>
    bytesLE 8 (field l.entry 0 6 + (first + k) * 2 ^ 16))).flatten)
  s.writeHomeNum l.addr 8 (s.devid * 2 ^ 40 + t + 1)

/-- The invalidation of the page of a leaf, under a number of the firmware's own (R250). -/
def State.invalidatePage (s : State) (pasid va bits : Nat) : State × List Nat :=
  let r := s.takeId
  (r.2.startInval noGang r.1 { pasid := some pasid, lo := va / 2 ^ bits * 2 ^ bits, hi := va / 2 ^ bits * 2 ^ bits + 2 ^ bits }, [r.1])

/-- One step for a mirror page on this device: the state, the answer of a claim, and the invalidation that must complete
before the step is reported (R248, R249). -/
def State.mirrorAct (s : State) (st : MirrorStep) (pasid va index : Nat) : State × Nat × List Nat :=
  match st with
  | .split first => (match s.walk pasid va with
      | .ok l =>
        if bit l.entry 5 && decide (16 < l.bits) then
          let r := (s.splitLeaf l first).invalidatePage pasid va l.bits
          (r.1, 0, r.2)
        else (s, 0, [])
      | .error _ => (s, 0, []))
  | .claim =>
    let x := s.readHome (s.mirrorAddr index + 1) 1
    (if x = 0 then s.writeHomeNum (s.mirrorAddr index + 1) 1 1 else s, x, [])
  | .leaf owner => (match s.walk pasid va with
      | .ok l =>
        if bit l.entry 5 && decide (field l.entry 16 24 = index) then
          let r := (s.writeHomeNum l.addr 8 (field l.entry 0 5 + owner)).invalidatePage pasid va l.bits
          (r.1, 0, r.2)
        else (s, 0, [])
      | .error _ => (s, 0, []))
  | .finish => (s.writeHomeNum (s.mirrorAddr index + 1) 1 2, 0, [])

/-- Change a job. -/
def State.updMirror (s : State) (id : Nat) (f : MirrorJob → MirrorJob) : State :=
  { s with mirrors := s.mirrors.map (fun j => if j.id = id then f j else j) }

/-- A step of a job on one device: here, or asked of that device's firmware (R248). -/
def State.mirrorOn (s : State) (j : MirrorJob) (index : Nat) (st : MirrorStep) (dev : Nat) : State :=
  if dev = s.devid then
    let r := s.mirrorAct st j.pasid j.va index
    r.1.updMirror j.id (fun x => { x with waits := x.waits ++ r.2.2, answer := if st matches .claim then r.2.1 else x.answer })
  else
    let m := { Msg.blank with kind := .mirror st index, dst := dev, pasid := j.pasid, addr := j.va, gang := noGang, opid := j.id }
    (s.send m).updMirror j.id (fun x => { x with waits := x.waits ++ [s.nextId] })

/-- A step on this device and on every one that the descriptor lists (log entry 103, DEDUCED). -/
def State.mirrorEverywhere (s : State) (j : MirrorJob) (index : Nat) (st : MirrorStep) : State :=
  (s.devid :: (s.mirrorCopies index).map (·.1)).eraseDups.foldl (fun s d => s.mirrorOn j index st d) s

/-- The page that owns a collapsed mirror: the copy on this device, otherwise copy 0 (R248), as a leaf's device and frame. -/
def State.mirrorOwner (s : State) (index : Nat) : Nat :=
  let cs := s.mirrorCopies index
  match cs.find? (fun c => decide (c.1 = s.devid)), cs with
  | some c, _ => c.1 * 2 ^ 40 + c.2
  | none, c :: _ => c.1 * 2 ^ 40 + c.2
  | none, [] => 0

/-- The job is over: the agent is retried, if its entry is still open (R248). -/
def State.endMirror (s : State) (j : MirrorJob) : State :=
  let s := { s with mirrors := s.mirrors.filter (fun x => decide (x.id ≠ j.id)) }
  match j.fault with
  | none => s
  | some (die, entry) => (match (s.dieAt die).opened.find? (fun a => decide (a.entry = entry) && decide (a.mirror = some j.id)) with
      | some a => (s.closeEntry die entry).retryAgent a
      | none => s)

/-- The firmware judges a mirror write: a large page is split first, but a 2 MiB page whose WH is 3; then the claim
(R248, R249). A page that is no mirror any more is retried. -/
def State.judgeMirror (s : State) (j : MirrorJob) : State :=
  match s.walk j.pasid j.va with
  | .error _ => s.endMirror j
  | .ok l =>
    let index := field l.entry 16 24
    match bit l.entry 5, s.mirrorCopies index with
    | true, c :: _ =>
      if 16 < l.bits && !(decide (l.bits = 21) && decide (field l.entry 10 2 = 3)) then
        let first := Config.freeChoice (2 ^ 24 - 512) s.fresh
        ({ s with fresh := s.fresh + 1 }).mirrorEverywhere j index (.split first)
      else (s.updMirror j.id (fun x => { x with phase := 1, index := index })).mirrorOn j index .claim c.1
    | _, _ => s.endMirror j

/-- The next step of a job that waits for nothing (R248): the leaves once the claim is made, state 2 once every device has
invalidated, then the retry; while another device collapses the page, the state is asked for again. -/
def State.mirrorStep (s : State) (j : MirrorJob) : State :=
  match j.phase with
  | 0 => s.judgeMirror j
  | 1 =>
    if j.answer = 0 then (s.updMirror j.id (fun x => { x with phase := 2 })).mirrorEverywhere j j.index (.leaf (s.mirrorOwner j.index))
    else if j.answer = 2 then s.endMirror j
    else (match s.mirrorCopies j.index with
      | c :: _ => s.mirrorOn j j.index .claim c.1
      | [] => s.endMirror j)
  | 2 => (s.updMirror j.id (fun x => { x with phase := 3 })).mirrorEverywhere j j.index .finish
  | _ => s.endMirror j

/-- A job has a step to take. One whose page another device collapses, with copy 0 here, waits for state 2. -/
def State.mirrorDue (s : State) (j : MirrorJob) : Bool :=
  j.fault.isSome && j.waits.isEmpty &&
  !(decide (j.phase = 1) && decide (j.answer = 1) && ((s.mirrorCopies j.index).head?.any (fun c => decide (c.1 = s.devid))) &&
    decide (s.readHome (s.mirrorAddr j.index + 1) 1 = 1))

/-- What a job waited for has come, with an answer; a step for another device is reported to it. -/
def State.mirrorHeard (s : State) (id answer : Nat) : State :=
  let s := { s with mirrors := s.mirrors.map (fun (j : MirrorJob) =>
    if j.waits.contains id then { j with
      waits := j.waits.filter (fun i => decide (i ≠ id))
      answer := if j.phase = 1 then answer else j.answer } else j) }
  let due := s.mirrors.filter (fun j => j.fault.isNone && j.waits.isEmpty)
  let s := { s with mirrors := s.mirrors.filter (fun j => !(j.fault.isNone && j.waits.isEmpty)) }
  due.foldl (fun s j => s.send { Msg.blank with kind := .completion 0, dst := j.asker.1, opid := j.asker.2 }) s

/-- The firmware of another device asks for a step: it is reported when its invalidation has completed, a claim with the
state that was found (R248). -/
def State.answerMirror (s : State) (m : Msg) (st : MirrorStep) (index tag : Nat) : State :=
  let r := s.mirrorAct st m.pasid m.addr index
  let j : MirrorJob := { id := r.1.nextId, fault := none, asker := (m.src, tag), pasid := m.pasid, va := m.addr, phase := 0
                         index := index, waits := r.2.2, answer := 0 }
  if r.2.2.isEmpty then r.1.send { Msg.blank with kind := .completion r.2.1, dst := m.src, opid := tag }
  else { r.1 with nextId := r.1.nextId + 1, mirrors := r.1.mirrors ++ [j] }

/-- The firmware takes up a mirror write of a PASID (R244). -/
def State.addMirror (s : State) (fault : Nat × Nat) (pasid va : Nat) : State :=
  { s with nextId := s.nextId + 1, mirrors := s.mirrors ++ [{ id := s.nextId, fault := some fault, asker := (0, 0), pasid := pasid
                                                              va := va, phase := 0, index := 0, waits := [], answer := 0 }] }

/-- The firmware takes up the mirror write of an open entry. -/
def State.startMirror (s : State) (die : Nat) (a : TfqAgent) : State :=
  (s.addMirror (die, a.entry) (ofBytesLE ((a.bytes.drop 4).take 4)) (ofBytesLE ((a.bytes.drop 0x10).take 8))).updDie die (fun d => { d with
    opened := d.opened.map (fun (x : TfqAgent) => if x.entry = a.entry then { x with mirror := some s.nextId } else x) })

end Sys2Proof.Machine
end

