-- ==== Sys2Proof/Machine/System.lean ====
section
/-! DEFINITION. Traps and system instructions: trap, tvec, tret, tdone, system registers and their privilege, TLB
maintenance, firmware calls, the answers to translation faults, posts of pre-emption, page walks and the heat sweeper
(16 R393 to R408; 09 R237 to R251). -/

namespace Sys2Proof.Machine

/-! ### Trap instructions (16 R393 to R396) -/

/-- trap (R394). -/
def execTrap (c : BitVec 16) (s : State) : Res := trapNow { cause := 0x1C, aux := c.setWidth 32 } s

/-- tvec (R393). -/
def execTvec (l : BitVec 1) (a b : Code) (s : State) : Res :=
  guardOps s (fixedOps [.sr 64 a, .sr 64 b]) (fun s =>
    let pc := s.sarg64 a
    let f := (s.sarg64 b).toNat
    if !canonical pc.toNat || pc.toNat % 4 ≠ 0 || !addrOk f 2048 then trapNow { cause := 0x1D, sub := 3 } s
    else finishWith s (fun g => { g with trap := { g.trap with
      hpc1 := if l = 0 then pc else g.trap.hpc1
      hpc2 := if l = 0 then g.trap.hpc2 else pc
      frame := s.sarg64 b } }))

/-- tret, resume (R395). -/
def execTret (s : State) : Res := s.trapReturn false
/-- tret, skip (R395). -/
def execTretSkip (s : State) : Res := s.trapReturn true

/-- tdone (R396): the workgroup ends with reason 3 and the trap record of its frame (log entry 55, DEDUCED). -/
def execTdone (a : Code) (s : State) : Res :=
  guardOps s (fixedOps [.sr 32 a]) (fun s =>
    let g := s.gang
    let w := s.wg
    if g.trap.level = 0 then trapNow { cause := 0x1D, sub := 0 } s
    else
      match s.gangLoadRun g.core g.wid w.part w.pasid 61 [64] (g.frameAt g.trap.level) with
      | .ok r => .next (s.fatal r.2 g.trap.level (s.sarg a).toNat 3)
      | .error (.away pa page _) =>
        (match s.fetchFar 0xFFFFFFFF 61 pa page with
          | .next t => if t.gang.trap.level = g.trap.level && t.gang.live then .next t
            else .next (s.fatal [] g.trap.level (s.sarg a).toNat 3)
          | r => r)
      | .error _ => .next (s.fatal [] g.trap.level (s.sarg a).toNat 3))

/-! ### Privilege and the system registers (R404, R405) -/

/-- The gang in focus is reeve firmware: it runs on its die's reeve core (R404, 01 R21). -/
def State.privileged (s : State) : Bool := decide (s.gang.core = s.reeveCore (dieOfCore s.gang.core))

/-- The privilege trap (R404) (log entry 55, DEDUCED). -/
def privilegeTrap (n : Code) (s : State) : Res := trapNow { cause := 0x03, aux := n.setWidth 32 } s

/-- Workgroups of the launch of the gang in focus (R405). -/
def State.launchSize (s : State) : Nat :=
  match s.launches.find? (fun l => decide (l.id = s.wg.launch)) with
  | some l => blockNum l.record 8 4
  | none => 0

/-- The value of a system register; a write-only register reads 0 (00 R7, R405). -/
def State.sysReg (s : State) (n : Nat) : DWord :=
  let g := s.gang
  let w := s.wg
  let d := s.dieAt (dieOfCore g.core)
  let p := s.partAt s.sys.sysPart.toNat
  let z : Word → DWord := fun x => x.setWidth 64
  match n with
  | 0x00 => BitVec.ofNat 64 g.lg
  | 0x01 => BitVec.ofNat 64 w.part
  | 0x02 => match w.nbh with
    | some i => BitVec.ofNat 64 i
    | none => 0xFFFFFFFF
  | 0x03 => BitVec.ofNat 64 w.gangs
  | 0x04 => BitVec.ofNat 64 s.launchSize
  | 0x05 => BitVec.ofNat 64 w.pasid
  | 0x06 => BitVec.ofNat 64 g.trap.level
  | 0x07 => g.trap.frame
  | 0x20 => z s.sys.sysPart
  | 0x21 => z p.sprintCtl
  | 0x22 => z p.nuCtl
  | 0x23 => z p.l2Quota
  | 0x24 => s.sys.pasidBase
  | 0x25 => s.sys.mirrorBase
  | 0x26 => z s.sys.inboundTmo
  | 0x27 => s.sys.inflogBase
  | 0x28 => z s.sys.inflogHead
  | 0x29 => z s.sys.inflogTail
  | 0x2A => z s.sys.inflogLost
  | 0x2B => s.sys.ctxBase
  | 0x2D => d.tfqBase
  | 0x2E => z d.tfqHead
  | 0x2F => z d.tfqTail
  | _ => 0

/-- sysrd (R404). -/
def execSysrd (n a : Code) (s : State) : Res :=
  if !sysRegKnown n then illegal s
  else guardOps s (fixedOps [.sw (if sysRegWide n then 64 else 32) a]) (fun s =>
    if 0x20 ≤ n.toNat && !s.privileged then privilegeTrap n s
    else
      let x := s.sysReg n.toNat
      if sysRegWide n then finishWith s (fun g => g.putS64 a g.issuing (fun _ => x))
      else finishWith s (fun g => g.putSAll a (x.setWidth 32)))

/-! ### Answers to translation faults (R406, 09 R244, R245) -/

/-- The entry of a die that is open in a ring slot. -/
def State.openEntry (s : State) (die entry : Nat) : Option TfqAgent :=
  (s.dieAt die).opened.find? (fun a => decide (a.entry = entry))

/-- A lane or fetch fault is delivered as a trap at the parked instruction, with the record of its entry (R406, outcome 1;
09 R245). -/
def State.deliverAgent (s : State) (a : TfqAgent) : State :=
  let g := s.gangAt a.key
  if g.live && g.trap.parked then
    let rec_ := (a.bytes.drop 0x20).take 64
    ({ s with cur := a.key }).enterRecord a.record (rec_.getD 3 0).toNat rec_
  else s

/-- A row or operation fails with a cause (R406, outcome 2). -/
def State.failAgent (s : State) (a : TfqAgent) (fcause : Nat) : State :=
  let va := ofBytesLE ((a.bytes.drop 0x10).take 8)
  if a.kind = 1 then
    match (s.coreAt a.key).gleaner.find? (fun c => decide (c.id = a.ident)) with
    | some c => s.gleanerFail a.key c fcause va
    | none => s
  else match (s.clusterAt a.key).table.find? (fun e => decide (e.id = a.ident)) with
    | some e => s.finishMop a.key { e with parked := false } (some (e.failRec fcause va 0 0))
    | none => s

/-- TFQ_REPLY_RETRY (R406, outcome 0). -/
def execTfqReplyRetry (die entry : Nat) (s : State) : Res :=
  .next (match s.openEntry die entry with
    | some a => (s.closeEntry die entry).retryAgent a
    | none => s)

/-- TFQ_REPLY_DELIVER (R406, outcome 1): kinds 0 and 3. -/
def execTfqReplyDeliver (die entry : Nat) (s : State) : Res :=
  .next (match s.openEntry die entry with
    | some a => if a.kind = 0 || a.kind = 3 then (s.closeEntry die entry).deliverAgent a else s
    | none => s)

/-- TFQ_REPLY_FAIL (R406, outcome 2): kinds 1 and 2. -/
def execTfqReplyFail (die entry fcause : Nat) (s : State) : Res :=
  .next (match s.openEntry die entry with
    | some a => if a.kind = 1 || a.kind = 2 then (s.closeEntry die entry).failAgent a fcause else s
    | none => s)

/-- The outcome of a fault that the firmware cannot resolve: the trap, or the failure with cause 0 or 1 (R406; R293,
R356) (log entry 46, DEDUCED). -/
def State.unresolved (s : State) (die : Nat) (a : TfqAgent) : Res :=
  if a.kind = 0 || a.kind = 3 then execTfqReplyDeliver die a.entry s
  else execTfqReplyFail die a.entry (if (a.bytes.getD 1 0).toNat = 2 then 1 else 0) s

/-- The PASID of an entry delivers its faults itself (09 R236, R244) (log entry 46, DEDUCED). -/
def State.direct (s : State) (a : TfqAgent) : Bool := bit (s.pasidEntry (ofBytesLE ((a.bytes.drop 4).take 4))) 2

/-- PAGE_REQUEST_REPLY (09 R244): the host answers a fault that the firmware forwarded, being no mirror write and of a
PASID without direct delivery (log entry 46, DEDUCED). A reply of an old generation is dropped (R252). -/
def execPageRequestReply (die entry : Nat) (resolved : Bool) (s : State) : Res :=
  match s.openEntry die entry with
  | none => .next s
  | some a =>
    let gen := ofBytesLE ((a.bytes.drop 8).take 2)
    if (a.bytes.getD 1 0).toNat = 3 || s.direct a || decide (gen ≠ s.pasidGen (ofBytesLE ((a.bytes.drop 4).take 4))) then .next s
    else if resolved then execTfqReplyRetry die entry s
    else s.unresolved die a

/-- Agents that waited for room in a ring write their entries, oldest first (R406). -/
def State.writeWaiting (die : Nat) : Nat → State → State
  | 0, s => s
  | n + 1, s =>
    match (s.dieAt die).waiting with
    | [] => s
    | a :: as =>
      if (s.dieAt die).full then s
      else State.writeWaiting die n ((s.updDie die (fun d => { d with waiting := as })).tfqPut die a)

/-- TFQ_HEAD_WRITE (R406): entries are consumed. -/
def execTfqHeadWrite (die : Nat) (value : Word) (s : State) : Res :=
  .next (State.writeWaiting die 1024 (s.updDie die (fun d => { d with tfqHead := value })))

/-- A write of TFQ_REPLY (R406) (log entry 46, DEDUCED). -/
def State.tfqReply (s : State) (die x : Nat) : Res :=
  let entry := x % 1024
  match field x 10 2 with
  | 0 => execTfqReplyRetry die entry s
  | 1 => execTfqReplyDeliver die entry s
  | 2 => execTfqReplyFail die entry (field x 12 4) s
  | _ => .next s

/-! ### Posting pre-emption (R399) -/

/-- The workgroup key of a WG_PREEMPT value, if the value is legal and the slot is not empty (R405). -/
def State.preemptTarget (s : State) (x : Nat) : Option Nat :=
  let wid := (x % 512) * 16 + field x 9 6
  if x < 32768 && decide (field x 9 6 < 16) && (s.wgAt wid).live then some wid else none

/-- Pre-emption is posted: every gang of the workgroup holds a pending request (R399). A second post changes nothing
(log entry 56, DEDUCED). -/
def State.postPreempt (s : State) (wid : Nat) : State :=
  if (s.wgAt wid).posted.isSome then s
  else
    let s := s.updWgAt wid (fun w => { w with posted := some s.sys.ctxBase })
    (s.gangsOf wid).foldl (fun s k => s.updGangAt k (fun g => { g with trap := { g.trap with preempt := true } })) s

/-- WG_PREEMPT_WRITE (R399, R405). -/
def execWgPreemptWrite (value : Word) (s : State) : Res :=
  .next (match s.preemptTarget value.toNat with
    | some wid => s.postPreempt wid
    | none => s)

/-- An instruction that a pre-emption leaves at its word, to issue again after the restore: a blocked regrow, a collective
or a formation that still assembles (R399). -/
def Block.restarts : Block → Bool
  | .regrow _ _ _ => true
  | .collective => true
  | .formation => true
  | _ => false

/-- A gang takes the pre-emption at an instruction boundary (R399): it issues nothing more, its watch is lost, it leaves
the sprinter seat, and a collective or a formation that is still assembling loses its contribution; a blocked regrow is no
request any more. -/
def State.takePreempt (s : State) (key : Nat) (mask : DWord) : State :=
  let g := s.gangAt key
  let s := (s.leaveSeat key).dropWatches key
  let s := match s.formingOf g.wid g.num with
    | some f => s.leaveFormation g.wid f
    | none => s
  let s := s.updWgAt g.wid (fun w => { w with assembling := w.assembling.filter (fun c => decide (c.gang ≠ g.num)) })
  s.updGangAt key (fun g => { g.loseWatch with
    flow := { g.flow with blocks := g.flow.blocks.filter (fun b => !b.2.restarts) }
    trap := { g.trap with taken := true, tmask := mask } })

/-- PREEMPT_GRACE_EXPIRY (R399): 100 µs after the post, every gang that has not taken the request takes it. -/
def execPreemptGraceExpiry (wid : Nat) (s : State) : Res :=
  .next (if (s.wgAt wid).posted.isNone then s
    else (s.gangsOf wid).foldl (fun s k =>
      if (s.gangAt k).trap.preempt && !(s.gangAt k).trap.taken then s.takePreempt k 0xFFFFFFFFFFFFFFFF else s) s)

/-- mpt (14 R359): a pending pre-emption is taken here, with the mask of live tiles. The PC stays at the mpt
(log entry 55, DEDUCED). -/
def execMpt (a : Code) (s : State) : Res :=
  guardOps s (fixedOps [.sr 64 a]) (fun s =>
    if s.gang.trap.preempt && !s.gang.trap.taken then .next (s.takePreempt s.cur (s.sarg64 a))
    else .next s.advance)

/-! ### syswr (R404, R405) -/

/-- SPRINT_CTL: reserved bits ignore writes (04 R110). -/
def Part.setSprint (p : Part) (x : Word) : Part := { p with sprintCtl := x &&& 0x1F }

/-- NU_CTL: a write with an illegal dflt or period is ignored whole (07 R191). -/
def Part.setNu (p : Part) (x : Word) : Part :=
  let d := field x.toNat 10 6
  if d = 0 ∨ 60 ≤ d ∨ 23 < field x.toNat 5 5 then p else { p with nuCtl := x &&& 0x07FFFFE0 }

/-- L2_QUOTA: 1 to 12 (07 R199). -/
def Part.setQuota (p : Part) (x : Word) : Part :=
  let q := x.toNat % 16
  if q = 0 ∨ 12 < q then p else { p with l2Quota := BitVec.ofNat 32 q }

/-- The boot firmware keeps the channel in which it places a region of its own (R485) (log entry 118, DEDUCED). -/
def State.keepChannel (s : State) (a : DWord) : State :=
  if localLimit ≤ a.toNat || s.kept.contains (channelOf a.toNat) then s else { s with kept := s.kept ++ [channelOf a.toNat] }

/-- Write a privileged register that has no behaviour of its own: the die is that of the writer (R405). -/
def State.setSysReg (s : State) (die n : Nat) (x : DWord) : State :=
  let v : Word := x.setWidth 32
  let part := s.sys.sysPart.toNat
  match n with
  | 0x20 => { s with sys := { s.sys with sysPart := v } }
  | 0x21 => s.updPart part (fun p => p.setSprint v)
  | 0x22 => s.updPart part (fun p => p.setNu v)
  | 0x23 => s.updPart part (fun p => p.setQuota v)
  | 0x24 => { s with sys := { s.sys with pasidBase := x } }.keepChannel x
  | 0x25 => { s with sys := { s.sys with mirrorBase := x } }.keepChannel x
  | 0x26 => { s with sys := { s.sys with inboundTmo := v } }
  | 0x27 => { s with sys := { s.sys with inflogBase := x, inflogSet := true } }.keepChannel x
  | 0x28 => { s with sys := { s.sys with inflogHead := v } }
  | 0x2A => { s with sys := { s.sys with inflogLost := v } }
  | 0x2B => { s with sys := { s.sys with ctxBase := x } }.keepChannel x
  | 0x2D => (s.updDie die (fun d => { d with tfqBase := x })).keepChannel x
  | _ => s

/-- A value that SYS_PART refuses: a reserved bit or an unconfigured partition (R405). -/
def State.badSysPart (s : State) (x : Nat) : Bool := decide (8 ≤ x) || !(s.partAt x).live

/-- syswr (R404, R405). -/
def execSyswr (n a : Code) (s : State) : Res :=
  if !sysRegKnown n then illegal s
  else guardOps s (fixedOps [.sr (if sysRegWide n then 64 else 32) a]) (fun s =>
    if !s.privileged then privilegeTrap n s
    else
      let x : DWord := if sysRegWide n then s.sarg64 a else (s.sarg a).setWidth 64
      let die := dieOfCore s.gang.core
      if n.toNat = 0x20 && s.badSysPart x.toNat then trapNow { cause := 0x1D, sub := 2 } s
      else if n.toNat = 0x2C then
        match s.preemptTarget x.toNat with
        | some wid => .next (s.advance.postPreempt wid)
        | none => trapNow { cause := 0x1D, sub := 2 } s
      else if n.toNat = 0x2E then execTfqHeadWrite die (x.setWidth 32) s.advance
      else if n.toNat = 0x30 then s.advance.tfqReply die x.toNat
      else .next (s.setSysReg die n.toNat x).advance)

/-! ### TLB maintenance (R407, 09 R250, R251) -/

/-- The release of a maintenance instruction, the invalidation, and the stall until it has completed (R407). -/
def invalidateNow (c : Cover) (s : State) : Res :=
  withRelease s 4 (fun s =>
    let r := s.takeId
    stallOn (.invalidation r.1) (r.2.startInval s.cur r.1 c))

/-- tlbip (R407). -/
def execTlbip (a b : Code) (s : State) : Res :=
  guardOps s (fixedOps [.sr 32 a, .sr 128 b]) (fun s =>
    if !s.privileged then privilegeTrap 0 s
    else
      let p := (s.sarg a).toNat
      let q := fun i => (s.sword b s.gang.low i).toNat
      let va := q 0 + q 1 * 2 ^ 32
      if 2 ^ 20 ≤ p || va % 65536 ≠ 0 || !canonical va || decide (q 2 < 1) || decide (2 ^ 24 < q 2) || q 3 ≠ 0 then
        trapNow { cause := 0x1D, sub := 2 } s
      else invalidateNow { pasid := some p, lo := va, hi := va + 65536 * q 2 } s)

/-- tlbia (R407). -/
def execTlbia (a : Code) (s : State) : Res :=
  guardOps s (fixedOps [.sr 32 a]) (fun s =>
    if !s.privileged then privilegeTrap 0 s
    else if 2 ^ 20 ≤ (s.sarg a).toNat then trapNow { cause := 0x1D, sub := 2 } s
    else invalidateNow { pasid := some (s.sarg a).toNat, lo := 0, hi := 2 ^ 64 } s)

/-- tlball (R407). -/
def execTlball (s : State) : Res :=
  if !s.privileged then privilegeTrap 0 s else invalidateNow { pasid := none, lo := 0, hi := 2 ^ 64 } s

/-- TLB_INVALIDATION_COMPLETE (09 R250): every access that used a removed entry has performed. The instruction that stalls
on it goes on; one of the firmware's own is reported to its job (R248). -/
def execTlbInvalidationComplete (gang id : Nat) (s : State) : Res :=
  .next (match s.invals.find? (fun v => decide (v.gang = gang) && decide (v.id = id) && s.invalDone v) with
    | some v =>
      (({ s with invals := s.invals.filter (fun x => decide (x ≠ v)) }).updGangAt gang (fun g =>
        g.finishBlock (.invalidation id) (fun g => g))).mirrorHeard id 0
    | none => s)

/-! ### Firmware calls (R408) -/

/-- fwcall (R408): the PC-group stalls until the reply. -/
def execFwcall (a b : Code) (s : State) : Res :=
  guardOps s (fixedOps [.sr 32 a, .sw 64 b]) (fun s =>
    let r := s.takeId
    let c : FwCall := { gang := s.cur, id := r.1, code := s.sarg a, arg := s.sarg64 b, dest := b }
    stallOn (.firmware r.1) { r.2 with fwcalls := r.2.fwcalls ++ [c] })

/-- The firmware's answer: the state afterwards and the result (R408). -/
def State.fwAnswer (s : State) (c : FwCall) : State × DWord :=
  let w := s.wgAt (s.gangAt c.gang).wid
  match c.code.toNat with
  | 0 => (s, Config.firmwareVersion)
  | 1 => (s.updPart w.part (fun p => { p with codeTable := p.codeTable.filter (fun e => decide (e.1 ≠ c.arg.toNat)) }), 0)
  | 2 => (s, match s.walk w.pasid c.arg.toNat with
    | .ok l => BitVec.ofNat 64 (field l.entry 6 6)
    | .error _ => 0xFFFFFFFFFFFFFFFF)
  | _ => (s, 0xFFFFFFFFFFFFFFFF)

/-- FWCALL_REPLY (R408): the oldest call of the gang is answered. -/
def execFwcallReply (gang : Nat) (s : State) : Res :=
  match s.fwcalls.find? (fun c => decide (c.gang = gang)) with
  | none => .next s
  | some c =>
    let s := { s with fwcalls := s.fwcalls.filter (fun x => decide (x.id ≠ c.id)) }
    if (s.gangAt gang).flow.blocks.any (fun e => decide (e.2 = .firmware c.id)) then
      let r := s.fwAnswer c
      .next (r.1.updGangAt gang (fun g => g.finishBlock (.firmware c.id) (fun g => g.putS64 c.dest g.issuing (fun _ => r.2))))
    else .next s

/-! ### Page walks and the heat sweeper (09 R237 to R241) -/

/-- The kind of an access by its code in a fault entry (R406). -/
def accOf (n : Nat) : Acc := match n with
  | 0 => .read
  | 1 => .write
  | 2 => .atomic
  | _ => .fetch

/-- PAGE_WALK (09 R237, R240, R251): a walk that ends at a permitted leaf updates it and fills the TLBs; one that faults
fills nothing, and the fault is taken by the access itself. -/
def execPageWalk (core pasid va access : Nat) (s : State) : Res :=
  .next (match s.walkDone pasid va (accOf access) with
    | .ok (s, e) => (s.fillClusterTlb (clusterOfCore core) e).fillL1Tlb core e
    | .error _ => s)

/-- The indices of the entries of a table of `n` index bits at `t` that memory lists. -/
def State.listedEntries (s : State) (t n : Nat) : List Nat :=
  ((s.mem.filter (fun c => decide (t ≤ c.1) && decide (c.1 < t + 8 * 2 ^ n))).map (fun c => (c.1 - t) / 8)).eraseDups

/-- A leaf with each nonzero heat lowered by 1 (09 R241). -/
def leafCooled (e : Nat) : Nat :=
  let rh := field e 8 2
  let wh := field e 10 2
  e - (if rh = 0 then 0 else 2 ^ 8) - (if wh = 0 then 0 else 2 ^ 10)

/-- The sweep of a table and those below it (09 R241). -/
def State.sweepTable : List (Nat × Nat × Nat) → Nat → State → State
  | [], _, s => s
  | (level, lo, n) :: ls, t, s =>
  ((s.listedEntries t n).filter (fun i => !(decide (level = 0) && decide (i = 255)))).foldl (fun s i =>
      let a := t + 8 * i
      let e := s.readHome a 8
      if !bit e 0 then s
      else if bit e 1 then
        (if leafMalformed s.devid level lo e || leafCooled e = e then s else s.writeHomeNum a 8 (leafCooled e))
      else if tableMalformed s.devid level e then s
      else State.sweepTable ls (field e 12 28 * 4096) s) s

/-- HEAT_SWEEP (09 R241): one pass over every leaf of every live PASID. -/
def execHeatSweep (s : State) : Res :=
  let base := s.sys.pasidBase.toNat
  let s := (s.listedEntries base 20).foldl (fun s p =>
    let e := s.readHome (base + 8 * p) 8
    if !bit e 0 || bit e 1 || field e 40 8 ≠ 0 || field e 3 9 ≠ 0 || decide (localLimit ≤ field e 12 28 * 4096) then s
    else State.sweepTable walkLevels (field e 12 28 * 4096) s) s
  .next { s with sweep := s.sweep + 1 }

end Sys2Proof.Machine
end

