-- ==== Sys2Proof/Machine/Queues.lean ====
section
/-! DEFINITION. Work queues: descriptors, doorbells and read indices, packets and their fields, completion records, the
order in which packets start, and WAIT-AND, TRIGGER-ARM, COPY and SIGNAL (17 R410 to R420, R486). -/

namespace Sys2Proof.Machine

/-! ### The management window and the queues (R410 to R413, R486) -/

/-- The management queue. -/
def mgmtQueue : Nat := 4095

/-- Bytes of the management window. -/
def State.windowBytes (s : State) (a n : Nat) : List Byte := (List.range n).map (fun i => mapGet 0 s.window (a + i))

/-- Write bytes into the management window. -/
def State.putWindowList (s : State) (a : Nat) (bs : List Byte) : State :=
  { s with window := mapSetRange 0 (fun i => bs.getD i 0) a bs.length s.window }

/-- The queue reads its ring: V = 1, or the management queue (R411, R486). -/
def Queue.up (q : Queue) (k : Nat) : Bool := decide (k = mgmtQueue) || q.valid

/-- Units of the ring (R411, R486). -/
def Queue.units (q : Queue) (k : Nat) : Nat := if k = mgmtQueue then 2 ^ 15 else q.size

/-- A translation fault of the front end goes to the firmware, which resolves a mirror write itself and asks the host about
any other of a PASID whose faults are forwarded (R412; 09 R244). Whether it is resolved: the host's answer is a free
choice (log entry 96, DESIGN CHOICE). -/
def State.resolves (s : State) (pasid : Nat) : IoErr → State × Bool
  | .stop => (s, false)
  | .fault c va =>
    if c = 3 then (s.addMirror (8, 0) pasid va, true)
    else if bit (s.pasidEntry pasid) 2 then (s, false)
    else ({ s with fresh := s.fresh + 1 }, decide (Config.freeChoice 2 s.fresh = 1))

/-- A kept write holds a byte of the run, so that a later write stays behind it. -/
def State.keptBefore (s : State) (pasid a n : Nat) : Bool :=
  s.frontWrites.any (fun w => decide (w.pasid = pasid) && decide (a < w.addr + w.bytes.length) && decide (w.addr < a + n))

/-- A write of the front end: one whose page is being resolved, or that follows such a one to the same bytes, is kept, to be
tried again in order; any other that cannot be made is lost (R412) (log entry 33, DEDUCED). -/
def State.frontWrite (s : State) (part pasid a : Nat) (bs : List Byte) : State :=
  if s.keptBefore pasid a bs.length then
    { s with frontWrites := s.frontWrites ++ [{ part := part, pasid := pasid, addr := a, bytes := bs }] }
  else match s.writeRun noGang part 5 pasid a bs with
  | (s, .ok _) => s
  | (s, .error e) =>
    let r := s.resolves pasid e
    if r.2 then { r.1 with frontWrites := r.1.frontWrites ++ [{ part := part, pasid := pasid, addr := a, bytes := bs }] } else r.1

/-- The kept writes are tried again. -/
def State.retryWrites (s : State) : State :=
  s.frontWrites.foldl (fun s w => s.frontWrite w.part w.pasid w.addr w.bytes) { s with frontWrites := [] }

/-- Read bytes of the ring from byte `off`: without translation in the management window (R412, R486). -/
def State.ringRead (s : State) (k off n : Nat) : State × Except IoErr (List Byte) :=
  let q := s.queueAt k
  if k = mgmtQueue then (s, .ok (s.windowBytes (0xC0000 + off) n))
  else s.readRun q.part 5 q.pasid (q.byte 0 8 + off) n

/-- Read `n` units from unit `u`; a packet may wrap the ring (R412). -/
def State.queueUnits (s : State) (k u n : Nat) : State × Except IoErr (List Byte) :=
  let size := (s.queueAt k).units k
  let i := u % size
  let m := min n (size - i)
  match s.ringRead k (8 * i) (8 * m) with
  | (s, .error e) => (s, .error e)
  | (s, .ok a) =>
    if m = n then (s, .ok a)
    else match s.ringRead k 0 (8 * (n - m)) with
      | (s, .error e) => (s, .error e)
      | (s, .ok b) => (s, .ok (a ++ b))

/-- The value of the doorbell word (R412). -/
def State.readDoorbell (s : State) (k : Nat) : State × Option Word :=
  let q := s.queueAt k
  if k = mgmtQueue then (s, some (BitVec.ofNat 32 (s.window? 0x80000 4)))
  else
    let r := s.dirRead q.part 5 q.pasid (q.byte 0x10 8) 4
    (r.1, r.2.map (fun b => BitVec.ofNat 32 (ofBytesLE b)))

/-- Write the read index to its report word (R412). -/
def State.reportRead (s : State) (k : Nat) : State :=
  let q := s.queueAt k
  if k = mgmtQueue then s.putWindow 0x80004 4 q.rd.toNat
  else s.frontWrite q.part q.pasid (q.byte 0x18 8) (bytesLE 4 q.rd.toNat)

/-- What stands at the head of a queue. -/
inductive Head where
  | empty
  /-- A header with a length of 0 or above 512 (R415). -/
  | bad
  /-- The header or a unit cannot be read (R412). -/
  | stall (e : IoErr)
  /-- A packet that a fire has copied (true) or that stands in the ring. -/
  | pkt (fed : Bool) (bytes : List Byte)
deriving DecidableEq, Repr

/-- The next packet that fires have copied stands before the ring's (15 R381; log entry 20, DEDUCED). -/
def Queue.nextFed (q : Queue) : Option (List Byte) :=
  match q.fed with
  | (m, b) :: _ => if 0 ≤ (q.rd - m).toInt then some b else none
  | [] => none

/-- The head of a queue (R412, R415). -/
def State.head (s : State) (k : Nat) : State × Head :=
  let q := s.queueAt k
  if !q.up k then (s, .empty)
  else match q.nextFed with
    | some b => (s, .pkt true b)
    | none =>
      let left := (q.wr - q.rd).toNat
      if left = 0 || q.stalled then (s, .empty)
      else match s.queueUnits k q.rd.toNat 1 with
        | (s, .error e) => (s, .stall e)
        | (s, .ok h) =>
          let n := field (ofBytesLE h) 16 16
          if n = 0 || 512 < n then (s, .bad)
          else if left < n then (s, .empty)
          else match s.queueUnits k q.rd.toNat n with
            | (s, .error e) => (s, .stall e)
            | (s, .ok b) => (s, .pkt false b)

/-- The read index moves past `n` units and is reported (R412). -/
def State.passUnits (s : State) (k n : Nat) : State :=
  (s.updQueue k (fun q => { q with rd := q.rd + BitVec.ofNat 32 n })).reportRead k

/-- The head packet is copied: it leaves the ring, or the packets that fires have copied (R412). -/
def State.takeHead (s : State) (k : Nat) (fed : Bool) (b : List Byte) : State :=
  if fed then s.updQueue k (fun q => { q with fed := q.fed.drop 1 }) else s.passUnits k (b.length / 8)

/-! ### Fields (R414, R415, R419, R421) -/

/-- A field of a packet: m, tag, length and value. -/
structure PField where
  m : Bool
  tag : Nat
  len : Nat
  value : List Byte
  /-- It runs past the packet. -/
  settled : Bool
deriving DecidableEq, Repr

/-- The fields of the bytes after a header, and whether a byte after the list is nonzero (R415) (log entry 31, DEDUCED). -/
def scanFields : Nat → List Byte → List PField × Bool
  | 0, _ => ([], false)
  | fuel + 1, b =>
    let h := blockNum b 0 4
    if b.length < 4 then ([], false)
    else if h = 0 then ([], decide (ofBytesLE b ≠ 0))
    else
      let n := h % 65536
      let f : PField := { m := bit h 31, tag := field h 16 15, len := n, value := (b.drop 4).take n,
                          settled := decide (b.length < 4 + roundUp n 4) }
      if f.settled then ([f], false)
      else
        let r := scanFields fuel (b.drop (4 + roundUp n 4))
        (f :: r.1, r.2)

/-- The length of a field that a type defines (R416, R419, R421). -/
def fieldLen (type tag : Nat) : Option Nat :=
  if tag = 1 then some 8
  else match type, tag with
    | 1, 0x10 => some 8
    | 2, 0x20 => some 16
    | 2, 0x21 => some 4
    | 3, 0x30 => some 4
    | 3, 0x31 => some 64
    | 4, 0x40 => some 8
    | 4, 0x41 => some 8
    | 4, 0x42 => some 4
    | 5, 0x50 => some 16
    | 5, 0x51 => some 4
    | 5, 0x52 => some 8
    | 6, 0x60 => some 4
    | 6, 0x61 => some 4
    | 6, 0x62 => some 16
    | 6, 0x63 => some 24
    | 6, 0x64 => some 4
    | 6, 0x65 => some 4
    | 6, 0x66 => some 66
    | 6, 0x67 => some 8
    | 6, 0x68 => some 8
    | 6, 0x69 => some 16
    | 6, 0x6A => some 4
    | 6, 0x6B => some 16
    | _, _ => none

/-- A queue descriptor is within R411. -/
def queueDescOk (d : List Byte) : Bool :=
  decide (blockNum d 0 8 % 4096 = 0) && decide (9 ≤ blockNum d 8 1) && decide (blockNum d 8 1 ≤ 24) &&
  decide (blockNum d 9 1 < 4) && decide (blockNum d 0x0A 1 < 8) && decide (blockNum d 0x0B 1 < 2) &&
  decide (blockNum d 0x0C 4 < 2 ^ 20) && decide (blockNum d 0x10 8 % 4 = 0) && decide (blockNum d 0x18 8 % 4 = 0) &&
  blockZero d 0x20 32

/-- A number is a power of two. -/
def powerOfTwo (n : Nat) : Bool := decide (n ≠ 0) && decide (2 ^ Nat.log2 n = n)

/-- The completion address is legal: 128-byte aligned, and within the window for the management queue (R416, R486). -/
def completionOk (k a : Nat) : Bool :=
  decide (a % 128 = 0) && (decide (k ≠ mgmtQueue) || (decide (0x81000 ≤ a) && decide (a ≤ 0xBFF80)))

/-- A field's value is within its range and alignment (R415, R419, R421) (log entry 32, DEDUCED). -/
def fieldValueOk (k : Nat) (f : PField) : Bool :=
  let x := ofBytesLE f.value
  let n := fun o l => blockNum f.value o l
  match f.tag with
  | 0x01 => completionOk k x
  | 0x10 => decide (x % 64 = 0)
  | 0x20 => decide (n 0 8 % 8 = 0)
  | 0x30 => decide (x < 16384)
  | 0x31 => cellBlockOk f.value
  | 0x40 => decide (x % 4 = 0)
  | 0x41 => decide (x % 4 = 0)
  | 0x42 => decide (4 ≤ x) && decide (x ≤ 2 ^ 30) && decide (x % 4 = 0)
  | 0x50 => decide (n 0 8 % 8 = 0)
  | 0x51 => decide (x < 2)
  | 0x52 => decide (n 0 4 / 2 ^ 14 < 2304) && decide (n 4 4 % 65536 ≠ 0)
  | 0x60 => decide (1 ≤ x) && decide (x ≤ 5)
  | 0x61 => decide (x < 8)
  | 0x62 => decide (x ≠ 0) && decide (x < 2 ^ 120)
  | 0x63 => decide (x ≠ 0)
  | 0x64 => decide (1 ≤ x) && decide (x ≤ 12)
  | 0x65 => decide (1 ≤ x) && decide (x ≤ 255)
  | 0x66 => decide (n 0 2 < 4096) && queueDescOk (f.value.drop 2)
  | 0x67 => decide (n 0 4 + n 4 4 ≤ 16384)
  | 0x68 => decide (n 0 4 + n 4 4 ≤ 1048576)
  | 0x69 => decide (n 0 8 % 4096 = 0)
  | 0x6A => decide (x < 2 ^ 20)
  | 0x6B => decide (n 0 8 % 64 = 0) && powerOfTwo (n 8 8)
  | _ => true

/-- The cause that a field gives, after the fields `seen` (R415): 2, 3, or 0 (log entry 31, DEDUCED). -/
def fieldCause (k type : Nat) (seen : List PField) (f : PField) : Nat :=
  if f.settled then 3
  else match fieldLen type f.tag with
    | none => if f.m then 2 else 0
    | some n =>
      let times := (seen.filter (fun g => decide (g.tag = f.tag))).length
      if f.len ≠ n || decide ((if f.tag = 0x20 then 8 else 1) ≤ times) || !fieldValueOk k f then 3 else 0

/-- The first cause of the fields in list order. -/
def fieldsCause (k type : Nat) : List PField → List PField → Nat
  | _, [] => 0
  | seen, f :: fs =>
    let c := fieldCause k type seen f
    if c = 0 then fieldsCause k type (seen ++ [f]) fs else c

/-- The value of a field. -/
def getField (fs : List PField) (tag : Nat) : Option (List Byte) := (fs.find? (fun f => decide (f.tag = tag))).map (·.value)

/-- A field's number, 0 when absent. -/
def fieldNum (fs : List PField) (tag off n : Nat) : Nat := blockNum ((getField fs tag).getD []) off n

/-- Every required field stands in the list (R419, R421). -/
def requiredOk (type : Nat) (fs : List PField) : Bool :=
  let has := fun t => (getField fs t).isSome
  match type with
  | 1 => has 0x10
  | 2 => has 0x20
  | 3 => has 0x30 && has 0x31
  | 4 => has 0x40 && has 0x41 && has 0x42
  | 5 => has 0x50 || has 0x52
  | _ => has 0x60 && has 0x61 && (match fieldNum fs 0x60 0 4 with
    | 1 => [0x62, 0x63, 0x64, 0x65, 0x67, 0x68, 0x69, 0x6B].all has
    | 3 => has 0x66
    | 4 => has 0x6A
    | _ => true)

/-- A PASID is live: V = 1 and tear = 0 (R417 cause 8, 09 R236). -/
def State.pasidLive (s : State) (pasid : Nat) : Bool := bit (s.pasidEntry pasid) 0 && !bit (s.pasidEntry pasid) 1

/-- The header of a packet's bytes. -/
def pktHeader (b : List Byte) : Nat := blockNum b 0 8

/-- The cause with which a packet is rejected, in the order of R417; 0 when it may start (log entry 31, DEDUCED). -/
def State.packetCause (s : State) (k : Nat) (b : List Byte) : Nat :=
  let h := pktHeader b
  let type := h % 256
  let fs := scanFields b.length (b.drop 8)
  let c := fieldsCause k type [] fs.1
  if type = 0 || 6 < type then 1
  else if field h 9 7 ≠ 0 then 3
  else if c ≠ 0 then c
  else if fs.2 || !requiredOk type fs.1 then 3
  else if k ≠ mgmtQueue && !s.pasidLive (s.queueAt k).pasid then 8
  else if decide (k = mgmtQueue) ≠ decide (type = 6) then 9
  else 0

/-! ### Completion records (R416) -/

/-- The packet of some bytes at the head of a queue. -/
def State.packetOf (s : State) (k : Nat) (b : List Byte) : Packet :=
  let h := pktHeader b
  let q := s.queueAt k
  let comp := match (scanFields b.length (b.drop 8)).1.find? (fun f => decide (f.tag = 1)) with
    | some f => if f.len = 8 && !f.settled && completionOk k (ofBytesLE f.value) then some (ofBytesLE f.value) else none
    | none => none
  { id := s.nextId, type := h % 256, seq := h / 2 ^ 32, fence := bit h 8, bytes := b, comp := comp, part := q.part,
    pasid := q.pasid, ref := 0, fate := none, held := false }

/-- The 128 bytes of a completion record (R416). -/
def completionBytes (cause seq time result : Nat) (fatal : List Byte) : List Byte :=
  bytesLE 1 (if cause = 0 then 1 else 2) ++ bytesLE 1 cause ++ bytesLE 2 0 ++ bytesLE 4 seq ++ bytesLE 8 time ++
  bytesLE 8 result ++ bytesLE 8 0 ++ (fatal ++ List.replicate 80 0).take 80 ++ bytesLE 16 0

/-- A packet ends: its record is written, and it no longer runs (R416). The result of a WAIT-AND is the mask of the
conditions that held, whatever ends it. -/
def State.endPacket (s : State) (k : Nat) (p : Packet) (cause result : Nat) (fatal : List Byte) : State :=
  let bs := completionBytes cause p.seq s.clock.toNat (if p.type = 2 && decide (cause ≠ 0) then p.ref else result) fatal
  let s := match p.comp with
    | none => s
    | some a => if k = mgmtQueue then s.putWindowList a bs else s.frontWrite p.part p.pasid a bs
  s.updQueue k (fun q => { q with running := q.running.filter (fun r => decide (r.id ≠ p.id)) })

/-! ### The order of starts (R418) -/

/-- A launch has workgroups that wait for admission. -/
def Launch.wgs (l : Launch) : Nat := blockNum l.record 8 4
/-- A workgroup of the launch has ended fatally, or its PASID or partition ends (R417, R430): no more are admitted. -/
def State.launchFailed (s : State) (l : Launch) : Bool :=
  l.fatal.isSome || l.doom.isSome || s.wgs.any (fun e => e.2.live && decide (e.2.launch = l.id) && e.2.fatal.isSome)

/-- Every workgroup of the launch of a number has been admitted, or none more will be. -/
def State.launchAdmitted (s : State) (id : Nat) : Bool :=
  !s.launches.any (fun l => decide (l.id = id) && !s.launchFailed l && decide (l.next < l.wgs))

/-- The head with header `h` may start beside the packets that run (R418). -/
def State.mayStart (s : State) (q : Queue) (h : Nat) : Bool :=
  !q.running.any (fun p => decide (p.type = 2) || (decide (p.type = 1) && !s.launchAdmitted p.ref)) &&
  (!(bit h 8 || decide (h % 256 = 5)) || q.running.isEmpty)

/-- The front end leaves a queue's head where it stands until the doorbell's next write or the next poll (R412). -/
def State.holdQueue (s : State) (k : Nat) : State := s.updQueue k (fun q => { q with stalled := true })

/-- A queue whose head cannot be read stalls, with a notice when the fault is not resolved (R412) (log entry 30, DEDUCED). -/
def State.stallQueue (s : State) (k : Nat) (e : IoErr) : State :=
  let s := s.holdQueue k
  if k = mgmtQueue then s
  else
    let r := s.resolves (s.queueAt k).pasid e
    if r.2 then r.1 else r.1.notice (s.queueAt k).part 4 k 0 0

/-- Bad headers, and packets that are rejected, go by until a packet may start or must wait (R415, R417, R418). -/
def State.skipBad (k : Nat) : Nat → State → State
  | 0, s => s
  | n + 1, s =>
    match s.head k with
    | (_, .empty) => s
    | (s, .stall e) => s.stallQueue k e
    | (t, .bad) => if s.mayStart (s.queueAt k) 0 then State.skipBad k n (t.passUnits k 1) else s
    | (t, .pkt fed b) =>
      if !s.mayStart (s.queueAt k) (pktHeader b) || s.packetCause k b = 0 then s
      else
        let p := s.packetOf k b
        State.skipBad k n ((t.takeHead k fed b).takeId.2.endPacket k p (s.packetCause k b) 0 [])

/-- The number of heads a queue may pass at once. -/
def State.headFuel (s : State) (k : Nat) : Nat := ((s.queueAt k).wr - (s.queueAt k).rd).toNat + (s.queueAt k).fed.length + 1

/-- Read the doorbell, and try the head again (R412) (log entry 44, DESIGN CHOICE). -/
def State.hearDoorbell (s : State) (k : Nat) : State :=
  if !(s.queueAt k).up k then s
  else
    let r := s.readDoorbell k
    let s := r.1.updQueue k (fun q => { q with wr := r.2.getD q.wr, stalled := false })
    State.skipBad k (s.headFuel k) s

/-- DOORBELL_WRITE (R412). -/
def execDoorbellWrite (queue : Nat) (s : State) : Res := .next (s.hearDoorbell queue)

/-- What a packet does: the state, or the access that does not perform. -/
abbrev PacketRun := State × Except IoErr Unit

/-- Change the running packet of a number. -/
def State.updPacket (s : State) (k id : Nat) (f : Packet → Packet) : State :=
  s.updQueue k (fun q => { q with running := q.running.map (fun r => if r.id = id then f r else r) })

/-- The effects of a packet have been made or sent: it ends with its record when they have all performed (R416). -/
def State.closePacket (s : State) (k : Nat) (p : Packet) (cause result : Nat) : State :=
  if s.engBusy p.id then s.updPacket k p.id (fun r => { r with fate := some (cause, result) })
  else s.endPacket k p cause result []

/-- A packet whose access does not perform: when the fault is resolved, the front end tries it again at a later turn, from
`back`, where a WAIT-AND runs on and any other stands at the head of its queue; otherwise it ends with cause 10
(R412, R417). -/
def State.faulted (s back : State) (k : Nat) (p : Packet) (e : IoErr) (result : Nat) : State :=
  let r := s.resolves p.pasid e
  if r.2 then
    let b := { back with fresh := r.1.fresh, nextId := r.1.nextId, mirrors := r.1.mirrors }
    if (b.queueAt k).running.any (fun q => decide (q.id = p.id)) then b.updPacket k p.id (fun r => { r with held := true })
    else b.holdQueue k
  else r.1.closePacket k p 10 result

/-- The packet of a type at the head of a queue starts (R412, R418): it is copied, runs, and `body` acts for it. Its last
argument is the state to go back to while a fault is resolved. -/
def startPacket (k : Nat) (isIt : Nat → List PField → Bool) (body : Packet → List PField → State → State → State) (s : State) : Res :=
  .next (match s.head k with
    | (t, .pkt fed b) =>
      let fs := (scanFields b.length (b.drop 8)).1
      if s.mayStart (s.queueAt k) (pktHeader b) && decide (s.packetCause k b = 0) && isIt (pktHeader b % 256) fs then
        let p := s.packetOf k b
        let u := (t.takeHead k fed b).takeId.2.updQueue k (fun q => { q with running := q.running ++ [p] })
        let u := body p fs s u
        State.skipBad k (u.headFuel k) u
      else s
    | _ => s)

/-! ### WAIT-AND (R420) -/

/-- The conditions of a WAIT-AND. -/
def Packet.conditions (p : Packet) : List (Nat × Nat) :=
  ((scanFields p.bytes.length (p.bytes.drop 8)).1.filter (fun f => decide (f.tag = 0x20))).map
    (fun f => (blockNum f.value 0 8, blockNum f.value 8 8))

/-- The mask of conditions that hold, bit i for the i-th. -/
def State.condMask (p : Packet) : List (Nat × Nat) → Nat → State → State × Except IoErr Nat
  | [], _, s => (s, .ok 0)
  | (a, v) :: cs, i, s =>
    match s.readRun p.part 5 p.pasid a 8 with
    | (s, .error e) => (s, .error e)
    | (s, .ok b) =>
      let r := State.condMask p cs (i + 1) s
      (r.1, r.2.map (· + (if v ≤ ofBytesLE b then 2 ^ i else 0)))

/-- Read the locations of a WAIT-AND: it completes when all hold at one moment, and with cause 10 at a fault that is not
resolved (R412, R420). -/
def State.pollWait (s : State) (k : Nat) (p : Packet) : State :=
  let cs := p.conditions
  match State.condMask p cs 0 s with
  | (t, .error e) => t.faulted t k p e 0
  | (s, .ok m) =>
    if m = 2 ^ cs.length - 1 then s.endPacket k p 0 m []
    else s.updPacket k p.id (fun r => { r with ref := m, held := false })

/-- The running packet of a number and type. -/
def Queue.packet (q : Queue) (type id : Nat) : Option Packet :=
  q.running.find? (fun p => decide (p.id = id) && decide (p.type = type))

/-- WAIT_AND_PACKET (R420): the packet starts, and its locations are read. -/
def execWaitAndPacket (queue : Nat) (s : State) : Res :=
  startPacket queue (fun t _ => decide (t = 2)) (fun p _ _ s => s.pollWait queue p) s

/-- WAIT_AND_POLL (R420). -/
def execWaitAndPoll (queue pkt : Nat) (s : State) : Res :=
  .next (match (s.queueAt queue).packet 2 pkt with
    | some p =>
      let s := s.pollWait queue p
      State.skipBad queue (s.headFuel queue) s
    | none => s)

/-- The poll of one queue: the WAIT-ANDs that run read their locations, and the doorbell is read (R412, R420). -/
def State.pollQueue (s : State) (k : Nat) : State :=
  (((s.queueAt k).running.filter (fun p => decide (p.type = 2))).foldl (fun s p => s.pollWait k p) s).hearDoorbell k

/-- QUEUE_POLL (R412, R420): every queue is polled each 100 µs (log entry 44, DESIGN CHOICE). -/
def execQueuePoll (s : State) : Res :=
  .next ((mgmtQueue :: s.queues.map (·.1)).eraseDups.foldl (fun s k => s.pollQueue k) s.retryWrites)

/-- WAIT_AND_TIMEOUT (R420): cause 11, with the mask of the last reading. -/
def execWaitAndTimeout (queue pkt : Nat) (s : State) : Res :=
  .next (match (s.queueAt queue).packet 2 pkt with
    | some p =>
      if fieldNum (scanFields p.bytes.length (p.bytes.drop 8)).1 0x21 0 4 = 0 then s
      else
        let s := s.endPacket queue p 11 p.ref []
        State.skipBad queue (s.headFuel queue) s
    | none => s)

/-! ### TRIGGER-ARM, COPY, SIGNAL (R419) -/

/-- TRIGGER_ARM_PACKET (R419): as tcarm, with the queue's PASID and partition. -/
def execTriggerArmPacket (queue : Nat) (s : State) : Res :=
  startPacket queue (fun t _ => decide (t = 3)) (fun p fs _ s =>
    let k := fieldNum fs 0x30 0 4
    if (s.cellAt k).armable p.part then
      (s.armCell k ((getField fs 0x31).getD []) p.pasid p.part).endPacket queue p 0 0 []
    else s.endPacket queue p 9 0 []) s

/-- An engine's unit does not perform, as an access of the front end. -/
def XErr.io : XErr → IoErr
  | .fault c _ va => .fault c va
  | .fail _ _ _ _ _ => .stop

/-- The alarm of a unit that is refused (18 R443). -/
def State.unitAlarm (s : State) (g : Agent) : XErr → State
  | .fail _ _ _ _ (some (o, pa, acc)) => s.alarm o pa g.part 1 g.pasid (acc.rights - 1)
  | _ => s

/-- A copy refuses a place as cpy does (11 R280). -/
def Loc.refused : Loc → Bool
  | .glob va => badGlobal va
  | .barn _ _ _ => false

/-- Units of a copy until one does not perform: the bytes moved, and why it stopped (11 R285); the unit at an address that cpy
refuses does not perform (log entry 116, DEDUCED). -/
def State.copyUnits (g : Agent) (src dst : Loc) (n : Nat) : Nat → Nat → State → State × Nat × Option IoErr
  | 0, o, s => (s, o, none)
  | fuel + 1, o, s =>
    if n ≤ o then (s, o, none)
    else if (src.add o).refused || (dst.add o).refused then (s, o, some .stop)
    else
      let k := unitLen src dst o n
      match s.moveUnit g (src.add o) (dst.add o) k with
      | (t, .error e) => (t.unitAlarm g e, o, some e.io)
      | (t, .ok _) => State.copyUnits g src dst n fuel (o + k) t

/-- COPY_PACKET (R419): the reeve core of the queue's partition's lowest die runs it (log entry 29, DEDUCED). -/
def execCopyPacket (queue : Nat) (s : State) : Res :=
  startPacket queue (fun t _ => decide (t = 4)) (fun p fs back s =>
    let n := fieldNum fs 0x42 0 4
    let die := ((s.partAt p.part).clusters.headD 0) / 15
    let g : Agent := { core := s.reeveCore die, part := p.part, pasid := p.pasid, op := p.id, idx := 0 }
    let r := State.copyUnits g (.glob (fieldNum fs 0x40 0 8)) (.glob (fieldNum fs 0x41 0 8)) n (n / 4 + 2) 0 s
    match r.2.2 with
    | none => r.1.closePacket queue p 0 r.2.1
    | some e => r.1.faulted back queue p e r.2.1) s

/-- The add of a SIGNAL: at the home of its location, another device's by an atomic (R419). -/
def State.signalAdd (s : State) (p : Packet) (a v : Nat) : PacketRun :=
  match State.writePlaces p.part 5 p.pasid (runPieces a 8) s with
  | (s, .error e) => (s, .error e)
  | (s, .ok [(.away pa _, _, _)]) => (s.send { Msg.blank with
      kind := .atomic 0 8 0, dst := pa / 2 ^ 40, addr := pa, part := p.part, pasid := p.pasid, data := v, gang := noGang
      opid := p.id, reg := 0xFF }, .ok ())
  | (s, .ok _) => match s.readRun p.part 5 p.pasid a 8 with
    | (s, .error e) => (s, .error e)
    | (s, .ok b) => s.writeRun p.id p.part 5 p.pasid a (bytesLE 8 ((ofBytesLE b + v) % 2 ^ 64))

/-- The write or add of a SIGNAL, when it has one (R419). -/
def State.signalWrite (s : State) (p : Packet) (fs : List PField) : PacketRun :=
  if (getField fs 0x50).isNone then (s, .ok ())
  else
    let a := fieldNum fs 0x50 0 8
    let v := fieldNum fs 0x50 8 8
    if fieldNum fs 0x51 0 4 = 0 then s.writeRun p.id p.part 5 p.pasid a (bytesLE 8 v)
    else s.signalAdd p a v

/-- The cell raise of a SIGNAL goes out as tcadd's message, which the cell admits or drops (R419, 15 R383). The packet's
record waits for a raise of this device; one of another device is posted, as tcadd's is (log entry 32, DEDUCED). -/
def State.signalRaise (s : State) (p : Packet) (fs : List PField) : State :=
  if (getField fs 0x52).isNone then s
  else
    let x := fieldNum fs 0x52 0 4
    let y := fieldNum fs 0x52 4 4
    s.send { Msg.blank with kind := .cellAdd (x % 16384) (y % 65536) (y / 65536), dst := x / 2 ^ 14, part := p.part,
                            pasid := p.pasid, cell := x % 16384, gang := noGang, opid := p.id
                            reg := if x / 2 ^ 14 = s.devid then 0xFF else 0 }

/-- The effects of a running packet go on: a SIGNAL whose write has performed makes its raise (R419). -/
def State.raiseHeld (s : State) (k : Nat) (p : Packet) : State :=
  if p.type = 5 && p.held && decide (p.fate.map (·.1) = some 0) then
    (s.updPacket k p.id (fun r => { r with held := false })).signalRaise p (scanFields p.bytes.length (p.bytes.drop 8)).1
  else s

/-- A running packet of which nothing is under way any more makes its last effect, and ends. -/
def State.closePackets (s : State) : State :=
  s.queues.foldl (fun s e => (e.2.running.filter (fun p => p.fate.isSome && !s.engBusy p.id)).foldl (fun s p =>
    let f := p.fate.getD (0, 0)
    (s.raiseHeld e.1 p).closePacket e.1 { p with held := false } f.1 f.2) s) s

/-- An effect of a running packet came back poisoned: cause 10, and the bytes of a copy's unit have not moved (R416, R417). -/
def State.packetFailed (s : State) (m : Msg) : State :=
  let n := match m.kind with
    | .write n => n
    | _ => 0
  s.queues.foldl (fun s e => if e.2.running.any (fun p => decide (p.id = m.opid)) then s.updPacket e.1 m.opid (fun r =>
    { r with fate := r.fate.map (fun f => (if f.1 = 0 then 10 else f.1, f.2 - n)) }) else s) s

/-- SIGNAL_PACKET (R419): the write or add, then, when that has performed, the raise. -/
def execSignalPacket (queue : Nat) (s : State) : Res :=
  startPacket queue (fun t _ => decide (t = 5)) (fun p fs back s =>
    match s.signalWrite p fs with
    | (s, .ok _) => if s.engBusy p.id then (s.closePacket queue p 0 0).updPacket queue p.id (fun r => { r with held := true })
      else (s.signalRaise p fs).closePacket queue p 0 0
    | (t, .error e) => t.faulted back queue p e 0) s

/-! ### Raises that arrive -/

/-- TCADD_ARRIVAL (R383, 17 R419): a tagged add, or a SIGNAL's raise, at its cell. -/
def execTcaddArrival (msg : Nat) (s : State) : Res :=
  match s.msg msg with
  | none => .next s
  | some m =>
    if m.dst ≠ s.devid then .next s
    else match m.kind with
      | .cellAdd cell inc tag =>
        let s := s.dropMsg msg
        let c := s.cellAt cell
        .next (if BitVec.ofNat 16 tag &&& c.tagm ≠ c.tagv then s.cellDrop m
          else if c.owner.isNone || !s.cellAdmits m then (s.cellAlarm m 4).cellDrop m
          else s.raiseCell cell inc).closePackets
      | .cellRaise cell =>
        let s := s.dropMsg msg
        if (s.cellAt cell).owner.isSome && s.cellAdmits m then .next (s.raiseCell cell 1)
        else .next ((s.cellAlarm m 4).cellDrop m)
      | _ => .next s

/-- The event that a message of this device calls for. -/
def State.msgEvent (s : State) (m : Msg) : Option Res :=
  if m.dst ≠ s.devid then none
  else match m.kind with
    | .invoke => if s.earlierInvocation m then none else some (execInvocationArrival m.id s)
    | .dependent => if s.earlierInvocation m then none else some (execDependentMessageAtHome m.id s)
    | .forward => if s.earlierInvocation m then none else some (execDependentMessageAtHome m.id s)
    | .bindReport _ _ _ => some (execBindReport m.id s)
    | .result _ => if s.mayPost m then some (execResultPosted m.id s) else none
    | .failReport _ => some (execResultPosted m.id s)
    | .cellAdd _ _ _ => some (execTcaddArrival m.id s)
    | .cellRaise _ => some (execTcaddArrival m.id s)
    | .ask what => some (.next (s.answerHome m what))
    | .rget _ => if s.handleStatus m.part m.handle = 0 then none else some (execRgetResultArrival m.id s)
    | _ => none

end Sys2Proof.Machine
end

