-- ==== Sys2Proof/Machine/Launch.lean ====
section
/-! DEFINITION. Launches: the launch record (17 R422 to R425), the dispatcher (R426 to R429), the admission of workgroups
(R424, R427; 07 R195, R196; 02 R48), and retirement and completion (R430). -/

namespace Sys2Proof.Machine

/-! ### The launch record (R422, R425) -/

/-- Fields of a record. -/
def Launch.num (l : Launch) (off n : Nat) : Nat := blockNum l.record off n
/-- Flags. -/
def Launch.flags (l : Launch) : Nat := l.num 0x0C 2
/-- Entry, gangs and vector registers of role `r`. -/
def Launch.role (l : Launch) (r : Nat) : Nat × Nat × Nat := (l.num (0x20 + 8 * r) 4, l.num (0x24 + 8 * r) 1, l.num (0x25 + 8 * r) 1)
/-- The gangs of a workgroup in order: role, entry and vector registers (R424). -/
def Launch.gangs (l : Launch) : List (Nat × Nat) :=
  ((List.range 3).map (fun r => List.replicate (l.role r).2.1 ((l.role r).1, (l.role r).2.2))).flatten
/-- Workgroups of a neighbourhood; 1 for a launch without (R428). -/
def Launch.unit (l : Launch) : Nat := if bit l.flags 1 then l.num 0x38 1 * l.num 0x39 1 * l.num 0x3A 1 else 1
/-- Level entry `n`. -/
def Launch.level (l : Launch) (n : Nat) : Nat := l.num (0x40 + 8 * n) 8
/-- A level of the launch has domain `d`. -/
def Launch.hasDom (l : Launch) (d : Nat) : Bool := (List.range (l.num 0x3B 1)).any (fun n => decide (l.level n % 16 = d))
/-- Admitted whole on one die (R425). -/
def Launch.dieBound (l : Launch) : Bool := l.hasDom 6
/-- Admitted whole on the device (R425). -/
def Launch.devBound (l : Launch) : Bool := !l.dieBound && (l.hasDom 7 || l.hasDom 8)
/-- Admitted whole. -/
def Launch.whole (l : Launch) : Bool := l.dieBound || l.devBound

/-- The scope that a named group of a domain must have (R425, 08 R208). -/
def domScope (d : Nat) : Nat := if d = 5 then 3 else if d = 8 then 5 else 4

/-- A level entry follows R425; `used`: it stands below nlev; `nbh`: the launch is one of neighbourhoods
(log entry 34, DEDUCED). -/
def levelOk (used nbh : Bool) (e : Nat) : Bool :=
  let d := e % 16
  let grp := bit e 7
  if !used then decide (e = 0)
  else field e 56 8 = 0 && field e 18 14 = 0 && decide (d ≤ 8) && decide (field e 4 3 ≤ 6) && (decide (d ≠ 5) || nbh) &&
    (if grp then decide (5 ≤ d) && decide (field e 4 3 = domScope d) &&
        (if d = 8 then decide (1 ≤ field e 44 12) && decide (field e 44 12 ≤ 2304) && decide (field e 32 12 < 2304)
         else decide (field e 44 12 = 0) && decide (field e 32 12 = 0))
     else decide (field e 8 10 = 0) && decide (field e 44 12 = 0) && decide (field e 32 12 = 0))

/-- A handler PC of a record: 0, or legal under R393 (log entry 34, DEDUCED). -/
def handlerOk (x : Nat) : Bool := canonical x && decide (x % 4 = 0)

/-- A role follows R422. -/
def roleOk (plaquel : Bool) (x : Nat) : Bool :=
  let g := field x 32 8
  let v := field x 40 8
  field x 48 16 = 0 && decide (g ≤ 32) && (plaquel || decide (x % 4 = 0)) &&
  (if v = 0 then decide (g = 0) else decide (v % 8 = 0) && decide (v ≤ 240))

/-- The record follows R422, R423 and R425, the successor cell and the group entries apart (log entry 34, DEDUCED). -/
def Launch.recordOk (l : Launch) : Bool :=
  let n := l.num
  let f := l.flags
  let total := ((List.range 3).map (fun r => (l.role r).2.1)).sum
  let nbh := bit f 1
  let u := n 0x38 1 * n 0x39 1 * n 0x3A 1
  decide (1 ≤ n 8 4) && decide (n 8 4 ≤ 2 ^ 24) && decide (f < 16) && (bit f 0 || decide (n 0x0E 2 = 0)) &&
  (bit f 0 || (canonical (n 0 8) && decide (n 0 8 % 4 = 0))) &&
  decide (n 0x10 4 % 128 = 0) && decide (n 0x10 4 ≤ 458752) && decide (n 0x14 4 % 128 = 0) && decide (1024 ≤ n 0x14 4) &&
  addrOk (n 0x18 8) 128 && (List.range 3).all (fun r => roleOk (bit f 0) (n (0x20 + 8 * r) 8)) &&
  decide (1 ≤ total) && decide (total ≤ 32) && decide (n 0x3B 1 ≤ 8) && decide (n 0x3C 4 < 16384) &&
  decide (n 0x80 8 % 4 = 0) && decide (n 0x88 1 ≤ 16) && blockZero l.record 0x89 7 && handlerOk (n 0x90 8) &&
  handlerOk (n 0x98 8) && decide (n 0xA0 8 % 2048 = 0) && blockZero l.record 0xAC 84 &&
  (if nbh then decide (1 ≤ n 0x38 1) && decide (n 0x38 1 ≤ 10) && decide (1 ≤ n 0x39 1) && decide (n 0x39 1 ≤ 6) &&
      decide (1 ≤ n 0x3A 1) && decide (u ≤ 24) && decide (n 8 4 % u = 0)
    else blockZero l.record 0x38 3) &&
  (List.range 8).all (fun i => levelOk (decide (i < n 0x3B 1)) nbh (l.level i))

/-- The named groups that a record requests: gid, level, root device and count (R425, R266). -/
def Launch.groupRequests (l : Launch) : List (Nat × Nat × Nat × Nat) :=
  (List.range (l.num 0x3B 1)).filterMap (fun i =>
    let e := l.level i
    if bit e 7 then some (field e 8 10, e % 16 - 5, field e 32 12, field e 44 12) else none)

/-- Configure a group's entry: V, level and root; a dom group's root count goes to the root (R425, R266, R269)
(log entry 35, DEDUCED). -/
def State.configureGroup (s : State) (part : Nat) (r : Nat × Nat × Nat × Nat) : State :=
  let e := 1 + r.2.1 * 4 + (if r.2.1 = 3 then r.2.2.1 * 16 else 0)
  let s := s.updPart part (fun p => { p with ngTable := mapSet (0 : DWord) p.ngTable r.1 (BitVec.ofNat 64 e) })
  if r.2.1 ≠ 3 then s
  else if r.2.2.1 = s.devid then s.setMask (groupKey part r.1) 2 r.2.2.2
  else s.send { Msg.blank with kind := .rootCount part r.1 r.2.2.2, dst := r.2.2.1, part := part }

/-- A requested group is valid already with another level, or the record asks for it at another level too (R425). -/
def State.groupConflict (s : State) (part : Nat) (l : Launch) : Bool :=
  l.groupRequests.any (fun r =>
    (bit (s.ngEntry part r.1) 0 && decide (ngLevel (s.ngEntry part r.1) ≠ r.2.1)) ||
    l.groupRequests.any (fun q => decide (q.1 = r.1) && decide (q.2.1 ≠ r.2.1)))

/-! ### Loads of cores (R427) -/

/-- What a core has left for admissions: workgroup slots, Barn granules, resident gangs, and per lane group its resident
gangs and free rows. -/
structure CoreLoad where
  slots : Nat
  granules : Nat
  gangs : Nat
  count : List Nat
  rows : List Nat
deriving DecidableEq, Repr

/-- A core with nothing resident. -/
def CoreLoad.empty : CoreLoad := { slots := 16, granules := 3584, gangs := 0, count := [0, 0, 0, 0], rows := [768, 768, 768, 768] }

/-- The load of a core as it stands. -/
def State.coreLoad (s : State) (core : Nat) : CoreLoad :=
  let ks := s.gangsOnCore core
  { slots := 16 - (s.wgsOnCore core).length
    granules := 3584 - (s.barnUsed core).length
    gangs := ks.length
    count := (List.range 4).map (fun lg => (ks.filter (fun k => decide ((s.gangAt k).lg = lg))).length)
    rows := (List.range 4).map (s.freeRows core) }

/-- The lane group that a workgroup's gangs start at: the fewest resident gangs, the lowest number on a tie (01 R28). -/
def firstGroup (count : List Nat) : Nat := (count.findIdx? (fun n => decide (count.all (fun m => decide (n ≤ m))))).getD 0

/-- Rows that a workgroup's gangs take in lane group `lg`, the gangs going to lane groups in turn from `first`. -/
def rowsIn (first lg : Nat) : List (Nat × Nat) → Nat → Nat
  | [], _ => 0
  | g :: gs, i => (if (first + i) % 4 = lg then g.2 else 0) + rowsIn first lg gs (i + 1)

/-- Admit one workgroup of gangs `gs` and `n` granules, if the core can (R427). -/
def CoreLoad.takes (c : CoreLoad) (gs : List (Nat × Nat)) (n : Nat) : Option CoreLoad :=
  let f := firstGroup c.count
  if c.slots = 0 || decide (64 < c.gangs + gs.length) || decide (c.granules < n) ||
      !(List.range 4).all (fun lg => decide (rowsIn f lg gs 0 ≤ c.rows.getD lg 0)) then none
  else some
    { slots := c.slots - 1
      granules := c.granules - n
      gangs := c.gangs + gs.length
      count := (List.range 4).map (fun lg => c.count.getD lg 0 + ((List.range gs.length).filter (fun i => decide ((f + i) % 4 = lg))).length)
      rows := (List.range 4).map (fun lg => c.rows.getD lg 0 - rowsIn f lg gs 0) }

/-- Admit `k` workgroups at once. -/
def CoreLoad.admitMany (gs : List (Nat × Nat)) (n : Nat) : Nat → CoreLoad → Option CoreLoad
  | 0, c => some c
  | k + 1, c => match c.takes gs n with
    | some d => CoreLoad.admitMany gs n k d
    | none => none

/-- The loads of the cores that a choice may use: coreid and load. -/
abbrev Loads := List (Nat × CoreLoad)

/-- A load in a list. -/
def loadOf (ls : Loads) (core : Nat) : Option CoreLoad := (ls.find? (fun e => decide (e.1 = core))).map (·.2)

/-- Put a load. -/
def putLoadOf (ls : Loads) (core : Nat) (c : CoreLoad) : Loads := ls.map (fun e => if e.1 = core then (core, c) else e)

/-- The core for one workgroup: of those that pass, the one with the fewest resident gangs, the lowest coreid on a tie
(R427). -/
def bestCore (gs : List (Nat × Nat)) (n : Nat) (ls : Loads) : Option Nat :=
  let ok := ls.filter (fun e => (e.2.takes gs n).isSome)
  (ok.find? (fun e => ok.all (fun f => decide (e.2.gangs ≤ f.2.gangs)))).map (·.1)

/-- Cores for `m` workgroups, one after another. -/
def greedy (gs : List (Nat × Nat)) (n : Nat) : Nat → Loads → Option (List Nat)
  | 0, _ => some []
  | m + 1, ls =>
    match bestCore gs n ls with
    | none => none
    | some c => match (loadOf ls c).bind (fun x => x.takes gs n) with
      | none => none
      | some y => (greedy gs n m (putLoadOf ls c y)).map (c :: ·)

/-! ### Neighbourhoods (R428) -/

/-- The core at a position of a die's grid (01 R18). -/
def coreAtPos (die x y : Nat) : Nat := 60 * die + 4 * (x / 2 + 5 * (y / 2)) + (x % 2 + 2 * (y % 2))

/-- The cores of a rectangle, row by row. -/
def rectangle (die nw nh x y : Nat) : List Nat :=
  ((List.range nh).map (fun j => (List.range nw).map (fun i => coreAtPos die (x + i) (y + j)))).flatten

/-- The rectangles of a die in the order of R428. -/
def rectangles (die nw nh : Nat) : List (List Nat) :=
  ((List.range (7 - nh)).map (fun y => (List.range (11 - nw)).map (fun x => rectangle die nw nh x y))).flatten

/-- The loads after each core of a rectangle has admitted `k` workgroups, if all can. -/
def admitRect (gs : List (Nat × Nat)) (n k : Nat) : List Nat → Loads → Option Loads
  | [], ls => some ls
  | c :: cs, ls => match (loadOf ls c).bind (CoreLoad.admitMany gs n k) with
    | some x => admitRect gs n k cs (putLoadOf ls c x)
    | none => none

/-- Cores for `m` neighbourhoods, one after another, each in the first rectangle that fits. -/
def placeRects (gs : List (Nat × Nat)) (n k : Nat) (rects : List (List Nat)) : Nat → Loads → Option (List Nat)
  | 0, _ => some []
  | m + 1, ls =>
    match rects.findSome? (fun r => (admitRect gs n k r ls).map (fun l => (r, l))) with
    | none => none
    | some (r, l) => (placeRects gs n k rects m l).map ((r.map (fun c => List.replicate k c)).flatten ++ ·)

/-- Granules of a launch's workgroup. -/
def Launch.granules (l : Launch) : Nat := l.num 0x10 4 / 128

/-- Cores for the next `m` units of a launch among the loads and rectangles given, in wgid order. -/
def Launch.place (l : Launch) (rects : List (List Nat)) (ls : Loads) (m : Nat) : Option (List Nat) :=
  if bit l.flags 1 then placeRects l.gangs l.granules (l.num 0x3A 1) rects m ls
  else if 16 * ls.length < m then none
  else greedy l.gangs l.granules m ls

/-! ### The dispatcher's choice (R426, R429) -/

/-- The work cores of a partition, by coreid: those of its clusters, reeve cores apart (01 R21, R30). -/
def State.workCores (s : State) (part : Nat) : List Nat :=
  let cls := (s.partAt part).clusters
  (List.range 480).filter (fun c => cls.contains (clusterOfCore c) && decide (c ≠ s.reeveCore (dieOfCore c)))

/-- Cores of a die that are reserved for another launch (R429). -/
def State.reservedFrom (s : State) (l : Launch) (core : Nat) : Bool :=
  match (s.dieAt (dieOfCore core)).reserved with
  | some (i, cs) => decide (i ≠ l.id) && cs.contains core
  | none => false

/-- The rectangle that a launch has reserved on a die. -/
def State.reservation (s : State) (l : Launch) (die : Nat) : Option (List Nat) :=
  match (s.dieAt die).reserved with
  | some (i, cs) => if i = l.id then some cs else none
  | none => none

/-- Units that are admitted together: all that are left of a whole launch, one otherwise. -/
def Launch.batch (l : Launch) : Nat := if l.whole then (l.wgs - l.next) / l.unit else 1

/-- The dies that a choice of one die's dispatcher may use. -/
def Launch.diesFor (l : Launch) (die : Nat) : List Nat := if l.devBound then List.range 8 else [die]

/-- The cores that the dispatcher of a die would give to a launch now; none when it is not admissible there (R426 to
R429). -/
def State.plan (s : State) (l : Launch) (die : Nat) : Option (List Nat) :=
  let dies := l.diesFor die
  let cores := (s.workCores l.part).filter (fun c => dies.contains (dieOfCore c) && !s.reservedFrom l c)
  let rects := (dies.map (fun d => match s.reservation l d with
    | some cs => [cs]
    | none => rectangles d (l.num 0x38 1) (l.num 0x39 1))).flatten
  if cores.isEmpty then none
  else (l.place rects (cores.map (fun c => (c, s.coreLoad c))) l.batch).filter (fun cs => !cs.isEmpty)

/-- The launch could never be admitted, even with every core empty (R423, cause 6). -/
def State.neverFits (s : State) (l : Launch) : Bool :=
  let cores := s.workCores l.part
  !((if l.devBound then [List.range 8] else (List.range 8).map (fun d => [d])).any (fun dies =>
    let cs := cores.filter (fun c => dies.contains (dieOfCore c))
    let rects := (dies.map (fun d => rectangles d (l.num 0x38 1) (l.num 0x39 1))).flatten
    !cs.isEmpty && (l.place rects (cs.map (fun c => (c, CoreLoad.empty))) l.batch).isSome))

/-- The launch stands at the head of its queue with workgroups that wait for admission. -/
def State.isHead (s : State) (l : Launch) : Bool :=
  decide (l.next < l.wgs) && l.code.isSome && !s.launchFailed l &&
  !(match s.admission with
    | some a => decide (a.1 = l.id)
    | none => false)

/-- The launch holds a workgroup that waits for admission, the choice in progress included. -/
def State.waits (s : State) (l : Launch) : Bool := decide (l.next < l.wgs) && l.code.isSome && !s.launchFailed l

/-- The launch has work cores on a die. -/
def State.onDie (s : State) (l : Launch) (die : Nat) : Bool := (s.workCores l.part).any (fun c => decide (dieOfCore c = die))

/-- An aged die- or dev-bound head of a die: all back-fill there stops (R429). -/
def State.agedWhole (s : State) (die : Nat) : Option Launch :=
  s.launches.find? (fun l => s.isHead l && l.whole && l.aged && s.onDie l die)

/-- The heads that are admissible on a die, with their cores: the set E of R426. -/
def State.candidates (s : State) (die : Nat) : List (Launch × List Nat) :=
  (s.launches.filter (fun l => s.isHead l && (match s.agedWhole die with
    | some a => decide (a.id = l.id)
    | none => true))).filterMap (fun l => (s.plan l die).map (fun cs => (l, cs)))

/-- A workgroup of a waiting launch could be placed on a core: by itself; within a rectangle; with all that is left of a
launch that is admitted whole (R427 to R429; 04 R105). -/
def State.couldPlace (s : State) (core : Nat) (l : Launch) : Bool :=
  let die := dieOfCore core
  let dies := l.diesFor die
  let loads := ((s.workCores l.part).filter (fun c => dies.contains (dieOfCore c) && !s.reservedFrom l c)).map (fun c => (c, s.coreLoad c))
  let rects := (dies.map (fun d => match s.reservation l d with
    | some cs => [cs]
    | none => rectangles d (l.num 0x38 1) (l.num 0x39 1))).flatten
  s.waits l && !(s.agedWhole die).any (fun a => decide (a.id ≠ l.id)) &&
  (if bit l.flags 1 then (rects.filter (fun r => r.contains core)).any (fun r =>
      match admitRect l.gangs l.granules (l.num 0x3A 1) r loads with
      | some ls => (placeRects l.gangs l.granules (l.num 0x3A 1) rects (l.batch - 1) ls).isSome
      | none => false)
    else ((loadOf loads core).bind (fun c => c.takes l.gangs l.granules)).isSome && (l.place rects loads l.batch).isSome)

/-- Common multiple of the shares: v is kept in this fraction of a unit, so that each addition is exact
(log entry 38, DEDUCED). -/
def shareUnit : Nat := (List.range 256).foldl (fun m i => if i = 0 then m else Nat.lcm m i) 1

/-- v of a partition at a die (log entry 38, DEDUCED). -/
def Die.v (d : Die) (p : Nat) : Nat := mapGet 0 d.share p


/-- v of the partitions that enter E is raised to the least of the others there (R426). -/
def Die.enter (d : Die) (ps : List Nat) : Die :=
  let new_ := ps.filter (fun p => !d.contending.contains p)
  let raise := fun (d : Die) (p : Nat) =>
    match ((ps.filter (fun q => decide (q ≠ p))).map d.v).min? with
    | some m => if d.v p < m then { d with share := mapSet 0 d.share p m } else d
    | none => d
  { new_.foldl raise d with contending := ps }

/-- The choice of R426 among the candidates (log entry 38, DEDUCED). -/
def State.choose (s : State) (die : Nat) (cs : List (Launch × List Nat)) : Option (Launch × List Nat) :=
  let d := s.dieAt die
  let top := cs.filter (fun c => cs.all (fun e => decide (e.1.prio ≤ c.1.prio)))
  let least := top.filter (fun c => top.all (fun e =>
    decide (d.v c.1.part < d.v e.1.part) || (decide (d.v c.1.part = d.v e.1.part) && decide (c.1.part ≤ e.1.part))))
  match least with
  | [] => none
  | c :: _ =>
    let last := mapFind (c.1.part * 4 + c.1.prio) d.lastQueue
    let rank : Launch × List Nat → Nat := fun e => (match last with
      | some q => if q < e.1.queue then e.1.queue else e.1.queue + 4096
      | none => e.1.queue)
    least.find? (fun e => least.all (fun f => decide (rank e ≤ rank f)))

/-- Change a launch. -/
def State.updLaunch (s : State) (id : Nat) (f : Launch → Launch) : State :=
  { s with launches := s.launches.map (fun l => if l.id = id then f l else l) }

/-- Heads that fail for the first time on a die (R429). -/
def State.newlyFailed (s : State) (die : Nat) : List Nat :=
  (s.launches.filter (fun l => s.isHead l && !l.failedOnce && s.onDie l die && (s.plan l die).isNone)).map (·.id)

/-- A choice is made (R426). -/
def State.chosen (s : State) (die : Nat) (l : Launch) (cores : List Nat) : State := { s with admission := some (l.id, cores, die) }

/-- Workgroups have been admitted: v, the queue served, and the passes of the heads that wait on the die of each
(R426, R429). -/
def State.charge (s : State) (die : Nat) (l : Launch) (cores : List Nat) : State :=
  let s := s.updDie die (fun d => { d with
    share := mapSet 0 d.share l.part (d.v l.part + 256 * (l.gangs.length * cores.length) * shareUnit / max 1 (s.partAt l.part).share)
    lastQueue := mapPut (l.part * 4 + l.prio) l.queue d.lastQueue })
  { s with
    launches := s.launches.map (fun (k : Launch) =>
      if k.id ≠ l.id && k.failedOnce && s.isHead k then
        { k with passes := k.passes + (cores.filter (fun c => s.onDie k (dieOfCore c))).length }
      else k) }

/-- DISPATCH (R426): one choice of a die's dispatcher, which WORKGROUP_ADMISSION carries out. -/
def execDispatch (die : Nat) (s : State) : Res :=
  if s.admission.isSome then .next s
  else
    let fs := s.newlyFailed die
    let s := { s with launches := s.launches.map (fun (l : Launch) => if fs.contains l.id then { l with failedOnce := true } else l) }
    let cs := s.candidates die
    let s := s.updDie die (fun d => d.enter (cs.map (fun c => c.1.part)).eraseDups)
    .next (match s.choose die cs with
      | some (l, cores) => s.chosen die l cores
      | none => s)

/-! ### Ageing (R429) -/

/-- Live workgroups on the cores of a rectangle. -/
def State.rectLoad (s : State) (cs : List Nat) : Nat := (cs.map (fun c => (s.wgsOnCore c).length)).sum

/-- The rectangle that an aged neighbourhood head reserves on a die: of those whose positions are all work cores of the
partition, the one whose cores hold the fewest workgroups (R429). -/
def State.reserveRect (s : State) (l : Launch) (die : Nat) : Option (List Nat) :=
  let cores := s.workCores l.part
  let rs := (rectangles die (l.num 0x38 1) (l.num 0x39 1)).filter (fun r => r.all cores.contains)
  rs.find? (fun r => rs.all (fun q => decide (s.rectLoad r ≤ s.rectLoad q)))

/-- The launch holds a reservation on some die. -/
def State.hasReservation (s : State) (l : Launch) : Bool := s.dies.any (fun e => (s.reservation l e.1).isSome)

/-- HEAD_AGEING (R429): 2 ms after its first failure, or after 16 passes, a head ages. A neighbourhood head reserves a
rectangle when the die holds no reservation. -/
def execHeadAgeing (die queue : Nat) (s : State) : Res :=
  .next (match s.launches.find? (fun l => decide (l.queue = queue) && s.isHead l && l.failedOnce && s.onDie l die) with
    | none => s
    | some l =>
      let s := s.updLaunch l.id (fun l => { l with aged := true })
      if !bit l.flags 1 || l.whole || (s.dieAt die).reserved.isSome || s.hasReservation l then s
      else match s.reserveRect l die with
        | some r => s.updDie die (fun d => { d with reserved := some (l.id, r) })
        | none => s)

/-! ### Admission (R424, R427; 01 R28; 02 R48; 07 R195, R196) -/

/-- The Barn granules for an admission: partly used ways from the highest number down, then free ways from 31 down (R195);
within a way the lowest free granule first (log entry 24, DESIGN CHOICE). -/
def barnPlacement (used : List Nat) (n : Nat) : List Nat :=
  let ways := ((List.range 28).map (fun i => 31 - i))
  let inWay := fun w => used.filter (fun g => decide (g / 128 + 4 = w))
  let part := ways.filter (fun w => !(inWay w).isEmpty)
  let free := ways.filter (fun w => (inWay w).isEmpty)
  (((part ++ free).map (fun w => ((List.range 128).map (fun i => (w - 4) * 128 + i)).filter (fun g => !used.contains g))).flatten).take n

/-- The lines of lent ways that an admission takes back are written back and invalidated (R195). -/
def State.reclaim (s : State) (core : Nat) (granules : List Nat) : State :=
  (s.coreAt core).l1.foldl (fun s e =>
    if granules.any (fun g => decide (g / 128 + 4 = e.2.way)) then s.flushLine core e.1 else s) s

/-- The granules of an allocation are zero, whatever bytes of earlier workgroups any core's store queue still held (R196). -/
def State.zeroBarn (s : State) (core : Nat) (granules : List Nat) : State :=
  (s.drainInto core).updCore core (fun c => { c with
    banks := granules.foldl (fun m g => mapDropRange (g * 128) 128 m) c.banks })

/-- The granules that the workgroups of a choice take on a core. -/
def State.claimOn (s : State) (l : Launch) (cores : List Nat) (core : Nat) : List Nat :=
  barnPlacement (s.barnUsed core) (l.granules * (cores.filter (fun c => decide (c = core))).length)

/-- The ways that an admission takes back on a core. -/
def wayOfGranules (granules : List Nat) : List Nat := (granules.map (fun g => g / 128 + 4)).eraseDups

/-- Write-backs of ways that an admission takes back are under way (R195). -/
def State.reclaimPending (s : State) (cores : List Nat) : Bool :=
  cores.any (fun c => (s.coreAt c).drains.any (fun i => s.msgs.any (fun m => decide (m.id = i))))

/-- The reclaim of a core's ways has begun (R195). -/
def State.reclaimBegun (s : State) (l : Launch) (cores : List Nat) : Bool :=
  cores.all (fun c => decide ((s.coreAt c).reclaiming = wayOfGranules (s.claimOn l cores c)))

/-- The cores of a choice stop allocating lines into the ways that it takes back, and write their lines back (R195). -/
def State.beginReclaim (s : State) (l : Launch) (cores : List Nat) : State :=
  cores.eraseDups.foldl (fun s c =>
    let gs := s.claimOn l cores c
    let t := s.reclaim c gs
    t.updCore c (fun x => { x with reclaiming := wayOfGranules gs, drains := t.flushing c })) s

/-- The ways are the Barn's, or lent again. -/
def State.endReclaim (s : State) (cores : List Nat) : State :=
  cores.foldl (fun s c => s.updCore c (fun x => { x with reclaiming := [], drains := [] })) s

/-- The choice in progress of a launch is dropped. -/
def State.dropAdmission (s : State) (id : Nat) : State :=
  match s.admission with
  | some (i, cs, _) => if i = id then { s with admission := none }.endReclaim cs else s
  | none => s

/-- A gang as its launch starts it (R424; 02 R48). -/
def Launch.newGang (l : Launch) (wid wgid num lg entry alloc age : Nat) : Gang :=
  let g := Gang.absent
  let entry := l.stride * entry
  let base := wgid * 1024 + num * 32
  let items := l.num 0xA8 4
  let pc : PcVal := BitVec.ofNat 56 ((l.code.getD 0).toNat + entry)
  let g : Gang := { g with
    live := true, wid := wid, num := num, lg := lg, alloc := alloc, age := age
    regs := { g.regs with exec := laneMask (fun i => decide (items = 0) || decide (base + i < items)) }
    flow := { g.flow with pc := setPcMap (fun _ => true) (fun _ => pc) 8 [] }
    trap := { g.trap with
      hpc1 := BitVec.ofNat 64 (l.num 0x90 8)
      hpc2 := BitVec.ofNat 64 (l.num 0x98 8)
      frame := BitVec.ofNat 64 (l.num 0xA0 8 + 2048 * (wgid * 32 + num)) } }
  let g := (List.range l.args.length).foldl (fun g i => g.writeSlices i (fun _ => true) (fun _ => l.args.getD i 0)) g
  if bit l.flags 3 then g.writeLanes 0 (fun _ => true) (fun i => BitVec.ofNat 32 (base + i)) else g

/-- A gang joins its lane group's ring directly behind the youngest gang (04 R99). -/
def State.joinRing (s : State) (core lg key : Nat) : State :=
  let r := mapGet [] (s.coreAt core).ring lg
  let youngest := r.findIdx? (fun k => r.all (fun j => decide ((s.gangAt j).age ≤ (s.gangAt k).age)))
  let at_ := match youngest with
    | some i => i + 1
    | none => 0
  s.updCore core (fun c => { c with ring := mapPut lg (r.take at_ ++ key :: r.drop at_) c.ring })

/-- The gangs of a workgroup start, in lane groups in turn (R28). -/
def State.startGangs (l : Launch) (wid wgid first : Nat) : List (Nat × Nat) → Nat → State → State
  | [], _, s => s
  | g :: gs, i, s =>
    let lg := (first + i) % 4
    let r := s.takeId
    let s := (r.2.setGangAt (gangKey wid i) (l.newGang wid wgid i lg g.1 g.2 r.1)).joinRing (coreOfWid wid) lg (gangKey wid i)
    let s := s.fitRows (gangKey wid i)
    State.startGangs l wid wgid first gs (i + 1) s

/-- The lowest free workgroup slot of a core. -/
def State.freeSlot (s : State) (core : Nat) : Nat := (findBelow (fun i => !(s.wgAt (core * 16 + i)).live) 16).getD 0

/-- A workgroup with its admission's values: b0 expects its gangs (10 R256). -/
def Launch.newWorkgroup (l : Launch) (wgid nbhId age : Nat) (nbh : Option Nat) (barn : List Nat) : Workgroup :=
  { Workgroup.absent with
    live := true, wgid := wgid, gangs := l.gangs.length, nbh := nbh, nbhId := nbhId, part := l.part, pasid := l.pasid
    launch := l.id, pb := BitVec.ofNat 64 (l.num 0x18 8), z := l.num 0x14 4, barn := barn, age := age
    bars := [(0, { Bar.zero with init := true, e := l.gangs.length })] }

/-- Admit the next workgroup of a launch on a core. Its gangs see what came before the raises that led to it: the core's L1
keeps no clean byte (15 R385). -/
def State.admitOne (l : Launch) (wgid core nbhId : Nat) (nbh : Option Nat) (s : State) : State :=
  let wid := core * 16 + s.freeSlot core
  let first := firstGroup (s.coreLoad core).count
  let barn := barnPlacement (s.barnUsed core) l.granules
  let s := ((s.reclaim core barn).zeroBarn core barn).dropClean core
  let r := s.takeId
  State.startGangs l wid wgid first l.gangs 0 (r.2.setWgAt wid (l.newWorkgroup wgid nbhId r.1 nbh barn))

/-- The cores still take the workgroups that a choice gives them, and no reservation or aged head keeps them from it. -/
def State.stillFits (s : State) (l : Launch) (cores : List Nat) : Bool :=
  let us := cores.eraseDups
  !us.any (s.reservedFrom l) &&
  !us.any (fun c => (s.agedWhole (dieOfCore c)).any (fun a => decide (a.id ≠ l.id))) &&
  us.all (fun c => ((s.coreLoad c).admitMany l.gangs l.granules (cores.filter (fun d => decide (d = c))).length).isSome &&
    (s.workCores l.part).contains c)

/-- Admit workgroups on cores in turn. -/
def State.admitAll (l : Launch) : List Nat → Nat → Nat → State → State
  | [], _, _, s => s
  | c :: cs, i, nbhId, s =>
    let j := i % l.unit
    let r := if j = 0 then s.takeId else (nbhId, s)
    State.admitAll l cs (i + 1) r.1 (State.admitOne l (l.next + i) c r.1 (if bit l.flags 1 then some j else none) r.2)

/-- A reservation of a launch ends (R429). -/
def State.endReservation (s : State) (id : Nat) : State :=
  { s with dies := s.dies.map (fun (e : Nat × Die) => (e.1, { e.2 with reserved := e.2.reserved.filter (fun r => decide (r.1 ≠ id)) })) }

/-- WORKGROUP_ADMISSION (R195, R196, R424, R427): the choice that a dispatcher has made is carried out, and counted, unless
the launch has failed since or its cores take the workgroups no more. It waits until the write-backs of the ways that it takes
back are acknowledged. -/
def execWorkgroupAdmission (launch : Nat) (cores : List Nat) (s : State) : Res :=
  match s.admission with
  | none => .next s
  | some (i, cs, die) =>
    if i ≠ launch || cs ≠ cores then .next s
    else
      match s.launches.find? (fun l => decide (l.id = launch)) with
      | none => .next (s.dropAdmission launch)
      | some l =>
        if s.launchFailed l || !s.stillFits l cores then .next (s.dropAdmission launch)
        else if !s.reclaimBegun l cores && (s.beginReclaim l cores).reclaimPending cores then .next (s.beginReclaim l cores)
        else if s.reclaimPending cores then .next s
        else
          let s := s.dropAdmission launch
          .next ((((State.admitAll l cores 0 0 s).updLaunch launch (fun k => { k with next := l.next + cores.length })).endReservation
          launch).charge die l cores)

/-! ### Retirement and completion (R430) -/

/-- The launch of a number ends: its record is written, then the successor cell is raised; its admission and reservation
are dropped (R416, R429, R430). -/
def State.endLaunch (s : State) (l : Launch) (cause : Nat) (fatal : List Byte) : State :=
  let s := ({ s with launches := s.launches.filter (fun k => decide (k.id ≠ l.id)) }.dropAdmission l.id).endReservation l.id
  match (s.queueAt l.queue).packet 1 l.pkt with
  | some p => s.endPacket l.queue p cause 0 fatal
  | none => s

/-- The successor cell of a completed launch is raised by 1 (R430). -/
def State.raiseSuccessor (s : State) (l : Launch) : State := if bit l.flags 2 then s.raiseCell (l.num 0x3C 4) 1 else s

/-- A launch whose last workgroup has retired completes (R430): with cause 8 when its PASID was torn down, else with 7 and the
record when a workgroup ended fatally (R417). One that its partition's removal ends completes at the removal's end (R421). -/
def State.finishLaunch (s : State) (id : Nat) : State :=
  match s.launches.find? (fun l => decide (l.id = id)) with
  | none => s
  | some l =>
    if l.retired = l.next && decide (l.doom ≠ some 12) && (l.doom.isSome || l.fatal.isSome || decide (l.next = l.wgs)) then
      (match l.doom, l.fatal with
        | some c, _ => s.endLaunch l c []
        | none, some r => s.endLaunch l 7 r
        | none, none => s.endLaunch l 0 []).raiseSuccessor l
    else s

/-- The L1 lines of a slot become orphans (07 R193). -/
def State.orphanLines (s : State) (core slot : Nat) : State :=
  s.updCore core (fun c => { c with l1 := c.l1.map (fun (e : Nat × L1Line) =>
    if e.2.slot = slot then (e.1, { e.2 with orphan := true }) else e) })

/-- A core's resources of a workgroup are free: tiles, Barn, slot (R430, R400). The status of its commands that ended stays
among the core's 48, under no workgroup (11 R295). -/
def State.freeWorkgroup (s : State) (wid : Nat) : State :=
  let s := ((s.wgAt wid).tiles.map (·.1)).foldl (fun s h => s.freeTile wid h) s
  let s := s.orphanLines (coreOfWid wid) (slotOfWid wid)
  { s with
    wgs := mapDrop wid s.wgs
    gangs := s.gangs.filter (fun e => decide (e.2.wid ≠ wid))
    cores := s.cores.map (fun (e : Nat × Core) =>
      if e.1 = coreOfWid wid then (e.1, { e.2 with ended := e.2.ended.map (fun x => if x.1 = wid then (2 ^ 40, x.2) else x) }) else e) }

/-- A workgroup retires (R430): the release at dev scope, its named groups, the invocations it has bound and not ended
(15 R377), and its resources. -/
def State.retireWg (s : State) (wid : Nat) : State :=
  let w := s.wgAt wid
  let s := (s.releaseActs (coreOfWid wid) 4).groupRetire wid
  let s := (s.execs.filter (fun x => decide (x.settled = 0) && (match x.bound with
    | some (b, _) => decide (b = wid)
    | none => false))).foldl (fun s x => s.breakExec x (if w.removed then 6 else 5)) s
  let s := { s with execs := s.execs.map (fun (x : Exec) => match x.bound with
    | some (b, n) => if b = wid then { x with bound := some (2 ^ 40, n) } else x
    | none => x) }
  (s.freeWorkgroup wid).updLaunch w.launch (fun l => { l with
    retired := l.retired + 1 })

/-- Accesses that the ended gangs of a workgroup had issued perform yet (16 R397). -/
def State.lateLeft (s : State) (wid : Nat) : Bool := s.gangs.any (fun e => decide (e.2.wid = wid) && !e.2.late.isEmpty)

/-- WORKGROUP_RETIREMENT (R430): all gangs have ended, and what they had issued has performed (16 R397). It counts as retired
once every dirty line of its core has been written back and acknowledged, those of other devices by a message. -/
def execWorkgroupRetirement (wid : Nat) (s : State) : Res :=
  let w := s.wgAt wid
  let core := coreOfWid wid
  if w.live && (s.gangsOf wid).isEmpty && !s.lateLeft wid then
    let t := s.releaseActs core 4
    .next (if (t.flushing core).isEmpty then (s.retireWg wid).finishLaunch w.launch else t)
  else .next s

/-! ### Starting a LAUNCH (R422, R423) -/

/-- A launch enters: its groups are configured, and it waits for the dispatcher; `code` is none until a Plaquel image is
translated. -/
def State.enterLaunch (s : State) (l : Launch) : State :=
  let s := l.groupRequests.foldl (fun s r => s.configureGroup l.part r) s
  { s with launches := s.launches ++ [l] }

/-- LAUNCH_PACKET (R423): the record and the argument block are read once. -/
def execLaunchPacket (queue : Nat) (s : State) : Res :=
  startPacket queue (fun t _ => decide (t = 1)) (fun p fs back s =>
    let a := fieldNum fs 0x10 0 8
    let stop := fun (s : State) c => s.endPacket queue p c 0 []
    match s.readRun p.part 5 p.pasid a 256 with
    | (t, .error e) => t.faulted back queue p e 0
    | (s, .ok rec_) =>
      let r := s.takeId
      let l : Launch := { id := r.1, queue := queue, prio := (s.queueAt queue).prio, pkt := p.id, part := p.part, pasid := p.pasid, record := rec_,
                          addr := a, args := [], code := none, stride := 1, next := 0, retired := 0, fatal := none, doom := none, passes := 0,
                          failedOnce := false, aged := false }
      let s := r.2
      if !l.recordOk || (bit l.flags 2 && decide ((s.cellAt (l.num 0x3C 4)).owner ≠ some p.part)) ||
          s.groupConflict p.part l then stop s 5
      else if s.neverFits l then stop s 6
      else
        let n := 4 * l.num 0x88 1
        match (if n = 0 then (s, .ok []) else s.readRun p.part 5 p.pasid (l.num 0x80 8) n) with
        | (t, .error e) => t.faulted back queue p e 0
        | (s, .ok bs) =>
          let l := { l with
            args := (chunks 4 16 bs).map (fun b => BitVec.ofNat 32 (ofBytesLE b))
            code := if bit l.flags 0 then none else some (BitVec.ofNat 64 (l.num 0 8)) }
          let s := s.enterLaunch l
          s.updQueue queue (fun q => { q with running := q.running.map (fun x => if x.id = p.id then { x with ref := l.id } else x) })) s

end Sys2Proof.Machine
end

