-- ==== Sys2Proof/Machine/Plaquel.lean ====
section
/-! DEFINITION. Plaquel images: the checks of 02 R63 and R65, translation to native words, and the partition's
code-address table and translation cache (R64, R66). -/

namespace Sys2Proof.Machine

/-! ### The image (R62, R63) -/

/-- Header fields of an image. -/
structure PHeader where
  ktab : Nat
  kcount : Nat
  code : Nat
  words : Nat
  data : Nat
  dbytes : Nat
  crefs : Nat
  ccount : Nat
  total : Nat
deriving DecidableEq, Repr

/-- The header of an image, when its own fields are legal (R63, R65); one that breaks an alignment or a range of R63 which R65
does not list is rejected as well, with the same cause 4 (log entry 36, DEDUCED). -/
def pHeader (b : List Byte) : Option PHeader :=
  let n := fun o => blockNum b o 4
  let h : PHeader := { ktab := n 8, kcount := n 0x0C, code := n 0x10, words := n 0x14, data := n 0x18, dbytes := n 0x1C,
                       crefs := n 0x20, ccount := n 0x24, total := n 0x28 }
  if n 0 = 0x4C514C50 && blockNum b 4 2 = 1 && blockZero b 6 2 && blockZero b 0x2C 20 &&
      decide (1 ≤ h.kcount) && decide (h.kcount ≤ 4096) && decide (1 ≤ h.words) && decide (h.words ≤ 16777216) &&
      decide (h.ktab % 8 = 0) && decide (h.code % 8 = 0) && decide (h.crefs % 4 = 0) && decide (64 ≤ h.total) &&
      decide (h.ktab + 64 * h.kcount ≤ h.total) && decide (h.code + 8 * h.words ≤ h.total) &&
      decide (h.data + h.dbytes ≤ h.total) && decide (h.crefs + 4 * h.ccount ≤ h.total) then some h
  else none

/-- The kernels of an image: first Plaquel word and count (R63). -/
def pKernels (h : PHeader) (b : List Byte) : List (Nat × Nat) :=
  (List.range h.kcount).map (fun i => (blockNum b (h.ktab + 64 * i) 4, blockNum b (h.ktab + 64 * i + 4) 4))

/-- The Plaquel words. -/
def pWords (h : PHeader) (b : List Byte) : List Nat := (chunks 8 h.words ((b.drop h.code).take (8 * h.words))).map ofBytesLE

/-- A Plaquel word lies in a kernel of the list. -/
def inKernel (ks : List (Nat × Nat)) (i : Nat) : Bool := ks.any (fun k => decide (k.1 ≤ i) && decide (i < k.1 + k.2))

/-- The opcode of an operation. -/
def pOpcode (w : Nat) : Nat := field w 24 8

/-- The signed offset of a br (16 bits) or a call (24 bits), in Plaquel words (R62). -/
def pOffset (w : Nat) : Option Int :=
  if pOpcode w = 0x01 then some (signedOf 16 w) else if pOpcode w = 0x03 then some (signedOf 24 w) else none

/-- An image has no reserved etype, round or nu; any other illegal value traps when the native word is reached (R65). -/
def imageFieldsOk (x : Nat) : Bool := decide (field x 6 5 < 19) && decide (field x 11 3 < 5) && decide (field x 17 6 < 62)

/-- Word `i` of the image may be translated: legal attributes, no write of MODE, and a target within its kernel (R65). That an
operation which reads no MODE field carries the image of R62 is not checked: R65 lists no rejection for it
(log entry 86, DESIGN CHOICE). -/
def pWordOk (ks : List (Nat × Nat)) (i w : Nat) : Bool :=
  field w 55 8 = 0 && imageFieldsOk (field w 32 23) && decide (pOpcode w ≠ 0x20) && decide (pOpcode w ≠ 0x21) && decide (pOpcode w ≠ 0x23) &&
  (match pOffset w with
    | none => true
    | some o => ks.all (fun k => !(decide (k.1 ≤ i) && decide (i < k.1 + k.2)) ||
        (decide ((k.1 : Int) ≤ i + o) && decide ((i : Int) + o < k.1 + k.2))))

/-- The image is accepted (R65) (log entry 36, DEDUCED). -/
def pImageOk (h : PHeader) (b : List Byte) : Bool :=
  let ks := pKernels h b
  ks.all (fun k => decide (k.1 + k.2 ≤ h.words)) &&
  (List.range h.kcount).all (fun i => blockZero b (h.ktab + 64 * i + 0x0B) 1) &&
  (pWords h b).zipIdx.all (fun x => pWordOk ks x.2 x.1) &&
  (List.range h.ccount).all (fun i =>
    let o := blockNum b (h.crefs + 4 * i) 4
    decide (o + 8 ≤ h.dbytes) && inKernel ks (blockNum b (h.data + o) 8))

/-! ### Translation (R64) -/

/-- A branch that always takes an offset, in native words (03 R71). -/
def jumpWord (o : Int) : Nat := 0x01 * 2 ^ 24 + 3 * 2 ^ 16 + wrapTo 16 o

/-- An offset fits a field of `n` bits. -/
def fits (n : Nat) (o : Int) : Bool := decide (-(2 ^ (n - 1) : Int) ≤ o) && decide (o < 2 ^ (n - 1))

/-- Bits of the offset of a br or a call. -/
def offsetBits (w : Nat) : Nat := if pOpcode w = 0x01 then 16 else 24

/-- The native words that a Plaquel word takes: the msetg of its image and the operation; with `m` relays, also a jump past
them, and the relays (log entry 9, DESIGN CHOICE). -/
def slotWords (m : Nat) : Nat := if m = 0 then 2 else 3 + m

/-- The Plaquel words from which `n` bits of offset reach for sure, at `k` native words each. -/
def reachOf (n k : Nat) : Nat := (2 ^ (n - 1) - 1) / k - 1

/-- Relays by number, `m` to a Plaquel word: the word that each leads to in the end, and the native word that it jumps to. -/
abbrev Relays := SMap (Nat × Nat)

/-- The native word of a relay. -/
def relayPos (m r : Nat) : Nat := r / m * slotWords m + 3 + r % m

/-- The relay nearest to the target `t` among `n` that end at `r`: one that is free, or that leads to it already. -/
def findRelay (rs : Relays) (t : Nat) (up : Bool) : Nat → Nat → Option Nat
  | 0, _ => none
  | n + 1, r =>
    match mapFind r rs with
    | none => some r
    | some (u, _) => if u = t then some r else findRelay rs t up n (if up then r - 1 else r + 1)

/-- Relays from a place at Plaquel word `p`, whose reach is `d` words, to word `t`: the native word to go to first, and the
relays. A relay leads on to `t` itself, or to the next relay. -/
def relayTo (m t : Nat) : Nat → Nat → Nat → Relays → Option (Nat × Relays)
  | 0, _, _, _ => none
  | fuel + 1, p, d, rs =>
    let up := decide (p ≤ t)
    if (if up then t - p else p - t) ≤ d then some (t * slotWords m, rs)
    else match findRelay rs t up (d * m) (if up then (p + d) * m + (m - 1) else (p - d) * m) with
      | none => none
      | some r =>
        if (mapFind r rs).isSome then some (relayPos m r, rs)
        else (relayTo m t fuel (r / m) (reachOf 16 (slotWords m)) (mapPut r (t, 0) rs)).map (fun x =>
          (relayPos m r, mapPut r (t, x.1) x.2))

/-- The native words that the far branches and calls of an image go to first, and the relays, where `m` to a word are enough
(log entry 9, DESIGN CHOICE). -/
def relayPlan (m n : Nat) : List (Nat × Nat) → Option (SMap Nat × Relays)
  | [] => some ([], [])
  | (w, i) :: ws =>
    match relayPlan m n ws, pOffset w with
    | none, _ => none
    | some r, none => some r
    | some r, some o =>
      if fits (offsetBits w) (slotWords m * o - 1) then some r
      else (relayTo m ((i : Int) + o).toNat (n + 1) i (reachOf (offsetBits w) (slotWords m)) r.2).map (fun x =>
        (mapPut i x.1 r.1, x.2))

/-- The relays that an image needs to each word, none where every offset fits, and their plan: the fewest that are enough. -/
def bestPlan (ws : List Nat) : Option (Nat × SMap Nat × Relays) :=
  if ws.all (fun w => (pOffset w).all (fun o => fits (offsetBits w) (2 * o - 1))) then some (0, [], [])
  else [1, 2, 4, 8, 16, 32, 64, 128, 256].findSome? (fun m => (relayPlan m ws.length ws.zipIdx).map (fun p => (m, p)))

/-- The native operation of Plaquel word `i`, which stands second of its `k` words: its offset leads to its target, or to
its first relay. Where an image has more far targets across one place than native offsets of 16 bits can name, no rewriting
of offsets exists, and such a branch is encoded as the translator chooses (log entry 9, DESIGN CHOICE). -/
def nativeOp (k : Nat) (plan : SMap Nat) (i w : Nat) : Nat :=
  match pOffset w with
  | none => w % 2 ^ 32
  | some o =>
    let n := offsetBits w
    let x : Int := match mapFind i plan with
      | some q => (q : Int) - (k * i + 1)
      | none => k * o - 1
    if fits n x then field w n (32 - n) * 2 ^ n + wrapTo n x else Config.scheduleChoice (i * 2 ^ 64 + w) % 2 ^ 32

/-- The word of a relay: a jump to where it leads; one that is not used is never reached. -/
def relayWord (m : Nat) (rs : Relays) (r : Nat) : Nat :=
  match mapFind r rs with
  | some (_, q) => jumpWord ((q : Int) - relayPos m r)
  | none => jumpWord 1

/-- The native words of a Plaquel word: the msetg of its image, and the operation; then the jump past the relays, and the
relays. -/
def nativeWords (m : Nat) (plan : SMap Nat × Relays) (i w : Nat) : List Nat :=
  [0x21 * 2 ^ 24 + field w 32 23, nativeOp (slotWords m) plan.1 i w] ++
    (if m = 0 then [] else jumpWord (m + 1) :: (List.range m).map (fun j => relayWord m plan.2 (i * m + j)))

/-- The data section with the native addresses of the code references; Plaquel words stand `stride` bytes apart. -/
def nativeData (h : PHeader) (b : List Byte) (base stride : Nat) : List Byte :=
  (List.range h.ccount).foldl (fun d i =>
    let o := blockNum b (h.crefs + 4 * i) 4
    d.take o ++ bytesLE 8 (base + stride * blockNum b (h.data + o) 8) ++ d.drop (o + 8)) ((b.drop h.data).take h.dbytes)

/-- The bytes of the translation of an image at a native base: its words, then its data section (log entry 9, DESIGN CHOICE). -/
def nativeBytes (h : PHeader) (b : List Byte) (base : Nat) : List Byte :=
  let ws := pWords h b
  let (m, plan) := (bestPlan ws).getD (0, [], [])
  ((ws.zipIdx.map (fun x => ((nativeWords m plan x.2 x.1).map (bytesLE 4)).flatten)).flatten) ++
    nativeData h b base (4 * slotWords m)

/-- The translation of an image goes into the partition's translation region, at addresses that the firmware chooses: a
virtual one, and bytes of the partition's own channels (log entry 9, DESIGN CHOICE). -/
def State.storeNative (s : State) (part : Nat) (h : PHeader) (b : List Byte) (digest : BitVec 256) : State × Native :=
  let r := s.takeFresh
  let q := r.2.takeFresh
  let base := (Config.freeValue r.1).toNat % 2 ^ 47 * 128
  let chs := (s.partAt part).channels
  let place := chs.getD (Config.freeChoice chs.length q.1) 0 * 3221225472 + (Config.freeValue q.1).toNat % 2 ^ 20 * 2048
  let bs := nativeBytes h b base
  (q.2.writeHomeList place bs,
    { digest := digest, base := BitVec.ofNat 64 base, place := place, size := bs.length, stride := 4 * slotWords ((bestPlan (pWords h b)).getD (0, [], [])).1
      kernels := pKernels h b, cached := true })

/-! ### The table and the cache (R64, R66) -/

/-- The translation of a digest in a partition's cache. -/
def Part.native (p : Part) (d : BitVec 256) : Option Native := p.natives.find? (fun n => n.cached && decide (n.digest = d))

/-- The translation that an entry of the code-address table holds: it stays until a flush, whatever the cache drops (R64). -/
def Part.tabled (p : Part) (d : BitVec 256) : Option Native := p.natives.find? (fun n => decide (n.digest = d))

/-- The translations in the order in which they were launched last, latest first. -/
def Part.launched (p : Part) (n : Native) : Part :=
  { p with natives := n :: p.natives.filter (fun m => decide (m.base ≠ n.base)) }

/-- The least recently launched translation leaves the cache (R64). -/
def dropOldest : List Native → List Native
  | [] => []
  | n :: ns => if ns.any (·.cached) then n :: dropOldest ns else { n with cached := false } :: ns

/-- The cache takes a new translation: where the region is full, the least recently launched goes first. The spec gives the
region no size: whether it is full is a free choice (log entry 9, DESIGN CHOICE). -/
def State.cacheNative (s : State) (part : Nat) (n : Native) : State :=
  let full := decide (Config.freeChoice 2 s.fresh = 1)
  { s with fresh := s.fresh + 1 }.updPart part (fun p => { p with natives := n :: (if full then dropOldest p.natives else p.natives) })

/-- Enter an address at the front of the code-address table: 256 entries, the least recently launched out (R64). -/
def Part.enterCode (p : Part) (a : Nat) (d : BitVec 256) : Part :=
  { p with codeTable := ((a, d) :: p.codeTable.filter (fun e => decide (e.1 ≠ a))).take 256 }

/-- A Plaquel launch gets its native code: the address of its kernel's first word; cause 5 when the kernel or a role's
word index lies outside the image (R422). -/
def State.giveCode (s : State) (l : Launch) (n : Native) : State :=
  match n.kernels[l.num 0x0E 2]? with
  | none => s.endLaunch l 5 []
  | some k =>
    if (List.range 3).any (fun r => decide ((l.role r).2.1 ≠ 0) && decide (k.2 ≤ (l.role r).1)) then s.endLaunch l 5 []
    else (s.updPart l.part (fun p => p.launched n)).updLaunch l.id (fun x => { x with
      code := some (n.base + BitVec.ofNat 64 (n.stride * k.1)), stride := n.stride })

/-- The image cannot be read: when the fault is resolved, the firmware reads it again at a later turn, from `back`; otherwise
the launch ends with cause 10 (17 R412, R417). -/
def State.rereadImage (s back : State) (l : Launch) (e : IoErr) : State :=
  let r := s.resolves l.pasid e
  if r.2 then { back with fresh := r.1.fresh, nextId := r.1.nextId, mirrors := r.1.mirrors } else r.1.endLaunch l 10 []

/-- The launch's address misses the table: the firmware reads and checks the image, and translates it unless its digest
is cached (R64, R65) (log entry 36, DEDUCED). -/
def State.translateFor (s : State) (l : Launch) : State :=
  let a := l.num 0 8
  let back := s
  match s.readRun l.part 5 l.pasid a 64 with
  | (s, .error e) => s.rereadImage back l e
  | (s, .ok hb) =>
    match pHeader hb with
    | none => s.endLaunch l 4 []
    | some h =>
      match s.readRun l.part 5 l.pasid a h.total with
      | (s, .error e) => s.rereadImage back l e
      | (s, .ok b) =>
        let d := Config.shake256 b
        match (s.partAt l.part).native d with
        | some n => (s.updPart l.part (fun p => p.enterCode a d)).giveCode l n
        | none =>
          if !pImageOk h b then s.endLaunch l 4 []
          else
            let r := s.storeNative l.part h b d
            ((r.1.cacheNative l.part r.2).updPart l.part (fun p => p.enterCode a d)).giveCode l r.2

/-- PLAQUEL_TRANSLATION (R64 to R66): a launch that has no native code yet. -/
def execPlaquelTranslation (launch : Nat) (s : State) : Res :=
  .next (match s.launches.find? (fun l => decide (l.id = launch)) with
    | none => s
    | some l =>
      if l.code.isSome || l.doom.isSome then s
      else match (s.partAt l.part).codeTable.find? (fun e => decide (e.1 = l.num 0 8)) with
        | some e => match (s.partAt l.part).tabled e.2 with
          | some n => (s.updPart l.part (fun p => p.enterCode e.1 e.2)).giveCode l n
          | none => s.translateFor l
        | none => s.translateFor l)

end Sys2Proof.Machine
end

