-- ==== Sys2Proof/Machine/Partition.lean ====
section
/-! DEFINITION. Partitions: PARTITION packets and their five ops (17 R413, R421; 01 R30), the teardown of a PASID
(09 R252), and the actions of alarms (18 R444). -/

namespace Sys2Proof.Machine

/-! ### Ending work (16 R397, 17 R421, 09 R252) -/

/-- A queue stops: V = 0, its ring is not read, and packets that have not started are never read; it stays its partition's
(R413). -/
def State.stopQueue (s : State) (k : Nat) : State :=
  s.updQueue k (fun q => { q with
    desc := q.desc.zipIdx.map (fun b => if b.2 = 0x0B then b.1 &&& 0xFE else b.1), fed := [], stalled := false })

/-- The queues of a partition or PASID. -/
def State.queuesOf (s : State) (sel : Nat → Nat → Bool) : List Nat :=
  (s.queues.filter (fun e => decide (e.1 ≠ mgmtQueue) && !e.2.desc.isEmpty && sel e.2.part e.2.pasid)).map (·.1)

/-- Running packets other than launches end with a cause. One whose effects are under way ends when they have performed, and
keeps its result, and the cause that arose first unless R417 puts the new one before it (R416, R417). -/
def State.endRunning (s : State) (sel : Nat → Nat → Bool) (cause : Nat) : State :=
  s.queues.foldl (fun s e => (e.2.running.filter (fun p => decide (p.type ≠ 1) && decide (p.type ≠ 6) && sel p.part p.pasid)).foldl
    (fun s p =>
      let f := p.fate.getD (0, 0)
      (s.updPacket e.1 p.id (fun r => { r with held := false })).closePacket e.1 { p with held := false }
        (if f.1 = 0 || decide (cause = 8) then cause else f.1) f.2) s) s

/-- The fatal record of a workgroup that is ended from outside: reason 4 (16 R397, R398) (log entry 65, DEDUCED). -/
def State.killRecord (s : State) (wid : Nat) : List Byte :=
  let g := s.gangAt (((s.gangsOf wid).head?).getD (gangKey wid 0))
  fatalRecord [] { g with wid := wid } (s.wgAt wid).wgid g.trap.level 0 4

/-- A workgroup ends fatally from outside; it retires when what it had issued has performed (16 R397, 17 R430)
(log entry 65, DEDUCED). -/
def State.killWg (s : State) (wid : Nat) : State := s.endWorkgroup wid (s.killRecord wid)

/-- The workgroups that a test of partition and PASID selects. -/
def State.wgsWhere (s : State) (sel : Nat → Nat → Bool) : List Nat :=
  (s.wgs.filter (fun e => e.2.live && sel e.2.part e.2.pasid)).map (·.1)

/-- The launches of a partition or PASID admit no more, and end with a cause: each at once when none of its workgroups is
left, otherwise with the last of them (R417, R430). -/
def State.doomLaunches (s : State) (sel : Nat → Nat → Bool) (cause : Nat) : State :=
  let s := { s with launches := s.launches.map (fun (l : Launch) => if sel l.part l.pasid then { l with doom := some cause } else l) }
  (s.launches.filter (fun l => sel l.part l.pasid)).foldl (fun s l =>
    ((s.dropAdmission l.id).endReservation l.id).finishLaunch l.id) s

/-! ### Removing a partition (R421) -/

/-- The messages held for a handle break (15 R379). -/
def State.breakHeld (s : State) (h : DWord) : State :=
  (s.held.filter (fun m => decide (m.dep = h))).foldl (fun s m => s.breakHandle m.handle 7)
    { s with held := s.held.filter (fun m => decide (m.dep ≠ h)) }

/-- A handle slot of a removed partition is free: its issuer's count falls, what waits on it breaks, and its service's rput
and rfail have no effect from then on (15 R379). -/
def State.dropSlot (s : State) (k : Nat) : State :=
  let x := s.slotAt k
  if !x.used then s
  else
    let h := handleOf s.devid k x.gen.toNat x.kind
    let s := (s.acceptHandle k).freeHandle k h
    x.waitlist.foldl (fun s m => s.breakHandle m.handle 7) (s.breakHeld h)

/-- The invocations that a partition executes, or that wait in its inboxes or hold stores, break with cause 6 (R421). The
record of a bound one stays, for messages that name it (15 R369). -/
def State.breakService (s : State) (p : Nat) : State :=
  let s := (s.execs.filter (fun x => decide (x.part = p) && decide (x.settled = 0))).foldl (fun s x => s.breakExec x 6) s
  let s := (s.held.filter (fun m => decide (m.tpart = p))).foldl (fun s m =>
    ({ s with held := s.held.filter (fun h => decide (h.id ≠ m.id)) }).breakHandle m.handle 6) s
  { s with execs := (s.execs.filter (fun x => decide (x.part ≠ p) || x.bound.isSome)).map (fun x =>
      if x.part = p then { x with freed := true } else x) }

/-- The cores of a partition's clusters write back and invalidate their L1s (log entry 39, DEDUCED). -/
def State.flushPart (s : State) (p : Nat) : State :=
  (s.cores.filter (fun e => (s.partAt p).clusters.contains (clusterOfCore e.1))).foldl (fun s e =>
    (s.l1Lines e.1).foldl (fun s l => s.flushLine e.1 l) s) s

/-- Bytes of the channels of a list hold nothing of what they held, in no cache either: their keys are gone (R421, 18 R446;
log entry 10, DESIGN CHOICE). -/
def State.forgetChannels (s : State) (chs : List Nat) : State :=
  { s with mem := s.mem.filter (fun (c : Host.Cell) => !chs.contains (channelOf c.1))
           cores := s.cores.map (fun (e : Nat × Core) => (e.1, { e.2 with
             l1 := e.2.l1.filter (fun (x : Nat × L1Line) => isFar x.1 || !chs.contains (channelOf (x.1 * 128))) }))
           badLines := s.badLines.filter (fun l => !chs.contains (channelOf (l * 128))) }

/-- A saved workgroup whose context ends retires where it stands: its memberships are settled, the invocations that it has
bound break, and its launch counts it (10 R268, 15 R377, 17 R430). -/
def State.dropSaved (s : State) (v : Saved) (cause : Nat) : State :=
  let w := { Workgroup.absent with part := v.part, nbh := v.nbh, nbhId := v.nbhId }
  let s := s.settleGroups w (savedWid v.id)
  let s := (s.execs.filter (fun x => decide (x.settled = 0) && (match x.bound with
    | some (b, _) => decide (b = savedWid v.id)
    | none => false))).foldl (fun s x => s.breakExec x cause) s
  ({ s with saved := s.saved.filter (fun x => decide (x.id ≠ v.id)) }.updLaunch v.launch (fun l => { l with
    retired := l.retired + 1 })).finishLaunch v.launch

/-- The end of a partition has begun (R421). -/
def State.removing (s : State) (p : Nat) : Bool := s.endings.any (fun e => (decide (e.op = 1) || decide (e.op = 2)) && decide (e.what = p))

/-- The removal of a partition begins: steps 1 to 3 of R421. Its workgroups retire when what they had issued has performed
(16 R397) (log entry 39, DEDUCED). -/
def State.beginRemoval (s : State) (p : Nat) : State :=
  let sel := fun (q _ : Nat) => decide (q = p)
  let s := (s.queuesOf sel).foldl (fun s k => s.stopQueue k) s
  let s := (s.wgsWhere sel).foldl (fun s w => (s.updWgAt w (fun x => { x with removed := true })).killWg w) s
  let s := s.doomLaunches sel 12
  let s := (s.saved.filter (fun x => decide (x.part = p))).foldl (fun s v => s.dropSaved v 6) s
  let s := s.breakService p
  ((s.handles.filter (fun e => e.2.used && decide (e.2.part = p))).map (·.1)).foldl (fun s k => s.dropSlot k) s

/-- A partition is to be removed for the PARTITION packet of op `op`, or for an alarm. -/
def State.askRemoval (s : State) (op p pkt : Nat) : State :=
  let t := if (s.partAt p).live && !s.removing p then s.beginRemoval p else s
  { t with endings := t.endings ++ [{ op := op, what := p, pkt := pkt }] }

/-- Work of a partition or PASID that its end waits for: workgroups that have not retired, write-backs of their cores, and
packets whose effects are under way (16 R397, 17 R416, R430). -/
def State.workLeft (s : State) (sel : Nat → Nat → Bool) : Bool :=
  !(s.wgsWhere sel).isEmpty || s.queues.any (fun e => e.2.running.any (fun p => p.fate.isSome && sel p.part p.pasid))

/-- The removal of a partition ends: steps 4 to 6 of R421. The lines of its cores go home, its launches and packets complete
with cause 12, a launch that had failed before with 7, while its tables still stand; then its memory keys and everything that
it held are gone, a grant's block of a peer apart (18 R444, R446) (log entry 39, DEDUCED). -/
def State.endRemoval (s : State) (p : Nat) : State :=
  if !(s.partAt p).live then s
  else
    let sel := fun (q _ : Nat) => decide (q = p)
    let s := s.flushPart p
    let s := (s.launches.filter (fun l => decide (l.part = p))).foldl (fun s l => match l.fatal with
      | some r => s.endLaunch l 7 r
      | none => s.endLaunch l 12 []) s
    let s := s.endRunning sel 12
    let chs := (s.partAt p).channels
    ({ s with
      queues := s.queues.map (fun (e : Nat × Queue) =>
        if e.1 ≠ mgmtQueue && !e.2.desc.isEmpty && decide (e.2.part = p) then (e.1, { e.2 with desc := [] }) else e)
      cells := s.cells.filter (fun (e : Nat × TCell) => decide (e.2.owner ≠ some p))
      groups := s.groups.filter (fun e => decide (e.1 / 1024 ≠ p)) }.forgetChannels chs).updPart p (fun x =>
        { Part.absent with keyEpoch := x.keyEpoch + 1, lastChannels := x.channels, blocked := x.blocked })

/-! ### Configuring a partition (R421, R485; 01 R30) -/

/-- Two ranges overlap. -/
def overlap (a b : Nat × Nat) : Bool :=
  decide (a.2 ≠ 0) && decide (b.2 ≠ 0) && decide (a.1 < b.1 + b.2) && decide (b.1 < a.1 + a.2)

/-- The set bits of a number below `n`. -/
def bitList (x n : Nat) : List Nat := (List.range n).filter (fun i => bit x i)

/-- A range of local bytes lies in channels of a list (R421). -/
def inChannels (chs : List Nat) (base n : Nat) : Bool :=
  decide (n = 0) || (decide (base + n ≤ localLimit) &&
    (List.range 192).all (fun c => !(decide (channelOf base ≤ c) && decide (c ≤ channelOf (base + n - 1))) || chs.contains c))

/-- A first number and a count of a field. -/
def fieldPair (fs : List PField) (tag n : Nat) : Nat × Nat := (fieldNum fs tag 0 n, fieldNum fs tag n n)

/-- Op 1 names something that another partition holds, a harvested cluster, a kept channel, or a region outside its own
channels (R421, R485). -/
def State.configRefused (s : State) (p : Nat) (fs : List PField) : Bool :=
  let cls := bitList (fieldNum fs 0x62 0 16) 120
  let chs := bitList (fieldNum fs 0x63 0 24) 192
  let others := s.parts.filter (fun e => decide (e.1 ≠ p) && e.2.live)
  others.any (fun e => cls.any e.2.clusters.contains || chs.any e.2.channels.contains ||
    overlap e.2.cells (fieldPair fs 0x67 4) || overlap e.2.slots (fieldPair fs 0x68 4)) ||
  cls.any (fun c => decide (c % 15 = (s.dieAt (c / 15)).disabled)) || chs.any s.kept.contains ||
  !inChannels chs (fieldNum fs 0x69 0 8) (4096 * fieldNum fs 0x69 8 8) ||
  !inChannels chs (fieldNum fs 0x6B 0 8) (64 * fieldNum fs 0x6B 8 8)

/-- A cluster is given to a partition: its memories and event bits are zeroed when it held work of another
(13 R334, 14 R347). -/
def Cluster.giveTo (c : Cluster) (p : Nat) : Cluster :=
  if c.part = some p then c
  else { c with acc := [], scl := [], upset := [], events := 0, evFrom := [], drainFmt := [], failedTile := [], part := some p }

/-- The cells of a range are zeroed, disarmed and the partition's (15 R380). -/
def State.giveCells (s : State) (p first n : Nat) : State :=
  { s with cells := s.cells.filter (fun e => decide (e.1 < first)) ++
      (List.range n).map (fun i => (first + i, { TCell.zero with owner := some p })) ++
      s.cells.filter (fun e => decide (first + n ≤ e.1)) }

/-- Op 1: the partition holds what the packet names, its registers their reset values, and a policy record of zeros
(R421; 16 R405; 18 R440). -/
def State.configurePart (s : State) (p : Nat) (fs : List PField) : State :=
  let cls := bitList (fieldNum fs 0x62 0 16) 120
  let chs := bitList (fieldNum fs 0x63 0 24) 192
  let s := cls.foldl (fun s c => s.updCluster c (fun x => x.giveTo p)) (s.forgetChannels chs)
  let s := s.giveCells p (fieldPair fs 0x67 4).1 (fieldPair fs 0x67 4).2
  (s.putWindowList (64 * p) (List.replicate 64 0)).updPart p (fun x => { Part.absent with
    live := true, clusters := cls, channels := chs, quota := fieldNum fs 0x64 0 4, share := fieldNum fs 0x65 0 4
    cells := fieldPair fs 0x67 4, slots := fieldPair fs 0x68 4, pool := fieldPair fs 0x69 8, notice := fieldPair fs 0x6B 8
    keyEpoch := x.keyEpoch + 1, blocked := x.blocked })

/-! ### Tearing down a PASID (09 R252) -/

/-- The teardown of a PASID begins, step 1 of R252: queues stop, invocations that wait for it break (15 R378, cause 4), gangs end
fatally, and launches and packets end with cause 8 (R417) (log entry 40, DEDUCED). -/
def State.beginTeardown (s : State) (pasid : Nat) : State :=
  let sel := fun (_ q : Nat) => decide (q = pasid)
  let s := (s.queuesOf sel).foldl (fun s k => s.stopQueue k) s
  let s := (s.execs.filter (fun x => decide (x.settled = 0) && decide ((s.cellAt x.cell).pasid = pasid))).foldl
    (fun s x => s.breakExec x 4) s
  let s := (s.wgsWhere sel).foldl (fun s w => s.killWg w) s
  let s := (s.doomLaunches sel 8).endRunning sel 8
  (s.saved.filter (fun x => decide (x.pasid = pasid))).foldl (fun s v => s.dropSaved v 5) s

/-- Steps 2 and 3 of R252, once what step 1 ended has retired and its records are written: the entry is torn and its generation
rises, and its translations go (log entry 40, DEDUCED). -/
def State.tearEntry (s : State) (pasid pkt : Nat) : State :=
  let a := s.sys.pasidBase.toNat + 8 * pasid
  let e := s.pasidEntry pasid
  let s := s.writeHomeNum a 8 (e % 2 ^ 48 + (if bit e 1 then 0 else 2) + (field e 48 16 + 1) % 65536 * 2 ^ 48)
  let r := s.takeId
  let s := r.2.startInval noGang r.1 { pasid := some pasid, lo := 0, hi := 2 ^ 64 }
  { s with teardowns := s.teardowns ++ [{ pasid := pasid, pkt := pkt, queue := mgmtQueue, gen := field e 48 16 }] }

/-- The firmware tears a PASID down, for a packet or for an alarm (R252). -/
def State.teardown (s : State) (pasid pkt : Nat) : State :=
  let t := s.beginTeardown pasid
  { t with endings := t.endings ++ [{ op := 4, what := pasid, pkt := pkt }] }

/-- Requests and inbound accesses of the generation that a teardown ends are under way (R252, step 4). -/
def State.oldRequests (s : State) (t : Teardown) : Bool :=
  s.msgs.any (fun m => m.kind.isAccess && decide (m.src = s.devid) && decide (m.pasid = t.pasid) && decide (m.gen = t.gen)) ||
  s.inbound.any (fun b => decide (b.pasid = t.pasid) && decide (b.gen = t.gen))

/-- TEARDOWN_COMPLETE (09 R252): requests of the old generation have returned, or 10 µs have passed. What is still under way
has no effect when it returns: an inbound access goes, and State.completeMsg drops a response. The packet that asked
completes. -/
def execTeardownComplete (pasid : Nat) (s : State) : Res :=
  match s.teardowns.find? (fun t => decide (t.pasid = pasid)) with
  | none => .next s
  | some t =>
    let s := { s with
      teardowns := s.teardowns.filter (fun x => decide (x ≠ t))
      inbound := s.inbound.filter (fun b => !(decide (b.pasid = pasid) && decide (b.gen = t.gen))) }
    .next (match (s.queueAt t.queue).packet 6 t.pkt with
      | some p =>
        let s := s.endPacket t.queue p 0 0 []
        State.skipBad t.queue (s.headFuel t.queue) s
      | none => s)

/-! ### PARTITION packets (R421) -/

/-- The PARTITION packet of an op at the head of a queue. The firmware carries them out one after another: none starts while the
end of a partition or PASID that it has begun waits (log entry 117, DEDUCED). -/
def partitionPacket (op queue : Nat) (body : Nat → Packet → List PField → State → State) (s : State) : Res :=
  if !s.endings.isEmpty then .next s
  else startPacket queue (fun t fs => decide (t = 6) && decide (fieldNum fs 0x60 0 4 = op))
    (fun p fs _ s => body (fieldNum fs 0x61 0 4) p fs s) s

/-- The PARTITION packet that a number names ends. -/
def State.endAsked (s : State) (pkt : Nat) : State :=
  match (s.queueAt mgmtQueue).packet 6 pkt with
  | some p =>
    let s := s.endPacket mgmtQueue p 0 0 []
    State.skipBad mgmtQueue (s.headFuel mgmtQueue) s
  | none => s

/-- Key erase: every partition has been removed; every memory key and session key is gone (18 R444). -/
def State.eraseKeys (s : State) : State := { s with mem := [], badLines := [], sessions := [] }

/-- The selection of what an ending ends: by partition or by PASID. -/
def Ending.sel (e : Ending) (p q : Nat) : Bool := if e.op = 4 then decide (q = e.what) else decide (p = e.what)

/-- An ending has nothing to wait for any more: a key erase waits for the removals before it. -/
def State.endingReady (s : State) (e : Ending) : Bool :=
  if e.op = 0 then decide (s.endings.head? = some e) else !s.workLeft e.sel && !s.launches.any (fun l => decide (e.op = 4) && decide (l.pasid = e.what))

/-- The end of a partition or PASID goes on once nothing of what it ended is left: a removal completes, and the partition that
an op 1 gives is configured (R421); a teardown goes on with its step 2 (R252); keys are erased (18 R444). -/
def State.finishEnding (s : State) (e : Ending) : State :=
  let s := { s with endings := s.endings.filter (fun x => decide (x ≠ e)) }
  match e.op with
  | 0 => s.eraseKeys
  | 1 =>
    let s := s.endRemoval e.what
    (match (s.queueAt mgmtQueue).packet 6 e.pkt with
      | some p => s.configurePart e.what (scanFields p.bytes.length (p.bytes.drop 8)).1
      | none => s).endAsked e.pkt
  | 4 => s.tearEntry e.what e.pkt
  | _ => (s.endRemoval e.what).endAsked e.pkt

/-- PARTITION_CONFIGURE (R421, op 1): a partition that is configured is removed first. -/
def execPartitionConfigure (queue : Nat) (s : State) : Res :=
  partitionPacket 1 queue (fun part p fs s =>
    if s.configRefused part fs then s.endPacket queue p 9 0 []
    else if (s.partAt part).live then s.askRemoval 1 part p.id
    else (s.configurePart part fs).endPacket queue p 0 0 []) s

/-- An op on a partition that is not configured is refused (log entry 37, DEDUCED). -/
def onLivePart (s : State) (queue part : Nat) (p : Packet) (body : State → State) : State :=
  if (s.partAt part).live then body s else s.endPacket queue p 9 0 []

/-- PARTITION_REMOVE (R421, op 2): the packet completes with the removal. -/
def execPartitionRemove (queue : Nat) (s : State) : Res :=
  partitionPacket 2 queue (fun part p _ s => onLivePart s queue part p (fun s => s.askRemoval 2 part p.id)) s

/-- Write a queue's descriptor (R413): its indices are 0, 0 is reported, and with V = 1 the doorbell is read
(log entry 42, DEDUCED). -/
def State.writeDescriptor (s : State) (k : Nat) (d : List Byte) : State :=
  let s := (s.updQueue k (fun q => { q with desc := d, prio := blockNum d 9 1, rd := 0, wr := 0, stalled := false, fed := [] })).reportRead k
  if (s.queueAt k).valid then s.hearDoorbell k else s

/-- PARTITION_QUEUE_DESCRIPTOR (R413, op 3) (log entry 37, DEDUCED). -/
def execPartitionQueueDescriptor (queue : Nat) (s : State) : Res :=
  partitionPacket 3 queue (fun part p fs s => onLivePart s queue part p (fun s =>
    let k := fieldNum fs 0x66 0 2
    let d := ((getField fs 0x66).getD []).drop 2
    let q := s.queueAt k
    if k = mgmtQueue || blockNum d 0x0A 1 ≠ part || (!q.desc.isEmpty && decide (q.part ≠ part)) then s.endPacket queue p 9 0 []
    else (s.writeDescriptor k d).endPacket queue p 0 0 [])) s

/-- PARTITION_TEARDOWN (09 R252, op 4): the packet completes with TEARDOWN_COMPLETE. -/
def execPartitionTeardown (queue : Nat) (s : State) : Res :=
  partitionPacket 4 queue (fun part p fs s => onLivePart s queue part p (fun s =>
    s.teardown (fieldNum fs 0x6A 0 4) p.id)) s

/-- PARTITION_FLUSH (02 R64, op 5): the code-address table and the translation cache are empty; code that runs stays
(log entry 42, DEDUCED). -/
def execPartitionFlush (queue : Nat) (s : State) : Res :=
  partitionPacket 5 queue (fun part p _ s => onLivePart s queue part p (fun s =>
    (s.updPart part (fun x => { x with codeTable := [], natives := x.natives.map (fun n => { n with cached := false }) })).endPacket queue p 0 0 [])) s

/-! ### The actions of alarms (18 R444) -/

/-- The actions of the alarms that are due together: each context and each partition that they name receives the most
severe once; an erase removes every partition (R444) (log entry 41, DEDUCED). -/
def State.carryAlarms (s : State) : State :=
  let as := s.alarms
  let s := { s with alarms := [] }
  let none_ := 2 ^ 64
  if as.any (fun a => decide (a.1 = 3)) then
    let t := ((List.range 8).filter (fun p => (s.partAt p).live)).foldl (fun s p => s.askRemoval 2 p none_) s
    { t with endings := t.endings ++ [{ op := 0, what := 0, pkt := none_ }] }
  else
    let parts := ((as.filter (fun a => decide (a.1 = 2))).map (fun a => a.2.2)).eraseDups
    let pasids := ((as.filter (fun a => decide (a.1 = 1))).map (fun a => a.2.1)).eraseDups
    let torn := fun (s : State) p => s.endings.any (fun e => decide (e.op = 4) && decide (e.what = p))
    pasids.foldl (fun s p => if s.pasidLive p && !torn s p then s.teardown p none_ else s)
      (parts.foldl (fun s p => if (s.partAt p).live then s.askRemoval 2 p none_ else s) s)

end Sys2Proof.Machine
end

