-- ==== Sys2Proof/Machine/Preempt.lean ====
section
/-! DEFINITION. Saving a pre-empted workgroup and restoring it: the context and its sections, what the device keeps beside
it, and the two events (16 R400 to R403; 10 R273, 11 R299, 12 R311, 14 R359). -/

namespace Sys2Proof.Machine

/-! ### The context of a gang (R401) -/

/-- Pad bytes with zeros to a multiple of 128. -/
def pad128 (bs : List Byte) : List Byte := bs ++ List.replicate (roundUp bs.length 128 - bs.length) 0

/-- The 80 bytes of a slice's return stack (R401). -/
def RetStack.image (r : RetStack) : List Byte :=
  ((List.range 8).map (fun i => bytesLE 8 (r.entries.getD i 0).toNat)).flatten ++ bytesLE 1 r.entries.length ++
  bytesLE 1 r.spilled ++ List.replicate 14 0

/-- The gang state at 0x980, with `w` withdrawn rgets (R401). -/
def Gang.stateImage (g : Gang) (w : Nat) : List Byte :=
  bytesLE 4 g.regs.exec.toNat ++ bytesLE 4 g.regs.fpf.toNat ++ bytesLE 2 g.alloc ++ bytesLE 1 g.trap.level ++
  bytesLE 1 (toNat01 g.trap.parked) ++ bytesLE 4 g.trap.unfinished.toNat ++ bytesLE 8 g.regs.xst.toNat ++
  bytesLE 8 g.trap.hpc1.toNat ++ bytesLE 8 g.trap.hpc2.toNat ++ bytesLE 8 g.trap.frame.toNat ++
  ((List.range 4).map (fun i => bytesLE 8 ((g.locks.map (·.addr)).getD i 0))).flatten ++
  bytesLE 1 (g.counter 2) ++ bytesLE 1 (g.counter 3) ++ bytesLE 1 (g.counter 4) ++ bytesLE 1 (g.counter 5) ++
  bytesLE 1 w ++ List.replicate 43 0

/-- A gang's context with its withdrawn rgets (R401). -/
def Gang.context (g : Gang) (rgets : List Msg) : List Byte :=
  ((List.range 8).map g.sliceEntry).flatten ++
  ((List.range 256).map (fun i => bytesLE 4 (g.s (i / 32) (i % 32)).toNat)).flatten ++
  ((List.range 8).map (fun k => (g.rst k).image)).flatten ++
  ((List.range 32).map (fun l => bytesLE 4 ((List.range 32).map (fun i => if g.p i l then 2 ^ i else 0)).sum)).flatten ++
  ((List.range 32).map (fun l => bytesLE 8 (mapGet 0 g.regs.xi l).toNat ++ bytesLE 4 (mapGet 0 g.regs.xo l).toNat ++
    bytesLE 4 (mapGet 0 g.regs.xk l).toNat)).flatten ++
  g.stateImage rgets.length ++
  ((List.range (32 * g.alloc)).map (fun i => bytesLE 4 (g.v (i / 32) (i % 32)).toNat)).flatten ++
  (rgets.map (fun m => bytesLE 8 m.handle.toNat ++ bytesLE 4 m.addr ++ bytesLE 4 m.reg)).flatten

/-- The newest operations of each path, as many as the context counts on it (R401). -/
def countedOut (n : Nat → Nat) : List OutOp → List OutOp
  | [] => []
  | o :: os => if ((o :: os).filter (fun x => decide (x.path = o.path))).length ≤ n o.path then o :: countedOut n os else countedOut n os

/-- A gang as its context holds it (R401, R403): `k` is what the device keeps beside it. The unfinished mask of a parked
instruction stays, and the gang is parked no longer: the instruction is retried (09 R245). -/
def savedGang (b : List Byte) (k : SavedGang) (wid lg age : Nat) : Gang :=
  let n := fun off len => blockNum b off len
  let ent := fun j => 16 * j
  let out := fun j => bit (n (ent j + 8) 1) 4
  let slices := List.range 8
  let mask8 := fun (f : Nat → Bool) => BitVec.ofNat 8 ((slices.map (fun j => if f j then 2 ^ j else 0)).sum)
  let regs := b.drop 0xA00
  { live := true, wid := wid, num := k.num, lg := lg, alloc := n 0x988 2, rows := [], age := age
    regs :=
      { v := (List.range (32 * n 0x988 2)).filterMap (fun i =>
          let x := blockNum regs (4 * i) 4
          if x = 0 then none else some (i, BitVec.ofNat 32 x))
        p := (List.range 32).foldl (fun m i => mapSet 0 m i (laneMask (fun l => bit (n (0x700 + 4 * l) 4) i))) []
        sc := (List.range 256).foldl (fun m i => mapSet 0 m i (BitVec.ofNat 32 (n (0x80 + 4 * i) 4))) []
        exec := BitVec.ofNat 32 (n 0x980 4)
        mode := slices.foldl (fun m j => mapSet modeReset m j (BitVec.ofNat 32 (n (ent j + 12) 4))) []
        fpf := BitVec.ofNat 5 (n 0x984 4)
        xi := (List.range 32).foldl (fun m l => mapSet 0 m l (BitVec.ofNat 64 (n (0x780 + 16 * l) 8))) []
        xo := (List.range 32).foldl (fun m l => mapSet 0 m l (BitVec.ofNat 32 (n (0x788 + 16 * l) 4))) []
        xk := (List.range 32).foldl (fun m l => mapSet 0 m l (BitVec.ofNat 32 (n (0x78C + 16 * l) 4))) []
        xst := BitVec.ofNat 64 (n 0x990 8)
        broken := k.broken }
    flow :=
      { pc := slices.foldl (fun m j => if out j then m else mapSet 0 m j (BitVec.ofNat 56 (n (ent j) 8))) []
        grp := slices.foldl (fun m j => mapSet 0 m j (n (ent j + 9) 1)) []
        exited := mask8 out
        waiting := mask8 (fun j => bit (n (ent j + 8) 1) 5)
        wmask := k.wmask
        words := k.words
        served := k.served
        count := 0
        rst := slices.foldl (fun m j =>
          let o := 0x480 + 80 * j
          mapSet { entries := [], spilled := 0 } m j
            { entries := (List.range (n (o + 64) 1)).map (fun i => BitVec.ofNat 64 (n (o + 8 * i) 8)), spilled := n (o + 65) 1 }) []
        blocks := [] }
    trap :=
      { level := n 0x98A 1
        hpc1 := BitVec.ofNat 64 (n 0x998 8)
        hpc2 := BitVec.ofNat 64 (n 0x9A0 8)
        frame := BitVec.ofNat 64 (n 0x9A8 8)
        unfinished := BitVec.ofNat 32 (n 0x98C 4)
        unfinishedOf := k.unfinishedOf
        replay := k.replay
        delivered := k.delivered
        parked := false, preempt := false, taken := false, tmask := 0 }
    out := countedOut (fun p => n (0x9CE + p) 1) k.out
    issued := k.issued, pend := [], reports := k.reports, watch := k.watch
    locks := (List.range k.locks.length).zipWith (fun i (e : LockEntry) => { e with addr := n (0x9B0 + 8 * i) 8 }) k.locks
    hint := k.hint, holds := k.holds, late := k.late, fetchFails := [], polls := []
    exitPc := slices.foldl (fun m j => if out j then mapSet 0 m j (BitVec.ofNat 56 (n (ent j) 8)) else m) [] }

/-! ### The sections of a workgroup context (R402) -/

/-- Section 1: the workgroup state; the ticks stand oldest first. -/
def Workgroup.stateImage (w : Workgroup) (launchAddr : Nat) : List Byte :=
  bytesLE 4 w.wgid ++ bytesLE 1 w.gangs ++ bytesLE 1 (w.nbh.getD 0xFF) ++ bytesLE 2 w.rclock.toNat ++ bytesLE 4 w.mcount ++
  bytesLE 1 w.ticks.length ++ bytesLE 3 0 ++ ((List.range 8).map (fun i => bytesLE 8 (w.ticks.reverse.getD i 0).toNat)).flatten ++
  bytesLE 8 launchAddr ++ List.replicate 40 0

/-- Section 2: offsets of contexts of the given sizes from 512 on, by gang number. -/
def gangDirectory : Nat → List (Nat × Nat) → List (Nat × Nat)
  | _, [] => []
  | o, (num, n) :: gs => (num, o) :: gangDirectory (o + roundUp n 128) gs

/-- Section 4: the barrier registers. -/
def Workgroup.barImage (w : Workgroup) : List Byte :=
  ((List.range 16).map (fun i => bytesLE 8 ((w.bar i).word 0).toNat ++ bytesLE 8 ((w.bar i).word 1).toNat)).flatten

/-- Section 5: the named-group memberships. -/
def State.groupImage (s : State) (wid : Nat) : List Byte :=
  let w := s.wgAt wid
  ((List.range 1024).map (fun gid =>
    let level := ngLevel (s.ngEntry w.part gid)
    let g := s.groupAt (groupKey w.part gid)
    bytesLE 2 (match w.ngPlace g wid level with
      | some p =>
        if mapFind p.key g.members = some wid then
          let n := g.node p.node
          toNat01 (bit n.cur p.pos) + 2 * toNat01 (bit n.pending p.pos) + 4 * toNat01 (bit n.arrived p.pos)
        else 0
      | none => 0))).flatten

/-- The handles whose contents are saved: every BARN handle, and of the others those that a recorded mask or a stopped
operation names (14 R359). -/
def State.savedHandle (s : State) (wid h : Nat) : Bool :=
  match (s.wgAt wid).tile h with
  | none => false
  | some t => decide (t.level = 0) || (s.gangsOf wid).any (fun k => (s.gangAt k).trap.tmask.getLsbD h) ||
      (s.clusterAt (clusterOfCore (coreOfWid wid))).table.any (fun e => decide (e.wid = wid) && e.names h) ||
      (s.coreAt (coreOfWid wid)).gleaner.any (fun c => decide (c.wid = wid) && c.names h)

/-- Saved handles of a level, with their tiles, in handle order. -/
def State.savedTiles (s : State) (wid level : Nat) : List Tile :=
  (List.range 64).filterMap (fun h => if s.savedHandle wid h then ((s.wgAt wid).tile h).filter (fun t => decide (t.level = level)) else none)

/-- Section 6: the tile table. A handle that is not saved is written as free, as it will be (log entry 68, DEDUCED). -/
def State.tileTable (s : State) (wid : Nat) : List Byte :=
  ((List.range 64).map (fun h => bytesLE 8 (match (s.wgAt wid).tile h with
    | some t => if s.savedHandle wid h then t.rows * 2 ^ 48 + t.rowBytes * 2 ^ 28 + 4 + t.level else 3
    | none => 3))).flatten

/-- A tile of an ACC handle: its header and its image (R402). -/
def Cluster.accImage (c : Cluster) (t : Tile) (i : Nat) : List Byte :=
  bytesLE 1 (mapGet 1 c.drainFmt (t.accKey i)).toNat ++ bytesLE 1 (toNat01 (c.failed t i)) ++ List.replicate 126 0 ++ c.image t i

/-- A count block (R402) (log entry 68, DEDUCED). -/
def countBlock (n : Nat) : List Byte := bytesLE 8 n ++ List.replicate 120 0

/-- Expand groups by the gang number of their member 0. -/
def insertXGroup (x : XGroup) : List XGroup → List XGroup
  | [] => [x]
  | y :: ys => if x.members.headD 0 < y.members.headD 0 then x :: y :: ys else y :: insertXGroup x ys

/-- Section 10: the expand groups. -/
def State.expandImage (s : State) (wid : Nat) : List Byte :=
  let gs := (s.wgAt wid).groups.foldl (fun l x => insertXGroup x l) []
  countBlock gs.length ++ (gs.map (fun x => pad128 (x.image (s.roundOf wid x)))).flatten

/-- A Gleaner record (R402). -/
def Gcmd.image (c : Gcmd) : List Byte :=
  (c.block ++ List.replicate 64 0).take 64 ++ bytesLE 2 c.ticket ++ bytesLE 1 c.state ++ bytesLE 1 c.gang ++
  bytesLE 4 (if c.kind = 4 then popCount c.acked.toNat 64 else c.moved) ++ bytesLE 32 c.delivered.toNat ++
  bytesLE 4 ((c.segs.map (fun x => 2 ^ x.gang)).sum) ++ List.replicate 20 0 ++
  pad128 ((c.segs.map (fun x => (x.quad.map (fun q => bytesLE 4 q.toNat)).flatten)).flatten)

/-- Steps that an operation has left: of an mloop, of its K-steps; of an operation at the tile port, of its lines
(log entry 69, DEDUCED). -/
def Mentry.stepsLeft (e : Mentry) : Nat := if e.op = 0xE2 then e.num 0x34 2 - e.step else e.lines - e.prow

/-- A Thresher record (R402): the row-progress register has row 0. -/
def Mentry.image (e : Mentry) : List Byte :=
  (e.block ++ List.replicate 128 0).take 128 ++ bytesLE 1 e.op ++ bytesLE 1 (toNat01 e.started) ++ bytesLE 2 e.stepsLeft ++
  bytesLE 4 (e.step * 65536) ++ bytesLE 1 e.gang ++ List.replicate 119 0 ++ pad128 (e.snap.getD [])

/-- A pending report (R402) (log entry 68, DEDUCED). -/
def Report.image (num level : Nat) (r : Report) : List Byte :=
  bytesLE 1 num ++ List.replicate 7 0 ++ recordBytes r.record level 0 0 0 ++
  (match r.marks with
    | m :: _ => bytesLE 1 m.1 ++ List.replicate 3 0 ++ bytesLE 4 m.2.toNat
    | [] => List.replicate 8 0) ++ List.replicate 48 0

/-- A section of counted records; nothing when there are none. -/
def recordSection (rs : List (List Byte)) : List Byte := if rs.isEmpty then [] else countBlock rs.length ++ rs.flatten

/-- Offsets of sections from `o` on, 0 for an empty one (R402). -/
def sectionOffsets : Nat → List (List Byte) → List Nat
  | _, [] => []
  | o, x :: xs => (if x.isEmpty then 0 else o) :: sectionOffsets (o + roundUp x.length 128) xs

/-- A context of its sections: the header, then each padded (R402). -/
def joinSections (xs : List (List Byte)) : List Byte :=
  pad128 ((sectionOffsets 128 xs).map (bytesLE 8)).flatten ++ (xs.map pad128).flatten

/-- The bytes of section `i` on, in a context. -/
def section_ (b : List Byte) (i : Nat) : List Byte := b.drop (blockNum b (8 * i) 8)

/-! ### Saving (R400) -/

/-- The waiting rgets of a gang, oldest first. -/
def State.rgetsOf (s : State) (key : Nat) : List Msg :=
  s.msgs.filter (fun m => decide (m.gang = key) && (m.kind matches .rget _))

/-- The save may proceed (R400, R406): every gang has taken the request, no load, store, late operation or invocation is on
its way, no pass of the workgroup runs and no write of its engine work is under way, and its report can be written. An
operation at the tile port, or a command that runs, stands at a boundary between turns (14 R359, 11 R299). -/
def State.readyToSave (s : State) (wid : Nat) : Bool :=
  let ks := s.gangsOf wid
  let die := s.dieAt (dieOfCore (coreOfWid wid))
  let c := s.clusterAt (clusterOfCore (coreOfWid wid))
  let mine := (c.table.filter (fun e => decide (e.wid = wid))).map (·.slot)
  (s.wgAt wid).live && (s.wgAt wid).posted.isSome && !ks.isEmpty &&
  ks.all (fun k =>
    let g := s.gangAt k
    let rs := (s.rgetsOf k).map (·.opid)
    g.trap.taken && g.late.all (fun o => o.kind matches .pathFence _) &&
    g.out.all (fun o => decide (2 ≤ o.path) && (decide (o.path ≠ 5) || rs.contains o.id))) &&
  !(c.pass.any (fun p => mine.contains p.1)) && !die.full && die.waiting.isEmpty &&
  c.table.all (fun e => !(decide (e.wid = wid) && s.engBusy e.id)) &&
  (s.coreAt (coreOfWid wid)).gleaner.all (fun x => !(decide (x.wid = wid) && s.engBusy x.id))

/-- A gang's rgets are withdrawn: its RM count falls and their registers wait no longer (R400). -/
def State.withdraw (s : State) (key : Nat) : State :=
  let ms := s.rgetsOf key
  let s := ms.foldl (fun s m => s.updGangAt key (fun g => g.complete m.opid)) s
  { s with msgs := s.msgs.filter (fun m => !(decide (m.gang = key) && (m.kind matches .rget _))) }.updGangAt key
    (fun g => { g with pend := g.pend.filter (fun p => !ms.any (fun m => decide (m.opid = p.id))) })

/-- The record of a launch. -/
def State.launchAddr (s : State) (id : Nat) : Nat :=
  match s.launches.find? (fun l => decide (l.id = id)) with
  | some l => l.addr
  | none => 0

/-- The context of a workgroup whose rgets have been withdrawn (R402): `rgets` lists them by gang key
(log entry 67, DEDUCED). -/
def State.contextOf (s : State) (wid : Nat) (rgets : List (Nat × List Msg)) : List Byte :=
  let w := s.wgAt wid
  let core := coreOfWid wid
  let c := s.clusterAt (clusterOfCore core)
  let gs := (s.gangsOf wid).map (fun k => ((s.gangAt k).num, (s.gangAt k).context (((rgets.find? (fun r => decide (r.1 = k))).map (·.2)).getD [])))
  let dir := gangDirectory 512 (gs.map (fun g => (g.1, g.2.length)))
  let bytes := fun (t : Tile) => s.tileBankBytes core t 0 t.extent
  let reports := ((s.gangsOf wid).map (fun k =>
    let g := s.gangAt k
    g.reports.map (Report.image g.num (min 2 (g.trap.level + 1))))).flatten
  joinSections [
    w.stateImage (s.launchAddr w.launch),
    ((List.range 32).map (fun i => bytesLE 8 (((dir.find? (fun e => decide (e.1 = i))).map (·.2)).getD 0))).flatten,
    (gs.map (fun g => pad128 g.2)).flatten,
    w.barImage,
    s.groupImage wid,
    s.tileTable wid,
    ((s.savedTiles wid 0).map bytes).flatten,
    ((s.savedTiles wid 1).map (fun t => ((List.range (t.rows / 64)).map (c.accImage t)).flatten)).flatten,
    ((s.savedTiles wid 2).map (fun t => c.sclBytes t 0 t.extent)).flatten,
    if w.groups.isEmpty then [] else s.expandImage wid,
    recordSection (((s.coreAt core).gleaner.filter (fun x => decide (x.wid = wid))).map Gcmd.image),
    recordSection ((c.table.filter (fun e => decide (e.wid = wid))).map Mentry.image),
    recordSection reports,
    []]

/-- What the device keeps of a gang. -/
def Gang.keep (g : Gang) (rgets : List Msg) : SavedGang :=
  { num := g.num, wmask := g.flow.wmask, words := g.flow.words, out := g.out, issued := g.issued, reports := g.reports, served := g.flow.served
    unfinishedOf := g.trap.unfinishedOf, replay := g.trap.replay, delivered := g.trap.delivered, locks := g.locks
    broken := g.regs.broken, watch := g.watch, hint := none
    holds := g.holds, late := g.late, rgets := rgets }

/-- Everything that names a workgroup or its gangs from outside takes another number: named-group positions, lists of a
ctopk, and bound invocations (10 R273). -/
def State.renumber (s : State) (part old new : Nat) : State :=
  { s with
    groups := s.groups.map (fun (e : Nat × NamedGroup) =>
      if e.1 / 1024 ≠ part then e
      else (e.1, { e.2 with
        members := e.2.members.map (fun (m : Nat × Nat) => if m.2 = old then (m.1, new) else m)
        topk := e.2.topk.map (fun (x : TopkIn) => if x.gang / 32 = old then { x with gang := new * 32 + x.gang % 32 } else x) }))
    execs := s.execs.map (fun (x : Exec) => match x.bound with
      | some (b, n) => if b = old then { x with bound := some (new, n) } else x
      | none => x) }

/-- A workgroup leaves its core without retiring: faults, calls and invalidations of its gangs that have no answer are
forgotten, its engine work and its resources go (R400). -/
def State.vacate (s : State) (wid : Nat) : State :=
  let core := coreOfWid wid
  let cl := clusterOfCore core
  let mine := fun (a : TfqAgent) =>
    ((decide (a.kind = 0) || decide (a.kind = 3)) && decide (a.key / 32 = wid)) ||
    (decide (a.kind = 1) && (s.coreAt core).gleaner.any (fun c => decide (c.wid = wid) && decide (c.id = a.ident))) ||
    (decide (a.kind = 2) && (s.clusterAt cl).table.any (fun e => decide (e.wid = wid) && decide (e.id = a.ident)))
  let s := { s with
    fwcalls := s.fwcalls.filter (fun c => decide (c.gang / 32 ≠ wid))
    invals := s.invals.filter (fun x => decide (x.gang / 32 ≠ wid)) }
  let s := s.updDie (dieOfCore core) (fun d => { d with opened := d.opened.filter (fun a => !mine a) })
  let s := (s.gangsOf wid).foldl (fun s k => s.dropWatches k) s
  let s := s.updCore core (fun c => { c with
    gleaner := c.gleaner.filter (fun x => decide (x.wid ≠ wid))
    ring := c.ring.map (fun (e : Nat × List Nat) => (e.1, e.2.filter (fun k => decide (k / 32 ≠ wid)))) })
  (s.updCluster cl (fun c =>
    let gone := (c.table.filter (fun e => decide (e.wid = wid))).map (·.slot)
    { c with
      table := c.table.filter (fun e => decide (e.wid ≠ wid))
      port := c.port.filter (fun p => !gone.contains p) })).freeWorkgroup wid

/-- The save of a workgroup's tiles reads a word that an uncorrectable error has struck (13 R334). -/
def State.saveSpoilt (s : State) (wid : Nat) : Bool :=
  let c := s.clusterAt (clusterOfCore (coreOfWid wid))
  (s.savedTiles wid 1).any (fun t => (List.range (t.rows / 64)).any (c.tileSpoilt t)) ||
  (s.savedTiles wid 2).any (fun t => t.granules.any (fun g => c.spoilt 2 (g * granuleSize 2) (granuleSize 2)))

/-- The save of a workgroup (R400): its dirty bytes reach home, its context is written, and its core is free. A
context whose tiles an error has struck is killed (13 R334) (log entry 66, DEDUCED). -/
def State.saveWorkgroup (s : State) (wid : Nat) (addr : DWord) : State :=
  let w := s.wgAt wid
  let core := coreOfWid wid
  let c := s.clusterAt (clusterOfCore core)
  let ks := s.gangsOf wid
  let rgets := ks.map (fun k => (k, s.rgetsOf k))
  let s := ((ks.foldl (fun s k => s.withdraw k) s).drainQueues core).holdPlaces wid
  let s := s.writeBackAll core
  let bs := s.contextOf wid rgets
  let r := s.takeId
  let v : Saved :=
    { id := r.1, wid := wid, addr := addr, bytes := bs.length, part := w.part, pasid := w.pasid
      launch := w.launch, nbh := w.nbh, nbhId := w.nbhId, age := w.age, pb := w.pb, z := w.z, barn := w.barn.length
      barw := w.bars.map (fun b => (b.1, b.2.barw))
      cmds := (s.coreAt core).gleaner.filter (fun x => decide (x.wid = wid))
      ops := c.table.filter (fun e => decide (e.wid = wid))
      gangs := rgets.map (fun e => (s.gangAt e.1).keep e.2)
      ended := (s.gangs.filter (fun e => !e.2.live && decide (e.2.wid = wid))).map (fun e => (e.2.num, e.2.alloc, e.2.regs.xst)) }
  let alarms := if s.saveSpoilt wid then s.alarms ++ [(1, w.pasid, w.part)] else s.alarms
  let s := (r.2.writeHomeList addr.toNat bs).vacate wid
  let s := { s with alarms := alarms, saved := s.saved ++ [v] }.renumber w.part wid (savedWid v.id)
  s.tfqWrite (dieOfCore core)
    { entry := 0, kind := 4, key := wid, ident := 0, record := { cause := 0 }
      bytes := tfqBytes 4 0 0 w.pasid (s.pasidGen w.pasid) core (slotOfWid wid) 0 0 addr.toNat bs.length 0 [] }

/-- PREEMPTION_SAVE (R400): its gangs' dirty bytes have reached their homes, those of lines of other devices with an
acknowledgement, so that a poisoned store is reported before the context is written. -/
def execPreemptionSave (wid : Nat) (s : State) : Res :=
  .next (match (s.wgAt wid).posted with
    | some a =>
      if s.readyToSave wid then
        let t := s.writeBackAll (coreOfWid wid)
        if (t.flushing (coreOfWid wid)).isEmpty then s.saveWorkgroup wid a else t
      else s
    | none => s)

/-! ### Restoring (R403) -/

/-- A barrier register from its words (10 R256). -/
def barOfWords (x y : Nat) (barw : SMap PcVal) : Bar :=
  { gen := BitVec.ofNat 16 (field x 48 16), init := bit x 47, ovf := bit x 46, e := field x 32 14, x := field x 16 16
    a := field x 0 16, arrived := BitVec.ofNat 32 (field y 32 32), rc := field y 16 16, kc := field y 0 16, barw := barw }

/-- The tile of an entry of the tile table, with no granules yet (log entry 68, DEDUCED). -/
def tileOfEntry (x : Nat) : Option Tile :=
  if x % 4 = 3 then none
  else some { rows := field x 48 16, rowBytes := field x 28 20, level := x % 4, granules := [] }

/-- The handles of a context, in order. -/
def savedTable (b : List Byte) : List (Nat × Tile) :=
  let t := section_ b 5
  (List.range 64).filterMap (fun h => (tileOfEntry (blockNum t (8 * h) 8)).map (fun x => (h, x)))

/-- Granules that the handles of a level take. -/
def levelNeed (b : List Byte) (level : Nat) : Nat :=
  ((savedTable b).map (fun e => if e.2.level = level then granulesFor level e.2.rows e.2.rowBytes else 0)).sum

/-- The context of a saved workgroup, read from its place. -/
def State.savedContext (s : State) (v : Saved) : List Byte := s.readHomeList v.addr.toNat v.bytes

/-- The context of a gang. -/
def gangContext (b : List Byte) (num : Nat) : List Byte := b.drop (blockNum (section_ b 1) (8 * num) 8)

/-- The core can take a saved workgroup: it is a work core of the partition that admits its gangs and its Barn, and its
cluster and its Gleaner have room for its tiles and its operations (R403, 17 R427) (log entry 45, DEDUCED)
(log entry 70, DEDUCED). -/
def State.restorable (s : State) (v : Saved) (core : Nat) : Bool :=
  let b := s.savedContext v
  let c := s.clusterAt (clusterOfCore core)
  (s.workCores v.part).contains core &&
  ((s.coreLoad core).takes (v.gangs.map (fun g => (0, blockNum (gangContext b g.num) 0x988 2))) v.barn).isSome &&
  decide (levelNeed b 1 + c.accUsed.length ≤ 64) && decide (levelNeed b 2 + c.sclUsed.length ≤ 256) &&
  decide (v.ops.length + c.table.length ≤ 32) && decide (v.cmds.length + (s.coreAt core).gleaner.length ≤ 16)

/-- The workgroup record of a context, without its tiles. -/
def savedWorkgroup (b : List Byte) (v : Saved) (age : Nat) (barn : List Nat) : Workgroup :=
  let w := section_ b 0
  let bars := section_ b 3
  let barw := fun i => (((v.barw.find? (fun e => decide (e.1 = i))).map (·.2)).getD [])
  { Workgroup.absent with
    live := true, wgid := blockNum w 0 4, gangs := blockNum w 4 1, nbhId := v.nbhId
    nbh := if blockNum w 5 1 = 0xFF then none else some (blockNum w 5 1)
    part := v.part, pasid := v.pasid, launch := v.launch, pb := v.pb, z := v.z
    rclock := BitVec.ofNat 16 (blockNum w 6 2), mcount := blockNum w 8 4
    ticks := ((List.range (blockNum w 0xC 1)).map (fun i => BitVec.ofNat 64 (blockNum w (0x10 + 8 * i) 8))).reverse
    bars := (List.range 16).map (fun i => (i, barOfWords (blockNum bars (16 * i) 8) (blockNum bars (16 * i + 8) 8) (barw i)))
    barn := barn, age := age }

/-- A handle takes its granules and its bytes: `o` is the place in the section of its level. The state, and the place
behind them. -/
def State.reloadTile (s : State) (b : List Byte) (wid : Nat) (h : Nat) (t : Tile) (o : Nat) : State × Nat :=
  let core := coreOfWid wid
  let cl := clusterOfCore core
  let t := { t with granules := (s.freeGranules wid t.level).take (granulesFor t.level t.rows t.rowBytes) }
  let s := s.giveTile wid h t
  let from_ := (section_ b (6 + t.level)).drop o
  if t.level = 0 then (s.tileBankWrite core t 0 (from_.take t.extent), o + t.extent)
  else if t.level = 2 then (s.sclWrite cl t 0 (from_.take t.extent), o + t.extent)
  else
    let size := 128 + 64 * t.rowBytes
    ((List.range (t.rows / 64)).foldl (fun s i =>
      let x := from_.drop (size * i)
      s.updCluster cl (fun c =>
        let c := { c with drainFmt := mapPut (t.accKey i) (BitVec.ofNat 64 (blockNum x 0 1)) c.drainFmt }
        (c.setFailed t i (bit (blockNum x 1 1) 0)).setRows t i (imageRows t ((x.drop 128).take (64 * t.rowBytes))))) s,
      o + size * (t.rows / 64))

/-- The handles of a context in order, with the places reached in the sections of the three levels. -/
def State.reloadTiles (b : List Byte) (wid : Nat) : List (Nat × Tile) → Nat × Nat × Nat → State → State
  | [], _, s => s
  | (h, t) :: ts, (o0, o1, o2), s =>
    let r := s.reloadTile b wid h t (if t.level = 0 then o0 else if t.level = 1 then o1 else o2)
    State.reloadTiles b wid ts (if t.level = 0 then (r.2, o1, o2) else if t.level = 1 then (o0, r.2, o2) else (o0, o1, r.2)) r.1

/-- The gangs of a context enter, in lane groups in turn from `first` (log entry 67, DEDUCED). -/
def State.reloadGangs (b : List Byte) (wid first : Nat) : List SavedGang → Nat → State → State
  | [], _, s => s
  | k :: ks, i, s =>
    let lg := (first + i) % 4
    let r := s.takeId
    let key := gangKey wid k.num
    let s := (r.2.setGangAt key (savedGang (gangContext b k.num) k wid lg r.1)).joinRing (coreOfWid wid) lg key
    State.reloadGangs b wid first ks (i + 1) (s.fitRows key)

/-- The expand groups of a context: `n` images from the front of the bytes (12 R309, R311). -/
def expandGroups : Nat → List Byte → List XGroup
  | 0, _ => []
  | n + 1, b =>
    let g := blockNum b 4 1
    { members := (List.range g).map (fun i => blockNum b (0x18 + i) 1)
      total := blockNum b 0 4
      start := startMap (fun i => BitVec.ofNat 64 (blockNum b (0x20 + 12 * i) 8)) (32 * g)
      pre := (List.range (32 * g)).foldl (fun m i => mapSet 0 m i (blockNum b (0x20 + 12 * i + 8) 4)) [] } ::
      expandGroups n (b.drop (roundUp (32 + 384 * g) 128))

/-- Bytes of record `i` behind a count block, when every record takes 128 (R402). -/
def recordAt (b : List Byte) (i : Nat) : List Byte := (b.drop (128 * (i + 1))).take 128

/-- The fields of a trap record that depend on its cause, from its bytes (R388). -/
def trapReqOf (b : List Byte) : TrapReq :=
  { cause := blockNum b 0 1, sub := blockNum b 1 1, lanes := BitVec.ofNat 32 (blockNum b 4 4), aux := BitVec.ofNat 32 (blockNum b 20 4)
    addr := BitVec.ofNat 64 (blockNum b 24 8), opc := BitVec.ofNat 64 (blockNum b 32 8), device := blockNum b 40 2
    rcause := blockNum b 42 1, handle := BitVec.ofNat 64 (blockNum b 48 8) }

/-- A report from its record in section 13 (R402). -/
def Report.reload (r : Report) (x : List Byte) : Report :=
  { r with
    record := trapReqOf (x.drop 8)
    marks := match r.marks with
      | [] => []
      | _ :: ms => (blockNum x 0x48 1, BitVec.ofNat 32 (blockNum x 0x4C 4)) :: ms }

/-- The reports of a gang from section 13, which lists them gang by gang in their order (R402). -/
def SavedGang.reload (k : SavedGang) (sec : List Byte) : SavedGang :=
  let own := ((List.range (blockNum sec 0 8)).map (recordAt sec)).filter (fun x => decide (blockNum x 0 1 = k.num))
  { k with reports := k.reports.zipWith Report.reload own }

/-- A command from its record in section 11 (R402): one that ran resumes first (11 R288, R299). -/
def Gcmd.reload (c : Gcmd) (b : List Byte) : Gcmd :=
  let st := blockNum b 0x42 1
  { c with
    block := b.take c.block.length
    ticket := blockNum b 0x40 2
    gang := blockNum b 0x43 1
    state := if st = 3 then 3 else 1
    retried := c.retried || decide (st ≠ 1)
    moved := if c.kind = 4 then c.moved else blockNum b 0x44 4
    delivered := BitVec.ofNat 256 (blockNum b 0x48 32)
    segs := (List.range c.segs.length).zipWith (fun i (x : Contribution) =>
      { x with quad := (List.range 4).map (fun j => BitVec.ofNat 32 (blockNum b (128 + 16 * i + 4 * j) 4)) }) c.segs }

/-- The commands of section 11, from the records behind its count block. -/
def reloadCmds : List Gcmd → List Byte → List Gcmd
  | [], _ => []
  | c :: cs, b => c.reload b :: reloadCmds cs (b.drop (128 + roundUp (16 * c.segs.length) 128))

/-- An operation from its record in section 12 (R402): it resumes at its step or line (14 R359). -/
def Mentry.reload (e : Mentry) (b : List Byte) : Mentry :=
  let e := { e with
    block := b.take e.block.length
    op := blockNum b 0x80 1
    started := decide (blockNum b 0x81 1 ≠ 0)
    gang := blockNum b 0x88 1
    parked := false
    panel := []
    snap := e.snap.map (fun (x : List Byte) => (b.drop 256).take x.length) }
  let left := blockNum b 0x82 2
  if e.op = 0xE2 then { e with step := e.num 0x34 2 - left, prow := 0 } else { e with step := 0, prow := e.lines - left }

/-- The operations of section 12, from the records behind its count block. -/
def reloadRecords : List Mentry → List Byte → List Mentry
  | [], _ => []
  | e :: es, b => e.reload b :: reloadRecords es (b.drop (256 + roundUp ((e.snap.map List.length).getD 0) 128))

/-- The gangs of a saved workgroup that had ended keep their number, allocation and xst, whose round the image
of their group holds as well (12 R309, R311). -/
def State.reloadEnded (s : State) (wid : Nat) (es : List (Nat × Nat × DWord)) : State :=
  es.foldl (fun s e => s.setGangAt (gangKey wid e.1)
    { Gang.absent with wid := wid, num := e.1, alloc := e.2.1, regs := { Gang.absent.regs with xst := e.2.2 }
                       flow := { Gang.absent.flow with exited := 0xFF } }) s

/-- The operations of a saved workgroup enter a cluster's table, in order, in the lowest free slots (14 R359)
(log entry 69, DEDUCED). -/
def State.reloadOps (cl wid : Nat) : List Mentry → State → State
  | [], s => s
  | e :: es, s =>
    let used := (s.clusterAt cl).table.map (·.slot)
    let slot := (findBelow (fun i => !used.contains i) 32).getD 0
    let e := { e with wid := wid, slot := slot, startAge := s.clock.toNat }
    State.reloadOps cl wid es (s.updCluster cl (fun c => { c with table := c.table ++ [e] }))

/-- Entry `i` of the withdrawn rgets of a gang's context: handle, word and destination (R401). -/
def rgetEntry (b : List Byte) (i : Nat) : Nat × Nat × Nat :=
  let o := 0xA00 + 128 * blockNum b 0x988 2 + 16 * i
  (blockNum b o 8, blockNum b (o + 8) 4, blockNum b (o + 12) 4)

/-- A withdrawn rget is issued again from its entry in the context (R401, R403); `m` is the message that was withdrawn, of which
only the PC that a report names is taken. -/
def State.reissueRget (s : State) (wid key : Nat) (e : Nat × Nat × Nat) (m : Option Msg) : State :=
  let w := s.wgAt wid
  let id := s.nextId
  let h : DWord := BitVec.ofNat 64 e.1
  let barn := bit e.2.1 16
  let s := s.takeId.2.send { Msg.blank with
    kind := .rget id, dst := if s.farHandle h then hDev h else s.devid, part := w.part, pasid := w.pasid, handle := h, gang := key
    opid := id, reg := e.2.2, data := toNat01 barn, addr := e.2.1, opc := (m.map (·.opc)).getD 0 }
  let waits : List PendReg := if barn then [] else (List.range 32).map (fun r => { id := id, reg := e.2.2 + r, lanes := 0xFFFFFFFF })
  s.updGangAt key (fun g => { g.raise 5 id false with pend := g.pend ++ waits })

/-- The lists that named groups completed while the workgroup was saved are written into its Barn (12 R316, 10 R273)
(log entry 71, DEDUCED). -/
def State.lateLists (s : State) (wid part : Nat) : State :=
  s.groups.foldl (fun s e =>
    if e.1 / 1024 ≠ part then s
    else e.2.topk.foldl (fun s x =>
      match x.result with
      | some (some _) => if x.gang / 32 = wid then s.barnWrite ((s.wgAt wid).barnLoc (coreOfWid wid) x.loc) x.image else s
      | _ => s) s) s

/-- The restoration of a saved workgroup on a core (R403) (log entry 66, DEDUCED) (log entry 70, DEDUCED). -/
def State.restoreWorkgroup (s : State) (v : Saved) (core : Nat) : State :=
  let b := s.savedContext v
  let wid := core * 16 + s.freeSlot core
  let first := firstGroup (s.coreLoad core).count
  let barn := barnPlacement (s.barnUsed core) v.barn
  let s := (((s.reclaim core barn).zeroBarn core barn).dropClean core)
  let s := { s with saved := s.saved.filter (fun x => decide (x.id ≠ v.id)) }.setWgAt wid (savedWorkgroup b v v.age barn)
  let s := State.reloadTiles b wid (savedTable b) (0, 0, 0) s
  let s := State.reloadGangs b wid first (v.gangs.map (fun k => k.reload (section_ b 12))) 0 (s.reloadEnded wid v.ended)
  let x := section_ b 9
  let s := if blockNum b 72 8 = 0 then s
    else s.updWgAt wid (fun w => { w with groups := expandGroups (blockNum x 0 8) (x.drop 128) })
  let s := s.updCore core (fun c => { c with gleaner := c.gleaner ++ (reloadCmds v.cmds ((section_ b 10).drop 128)).map (fun (x : Gcmd) =>
    { x with wid := wid }) })
  let s := State.reloadOps (clusterOfCore core) wid (reloadRecords v.ops ((section_ b 11).drop 128)) s
  let s := (s.renumber v.part (savedWid v.id) wid).lateLists wid v.part
  v.gangs.foldl (fun s k =>
    let x := gangContext b k.num
    (List.range (blockNum x 0x9D4 1)).foldl (fun s i => s.reissueRget wid (gangKey wid k.num) (rgetEntry x i) k.rgets[i]?) s) s

/-- WORKGROUP_RESTORE (R403): the oldest workgroup saved from a slot resumes on a core that takes it, once the write-backs of the
ways that its Barn takes back are acknowledged (07 R195) (log entry 45, DEDUCED). -/
def execWorkgroupRestore (wid core : Nat) (s : State) : Res :=
  .next (match s.saved.find? (fun v => decide (v.wid = wid)) with
    | some v =>
      let t := s.reclaim core (barnPlacement (s.barnUsed core) v.barn)
      if !s.restorable v core then s
      else if (t.flushing core).isEmpty then s.restoreWorkgroup v core
      else t
    | none => s)

end Sys2Proof.Machine
end

