-- ==== Sys2Proof/Machine/Fabric.lean ====
section
/-! DEFINITION. The fabric: Lumen messages and links, inbound accesses and completions, timeouts, the host's BAR0, the
management window, policy commits, attestation and device reset (18 R432 to R448; 09 R253, R254; 16 R405). -/

namespace Sys2Proof.Machine

/-! ### Routes and links (R432, R435, R436, R457) -/

/-- Write a route entry: bits [63:36] are reserved (R435, R442). -/
def State.setRoute (s : State) (d mask : Nat) : State :=
  { s with routes := mapSet 0 s.routes d (mask % 2 ^ 36) }.putWindow (0x10000 + 8 * d) 8 (mask % 2 ^ 36)

/-- A link goes down: it leaves every mask, and messages that it would have taken are held (R436); one that is down already
holds what it held. -/
def State.linkDown (s : State) (l : Nat) : State :=
  let old := s.routes
  let s := s.updLink l (fun k => { k with
    up := false, replays := 0, draining := true, oldMasks := if k.draining then k.oldMasks else old })
  old.foldl (fun s e => if bit e.2 l then s.setRoute e.1 (e.2 - 2 ^ l) else s) s

/-- Training has brought a link up: the far device is learned, and reached through the link until a route table is loaded
(R432, R435). -/
def State.linkUp (s : State) (l far : Nat) : State :=
  let s := s.updLink l (fun k => { k with up := true, far := some far, replays := 0 })
  if s.routesLoaded || decide (2304 ≤ far) || bit (mapGet 0 s.routes far) l then s
  else s.setRoute far (mapGet 0 s.routes far + 2 ^ l)

/-- An entry of the event ring (19 R459): kind and data bytes. -/
def State.logEvent (s : State) (kind : Nat) (data : List Byte) : State :=
  let bs := bytesLE 8 s.clock.toNat ++ bytesLE 1 kind ++ (data ++ List.replicate 7 0).take 7
  { s with eventIdx := s.eventIdx + 1 }.putWindowList (0x60200 + 16 * (s.eventIdx % 64)) bs

/-- LINK_RECALIBRATION (19 R457, R432): the device found at the far end, or none when the link cannot train; then it goes
down and kind 6 is logged. -/
def execLinkRecalibration (link : Nat) (far : Option Nat) (s : State) : Res :=
  .next (if 36 ≤ link then s
    else match far with
      | some d => s.linkUp link d
      | none => (s.linkDown link).logEvent 6 (bytesLE 1 link))

/-- A message asks for an answer that the sender counts as outstanding. -/
def MsgKind.isRequest (k : MsgKind) : Bool :=
  k.isAccess || (match k with
    | .invoke => true
    | .dependent => true
    | .forward => true
    | .rget _ => true
    | .ask _ => true
    | .mirror _ _ => true
    | .window _ _ _ => true
    | _ => false)

/-- A request of this device is outstanding on a link. -/
def State.outstanding (s : State) (l : Nat) : Bool :=
  s.msgs.any (fun m => decide (m.src = s.devid) && decide (m.link = some l) && m.kind.isRequest &&
    !(s.linkAt l).held.contains m.id)

/-- HELD_MESSAGE_RELEASE (R436): the held messages take the new hash. -/
def execHeldMessageRelease (link : Nat) (s : State) : Res :=
  let k := s.linkAt link
  .next (if !k.draining || s.outstanding link then s
    else { s with msgs := s.msgs.map (fun (m : Msg) => if k.held.contains m.id then { m with link := s.linkTo m.dst m.addr } else m) }.updLink
      link (fun k => { k with draining := false, held := [], oldMasks := [] }))

/-! ### Completions of accesses to other devices (08 R230, R231; 09 R253) -/

/-- Mark a lane of a register (08 R231). -/
def markLane (marks : List (Nat × Word)) (reg : Nat) (lane : Word) : List (Nat × Word) :=
  if marks.any (fun m => decide (m.1 = reg)) then marks.map (fun m => if m.1 = reg then (m.1, m.2 ||| lane) else m)
  else marks ++ [(reg, lane)]

/-- A poisoned lane of an operation: one report for the operation names all its poisoned lanes, and the address of the
lowest (08 R230). -/
def State.poisonLane (s : State) (m : Msg) (cause : Nat) (regs : List Nat) : State :=
  let lane := laneMask (fun l => decide (l = m.lane))
  match s.gang.reports.find? (fun r => decide (r.id = m.opid)) with
  | none =>
    let path := ((s.gang.out.find? (fun o => decide (o.id = m.opid))).map (·.path)).getD 0
    s.reportPoison m.opid path regs lane m.dst cause m.addr m.opc
  | some r =>
    let lower := laneMask (fun l => decide (l < m.lane)) &&& r.record.lanes = 0
    let rec_ := { r.record with lanes := r.record.lanes ||| lane, addr := if lower then BitVec.ofNat 64 m.addr else r.record.addr }
    let marks := regs.foldl (fun ms k => markLane ms k lane) r.marks
    s.updGang (fun g => { g with reports := g.reports.map (fun q =>
      if q.id = m.opid then { q with record := rec_, marks := marks } else q) })

/-- The line that a message has fetched fills the L1 of its core, unless the fetch may fill it no more (07 R192; log entry 84,
DEDUCED). -/
def State.fillFrom (s : State) (m : Msg) (code : Nat) (page : Page) (keep : Bool) (bs : List Byte) : State :=
  if keep && !bs.isEmpty then
    s.l1FillFar (coreOfWid (m.gang / 32)) (m.gang / 32) (farLine m.addr) code page (fun i => bs.getD i 0)
  else s

/-- The value of a completed lane goes to its register, and a lock taken is entered (07 R182; 04 R103). A load that fetched its
line takes from it the bytes that the L1 did not hold. -/
def State.laneValue (s : State) (m : Msg) (ok : Bool) (bs : List Byte) : State :=
  let d : Code := BitVec.ofNat 8 m.reg
  let put := fun (s : State) size signed (x : Nat) => if m.reg < 0xF0 then
    s.updGang (fun g => g.putLoad d size signed m.lane (if ok then x % 256 ^ size else 0)) else s
  match m.kind with
  | .read size => put s size (decide (m.data = 1)) (ofBytesLE bs)
  | .fill size code page keep known =>
    let x := ofBytesLE ((List.range size).map (fun i => (known.getD i none).getD (bs.getD (m.addr % 128 + i) 0)))
    put (if ok then s.fillFrom m code page keep bs else s) size (decide (m.data = 1)) x
  | .watch ls => s.updGang (fun g =>
      let g := g.putV32 d (fun l => ls.getLsbD l) (fun _ => if ok then BitVec.ofNat 32 (ofBytesLE bs) else 0)
      if ok || g.watch.id ≠ m.id then g else g.loseWatch)
  | .atomic tag size x =>
    let v := if ok then ofBytesLE bs % 256 ^ size else 0
    let s := put s size false v
    let op := if tag % 16 = 7 then AtomOp.xchg else .cas
    if ok && decide (m.dep = 1) && lockTaken op v x.toNat m.data then
      s.updGang (fun g => { g with locks := lockEnter g.locks m.handle.toNat m.cell s.stepNo })
    else s
  | _ => s

/-- A store that a poisoned write-back carried is reported by its gang (08 R230). -/
def State.noteReport (s : State) (dev cause : Nat) (n : StoreNote) : State :=
  s.updGangAt n.gang (fun g =>
    if !g.live || g.age ≠ n.age || g.reports.any (fun r => decide (r.id = n.id)) then g
    else
      let r : Report := { id := n.id, path := 1, seq := n.seq, marks := [], relScope := some 5
                          record := { cause := 0x10, lanes := n.lanes, addr := n.addr, opc := n.opc, device := dev, rcause := cause } }
      { g with reports := insertReport r g.reports })

/-- A write of an engine to another device has its completion: its command, its operation or its packet hears of it
(08 R226, R227; 11 R292, 14 R354, 17 R416). -/
def State.engineAnswer (s : State) (m : Msg) (status : Nat) : State :=
  let s := s.cores.foldl (fun s e => match e.2.gleaner.find? (fun c => decide (c.id = m.opid)) with
    | some c => s.cmdAnswer e.1 c m status
    | none => s) s
  let s := if status = 0 then s else
    { s with clusters := s.clusters.map (fun (e : Nat × Cluster) => (e.1, { e.2 with table := e.2.table.map (fun (x : Mentry) =>
      if x.id = m.opid && x.failed.isNone then
        { x with failed := some (x.failRec (if status = 2 then 1 else 2) m.handle.toNat m.dst (status - 1)) } else x) })) }
  (if status = 0 then s else s.packetFailed m).closePackets

/-- A lane of a gang of this device has its completion (R433; 08 R230). -/
def State.laneDone (s : State) (m : Msg) (status : Nat) (bs : List Byte) : State :=
  if !(s.gangAt m.gang).out.any (fun o => decide (o.id = m.opid)) then s
  else
    let back := s.cur
    let s := ({ s with cur := m.gang }).laneValue m (decide (status = 0)) bs
    let s := s.updGang (fun g => { g with pend := g.pend.filter (fun p =>
      !(decide (p.id = m.opid) && decide (p.lanes = m.lanes) && m.regs.contains p.reg)) })
    let s := if status = 0 then s else s.poisonLane m (status - 1) m.regs
    { s.settle m.gang m.opid with cur := back }

/-- A request of this device has its completion: status 0, or 1 + the cause of a poisoned one, with the bytes that it
answers (R433; 08 R230). A response to an access of an earlier translation generation has no effect (09 R252). -/
def State.completeMsg (s : State) (m : Msg) (status : Nat) (bs : List Byte) : State :=
  let stale := m.kind.isAccess && decide (m.gen ≠ s.pasidGen m.pasid)
  let live := (s.gangAt m.gang).live
  let s := s.dropMsg m.id
  match m.kind with
  | .mirror _ _ => s.mirrorHeard m.id status
  | .ask what => if status = 0 then s.homeAnswered m what (ofBytesLE bs) else s
  | .rget _ =>
    let st := ofBytesLE (bs.take 8)
    let dev := st / 2 ^ 32
    if status ≠ 0 then s
    else if st % 256 = 1 && decide (dev ≠ m.dst) then s.fetchResult m (st % 2 ^ 32) dev
    else s.endsRget m (st % 2 ^ 32) dev (bs.drop 8)
  | .window _ _ _ => { s with hostReply := some (toNat01 (decide (status ≠ 0)), ofBytesLE bs) }
  | .flush _ _ =>
    let s := if status = 0 then s else m.notes.foldl (fun s n => s.noteReport m.dst (status - 1) n) s
    if m.gang = noGang then s else s.settle m.gang m.opid
  | .fetch code page keep want =>
    if stale || !live then s
    else if status = 0 then s.fillFrom m code page keep bs
    else if want then s.updGangAt m.gang (fun g => { g with fetchFails := g.fetchFails ++ [(farLine m.addr,
      { cause := 0x10, addr := BitVec.ofNat 64 m.addr, opc := m.opc, device := m.dst, rcause := status - 1 })] })
    else s
  | _ =>
    if m.reg = 0xFE then { s with hostReply := some (toNat01 (decide (status ≠ 0)), ofBytesLE bs) }
    else if stale then s.closePackets
    else if m.gang = noGang then s.engineAnswer m status
    else if live then s.laneDone m status bs
    else s

/-- A request of this device to another that is answered. -/
def State.memRequest (s : State) (m : Msg) : Bool :=
  decide (m.src = s.devid) && decide (m.dst ≠ s.devid) && (m.kind.isAccess || (match m.kind with
    | .mirror _ _ => true
    | .ask _ => true
    | .rget _ => true
    | .window _ _ _ => true
    | _ => false))

/-- INITIATOR_TIMEOUT (09 R253): no completion has come; the access is poisoned with cause 2. -/
def execInitiatorTimeout (msg : Nat) (s : State) : Res :=
  .next (match s.msg msg with
    | some m => if s.memRequest m && m.kind.isAccess then s.completeMsg m 3 [] else s
    | none => s)

/-! ### Inbound accesses (09 R253, R254; R439 to R443) -/

/-- Rights that an inbound access needs. -/
def inboundRights (kind : Nat) : Nat := if kind = 0 || kind = 3 || kind = 5 then 1 else if kind = 2 then 3 else 2

/-- The kind that the logs give: engines have their own, an mwatch reads and a write-back writes (09 R254). -/
def inboundLogKind (kind : Nat) : Nat := if kind = 5 then 0 else if kind = 6 then 1 else min kind 3

/-- The access tables admit an inbound access to a partition's memory: as the peer device that sends it, or as the host for
which the bridge of the group forwards it (R438, R439, R441). -/
def State.admitsInbound (s : State) (host : Bool) (owner : Option Nat) (src spart need : Nat) : Bool :=
  if host then s.admitsHost owner need else s.admitsPeer owner src spart need

/-- Why an inbound access is poisoned, if it is (09 R253; 19 R455) (log entry 72, DEDUCED). -/
def State.inboundCause (s : State) (host : Bool) (src spart kind addr size : Nat) : Option Nat :=
  let a := addr % 2 ^ 40
  let lines := (List.range (if size = 0 then 1 else (a + size - 1) / 128 - a / 128 + 1)).map (fun i => a / 128 + i)
  let ch := channelOf a
  let owner := s.channelOwner ch
  if localLimit < a + size || decide (localLimit ≤ a) || s.migrating.contains (a / 65536) then some 0
  else if owner.isNone && s.parts.any (fun e => e.2.lastChannels.contains ch) then some 3
  else if (!host && s.parts.any (fun e => e.2.blocked.contains (src, spart))) || !s.admitsInbound host owner src spart (inboundRights kind) ||
      !s.admitsInbound host (s.channelOwner (channelOf (a + size - 1))) src spart (inboundRights kind) then some 1
  else if inboundRights kind % 2 = 1 && lines.any s.badLines.contains then some 0
  else none

/-- A completion goes back to the initiator. -/
def State.complete (s : State) (dst tag status data : Nat) : State :=
  s.send { Msg.blank with kind := .completion status, dst := dst, opid := tag, data := data }

/-- The alarm of a refused host access: actions 1 and 2 act as 0 (R444) (log entry 72, DEDUCED). -/
def State.hostAlarm (s : State) (owner : Option Nat) (addr src need : Nat) : State :=
  let act := if s.alarmAction owner = 3 then 3 else 0
  let s := s.logSecurity addr src 0xFF 6 0 (need - 1) act
  if act = 3 then { s with alarms := s.alarms ++ [(3, 0, 0xFF)] } else s

/-- A poisoned completion: the log entry, the alarm of a refusal, and the completion (09 R253; R443, R444). -/
def State.poisonInbound (s : State) (x : Inbound) (cause : Nat) : State :=
  let s := s.inflog x.addr x.src cause (inboundLogKind x.kind) x.pasid
  let owner := s.channelOwner (channelOf (x.addr % 2 ^ 40))
  let need := inboundRights x.kind
  let s := if cause ≠ 1 then s
    else if x.host then s.hostAlarm owner x.addr x.src need
    else s.peerAlarm owner x.addr x.src x.spart x.pasid (if need = 3 then 2 else need - 1)
  s.complete x.src x.tag (1 + cause) 0

/-- The operation of an atomic request's tag. -/
def atomOpOf (n : Nat) : AtomOp :=
  match n % 16 with
  | 0 => .add
  | 1 => .fadd
  | 2 => .min
  | 3 => .max
  | 4 => .and
  | 5 => .or
  | 6 => .xor
  | 7 => .xchg
  | _ => .cas

/-- The bytes that a write-back names take their values at home (08 R218). -/
def State.writeMasked (s : State) (line : Nat) (mask : BitVec 128) (bytes : Nat) : State :=
  let x : L1Line := { way := 0, valid := mask, dirty := mask, data := BitVec.ofNat 1024 bytes, slot := 0, deadline := 0
                      noReuse := false, orphan := false, leafW := true, notes := [] }
  { s with
    mem := mergeDirty x (line * 128) 128 s.mem
    badLines := if mask = BitVec.allOnes 128 then s.badLines.filter (fun l => decide (l ≠ line)) else s.badLines }.fireWatches line

/-- An admitted access performs at its home slice: the state and what is read. The data of an atomic holds its low
operand, its second operand from bit 64 and its operation from bit 128; that of a write-back the mask of its bytes, and the
line from bit 128 (log entry 25, DESIGN CHOICE). An mwatch arms the watch of its device with the read (07 R185). -/
def State.performInbound (s : State) (x : Inbound) : State × Nat :=
  let a := x.addr % 2 ^ 40
  if x.kind = 0 || x.kind = 3 then (s, s.readHome a x.size)
  else if x.kind = 5 then (s.enterWatch (a / 128) (.far x.src x.tag), s.readHome a x.size)
  else if x.kind = 6 then (s.writeMasked (a / 128) (BitVec.ofNat 128 x.data) (x.data / 2 ^ 128), 0)
  else if x.kind = 2 then
    let tag := x.data / 2 ^ 128
    let m := s.readHome a x.size
    (s.writeHomeNum a x.size (atomNew (atomOpOf tag) x.size (bit tag 4) m (field x.data 64 64) (x.data % 2 ^ 64)), m)
  else (s.writeHomeNum a x.size x.data, 0)

/-- An inbound access is checked, and performs or is poisoned (09 R253). -/
def State.serve (s : State) (x : Inbound) : State :=
  match s.inboundCause x.host x.src x.spart x.kind x.addr x.size with
  | some c => s.poisonInbound x c
  | none =>
    let r := s.performInbound x
    r.1.complete x.src x.tag 0 r.2

/-- INBOUND_ACCESS (09 R253): one that a link has delivered and that has not completed, or one as it arrives
(log entry 73, DEDUCED). -/
def execInboundAccess (src spart pasid kind addr size data : Nat) (s : State) : Res :=
  .next (match s.inbound.find? (fun x => decide (x.src = src) && decide (x.spart = spart) && decide (x.pasid = pasid) &&
      decide (x.kind = kind) && decide (x.addr = addr) && decide (x.size = size) && decide (x.data = data)) with
    | some x => ({ s with inbound := s.inbound.filter (fun y => decide (y.id ≠ x.id)) }).serve x
    | none => s.serve { id := 0, src := src, spart := spart, pasid := pasid, kind := kind, addr := addr, size := size, data := data
                        tag := 0, host := false, gen := s.pasidGen pasid })

/-- INBOUND_TIMEOUT (09 R253): an access that has not completed within INBOUND_TMO is poisoned with cause 2, and has no
effect afterwards. -/
def execInboundTimeout (id : Nat) (s : State) : Res :=
  .next (match s.inbound.find? (fun x => decide (x.id = id)) with
    | some x => ({ s with inbound := s.inbound.filter (fun y => decide (y.id ≠ id)) }).poisonInbound x 2
    | none => s)

/-! ### Operating points and steps (19 R451 to R453) -/

/-- The voltage floor of a frequency, rounded up to the 5 mV grid of a point (19 R451; log entry 28, DEDUCED). -/
def vmin (f : Nat) : Nat := roundUp (ceilDiv (4000 + f) 8) 5

/-- A point lies on the grid and in the ranges of 19 R451. -/
def pointOk (f v : Nat) : Bool :=
  decide (f % 100 = 0) && decide (800 ≤ f) && decide (f ≤ 2400) && decide (v % 5 = 0) && decide (600 ≤ v) && decide (v ≤ 900)

/-- A point holds its floor: V ≥ 500 + f / 8 (19 R451). -/
def floorOk (f v : Nat) : Bool := decide (4000 + f ≤ 8 * v)

/-- The step in progress is complete: kind 0 is logged (19 R459). -/
def State.pointReached (s : State) : State :=
  { s with power := { s.power with busy := false, phase := 0, clockStopped := false } }.logEvent 0
    (bytesLE 2 s.power.freq ++ bytesLE 2 s.power.volt)

/-- A step to a point starts (19 R452): a raise slews first, a fall switches first; a part that is not needed is left out
(log entry 75, DEDUCED). -/
def State.startStep (s : State) (f v : Nat) : State :=
  let p := s.power
  let go := fun phase => { s with power := { p with target := (f, v), busy := true, phase := phase, clockStopped := decide (phase = 2 ∨ phase = 3) } }
  if p.freq = f ∧ p.volt = v then { s with power := { p with target := (f, v) } }.pointReached
  else if p.freq = f then go 4
  else if p.volt = v then go 2
  else if p.freq < f then go 1
  else go 3

/-- A step has ended: the request that waits starts, unless a throttle holds it (19 R453). The power cap
lowers nothing any more when the step goes to the requested point (R450). -/
def State.endStep (s : State) : State :=
  let s := s.pointReached
  match s.power.waiting with
  | some (f, v) => if s.power.throttled then s else { s with power := { s.power with
      waiting := none
      capFreq := if f = s.power.reqFreq then 2400 else s.power.capFreq } }.startStep f v
  | none => s

/-- A write of DVFS_REQ (19 R453): denied with its cause, waiting, or started. -/
def State.dvfsReq (s : State) (value : Word) : State :=
  let f := value.toNat % 65536
  let v := value.toNat / 65536
  let p := s.power
  let deny := fun c => { s with power := { p with deny := c } }.logEvent 1 (bytesLE 1 c ++ bytesLE 2 f ++ bytesLE 2 v)
  if !pointOk f v then deny 1
  else if !floorOk f v then deny 2
  else
    let s := { s with power := { p with reqFreq := f, reqVolt := v, deny := if p.throttled then 3 else 0 } }
    if p.throttled then s
    else if p.busy then { s with power := { s.power with waiting := some (f, v) } }
    else { s with power := { s.power with capFreq := 2400 } }.startStep f v

/-! ### The management window (R442) and system registers of the firmware (16 R405) -/

/-- The 64 bytes of the identity block's fields (19 R460); `none` outside them. -/
def State.identityBytes (s : State) : List Byte :=
  (List.range 8).map Config.identityByte ++ bytesLE 2 s.devid ++ bytesLE 1 (toNat01 s.bridge) ++ bytesLE 1 0 ++
  (List.range 8).map (fun d => BitVec.ofNat 8 (s.dieAt d).disabled) ++ bytesLE 4 0 ++ bytesLE 8 Config.firmwareVersion.toNat ++
  bytesLE 32 (Config.shake256 ((List.range 64).map (fun i => Config.identityByte (8 + i)))).toNat ++ bytesLE 4 s.sigIndex ++
  bytesLE 4 s.power.cap ++ bytesLE 24 ((s.kept.eraseDups.map (fun c => 2 ^ c)).sum)

/-- A byte of the management window as a reader sees it: the identity block is formed from the state (19 R460). -/
def State.windowByte (s : State) (off : Nat) : Byte :=
  if 0x50000 ≤ off && decide (off < 0x50060) then s.identityBytes.getD (off - 0x50000) 0 else mapGet 0 s.window off

/-- Places of the window that keep what is written: policy records, the attestation request, the management doorbell word and
ring (R442, R448, R486). -/
def windowKeeps (off : Nat) : Bool :=
  decide (off < 512) || (decide (0x40000 ≤ off) && decide (off < 0x40800)) || (decide (0x80000 ≤ off) && decide (off < 0x80004)) ||
  (decide (0xC0000 ≤ off) && decide (off < 0x100000))

/-- Places whose registers are 8 bytes wide: policy records, routes and the ring (R442). -/
def windowWide (off : Nat) : Bool :=
  decide (off < 512) || (decide (0x10000 ≤ off) && decide (off < 0x14800)) || (decide (0xC0000 ≤ off) && decide (off < 0x100000))

/-- One byte is written: into a place that keeps it, or into a route entry (R435, R442). -/
def State.windowPut (s : State) (off : Nat) (b : Byte) : State :=
  if windowKeeps off then { s with window := mapSet 0 s.window off b }
  else if 0x10000 ≤ off && decide (off < 0x14800) then
    let d := (off - 0x10000) / 8
    let old := mapGet 0 s.routes d
    { s.setRoute d (ofBytesLE ((List.range 8).map (fun i => if i = off % 8 then b else Machine.byteAt old i))) with routesLoaded := true }
  else s

/-- The load of a policy record starts; the commit word reads 0xFFFF_FFFF until it is complete (R442). -/
def State.startCommit (s : State) (part : Nat) : State :=
  if 8 ≤ part then s else { s with commits := s.commits ++ [part] }.putWindow 0x1000 4 0xFFFFFFFF

/-- POWER_CAP: a value outside its range is ignored (19 R450, R460). -/
def State.setPowerCap (s : State) (x : Nat) : State :=
  if 1800 ≤ x && decide (x ≤ 3600) then { s.putWindow 0x61008 4 x with power := { s.power with cap := x } } else s

/-- A write of `n` bytes of the window by the host or the firmware: bytes that are kept, and the 4-byte registers that it covers
whole: commit, DVFS_REQ and POWER_CAP (R442; 19 R453, R460). Other places ignore it (log entry 74, DEDUCED). -/
def State.windowWrite (s : State) (off n : Nat) (x : DWord) : State :=
  let covers := fun r => decide (off ≤ r) && decide (r + 4 ≤ off + n)
  let at_ := fun r => field x.toNat (8 * (r - off)) 32
  let s := (List.range n).foldl (fun s i => s.windowPut (off + i) (Machine.byteAt x.toNat i)) s
  let s := if covers 0x1000 then s.startCommit (at_ 0x1000) else s
  let s := if covers 0x61000 then s.dvfsReq (BitVec.ofNat 32 (at_ 0x61000)) else s
  if covers 0x61008 then s.setPowerCap (at_ 0x61008) else s

/-- DVFS_STAT (R454). -/
def Power.stat (p : Power) : Word := BitVec.ofNat 32 (toNat01 p.busy * 2 ^ 31 + p.deny * 2 ^ 29 + p.volt * 2 ^ 16 + p.freq)
/-- DVFS_REQ as it reads: the last accepted request (R453). -/
def Power.req (p : Power) : Word := BitVec.ofNat 32 (p.reqVolt * 2 ^ 16 + p.reqFreq)

/-- A byte of the management window with DVFS_REQ and DVFS_STAT as they read (R453, R454; 19 R460). -/
def State.windowSeen (s : State) (off : Nat) : Byte :=
  if 0x61000 ≤ off && decide (off < 0x61004) then Machine.byteAt s.power.req.toNat (off - 0x61000)
  else if 0x61004 ≤ off && decide (off < 0x61008) then Machine.byteAt s.power.stat.toNat (off - 0x61004)
  else s.windowByte off

/-- The reserved fields of a policy record are 0 (R440). -/
def policyOk (p : Nat) (b : List Byte) : Bool :=
  (List.range 9).all (fun i => decide (i = p) || decide (blockNum b i 1 < 8)) && decide (blockNum b 9 1 < 4) && blockZero b 10 6 &&
  (List.range 6).all (fun i => decide (blockNum b (16 + 8 * i) 8 < 2 ^ 36))

/-- A policy record has been loaded into every target in one step, and the blocks of its owner end; a record with a nonzero
reserved field loads nothing. The commit word tells whether another load runs (R442, R444). -/
def State.commitPolicy (s : State) (part : Nat) : State :=
  let b := s.windowBytes (64 * part) 64
  let left := s.commits.filter (fun p => decide (p ≠ part))
  let done := fun (s : State) x => { s with commits := left }.putWindow 0x1000 4 (if left.isEmpty then x else 0xFFFFFFFF)
  if 8 ≤ part then s
  else if policyOk part b then (done s 0).updPart part (fun p => { p with policy := b, blocked := [] })
  else done s 0xFFFFFFFE

/-- The device of the group that a PCIe function stands for (R438). -/
def State.groupDevice (s : State) (fn : Nat) : Nat := s.devid / 8 * 8 + fn

/-- A host's access to the window: a byte list as it reads, or a write; a write of the doorbell word is heard (R442, R486). -/
def State.windowHost (s : State) (off n : Nat) (value : Option DWord) : State × Nat :=
  match value with
  | none => (s, readLE s.windowSeen off n)
  | some x =>
    let t := s.windowWrite off n x
    (if 0x80000 < off + n && decide (off < 0x80004) then t.hearDoorbell mgmtQueue else t, 0)

/-- A host's access to the window of a device of the group (R438): to this one's at once, to another's over the links. -/
def State.windowAccess (s : State) (fn off n : Nat) (value : Option DWord) : State :=
  if !s.pcieUp || decide (8 ≤ fn) || decide (2 ^ 20 ≤ off) then s
  else if s.groupDevice fn = s.devid then
    let r := s.windowHost off n value
    { r.1 with hostReply := some (0, r.2) }
  else ({ s with hostReply := none }).send { Msg.blank with kind := .window off n value, dst := s.groupDevice fn, gang := noGang }

/-- A write under a session key is authentic: its tag is that of the key (R448) (log entry 119, DESIGN CHOICE). -/
def State.sealOk (s : State) (off n : Nat) (x : DWord) (key : Nat) (tag : List Byte) : Bool :=
  match s.sessions[key]? with
  | some k => decide (Config.sessionTag k (bytesLE 4 off ++ bytesLE 1 n ++ bytesLE 8 x.toNat) = tag)
  | none => false

/-- A host's write of the window under a session key: one that is not authentic has no effect (R448)
(log entry 119, DESIGN CHOICE). -/
def State.sealedAccess (s : State) (fn off n : Nat) (x : DWord) (key : Nat) (tag : List Byte) : State :=
  if !s.pcieUp || decide (8 ≤ fn) || decide (2 ^ 20 ≤ off) then s
  else if s.groupDevice fn = s.devid then
    (if s.sealOk off n x key tag then { (s.windowHost off n (some x)).1 with hostReply := some (0, 0) } else { s with hostReply := some (1, 0) })
  else ({ s with hostReply := none }).send { Msg.blank with
    kind := .window off n (some x), dst := s.groupDevice fn, gang := noGang, dep := BitVec.ofNat 64 (key + 1), block := tag }

/-- The bridge of the group forwards a host's access to the window; one under a session key must be authentic here; from any
other device it is refused (R438). -/
def State.windowAnswer (s : State) (m : Msg) (off n : Nat) (value : Option DWord) : State :=
  if m.src / 8 ≠ s.devid / 8 then s.complete m.src m.opid 2 0
  else if m.dep ≠ 0 && !(value.any (fun x => s.sealOk off n x (m.dep.toNat - 1) m.block)) then s.complete m.src m.opid 2 0
  else
    let r := s.windowHost off n value
    r.1.complete m.src m.opid 0 r.2

/-! ### Lumen messages (R433) -/

/-- Fields of a message header (R433). -/
structure LumenHeader where
  dst : Nat
  src : Nat
  pasid : Nat
  spart : Nat
  cls : Nat
  vc : Nat
  kind : Nat
  more : Nat
deriving DecidableEq, Repr

/-- A header from its 8 bytes. -/
def lumenHeader (h : DWord) : LumenHeader :=
  let x := h.toNat
  { dst := field x 52 12, src := field x 40 12, pasid := field x 20 20, spart := field x 17 3, cls := field x 14 3
    vc := field x 12 2, kind := field x 4 8, more := field x 0 4 }

/-- The header has no reserved value and names this device; message kinds from 26 on are reserved (log entry 25, DESIGN CHOICE). -/
def State.headerOk (s : State) (h : LumenHeader) : Bool :=
  decide (h.dst = s.devid) && decide (h.src < 2304) && decide (h.vc < 3) && decide (h.kind < 26)

/-- A message of class 6 is a host's access that the bridge of this device's group forwards (01 R34, R437, R438). -/
def State.fromHost (s : State) (h : LumenHeader) : Bool := decide (h.cls = 6) && decide (h.src / 8 = s.devid / 8)

/-- The message that a payload carries: 64 bytes of fields, then its block (log entry 25, DESIGN CHOICE). -/
def State.wireMsg (s : State) (h : LumenHeader) (p : List Byte) : Msg :=
  let n := fun i => blockNum p (8 * i) 8
  let kind : MsgKind := match h.kind with
    | 3 => .invoke
    | 4 => .forward
    | 5 => .cellAdd (n 4 % 16384) (n 5 % 65536) (n 6 % 65536)
    | 7 => .dependent
    | 8 => .bindReport h.src (n 4 % 8) (n 5)
    | 9 => .result (n 4)
    | 10 => .failReport (n 4 % 256)
    | 11 => .cellRaise (n 4 % 16384)
    | 12 => .accepted
    | 13 => .freeSlot (n 4 % 8) (n 5) (decide (n 6 = 1))
    | 14 => .groupArrive h.spart (n 4 % 1024)
    | 15 => .groupNotice h.spart (n 4 % 1024)
    | 18 => .wake (n 4) (n 5 % 4)
    | 19 => .ask 0
    | 20 => .ask 1
    | 21 => .rget (n 0)
    | 22 => .mirror (match n 4 % 4 with
        | 0 => .split (n 5 % 2 ^ 24)
        | 1 => .claim
        | 2 => .leaf (n 5 % 2 ^ 52)
        | _ => .finish) (n 6 % 2 ^ 24)
    | 25 => .recorded
    | 24 => .window (n 4 % 2 ^ 20) (n 6 % 9) (if n 7 = 0 then none else some (BitVec.ofNat 64 (n 5)))
    | _ => .rootCount h.spart (n 4 % 1024) (n 5)
  { Msg.blank with
    kind := kind, src := h.src, dst := s.devid, part := h.spart, tpart := n 6 % 8, pasid := h.pasid, cell := n 4 % 16384
    handle := BitVec.ofNat 64 (n 1), dep := BitVec.ofNat 64 (n 2), block := p.drop 64, gang := n 7, opid := n 0, addr := n 3 }

/-- An answer to an invocation of this device ends the wait for its message. -/
def State.answered (s : State) (h : DWord) : State :=
  { s with msgs := s.msgs.filter (fun m => !(decide (m.handle = h) && decide (m.dst ≠ s.devid) && (match m.kind with
    | .invoke => true
    | .dependent => true
    | .forward => true
    | _ => false))) }

/-- The root's notice completes the generation on this device: its members' lists are replaced by the merged one, or they
are told that the lists differ (10 R267, 12 R316). -/
def State.groupNoticed (s : State) (part gid : Nat) (block : List Byte) : State :=
  (s.giveLists (groupKey part gid) (if listOk block then some block else none)).endGeneration part gid

/-- A device has arrived at the root of a dom group (10 R267). -/
def State.deviceArrived (s : State) (part gid src : Nat) (block : List Byte) : State :=
  s.updGroup (groupKey part gid) (fun g =>
    if g.devices.contains src then g else { g with devices := src :: g.devices, lists := g.lists ++ [block] })

/-- The watch of the mwatch of a number wakes, whose line is home on another device: 0 written, 2 invalidated, 3 lost
(07 R186). -/
def State.wakeFar (s : State) (id code : Nat) : State :=
  s.liveGangs.foldl (fun s k => s.updGangAt k (fun g =>
    if g.watch.id = id && g.watch.armed.isSome then
      (if code = 3 then g.loseWatch
      else { g with watch := { g.watch with armed := none, fired := g.watch.fired || decide (code = 0), invalid := g.watch.invalid || decide (code = 2) } })
    else g)) s

/-- A message of another device that is not an access: applied where it needs no further turn, else in flight here. -/
def State.takeMsg (s : State) (m : Msg) : State :=
  match m.kind with
  | .accepted =>
    let s := s.answered m.handle
    match s.current m.handle with
    | some k => s.acceptHandle k
    | none => s
  | .freeSlot _ _ done => (if done then s.deliverHeld m.handle else s.breakHeld m.handle).freeResult m.handle done
  | .recorded => s.resultRecorded m.handle
  | .wake id code => s.wakeFar id code
  | .mirror st index => s.answerMirror m st index m.opid
  | .window off n value => s.windowAnswer m off n value
  | .groupArrive part gid => s.deviceArrived part gid m.src m.block
  | .groupNotice part gid => s.groupNoticed part gid m.block
  | .rootCount part gid n => if 0 < n && decide (n ≤ 2304) then s.setMask (groupKey part gid) 2 n else s
  | _ =>
    let r := s.takeId
    let s := match m.kind with
      | .bindReport _ _ _ => r.2.answered m.handle
      | .result _ => r.2.answered m.handle
      | .failReport _ => r.2.answered m.handle
      | _ => r.2
    { s with msgs := s.msgs ++ [{ m with id := r.1 }] }

/-- An access of another device: it waits to be checked (09 R253). -/
def State.takeAccess (s : State) (h : LumenHeader) (p : List Byte) : State :=
  let n := fun i => blockNum p (8 * i) 8
  let r := s.takeId
  let lanes := decide (h.cls = 0)
  let host := s.fromHost h
  let kind := if h.kind = 17 then 5 else if h.kind = 23 then 6 else if h.kind = 2 then 2 else if lanes || host then h.kind else 3 + h.kind
  let data := if h.kind = 2 then n 5 + n 6 * 2 ^ 64 + n 7 * 2 ^ 128
    else if h.kind = 23 then n 5 + n 6 * 2 ^ 64 + ofBytesLE ((p.drop 64).take 128) * 2 ^ 128
    else ofBytesLE (p.drop 64)
  { r.2 with inbound := r.2.inbound ++ [{ id := r.1, src := h.src, spart := h.spart, pasid := h.pasid, kind := kind, addr := n 3
                                          size := if h.kind = 23 then 128 else n 4, data := data, tag := n 0, host := host
                                          gen := s.pasidGen h.pasid }] }

/-- The link ports refuse all traffic of a source that an alarm has blocked, until the owner's next commit (R444): an invocation
breaks, and anything else is dropped; an access is poisoned where it is checked. A completion answers this device's own
request (log entry 54, DEDUCED). -/
def State.refuseBlocked (s : State) (m : Msg) : State :=
  match m.kind with
  | .invoke => s.breakHandle m.handle 1
  | .dependent => s.breakHandle m.handle 1
  | .forward => s.breakHandle m.handle 1
  | _ => s

/-- LUMEN_MESSAGE_RECEIVE (R433, R436): a flit that fails its CRC is dropped and asked for again; after 8 failed replays, which
follow the first failed reception, the link goes down. A bad header is dropped and logged with no master (log entry 80, DEDUCED)
(log entry 81, DEDUCED). -/
def execLumenMessageReceive (link : Nat) (crcOk : Bool) (header : DWord) (payload : List Byte) (s : State) : Res :=
  if 36 ≤ link || !(s.linkAt link).up then .next s
  else if !crcOk then
    .next (if 8 ≤ (s.linkAt link).replays then s.linkDown link else s.updLink link (fun k => { k with replays := k.replays + 1 }))
  else
    let h := lumenHeader header
    let s := s.updLink link (fun k => { k with replays := 0, seqIn := k.seqIn + 1 + h.more })
    if !s.headerOk h then .next (s.logSecurity 0 h.src 0xFF h.cls h.pasid 5 0)
    else if h.kind < 3 || h.kind = 17 || h.kind = 23 then .next (s.takeAccess h payload)
    else if h.kind = 6 then
      .next (match s.msg (blockNum payload 0 8) with
        | some m => if s.memRequest m && decide (m.dst = h.src) then
            s.completeMsg m (blockNum payload 32 8) (payload.drop 64) else s
        | none => s)
    else if s.parts.any (fun e => e.2.blocked.contains (h.src, h.spart)) then .next (s.refuseBlocked (s.wireMsg h payload))
    else .next (s.takeMsg (s.wireMsg h payload))

/-! ### The host: BAR0 (R438, R439; 01 R34) -/

/-- An access of the host to this device's local memory, as a host master: refused, or at or above 576 GiB, it completes with
unsupported request (R438, R441, R443). -/
def State.hostAccess (s : State) (write : Bool) (addr size data : Nat) : State :=
  let need := if write then 2 else 1
  let own := s.channelOwner (channelOf addr)
  let lines := (List.range (if size = 0 then 1 else (addr + size - 1) / 128 - addr / 128 + 1)).map (fun i => addr / 128 + i)
  let bad := fun (s : State) => { s with hostReply := some (1, 0) }
  if localLimit < addr + size || decide (localLimit ≤ addr) then bad s
  else if !s.admitsHost own need || !s.admitsHost (s.channelOwner (channelOf (addr + size - 1))) need then
    bad (s.hostAlarm own addr s.devid need)
  else if write then { s.writeHomeNum addr size data with hostReply := some (0, 0) }
  else if lines.any s.badLines.contains then bad s
  else { s with hostReply := some (0, s.readHome addr size) }

/-- HOST_BAR0_ACCESS (R438; 01 R34): through a function of the bridge, at an offset in its BAR of 2^40 bytes, to this
device's memory or, over the links, to that of the group's device of the number; the answer comes with its completion. A
port in reset takes no access. -/
def execHostBar0Access (write : Bool) (place size data : Nat) (s : State) : Res :=
  let fn := place / 2 ^ 40
  let addr := place % 2 ^ 40
  .next (if !s.pcieUp || decide (8 ≤ fn) then s
    else if s.groupDevice fn = s.devid then s.hostAccess write addr size data
    else if localLimit < addr + size || decide (localLimit ≤ addr) then { s with hostReply := some (1, 0) }
    else ({ s with hostReply := none }).send { Msg.blank with
      kind := if write then .write size else .read size, dst := s.groupDevice fn, addr := s.groupDevice fn * 2 ^ 40 + addr
      data := data, gang := noGang, reg := 0xFE })

/-! ### Registers of the firmware (16 R405) and policy commits (R442) -/

/-- REGISTER_WRITE (16 R405; R442): a system register by the firmware of a die, or a place of the management window
(log entry 74, DEDUCED). -/
def execRegisterWrite (window : Bool) (die number : Nat) (value : DWord) (s : State) : Res :=
  .next (if window then s.windowWrite number (if windowWide number then 8 else 4) value
    else if number = 0x20 && s.badSysPart value.toNat then s
    else s.setSysReg die number value)

/-- POLICY_COMMIT (R442, R444). -/
def execPolicyCommit (part : Nat) (s : State) : Res := .next (s.commitPolicy part)

/-! ### Attestation (R447, R448) -/

/-- The bytes whose digest stands for the policy records and the partition configurations (R448; log entry 26, DESIGN CHOICE). -/
def State.configBytes (s : State) : List Byte :=
  ((List.range 8).map (fun p =>
    let x := s.partAt p
    (x.policy ++ List.replicate 64 0).take 64 ++ bytesLE 1 (toNat01 x.live) ++
    bytesLE 16 ((x.clusters.map (fun c => 2 ^ c)).sum) ++ bytesLE 24 ((x.channels.map (fun c => 2 ^ c)).sum) ++
    bytesLE 4 x.quota ++ bytesLE 4 x.share ++ bytesLE 4 x.cells.1 ++ bytesLE 4 x.cells.2 ++ bytesLE 4 x.slots.1 ++
    bytesLE 4 x.slots.2 ++ bytesLE 8 x.pool.1 ++ bytesLE 8 x.pool.2 ++ bytesLE 8 x.notice.1 ++ bytesLE 8 x.notice.2)).flatten

/-- ATTESTATION_REQUEST (R447, R448): the signature index is raised before the signature is released; at 2^20 the device signs
nothing further. The report stands at 0x4_0800 of the window (log entry 26, DESIGN CHOICE). -/
def execAttestationRequest (nonce : List Byte) (key : Option (List Byte)) (s : State) : Res :=
  if 2 ^ 20 ≤ s.sigIndex then .next s
  else
    let r := s.takeFresh
    let idx := s.sigIndex
    let s := { r.2 with sigIndex := idx + 1 }
    let caps := (key.filter (fun k => decide (k.length = 1568))).map (fun k => Config.mlkemEncaps k r.1)
    let text := match caps with
      | some c => (c.1 ++ List.replicate 1568 0).take 1568
      | none => List.replicate 1568 0
    let body := bytesLE 2 s.devid ++ bytesLE 2 1 ++ bytesLE 4 idx ++ (nonce ++ List.replicate 32 0).take 32 ++
      bytesLE 32 (Config.shake256 s.image).toNat ++ bytesLE 32 (Config.shake256 s.configBytes).toNat ++ text
    let sig := (Config.xmssSign idx body ++ List.replicate 2820 0).take 2820
    let s := s.putWindowList 0x40800 (body ++ sig)
    .next (match caps with
      | some c => { s with sessions := (s.sessions ++ [c.2]).drop (s.sessions.length - 7) }
      | none => s)

/-! ### Device reset (R437) -/

/-- The device that training finds at the far end of link `k`, if the link trains (R432). -/
def trainedFar (pins k : Nat) : Option Nat :=
  if field pins (12 + 13 * k) 13 = 0 then none else some (field pins (12 + 13 * k) 13 - 1)

/-- Boot firmware accepts the image in flash: its signature verifies under the firmware key, whose digest the fuses hold
(R447). -/
def State.bootAccepts (s : State) : Bool :=
  decide (Config.shake256 Config.firmwareKey = Config.fusedDigest) && Config.xmssVerify Config.firmwareKey s.flash.1 s.flash.2

/-- A device whose image is not accepted stays in its boot loader, and reports it at 0x5_0060 of the window (R447)
(log entry 120, DESIGN CHOICE). -/
def State.bootLoader (s : State) (ok : Bool) : State := if ok then s else { s with bootFailed := true }.putWindow 0x50060 4 1

/-- DEVICE_RESET (R437, R432; 01 R21): the reset state with the straps read; a bridge brings its PCIe port up, and every link
trains, with the device that it finds at its far end, or none when it cannot train. The fuses, the signature counter and the
flash stand, and the model's own counters go on (log entry 78, DEDUCED). The boot loader takes the image in flash when its
signature verifies under the key whose digest is fused; otherwise it stays, and says so in BAR2 (R447) (log entry 120, DESIGN CHOICE). -/
def execDeviceReset (pins : Nat) (bridge : Bool) (s : State) : Res :=
  if 2304 ≤ pins % 4096 then .next s
  else .next (((List.range 36).foldl (fun (s : State) k => match trainedFar pins k with
    | some d => s.linkUp k d
    | none => s) { State.reset with
    devid := pins % 4096, bridge := bridge, pcieUp := bridge, sigIndex := s.sigIndex, flash := s.flash, image := s.flash.1
    dies := s.dies.map (fun (e : Nat × Die) => (e.1, { Die.empty with disabled := e.2.disabled }))
    nextId := s.nextId, fresh := s.fresh, stepNo := s.stepNo, agenda := s.agenda }).bootLoader s.bootAccepts)

end Sys2Proof.Machine
end

