-- ==== Sys2Proof/Machine/Housekeeping.lean ====
section
/-! DEFINITION. Power, clocks, thermal limits and background activity: operating points and DVFS steps, the power cap,
scrubbing and row remapping, mesh errors, telemetry and the event ring (19 R449 to R459; 07 R204). -/

namespace Sys2Proof.Machine

/-! ### Operating points and steps (R451, R452) -/

/-- CLOCK_SWITCH_END (R452): the arithmetic clock restarts at the new frequency; a fall's slew follows. -/
def execClockSwitchEnd (s : State) : Res :=
  let p := s.power
  .next (if !p.clockStopped then s
    else
      let s := { s with power := { p with freq := p.target.1, clockStopped := false } }
      if p.phase = 3 then { s with power := { s.power with phase := 4 } } else s.endStep)

/-- VOLTAGE_SLEW_END (R452): the voltage is the target's; a raise's clock switch follows. -/
def execVoltageSlewEnd (s : State) : Res :=
  let p := s.power
  .next (if p.phase = 1 then { s with power := { p with volt := p.target.2, phase := 2, clockStopped := true } }
    else if p.phase = 4 then { s with power := { p with volt := p.target.2 } }.endStep
    else s)

/-- DVFS_REQ (R453). -/
def execDvfsReq (value : Word) (s : State) : Res := .next (s.dvfsReq value)

/-! ### Thermal limits and the power cap (R449, R450) -/

/-- THERMAL_THROTTLE (R449): a sensor of a die reads 105 °C or more (units of 0.01 °C): the step to the throttle point replaces
the step in progress (log entry 75, DEDUCED). -/
def execThermalThrottle (die temp : Nat) (s : State) : Res :=
  .next (if temp < 10500 || s.power.throttled then s
    else ({ s with power := { s.power with throttled := true, waiting := none } }.logEvent 2 (bytesLE 1 die ++ bytesLE 2 temp)).startStep
      1200 650)

/-- THROTTLE_END (R449): every sensor reads below 100 °C: the step to the lower of the last accepted request and the point that
the power cap allows. -/
def execThrottleEnd (s : State) : Res :=
  let p := s.power
  .next (if !p.throttled then s
    else
      let f := min p.reqFreq p.capFreq
      let v := if p.capFreq < p.reqFreq then vmin p.capFreq else p.reqVolt
      let s := { s with power := { p with throttled := false } }
      if p.busy then { s with power := { s.power with waiting := some (f, v) } } else s.startStep f v)

/-- THERMAL_SHUTDOWN (R449): a sensor reads 115 °C: the clock stops, every die is held in reset, and kind 7 is reported. -/
def execThermalShutdown (die temp : Nat) (s : State) : Res :=
  .next (if temp < 11500 then s
    else { s with power := { s.power with shutdown := true, clockStopped := true } }.logEvent 7 (bytesLE 1 die ++ bytesLE 2 temp))

/-- POWER_CAP_STEP (R450): the average over 1 ms, in watts, lowers the point by one step above the cap and raises it by one
below, the last step to the requested point; suspended during a throttle (log entry 75, DEDUCED). -/
def execPowerCapStep (average : Nat) (s : State) : Res :=
  let p := s.power
  .next (if p.throttled || p.busy then s
    else if p.cap < average then
      (if p.freq ≤ 800 then s
      else { s with power := { p with capFreq := p.freq - 100 } }.startStep (p.freq - 100) (vmin (p.freq - 100)))
    else if average < p.cap && decide (p.freq < p.reqFreq) then
      let f := p.freq + 100
      if f = p.reqFreq then { s with power := { p with capFreq := 2400 } }.startStep f p.reqVolt
      else { s with power := { p with capFreq := f } }.startStep f (vmin f)
    else s)

/-! ### Scrubbing and rows (R455, R456) -/

/-- Lines of an HBM stack: a scrub pass over them is one 24 h period (R455). -/
def stackLines : Nat := 402653184

/-- A line has needed correction: at 8 in a period its row takes a spare of its bank, or stays in place (R456). -/
def State.rowCorrected (s : State) (line : Nat) : State :=
  let ch := channelOf (line * 128)
  let at_ := (Config.lineRow line).toNat
  let row := ch * 2 ^ 32 + at_
  let bank := ch * 256 + at_ / 2 ^ 24
  let n := mapGet 0 s.rowFixes row + 1
  let data := bytesLE 1 (ch / 16) ++ bytesLE 1 (ch % 16) ++ bytesLE 1 (at_ / 2 ^ 24) ++ bytesLE 3 (at_ % 2 ^ 24)
  if n < 8 then { s with rowFixes := mapSet 0 s.rowFixes row n }
  else
    let s := { s with rowFixes := mapSet 0 s.rowFixes row 0 }
    let used := mapGet 0 s.spares bank
    if used < 32 then
      { s with spares := mapSet 0 s.spares bank (used + 1), remap := mapPut row used s.remap }.logEvent 3 data
    else s.logEvent 4 data

/-- A line of a stack has been scrubbed; after the last the next period starts. -/
def State.countScrub (s : State) (stack : Nat) : State :=
  let n := mapGet 0 s.scrubbed stack + 1
  if n < stackLines then { s with scrubbed := mapSet 0 s.scrubbed stack n }
  else { s with scrubbed := mapSet 0 s.scrubbed stack 0
                rowFixes := s.rowFixes.filter (fun (e : Nat × Nat) => decide (e.1 / 2 ^ 32 / 16 ≠ stack)) }

/-- PATROL_SCRUB (R455): a line of local memory is read; its ECC finds it good (0), corrects it (1) or cannot (2), and then the
line is poisoned. -/
def execPatrolScrub (line verdict : Nat) (s : State) : Res :=
  if localLimit ≤ line * 128 then .next s
  else
    let s := s.countScrub (channelOf (line * 128) / 16)
    .next (if verdict = 1 then s.rowCorrected line
      else if verdict = 2 then
        { s with badLines := if s.badLines.contains line then s.badLines else line :: s.badLines }.logEvent 5 (bytesLE 5 line)
      else s)

/-- ROW_ACTIVATION_REFRESH (R456): the neighbours of a row are refreshed; no value changes (log entry 76, DEDUCED). -/
def execRowActivationRefresh (_row : Nat) (s : State) : Res := .next s

/-! ### Mesh errors (07 R204) -/

/-- The partition that two of a header's three tenant copies name (log entry 77, DEDUCED). -/
def agreed (copies : List Nat) : Option Nat :=
  copies.find? (fun c => decide (2 ≤ (copies.filter (fun d => decide (d = c))).length))

/-- An uncorrectable payload (07 R204): data on its way to a line of memory is delivered poisoned there, and the reeve is
notified, which kills the context that the header names (log entry 77, DEDUCED). -/
def State.payloadError (s : State) (pasid : Nat) (line : Option Nat) : State :=
  let s := match line with
    | some l => if localLimit ≤ l * 128 || s.badLines.contains l then s else { s with badLines := l :: s.badLines }
    | none => s
  { s with alarms := s.alarms ++ [(1, pasid, 0xFF)] }

/-- MESH_FLIT_ERROR (07 R204): an uncorrectable payload, of data on its way to a line or to an agent of the context; a header
brings down the partition on which two copies agree, or else every partition with a cluster on the die
(log entry 77, DEDUCED). -/
def execMeshFlitError (header : Bool) (die pasid : Nat) (found : List Nat) (s : State) : Res :=
  .next (if !header then s.payloadError pasid found.head?
    else match agreed found with
      | some p => s.askRemoval 2 p (2 ^ 64)
      | none => ((s.parts.filter (fun e => e.2.live && e.2.clusters.any (fun c => decide (c / 15 = die)))).map (·.1)).foldl
          (fun s p => s.askRemoval 2 p (2 ^ 64)) s)

/-! ### Telemetry (R458) -/

/-- The samples of the clusters: fractions of 65,535, rounded down, and 0 for a harvested cluster and where no cycle has passed
(R458) (log entry 121, DEDUCED). -/
def State.samples (s : State) (f : Nat → Slots → Nat × Nat) : List Byte :=
  ((List.range 120).map (fun c =>
    let x := f c (mapGet Slots.none s.slots c)
    bytesLE 2 (if c % 15 = (s.dieAt (c / 15)).disabled || x.2 = 0 then 0 else min 65535 (65535 * x.1 / x.2)))).flatten

/-- Cores of a cluster that are not reeve cores. -/
def State.countedCores (s : State) (c : Nat) : Nat :=
  ((List.range 4).filter (fun i => decide (4 * c + i ≠ s.reeveCore (c / 15)))).length

/-- TELEMETRY_SAMPLE (R458): the stall ratio, the share of issue slots in which a lane group with a resident gang issued nothing,
and the share of cycles in which a pass ran; the block is rewritten, its time last; power in mW, temperatures in 0.01 °C. -/
def execTelemetrySample (power inlet hot : Nat) (s : State) : Res :=
  let least := (List.range 12).foldl (fun m i => min m (mapGet 0 s.scrubbed i)) (mapGet 0 s.scrubbed 0)
  let s1 := s.putWindowList 0x60008 (bytesLE 4 power ++ bytesLE 2 inlet ++ bytesLE 2 hot ++ bytesLE 4 s.power.stat.toNat ++
    bytesLE 4 least ++ List.replicate 8 0 ++
    s.samples (fun c x => (x.resident - x.issued, s.windowCycles * 4 * s.countedCores c)) ++
    s.samples (fun _ x => (x.busy, s.windowCycles)))
  .next ({ s1 with windowCycles := 0, slots := [] }.putWindow 0x60000 8 s.clock.toNat)

end Sys2Proof.Machine
end

