-- ==== Sys2Proof/Machine/Sprinter.lean ====
section
/-! DEFINITION. The fetch slot of a gang (03 R68), and the sprinter (04 R100 to R115): who holds a seat, the reorder window
with its rename rows and its side file, the instructions that dispatch ahead of it, their re-read and retirement, squashes,
demotion, and the checkpoint. The window changes nothing that a program sees but which lines the caches hold; what it leaves
out is log entry 79 (DEDUCED). -/

namespace Sys2Proof.Machine

/-! ### Blocked PC-groups and the fetch slot (03 R68) -/

/-- The condition a blocked PC-group of gang `k` waits for holds: it may issue again. -/
def State.freed (s : State) (k : Nat) (b : Block) : Bool :=
  let g := s.gangAt k
  match b with
  | .counters l st c t =>
    let n := fun p => match p with
      | 0 => l
      | 1 => st
      | 2 => c
      | _ => t
    (List.range 4).any (fun p => decide (n p ≠ 63) && (g.coveredReport p (n p)).isSome) ||
      (List.range 4).all (fun p => decide (n p = 63) || decide (g.counter p ≤ n p))
  | .path p n => (g.coveredReport p n).isSome || decide (g.counter p ≤ n)
  | .ops ids => !g.waitsOn ids
  | .pushed ids => !s.gangs.any (fun e => e.2.waitsOn ids)
  | .answers ids => !s.msgs.any (fun m => decide (m.src = s.devid) &&
      (ids.contains m.id || (decide (m.gang = k) && ids.contains m.opid)))
  | .drained ps => !g.busyOn ps
  | .watch => (g.watch.wake 1).isSome
  | .regs ids => ids.isEmpty || ids.any (fun i => !g.pend.any (fun p => decide (p.id = i)))
  | .barrierArrive _ => s.barFreed g b
  | .barrierGen _ _ => s.barFreed g b
  | .barrierRoom _ _ => s.barFreed g b
  | .groupArrive _ => s.groupFreed g b
  | .groupWait _ => s.groupFreed g b
  | .groupMember _ => s.groupFreed g b
  | .groupGen _ _ => s.groupFreed g b
  | .topk gid _ => s.topkFreed k gid
  | .tile h => !s.tileBusy g.wid h
  | .gleanerFull => decide ((s.coreAt g.core).gleaner.length < 16)
  | .tableFull => decide ((s.clusterAt (clusterOfCore g.core)).table.length < 32)
  | .eventBit n => (s.clusterAt (clusterOfCore g.core)).events.getLsbD n
  | .eventClear n => s.firstToClear k n
  | .handle h => decide (s.handleStatus (s.wgAt g.wid).part h ≠ 0)
  | .regrow _ _ _ => false
  | .collective => false
  | .cancel _ _ => false
  | .formation => false
  | .invalidation _ => false
  | .firmware _ => false

/-- Slice k leads a PC-group that may issue. -/
def State.groupReady (s : State) (key k : Nat) : Bool :=
  let g := s.gangAt key
  !g.exitedAt k && decide (g.grp k = k) && !g.flow.waiting.getLsbD k &&
  (match mapFind k g.flow.blocks with
    | some b => s.freed key b
    | none => true)

/-- The PC-group that the fetch slot serves next, and its count (03 R68): the served one up to 16 instructions, then the next
ready one in cyclic order. A turn that has ended while no other group was ready stays ended: the slot leaves as soon as
another one is ready (log entry 106, DESIGN CHOICE). -/
def State.nextGroup (s : State) (key : Nat) : Option (Nat × Nat) :=
  let f := (s.gangAt key).flow
  if s.groupReady key f.served && decide (f.count < 16) then some (f.served, f.count)
  else
    match ((List.range 7).map (fun i => (f.served + 1 + i) % 8)).find? (s.groupReady key) with
    | some k => some (k, 0)
    | none => if s.groupReady key f.served then some (f.served, f.count) else none

/-! ### Seats -/

/-- Change a seat. -/
def State.updSeat (s : State) (core lg : Nat) (f : Seat → Seat) : State :=
  s.updCore core (fun c => { c with seats := mapPut lg (f (mapGet Seat.empty c.seats lg)) c.seats })

/-- The seat that a gang holds. -/
def State.seatOf (s : State) (key : Nat) : Option Seat :=
  let g := s.gangAt key
  let x := s.seatAt g.core g.lg
  if x.holder = some key then some x else none

/-! ### What renaming gives an instruction (04 R100, R111) -/

/-- What of a gang's state an instruction writes or reads beside vector registers: the destinations that take an entry of the
side file (04 R100); and, with none, the return stacks, memory, and what fixed sources read of the expand registers and the
reuse clock. -/
inductive Side where
  | pred (n : Nat)
  | scalar (n : Nat)
  | exec
  | mode
  | fpf
  | stack
  | memory
  | fixed
deriving DecidableEq, Repr

/-- It takes an entry of the side file. -/
def Side.entry : Side → Bool
  | .stack => false
  | .memory => false
  | .fixed => false
  | _ => true

/-- A predicate field. -/
def sideP (c : Code) : List Side := if c.toNat < 24 then [.pred c.toNat] else []

/-- `n` scalar registers from a field on. -/
def sideS (n : Nat) (c : Code) : List Side := if c.toNat < 32 then (List.range n).map (fun i => .scalar (c.toNat + i)) else []

/-- The guard predicate of a MODE. -/
def sideGuard (m : Word) : List Side := if modeGuard m < 24 then [.pred (modeGuard m)] else []

/-- The registers of a vector destination of `n` rows. -/
def vecRows (c : Code) (n : Nat) : List Nat := if c.toNat < 0xF0 then (List.range n).map (c.toNat + ·) else []

/-- The vector registers that an instruction writes under an etype: each takes a row of the pool. hfind takes the rows of a
pair, since its table is read as it performs. -/
def destRows (t : Nat) : Instr → List Nat
  | .iadd d _ _ | .isub d _ _ | .imul d _ _ | .imulh d _ _ | .imad d _ _ | .idiv d _ _ | .irem d _ _ | .imin d _ _
  | .imax d _ _ | .isel d _ _ | .and d _ _ | .or d _ _ | .xor d _ _ | .shl d _ _ | .shr d _ _ | .sar d _ _ | .rol d _ _
  | .ror d _ _ | .bfe d _ _ | .bfi d _ _ | .fsel d _ _ | .fcopysign d _ _ | .shfl d _ _ | .gred d _ _ | .iaddc d _ _ =>
    vecRows d (vwidth t / 32)
  | .iabs d _ | .ineg d _ | .bcnt d _ | .clz d _ | .vmov d _ | .fabs d _ | .fneg d _ | .vbcst d _ | .segr d _ | .iaddi d _
  | .frcp d _ | .frsq d _ | .fsqrt d _ | .fexp2 d _ | .flog2 d _ | .fgetexp d _ | .frint d _ => vecRows d (vwidth t / 32)
  | .shfli d _ _ => vecRows d (vwidth t / 32)
  | .fadd d _ _ | .fsub d _ _ | .fmul d _ _ | .ffma d _ _ | .ffms d _ _ | .fnma d _ _ | .fmin d _ _ | .fmax d _ _
  | .fdiv d _ _ | .fscale d _ _ | .cvt d _ _ => vecRows d (vwidth t / 32)
  | .imadw d _ _ => vecRows d (if t = 10 || t = 14 then 2 else 1)
  | .imovi d _ | .imovhi d _ => vecRows d 1
  | .mpfx d _ | .fclass d _ | .cvtpk d _ => vecRows d 1
  | .fhadd d _ _ | .fhmul d _ _ | .fhfma d _ _ | .fhmin d _ _ | .fhmax d _ _ | .fdot2 d _ _ | .cvtq d _ _ => vecRows d 1
  | .unpk d _ | .cvtdq d _ _ => vecRows d (elemCount t)
  | .lea d _ _ | .hfind d _ _ => vecRows d 2
  | .pglob d _ => vecRows d 2
  | .ldb d _ _ _ | .ldbs d _ _ _ | .ldh d _ _ _ | .ldhs d _ _ _ | .ldw d _ _ _ | .mwatch d _ _ _ => vecRows d 1
  | .ldd d _ _ _ => vecRows d 2
  | .ldq d _ _ _ => vecRows d 4
  | .ldAcq d _ _ _ w _ => vecRows d (if w = 1 then 2 else 1)
  | .atadd d _ _ r w _ | .atfadd d _ _ r w _ | .atmin d _ _ r w _ | .atmax d _ _ r w _ | .atand d _ _ r w _
  | .ator d _ _ r w _ | .atxor d _ _ r w _ => if r = 1 then vecRows d (if w = 1 then 2 else 1) else []
  | .atxchg d _ _ _ r w _ | .atcas d _ _ _ r w _ => if r = 1 then vecRows d (if w = 1 then 2 else 1) else []
  | .vsort d _ => vecRows d 4
  | .vtopk d _ _ | .tkmrg d _ _ => vecRows d 4
  | .rget _ b => vecRows b 32
  | _ => []

/-- What else it writes under a MODE. -/
def sides (m : Word) : Instr → List Side
  | .iaddc _ _ _ => sideGuard m
  | .hins _ _ _ | .hacc _ _ _ | .hfind _ _ _ => sideGuard m
  | .fadd _ _ _ | .fsub _ _ _ | .fmul _ _ _ | .ffma _ _ _ | .ffms _ _ _ | .fnma _ _ _ | .fmin _ _ _ | .fmax _ _ _
  | .fdiv _ _ _ | .fscale _ _ _ | .cvt _ _ _ | .fhadd _ _ _ | .fhmul _ _ _ | .fhfma _ _ _ | .fhmin _ _ _ | .fhmax _ _ _
  | .fdot2 _ _ _ | .cvtq _ _ _ | .cvtdq _ _ _ | .gred _ _ _ => [.fpf]
  | .frcp _ _ | .frsq _ _ | .fsqrt _ _ | .fexp2 _ _ | .flog2 _ _ | .fgetexp _ _ | .frint _ _ | .cvtpk _ _ | .unpk _ _
  | .segr _ _ => [.fpf]
  | .flclr _ => [.fpf]
  | .pand d _ _ | .por d _ _ | .pxor d _ _ | .icmpeq d _ _ | .icmpne d _ _ | .icmplt d _ _ | .icmple d _ _ => sideP d
  | .pnot d _ | .psets d _ => sideP d
  | .vote d _ _ => sideP d
  | .fcmpeq d _ _ | .fcmplt d _ _ | .fcmple d _ _ | .fcmpun d _ _ => .fpf :: sideP d
  | .exsave d => sideS 1 d
  | .mget d => sideS 1 d
  | .flget d => sideS 1 d
  | .ballot d _ | .popc d _ => sideS 1 d
  | .exload _ => [.exec]
  | .exand d _ _ => .exec :: sideS 1 d
  | .mset _ _ => [.mode]
  | .msetg _ => [.mode]
  | .msetr _ => [.mode]
  | .sadd d _ _ | .ssub d _ _ | .smul d _ _ | .sand d _ _ | .sor d _ _ | .sxor d _ _ | .sshl d _ _ | .sshr d _ _
  | .sslt d _ _ | .sread d _ _ => sideS 1 d
  | .smovi d _ | .smovhi d _ => sideS 1 d
  | .mwait d _ | .rwait d _ | .rpoll d _ | .vsort _ d | .ngwaitRead _ d | .cpy _ d | .gath _ d | .scat _ d | .mcast _ d
  | .sclp _ d | .gqry _ d | .gcncl _ d => sideS 1 d
  | .talloc d _ _ | .ctopk d _ _ | .vtopk _ d _ | .tkmrg _ _ d => sideS 1 d
  | .cpyc _ _ _ _ d => sideS 1 d
  | .expb d _ _ | .expbG d _ _ => .fixed :: sideS 1 d
  | .expn d a => .fixed :: (sideP d ++ sideP a)
  | .xrst _ _ _ => [.fixed]
  | .tick => [.fixed]
  | .btest _ d | .btestWord1 _ d | .rinv _ d | .rinvh _ d => sideS 2 d
  | .sysrd n d => sideS (if sysRegWide n then 2 else 1) d
  | .rbind _ d => sideS 4 d
  | .call _ => [.stack]
  | .callx _ => [.stack]
  | .ret => [.stack]
  | .stb _ _ _ _ | .sth _ _ _ _ | .stw _ _ _ _ | .std _ _ _ _ | .stq _ _ _ _ => [.memory]
  | .stRel _ _ _ _ _ _ => [.memory]
  | _ => []

/-- The control forms (03 R70): they read neither EXEC nor the guard, but as their rules say. -/
def controlReads : Instr → Option (List Side)
  | .br p _ k _ => some (if k = 0 then [.exec, .pred p.toNat] else if k = 3 then [] else [.exec])
  | .brx a => some (sideS 2 a)
  | .callx a => some (.stack :: sideS 2 a)
  | .call _ => some [.stack]
  | .ret => some [.stack]
  | .nop => some []
  | .exsave _ => some [.exec]
  | .exand _ a _ => some (.exec :: sideP a)
  | .exload a => some (sideS 1 a)
  | .mset _ _ => some [.mode]
  | .msetg _ => some []
  | .msetr a => some (sideS 1 a)
  | .mget _ => some [.mode]
  | _ => none

/-- The bytes of a word that hold fields in which a fixed source may stand. -/
def fixedFields : Instr → List Nat
  | .imovi _ _ | .imovhi _ _ | .iaddi _ _ | .shfli _ _ _ => []
  | .ldb _ _ _ _ | .ldbs _ _ _ _ | .ldh _ _ _ _ | .ldhs _ _ _ _ | .ldw _ _ _ _ | .ldd _ _ _ _ | .ldq _ _ _ _
  | .pref _ _ _ _ => [1]
  | .xrst _ _ _ | .cmaint _ _ _ _ => [1]
  | .stb _ _ _ _ | .sth _ _ _ _ | .stw _ _ _ _ | .std _ _ _ _ | .stq _ _ _ _ => [1, 2]
  | .stRel _ _ _ _ _ _ => [1, 2]
  | .smovi _ _ | .smovhi _ _ => []
  | _ => [0, 1]

/-- What an instruction reads beside vector registers, under a MODE, of the instructions that can dispatch ahead of the window:
what it writes is read too, since the lanes and slices that do not act keep theirs. -/
def sideReads (m : Word) (word : Word) (i : Instr) : List Side :=
  sides m i ++ match controlReads i with
  | some l => l
  | none =>
    [.exec, .mode] ++ sideGuard m ++
    (if (fixedFields i).any (fun k => (List.range 5).any (fun j => decide (field word.toNat (8 * k) 8 = 0xFA + j)))
      then [.fixed] else []) ++
    (match i with
      | .pand _ a b | .por _ a b | .pxor _ a b => sideP a ++ sideP b
      | .pnot _ a | .ballot _ a | .popc _ a | .mpfx _ a => sideP a
      | .vote _ a _ => sideP a
      | .psets _ a => sideS 1 a
      | .vbcst _ a => sideS 2 a
      | .sadd _ a b | .ssub _ a b | .smul _ a b | .sand _ a b | .sor _ a b | .sxor _ a b | .sshl _ a b | .sshr _ a b
      | .sslt _ a b | .sread _ a b => sideS 1 a ++ sideS 1 b
      | .ldb _ _ _ _ | .ldbs _ _ _ _ | .ldh _ _ _ _ | .ldhs _ _ _ _ | .ldw _ _ _ _ | .ldd _ _ _ _ | .ldq _ _ _ _
      | .xrst _ _ _ => [.memory]
      | _ => [])

/-- How a renamed instruction goes through the window (03 R96; 04 R111, R112): it dispatches once its operands are ready, and
what it does outside the gang it does as it retires; it is a load, which performs as it dispatches; it dispatches as the
oldest entry; or the fetch of its PC-group goes no further. -/
inductive SpecKind where
  | run
  | load
  | oldest
  | stop
deriving DecidableEq, Repr

/-- The kind of an instruction. -/
def specKind : Instr → SpecKind
  | .ldb _ _ _ _ | .ldbs _ _ _ _ | .ldh _ _ _ _ | .ldhs _ _ _ _ | .ldw _ _ _ _ | .ldd _ _ _ _ | .ldq _ _ _ _
  | .pref _ _ _ _ => .load
  | .xrst _ _ _ => .load
  | .br _ _ _ _ | .brx _ | .call _ | .callx _ | .ret | .nop | .stb _ _ _ _ | .sth _ _ _ _ | .stw _ _ _ _ | .std _ _ _ _
  | .stq _ _ _ _ | .stRel _ _ _ _ _ _ | .cmaint _ _ _ _ => .run
  | .pand _ _ _ | .por _ _ _ | .pxor _ _ _ | .pnot _ _ | .psets _ _ | .exsave _ | .exand _ _ _ | .exload _ | .ballot _ _
  | .vote _ _ _ | .popc _ _ | .mpfx _ _ | .shfl _ _ _ | .shfli _ _ _ | .gred _ _ _ | .mset _ _ | .msetg _ | .msetr _
  | .mget _ => .run
  | .sadd _ _ _ | .ssub _ _ _ | .smul _ _ _ | .sand _ _ _ | .sor _ _ _ | .sxor _ _ _ | .sshl _ _ _ | .sshr _ _ _
  | .sslt _ _ _ | .smovi _ _ | .smovhi _ _ | .sread _ _ _ => .run
  | .iadd _ _ _ | .isub _ _ _ | .imul _ _ _ | .imulh _ _ _ | .imad _ _ _ | .idiv _ _ _ | .irem _ _ _ | .imin _ _ _
  | .imax _ _ _ | .iabs _ _ | .ineg _ _ | .icmpeq _ _ _ | .icmpne _ _ _ | .icmplt _ _ _ | .icmple _ _ _ | .isel _ _ _
  | .imovi _ _ | .imovhi _ _ | .vbcst _ _ | .iaddi _ _ | .iaddc _ _ _ | .imadw _ _ _ | .and _ _ _ | .or _ _ _ | .xor _ _ _
  | .shl _ _ _ | .shr _ _ _ | .sar _ _ _ | .rol _ _ _ | .ror _ _ _ | .bcnt _ _ | .clz _ _ | .bfe _ _ _ | .bfi _ _ _
  | .lea _ _ _ => .run
  | .cvt _ _ _ | .cvtpk _ _ | .unpk _ _ | .frint _ _ | .cvtq _ _ _ | .cvtdq _ _ _ | .fadd _ _ _ | .fsub _ _ _ | .fmul _ _ _
  | .ffma _ _ _ | .ffms _ _ _ | .fnma _ _ _ | .fmin _ _ _ | .fmax _ _ _ | .fabs _ _ | .fneg _ _ | .vmov _ _ | .fcmpeq _ _ _
  | .fcmplt _ _ _ | .fcmple _ _ _ | .fcmpun _ _ _ | .fclass _ _ | .frcp _ _ | .frsq _ _ | .fsqrt _ _ | .fdiv _ _ _
  | .fexp2 _ _ | .flog2 _ _ | .fhadd _ _ _ | .fhmul _ _ _ | .fhfma _ _ _ | .fhmin _ _ _ | .fhmax _ _ _ | .fdot2 _ _ _
  | .fsel _ _ _ | .fscale _ _ _ | .fgetexp _ _ | .fcopysign _ _ _ | .pglob _ _ => .run
  | .regang _ | .exit | .regrow _ _ | .regshr _ | .trap _ | .tvec _ _ _ | .tret | .tretSkip | .tdone _ | .syswr _ _
  | .tlbip _ _ | .tlbia _ | .tlball | .fwcall _ _ => .stop
  | _ => .oldest

/-- A younger load is early while it has not retired: a load, ld.acq, fence or fence.path (04 R113); and the other
instructions that perform as the oldest entry, whose effects a younger load of the gang finds (R29, 08 R213)
(log entry 79, DEDUCED). -/
def ordersLoads (i : Instr) : Bool :=
  match i, specKind i with
  | .pref _ _ _ _, _ => false
  | _, .run => false
  | _, _ => true

/-- The registers that an entry writes. -/
def Renamed.regs (e : Renamed) : List Nat := e.rows.map (fun r => r.1)

/-- The instruction of an entry. -/
def Renamed.instr (e : Renamed) : Option Instr :=
  match decode e.word with
  | .ok i => some i
  | .error _ => none

/-- A condition on the instruction of an entry. -/
def Renamed.is (e : Renamed) (f : Instr → Bool) : Bool := e.instr.any f

/-! ### Renaming, squashes and retirement (04 R111, R113, R114) -/

/-- Entries of the side file in use (04 R100). -/
def Seat.sideUsed (x : Seat) : Nat := (x.window.map (·.side)).sum

/-- The longest list that a function gives on a list. -/
def longest {α β : Type} (f : α → List β) : List α → List β
  | [] => []
  | x :: xs => if (longest f xs).length < (f x).length then f x else longest f xs

/-- The entry that renaming gives a word for a PC-group whose slices hold the given MODE values, when the window, the pool and
the side file have room. -/
def Seat.renames (x : Seat) (modes : List Word) (group : Nat) (pc : PcVal) (word : Word) : Option Renamed :=
  match decode word with
  | .error _ => none
  | .ok i =>
    let d := longest (fun m => destRows (modeEtype m) i) modes
    let n := ((longest (fun m => sides m i) modes).filter Side.entry).length
    if x.demoting || 64 ≤ x.window.length || x.pool.length < d.length || 48 < x.sideUsed + n then none
    else some { group := group, pc := pc, word := word, rows := d.zip x.pool, side := n, loaded := none, early := false
                sent := false }

/-- The MODE values of a PC-group. -/
def Gang.modesOf (g : Gang) (k : Nat) : List Word :=
  ((List.range 8).filter (fun j => !g.exitedAt j && decide (g.grp j = k))).map g.mode

/-- A seat renames the word at `pc` for a PC-group of its holder, whose MODE values are as renaming finds them. -/
def State.renameWord (s : State) (core lg group : Nat) (pc : PcVal) (modes : List Word) (word : Word) : State :=
  match (s.seatAt core lg).renames modes group pc word with
  | some e => s.updSeat core lg (fun x => { x with window := x.window ++ [e], pool := x.pool.drop e.rows.length })
  | none => s

/-- A squash: the entries from `n` on go, and their rows return to the pool (04 R113). -/
def Seat.squash (x : Seat) (n : Nat) : Seat :=
  { x with
    pool := x.pool ++ ((x.window.drop n).map (fun e => e.rows.map (·.2))).flatten
    window := x.window.take n }

/-- The holder's whole window is squashed. -/
def State.squashAll (s : State) (key : Nat) : State :=
  let g := s.gangAt key
  match s.seatOf key with
  | some _ => s.updSeat g.core g.lg (fun x => x.squash 0)
  | none => s

/-- The oldest entry retires: its rows enter the committed map, and those that held its destinations return to the pool. -/
def State.retireHead (s : State) (key : Nat) : State :=
  let g := s.gangAt key
  match s.seatOf key with
  | none => s
  | some x => match x.window with
    | [] => s
    | e :: es =>
      (s.updGangAt key (fun g => { g with rows := e.rows.foldl (fun m r => m.set r.1 r.2) g.rows })).updSeat g.core g.lg
        (fun x => { x with
          window := es
          pool := x.pool ++ e.rows.map (fun r => g.rows.getD r.1 r.2)
          restart := if x.restart = some e.pc then none else x.restart })

/-- Slice k leads a PC-group of the gang at `pc` that is not waiting at a regang. -/
def Gang.leads (g : Gang) (k : Nat) (pc : PcVal) : Bool :=
  decide (k < 8) && !g.exitedAt k && decide (g.grp k = k) && !g.flow.waiting.getLsbD k && decide (g.pc k = pc)

/-- The fetch slot serves slice k's PC-group, which issues one instruction more. -/
def Gang.serve (g : Gang) (k : Nat) : Gang :=
  { g with flow := { g.flow with
    served := k
    count := if k = g.flow.served then g.flow.count + 1 else 1
    blocks := mapDrop k g.flow.blocks } }

/-- The gang in issue at an entry of its window. -/
def State.atEntry (s : State) (key : Nat) (e : Renamed) : State :=
  { s with cur := key, ir := e.word, pace := .now }.updGangAt key (fun g => g.serve e.group)

/-- The oldest entry of the window is the instruction of a PC-group that is the served one or ready to be: the sprinter
serves that group (04 R111). -/
def State.headGroup (s : State) (key : Nat) : Option Nat :=
  (s.seatOf key).bind (fun x => x.window.head?.bind (fun e => if (s.gangAt key).leads e.group e.pc then some e.group else none))

/-- The window has the word that a seat's holder is about to issue as its oldest entry: a wrong prediction is squashed, and
an empty window renames it now. -/
def State.enterWindow (s : State) (key : Nat) (word : Word) : State :=
  let g := s.gangAt key
  let fresh := fun (s : State) => s.renameWord g.core g.lg g.low g.pcNow (g.modesOf g.low) word
  match s.seatOf key with
  | none => s
  | some x => match x.window with
    | [] => fresh s
    | e :: _ => if e.group = g.low ∧ e.pc = g.pcNow ∧ e.word = word then s else fresh (s.squashAll key)

/-! ### The gang as a younger entry finds it (04 R111, R112) -/

/-- The PC-group that issued has stalled. -/
def State.stalledAt (s : State) (key k : Nat) : Bool := (mapFind k (s.gangAt key).flow.blocks).isSome

/-- The instruction in issue went past its word: no stall, no park, no trap, no report of poison. -/
def State.ranOn (s t : State) (key k : Nat) : Bool :=
  let g := s.gangAt key
  let h := t.gangAt key
  h.live && !t.stalledAt key k && !h.trap.parked && decide (h.trap.level = g.trap.level) &&
  decide (h.reports.length = g.reports.length)

/-- And nothing of it is left to a message or a later turn. -/
def State.ranFrom (s t : State) (key k : Nat) : Bool :=
  s.ranOn t key k && decide (t.msgs.length = s.msgs.length) &&
  decide ((t.gangAt key).late.length = (s.gangAt key).late.length)

/-- The values that a load found, by register and lane. -/
def Gang.found (g : Gang) (regs : List Nat) : List (Nat × DWord) :=
  (regs.map (fun r => (List.range 32).map (fun l => (r * 32 + l, (g.v r l).setWidth 64)))).flatten

/-- The registers of a load that has performed. -/
def Gang.giveFound (g : Gang) (vals : List (Nat × DWord)) : Gang :=
  vals.foldl (fun g x => g.setV (x.1 / 32) (x.1 % 32) (x.2.setWidth 32)) g

/-- The registers wait for a value of an older entry. -/
def Gang.awaits (g : Gang) (regs : List Nat) : Gang :=
  { g with pend := g.pend ++ regs.map (fun r => { id := 0, reg := r, lanes := 0xFFFFFFFF }) }

/-- The registers have theirs. -/
def Gang.awaited (g : Gang) (regs : List Nat) : Gang :=
  { g with pend := g.pend.filter (fun p => !(decide (p.id = 0) && regs.contains p.reg)) }

/-- The PC-group of slice k goes on at `pc`. -/
def Gang.goTo (g : Gang) (k : Nat) (pc : PcVal) : Gang :=
  { g with flow := { g.flow with pc := setPcMap (fun j => !g.exitedAt j && decide (g.grp j = k)) (fun _ => pc) 8 g.flow.pc } }

/-- A branch, call or return is predicted: the fetch may go on behind it at `next` (03 R96). -/
def predicts (i : Instr) (pc next : PcVal) : Bool :=
  match i with
  | .br _ _ _ o => decide (next = pc + 4) || decide (next = branchTarget pc o.toInt)
  | .call o => decide (next = branchTarget pc o.toInt)
  | .brx _ => true
  | .callx _ => true
  | .ret => true
  | _ => false

/-- Past an entry whose results are not known: its registers and what else it writes are awaited; the fetch goes on where
the window does, or at the next word. A group that comes to regang or exit goes no further, and behind what else ends the
fetch nothing is renamed. -/
def Gang.skip (g : Gang) (e : Renamed) (i : Instr) (next : Option PcVal) : Option Gang :=
  let g := g.awaits e.regs
  match i, next with
  | .regang _, _ => some { g with flow := { g.flow with waiting := g.flow.waiting ||| BitVec.ofNat 8 (2 ^ e.group) } }
  | .exit, _ => some { g with flow := { g.flow with waiting := g.flow.waiting ||| BitVec.ofNat 8 (2 ^ e.group) } }
  | .yield, _ => some { g.goTo e.group (e.pc + 4) with flow := { (g.goTo e.group (e.pc + 4)).flow with count := 16 } }
  | i, some x =>
    if specKind i = .stop then none
    else if x = e.pc + 4 || predicts i e.pc x then some (g.goTo e.group x)
    else none
  | i, none => if specKind i = .stop then none else some (g.goTo e.group (e.pc + 4))

/-- The gang past an entry of its window, as a younger entry finds it, and what of its state is not known: with the entry's
results where it has dispatched and goes past its word; otherwise with its results awaited. None where the window goes
another way, or the fetch goes no further. `run` is the meaning of a word, `next` the PC of the group's next entry. -/
def State.pastEntry (run : State → Word → Res) (key : Nat) (p : State × List Side) (e : Renamed) (next : Option PcVal) :
    Option (State × List Side) :=
  if !(p.1.gangAt key).leads e.group e.pc then none
  else
    let s := p.1.atEntry key e
    match e.instr with
    | none => none
    | some i =>
      let w := ((s.gangAt key).modesOf e.group).map (fun m => sides m i)
      let skip := ((s.gangAt key).skip e i next).map (fun g => (s.setGangAt key g, p.2 ++ w.flatten))
      match e.loaded, specKind i with
      | some vals, .load =>
        if w.flatten.isEmpty then some (s.updGangAt key (fun g => ((g.awaited e.regs).giveFound vals).advance), p.2) else skip
      | some _, .run => match run s e.word with
        | .next t =>
          if s.ranFrom t key e.group then
            some (t.updGangAt key (fun g => g.awaited e.regs), p.2.filter (fun x => !w.flatten.contains x))
          else skip
        | _ => skip
      | _, _ => skip

/-- The gang past some entries of its window; `rest` follows them. -/
def State.pastEntries (run : State → Word → Res) (key : Nat) (rest : List (Nat × PcVal)) :
    List Renamed → State × List Side → Option (State × List Side)
  | [], p => some p
  | e :: es, p =>
    (State.pastEntry run key p e
      (((es.map (fun x => (x.group, x.pc)) ++ rest).find? (fun x => decide (x.1 = e.group))).map (·.2))).bind
        (State.pastEntries run key rest es)

/-- The PC-group's next instruction can take its operands: what it reads beside vector registers is known (the scoreboard of
the registers is the meaning's own). -/
def State.sidesKnown (p : State × List Side) (key : Nat) (e : Renamed) (i : Instr) : Bool :=
  ((p.1.gangAt key).modesOf e.group).all (fun m => (sideReads m e.word i).all (fun x => !p.2.contains x))

/-- A seat renames the word at `pc` for a PC-group of its holder (04 R111): the group that the fetch slot serves behind the
window, at the place where the window goes on, as far as the MODE of its slices is known. -/
def State.rename (run : State → Word → Res) (s : State) (core lg group : Nat) (pc : PcVal) : State :=
  match (s.seatAt core lg).holder with
  | none => s
  | some h =>
    match State.pastEntries run h [(group, pc)] (s.seatAt core lg).window (s, []) with
    | none => s
    | some (t, u) =>
      let w := s.wgAt (s.gangAt h).wid
      if ((t.nextGroup h).map (·.1)) = some group && (t.gangAt h).leads group pc && !u.contains .mode then
        s.renameWord core lg group pc ((t.gangAt h).modesOf group) (BitVec.ofNat 32 (s.wordAt core w.part w.pasid pc.toNat))
      else s

/-! ### Loads that perform as they dispatch (04 R112, R113) -/

/-- The form of a plain load or prefetch. -/
structure LoadForm where
  addr : Code
  code : Nat
  space : Nat
  size : Nat

/-- The form of a plain load or prefetch. -/
def loadForm : Instr → Option LoadForm
  | .ldb _ a n p | .ldbs _ a n p => some { addr := a, code := n.toNat, space := p.toNat, size := 1 }
  | .ldh _ a n p | .ldhs _ a n p => some { addr := a, code := n.toNat, space := p.toNat, size := 2 }
  | .ldw _ a n p => some { addr := a, code := n.toNat, space := p.toNat, size := 4 }
  | .ldd _ a n p => some { addr := a, code := n.toNat, space := p.toNat, size := 8 }
  | .ldq _ a n p => some { addr := a, code := n.toNat, space := p.toNat, size := 16 }
  | .pref _ a n p => some { addr := a, code := n.toNat, space := p.toNat, size := 1 }
  | _ => none

/-- The meaning of a plain load. -/
def loadRun : Instr → State → Option Res
  | .ldb d a n p, s => some (execLdb d a n p s)
  | .ldbs d a n p, s => some (execLdbs d a n p s)
  | .ldh d a n p, s => some (execLdh d a n p s)
  | .ldhs d a n p, s => some (execLdhs d a n p s)
  | .ldw d a n p, s => some (execLdw d a n p s)
  | .ldd d a n p, s => some (execLdd d a n p s)
  | .ldq d a n p, s => some (execLdq d a n p s)
  | .xrst a n sp, s => some (execXrst a n sp s)
  | _, _ => none

/-- The translation of an address is in a TLB of the core or of its cluster, or in the translation region. -/
def State.tlbHolds (s : State) (core part pasid va : Nat) : Bool :=
  (s.nativePlace part va).isSome || (s.coreAt core).tlb.any (fun e => e.hits pasid va .read) ||
  (s.clusterAt (clusterOfCore core)).tlb.any (fun e => e.2.hits pasid va .read)

/-- Where the lanes of a load in issue read, and the next-use code of each; none where an address is faulty. -/
def State.loadPlaces (s : State) (i : Instr) : Option (List (Place × Nat)) :=
  match i, loadForm i with
  | .xrst a n sp, _ =>
    let size := 32 + 384 * ((s.wg.groupOf s.gang.num).elim 0 (fun x => x.members.length))
    if (s.imageFault sp.toNat size (s.vsrc64 a 0)).isSome then none
    else some ((s.imagePlaces sp.toNat size (s.vsrc64 a 0)).map (fun p => (p.2, s.gang.nuCode n.toNat 0)))
  | _, some f => s.gang.memLanes.mapM (fun l => match s.place f.space f.size (s.vsrc64 f.addr l) l with
    | .ok p => some (p, s.gang.nuCode f.code l)
    | .error _ => none)
  | _, none => none

/-- No place of the load in issue needs a walk (04 R112). -/
def State.noWalk (s : State) (ps : List (Place × Nat)) : Bool :=
  ps.all (fun p => match p.1 with
    | .glob va => s.tlbHolds s.gang.core s.wg.part s.wg.pasid va
    | _ => true)

/-- The lines of other devices that the load in issue reads are fetched. -/
def State.fetchLines (s : State) (ps : List (Place × Nat)) : State :=
  ps.foldl (fun s p => match p.1 with
    | .glob va => match s.peek s.gang.core s.wg.pasid va .read with
      | some x => match s.reach s.wg.part 1 x with
        | .away pa pg => s.prefetchFar p.2 pa pg
        | _ => s
      | none => s
    | _ => s) s

/-- What a load has found in the state after it: of xrst the bytes of its image, of another the values of its registers. -/
def State.loadFound (s u : State) (key : Nat) (e : Renamed) : Instr → List (Nat × DWord)
  | .xrst a n sp => ((s.xrstBytes a n sp).zipIdx).map (fun b => (b.2, b.1.setWidth 64))
  | _ => (u.gangAt key).found e.regs

/-! ### Dispatch (04 R98, R111, R112) -/

/-- What a dispatch leaves of a state that the gang's speculation has reached: marks on the caches, and messages. -/
def State.leaving (s v : State) : State := { v with gangs := s.gangs, wgs := s.wgs, cur := s.cur, ir := s.ir, pace := s.pace }

/-- Change an entry of a seat's window. -/
def State.updEntry (s : State) (core lg i : Nat) (f : Renamed → Renamed) : State :=
  s.updSeat core lg (fun x => { x with window := x.window.modify i f })

/-- A load that may dispatch: its translation needs no walk, it is not one that a squash restarts, and LD is below its limit.
It finds the bytes of the older stores of its window with those of memory, and leaves its mark on the caches alone. Where
lines of another device have to come first, it fetches them, and performs once they have (04 R112 to R114). -/
def State.dispatchLoad (run : State → Word → Res) (s : State) (core lg i h : Nat) (e : Renamed) (j : Instr) (t : State) :
    Option State :=
  let x := s.seatAt core lg
  let t := t.atEntry h e
  let real := (s.setGangAt h (t.gangAt h)).atEntry h e
  if decide (x.restart = some e.pc) ||
      decide (63 ≤ (s.gangAt h).counter 0 + (x.window.filter (fun y => (y.sent || y.loaded.isSome) && y.is (fun i => specKind i = .load))).length)
    then none
  else match t.loadPlaces j with
    | none => none
    | some ps =>
      if !t.noWalk ps then none
      else match run t e.word, run real e.word with
        | .next u, .next v =>
          if t.ranFrom u h e.group && real.ranFrom v h e.group then
            some ((s.leaving v).updEntry core lg i (fun e => { e with
              loaded := some (t.loadFound u h e j)
              early := (x.window.take i).any (fun y => y.is ordersLoads) }))
          else if t.ranOn u h e.group && !e.sent then
            some ((s.leaving (real.fetchLines ps)).updEntry core lg i (fun e => { e with sent := true }))
          else none
        | _, _ => none

/-- The window behind an entry that has dispatched stays as far as it goes on where the entry goes (04 R113, 03 R96). -/
def Seat.follow (x : Seat) (i : Nat) (e : Renamed) (v : State) (h : Nat) : Seat :=
  match (x.window.drop (i + 1)).find? (fun y => decide (y.group = e.group)) with
  | some y => if (v.gangAt h).leads y.group y.pc then x
    else x.squash (i + 1 + ((x.window.drop (i + 1)).takeWhile (fun z => decide (z.group ≠ e.group))).length)
  | none => x

/-- Entry `i` of a seat's window dispatches, when its operands are ready: a load performs; another has its results, which the
gang takes as it retires; a branch that was predicted wrongly squashes what is younger (04 R111 to R114, 03 R96). -/
def State.dispatchEntry (run : State → Word → Res) (s : State) (core lg i : Nat) : Option State :=
  let x := s.seatAt core lg
  match x.holder, x.window[i]?, (x.window[i]?).bind Renamed.instr with
  | some h, some e, some j =>
    if e.loaded.isSome || x.demoting then none
    else match State.pastEntries run h ((x.window.drop i).map (fun y => (y.group, y.pc))) (x.window.take i) (s, []) with
      | none => none
      | some p =>
        if !(p.1.gangAt h).leads e.group e.pc || !State.sidesKnown p h e j then none
        else match specKind j with
          | .load => s.dispatchLoad run core lg i h e j p.1
          | .run => match run (p.1.atEntry h e) e.word with
            | .next v =>
              if v.stalledAt h e.group then none
              else some ((s.updEntry core lg i (fun e => { e with loaded := some [] })).updSeat core lg (fun x =>
                if (v.gangAt h).live && !(v.gangAt h).trap.parked && decide ((v.gangAt h).trap.level = (s.gangAt h).trap.level)
                then x.follow i e v h else x))
            | _ => none
          | _ => none
  | _, _, _ => none

/-- The oldest entry is an instruction that only dispatches there, and it can. -/
def State.headDispatches (run : State → Word → Res) (s : State) (core lg : Nat) : Bool :=
  let x := s.seatAt core lg
  match x.holder, x.window.head? with
  | some h, some e =>
    (s.gangAt h).leads e.group e.pc && e.is (fun i => specKind i = .oldest || specKind i = .stop) &&
    (match run (s.atEntry h e) e.word with
      | .next v => !v.stalledAt h e.group
      | _ => true)
  | _, _ => false

/-- The entry of index `i` dispatches, when it is the oldest that can (04 R111). -/
def State.dispatchOldest (run : State → Word → Res) (s : State) (core lg i : Nat) : Option State :=
  if s.headDispatches run core lg || ((List.range i).any (fun j => (s.dispatchEntry run core lg j).isSome)) then none
  else s.dispatchEntry run core lg i

/-! ### Retirement (04 R111, R113) -/

/-- The state after a retirement, with the focus as it was. -/
def State.unfocus (t s : State) : State := { t with cur := s.cur, pace := s.pace }

/-- The load at the head retires with what it found. -/
def State.giveHead (s : State) (key : Nat) (i : Instr) (vals : List (Nat × DWord)) : State :=
  match i with
  | .xrst _ _ _ => (match s.wg.groupOf s.gang.num with
      | some x => s.restoreGroup s.gang.wid x (vals.map (fun v => v.2.setWidth 8))
      | none => s)
  | _ => s.updGangAt key (fun g => g.giveFound vals)

/-- What becomes of the oldest entry of a gang's window, a load that has performed, at retirement (04 R113): an early one is
read again as an ordinary load and retires when every value is the same; otherwise, and when the re-read does not go past its
word, it and all that is younger is squashed, and it waits to be the oldest before it performs again. One that is not early
retires with the values that it found, and so does a prefetch. None: the re-read has to wait. -/
def State.rereadHead (s : State) (key : Nat) : Option State :=
  let g := s.gangAt key
  match (s.seatOf key).bind (fun x => x.window.head?) with
  | none => none
  | some e => match e.loaded, e.instr with
    | some vals, some i =>
      if !g.leads e.group e.pc || specKind i ≠ .load then none
      else
        let t := s.atEntry key e
        let back := { (s.squashAll key).updSeat g.core g.lg (fun x => { x with restart := some e.pc }) with ir := e.word }
        match loadRun i t with
        | none => some (((t.updGangAt key Gang.advance).retireHead key).unfocus s)
        | some (.next u) =>
          if u.stalledAt key e.group then none
          else if t.ranFrom u key e.group && (!e.early || decide (t.loadFound u key e i = vals)) then
            some (((u.giveHead key i vals).retireHead key).unfocus s)
          else some back
        | some _ => some back
    | _, _ => none

/-- What becomes of the oldest entry, an instruction with its results known, at retirement: its effect takes place, or it
takes its trap; its own conditions may hold it. -/
def State.retireRun (run : State → Word → Res) (s : State) (core lg : Nat) : Option State :=
  let x := s.seatAt core lg
  match x.holder, x.window.head? with
  | some h, some e =>
    if e.loaded.isNone || !e.is (fun i => specKind i = .run) || !(s.gangAt h).leads e.group e.pc then none
    else match run ((s.atEntry h e).dropMarks) e.word with
      | .next v =>
        if v.stalledAt h e.group then none
        else some ((if (v.gangAt h).trap.parked then v.squashAll h else v.retireHead h).unfocus s)
      | _ => none
  | _, _ => none

/-- The oldest entry of a seat's window retires, when it has dispatched and its conditions hold (04 R111, R117). -/
def State.retireEntry (run : State → Word → Res) (s : State) (core lg : Nat) : Option State :=
  match s.retireRun run core lg with
  | some t => some t
  | none => (s.seatAt core lg).holder.bind s.rereadHead

/-- EARLY_LOAD_REREAD (04 R113, R114; 08 R232): the load at the head of the gang's window, which performed with the values
`early`, reaches retirement. -/
def execEarlyLoadReread (gang : Nat) (early : List (Nat × DWord)) (s : State) : Res :=
  .next (match (s.seatOf gang).bind (fun x => x.window.head?) with
    | some e => if e.loaded = some early then (s.rereadHead gang).getD s else s
    | none => s)

/-- BRANCH_MISPREDICT (03 R96, 04 R114): the oldest entry of the gang's window is no instruction that the gang comes to: the
window goes. -/
def execBranchMispredict (gang : Nat) (s : State) : Res :=
  .next (match (s.seatOf gang).bind (fun x => x.window.head?) with
    | some e => if (s.gangAt gang).leads e.group e.pc then s else s.squashAll gang
    | none => s)

/-! ### The checkpoint (04 R115) -/

/-- The lanes of an operation of a gang that are not finished: under way to another device, or to perform at a later turn. -/
def State.lanesLeft (s : State) (key id : Nat) : Word :=
  (s.msgs.filter (fun m => decide (m.gang = key) && decide (m.opid = id) && m.kind.isAccess && decide (m.src = s.devid))).foldl
    (fun w m => w ||| m.lanes)
    (laneMask (fun l => (s.gangAt key).late.any (fun o => decide (o.id = id) && o.lanes.any (fun x => decide (x.lane = l)))))

/-- Stores of a gang whose bytes have not reached their home slice or bank (08 R214): in its core's L1 or store queues, or on
their way to another device. -/
def State.storesLeft (s : State) (key : Nat) : List StoreNote :=
  let g := s.gangAt key
  let c := s.coreAt g.core
  ((c.l1.map (fun x => if x.2.dirty = 0 then [] else x.2.notes)).flatten ++ c.squeue.filterMap (·.note) ++
    (s.msgs.map (fun m => m.notes)).flatten).filter (fun n => decide (n.gang = key) && decide (n.age = g.age))

/-- The checkpoint of a gang: the oldest of its memory instructions that is not globally performed, with the lanes of it that
are not finished; the one that a fault holds is the youngest, and its lanes are those that the trap frame and the context
save (R115, R116; 16 R390, R402). -/
def State.checkpoint (s : State) (key : Nat) : Option (PcVal × Word) :=
  let g := s.gangAt key
  let left := (g.out.filter (fun o => decide (o.path < 2) && !o.perf)).map (fun o => (o.id, o.pc, s.lanesLeft key o.id)) ++
    (s.storesLeft key).map (fun n => (n.id, n.opc.setWidth 56, n.lanes))
  match left.foldl (fun best x => match best with
      | none => some x
      | some b => if x.1 < b.1 then some x else if x.1 = b.1 then some (b.1, b.2.1, b.2.2 ||| x.2.2) else some b) none with
  | some b => some b.2
  | none => g.trap.replay.map (fun pc => (pc, g.trap.unfinished))

/-! ### Promotion and demotion (04 R101 to R110) -/

/-- The gang trails some barrier register of its workgroup (04 R104); the expected count is that of 10 R256, gangs and
external arrivals. -/
def State.trailer (s : State) (g : Gang) : Bool :=
  (s.wgAt g.wid).bars.any (fun b => b.2.init && decide (3 * (b.2.e + b.2.x) ≤ 4 * b.2.a) && !b.2.here g.num)

/-- The core is at the tail of the grid (04 R105). -/
def State.tailOfGrid (s : State) (core : Nat) : Bool :=
  decide ((s.gangsOnCore core).length < 4) && !s.launches.any (fun l => s.couldPlace core l)

/-- SPRINT_CTL of a gang's partition. -/
def State.sprintCtl (s : State) (k : Nat) : Nat := (s.partAt (s.wgAt (s.gangAt k).wid).part).sprintCtl.toNat

/-- A condition of strength `n` holds for a gang (04 R102). -/
def State.holdsStrength (s : State) (k n : Nat) : Bool :=
  let g := s.gangAt k
  match n with
  | 3 => !g.locks.isEmpty
  | 2 => s.trailer g
  | 1 => s.tailOfGrid g.core
  | 0 => g.hint.any (fun t => decide (s.clock.toNat - t < 4096))
  | _ => false

/-- A gang's strength (04 R102): the highest among the conditions that hold for it and that SPRINT_CTL enables, so that one
that is switched off hides no weaker one (04 R106, R110, 20 R461) (log entry 79, DEDUCED). -/
def State.strength (s : State) (k : Nat) : Option Nat :=
  [3, 2, 1, 0].find? (fun n => s.holdsStrength k n && bit (s.sprintCtl k) (4 - n))

/-- A gang is a candidate for its lane group's seat (04 R106, R110). -/
def State.candidate (s : State) (k : Nat) : Bool :=
  let g := s.gangAt k
  (s.strength k).isSome && bit (s.sprintCtl k) 0 && decide (g.trap.level = 0) && !g.trap.parked && !g.trap.taken

/-- The tie between candidates of one strength: the smaller pair wins (04 R106). -/
def State.tieRank (s : State) (k : Nat) : Nat × Nat :=
  let g := s.gangAt k
  match s.strength k with
  | some 3 => ((g.locks.head?.map (·.since)).getD 0, 0)
  | some 2 => ((s.wgAt g.wid).age, g.num)
  | _ => (g.age, 0)

/-- Candidate `a` is better than `b`. -/
def State.betterCandidate (s : State) (a b : Nat) : Bool :=
  let x := (s.strength a).getD 0
  let y := (s.strength b).getD 0
  let p := s.tieRank a
  let q := s.tieRank b
  decide (y < x) || (decide (x = y) && (decide (p.1 < q.1) || (decide (p.1 = q.1) && decide (p.2 < q.2))))

/-- The best candidate of a lane group. -/
def State.bestCandidate (s : State) (core lg : Nat) : Option Nat :=
  (s.gangsOnCore core).foldl (fun best k =>
    if (s.gangAt k).lg ≠ lg || !s.candidate k then best
    else match best with
      | none => some k
      | some b => if s.betterCandidate k b then some k else some b) none

/-- A demotion begins: no instruction is renamed any more, and those that have not dispatched, with all that is younger, go
(04 R108). -/
def Seat.startDemotion (x : Seat) : Seat :=
  { x.squash (x.window.takeWhile (fun e => e.loaded.isSome)).length with demoting := true }

/-- The holder of an occupied seat stays, ages, or is to be demoted (04 R106, R109). A condition that SPRINT_CTL no longer
enables gives it no strength: it ages out (R110). -/
def State.judgeHolder (s : State) (core lg h : Nat) (best : Option Nat) : State :=
  let mine := s.strength h
  let displaced := match best, mine with
    | some b, some n => decide (n < (s.strength b).getD 0)
    | some _, none => true
    | none, _ => false
  let idle := if mine.isSome then 0 else (s.seatAt core lg).idle + 1
  let s := s.updSeat core lg (fun x => { x with idle := idle })
  if displaced || decide (64 ≤ idle) || !bit (s.sprintCtl h) 0 then s.updSeat core lg Seat.startDemotion else s

/-- PROMOTION_EVALUATION (04 R101, R106, R107): an empty seat takes the best candidate, with its pool of free rows and an
empty window; an occupied one is judged. No register is copied: the holder's committed map stays. -/
def execPromotionEvaluation (core lg : Nat) (s : State) : Res :=
  let seat := s.seatAt core lg
  let best := (s.bestCandidate core lg).filter (fun k => decide (some k ≠ seat.holder))
  .next (match seat.holder with
    | some h => s.judgeHolder core lg h best
    | none => match best with
      | some k =>
        if 16 ≤ s.freeRows core lg && (s.requests core lg).isEmpty then
          s.updSeat core lg (fun _ => { Seat.empty with
            holder := some k, pool := (s.freeRowList core lg).take (min 64 (s.freeRows core lg / 8 * 8)) })
        else s
      | none => s)

/-- DEMOTION (04 R101, R108): once nothing that has dispatched is left, the holder leaves the seat, and the seat's rows
return; the committed map names the retired registers. -/
def execDemotion (core lg : Nat) (s : State) : Res :=
  let seat := s.seatAt core lg
  .next (match seat.holder with
    | some h => if seat.demoting && seat.window.isEmpty then s.leaveSeat h else s
    | none => s)

/-- The seat's next event: its oldest entry was fetched wrongly, or is a load that retires; or its holder is to be demoted
and nothing that has dispatched is left (04 R108, R113). -/
def State.seatEvent (s : State) (core lg : Nat) : Option Res :=
  let x := s.seatAt core lg
  match x.holder, x.window with
  | some h, e :: _ =>
    if !(s.gangAt h).leads e.group e.pc then some (execBranchMispredict h s)
    else match e.loaded with
      | some vals => if (s.rereadHead h).isSome then some (execEarlyLoadReread h vals s) else none
      | none => none
  | some _, [] => if x.demoting then some (execDemotion core lg s) else none
  | none, _ => none

end Sys2Proof.Machine
end

