-- ==== Sys2Proof/Machine/Events.lean ====
section
/-! DEFINITION. Events of a gang: completions (02 R52), regang's merge (03 R77), the end of a gang (03 R79), register
growth (03 R92, R93), releases and watches (08 R219, 07 R186), and the clocks of reuse (07 R190, R198). -/

namespace Sys2Proof.Machine

/-- ILLEGAL_INSTRUCTION (02 R46): the word in issue raises the precise trap. -/
def execIllegalInstruction (word : Word) (s : State) : Res := illegal { s with ir := word }

/-- MEMORY_OPERATION_COMPLETE (02 R52): what of the operation performs at a later turn performs, when it may; a performed
operation completes, and the counter falls in issue order. -/
def execMemoryOperationComplete (gang id : Nat) (s : State) : Res :=
  .next ((s.runLate gang id).updGangAt gang (fun g =>
    if g.out.any (fun o => decide (o.id = id) && o.perf && !o.done) then g.complete id else g))

/-- REGANG_MERGE (03 R77): the slices that wait at the regang at `pc` merge when its condition holds. -/
def execRegangMerge (gang : Nat) (pc : PcVal) (s : State) : Res :=
  .next (s.updGangAt gang (fun g => if g.mergesAt pc then g.mergeAt pc else g))

/-- A gang has nothing left to do: every slice has exited, every counter is 0 and nothing of it performs later. -/
def Gang.finished (g : Gang) : Bool := g.live && decide (g.flow.exited = 0xFF) && g.out.isEmpty && g.late.isEmpty

/-- GANG_END (03 R79): every slice has exited and every counter is 0. A poisoned completion that comes after the last exit
has no place in the spec to be reported: its report goes with the gang (log entry 100, DESIGN CHOICE). -/
def execGangEnd (gang : Nat) (s : State) : Res := .next (if (s.gangAt gang).finished then s.endGang gang else s)

/-! ### Register growth (03 R92, R93) -/

/-- The blocked regrow request of a gang with its destination, if it has one. -/
def Gang.regrowBlock (g : Gang) : Option (Code × Nat × Nat) :=
  g.flow.blocks.findSome? (fun b => match b.2 with
    | .regrow d n since => some (d, n, since)
    | _ => none)

/-- A blocked request is granted or failed (03 R92). -/
def State.endRegrow (s : State) (key : Nat) (ok : Bool) : State :=
  match (s.gangAt key).regrowBlock with
  | none => s
  | some (d, n, since) =>
    (s.updGangAt key (fun g => g.finishBlock (.regrow d n since) (fun h => h.regrown d n ok))).fitRows key

/-- The oldest blocked request of a lane group: since, gang key and rows (log entry 59, DEDUCED). -/
def State.oldestRequest (s : State) (core lg : Nat) : Option (Nat × Nat × Nat) :=
  (s.requests core lg).foldl (fun best r => match best with
    | none => some r
    | some b => if r.1 < b.1 then some r else some b) none

/-- The oldest blocked request of a lane group can be granted. -/
def State.grantable (s : State) (core lg : Nat) : Option Nat :=
  match s.oldestRequest core lg with
  | some (_, k, n) => if n ≤ s.freeRows core lg then some k else none
  | none => none

/-- REGROW_GRANT (03 R92): freed rows go to the oldest blocked request of the lane group. -/
def execRegrowGrant (core lg : Nat) (s : State) : Res :=
  .next (match s.grantable core lg with
    | some k => s.endRegrow k true
    | none => s)

/-- REGROW_TIMEOUT (03 R93): a request that has been blocked for 2^20 cycles fails; one of a gang that has taken a pre-emption
is made again after its restore. -/
def execRegrowTimeout (gang : Nat) (s : State) : Res :=
  .next (if (s.gangAt gang).trap.taken then s else s.endRegrow gang false)

/-- The request that R93's first case fails on a core: the youngest, when every resident gang is blocked in regrow and no
request can be granted. -/
def State.regrowDeadlock (s : State) (core : Nat) : Option Nat :=
  let ks := s.gangsOnCore core
  let reqs := ((List.range 4).map (fun lg => s.requests core lg)).flatten
  if !ks.isEmpty && ks.all (fun k => (s.gangAt k).regrowBlock.isSome && !(s.gangAt k).trap.taken) &&
      (List.range 4).all (fun lg => (s.grantable core lg).isNone) then
    (reqs.find? (fun r => reqs.all (fun q => decide (q.1 ≤ r.1)))).map (fun r => r.2.1)
  else none

/-! ### Releases, watches and clocks -/

/-- RELEASE_COMPLETE (08 R219): what a release or a fence of the gang waited for has been acknowledged: the release `id`
performs, and a PC-group that waited for the operation `id` among others may issue again. -/
def execReleaseComplete (gang id : Nat) (s : State) : Res :=
  .next ((s.runLate gang id).updGangAt gang (fun g => { g with flow := { g.flow with
    blocks := g.flow.blocks.filter (fun b => match b.2 with
      | .ops ids => !(ids.contains id && !g.waitsOn ids)
      | _ => true) } }))

/-- MWAIT_TIMEOUT (07 R186): the timeout of the gang's mwait has expired. -/
def execMwaitTimeout (gang : Nat) (s : State) : Res :=
  .next (s.updGangAt gang (fun g =>
    if g.flow.blocks.any (fun b => decide (b.2 = .watch)) then { g with watch := { g.watch with timedOut := true } } else g))

/-- REUSE_CLOCK_ADVANCE (07 R190): the count of memory instructions has reached 65,536. -/
def execReuseClockAdvance (wid : Nat) (s : State) : Res :=
  .next (if 65536 ≤ (s.wgAt wid).mcount then s.updWgAt wid Workgroup.tickOnce else s)

/-- GT_ADVANCE (07 R198). -/
def execGtAdvance (s : State) : Res := .next { s with gt := s.gt + 1 }

end Sys2Proof.Machine
end

