-- ==== Sys2Proof/Machine/Integer.lean ====
section
/-! DEFINITION. Integer, bit and address instructions, opcodes 0x30 to 0x6C (05 R120 to R140). -/

namespace Sys2Proof.Machine

/-! ### Scalar forms (R125 to R127) -/

/-- A scalar form of two sources: each issuing slice computes its own copy (R125). -/
def scalarForm (s : State) (d a b : Code) (f : Word → Word → Word) : Res :=
  guardOps s (fixedOps [.sw 32 d, .sr 32 a, .sr 32 b]) (fun s =>
    finishWith s (fun g => g.putS d s.gang.issuing (fun k => f (s.ssrc a k) (s.ssrc b k))))

/-- sadd (R125). -/
def execSadd (d a b : Code) (s : State) : Res := scalarForm s d a b (· + ·)
/-- ssub (R125). -/
def execSsub (d a b : Code) (s : State) : Res := scalarForm s d a b (· - ·)
/-- smul (R125). -/
def execSmul (d a b : Code) (s : State) : Res := scalarForm s d a b (· * ·)
/-- sand (R125). -/
def execSand (d a b : Code) (s : State) : Res := scalarForm s d a b (· &&& ·)
/-- sor (R125). -/
def execSor (d a b : Code) (s : State) : Res := scalarForm s d a b (· ||| ·)
/-- sxor (R125). -/
def execSxor (d a b : Code) (s : State) : Res := scalarForm s d a b (· ^^^ ·)
/-- sshl (R125): a count of 32 or more gives 0. -/
def execSshl (d a b : Code) (s : State) : Res := scalarForm s d a b (fun x y => x <<< (y.toNat % 256))
/-- sshr (R125): logical. -/
def execSshr (d a b : Code) (s : State) : Res := scalarForm s d a b (fun x y => x >>> (y.toNat % 256))
/-- sslt (R125): signed. -/
def execSslt (d a b : Code) (s : State) : Res := scalarForm s d a b (fun x y => if x.slt y then 1 else 0)

/-- smovi (R126). -/
def execSmovi (d : Code) (i : BitVec 16) (s : State) : Res :=
  guardOps s (fixedOps [.sw 32 d]) (fun s => finishWith s (fun g => g.putSAll d (i.signExtend 32)))

/-- smovhi (R126). -/
def execSmovhi (d : Code) (i : BitVec 16) (s : State) : Res :=
  guardOps s (fixedOps [.sw 32 d]) (fun s =>
    finishWith s (fun g => g.putS d s.gang.issuing (fun k => i ++ (s.ssrc d k).setWidth 16)))

/-- The lane that sread copies for slice k (R127). -/
def State.sreadLane (s : State) (b : Code) (k : Nat) : Nat := (s.ssrc b k).toNat % 32

/-- sread (R127): a lane of a slice outside Issuing() reads as 0; a poisoned register is reported in any lane that it reads,
active or not (08 R230, R231). -/
def execSread (d a b : Code) (s : State) : Res :=
  guardOps s (fixedOps [.sw 32 d, .vl 32 a, .sr 32 b]) (fun s =>
    let g := s.gang
    let j := s.sreadLane b
    guardLanes a 1 ((g.issuingList.map j).filter (fun l => g.issuing (l / 4))) s
      (finishWith s (fun h => h.putS d g.issuing (fun k => if g.issuing (j k / 4) then s.vsrc32 a (j k) else 0))))

/-! ### Element-wise forms (R120, R128) -/

/-- The integer etypes (R120). -/
def intTypes (t : Nat) : Bool := decide (9 ≤ t) && decide (t ≤ 16)
/-- i64, i32, n64, n32 (R124). -/
def wideTypes (t : Nat) : Bool := decide (t = 9) || decide (t = 10) || decide (t = 13) || decide (t = 14)

/-- The value of element `k` of an operand (R120). -/
def elemInt (t : Nat) (x : DWord) (k : Nat) : Int :=
  if isSigned t then signedOf (etypeWidth t) (elemBits t x k) else (elemBits t x k : Int)

/-- Combine operands element by element (R128). -/
def mapElems (t : Nat) (f : Nat → Nat) : DWord := BitVec.ofNat 64 (packElems t f (elemCount t))

/-- The end of a vector form: the result in the lanes of Active() (R121). -/
def vecFinish (s : State) (d : Code) (x : Nat → DWord) : Res :=
  finishWith s (fun h => h.putV d (fun l => etypeWide (s.gang.et l)) s.gang.active x)

/-- A form of two element sources, under the accepted etypes; `f t sat x y acc` gives an element's bits. -/
def elemForm (s : State) (acc : Bool) (accepted : Nat → Bool) (d a b : Code)
    (f : Nat → Bool → Int → Int → Int → Nat) : Res :=
  guardOps s (etypeOps accepted (fun t =>
      [if acc then .vx (vwidth t) d else .vw (vwidth t) d, .vr (vwidth t) a, .vr (vwidth t) b])) (fun s =>
    vecFinish s d (fun l =>
      let t := s.gang.et l
      let x := s.vsrc (.elem t) a l
      let y := s.vsrc (.elem t) b l
      let z := s.vsrc (.elem t) d l
      mapElems t (fun k => f t (modeSat (s.gang.mode (l / 4))) (elemInt t x k) (elemInt t y k) (elemInt t z k))))

/-- A form of one element source. -/
def elemUnary (s : State) (d a : Code) (f : Nat → Bool → Int → Nat) : Res :=
  guardOps s (etypeOps intTypes (fun t => [.vw (vwidth t) d, .vr (vwidth t) a])) (fun s =>
    vecFinish s d (fun l =>
      let t := s.gang.et l
      let x := s.vsrc (.elem t) a l
      mapElems t (fun k => f t (modeSat (s.gang.mode (l / 4))) (elemInt t x k))))

/-- The bits of an integer in an element, wrapped. -/
def wrapElem (t : Nat) (z : Int) : Nat := wrapTo (etypeWidth t) z

/-- iadd (R128). -/
def execIadd (d a b : Code) (s : State) : Res := elemForm s false intTypes d a b (fun t sat x y _ => narrow t sat (x + y))
/-- isub (R128). -/
def execIsub (d a b : Code) (s : State) : Res := elemForm s false intTypes d a b (fun t sat x y _ => narrow t sat (x - y))
/-- imul (R128). -/
def execImul (d a b : Code) (s : State) : Res := elemForm s false intTypes d a b (fun t sat x y _ => narrow t sat (x * y))
/-- imulh (R128): the upper w bits of the exact product; sat is ignored. -/
def execImulh (d a b : Code) (s : State) : Res :=
  elemForm s false intTypes d a b (fun t _ x y _ => wrapElem t ((x * y) / 2 ^ etypeWidth t))
/-- imad (R128): one narrowing. -/
def execImad (d a b : Code) (s : State) : Res :=
  elemForm s true intTypes d a b (fun t sat x y z => narrow t sat (x * y + z))
/-- imin (R128). -/
def execImin (d a b : Code) (s : State) : Res := elemForm s false intTypes d a b (fun t _ x y _ => wrapElem t (min x y))
/-- imax (R128). -/
def execImax (d a b : Code) (s : State) : Res := elemForm s false intTypes d a b (fun t _ x y _ => wrapElem t (max x y))
/-- iabs (R128). -/
def execIabs (d a : Code) (s : State) : Res := elemUnary s d a (fun t sat x => narrow t sat (x.natAbs : Int))
/-- ineg (R128). -/
def execIneg (d a : Code) (s : State) : Res := elemUnary s d a (fun t sat x => narrow t sat (-x))

/-- iaddi (R128). -/
def execIaddi (d : Code) (i : BitVec 16) (s : State) : Res :=
  guardOps s (etypeOps intTypes (fun t => [.vx (vwidth t) d])) (fun s =>
    vecFinish s d (fun l =>
      let t := s.gang.et l
      let z := s.vsrc (.elem t) d l
      mapElems t (fun k => narrow t (modeSat (s.gang.mode (l / 4))) (elemInt t z k + i.toInt))))

/-- The etypes of imadw (R124). -/
def imadwTypes (t : Nat) : Bool := intTypes t && !etypeWide t

/-- imadw's accumulator type (R129): i64 or n64 for 32-bit elements, otherwise i32 or n32. -/
def imadwAcc (t : Nat) : Nat :=
  if t = 10 then 9 else if t = 14 then 13 else if isSigned t then 10 else 14

/-- imadw (R129): one narrowing of the accumulator and every product. -/
def execImadw (d a b : Code) (s : State) : Res :=
  guardOps s (etypeOps imadwTypes (fun t => [.vx (vwidth (imadwAcc t)) d, .vr 32 a, .vr 32 b])) (fun s =>
    finishWith s (fun h => h.putV d (fun l => etypeWide (imadwAcc (s.gang.et l))) s.gang.active (fun l =>
      let t := s.gang.et l
      let u := imadwAcc t
      let x := s.vsrc (.elem t) a l
      let y := s.vsrc (.elem t) b l
      let z := s.vsrc (.elem u) d l
      BitVec.ofNat 64 (narrow u (modeSat (s.gang.mode (l / 4)))
        (elemInt u z 0 + ((List.range (elemCount t)).map (fun k => elemInt t x k * elemInt t y k)).sum)))))

/-- iaddc (R130): on every lane of Issuing() whose EXEC bit is 1; the carry is the guard's predicate. -/
def execIaddc (d a b : Code) (s : State) : Res :=
  guardOps s (etypeOps wideTypes (fun t => [.vw (vwidth t) d, .vr (vwidth t) a, .vr (vwidth t) b])) (fun s =>
    let g := s.gang
    let lane := fun l => g.issuing (l / 4) && g.execBit l
    let pn := fun l => modeGuard (g.mode (l / 4))
    let sum := fun l =>
      let t := g.et l
      (s.vsrc (.elem t) a l).toNat + (s.vsrc (.elem t) b l).toNat + toNat01 (decide (pn l ≠ 31) && g.p (pn l) l)
    let carry := fun l => decide (2 ^ etypeWidth (g.et l) ≤ sum l)
    finishWith s (fun h =>
      let h := h.putV d (fun l => etypeWide (g.et l)) lane (fun l => BitVec.ofNat 64 (sum l % 2 ^ etypeWidth (g.et l)))
      (List.range 24).foldl (fun h i =>
        if (List.range 8).any (fun k => g.issuing k && decide (modeGuard (g.mode k) = i)) then
          h.writePLanes i (fun l => lane l && decide (pn l = i)) carry
        else h) h))

/-! ### Division (R131, R132) -/

/-- The lanes of Active() that have a zero divisor in some element (R132). -/
def zeroDivisors (s : State) (b : Code) : Word :=
  laneMask (fun l => s.gang.active l &&
    (let t := s.gang.et l
     let y := s.vsrc (.elem t) b l
     (List.range (elemCount t)).any (fun k => decide (elemInt t y k = 0))))

/-- idiv and irem (R131, R132). -/
def divForm (s : State) (d a b : Code) (f : Nat → Bool → Int → Int → Int → Nat) : Res :=
  guardOps s (etypeOps intTypes (fun t => [.vw (vwidth t) d, .vr (vwidth t) a, .vr (vwidth t) b])) (fun s =>
    if zeroDivisors s b = 0 then elemForm s false intTypes d a b f
    else trapNow { cause := 0x09, lanes := zeroDivisors s b } s)

/-- idiv (R131): rounded toward zero, then narrowed. -/
def execIdiv (d a b : Code) (s : State) : Res := divForm s d a b (fun t sat x y _ => narrow t sat (x.tdiv y))
/-- irem (R131): the sign of the dividend. -/
def execIrem (d a b : Code) (s : State) : Res := divForm s d a b (fun t _ x y _ => wrapElem t (x.tmod y))

/-! ### Compare, select and moves (R133 to R135) -/

/-- A compare form (R133). -/
def compareForm (s : State) (d a b : Code) (f : Int → Int → Bool) : Res :=
  guardOps s (etypeOps wideTypes (fun t => [.pw d, .vr (vwidth t) a, .vr (vwidth t) b])) (fun s =>
    finishWith s (fun h => h.putP d s.gang.active (fun l =>
      let t := s.gang.et l
      f (elemInt t (s.vsrc (.elem t) a l) 0) (elemInt t (s.vsrc (.elem t) b l) 0))))

/-- icmpeq (R133). -/
def execIcmpeq (d a b : Code) (s : State) : Res := compareForm s d a b (fun x y => decide (x = y))
/-- icmpne (R133). -/
def execIcmpne (d a b : Code) (s : State) : Res := compareForm s d a b (fun x y => decide (x ≠ y))
/-- icmplt (R133). -/
def execIcmplt (d a b : Code) (s : State) : Res := compareForm s d a b (fun x y => decide (x < y))
/-- icmple (R133). -/
def execIcmple (d a b : Code) (s : State) : Res := compareForm s d a b (fun x y => decide (x ≤ y))

/-- A select: on every lane of Issuing() whose EXEC bit is 1, the guard chooses v[a] or v[b] (R134). -/
def selectForm (s : State) (accepted : Nat → Bool) (d a b : Code) : Res :=
  guardOps s (etypeOps accepted (fun t => [.vw (vwidth t) d, .vr (vwidth t) a, .vr (vwidth t) b])) (fun s =>
    let g := s.gang
    finishWith s (fun h => h.putV d (fun l => etypeWide (g.et l)) (fun l => g.issuing (l / 4) && g.execBit l) (fun l =>
      if g.guard l then s.vsrc (.int (vwidth (g.et l))) a l else s.vsrc (.int (vwidth (g.et l))) b l)))

/-- isel (R134). -/
def execIsel (d a b : Code) (s : State) : Res := selectForm s intTypes d a b

/-- imovi (R135). -/
def execImovi (d : Code) (i : BitVec 16) (s : State) : Res :=
  guardOps s (fixedOps [.vw 32 d]) (fun s =>
    finishWith s (fun h => h.putV32 d s.gang.active (fun _ => i.signExtend 32)))

/-- imovhi (R135). -/
def execImovhi (d : Code) (i : BitVec 16) (s : State) : Res :=
  guardOps s (fixedOps [.vx 32 d]) (fun s =>
    finishWith s (fun h => h.putV32 d s.gang.active (fun l => i ++ (s.vsrc32 d l).setWidth 16)))

/-- vbcst (R135): a scalar pair under a 64-bit etype. -/
def execVbcst (d a : Code) (s : State) : Res :=
  guardOps s (etypeOps (fun _ => true) (fun t => [.vw (vwidth t) d, .sr (vwidth t) a])) (fun s =>
    vecFinish s d (fun l =>
      if etypeWide (s.gang.et l) then s.ssrc64 a (l / 4) else (s.ssrc a (l / 4)).setWidth 64))

/-! ### Bit operations (R136 to R139) -/

/-- and, or, xor: all bits of the operands (R136). -/
def bitForm (s : State) (d a b : Code) (f : DWord → DWord → DWord) : Res :=
  guardOps s (etypeOps (fun _ => true) (fun t => [.vw (vwidth t) d, .vr (vwidth t) a, .vr (vwidth t) b])) (fun s =>
    vecFinish s d (fun l =>
      let w := vwidth (s.gang.et l)
      f (s.vsrc (.int w) a l) (s.vsrc (.int w) b l)))

/-- and (R136). -/
def execAnd (d a b : Code) (s : State) : Res := bitForm s d a b (· &&& ·)
/-- or (R136). -/
def execOr (d a b : Code) (s : State) : Res := bitForm s d a b (· ||| ·)
/-- xor (R136). -/
def execXor (d a b : Code) (s : State) : Res := bitForm s d a b (· ^^^ ·)

/-- The count of a shift or rotate: the low min(w, 8) bits of b's element in the same place (R137). -/
def shiftCount (t : Nat) (y : DWord) (k : Nat) : Nat := elemBits t y k % 2 ^ min (etypeWidth t) 8

/-- A shift or rotate (R137): `f t sat x bits c`. A fixed-source count is an integer (02 R482). -/
def shiftForm (s : State) (d a b : Code) (f : Nat → Bool → Int → Nat → Nat → Nat) : Res :=
  guardOps s (etypeOps intTypes (fun t => [.vw (vwidth t) d, .vr (vwidth t) a, .vr (vwidth t) b])) (fun s =>
    vecFinish s d (fun l =>
      let t := s.gang.et l
      let x := s.vsrc (.elem t) a l
      let y := s.vsrc (.int (vwidth t)) b l
      mapElems t (fun k => f t (modeSat (s.gang.mode (l / 4))) (elemInt t x k) (elemBits t x k) (shiftCount t y k))))

/-- shl (R137). -/
def execShl (d a b : Code) (s : State) : Res :=
  shiftForm s d a b (fun t sat x u c =>
    if sat then narrow t true (x * 2 ^ c) else if c < etypeWidth t then (u * 2 ^ c) % 2 ^ etypeWidth t else 0)
/-- shr (R137): logical. -/
def execShr (d a b : Code) (s : State) : Res :=
  shiftForm s d a b (fun t _ _ u c => if c < etypeWidth t then u / 2 ^ c else 0)
/-- sar (R137): x is read as signed whatever the type. -/
def execSar (d a b : Code) (s : State) : Res :=
  shiftForm s d a b (fun t _ _ u c =>
    wrapElem t (signedOf (etypeWidth t) u / 2 ^ min c (etypeWidth t - 1)))
/-- Rotate the low `w` bits left by `c` below `w`. -/
def rotLeft (w u c : Nat) : Nat := (u * 2 ^ c + u / 2 ^ (w - c)) % 2 ^ w
/-- rol (R137). -/
def execRol (d a b : Code) (s : State) : Res :=
  shiftForm s d a b (fun t _ _ u c => rotLeft (etypeWidth t) u (c % etypeWidth t))
/-- ror (R137). -/
def execRor (d a b : Code) (s : State) : Res :=
  shiftForm s d a b (fun t _ _ u c => rotLeft (etypeWidth t) u ((etypeWidth t - c % etypeWidth t) % etypeWidth t))

/-- A form of one source on the bits of its elements. -/
def bitsUnary (s : State) (d a : Code) (f : Nat → Nat → Nat) : Res :=
  guardOps s (etypeOps intTypes (fun t => [.vw (vwidth t) d, .vr (vwidth t) a])) (fun s =>
    vecFinish s d (fun l =>
      let t := s.gang.et l
      mapElems t (fun k => f (etypeWidth t) (elemBits t (s.vsrc (.elem t) a l) k))))

/-- bcnt (R138). -/
def execBcnt (d a : Code) (s : State) : Res := bitsUnary s d a (fun w u => popCount u w)
/-- clz (R138). -/
def execClz (d a : Code) (s : State) : Res := bitsUnary s d a (fun w u => if u = 0 then w else w - 1 - Nat.log2 u)

/-- bfe (R139): `len` at most w; a bit at or above w reads as 0 or as the sign. -/
def bfeBits (w : Nat) (signed : Bool) (x pos len : Nat) : Nat :=
  if len = 0 then 0
  else
    let ext : Int := if signed then signedOf w x else (x : Int)
    let f := wrapTo len (ext / 2 ^ pos)
    if signed then wrapTo w (signedOf len f) else f

/-- bfi (R139): the field is cut at w. -/
def bfiBits (w old x pos len : Nat) : Nat :=
  if w ≤ pos then old
  else
    let n := min len (w - pos)
    old - field old pos n * 2 ^ pos + x % 2 ^ n * 2 ^ pos

/-- bfe (R139). -/
def execBfe (d a b : Code) (s : State) : Res :=
  guardOps s (etypeOps wideTypes (fun t => [.vw (vwidth t) d, .vr (vwidth t) a, .vr 32 b])) (fun s =>
    vecFinish s d (fun l =>
      let t := s.gang.et l
      let w := etypeWidth t
      let c := (s.vsrc32 b l).toNat
      BitVec.ofNat 64 (bfeBits w (isSigned t) (s.vsrc (.elem t) a l).toNat (c % 256) (min (field c 8 8) w))))

/-- bfi (R139). -/
def execBfi (d a b : Code) (s : State) : Res :=
  guardOps s (etypeOps wideTypes (fun t => [.vx (vwidth t) d, .vr (vwidth t) a, .vr 32 b])) (fun s =>
    vecFinish s d (fun l =>
      let t := s.gang.et l
      let w := etypeWidth t
      let c := (s.vsrc32 b l).toNat
      BitVec.ofNat 64 (bfiBits w (s.vsrc (.elem t) d l).toNat (s.vsrc (.elem t) a l).toNat (c % 256) (min (field c 8 8) w))))

/-! ### Address arithmetic (R140) -/

/-- The etypes lea accepts (R124). -/
def leaTypes (t : Nat) : Bool := decide (t ≤ 5) || intTypes t

/-- log2 of an element's size in bytes (R140). -/
def leaScale (t : Nat) : Nat :=
  match etypeWidth t with
  | 64 => 3
  | 32 => 2
  | 16 => 1
  | _ => 0

/-- lea (R140): the index is unsigned under n types and signed otherwise. -/
def execLea (d a b : Code) (s : State) : Res :=
  guardOps s (etypeOps leaTypes (fun _ => [.vw 64 d, .vr 64 a, .vr 32 b])) (fun s =>
    finishWith s (fun h => h.putV d (fun _ => true) s.gang.active (fun l =>
      let t := s.gang.et l
      let i := s.vsrc32 b l
      let idx : DWord := if decide (13 ≤ t) && decide (t ≤ 16) then i.setWidth 64 else i.signExtend 64
      s.vsrc64 a l + (idx <<< leaScale t))))

end Sys2Proof.Machine
end

