-- ==== Sys2Proof/Machine/FloatInstr.lean ====
section
/-! DEFINITION. Floating-point and conversion instructions, opcodes 0x70 to 0x9F (06 R156 to R168). -/

namespace Sys2Proof.Machine

/-- f64 and f32 (R156). -/
def dblTypes (t : Nat) : Bool := decide (t ≤ 1)
/-- bf16 and f16 (R156). -/
def halfTypes (t : Nat) : Bool := decide (t = 2) || decide (t = 3)
/-- f64, f32, bf16 and f16 (R156). -/
def signTypes (t : Nat) : Bool := decide (t ≤ 3)

/-! ### Arithmetic (R158, R159) -/

/-- A form on one f64 or f32 element per lane (R158). -/
def floatForm (s : State) (op : FOp) (acc : Bool) (d a b : Code) : Res :=
  guardOps s (etypeOps dblTypes (fun t =>
      [if acc then .vx (vwidth t) d else .vw (vwidth t) d, .vr (vwidth t) a, .vr (vwidth t) b])) (fun s =>
    let g := s.gang
    let r := fun l =>
      let t := g.et l
      fopElem op t (g.fmode l) (s.vsrc (.elem t) a l).toNat (s.vsrc (.elem t) b l).toNat (s.vsrc (.elem t) d l).toNat
    floatFinish s (fun l => (r l).2) (fun h =>
      h.putV d (fun l => etypeWide (g.et l)) g.active (fun l => BitVec.ofNat 64 (r l).1)))

/-- A form of one source (R158, R168). -/
def floatUnary (s : State) (op : FUn) (d a : Code) : Res :=
  guardOps s (etypeOps dblTypes (fun t => [.vw (vwidth t) d, .vr (vwidth t) a])) (fun s =>
    let g := s.gang
    let r := fun l => funElem op (g.et l) (g.fmode l) (s.vsrc (.elem (g.et l)) a l).toNat
    floatFinish s (fun l => (r l).2) (fun h =>
      h.putV d (fun l => etypeWide (g.et l)) g.active (fun l => BitVec.ofNat 64 (r l).1)))

/-- fadd (R158). -/
def execFadd (d a b : Code) (s : State) : Res := floatForm s .add false d a b
/-- fsub (R158). -/
def execFsub (d a b : Code) (s : State) : Res := floatForm s .sub false d a b
/-- fmul (R158). -/
def execFmul (d a b : Code) (s : State) : Res := floatForm s .mul false d a b
/-- ffma (R158). -/
def execFfma (d a b : Code) (s : State) : Res := floatForm s .fma true d a b
/-- ffms (R158). -/
def execFfms (d a b : Code) (s : State) : Res := floatForm s .fms true d a b
/-- fnma (R158). -/
def execFnma (d a b : Code) (s : State) : Res := floatForm s .nma true d a b
/-- fmin (R159). -/
def execFmin (d a b : Code) (s : State) : Res := floatForm s .min false d a b
/-- fmax (R159). -/
def execFmax (d a b : Code) (s : State) : Res := floatForm s .max false d a b
/-- fdiv (R158). -/
def execFdiv (d a b : Code) (s : State) : Res := floatForm s .div false d a b
/-- frcp (R158). -/
def execFrcp (d a : Code) (s : State) : Res := floatUnary s .rcp d a
/-- frsq (R158). -/
def execFrsq (d a : Code) (s : State) : Res := floatUnary s .rsq d a
/-- fsqrt (R158). -/
def execFsqrt (d a : Code) (s : State) : Res := floatUnary s .sqrt d a
/-- fexp2 (R158). -/
def execFexp2 (d a : Code) (s : State) : Res := floatUnary s .exp2 d a
/-- flog2 (R158). -/
def execFlog2 (d a : Code) (s : State) : Res := floatUnary s .log2 d a
/-- fgetexp (R158). -/
def execFgetexp (d a : Code) (s : State) : Res := floatUnary s .getexp d a
/-- frint (R168). -/
def execFrint (d a : Code) (s : State) : Res := floatUnary s .rint d a

/-- fscale (R158): the exponent is an i32 register. -/
def execFscale (d a b : Code) (s : State) : Res :=
  guardOps s (etypeOps dblTypes (fun t => [.vw (vwidth t) d, .vr (vwidth t) a, .vr 32 b])) (fun s =>
    let g := s.gang
    let r := fun l =>
      let t := g.et l
      finish t (g.fmode l) (fvScale (elemValue t (modeFtz (g.mode (l / 4))) (s.vsrc (.elem t) a l).toNat) (s.vsrc32 b l).toInt)
    floatFinish s (fun l => (r l).2) (fun h =>
      h.putV d (fun l => etypeWide (g.et l)) g.active (fun l => BitVec.ofNat 64 (r l).1)))

/-! ### Packed 16-bit forms (R162) -/

/-- Two elements, each with its own flags (R157, R162). -/
def halfForm (s : State) (op : FOp) (acc : Bool) (d a b : Code) : Res :=
  guardOps s (etypeOps halfTypes (fun _ => [if acc then .vx 32 d else .vw 32 d, .vr 32 a, .vr 32 b])) (fun s =>
    let g := s.gang
    let r := fun l k =>
      let t := g.et l
      fopElem op t (g.fmode l) (elemBits t (s.vsrc (.elem t) a l) k) (elemBits t (s.vsrc (.elem t) b l) k)
        (elemBits t (s.vsrc (.elem t) d l) k)
    floatFinish s (fun l => (r l 0).2 ||| (r l 1).2) (fun h =>
      h.putV32 d g.active (fun l => BitVec.ofNat 32 ((r l 0).1 + (r l 1).1 * 2 ^ 16))))

/-- fhadd (R162). -/
def execFhadd (d a b : Code) (s : State) : Res := halfForm s .add false d a b
/-- fhmul (R162). -/
def execFhmul (d a b : Code) (s : State) : Res := halfForm s .mul false d a b
/-- fhfma (R162). -/
def execFhfma (d a b : Code) (s : State) : Res := halfForm s .fma true d a b
/-- fhmin (R162). -/
def execFhmin (d a b : Code) (s : State) : Res := halfForm s .min false d a b
/-- fhmax (R162). -/
def execFhmax (d a b : Code) (s : State) : Res := halfForm s .max false d a b

/-- fdot2 (R162): an f32 accumulator, one rounding. -/
def execFdot2 (d a b : Code) (s : State) : Res :=
  guardOps s (etypeOps halfTypes (fun _ => [.vx 32 d, .vr 32 a, .vr 32 b])) (fun s =>
    let g := s.gang
    let r := fun l =>
      let t := g.et l
      fdot2Elem t (g.fmode l) (s.vsrc (.elem t) a l) (s.vsrc (.elem t) b l) (s.vsrc (.elem 1) d l).toNat
    floatFinish s (fun l => (r l).2) (fun h => h.putV32 d g.active (fun l => BitVec.ofNat 32 (r l).1)))

/-! ### Sign forms, moves, selection (R161) -/

/-- A form on the bits of each element, with no flag (R161). -/
def signForm (s : State) (d a : Code) (f : Nat → Nat → Nat) : Res :=
  guardOps s (etypeOps signTypes (fun t => [.vw (vwidth t) d, .vr (vwidth t) a])) (fun s =>
    vecFinish s d (fun l =>
      let t := s.gang.et l
      mapElems t (fun k => f (etypeWidth t) (elemBits t (s.vsrc (.elem t) a l) k))))

/-- fabs (R161). -/
def execFabs (d a : Code) (s : State) : Res := signForm s d a (fun w x => x % 2 ^ (w - 1))
/-- fneg (R161). -/
def execFneg (d a : Code) (s : State) : Res := signForm s d a (fun w x => x ^^^ 2 ^ (w - 1))

/-- fcopysign (R161). -/
def execFcopysign (d a b : Code) (s : State) : Res :=
  guardOps s (etypeOps signTypes (fun t => [.vw (vwidth t) d, .vr (vwidth t) a, .vr (vwidth t) b])) (fun s =>
    vecFinish s d (fun l =>
      let t := s.gang.et l
      let w := etypeWidth t
      mapElems t (fun k => elemBits t (s.vsrc (.elem t) a l) k % 2 ^ (w - 1) +
        elemBits t (s.vsrc (.elem t) b l) k / 2 ^ (w - 1) * 2 ^ (w - 1))))

/-- vmov (R161): a pair under a 64-bit etype. -/
def execVmov (d a : Code) (s : State) : Res :=
  guardOps s (etypeOps (fun _ => true) (fun t => [.vw (vwidth t) d, .vr (vwidth t) a])) (fun s =>
    vecFinish s d (fun l => s.vsrc (.int (vwidth (s.gang.et l))) a l))

/-- fsel (R161, R157): as isel. -/
def execFsel (d a b : Code) (s : State) : Res := selectForm s signTypes d a b

/-! ### Comparisons and classification (R160) -/

/-- A comparison (R160): 0 equal, 1 less, 2 less or equal, 3 unordered. -/
def floatCompare (s : State) (op : Nat) (d a b : Code) : Res :=
  guardOps s (etypeOps dblTypes (fun t => [.pw d, .vr (vwidth t) a, .vr (vwidth t) b])) (fun s =>
    let g := s.gang
    let r := fun l =>
      let t := g.et l
      fcmpElem op t (g.fmode l) (s.vsrc (.elem t) a l).toNat (s.vsrc (.elem t) b l).toNat
    floatFinish s (fun l => (r l).2) (fun h => h.putP d g.active (fun l => (r l).1)))

/-- fcmpeq (R160). -/
def execFcmpeq (d a b : Code) (s : State) : Res := floatCompare s 0 d a b
/-- fcmplt (R160). -/
def execFcmplt (d a b : Code) (s : State) : Res := floatCompare s 1 d a b
/-- fcmple (R160). -/
def execFcmple (d a b : Code) (s : State) : Res := floatCompare s 2 d a b
/-- fcmpun (R160). -/
def execFcmpun (d a b : Code) (s : State) : Res := floatCompare s 3 d a b

/-- fclass (R160): the class mask of the raw bits; the second element's mask stands in bits [25:16]. -/
def execFclass (d a : Code) (s : State) : Res :=
  guardOps s (etypeOps signTypes (fun t => [.vw 32 d, .vr (vwidth t) a])) (fun s =>
    finishWith s (fun h => h.putV32 d s.gang.active (fun l =>
      let t := s.gang.et l
      let c := fun k => 2 ^ classOf (fmtOf t) (elemBits t (s.vsrc (.elem t) a l) k)
      BitVec.ofNat 32 (if halfTypes t then c 0 + c 1 * 2 ^ 16 else c 0))))

/-! ### Conversions (R163 to R167) -/

/-- cvt (R163): element 0 of v[a] in the type `b`; every other bit of the destination is 0. -/
def execCvt (d a b : Code) (s : State) : Res :=
  if 18 < b.toNat then illegal s
  else guardOps s (etypeOps (fun _ => true) (fun t => [.vw (vwidth t) d, .vr (vwidth b.toNat) a])) (fun s =>
    let g := s.gang
    let r := fun l =>
      cvtElem b.toNat (g.et l) (g.fmode l) (elemBits b.toNat (s.vsrc (.elem b.toNat) a l) 0)
    floatFinish s (fun l => (r l).2) (fun h =>
      h.putV d (fun l => etypeWide (g.et l)) g.active (fun l => BitVec.ofNat 64 (r l).1)))

/-- The etypes of the packing forms (R166). -/
def packTypes (t : Nat) : Bool := [2, 3, 4, 5, 6, 7, 8, 12, 16, 17, 18].contains t

/-- Register `k` of a group of f32 values; a fixed source gives its value in each (log entry 12, DEDUCED). -/
def State.groupElem (s : State) (c : Code) (k l : Nat) : Nat :=
  if c.toNat < 0xF0 then (s.gang.v (c.toNat + k) l).toNat else (s.vsrc (.elem 1) c l).toNat

/-- The flags of the elements 0 to n - 1. -/
def orFlags (f : Nat → Nat) : Nat → Nat
  | 0 => 0
  | n + 1 => orFlags f n ||| f n

/-- A packing form (R166, R167): `conv` converts element k of lane l into the lane's etype. -/
def packForm (s : State) (ops : List Opnd) (d a : Code) (conv : State → Nat → Nat → Nat × Nat) : Res :=
  guardOps s (etypeOps packTypes (fun t => .vw 32 d :: .vg (elemCount t) (elemCount t) true false true a :: ops)) (fun s =>
    let g := s.gang
    floatFinish s (fun l => orFlags (fun k => (conv s l k).2) (elemCount (g.et l))) (fun h =>
      h.putV32 d g.active (fun l => BitVec.ofNat 32 (packElems (g.et l) (fun k => (conv s l k).1) (elemCount (g.et l))))))

/-- An unpacking form (R166, R167). -/
def unpackForm (s : State) (ops : List Opnd) (d a : Code) (conv : State → Nat → Nat → Nat × Nat) : Res :=
  guardOps s (etypeOps packTypes (fun t => .vg (elemCount t) (elemCount t) false true true d :: .vr 32 a :: ops)) (fun s =>
    let g := s.gang
    floatFinish s (fun l => orFlags (fun k => (conv s l k).2) (elemCount (g.et l))) (fun h =>
      (List.range 8).foldl (fun h k =>
        if d = 0xF0 then h
        else h.writeLanes (d.toNat + k) (fun l => g.active l && decide (k < elemCount (g.et l)))
          (fun l => BitVec.ofNat 32 (conv s l k).1)) h))

/-- cvtpk (R166). -/
def execCvtpk (d a : Code) (s : State) : Res :=
  packForm s [] d a (fun s l k => cvtElem 1 (s.gang.et l) (s.gang.fmode l) (s.groupElem a k l))

/-- unpk (R166). Under MODE.ftz = 1 an f16 subnormal reads as zero, as 06 R147 says of every float input
(log entry 99, DEDUCED). -/
def execUnpk (d a : Code) (s : State) : Res :=
  unpackForm s [] d a (fun s l k =>
    let t := s.gang.et l
    cvtElem t 1 (s.gang.fmode l) (elemBits t (s.vsrc (.elem t) a l) k))

/-- The effective scale q * S of lane `l` (R167): S an f32, q an unsigned byte. A fixed source supplies its value in each of
the two types (02 R40, R482). -/
def State.scaleOf (s : State) (b : Code) (l : Nat) : FRes :=
  let q := if b.toNat < 0xF0 then (s.gang.v (b.toNat + 1) l).toNat % 256 else wrapTo 8 (s.fixedInt false b.toNat l)
  fvMul (elemValue 1 (s.gang.fmode l).ftz (s.vsrc (.elem 1) b l).toNat) (FVal.ofInt (q : Nat))

/-- cvtq (R167): the exact quotient, rounded to nearest even into every type. -/
def execCvtq (d a b : Code) (s : State) : Res :=
  packForm s [.vr 64 b] d a (fun s l k =>
    let md := s.gang.fmode l
    let c := s.scaleOf b l
    let q := fvDiv (elemValue 1 md.ftz (s.groupElem a k l)) c.1
    let z := convert (s.gang.et l) { md with round := 0 } q.1
    (z.1, z.2 ||| q.2 ||| c.2))

/-- cvtdq (R167): the element times the scale, rounded once to f32. -/
def execCvtdq (d a b : Code) (s : State) : Res :=
  unpackForm s [.vr 64 b] d a (fun s l k =>
    let md := s.gang.fmode l
    let t := s.gang.et l
    let c := s.scaleOf b l
    let p := fvMul (elemValue t md.ftz (elemBits t (s.vsrc (.elem t) a l) k)) c.1
    let z := finish 1 md p
    (z.1, z.2 ||| c.2))

end Sys2Proof.Machine
end

