-- ==== Sys2Proof/Machine/Dispatch.lean ====
section
/-! DEFINITION. The meaning of every instruction and event, one arm per constructor. -/

namespace Sys2Proof.Machine

def exec (i : Instr) (s : State) : Host.Outcome State Fault Refusal :=
  match i with
  | .br p sv k o => Sys2Proof.Machine.execBr p sv k o s
  | .brx a => Sys2Proof.Machine.execBrx a s
  | .call im => Sys2Proof.Machine.execCall im s
  | .callx a => Sys2Proof.Machine.execCallx a s
  | .ret => Sys2Proof.Machine.execRet s
  | .regang m => Sys2Proof.Machine.execRegang m s
  | .exit => Sys2Proof.Machine.execExit s
  | .nop => Sys2Proof.Machine.execNop s
  | .yield => Sys2Proof.Machine.execYield s
  | .promo => Sys2Proof.Machine.execPromo s
  | .promoDemote => Sys2Proof.Machine.execPromoDemote s
  | .pand d a b => Sys2Proof.Machine.execPand d a b s
  | .por d a b => Sys2Proof.Machine.execPor d a b s
  | .pxor d a b => Sys2Proof.Machine.execPxor d a b s
  | .pnot d a => Sys2Proof.Machine.execPnot d a s
  | .exsave d => Sys2Proof.Machine.execExsave d s
  | .exand d a b => Sys2Proof.Machine.execExand d a b s
  | .exload a => Sys2Proof.Machine.execExload a s
  | .ballot d a => Sys2Proof.Machine.execBallot d a s
  | .vote d a b => Sys2Proof.Machine.execVote d a b s
  | .popc d a => Sys2Proof.Machine.execPopc d a s
  | .mpfx d a => Sys2Proof.Machine.execMpfx d a s
  | .shfl d a b => Sys2Proof.Machine.execShfl d a b s
  | .shfli d m c => Sys2Proof.Machine.execShfli d m c s
  | .gred d a b => Sys2Proof.Machine.execGred d a b s
  | .psets d a => Sys2Proof.Machine.execPsets d a s
  | .mset sv im => Sys2Proof.Machine.execMset sv im s
  | .msetg im => Sys2Proof.Machine.execMsetg im s
  | .mget d => Sys2Proof.Machine.execMget d s
  | .msetr a => Sys2Proof.Machine.execMsetr a s
  | .wait l sv c t => Sys2Proof.Machine.execWait l sv c t s
  | .waitr a b => Sys2Proof.Machine.execWaitr a b s
  | .regrow d im => Sys2Proof.Machine.execRegrow d im s
  | .regshr im => Sys2Proof.Machine.execRegshr im s
  | .flget d => Sys2Proof.Machine.execFlget d s
  | .flclr m => Sys2Proof.Machine.execFlclr m s
  | .sadd d a b => Sys2Proof.Machine.execSadd d a b s
  | .ssub d a b => Sys2Proof.Machine.execSsub d a b s
  | .smul d a b => Sys2Proof.Machine.execSmul d a b s
  | .sand d a b => Sys2Proof.Machine.execSand d a b s
  | .sor d a b => Sys2Proof.Machine.execSor d a b s
  | .sxor d a b => Sys2Proof.Machine.execSxor d a b s
  | .sshl d a b => Sys2Proof.Machine.execSshl d a b s
  | .sshr d a b => Sys2Proof.Machine.execSshr d a b s
  | .sslt d a b => Sys2Proof.Machine.execSslt d a b s
  | .smovi d im => Sys2Proof.Machine.execSmovi d im s
  | .smovhi d im => Sys2Proof.Machine.execSmovhi d im s
  | .sread d a b => Sys2Proof.Machine.execSread d a b s
  | .iadd d a b => Sys2Proof.Machine.execIadd d a b s
  | .isub d a b => Sys2Proof.Machine.execIsub d a b s
  | .imul d a b => Sys2Proof.Machine.execImul d a b s
  | .imulh d a b => Sys2Proof.Machine.execImulh d a b s
  | .imad d a b => Sys2Proof.Machine.execImad d a b s
  | .idiv d a b => Sys2Proof.Machine.execIdiv d a b s
  | .irem d a b => Sys2Proof.Machine.execIrem d a b s
  | .imin d a b => Sys2Proof.Machine.execImin d a b s
  | .imax d a b => Sys2Proof.Machine.execImax d a b s
  | .iabs d a => Sys2Proof.Machine.execIabs d a s
  | .ineg d a => Sys2Proof.Machine.execIneg d a s
  | .icmpeq d a b => Sys2Proof.Machine.execIcmpeq d a b s
  | .icmpne d a b => Sys2Proof.Machine.execIcmpne d a b s
  | .icmplt d a b => Sys2Proof.Machine.execIcmplt d a b s
  | .icmple d a b => Sys2Proof.Machine.execIcmple d a b s
  | .isel d a b => Sys2Proof.Machine.execIsel d a b s
  | .imovi d im => Sys2Proof.Machine.execImovi d im s
  | .imovhi d im => Sys2Proof.Machine.execImovhi d im s
  | .vbcst d a => Sys2Proof.Machine.execVbcst d a s
  | .iaddi d im => Sys2Proof.Machine.execIaddi d im s
  | .iaddc d a b => Sys2Proof.Machine.execIaddc d a b s
  | .imadw d a b => Sys2Proof.Machine.execImadw d a b s
  | .and d a b => Sys2Proof.Machine.execAnd d a b s
  | .or d a b => Sys2Proof.Machine.execOr d a b s
  | .xor d a b => Sys2Proof.Machine.execXor d a b s
  | .shl d a b => Sys2Proof.Machine.execShl d a b s
  | .shr d a b => Sys2Proof.Machine.execShr d a b s
  | .sar d a b => Sys2Proof.Machine.execSar d a b s
  | .rol d a b => Sys2Proof.Machine.execRol d a b s
  | .ror d a b => Sys2Proof.Machine.execRor d a b s
  | .bcnt d a => Sys2Proof.Machine.execBcnt d a s
  | .clz d a => Sys2Proof.Machine.execClz d a s
  | .bfe d a b => Sys2Proof.Machine.execBfe d a b s
  | .bfi d a b => Sys2Proof.Machine.execBfi d a b s
  | .lea d a b => Sys2Proof.Machine.execLea d a b s
  | .cvt d a b => Sys2Proof.Machine.execCvt d a b s
  | .cvtpk d a => Sys2Proof.Machine.execCvtpk d a s
  | .unpk d a => Sys2Proof.Machine.execUnpk d a s
  | .frint d a => Sys2Proof.Machine.execFrint d a s
  | .cvtq d a b => Sys2Proof.Machine.execCvtq d a b s
  | .cvtdq d a b => Sys2Proof.Machine.execCvtdq d a b s
  | .fadd d a b => Sys2Proof.Machine.execFadd d a b s
  | .fsub d a b => Sys2Proof.Machine.execFsub d a b s
  | .fmul d a b => Sys2Proof.Machine.execFmul d a b s
  | .ffma d a b => Sys2Proof.Machine.execFfma d a b s
  | .ffms d a b => Sys2Proof.Machine.execFfms d a b s
  | .fnma d a b => Sys2Proof.Machine.execFnma d a b s
  | .fmin d a b => Sys2Proof.Machine.execFmin d a b s
  | .fmax d a b => Sys2Proof.Machine.execFmax d a b s
  | .fabs d a => Sys2Proof.Machine.execFabs d a s
  | .fneg d a => Sys2Proof.Machine.execFneg d a s
  | .vmov d a => Sys2Proof.Machine.execVmov d a s
  | .fcmpeq d a b => Sys2Proof.Machine.execFcmpeq d a b s
  | .fcmplt d a b => Sys2Proof.Machine.execFcmplt d a b s
  | .fcmple d a b => Sys2Proof.Machine.execFcmple d a b s
  | .fcmpun d a b => Sys2Proof.Machine.execFcmpun d a b s
  | .fclass d a => Sys2Proof.Machine.execFclass d a s
  | .frcp d a => Sys2Proof.Machine.execFrcp d a s
  | .frsq d a => Sys2Proof.Machine.execFrsq d a s
  | .fsqrt d a => Sys2Proof.Machine.execFsqrt d a s
  | .fdiv d a b => Sys2Proof.Machine.execFdiv d a b s
  | .fexp2 d a => Sys2Proof.Machine.execFexp2 d a s
  | .flog2 d a => Sys2Proof.Machine.execFlog2 d a s
  | .fhadd d a b => Sys2Proof.Machine.execFhadd d a b s
  | .fhmul d a b => Sys2Proof.Machine.execFhmul d a b s
  | .fhfma d a b => Sys2Proof.Machine.execFhfma d a b s
  | .fhmin d a b => Sys2Proof.Machine.execFhmin d a b s
  | .fhmax d a b => Sys2Proof.Machine.execFhmax d a b s
  | .fdot2 d a b => Sys2Proof.Machine.execFdot2 d a b s
  | .fsel d a b => Sys2Proof.Machine.execFsel d a b s
  | .fscale d a b => Sys2Proof.Machine.execFscale d a b s
  | .fgetexp d a => Sys2Proof.Machine.execFgetexp d a s
  | .fcopysign d a b => Sys2Proof.Machine.execFcopysign d a b s
  | .ldb d a n sv => Sys2Proof.Machine.execLdb d a n sv s
  | .ldbs d a n sv => Sys2Proof.Machine.execLdbs d a n sv s
  | .ldh d a n sv => Sys2Proof.Machine.execLdh d a n sv s
  | .ldhs d a n sv => Sys2Proof.Machine.execLdhs d a n sv s
  | .ldw d a n sv => Sys2Proof.Machine.execLdw d a n sv s
  | .ldd d a n sv => Sys2Proof.Machine.execLdd d a n sv s
  | .ldq d a n sv => Sys2Proof.Machine.execLdq d a n sv s
  | .ldAcq d a c r w sv => Sys2Proof.Machine.execLdAcq d a c r w sv s
  | .stb d a n sv => Sys2Proof.Machine.execStb d a n sv s
  | .sth d a n sv => Sys2Proof.Machine.execSth d a n sv s
  | .stw d a n sv => Sys2Proof.Machine.execStw d a n sv s
  | .std d a n sv => Sys2Proof.Machine.execStd d a n sv s
  | .stq d a n sv => Sys2Proof.Machine.execStq d a n sv s
  | .stRel d a c l w sv => Sys2Proof.Machine.execStRel d a c l w sv s
  | .pref l a n sv => Sys2Proof.Machine.execPref l a n sv s
  | .pglob d a => Sys2Proof.Machine.execPglob d a s
  | .atadd d a c r w sv => Sys2Proof.Machine.execAtadd d a c r w sv s
  | .atfadd d a c r w sv => Sys2Proof.Machine.execAtfadd d a c r w sv s
  | .atmin d a c r w sv => Sys2Proof.Machine.execAtmin d a c r w sv s
  | .atmax d a c r w sv => Sys2Proof.Machine.execAtmax d a c r w sv s
  | .atand d a c r w sv => Sys2Proof.Machine.execAtand d a c r w sv s
  | .ator d a c r w sv => Sys2Proof.Machine.execAtor d a c r w sv s
  | .atxor d a c r w sv => Sys2Proof.Machine.execAtxor d a c r w sv s
  | .atxchg d a c l r w sv => Sys2Proof.Machine.execAtxchg d a c l r w sv s
  | .atcas d a c l r w sv => Sys2Proof.Machine.execAtcas d a c l r w sv s
  | .fenceAcq c => Sys2Proof.Machine.execFenceAcq c s
  | .fenceRel c => Sys2Proof.Machine.execFenceRel c s
  | .fenceAcqrel c => Sys2Proof.Machine.execFenceAcqrel c s
  | .fenceSc c => Sys2Proof.Machine.execFenceSc c s
  | .fencePath a b => Sys2Proof.Machine.execFencePath a b s
  | .mwatch d a n sv => Sys2Proof.Machine.execMwatch d a n sv s
  | .mwait d a => Sys2Proof.Machine.execMwait d a s
  | .tick => Sys2Proof.Machine.execTick s
  | .cmaint o a n sv => Sys2Proof.Machine.execCmaint o a n sv s
  | .binit a b => Sys2Proof.Machine.execBinit a b s
  | .barv p a => Sys2Proof.Machine.execBarv p a s
  | .bwait a => Sys2Proof.Machine.execBwait a s
  | .bwaitGen a b => Sys2Proof.Machine.execBwaitGen a b s
  | .barw p a => Sys2Proof.Machine.execBarw p a s
  | .baddx a b => Sys2Proof.Machine.execBaddx a b s
  | .baddxE a b => Sys2Proof.Machine.execBaddxE a b s
  | .btest a b => Sys2Proof.Machine.execBtest a b s
  | .btestWord1 a b => Sys2Proof.Machine.execBtestWord1 a b s
  | .ngjoin a => Sys2Proof.Machine.execNgjoin a s
  | .ngjoinLeave a => Sys2Proof.Machine.execNgjoinLeave a s
  | .ngarv p a => Sys2Proof.Machine.execNgarv p a s
  | .ngwait a => Sys2Proof.Machine.execNgwait a s
  | .ngwaitGen a b => Sys2Proof.Machine.execNgwaitGen a b s
  | .ngwaitRead a b => Sys2Proof.Machine.execNgwaitRead a b s
  | .bsetm a b => Sys2Proof.Machine.execBsetm a b s
  | .bsetmDevice a b => Sys2Proof.Machine.execBsetmDevice a b s
  | .bsetmRoot a b => Sys2Proof.Machine.execBsetmRoot a b s
  | .cpyc x c g a b => Sys2Proof.Machine.execCpyc x c g a b s
  | .cpy a b => Sys2Proof.Machine.execCpy a b s
  | .gath a b => Sys2Proof.Machine.execGath a b s
  | .scat a b => Sys2Proof.Machine.execScat a b s
  | .mcast a b => Sys2Proof.Machine.execMcast a b s
  | .sclp a b => Sys2Proof.Machine.execSclp a b s
  | .gqry a b => Sys2Proof.Machine.execGqry a b s
  | .gcncl a b => Sys2Proof.Machine.execGcncl a b s
  | .expb d a b => Sys2Proof.Machine.execExpb d a b s
  | .expbG d a b => Sys2Proof.Machine.execExpbG d a b s
  | .expn d a => Sys2Proof.Machine.execExpn d a s
  | .segr d a => Sys2Proof.Machine.execSegr d a s
  | .xsave a n sv => Sys2Proof.Machine.execXsave a n sv s
  | .xrst a n sv => Sys2Proof.Machine.execXrst a n sv s
  | .vsort d a => Sys2Proof.Machine.execVsort d a s
  | .vtopk d a b => Sys2Proof.Machine.execVtopk d a b s
  | .tkmrg d a b => Sys2Proof.Machine.execTkmrg d a b s
  | .ctopk d a b => Sys2Proof.Machine.execCtopk d a b s
  | .hins d a b => Sys2Proof.Machine.execHins d a b s
  | .hacc d a b => Sys2Proof.Machine.execHacc d a b s
  | .hfind d a b => Sys2Proof.Machine.execHfind d a b s
  | .hinit a b => Sys2Proof.Machine.execHinit a b s
  | .talloc d a b => Sys2Proof.Machine.execTalloc d a b s
  | .tfree a => Sys2Proof.Machine.execTfree a s
  | .mloop a => Sys2Proof.Machine.execMloop a s
  | .mdrain z sv a b => Sys2Proof.Machine.execMdrain z sv a b s
  | .mzero a => Sys2Proof.Machine.execMzero a s
  | .tacc d a b => Sys2Proof.Machine.execTacc d a b s
  | .evset a => Sys2Proof.Machine.execEvset a s
  | .evclr a => Sys2Proof.Machine.execEvclr a s
  | .evwait a => Sys2Proof.Machine.execEvwait a s
  | .evwaitClear a => Sys2Proof.Machine.execEvwaitClear a s
  | .mpt a => Sys2Proof.Machine.execMpt a s
  | .msave a b => Sys2Proof.Machine.execMsave a b s
  | .mrestore a b => Sys2Proof.Machine.execMrestore a b s
  | .rinv a b => Sys2Proof.Machine.execRinv a b s
  | .rinvh a b => Sys2Proof.Machine.execRinvh a b s
  | .rwait d a => Sys2Proof.Machine.execRwait d a s
  | .rpoll d a => Sys2Proof.Machine.execRpoll d a s
  | .rget a b => Sys2Proof.Machine.execRget a b s
  | .rgetBarn a b => Sys2Proof.Machine.execRgetBarn a b s
  | .rdrop a => Sys2Proof.Machine.execRdrop a s
  | .rbind a b => Sys2Proof.Machine.execRbind a b s
  | .rput a b => Sys2Proof.Machine.execRput a b s
  | .rfail a b => Sys2Proof.Machine.execRfail a b s
  | .tcarm a b => Sys2Proof.Machine.execTcarm a b s
  | .tcadd a b => Sys2Proof.Machine.execTcadd a b s
  | .trap c => Sys2Proof.Machine.execTrap c s
  | .tvec l a b => Sys2Proof.Machine.execTvec l a b s
  | .tret => Sys2Proof.Machine.execTret s
  | .tretSkip => Sys2Proof.Machine.execTretSkip s
  | .tdone a => Sys2Proof.Machine.execTdone a s
  | .sysrd n a => Sys2Proof.Machine.execSysrd n a s
  | .syswr n a => Sys2Proof.Machine.execSyswr n a s
  | .tlbip a b => Sys2Proof.Machine.execTlbip a b s
  | .tlbia a => Sys2Proof.Machine.execTlbia a s
  | .tlball => Sys2Proof.Machine.execTlball s
  | .fwcall a b => Sys2Proof.Machine.execFwcall a b s
  | .regangMerge gang pc => Sys2Proof.Machine.execRegangMerge gang pc s
  | .gangEnd gang => Sys2Proof.Machine.execGangEnd gang s
  | .regrowGrant core lg => Sys2Proof.Machine.execRegrowGrant core lg s
  | .regrowTimeout gang => Sys2Proof.Machine.execRegrowTimeout gang s
  | .promotionEvaluation core lg => Sys2Proof.Machine.execPromotionEvaluation core lg s
  | .demotion core lg => Sys2Proof.Machine.execDemotion core lg s
  | .earlyLoadReread gang early => Sys2Proof.Machine.execEarlyLoadReread gang early s
  | .branchMispredict gang => Sys2Proof.Machine.execBranchMispredict gang s
  | .memoryOperationComplete gang id => Sys2Proof.Machine.execMemoryOperationComplete gang id s
  | .releaseComplete gang id => Sys2Proof.Machine.execReleaseComplete gang id s
  | .mwaitTimeout gang => Sys2Proof.Machine.execMwaitTimeout gang s
  | .reuseClockAdvance wid => Sys2Proof.Machine.execReuseClockAdvance wid s
  | .gtAdvance => Sys2Proof.Machine.execGtAdvance s
  | .pageWalk core pasid va access => Sys2Proof.Machine.execPageWalk core pasid va access s
  | .heatSweep => Sys2Proof.Machine.execHeatSweep s
  | .tlbInvalidationComplete gang id => Sys2Proof.Machine.execTlbInvalidationComplete gang id s
  | .teardownComplete pasid => Sys2Proof.Machine.execTeardownComplete pasid s
  | .namedGroupNodeArrival part gid node => Sys2Proof.Machine.execNamedGroupNodeArrival part gid node s
  | .namedGroupCompletion part gid => Sys2Proof.Machine.execNamedGroupCompletion part gid s
  | .gleanerCommandStart core => Sys2Proof.Machine.execGleanerCommandStart core s
  | .copyUnit core ticket => Sys2Proof.Machine.execCopyUnit core ticket s
  | .gatherRow core ticket row => Sys2Proof.Machine.execGatherRow core ticket row s
  | .multicastAck core ticket receiver => Sys2Proof.Machine.execMulticastAck core ticket receiver s
  | .scalePlacement core ticket => Sys2Proof.Machine.execScalePlacement core ticket s
  | .gleanerCommandCompletion core ticket => Sys2Proof.Machine.execGleanerCommandCompletion core ticket s
  | .mloopEntryStart cluster slot => Sys2Proof.Machine.execMloopEntryStart cluster slot s
  | .thresherPassGrant cluster => Sys2Proof.Machine.execThresherPassGrant cluster s
  | .thresherPassEnd cluster => Sys2Proof.Machine.execThresherPassEnd cluster s
  | .tilePortStart cluster => Sys2Proof.Machine.execTilePortStart cluster s
  | .tileOperationComplete cluster => Sys2Proof.Machine.execTileOperationComplete cluster s
  | .invocationArrival msg => Sys2Proof.Machine.execInvocationArrival msg s
  | .dependentMessageAtHome msg => Sys2Proof.Machine.execDependentMessageAtHome msg s
  | .bindReport msg => Sys2Proof.Machine.execBindReport msg s
  | .resultPosted msg => Sys2Proof.Machine.execResultPosted msg s
  | .rgetResultArrival msg => Sys2Proof.Machine.execRgetResultArrival msg s
  | .invocationFabricTimeout msg => Sys2Proof.Machine.execInvocationFabricTimeout msg s
  | .tcaddArrival msg => Sys2Proof.Machine.execTcaddArrival msg s
  | .pendingFireCopy cell => Sys2Proof.Machine.execPendingFireCopy cell s
  | .preemptGraceExpiry wid => Sys2Proof.Machine.execPreemptGraceExpiry wid s
  | .preemptionSave wid => Sys2Proof.Machine.execPreemptionSave wid s
  | .workgroupRestore wid core => Sys2Proof.Machine.execWorkgroupRestore wid core s
  | .fwcallReply gang => Sys2Proof.Machine.execFwcallReply gang s
  | .plaquelTranslation launch => Sys2Proof.Machine.execPlaquelTranslation launch s
  | .doorbellWrite queue => Sys2Proof.Machine.execDoorbellWrite queue s
  | .queuePoll => Sys2Proof.Machine.execQueuePoll s
  | .launchPacket queue => Sys2Proof.Machine.execLaunchPacket queue s
  | .waitAndPacket queue => Sys2Proof.Machine.execWaitAndPacket queue s
  | .waitAndPoll queue pkt => Sys2Proof.Machine.execWaitAndPoll queue pkt s
  | .waitAndTimeout queue pkt => Sys2Proof.Machine.execWaitAndTimeout queue pkt s
  | .triggerArmPacket queue => Sys2Proof.Machine.execTriggerArmPacket queue s
  | .copyPacket queue => Sys2Proof.Machine.execCopyPacket queue s
  | .signalPacket queue => Sys2Proof.Machine.execSignalPacket queue s
  | .partitionConfigure queue => Sys2Proof.Machine.execPartitionConfigure queue s
  | .partitionRemove queue => Sys2Proof.Machine.execPartitionRemove queue s
  | .partitionQueueDescriptor queue => Sys2Proof.Machine.execPartitionQueueDescriptor queue s
  | .partitionTeardown queue => Sys2Proof.Machine.execPartitionTeardown queue s
  | .partitionFlush queue => Sys2Proof.Machine.execPartitionFlush queue s
  | .dispatch die => Sys2Proof.Machine.execDispatch die s
  | .workgroupAdmission launch cores => Sys2Proof.Machine.execWorkgroupAdmission launch cores s
  | .headAgeing die queue => Sys2Proof.Machine.execHeadAgeing die queue s
  | .workgroupRetirement wid => Sys2Proof.Machine.execWorkgroupRetirement wid s
  | .wgPreemptWrite value => Sys2Proof.Machine.execWgPreemptWrite value s
  | .tfqReplyRetry die entry => Sys2Proof.Machine.execTfqReplyRetry die entry s
  | .tfqReplyDeliver die entry => Sys2Proof.Machine.execTfqReplyDeliver die entry s
  | .tfqReplyFail die entry fcause => Sys2Proof.Machine.execTfqReplyFail die entry fcause s
  | .tfqHeadWrite die value => Sys2Proof.Machine.execTfqHeadWrite die value s
  | .registerWrite window die number value => Sys2Proof.Machine.execRegisterWrite window die number value s
  | .policyCommit part => Sys2Proof.Machine.execPolicyCommit part s
  | .hostBar0Access write addr size data => Sys2Proof.Machine.execHostBar0Access write addr size data s
  | .attestationRequest nonce key => Sys2Proof.Machine.execAttestationRequest nonce key s
  | .dvfsReq value => Sys2Proof.Machine.execDvfsReq value s
  | .clockSwitchEnd => Sys2Proof.Machine.execClockSwitchEnd s
  | .voltageSlewEnd => Sys2Proof.Machine.execVoltageSlewEnd s
  | .thermalThrottle die temp => Sys2Proof.Machine.execThermalThrottle die temp s
  | .throttleEnd => Sys2Proof.Machine.execThrottleEnd s
  | .thermalShutdown die temp => Sys2Proof.Machine.execThermalShutdown die temp s
  | .powerCapStep average => Sys2Proof.Machine.execPowerCapStep average s
  | .telemetrySample power inlet hot => Sys2Proof.Machine.execTelemetrySample power inlet hot s
  | .patrolScrub line verdict => Sys2Proof.Machine.execPatrolScrub line verdict s
  | .rowActivationRefresh row => Sys2Proof.Machine.execRowActivationRefresh row s
  | .meshFlitError header die pasid found => Sys2Proof.Machine.execMeshFlitError header die pasid found s
  | .lumenMessageReceive link crcOk header payload => Sys2Proof.Machine.execLumenMessageReceive link crcOk header payload s
  | .heldMessageRelease link => Sys2Proof.Machine.execHeldMessageRelease link s
  | .linkRecalibration link far => Sys2Proof.Machine.execLinkRecalibration link far s
  | .inboundAccess src spart pasid kind addr size data => Sys2Proof.Machine.execInboundAccess src spart pasid kind addr size data s
  | .inboundTimeout id => Sys2Proof.Machine.execInboundTimeout id s
  | .initiatorTimeout msg => Sys2Proof.Machine.execInitiatorTimeout msg s
  | .deviceReset pins bridge => Sys2Proof.Machine.execDeviceReset pins bridge s
  | .illegalInstruction word => Sys2Proof.Machine.execIllegalInstruction word s
  | .pageRequestReply die entry resolved => Sys2Proof.Machine.execPageRequestReply die entry resolved s

end Sys2Proof.Machine
end

