-- ==== Sys2Proof/Machine/Schedule.lean ====
section
/-! DEFINITION. Which gang issues, and its fetch: the fetch slot of a gang (03 R68), the ready conditions of blocked
groups, the lane group's slot and the herd's ring (04 R97 to R99), instruction fetch (09 R246), and the order of the
device's own turns (log entry 3, DESIGN CHOICE). -/

namespace Sys2Proof.Machine

/-! ### The PC-group that issues next (03 R68, 04 R111) -/

/-- The oldest entry of a sprinter window is a PC-group's that is ready: its number, and the fetch slot's count (04 R111). -/
def State.windowGroup (s : State) (key : Nat) : Option (Nat × Nat) :=
  let f := (s.gangAt key).flow
  ((s.headGroup key).filter (s.groupReady key)).map (fun k => (k, if k = f.served then f.count else 0))

/-- The PC-group that issues next, and the fetch slot's count: that of the fetch slot (03 R68); but a gang with a reorder
window issues its oldest entry, and one that must replay an instruction serves that instruction's group first. -/
def State.pickGroup (s : State) (key : Nat) : Option (Nat × Nat) :=
  let g := s.gangAt key
  if (s.windowGroup key).isSome then s.windowGroup key
  else if g.trap.replay = some (g.pc g.trap.unfinishedOf) ∧ s.groupReady key g.trap.unfinishedOf then some (g.trap.unfinishedOf, g.flow.count)
  else s.nextGroup key

/-- A seat's holder has something to issue: its demotion has not begun, and the oldest entry of its window has not dispatched
and only to retire (04 R97, R108, R113). -/
def Seat.issues (x : Seat) : Bool := !x.demoting && !x.window.head?.any (fun e => e.loaded.isSome)

/-- A gang may issue (04 R97), but for what only the issue itself finds: operands that are not ready, and the stalls of its
instruction (see State.afterIssue). -/
def State.gangReady (s : State) (key : Nat) : Bool :=
  let g := s.gangAt key
  g.live && !g.trap.parked && !g.trap.taken && (s.pickGroup key).isSome && ((s.seatOf key).all Seat.issues)

/-! ### The lane group's slot (04 R98, R99) -/

/-- The first ready gang of the ring after the pointer, wrapping once; the seat's holder is skipped. Where no gang has issued
yet, or the pointer's gang has left the ring, the search starts at the oldest gang (log entry 97, DESIGN CHOICE). -/
def State.herdNext (s : State) (core lg : Nat) : Option Nat :=
  let c := s.coreAt core
  let ring := mapGet [] c.ring lg
  let holder := (mapGet Seat.empty c.seats lg).holder
  let i := (ring.findIdx? (fun k => decide (some k = mapFind lg c.herdPtr))).map (· + 1)
  let order := ring.drop (i.getD 0) ++ ring.take (i.getD 0)
  order.find? (fun k => decide (some k ≠ holder) && s.gangReady k)

/-- Issue cycles of the instruction that a gang issues next: one for each MODE value of its PC-group (03 R88). -/
def State.issueCycles (s : State) (key : Nat) : Nat :=
  let g := s.gangAt key
  match s.pickGroup key with
  | none => 1
  | some (k, _) => (((List.range 8).filter (fun j => !g.exitedAt j && decide (g.grp j = k))).map g.mode).eraseDups.length

/-- SprinterRun of a lane group. It is a count of 2 bits; past 3 it stays at 3 (04 R98) (log entry 97, DESIGN CHOICE). -/
def State.setRun (s : State) (core lg n : Nat) : State :=
  s.updCore core (fun c => { c with sprinterRun := mapSet 0 c.sprinterRun lg (min 3 n) })

/-- The gang that takes the slot of a lane group, and the slot's counters after it (04 R98): each issue cycle counts as one
slot of its engine. -/
def State.takeSlot (s : State) (core lg : Nat) : Option (State × Nat) :=
  let c := s.coreAt core
  let run := mapGet 0 c.sprinterRun lg
  let toSeat := fun h => some (s.setRun core lg (run + s.issueCycles h), h)
  let herd := s.herdNext core lg
  let toHerd := fun k => some (s.updCore core (fun c => { c with
    herdPtr := mapPut lg k c.herdPtr
    sprinterRun := mapSet 0 c.sprinterRun lg 0 }), k)
  match (mapGet Seat.empty c.seats lg).holder with
  | some h =>
    if s.gangReady h then
      match herd with
      | some k => if run = 3 then toHerd k else toSeat h
      | none => toSeat h
    else match herd with
      | some k => toHerd k
      | none => none
  | none => match herd with
    | some k => toHerd k
    | none => none

/-- An idle slot (04 R98). -/
def State.idleSlot (s : State) (core lg : Nat) : State := s.setRun core lg 0

/-- The fetch slot of a gang serves the PC-group of slice k: its block is gone, but for its place among the waiters on an
event bit (14 R347), and it counts one instruction (03 R68). -/
def Gang.issueFrom (g : Gang) (k n : Nat) : Gang :=
  let keep := match mapFind k g.flow.blocks with
    | some (.eventClear _) => true
    | _ => false
  { g with flow := { g.flow with
    served := k
    count := n + 1
    blocks := if keep then g.flow.blocks else mapDrop k g.flow.blocks } }

/-- The gang in focus issues from the PC-group that its fetch slot serves; barw marks that it leaves behind are dropped
(10 R263). -/
def State.focus (s : State) (key : Nat) : State :=
  match s.pickGroup key with
  | none => { s with cur := key }
  | some (k, n) => ({ s with cur := key }.updGangAt key (fun g => g.issueFrom k n)).dropMarks

/-- The block of an instruction that has issued nothing: it waits for an operand or a stall of 03 R68, and issues when that is
over. The others wait for the end of what their instruction has begun. -/
def Block.unissued : Block → Bool
  | .collective => false
  | .cancel _ _ => false
  | .formation => false
  | .invalidation _ => false
  | .firmware _ => false
  | _ => true

/-- The core is a reeve core. -/
def State.isReeve (s : State) (core : Nat) : Bool := decide (core = s.reeveCore (core / 60))

/-- A lane group of a core has used `n` issue slots (19 R458). -/
def State.countIssued (s : State) (core n : Nat) : State :=
  if s.isReeve core then s
  else
    let c := clusterOfCore core
    let x := mapGet Slots.none s.slots c
    { s with slots := mapPut c { x with issued := x.issued + n } s.slots }

/-- After the chosen gang's turn, from the state `s` before it. A gang whose instruction could not issue was not ready: it has
taken no slot, and its fetch slot has counted nothing (04 R97, 03 R68). The instruction that a seat's holder has issued
retires; a fault at it leaves nothing younger in the window (04 R115). -/
def State.afterIssue (s : State) (core key : Nat) (t : State) : State :=
  let g := t.gangAt key
  let counted := fun (t : State) => t.countIssued core (s.issueCycles key)
  match mapFind g.flow.served g.flow.blocks with
  | some b =>
    if b.unissued then
      (t.updGangAt key (fun g => { g with flow := { g.flow with count := g.flow.count - 1 } })).updCore core (fun c => { c with
        herdPtr := (s.coreAt core).herdPtr
        sprinterRun := (s.coreAt core).sprinterRun })
    else counted (t.retireHead key)
  | none => counted (if g.trap.parked then t.squashAll key else t.retireHead key)

/-! ### Fetch (09 R246, R237) -/

/-- What a fetch finds: the word, or the outcome that replaces its issue. -/
inductive Fetched where
  | word (s : State) (w : Word)
  | instead (s : State)

/-- Fetch the word at the PC being issued, with execute permission. A translation fault parks the gang at the word (09 R246).
A word of another device comes with its line into the L1, and its PC-group waits for it. A place that is refused or
poisoned is reported as a remote access fault, whose record has no word, since none was fetched (log entry 16, DEDUCED). -/
def State.fetch (s : State) : Fetched :=
  let g := s.gang
  let w := s.wg
  match s.xlate w.part g.core w.pasid g.pcNow.toNat .fetch with
  | .error c =>
    .instead (s.park 3 c .fetch g.pcNow.toNat 0xFFFFFFFF
      (if g.replaying then g.trap.unfinished else 0))
  | .ok (s, x) =>
    match s.reach w.part 1 x with
    | .here a _ =>
      let word := BitVec.ofNat 32 (s.readHome a 4)
      .word { s with ir := word } word
    | .away pa page =>
      if s.l1Holds g.core (farLine pa) (pa % 128) 4 then
        let word := BitVec.ofNat 32 (s.l1Hit g.core 0 (farLine pa) (pa % 128) 4 0).2
        .word { s with ir := word } word
      else
        match State.fetchFar { s with ir := 0 } 0xFFFFFFFF 61 pa page with
        | .next t => .instead t
        | _ => .instead s
    | .refused o pa => .instead (({ s with ir := 0 }.alarm o pa w.part 0 w.pasid 0).takeTrap (s.remoteFault 0xFFFFFFFF s.devid 1 pa))
    | .bad a => .instead ({ s with ir := 0, alarms := s.alarms ++ [(1, w.pasid, w.part)] }.takeTrap (s.remoteFault 0xFFFFFFFF s.devid 0 a))

/-! ### Turns of the device itself (log entry 3, DESIGN CHOICE) -/

/-- The first element a partial function accepts. -/
def firstSome {α β : Type} (f : α → Option β) : List α → Option β
  | [] => none
  | x :: xs => match f x with
    | some y => some y
    | none => firstSome f xs

/-- What of a gang performs at a later turn and may perform now (08 R219, R229; 07 R180). -/
def State.lateEvent (s : State) (k : Nat) : Option Res :=
  let g := s.gangAt k
  (g.late.find? (s.lateReady g)).map (fun o => match o.kind with
    | .release _ _ => execReleaseComplete k o.id s
    | _ => execMemoryOperationComplete k o.id s)

/-- An event of a gang that is due: a completion, what performs late, a merge, the gang's end (02 R52, 03 R77, R79). -/
def State.gangEvent (s : State) (k : Nat) : Option Res :=
  let g := s.gangAt k
  match g.out.find? (fun o => o.perf && !o.done) with
  | some o => some (execMemoryOperationComplete k o.id s)
  | none => if (s.lateEvent k).isSome then s.lateEvent k else
    match (List.range 8).find? (fun j => !g.exitedAt j && g.flow.waiting.getLsbD j && g.mergesAt (g.pc j)) with
    | some j => some (execRegangMerge k (g.pc j) s)
    | none => if g.finished then some (execGangEnd k s) else none

/-- The end of the voltage slew of a step in progress (19 R452). -/
def State.powerEvent (s : State) : Option Res :=
  if s.power.phase = 1 || s.power.phase = 4 then some (execVoltageSlewEnd s)
  else none

/-- The next event of a workgroup: a deadlock, a collective or a formation that is complete, its save, a tick of its
reuse clock, its retirement (10 R272, 11 R282, 12 R304, 16 R400, 07 R190, 17 R430). -/
def State.wgEvent (s : State) (wid : Nat) : Option Res :=
  let w := s.wgAt wid
  let fs := w.forming.filter (fun f => (s.gangAt (gangKey wid f.gang)).atFormation)
  if !w.live then none
  else if (s.gangsOf wid).isEmpty && !s.lateLeft wid && (s.flushing (coreOfWid wid)).isEmpty then some (execWorkgroupRetirement wid s)
  else if w.posted.isSome && s.readyToSave wid && (s.flushing (coreOfWid wid)).isEmpty then some (execPreemptionSave wid s)
  else if s.barDeadlock wid then some (.next (s.trapDeadlock wid))
  else if s.assembled wid && ((w.rejectCollective (s.contributions wid)).isSome ||
      decide ((s.coreAt (coreOfWid wid)).gleaner.length < 16)) then some (.next (s.tryCollective wid))
  else if fs.any (s.formationLost wid) || fs.any (s.formationReady wid) then some (.next (s.tryFormation wid))
  else if 65536 ≤ w.mcount then some (execReuseClockAdvance wid s)
  else none

/-- The next event of a core: of a sprinter seat, a register growth, its Gleaner (04 R106 to R113, 03 R92, R93, 11 R275). -/
def State.coreEvent (s : State) (core : Nat) : Option Res :=
  match (List.range 4).find? (fun lg => (s.seatEvent core lg).isSome) with
  | some lg => s.seatEvent core lg
  | none => match (List.range 4).find? (fun lg => (s.grantable core lg).isSome) with
    | some lg => some (execRegrowGrant core lg s)
    | none => match s.regrowDeadlock core with
      | some k => some (execRegrowTimeout k s)
      | none => s.gleanerEvent core

/-- The next event of a named group: a node's arrival, the completion (10 R267). -/
def State.groupEvent (s : State) (k : Nat) : Option Res :=
  let part := k / 1024
  let gid := k % 1024
  let level := ngLevel (s.ngEntry part gid)
  match (s.groupAt k).nodes.find? (fun n => n.2.full && !n.2.passed &&
      ((decide (16 ≤ n.1) && decide (n.1 < 24) && decide (2 ≤ level)) || (decide (n.1 = 1) && decide (level = 3)))) with
  | some n => some (execNamedGroupNodeArrival part gid n.1 s)
  | none => if s.groupDone part gid then some (execNamedGroupCompletion part gid s) else none

/-- A trigger cell's held fire that its queue has room for (15 R381). -/
def State.cellEvent (s : State) (k : Nat) : Option Res :=
  if (s.cellAt k).pend ≠ 0 && (s.copyFire k).2 then some (execPendingFireCopy k s) else none

/-- The start of the packet at a queue's head, when it may start; a head that is not a good packet goes by (17 R415, R418). -/
def State.headEvent (s : State) (k : Nat) : Option Res :=
  let q := s.queueAt k
  match (s.head k).2 with
  | .empty => none
  | .stall _ => some (execDoorbellWrite k s)
  | .bad => if s.mayStart q 0 then some (execDoorbellWrite k s) else none
  | .pkt _ b =>
    if !s.mayStart q (pktHeader b) then none
    else if s.packetCause k b ≠ 0 then some (execDoorbellWrite k s)
    else match pktHeader b % 256 with
      | 1 => some (execLaunchPacket k s)
      | 2 => some (execWaitAndPacket k s)
      | 3 => some (execTriggerArmPacket k s)
      | 4 => some (execCopyPacket k s)
      | 5 => some (execSignalPacket k s)
      | _ => match fieldNum (scanFields b.length (b.drop 8)).1 0x60 0 4 with
        | 1 => some (execPartitionConfigure k s)
        | 2 => some (execPartitionRemove k s)
        | 3 => some (execPartitionQueueDescriptor k s)
        | 4 => some (execPartitionTeardown k s)
        | _ => some (execPartitionFlush k s)

/-- A WAIT-AND whose next reading changes it: it finds other conditions to hold than the last, all of them, or a location that
cannot be read. One that waits for a fault to be resolved is read at the next poll (17 R412, R420). -/
def State.waitMoves (s : State) (p : Packet) : Bool :=
  decide (p.type = 2) && !p.held && (match (State.condMask p p.conditions 0 s).2 with
    | .error _ => true
    | .ok m => decide (m ≠ p.ref) || decide (m = 2 ^ p.conditions.length - 1))

/-- The next event of a queue: a new doorbell value, a WAIT-AND that moves, its head (17 R412, R418, R420). A WAIT-AND that
runs is read on where the queue's descriptor has been taken back or its head waits (R413). -/
def State.queueEvent (s : State) (k : Nat) : Option Res :=
  let q := s.queueAt k
  let bell := (s.readDoorbell k).2
  if q.up k && bell.isSome && decide (bell ≠ some q.wr) then some (execDoorbellWrite k s)
  else match q.running.find? s.waitMoves with
    | some p => some (execWaitAndPoll k p.id s)
    | none => if q.up k && !q.stalled then s.headEvent k else none

/-- The next event of a launch: its translation, its ageing by passes or for a reservation that is free (02 R64, 17 R429). -/
def State.launchEvent (s : State) (l : Launch) : Option Res :=
  let age := (List.range 8).find? (fun d => s.isHead l && l.failedOnce && s.onDie l d &&
    ((!l.aged && decide (16 ≤ l.passes)) || (l.aged && bit l.flags 1 && !l.whole && (s.dieAt d).reserved.isNone &&
      !s.hasReservation l && (s.reserveRect l d).isSome)))
  if l.code.isNone && l.doom.isNone then some (execPlaquelTranslation l.id s)
  else age.map (fun d => execHeadAgeing d l.queue s)

/-- The next choice of the dispatchers, or its admission, once the ways that it takes back are free (17 R426, R427; 07 R195). -/
def State.dispatchEvent (s : State) : Option Res :=
  match s.admission with
  | some (l, cs, _) => if s.reclaimPending cs then none else some (execWorkgroupAdmission l cs s)
  | none => ((List.range 8).find? (fun d => !(s.newlyFailed d).isEmpty || !(s.candidates d).isEmpty)).map (fun d => execDispatch d s)

/-- The firmware's answer to an open translation fault: it resolves a mirror write itself, and answers a fault of a PASID that
takes its faults itself (09 R244) (log entry 46, DEDUCED). -/
def State.faultEvent (s : State) (die : Nat) : Option Res :=
  let mirror := fun (a : TfqAgent) => decide ((a.bytes.getD 1 0).toNat = 3)
  match (s.dieAt die).opened.find? (fun a => mirror a && a.mirror.isNone) with
  | some a => some (.next (s.startMirror die a))
  | none => ((s.dieAt die).opened.find? (fun a => s.direct a && !mirror a && decide (a.kind < 4))).map (fun a => s.unresolved die a)

/-- The next step of the firmware for a mirror page (09 R248, R249). -/
def State.mirrorEvent (s : State) : Option Res := (s.mirrors.find? s.mirrorDue).map (fun j => .next (s.mirrorStep j))

/-- Events of the fabric and of the firmware: messages, inbound accesses, held messages, invalidations, firmware calls and
teardowns (15 R369; 09 R250 to R253; 18 R436; 16 R408). -/
def State.fabricEvent (s : State) : Option Res :=
  match firstSome s.msgEvent s.msgs with
  | some r => some r
  | none => match s.inbound with
    | x :: _ => some (execInboundAccess x.src x.spart x.pasid x.kind x.addr x.size x.data s)
    | [] => match s.links.find? (fun l => l.2.draining && !s.outstanding l.1) with
      | some l => some (execHeldMessageRelease l.1 s)
      | none => match s.invals.find? s.invalDone with
        | some v => some (execTlbInvalidationComplete v.gang v.id s)
        | none => match s.fwcalls with
          | c :: _ => some (execFwcallReply c.gang s)
          | [] => (s.teardowns.find? (fun t => !s.oldRequests t)).map (fun t => execTeardownComplete t.pasid s)

/-- What the firmware has under way that can go on: the end of a partition or PASID, the load of a policy record
(17 R421; 09 R252; 18 R442). -/
def State.firmwareEvent (s : State) : Option Res :=
  match s.endings.find? s.endingReady with
  | some e => some (.next (s.finishEnding e))
  | none => s.commits.head?.map (fun p => execPolicyCommit p s)

/-- The device's own event that is due first: none of them changes nothing. -/
def State.dueEvent (s : State) : Option Res :=
  if !s.alarms.isEmpty then some (.next s.carryAlarms)
  else firstSome (fun (f : State → Option Res) => f s) [
    State.powerEvent,
    fun s => firstSome s.gangEvent s.liveGangs,
    fun s => firstSome s.lateEvent ((s.gangs.filter (fun e => !e.2.live && !e.2.late.isEmpty)).map (·.1)),
    fun s => firstSome s.wgEvent (s.wgs.map (·.1)),
    fun s => firstSome s.coreEvent (s.cores.map (·.1)),
    fun s => firstSome s.thresherEvent (s.clusters.map (·.1)),
    fun s => firstSome s.groupEvent (s.groups.map (·.1)),
    State.fabricEvent,
    State.firmwareEvent,
    fun s => firstSome s.faultEvent (s.dies.map (·.1)),
    State.mirrorEvent,
    fun s => firstSome s.cellEvent (s.cells.map (·.1)),
    fun s => firstSome s.launchEvent s.launches,
    State.dispatchEvent,
    fun s => firstSome s.queueEvent ((mgmtQueue :: s.queues.map (·.1)).eraseDups)]

/-- A round of turns: the slot of every lane group with a ready gang, then the evaluation of its seat (04 R97, R106). -/
def State.round (s : State) : List Turn :=
  (s.cores.map (fun c => (List.range 4).filterMap (fun lg =>
    if (s.takeSlot c.1 lg).isSome then some [Turn.issue c.1 lg, Turn.event (.promotionEvaluation c.1 lg)] else none))).flatten.flatten

/-! ### When nothing is due -/

/-- A gang that waits at a watch, or whose register growth is blocked, reaches its time limit (07 R186, 03 R93). -/
def State.gangLimit (s : State) (k : Nat) : Option Res :=
  let g := s.gangAt k
  if g.flow.blocks.any (fun b => decide (b.2 = .watch)) then some (execMwaitTimeout k s)
  else if g.regrowBlock.isSome then some (execRegrowTimeout k s)
  else none

/-- A WAIT-AND with a time limit reaches it (17 R420) (log entry 44, DESIGN CHOICE). -/
def State.queueLimit (s : State) (k : Nat) : Option Res :=
  ((s.queueAt k).running.find? (fun p => decide (p.type = 2) &&
    decide (fieldNum (scanFields p.bytes.length (p.bytes.drop 8)).1 0x21 0 4 ≠ 0))).map (fun p => execWaitAndTimeout k p.id s)

/-- A waiting head has waited 2 ms (17 R429). -/
def State.launchLimit (s : State) (l : Launch) : Option Res :=
  if l.aged || !s.isHead l || !l.failedOnce then none
  else ((List.range 8).find? (s.onDie l)).map (fun d => execHeadAgeing d l.queue s)

/-- A saved workgroup is restored on the lowest core that takes it (16 R403) (log entry 45, DEDUCED). -/
def State.savedLimit (s : State) (v : Saved) : Option Res :=
  ((s.workCores v.part).find? (fun c => s.restorable v c && (s.flushing c).isEmpty)).map (fun c => execWorkgroupRestore v.wid c s)

/-- A request to another device that has no answer runs into its limit (09 R253, 15 R378). -/
def State.farLimit (s : State) : Option Res :=
  (s.msgs.find? (fun m => decide (m.src = s.devid) && decide (m.dst ≠ s.devid) && (m.kind.isAccess ||
    ((decide (m.kind = .invoke) || decide (m.kind = .dependent) || decide (m.kind = .forward)) &&
      (s.current m.handle).any (fun k => !(s.slotAt k).accepted))))).map
    (fun m => if m.kind.isAccess then execInitiatorTimeout m.id s else execInvocationFabricTimeout m.id s)

/-- The evaluation of a seat that would change it: promote, demote, or age a holder without strength (04 R106). -/
def State.seatLimit (s : State) (core : Nat) : Option Res :=
  ((List.range 4).find? (fun lg =>
    let x := s.seatAt core lg
    let best := (s.bestCandidate core lg).filter (fun k => decide (some k ≠ x.holder))
    match x.holder with
    | some h => !x.demoting && ((s.strength h).isNone || !bit (s.sprintCtl h) 0 ||
        best.any (fun b => decide ((s.strength h).getD 0 < (s.strength b).getD 0)))
    | none => best.isSome && decide (16 ≤ s.freeRows core lg) && (s.requests core lg).isEmpty)).map
    (fun lg => execPromotionEvaluation core lg s)

/-- The front end's next poll, when a queue, a packet that runs or a write of it waits for one (17 R412). -/
def State.pollLimit (s : State) : Option Res :=
  if s.queues.any (fun q => q.2.stalled || q.2.running.any (·.held)) || !s.frontWrites.isEmpty then some (execQueuePoll s) else none

/-- What waits only for time to pass (log entry 3, DESIGN CHOICE). -/
def State.limitEvent (s : State) : Option Res :=
  firstSome (fun (f : State → Option Res) => f s) [
    fun s => firstSome s.seatLimit (s.cores.map (·.1)),
    fun s => firstSome s.gangLimit s.liveGangs,
    fun s => (s.wgs.find? (fun w => w.2.posted.isSome && (s.gangsOf w.1).any (fun k => !(s.gangAt k).trap.taken))).map
      (fun w => execPreemptGraceExpiry w.1 s),
    fun s => firstSome s.queueLimit (s.queues.map (·.1)),
    fun s => firstSome s.launchLimit s.launches,
    fun s => firstSome s.savedLimit s.saved,
    State.farLimit,
    fun s => s.teardowns.head?.map (fun t => execTeardownComplete t.pasid s),
    State.pollLimit]

/-- Some store queue holds a byte. -/
def State.undrained (s : State) : Bool := s.cores.any (fun c => !c.2.squeue.isEmpty)

/-- With nothing due: the store queues drain (08 R218); else the first time limit that something waits for passes. -/
def State.idle (s : State) : Res :=
  if s.undrained then .next (s.cores.foldl (fun s c => if c.2.squeue.isEmpty then s else s.drainQueues c.1) s)
  else s.limitEvent.getD (.next s)

/-- The gang that `placeWord` loads: alone in lane group 0 of core 0, every lane and the whole register file its own. -/
def loadedGang : Gang :=
  { Gang.absent with
    live := true
    alloc := 240
    rows := List.range 240
    regs := { Gang.absent.regs with exec := 0xFFFFFFFF }
    flow := { Gang.absent.flow with pc := setPcMap (fun _ => true) (fun _ => 0x10000) 8 [] } }

/-- A loaded instruction: a one-gang workgroup on core 0 under PASID 1 of partition 0, whose code page at virtual and
local address 0x10000 holds the word, is the next to issue (log entry 17, DESIGN CHOICE). -/
def State.placeWord (s : State) (w : Nat) : State :=
  let s := s.writeHomeNum 0x10000 4 w
  let s := s.updPart 0 (fun p => { p with live := true, channels := [0], clusters := [0], natives := [] })
  let s := s.setWgAt 0 { Workgroup.absent with live := true, gangs := 1, pasid := 1 }
  let s := s.setGangAt 0 loadedGang
  let s := s.updCore 0 (fun c => { c with
    tlb := [{ pasid := 1, bits := 16, vpn := 1, base := s.devid * 2 ^ 40 + 0x10000, r := true, w := true, x := true,
              d := true, leafW := true }]
    ring := mapPut 0 [0] c.ring
    seats := mapDrop 0 c.seats })
  { s with
    badLines := s.badLines.filter (fun l => decide (l ≠ 512))
    power := { s.power with shutdown := false, clockStopped := false }
    bootFailed := false
    agenda := [.issue 0 0] }

/-- Lane groups of a cluster's cores, but its reeve core, that hold a resident gang (19 R458). -/
def State.residentGroups (s : State) (cluster : Nat) : Nat :=
  (((List.range 4).filter (fun i => !s.isReeve (4 * cluster + i))).map (fun i =>
    ((s.gangsOnCore (4 * cluster + i)).map (fun k => (s.gangAt k).lg)).eraseDups.length)).sum

/-- `n` cycles of the arithmetic clock pass: what the clusters count for the telemetry goes on (19 R458). -/
def State.countCycles (s : State) (n : Nat) : State :=
  { s with
    windowCycles := s.windowCycles + n
    slots := ((s.clusters.map (·.1)) ++ (s.cores.map (fun e => clusterOfCore e.1))).eraseDups.foldl (fun m c =>
      let x := mapGet Slots.none m c
      mapPut c { x with
        resident := x.resident + n * s.residentGroups c
        busy := x.busy + (if (s.clusterAt c).pass.isSome then n else 0) } m) s.slots }

/-- One step's passage of the arithmetic clock: a free number of cycles (log entry 4, DESIGN CHOICE), none while it is stopped
(19 R452). -/
def State.passTime (s : State) : State :=
  let n := if s.power.clockStopped then 0 else (Config.cycles s.stepNo).toNat
  { s.countCycles n with stepNo := s.stepNo + 1, clock := s.clock + BitVec.ofNat 64 n }

end Sys2Proof.Machine
end

