-- ==== Sys2Proof/Machine/Step.lean ====
section
/-! DEFINITION. One step of the device: the next turn of the agenda, or the device's own next turn (log entry 3, DESIGN CHOICE). -/

namespace Sys2Proof.Machine

/-- The word that the gang in focus issues runs: its decoded instruction, or the illegal-instruction trap (02 R46). -/
def runWord (s : State) (w : Word) : Host.Outcome State Fault Refusal :=
  match decode w with
  | .ok i => exec i s
  | .error _ => execIllegalInstruction w s

/-- The chosen gang fetches and issues one word. A seat's holder has it as the oldest entry of its window (04 R111). -/
def issueGang (s : State) (key : Nat) : Host.Outcome State Fault Refusal :=
  match (s.focus key).fetch with
  | .word s w => runWord (s.enterWindow key w) w
  | .instead s => .next s

/-- The outcome of a turn, its next state changed. -/
def thenNext (r : Host.Outcome State Fault Refusal) (f : State → State) : Host.Outcome State Fault Refusal :=
  match r with
  | .next s => .next (f s)
  | .fault e => .fault e
  | .refused e => .refused e

/-- The slot of a lane group (04 R98): the chosen gang issues, or the slot is idle. -/
def issueSlot (s : State) (core lg : Nat) : Host.Outcome State Fault Refusal :=
  match s.takeSlot core lg with
  | none => .next (s.idleSlot core lg)
  | some (t, key) => thenNext (issueGang t key) (s.afterIssue core key)

/-- The slot of a lane group whose sprinter dispatches an entry of its window, when the slot goes to it (04 R98, R111, R112). -/
def dispatchSlot (s : State) (core lg index : Nat) : State :=
  let run := mapGet 0 (s.coreAt core).sprinterRun lg
  if decide (run = 3) && (s.herdNext core lg).isSome then s
  else match State.dispatchOldest runWord s core lg index with
    | some t => (t.setRun core lg (run + 1)).countIssued core 1
    | none => s

/-- One turn. -/
def runTurn (s : State) : Turn → Host.Outcome State Fault Refusal
  | .event i => exec i s
  | .issue core lg => issueSlot s core lg
  | .issueAt p core lg => thenNext (issueSlot { s with pace := p } core lg) (fun t => { t with pace := .now })
  | .rename core lg group pc => .next (State.rename runWord s core lg group pc)
  | .dispatch core lg index => .next (dispatchSlot s core lg index)
  | .retire core lg => .next ((State.retireEntry runWord s core lg).getD s)
  | .drain core index => .next (s.drainOne core index)
  | .upset cl level word => .next (s.strike cl level word)
  | .mirror id => .next (match s.mirrors.find? (fun j => decide (j.id = id)) with
    | some j => s.mirrorStep j
    | none => s)
  | .migrate frame on => .next { s with migrating := s.migrating.filter (fun f => decide (f ≠ frame)) ++ (if on then [frame] else []) }
  | .window fn off n v => .next (s.windowAccess fn off n v)
  | .sealed fn off n v key tag => .next (s.sealedAccess fn off n v key tag)
  | .flash image signature => .next { s with flash := (image, signature) }

/-- The seat whose oldest entry has its results and retires (04 R111, R117). -/
def retireDue (s : State) : Option State :=
  firstSome (fun c => firstSome (fun lg => State.retireRun runWord s c lg) (List.range 4)) (s.cores.map (·.1))

/-- The step of a device whose agenda is empty: an event that is due, else an entry that retires, else the first turn of a
new round, else what waits for time (log entry 3, DESIGN CHOICE). -/
def ownTurn (s : State) : Host.Outcome State Fault Refusal :=
  match s.dueEvent, retireDue s, s.round with
  | some r, _, _ => r
  | none, some t, _ => .next t
  | none, none, t :: ts => runTurn { s with agenda := ts } t
  | none, none, [] => s.idle

/-- A turn that does not wait while the arithmetic clock is stopped (19 R452): what another clock drives, a limit in µs, and
what the sensors and the board do. -/
def Turn.clockless : Turn → Bool
  | .upset _ _ _ => true
  | .flash _ _ => true
  | .event (.clockSwitchEnd) => true
  | .event (.deviceReset _ _) => true
  | .event (.thermalThrottle _ _) => true
  | .event (.thermalShutdown _ _) => true
  | .event (.patrolScrub _ _) => true
  | .event (.rowActivationRefresh _) => true
  | .event (.linkRecalibration _ _) => true
  | .event (.initiatorTimeout _) => true
  | .event (.inboundTimeout _) => true
  | .event (.invocationFabricTimeout _) => true
  | .event (.waitAndTimeout _ _) => true
  | _ => false

/-- A turn that reaches a device in its boot loader (18 R447): its management window, its flash, a reset. -/
def Turn.reachesLoader : Turn → Bool
  | .window _ _ _ _ => true
  | .sealed _ _ _ _ _ _ => true
  | .flash _ _ => true
  | .event (.deviceReset _ _) => true
  | _ => false

/-- One step. After a thermal shutdown a device reset acts, and the host reads the management window (19 R449); a device whose
image is refused stays in its boot loader (18 R447); while the arithmetic clock is stopped, what waits for it does
(19 R452). -/
def step (s0 : State) : Host.Outcome State Fault Refusal :=
  let s := s0.passTime
  match s.agenda with
  | t :: ts =>
    if s.power.shutdown then
      match t with
      | .event (.deviceReset d b) => exec (.deviceReset d b) { s with agenda := ts }
      | .window fn off n none => .next ({ s with agenda := ts }.windowAccess fn off n none)
      | _ => .fault .heldInReset
    else if s.bootFailed then (if t.reachesLoader then runTurn { s with agenda := ts } t else .next { s with agenda := ts })
    else if s.power.clockStopped && !t.clockless then execClockSwitchEnd s
    else runTurn { s with agenda := ts } t
  | [] =>
    if s.power.shutdown then .fault .heldInReset
    else if s.bootFailed then .next s
    else if s.power.clockStopped then execClockSwitchEnd s
    else ownTurn s

/-- The state in which the very next step fetches and runs the instruction of `nbits` bits whose word is `w`
(log entry 17, DESIGN CHOICE). Every native instruction is one 32-bit word (02 R36). -/
def State.withFetchWord (s : State) (_nbits w : Nat) : State := s.placeWord (w % 2 ^ 32)

end Sys2Proof.Machine
end

