-- ==== Sys2Proof/Safety.lean ====
section
/-! DEFINITION. The terms in which claims are stated: when a word issues, what a register-only instruction may change,
what stays of the rest of the device, and the invariants of a state. -/

namespace Sys2Proof.Machine

/-! ### Invariants -/

/-- The memory is in its canonical form (log entry 10, DESIGN CHOICE). -/
abbrev Memory.wf (m : List Host.Cell) : Bool := memWf m

/-- What every reachable state satisfies: local memory in its canonical form. -/
def State.Inv (s : State) : Prop := Memory.wf s.mem = true

/-! ### When a word issues -/

/-- A word with these operand fields issues in the gang in focus: every code is legal under the MODE of every issuing
slice, every register is allocated, none waits for a value, and no poison mark is read (02 R39 to R43, R46; 04 R97;
08 R231). -/
def State.issues (s : State) (f : OpndsOf) : Bool :=
  !s.gang.illegalFor f && !s.gang.rangeFor f && !s.gang.waitsFor f && (s.gang.poisonFor f).isNone

/-! ### Frames -/

/-- Every field of the device but the gangs is as before, and so is every gang but the one in focus. -/
def State.sameDevice (s t : State) : Prop :=
  t = { s with gangs := t.gangs } ∧ ∀ k, k ≠ s.cur → t.gangAt k = s.gangAt k

/-- The issuing slices stand past the word, every other slice where it stood (03 R67). -/
def State.past (s t : State) : Prop :=
  ∀ k, k < 8 → t.gang.pc k = if s.gang.issuing k then s.gang.pcNow + 4 else s.gang.pc k

/-- Every report is kept; only its marks may go (08 R231). -/
def Gang.sameReports (g h : Gang) : Prop :=
  h.reports.map (fun r => { r with marks := [] }) = g.reports.map (fun r => { r with marks := [] })

/-- The step of an instruction with a vector destination: in the chosen lanes register `d` takes the value, a pair where
the lane is wide, code 0xF0 discards it (02 R41); FPF takes the flags `fl`; the PC moves on; nothing else changes. -/
def State.vecStep (s t : State) (d : Code) (wide lanes : Nat → Bool) (x : Nat → DWord) (fl : Nat) : Prop :=
  (∀ r l, l < 32 → t.gang.v r l =
    if d ≠ 0xF0 ∧ lanes l = true ∧ wide l = true ∧ r = d.toNat + 1 then (x l >>> 32).setWidth 32
    else if d ≠ 0xF0 ∧ lanes l = true ∧ r = d.toNat then (x l).setWidth 32
    else s.gang.v r l) ∧
  s.past t ∧ s.sameDevice t ∧ s.gang.sameReports t.gang ∧
  t.gang = { s.gang with
    regs := { s.gang.regs with v := t.gang.regs.v, fpf := s.gang.regs.fpf ||| BitVec.ofNat 5 fl }
    flow := { s.gang.flow with pc := t.gang.flow.pc }
    reports := t.gang.reports }

/-- The same for a group of registers: register d + i takes `x i l` in the lanes where i is below `n l` (02 R42). -/
def State.groupStep (s t : State) (d : Code) (n : Nat → Nat) (lanes : Nat → Bool) (x : Nat → Nat → Word) (fl : Nat) : Prop :=
  (∀ r l, l < 32 → t.gang.v r l =
    if d ≠ 0xF0 ∧ lanes l = true ∧ d.toNat ≤ r ∧ r < d.toNat + n l then x (r - d.toNat) l else s.gang.v r l) ∧
  s.past t ∧ s.sameDevice t ∧ s.gang.sameReports t.gang ∧
  t.gang = { s.gang with
    regs := { s.gang.regs with v := t.gang.regs.v, fpf := s.gang.regs.fpf ||| BitVec.ofNat 5 fl }
    flow := { s.gang.flow with pc := t.gang.flow.pc }
    reports := t.gang.reports }

/-- The step of an instruction with a predicate destination. -/
def State.predStep (s t : State) (d : Code) (lanes x : Nat → Bool) (fl : Nat) : Prop :=
  (∀ i l, l < 32 → t.gang.p i l =
    if d ≠ 0xF0 ∧ i = d.toNat ∧ lanes l = true then x l else s.gang.p i l) ∧
  s.past t ∧ s.sameDevice t ∧
  t.gang = { s.gang with
    regs := { s.gang.regs with p := t.gang.regs.p, fpf := s.gang.regs.fpf ||| BitVec.ofNat 5 fl }
    flow := { s.gang.flow with pc := t.gang.flow.pc } }

/-- The step of an instruction with a scalar destination: each issuing slice's copy of register `d` takes its value
(02 R49). -/
def State.scalarStep (s t : State) (d : Code) (x : Nat → Word) : Prop :=
  (∀ k i, k < 8 → i < 32 → t.gang.s k i =
    if d ≠ 0xF0 ∧ i = d.toNat ∧ s.gang.issuing k = true then x k else s.gang.s k i) ∧
  s.past t ∧ s.sameDevice t ∧
  t.gang = { s.gang with
    regs := { s.gang.regs with sc := t.gang.regs.sc }
    flow := { s.gang.flow with pc := t.gang.flow.pc } }

/-- A step that only moves past the word. -/
def State.idleStep (s t : State) : Prop :=
  s.past t ∧ s.sameDevice t ∧ t.gang = { s.gang with flow := { s.gang.flow with pc := t.gang.flow.pc } }

/-- No byte of local memory, of any cache or Barn and of any tile changes. -/
def State.sameMemory (s t : State) : Prop :=
  t.mem = s.mem ∧ t.cores = s.cores ∧ t.clusters = s.clusters

end Sys2Proof.Machine
end

