-- ==== Sys2Proof/Certificates/Slice0/Obligations.lean ====
section
/-! DEFINITION. The statements for the provers, in the order of OBLIGATIONS.json: the machine as a whole, then the words of
the opcode table family by family, then the events of the device. -/

namespace Sys2Proof.Machine

/-! ### Operand fields of the common forms -/

/-- What a word reads of a field in lanes of its own choice waits for nothing and reports nothing (04 R97; 08 R231). -/
abbrev Gang.readable (g : Gang) (c : Code) (n : Nat) (lanes : List Nat) : Prop :=
  g.pendingIn c n lanes = [] ∧ g.markedIn c n lanes = none
/-- Three vector fields whose width follows the etype, the destination written. -/
abbrev fields3 (ok : Nat → Bool) (d a b : Code) : OpndsOf :=
  etypeOps ok (fun t => [.vw (vwidth t) d, .vr (vwidth t) a, .vr (vwidth t) b])
/-- The same with a destination that is also read. -/
abbrev fields3x (ok : Nat → Bool) (d a b : Code) : OpndsOf :=
  etypeOps ok (fun t => [.vx (vwidth t) d, .vr (vwidth t) a, .vr (vwidth t) b])
/-- A destination and one source. -/
abbrev fields2 (ok : Nat → Bool) (d a : Code) : OpndsOf := etypeOps ok (fun t => [.vw (vwidth t) d, .vr (vwidth t) a])
/-- A predicate destination and two vector sources. -/
abbrev fieldsP (ok : Nat → Bool) (d a b : Code) : OpndsOf :=
  etypeOps ok (fun t => [.pw d, .vr (vwidth t) a, .vr (vwidth t) b])
/-- Three scalar fields. -/
abbrev fieldsS (d a b : Code) : OpndsOf := fixedOps [.sw 32 d, .sr 32 a, .sr 32 b]

/-- The lane's etype is 64 bits wide. -/
abbrev State.wideLane (s : State) (l : Nat) : Bool := etypeWide (s.gang.et l)
/-- A lane of Issuing() whose EXEC bit is 1 (05 R130, R134). -/
abbrev State.execLane (s : State) (l : Nat) : Bool := s.gang.issuing (l / 4) && s.gang.execBit l

/-- The element type of a lane, and MODE.sat there. -/
abbrev State.laneSat (s : State) (l : Nat) : Bool := modeSat (s.gang.mode (l / 4))

/-- Element k of a vector field in a lane, as the integer its etype says (05 R120). -/
abbrev State.ielem (s : State) (c : Code) (l k : Nat) : Int := elemInt (s.gang.et l) (s.vsrc (.elem (s.gang.et l)) c l) k
/-- Its bits. -/
abbrev State.belem (s : State) (c : Code) (l k : Nat) : Nat := elemBits (s.gang.et l) (s.vsrc (.elem (s.gang.et l)) c l) k
/-- The whole operand as a number. -/
abbrev State.felem (s : State) (c : Code) (l : Nat) : Nat := (s.vsrc (.elem (s.gang.et l)) c l).toNat

/-- A word with a vector result runs: it answers the next state whose result is `x`. -/
def vecRuns (i : Instr) (s : State) (f : OpndsOf) (d : Code) (wide lanes : Nat → Bool) (x : Nat → DWord) : Prop :=
  s.issues f = true → ∃ t, exec i s = .next t ∧ s.vecStep t d wide lanes x 0
/-- The same with a predicate result. -/
def predRuns (i : Instr) (s : State) (f : OpndsOf) (d : Code) (lanes x : Nat → Bool) : Prop :=
  s.issues f = true → ∃ t, exec i s = .next t ∧ s.predStep t d lanes x 0
/-- The same with a scalar result. -/
def scalarRuns (i : Instr) (s : State) (f : OpndsOf) (d : Code) (x : Nat → Word) : Prop :=
  s.issues f = true → ∃ t, exec i s = .next t ∧ s.scalarStep t d x

/-- An element-wise integer word: every element of the lane by `f`, given the etype, sat and the element's number. -/
def elemRuns (i : Instr) (s : State) (f : OpndsOf) (d : Code) (x : Nat → Nat → Bool → Nat → Nat) : Prop :=
  vecRuns i s f d s.wideLane s.gang.active (fun l => mapElems (s.gang.et l) (x l (s.gang.et l) (s.laneSat l)))

end Sys2Proof.Machine

open Sys2Proof Sys2Proof.Machine

/-! ### The machine as a whole -/

/-- Decoding an encoded instruction gives it back, with every operand at every value the encoding admits (02 R36 to R46). -/
def Obligations.DecodeOfEncode : Prop :=
  ∀ (i : Instr) (w : Word), encode i = some w → WellFormed i = true → decode w = .ok i

/-- Every word that decodes is the encoding of its instruction, which is well formed: no bit of a word is ignored
(02 R36 to R46). -/
def Obligations.EncodeOfDecode : Prop :=
  ∀ (i : Instr) (w : Word), decode w = .ok i → encode i = some w ∧ WellFormed i = true

/-- A few words, one or two of every family, written out from the formats of 02 R36 to R38 and the opcode grid of R44 and
R45; the words of zeros and of ones are unassigned, and a sub-op that no rule defines is reserved (R45). -/
def Obligations.DecodeWords : Prop :=
  -- br: predicate 5, sense 1, kind 0, two words back; wait: LD 63, ST 0, CP 1, TL 2
  decode 0x012CFFFE#32 = .ok (.br 5 1 0 0xFFFE) ∧ decode 0x24FC0042#32 = .ok (.wait 63 0 1 2) ∧
  decode 0x10010203#32 = .ok (.pand 1 2 3) ∧ decode 0x40010203#32 = .ok (.iadd 1 2 3) ∧
  decode 0x80010203#32 = .ok (.fadd 1 2 3) ∧
  -- ldw: data v4, address v6, next-use code 1, space 2
  decode 0xA4040606#32 = .ok (.ldw 4 6 1 2) ∧ decode 0xC0000105#32 = .ok (.binit 1 5) ∧
  decode 0xCF010203#32 = .ok (.gqry 2 3) ∧ decode 0xD0010204#32 = .ok (.expb 1 2 4) ∧
  decode 0xE0010203#32 = .ok (.talloc 1 2 3) ∧ decode 0xF4000420#32 = .ok (.rget 4 0x20) ∧
  decode 0xF8000007#32 = .ok (.trap 7) ∧
  decode 0x00000000#32 = .error .unassignedOpcode ∧ decode 0xFFFFFFFF#32 = .error .unassignedOpcode ∧
  decode 0x0703FFFE#32 = .error .reservedSubOp

/-- One step issues one word (03 R68; 04 R97, R98, R111; 02 R46): with the turn of a lane group at the head of the agenda,
the device running, a gang that takes the slot and a word that the gang fetches, the step is the meaning of the instruction
that the word decodes to, at the state after the fetch with the word in the window of the gang's seat; then what the turn
leaves of the slot and of the window. For a gang without a seat that does not stall the step is that meaning, and the slot
is counted.
A word that does not decode takes the illegal-instruction trap. -/
def Sys2Proof.Claims.StepRunsDecoded : Prop :=
  ∀ (s0 s u : State) (core lg key : Nat) (ts : List Turn) (w : Word), s = s0.passTime →
    s.power.shutdown = false → s.bootFailed = false → s.power.clockStopped = false → s.agenda = .issue core lg :: ts →
    ∀ v, ({ s with agenda := ts } : State).takeSlot core lg = some (v, key) → (v.focus key).fetch = .word u w →
      (∀ i, decode w = .ok i →
        step s0 = thenNext (exec i (u.enterWindow key w)) (({ s with agenda := ts } : State).afterIssue core key)) ∧
      (∀ i t, decode w = .ok i → u.seatOf key = none → exec i u = .next t → t.seatOf key = none →
        mapFind (t.gangAt key).flow.served (t.gangAt key).flow.blocks = none →
        step s0 = .next (t.countIssued core (({ s with agenda := ts } : State).issueCycles key))) ∧
      (∀ r, decode w = .error r → step s0 = .next (({ s with agenda := ts } : State).afterIssue core key
        (({ u.enterWindow key w with ir := w }).takeTrap { cause := 0x01 }))) ∧
      (∃ t, exec (.illegalInstruction w) u = .next t ∧ t = ({ u with ir := w }).takeTrap { cause := 0x01 })

/-- An event of the agenda is the step of its meaning, and so is every other turn. After a thermal shutdown nothing but a
device reset acts, and the host reads the management window (19 R449); a device whose firmware image is refused takes only what
reaches its boot loader (18 R447); and while the arithmetic clock is stopped, what waits for it waits (19 R452). -/
def Sys2Proof.Claims.StepRunsEvents : Prop :=
  ∀ (s0 s : State) (n : Turn) (ts : List Turn), s = s0.passTime → s.agenda = n :: ts →
    let u : State := { s with agenda := ts }
    (s.power.shutdown = false → s.bootFailed = false → n.clockless = true ∨ s.power.clockStopped = false →
      step s0 = runTurn u n ∧ ∀ i, n = .event i → step s0 = exec i u) ∧
    (s.power.shutdown = false → s.bootFailed = false → n.clockless = false → s.power.clockStopped = true →
      step s0 = exec .clockSwitchEnd s) ∧
    (s.power.shutdown = false → s.bootFailed = true → step s0 = if n.reachesLoader then runTurn u n else .next u) ∧
    (s.power.shutdown = true → (∀ d b, n = .event (.deviceReset d b) → step s0 = exec (.deviceReset d b) u) ∧
      (∀ fn off k, n = .window fn off k none → step s0 = .next (u.windowAccess fn off k none)) ∧
      ((∀ d b, n ≠ .event (.deviceReset d b)) → (∀ fn off k, n ≠ .window fn off k none) →
        step s0 = .fault .heldInReset))

/-- A step is the meaning of the decoded word, or of the event. -/
def Obligations.StepIsExec : Prop := Sys2Proof.Claims.StepRunsDecoded ∧ Sys2Proof.Claims.StepRunsEvents

/-- The state right after reset (02 R50; 13 R334; 14 R347; 15 R363; 16 R405; 18 R437, R440; 19 R451): nothing is resident,
every register of the tables holds the reset value that they give, and every memory is empty. That local memory reads as
zero where nothing is listed is the model's choice (log entry 10). -/
def Obligations.ResetValues : Prop :=
  let s := State.reset
  s.gangs = [] ∧ s.wgs = [] ∧ s.launches = [] ∧ s.msgs = [] ∧ s.alarms = [] ∧ s.mem = [] ∧
  s.sys.sysPart = 0 ∧ s.sys.pasidBase = 0 ∧ s.sys.mirrorBase = 0 ∧ s.sys.inboundTmo = 2000 ∧ s.sys.inflogBase = 0 ∧
  s.sys.inflogHead = 0 ∧ s.sys.inflogTail = 0 ∧ s.sys.inflogLost = 0 ∧ s.sys.ctxBase = 0 ∧
  s.power.freq = 2400 ∧ s.power.volt = 800 ∧ s.power.cap = 3600 ∧ s.power.shutdown = false ∧ modeReset = 0x007A005F ∧
  (∀ p, (s.partAt p).live = false ∧ (s.partAt p).sprintCtl = 0x1F ∧ (s.partAt p).nuCtl = 0x010085C0 ∧
    (s.partAt p).l2Quota = 12) ∧
  (∀ d, (s.dieAt d).tfqBase = 0 ∧ (s.dieAt d).tfqHead = 0 ∧ (s.dieAt d).tfqTail = 0) ∧
  (∀ c, (s.clusterAt c).events = 0 ∧ (s.clusterAt c).acc = [] ∧ (s.clusterAt c).table = []) ∧
  (∀ k, (s.slotAt k).used = false ∧ (s.slotAt k).gen = 0)

/-- The invariant holds at reset: local memory is in its canonical form. -/
def Obligations.InvAtReset : Prop := State.reset.Inv

/-- Every step keeps the canonical form of local memory: strictly rising addresses, and no entry equal to what an unlisted
address reads as. -/
def Obligations.InvKept : Prop := ∀ s t : State, s.Inv → step s = .next t → t.Inv

/-- The scalar words: each issuing slice's own copy (05 R125). Shift counts of 32 or more give 0. -/
def Sys2Proof.Claims.ScalarArithmetic : Prop :=
  ∀ (s : State) (d a b : Code),
    scalarRuns (.sadd d a b) s (fieldsS d a b) d (fun k => s.ssrc a k + s.ssrc b k) ∧
    scalarRuns (.ssub d a b) s (fieldsS d a b) d (fun k => s.ssrc a k - s.ssrc b k) ∧
    scalarRuns (.smul d a b) s (fieldsS d a b) d (fun k => s.ssrc a k * s.ssrc b k) ∧
    scalarRuns (.sand d a b) s (fieldsS d a b) d (fun k => s.ssrc a k &&& s.ssrc b k) ∧
    scalarRuns (.sor d a b) s (fieldsS d a b) d (fun k => s.ssrc a k ||| s.ssrc b k) ∧
    scalarRuns (.sxor d a b) s (fieldsS d a b) d (fun k => s.ssrc a k ^^^ s.ssrc b k) ∧
    scalarRuns (.sshl d a b) s (fieldsS d a b) d (fun k => s.ssrc a k <<< ((s.ssrc b k).toNat % 256)) ∧
    scalarRuns (.sshr d a b) s (fieldsS d a b) d (fun k => s.ssrc a k >>> ((s.ssrc b k).toNat % 256)) ∧
    scalarRuns (.sslt d a b) s (fieldsS d a b) d (fun k => if (s.ssrc a k).toInt < (s.ssrc b k).toInt then 1 else 0)

/-- The words that put one value into a scalar register: an immediate, a lane of a vector register, MODE, EXEC, a mask, a
count, the sticky flags (05 R126, R127; 03 R80, R83, R87; 06 R153). In the lanes that sread reads
nothing is awaited or marked (04 R97; 08 R231). -/
def Sys2Proof.Claims.ScalarMoves : Prop :=
  ∀ (s : State) (d a b : Code) (i : BitVec 16),
    scalarRuns (.smovi d i) s (fixedOps [.sw 32 d]) d (fun _ => i.signExtend 32) ∧
    scalarRuns (.smovhi d i) s (fixedOps [.sw 32 d]) d (fun k => i ++ (s.ssrc d k).setWidth 16) ∧
    (s.gang.readable a 1 ((s.gang.issuingList.map (s.sreadLane b)).filter (fun l => s.gang.issuing (l / 4))) →
      scalarRuns (.sread d a b) s (fixedOps [.sw 32 d, .vl 32 a, .sr 32 b]) d (fun k =>
        if s.gang.issuing ((s.ssrc b k).toNat % 32 / 4) then s.vsrc32 a ((s.ssrc b k).toNat % 32) else 0)) ∧
    scalarRuns (.mget d) s (fixedOps [.sw 32 d]) d (fun k => s.gang.mode k &&& 0x007FFFFF) ∧
    scalarRuns (.exsave d) s (fixedOps [.sw 32 d]) d (fun _ => s.gang.regs.exec) ∧
    scalarRuns (.ballot d a) s (fixedOps [.sw 32 d, .pr a]) d (fun _ => laneMask (fun l => s.gang.active l && s.gang.psrc a l)) ∧
    scalarRuns (.popc d a) s (fixedOps [.sw 32 d, .pr a]) d (fun _ =>
      BitVec.ofNat 32 (popCount (laneMask (fun l => s.gang.active l && s.gang.psrc a l)).toNat 32)) ∧
    scalarRuns (.flget d) s (fixedOps [.sw 32 d]) d (fun _ => s.gang.regs.fpf.setWidth 32)

/-- The scalar words and the words that put one value into a scalar register. -/
def Obligations.ScalarWords : Prop := Sys2Proof.Claims.ScalarArithmetic ∧ Sys2Proof.Claims.ScalarMoves

/-- The predicate words: logic, a scalar's bits, a vote, and the integer comparisons (03 R81, R83; 05 R133). -/
def Obligations.PredicateForms : Prop :=
  ∀ (s : State) (d a b : Code) (v : BitVec 2),
    predRuns (.pand d a b) s (fixedOps [.pw d, .pr a, .pr b]) d s.gang.active (fun l => s.gang.psrc a l && s.gang.psrc b l) ∧
    predRuns (.por d a b) s (fixedOps [.pw d, .pr a, .pr b]) d s.gang.active (fun l => s.gang.psrc a l || s.gang.psrc b l) ∧
    predRuns (.pxor d a b) s (fixedOps [.pw d, .pr a, .pr b]) d s.gang.active
      (fun l => xor (s.gang.psrc a l) (s.gang.psrc b l)) ∧
    predRuns (.pnot d a) s (fixedOps [.pw d, .pr a]) d s.gang.active (fun l => !s.gang.psrc a l) ∧
    predRuns (.psets d a) s (fixedOps [.pw d, .sr 32 a]) d s.gang.active (fun l => (s.ssrc a (l / 4)).getLsbD l) ∧
    (v ≠ 3 → predRuns (.vote d a v) s (fixedOps [.pw d, .pr a]) d s.gang.active (fun _ =>
      if v = 0 then s.gang.ballotMask a ≠ 0
      else if v = 1 then s.gang.ballotMask a = s.gang.activeMask
      else s.gang.ballotMask a = s.gang.activeMask ∨ s.gang.ballotMask a = 0)) ∧
    predRuns (.icmpeq d a b) s (fieldsP wideTypes d a b) d s.gang.active (fun l => s.ielem a l 0 = s.ielem b l 0) ∧
    predRuns (.icmpne d a b) s (fieldsP wideTypes d a b) d s.gang.active (fun l => s.ielem a l 0 ≠ s.ielem b l 0) ∧
    predRuns (.icmplt d a b) s (fieldsP wideTypes d a b) d s.gang.active (fun l => s.ielem a l 0 < s.ielem b l 0) ∧
    predRuns (.icmple d a b) s (fieldsP wideTypes d a b) d s.gang.active (fun l => s.ielem a l 0 ≤ s.ielem b l 0)

/-- The element-wise integer words (05 R128, R129): the exact result, narrowed once under sat; imadw adds every product
to an accumulator of the wider type. -/
def Obligations.ElementArithmetic : Prop :=
  ∀ (s : State) (d a b : Code) (i : BitVec 16),
    elemRuns (.iadd d a b) s (fields3 intTypes d a b) d (fun l t sat k => narrow t sat (s.ielem a l k + s.ielem b l k)) ∧
    elemRuns (.isub d a b) s (fields3 intTypes d a b) d (fun l t sat k => narrow t sat (s.ielem a l k - s.ielem b l k)) ∧
    elemRuns (.imul d a b) s (fields3 intTypes d a b) d (fun l t sat k => narrow t sat (s.ielem a l k * s.ielem b l k)) ∧
    elemRuns (.imulh d a b) s (fields3 intTypes d a b) d (fun l t _ k =>
      wrapTo (etypeWidth t) ((s.ielem a l k * s.ielem b l k) / 2 ^ etypeWidth t)) ∧
    elemRuns (.imad d a b) s (fields3x intTypes d a b) d (fun l t sat k =>
      narrow t sat (s.ielem a l k * s.ielem b l k + s.ielem d l k)) ∧
    elemRuns (.imin d a b) s (fields3 intTypes d a b) d (fun l t _ k => wrapTo (etypeWidth t) (min (s.ielem a l k) (s.ielem b l k))) ∧
    elemRuns (.imax d a b) s (fields3 intTypes d a b) d (fun l t _ k => wrapTo (etypeWidth t) (max (s.ielem a l k) (s.ielem b l k))) ∧
    elemRuns (.iabs d a) s (fields2 intTypes d a) d (fun l t sat k => narrow t sat ((s.ielem a l k).natAbs : Int)) ∧
    elemRuns (.ineg d a) s (fields2 intTypes d a) d (fun l t sat k => narrow t sat (-(s.ielem a l k))) ∧
    elemRuns (.iaddi d i) s (etypeOps intTypes (fun t => [.vx (vwidth t) d])) d (fun l t sat k =>
      narrow t sat (s.ielem d l k + i.toInt)) ∧
    vecRuns (.imadw d a b) s (etypeOps imadwTypes (fun t => [.vx (vwidth (imadwAcc t)) d, .vr 32 a, .vr 32 b])) d
      (fun l => etypeWide (imadwAcc (s.gang.et l))) s.gang.active (fun l =>
        BitVec.ofNat 64 (narrow (imadwAcc (s.gang.et l)) (s.laneSat l)
          (elemInt (imadwAcc (s.gang.et l)) (s.vsrc (.elem (imadwAcc (s.gang.et l))) d l) 0 +
            ((List.range (elemCount (s.gang.et l))).map (fun k => s.ielem a l k * s.ielem b l k)).sum)))

/-- The bit words (05 R136 to R138): a shift count is the low min(w, 8) bits of b's element, and every count of w or more
shifts everything out. -/
def Sys2Proof.Claims.BitOperations : Prop :=
  ∀ (s : State) (d a b : Code),
    vecRuns (.and d a b) s (fields3 (fun _ => true) d a b) d s.wideLane s.gang.active (fun l =>
      s.vsrc (.int (vwidth (s.gang.et l))) a l &&& s.vsrc (.int (vwidth (s.gang.et l))) b l) ∧
    vecRuns (.or d a b) s (fields3 (fun _ => true) d a b) d s.wideLane s.gang.active (fun l =>
      s.vsrc (.int (vwidth (s.gang.et l))) a l ||| s.vsrc (.int (vwidth (s.gang.et l))) b l) ∧
    vecRuns (.xor d a b) s (fields3 (fun _ => true) d a b) d s.wideLane s.gang.active (fun l =>
      s.vsrc (.int (vwidth (s.gang.et l))) a l ^^^ s.vsrc (.int (vwidth (s.gang.et l))) b l) ∧
    elemRuns (.shl d a b) s (fields3 intTypes d a b) d (fun l t sat k =>
      let c := shiftCount t (s.vsrc (.int (vwidth t)) b l) k
      if sat then narrow t true (s.ielem a l k * 2 ^ c)
      else if c < etypeWidth t then (s.belem a l k * 2 ^ c) % 2 ^ etypeWidth t else 0) ∧
    elemRuns (.shr d a b) s (fields3 intTypes d a b) d (fun l t _ k =>
      let c := shiftCount t (s.vsrc (.int (vwidth t)) b l) k
      if c < etypeWidth t then s.belem a l k / 2 ^ c else 0) ∧
    elemRuns (.sar d a b) s (fields3 intTypes d a b) d (fun l t _ k =>
      let c := shiftCount t (s.vsrc (.int (vwidth t)) b l) k
      wrapTo (etypeWidth t) (signedOf (etypeWidth t) (s.belem a l k) / 2 ^ min c (etypeWidth t - 1))) ∧
    elemRuns (.rol d a b) s (fields3 intTypes d a b) d (fun l t _ k =>
      rotLeft (etypeWidth t) (s.belem a l k) (shiftCount t (s.vsrc (.int (vwidth t)) b l) k % etypeWidth t)) ∧
    elemRuns (.ror d a b) s (fields3 intTypes d a b) d (fun l t _ k =>
      rotLeft (etypeWidth t) (s.belem a l k)
        ((etypeWidth t - shiftCount t (s.vsrc (.int (vwidth t)) b l) k % etypeWidth t) % etypeWidth t)) ∧
    elemRuns (.bcnt d a) s (fields2 intTypes d a) d (fun l t _ k => popCount (s.belem a l k) (etypeWidth t)) ∧
    elemRuns (.clz d a) s (fields2 intTypes d a) d (fun l t _ k =>
      if s.belem a l k = 0 then etypeWidth t else etypeWidth t - 1 - Nat.log2 (s.belem a l k))

/-- Bit fields and addresses (05 R139, R140): position and length stand in bytes 0 and 1 of b; an index is scaled by the
element size and is unsigned under the n types. -/
def Sys2Proof.Claims.FieldsAndAddresses : Prop :=
  ∀ (s : State) (d a b : Code),
    vecRuns (.bfe d a b) s (etypeOps wideTypes (fun t => [.vw (vwidth t) d, .vr (vwidth t) a, .vr 32 b])) d s.wideLane
      s.gang.active (fun l => BitVec.ofNat 64 (bfeBits (etypeWidth (s.gang.et l)) (isSigned (s.gang.et l)) (s.felem a l)
        ((s.vsrc32 b l).toNat % 256) (min (field (s.vsrc32 b l).toNat 8 8) (etypeWidth (s.gang.et l))))) ∧
    vecRuns (.bfi d a b) s (etypeOps wideTypes (fun t => [.vx (vwidth t) d, .vr (vwidth t) a, .vr 32 b])) d s.wideLane
      s.gang.active (fun l => BitVec.ofNat 64 (bfiBits (etypeWidth (s.gang.et l)) (s.felem d l) (s.felem a l)
        ((s.vsrc32 b l).toNat % 256) (min (field (s.vsrc32 b l).toNat 8 8) (etypeWidth (s.gang.et l))))) ∧
    vecRuns (.lea d a b) s (etypeOps leaTypes (fun _ => [.vw 64 d, .vr 64 a, .vr 32 b])) d (fun _ => true) s.gang.active
      (fun l => s.vsrc64 a l +
        ((if 13 ≤ s.gang.et l ∧ s.gang.et l ≤ 16 then (s.vsrc32 b l).setWidth 64 else (s.vsrc32 b l).signExtend 64) <<<
          leaScale (s.gang.et l)))

/-- The bit words, bit fields and scaled addresses. -/
def Obligations.BitWords : Prop := Sys2Proof.Claims.BitOperations ∧ Sys2Proof.Claims.FieldsAndAddresses

/-- Moves, selections and shuffles of vector registers (05 R134, R135; 06 R161; 03 R83, R84). Selections act on every
lane of Issuing() whose EXEC bit is 1, and the guard chooses. -/
def Obligations.VectorMoves : Prop :=
  ∀ (s : State) (d a b : Code) (i : BitVec 16) (m : BitVec 2) (c : BitVec 5),
    vecRuns (.imovi d i) s (fixedOps [.vw 32 d]) d (fun _ => false) s.gang.active (fun _ => (i.signExtend 32).setWidth 64) ∧
    vecRuns (.imovhi d i) s (fixedOps [.vx 32 d]) d (fun _ => false) s.gang.active
      (fun l => (i ++ (s.vsrc32 d l).setWidth 16).setWidth 64) ∧
    vecRuns (.vbcst d a) s (etypeOps (fun _ => true) (fun t => [.vw (vwidth t) d, .sr (vwidth t) a])) d s.wideLane
      s.gang.active (fun l => if s.wideLane l then s.ssrc64 a (l / 4) else (s.ssrc a (l / 4)).setWidth 64) ∧
    vecRuns (.vmov d a) s (fields2 (fun _ => true) d a) d s.wideLane s.gang.active
      (fun l => s.vsrc (.int (vwidth (s.gang.et l))) a l) ∧
    vecRuns (.isel d a b) s (fields3 intTypes d a b) d s.wideLane s.execLane
      (fun l => s.vsrc (.int (vwidth (s.gang.et l))) (if s.gang.guard l then a else b) l) ∧
    vecRuns (.fsel d a b) s (fields3 signTypes d a b) d s.wideLane s.execLane
      (fun l => s.vsrc (.int (vwidth (s.gang.et l))) (if s.gang.guard l then a else b) l) ∧
    vecRuns (.mpfx d a) s (fixedOps [.vw 32 d, .pr a]) d (fun _ => false) s.gang.active
      (fun l => (BitVec.ofNat 32 (popCount (s.gang.ballotMask a).toNat l)).setWidth 64) ∧
    (s.gang.sameMode modeEtype = true →
      vecRuns (.shfl d a b) s (etypeOps (fun _ => true) (fun t => [.vw (vwidth t) d, .vr (vwidth t) a, .vr 32 b])) d
        s.wideLane s.gang.active (fun l => s.vsrc (.int (vwidth (s.gang.et l))) a
          (if s.gang.active ((s.vsrc32 b l).toNat % 32) then (s.vsrc32 b l).toNat % 32 else l))) ∧
    (s.gang.sameMode modeEtype = true →
      vecRuns (.shfli d m c) s (etypeOps (fun _ => true) (fun t => [.vx (vwidth t) d])) d s.wideLane s.gang.active
        (fun l => s.vsrc (.int (vwidth (s.gang.et l))) d
          (((shuffleLane m.toNat c.toNat l).filter s.gang.active).getD l)))

/-- Division (05 R131, R132): with no zero divisor in an active lane the quotient rounds toward zero and the remainder
takes the dividend's sign; with one, the division trap is taken in the state of issue, naming those lanes. -/
def Sys2Proof.Claims.Division : Prop :=
  ∀ (s : State) (d a b : Code),
    (zeroDivisors s b = 0 →
      elemRuns (.idiv d a b) s (fields3 intTypes d a b) d (fun l t sat k => narrow t sat ((s.ielem a l k).tdiv (s.ielem b l k))) ∧
      elemRuns (.irem d a b) s (fields3 intTypes d a b) d (fun l t _ k =>
        wrapTo (etypeWidth t) ((s.ielem a l k).tmod (s.ielem b l k)))) ∧
    (zeroDivisors s b ≠ 0 → s.issues (fields3 intTypes d a b) = true →
      exec (.idiv d a b) s = .next (s.takeTrap { cause := 0x09, lanes := zeroDivisors s b }) ∧
      exec (.irem d a b) s = .next (s.takeTrap { cause := 0x09, lanes := zeroDivisors s b }))

/-- iaddc (05 R130): the sum of two operands and the guard's predicate, in every lane of Issuing() whose EXEC bit is 1,
and the carry in that predicate. -/
def Sys2Proof.Claims.AddWithCarry : Prop :=
  ∀ (s : State) (d a b : Code) (l : Nat), s.issues (fields3 wideTypes d a b) = true → d ≠ 0xF0 → l < 32 → s.execLane l = true →
    let n := modeGuard (s.gang.mode (l / 4))
    let sum := s.felem a l + s.felem b l + (if n ≠ 31 ∧ s.gang.p n l = true then 1 else 0)
    ∃ t, exec (.iaddc d a b) s = .next t ∧ s.past t ∧ s.sameDevice t ∧
      t.gang.v d.toNat l = BitVec.ofNat 32 sum ∧
      (s.wideLane l = true → t.gang.v (d.toNat + 1) l = BitVec.ofNat 32 (sum / 2 ^ 32)) ∧
      (n < 24 → t.gang.p n l = decide (2 ^ etypeWidth (s.gang.et l) ≤ sum))

/-- Division, its trap, and addition with carry. -/
def Obligations.DivisionAndCarry : Prop := Sys2Proof.Claims.Division ∧ Sys2Proof.Claims.AddWithCarry

/-- A floating-point word with a vector result: no lane traps, FPF takes the flags of the lanes of Active(), and the
result is written (06 R151, R152). `r l` is the lane's result and flags. -/
def Sys2Proof.Machine.floatRuns (i : Instr) (s : State) (f : OpndsOf) (d : Code) (wide : Nat → Bool) (r : Nat → Nat × Nat) : Prop :=
  s.issues f = true → s.gang.trapping (fun l => (r l).2) = 0 →
    ∃ t, exec i s = .next t ∧ s.vecStep t d wide s.gang.active (fun l => BitVec.ofNat 64 (r l).1)
      (laneFlags s.gang (fun l => (r l).2))

/-- A lane's element operation (06 R158): sources and the old destination as numbers. -/
abbrev Sys2Proof.Machine.laneOp (s : State) (op : FOp) (d a b : Code) (l : Nat) : Nat × Nat :=
  fopElem op (s.gang.et l) (s.gang.fmode l) (s.felem a l) (s.felem b l) (s.felem d l)

/-- The fields of fscale. -/
abbrev Sys2Proof.Machine.fieldsScale (d a b : Code) : OpndsOf :=
  etypeOps dblTypes (fun t => [.vw (vwidth t) d, .vr (vwidth t) a, .vr 32 b])
/-- A lane's fscale: the element by 2 to the power of the i32 register. -/
abbrev Sys2Proof.Machine.laneScale (s : State) (a b : Code) (l : Nat) : Nat × Nat :=
  finish (s.gang.et l) (s.gang.fmode l)
    (fvScale (elemValue (s.gang.et l) (s.gang.fmode l).ftz (s.felem a l)) (s.vsrc32 b l).toInt)

/-- The f64 and f32 words (06 R158, R159, R168): one element a lane, rounded once. -/
def Sys2Proof.Claims.FloatArithmetic : Prop :=
  ∀ (s : State) (d a b : Code),
    floatRuns (.fadd d a b) s (fields3 dblTypes d a b) d s.wideLane (laneOp s .add d a b) ∧
    floatRuns (.fsub d a b) s (fields3 dblTypes d a b) d s.wideLane (laneOp s .sub d a b) ∧
    floatRuns (.fmul d a b) s (fields3 dblTypes d a b) d s.wideLane (laneOp s .mul d a b) ∧
    floatRuns (.fdiv d a b) s (fields3 dblTypes d a b) d s.wideLane (laneOp s .div d a b) ∧
    floatRuns (.fmin d a b) s (fields3 dblTypes d a b) d s.wideLane (laneOp s .min d a b) ∧
    floatRuns (.fmax d a b) s (fields3 dblTypes d a b) d s.wideLane (laneOp s .max d a b) ∧
    floatRuns (.ffma d a b) s (fields3x dblTypes d a b) d s.wideLane (laneOp s .fma d a b) ∧
    floatRuns (.ffms d a b) s (fields3x dblTypes d a b) d s.wideLane (laneOp s .fms d a b) ∧
    floatRuns (.fnma d a b) s (fields3x dblTypes d a b) d s.wideLane (laneOp s .nma d a b) ∧
    floatRuns (.fscale d a b) s (fieldsScale d a b) d s.wideLane (laneScale s a b)

/-- A lane's one-source operation. -/
abbrev Sys2Proof.Machine.laneUn (s : State) (op : FUn) (a : Code) (l : Nat) : Nat × Nat :=
  funElem op (s.gang.et l) (s.gang.fmode l) (s.felem a l)

/-- The one-source f64 and f32 words (06 R158, R168). -/
def Sys2Proof.Claims.FloatUnary : Prop :=
  ∀ (s : State) (d a : Code),
    floatRuns (.frcp d a) s (fields2 dblTypes d a) d s.wideLane (laneUn s .rcp a) ∧
    floatRuns (.frsq d a) s (fields2 dblTypes d a) d s.wideLane (laneUn s .rsq a) ∧
    floatRuns (.fsqrt d a) s (fields2 dblTypes d a) d s.wideLane (laneUn s .sqrt a) ∧
    floatRuns (.fexp2 d a) s (fields2 dblTypes d a) d s.wideLane (laneUn s .exp2 a) ∧
    floatRuns (.flog2 d a) s (fields2 dblTypes d a) d s.wideLane (laneUn s .log2 a) ∧
    floatRuns (.fgetexp d a) s (fields2 dblTypes d a) d s.wideLane (laneUn s .getexp a) ∧
    floatRuns (.frint d a) s (fields2 dblTypes d a) d s.wideLane (laneUn s .rint a)

/-- One of the two elements of a packed lane (06 R162). -/
abbrev Sys2Proof.Machine.halfOp (s : State) (op : FOp) (d a b : Code) (l k : Nat) : Nat × Nat :=
  fopElem op (s.gang.et l) (s.gang.fmode l) (s.belem a l k) (s.belem b l k) (s.belem d l k)
/-- The two elements of a lane, and the flags of both. -/
abbrev Sys2Proof.Machine.halves (r : Nat → Nat → Nat × Nat) (l : Nat) : Nat × Nat :=
  (((r l 0).1 + (r l 1).1 * 2 ^ 16) % 2 ^ 32, (r l 0).2 ||| (r l 1).2)
/-- The fields of a packed word. -/
abbrev Sys2Proof.Machine.fieldsH (d a b : Code) : OpndsOf := etypeOps halfTypes (fun _ => [.vw 32 d, .vr 32 a, .vr 32 b])
/-- The same with a destination that is also read. -/
abbrev Sys2Proof.Machine.fieldsHx (d a b : Code) : OpndsOf := etypeOps halfTypes (fun _ => [.vx 32 d, .vr 32 a, .vr 32 b])

/-- A lane's fdot2: both products added to the f32 in the destination. -/
abbrev Sys2Proof.Machine.laneDot (s : State) (d a b : Code) (l : Nat) : Nat × Nat :=
  fdot2Elem (s.gang.et l) (s.gang.fmode l) (s.vsrc (.elem (s.gang.et l)) a l) (s.vsrc (.elem (s.gang.et l)) b l)
    (s.vsrc (.elem 1) d l).toNat

/-- The packed 16-bit words (06 R162): two elements a lane, each with its own flags; fdot2 adds both products to an f32. -/
def Sys2Proof.Claims.PackedFloat : Prop :=
  ∀ (s : State) (d a b : Code),
    floatRuns (.fhadd d a b) s (fieldsH d a b) d (fun _ => false) (halves (halfOp s .add d a b)) ∧
    floatRuns (.fhmul d a b) s (fieldsH d a b) d (fun _ => false) (halves (halfOp s .mul d a b)) ∧
    floatRuns (.fhmin d a b) s (fieldsH d a b) d (fun _ => false) (halves (halfOp s .min d a b)) ∧
    floatRuns (.fhmax d a b) s (fieldsH d a b) d (fun _ => false) (halves (halfOp s .max d a b)) ∧
    floatRuns (.fhfma d a b) s (fieldsHx d a b) d (fun _ => false) (halves (halfOp s .fma d a b)) ∧
    floatRuns (.fdot2 d a b) s (fieldsHx d a b) d (fun _ => false) (laneDot s d a b)

/-- The float words of every shape: two and three operands, one operand, packed. -/
def Obligations.FloatElements : Prop := Sys2Proof.Claims.FloatArithmetic ∧ Sys2Proof.Claims.FloatUnary ∧ Sys2Proof.Claims.PackedFloat

/-- Sign words, which raise no flag, and the class masks (06 R160, R161). -/
def Obligations.SignsAndClasses : Prop :=
  ∀ (s : State) (d a b : Code),
    vecRuns (.fabs d a) s (fields2 signTypes d a) d s.wideLane s.gang.active (fun l => mapElems (s.gang.et l) (fun k =>
      s.belem a l k % 2 ^ (etypeWidth (s.gang.et l) - 1))) ∧
    vecRuns (.fneg d a) s (fields2 signTypes d a) d s.wideLane s.gang.active (fun l => mapElems (s.gang.et l) (fun k =>
      s.belem a l k ^^^ 2 ^ (etypeWidth (s.gang.et l) - 1))) ∧
    vecRuns (.fcopysign d a b) s (fields3 signTypes d a b) d s.wideLane s.gang.active (fun l =>
      mapElems (s.gang.et l) (fun k => s.belem a l k % 2 ^ (etypeWidth (s.gang.et l) - 1) +
        s.belem b l k / 2 ^ (etypeWidth (s.gang.et l) - 1) * 2 ^ (etypeWidth (s.gang.et l) - 1))) ∧
    vecRuns (.fclass d a) s (etypeOps signTypes (fun t => [.vw 32 d, .vr (vwidth t) a])) d (fun _ => false) s.gang.active
      (fun l => (BitVec.ofNat 32 (if halfTypes (s.gang.et l) then
          2 ^ classOf (fmtOf (s.gang.et l)) (s.belem a l 0) + 2 ^ classOf (fmtOf (s.gang.et l)) (s.belem a l 1) * 2 ^ 16
        else 2 ^ classOf (fmtOf (s.gang.et l)) (s.belem a l 0))).setWidth 64)

/-- A floating-point comparison (06 R160): the predicate and the flags. -/
def Sys2Proof.Machine.compareRuns (i : Instr) (s : State) (f : OpndsOf) (d : Code) (r : Nat → Bool × Nat) : Prop :=
  s.issues f = true → s.gang.trapping (fun l => (r l).2) = 0 →
    ∃ t, exec i s = .next t ∧ s.predStep t d s.gang.active (fun l => (r l).1) (laneFlags s.gang (fun l => (r l).2))

/-- A lane of a comparison: the predicate and the flags. -/
abbrev Sys2Proof.Machine.laneCmp (s : State) (k : Nat) (a b : Code) (l : Nat) : Bool × Nat :=
  fcmpElem k (s.gang.et l) (s.gang.fmode l) (s.felem a l) (s.felem b l)
/-- The fields of cvt, and its lane: element 0 from the type that the word names. -/
abbrev Sys2Proof.Machine.fieldsCvt (d a b : Code) : OpndsOf :=
  etypeOps (fun _ => true) (fun t => [.vw (vwidth t) d, .vr (vwidth b.toNat) a])
@[inherit_doc Sys2Proof.Machine.fieldsCvt]
abbrev Sys2Proof.Machine.laneCvt (s : State) (a b : Code) (l : Nat) : Nat × Nat :=
  cvtElem b.toNat (s.gang.et l) (s.gang.fmode l) (elemBits b.toNat (s.vsrc (.elem b.toNat) a l) 0)
/-- The fields of cvtpk, and its lane: a group of f32 registers packed. -/
abbrev Sys2Proof.Machine.fieldsPack (d a : Code) : OpndsOf :=
  etypeOps packTypes (fun t => [.vw 32 d, .vg (elemCount t) (elemCount t) true false true a])
@[inherit_doc Sys2Proof.Machine.fieldsPack]
abbrev Sys2Proof.Machine.lanePack (s : State) (a : Code) (l : Nat) : Nat × Nat :=
  let c := fun k => cvtElem 1 (s.gang.et l) (s.gang.fmode l) (s.groupElem a k l)
  (packElems (s.gang.et l) (fun k => (c k).1) (elemCount (s.gang.et l)) % 2 ^ 32,
    orFlags (fun k => (c k).2) (elemCount (s.gang.et l)))
/-- The fields of cvtq, and its lane: each f32 divided by its scale, then packed. -/
abbrev Sys2Proof.Machine.fieldsQuant (d a b : Code) : OpndsOf :=
  etypeOps packTypes (fun t => [.vw 32 d, .vg (elemCount t) (elemCount t) true false true a, .vr 64 b])
@[inherit_doc Sys2Proof.Machine.fieldsQuant]
abbrev Sys2Proof.Machine.laneQuant (s : State) (a b : Code) (l : Nat) : Nat × Nat :=
  let q := fun k => fvDiv (elemValue 1 (s.gang.fmode l).ftz (s.groupElem a k l)) (s.scaleOf b l).1
  let z := fun k => convert (s.gang.et l) { s.gang.fmode l with round := 0 } (q k).1
  (packElems (s.gang.et l) (fun k => (z k).1) (elemCount (s.gang.et l)) % 2 ^ 32,
    orFlags (fun k => (z k).2 ||| (q k).2 ||| (s.scaleOf b l).2) (elemCount (s.gang.et l)))

/-- The comparisons (06 R160), and the conversions between types (06 R163 to R167): cvt converts element 0, cvtpk and
cvtq pack a group of f32 registers, unpk and cvtdq unpack into one. -/
def Sys2Proof.Claims.CompareAndConvert : Prop :=
  ∀ (s : State) (d a b : Code),
    (∀ p ∈ [((Instr.fcmpeq d a b), 0), (.fcmplt d a b, 1), (.fcmple d a b, 2), (.fcmpun d a b, 3)],
      compareRuns p.1 s (fieldsP dblTypes d a b) d (laneCmp s p.2 a b)) ∧
    (b.toNat ≤ 18 → floatRuns (.cvt d a b) s (fieldsCvt d a b) d s.wideLane (laneCvt s a b)) ∧
    floatRuns (.cvtpk d a) s (fieldsPack d a) d (fun _ => false) (lanePack s a) ∧
    floatRuns (.cvtq d a b) s (fieldsQuant d a b) d (fun _ => false) (laneQuant s a b)

/-- The fields of unpk, and an element of its lane, made an f32. -/
abbrev Sys2Proof.Machine.fieldsUnpack (d a : Code) : OpndsOf :=
  etypeOps packTypes (fun t => [.vg (elemCount t) (elemCount t) false true true d, .vr 32 a])
@[inherit_doc Sys2Proof.Machine.fieldsUnpack]
abbrev Sys2Proof.Machine.elemUnpack (s : State) (a : Code) (l k : Nat) : Nat × Nat :=
  cvtElem (s.gang.et l) 1 (s.gang.fmode l) (s.belem a l k)
/-- The fields of cvtdq, and an element of its lane, multiplied by its scale. -/
abbrev Sys2Proof.Machine.fieldsDequant (d a b : Code) : OpndsOf :=
  etypeOps packTypes (fun t => [.vg (elemCount t) (elemCount t) false true true d, .vr 32 a, .vr 64 b])
@[inherit_doc Sys2Proof.Machine.fieldsDequant]
abbrev Sys2Proof.Machine.elemDequant (s : State) (a b : Code) (l k : Nat) : Nat × Nat :=
  let z := finish 1 (s.gang.fmode l)
    (fvMul (elemValue (s.gang.et l) (s.gang.fmode l).ftz (s.belem a l k)) (s.scaleOf b l).1)
  (z.1, z.2 ||| (s.scaleOf b l).2)
/-- The flags of a lane whose elements are `c l k`. -/
abbrev Sys2Proof.Machine.State.unpackFlags (s : State) (c : Nat → Nat → Nat × Nat) (l : Nat) : Nat :=
  orFlags (fun k => (c l k).2) (elemCount (s.gang.et l))

/-- An unpacking word: register d + k takes element k of the lane (06 R166, R167). -/
def Sys2Proof.Machine.unpackRuns (i : Instr) (s : State) (f : OpndsOf) (d : Code) (c : Nat → Nat → Nat × Nat) : Prop :=
  s.issues f = true → s.gang.trapping (s.unpackFlags c) = 0 →
    ∃ t, exec i s = .next t ∧
      s.groupStep t d (fun l => elemCount (s.gang.et l)) s.gang.active (fun k l => BitVec.ofNat 32 (c l k).1)
        (laneFlags s.gang (s.unpackFlags c))

/-- gred's MODE conditions: one element type, rounding, saturation and flushing in every issuing slice (03 R85). -/
abbrev Sys2Proof.Machine.State.gredModes (s : State) : Prop :=
  s.gang.sameMode modeEtype = true ∧ s.gang.sameMode modeRound = true ∧
    s.gang.sameMode (fun m => toNat01 (modeSat m)) = true ∧ s.gang.sameMode (fun m => toNat01 (modeFtz m)) = true
/-- Its fields. -/
abbrev Sys2Proof.Machine.fieldsGred (d a : Code) (op : BitVec 3) : OpndsOf :=
  etypeOps (gredTypes op.toNat) (fun t => [.vw (vwidth t) d, .vr (vwidth t) a])
/-- What gred folds from the active lanes, the first of them `l0`: the result, and the flags of each lane's addition. -/
abbrev Sys2Proof.Machine.State.gredOf (s : State) (a : Code) (op : BitVec 3) (l0 : Nat) (ls : List Nat) :
    Nat × List (Nat × Nat) :=
  let e := modeEtype (s.gang.mode s.gang.low)
  gredFold (gredStep op.toNat e (s.gang.fmode (4 * s.gang.low))) (fun l => (s.vsrc (.elem e) a l).toNat) ls
    (s.vsrc (.elem e) a l0).toNat []
/-- The flags of a lane in such a list. -/
abbrev Sys2Proof.Machine.flagsIn (r : List (Nat × Nat)) (l : Nat) : Nat :=
  ((r.find? (fun q => decide (q.1 = l))).map (·.2)).getD 0

/-- unpk, cvtdq (06 R166, R167), and gred (03 R85): the reduction of the active lanes in ascending order, written to
each of them; with no active lane it writes nothing. That a subnormal element is flushed under MODE.ftz before unpk and
cvtdq convert it, as before every other operation, is the model's choice (log entry 99). -/
def Sys2Proof.Claims.UnpackAndReduce : Prop :=
  ∀ (s : State) (d a b : Code) (op : BitVec 3),
    unpackRuns (.unpk d a) s (fieldsUnpack d a) d (elemUnpack s a) ∧
    unpackRuns (.cvtdq d a b) s (fieldsDequant d a b) d (elemDequant s a b) ∧
    (op.toNat < 6 → s.gredModes → s.issues (fieldsGred d a op) = true →
      match s.gang.activeList with
      | [] => ∃ t, exec (.gred d a op) s = .next t ∧ s.idleStep t
      | l0 :: ls =>
        let r := s.gredOf a op l0 ls
        s.gang.trapping (flagsIn r.2) = 0 → ∃ t, exec (.gred d a op) s = .next t ∧
          s.vecStep t d (fun _ => etypeWide (modeEtype (s.gang.mode s.gang.low))) s.gang.active
            (fun _ => BitVec.ofNat 64 r.1) (laneFlags s.gang (flagsIn r.2)))

/-- Comparisons, conversions, unpacking and reductions. -/
def Obligations.FloatConversions : Prop := Sys2Proof.Claims.CompareAndConvert ∧ Sys2Proof.Claims.UnpackAndReduce

/-- A floating-point word whose lanes raise `fl`, of which some trap: FPF takes every flag, nothing is written, and the
floating-point exception trap names those lanes (06 R151, R152). -/
def Sys2Proof.Machine.floatTraps (i : Instr) (s : State) (f : OpndsOf) (fl : Nat → Nat) : Prop :=
  s.issues f = true → s.gang.trapping fl ≠ 0 →
    exec i s = .next ((s.updGang (fun g => g.raiseFlags (laneFlags s.gang fl))).takeTrap
      { cause := 0x0A, lanes := s.gang.trapping fl, aux := BitVec.ofNat 32 (laneFlags s.gang fl) })

/-- A lane whose slice has MODE.fpx and which raises NV, DZ or OF, in every word that raises flags but segr: arithmetic of
every shape, comparisons, conversions and gred (06 R151, R152; segr traps so too, 12 R306). -/
def Obligations.FloatTrap : Prop :=
  ∀ (s : State) (d a b : Code) (op : BitVec 3),
    (∀ p ∈ [((Instr.fadd d a b), FOp.add), (.fsub d a b, .sub), (.fmul d a b, .mul), (.fdiv d a b, .div), (.fmin d a b, .min),
        (.fmax d a b, .max)],
      floatTraps p.1 s (fields3 dblTypes d a b) (fun l => (laneOp s p.2 d a b l).2)) ∧
    (∀ p ∈ [((Instr.ffma d a b), FOp.fma), (.ffms d a b, .fms), (.fnma d a b, .nma)],
      floatTraps p.1 s (fields3x dblTypes d a b) (fun l => (laneOp s p.2 d a b l).2)) ∧
    floatTraps (.fscale d a b) s (fieldsScale d a b) (fun l => (laneScale s a b l).2) ∧
    (∀ p ∈ [((Instr.frcp d a), FUn.rcp), (.frsq d a, .rsq), (.fsqrt d a, .sqrt), (.fexp2 d a, .exp2), (.flog2 d a, .log2),
        (.fgetexp d a, .getexp), (.frint d a, .rint)],
      floatTraps p.1 s (fields2 dblTypes d a) (fun l => (laneUn s p.2 a l).2)) ∧
    (∀ p ∈ [((Instr.fhadd d a b), FOp.add), (.fhmul d a b, .mul), (.fhmin d a b, .min), (.fhmax d a b, .max)],
      floatTraps p.1 s (fieldsH d a b) (fun l => (halves (halfOp s p.2 d a b) l).2)) ∧
    floatTraps (.fhfma d a b) s (fieldsHx d a b) (fun l => (halves (halfOp s .fma d a b) l).2) ∧
    floatTraps (.fdot2 d a b) s (fieldsHx d a b) (fun l => (laneDot s d a b l).2) ∧
    (∀ p ∈ [((Instr.fcmpeq d a b), 0), (.fcmplt d a b, 1), (.fcmple d a b, 2), (.fcmpun d a b, 3)],
      floatTraps p.1 s (fieldsP dblTypes d a b) (fun l => (laneCmp s p.2 a b l).2)) ∧
    (b.toNat ≤ 18 → floatTraps (.cvt d a b) s (fieldsCvt d a b) (fun l => (laneCvt s a b l).2)) ∧
    floatTraps (.cvtpk d a) s (fieldsPack d a) (fun l => (lanePack s a l).2) ∧
    floatTraps (.cvtq d a b) s (fieldsQuant d a b) (fun l => (laneQuant s a b l).2) ∧
    floatTraps (.unpk d a) s (fieldsUnpack d a) (s.unpackFlags (elemUnpack s a)) ∧
    floatTraps (.cvtdq d a b) s (fieldsDequant d a b) (s.unpackFlags (elemDequant s a b)) ∧
    (op.toNat < 6 → s.gredModes → ∀ l0 ls, s.gang.activeList = l0 :: ls →
      floatTraps (.gred d a op) s (fieldsGred d a op) (flagsIn (s.gredOf a op l0 ls).2))

/-- The slices that issue stand at `x k` after a division, and fall into groups by PC: two of them are of one group
exactly when their PCs are equal, and the group is named by its lowest slice (03 R67, R69); the rest of the device, and
every register, is as before. -/
def Sys2Proof.Machine.State.dividedTo (s t : State) (x : Nat → PcVal) : Prop :=
  (∀ k, k < 8 → t.gang.pc k = if s.gang.issuing k then x k else s.gang.pc k) ∧
  (∀ j k, s.gang.issuing j = true → s.gang.issuing k = true → (t.gang.grp j = t.gang.grp k ↔ x j = x k)) ∧
  (∀ k, s.gang.issuing k = true → t.gang.grp k ≤ k ∧ s.gang.issuing (t.gang.grp k) = true ∧ x (t.gang.grp k) = x k) ∧
  (∀ k, k < 8 → s.gang.issuing k = false → t.gang.grp k = s.gang.grp k)

/-- Nothing but the PCs, the groups and the return stacks of the gang in focus has changed. -/
def Sys2Proof.Machine.State.flowOnly (s t : State) : Prop :=
  s.sameDevice t ∧ t.gang = { s.gang with flow := { s.gang.flow with
    pc := t.gang.flow.pc, grp := t.gang.flow.grp, rst := t.gang.flow.rst } }

/-- br and brx (03 R71, R73): each issuing slice decides for itself, the target is 4 times the signed offset from the PC,
or the slice's own address; the group divides. That a target of br wraps modulo 2^56 is the model's choice (log entry 88,
DESIGN CHOICE). -/
def Sys2Proof.Claims.Branches : Prop :=
  (∀ (s : State) (p : BitVec 5) (n : BitVec 1) (k : BitVec 2) (o : BitVec 16),
    (k = 0 → p.toNat < 24) → (k ≠ 0 → p = 0 ∧ n = 0) →
    ∃ t, exec (.br p n k o) s = .next t ∧ s.flowOnly t ∧ t.gang.flow.rst = s.gang.flow.rst ∧
      s.dividedTo t (fun i => if s.gang.takes k.toNat p.toNat n.toNat i then s.gang.pcNow + BitVec.ofInt 56 (4 * o.toInt)
        else s.gang.pcNow + 4)) ∧
  (∀ (s : State) (a : Code), s.issues (fixedOps [.so 64 a]) = true →
    (∀ k, s.gang.issuing k = true → (s.ssrc64 a k).toNat < 2 ^ 56 ∧ (s.ssrc64 a k).toNat % 4 = 0) →
    ∃ t, exec (.brx a) s = .next t ∧ s.flowOnly t ∧ t.gang.flow.rst = s.gang.flow.rst ∧
      s.dividedTo t (fun k => (s.ssrc64 a k).setWidth 56))

/-- A target that is no instruction address stops brx and callx with a bad-branch-target trap that names it (03 R73,
R75): the lowest issuing slice's. -/
def Sys2Proof.Claims.BadBranchTarget : Prop :=
  ∀ (s : State) (a : Code) (k : Nat), s.issues (fixedOps [.so 64 a]) = true →
    s.gang.issuingList.find? (fun k => badTarget (s.ssrc64 a k)) = some k → s.gang.issuingList.head? = some k →
    exec (.brx a) s = .next (s.takeTrap { cause := 0x04, addr := s.ssrc64 a k }) ∧
    exec (.callx a) s = .next (s.takeTrap { cause := 0x04, addr := s.ssrc64 a k })

/-- Branches and the trap of a bad target. -/
def Obligations.BranchesAndTargets : Prop := Sys2Proof.Claims.Branches ∧ Sys2Proof.Claims.BadBranchTarget

/-- call and callx with room in every issuing slice's hardware stack push PC + 4 and go to their target; ret with an entry
in each pops it and goes there (03 R74, R75). That the target of call wraps modulo 2^56 is the model's choice (log entry 88,
DESIGN CHOICE). -/
def Sys2Proof.Claims.CallsAndReturns : Prop :=
  (∀ (s : State) (i : BitVec 24), (∀ k, s.gang.issuing k = true → (s.gang.rst k).entries.length < 8) →
    s.gang.pcNow.toNat % 4 = 0 →
    ∃ t, exec (.call i) s = .next t ∧ s.flowOnly t ∧ s.dividedTo t (fun _ => s.gang.pcNow + BitVec.ofInt 56 (4 * i.toInt)) ∧
      ∀ k, s.gang.issuing k = true → t.gang.rst k =
        { s.gang.rst k with entries := (s.gang.rst k).entries ++ [(s.gang.pcNow + 4).setWidth 64] }) ∧
  (∀ (s : State) (a : Code), s.issues (fixedOps [.so 64 a]) = true →
    (∀ k, s.gang.issuing k = true → (s.gang.rst k).entries.length < 8 ∧ badTarget (s.ssrc64 a k) = false) →
    ∃ t, exec (.callx a) s = .next t ∧ s.flowOnly t ∧ s.dividedTo t (fun k => (s.ssrc64 a k).setWidth 56) ∧
      ∀ k, s.gang.issuing k = true → t.gang.rst k =
        { s.gang.rst k with entries := (s.gang.rst k).entries ++ [(s.gang.pcNow + 4).setWidth 64] }) ∧
  (∀ (s : State), (∀ k, s.gang.issuing k = true → (s.gang.rst k).entries ≠ [] ∧
      badTarget ((s.gang.rst k).entries.getLastD 0) = false) →
    ∃ t, exec .ret s = .next t ∧ s.flowOnly t ∧
      s.dividedTo t (fun k => ((s.gang.rst k).entries.getLastD 0).setWidth 56) ∧
      ∀ k, s.gang.issuing k = true → t.gang.rst k = { s.gang.rst k with entries := (s.gang.rst k).entries.dropLast })

/-- What the spills of a call leave: each of these slices whose hardware stack is full stores its four oldest entries, 8
little-endian bytes each, at the place of its next spilled group (03 R75, R76). -/
def Sys2Proof.Machine.State.spilledTo (s0 u : State) : List Nat → State → Prop
  | [], s => u = s
  | k :: ks, s =>
    if (s0.gang.rst k).entries.length < 8 then s0.spilledTo u ks s
    else ∃ m, s.gangStoreRun s0.gang.core s0.gang.wid s0.wg.part s0.wg.pasid 61
        [(((s0.gang.rst k).entries.take 4).map (fun e => bytesLE 8 e.toNat)).flatten]
        (s0.spillAt k (s0.gang.rst k).spilled) = .ok m ∧ s0.spilledTo u ks m

/-- What the refills of a ret leave, `x k` the return stack that slice k pops: a slice whose hardware stack is empty loads the
four entries of its last spilled group (03 R75, R76). -/
def Sys2Proof.Machine.State.refilledTo (s0 u : State) (x : Nat → RetStack) : List Nat → State → Prop
  | [], s => u = s
  | k :: ks, s =>
    if (s0.gang.rst k).entries ≠ [] then x k = s0.gang.rst k ∧ s0.refilledTo u x ks s
    else ∃ m bs, s.gangLoadRun s0.gang.core s0.gang.wid s0.wg.part s0.wg.pasid 61 [32]
        (s0.spillAt k ((s0.gang.rst k).spilled - 1)) = .ok (m, bs) ∧
      x k = { entries := (List.range 4).map (fun i => BitVec.ofNat 64 (ofBytesLE ((bs.drop (8 * i)).take 8)))
              spilled := (s0.gang.rst k).spilled - 1 } ∧ s0.refilledTo u x ks m

/-- call and callx where a slice's hardware stack is full and fewer than 32 groups are spilled, and ret where it is empty and
a group is spilled (03 R75, R76): the four oldest entries go to memory and come back from it, then each slice pushes or pops
as above. No access of the gang's own on those bytes is still to perform. -/
def Sys2Proof.Claims.SpillAndRefill : Prop :=
  (∀ (s u : State) (i : BitVec 24) (a : Code), s.spilledTo u s.gang.issuingList s →
    (∀ k, s.gang.issuing k = true → 8 ≤ (s.gang.rst k).entries.length →
      (s.gang.rst k).spilled < 32 ∧ s.lateOnRun (s.spillAt k (s.gang.rst k).spilled) 32 .write = []) →
    let pushed := fun t : State => t = { u with gangs := t.gangs } ∧ t.gang.regs = s.gang.regs ∧
      ∀ k, s.gang.issuing k = true → t.gang.rst k =
        if (s.gang.rst k).entries.length < 8 then
          { s.gang.rst k with entries := (s.gang.rst k).entries ++ [(s.gang.pcNow + 4).setWidth 64] }
        else { entries := (s.gang.rst k).entries.drop 4 ++ [(s.gang.pcNow + 4).setWidth 64]
               spilled := (s.gang.rst k).spilled + 1 }
    (s.gang.pcNow.toNat % 4 = 0 → ∃ t, exec (.call i) s = .next t ∧ pushed t ∧
      s.dividedTo t (fun _ => s.gang.pcNow + BitVec.ofInt 56 (4 * i.toInt))) ∧
    (s.issues (fixedOps [.so 64 a]) = true → (∀ k, s.gang.issuing k = true → badTarget (s.ssrc64 a k) = false) →
      ∃ t, exec (.callx a) s = .next t ∧ pushed t ∧ s.dividedTo t (fun k => (s.ssrc64 a k).setWidth 56))) ∧
  (∀ (s u : State) (x : Nat → RetStack), s.refilledTo u x s.gang.issuingList s →
    (∀ k, s.gang.issuing k = true → badTarget ((x k).entries.getLastD 0) = false ∧ ((s.gang.rst k).entries = [] →
      0 < (s.gang.rst k).spilled ∧ s.lateOnRun (s.spillAt k ((s.gang.rst k).spilled - 1)) 32 .read = [])) →
    ∃ t, exec .ret s = .next t ∧ t = { u with gangs := t.gangs } ∧ t.gang.regs = s.gang.regs ∧
      s.dividedTo t (fun k => ((x k).entries.getLastD 0).setWidth 56) ∧
      ∀ k, s.gang.issuing k = true → t.gang.rst k = { x k with entries := (x k).entries.dropLast })

/-- The return stack's ends (03 R75): a call with a full hardware stack and 32 groups spilled overflows, and a ret
with no entry and no spilled group underflows: the lowest issuing slice decides here. -/
def Sys2Proof.Claims.ReturnStackLimits : Prop :=
  ∀ (s : State) (k : Nat), s.gang.issuingList.head? = some k →
    (s.gang.pcNow.toNat % 4 = 0 → ∀ i : BitVec 24, 8 ≤ (s.gang.rst k).entries.length → 32 ≤ (s.gang.rst k).spilled →
      exec (.call i) s = .next (s.takeTrap { cause := 0x05 })) ∧
    ((s.gang.rst k).entries = [] → (s.gang.rst k).spilled = 0 → exec .ret s = .next (s.takeTrap { cause := 0x06 }))

/-- Calls, returns and the limits of the return stack. -/
def Obligations.ReturnStacks : Prop := Sys2Proof.Claims.CallsAndReturns ∧ Sys2Proof.Claims.SpillAndRefill ∧ Sys2Proof.Claims.ReturnStackLimits

/-- regang (03 R77): the issuing slices wait; when every slice of the mask that has not exited waits at this word, they
become one group at PC + 4, named by the lowest. exit (03 R79): the issuing slices have exited, and the others go on. -/
def Sys2Proof.Claims.RejoinAndExit : Prop :=
  (∀ (s : State) (m : Code), (s.gang.waitHere m).mergesAt s.gang.pcNow = true → ∃ t, exec (.regang m) s = .next t ∧
    s.sameDevice t ∧ t.gang.regs = s.gang.regs ∧
    ∀ k, k < 8 → k ∈ (s.gang.waitHere m).waitersAt s.gang.pcNow →
      t.gang.pc k = s.gang.pcNow + 4 ∧ t.gang.flow.waiting.getLsbD k = false ∧
      t.gang.grp k = ((s.gang.waitHere m).waitersAt s.gang.pcNow).headD 0) ∧
  (∀ (s : State) (m : Code), (s.gang.waitHere m).mergesAt s.gang.pcNow = false → (s.gang.waitHere m).regangDead = false →
    ∃ t, exec (.regang m) s = .next t ∧ s.sameDevice t ∧ t.gang.regs = s.gang.regs ∧
      ∀ k, k < 8 → t.gang.pc k = s.gang.pc k ∧
        (t.gang.flow.waiting.getLsbD k = (s.gang.flow.waiting.getLsbD k || s.gang.issuing k))) ∧
  (∀ (s : State), s.gang.reports = [] → s.gang.exitHere.regangDead = false → ∃ t, exec .exit s = .next t ∧
    s.sameDevice t ∧ t.gang.regs = s.gang.regs ∧
    ∀ k, k < 8 → (t.gang.exitedAt k = (s.gang.exitedAt k || s.gang.issuing k)) ∧ t.gang.pc k = s.gang.pc k)

/-- A gang whose slices all wait at regangs that cannot merge takes the deadlock trap (03 R78). Where they wait at
several, that its record names the PC-group of the lowest live slice is the model's choice (log entry 88, DESIGN CHOICE). -/
def Sys2Proof.Claims.RegangDeadlock : Prop :=
  ∀ (s : State) (m : Code), (s.gang.waitHere m).mergesAt s.gang.pcNow = false → (s.gang.waitHere m).regangDead = true →
    let g := (s.gang.keepWord s.ir).waitHere m
    exec (.regang m) s = .next
      ((s.setGang { g with flow := { g.flow with served := g.grp g.firstLive } }).trapWaiting { cause := 0x07 })

/-- Waiting at a regang, merging, exit, and the deadlock trap. -/
def Obligations.RegangAndExit : Prop := Sys2Proof.Claims.RejoinAndExit ∧ Sys2Proof.Claims.RegangDeadlock

/-- The hints (03 R95): nop only moves on; yield ends the turn of the fetch slot, and puts the gang directly before the gang
that issued last, which is the model's reading of the last place of the ring's rotation (04 R99; log entry 102, DEDUCED); promo keeps the hint and promo demote leaves the
sprinter seat unless a lock is held (04 R102, R109). -/
def Obligations.Hints : Prop :=
  ∀ (s : State),
    (∃ t, exec .nop s = .next t ∧ s.idleStep t) ∧
    (∃ t, exec .yield s = .next t ∧ s.past t ∧ t = { s with gangs := t.gangs, cores := t.cores } ∧
      (∀ k, k ≠ s.cur → t.gangAt k = s.gangAt k) ∧ t.gang.regs = s.gang.regs ∧ t.gang.flow.count = 16 ∧
      (∀ c, c ≠ s.gang.core → t.coreAt c = s.coreAt c) ∧
      t.coreAt s.gang.core = { s.coreAt s.gang.core with ring := (t.coreAt s.gang.core).ring } ∧
      (∀ p, mapFind s.gang.lg (s.coreAt s.gang.core).herdPtr = some p → p ≠ s.cur →
        s.cur ∈ mapGet [] (s.coreAt s.gang.core).ring s.gang.lg → p ∈ mapGet [] (s.coreAt s.gang.core).ring s.gang.lg →
        ∃ before after, (mapGet [] (s.coreAt s.gang.core).ring s.gang.lg).filter (fun k => decide (k ≠ s.cur)) =
            before ++ p :: after ∧
          mapGet [] (t.coreAt s.gang.core).ring s.gang.lg = before ++ s.cur :: p :: after)) ∧
    (∃ t, exec .promo s = .next t ∧ s.past t ∧ s.sameDevice t ∧ t.gang.regs = s.gang.regs ∧
      t.gang.hint = some s.clock.toNat) ∧
    (s.gang.locks = [] → ∃ t, exec .promoDemote s = .next t ∧ s.past t ∧ t.gang.regs = s.gang.regs ∧
      (∀ k q, (k, q) ∈ (t.coreAt s.gang.core).seats → q.holder ≠ some s.cur) ∧ t.mem = s.mem) ∧
    (s.gang.locks ≠ [] → ∃ t, exec .promoDemote s = .next t ∧ s.idleStep t)

/-- EXEC and MODE (03 R80, R86, R87), and flclr (06 R153): exand keeps the lanes whose predicate has the sense and saves
the old EXEC; exload takes the scalar's bits; an mset writes one field of every issuing slice's MODE and an msetg or
msetr all of it. -/
def Obligations.MasksAndModes : Prop :=
  ∀ (s : State) (d a : Code) (b : BitVec 1) (sel : BitVec 3) (i : BitVec 16) (w : BitVec 23) (m : BitVec 5),
    (s.issues (fixedOps [.sw 32 d, .pr a]) = true → ∃ t, exec (.exand d a b) s = .next t ∧ s.past t ∧ s.sameDevice t ∧
      (∀ l, l < 32 → t.gang.execBit l = if s.gang.issuing (l / 4) then
        s.gang.execBit l && (s.gang.psrc a l == decide (b = 0)) else s.gang.execBit l) ∧
      ∀ k, k < 8 → s.gang.issuing k = true → d ≠ 0xF0 → t.gang.s k d.toNat = s.gang.regs.exec) ∧
    (s.issues (fixedOps [.sr 32 a]) = true → ∃ t, exec (.exload a) s = .next t ∧ s.past t ∧ s.sameDevice t ∧
      ∀ l, l < 32 → t.gang.execBit l = if s.gang.issuing (l / 4) then (s.ssrc a (l / 4)).getLsbD l else s.gang.execBit l) ∧
    (msetImageOk sel i = true → ∃ t, exec (.mset sel i) s = .next t ∧ s.past t ∧ s.sameDevice t ∧
      ∀ k, k < 8 → t.gang.mode k = if s.gang.issuing k then msetValue (s.gang.mode k) sel.toNat i.toNat else s.gang.mode k) ∧
    (modeImageOk w = true → ∃ t, exec (.msetg w) s = .next t ∧ s.past t ∧ s.sameDevice t ∧
      ∀ k, k < 8 → t.gang.mode k = if s.gang.issuing k then w.setWidth 32 else s.gang.mode k) ∧
    (s.issues (fixedOps [.sr 32 a]) = true → s.gang.allIssuing (fun k => modeImageOk ((s.ssrc a k).setWidth 23)) = true →
      ∃ t, exec (.msetr a) s = .next t ∧ s.past t ∧ s.sameDevice t ∧
        ∀ k, k < 8 → t.gang.mode k = if s.gang.issuing k then ((s.ssrc a k).setWidth 23 : BitVec 23).setWidth 32
          else s.gang.mode k) ∧
    (∃ t, exec (.flclr m) s = .next t ∧ s.past t ∧ s.sameDevice t ∧ t.gang.regs = { s.gang.regs with
      fpf := s.gang.regs.fpf &&& ~~~ m })

/-- A number that a wait names for a path: 63 means no condition (03 R89). -/
abbrev Sys2Proof.Machine.waitNumber (l st c t : BitVec 6) (p : Nat) : Nat := if p = 0 then l.toNat else if p = 1 then st.toNat else if p = 2 then c.toNat else t.toNat

/-- wait and waitr (03 R89, R90): with every counter at or below its number and no report covered, the word is past; with
a counter above, the group stalls at it. -/
def Obligations.Waits : Prop :=
  (∀ (s : State) (l st c t : BitVec 6), s.gang.reports = [] →
    ((∀ p, p < 4 → waitNumber l st c t p = 63 ∨ s.gang.counter p ≤ waitNumber l st c t p) →
      ∃ t', exec (.wait l st c t) s = .next t' ∧ s.idleStep t') ∧
    ((∃ p, p < 4 ∧ waitNumber l st c t p ≠ 63 ∧ waitNumber l st c t p < s.gang.counter p) →
      exec (.wait l st c t) s = .next (s.stall (.counters l.toNat st.toNat c.toNat t.toNat)))) ∧
  (∀ (s : State) (a : BitVec 3) (b : Code), s.issues (fixedOps [.sr 32 b]) = true → s.gang.reports = [] → a.toNat < 6 →
    ((63 ≤ (s.sarg b).toNat ∨ s.gang.counter a.toNat ≤ (s.sarg b).toNat) →
      ∃ t, exec (.waitr a b) s = .next t ∧ s.idleStep t) ∧
    ((s.sarg b).toNat < 63 → (s.sarg b).toNat < s.gang.counter a.toNat →
      exec (.waitr a b) s = .next (s.stall (.path a.toNat (s.sarg b).toNat))))

/-- regrow and regshr (03 R91 to R94): with rows free and no older request the gang gains `i` registers that read 0 and
its predicate is set; beyond 240 the predicate is cleared; otherwise the request waits, under a number that gives its age. regshr gives registers up. -/
def Obligations.RegisterAllocation : Prop :=
  (∀ (s : State) (d : Code) (i : BitVec 16), allocStepOk i = true → s.issues (fixedOps [.pw d]) = true → s.gang.whole = true →
    let u := s.leaveSeat s.cur
    let room := decide (i.toNat ≤ u.freeRows s.gang.core s.gang.lg) &&
      !(u.requests s.gang.core s.gang.lg).any (fun r => decide (r.2.1 ≠ s.cur))
    (s.gang.alloc + i.toNat ≤ 240 → room = true → ∃ t, exec (.regrow d i) s = .next t ∧ s.past t ∧
      t.gang.alloc = s.gang.alloc + i.toNat ∧ (∀ l, l < 32 → d ≠ 0xF0 → t.gang.p d.toNat l = true) ∧
      ∀ r l, l < 32 → t.gang.v r l = if s.gang.alloc ≤ r ∧ r < s.gang.alloc + i.toNat then 0 else s.gang.v r l) ∧
    (s.gang.alloc + i.toNat ≤ 240 → room = false →
      exec (.regrow d i) s = .next (u.takeId.2.stall (.regrow d i.toNat u.takeId.1))) ∧
    (240 < s.gang.alloc + i.toNat → ∃ t, exec (.regrow d i) s = .next t ∧ s.past t ∧ t.gang.alloc = s.gang.alloc ∧
      ∀ l, l < 32 → d ≠ 0xF0 → t.gang.p d.toNat l = false)) ∧
  (∀ (s : State) (i : BitVec 16), allocStepOk i = true → s.gang.whole = true → i.toNat + 8 ≤ s.gang.alloc →
    ∃ t, exec (.regshr i) s = .next t ∧ s.past t ∧ t.gang.alloc = s.gang.alloc - i.toNat ∧
      ∀ r l, r < s.gang.alloc - i.toNat → l < 32 → t.gang.v r l = s.gang.v r l)

/-- The places of the lanes of a memory word, in lane order (07 R170, R171, R176). -/
def Sys2Proof.Machine.State.lanePlaces (s : State) (f : Form) (a : Code) : List (Nat × Place) :=
  s.gang.memLanes.filterMap (fun l => match s.place f.sp f.size (s.vsrc64 a l) l with
    | .ok p => some (l, p)
    | .error _ => none)

/-- A memory word may perform: nothing that is under way holds its paths, no lane's address is at fault, its path has room
(02 R52), every lane translates, and no line of it is one that an earlier operation of the gang has yet to perform on. -/
def Sys2Proof.Machine.State.reaches (s : State) (f : Form) (a : Code) (before : State → State) : Prop :=
  let r := translateLanes f (s.lanePlaces f a) (before (s.countMem f))
  s.gang.heldBy f.paths = [] ∧ s.placeFault f s.gang.memLanes (s.vsrc64 a) = none ∧
  (f.sp = 2 ∨ s.gang.counter f.path < 63) ∧ r.2.faults = [] ∧ s.gang.lateOn r.2.ok = []

/-- The word runs: its lanes perform in lane order at their places, on this device, in a Barn, in the L1 or by a message to
another device, with what performs later kept as the effect says, once what other cores must first push has performed (08
R224); the operation counts on its path (but in space 2), as one
that has performed where nothing of it is under way; and the word is past. -/
def Sys2Proof.Machine.memRuns (i : Instr) (s : State) (fs : OpndsOf) (f : Form) (a : Code) (e : Effect) : Prop :=
  s.issues fs = true → s.reaches f a e.before → e.push s (translateLanes f (s.lanePlaces f a) (e.before (s.countMem f))).2.ok = [] →
    let r := translateLanes f (s.lanePlaces f a) (e.before (s.countMem f))
    let id := r.1.nextId
    let s1 := { r.1 with nextId := id + 1 }
    let done := !r.2.ok.any (fun t => t.2.far) && (e.late id r.2.ok).isNone
    let s2 := if f.sp = 2 then s1 else s1.updGang (fun g => g.raise f.path id done)
    exec i s = .next (((s2.runLanes f e id r.2.ok).updGang Gang.finishReplay).advance)

/-- Loads and stores of every size and space, over every set of active lanes, wherever the lanes' places are and at every
pace: as the word issues, or wholly or in its upper half at a later turn (07 R177 to R180; 08 R213; 02 R52). -/
def Obligations.LoadsAndStoresRun : Prop :=
  ∀ (s : State) (d a : Code) (n : BitVec 6) (sp : BitVec 2), n ≠ 63 →
    (∀ p ∈ [((Instr.ldb d a n sp), 1, false), (.ldbs d a n sp, 1, true), (.ldh d a n sp, 2, false), (.ldhs d a n sp, 2, true),
        (.ldw d a n sp, 4, false), (.ldd d a n sp, 8, false), (.ldq d a n sp, 16, false)],
      memRuns p.1 s (fixedOps [.vw (max 32 (8 * p.2.1)) d, .vr 64 a]) { acc := .read, size := p.2.1, sp := sp.toNat, path := 0 } a
        (pacedLoad s.pace d p.2.1 p.2.2 (s.gang.nuCode n.toNat))) ∧
    (∀ p ∈ [((Instr.stb d a n sp), 1), (.sth d a n sp, 2), (.stw d a n sp, 4), (.std d a n sp, 8), (.stq d a n sp, 16)],
      memRuns p.1 s (fixedOps [.vr (max 32 (8 * p.2)) d, .vr 64 a]) { acc := .write, size := p.2, sp := sp.toNat, path := 1 } a
        (pacedStore s.pace p.2 (s.gang.nuCode n.toNat) (fun l => s.storeData d p.2 l)))

/-- These lanes perform, at their targets, after the translation has left the state `u`. -/
def Sys2Proof.Machine.State.lanesAt (s : State) (f : Form) (a : Code) (u : State) (ts : List (Nat × Target)) : Prop :=
  s.gang.memLanes = ts.map (·.1) ∧ s.reaches f a id ∧
  translateLanes f (s.lanePlaces f a) (s.countMem f) = (u, { ok := ts, faults := [] })

/-- One lane performs, at the target `t`. -/
abbrev Sys2Proof.Machine.State.laneAt (s : State) (f : Form) (a : Code) (l : Nat) (u : State) (t : Target) : Prop :=
  s.lanesAt f a u [(l, t)]

/-- The byte that a load of the gang's core brings into its L1 line: the core's own copy where valid, otherwise the predicted
peer's or the home's (07 R202; 08 R218). -/
def Sys2Proof.Machine.State.filled (u : State) (core pa : Nat) (page : Page) (b : Nat) : Byte :=
  match u.l1Line core (pa / 128), (u.probe core (pa / 128) page).2 with
  | some x, some y => if x.valid.getLsbD (b % 128) then x.byte (b % 128) else y.byte (b % 128)
  | some x, none => if x.valid.getLsbD (b % 128) then x.byte (b % 128) else u.byteAt b
  | none, some y => y.byte (b % 128)
  | none, none => u.byteAt b

/-- What a load that performs as it issues finds (07 R177, R202; 08 R214, R218): little-endian bytes of the core's view of
memory, or of a Barn with the stores queued on the core first; extended to 32 bits, or a pair, or four registers. Only the
data registers of that lane change. -/
def Obligations.LoadedValue : Prop :=
  ∀ (s u : State) (d a : Code) (n : BitVec 6) (sp : BitVec 2) (l : Nat) (tg : Target), n ≠ 63 → d ≠ 0xF0 → s.pace = .now →
    ∀ p ∈ [((Instr.ldb d a n sp), 1, false), (.ldbs d a n sp, 1, true), (.ldh d a n sp, 2, false), (.ldhs d a n sp, 2, true),
        (.ldw d a n sp, 4, false), (.ldd d a n sp, 8, false), (.ldq d a n sp, 16, false)],
      s.issues (fixedOps [.vw (max 32 (8 * p.2.1)) d, .vr 64 a]) = true →
      s.laneAt { acc := .read, size := p.2.1, sp := sp.toNat, path := 0 } a l u tg →
      ∀ v : Nat, (match tg with
        | .mem pa page => pa % 128 + p.2.1 ≤ 128 ∧ v = readLE (u.filled s.gang.core pa page) pa p.2.1
        | .tile core t off => v = readLE (fun i => u.barnByte s.gang.core core (t.phys i)) off p.2.1
        | _ => False) →
      ∃ t, exec p.1 s = .next t ∧ s.past t ∧
        (p.2.1 < 4 → t.gang.v d.toNat l = extendLoad p.2.1 p.2.2 v) ∧
        (4 ≤ p.2.1 → ∀ i, i < p.2.1 / 4 → t.gang.v (d.toNat + i) l = BitVec.ofNat 32 (v / 2 ^ (32 * i))) ∧
        ∀ r k, k < 32 → ¬ (k = l ∧ d.toNat ≤ r ∧ r < d.toNat + max 1 (p.2.1 / 4)) → t.gang.v r k = s.gang.v r k

/-- The line of an address is held by the core's L1, or a way of its set is free: no line is evicted. -/
def Sys2Proof.Machine.State.roomFor (s : State) (core a : Nat) : Prop :=
  (s.l1Line core (a / 128)).isSome = true ∨
  (s.coreAt core).l1.find? (fun e => decide (e.1 % 128 = a / 128 % 128) &&
    decide (e.2.way = s.chooseWay core (a / 128))) = none

/-- Where a plain store that performs as it issues goes, and its frame (07 R177; 08 R218): the bytes at the lane's address take the low bytes of the
data field, in the core's view of memory; every other byte of that view, every byte at home, every
register of the gang and every other core is as the translation left it. -/
def Obligations.StoredBytesAndFrame : Prop :=
  ∀ (s u : State) (d a : Code) (n : BitVec 6) (sp : BitVec 2) (l pa : Nat) (lw : Page), n ≠ 63 → s.pace = .now →
    ∀ p ∈ [((Instr.stb d a n sp), 1), (.sth d a n sp, 2), (.stw d a n sp, 4), (.std d a n sp, 8), (.stq d a n sp, 16)],
      s.issues (fixedOps [.vr (max 32 (8 * p.2)) d, .vr 64 a]) = true →
      s.laneAt { acc := .write, size := p.2, sp := sp.toNat, path := 1 } a l u (.mem pa lw) →
      pa % 128 + p.2 ≤ 128 → u.roomFor s.gang.core pa →
      ∃ t, exec p.1 s = .next t ∧ s.past t ∧ t.gang.regs = s.gang.regs ∧
        (∀ b, t.look s.gang.core b =
          if pa ≤ b ∧ b < pa + p.2 then byteAt (s.storeData d p.2 l) (b - pa) else u.look s.gang.core b) ∧
        t.mem = u.mem ∧ (∀ c, c ≠ s.gang.core → t.coreAt c = u.coreAt c) ∧
        (t.coreAt s.gang.core).banks = (u.coreAt s.gang.core).banks

/-- A plain store of any size into a Barn, its own core's or a neighbour's, that performs as it issues (07 R174, R177; 08
R218): a Barn load of the gang's core finds its bytes, and every other byte of every Barn, the banks and all of memory are as
before: the bytes stand in the core's store queues. The tile's granules do not repeat. -/
def Obligations.BarnStoreAndFrame : Prop :=
  ∀ (s u : State) (d a : Code) (n : BitVec 6) (sp : BitVec 2) (l core off : Nat) (tl : Tile), n ≠ 63 → tl.granules.Nodup →
    tl.level = 0 → s.pace = .now →
    ∀ p ∈ [((Instr.stb d a n sp), 1), (.sth d a n sp, 2), (.stw d a n sp, 4), (.std d a n sp, 8), (.stq d a n sp, 16)],
      off + p.2 ≤ tl.granules.length * 128 → s.issues (fixedOps [.vr (max 32 (8 * p.2)) d, .vr 64 a]) = true →
      s.laneAt { acc := .write, size := p.2, sp := sp.toNat, path := 1 } a l u (.tile core tl off) →
      ∃ t, exec p.1 s = .next t ∧ s.past t ∧ t.gang.regs = s.gang.regs ∧ t.mem = u.mem ∧
        (∀ c, (t.coreAt c).banks = (u.coreAt c).banks ∧ (t.coreAt c).l1 = (u.coreAt c).l1) ∧
        (∀ i, i < p.2 → t.barnByte s.gang.core core (tl.phys (off + i)) = byteAt (s.storeData d p.2 l) i) ∧
        ∀ c b, ¬ (c = core ∧ ∃ i, i < p.2 ∧ b = tl.phys (off + i)) →
          t.barnByte s.gang.core c b = u.barnByte s.gang.core c b

/-- The fields of ld.acq, st.rel and the atomics. -/
abbrev Sys2Proof.Machine.orderedForm (acc : Acc) (w : BitVec 1) (sp : BitVec 2) (path : Nat) : Form :=
  { acc := acc, size := wSize w, sp := sp.toNat, path := path }

/-- ld.acq and st.rel (07 R181; 08 R219, R220, R222, R223): the acquire's actions follow the loads, or hold the gang's later
accesses until they have come back; the release's actions precede its own write, which performs at home at scope nbh or
wider. While the release has something to wait for, an operation of the gang or another device's acknowledgement, that write
alone waits for it, and the gang goes on: that a store found poisoned meanwhile is reported at the next release is the
model's choice (log entry 90, DEDUCED). -/
def Obligations.OrderedLoadsAndStores : Prop :=
  ∀ (s : State) (d a : Code) (c : BitVec 3) (r lk w : BitVec 1) (sp : BitVec 2), c ≠ 7 →
    let v := fun l => s.storeData d (wSize w) l
    let key := fun l => lockKey sp.toNat (wSize w) (s.vsrc64 a l)
    let e := releaseEffect (wSize w) c.toNat (s.gang.nuCode 62) v
    let rel := fun (e : Effect) =>
      memRuns (.stRel d a c lk w sp) s (fixedOps [.vr (8 * wSize w) d, .vr 64 a]) (orderedForm .write w sp 1) a e
    ((r = 1 → c = 4) → memRuns (.ldAcq d a c r w sp) s (fixedOps [.vw (8 * wSize w) d, .vr 64 a]) (orderedForm .read w sp 0) a
      (acquireEffect d (wSize w) c.toNat (r = 1) (s.gang.nuCode 62))) ∧
    (s.gang.releaseReport c.toNat = none →
      (s.releasesNow c.toNat = true → rel { e with
        before := fun q => q.releaseActs q.gang.core c.toNat
        after := fun _ q => if lk = 1 then q.updGang (fun g => { g with
          locks := s.gang.memLanes.foldl (fun ls l => lockLeave ls (key l).1 (key l).2) g.locks }) else q }) ∧
      (s.releasesNow c.toNat = false → rel { e with
        now := false
        late := fun id ts => some { id := id, kind := .release c.toNat (wSize w), path := 1, after := s.gang.releaseWaits c.toNat
                                    lanes := (lateLanes ts 0 (s.gang.nuCode 62) v).map (fun x =>
                                      { x with lock := if lk = 1 then some (key x.lane) else none }) } }))

/-- An atomic word: its instruction, its operation and its fields. -/
abbrev Sys2Proof.Machine.atomicWords (d a : Code) (c : BitVec 3) (lk r w : BitVec 1) (sp : BitVec 2) :
    List (Instr × AtomOp × BitVec 1 × OpndsOf) :=
  let fs := fun ok => etypeOps ok (fun _ => [if r = 1 then Opnd.vx (8 * wSize w) d else .vr (8 * wSize w) d, .vr 64 a])
  let minmax := fun t => [9, 10, 13, 14].contains t
  [(.atadd d a c r w sp, .add, 0, fs anyType), (.atfadd d a c r w sp, .fadd, 0, fs anyType),
   (.atmin d a c r w sp, .min, 0, fs minmax), (.atmax d a c r w sp, .max, 0, fs minmax),
   (.atand d a c r w sp, .and, 0, fs anyType), (.ator d a c r w sp, .or, 0, fs anyType),
   (.atxor d a c r w sp, .xor, 0, fs anyType), (.atxchg d a c lk r w sp, .xchg, lk, fs anyType),
   (.atcas d a c lk r w sp, .cas, lk, etypeOps anyType (fun _ => atomOps .cas d a (wSize w) (r = 1)))]

/-- The operation of lane `l` on the old value `m` (07 R182, R183), under the lane's signedness: the data field is an integer of
the access's size, of atfadd a float, and of compare and swap the compare value, then the new one. -/
def Sys2Proof.Machine.State.atomResult (s : State) (op : AtomOp) (d : Code) (w : BitVec 1) (l m : Nat) : Nat :=
  let x := s.atomNewArg op d (wSize w) l
  let n := 8 * wSize w
  let key := fun v : Nat => if s.gang.et l < 13 then signedOf n v else (v : Int)
  match op with
  | .add => (m + x) % 2 ^ n
  | .fadd => (fopElem .add (if w = 1 then 0 else 1) { round := 0, sat := false, ftz := false } m x 0).1 % 2 ^ n
  | .min => if key x < key m then x else m
  | .max => if key m < key x then x else m
  | .and => m &&& x
  | .or => m ||| x
  | .xor => m ^^^ x
  | .xchg => x
  | .cas => if m = s.atomLow d (wSize w) l then x else m

/-- What the lanes of an atomic make of one location and of the lock list, in lane order (07 R183; 04 R103): with .lock,
atxchg enters its address where the old value was another, atcas where the comparison succeeds. -/
def Sys2Proof.Machine.State.atomFold (s : State) (op : AtomOp) (d a : Code) (lk w : BitVec 1) (sp : Nat) (old : Nat)
    (ls : List Nat) : Nat × List LockEntry :=
  ls.foldl (fun q l =>
    let key := lockKey sp (wSize w) (s.vsrc64 a l)
    (s.atomResult op d w l q.1,
      if lk = 1 ∧ ((op = .xchg ∧ q.1 ≠ s.atomNewArg op d (wSize w) l) ∨ (op = .cas ∧ q.1 = s.atomLow d (wSize w) l)) then
        lockEnter q.2 key.1 key.2 s.stepNo else q.2)) (old, s.gang.locks)

/-- An atomic whose lanes all name one location that holds `old`: with ret = 1 every lane's registers take the value that the
lanes before it have left, and the lock list is as they leave it. -/
def Sys2Proof.Machine.State.atomEnd (s t : State) (op : AtomOp) (d a : Code) (lk w ret : BitVec 1) (sp : Nat) (old : Nat)
    (ls : List Nat) : Prop :=
  s.past t ∧ t.gang.locks = (s.atomFold op d a lk w sp old ls).2 ∧
  (ret = 1 → d.toNat < 0xF0 → ∀ xs l ys, ls = xs ++ l :: ys → ∀ j, j < wSize w / 4 →
    t.gang.v (d.toNat + j) l = BitVec.ofNat 32 ((s.atomFold op d a lk w sp old xs).1 / 2 ^ (32 * j)))

/-- The atomics (07 R182 to R184; 08 R218): add, floating add, minimum, maximum, and, or, xor, exchange, compare and swap, with
every data code, set of lanes, scope and lock. Each runs, its lanes in lane order at their places. Where all its lanes name
one location: at home, at scope nbh or wider; below it, in the core's view; in a Barn, once the queues of both cores have
reached the banks. A lane whose place is on another device sends its operation there. -/
def Obligations.Atomics : Prop :=
  ∀ (s : State) (d a : Code) (c : BitVec 3) (lk r w : BitVec 1) (sp : BitVec 2), c ≠ 7 →
    ∀ p ∈ atomicWords d a c lk r w sp, (p.2.1 = .cas → casDataOk (r = 1) (w = 1) d = true) →
      let f := orderedForm .atomic w sp (if r = 1 then 0 else 1)
      let n := wSize w
      let core := s.gang.core
      memRuns p.1 s p.2.2.2 f a (s.atomEffect p.2.1 d a n c.toNat (p.2.2.1 = 1) (r = 1) sp.toNat) ∧
      (∀ (u : State) (l : Nat) (ls : List Nat) (tg : Target), s.issues p.2.2.2 = true →
        s.lanesAt f a u ((l :: ls).map (fun k => (k, tg))) →
        let new := fun old => (s.atomFold p.2.1 d a p.2.2.1 w sp.toNat old (l :: ls)).1
        match tg with
        | .mem pa page =>
          (3 ≤ c.toNat →
            let v := u.flushLine core (pa / 128)
            ∃ t, exec p.1 s = .next t ∧ s.atomEnd t p.2.1 d a p.2.2.1 w r sp.toNat (v.readHome pa n) (l :: ls) ∧
              ∀ b, t.byteAt b = if pa ≤ b ∧ b < pa + n then byteAt (new (v.readHome pa n)) (b - pa) else v.byteAt b) ∧
          (c.toNat < 3 → pa % 128 + n ≤ 128 → u.roomFor core pa →
            let old := readLE (u.filled core pa page) pa n
            ∃ t, exec p.1 s = .next t ∧ s.atomEnd t p.2.1 d a p.2.2.1 w r sp.toNat old (l :: ls) ∧ t.mem = u.mem ∧
              ∀ b, t.look core b = if pa ≤ b ∧ b < pa + n then byteAt (new old) (b - pa)
                else if b / 128 = pa / 128 then u.filled core pa page b else u.look core b)
        | .tile tc tl off => tl.granules.Nodup → tl.level = 0 → off + n ≤ tl.granules.length * 128 →
          let v := (u.drainQueues tc).drainQueues core
          let old := readLE (fun i => v.bankByte tc (tl.phys i)) off n
          ∃ t, exec p.1 s = .next t ∧ s.atomEnd t p.2.1 d a p.2.2.1 w r sp.toNat old (l :: ls) ∧ t.mem = u.mem ∧
            (∀ i, i < n → t.bankByte tc (tl.phys (off + i)) = byteAt (new old) i) ∧
            ∀ k b, ¬ (k = tc ∧ ∃ i, i < n ∧ b = tl.phys (off + i)) → t.bankByte k b = v.bankByte k b
        | .remote pa _ => ∃ t, exec p.1 s = .next t ∧ s.past t ∧ t.mem = (u.flushLine core (farLine pa)).mem ∧
          ∀ k, k ∈ l :: ls → ∃ m ∈ t.msgs, m.kind = .atomic (atomTag p.2.1 (s.gang.et k < 13)) n
              (BitVec.ofNat 64 (s.atomNewArg p.2.1 d n k)) ∧ m.data = s.atomLow d n k ∧ m.addr = pa ∧ m.dst = pa / 2 ^ 40 ∧
            m.gang = s.cur ∧ m.lane = k ∧ m.reg = if r = 1 then d.toNat else 0xF0
        | _ => True)

/-- The tile fault of an address pair (07 R170, R174, R176): a reserved bit, then a neighbour index that names no workgroup, a
handle not allocated, a tile at another level, an access past the extent; with the handle. -/
def Sys2Proof.Machine.State.tileFault (s : State) (sp size : Nat) (x : DWord) : Option (Nat × Nat) :=
  let hi := x.toNat / 2 ^ 32
  if (if sp = 2 then hi / 64 else hi / 8192 + hi / 64 % 4) ≠ 0 then some (5, hi % 64)
  else match if sp = 2 then some s.gang.wid else s.neighbour s.wg (hi / 256 % 32) with
    | none => some (3, hi % 64)
    | some wid => match (s.wgAt wid).tile (hi % 64) with
      | none => some (0, hi % 64)
      | some t => if t.level ≠ 0 then some (1, hi % 64)
        else if t.extent < x.toNat % 2 ^ 32 * size + size then some (2, hi % 64) else none

/-- The faults of a memory word that checks these lanes: misalignment, an address that is not canonical, one outside the
private slot, one outside its tile, each before the next (07 R176, R179; 16 R387). The record names every lane that meets the
first of them; its address is the lowest lane's, its tile sub-cause the first in R176's order. -/
def Sys2Proof.Machine.addressFaults (i : Instr) (s : State) (fs : OpndsOf) (f : Form) (a : Code) (lanes : List Nat) : Prop :=
  s.issues fs = true → s.gang.heldBy f.paths = [] →
    let x := fun l => (s.vsrc64 a l).toNat
    let fits := fun l => inAperture (x l) && decide (x l % 2 ^ 48 + f.size ≤ s.wg.z)
    let traps := fun (cause : Nat) (bad : Nat → Bool) => ∀ l ls, lanes.filter bad = l :: ls →
      exec i s = .next (s.takeTrap { cause := cause, lanes := laneMask (fun k => (l :: ls).contains k), addr := s.vsrc64 a l })
    (f.sp < 2 → traps 0x0B (fun l => decide (x l % f.size ≠ 0)) ∧
      ((∀ k ∈ lanes, x k % f.size = 0) → f.sp = 0 → traps 0x0C (fun l => decide (2 ^ 56 ≤ x l))) ∧
      ((∀ k ∈ lanes, x k % f.size = 0) → f.sp = 0 → (∀ k ∈ lanes, x k < 2 ^ 56) →
        traps 0x0D (fun l => inAperture (x l) && !fits l)) ∧
      ((∀ k ∈ lanes, x k % f.size = 0) → f.sp = 1 → traps 0x0D (fun l => !(decide (x l < 2 ^ 56) && fits l)))) ∧
    (2 ≤ f.sp → ∀ xs y ys,
      lanes.filterMap (fun l => (s.tileFault f.sp f.size (s.vsrc64 a l)).map (fun r => (l, r.1, r.2))) = xs ++ y :: ys →
      (∀ z ∈ xs, tileRank y.2.1 < tileRank z.2.1) → (∀ z ∈ ys, tileRank y.2.1 ≤ tileRank z.2.1) →
      exec i s = .next (s.takeTrap { cause := 0x0E, sub := y.2.1, aux := BitVec.ofNat 32 y.2.2
                                     lanes := laneMask (fun k => ((xs ++ y :: ys).map (·.1)).contains k) }))

/-- The address checks of every memory word with an address pair, in their order (07 R176, R179; 16 R387): plain, ordered and
atomic accesses and cmaint over their lanes, mwatch for its lowest. No lane performs. That cmaint is checked as an access of
one byte is the model's choice (log entry 91, DESIGN CHOICE). -/
def Obligations.AddressFaults : Prop :=
  ∀ (s : State) (d a : Code) (n : BitVec 6) (sp : BitVec 2) (c : BitVec 3) (lk r w : BitVec 1) (o : BitVec 2),
    (n ≠ 63 → ∀ p ∈ [((Instr.ldb d a n sp), 1), (.ldbs d a n sp, 1), (.ldh d a n sp, 2), (.ldhs d a n sp, 2),
        (.ldw d a n sp, 4), (.ldd d a n sp, 8), (.ldq d a n sp, 16)],
      addressFaults p.1 s (fixedOps [.vw (max 32 (8 * p.2)) d, .vr 64 a])
        { acc := .read, size := p.2, sp := sp.toNat, path := 0 } a s.gang.memLanes) ∧
    (n ≠ 63 → ∀ p ∈ [((Instr.stb d a n sp), 1), (.sth d a n sp, 2), (.stw d a n sp, 4), (.std d a n sp, 8),
        (.stq d a n sp, 16)],
      addressFaults p.1 s (fixedOps [.vr (max 32 (8 * p.2)) d, .vr 64 a])
        { acc := .write, size := p.2, sp := sp.toNat, path := 1 } a s.gang.memLanes) ∧
    (c ≠ 7 → (r = 1 → c = 4) → addressFaults (.ldAcq d a c r w sp) s (fixedOps [.vw (8 * wSize w) d, .vr 64 a])
      (orderedForm .read w sp 0) a s.gang.memLanes) ∧
    (c ≠ 7 → s.gang.releaseReport c.toNat = none → addressFaults (.stRel d a c lk w sp) s
      (fixedOps [.vr (8 * wSize w) d, .vr 64 a]) (orderedForm .write w sp 1) a s.gang.memLanes) ∧
    (c ≠ 7 → ∀ p ∈ atomicWords d a c lk r w sp, (p.2.1 = .cas → casDataOk (r = 1) (w = 1) d = true) →
      addressFaults p.1 s p.2.2.2 (orderedForm .atomic w sp (if r = 1 then 0 else 1)) a s.gang.memLanes) ∧
    (n ≠ 63 → addressFaults (.cmaint o a n w) s (fixedOps [.vr 64 a])
      { acc := .read, size := 1, sp := w.toNat, path := 1, rights := 2, ticks := false } a s.gang.memLanes) ∧
    (n ≠ 63 → ∀ l ls, s.gang.memLanes = l :: ls → addressFaults (.mwatch d a n w) s (fixedOps [.vw 32 d, .vr 64 a])
      { acc := .read, size := 4, sp := w.toNat, path := 0, ticks := false } a [l])

/-- The fences (08 R219 to R221, R229): with nothing to wait for, an acquire drops the core's clean bytes at scope nbh or
wider, a release writes the dirty ones back, and the word is past. An acquire with an earlier load outstanding stalls, and so
do acqrel and sc with another device's acknowledgement outstanding; a release with something to wait for goes on and holds
the later stores alone; fence.path goes on and holds the operations on its target paths until its source paths are empty, and
with ST among them the store queues then reach the banks. -/
def Sys2Proof.Claims.Fences : Prop :=
  (∀ (s : State) (c : BitVec 3), c ≠ 7 → s.gang.releaseReport c.toNat = none →
    let both := (s.acquireActs s.gang.core c.toNat).releaseActs s.gang.core c.toNat
    let ends := fun i => (c.toNat < 5 ∨ both.flushing s.gang.core = [] → exec i s = .next both.advance) ∧
      (5 ≤ c.toNat → both.flushing s.gang.core ≠ [] → exec i s = .next (both.stall (.answers (both.flushing s.gang.core))))
    (s.gang.unperformed 1 = [] → exec (.fenceAcq c) s = .next (s.acquireActs s.gang.core c.toNat).advance) ∧
    (s.gang.unperformed 1 ≠ [] → exec (.fenceAcq c) s = .next (s.stall (.ops (s.gang.unperformed 1)))) ∧
    (s.releasesNow c.toNat = true → exec (.fenceRel c) s = .next (s.releaseActs s.gang.core c.toNat).advance) ∧
    (s.releasesNow c.toNat = false →
      exec (.fenceRel c) s = .next (s.holdLate (.release c.toNat 0) (s.gang.releaseWaits c.toNat) 2).advance) ∧
    (s.gang.releaseWaits c.toNat = [] → ends (.fenceAcqrel c)) ∧
    (s.gang.releaseWaits c.toNat = [] → s.gang.unperformed 3 = [] → ends (.fenceSc c))) ∧
  (∀ (s : State) (a b : BitVec 6), a ≠ 0 → b ≠ 0 →
    let ids := (s.gang.out.filter (fun o => bit a.toNat o.path)).map (·.id) ++
      (s.gang.late.filter (fun o => bit a.toNat o.path)).map (·.id)
    (ids = [] → ∃ t, exec (.fencePath a b) s = .next t ∧ s.past t ∧ t.mem = s.mem ∧
      t.gang.regs = s.gang.regs ∧ (a.getLsbD 1 = true → (t.coreAt s.gang.core).squeue = [])) ∧
    (ids ≠ [] → ∃ t, exec (.fencePath a b) s = .next t ∧ s.past t ∧ t.mem = s.mem ∧ t.gang.regs = s.gang.regs ∧
      t.gang.holds = s.gang.holds ++ [{ id := s.nextId, paths := b.toNat, scope := none }]))

/-- An acquire at nbh scope or wider leaves exactly the dirty bytes valid, and none is lost; a release leaves no dirty byte
and no queued Barn store in the core (08 R219, R220). -/
def Sys2Proof.Claims.AcquireAndRelease : Prop :=
  ∀ (s : State) (core sc line : Nat), 3 ≤ sc →
    (∀ x, s.l1Line core line = some x → (s.acquireActs core sc).l1Line core line = some { x with valid := x.dirty }) ∧
    (s.acquireActs core sc).mem = s.mem ∧
    (∀ x, (s.releaseActs core sc).l1Line core line = some x → x.dirty = 0) ∧
    ((s.releaseActs core sc).coreAt core).squeue = []

/-- Fences, and what an acquire and a release leave. -/
def Obligations.FencesAndScopes : Prop := Sys2Proof.Claims.Fences ∧ Sys2Proof.Claims.AcquireAndRelease

/-- pglob, pref, cmaint and tick (07 R173, R187, R188, R190): pglob turns an aperture address into the lane's slot
address; pref changes no register and faults nowhere; cmaint clean or flush of one local line writes its dirty bytes to
home (that it is an access of one byte is the model's choice, log entry 91, DESIGN CHOICE); tick advances the workgroup's reuse clock. -/
def Sys2Proof.Claims.AddressesAndHints : Prop :=
  (∀ (s : State) (d a : Code), s.issues (fixedOps [.vw 64 d, .vr 64 a]) = true →
    (∀ l, s.gang.active l = true → canonical (s.vsrc64 a l).toNat = true → inAperture (s.vsrc64 a l).toNat = true →
      (s.vsrc64 a l).toNat % 2 ^ 48 < s.wg.z) →
    ∃ t, exec (.pglob d a) s = .next t ∧ s.vecStep t d (fun _ => true) s.gang.active (fun l =>
      if canonical (s.vsrc64 a l).toNat && inAperture (s.vsrc64 a l).toNat then
        BitVec.ofNat 64 (s.wg.pb.toNat + ((s.wg.wgid * 32 + s.gang.num) * 32 + l) * s.wg.z + (s.vsrc64 a l).toNat % 2 ^ 48)
      else s.vsrc64 a l) 0) ∧
  (∀ (s : State) (lv : BitVec 1) (a : Code) (n : BitVec 6) (sp : BitVec 1), n ≠ 63 → s.issues (fixedOps [.vr 64 a]) = true →
    s.gang.heldBy 64 = [] → ∃ t, exec (.pref lv a n sp) s = .next t ∧ s.past t ∧ t.gang.regs = s.gang.regs ∧ t.gang.out = s.gang.out) ∧
  (∀ (s u : State) (o : BitVec 2) (a : Code) (n : BitVec 6) (sp : BitVec 1) (l pa : Nat) (lw : Page) (x : L1Line), n ≠ 63 →
    s.issues (fixedOps [.vr 64 a]) = true →
    s.laneAt { acc := .read, size := 1, sp := sp.toNat, path := 1, rights := 2, ticks := false } a l u (.mem pa lw) →
    u.l1Line s.gang.core (pa / 128) = some x →
    ∃ t, exec (.cmaint o a n sp) s = .next t ∧ s.past t ∧ t.gang.regs = s.gang.regs ∧
      (∀ i, i < 128 → x.dirty.getLsbD i = true → t.byteAt (pa / 128 * 128 + i) = x.byte i) ∧
      (o = 1 ∨ o = 2 → t.l1Line s.gang.core (pa / 128) = none) ∧
      (o = 0 ∨ o = 3 → ∃ y, t.l1Line s.gang.core (pa / 128) = some y ∧ y.dirty = 0)) ∧
  (∀ (s : State), ∃ t, exec .tick s = .next t ∧ s.past t ∧ t.gang.regs = s.gang.regs ∧ t.mem = s.mem ∧
    t.wg.rclock = s.wg.rclock + 1 ∧ t.wg.ticks = (s.clock :: s.wg.ticks).take 8)

/-- mwatch and mwait (07 R185, R186): mwatch of a local line reads the word at home, arms the watch and gives the word to
every active lane; mwait ends at a wake with its code and disarms, and stalls while nothing has woken it. -/
def Sys2Proof.Claims.Watching : Prop :=
  (∀ (s u : State) (d a : Code) (n : BitVec 6) (sp : BitVec 1) (l va pa : Nat) (lw : Page) (ls : List Nat), n ≠ 63 → d ≠ 0xF0 →
    s.issues (fixedOps [.vw 32 d, .vr 64 a]) = true → s.gang.heldBy 1 = [] → s.gang.memLanes = l :: ls → s.gang.counter 0 < 63 →
    let f : Form := { acc := .read, size := 4, sp := sp.toNat, path := 0, ticks := false }
    s.placeFault f [l] (s.vsrc64 a) = none → s.place sp.toNat 4 (s.vsrc64 a l) l = .ok (.glob va) →
    translateLanes f [(l, .glob va)] s = (u, { ok := [(l, .mem pa lw)], faults := [] }) →
    s.gang.lateOn [(l, .mem pa lw)] = [] →
    ∃ t, exec (.mwatch d a n sp) s = .next t ∧ s.past t ∧
      t.gang.watch.armed = some (pa / 128, va / 128) ∧ (pa / 128, .gang s.cur) ∈ t.watches ∧
      ∀ k, s.gang.active k = true → t.gang.v d.toNat k =
        BitVec.ofNat 32 ((u.flushLine s.gang.core (pa / 128)).readHome pa 4)) ∧
  (∀ (s : State) (d a : Code), s.issues (fixedOps [.sw 32 d, .sr 32 a]) = true →
    (∀ c, s.gang.watch.wake (s.sarg a).toNat = some c → ∃ t, exec (.mwait d a) s = .next t ∧ s.past t ∧
      t.gang.watch.armed = none ∧ (∀ w ∈ t.watches, w.2 ≠ .gang s.cur) ∧
      ∀ k, k < 8 → s.gang.issuing k = true → d ≠ 0xF0 → t.gang.s k d.toNat = BitVec.ofNat 32 c) ∧
    (s.gang.watch.wake (s.sarg a).toNat = none → exec (.mwait d a) s = .next (s.stall .watch)))

/-- Address words, hints, cache maintenance and watches. -/
def Obligations.HintsAndWatches : Prop := Sys2Proof.Claims.AddressesAndHints ∧ Sys2Proof.Claims.Watching

/-- Everything of the workgroup in focus but register `i` of its barriers is as before. -/
def Sys2Proof.Machine.State.onlyBar (s t : State) (i : Nat) : Prop :=
  (∀ j, j ≠ i → t.wg.bar j = s.wg.bar j) ∧ t.gang.regs = s.gang.regs ∧ t.mem = s.mem

/-- Barrier registers (10 R261 to R265): binit sets E of an idle register; barv and barw arrive once their paths are
empty, and the last arrival completes the generation; after an earlier one barv goes on and barw waits until the generation
completes, and issued again after a trap only waits (the model's reading of R272: log entry 19, DEDUCED); bwait goes on when
the gang has no arrival pending; baddx changes E or X; btest reads a word. -/
def Obligations.BarrierRegisters : Prop :=
  ∀ (s : State) (p : BitVec 6) (a b : Code),
    (s.issues (fixedOps [.br a, .sr 32 b]) = true → 0 < (s.sarg b).toNat → (s.sarg b).toNat < 1024 → (s.bar a).a = 0 →
      (s.bar a).arrived = 0 → (s.bar a).rc = 0 → (s.bar a).kc = 0 → s.barWaiter s.gang.wid a.toNat = false →
      ∃ t, exec (.binit a b) s = .next t ∧ s.past t ∧ s.onlyBar t a.toNat ∧
        t.bar a = { s.bar a with init := true, ovf := false, e := (s.sarg b).toNat, x := 0 }) ∧
    (s.issues (fixedOps [.br a]) = true → s.gang.whole = true → (s.bar a).init = true →
      s.gang.busyOn (p ||| 3).toNat = false → s.gang.lateAccesses = [] → (s.bar a).here s.gang.num = false →
      let r := (s.bar a).arrive s.gang.num
      (∃ t, exec (.barv p a) s = .next t ∧ s.past t ∧ s.onlyBar t a.toNat ∧ t.bar a = r) ∧
      (mapFind s.gang.barwKey (s.bar a).barw ≠ some s.gang.pcNow →
        (r.here s.gang.num = false →
          ∃ t, exec (.barw p a) s = .next t ∧ s.past t ∧ s.onlyBar t a.toNat ∧ t.bar a = r) ∧
        (r.here s.gang.num = true →
          ∃ u, exec (.barw p a) s = .next (u.stall (.barrierArrive a.toNat)) ∧ u.gang = s.gang ∧ s.onlyBar u a.toNat ∧
            u.bar a = { r with barw := mapPut s.gang.barwKey s.gang.pcNow r.barw }))) ∧
    (s.issues (fixedOps [.br a]) = true → s.gang.whole = true → mapFind s.gang.barwKey (s.bar a).barw = some s.gang.pcNow →
      ((s.bar a).here s.gang.num = true → exec (.barw p a) s = .next (s.stall (.barrierArrive a.toNat))) ∧
      ((s.bar a).here s.gang.num = false → ∃ t, exec (.barw p a) s = .next t ∧ s.past t ∧ s.onlyBar t a.toNat ∧
        t.bar a = { s.bar a with barw := mapDrop s.gang.barwKey (s.bar a).barw })) ∧
    (s.issues (fixedOps [.br a]) = true → (s.bar a).init = true →
      ((s.bar a).here s.gang.num = false → ∃ t, exec (.bwait a) s = .next t ∧ s.idleStep t) ∧
      ((s.bar a).here s.gang.num = true → exec (.bwait a) s = .next (s.stall (.barrierArrive a.toNat)))) ∧
    (s.issues (fixedOps [.br a, .sr 32 b]) = true → (s.bar a).init = true → (s.sarg b).toNat < 2 ^ 16 →
      ((s.bar a).gen.toNat ≠ (s.sarg b).toNat → ∃ t, exec (.bwaitGen a b) s = .next t ∧ s.idleStep t) ∧
      ((s.bar a).gen.toNat = (s.sarg b).toNat →
        exec (.bwaitGen a b) s = .next (s.stall (.barrierGen a.toNat (s.sarg b).toNat)))) ∧
    (s.issues (fixedOps [.br a, .sr 32 b]) = true → (s.bar a).init = true →
      (∀ e x, (s.sarg b).toNat < 1024 → baddxNew (s.bar a) (s.sarg b).toNat false = some (e, x) →
        ∃ t, exec (.baddx a b) s = .next t ∧ s.past t ∧ s.onlyBar t a.toNat ∧
          t.bar a = ({ s.bar a with e := e, x := x } : Bar).complete) ∧
      (∀ e x, (s.sarg b).toNat < 2048 → baddxNew (s.bar a) (s.sarg b).toNat true = some (e, x) →
        ∃ t, exec (.baddxE a b) s = .next t ∧ s.past t ∧ s.onlyBar t a.toNat ∧
          t.bar a = ({ s.bar a with e := e, x := x } : Bar).complete)) ∧
    (s.issues (fixedOps [.br a, .sw 64 b]) = true → b ≠ 0xF0 →
      (∃ t, exec (.btest a b) s = .next t ∧ s.past t ∧ s.sameDevice t ∧ ∀ k, k < 8 → s.gang.issuing k = true →
        t.gang.s k (b.toNat + 1) ++ t.gang.s k b.toNat = (s.bar a).word 0) ∧
      (∃ t, exec (.btestWord1 a b) s = .next t ∧ s.past t ∧ s.sameDevice t ∧ ∀ k, k < 8 → s.gang.issuing k = true →
        t.gang.s k (b.toNat + 1) ++ t.gang.s k b.toNat = (s.bar a).word 1))

/-- A generation completes at the last arrival (10 R257, R258): with E + X arrivals counted and no credit due, gen rises by
one, the arrivals are taken off A, X and the arrived bits are cleared; with fewer, the arrival is only counted. -/
def Sys2Proof.Claims.BarrierCompletes : Prop :=
  ∀ (r : Bar) (g : Nat), r.init = true → r.rc = 0 → r.kc = 0 → r.a < 1023 → g < 32 →
    (r.e + r.x ≤ r.a + 1 → r.arrive g = { r with a := r.a + 1 - (r.e + r.x), x := 0, arrived := 0, gen := r.gen + 1 }) ∧
    (r.a + 1 < r.e + r.x → (r.arrive g).a = r.a + 1 ∧ (r.arrive g).gen = r.gen ∧ (r.arrive g).here g = true)

/-- Barrier misuse (10 R271): a register that is not initialised, and values out of range, trap with the register in aux
and change nothing of it. -/
def Sys2Proof.Claims.BarrierMisuse : Prop :=
  ∀ (s : State) (p : BitVec 6) (a b : Code),
    (s.issues (fixedOps [.br a]) = true → (s.bar a).init = false →
      exec (.bwait a) s = .next (s.takeTrap { cause := 0x11, sub := 0, aux := BitVec.ofNat 32 a.toNat }) ∧
      (s.gang.whole = true → exec (.barv p a) s =
        .next (s.takeTrap { cause := 0x11, sub := 0, aux := BitVec.ofNat 32 a.toNat })) ∧
      (s.gang.whole = false → exec (.barv p a) s = .next (s.takeTrap { cause := 0x08 }))) ∧
    (s.issues (fixedOps [.br a, .sr 32 b]) = true → (s.sarg b).toNat = 0 ∨ 1024 ≤ (s.sarg b).toNat →
      exec (.binit a b) s = .next (s.takeTrap { cause := 0x11, sub := 2, aux := BitVec.ofNat 32 a.toNat }))

/-- What completes a generation, and the misuse of a barrier register. -/
def Obligations.BarrierProgress : Prop := Sys2Proof.Claims.BarrierCompletes ∧ Sys2Proof.Claims.BarrierMisuse

/-- A generation's end at a node (10 R267, R268): gen rises by one, every arrival is cleared, and the pending mask becomes
current. -/
def Sys2Proof.Claims.GroupCompletes : Prop :=
  ∀ (g : NamedGroup) (n : Nat), g.complete.gen = g.gen + 1 ∧ (g.complete.node n).arrived = 0 ∧
    (g.complete.node n).cur = (g.node n).pending ∧ (g.complete.node n).pending = (g.node n).pending

/-- A named group the workgroup may name (10 R266, R271): its number is below 1,024 and its entry is valid; `e` is the
entry, `k` the group's key, `p` the workgroup's place. -/
def Sys2Proof.Machine.State.names (s : State) (a : Code) (e k : Nat) (p : NgPlace) : Prop :=
  (s.sarg a).toNat < 1024 ∧ e = s.ngEntry s.wg.part (s.sarg a).toNat ∧ bit e 0 = true ∧
  k = groupKey s.wg.part (s.sarg a).toNat ∧ s.wg.ngPlace (s.groupAt k) s.gang.wid (ngLevel e) = some p

/-- Joining, leaving and setting the masks of a named group (10 R268, R269). That bsetm asks the bound neighbourhood or die, as
a join does, is the model's choice (log entry 108, DESIGN CHOICE). -/
def Sys2Proof.Claims.NamedGroupMembership : Prop :=
  ∀ (s : State) (a b : Code) (e k : Nat) (p : NgPlace), s.names a e k p →
    (s.issues (fixedOps [.sr 32 a]) = true → (ngLevel e < 2 → ∀ h, (s.groupAt k).bound = some h → h = p.home) →
      (∀ w, s.ngHolder (s.groupAt k) p = some w → w = s.gang.wid) → ∃ t, exec (.ngjoin a) s = .next t ∧ s.past t ∧ t.gang.regs = s.gang.regs ∧
        bit ((t.groupAt k).node p.node).pending p.pos = true ∧ mapFind p.key (t.groupAt k).members = some s.gang.wid ∧
        ∀ j, j ≠ k → t.groupAt j = s.groupAt j) ∧
    (s.issues (fixedOps [.sr 32 a]) = true → s.ngMember (s.groupAt k) p s.gang.wid (ngLevel e) = true →
      ∃ t, exec (.ngjoinLeave a) s = .next t ∧ s.past t ∧ t.gang.regs = s.gang.regs ∧
        bit ((t.groupAt k).node p.node).pending p.pos = false ∧ ∀ j, j ≠ k → t.groupAt j = s.groupAt j) ∧
    (s.issues (fixedOps [.sr 32 a, .sr 64 b]) = true → (ngLevel e < 2 → ∀ h, (s.groupAt k).bound = some h → h = p.home) →
      (s.sarg64 b).toNat < 2 ^ (if ngLevel e = 0 then 24 else 60) → ∃ t, exec (.bsetm a b) s = .next t ∧ s.past t ∧
        ((t.groupAt k).node p.node).pending = (s.sarg64 b).toNat ∧ t.gang.regs = s.gang.regs) ∧
    (s.issues (fixedOps [.sr 32 a, .sr 64 b]) = true → 2 ≤ ngLevel e → (s.sarg64 b).toNat < 256 →
      ∃ t, exec (.bsetmDevice a b) s = .next t ∧ s.past t ∧ ((t.groupAt k).node 1).pending = (s.sarg64 b).toNat) ∧
    (s.issues (fixedOps [.sr 32 a, .sr 64 b]) = true → ngLevel e = 3 → ngRoot e = s.devid → 0 < (s.sarg64 b).toNat →
      (s.sarg64 b).toNat ≤ 2304 →
      ∃ t, exec (.bsetmRoot a b) s = .next t ∧ s.past t ∧ ((t.groupAt k).node 2).pending = (s.sarg64 b).toNat)

/-- Arriving at a named group and waiting for it (10 R270): once the paths have passed and the release has nothing to wait
for, the arrival sets the workgroup's bit at its node; a member whose bit is clear goes on with the acquire, and one whose bit stands stalls. -/
def Sys2Proof.Claims.NamedGroupArrival : Prop :=
  ∀ (s : State) (ps : BitVec 6) (a b : Code) (e k : Nat) (p : NgPlace), s.names a e k p →
    s.ngMember (s.groupAt k) p s.gang.wid (ngLevel e) = true →
    (s.issues (fixedOps [.sr 32 a]) = true → s.gang.whole = true → s.gang.releaseReport (ngScope e) = none →
      (∃ q u, s.arrivePaths ps = .ok q ∧ q.release (ngScope e) = .ok u) → bit ((s.groupAt k).node p.node).arrived p.pos = false →
      bit ((s.groupAt k).node p.node).cur p.pos = true → ∃ t, exec (.ngarv ps a) s = .next t ∧ s.past t ∧
        t.gang.regs = s.gang.regs ∧ bit ((t.groupAt k).node p.node).arrived p.pos = true) ∧
    (s.issues (fixedOps [.sr 32 a]) = true →
      (bit ((s.groupAt k).node p.node).arrived p.pos = false →
        exec (.ngwait a) s = .next (s.acquireActs s.gang.core (ngScope e)).advance) ∧
      (bit ((s.groupAt k).node p.node).arrived p.pos = true →
        exec (.ngwait a) s = .next (s.stall (.groupWait (s.sarg a).toNat)))) ∧
    (s.issues (fixedOps [.sr 32 a, .sr 32 b]) = true → (s.sarg b).toNat < 2 ^ 16 →
      (s.groupAt k).gen.toNat ≠ (s.sarg b).toNat →
      exec (.ngwaitGen a b) s = .next (s.acquireActs s.gang.core (ngScope e)).advance) ∧
    scalarRuns (.ngwaitRead a b) s (fixedOps [.sr 32 a, .sw 32 b]) b (fun _ => (s.groupAt k).gen.setWidth 32)

/-- Membership of a named group, arriving at it, and the end of a generation. -/
def Obligations.NamedGroups : Prop := Sys2Proof.Claims.NamedGroupMembership ∧ Sys2Proof.Claims.NamedGroupArrival ∧ Sys2Proof.Claims.GroupCompletes

/-- cpy, gath, scat, mcast and sclp (11 R275 to R280): a block that passes the checks is queued as a new command, under
the core's next ticket, which the issuing slices receive; the path counter rises and the word is past. -/
def Obligations.GleanerIssue : Prop :=
  ∀ (s : State) (a b : Code) (x : Tile) (rs : List (List Byte)),
    ∀ q ∈ [((Instr.cpy a b), 1), (.gath a b, 2), (.scat a b, 3), (.mcast a b, 4), (.sclp a b, 5)],
      let loc := (s.sarg a).toNat
      let block := s.tileBytes s.gang.core x (loc % 2 ^ 26) 64
      let path := if q.2 = 2 ∨ q.2 = 3 then 4 else 2
      let owes := blockNum block 9 1
      s.issues (fixedOps [.sr 32 a, .sw 32 b]) = true → s.gang.lateAccesses = [] → s.gang.heldBy (2 ^ path) = [] → s.wg.tile (field loc 26 6) = some x →
      s.wg.rangeFault loc 64 64 0 = none → s.blockFault q.2 block = .ok rs → s.gang.counter path < 63 →
      (s.coreAt s.gang.core).gleaner.length < 16 →
      (q.2 = 4 → bit (blockNum block 1 1) 4 = true → (s.wg.bar (blockNum block 1 1 % 16)).kc + owes ≤ 4095) →
      ∃ t c, exec q.1 s = .next t ∧ s.past t ∧ t.mem = s.mem ∧
        (t.coreAt s.gang.core).gleaner = (s.coreAt s.gang.core).gleaner ++ [c] ∧
        c.kind = q.2 ∧ c.block = block ∧ c.state = 1 ∧ c.moved = 0 ∧ c.receivers = rs ∧
        c.ticket = (s.coreAt s.gang.core).ticket ∧ c.opc = s.gang.pcNow.setWidth 64 ∧
        (t.coreAt s.gang.core).ticket = (c.ticket + 1) % 65536 ∧ t.gang.counter path = s.gang.counter path + 1 ∧
        t.gang.regs.v = s.gang.regs.v ∧
        ∀ k, k < 8 → s.gang.issuing k = true → b ≠ 0xF0 → t.gang.s k b.toNat = BitVec.ofNat 32 c.ticket

/-- cpyc (11 R281, R282): the gang stalls with its contribution until every gang of the workgroup has issued its own; the last
of them has the copy accepted under one ticket, as the only gang of a workgroup has at once. gqry and gcncl (R295, R296): the
status of a ticket; a queued, running or parked command of the workgroup is taken out of the queue with status 5, and the
answer is 0; one that has ended is left, and the answer is 1; an unknown ticket answers 7. A command with writes to other
devices in flight starts nothing more, and gcncl waits for them (the model's reading of R296: log entry 64, DEDUCED). -/
def Obligations.CollectiveQueryCancel : Prop :=
  (∀ (s : State) (x c : BitVec 1) (gb : BitVec 4) (a b : Code), (c = 0 → gb = 0) →
    s.issues (fixedOps [.so 128 a, .sw 32 b]) = true → s.gang.whole = true → s.gang.lateAccesses = [] → s.gang.heldBy 4 = [] →
    s.gang.counter 2 < 63 → s.cur = gangKey s.gang.wid s.gang.num → s.gang.flow.blocks = [] →
    let me : Contribution := { gang := s.gang.num, flags := 0#2 ++ x ++ c ++ gb
                               quad := (List.range 4).map (fun i => s.gang.s s.gang.low (a.toNat + i)), dest := b, word := s.ir }
    let u := (s.stall .collective).updWg (fun w => { w with assembling := insertContribution me w.assembling })
    let cs := u.contributions s.gang.wid
    (s.gangsOf s.gang.wid = [s.cur] → s.wg.assembling = [] → s.wg.rejectCollective [me] = none →
      (s.coreAt s.gang.core).gleaner.length < 16 →
      ∃ t k, exec (.cpyc x c gb a b) s = .next t ∧ s.past t ∧
        (t.coreAt s.gang.core).gleaner = (s.coreAt s.gang.core).gleaner ++ [k] ∧ k.kind = 0 ∧ k.segs = [me] ∧
        k.ticket = (s.coreAt s.gang.core).ticket ∧ t.gang.counter 2 = s.gang.counter 2 + 1 ∧
        ∀ j, j < 8 → s.gang.issuing j = true → b ≠ 0xF0 → t.gang.s j b.toNat = BitVec.ofNat 32 k.ticket) ∧
    (u.assembled s.gang.wid = true → (cs.map (·.gang)).Nodup → s.wg.rejectCollective cs = none →
      (s.coreAt (coreOfWid s.gang.wid)).gleaner.length < 16 →
      ∃ t k, exec (.cpyc x c gb a b) s = .next t ∧ s.past t ∧
        (t.coreAt (coreOfWid s.gang.wid)).gleaner = (s.coreAt (coreOfWid s.gang.wid)).gleaner ++ [k] ∧ k.kind = 0 ∧
        k.segs = cs ∧ k.ticket = (s.coreAt (coreOfWid s.gang.wid)).ticket ∧ t.wg.assembling = []) ∧
    (u.assembled s.gang.wid = false → ∃ t, exec (.cpyc x c gb a b) s = .next t ∧
      t.wg.assembling = insertContribution me s.wg.assembling ∧ mapFind s.gang.low t.gang.flow.blocks = some .collective ∧
      t.gang.regs = s.gang.regs)) ∧
  (∀ (s : State) (a b : Code), (s.sarg a).toNat < 65536 → scalarRuns (.gqry a b) s (fixedOps [.sr 32 a, .sw 32 b]) b
    (fun _ => s.ticketStatus s.gang.core s.gang.wid (s.sarg a).toNat)) ∧
  (∀ (s : State) (a b : Code), s.issues (fixedOps [.sr 32 a, .sw 32 b]) = true →
    let q := (s.coreAt s.gang.core).gleaner
    let mine := fun (c : Gcmd) => decide (c.ticket = (s.sarg a).toNat % 65536) && decide (c.wid = s.gang.wid)
    (∀ c, q.find? mine = some c → s.engBusy c.id = false → ∃ t, exec (.gcncl a b) s = .next t ∧ s.past t ∧
      (t.coreAt s.gang.core).gleaner = q.filter (fun x => decide (x.id ≠ c.id)) ∧
      (t.coreAt s.gang.core).ended.head? = some (c.wid, c.ticket, statusWord c 5 0) ∧ t.mem = s.mem ∧
      ∀ j, j < 8 → s.gang.issuing j = true → b ≠ 0xF0 → t.gang.s j b.toNat = 0) ∧
    (∀ c, q.find? mine = some c → s.engBusy c.id = true → exec (.gcncl a b) s =
      .next ((s.updCmd s.gang.core c.id (fun c => { c with cancelled := true })).stall (.cancel c.id b))) ∧
    (q.find? mine = none → scalarRuns (.gcncl a b) s (fixedOps [.sr 32 a, .sw 32 b]) b (fun _ =>
      if (s.coreAt s.gang.core).ended.any (fun e => decide (e.1 = s.gang.wid) &&
        decide (e.2.1 = (s.sarg a).toNat % 65536)) then 1 else 7)))

/-- A row or receiver whose bytes have all been moved: it is delivered, with the credit of the command, when none of its
writes to other devices is in flight, and its writes on this device that waited for them perform; otherwise it waits for them
(08 R227; 11 R287, R290, R293). -/
def Sys2Proof.Machine.State.movedPart (u : State) (core i : Nat) (c : Gcmd) (f : Gcmd → Gcmd) (b : Bar → Bar) : State :=
  if u.partBusy c.id i then u else ((u.releaseHeld core c i).updCmd core c.id f).creditCmd c b

/-- The steps of running commands (11 R275, R285 to R293): a start; a unit of a copy, a row of a gather or scatter, a receiver
and a scale tensor, each of which moves, fails with its cause while the command goes on, or parks the command; a row whose
index is all ones is skipped, and at most 64 rows are in flight; and the completion, which takes the command out of the
queue, records its status, reports a failure, and lets the issuers' counters fall in issue order. -/
def Obligations.GleanerEvents : Prop :=
  ∀ (s u : State) (core ticket i : Nat) (c : Gcmd),
    (s.nextStart core = some c → exec (.gleanerCommandStart core) s =
      .next (s.updCmd core c.id (fun c => { c with state := 2, retried := false }))) ∧
    (s.cmd core ticket = some c → c.state = 2 → c.cancelled = false →
      (∀ src dst n off, c.kind ≤ 1 → unitAt (s.copySegs c) c.moved = some (src, dst, n, off) →
        (s.moveUnit (c.agent c.moved) src dst n = (u, .ok ()) →
          exec (.copyUnit core ticket) s = .next (u.updCmd core c.id (fun c => { c with moved := c.moved + n }))) ∧
        (∀ k acc va, s.moveUnit (c.agent c.moved) src dst n = (u, .error (.fault k acc va)) →
          exec (.copyUnit core ticket) s = .next (u.parkCmd core c c.moved off k acc va)) ∧
        (∀ k va dev rc r, s.moveUnit (c.agent c.moved) src dst n = (u, .error (.fail k va dev rc r)) →
          exec (.copyUnit core ticket) s =
            .next ((u.cmdAlarm core c r).failPart core c c.moved n (c.failRec k va dev rc)))) ∧
      (c.kind = 2 ∨ c.kind = 3 → i < c.count → c.settled i = false → s.partBusy c.id i = false →
        ((List.range c.count).filter (s.partBusy c.id)).length < 64 →
        let x := s.rowIndex c i
        let ga := (c.num 0x10 8 + x * c.num 0x18 4) % 2 ^ 64
        let barn := ((s.wgAt c.wid).barnLoc core (c.num 0x20 4)).add (i * c.num 0x24 4)
        let done := fun (u : State) => u.movedPart core i c (fun c =>
          { c with delivered := c.delivered ||| BitVec.ofNat 256 (2 ^ i) }) Bar.row
        let moves := fun r => (if c.kind = 2 then s.movePart c i (.glob ga) barn (c.num 0x1C 4)
          else s.movePart c i barn (.glob ga) (c.num 0x1C 4)) = (u, r)
        let none_ := if c.num 8 1 = 0 then 2 ^ 32 - 1 else 2 ^ 64 - 1
        (x = none_ → exec (.gatherRow core ticket i) s = .next (done s)) ∧
        (x ≠ none_ → badGlobal ga = true →
          exec (.gatherRow core ticket i) s = .next (s.failPart core c i 0 (c.failRec 2 ga 0 0))) ∧
        (x ≠ none_ → badGlobal ga = false →
          (moves (.ok ()) → exec (.gatherRow core ticket i) s = .next (done u)) ∧
          (∀ k acc va, moves (.error (.fault k acc va)) →
            exec (.gatherRow core ticket i) s = .next (u.parkCmd core c i i k acc va)) ∧
          (∀ k va dev rc r, moves (.error (.fail k va dev rc r)) → exec (.gatherRow core ticket i) s =
            .next ((u.cmdAlarm core c r).failPart core c i 0 (c.failRec k va dev rc))))) ∧
      (c.kind = 4 → i < c.count → c.settled i = false → s.partBusy c.id i = false →
        let dst := s.receiverLoc c (c.receivers.getD i [])
        let moves := fun r => s.movePart c i
          (if c.num 8 1 = 1 then .glob (c.num 0x10 8) else (s.wgAt c.wid).barnLoc core (c.num 0x0C 4)) dst (c.num 0x18 4) = (u, r)
        (moves (.ok ()) → exec (.multicastAck core ticket i) s = .next (u.movedPart core i c (fun c =>
          { c with acked := c.acked ||| BitVec.ofNat 64 (2 ^ i) }) Bar.ack)) ∧
        (∀ k acc va, moves (.error (.fault k acc va)) →
          exec (.multicastAck core ticket i) s = .next (u.parkCmd core c i (va - dst.addr) k acc va)) ∧
        (∀ k va dev rc r, moves (.error (.fail k va dev rc r)) → exec (.multicastAck core ticket i) s =
          .next ((u.cmdAlarm core c r).failPart core c i 0 (c.failRec k va dev rc)))) ∧
      (∀ bs cl t o, c.kind = 5 → c.moved = 0 →
        s.placedForm (c.agent 0) (c.num 8 8) (c.num 0x10 8) (c.num 0x1C 4) = (u, .ok bs) →
        (s.wgAt c.wid).barnLoc core (c.num 0x18 4) = .barn cl t o →
        exec (.scalePlacement core ticket) s =
          .next ((u.sclWrite (clusterOfCore core) t o bs).updCmd core c.id (fun c => { c with moved := 1 }))) ∧
      (s.cmdDone c = true → ∃ t, exec (.gleanerCommandCompletion core ticket) s = .next t ∧
        (∀ y ∈ (t.coreAt core).gleaner, y.id ≠ c.id) ∧
        (c.failed = none → (t.coreAt core).ended.head? = some (c.wid, c.ticket, statusWord c 0 0)) ∧
        (∀ p r, c.failed = some (p, r) → (t.coreAt core).ended.head? = some (c.wid, c.ticket, statusWord c 4 r.sub) ∧
          ∀ k ∈ c.issuers, ∃ q ∈ (t.gangAt k).reports, q.id = c.id ∧ q.record = r) ∧
        (c.issuers.Nodup → ∀ k ∈ c.issuers, (t.gangAt k).out = ((s.gangAt k).complete c.id).out)))

/-- The step of a selection (12 R312, R313): lanes 0 onward of the quad hold the entries, each in its lane's own key type,
the lanes after them are padded, the count is in `a`; the free numbers that settled ties are spent, and nothing else
changes. Code 0xF0 discards the entries (02 R41). -/
def Sys2Proof.Machine.State.selected (s t : State) (q a : Code) (es : List (Nat × Ent)) : Prop :=
  let e := laneEnt s.freeKey s.gang.keyType es
  s.past t ∧ t = { s with gangs := t.gangs, fresh := t.fresh } ∧ s.gang.sameReports t.gang ∧
  (q ≠ 0xF0 → ∀ l, l < 32 → t.gang.v q.toNat l = BitVec.ofNat 32 (e l).key ∧
    (etypeWide (s.gang.keyType l) = true → t.gang.v (q.toNat + 1) l = BitVec.ofNat 32 ((e l).key / 2 ^ 32)) ∧
    t.gang.v (q.toNat + 2) l = BitVec.ofNat 32 (e l).idx ∧ t.gang.v (q.toNat + 3) l = BitVec.ofNat 32 ((e l).idx / 2 ^ 32)) ∧
  (∀ r l, l < 32 → q = 0xF0 ∨ r < q.toNat ∨ q.toNat + 4 ≤ r ∨ (r = q.toNat + 1 ∧ etypeWide (s.gang.keyType l) = false) →
    t.gang.v r l = s.gang.v r l) ∧
  (∀ k i, k < 8 → i < 32 → t.gang.s k i =
    if a ≠ 0xF0 ∧ i = a.toNat ∧ s.gang.issuing k = true then BitVec.ofNat 32 es.length else s.gang.s k i) ∧
  t.gang.regs.p = s.gang.regs.p

/-- vsort, vtopk and tkmrg (12 R312 to R315; 03 R88): the valid entries in order, the greatest k of them, and their merge
with a list of the slices' etype in a tile, which is written back. Slices of several etypes are sorted each in its own, and
which etype stands first is the model's free choice (log entry 22); a fixed source in tkmrg's quad is read in each of its
fields' types (log entry 104, DEDUCED); slices of one etype are sorted as one. ctopk (R316)
goes on with the count once the group has answered. -/
def Obligations.SortsAndLists : Prop :=
  ∀ (s : State) (d a b : Code), s.gang.whole = true → s.gang.heldBy 64 = [] →
    (s.issues (selectOps true d [.sw 32 a]) = true → ∃ t, exec (.vsort d a) s = .next t ∧ s.selected t d a (s.sorted d)) ∧
    (s.issues (selectOps true d [.sw 32 a, .sr 32 b]) = true → 0 < (s.sarg b).toNat → (s.sarg b).toNat ≤ 32 →
      ∃ t, exec (.vtopk d a b) s = .next t ∧ s.selected t d a ((s.sorted d).take (s.sarg b).toNat)) ∧
    (∀ ty, (∀ k, k < 8 → s.gang.issuing k = true → modeEtype (s.gang.mode k) = ty) → (∃ k, k < 8 ∧ s.gang.issuing k = true) →
      s.sorted d = (sortEnts ty (s.entries d ty)).map (fun e => (ty, e))) ∧
    (∀ l img, s.issues (selectOps false d [.sr 32 a, .sw 32 b]) = true → s.gang.lateAccesses = [] →
      (s.drainQueues s.gang.core).listAt s.wg s.gang.core (s.sarg a).toNat = .ok (l, img) →
      s.keyTypes = [blockNum img 4 1] →
      let k := blockNum img 0 2
      let ty := blockNum img 4 1
      let es := mergeEnts k ty (listEnts img (fun j => (Config.freeValue (s.fresh + 32 + j)).toNat) ++ s.entries d ty)
      ∃ t, exec (.tkmrg d a b) s = .next t ∧ s.past t ∧ t.gang.regs.v = s.gang.regs.v ∧
        t.cores = ((s.drainQueues s.gang.core).barnWrite l (listImage k ty es)).cores ∧ t.mem = s.mem ∧
        ∀ j, j < 8 → s.gang.issuing j = true → b ≠ 0xF0 → t.gang.s j b.toNat = BitVec.ofNat 32 es.length) ∧
    (∀ e k p x n, s.issues (fixedOps [.sw 32 d, .sr 32 a, .sr 32 b]) = true → s.gang.lateAccesses = [] → s.names a e k p →
      s.ngMember (s.groupAt k) p s.gang.wid (ngLevel e) = true →
      (s.groupAt k).topk.find? (fun x => decide (x.gang = s.cur) && decide (x.pc = s.gang.pcNow)) = some x →
      x.result = some (some n) → ∃ t, exec (.ctopk d a b) s = .next t ∧ s.past t ∧ t.mem = s.mem ∧
        t.gang.regs.v = s.gang.regs.v ∧
        ∀ j, j < 8 → s.gang.issuing j = true → d ≠ 0xF0 → t.gang.s j d.toNat = BitVec.ofNat 32 n)

/-- Sorting keeps every entry once, and no later entry has a greater key: integer keys of every width (12 R313). -/
def Obligations.SortedEntries : Prop :=
  ∀ (ty : Nat) (es : List Ent), isFloat ty = false →
    (sortEnts ty es).Perm es ∧ (sortEnts ty es).Pairwise (fun a b => keyGreater ty b.key a.key = false)

/-- The group of the gang in focus, as expn, segr, xsave and xrst require it (12 R304, R308). -/
def Sys2Proof.Machine.State.inGroup (s : State) (x : XGroup) : Prop :=
  s.gang.whole = true ∧ s.gang.regs.broken = false ∧ xstState s.gang.regs.xst = 2 ∧ s.wg.groupOf s.gang.num = some x

/-- Forming an expand group and dealing its rounds (12 R303 to R306): expb forms a group of the gang alone, as expb.g
does with a descriptor that names it alone; a gang whose partners have not issued theirs waits; expn deals a round to
the lanes that have an item; segr adds the lanes' values to their owners, or takes the floating-point trap with nothing
written. That a descriptor's names past its last member must be 0 is the model's choice (log entry 113, DESIGN CHOICE), and
that segr waits for and reports its own gang's accumulators alone its reading (log entry 114, DEDUCED). -/
def Sys2Proof.Claims.ExpandedGangs : Prop :=
  ∀ (s : State) (d a b : Code), s.gang.heldBy 64 = [] →
    (s.issues (fixedOps [.sw 32 d, .vr 64 a, .vr 32 b]) = true → s.gang.whole = true → s.gang.flow.blocks = [] →
      s.cur = gangKey s.gang.wid s.gang.num → s.gang.live = true → s.wg.forming = [] →
      let p := prefixMap (fun l => (s.laneRun a b l).2) 32
      let formed := fun t => s.past t ∧ t.gang.regs.v = s.gang.regs.v ∧ t.mem = s.mem ∧
        t.gang.regs.xst = xstOf 2 0 0 0 ∧ t.gang.regs.broken = false ∧
        (∃ x, t.wg.groupOf s.gang.num = some x ∧ x.members = [s.gang.num] ∧ x.total = p.2 ∧
          ∀ l, l < 32 → mapGet 0 x.start l = (s.laneRun a b l).1 ∧
            mapGet 0 x.pre l = ((List.range l).map (fun j => (s.laneRun a b j).2)).sum) ∧
        ∀ k, k < 8 → s.gang.issuing k = true → d ≠ 0xF0 → t.gang.s k d.toNat = BitVec.ofNat 32 p.2
      (p.2 < 2 ^ 32 → ∃ t, exec (.expb d a b) s = .next t ∧ formed t) ∧
      (descOk s.wg s.gang.num (s.sarg d) = true → descMembers (s.sarg d) = [s.gang.num] → p.2 < 2 ^ 32 →
        ∃ t, exec (.expbG d a b) s = .next t ∧ formed t) ∧
      (descOk s.wg s.gang.num (s.sarg d) = true →
        (∃ m ∈ descMembers (s.sarg d), m ≠ s.gang.num ∧ (s.gangAt (gangKey s.gang.wid m)).atFormation = false) →
        (∀ m ∈ descMembers (s.sarg d), (s.gangAt (gangKey s.gang.wid m)).live = true) →
        ∃ t, exec (.expbG d a b) s = .next t ∧ mapFind s.gang.flow.served t.gang.flow.blocks = some .formation ∧
          xstState t.gang.regs.xst = 1 ∧ t.gang.regs.xst.toNat % 2 ^ 62 = s.gang.regs.xst.toNat % 2 ^ 62 ∧
          t.gang.regs.v = s.gang.regs.v)) ∧
    (∀ x, s.issues (fixedOps [.pw d, .pw a]) = true → s.inGroup x →
      let n := x.members.length
      let base := xstRound s.gang.regs.xst * 32 * n + 32 * xstM s.gang.regs.xst
      let next := (xstRound s.gang.regs.xst + 1) % 2 ^ 32
      ∃ t, exec (.expn d a) s = .next t ∧ s.past t ∧ s.sameDevice t ∧ t.gang.regs.v = s.gang.regs.v ∧
        t.gang.regs.xst = xstOf 2 (n - 1) (xstM s.gang.regs.xst) next ∧
        ∀ l, l < 32 → (d ≠ 0xF0 → d ≠ a → t.gang.p d.toNat l = decide (base + l < x.total)) ∧
          (a ≠ 0xF0 → t.gang.p a.toNat l = decide (next * 32 * n + 32 * xstM s.gang.regs.xst < x.total)) ∧
          (base + l < x.total →
            let o := x.owner (base + l)
            (mapGet 0 t.gang.regs.xo l).toNat = o % 2 ^ 32 ∧
            (mapGet 0 t.gang.regs.xk l).toNat = (base + l - x.prefix_ o) % 2 ^ 32 ∧
            mapGet 0 t.gang.regs.xi l = mapGet 0 x.start o + BitVec.ofNat 64 (base + l - x.prefix_ o)) ∧
          (x.total ≤ base + l → mapGet 0 t.gang.regs.xi l = mapGet 0 s.gang.regs.xi l)) ∧
    (∀ x, s.issues (etypeOps keyType (fun t => [.vw (vwidth t) d, .vr (vwidth t) a])) = true → s.inGroup x →
      s.gang.readable d 2 (s.gang.ownOwners x etypeWide) → s.gang.readable d 1 (s.gang.ownOwners x (fun t => !etypeWide t)) →
      (∀ m ∈ x.members, (s.gangAt (gangKey s.gang.wid m)).live = true ∧
        (d ≠ 0xF0 → d.toNat + (if (List.range 8).any (fun k => s.gang.issuing k && etypeWide (modeEtype (s.gang.mode k)))
          then 2 else 1) ≤ (s.gangAt (gangKey s.gang.wid m)).alloc)) →
      (∀ l, s.gang.active l = true → (mapGet (0 : Word) s.gang.regs.xo l).toNat < 32 * x.members.length) →
      let r := segrLanes x d a s.gang.activeList s
      let fl := fun l => ((r.2.find? (fun e => decide (e.1 = l))).map (·.2)).getD 0
      (s.gang.trapping fl = 0 →
        exec (.segr d a) s = .next ((r.1.updGang (fun g => g.raiseFlags (laneFlags s.gang fl))).advance)) ∧
      (s.gang.trapping fl ≠ 0 →
        exec (.segr d a) s = .next ((s.updGang (fun g => g.raiseFlags (laneFlags s.gang fl))).takeTrap
          { cause := 0x0A, lanes := s.gang.trapping fl, aux := BitVec.ofNat 32 (laneFlags s.gang fl) })))

/-- What one lane of segr adds (12 R306): the owner's lane takes the sum, as gred forms it, of what it held and of the
lane's value; no other lane of the register changes. -/
def Sys2Proof.Claims.SegmentedSum : Prop :=
  ∀ (s : State) (x : XGroup) (d a : Code) (l : Nat), d ≠ 0xF0 →
    let t := s.gang.et l
    let o := (mapGet (0 : Word) s.gang.regs.xo l).toNat
    let key := gangKey s.gang.wid (x.members.getD (o / 32) 0)
    let h := s.gangAt key
    let old := if etypeWide t then (h.vPair d.toNat (o % 32)).toNat else (h.v d.toNat (o % 32)).toNat
    let u := ((segrLane x d a l s).1).gangAt key
    let sum := (gredStep 0 t (s.gang.fmode l) old (s.vsrc (.elem t) a l).toNat).1
    (if etypeWide t then (u.vPair d.toNat (o % 32)).toNat = sum % 2 ^ 64 else (u.v d.toNat (o % 32)).toNat = sum % 2 ^ 32) ∧
    ∀ r k, k < 32 → ¬ (k = o % 32 ∧ d.toNat ≤ r ∧ r < d.toNat + (if etypeWide t then 2 else 1)) → u.v r k = h.v r k

/-- Forming groups, dealing rounds, and what segr adds. -/
def Obligations.ExpandGroups : Prop := Sys2Proof.Claims.ExpandedGangs ∧ Sys2Proof.Claims.SegmentedSum

/-- xsave and xrst (12 R309, R310): the image of the group goes to, and comes back from, lane 0's address in the bytes of
R309, over the path ST or LD; an image that fails the checks is expand misuse 2. -/
def Obligations.ExpandImages : Prop :=
  ∀ (s : State) (x : XGroup) (a : Code) (n : BitVec 6) (sp : BitVec 1), n ≠ 63 → s.inGroup x →
    s.gang.heldBy 3 = [] →
    s.issues (fixedOps [.vl 64 a]) = true → s.gang.readable a 2 [0] →
    let addr := s.vsrc64 a 0
    let va := globalOf s.wg s.gang.num 0 addr.toNat
    let bs := x.image (s.roundOf s.gang.wid x)
    let size := 32 + 384 * x.members.length
    bs.length = size ∧
    (s.imageFault sp.toNat size addr = none →
      (let f : Form := { acc := .write, size := bs.length, sp := sp.toNat, path := 1, ticks := false }
       let r := translateLanes f (s.imagePlaces sp.toNat bs.length addr) (s.countMem f)
       let id := r.1.nextId
       let s1 := ({ r.1 with nextId := id + 1 }).updGang (fun g => g.raise 1 id true)
       s.gang.counter 1 < 63 → r.2.faults = [] → s.gang.lateOn r.2.ok = [] →
       exec (.xsave a n sp) s = .next ((((imagePieces va bs.length r.2.ok).foldl (fun (u : State) p =>
         u.storeAt id 0 p.2.2 (s.gang.nuCode n.toNat 0) (ofBytesLE ((bs.drop p.2.1).take p.2.2)) p.1) s1).afterLanes 1 2 [] id
           r.2.ok).updGang Gang.finishReplay).advance) ∧
      (let f : Form := { acc := .read, size := size, sp := sp.toNat, path := 0, ticks := false }
       let r := translateLanes f (s.imagePlaces sp.toNat size addr) (s.countMem f)
       ∀ u im, s.gang.counter 0 < 63 → r.2.faults = [] → s.gang.lateOn r.2.ok = [] →
         State.readImage (s.gang.nuCode n.toNat 0) (imagePieces va size r.2.ok) r.1 = .ok (u, im) →
         (imageOk x im = true → exec (.xrst a n sp) s = .next (((({ u with nextId := u.nextId + 1 }).updGang
           (fun g => (g.raise 0 u.nextId true).finishReplay)).restoreGroup s.gang.wid x im).advance)) ∧
         (imageOk x im = false → exec (.xrst a n sp) s = .next (s.takeTrap { cause := 0x15, sub := 2 }))))

/-- Hash tables (12 R317 to R320): hinit writes an empty table of 2^L slots; hins, hacc and hfind probe for each active
lane's key in lane order, and each slice's guard takes the lanes' outcomes. -/
def Obligations.HashTables : Prop :=
  (∀ (s : State) (a b : Code), s.issues (fixedOps [.sr 32 a, .sr 32 b]) = true → s.gang.lateAccesses = [] →
    s.gang.heldBy 64 = [] →
    let loc := (s.sarg a).toNat
    let v := (s.sarg b).toNat
    let kw := 4 + 4 * field v 4 1
    let half := max kw (etypeWidth (field v 5 5) / 8)
    loc % 16 = 0 → v < 2 ^ 17 → hashOk (v % 16) (field v 4 1) (field v 5 5) (field v 10 5) (field v 15 2) = true →
    s.wg.rangeFault loc (16 + 2 ^ (v % 16) * (2 * half)) 1 0 = none →
    exec (.hinit a b) s = .next ((s.drainQueues s.gang.core).barnWrite (s.wg.barnLoc s.gang.core loc)
      ([0, 0, 0, 0] ++ bytesLE 1 (v % 16) ++ bytesLE 1 (field v 4 1) ++ bytesLE 1 (field v 5 5) ++
        bytesLE 1 (field v 10 5) ++ bytesLE 1 (field v 15 2) ++ List.replicate 7 0 ++
        (List.replicate (2 ^ (v % 16)) (List.replicate kw 0xFF ++ List.replicate (2 * half - kw) 0)).flatten)).advance) ∧
  (∀ (s : State) (loc k v : Code) (h : HashTab) (kind : Nat) (i : Instr),
    (kind, i) ∈ [(0, Instr.hins loc k v), (1, .hacc loc k v), (2, .hfind v k loc)] →
    s.issues (fixedOps [.sr 32 loc, .vr 32 k, if kind = 2 then .vw 32 v else .vr 32 v]) = true →
    s.gang.lateAccesses = [] → s.gang.heldBy 64 = [] → s.issues (fixedOps (h.pairs kind k v)) = true →
    (s.drainQueues s.gang.core).tableAt (s.sarg loc).toNat = .ok h →
    (h.kw = 8 → k.toNat < 0xF0 → k.toNat % 2 = 0 ∧ k.toNat + 2 ≤ s.gang.alloc) →
    (h.vw = 8 → v.toNat < 0xF0 → v.toNat % 2 = 0 ∧ v.toNat + 2 ≤ s.gang.alloc) →
    let r := hashLanes h kind (fun l => (s.vsrc (.int (8 * h.kw)) k l).toNat % 2 ^ (8 * h.kw))
      (fun l => (s.vsrc (.elem h.vtype) v l).toNat % 2 ^ (8 * h.vw)) s.gang.activeList (s.drainQueues s.gang.core)
    let out := fun l => ((r.2.find? (fun e => decide (e.1 = l))).map (·.2)).getD (false, 0)
    ∃ t, exec i s = .next t ∧ s.past t ∧ t = { r.1 with gangs := t.gangs } ∧
      (∀ l, s.gang.active l = true → l < 32 → modeGuard (s.gang.mode (l / 4)) ≠ 31 →
        t.gang.p (modeGuard (s.gang.mode (l / 4))) l = ((out l).1 != modeSense (s.gang.mode (l / 4)))) ∧
      ∀ q l, l < 32 → t.gang.v q l =
        if kind = 2 ∧ v ≠ 0xF0 ∧ s.gang.active l = true ∧ (out l).1 = true ∧ q = v.toNat then BitVec.ofNat 32 (out l).2
        else if kind = 2 ∧ v ≠ 0xF0 ∧ s.gang.active l = true ∧ (out l).1 = true ∧ h.vw = 8 ∧ q = v.toNat + 1 then
          BitVec.ofNat 32 ((out l).2 / 2 ^ 32)
        else s.gang.v q l)

/-- A Thresher operation may be posted (14 R345; 02 R52; 08 R220): nothing that is under way holds it, its path has room, and
the cluster's table has a free entry. -/
def Sys2Proof.Machine.State.tableRoom (s : State) : Prop :=
  s.gang.lateAccesses = [] ∧ s.gang.heldBy 8 = [] ∧ s.gang.counter 3 < 63 ∧ ∃ i, i < 32 ∧ ∀ f ∈ (s.clusterAt s.gang.cluster).table, f.slot ≠ i

/-- The operation `e` is posted: a free entry of the table holds it under the operation's number, the TL counter rises by
one, and the word is past; no register, no byte of memory and no tile changes. -/
def Sys2Proof.Machine.State.postedMop (s t : State) (e : Mentry) : Prop :=
  (∃ i id, i < 32 ∧ (∀ f ∈ (s.clusterAt s.gang.cluster).table, f.slot ≠ i) ∧
    (t.clusterAt s.gang.cluster).table = (s.clusterAt s.gang.cluster).table ++ [{ e with slot := i, id := id }]) ∧
  (t.clusterAt s.gang.cluster).acc = (s.clusterAt s.gang.cluster).acc ∧
  t.gang.counter 3 = s.gang.counter 3 + 1 ∧ t.gang.regs = s.gang.regs ∧ t.mem = s.mem ∧ t.cores = s.cores ∧ s.past t

/-- The words that post an operation (14 R342 to R346, R353, R355, R357): with the locators in their tiles and the blocks
within their rules, mloop, mdrain, mzero, msave, mrestore and tacc post theirs. -/
def Obligations.ThresherIssue : Prop :=
  ∀ (s : State), s.tableRoom →
    (∀ a : Code, let blk := s.barnBlock (s.sarg a).toNat 128
      s.issues (fixedOps [.so 32 a]) = true → s.wg.rangeFault (s.sarg a).toNat 128 128 0 = none →
      s.wg.requestBounds blk = none → requestOk blk (s.wg.accTileOf (accHandle (blockNum blk 0x38 4))).rowBytes = true →
      s.wg.scaleLevelBad (blockNum blk 0 8) = false → s.wg.scaleLevelBad (blockNum blk 8 8) = false →
      ∃ t, exec (.mloop a) s = .next t ∧ s.postedMop t (s.newMop 0xE2 0 (blockNum blk 0x38 4) blk)) ∧
    (∀ (z sh : BitVec 1) (a b : Code), let blk := s.barnBlock (s.sarg b).toNat 64
      s.issues (fixedOps [.so 32 a, .so 32 b]) = true → s.wg.accFault (s.sarg a).toNat = none →
      s.wg.rangeFault (s.sarg b).toNat 64 64 0 = none → drainOk blk (decide (sh = 1)) = true →
      ∃ t, exec (.mdrain z sh a b) s = .next t ∧
        s.postedMop t (s.newMop 0xE3 (sh.toNat + 2 * z.toNat) (s.sarg a).toNat blk)) ∧
    (∀ a : Code, s.issues (fixedOps [.so 32 a]) = true → s.wg.accFault (s.sarg a).toNat = none →
      ∃ t, exec (.mzero a) s = .next t ∧ s.postedMop t (s.newMop 0xE4 0 (s.sarg a).toNat [])) ∧
    (∀ a b : Code, s.issues (fixedOps [.so 32 a, .so 64 b]) = true → s.wg.accFault (s.sarg a).toNat = none →
      addrOk (s.sarg64 b).toNat 128 = true →
      (∃ t, exec (.msave a b) s = .next t ∧ s.postedMop t (s.newMop 0xEA 0 (s.sarg a).toNat (bytesLE 8 (s.sarg64 b).toNat))) ∧
      ∃ t, exec (.mrestore a b) s = .next t ∧
        s.postedMop t (s.newMop 0xEB 0 (s.sarg a).toNat (bytesLE 8 (s.sarg64 b).toNat))) ∧
    (∀ d a b : Code, s.issues (taccOps d a b) = true → s.wg.accFault (s.sarg d).toNat = none →
      let ty := (s.wg.accTileOf (accHandle (s.sarg d).toNat)).accType
      (∀ k, s.gang.issuing k = true → modeEtype (s.gang.mode k) = ty) → (s.sarg b).toNat < 128 →
      ∃ t, exec (.tacc d a b) s = .next t ∧ s.postedMop t { s.newMop 0xE5 0 (s.sarg d).toNat [] with
        row := (s.sarg b).toNat % 64, half := (s.sarg b).toNat / 64
        values := s.gang.activeList.map (fun l => (l, s.vsrc (.elem ty) a l)) })

/-- Event bits (14 R347; 08 R226) and mpt (14 R359): evset sets its bit after a release, and then every gang that waits for the
bit goes on; evclr clears it once the entries that it has made eligible have started; evwait goes on when it is set and stalls
when it is not, and evwait clear clears it as it goes on, the first of those that wait to; an index of 256 or more is Thresher
misuse 2. mpt with no pre-emption pending moves on, and with one pending takes it with its mask: that its PC stays, so that it
issues again after the restore, is the model's reading (log entry 55, DEDUCED). -/
def Obligations.EventBits : Prop :=
  ∀ (s : State) (a : Code), let n := (s.sarg a).toNat
    let cl := s.gang.cluster
    let bits := fun (u : State) => (u.clusterAt cl).events
    let none_starts := ∀ e ∈ (s.clusterAt cl).table, (s.clusterAt cl).eligible e = false
    let cleared := fun (t : State) => s.past t ∧ t.gang.regs = s.gang.regs ∧ t.mem = s.mem ∧ (bits t).getLsbD n = false ∧
      (none_starts → ∀ i, i < 256 → (bits t).getLsbD i = (decide (i ≠ n) && (bits s).getLsbD i))
    (s.issues (fixedOps [.sr 32 a]) = true →
      (n < 256 → s.gang.releaseReport 4 = none → s.gang.releaseWaits 4 = [] →
        let u := ((s.releaseActs s.gang.core 4).updCluster cl (fun c => c.setEvents (eventMask n) 0)).advance
        exec (.evset a) s = .next (u.settleEvents cl) ∧ s.past u ∧ u.gang.regs = s.gang.regs ∧
        (∀ i, i < 256 → (bits u).getLsbD i = (decide (i = n) || (bits s).getLsbD i)) ∧
        ((u.clusterAt cl).starters = [] → (u.waitedBits cl = [] → u.settleEvents cl = u) ∧
          ∀ k ∈ u.eventWaiters cl (.eventBit n), mapRising 0 (u.gangAt k).flow.blocks = true →
            (u.gangAt k).flow.blocks.length ≤ 8 →
            ∀ b ∈ ((u.settleEvents cl).gangAt k).flow.blocks, b.2 ≠ .eventBit n)) ∧
      (n < 256 → ∃ t, exec (.evclr a) s = .next t ∧ cleared t) ∧
      (n < 256 → (bits s).getLsbD n = true → ∃ t, exec (.evwait a) s = .next t ∧ s.past t ∧ t.gang.regs = s.gang.regs ∧
        t.mem = s.mem ∧ bits t = bits s) ∧
      (n < 256 → (bits s).getLsbD n = true →
        mapFind s.gang.flow.served s.gang.flow.blocks = some (.eventClear n) ∨ s.clearWaiters s.gang.cluster s.cur n = [] →
        ∃ t, exec (.evwaitClear a) s = .next t ∧ cleared t) ∧
      (n < 256 → mapFind s.gang.flow.served s.gang.flow.blocks ≠ some (.eventClear n) →
        s.clearWaiters s.gang.cluster s.cur n ≠ [] → exec (.evwaitClear a) s = .next (s.stall (.eventClear n))) ∧
      (n < 256 → (bits s).getLsbD n = false → exec (.evwait a) s = .next (s.stall (.eventBit n)) ∧
        exec (.evwaitClear a) s = .next (s.stall (.eventClear n))) ∧
      (256 ≤ n → ∀ i ∈ [Instr.evset a, .evclr a, .evwait a, .evwaitClear a],
        exec i s = .next (s.takeTrap { cause := 0x18, sub := 2 }))) ∧
    (s.issues (fixedOps [.sr 64 a]) = true →
      (s.gang.trap.preempt = false → ∃ t, exec (.mpt a) s = .next t ∧ s.idleStep t) ∧
      (s.gang.trap.preempt = true → s.gang.trap.taken = false → ∃ t, exec (.mpt a) s = .next t ∧
        t.gang.trap.taken = true ∧ t.gang.trap.tmask = s.sarg64 a ∧ t.gang.flow.pc = s.gang.flow.pc))

/-- Tile handles (07 R174, R175): talloc takes the lowest free handle and the level's free granules, or answers why it
cannot (that the granules are the lowest-numbered free ones is the model's choice: log entry 24, DESIGN CHOICE); tfree gives a handle and its granules back once nothing outstanding names it. -/
def Obligations.TileHandles : Prop :=
  (∀ (s : State) (d a b : Code), s.issues (fixedOps [.sw 32 d, .sr 32 a, .sr 32 b]) = true →
    let x := (s.sarg a).toNat
    let y := (s.sarg b).toNat
    let level := field y 20 2
    let n := granulesFor level x (y % 2 ^ 20)
    let answers := fun (t : State) (v : Word) => s.past t ∧ t.mem = s.mem ∧ t.gang.regs.v = s.gang.regs.v ∧
      ∀ k i, k < 8 → i < 32 → t.gang.s k i = if d ≠ 0xF0 ∧ i = d.toNat ∧ s.gang.issuing k = true then v else s.gang.s k i
    (∀ h, h < 64 → tallocOk x y = true → s.wg.tile h = none → (∀ j, j < h → s.wg.tile j ≠ none) →
      n ≤ (s.freeGranules s.gang.wid level).length → ∃ t, exec (.talloc d a b) s = .next t ∧ answers t (BitVec.ofNat 32 h) ∧
        t.wg.tile h = some { rows := x, rowBytes := y % 2 ^ 20, level := level
                             granules := (s.freeGranules s.gang.wid level).take n } ∧
        ∀ j, j ≠ h → t.wg.tile j = s.wg.tile j) ∧
    (tallocOk x y = false → ∃ t, exec (.talloc d a b) s = .next t ∧ answers t 0xFFFFFFF2 ∧ t.wg = s.wg) ∧
    (tallocOk x y = true → (∀ j, j < 64 → s.wg.tile j ≠ none) → ∃ t, exec (.talloc d a b) s = .next t ∧
      answers t 0xFFFFFFF0 ∧ t.wg = s.wg) ∧
    (∀ h, h < 64 → tallocOk x y = true → s.wg.tile h = none → (∀ j, j < h → s.wg.tile j ≠ none) →
      (s.freeGranules s.gang.wid level).length < n → ∃ t, exec (.talloc d a b) s = .next t ∧ answers t 0xFFFFFFF1 ∧
        t.wg = s.wg)) ∧
  (∀ (s : State) (a : Code), s.issues (fixedOps [.sr 32 a]) = true →
    let h := (s.sarg a).toNat
    (h < 64 → s.wg.tile h ≠ none → s.tileBusy s.gang.wid h = false → ∃ t, exec (.tfree a) s = .next t ∧ s.past t ∧
      t.gang.regs = s.gang.regs ∧ t.mem = s.mem ∧ t.wg.tile h = none ∧ ∀ j, j ≠ h → t.wg.tile j = s.wg.tile j) ∧
    (h < 64 → s.wg.tile h ≠ none → s.tileBusy s.gang.wid h = true →
      exec (.tfree a) s = .next (s.stall (.tile h))) ∧
    (64 ≤ h ∨ s.wg.tile h = none →
      exec (.tfree a) s = .next (s.takeTrap { cause := 0x0E, sub := 4, aux := BitVec.ofNat 32 (h % 64) })))

/-- The steps of posted operations (14 R346, R348 to R357, R483): every entry that is eligible starts, those that leave their
wait bits set before any that consumes one, and with headers that pass the checks stays; the array grants a pass of at most
eight steps; a pass that meets no error leaves the steps' values in the tile, and ends the entry after its last step; the
port takes the oldest operation; mzero, tacc, a drain and an image operation that meet no error take their effect and end,
once their writes to other devices have performed. -/
def Sys2Proof.Claims.ThresherEvents : Prop :=
  ∀ (s : State) (cl slot : Nat) (e : Mentry), let c := s.clusterAt cl
    let fits := s.headerSpoilt e 0 = false ∧ s.headerSpoilt e 8 = false ∧
      headerFits ((s.wgAt e.wid).sclTile (e.num 0 8)) (e.num 0 8) e.kExtent (s.scaleHeader e 0) = true ∧
      headerFits ((s.wgAt e.wid).sclTile (e.num 8 8)) (e.num 8 8) e.kExtent (s.scaleHeader e 8) = true
    (c.entry slot = some e → c.mayStart e = true → exec (.mloopEntryStart cl slot) s = .next (s.settleEvents cl)) ∧
    (c.starters = [e] → s.waitedBits cl = [] → fits → s.settleEvents cl = s.startEntry cl e) ∧
    ((c.table.map (·.slot)).Nodup → e ∈ c.table → c.eligible e = true → e.keepsBits = true → fits →
      ∃ f ∈ ((s.startAll cl).clusterAt cl).table, f.slot = e.slot ∧ f.started = true) ∧
    (let hs := (s.scaleHeader e 0, s.scaleHeader e 8)
      let e1 := { e with started := true, startAge := s.clock.toNat, occ := s.occBytes e, hdr := hs }
      s.headerSpoilt e 0 = false → s.headerSpoilt e 8 = false →
      headerFits ((s.wgAt e.wid).sclTile (e.num 0 8)) (e.num 0 8) e.kExtent hs.1 = true →
      headerFits ((s.wgAt e.wid).sclTile (e.num 8 8)) (e.num 8 8) e.kExtent hs.2 = true →
      let t := s.startEntry cl e
      (t.clusterAt cl).table = c.table.map (fun f => if f.slot = e.slot then e1 else f) ∧
        (t.clusterAt cl).events = (if bit (e.num 0x36 1) 4 then c.events &&& ~~~ e.waitMask else c.events) ∧
        mapFind ((s.mopTile e).accKey e.tile) (t.clusterAt cl).drainFmt = some (BitVec.ofNat 64 (e.num 0x10 8)) ∧
        t.mem = s.mem ∧ t.gangs = s.gangs) ∧
    (s.nextPass cl = some e → ∃ t, exec (.thresherPassGrant cl) s = .next t ∧
      (t.clusterAt cl).pass = some (e.slot, min 8 (e.num 0x34 2 - e.step)) ∧ t.mem = s.mem ∧ t.gangs = s.gangs) ∧
    (∀ n u e1 rows, c.pass = some (slot, n) → c.entry slot = some e →
      State.runSteps cl n s e (c.tileRows (s.mopTile e) e.tile) = (u, e1, rows, none) →
      let e2 := { e1 with startAge := s.clock.toNat }
      let v := u.updCluster cl (fun c => { (c.setRows (s.mopTile e) e.tile rows) with
        table := c.table.map (fun f => if f.slot = slot then e2 else f), pass := none })
      exec (.thresherPassEnd cl) s = .next (if e1.num 0x34 2 ≤ e1.step then v.finishMop cl e2 none else v)) ∧
    (c.nextPort = some e → ∃ t, exec (.tilePortStart cl) s = .next t ∧ (t.clusterAt cl).port = some e.slot ∧
      (t.clusterAt cl).acc = c.acc ∧ t.mem = s.mem ∧ t.gangs = s.gangs) ∧
    (c.port = some slot → c.entry slot = some e →
      (e.op = 0xE4 → exec (.tileOperationComplete cl) s = .next ((s.clearTile cl e).endMop cl e none)) ∧
      (e.op = 0xE5 → c.rowSpoilt (s.mopTile e) e.tile e.row = false → exec (.tileOperationComplete cl) s =
        .next ((s.updCluster cl (fun c => c.taccRow (s.mopTile e) e)).endMop cl e none)) ∧
      (let fmtC := (mapGet 1 c.drainFmt ((s.mopTile e).accKey e.tile)).toNat
       let vals := (imageRows (s.mopTile e) (e.snap.getD [])).map (fun r => r.map (elemValue (s.mopTile e).accType false))
       ∀ u e1, e.op = 0xE3 → e.prow < e.lines → e.failed = none → c.failed (s.mopTile e) e.tile = false →
        (fbScheme fmtC ≠ 0 ∨ e.num 0x10 8 = 0) → State.drainLines fmtC e.lines vals 129 s e = (u, e1, none) →
        exec (.tileOperationComplete cl) s = .next ((if bit e.sub 1 then u.clearTile cl e else u).finishMop cl e1 none)) ∧
      (∀ u e1, e.op = 0xEA → c.failed (s.mopTile e) e.tile = false →
        State.imageLines cl (s.mopTile e) 65 s e = (u, e1, none) →
        exec (.tileOperationComplete cl) s = .next (u.finishMop cl e1 none)) ∧
      (∀ u e1, e.op = 0xEB → State.imageLines cl (s.mopTile e) 65 s e = (u, e1, none) →
        exec (.tileOperationComplete cl) s =
          .next ((u.updCluster cl (fun c => c.setFailed (s.mopTile e) e1.tile false)).finishMop cl e1 none))) ∧
    (s.engBusy e.id = false → e.failed = none → s.finishMop cl e none = s.endMop cl e none)

/-- One K-step of the array (13 R331): each value of the tile becomes the sum, rounded once to nearest even, of itself and
of the products of its row's and its column's elements. -/
def Sys2Proof.Claims.KStep : Prop :=
  ∀ (ty : Nat) (as bs : List (List FVal)) (rows : List (List Nat)) (i j : Nat) (row : List Nat) (a b : List FVal) (x : Nat),
    rows[i]? = some row → as[i]? = some a → row[j]? = some x → bs[j]? = some b →
    ((stepRows ty as bs rows)[i]?.bind (fun r => r[j]?)) = some ((convert ty { round := 0, sat := false, ftz := false }
      (fvSum 0 (elemValue ty false x :: a.zipWith (fun p q => (fvMul p q).1) b)).1).1)

/-- One K-step of the array, and the steps of posted operations. -/
def Obligations.ThresherProgress : Prop := Sys2Proof.Claims.KStep ∧ Sys2Proof.Claims.ThresherEvents

/-- A handle of this device that a partition knows stands for the slot `k` (15 R362, R363). -/
def Sys2Proof.Machine.State.knows (s : State) (h : DWord) (k : Nat) : Prop :=
  handleBad h = false ∧ s.known s.wg.part h = some k

/-- rinv and rinvh (15 R366 to R369): a block within its rules takes a handle of the partition's range and sends the
invocation after the release, behind the accesses of its gang that perform late; the pair receives the handle. With no free
slot the pair receives the null handle. The null handle as an upstream has this device as its home: the model's reading (log
entry 51, DEDUCED). -/
def Sys2Proof.Claims.Invocations : Prop :=
  ∀ (s : State) (a b : Code) (dep : Bool), b ≠ 0xF0 → b.toNat + 1 < 32 →
    let i := if dep then Instr.rinvh a b else .rinv a b
    let loc := (s.sarg a).toNat
    let blk := s.barnBlock loc 64
    let alen := blockNum blk 6 2
    let up : DWord := BitVec.ofNat 64 (blockNum blk 0x18 8)
    let dst := if dep then (if hKind up = 0 then s.devid else hDev up) else blockNum blk 0 2
    let sc := if dep = false ∧ dst = s.devid then 4 else 5
    s.issues (fixedOps [.so 32 a, .so 64 b]) = true → s.gang.heldBy 32 = [] →
    s.gang.lateAccesses = [] → loc % 64 = 0 → s.wg.rangeFault loc 64 1 0 = none → s.wg.rangeFault (loc + 64) alen 1 0 = none → invBlockOk dep blk = true →
    (dep = true → handleBad up = false) → s.gang.counter 5 < 63 →
    (s.newHandle s.wg.part 1 0 0 = none → (∀ k, s.newHandle s.wg.part k s.cur s.nextId = none) →
      ∃ t, exec i s = .next t ∧ s.past t ∧ t.msgs = s.msgs ∧ t.handles = s.handles ∧
        ∀ k, k < 8 → s.gang.issuing k = true → t.gang.s k b.toNat = 0 ∧ t.gang.s k (b.toNat + 1) = 0) ∧
    (∀ q h u, (s.newHandle s.wg.part 1 0 0).isSome = true → s.release sc = .ok q →
      q.newHandle s.wg.part (if dep then 2 else 1) s.cur q.nextId = some (h, u) →
      ∃ t m, exec i s = .next t ∧ s.past t ∧ t.msgs = q.msgs ++ [m] ∧ t.handles = u.handles ∧
        m.kind = (if dep then .dependent else .invoke) ∧ m.dst = dst ∧ m.handle = h ∧ m.dep = up ∧ m.part = s.wg.part ∧
        m.tpart = blockNum (q.barnBlock loc 64) 2 1 ∧ m.cell = blockNum (q.barnBlock loc 64) 4 2 ∧
        t.gang.counter 5 = s.gang.counter 5 + 1 ∧
        ∀ k, k < 8 → s.gang.issuing k = true → t.gang.s k (b.toNat + 1) ++ t.gang.s k b.toNat = h)

/-- Waiting for and taking results (15 R371 to R373): rpoll answers the status word at once, rwait once it is not 0; rget
is outstanding on path RM until the result arrives, and its registers wait; rdrop frees a finished handle and marks
one that is not. The home of a handle on another device is asked by a message, and the word issues again with its answer;
rwait asks again while the answer is 0: the model's choice of how another home is read (log entry 94, DEDUCED). -/
def Sys2Proof.Claims.ResultsAndHandles : Prop :=
  ∀ (s : State) (d a b : Code), let h := s.sarg64 a
    let answers := fun (t : State) (st : Word) => s.past t ∧ t.mem = s.mem ∧ t.gang.regs.v = s.gang.regs.v ∧
      ∀ k i, k < 8 → i < 32 → t.gang.s k i = if d ≠ 0xF0 ∧ i = d.toNat ∧ s.gang.issuing k = true then st else s.gang.s k i
    (s.issues (fixedOps [.sw 32 d, .so 64 a]) = true → s.gang.heldBy 64 = [] → handleBad h = false →
      (s.farHandle h = false →
        let st := s.handleStatus s.wg.part h
        (∃ t, exec (.rpoll d a) s = .next t ∧ answers t st) ∧
        (st ≠ 0 → ∃ t, exec (.rwait d a) s = .next t ∧ answers t st) ∧
        (st = 0 → exec (.rwait d a) s = .next (s.stall (.handle h)))) ∧
      (s.farHandle h = true →
        (s.gang.poll h 0 = none → exec (.rpoll d a) s = s.askHome h 0 ∧ exec (.rwait d a) s = s.askHome h 0) ∧
        (∀ x, s.gang.poll h 0 = some x → (∃ t, exec (.rpoll d a) s = .next t ∧ answers t (BitVec.ofNat 32 x)) ∧
          (x % 2 ^ 32 ≠ 0 → ∃ t, exec (.rwait d a) s = .next t ∧ answers t (BitVec.ofNat 32 x)) ∧
          (x % 2 ^ 32 = 0 → exec (.rwait d a) s = (s.updGang (fun g => g.usePoll h)).askHome h 0)))) ∧
    (s.gang.heldBy 32 = [] → handleBad h = false → s.gang.counter 5 < 63 →
      let posted := fun (t : State) (barn dest : Nat) => s.past t ∧ t.gang.regs = s.gang.regs ∧ t.mem = s.mem ∧
        t.gang.counter 5 = s.gang.counter 5 + 1 ∧ ∃ m, t.msgs = s.msgs ++ [m] ∧ m.kind = .rget s.nextId ∧
        m.handle = h ∧ m.dst = (if s.farHandle h then hDev h else s.devid) ∧ m.gang = s.cur ∧ m.reg = dest ∧ m.data = barn
      (s.issues (fixedOps [.so 64 a, .vg 32 1 false true false b]) = true → ∃ t, exec (.rget a b) s = .next t ∧
        posted t 0 b.toNat ∧ ∀ r, b.toNat ≤ r → r < b.toNat + 32 → ∃ p ∈ t.gang.pend, p.reg = r ∧ p.lanes = 0xFFFFFFFF) ∧
      (s.issues (fixedOps [.so 64 a, .so 32 b]) = true → s.gang.lateAccesses = [] → (s.sarg b).toNat % 4 = 0 →
        ∃ t, exec (.rgetBarn a b) s = .next t ∧ posted t 1 (s.sarg b).toNat ∧ t.gang.pend = s.gang.pend)) ∧
    (s.issues (fixedOps [.so 64 a]) = true → s.gang.heldBy 64 = [] → handleBad h = false →
      (∀ k, s.knows h k → (s.slotAt k).state < 2 → ∃ t, exec (.rdrop a) s = .next t ∧ s.past t ∧
        t.slotAt k = { s.slotAt k with dropped := true } ∧ ∀ j, j ≠ k → t.slotAt j = s.slotAt j) ∧
      (∀ k, s.knows h k → 2 ≤ (s.slotAt k).state → ∃ t, exec (.rdrop a) s = .next t ∧ s.past t ∧
        (t.slotAt k).used = false ∧ ∀ j, j ≠ k → t.slotAt j = s.slotAt j) ∧
      (s.farHandle h = false → s.known s.wg.part h = none → ∃ t, exec (.rdrop a) s = .next t ∧ s.idleStep t) ∧
      (s.farHandle h = true → s.gang.poll h 1 = none → exec (.rdrop a) s = s.askHome h 1) ∧
      (s.farHandle h = true → s.gang.poll h 1 ≠ none → ∃ t, exec (.rdrop a) s = .next t ∧ s.past t ∧ t.handles = s.handles))

/-- Invocations, waiting, results and dropped handles. -/
def Obligations.HandlesAndInvocations : Prop := Sys2Proof.Claims.Invocations ∧ Sys2Proof.Claims.ResultsAndHandles

/-- The service side and the trigger cells (15 R374 to R377, R380 to R383): rbind of an empty inbox answers zeros, and of
an inbox with an entry, with a free result slot, binds the oldest one, whose handle and address it answers; rput
and rfail end the own invocation, rput by a message to the handle's home; tcarm writes an owned cell from its block; tcadd
sends a raise. That the free result slot of the lowest number is bound (log entry 24, DESIGN CHOICE), and that only the
workgroup that bound an invocation ends it (log entry 53, DEDUCED), are the model's choices. -/
def Obligations.ServiceAndCells : Prop :=
  ∀ (s : State) (a b : Code), s.gang.heldBy 64 = [] →
    (s.issues (fixedOps [.so 32 a, .so 128 b]) = true → (s.sarg a).toNat < 16384 →
      let c := s.cellAt (s.sarg a).toNat
      c.owner = some s.wg.part → bit c.flags.toNat 2 = true →
      (c.bind = c.tail → ∃ t, exec (.rbind a b) s = .next t ∧ s.past t ∧ t.cells = s.cells ∧
        ∀ k i, k < 8 → i < 4 → s.gang.issuing k = true → t.gang.s k (b.toNat + i) = 0) ∧
      (∀ n x, c.bind ≠ c.tail →
        findBelow (fun i => !(s.partAt s.wg.part).poolUsed.contains i) (s.partAt s.wg.part).pool.2 = some n →
        s.execs.find? (fun x => decide (x.cell = (s.sarg a).toNat) && decide (x.idx = c.bind.toNat) && x.bound.isNone) = some x →
        ∃ t, exec (.rbind a b) s = .next t ∧ s.past t ∧ (t.cellAt (s.sarg a).toNat).bind = c.bind + 1 ∧
          n ∈ (t.partAt s.wg.part).poolUsed ∧
          ∀ k, k < 8 → s.gang.issuing k = true → t.gang.s k (b.toNat + 1) ++ t.gang.s k b.toNat = x.handle ∧
            (t.gang.s k (b.toNat + 3) ++ t.gang.s k (b.toNat + 2)).toNat = c.entryAt c.bind.toNat)) ∧
    (∀ x u, handleBad (s.sarg64 a) = false → s.ownExec (s.sarg64 a) = some x → x.settled = 0 → s.release 5 = .ok u →
      (s.issues (fixedOps [.so 64 a, .so 64 b]) = true →
        let loc := (s.sarg64 b).toNat % 2 ^ 32
        let n := (s.sarg64 b).toNat / 2 ^ 32
        let bs := u.barnBlock loc n
        s.wg.rangeFault loc n 1 0 = none → n ≤ 4096 → n % 4 = 0 → loc % 4 = 0 →
        let v := ((u.writeWide u.gang.core ((u.partAt x.part).pool.1 + 4096 * (x.bound.map (·.2)).getD 0) n
          (fun i => bs.getD i 0)).updExec x.handle (fun y => { y with settled := 1, bytes := n })).finishEntry x
        exec (.rput a b) s = .next
          (v.send { Msg.blank with kind := .result n, dst := x.home, handle := x.handle, part := x.part }).advance) ∧
      (s.issues (fixedOps [.so 64 a, .so 32 b]) = true → 64 ≤ (s.sarg b).toNat → (s.sarg b).toNat < 256 →
        exec (.rfail a b) s = .next (u.breakExec x (s.sarg b).toNat).advance)) ∧
    (s.issues (fixedOps [.so 32 a, .so 32 b]) = true →
      (let loc := (s.sarg b).toNat
       let blk := s.barnBlock loc 64
       let k := (s.sarg a).toNat
       s.wg.rangeFault loc 64 1 0 = none → loc % 64 = 0 → k < 16384 → cellBlockOk blk = true →
       (s.cellAt k).armable s.wg.part = true → s.gang.releaseReport 4 = none → s.gang.releaseWaits 4 = [] →
       blockNum blk 8 4 < blockNum blk 0x0C 4 → ∃ t, exec (.tcarm a b) s = .next t ∧ s.past t ∧
        (t.cellAt k).counter = blockNum blk 8 4 ∧ (t.cellAt k).threshold = blockNum blk 0x0C 4 ∧
        (t.cellAt k).owner = some s.wg.part ∧ (t.cellAt k).pasid = s.wg.pasid ∧ (t.cellAt k).tail = 0 ∧
        ∀ j, j ≠ k → t.cellAt j = s.cellAt j) ∧
      (let dev := (s.sarg a).toNat / 2 ^ 14
       let sc := if dev = s.devid then 4 else 5
       dev < 2304 → (s.sarg b).toNat % 65536 ≠ 0 →
       (dev = s.devid → (s.cellAt ((s.sarg a).toNat % 16384)).owner = some s.wg.part) →
       ∀ q, s.release sc = .ok q → ∃ t m, exec (.tcadd a b) s = .next t ∧ s.past t ∧
        t.msgs = q.msgs ++ [m] ∧ m.dst = dev ∧
        m.kind = .cellAdd ((s.sarg a).toNat % 16384) ((s.sarg b).toNat % 65536) ((s.sarg b).toNat / 65536)))

/-- The messages of invocations and cells as they arrive (15 R369, R372, R375 to R381, R383; 18 R443). That home tells the
device which executed a handle that its result is recorded is the model's reading (log entry 115, DEDUCED). -/
def Sys2Proof.Claims.RemoteEvents : Prop :=
  ∀ (s : State) (id : Nat) (m : Msg), s.msg id = some m →
    (m.kind = .invoke → m.dst = s.devid → s.earlierInvocation m = false →
      exec (.invocationArrival id) s = .next ((s.dropMsg id).acceptInvocation m) ∧
      ((s.dropMsg id).cellAdmits m = true → (s.cellAt m.cell).owner ≠ some m.tpart →
        exec (.invocationArrival id) s = .next ((s.dropMsg id).breakHandle m.handle 2))) ∧
    (m.kind = .dependent → m.dst = s.devid → s.earlierInvocation m = false →
      (s.known m.part m.dep = none → exec (.dependentMessageAtHome id) s = .next ((s.dropMsg id).breakHandle m.handle 9)) ∧
      (∀ k, s.known m.part m.dep = some k →
        ((s.slotAt k).state = 0 → (s.slotAt k).waitlist.length < 64 → ∃ t, exec (.dependentMessageAtHome id) s = .next t ∧
          t.slotAt k = { s.slotAt k with waitlist := (s.slotAt k).waitlist ++ [m] }) ∧
        ((s.slotAt k).state = 3 →
          exec (.dependentMessageAtHome id) s = .next ((s.dropMsg id).breakHandle m.handle 7)))) ∧
    (∀ dev part rslot k, m.kind = .bindReport dev part rslot → m.dst = s.devid → s.current m.handle = some k →
      (s.slotAt k).state = 0 → (s.slotAt k).waitlist = [] → ∃ t, exec (.bindReport id) s = .next t ∧
        t.slotAt k = { s.slotAt k with state := 1, dev := dev, epart := part, rslot := rslot, waitlist := [] }) ∧
    (∀ bytes k, m.kind = .result bytes → m.dst = s.devid → s.current m.handle = some k → (s.slotAt k).state = 1 →
      (s.slotAt k).dropped = false →
      ((s.slotAt k).dev = s.devid → ∃ t, exec (.resultPosted id) s = .next t ∧
        t.slotAt k = { s.slotAt k with state := 2, bytes := bytes } ∧ ∀ x ∈ t.held, x.dep ≠ m.handle) ∧
      ((s.slotAt k).dev ≠ s.devid → exec (.resultPosted id) s = .next
        (((s.dropMsg id).updSlot k (fun x => { x with state := 2, bytes := bytes })).send
          { Msg.blank with kind := .recorded, dst := (s.slotAt k).dev, handle := m.handle }))) ∧
    (∀ opid x, m.kind = .rget opid → m.dst = s.devid → m.src = s.devid → m.data = 0 → (s.gangAt m.gang).live = true → x = s.slotAt (hSlot m.handle) →
      s.handleStatus m.part m.handle = BitVec.ofNat 32 (1 + x.bytes * 2 ^ 16) → x.dev = s.devid →
      let bs := s.readHomeList ((s.partAt x.epart).pool.1 + 4096 * x.rslot) x.bytes
      ∃ t, exec (.rgetResultArrival id) s = .next t ∧
        ∀ r l, l < 32 → (t.gangAt m.gang).v r l = if m.reg ≤ r ∧ r < m.reg + ceilDiv bs.length 128 then
          BitVec.ofNat 32 (ofBytesLE ((bs.drop (128 * (r - m.reg) + 4 * l)).take 4)) else (s.gangAt m.gang).v r l) ∧
    (∀ k, m.kind = .invoke ∨ m.kind = .dependent ∨ m.kind = .forward → m.dst ≠ s.devid →
      s.current m.handle = some k → (s.slotAt k).accepted = false →
      exec (.invocationFabricTimeout id) s = .next ((s.dropMsg id).breakHandle m.handle 10)) ∧
    (∀ cell inc tag, m.kind = .cellAdd cell inc tag → m.dst = s.devid → (s.cellAt cell).owner.isSome = true →
      BitVec.ofNat 16 tag &&& (s.cellAt cell).tagm = (s.cellAt cell).tagv → (s.dropMsg id).cellAdmits m = true →
      exec (.tcaddArrival id) s = .next ((s.dropMsg id).raiseCell cell inc).closePackets) ∧
    (∀ cell inc tag, m.kind = .cellAdd cell inc tag → m.dst = s.devid →
      BitVec.ofNat 16 tag &&& (s.cellAt cell).tagm = (s.cellAt cell).tagv →
      (s.cellAt cell).owner = none ∨ (s.dropMsg id).cellAdmits m = false →
      exec (.tcaddArrival id) s = .next (((s.dropMsg id).cellAlarm m 4).cellDrop m).closePackets) ∧
    (∀ cell, (s.cellAt cell).pend ≠ 0 → (s.copyFire cell).2 = true → ∃ t, exec (.pendingFireCopy cell) s = .next t ∧
      (t.cellAt cell).pend = (s.cellAt cell).pend - 1)

/-- A raise below the threshold only counts (15 R381); one that reaches 2^32 stays at 2^32 - 1 and sets ovf while the
cell is not armed. -/
def Sys2Proof.Claims.CellCounts : Prop :=
  ∀ (s : State) (k n : Nat), let c := s.cellAt k
    (c.counter + n < c.threshold → c.threshold < 2 ^ 32 → (s.raiseCell k n).cellAt k = { c with counter := c.counter + n } ∧
      ∀ j, j ≠ k → (s.raiseCell k n).cellAt j = s.cellAt j) ∧
    (2 ^ 32 ≤ c.counter + n → bit c.flags.toNat 0 = false →
      ((s.raiseCell k n).cellAt k).counter = 2 ^ 32 - 1 ∧ bit ((s.raiseCell k n).cellAt k).flags.toNat 3 = true)

/-- Messages of invocations and cells, and the count of a cell. -/
def Obligations.RemoteProgress : Prop := Sys2Proof.Claims.RemoteEvents ∧ Sys2Proof.Claims.CellCounts

/-- The handler's view when a trap is taken (16 R389): the level rises, the slices that have not exited form one group at
the handler's PC with EXEC full and MODE at its reset value, FPF is 0, and s28 to s31 name the frame, the cause and the
trapping slices; every other register is as before. -/
def Sys2Proof.Machine.State.entered (s t : State) (r : TrapReq) (slices : Nat) : Prop :=
  let g := s.gang
  let h := t.gang
  let level := g.trap.level + 1
  let live := fun k => k < 8 ∧ g.exitedAt k = false
  h.trap.level = level ∧ h.regs.fpf = 0 ∧ h.regs.v = g.regs.v ∧ h.regs.p = g.regs.p ∧ h.flow.waiting = 0 ∧
  (∀ l, l < 32 → h.execBit l = !g.exitedAt (l / 4)) ∧
  (∀ k, live k → h.pc k = (g.hpc level).setWidth 56 ∧ h.grp k = g.firstLive ∧ h.mode k = modeReset ∧
    h.s k 28 = BitVec.ofNat 32 (g.frameAt level) ∧ h.s k 29 = BitVec.ofNat 32 (g.frameAt level / 2 ^ 32) ∧
    h.s k 30 = BitVec.ofNat 32 (r.cause + r.sub * 2 ^ 8 + level * 2 ^ 16) ∧ h.s k 31 = BitVec.ofNat 32 slices) ∧
  (∀ k i, k < 8 → i < 28 → h.s k i = g.s k i)

/-- The state in which a trap to `level` stores its frame: the gang has left its seat, and what it has issued on the frame's
lines has performed, or goes (16 R389; 08 R213). -/
abbrev Sys2Proof.Machine.State.atFrame (s : State) (level : Nat) : State :=
  (s.leaveSeat s.cur).settleLines ((s.leaveSeat s.cur).runTargets (s.gang.frameAt level) 1024 .write)

/-- Taking a trap (16 R389): with a handler for the next level and a frame that can be written, the gang enters the
handler after the 1,024 bytes of the frame, the record first, have been stored; nothing of the gang has changed before
that when no earlier access of it on the frame's lines is unperformed. With no handler, or from level 2, the workgroup ends
fatally with the record (R397). -/
def Sys2Proof.Claims.TrapEntry : Prop :=
  ∀ (s : State) (r : TrapReq), let g := s.gang
    let level := g.trap.level + 1
    let rec_ := fun l => recordBytes r l g.issuingMask g.pcNow.toNat s.ir.toNat
    let q := s.atFrame level
    (level ≤ 2 → g.hpc level ≠ 0 → ∀ u, q.gangStoreRun g.core g.wid s.wg.part s.wg.pasid 61
        (chunks 128 8 (q.gang.frameBytes (rec_ level))) (g.frameAt level) = .ok u →
      q.gang.trap = g.trap → q.gang.flow.exited = g.flow.exited →
      q.entered (s.takeTrap r) r g.issuingMask ∧ (s.takeTrap r).mem = u.mem ∧ (s.takeTrap r).cores = u.cores) ∧
    (s.gang.lateOn ((s.leaveSeat s.cur).runTargets (g.frameAt level) 1024 .write) = [] →
      q.gang = { g with late := q.gang.late }) ∧
    (level ≤ 2 → g.hpc level = 0 → s.takeTrap r = s.fatal (rec_ level) g.trap.level 0 1) ∧
    (level = 3 → s.takeTrap r = s.fatal (rec_ 2) g.trap.level 0 0)

/-- Fatal termination (16 R397, R398): every gang of the workgroup ends, its Gleaner commands and Thresher operations
go, and the record is kept for its launch. -/
def Sys2Proof.Claims.FatalTermination : Prop :=
  ∀ (s : State) (rec_ : List Byte) (level code reason : Nat), let t := s.fatal rec_ level code reason
    (∀ k ∈ s.gangsOf s.gang.wid, (t.gangAt k).live = false) ∧
    (t.wgAt s.gang.wid).fatal = some ((s.wgAt s.gang.wid).fatal.getD (fatalRecord rec_ s.gang s.wg.wgid level code reason)) ∧
    (∀ c ∈ (t.coreAt (coreOfWid s.gang.wid)).gleaner, c.wid ≠ s.gang.wid) ∧
    (∀ e ∈ (t.clusterAt (clusterOfCore (coreOfWid s.gang.wid))).table, e.wid ≠ s.gang.wid) ∧ t.mem = s.mem

/-- Taking a trap, and fatal termination. -/
def Obligations.TrapsAndTermination : Prop := Sys2Proof.Claims.TrapEntry ∧ Sys2Proof.Claims.FatalTermination

/-- The trap instructions (16 R393 to R396): trap raises cause 0x1C with its code; tvec sets a handler PC and the frame
base; tret and tret skip of a readable and legal frame restore the gang at the level below, tret skip past the word;
tdone of a handler ends the workgroup with reason 3 and, the model's reading, the record of its frame (log entry 55,
DEDUCED). -/
def Sys2Proof.Claims.TrapInstructions : Prop :=
  ∀ (s : State), let g := s.gang
    (∀ c : BitVec 16, exec (.trap c) s = .next (s.takeTrap { cause := 0x1C, aux := c.setWidth 32 })) ∧
    (∀ (l : BitVec 1) (a b : Code), s.issues (fixedOps [.sr 64 a, .sr 64 b]) = true → canonical (s.sarg64 a).toNat = true →
      (s.sarg64 a).toNat % 4 = 0 → addrOk (s.sarg64 b).toNat 2048 = true → ∃ t, exec (.tvec l a b) s = .next t ∧ s.past t ∧
        t.gang.regs = g.regs ∧ t.mem = s.mem ∧ t.gang.trap = { g.trap with
          hpc1 := if l = 0 then s.sarg64 a else g.trap.hpc1, hpc2 := if l = 0 then g.trap.hpc2 else s.sarg64 a
          frame := s.sarg64 b }) ∧
    (∀ (skip : Bool) u f, g.whole = true → 0 < g.trap.level → s.lateOnRun (g.frameAt g.trap.level) 1024 .read = [] →
      s.gangLoadRun g.core g.wid s.wg.part s.wg.pasid 61 (List.replicate 8 128) (g.frameAt g.trap.level) = .ok (u, f) →
      g.frameOk f = true → u.regangFar f = none → ((u.updGang (fun g => g.restoreFrom f skip)).rereadMasks).gang.regangDead = false →
      exec (if skip then .tretSkip else .tret) s = .next ((u.updGang (fun g => g.restoreFrom f skip)).rereadMasks)) ∧
    (∀ a : Code, s.issues (fixedOps [.sr 32 a]) = true → 0 < g.trap.level →
      let run := s.gangLoadRun g.core g.wid s.wg.part s.wg.pasid 61 [64] (g.frameAt g.trap.level)
      (∀ u f, run = .ok (u, f) → exec (.tdone a) s = .next (s.fatal f g.trap.level (s.sarg a).toNat 3)) ∧
      (∀ e, run = .error e → (∀ pa page va, e ≠ .away pa page va) →
        exec (.tdone a) s = .next (s.fatal [] g.trap.level (s.sarg a).toNat 3))) ∧
    (g.trap.level = 0 → (g.whole = true → ∀ i ∈ [Instr.tret, .tretSkip], exec i s = .next (s.takeTrap { cause := 0x1D })) ∧
      ∀ a : Code, s.issues (fixedOps [.sr 32 a]) = true → exec (.tdone a) s = .next (s.takeTrap { cause := 0x1D }))

/-- A frame restored (16 R390, R391, R395): each slice that has not exited takes the PC of its entry, past the word for the
slices of the record's mask under skip (the model's reading: log entry 55, DEDUCED), its group, EXEC and MODE; s28 to s31, v0 to v3 and FPF take the frame's values, and the level
falls by one. -/
def Sys2Proof.Claims.FrameRestored : Prop :=
  ∀ (g : Gang) (f : List Byte) (skip : Bool), let h := g.restoreFrom f skip
    h.trap.level = g.trap.level - 1 ∧ h.regs.fpf = BitVec.ofNat 5 (frameWord f 0x140) ∧
    (∀ k, k < 8 → g.exitedAt k = false →
      h.pc k = BitVec.ofNat 56 (frameSlice f k).1 + (if skip && bit (ofBytesLE ((f.drop 3).take 1)) k then 4 else 0) ∧
      h.grp k = (frameSlice f k).2.2.1 ∧ h.mode k = BitVec.ofNat 32 ((frameSlice f k).2.2.2 % 2 ^ 23) ∧
      (∀ i, i < 4 → h.s k (28 + i) = BitVec.ofNat 32 (frameWord f (0xC0 + 16 * k + 4 * i))) ∧
      ∀ i, i < 28 → h.s k i = g.s k i) ∧
    (∀ r l, l < 32 → h.v r l = if r < 4 then BitVec.ofNat 32 (frameWord f (0x180 + 128 * r + 4 * l)) else g.v r l) ∧
    h.regs.p = g.regs.p ∧ h.alloc = g.alloc

/-- The trap instructions, and the frame restored. -/
def Obligations.TrapReturns : Prop := Sys2Proof.Claims.TrapInstructions ∧ Sys2Proof.Claims.FrameRestored

/-- System registers and TLB maintenance (16 R404, R405, R407) and firmware calls (R408): a register outside the range of
privilege reads in any gang, the others only on a reeve core; a write of a register without behaviour of its own sets it;
elsewhere both take the privilege trap with the number in aux, the model's reading (log entry 55, DEDUCED). SYS_PART takes a
partition that is configured, and WG_PREEMPT posts to a resident workgroup. tlbip, tlbia and tlball drop what they cover and
wait for the completion; operands out of range trap; fwcall waits for the reply. -/
def Sys2Proof.Claims.SystemInstructions : Prop :=
  ∀ (s : State) (n a b : Code),
    (sysRegKnown n = true → s.issues (fixedOps [.sw (if sysRegWide n then 64 else 32) a]) = true →
      (n.toNat < 0x20 ∨ s.privileged = true → ∃ t, exec (.sysrd n a) s = .next t ∧ s.past t ∧ s.sameDevice t ∧
        t.gang.regs.v = s.gang.regs.v ∧ ∀ k, k < 8 → s.gang.issuing k = true → a ≠ 0xF0 →
          t.gang.s k a.toNat = (s.sysReg n.toNat).setWidth 32 ∧
          (sysRegWide n = true → t.gang.s k (a.toNat + 1) = (s.sysReg n.toNat >>> 32).setWidth 32)) ∧
      (0x20 ≤ n.toNat → s.privileged = false →
        exec (.sysrd n a) s = .next (s.takeTrap { cause := 0x03, aux := n.setWidth 32 }))) ∧
    (sysRegKnown n = true → s.issues (fixedOps [.sr (if sysRegWide n then 64 else 32) a]) = true →
      (s.privileged = false → exec (.syswr n a) s = .next (s.takeTrap { cause := 0x03, aux := n.setWidth 32 })) ∧
      (s.privileged = true → n.toNat ≠ 0x20 → n.toNat ≠ 0x2C → n.toNat ≠ 0x2E → n.toNat ≠ 0x30 → exec (.syswr n a) s =
        .next (s.setSysReg (dieOfCore s.gang.core) n.toNat (if sysRegWide n then s.sarg64 a else (s.sarg a).setWidth 64)).advance) ∧
      (s.privileged = true → n.toNat = 0x20 → (s.badSysPart (s.sarg a).toNat = true →
          exec (.syswr n a) s = .next (s.takeTrap { cause := 0x1D, sub := 2 })) ∧
        (s.badSysPart (s.sarg a).toNat = false → ∃ t, exec (.syswr n a) s = .next t ∧ s.past t ∧ t.sys.sysPart = s.sarg a)) ∧
      (s.privileged = true → n.toNat = 0x2C → (s.preemptTarget (s.sarg a).toNat = none →
          exec (.syswr n a) s = .next (s.takeTrap { cause := 0x1D, sub := 2 })) ∧
        ∀ wid, s.preemptTarget (s.sarg a).toNat = some wid → exec (.syswr n a) s = .next (s.advance.postPreempt wid))) ∧
    (s.privileged = true → s.gang.releaseReport 4 = none → s.gang.releaseWaits 4 = [] →
      let dropped := fun (c : Cover) => let r := (s.releaseActs s.gang.core 4).takeId
        (r.2.startInval s.cur r.1 c).stall (.invalidation r.1)
      exec .tlball s = .next (dropped { pasid := none, lo := 0, hi := 2 ^ 64 }) ∧
      (s.issues (fixedOps [.sr 32 a]) = true → (s.sarg a).toNat < 2 ^ 20 →
        exec (.tlbia a) s = .next (dropped { pasid := some (s.sarg a).toNat, lo := 0, hi := 2 ^ 64 })) ∧
      (s.issues (fixedOps [.sr 32 a, .sr 128 b]) = true → let q := fun i => (s.sword b s.gang.low i).toNat
        let va := q 0 + q 1 * 2 ^ 32
        let good := (s.sarg a).toNat < 2 ^ 20 ∧ va % 65536 = 0 ∧ canonical va = true ∧ 1 ≤ q 2 ∧ q 2 ≤ 2 ^ 24 ∧ q 3 = 0
        (good → exec (.tlbip a b) s =
          .next (dropped { pasid := some (s.sarg a).toNat, lo := va, hi := va + 65536 * q 2 })) ∧
        (¬ good → exec (.tlbip a b) s = .next (s.takeTrap { cause := 0x1D, sub := 2 })))) ∧
    (s.privileged = false → exec .tlball s = .next (s.takeTrap { cause := 0x03 }) ∧
      (s.issues (fixedOps [.sr 32 a]) = true → exec (.tlbia a) s = .next (s.takeTrap { cause := 0x03 })) ∧
      (s.issues (fixedOps [.sr 32 a, .sr 128 b]) = true → exec (.tlbip a b) s = .next (s.takeTrap { cause := 0x03 }))) ∧
    (s.issues (fixedOps [.sr 32 a, .sw 64 b]) = true → ∃ t, exec (.fwcall a b) s = .next t ∧
      mapFind s.gang.flow.served t.gang.flow.blocks = some (.firmware s.nextId) ∧ t.gang.regs = s.gang.regs ∧
      t.fwcalls = s.fwcalls ++ [{ gang := s.cur, id := s.nextId, code := s.sarg a, arg := s.sarg64 b, dest := b }])

/-- What an invalidation leaves (09 R235, R250; 07 R202): no entry that it covers stays in the TLB of any core or cluster, in
a walk cache, or in the cache of a master outside the cores. -/
def Sys2Proof.Claims.InvalidationCovers : Prop :=
  ∀ (s : State) (c : Cover), (∀ e ∈ (s.invalidate c).cores, ∀ t ∈ e.2.tlb, c.entry t = false) ∧
    (∀ e ∈ (s.invalidate c).clusters, (∀ t ∈ e.2.tlb, c.entry t.2 = false) ∧ ∀ t ∈ e.2.walkCache, c.table t = false) ∧
    (∀ e ∈ (s.invalidate c).ioTlb, ∀ t ∈ e.2, c.entry t = false)

/-- System registers, maintenance and firmware calls, and what an invalidation leaves. -/
def Obligations.SystemWords : Prop := Sys2Proof.Claims.SystemInstructions ∧ Sys2Proof.Claims.InvalidationCovers

/-- What the sprinter does ahead of retirement is unseen (04 R111 to R114): renaming a word, a squash and the dispatch of any
entry, a load too, leave every register of every gang and every workgroup as they are; the first two leave every byte of
memory too. -/
def Obligations.WindowUnseen : Prop :=
  ∀ (s : State) (run : State → Word → Res) (core lg group i key : Nat) (pc : PcVal),
    ((State.rename run s core lg group pc).gangs = s.gangs ∧ (State.rename run s core lg group pc).mem = s.mem) ∧
    ((s.squashAll key).gangs = s.gangs ∧ (s.squashAll key).mem = s.mem) ∧
    ∀ t, State.dispatchOldest run s core lg i = some t → t.gangs = s.gangs ∧ t.wgs = s.wgs ∧ t.cur = s.cur

/-- Events of gangs (02 R52; 03 R77, R79, R92, R93; 04 R101 to R114; 07 R186, R190, R198; 08 R219): merges, ends,
growth and its timeout, the sprinter seat and its window, completions in issue order, releases, watches and the reuse clocks.
Which free rows a seat's pool takes, the lowest, is the model's choice (log entry 98, DESIGN CHOICE). -/
def Obligations.GangEvents : Prop :=
  ∀ (s : State) (key core lg id : Nat), let g := s.gangAt key
    (∀ pc, g.mergesAt pc = true → ∃ t, exec (.regangMerge key pc) s = .next t ∧ (t.gangAt key).regs = g.regs ∧
      ∀ k, k ∈ g.waitersAt pc → (t.gangAt key).pc k = pc + 4 ∧ (t.gangAt key).grp k = (g.waitersAt pc).headD 0 ∧
        (t.gangAt key).flow.waiting.getLsbD k = false) ∧
    (g.live = true → g.flow.exited = 0xFF → g.out = [] → g.late = [] → ∃ t, exec (.gangEnd key) s = .next t ∧
      (t.gangAt key).live = false ∧ t.mem = s.mem) ∧
    (∀ d n since, s.grantable core lg = some key → g.regrowBlock = some (d, n, since) → ∃ t,
      exec (.regrowGrant core lg) s = .next t ∧ (t.gangAt key).alloc = g.alloc + n ∧
      (d ≠ 0xF0 → ∀ l, l < 32 → (t.gangAt key).p d.toNat l = true)) ∧
    (∀ d n since, g.regrowBlock = some (d, n, since) → g.trap.taken = false → ∃ t, exec (.regrowTimeout key) s = .next t ∧
      (t.gangAt key).alloc = g.alloc ∧ (d ≠ 0xF0 → ∀ l, l < 32 → (t.gangAt key).p d.toNat l = false)) ∧
    (let seat := s.seatAt core lg
     (seat.holder = none → s.bestCandidate core lg = some key → 16 ≤ s.freeRows core lg → s.requests core lg = [] → ∃ t,
        exec (.promotionEvaluation core lg) s = .next t ∧ t.gangs = s.gangs ∧ t.seatAt core lg =
          { Seat.empty with
            holder := some key, pool := (s.freeRowList core lg).take (min 64 (s.freeRows core lg / 8 * 8)) }) ∧
     (seat.holder = some key → seat.demoting = true → seat.window = [] →
        exec (.demotion core lg) s = .next (s.leaveSeat key))) ∧
    (∀ x e rest, s.seatOf key = some x → x.window = e :: rest →
      (g.leads e.group e.pc = true → exec (.branchMispredict key) s = .next s) ∧
      (g.leads e.group e.pc = false → ∃ t, exec (.branchMispredict key) s = .next t ∧ t.gangs = s.gangs ∧ t.mem = s.mem ∧
        (t.seatAt g.core g.lg).window = []) ∧
      (∀ early i u, e.loaded = some early → e.early = true → g.leads e.group e.pc = true → decode e.word = .ok i →
        loadRun i (s.atEntry key e) = some (.next u) → (s.atEntry key e).ranFrom u key e.group = true →
        ((s.atEntry key e).loadFound u key e i = early → exec (.earlyLoadReread key early) s =
          .next (((u.giveHead key i early).retireHead key).unfocus s)) ∧
        ((s.atEntry key e).loadFound u key e i ≠ early → ∃ t, exec (.earlyLoadReread key early) s = .next t ∧
          t.gangs = s.gangs ∧ (t.seatAt g.core g.lg).window = [] ∧ (t.seatAt g.core g.lg).restart = some e.pc))) ∧
    (∀ o rest, g.out = o :: rest → o.id = id → o.perf = true → o.done = false →
      (∀ x ∈ rest, x.id ≠ id ∧ x.done = false) → (∀ x ∈ g.late, x.id ≠ id) → ∃ t, exec (.memoryOperationComplete key id) s = .next t ∧
        (t.gangAt key).out = rest ∧ (t.gangAt key).regs = g.regs) ∧
    (∃ t, exec (.releaseComplete key id) s = .next t ∧ ((∀ x ∈ g.late, x.id ≠ id) → (t.gangAt key).regs = g.regs) ∧
      ∀ e ∈ (t.gangAt key).flow.blocks, ∀ ids, e.2 = .ops ids → ids.contains id = true →
        (t.gangAt key).waitsOn ids = true) ∧
    (∀ k, (k, Block.watch) ∈ g.flow.blocks → ∃ t, exec (.mwaitTimeout key) s = .next t ∧
      (t.gangAt key).watch.timedOut = true ∧ (t.gangAt key).regs = g.regs) ∧
    (∀ wid, 65536 ≤ (s.wgAt wid).mcount → ∃ t, exec (.reuseClockAdvance wid) s = .next t ∧ t.gangs = s.gangs ∧
      t.wgAt wid = { s.wgAt wid with rclock := (s.wgAt wid).rclock + 1, mcount := 0 }) ∧
    exec .gtAdvance s = .next { s with gt := s.gt + 1 }

/-- Events of translation, maintenance and pre-emption (09 R237 to R241, R244, R245, R250, R252; 16 R399 to R408; 10 R267):
each acts on what it names, and leaves the device as it was when it names nothing. That the host's reply leaves mirror writes
and PASIDs of direct delivery alone (log entry 46, DEDUCED), and that the caches write back before a save and the ways that a
restore takes back are written back before it (log entry 66, DEDUCED), are the model's readings. -/
def Obligations.SystemEvents : Prop :=
  ∀ (s : State),
    (∀ core pasid va acc u e, s.walkDone pasid va (accOf acc) = .ok (u, e) → exec (.pageWalk core pasid va acc) s =
      .next ((u.fillClusterTlb (clusterOfCore core) e).fillL1Tlb core e)) ∧
    (∀ core pasid va acc c, s.walkDone pasid va (accOf acc) = .error c → exec (.pageWalk core pasid va acc) s = .next s) ∧
    (∃ t, exec .heatSweep s = .next t ∧ t.sweep = s.sweep + 1 ∧ t.parts = s.parts) ∧
    (∀ key id v, s.invals.find? (fun v => decide (v.gang = key) && decide (v.id = id) && s.invalDone v) = some v →
      (s.gangAt key).flow.blocks = [((s.gangAt key).flow.served, .invalidation id)] →
      ∃ t, exec (.tlbInvalidationComplete key id) s = .next t ∧ v ∉ t.invals ∧
        (t.gangAt key).flow.blocks = [] ∧ (t.gangAt key).regs = (s.gangAt key).regs ∧
        ∀ k, (s.gangAt key).issuing k = true → k < 8 → (t.gangAt key).pc k = (s.gangAt key).pcNow + 4) ∧
    (∀ key c, s.fwcalls.find? (fun c => decide (c.gang = key)) = some c →
      (s.gangAt key).flow.blocks = [((s.gangAt key).flow.served, .firmware c.id)] →
      ∃ t, exec (.fwcallReply key) s = .next t ∧ c ∉ t.fwcalls ∧ (t.gangAt key).flow.blocks = [] ∧
        ∀ k, k < 8 → (s.gangAt key).issuing k = true → c.dest ≠ 0xF0 → c.dest.toNat + 1 < 32 →
          (t.gangAt key).s k (c.dest.toNat + 1) ++ (t.gangAt key).s k c.dest.toNat =
            (({ s with fwcalls := s.fwcalls.filter (fun x => decide (x.id ≠ c.id)) } : State).fwAnswer c).2) ∧
    (∀ die entry a, s.openEntry die entry = some a →
      exec (.tfqReplyRetry die entry) s = .next ((s.closeEntry die entry).retryAgent a) ∧
      (a.kind = 0 ∨ a.kind = 3 → exec (.tfqReplyDeliver die entry) s = .next ((s.closeEntry die entry).deliverAgent a)) ∧
      (∀ c, a.kind = 1 ∨ a.kind = 2 → exec (.tfqReplyFail die entry c) s = .next ((s.closeEntry die entry).failAgent a c)) ∧
      ((a.bytes.getD 1 0).toNat ≠ 3 → s.direct a = false →
        ofBytesLE ((a.bytes.drop 8).take 2) = s.pasidGen (ofBytesLE ((a.bytes.drop 4).take 4)) → exec (.pageRequestReply die entry true) s =
        .next ((s.closeEntry die entry).retryAgent a))) ∧
    (∀ die v, (s.dieAt die).waiting = [] → ∃ t, exec (.tfqHeadWrite die v) s = .next t ∧ (t.dieAt die).tfqHead = v ∧
      t.gangs = s.gangs) ∧
    (∀ v : Word, ∀ wid, s.preemptTarget v.toNat = some wid → (s.wgAt wid).posted = none →
      ∃ t, exec (.wgPreemptWrite v) s = .next t ∧ (t.wgAt wid).posted = some s.sys.ctxBase ∧
        ∀ k ∈ s.gangsOf wid, (t.gangAt k).trap.preempt = true) ∧
    (∀ wid, (s.wgAt wid).posted ≠ none → ∃ t, exec (.preemptGraceExpiry wid) s = .next t ∧
      ∀ k ∈ s.gangsOf wid, (s.gangAt k).trap.preempt = true → (t.gangAt k).trap.taken = true) ∧
    (∀ wid a, (s.wgAt wid).posted = some a → s.readyToSave wid = true →
      (let t := s.writeBackAll (coreOfWid wid)
       exec (.preemptionSave wid) s = .next (if t.flushing (coreOfWid wid) = [] then s.saveWorkgroup wid a else t))) ∧
    (∀ wid core v, s.saved.find? (fun v => decide (v.wid = wid)) = some v → s.restorable v core = true →
      let t := s.reclaim core (barnPlacement (s.barnUsed core) v.barn)
      exec (.workgroupRestore wid core) s = .next (if t.flushing core = [] then s.restoreWorkgroup v core else t)) ∧
    (∀ pasid t, s.teardowns.find? (fun t => decide (t.pasid = pasid)) = some t →
      (s.queueAt t.queue).packet 6 t.pkt = none → ∃ u, exec (.teardownComplete pasid) s = .next u ∧ t ∉ u.teardowns ∧
        u.msgs = s.msgs ∧ u.gangs = s.gangs ∧ ∀ b ∈ u.inbound, ¬(b.pasid = pasid ∧ b.gen = t.gen)) ∧
    (∀ part gid node, ((s.groupAt (groupKey part gid)).node node).full = true → ((s.groupAt (groupKey part gid)).node node).passed = false →
      16 ≤ node → node < 24 → 2 ≤ ngLevel (s.ngEntry part gid) → ∃ t, exec (.namedGroupNodeArrival part gid node) s = .next t ∧
        ((t.groupAt (groupKey part gid)).node node).passed = true ∧
        bit ((t.groupAt (groupKey part gid)).node 1).arrived (node - 16) = true) ∧
    (∀ part gid, s.groupDone part gid = true →
      ∃ t, exec (.namedGroupCompletion part gid) s = .next t ∧
        (t.groupAt (groupKey part gid)).gen = (s.groupAt (groupKey part gid)).gen + 1)

/-- The packet at the head of a queue starts when it may (17 R412, R415 to R418): it is taken, runs as packet `p` with the
fields `fs`, and leaves the state `u`, from which the meaning of its type goes on. -/
def Sys2Proof.Machine.State.starts (s : State) (k type : Nat) (p : Packet) (fs : List PField) (u : State) : Prop :=
  ∃ t fed b, s.head k = (t, .pkt fed b) ∧ s.mayStart (s.queueAt k) (pktHeader b) = true ∧ s.packetCause k b = 0 ∧
    pktHeader b % 256 = type ∧ p = s.packetOf k b ∧ fs = (scanFields b.length (b.drop 8)).1 ∧
    u = (t.takeHead k fed b).takeId.2.updQueue k (fun q => { q with running := q.running ++ [p] })

/-- The queue goes on after a packet has acted: bad heads go by (17 R415, R417). -/
abbrev Sys2Proof.Machine.State.onward (u : State) (k : Nat) : State := State.skipBad k (u.headFuel k) u

/-- Doorbells and packets (17 R412 to R421): a doorbell gives the write index; WAIT-AND, TRIGGER-ARM, COPY, SIGNAL and the
five PARTITION ops act as their rules say and complete, a removal and a teardown once what they end has ended; a PARTITION op
waits while the end that another has begun waits. A packet with effects under way completes when they have performed. The reeve
core that copies is that of the partition's lowest die, the model's choice (log entry 29, DEDUCED), and a SIGNAL's raise is
judged where its cell is (log entry 32, DEDUCED). -/
def Sys2Proof.Claims.QueueEvents : Prop :=
  ∀ (s u : State) (k : Nat) (p : Packet) (fs : List PField),
    ((s.queueAt k).up k = true → ∀ t w, s.readDoorbell k = (t, some w) → exec (.doorbellWrite k) s =
      .next ((t.updQueue k (fun q => { q with wr := w, stalled := false })).onward k)) ∧
    exec .queuePoll s = .next ((mgmtQueue :: s.queues.map (·.1)).eraseDups.foldl (fun s k => s.pollQueue k) s.retryWrites) ∧
    (s.starts k 2 p fs u → exec (.waitAndPacket k) s = .next ((u.pollWait k p).onward k)) ∧
    (∀ i, (s.queueAt k).packet 2 i = some p → exec (.waitAndPoll k i) s = .next ((s.pollWait k p).onward k) ∧
      (fieldNum (scanFields p.bytes.length (p.bytes.drop 8)).1 0x21 0 4 ≠ 0 →
        exec (.waitAndTimeout k i) s = .next ((s.endPacket k p 11 p.ref []).onward k))) ∧
    (s.starts k 3 p fs u → (u.cellAt (fieldNum fs 0x30 0 4)).armable p.part = true →
      exec (.triggerArmPacket k) s = .next (((u.armCell (fieldNum fs 0x30 0 4) ((getField fs 0x31).getD []) p.pasid
        p.part).endPacket k p 0 0 []).onward k)) ∧
    (s.starts k 4 p fs u → ∀ v n e,
      State.copyUnits { core := u.reeveCore (((u.partAt p.part).clusters.headD 0) / 15), part := p.part, pasid := p.pasid
                        op := p.id, idx := 0 }
        (.glob (fieldNum fs 0x40 0 8)) (.glob (fieldNum fs 0x41 0 8)) (fieldNum fs 0x42 0 4) (fieldNum fs 0x42 0 4 / 4 + 2) 0 u =
        (v, n, e) →
      (e = none → exec (.copyPacket k) s = .next ((v.closePacket k p 0 n).onward k)) ∧
      (∀ x, e = some x → exec (.copyPacket k) s = .next ((v.faulted s k p x n).onward k))) ∧
    (s.starts k 5 p fs u → ∀ v,
      (u.signalWrite p fs = (v, .ok ()) →
        (v.engBusy p.id = false → exec (.signalPacket k) s = .next (((v.signalRaise p fs).closePacket k p 0 0).onward k)) ∧
        (v.engBusy p.id = true → exec (.signalPacket k) s =
          .next (((v.closePacket k p 0 0).updPacket k p.id (fun r => { r with held := true })).onward k))) ∧
      (∀ x, u.signalWrite p fs = (v, .error x) → exec (.signalPacket k) s = .next ((v.faulted s k p x 0).onward k))) ∧
    (∀ (v : State) c n, v.engBusy p.id = false → v.closePacket k p c n = v.endPacket k p c n []) ∧
    (s.endings ≠ [] → ∀ i ∈ [Instr.partitionConfigure k, .partitionRemove k, .partitionQueueDescriptor k,
      .partitionTeardown k, .partitionFlush k], exec i s = .next s) ∧
    (∀ part, (s.partAt part).live = true → ((s.endRemoval part).partAt part).live = false) ∧
    (s.starts k 6 p fs u → s.endings = [] → let part := fieldNum fs 0x61 0 4
      (fieldNum fs 0x60 0 4 = 1 → u.configRefused part fs = true →
        exec (.partitionConfigure k) s = .next ((u.endPacket k p 9 0 []).onward k)) ∧
      (fieldNum fs 0x60 0 4 = 1 → u.configRefused part fs = false → exec (.partitionConfigure k) s =
        .next ((if (u.partAt part).live then u.askRemoval 1 part p.id
          else (u.configurePart part fs).endPacket k p 0 0 []).onward k)) ∧
      (fieldNum fs 0x60 0 4 = 2 → (u.partAt part).live = true →
        exec (.partitionRemove k) s = .next ((u.askRemoval 2 part p.id).onward k)) ∧
      (fieldNum fs 0x60 0 4 = 3 → (u.partAt part).live = true → let d := ((getField fs 0x66).getD []).drop 2
        let q := fieldNum fs 0x66 0 2
        q ≠ mgmtQueue → blockNum d 0x0A 1 = part → (u.queueAt q).desc = [] ∨ (u.queueAt q).part = part →
        exec (.partitionQueueDescriptor k) s = .next (((u.writeDescriptor q d).endPacket k p 0 0 []).onward k)) ∧
      (fieldNum fs 0x60 0 4 = 4 → (u.partAt part).live = true →
        exec (.partitionTeardown k) s = .next ((u.teardown (fieldNum fs 0x6A 0 4) p.id).onward k)) ∧
      (fieldNum fs 0x60 0 4 = 5 → (u.partAt part).live = true → exec (.partitionFlush k) s = .next (((u.updPart part
        (fun x => { x with codeTable := [], natives := x.natives.map (fun n => { n with cached := false }) })).endPacket
          k p 0 0 []).onward k)))

/-- Launches (17 R422 to R430; 02 R64): a record that the checks refuse completes with cause 5, one that passes enters;
a Plaquel launch whose address the code table names gets its native code; the dispatcher chooses, the choice is admitted,
heads age, and a workgroup without gangs retires. An admission waits for the write-backs of the ways that it takes back. What a
record with an illegal code address ends with, cause 5, is the model's reading (log entry 34, DEDUCED). -/
def Sys2Proof.Claims.LaunchEvents : Prop :=
  ∀ (s u v : State) (k die : Nat) (p : Packet) (fs : List PField) (rec_ : List Byte),
    (s.starts k 1 p fs u → ∀ e, u.readRun p.part 5 p.pasid (fieldNum fs 0x10 0 8) 256 = (v, .error e) →
      exec (.launchPacket k) s = .next ((v.faulted s k p e 0).onward k)) ∧
    (s.starts k 1 p fs u → u.readRun p.part 5 p.pasid (fieldNum fs 0x10 0 8) 256 = (v, .ok rec_) →
      let l : Launch := { id := v.nextId, queue := k, prio := (v.queueAt k).prio, pkt := p.id, part := p.part, pasid := p.pasid
                          record := rec_, addr := fieldNum fs 0x10 0 8, args := [], code := none, stride := 1, next := 0
                          retired := 0, fatal := none, doom := none, passes := 0, failedOnce := false, aged := false }
      let w := v.takeId.2
      (l.recordOk = false → exec (.launchPacket k) s = .next ((w.endPacket k p 5 0 []).onward k)) ∧
      (l.recordOk = true → bit l.flags 2 = false → l.groupRequests = [] → l.num 0x88 1 = 0 → w.neverFits l = false →
        exec (.launchPacket k) s = .next
          (((({ w with launches := w.launches ++ [{ l with code := if bit l.flags 0 then none else some (BitVec.ofNat 64 (l.num 0 8)) }] } : State)).updQueue
            k (fun q => { q with running := q.running.map (fun (x : Packet) => if x.id = p.id then { x with ref := l.id } else x) })).onward k))) ∧
    (∀ l e n, s.launches.find? (fun x => decide (x.id = l.id)) = some l → l.code = none → l.doom = none →
      (s.partAt l.part).codeTable.find? (fun x => decide (x.1 = l.num 0 8)) = some e → (s.partAt l.part).tabled e.2 = some n →
      exec (.plaquelTranslation l.id) s = .next ((s.updPart l.part (fun p => p.enterCode e.1 e.2)).giveCode l n)) ∧
    (∀ l cs, s.admission = none → s.newlyFailed die = [] →
      (s.updDie die (fun d => d.enter ((s.candidates die).map (fun c => c.1.part)).eraseDups)).choose die (s.candidates die) =
        some (l, cs) → ∃ t, exec (.dispatch die) s = .next t ∧ t.admission = some (l.id, cs, die)) ∧
    (∀ id cs l, s.admission = some (id, cs, die) → s.launches.find? (fun l => decide (l.id = id)) = some l →
      let u := s.dropAdmission id
      (s.launchFailed l = true ∨ s.stillFits l cs = false → exec (.workgroupAdmission id cs) s = .next u) ∧
      (s.launchFailed l = false → s.stillFits l cs = true →
        (s.reclaimBegun l cs = false → (s.beginReclaim l cs).reclaimPending cs = true →
          exec (.workgroupAdmission id cs) s = .next (s.beginReclaim l cs)) ∧
        (s.reclaimBegun l cs = true → s.reclaimPending cs = true → exec (.workgroupAdmission id cs) s = .next s) ∧
        (s.reclaimPending cs = false → s.reclaimBegun l cs = true ∨ (s.beginReclaim l cs).reclaimPending cs = false →
          exec (.workgroupAdmission id cs) s = .next ((((State.admitAll l cs 0 0 u).updLaunch id (fun k => { k with
            next := l.next + cs.length })).endReservation id).charge die l cs)))) ∧
    (∀ l, s.launches.find? (fun l => decide (l.queue = k) && s.isHead l && l.failedOnce && s.onDie l die) = some l →
      ∃ t, exec (.headAgeing die k) s = .next t ∧ ∀ x ∈ t.launches, x.id = l.id → x.aged = true) ∧
    (∀ wid, (s.wgAt wid).live = true → s.gangsOf wid = [] → s.lateLeft wid = false → let t := s.releaseActs (coreOfWid wid) 4
      exec (.workgroupRetirement wid) s =
        .next (if t.flushing (coreOfWid wid) = [] then (s.retireWg wid).finishLaunch (s.wgAt wid).launch else t))

/-- Doorbells, packets, launches and the dispatcher. -/
def Obligations.QueuesAndLaunches : Prop := Sys2Proof.Claims.QueueEvents ∧ Sys2Proof.Claims.LaunchEvents

/-- The fabric and the host (18 R432 to R448; 09 R253, R254; 16 R405): links, inbound accesses and their completions, BAR0,
the management window, policies, attestation and reset. The model's choices are: what the straps and training find comes with
DEVICE_RESET (log entry 1, DESIGN CHOICE), memory that is not listed reads 0 (log entry 10, DESIGN CHOICE), the codes of a
message's kinds and the places of its fields (log entry 25, DESIGN CHOICE), and what stands over a reset (log entry 78,
DEDUCED). -/
def Obligations.FabricEvents : Prop :=
  ∀ (s : State),
    (∀ die n x, n ≠ 0x20 → exec (.registerWrite false die n x) s = .next (s.setSysReg die n x)) ∧
    (∀ die off x, exec (.registerWrite true die off x) s = .next (s.windowWrite off (if windowWide off then 8 else 4) x)) ∧
    (∀ part, part < 8 → policyOk part (s.windowBytes (64 * part) 64) = true → ∃ t, exec (.policyCommit part) s = .next t ∧
      t.partAt part = { s.partAt part with policy := s.windowBytes (64 * part) 64, blocked := [] }) ∧
    (∀ fn addr size data, s.pcieUp = true → fn < 8 → addr < localLimit → addr + size ≤ localLimit →
      (fn = s.devid % 8 → s.admitsHost (s.channelOwner (channelOf addr)) 2 = true →
        s.admitsHost (s.channelOwner (channelOf (addr + size - 1))) 2 = true →
        exec (.hostBar0Access true (fn * 2 ^ 40 + addr) size data) s =
          .next { s.writeHomeNum addr size data with hostReply := some (0, 0) }) ∧
      (fn = s.devid % 8 → s.badLines = [] → s.admitsHost (s.channelOwner (channelOf addr)) 1 = true →
        s.admitsHost (s.channelOwner (channelOf (addr + size - 1))) 1 = true →
        exec (.hostBar0Access false (fn * 2 ^ 40 + addr) size data) s =
          .next { s with hostReply := some (0, s.readHome addr size) }) ∧
      (fn ≠ s.devid % 8 → ∀ write, ∃ t m, exec (.hostBar0Access write (fn * 2 ^ 40 + addr) size data) s = .next t ∧
        t.msgs = s.msgs ++ [m] ∧ m.dst = s.devid / 8 * 8 + fn ∧ m.kind = (if write then .write size else .read size) ∧ t.hostReply = none ∧
        t.mem = s.mem)) ∧
    (∀ write addr size data, s.pcieUp = false → exec (.hostBar0Access write addr size data) s = .next s) ∧
    (∀ nonce key, s.sigIndex < 2 ^ 20 → ∃ t, exec (.attestationRequest nonce key) s = .next t ∧ t.sigIndex = s.sigIndex + 1 ∧
      t.gangs = s.gangs ∧ t.mem = s.mem) ∧
    (∀ link far, link < 36 → exec (.linkRecalibration link (some far)) s = .next (s.linkUp link far) ∧
      ∃ t, exec (.linkRecalibration link none) s = .next t ∧ (t.linkAt link).up = false) ∧
    (∀ link, (s.linkAt link).draining = true → s.outstanding link = false → ∃ t, exec (.heldMessageRelease link) s = .next t ∧
      (t.linkAt link).draining = false ∧ (t.linkAt link).held = [] ∧ t.msgs.length = s.msgs.length) ∧
    (∀ link h p, link < 36 → (s.linkAt link).up = true →
      let u := s.updLink link (fun k => { k with replays := 0, seqIn := k.seqIn + 1 + (lumenHeader h).more })
      let l := lumenHeader h
      (u.headerOk l = true → l.kind < 3 ∨ l.kind = 17 ∨ l.kind = 23 →
        exec (.lumenMessageReceive link true h p) s = .next (u.takeAccess l p)) ∧
      (u.headerOk l = true → 3 ≤ l.kind → l.kind ≠ 6 → l.kind ≠ 17 → l.kind ≠ 23 →
        exec (.lumenMessageReceive link true h p) s = .next (if s.parts.any (fun e => e.2.blocked.contains (l.src, l.spart))
          then u.refuseBlocked (u.wireMsg l p) else u.takeMsg (u.wireMsg l p))) ∧
      exec (.lumenMessageReceive link false h p) s = .next (if (s.linkAt link).replays < 8 then
        s.updLink link (fun k => { k with replays := k.replays + 1 }) else s.linkDown link)) ∧
    (∀ src spart pasid kind addr size data, s.inbound = [] → let x : Inbound :=
        { id := 0, src := src, spart := spart, pasid := pasid, kind := kind, addr := addr, size := size, data := data, tag := 0
          host := false, gen := s.pasidGen pasid }
      (s.inboundCause false src spart kind addr size = none → exec (.inboundAccess src spart pasid kind addr size data) s =
        .next ((s.performInbound x).1.complete src 0 0 (s.performInbound x).2)) ∧
      (∀ c, s.inboundCause false src spart kind addr size = some c →
        exec (.inboundAccess src spart pasid kind addr size data) s = .next (s.poisonInbound x c))) ∧
    (∀ x : Inbound, s.inbound.find? (fun y => decide (y.id = x.id)) = some x → exec (.inboundTimeout x.id) s =
      .next (({ s with inbound := s.inbound.filter (fun y => decide (y.id ≠ x.id)) }).poisonInbound x 2)) ∧
    (∀ id m, s.msg id = some m → s.memRequest m = true → m.kind.isAccess = true →
      exec (.initiatorTimeout id) s = .next (s.completeMsg m 3 [])) ∧
    (∀ pins bridge, pins % 4096 < 2304 → ∃ t, exec (.deviceReset pins bridge) s = .next t ∧ t.devid = pins % 4096 ∧
      t.bridge = bridge ∧ t.pcieUp = bridge ∧ t.gangs = [] ∧ t.wgs = [] ∧ t.cores = [] ∧ t.clusters = [] ∧ t.parts = [] ∧
      t.mem = [] ∧ t.queues = State.reset.queues ∧ t.power = State.reset.power ∧ t.sys = State.reset.sys ∧
      t.sigIndex = s.sigIndex ∧ t.bootFailed = !s.bootAccepts ∧ ∀ l d, l < 36 → trainedFar pins l = some d → (t.linkAt l).up = true ∧ (t.linkAt l).far = some d)

/-- Power, clocks and background activity (19 R449 to R459; 07 R204). The model's readings are: a floor between two grid points
is the higher one (log entry 28, DEDUCED), when the throttle and the cap step (log entry 75, DEDUCED), that a refresh keeps its
row (log entry 76, DEDUCED), and what a mesh error names (log entry 77, DEDUCED). -/
def Obligations.PowerEvents : Prop :=
  ∀ (s : State), let p := s.power
    (∀ v : Word, let f := v.toNat % 65536
      let volt := v.toNat / 65536
      (pointOk f volt = false → ∃ t, exec (.dvfsReq v) s = .next t ∧ t.power = { p with deny := 1 }) ∧
      (pointOk f volt = true → floorOk f volt = false → ∃ t, exec (.dvfsReq v) s = .next t ∧ t.power = { p with deny := 2 }) ∧
      (pointOk f volt = true → floorOk f volt = true → p.throttled = true → exec (.dvfsReq v) s =
        .next { s with power := { p with reqFreq := f, reqVolt := volt, deny := 3 } }) ∧
      (pointOk f volt = true → floorOk f volt = true → p.throttled = false → p.busy = false → exec (.dvfsReq v) s =
        .next (({ s with power := { p with reqFreq := f, reqVolt := volt, deny := 0, capFreq := 2400 } }).startStep f volt)) ∧
      (pointOk f volt = true → floorOk f volt = true → p.throttled = false → p.busy = true → exec (.dvfsReq v) s =
        .next { s with power := { p with reqFreq := f, reqVolt := volt, deny := 0, waiting := some (f, volt) } })) ∧
    (p.clockStopped = true → p.phase = 3 → ∃ t, exec .clockSwitchEnd s = .next t ∧
      t.power = { p with freq := p.target.1, clockStopped := false, phase := 4 }) ∧
    (p.clockStopped = true → p.phase = 2 → p.waiting = none → ∃ t, exec .clockSwitchEnd s = .next t ∧
      t.power = { p with freq := p.target.1, clockStopped := false, phase := 0, busy := false }) ∧
    (p.phase = 1 → exec .voltageSlewEnd s =
      .next { s with power := { p with volt := p.target.2, phase := 2, clockStopped := true } }) ∧
    (p.phase = 4 → p.waiting = none → ∃ t, exec .voltageSlewEnd s = .next t ∧
      t.power = { p with volt := p.target.2, phase := 0, busy := false, clockStopped := false }) ∧
    (∀ die temp, 10500 ≤ temp → p.throttled = false → ∃ t, exec (.thermalThrottle die temp) s = .next t ∧
      t.power.throttled = true ∧ t.power.target = (1200, 650)) ∧
    (p.throttled = true → p.busy = false → p.reqFreq ≤ p.capFreq → ∃ t, exec .throttleEnd s = .next t ∧
      t.power.throttled = false ∧ t.power.target = (p.reqFreq, p.reqVolt)) ∧
    (∀ die temp, 11500 ≤ temp → ∃ t, exec (.thermalShutdown die temp) s = .next t ∧ t.power.shutdown = true) ∧
    (∀ w, p.throttled = false → p.busy = false → p.cap < w → 800 < p.freq → ∃ t, exec (.powerCapStep w) s = .next t ∧
      t.power.target = (p.freq - 100, vmin (p.freq - 100)) ∧ t.power.capFreq = p.freq - 100) ∧
    (∀ a b c, ∃ t, exec (.telemetrySample a b c) s = .next t ∧ t.power = p ∧ t.mem = s.mem ∧ t.gangs = s.gangs ∧
      t.windowCycles = 0 ∧ t.slots = [] ∧ ∀ i, i < 8 → mapGet 0 t.window (0x60000 + i) = byteAt s.clock.toNat i) ∧
    (∀ line, line * 128 < localLimit → ∃ t, exec (.patrolScrub line 2) s = .next t ∧ line ∈ t.badLines ∧ t.mem = s.mem) ∧
    (∀ row, exec (.rowActivationRefresh row) s = .next s) ∧
    (∀ die pasid ls, ∃ t, exec (.meshFlitError false die pasid ls) s = .next t ∧
      t.alarms = s.alarms ++ [(1, pasid, 0xFF)] ∧ t.mem = s.mem ∧
      ∀ l, ls.head? = some l → l * 128 < localLimit → l ∈ t.badLines) ∧
    (∀ die pasid cs q, agreed cs = some q → exec (.meshFlitError true die pasid cs) s = .next (s.askRemoval 2 q (2 ^ 64)))
end

