-- ==== Sys2Proof/Laws/Map.lean ====
section
/-! SUPPORT. Laws of sparse maps: read after write, and the canonical form is kept. -/

namespace Sys2Proof.Machine

theorem mapFind_put_same {α : Type} (k : Nat) (x : α) (m : SMap α) : mapFind k (mapPut k x m) = some x := by
  induction m with
  | nil => simp [mapPut, mapFind]
  | cons e m ih =>
    obtain ⟨i, y⟩ := e
    by_cases h1 : i < k
    · simp [mapPut, mapFind, h1, ih]
    · by_cases h2 : i = k <;> simp [mapPut, mapFind, h1, h2]

theorem mapFind_put_other {α : Type} {k j : Nat} (h : j ≠ k) (x : α) (m : SMap α) :
    mapFind j (mapPut k x m) = mapFind j m := by
  induction m with
  | nil =>
    by_cases h1 : k < j
    · simp [mapPut, mapFind, h1]
    · simp [mapPut, mapFind, h1, Ne.symm h]
  | cons e m ih =>
    obtain ⟨i, y⟩ := e
    by_cases h1 : i < k
    · simp [mapPut, mapFind, h1, ih]
    · by_cases h2 : i = k
      · subst h2
        by_cases h3 : i < j
        · simp [mapPut, mapFind, h3]
        · simp [mapPut, mapFind, h3, Ne.symm h]
      · by_cases h3 : k < j
        · simp [mapPut, mapFind, h1, h2, h3]
        · have h4 : ¬ i < j := by omega
          have h5 : i ≠ j := by omega
          simp [mapPut, mapFind, h1, h2, h3, Ne.symm h, h4, h5]

theorem mapFind_dropWhile_gt {α : Type} {k j : Nat} (h : k < j) (m : SMap α) :
    mapFind j (m.dropWhile (fun e => decide (e.1 ≤ k))) = mapFind j m := by
  induction m with
  | nil => rfl
  | cons e m ih =>
    obtain ⟨i, y⟩ := e
    by_cases h1 : i ≤ k
    · have h2 : i < j := by omega
      simp [List.dropWhile, h1, ih, mapFind, h2]
    · simp [List.dropWhile, h1]

theorem mapFind_dropWhile_le {α : Type} {k j : Nat} (h : j ≤ k) (m : SMap α) :
    mapFind j (m.dropWhile (fun e => decide (e.1 ≤ k))) = none := by
  induction m with
  | nil => rfl
  | cons e m ih =>
    obtain ⟨i, y⟩ := e
    by_cases h1 : i ≤ k
    · simp [List.dropWhile, h1, ih]
    · have h2 : ¬ i < j := by omega
      have h3 : i ≠ j := by omega
      simp [List.dropWhile, h1, mapFind, h2, h3]

theorem mapFind_drop_same {α : Type} (k : Nat) (m : SMap α) : mapFind k (mapDrop k m) = none := by
  induction m with
  | nil => rfl
  | cons e m ih =>
    obtain ⟨i, y⟩ := e
    by_cases h1 : i < k
    · simp [mapDrop, mapFind, h1, ih]
    · by_cases h2 : i = k
      · simp [mapDrop, h2, mapFind_dropWhile_le (Nat.le_refl k)]
      · simp [mapDrop, mapFind, h1, h2]

theorem mapFind_drop_other {α : Type} {k j : Nat} (h : j ≠ k) (m : SMap α) :
    mapFind j (mapDrop k m) = mapFind j m := by
  induction m with
  | nil => rfl
  | cons e m ih =>
    obtain ⟨i, y⟩ := e
    by_cases h1 : i < k
    · simp [mapDrop, mapFind, h1, ih]
    · by_cases h2 : i = k
      · subst h2
        by_cases h3 : i < j
        · simp [mapDrop, mapFind, h3, mapFind_dropWhile_gt h3]
        · simp [mapDrop, mapFind, h3, Ne.symm h, mapFind_dropWhile_le (show j ≤ i by omega)]
      · simp [mapDrop, h1, h2]

/-- Read after write at the same key. -/
@[simp] theorem mapGet_set_same {α : Type} [DecidableEq α] (d : α) (m : SMap α) (k : Nat) (x : α) :
    mapGet d (mapSet d m k x) k = x := by
  unfold mapGet mapSet
  split
  · simp [mapFind_drop_same, *]
  · simp [mapFind_put_same]

/-- A write leaves every other key alone. -/
theorem mapGet_set_other {α : Type} [DecidableEq α] (d : α) (m : SMap α) {k j : Nat} (h : j ≠ k) (x : α) :
    mapGet d (mapSet d m k x) j = mapGet d m j := by
  unfold mapGet mapSet
  split
  · rw [mapFind_drop_other h]
  · rw [mapFind_put_other h]

theorem mapGet_set {α : Type} [DecidableEq α] (d : α) (m : SMap α) (k j : Nat) (x : α) :
    mapGet d (mapSet d m k x) j = if j = k then x else mapGet d m j := by
  split
  · next h => subst h; exact mapGet_set_same d m j x
  · next h => exact mapGet_set_other d m h x

theorem mapRising_mono {α : Type} {a b : Nat} (h : a ≤ b) (m : SMap α) (hm : mapRising b m = true) :
    mapRising a m = true := by
  cases m with
  | nil => rfl
  | cons e m =>
    obtain ⟨i, y⟩ := e
    simp only [mapRising, Bool.and_eq_true, decide_eq_true_eq] at hm ⊢
    exact ⟨by omega, hm.2⟩

theorem mapRising_put {α : Type} (k : Nat) (x : α) (m : SMap α) :
    ∀ lo, lo ≤ k → mapRising lo m = true → mapRising lo (mapPut k x m) = true := by
  induction m with
  | nil => intro lo h _; simp [mapPut, mapRising, h]
  | cons e m ih =>
    intro lo h hm
    obtain ⟨i, y⟩ := e
    simp only [mapRising, Bool.and_eq_true, decide_eq_true_eq] at hm
    by_cases h1 : i < k
    · simp [mapPut, h1, mapRising, hm.1, ih (i + 1) (by omega) hm.2]
    · by_cases h2 : i = k
      · subst h2; simp [mapPut, mapRising, hm]
      · have : k + 1 ≤ i := by omega
        simp [mapPut, h1, h2, mapRising, h, hm.2, this]

theorem mapRising_dropWhile {α : Type} (p : Nat × α → Bool) (m : SMap α) :
    ∀ lo, mapRising lo m = true → mapRising lo (m.dropWhile p) = true := by
  induction m with
  | nil => intro lo h; exact h
  | cons e m ih =>
    intro lo h
    obtain ⟨i, y⟩ := e
    have h' := h
    simp only [mapRising, Bool.and_eq_true, decide_eq_true_eq] at h
    simp only [List.dropWhile]
    split
    · exact mapRising_mono (by omega) _ (ih (i + 1) h.2)
    · exact h'

theorem mapRising_drop {α : Type} (k : Nat) (m : SMap α) :
    ∀ lo, mapRising lo m = true → mapRising lo (mapDrop k m) = true := by
  induction m with
  | nil => intro lo h; exact h
  | cons e m ih =>
    intro lo hm
    obtain ⟨i, y⟩ := e
    have h' := hm
    simp only [mapRising, Bool.and_eq_true, decide_eq_true_eq] at hm
    by_cases h1 : i < k
    · simp [mapDrop, h1, mapRising, hm.1, ih (i + 1) hm.2]
    · by_cases h2 : i = k
      · simp only [mapDrop, h2]
        simp only [Nat.lt_irrefl, if_false, if_true]
        exact mapRising_mono (by omega) _ (mapRising_dropWhile _ m (i + 1) hm.2)
      · simpa [mapDrop, h1, h2] using h'

theorem mapPut_all {α : Type} (p : Nat × α → Bool) (k : Nat) (x : α) (m : SMap α) (h : m.all p = true)
    (hx : p (k, x) = true) : (mapPut k x m).all p = true := by
  induction m with
  | nil => simp [mapPut, hx]
  | cons e m ih =>
    obtain ⟨i, y⟩ := e
    simp only [List.all_cons, Bool.and_eq_true] at h
    by_cases h1 : i < k
    · simp only [mapPut, h1, if_true, List.all_cons, Bool.and_eq_true]; exact ⟨h.1, ih h.2⟩
    · by_cases h2 : i = k
      · subst h2; simp only [mapPut, Nat.lt_irrefl, if_false, if_true, List.all_cons, hx, h.2, Bool.and_self]
      · simp only [mapPut, h1, h2, if_false, List.all_cons, hx, h.1, h.2, Bool.and_self]

theorem dropWhile_all {α : Type} (p q : Nat × α → Bool) (m : SMap α) (h : m.all p = true) :
    (m.dropWhile q).all p = true := by
  induction m with
  | nil => rfl
  | cons e m ih =>
    simp only [List.dropWhile]
    split
    · simp only [List.all_cons, Bool.and_eq_true] at h; exact ih h.2
    · exact h

theorem mapDrop_all {α : Type} (p : Nat × α → Bool) (k : Nat) (m : SMap α) (h : m.all p = true) :
    (mapDrop k m).all p = true := by
  induction m with
  | nil => rfl
  | cons e m ih =>
    obtain ⟨i, y⟩ := e
    have h' := h
    simp only [List.all_cons, Bool.and_eq_true] at h
    by_cases h1 : i < k
    · simp only [mapDrop, h1, if_true, List.all_cons, Bool.and_eq_true]; exact ⟨h.1, ih h.2⟩
    · by_cases h2 : i = k
      · simp only [mapDrop, h2, Nat.lt_irrefl, if_false, if_true]; exact dropWhile_all p _ m h.2
      · simpa only [mapDrop, h1, h2, if_false] using h'

/-- Setting a value keeps the canonical form. -/
theorem mapWf_set {α : Type} [DecidableEq α] (d : α) (m : SMap α) (k : Nat) (x : α) (h : mapWf d m = true) :
    mapWf d (mapSet d m k x) = true := by
  simp only [mapWf, Bool.and_eq_true] at h ⊢
  unfold mapSet
  split
  · exact ⟨mapRising_drop k m 0 h.1, mapDrop_all _ k m h.2⟩
  · next hx => exact ⟨mapRising_put k x m 0 (by omega) h.1, mapPut_all _ k x m h.2 (by simpa using hx)⟩

/-- Setting a run of values keeps the canonical form. -/
theorem mapWf_setRange {α : Type} [DecidableEq α] (d : α) (f : Nat → α) (k n : Nat) (m : SMap α)
    (h : mapWf d m = true) : mapWf d (mapSetRange d f k n m) = true := by
  induction n with
  | zero => exact h
  | succ n ih => exact mapWf_set d _ _ _ ih

/-- What a run of writes leaves at each key. -/
theorem mapGet_setRange {α : Type} [DecidableEq α] (d : α) (f : Nat → α) (k n : Nat) (m : SMap α) (j : Nat) :
    mapGet d (mapSetRange d f k n m) j = if k ≤ j ∧ j < k + n then f (j - k) else mapGet d m j := by
  induction n with
  | zero =>
    have h : ¬ (k ≤ j ∧ j < k + 0) := by omega
    rw [if_neg h]; rfl
  | succ n ih =>
    rw [mapSetRange, mapGet_set, ih]
    by_cases h : j = k + n
    · subst h
      have h1 : k ≤ k + n ∧ k + n < k + (n + 1) := by omega
      have h2 : k + n - k = n := by omega
      rw [if_pos rfl, if_pos h1, h2]
    · by_cases h2 : k ≤ j ∧ j < k + n
      · have h3 : k ≤ j ∧ j < k + (n + 1) := by omega
        rw [if_neg h, if_pos h2, if_pos h3]
      · have h3 : ¬ (k ≤ j ∧ j < k + (n + 1)) := by omega
        rw [if_neg h, if_neg h2, if_neg h3]

/-- A dropped range reads as nothing, and every other key as before. -/
theorem mapFind_dropRange {α : Type} (lo n j : Nat) (m : SMap α) :
    mapFind j (mapDropRange lo n m) = if lo ≤ j ∧ j < lo + n then none else mapFind j m := by
  have tail : ∀ m : SMap α, mapFind j (m.dropWhile (fun e => decide (e.1 < lo + n))) =
      if j < lo + n then none else mapFind j m := by
    intro m
    induction m with
    | nil => simp [mapFind]
    | cons e m ih =>
      obtain ⟨i, y⟩ := e
      by_cases h : i < lo + n
      · simp only [List.dropWhile, h, decide_true, ih]
        by_cases hj : j < lo + n
        · simp [hj]
        · simp [hj, mapFind, show i < j by omega]
      · simp only [List.dropWhile, h, decide_false]
        by_cases hj : j < lo + n
        · simp [mapFind, hj, show ¬ i < j by omega, show i ≠ j by omega]
        · simp [hj]
  induction m with
  | nil => simp [mapDropRange, mapFind]
  | cons e m ih =>
    obtain ⟨i, y⟩ := e
    by_cases h : i < lo
    · have h' : mapDropRange lo n ((i, y) :: m) = (i, y) :: mapDropRange lo n m := by simp [mapDropRange, h]
      rw [h']
      simp only [mapFind, ih]
      by_cases hj : lo ≤ j ∧ j < lo + n
      · simp [hj, show i < j by omega]
      · simp [hj]
    · have h' : mapDropRange lo n ((i, y) :: m) = ((i, y) :: m).dropWhile (fun e => decide (e.1 < lo + n)) := by
        simp [mapDropRange, h]
      rw [h', tail]
      by_cases hj : j < lo + n
      · by_cases hl : lo ≤ j
        · simp [hj, hl]
        · simp [hj, hl, mapFind, show ¬ i < j by omega, show i ≠ j by omega]
      · simp [hj]

end Sys2Proof.Machine
end

