-- ==== Sys2Proof/Laws/PerInstr.lean ====
section
/-! SUPPORT. Families of statements made instruction by instruction: RoundTrip, decoding an encoded well-formed
instruction gives it back (02 R36 to R46). -/

namespace Sys2Proof.Laws

set_option linter.unusedSimpArgs false

theorem fld_low {n m lo k : Nat} (x : BitVec n) (y : BitVec m) (h : lo + k ≤ m) :
    (x ++ y).extractLsb' lo k = y.extractLsb' lo k := BitVec.extractLsb'_append_eq_of_add_le h

theorem fld_high {n m lo k : Nat} (x : BitVec n) (y : BitVec m) (h : m ≤ lo) :
    (x ++ y).extractLsb' lo k = x.extractLsb' (lo - m) k := BitVec.extractLsb'_append_eq_of_le h

/-- Masks are applied part by part. -/
theorem and0 {n m : Nat} {x u : BitVec n} {y v : BitVec m} {z : BitVec (n + m)} (hz : z = u ++ v) (hx : x &&& u = 0)
    (hy : y &&& v = 0) : (x ++ y) &&& z = 0 := by
  rw [hz, BitVec.and_append, hx, hy]; simp

/-- A well-formed instruction that has a word is what its word decodes to; an event of the device has none. -/
def RoundTrip.Statement (i : Instr) : Prop := ∀ w, encode i = some w → WellFormed i = true → decode w = .ok i

/-- The layout alone suffices: a well-formed instruction passes the operand checks. -/
theorem ofParse {i : Instr} {w : Word} (he : encode i = some w) (hp : parse w = .ok i) : RoundTrip.Statement i := by
  intro w' h hw
  obtain rfl : w = w' := Option.some.inj (he.symm.trans h)
  have hi : illegality i = none := Option.isNone_iff_eq_none.mp hw
  simp only [decode, hp, hi]

/-- An event of the device has no word. -/
theorem ofEvent {i : Instr} (he : encode i = none) : RoundTrip.Statement i := fun _ h => by
  rw [he] at h; exact absurd h (by simp)

theorem RoundTrip.br (p : BitVec 5) (s : BitVec 1) (k : BitVec 2) (o : BitVec 16) :
    RoundTrip.Statement (.br p s k o) := by
  have h1 : fld (0x1#8 ++ p ++ s ++ k ++ o) 28 4 = 0x0#4 := by simp (disch := decide) only [fld_high, Nat.reduceSub]; rfl
  have h2 : fld (0x1#8 ++ p ++ s ++ k ++ o) 24 4 = 0x1#4 := by simp (disch := decide) only [fld_high, Nat.reduceSub]; rfl
  have h3 : (0x1#8 ++ p ++ s ++ k ++ o) &&& 0x0#32 = 0 := BitVec.and_zero
  refine ofParse rfl ?_
  simp (disch := decide) only [parse, h1, h2, BitVec.reduceToNat, parseRow0, reservedZero, h3, reduceIte, fld_high, fld_low, Nat.reduceSub, BitVec.extractLsb'_eq_self]

theorem RoundTrip.brx (a : Code) :
    RoundTrip.Statement (.brx a) := by
  have h1 : fld (0x2#8 ++ 0x0#8 ++ a ++ 0x0#8) 28 4 = 0x0#4 := by simp (disch := decide) only [fld_high, Nat.reduceSub]; rfl
  have h2 : fld (0x2#8 ++ 0x0#8 ++ a ++ 0x0#8) 24 4 = 0x2#4 := by simp (disch := decide) only [fld_high, Nat.reduceSub]; rfl
  have h3 : (0x2#8 ++ 0x0#8 ++ a ++ 0x0#8) &&& 0xff00ff#32 = 0 := (and0 (u := 0xFF00#24) (v := 0xFF#8) rfl (and0 (u := 0xFF#16) (v := 0x0#8) rfl (and0 (u := 0x0#8) (v := 0xFF#8) rfl rfl BitVec.zero_and) BitVec.and_zero) BitVec.zero_and)
  refine ofParse rfl ?_
  simp (disch := decide) only [parse, h1, h2, BitVec.reduceToNat, parseRow0, reservedZero, h3, reduceIte, fld_high, fld_low, Nat.reduceSub, BitVec.extractLsb'_eq_self]

theorem RoundTrip.call (i : BitVec 24) :
    RoundTrip.Statement (.call i) := by
  have h1 : fld (0x3#8 ++ i) 28 4 = 0x0#4 := by simp (disch := decide) only [fld_high, Nat.reduceSub]; rfl
  have h2 : fld (0x3#8 ++ i) 24 4 = 0x3#4 := by simp (disch := decide) only [fld_high, Nat.reduceSub]; rfl
  have h3 : (0x3#8 ++ i) &&& 0x0#32 = 0 := BitVec.and_zero
  refine ofParse rfl ?_
  simp (disch := decide) only [parse, h1, h2, BitVec.reduceToNat, parseRow0, reservedZero, h3, reduceIte, fld_high, fld_low, Nat.reduceSub, BitVec.extractLsb'_eq_self]

theorem RoundTrip.callx (a : Code) :
    RoundTrip.Statement (.callx a) := by
  have h1 : fld (0x4#8 ++ 0x0#8 ++ a ++ 0x0#8) 28 4 = 0x0#4 := by simp (disch := decide) only [fld_high, Nat.reduceSub]; rfl
  have h2 : fld (0x4#8 ++ 0x0#8 ++ a ++ 0x0#8) 24 4 = 0x4#4 := by simp (disch := decide) only [fld_high, Nat.reduceSub]; rfl
  have h3 : (0x4#8 ++ 0x0#8 ++ a ++ 0x0#8) &&& 0xff00ff#32 = 0 := (and0 (u := 0xFF00#24) (v := 0xFF#8) rfl (and0 (u := 0xFF#16) (v := 0x0#8) rfl (and0 (u := 0x0#8) (v := 0xFF#8) rfl rfl BitVec.zero_and) BitVec.and_zero) BitVec.zero_and)
  refine ofParse rfl ?_
  simp (disch := decide) only [parse, h1, h2, BitVec.reduceToNat, parseRow0, reservedZero, h3, reduceIte, fld_high, fld_low, Nat.reduceSub, BitVec.extractLsb'_eq_self]

theorem RoundTrip.ret : RoundTrip.Statement .ret := ofParse rfl rfl

theorem RoundTrip.regang (m : Code) :
    RoundTrip.Statement (.regang m) := by
  have h1 : fld (0x6#8 ++ 0x0#8 ++ m ++ 0x0#8) 28 4 = 0x0#4 := by simp (disch := decide) only [fld_high, Nat.reduceSub]; rfl
  have h2 : fld (0x6#8 ++ 0x0#8 ++ m ++ 0x0#8) 24 4 = 0x6#4 := by simp (disch := decide) only [fld_high, Nat.reduceSub]; rfl
  have h4 : fld (0x6#8 ++ 0x0#8 ++ m ++ 0x0#8) 16 8 = 0x0#8 := by
    simp (disch := decide) only [fld_high, fld_low, BitVec.extractLsb'_eq_self, Nat.reduceSub]
  have h3 : (0x6#8 ++ 0x0#8 ++ m ++ 0x0#8) &&& 0xff#32 = 0 := (and0 (u := 0x0#24) (v := 0xFF#8) rfl (and0 (u := 0x0#16) (v := 0x0#8) rfl (and0 (u := 0x0#8) (v := 0x0#8) rfl rfl BitVec.and_zero) BitVec.and_zero) BitVec.zero_and)
  refine ofParse rfl ?_
  simp (disch := decide) only [parse, h1, h2, BitVec.reduceToNat, parseRow0, reservedZero, h4, h3, reduceIte, BitVec.reduceEq, fld_high, fld_low, Nat.reduceSub, BitVec.extractLsb'_eq_self]

theorem RoundTrip.exit : RoundTrip.Statement .exit := ofParse rfl rfl

theorem RoundTrip.nop : RoundTrip.Statement .nop := ofParse rfl rfl

theorem RoundTrip.yield : RoundTrip.Statement .yield := ofParse rfl rfl

theorem RoundTrip.promo : RoundTrip.Statement .promo := ofParse rfl rfl

theorem RoundTrip.promoDemote : RoundTrip.Statement .promoDemote := ofParse rfl rfl

theorem RoundTrip.pand (d : Code) (a : Code) (b : Code) :
    RoundTrip.Statement (.pand d a b) := by
  have h1 : fld (0x10#8 ++ d ++ a ++ b) 28 4 = 0x1#4 := by simp (disch := decide) only [fld_high, Nat.reduceSub]; rfl
  have h2 : fld (0x10#8 ++ d ++ a ++ b) 24 4 = 0x0#4 := by simp (disch := decide) only [fld_high, Nat.reduceSub]; rfl
  have h3 : (0x10#8 ++ d ++ a ++ b) &&& 0x0#32 = 0 := BitVec.and_zero
  refine ofParse rfl ?_
  simp (disch := decide) only [parse, h1, h2, BitVec.reduceToNat, parseRow1, reservedZero, h3, reduceIte, fld_high, fld_low, Nat.reduceSub, BitVec.extractLsb'_eq_self]

theorem RoundTrip.por (d : Code) (a : Code) (b : Code) :
    RoundTrip.Statement (.por d a b) := by
  have h1 : fld (0x11#8 ++ d ++ a ++ b) 28 4 = 0x1#4 := by simp (disch := decide) only [fld_high, Nat.reduceSub]; rfl
  have h2 : fld (0x11#8 ++ d ++ a ++ b) 24 4 = 0x1#4 := by simp (disch := decide) only [fld_high, Nat.reduceSub]; rfl
  have h3 : (0x11#8 ++ d ++ a ++ b) &&& 0x0#32 = 0 := BitVec.and_zero
  refine ofParse rfl ?_
  simp (disch := decide) only [parse, h1, h2, BitVec.reduceToNat, parseRow1, reservedZero, h3, reduceIte, fld_high, fld_low, Nat.reduceSub, BitVec.extractLsb'_eq_self]

theorem RoundTrip.pxor (d : Code) (a : Code) (b : Code) :
    RoundTrip.Statement (.pxor d a b) := by
  have h1 : fld (0x12#8 ++ d ++ a ++ b) 28 4 = 0x1#4 := by simp (disch := decide) only [fld_high, Nat.reduceSub]; rfl
  have h2 : fld (0x12#8 ++ d ++ a ++ b) 24 4 = 0x2#4 := by simp (disch := decide) only [fld_high, Nat.reduceSub]; rfl
  have h3 : (0x12#8 ++ d ++ a ++ b) &&& 0x0#32 = 0 := BitVec.and_zero
  refine ofParse rfl ?_
  simp (disch := decide) only [parse, h1, h2, BitVec.reduceToNat, parseRow1, reservedZero, h3, reduceIte, fld_high, fld_low, Nat.reduceSub, BitVec.extractLsb'_eq_self]

theorem RoundTrip.pnot (d : Code) (a : Code) :
    RoundTrip.Statement (.pnot d a) := by
  have h1 : fld (0x13#8 ++ d ++ a ++ 0x0#8) 28 4 = 0x1#4 := by simp (disch := decide) only [fld_high, Nat.reduceSub]; rfl
  have h2 : fld (0x13#8 ++ d ++ a ++ 0x0#8) 24 4 = 0x3#4 := by simp (disch := decide) only [fld_high, Nat.reduceSub]; rfl
  have h3 : (0x13#8 ++ d ++ a ++ 0x0#8) &&& 0xff#32 = 0 := (and0 (u := 0x0#24) (v := 0xFF#8) rfl (and0 (u := 0x0#16) (v := 0x0#8) rfl (and0 (u := 0x0#8) (v := 0x0#8) rfl rfl BitVec.and_zero) BitVec.and_zero) BitVec.zero_and)
  refine ofParse rfl ?_
  simp (disch := decide) only [parse, h1, h2, BitVec.reduceToNat, parseRow1, reservedZero, h3, reduceIte, fld_high, fld_low, Nat.reduceSub, BitVec.extractLsb'_eq_self]

theorem RoundTrip.exsave (d : Code) :
    RoundTrip.Statement (.exsave d) := by
  have h1 : fld (0x14#8 ++ d ++ 0x0#16) 28 4 = 0x1#4 := by simp (disch := decide) only [fld_high, Nat.reduceSub]; rfl
  have h2 : fld (0x14#8 ++ d ++ 0x0#16) 24 4 = 0x4#4 := by simp (disch := decide) only [fld_high, Nat.reduceSub]; rfl
  have h3 : (0x14#8 ++ d ++ 0x0#16) &&& 0xffff#32 = 0 := (and0 (u := 0x0#16) (v := 0xFFFF#16) rfl (and0 (u := 0x0#8) (v := 0x0#8) rfl rfl BitVec.and_zero) BitVec.zero_and)
  refine ofParse rfl ?_
  simp (disch := decide) only [parse, h1, h2, BitVec.reduceToNat, parseRow1, reservedZero, h3, reduceIte, fld_high, fld_low, Nat.reduceSub, BitVec.extractLsb'_eq_self]

theorem RoundTrip.exand (d : Code) (a : Code) (b : BitVec 1) :
    RoundTrip.Statement (.exand d a b) := by
  have h1 : fld (0x15#8 ++ d ++ a ++ 0x0#7 ++ b) 28 4 = 0x1#4 := by simp (disch := decide) only [fld_high, Nat.reduceSub]; rfl
  have h2 : fld (0x15#8 ++ d ++ a ++ 0x0#7 ++ b) 24 4 = 0x5#4 := by simp (disch := decide) only [fld_high, Nat.reduceSub]; rfl
  have h3 : (0x15#8 ++ d ++ a ++ 0x0#7 ++ b) &&& 0xfe#32 = 0 := (and0 (u := 0x7F#31) (v := 0x0#1) rfl (and0 (u := 0x0#24) (v := 0x7F#7) rfl (and0 (u := 0x0#16) (v := 0x0#8) rfl (and0 (u := 0x0#8) (v := 0x0#8) rfl rfl BitVec.and_zero) BitVec.and_zero) BitVec.zero_and) BitVec.and_zero)
  refine ofParse rfl ?_
  simp (disch := decide) only [parse, h1, h2, BitVec.reduceToNat, parseRow1, reservedZero, h3, reduceIte, fld_high, fld_low, Nat.reduceSub, BitVec.extractLsb'_eq_self]

theorem RoundTrip.exload (a : Code) :
    RoundTrip.Statement (.exload a) := by
  have h1 : fld (0x16#8 ++ 0x0#8 ++ a ++ 0x0#8) 28 4 = 0x1#4 := by simp (disch := decide) only [fld_high, Nat.reduceSub]; rfl
  have h2 : fld (0x16#8 ++ 0x0#8 ++ a ++ 0x0#8) 24 4 = 0x6#4 := by simp (disch := decide) only [fld_high, Nat.reduceSub]; rfl
  have h3 : (0x16#8 ++ 0x0#8 ++ a ++ 0x0#8) &&& 0xff00ff#32 = 0 := (and0 (u := 0xFF00#24) (v := 0xFF#8) rfl (and0 (u := 0xFF#16) (v := 0x0#8) rfl (and0 (u := 0x0#8) (v := 0xFF#8) rfl rfl BitVec.zero_and) BitVec.and_zero) BitVec.zero_and)
  refine ofParse rfl ?_
  simp (disch := decide) only [parse, h1, h2, BitVec.reduceToNat, parseRow1, reservedZero, h3, reduceIte, fld_high, fld_low, Nat.reduceSub, BitVec.extractLsb'_eq_self]

theorem RoundTrip.ballot (d : Code) (a : Code) :
    RoundTrip.Statement (.ballot d a) := by
  have h1 : fld (0x17#8 ++ d ++ a ++ 0x0#8) 28 4 = 0x1#4 := by simp (disch := decide) only [fld_high, Nat.reduceSub]; rfl
  have h2 : fld (0x17#8 ++ d ++ a ++ 0x0#8) 24 4 = 0x7#4 := by simp (disch := decide) only [fld_high, Nat.reduceSub]; rfl
  have h3 : (0x17#8 ++ d ++ a ++ 0x0#8) &&& 0xff#32 = 0 := (and0 (u := 0x0#24) (v := 0xFF#8) rfl (and0 (u := 0x0#16) (v := 0x0#8) rfl (and0 (u := 0x0#8) (v := 0x0#8) rfl rfl BitVec.and_zero) BitVec.and_zero) BitVec.zero_and)
  refine ofParse rfl ?_
  simp (disch := decide) only [parse, h1, h2, BitVec.reduceToNat, parseRow1, reservedZero, h3, reduceIte, fld_high, fld_low, Nat.reduceSub, BitVec.extractLsb'_eq_self]

theorem RoundTrip.vote (d : Code) (a : Code) (b : BitVec 2) :
    RoundTrip.Statement (.vote d a b) := by
  have h1 : fld (0x18#8 ++ d ++ a ++ 0x0#6 ++ b) 28 4 = 0x1#4 := by simp (disch := decide) only [fld_high, Nat.reduceSub]; rfl
  have h2 : fld (0x18#8 ++ d ++ a ++ 0x0#6 ++ b) 24 4 = 0x8#4 := by simp (disch := decide) only [fld_high, Nat.reduceSub]; rfl
  have h3 : (0x18#8 ++ d ++ a ++ 0x0#6 ++ b) &&& 0xfc#32 = 0 := (and0 (u := 0x3F#30) (v := 0x0#2) rfl (and0 (u := 0x0#24) (v := 0x3F#6) rfl (and0 (u := 0x0#16) (v := 0x0#8) rfl (and0 (u := 0x0#8) (v := 0x0#8) rfl rfl BitVec.and_zero) BitVec.and_zero) BitVec.zero_and) BitVec.and_zero)
  refine ofParse rfl ?_
  simp (disch := decide) only [parse, h1, h2, BitVec.reduceToNat, parseRow1, reservedZero, h3, reduceIte, fld_high, fld_low, Nat.reduceSub, BitVec.extractLsb'_eq_self]

theorem RoundTrip.popc (d : Code) (a : Code) :
    RoundTrip.Statement (.popc d a) := by
  have h1 : fld (0x19#8 ++ d ++ a ++ 0x0#8) 28 4 = 0x1#4 := by simp (disch := decide) only [fld_high, Nat.reduceSub]; rfl
  have h2 : fld (0x19#8 ++ d ++ a ++ 0x0#8) 24 4 = 0x9#4 := by simp (disch := decide) only [fld_high, Nat.reduceSub]; rfl
  have h3 : (0x19#8 ++ d ++ a ++ 0x0#8) &&& 0xff#32 = 0 := (and0 (u := 0x0#24) (v := 0xFF#8) rfl (and0 (u := 0x0#16) (v := 0x0#8) rfl (and0 (u := 0x0#8) (v := 0x0#8) rfl rfl BitVec.and_zero) BitVec.and_zero) BitVec.zero_and)
  refine ofParse rfl ?_
  simp (disch := decide) only [parse, h1, h2, BitVec.reduceToNat, parseRow1, reservedZero, h3, reduceIte, fld_high, fld_low, Nat.reduceSub, BitVec.extractLsb'_eq_self]

theorem RoundTrip.mpfx (d : Code) (a : Code) :
    RoundTrip.Statement (.mpfx d a) := by
  have h1 : fld (0x1A#8 ++ d ++ a ++ 0x0#8) 28 4 = 0x1#4 := by simp (disch := decide) only [fld_high, Nat.reduceSub]; rfl
  have h2 : fld (0x1A#8 ++ d ++ a ++ 0x0#8) 24 4 = 0xA#4 := by simp (disch := decide) only [fld_high, Nat.reduceSub]; rfl
  have h3 : (0x1A#8 ++ d ++ a ++ 0x0#8) &&& 0xff#32 = 0 := (and0 (u := 0x0#24) (v := 0xFF#8) rfl (and0 (u := 0x0#16) (v := 0x0#8) rfl (and0 (u := 0x0#8) (v := 0x0#8) rfl rfl BitVec.and_zero) BitVec.and_zero) BitVec.zero_and)
  refine ofParse rfl ?_
  simp (disch := decide) only [parse, h1, h2, BitVec.reduceToNat, parseRow1, reservedZero, h3, reduceIte, fld_high, fld_low, Nat.reduceSub, BitVec.extractLsb'_eq_self]

theorem RoundTrip.shfl (d : Code) (a : Code) (b : Code) :
    RoundTrip.Statement (.shfl d a b) := by
  have h1 : fld (0x1B#8 ++ d ++ a ++ b) 28 4 = 0x1#4 := by simp (disch := decide) only [fld_high, Nat.reduceSub]; rfl
  have h2 : fld (0x1B#8 ++ d ++ a ++ b) 24 4 = 0xB#4 := by simp (disch := decide) only [fld_high, Nat.reduceSub]; rfl
  have h3 : (0x1B#8 ++ d ++ a ++ b) &&& 0x0#32 = 0 := BitVec.and_zero
  refine ofParse rfl ?_
  simp (disch := decide) only [parse, h1, h2, BitVec.reduceToNat, parseRow1, reservedZero, h3, reduceIte, fld_high, fld_low, Nat.reduceSub, BitVec.extractLsb'_eq_self]

theorem RoundTrip.shfli (d : Code) (m : BitVec 2) (c : BitVec 5) :
    RoundTrip.Statement (.shfli d m c) := by
  have h1 : fld (0x1C#8 ++ d ++ m ++ 0x0#9 ++ c) 28 4 = 0x1#4 := by simp (disch := decide) only [fld_high, Nat.reduceSub]; rfl
  have h2 : fld (0x1C#8 ++ d ++ m ++ 0x0#9 ++ c) 24 4 = 0xC#4 := by simp (disch := decide) only [fld_high, Nat.reduceSub]; rfl
  have h3 : (0x1C#8 ++ d ++ m ++ 0x0#9 ++ c) &&& 0x3fe0#32 = 0 := (and0 (u := 0x1FF#27) (v := 0x0#5) rfl (and0 (u := 0x0#18) (v := 0x1FF#9) rfl (and0 (u := 0x0#16) (v := 0x0#2) rfl (and0 (u := 0x0#8) (v := 0x0#8) rfl rfl BitVec.and_zero) BitVec.and_zero) BitVec.zero_and) BitVec.and_zero)
  refine ofParse rfl ?_
  simp (disch := decide) only [parse, h1, h2, BitVec.reduceToNat, parseRow1, reservedZero, h3, reduceIte, fld_high, fld_low, Nat.reduceSub, BitVec.extractLsb'_eq_self]

theorem RoundTrip.gred (d : Code) (a : Code) (b : BitVec 3) :
    RoundTrip.Statement (.gred d a b) := by
  have h1 : fld (0x1D#8 ++ d ++ a ++ 0x0#5 ++ b) 28 4 = 0x1#4 := by simp (disch := decide) only [fld_high, Nat.reduceSub]; rfl
  have h2 : fld (0x1D#8 ++ d ++ a ++ 0x0#5 ++ b) 24 4 = 0xD#4 := by simp (disch := decide) only [fld_high, Nat.reduceSub]; rfl
  have h3 : (0x1D#8 ++ d ++ a ++ 0x0#5 ++ b) &&& 0xf8#32 = 0 := (and0 (u := 0x1F#29) (v := 0x0#3) rfl (and0 (u := 0x0#24) (v := 0x1F#5) rfl (and0 (u := 0x0#16) (v := 0x0#8) rfl (and0 (u := 0x0#8) (v := 0x0#8) rfl rfl BitVec.and_zero) BitVec.and_zero) BitVec.zero_and) BitVec.and_zero)
  refine ofParse rfl ?_
  simp (disch := decide) only [parse, h1, h2, BitVec.reduceToNat, parseRow1, reservedZero, h3, reduceIte, fld_high, fld_low, Nat.reduceSub, BitVec.extractLsb'_eq_self]

theorem RoundTrip.psets (d : Code) (a : Code) :
    RoundTrip.Statement (.psets d a) := by
  have h1 : fld (0x1E#8 ++ d ++ a ++ 0x0#8) 28 4 = 0x1#4 := by simp (disch := decide) only [fld_high, Nat.reduceSub]; rfl
  have h2 : fld (0x1E#8 ++ d ++ a ++ 0x0#8) 24 4 = 0xE#4 := by simp (disch := decide) only [fld_high, Nat.reduceSub]; rfl
  have h3 : (0x1E#8 ++ d ++ a ++ 0x0#8) &&& 0xff#32 = 0 := (and0 (u := 0x0#24) (v := 0xFF#8) rfl (and0 (u := 0x0#16) (v := 0x0#8) rfl (and0 (u := 0x0#8) (v := 0x0#8) rfl rfl BitVec.and_zero) BitVec.and_zero) BitVec.zero_and)
  refine ofParse rfl ?_
  simp (disch := decide) only [parse, h1, h2, BitVec.reduceToNat, parseRow1, reservedZero, h3, reduceIte, fld_high, fld_low, Nat.reduceSub, BitVec.extractLsb'_eq_self]

theorem RoundTrip.mset (s : BitVec 3) (i : BitVec 16) :
    RoundTrip.Statement (.mset s i) := by
  have h1 : fld (0x20#8 ++ 0x0#5 ++ s ++ i) 28 4 = 0x2#4 := by simp (disch := decide) only [fld_high, Nat.reduceSub]; rfl
  have h2 : fld (0x20#8 ++ 0x0#5 ++ s ++ i) 24 4 = 0x0#4 := by simp (disch := decide) only [fld_high, Nat.reduceSub]; rfl
  have h3 : (0x20#8 ++ 0x0#5 ++ s ++ i) &&& 0xf80000#32 = 0 := (and0 (u := 0xF8#16) (v := 0x0#16) rfl (and0 (u := 0x1F#13) (v := 0x0#3) rfl (and0 (u := 0x0#8) (v := 0x1F#5) rfl rfl BitVec.zero_and) BitVec.and_zero) BitVec.and_zero)
  refine ofParse rfl ?_
  simp (disch := decide) only [parse, h1, h2, BitVec.reduceToNat, parseRow2, reservedZero, h3, reduceIte, fld_high, fld_low, Nat.reduceSub, BitVec.extractLsb'_eq_self]

theorem RoundTrip.msetg (i : BitVec 23) :
    RoundTrip.Statement (.msetg i) := by
  have h1 : fld (0x21#8 ++ 0x0#1 ++ i) 28 4 = 0x2#4 := by simp (disch := decide) only [fld_high, Nat.reduceSub]; rfl
  have h2 : fld (0x21#8 ++ 0x0#1 ++ i) 24 4 = 0x1#4 := by simp (disch := decide) only [fld_high, Nat.reduceSub]; rfl
  have h3 : (0x21#8 ++ 0x0#1 ++ i) &&& 0x800000#32 = 0 := (and0 (u := 0x1#9) (v := 0x0#23) rfl (and0 (u := 0x0#8) (v := 0x1#1) rfl rfl BitVec.zero_and) BitVec.and_zero)
  refine ofParse rfl ?_
  simp (disch := decide) only [parse, h1, h2, BitVec.reduceToNat, parseRow2, reservedZero, h3, reduceIte, fld_high, fld_low, Nat.reduceSub, BitVec.extractLsb'_eq_self]

theorem RoundTrip.mget (d : Code) :
    RoundTrip.Statement (.mget d) := by
  have h1 : fld (0x22#8 ++ d ++ 0x0#16) 28 4 = 0x2#4 := by simp (disch := decide) only [fld_high, Nat.reduceSub]; rfl
  have h2 : fld (0x22#8 ++ d ++ 0x0#16) 24 4 = 0x2#4 := by simp (disch := decide) only [fld_high, Nat.reduceSub]; rfl
  have h3 : (0x22#8 ++ d ++ 0x0#16) &&& 0xffff#32 = 0 := (and0 (u := 0x0#16) (v := 0xFFFF#16) rfl (and0 (u := 0x0#8) (v := 0x0#8) rfl rfl BitVec.and_zero) BitVec.zero_and)
  refine ofParse rfl ?_
  simp (disch := decide) only [parse, h1, h2, BitVec.reduceToNat, parseRow2, reservedZero, h3, reduceIte, fld_high, fld_low, Nat.reduceSub, BitVec.extractLsb'_eq_self]

theorem RoundTrip.msetr (a : Code) :
    RoundTrip.Statement (.msetr a) := by
  have h1 : fld (0x23#8 ++ 0x0#8 ++ a ++ 0x0#8) 28 4 = 0x2#4 := by simp (disch := decide) only [fld_high, Nat.reduceSub]; rfl
  have h2 : fld (0x23#8 ++ 0x0#8 ++ a ++ 0x0#8) 24 4 = 0x3#4 := by simp (disch := decide) only [fld_high, Nat.reduceSub]; rfl
  have h3 : (0x23#8 ++ 0x0#8 ++ a ++ 0x0#8) &&& 0xff00ff#32 = 0 := (and0 (u := 0xFF00#24) (v := 0xFF#8) rfl (and0 (u := 0xFF#16) (v := 0x0#8) rfl (and0 (u := 0x0#8) (v := 0xFF#8) rfl rfl BitVec.zero_and) BitVec.and_zero) BitVec.zero_and)
  refine ofParse rfl ?_
  simp (disch := decide) only [parse, h1, h2, BitVec.reduceToNat, parseRow2, reservedZero, h3, reduceIte, fld_high, fld_low, Nat.reduceSub, BitVec.extractLsb'_eq_self]

theorem RoundTrip.wait (l : BitVec 6) (s : BitVec 6) (c : BitVec 6) (t : BitVec 6) :
    RoundTrip.Statement (.wait l s c t) := by
  have h1 : fld (0x24#8 ++ l ++ s ++ c ++ t) 28 4 = 0x2#4 := by simp (disch := decide) only [fld_high, Nat.reduceSub]; rfl
  have h2 : fld (0x24#8 ++ l ++ s ++ c ++ t) 24 4 = 0x4#4 := by simp (disch := decide) only [fld_high, Nat.reduceSub]; rfl
  have h3 : (0x24#8 ++ l ++ s ++ c ++ t) &&& 0x0#32 = 0 := BitVec.and_zero
  refine ofParse rfl ?_
  simp (disch := decide) only [parse, h1, h2, BitVec.reduceToNat, parseRow2, reservedZero, h3, reduceIte, fld_high, fld_low, Nat.reduceSub, BitVec.extractLsb'_eq_self]

theorem RoundTrip.waitr (a : BitVec 3) (b : Code) :
    RoundTrip.Statement (.waitr a b) := by
  have h1 : fld (0x25#8 ++ 0x0#13 ++ a ++ b) 28 4 = 0x2#4 := by simp (disch := decide) only [fld_high, Nat.reduceSub]; rfl
  have h2 : fld (0x25#8 ++ 0x0#13 ++ a ++ b) 24 4 = 0x5#4 := by simp (disch := decide) only [fld_high, Nat.reduceSub]; rfl
  have h3 : (0x25#8 ++ 0x0#13 ++ a ++ b) &&& 0xfff800#32 = 0 := (and0 (u := 0xFFF8#24) (v := 0x0#8) rfl (and0 (u := 0x1FFF#21) (v := 0x0#3) rfl (and0 (u := 0x0#8) (v := 0x1FFF#13) rfl rfl BitVec.zero_and) BitVec.and_zero) BitVec.and_zero)
  refine ofParse rfl ?_
  simp (disch := decide) only [parse, h1, h2, BitVec.reduceToNat, parseRow2, reservedZero, h3, reduceIte, fld_high, fld_low, Nat.reduceSub, BitVec.extractLsb'_eq_self]

theorem RoundTrip.regrow (d : Code) (i : BitVec 16) :
    RoundTrip.Statement (.regrow d i) := by
  have h1 : fld (0x26#8 ++ d ++ i) 28 4 = 0x2#4 := by simp (disch := decide) only [fld_high, Nat.reduceSub]; rfl
  have h2 : fld (0x26#8 ++ d ++ i) 24 4 = 0x6#4 := by simp (disch := decide) only [fld_high, Nat.reduceSub]; rfl
  have h3 : (0x26#8 ++ d ++ i) &&& 0x0#32 = 0 := BitVec.and_zero
  refine ofParse rfl ?_
  simp (disch := decide) only [parse, h1, h2, BitVec.reduceToNat, parseRow2, reservedZero, h3, reduceIte, fld_high, fld_low, Nat.reduceSub, BitVec.extractLsb'_eq_self]

theorem RoundTrip.regshr (i : BitVec 16) :
    RoundTrip.Statement (.regshr i) := by
  have h1 : fld (0x27#8 ++ 0x0#8 ++ i) 28 4 = 0x2#4 := by simp (disch := decide) only [fld_high, Nat.reduceSub]; rfl
  have h2 : fld (0x27#8 ++ 0x0#8 ++ i) 24 4 = 0x7#4 := by simp (disch := decide) only [fld_high, Nat.reduceSub]; rfl
  have h3 : (0x27#8 ++ 0x0#8 ++ i) &&& 0xff0000#32 = 0 := (and0 (u := 0xFF#16) (v := 0x0#16) rfl (and0 (u := 0x0#8) (v := 0xFF#8) rfl rfl BitVec.zero_and) BitVec.and_zero)
  refine ofParse rfl ?_
  simp (disch := decide) only [parse, h1, h2, BitVec.reduceToNat, parseRow2, reservedZero, h3, reduceIte, fld_high, fld_low, Nat.reduceSub, BitVec.extractLsb'_eq_self]

theorem RoundTrip.flget (d : Code) :
    RoundTrip.Statement (.flget d) := by
  have h1 : fld (0x28#8 ++ d ++ 0x0#16) 28 4 = 0x2#4 := by simp (disch := decide) only [fld_high, Nat.reduceSub]; rfl
  have h2 : fld (0x28#8 ++ d ++ 0x0#16) 24 4 = 0x8#4 := by simp (disch := decide) only [fld_high, Nat.reduceSub]; rfl
  have h3 : (0x28#8 ++ d ++ 0x0#16) &&& 0xffff#32 = 0 := (and0 (u := 0x0#16) (v := 0xFFFF#16) rfl (and0 (u := 0x0#8) (v := 0x0#8) rfl rfl BitVec.and_zero) BitVec.zero_and)
  refine ofParse rfl ?_
  simp (disch := decide) only [parse, h1, h2, BitVec.reduceToNat, parseRow2, reservedZero, h3, reduceIte, fld_high, fld_low, Nat.reduceSub, BitVec.extractLsb'_eq_self]

theorem RoundTrip.flclr (m : BitVec 5) :
    RoundTrip.Statement (.flclr m) := by
  have h1 : fld (0x29#8 ++ 0x0#19 ++ m) 28 4 = 0x2#4 := by simp (disch := decide) only [fld_high, Nat.reduceSub]; rfl
  have h2 : fld (0x29#8 ++ 0x0#19 ++ m) 24 4 = 0x9#4 := by simp (disch := decide) only [fld_high, Nat.reduceSub]; rfl
  have h3 : (0x29#8 ++ 0x0#19 ++ m) &&& 0xffffe0#32 = 0 := (and0 (u := 0x7FFFF#27) (v := 0x0#5) rfl (and0 (u := 0x0#8) (v := 0x7FFFF#19) rfl rfl BitVec.zero_and) BitVec.and_zero)
  refine ofParse rfl ?_
  simp (disch := decide) only [parse, h1, h2, BitVec.reduceToNat, parseRow2, reservedZero, h3, reduceIte, fld_high, fld_low, Nat.reduceSub, BitVec.extractLsb'_eq_self]

theorem RoundTrip.sadd (d : Code) (a : Code) (b : Code) :
    RoundTrip.Statement (.sadd d a b) := by
  have h1 : fld (0x30#8 ++ d ++ a ++ b) 28 4 = 0x3#4 := by simp (disch := decide) only [fld_high, Nat.reduceSub]; rfl
  have h2 : fld (0x30#8 ++ d ++ a ++ b) 24 4 = 0x0#4 := by simp (disch := decide) only [fld_high, Nat.reduceSub]; rfl
  have h3 : (0x30#8 ++ d ++ a ++ b) &&& 0x0#32 = 0 := BitVec.and_zero
  refine ofParse rfl ?_
  simp (disch := decide) only [parse, h1, h2, BitVec.reduceToNat, parseRow3, reservedZero, h3, reduceIte, fld_high, fld_low, Nat.reduceSub, BitVec.extractLsb'_eq_self]

theorem RoundTrip.ssub (d : Code) (a : Code) (b : Code) :
    RoundTrip.Statement (.ssub d a b) := by
  have h1 : fld (0x31#8 ++ d ++ a ++ b) 28 4 = 0x3#4 := by simp (disch := decide) only [fld_high, Nat.reduceSub]; rfl
  have h2 : fld (0x31#8 ++ d ++ a ++ b) 24 4 = 0x1#4 := by simp (disch := decide) only [fld_high, Nat.reduceSub]; rfl
  have h3 : (0x31#8 ++ d ++ a ++ b) &&& 0x0#32 = 0 := BitVec.and_zero
  refine ofParse rfl ?_
  simp (disch := decide) only [parse, h1, h2, BitVec.reduceToNat, parseRow3, reservedZero, h3, reduceIte, fld_high, fld_low, Nat.reduceSub, BitVec.extractLsb'_eq_self]

theorem RoundTrip.smul (d : Code) (a : Code) (b : Code) :
    RoundTrip.Statement (.smul d a b) := by
  have h1 : fld (0x32#8 ++ d ++ a ++ b) 28 4 = 0x3#4 := by simp (disch := decide) only [fld_high, Nat.reduceSub]; rfl
  have h2 : fld (0x32#8 ++ d ++ a ++ b) 24 4 = 0x2#4 := by simp (disch := decide) only [fld_high, Nat.reduceSub]; rfl
  have h3 : (0x32#8 ++ d ++ a ++ b) &&& 0x0#32 = 0 := BitVec.and_zero
  refine ofParse rfl ?_
  simp (disch := decide) only [parse, h1, h2, BitVec.reduceToNat, parseRow3, reservedZero, h3, reduceIte, fld_high, fld_low, Nat.reduceSub, BitVec.extractLsb'_eq_self]

theorem RoundTrip.sand (d : Code) (a : Code) (b : Code) :
    RoundTrip.Statement (.sand d a b) := by
  have h1 : fld (0x33#8 ++ d ++ a ++ b) 28 4 = 0x3#4 := by simp (disch := decide) only [fld_high, Nat.reduceSub]; rfl
  have h2 : fld (0x33#8 ++ d ++ a ++ b) 24 4 = 0x3#4 := by simp (disch := decide) only [fld_high, Nat.reduceSub]; rfl
  have h3 : (0x33#8 ++ d ++ a ++ b) &&& 0x0#32 = 0 := BitVec.and_zero
  refine ofParse rfl ?_
  simp (disch := decide) only [parse, h1, h2, BitVec.reduceToNat, parseRow3, reservedZero, h3, reduceIte, fld_high, fld_low, Nat.reduceSub, BitVec.extractLsb'_eq_self]

theorem RoundTrip.sor (d : Code) (a : Code) (b : Code) :
    RoundTrip.Statement (.sor d a b) := by
  have h1 : fld (0x34#8 ++ d ++ a ++ b) 28 4 = 0x3#4 := by simp (disch := decide) only [fld_high, Nat.reduceSub]; rfl
  have h2 : fld (0x34#8 ++ d ++ a ++ b) 24 4 = 0x4#4 := by simp (disch := decide) only [fld_high, Nat.reduceSub]; rfl
  have h3 : (0x34#8 ++ d ++ a ++ b) &&& 0x0#32 = 0 := BitVec.and_zero
  refine ofParse rfl ?_
  simp (disch := decide) only [parse, h1, h2, BitVec.reduceToNat, parseRow3, reservedZero, h3, reduceIte, fld_high, fld_low, Nat.reduceSub, BitVec.extractLsb'_eq_self]

theorem RoundTrip.sxor (d : Code) (a : Code) (b : Code) :
    RoundTrip.Statement (.sxor d a b) := by
  have h1 : fld (0x35#8 ++ d ++ a ++ b) 28 4 = 0x3#4 := by simp (disch := decide) only [fld_high, Nat.reduceSub]; rfl
  have h2 : fld (0x35#8 ++ d ++ a ++ b) 24 4 = 0x5#4 := by simp (disch := decide) only [fld_high, Nat.reduceSub]; rfl
  have h3 : (0x35#8 ++ d ++ a ++ b) &&& 0x0#32 = 0 := BitVec.and_zero
  refine ofParse rfl ?_
  simp (disch := decide) only [parse, h1, h2, BitVec.reduceToNat, parseRow3, reservedZero, h3, reduceIte, fld_high, fld_low, Nat.reduceSub, BitVec.extractLsb'_eq_self]

theorem RoundTrip.sshl (d : Code) (a : Code) (b : Code) :
    RoundTrip.Statement (.sshl d a b) := by
  have h1 : fld (0x36#8 ++ d ++ a ++ b) 28 4 = 0x3#4 := by simp (disch := decide) only [fld_high, Nat.reduceSub]; rfl
  have h2 : fld (0x36#8 ++ d ++ a ++ b) 24 4 = 0x6#4 := by simp (disch := decide) only [fld_high, Nat.reduceSub]; rfl
  have h3 : (0x36#8 ++ d ++ a ++ b) &&& 0x0#32 = 0 := BitVec.and_zero
  refine ofParse rfl ?_
  simp (disch := decide) only [parse, h1, h2, BitVec.reduceToNat, parseRow3, reservedZero, h3, reduceIte, fld_high, fld_low, Nat.reduceSub, BitVec.extractLsb'_eq_self]

theorem RoundTrip.sshr (d : Code) (a : Code) (b : Code) :
    RoundTrip.Statement (.sshr d a b) := by
  have h1 : fld (0x37#8 ++ d ++ a ++ b) 28 4 = 0x3#4 := by simp (disch := decide) only [fld_high, Nat.reduceSub]; rfl
  have h2 : fld (0x37#8 ++ d ++ a ++ b) 24 4 = 0x7#4 := by simp (disch := decide) only [fld_high, Nat.reduceSub]; rfl
  have h3 : (0x37#8 ++ d ++ a ++ b) &&& 0x0#32 = 0 := BitVec.and_zero
  refine ofParse rfl ?_
  simp (disch := decide) only [parse, h1, h2, BitVec.reduceToNat, parseRow3, reservedZero, h3, reduceIte, fld_high, fld_low, Nat.reduceSub, BitVec.extractLsb'_eq_self]

theorem RoundTrip.sslt (d : Code) (a : Code) (b : Code) :
    RoundTrip.Statement (.sslt d a b) := by
  have h1 : fld (0x38#8 ++ d ++ a ++ b) 28 4 = 0x3#4 := by simp (disch := decide) only [fld_high, Nat.reduceSub]; rfl
  have h2 : fld (0x38#8 ++ d ++ a ++ b) 24 4 = 0x8#4 := by simp (disch := decide) only [fld_high, Nat.reduceSub]; rfl
  have h3 : (0x38#8 ++ d ++ a ++ b) &&& 0x0#32 = 0 := BitVec.and_zero
  refine ofParse rfl ?_
  simp (disch := decide) only [parse, h1, h2, BitVec.reduceToNat, parseRow3, reservedZero, h3, reduceIte, fld_high, fld_low, Nat.reduceSub, BitVec.extractLsb'_eq_self]

theorem RoundTrip.smovi (d : Code) (i : BitVec 16) :
    RoundTrip.Statement (.smovi d i) := by
  have h1 : fld (0x39#8 ++ d ++ i) 28 4 = 0x3#4 := by simp (disch := decide) only [fld_high, Nat.reduceSub]; rfl
  have h2 : fld (0x39#8 ++ d ++ i) 24 4 = 0x9#4 := by simp (disch := decide) only [fld_high, Nat.reduceSub]; rfl
  have h3 : (0x39#8 ++ d ++ i) &&& 0x0#32 = 0 := BitVec.and_zero
  refine ofParse rfl ?_
  simp (disch := decide) only [parse, h1, h2, BitVec.reduceToNat, parseRow3, reservedZero, h3, reduceIte, fld_high, fld_low, Nat.reduceSub, BitVec.extractLsb'_eq_self]

theorem RoundTrip.smovhi (d : Code) (i : BitVec 16) :
    RoundTrip.Statement (.smovhi d i) := by
  have h1 : fld (0x3A#8 ++ d ++ i) 28 4 = 0x3#4 := by simp (disch := decide) only [fld_high, Nat.reduceSub]; rfl
  have h2 : fld (0x3A#8 ++ d ++ i) 24 4 = 0xA#4 := by simp (disch := decide) only [fld_high, Nat.reduceSub]; rfl
  have h3 : (0x3A#8 ++ d ++ i) &&& 0x0#32 = 0 := BitVec.and_zero
  refine ofParse rfl ?_
  simp (disch := decide) only [parse, h1, h2, BitVec.reduceToNat, parseRow3, reservedZero, h3, reduceIte, fld_high, fld_low, Nat.reduceSub, BitVec.extractLsb'_eq_self]

theorem RoundTrip.sread (d : Code) (a : Code) (b : Code) :
    RoundTrip.Statement (.sread d a b) := by
  have h1 : fld (0x3B#8 ++ d ++ a ++ b) 28 4 = 0x3#4 := by simp (disch := decide) only [fld_high, Nat.reduceSub]; rfl
  have h2 : fld (0x3B#8 ++ d ++ a ++ b) 24 4 = 0xB#4 := by simp (disch := decide) only [fld_high, Nat.reduceSub]; rfl
  have h3 : (0x3B#8 ++ d ++ a ++ b) &&& 0x0#32 = 0 := BitVec.and_zero
  refine ofParse rfl ?_
  simp (disch := decide) only [parse, h1, h2, BitVec.reduceToNat, parseRow3, reservedZero, h3, reduceIte, fld_high, fld_low, Nat.reduceSub, BitVec.extractLsb'_eq_self]

theorem RoundTrip.iadd (d : Code) (a : Code) (b : Code) :
    RoundTrip.Statement (.iadd d a b) := by
  have h1 : fld (0x40#8 ++ d ++ a ++ b) 28 4 = 0x4#4 := by simp (disch := decide) only [fld_high, Nat.reduceSub]; rfl
  have h2 : fld (0x40#8 ++ d ++ a ++ b) 24 4 = 0x0#4 := by simp (disch := decide) only [fld_high, Nat.reduceSub]; rfl
  have h3 : (0x40#8 ++ d ++ a ++ b) &&& 0x0#32 = 0 := BitVec.and_zero
  refine ofParse rfl ?_
  simp (disch := decide) only [parse, h1, h2, BitVec.reduceToNat, parseRow4, reservedZero, h3, reduceIte, fld_high, fld_low, Nat.reduceSub, BitVec.extractLsb'_eq_self]

theorem RoundTrip.isub (d : Code) (a : Code) (b : Code) :
    RoundTrip.Statement (.isub d a b) := by
  have h1 : fld (0x41#8 ++ d ++ a ++ b) 28 4 = 0x4#4 := by simp (disch := decide) only [fld_high, Nat.reduceSub]; rfl
  have h2 : fld (0x41#8 ++ d ++ a ++ b) 24 4 = 0x1#4 := by simp (disch := decide) only [fld_high, Nat.reduceSub]; rfl
  have h3 : (0x41#8 ++ d ++ a ++ b) &&& 0x0#32 = 0 := BitVec.and_zero
  refine ofParse rfl ?_
  simp (disch := decide) only [parse, h1, h2, BitVec.reduceToNat, parseRow4, reservedZero, h3, reduceIte, fld_high, fld_low, Nat.reduceSub, BitVec.extractLsb'_eq_self]

theorem RoundTrip.imul (d : Code) (a : Code) (b : Code) :
    RoundTrip.Statement (.imul d a b) := by
  have h1 : fld (0x42#8 ++ d ++ a ++ b) 28 4 = 0x4#4 := by simp (disch := decide) only [fld_high, Nat.reduceSub]; rfl
  have h2 : fld (0x42#8 ++ d ++ a ++ b) 24 4 = 0x2#4 := by simp (disch := decide) only [fld_high, Nat.reduceSub]; rfl
  have h3 : (0x42#8 ++ d ++ a ++ b) &&& 0x0#32 = 0 := BitVec.and_zero
  refine ofParse rfl ?_
  simp (disch := decide) only [parse, h1, h2, BitVec.reduceToNat, parseRow4, reservedZero, h3, reduceIte, fld_high, fld_low, Nat.reduceSub, BitVec.extractLsb'_eq_self]

theorem RoundTrip.imulh (d : Code) (a : Code) (b : Code) :
    RoundTrip.Statement (.imulh d a b) := by
  have h1 : fld (0x43#8 ++ d ++ a ++ b) 28 4 = 0x4#4 := by simp (disch := decide) only [fld_high, Nat.reduceSub]; rfl
  have h2 : fld (0x43#8 ++ d ++ a ++ b) 24 4 = 0x3#4 := by simp (disch := decide) only [fld_high, Nat.reduceSub]; rfl
  have h3 : (0x43#8 ++ d ++ a ++ b) &&& 0x0#32 = 0 := BitVec.and_zero
  refine ofParse rfl ?_
  simp (disch := decide) only [parse, h1, h2, BitVec.reduceToNat, parseRow4, reservedZero, h3, reduceIte, fld_high, fld_low, Nat.reduceSub, BitVec.extractLsb'_eq_self]

theorem RoundTrip.imad (d : Code) (a : Code) (b : Code) :
    RoundTrip.Statement (.imad d a b) := by
  have h1 : fld (0x44#8 ++ d ++ a ++ b) 28 4 = 0x4#4 := by simp (disch := decide) only [fld_high, Nat.reduceSub]; rfl
  have h2 : fld (0x44#8 ++ d ++ a ++ b) 24 4 = 0x4#4 := by simp (disch := decide) only [fld_high, Nat.reduceSub]; rfl
  have h3 : (0x44#8 ++ d ++ a ++ b) &&& 0x0#32 = 0 := BitVec.and_zero
  refine ofParse rfl ?_
  simp (disch := decide) only [parse, h1, h2, BitVec.reduceToNat, parseRow4, reservedZero, h3, reduceIte, fld_high, fld_low, Nat.reduceSub, BitVec.extractLsb'_eq_self]

theorem RoundTrip.idiv (d : Code) (a : Code) (b : Code) :
    RoundTrip.Statement (.idiv d a b) := by
  have h1 : fld (0x45#8 ++ d ++ a ++ b) 28 4 = 0x4#4 := by simp (disch := decide) only [fld_high, Nat.reduceSub]; rfl
  have h2 : fld (0x45#8 ++ d ++ a ++ b) 24 4 = 0x5#4 := by simp (disch := decide) only [fld_high, Nat.reduceSub]; rfl
  have h3 : (0x45#8 ++ d ++ a ++ b) &&& 0x0#32 = 0 := BitVec.and_zero
  refine ofParse rfl ?_
  simp (disch := decide) only [parse, h1, h2, BitVec.reduceToNat, parseRow4, reservedZero, h3, reduceIte, fld_high, fld_low, Nat.reduceSub, BitVec.extractLsb'_eq_self]

theorem RoundTrip.irem (d : Code) (a : Code) (b : Code) :
    RoundTrip.Statement (.irem d a b) := by
  have h1 : fld (0x46#8 ++ d ++ a ++ b) 28 4 = 0x4#4 := by simp (disch := decide) only [fld_high, Nat.reduceSub]; rfl
  have h2 : fld (0x46#8 ++ d ++ a ++ b) 24 4 = 0x6#4 := by simp (disch := decide) only [fld_high, Nat.reduceSub]; rfl
  have h3 : (0x46#8 ++ d ++ a ++ b) &&& 0x0#32 = 0 := BitVec.and_zero
  refine ofParse rfl ?_
  simp (disch := decide) only [parse, h1, h2, BitVec.reduceToNat, parseRow4, reservedZero, h3, reduceIte, fld_high, fld_low, Nat.reduceSub, BitVec.extractLsb'_eq_self]

theorem RoundTrip.imin (d : Code) (a : Code) (b : Code) :
    RoundTrip.Statement (.imin d a b) := by
  have h1 : fld (0x47#8 ++ d ++ a ++ b) 28 4 = 0x4#4 := by simp (disch := decide) only [fld_high, Nat.reduceSub]; rfl
  have h2 : fld (0x47#8 ++ d ++ a ++ b) 24 4 = 0x7#4 := by simp (disch := decide) only [fld_high, Nat.reduceSub]; rfl
  have h3 : (0x47#8 ++ d ++ a ++ b) &&& 0x0#32 = 0 := BitVec.and_zero
  refine ofParse rfl ?_
  simp (disch := decide) only [parse, h1, h2, BitVec.reduceToNat, parseRow4, reservedZero, h3, reduceIte, fld_high, fld_low, Nat.reduceSub, BitVec.extractLsb'_eq_self]

theorem RoundTrip.imax (d : Code) (a : Code) (b : Code) :
    RoundTrip.Statement (.imax d a b) := by
  have h1 : fld (0x48#8 ++ d ++ a ++ b) 28 4 = 0x4#4 := by simp (disch := decide) only [fld_high, Nat.reduceSub]; rfl
  have h2 : fld (0x48#8 ++ d ++ a ++ b) 24 4 = 0x8#4 := by simp (disch := decide) only [fld_high, Nat.reduceSub]; rfl
  have h3 : (0x48#8 ++ d ++ a ++ b) &&& 0x0#32 = 0 := BitVec.and_zero
  refine ofParse rfl ?_
  simp (disch := decide) only [parse, h1, h2, BitVec.reduceToNat, parseRow4, reservedZero, h3, reduceIte, fld_high, fld_low, Nat.reduceSub, BitVec.extractLsb'_eq_self]

theorem RoundTrip.iabs (d : Code) (a : Code) :
    RoundTrip.Statement (.iabs d a) := by
  have h1 : fld (0x49#8 ++ d ++ a ++ 0x0#8) 28 4 = 0x4#4 := by simp (disch := decide) only [fld_high, Nat.reduceSub]; rfl
  have h2 : fld (0x49#8 ++ d ++ a ++ 0x0#8) 24 4 = 0x9#4 := by simp (disch := decide) only [fld_high, Nat.reduceSub]; rfl
  have h3 : (0x49#8 ++ d ++ a ++ 0x0#8) &&& 0xff#32 = 0 := (and0 (u := 0x0#24) (v := 0xFF#8) rfl (and0 (u := 0x0#16) (v := 0x0#8) rfl (and0 (u := 0x0#8) (v := 0x0#8) rfl rfl BitVec.and_zero) BitVec.and_zero) BitVec.zero_and)
  refine ofParse rfl ?_
  simp (disch := decide) only [parse, h1, h2, BitVec.reduceToNat, parseRow4, reservedZero, h3, reduceIte, fld_high, fld_low, Nat.reduceSub, BitVec.extractLsb'_eq_self]

theorem RoundTrip.ineg (d : Code) (a : Code) :
    RoundTrip.Statement (.ineg d a) := by
  have h1 : fld (0x4A#8 ++ d ++ a ++ 0x0#8) 28 4 = 0x4#4 := by simp (disch := decide) only [fld_high, Nat.reduceSub]; rfl
  have h2 : fld (0x4A#8 ++ d ++ a ++ 0x0#8) 24 4 = 0xA#4 := by simp (disch := decide) only [fld_high, Nat.reduceSub]; rfl
  have h3 : (0x4A#8 ++ d ++ a ++ 0x0#8) &&& 0xff#32 = 0 := (and0 (u := 0x0#24) (v := 0xFF#8) rfl (and0 (u := 0x0#16) (v := 0x0#8) rfl (and0 (u := 0x0#8) (v := 0x0#8) rfl rfl BitVec.and_zero) BitVec.and_zero) BitVec.zero_and)
  refine ofParse rfl ?_
  simp (disch := decide) only [parse, h1, h2, BitVec.reduceToNat, parseRow4, reservedZero, h3, reduceIte, fld_high, fld_low, Nat.reduceSub, BitVec.extractLsb'_eq_self]

theorem RoundTrip.icmpeq (d : Code) (a : Code) (b : Code) :
    RoundTrip.Statement (.icmpeq d a b) := by
  have h1 : fld (0x4B#8 ++ d ++ a ++ b) 28 4 = 0x4#4 := by simp (disch := decide) only [fld_high, Nat.reduceSub]; rfl
  have h2 : fld (0x4B#8 ++ d ++ a ++ b) 24 4 = 0xB#4 := by simp (disch := decide) only [fld_high, Nat.reduceSub]; rfl
  have h3 : (0x4B#8 ++ d ++ a ++ b) &&& 0x0#32 = 0 := BitVec.and_zero
  refine ofParse rfl ?_
  simp (disch := decide) only [parse, h1, h2, BitVec.reduceToNat, parseRow4, reservedZero, h3, reduceIte, fld_high, fld_low, Nat.reduceSub, BitVec.extractLsb'_eq_self]

theorem RoundTrip.icmpne (d : Code) (a : Code) (b : Code) :
    RoundTrip.Statement (.icmpne d a b) := by
  have h1 : fld (0x4C#8 ++ d ++ a ++ b) 28 4 = 0x4#4 := by simp (disch := decide) only [fld_high, Nat.reduceSub]; rfl
  have h2 : fld (0x4C#8 ++ d ++ a ++ b) 24 4 = 0xC#4 := by simp (disch := decide) only [fld_high, Nat.reduceSub]; rfl
  have h3 : (0x4C#8 ++ d ++ a ++ b) &&& 0x0#32 = 0 := BitVec.and_zero
  refine ofParse rfl ?_
  simp (disch := decide) only [parse, h1, h2, BitVec.reduceToNat, parseRow4, reservedZero, h3, reduceIte, fld_high, fld_low, Nat.reduceSub, BitVec.extractLsb'_eq_self]

theorem RoundTrip.icmplt (d : Code) (a : Code) (b : Code) :
    RoundTrip.Statement (.icmplt d a b) := by
  have h1 : fld (0x4D#8 ++ d ++ a ++ b) 28 4 = 0x4#4 := by simp (disch := decide) only [fld_high, Nat.reduceSub]; rfl
  have h2 : fld (0x4D#8 ++ d ++ a ++ b) 24 4 = 0xD#4 := by simp (disch := decide) only [fld_high, Nat.reduceSub]; rfl
  have h3 : (0x4D#8 ++ d ++ a ++ b) &&& 0x0#32 = 0 := BitVec.and_zero
  refine ofParse rfl ?_
  simp (disch := decide) only [parse, h1, h2, BitVec.reduceToNat, parseRow4, reservedZero, h3, reduceIte, fld_high, fld_low, Nat.reduceSub, BitVec.extractLsb'_eq_self]

theorem RoundTrip.icmple (d : Code) (a : Code) (b : Code) :
    RoundTrip.Statement (.icmple d a b) := by
  have h1 : fld (0x4E#8 ++ d ++ a ++ b) 28 4 = 0x4#4 := by simp (disch := decide) only [fld_high, Nat.reduceSub]; rfl
  have h2 : fld (0x4E#8 ++ d ++ a ++ b) 24 4 = 0xE#4 := by simp (disch := decide) only [fld_high, Nat.reduceSub]; rfl
  have h3 : (0x4E#8 ++ d ++ a ++ b) &&& 0x0#32 = 0 := BitVec.and_zero
  refine ofParse rfl ?_
  simp (disch := decide) only [parse, h1, h2, BitVec.reduceToNat, parseRow4, reservedZero, h3, reduceIte, fld_high, fld_low, Nat.reduceSub, BitVec.extractLsb'_eq_self]

theorem RoundTrip.isel (d : Code) (a : Code) (b : Code) :
    RoundTrip.Statement (.isel d a b) := by
  have h1 : fld (0x4F#8 ++ d ++ a ++ b) 28 4 = 0x4#4 := by simp (disch := decide) only [fld_high, Nat.reduceSub]; rfl
  have h2 : fld (0x4F#8 ++ d ++ a ++ b) 24 4 = 0xF#4 := by simp (disch := decide) only [fld_high, Nat.reduceSub]; rfl
  have h3 : (0x4F#8 ++ d ++ a ++ b) &&& 0x0#32 = 0 := BitVec.and_zero
  refine ofParse rfl ?_
  simp (disch := decide) only [parse, h1, h2, BitVec.reduceToNat, parseRow4, reservedZero, h3, reduceIte, fld_high, fld_low, Nat.reduceSub, BitVec.extractLsb'_eq_self]

theorem RoundTrip.imovi (d : Code) (i : BitVec 16) :
    RoundTrip.Statement (.imovi d i) := by
  have h1 : fld (0x50#8 ++ d ++ i) 28 4 = 0x5#4 := by simp (disch := decide) only [fld_high, Nat.reduceSub]; rfl
  have h2 : fld (0x50#8 ++ d ++ i) 24 4 = 0x0#4 := by simp (disch := decide) only [fld_high, Nat.reduceSub]; rfl
  have h3 : (0x50#8 ++ d ++ i) &&& 0x0#32 = 0 := BitVec.and_zero
  refine ofParse rfl ?_
  simp (disch := decide) only [parse, h1, h2, BitVec.reduceToNat, parseRow5, reservedZero, h3, reduceIte, fld_high, fld_low, Nat.reduceSub, BitVec.extractLsb'_eq_self]

theorem RoundTrip.imovhi (d : Code) (i : BitVec 16) :
    RoundTrip.Statement (.imovhi d i) := by
  have h1 : fld (0x51#8 ++ d ++ i) 28 4 = 0x5#4 := by simp (disch := decide) only [fld_high, Nat.reduceSub]; rfl
  have h2 : fld (0x51#8 ++ d ++ i) 24 4 = 0x1#4 := by simp (disch := decide) only [fld_high, Nat.reduceSub]; rfl
  have h3 : (0x51#8 ++ d ++ i) &&& 0x0#32 = 0 := BitVec.and_zero
  refine ofParse rfl ?_
  simp (disch := decide) only [parse, h1, h2, BitVec.reduceToNat, parseRow5, reservedZero, h3, reduceIte, fld_high, fld_low, Nat.reduceSub, BitVec.extractLsb'_eq_self]

theorem RoundTrip.vbcst (d : Code) (a : Code) :
    RoundTrip.Statement (.vbcst d a) := by
  have h1 : fld (0x52#8 ++ d ++ a ++ 0x0#8) 28 4 = 0x5#4 := by simp (disch := decide) only [fld_high, Nat.reduceSub]; rfl
  have h2 : fld (0x52#8 ++ d ++ a ++ 0x0#8) 24 4 = 0x2#4 := by simp (disch := decide) only [fld_high, Nat.reduceSub]; rfl
  have h3 : (0x52#8 ++ d ++ a ++ 0x0#8) &&& 0xff#32 = 0 := (and0 (u := 0x0#24) (v := 0xFF#8) rfl (and0 (u := 0x0#16) (v := 0x0#8) rfl (and0 (u := 0x0#8) (v := 0x0#8) rfl rfl BitVec.and_zero) BitVec.and_zero) BitVec.zero_and)
  refine ofParse rfl ?_
  simp (disch := decide) only [parse, h1, h2, BitVec.reduceToNat, parseRow5, reservedZero, h3, reduceIte, fld_high, fld_low, Nat.reduceSub, BitVec.extractLsb'_eq_self]

theorem RoundTrip.iaddi (d : Code) (i : BitVec 16) :
    RoundTrip.Statement (.iaddi d i) := by
  have h1 : fld (0x53#8 ++ d ++ i) 28 4 = 0x5#4 := by simp (disch := decide) only [fld_high, Nat.reduceSub]; rfl
  have h2 : fld (0x53#8 ++ d ++ i) 24 4 = 0x3#4 := by simp (disch := decide) only [fld_high, Nat.reduceSub]; rfl
  have h3 : (0x53#8 ++ d ++ i) &&& 0x0#32 = 0 := BitVec.and_zero
  refine ofParse rfl ?_
  simp (disch := decide) only [parse, h1, h2, BitVec.reduceToNat, parseRow5, reservedZero, h3, reduceIte, fld_high, fld_low, Nat.reduceSub, BitVec.extractLsb'_eq_self]

theorem RoundTrip.iaddc (d : Code) (a : Code) (b : Code) :
    RoundTrip.Statement (.iaddc d a b) := by
  have h1 : fld (0x54#8 ++ d ++ a ++ b) 28 4 = 0x5#4 := by simp (disch := decide) only [fld_high, Nat.reduceSub]; rfl
  have h2 : fld (0x54#8 ++ d ++ a ++ b) 24 4 = 0x4#4 := by simp (disch := decide) only [fld_high, Nat.reduceSub]; rfl
  have h3 : (0x54#8 ++ d ++ a ++ b) &&& 0x0#32 = 0 := BitVec.and_zero
  refine ofParse rfl ?_
  simp (disch := decide) only [parse, h1, h2, BitVec.reduceToNat, parseRow5, reservedZero, h3, reduceIte, fld_high, fld_low, Nat.reduceSub, BitVec.extractLsb'_eq_self]

theorem RoundTrip.imadw (d : Code) (a : Code) (b : Code) :
    RoundTrip.Statement (.imadw d a b) := by
  have h1 : fld (0x55#8 ++ d ++ a ++ b) 28 4 = 0x5#4 := by simp (disch := decide) only [fld_high, Nat.reduceSub]; rfl
  have h2 : fld (0x55#8 ++ d ++ a ++ b) 24 4 = 0x5#4 := by simp (disch := decide) only [fld_high, Nat.reduceSub]; rfl
  have h3 : (0x55#8 ++ d ++ a ++ b) &&& 0x0#32 = 0 := BitVec.and_zero
  refine ofParse rfl ?_
  simp (disch := decide) only [parse, h1, h2, BitVec.reduceToNat, parseRow5, reservedZero, h3, reduceIte, fld_high, fld_low, Nat.reduceSub, BitVec.extractLsb'_eq_self]

theorem RoundTrip.and (d : Code) (a : Code) (b : Code) :
    RoundTrip.Statement (.and d a b) := by
  have h1 : fld (0x60#8 ++ d ++ a ++ b) 28 4 = 0x6#4 := by simp (disch := decide) only [fld_high, Nat.reduceSub]; rfl
  have h2 : fld (0x60#8 ++ d ++ a ++ b) 24 4 = 0x0#4 := by simp (disch := decide) only [fld_high, Nat.reduceSub]; rfl
  have h3 : (0x60#8 ++ d ++ a ++ b) &&& 0x0#32 = 0 := BitVec.and_zero
  refine ofParse rfl ?_
  simp (disch := decide) only [parse, h1, h2, BitVec.reduceToNat, parseRow6, reservedZero, h3, reduceIte, fld_high, fld_low, Nat.reduceSub, BitVec.extractLsb'_eq_self]

theorem RoundTrip.or (d : Code) (a : Code) (b : Code) :
    RoundTrip.Statement (.or d a b) := by
  have h1 : fld (0x61#8 ++ d ++ a ++ b) 28 4 = 0x6#4 := by simp (disch := decide) only [fld_high, Nat.reduceSub]; rfl
  have h2 : fld (0x61#8 ++ d ++ a ++ b) 24 4 = 0x1#4 := by simp (disch := decide) only [fld_high, Nat.reduceSub]; rfl
  have h3 : (0x61#8 ++ d ++ a ++ b) &&& 0x0#32 = 0 := BitVec.and_zero
  refine ofParse rfl ?_
  simp (disch := decide) only [parse, h1, h2, BitVec.reduceToNat, parseRow6, reservedZero, h3, reduceIte, fld_high, fld_low, Nat.reduceSub, BitVec.extractLsb'_eq_self]

theorem RoundTrip.xor (d : Code) (a : Code) (b : Code) :
    RoundTrip.Statement (.xor d a b) := by
  have h1 : fld (0x62#8 ++ d ++ a ++ b) 28 4 = 0x6#4 := by simp (disch := decide) only [fld_high, Nat.reduceSub]; rfl
  have h2 : fld (0x62#8 ++ d ++ a ++ b) 24 4 = 0x2#4 := by simp (disch := decide) only [fld_high, Nat.reduceSub]; rfl
  have h3 : (0x62#8 ++ d ++ a ++ b) &&& 0x0#32 = 0 := BitVec.and_zero
  refine ofParse rfl ?_
  simp (disch := decide) only [parse, h1, h2, BitVec.reduceToNat, parseRow6, reservedZero, h3, reduceIte, fld_high, fld_low, Nat.reduceSub, BitVec.extractLsb'_eq_self]

theorem RoundTrip.shl (d : Code) (a : Code) (b : Code) :
    RoundTrip.Statement (.shl d a b) := by
  have h1 : fld (0x63#8 ++ d ++ a ++ b) 28 4 = 0x6#4 := by simp (disch := decide) only [fld_high, Nat.reduceSub]; rfl
  have h2 : fld (0x63#8 ++ d ++ a ++ b) 24 4 = 0x3#4 := by simp (disch := decide) only [fld_high, Nat.reduceSub]; rfl
  have h3 : (0x63#8 ++ d ++ a ++ b) &&& 0x0#32 = 0 := BitVec.and_zero
  refine ofParse rfl ?_
  simp (disch := decide) only [parse, h1, h2, BitVec.reduceToNat, parseRow6, reservedZero, h3, reduceIte, fld_high, fld_low, Nat.reduceSub, BitVec.extractLsb'_eq_self]

theorem RoundTrip.shr (d : Code) (a : Code) (b : Code) :
    RoundTrip.Statement (.shr d a b) := by
  have h1 : fld (0x64#8 ++ d ++ a ++ b) 28 4 = 0x6#4 := by simp (disch := decide) only [fld_high, Nat.reduceSub]; rfl
  have h2 : fld (0x64#8 ++ d ++ a ++ b) 24 4 = 0x4#4 := by simp (disch := decide) only [fld_high, Nat.reduceSub]; rfl
  have h3 : (0x64#8 ++ d ++ a ++ b) &&& 0x0#32 = 0 := BitVec.and_zero
  refine ofParse rfl ?_
  simp (disch := decide) only [parse, h1, h2, BitVec.reduceToNat, parseRow6, reservedZero, h3, reduceIte, fld_high, fld_low, Nat.reduceSub, BitVec.extractLsb'_eq_self]

theorem RoundTrip.sar (d : Code) (a : Code) (b : Code) :
    RoundTrip.Statement (.sar d a b) := by
  have h1 : fld (0x65#8 ++ d ++ a ++ b) 28 4 = 0x6#4 := by simp (disch := decide) only [fld_high, Nat.reduceSub]; rfl
  have h2 : fld (0x65#8 ++ d ++ a ++ b) 24 4 = 0x5#4 := by simp (disch := decide) only [fld_high, Nat.reduceSub]; rfl
  have h3 : (0x65#8 ++ d ++ a ++ b) &&& 0x0#32 = 0 := BitVec.and_zero
  refine ofParse rfl ?_
  simp (disch := decide) only [parse, h1, h2, BitVec.reduceToNat, parseRow6, reservedZero, h3, reduceIte, fld_high, fld_low, Nat.reduceSub, BitVec.extractLsb'_eq_self]

theorem RoundTrip.rol (d : Code) (a : Code) (b : Code) :
    RoundTrip.Statement (.rol d a b) := by
  have h1 : fld (0x66#8 ++ d ++ a ++ b) 28 4 = 0x6#4 := by simp (disch := decide) only [fld_high, Nat.reduceSub]; rfl
  have h2 : fld (0x66#8 ++ d ++ a ++ b) 24 4 = 0x6#4 := by simp (disch := decide) only [fld_high, Nat.reduceSub]; rfl
  have h3 : (0x66#8 ++ d ++ a ++ b) &&& 0x0#32 = 0 := BitVec.and_zero
  refine ofParse rfl ?_
  simp (disch := decide) only [parse, h1, h2, BitVec.reduceToNat, parseRow6, reservedZero, h3, reduceIte, fld_high, fld_low, Nat.reduceSub, BitVec.extractLsb'_eq_self]

theorem RoundTrip.ror (d : Code) (a : Code) (b : Code) :
    RoundTrip.Statement (.ror d a b) := by
  have h1 : fld (0x67#8 ++ d ++ a ++ b) 28 4 = 0x6#4 := by simp (disch := decide) only [fld_high, Nat.reduceSub]; rfl
  have h2 : fld (0x67#8 ++ d ++ a ++ b) 24 4 = 0x7#4 := by simp (disch := decide) only [fld_high, Nat.reduceSub]; rfl
  have h3 : (0x67#8 ++ d ++ a ++ b) &&& 0x0#32 = 0 := BitVec.and_zero
  refine ofParse rfl ?_
  simp (disch := decide) only [parse, h1, h2, BitVec.reduceToNat, parseRow6, reservedZero, h3, reduceIte, fld_high, fld_low, Nat.reduceSub, BitVec.extractLsb'_eq_self]

theorem RoundTrip.bcnt (d : Code) (a : Code) :
    RoundTrip.Statement (.bcnt d a) := by
  have h1 : fld (0x68#8 ++ d ++ a ++ 0x0#8) 28 4 = 0x6#4 := by simp (disch := decide) only [fld_high, Nat.reduceSub]; rfl
  have h2 : fld (0x68#8 ++ d ++ a ++ 0x0#8) 24 4 = 0x8#4 := by simp (disch := decide) only [fld_high, Nat.reduceSub]; rfl
  have h3 : (0x68#8 ++ d ++ a ++ 0x0#8) &&& 0xff#32 = 0 := (and0 (u := 0x0#24) (v := 0xFF#8) rfl (and0 (u := 0x0#16) (v := 0x0#8) rfl (and0 (u := 0x0#8) (v := 0x0#8) rfl rfl BitVec.and_zero) BitVec.and_zero) BitVec.zero_and)
  refine ofParse rfl ?_
  simp (disch := decide) only [parse, h1, h2, BitVec.reduceToNat, parseRow6, reservedZero, h3, reduceIte, fld_high, fld_low, Nat.reduceSub, BitVec.extractLsb'_eq_self]

theorem RoundTrip.clz (d : Code) (a : Code) :
    RoundTrip.Statement (.clz d a) := by
  have h1 : fld (0x69#8 ++ d ++ a ++ 0x0#8) 28 4 = 0x6#4 := by simp (disch := decide) only [fld_high, Nat.reduceSub]; rfl
  have h2 : fld (0x69#8 ++ d ++ a ++ 0x0#8) 24 4 = 0x9#4 := by simp (disch := decide) only [fld_high, Nat.reduceSub]; rfl
  have h3 : (0x69#8 ++ d ++ a ++ 0x0#8) &&& 0xff#32 = 0 := (and0 (u := 0x0#24) (v := 0xFF#8) rfl (and0 (u := 0x0#16) (v := 0x0#8) rfl (and0 (u := 0x0#8) (v := 0x0#8) rfl rfl BitVec.and_zero) BitVec.and_zero) BitVec.zero_and)
  refine ofParse rfl ?_
  simp (disch := decide) only [parse, h1, h2, BitVec.reduceToNat, parseRow6, reservedZero, h3, reduceIte, fld_high, fld_low, Nat.reduceSub, BitVec.extractLsb'_eq_self]

theorem RoundTrip.bfe (d : Code) (a : Code) (b : Code) :
    RoundTrip.Statement (.bfe d a b) := by
  have h1 : fld (0x6A#8 ++ d ++ a ++ b) 28 4 = 0x6#4 := by simp (disch := decide) only [fld_high, Nat.reduceSub]; rfl
  have h2 : fld (0x6A#8 ++ d ++ a ++ b) 24 4 = 0xA#4 := by simp (disch := decide) only [fld_high, Nat.reduceSub]; rfl
  have h3 : (0x6A#8 ++ d ++ a ++ b) &&& 0x0#32 = 0 := BitVec.and_zero
  refine ofParse rfl ?_
  simp (disch := decide) only [parse, h1, h2, BitVec.reduceToNat, parseRow6, reservedZero, h3, reduceIte, fld_high, fld_low, Nat.reduceSub, BitVec.extractLsb'_eq_self]

theorem RoundTrip.bfi (d : Code) (a : Code) (b : Code) :
    RoundTrip.Statement (.bfi d a b) := by
  have h1 : fld (0x6B#8 ++ d ++ a ++ b) 28 4 = 0x6#4 := by simp (disch := decide) only [fld_high, Nat.reduceSub]; rfl
  have h2 : fld (0x6B#8 ++ d ++ a ++ b) 24 4 = 0xB#4 := by simp (disch := decide) only [fld_high, Nat.reduceSub]; rfl
  have h3 : (0x6B#8 ++ d ++ a ++ b) &&& 0x0#32 = 0 := BitVec.and_zero
  refine ofParse rfl ?_
  simp (disch := decide) only [parse, h1, h2, BitVec.reduceToNat, parseRow6, reservedZero, h3, reduceIte, fld_high, fld_low, Nat.reduceSub, BitVec.extractLsb'_eq_self]

theorem RoundTrip.lea (d : Code) (a : Code) (b : Code) :
    RoundTrip.Statement (.lea d a b) := by
  have h1 : fld (0x6C#8 ++ d ++ a ++ b) 28 4 = 0x6#4 := by simp (disch := decide) only [fld_high, Nat.reduceSub]; rfl
  have h2 : fld (0x6C#8 ++ d ++ a ++ b) 24 4 = 0xC#4 := by simp (disch := decide) only [fld_high, Nat.reduceSub]; rfl
  have h3 : (0x6C#8 ++ d ++ a ++ b) &&& 0x0#32 = 0 := BitVec.and_zero
  refine ofParse rfl ?_
  simp (disch := decide) only [parse, h1, h2, BitVec.reduceToNat, parseRow6, reservedZero, h3, reduceIte, fld_high, fld_low, Nat.reduceSub, BitVec.extractLsb'_eq_self]

theorem RoundTrip.cvt (d : Code) (a : Code) (b : Code) :
    RoundTrip.Statement (.cvt d a b) := by
  have h1 : fld (0x70#8 ++ d ++ a ++ b) 28 4 = 0x7#4 := by simp (disch := decide) only [fld_high, Nat.reduceSub]; rfl
  have h2 : fld (0x70#8 ++ d ++ a ++ b) 24 4 = 0x0#4 := by simp (disch := decide) only [fld_high, Nat.reduceSub]; rfl
  have h3 : (0x70#8 ++ d ++ a ++ b) &&& 0x0#32 = 0 := BitVec.and_zero
  refine ofParse rfl ?_
  simp (disch := decide) only [parse, h1, h2, BitVec.reduceToNat, parseRow7, reservedZero, h3, reduceIte, fld_high, fld_low, Nat.reduceSub, BitVec.extractLsb'_eq_self]

theorem RoundTrip.cvtpk (d : Code) (a : Code) :
    RoundTrip.Statement (.cvtpk d a) := by
  have h1 : fld (0x71#8 ++ d ++ a ++ 0x0#8) 28 4 = 0x7#4 := by simp (disch := decide) only [fld_high, Nat.reduceSub]; rfl
  have h2 : fld (0x71#8 ++ d ++ a ++ 0x0#8) 24 4 = 0x1#4 := by simp (disch := decide) only [fld_high, Nat.reduceSub]; rfl
  have h3 : (0x71#8 ++ d ++ a ++ 0x0#8) &&& 0xff#32 = 0 := (and0 (u := 0x0#24) (v := 0xFF#8) rfl (and0 (u := 0x0#16) (v := 0x0#8) rfl (and0 (u := 0x0#8) (v := 0x0#8) rfl rfl BitVec.and_zero) BitVec.and_zero) BitVec.zero_and)
  refine ofParse rfl ?_
  simp (disch := decide) only [parse, h1, h2, BitVec.reduceToNat, parseRow7, reservedZero, h3, reduceIte, fld_high, fld_low, Nat.reduceSub, BitVec.extractLsb'_eq_self]

theorem RoundTrip.unpk (d : Code) (a : Code) :
    RoundTrip.Statement (.unpk d a) := by
  have h1 : fld (0x72#8 ++ d ++ a ++ 0x0#8) 28 4 = 0x7#4 := by simp (disch := decide) only [fld_high, Nat.reduceSub]; rfl
  have h2 : fld (0x72#8 ++ d ++ a ++ 0x0#8) 24 4 = 0x2#4 := by simp (disch := decide) only [fld_high, Nat.reduceSub]; rfl
  have h3 : (0x72#8 ++ d ++ a ++ 0x0#8) &&& 0xff#32 = 0 := (and0 (u := 0x0#24) (v := 0xFF#8) rfl (and0 (u := 0x0#16) (v := 0x0#8) rfl (and0 (u := 0x0#8) (v := 0x0#8) rfl rfl BitVec.and_zero) BitVec.and_zero) BitVec.zero_and)
  refine ofParse rfl ?_
  simp (disch := decide) only [parse, h1, h2, BitVec.reduceToNat, parseRow7, reservedZero, h3, reduceIte, fld_high, fld_low, Nat.reduceSub, BitVec.extractLsb'_eq_self]

theorem RoundTrip.frint (d : Code) (a : Code) :
    RoundTrip.Statement (.frint d a) := by
  have h1 : fld (0x73#8 ++ d ++ a ++ 0x0#8) 28 4 = 0x7#4 := by simp (disch := decide) only [fld_high, Nat.reduceSub]; rfl
  have h2 : fld (0x73#8 ++ d ++ a ++ 0x0#8) 24 4 = 0x3#4 := by simp (disch := decide) only [fld_high, Nat.reduceSub]; rfl
  have h3 : (0x73#8 ++ d ++ a ++ 0x0#8) &&& 0xff#32 = 0 := (and0 (u := 0x0#24) (v := 0xFF#8) rfl (and0 (u := 0x0#16) (v := 0x0#8) rfl (and0 (u := 0x0#8) (v := 0x0#8) rfl rfl BitVec.and_zero) BitVec.and_zero) BitVec.zero_and)
  refine ofParse rfl ?_
  simp (disch := decide) only [parse, h1, h2, BitVec.reduceToNat, parseRow7, reservedZero, h3, reduceIte, fld_high, fld_low, Nat.reduceSub, BitVec.extractLsb'_eq_self]

theorem RoundTrip.cvtq (d : Code) (a : Code) (b : Code) :
    RoundTrip.Statement (.cvtq d a b) := by
  have h1 : fld (0x74#8 ++ d ++ a ++ b) 28 4 = 0x7#4 := by simp (disch := decide) only [fld_high, Nat.reduceSub]; rfl
  have h2 : fld (0x74#8 ++ d ++ a ++ b) 24 4 = 0x4#4 := by simp (disch := decide) only [fld_high, Nat.reduceSub]; rfl
  have h3 : (0x74#8 ++ d ++ a ++ b) &&& 0x0#32 = 0 := BitVec.and_zero
  refine ofParse rfl ?_
  simp (disch := decide) only [parse, h1, h2, BitVec.reduceToNat, parseRow7, reservedZero, h3, reduceIte, fld_high, fld_low, Nat.reduceSub, BitVec.extractLsb'_eq_self]

theorem RoundTrip.cvtdq (d : Code) (a : Code) (b : Code) :
    RoundTrip.Statement (.cvtdq d a b) := by
  have h1 : fld (0x75#8 ++ d ++ a ++ b) 28 4 = 0x7#4 := by simp (disch := decide) only [fld_high, Nat.reduceSub]; rfl
  have h2 : fld (0x75#8 ++ d ++ a ++ b) 24 4 = 0x5#4 := by simp (disch := decide) only [fld_high, Nat.reduceSub]; rfl
  have h3 : (0x75#8 ++ d ++ a ++ b) &&& 0x0#32 = 0 := BitVec.and_zero
  refine ofParse rfl ?_
  simp (disch := decide) only [parse, h1, h2, BitVec.reduceToNat, parseRow7, reservedZero, h3, reduceIte, fld_high, fld_low, Nat.reduceSub, BitVec.extractLsb'_eq_self]

theorem RoundTrip.fadd (d : Code) (a : Code) (b : Code) :
    RoundTrip.Statement (.fadd d a b) := by
  have h1 : fld (0x80#8 ++ d ++ a ++ b) 28 4 = 0x8#4 := by simp (disch := decide) only [fld_high, Nat.reduceSub]; rfl
  have h2 : fld (0x80#8 ++ d ++ a ++ b) 24 4 = 0x0#4 := by simp (disch := decide) only [fld_high, Nat.reduceSub]; rfl
  have h3 : (0x80#8 ++ d ++ a ++ b) &&& 0x0#32 = 0 := BitVec.and_zero
  refine ofParse rfl ?_
  simp (disch := decide) only [parse, h1, h2, BitVec.reduceToNat, parseRow8, reservedZero, h3, reduceIte, fld_high, fld_low, Nat.reduceSub, BitVec.extractLsb'_eq_self]

theorem RoundTrip.fsub (d : Code) (a : Code) (b : Code) :
    RoundTrip.Statement (.fsub d a b) := by
  have h1 : fld (0x81#8 ++ d ++ a ++ b) 28 4 = 0x8#4 := by simp (disch := decide) only [fld_high, Nat.reduceSub]; rfl
  have h2 : fld (0x81#8 ++ d ++ a ++ b) 24 4 = 0x1#4 := by simp (disch := decide) only [fld_high, Nat.reduceSub]; rfl
  have h3 : (0x81#8 ++ d ++ a ++ b) &&& 0x0#32 = 0 := BitVec.and_zero
  refine ofParse rfl ?_
  simp (disch := decide) only [parse, h1, h2, BitVec.reduceToNat, parseRow8, reservedZero, h3, reduceIte, fld_high, fld_low, Nat.reduceSub, BitVec.extractLsb'_eq_self]

theorem RoundTrip.fmul (d : Code) (a : Code) (b : Code) :
    RoundTrip.Statement (.fmul d a b) := by
  have h1 : fld (0x82#8 ++ d ++ a ++ b) 28 4 = 0x8#4 := by simp (disch := decide) only [fld_high, Nat.reduceSub]; rfl
  have h2 : fld (0x82#8 ++ d ++ a ++ b) 24 4 = 0x2#4 := by simp (disch := decide) only [fld_high, Nat.reduceSub]; rfl
  have h3 : (0x82#8 ++ d ++ a ++ b) &&& 0x0#32 = 0 := BitVec.and_zero
  refine ofParse rfl ?_
  simp (disch := decide) only [parse, h1, h2, BitVec.reduceToNat, parseRow8, reservedZero, h3, reduceIte, fld_high, fld_low, Nat.reduceSub, BitVec.extractLsb'_eq_self]

theorem RoundTrip.ffma (d : Code) (a : Code) (b : Code) :
    RoundTrip.Statement (.ffma d a b) := by
  have h1 : fld (0x83#8 ++ d ++ a ++ b) 28 4 = 0x8#4 := by simp (disch := decide) only [fld_high, Nat.reduceSub]; rfl
  have h2 : fld (0x83#8 ++ d ++ a ++ b) 24 4 = 0x3#4 := by simp (disch := decide) only [fld_high, Nat.reduceSub]; rfl
  have h3 : (0x83#8 ++ d ++ a ++ b) &&& 0x0#32 = 0 := BitVec.and_zero
  refine ofParse rfl ?_
  simp (disch := decide) only [parse, h1, h2, BitVec.reduceToNat, parseRow8, reservedZero, h3, reduceIte, fld_high, fld_low, Nat.reduceSub, BitVec.extractLsb'_eq_self]

theorem RoundTrip.ffms (d : Code) (a : Code) (b : Code) :
    RoundTrip.Statement (.ffms d a b) := by
  have h1 : fld (0x84#8 ++ d ++ a ++ b) 28 4 = 0x8#4 := by simp (disch := decide) only [fld_high, Nat.reduceSub]; rfl
  have h2 : fld (0x84#8 ++ d ++ a ++ b) 24 4 = 0x4#4 := by simp (disch := decide) only [fld_high, Nat.reduceSub]; rfl
  have h3 : (0x84#8 ++ d ++ a ++ b) &&& 0x0#32 = 0 := BitVec.and_zero
  refine ofParse rfl ?_
  simp (disch := decide) only [parse, h1, h2, BitVec.reduceToNat, parseRow8, reservedZero, h3, reduceIte, fld_high, fld_low, Nat.reduceSub, BitVec.extractLsb'_eq_self]

theorem RoundTrip.fnma (d : Code) (a : Code) (b : Code) :
    RoundTrip.Statement (.fnma d a b) := by
  have h1 : fld (0x85#8 ++ d ++ a ++ b) 28 4 = 0x8#4 := by simp (disch := decide) only [fld_high, Nat.reduceSub]; rfl
  have h2 : fld (0x85#8 ++ d ++ a ++ b) 24 4 = 0x5#4 := by simp (disch := decide) only [fld_high, Nat.reduceSub]; rfl
  have h3 : (0x85#8 ++ d ++ a ++ b) &&& 0x0#32 = 0 := BitVec.and_zero
  refine ofParse rfl ?_
  simp (disch := decide) only [parse, h1, h2, BitVec.reduceToNat, parseRow8, reservedZero, h3, reduceIte, fld_high, fld_low, Nat.reduceSub, BitVec.extractLsb'_eq_self]

theorem RoundTrip.fmin (d : Code) (a : Code) (b : Code) :
    RoundTrip.Statement (.fmin d a b) := by
  have h1 : fld (0x86#8 ++ d ++ a ++ b) 28 4 = 0x8#4 := by simp (disch := decide) only [fld_high, Nat.reduceSub]; rfl
  have h2 : fld (0x86#8 ++ d ++ a ++ b) 24 4 = 0x6#4 := by simp (disch := decide) only [fld_high, Nat.reduceSub]; rfl
  have h3 : (0x86#8 ++ d ++ a ++ b) &&& 0x0#32 = 0 := BitVec.and_zero
  refine ofParse rfl ?_
  simp (disch := decide) only [parse, h1, h2, BitVec.reduceToNat, parseRow8, reservedZero, h3, reduceIte, fld_high, fld_low, Nat.reduceSub, BitVec.extractLsb'_eq_self]

theorem RoundTrip.fmax (d : Code) (a : Code) (b : Code) :
    RoundTrip.Statement (.fmax d a b) := by
  have h1 : fld (0x87#8 ++ d ++ a ++ b) 28 4 = 0x8#4 := by simp (disch := decide) only [fld_high, Nat.reduceSub]; rfl
  have h2 : fld (0x87#8 ++ d ++ a ++ b) 24 4 = 0x7#4 := by simp (disch := decide) only [fld_high, Nat.reduceSub]; rfl
  have h3 : (0x87#8 ++ d ++ a ++ b) &&& 0x0#32 = 0 := BitVec.and_zero
  refine ofParse rfl ?_
  simp (disch := decide) only [parse, h1, h2, BitVec.reduceToNat, parseRow8, reservedZero, h3, reduceIte, fld_high, fld_low, Nat.reduceSub, BitVec.extractLsb'_eq_self]

theorem RoundTrip.fabs (d : Code) (a : Code) :
    RoundTrip.Statement (.fabs d a) := by
  have h1 : fld (0x88#8 ++ d ++ a ++ 0x0#8) 28 4 = 0x8#4 := by simp (disch := decide) only [fld_high, Nat.reduceSub]; rfl
  have h2 : fld (0x88#8 ++ d ++ a ++ 0x0#8) 24 4 = 0x8#4 := by simp (disch := decide) only [fld_high, Nat.reduceSub]; rfl
  have h3 : (0x88#8 ++ d ++ a ++ 0x0#8) &&& 0xff#32 = 0 := (and0 (u := 0x0#24) (v := 0xFF#8) rfl (and0 (u := 0x0#16) (v := 0x0#8) rfl (and0 (u := 0x0#8) (v := 0x0#8) rfl rfl BitVec.and_zero) BitVec.and_zero) BitVec.zero_and)
  refine ofParse rfl ?_
  simp (disch := decide) only [parse, h1, h2, BitVec.reduceToNat, parseRow8, reservedZero, h3, reduceIte, fld_high, fld_low, Nat.reduceSub, BitVec.extractLsb'_eq_self]

theorem RoundTrip.fneg (d : Code) (a : Code) :
    RoundTrip.Statement (.fneg d a) := by
  have h1 : fld (0x89#8 ++ d ++ a ++ 0x0#8) 28 4 = 0x8#4 := by simp (disch := decide) only [fld_high, Nat.reduceSub]; rfl
  have h2 : fld (0x89#8 ++ d ++ a ++ 0x0#8) 24 4 = 0x9#4 := by simp (disch := decide) only [fld_high, Nat.reduceSub]; rfl
  have h3 : (0x89#8 ++ d ++ a ++ 0x0#8) &&& 0xff#32 = 0 := (and0 (u := 0x0#24) (v := 0xFF#8) rfl (and0 (u := 0x0#16) (v := 0x0#8) rfl (and0 (u := 0x0#8) (v := 0x0#8) rfl rfl BitVec.and_zero) BitVec.and_zero) BitVec.zero_and)
  refine ofParse rfl ?_
  simp (disch := decide) only [parse, h1, h2, BitVec.reduceToNat, parseRow8, reservedZero, h3, reduceIte, fld_high, fld_low, Nat.reduceSub, BitVec.extractLsb'_eq_self]

theorem RoundTrip.vmov (d : Code) (a : Code) :
    RoundTrip.Statement (.vmov d a) := by
  have h1 : fld (0x8A#8 ++ d ++ a ++ 0x0#8) 28 4 = 0x8#4 := by simp (disch := decide) only [fld_high, Nat.reduceSub]; rfl
  have h2 : fld (0x8A#8 ++ d ++ a ++ 0x0#8) 24 4 = 0xA#4 := by simp (disch := decide) only [fld_high, Nat.reduceSub]; rfl
  have h3 : (0x8A#8 ++ d ++ a ++ 0x0#8) &&& 0xff#32 = 0 := (and0 (u := 0x0#24) (v := 0xFF#8) rfl (and0 (u := 0x0#16) (v := 0x0#8) rfl (and0 (u := 0x0#8) (v := 0x0#8) rfl rfl BitVec.and_zero) BitVec.and_zero) BitVec.zero_and)
  refine ofParse rfl ?_
  simp (disch := decide) only [parse, h1, h2, BitVec.reduceToNat, parseRow8, reservedZero, h3, reduceIte, fld_high, fld_low, Nat.reduceSub, BitVec.extractLsb'_eq_self]

theorem RoundTrip.fcmpeq (d : Code) (a : Code) (b : Code) :
    RoundTrip.Statement (.fcmpeq d a b) := by
  have h1 : fld (0x8B#8 ++ d ++ a ++ b) 28 4 = 0x8#4 := by simp (disch := decide) only [fld_high, Nat.reduceSub]; rfl
  have h2 : fld (0x8B#8 ++ d ++ a ++ b) 24 4 = 0xB#4 := by simp (disch := decide) only [fld_high, Nat.reduceSub]; rfl
  have h3 : (0x8B#8 ++ d ++ a ++ b) &&& 0x0#32 = 0 := BitVec.and_zero
  refine ofParse rfl ?_
  simp (disch := decide) only [parse, h1, h2, BitVec.reduceToNat, parseRow8, reservedZero, h3, reduceIte, fld_high, fld_low, Nat.reduceSub, BitVec.extractLsb'_eq_self]

theorem RoundTrip.fcmplt (d : Code) (a : Code) (b : Code) :
    RoundTrip.Statement (.fcmplt d a b) := by
  have h1 : fld (0x8C#8 ++ d ++ a ++ b) 28 4 = 0x8#4 := by simp (disch := decide) only [fld_high, Nat.reduceSub]; rfl
  have h2 : fld (0x8C#8 ++ d ++ a ++ b) 24 4 = 0xC#4 := by simp (disch := decide) only [fld_high, Nat.reduceSub]; rfl
  have h3 : (0x8C#8 ++ d ++ a ++ b) &&& 0x0#32 = 0 := BitVec.and_zero
  refine ofParse rfl ?_
  simp (disch := decide) only [parse, h1, h2, BitVec.reduceToNat, parseRow8, reservedZero, h3, reduceIte, fld_high, fld_low, Nat.reduceSub, BitVec.extractLsb'_eq_self]

theorem RoundTrip.fcmple (d : Code) (a : Code) (b : Code) :
    RoundTrip.Statement (.fcmple d a b) := by
  have h1 : fld (0x8D#8 ++ d ++ a ++ b) 28 4 = 0x8#4 := by simp (disch := decide) only [fld_high, Nat.reduceSub]; rfl
  have h2 : fld (0x8D#8 ++ d ++ a ++ b) 24 4 = 0xD#4 := by simp (disch := decide) only [fld_high, Nat.reduceSub]; rfl
  have h3 : (0x8D#8 ++ d ++ a ++ b) &&& 0x0#32 = 0 := BitVec.and_zero
  refine ofParse rfl ?_
  simp (disch := decide) only [parse, h1, h2, BitVec.reduceToNat, parseRow8, reservedZero, h3, reduceIte, fld_high, fld_low, Nat.reduceSub, BitVec.extractLsb'_eq_self]

theorem RoundTrip.fcmpun (d : Code) (a : Code) (b : Code) :
    RoundTrip.Statement (.fcmpun d a b) := by
  have h1 : fld (0x8E#8 ++ d ++ a ++ b) 28 4 = 0x8#4 := by simp (disch := decide) only [fld_high, Nat.reduceSub]; rfl
  have h2 : fld (0x8E#8 ++ d ++ a ++ b) 24 4 = 0xE#4 := by simp (disch := decide) only [fld_high, Nat.reduceSub]; rfl
  have h3 : (0x8E#8 ++ d ++ a ++ b) &&& 0x0#32 = 0 := BitVec.and_zero
  refine ofParse rfl ?_
  simp (disch := decide) only [parse, h1, h2, BitVec.reduceToNat, parseRow8, reservedZero, h3, reduceIte, fld_high, fld_low, Nat.reduceSub, BitVec.extractLsb'_eq_self]

theorem RoundTrip.fclass (d : Code) (a : Code) :
    RoundTrip.Statement (.fclass d a) := by
  have h1 : fld (0x8F#8 ++ d ++ a ++ 0x0#8) 28 4 = 0x8#4 := by simp (disch := decide) only [fld_high, Nat.reduceSub]; rfl
  have h2 : fld (0x8F#8 ++ d ++ a ++ 0x0#8) 24 4 = 0xF#4 := by simp (disch := decide) only [fld_high, Nat.reduceSub]; rfl
  have h3 : (0x8F#8 ++ d ++ a ++ 0x0#8) &&& 0xff#32 = 0 := (and0 (u := 0x0#24) (v := 0xFF#8) rfl (and0 (u := 0x0#16) (v := 0x0#8) rfl (and0 (u := 0x0#8) (v := 0x0#8) rfl rfl BitVec.and_zero) BitVec.and_zero) BitVec.zero_and)
  refine ofParse rfl ?_
  simp (disch := decide) only [parse, h1, h2, BitVec.reduceToNat, parseRow8, reservedZero, h3, reduceIte, fld_high, fld_low, Nat.reduceSub, BitVec.extractLsb'_eq_self]

theorem RoundTrip.frcp (d : Code) (a : Code) :
    RoundTrip.Statement (.frcp d a) := by
  have h1 : fld (0x90#8 ++ d ++ a ++ 0x0#8) 28 4 = 0x9#4 := by simp (disch := decide) only [fld_high, Nat.reduceSub]; rfl
  have h2 : fld (0x90#8 ++ d ++ a ++ 0x0#8) 24 4 = 0x0#4 := by simp (disch := decide) only [fld_high, Nat.reduceSub]; rfl
  have h3 : (0x90#8 ++ d ++ a ++ 0x0#8) &&& 0xff#32 = 0 := (and0 (u := 0x0#24) (v := 0xFF#8) rfl (and0 (u := 0x0#16) (v := 0x0#8) rfl (and0 (u := 0x0#8) (v := 0x0#8) rfl rfl BitVec.and_zero) BitVec.and_zero) BitVec.zero_and)
  refine ofParse rfl ?_
  simp (disch := decide) only [parse, h1, h2, BitVec.reduceToNat, parseRow9, reservedZero, h3, reduceIte, fld_high, fld_low, Nat.reduceSub, BitVec.extractLsb'_eq_self]

theorem RoundTrip.frsq (d : Code) (a : Code) :
    RoundTrip.Statement (.frsq d a) := by
  have h1 : fld (0x91#8 ++ d ++ a ++ 0x0#8) 28 4 = 0x9#4 := by simp (disch := decide) only [fld_high, Nat.reduceSub]; rfl
  have h2 : fld (0x91#8 ++ d ++ a ++ 0x0#8) 24 4 = 0x1#4 := by simp (disch := decide) only [fld_high, Nat.reduceSub]; rfl
  have h3 : (0x91#8 ++ d ++ a ++ 0x0#8) &&& 0xff#32 = 0 := (and0 (u := 0x0#24) (v := 0xFF#8) rfl (and0 (u := 0x0#16) (v := 0x0#8) rfl (and0 (u := 0x0#8) (v := 0x0#8) rfl rfl BitVec.and_zero) BitVec.and_zero) BitVec.zero_and)
  refine ofParse rfl ?_
  simp (disch := decide) only [parse, h1, h2, BitVec.reduceToNat, parseRow9, reservedZero, h3, reduceIte, fld_high, fld_low, Nat.reduceSub, BitVec.extractLsb'_eq_self]

theorem RoundTrip.fsqrt (d : Code) (a : Code) :
    RoundTrip.Statement (.fsqrt d a) := by
  have h1 : fld (0x92#8 ++ d ++ a ++ 0x0#8) 28 4 = 0x9#4 := by simp (disch := decide) only [fld_high, Nat.reduceSub]; rfl
  have h2 : fld (0x92#8 ++ d ++ a ++ 0x0#8) 24 4 = 0x2#4 := by simp (disch := decide) only [fld_high, Nat.reduceSub]; rfl
  have h3 : (0x92#8 ++ d ++ a ++ 0x0#8) &&& 0xff#32 = 0 := (and0 (u := 0x0#24) (v := 0xFF#8) rfl (and0 (u := 0x0#16) (v := 0x0#8) rfl (and0 (u := 0x0#8) (v := 0x0#8) rfl rfl BitVec.and_zero) BitVec.and_zero) BitVec.zero_and)
  refine ofParse rfl ?_
  simp (disch := decide) only [parse, h1, h2, BitVec.reduceToNat, parseRow9, reservedZero, h3, reduceIte, fld_high, fld_low, Nat.reduceSub, BitVec.extractLsb'_eq_self]

theorem RoundTrip.fdiv (d : Code) (a : Code) (b : Code) :
    RoundTrip.Statement (.fdiv d a b) := by
  have h1 : fld (0x93#8 ++ d ++ a ++ b) 28 4 = 0x9#4 := by simp (disch := decide) only [fld_high, Nat.reduceSub]; rfl
  have h2 : fld (0x93#8 ++ d ++ a ++ b) 24 4 = 0x3#4 := by simp (disch := decide) only [fld_high, Nat.reduceSub]; rfl
  have h3 : (0x93#8 ++ d ++ a ++ b) &&& 0x0#32 = 0 := BitVec.and_zero
  refine ofParse rfl ?_
  simp (disch := decide) only [parse, h1, h2, BitVec.reduceToNat, parseRow9, reservedZero, h3, reduceIte, fld_high, fld_low, Nat.reduceSub, BitVec.extractLsb'_eq_self]

theorem RoundTrip.fexp2 (d : Code) (a : Code) :
    RoundTrip.Statement (.fexp2 d a) := by
  have h1 : fld (0x94#8 ++ d ++ a ++ 0x0#8) 28 4 = 0x9#4 := by simp (disch := decide) only [fld_high, Nat.reduceSub]; rfl
  have h2 : fld (0x94#8 ++ d ++ a ++ 0x0#8) 24 4 = 0x4#4 := by simp (disch := decide) only [fld_high, Nat.reduceSub]; rfl
  have h3 : (0x94#8 ++ d ++ a ++ 0x0#8) &&& 0xff#32 = 0 := (and0 (u := 0x0#24) (v := 0xFF#8) rfl (and0 (u := 0x0#16) (v := 0x0#8) rfl (and0 (u := 0x0#8) (v := 0x0#8) rfl rfl BitVec.and_zero) BitVec.and_zero) BitVec.zero_and)
  refine ofParse rfl ?_
  simp (disch := decide) only [parse, h1, h2, BitVec.reduceToNat, parseRow9, reservedZero, h3, reduceIte, fld_high, fld_low, Nat.reduceSub, BitVec.extractLsb'_eq_self]

theorem RoundTrip.flog2 (d : Code) (a : Code) :
    RoundTrip.Statement (.flog2 d a) := by
  have h1 : fld (0x95#8 ++ d ++ a ++ 0x0#8) 28 4 = 0x9#4 := by simp (disch := decide) only [fld_high, Nat.reduceSub]; rfl
  have h2 : fld (0x95#8 ++ d ++ a ++ 0x0#8) 24 4 = 0x5#4 := by simp (disch := decide) only [fld_high, Nat.reduceSub]; rfl
  have h3 : (0x95#8 ++ d ++ a ++ 0x0#8) &&& 0xff#32 = 0 := (and0 (u := 0x0#24) (v := 0xFF#8) rfl (and0 (u := 0x0#16) (v := 0x0#8) rfl (and0 (u := 0x0#8) (v := 0x0#8) rfl rfl BitVec.and_zero) BitVec.and_zero) BitVec.zero_and)
  refine ofParse rfl ?_
  simp (disch := decide) only [parse, h1, h2, BitVec.reduceToNat, parseRow9, reservedZero, h3, reduceIte, fld_high, fld_low, Nat.reduceSub, BitVec.extractLsb'_eq_self]

theorem RoundTrip.fhadd (d : Code) (a : Code) (b : Code) :
    RoundTrip.Statement (.fhadd d a b) := by
  have h1 : fld (0x96#8 ++ d ++ a ++ b) 28 4 = 0x9#4 := by simp (disch := decide) only [fld_high, Nat.reduceSub]; rfl
  have h2 : fld (0x96#8 ++ d ++ a ++ b) 24 4 = 0x6#4 := by simp (disch := decide) only [fld_high, Nat.reduceSub]; rfl
  have h3 : (0x96#8 ++ d ++ a ++ b) &&& 0x0#32 = 0 := BitVec.and_zero
  refine ofParse rfl ?_
  simp (disch := decide) only [parse, h1, h2, BitVec.reduceToNat, parseRow9, reservedZero, h3, reduceIte, fld_high, fld_low, Nat.reduceSub, BitVec.extractLsb'_eq_self]

theorem RoundTrip.fhmul (d : Code) (a : Code) (b : Code) :
    RoundTrip.Statement (.fhmul d a b) := by
  have h1 : fld (0x97#8 ++ d ++ a ++ b) 28 4 = 0x9#4 := by simp (disch := decide) only [fld_high, Nat.reduceSub]; rfl
  have h2 : fld (0x97#8 ++ d ++ a ++ b) 24 4 = 0x7#4 := by simp (disch := decide) only [fld_high, Nat.reduceSub]; rfl
  have h3 : (0x97#8 ++ d ++ a ++ b) &&& 0x0#32 = 0 := BitVec.and_zero
  refine ofParse rfl ?_
  simp (disch := decide) only [parse, h1, h2, BitVec.reduceToNat, parseRow9, reservedZero, h3, reduceIte, fld_high, fld_low, Nat.reduceSub, BitVec.extractLsb'_eq_self]

theorem RoundTrip.fhfma (d : Code) (a : Code) (b : Code) :
    RoundTrip.Statement (.fhfma d a b) := by
  have h1 : fld (0x98#8 ++ d ++ a ++ b) 28 4 = 0x9#4 := by simp (disch := decide) only [fld_high, Nat.reduceSub]; rfl
  have h2 : fld (0x98#8 ++ d ++ a ++ b) 24 4 = 0x8#4 := by simp (disch := decide) only [fld_high, Nat.reduceSub]; rfl
  have h3 : (0x98#8 ++ d ++ a ++ b) &&& 0x0#32 = 0 := BitVec.and_zero
  refine ofParse rfl ?_
  simp (disch := decide) only [parse, h1, h2, BitVec.reduceToNat, parseRow9, reservedZero, h3, reduceIte, fld_high, fld_low, Nat.reduceSub, BitVec.extractLsb'_eq_self]

theorem RoundTrip.fhmin (d : Code) (a : Code) (b : Code) :
    RoundTrip.Statement (.fhmin d a b) := by
  have h1 : fld (0x99#8 ++ d ++ a ++ b) 28 4 = 0x9#4 := by simp (disch := decide) only [fld_high, Nat.reduceSub]; rfl
  have h2 : fld (0x99#8 ++ d ++ a ++ b) 24 4 = 0x9#4 := by simp (disch := decide) only [fld_high, Nat.reduceSub]; rfl
  have h3 : (0x99#8 ++ d ++ a ++ b) &&& 0x0#32 = 0 := BitVec.and_zero
  refine ofParse rfl ?_
  simp (disch := decide) only [parse, h1, h2, BitVec.reduceToNat, parseRow9, reservedZero, h3, reduceIte, fld_high, fld_low, Nat.reduceSub, BitVec.extractLsb'_eq_self]

theorem RoundTrip.fhmax (d : Code) (a : Code) (b : Code) :
    RoundTrip.Statement (.fhmax d a b) := by
  have h1 : fld (0x9A#8 ++ d ++ a ++ b) 28 4 = 0x9#4 := by simp (disch := decide) only [fld_high, Nat.reduceSub]; rfl
  have h2 : fld (0x9A#8 ++ d ++ a ++ b) 24 4 = 0xA#4 := by simp (disch := decide) only [fld_high, Nat.reduceSub]; rfl
  have h3 : (0x9A#8 ++ d ++ a ++ b) &&& 0x0#32 = 0 := BitVec.and_zero
  refine ofParse rfl ?_
  simp (disch := decide) only [parse, h1, h2, BitVec.reduceToNat, parseRow9, reservedZero, h3, reduceIte, fld_high, fld_low, Nat.reduceSub, BitVec.extractLsb'_eq_self]

theorem RoundTrip.fdot2 (d : Code) (a : Code) (b : Code) :
    RoundTrip.Statement (.fdot2 d a b) := by
  have h1 : fld (0x9B#8 ++ d ++ a ++ b) 28 4 = 0x9#4 := by simp (disch := decide) only [fld_high, Nat.reduceSub]; rfl
  have h2 : fld (0x9B#8 ++ d ++ a ++ b) 24 4 = 0xB#4 := by simp (disch := decide) only [fld_high, Nat.reduceSub]; rfl
  have h3 : (0x9B#8 ++ d ++ a ++ b) &&& 0x0#32 = 0 := BitVec.and_zero
  refine ofParse rfl ?_
  simp (disch := decide) only [parse, h1, h2, BitVec.reduceToNat, parseRow9, reservedZero, h3, reduceIte, fld_high, fld_low, Nat.reduceSub, BitVec.extractLsb'_eq_self]

theorem RoundTrip.fsel (d : Code) (a : Code) (b : Code) :
    RoundTrip.Statement (.fsel d a b) := by
  have h1 : fld (0x9C#8 ++ d ++ a ++ b) 28 4 = 0x9#4 := by simp (disch := decide) only [fld_high, Nat.reduceSub]; rfl
  have h2 : fld (0x9C#8 ++ d ++ a ++ b) 24 4 = 0xC#4 := by simp (disch := decide) only [fld_high, Nat.reduceSub]; rfl
  have h3 : (0x9C#8 ++ d ++ a ++ b) &&& 0x0#32 = 0 := BitVec.and_zero
  refine ofParse rfl ?_
  simp (disch := decide) only [parse, h1, h2, BitVec.reduceToNat, parseRow9, reservedZero, h3, reduceIte, fld_high, fld_low, Nat.reduceSub, BitVec.extractLsb'_eq_self]

theorem RoundTrip.fscale (d : Code) (a : Code) (b : Code) :
    RoundTrip.Statement (.fscale d a b) := by
  have h1 : fld (0x9D#8 ++ d ++ a ++ b) 28 4 = 0x9#4 := by simp (disch := decide) only [fld_high, Nat.reduceSub]; rfl
  have h2 : fld (0x9D#8 ++ d ++ a ++ b) 24 4 = 0xD#4 := by simp (disch := decide) only [fld_high, Nat.reduceSub]; rfl
  have h3 : (0x9D#8 ++ d ++ a ++ b) &&& 0x0#32 = 0 := BitVec.and_zero
  refine ofParse rfl ?_
  simp (disch := decide) only [parse, h1, h2, BitVec.reduceToNat, parseRow9, reservedZero, h3, reduceIte, fld_high, fld_low, Nat.reduceSub, BitVec.extractLsb'_eq_self]

theorem RoundTrip.fgetexp (d : Code) (a : Code) :
    RoundTrip.Statement (.fgetexp d a) := by
  have h1 : fld (0x9E#8 ++ d ++ a ++ 0x0#8) 28 4 = 0x9#4 := by simp (disch := decide) only [fld_high, Nat.reduceSub]; rfl
  have h2 : fld (0x9E#8 ++ d ++ a ++ 0x0#8) 24 4 = 0xE#4 := by simp (disch := decide) only [fld_high, Nat.reduceSub]; rfl
  have h3 : (0x9E#8 ++ d ++ a ++ 0x0#8) &&& 0xff#32 = 0 := (and0 (u := 0x0#24) (v := 0xFF#8) rfl (and0 (u := 0x0#16) (v := 0x0#8) rfl (and0 (u := 0x0#8) (v := 0x0#8) rfl rfl BitVec.and_zero) BitVec.and_zero) BitVec.zero_and)
  refine ofParse rfl ?_
  simp (disch := decide) only [parse, h1, h2, BitVec.reduceToNat, parseRow9, reservedZero, h3, reduceIte, fld_high, fld_low, Nat.reduceSub, BitVec.extractLsb'_eq_self]

theorem RoundTrip.fcopysign (d : Code) (a : Code) (b : Code) :
    RoundTrip.Statement (.fcopysign d a b) := by
  have h1 : fld (0x9F#8 ++ d ++ a ++ b) 28 4 = 0x9#4 := by simp (disch := decide) only [fld_high, Nat.reduceSub]; rfl
  have h2 : fld (0x9F#8 ++ d ++ a ++ b) 24 4 = 0xF#4 := by simp (disch := decide) only [fld_high, Nat.reduceSub]; rfl
  have h3 : (0x9F#8 ++ d ++ a ++ b) &&& 0x0#32 = 0 := BitVec.and_zero
  refine ofParse rfl ?_
  simp (disch := decide) only [parse, h1, h2, BitVec.reduceToNat, parseRow9, reservedZero, h3, reduceIte, fld_high, fld_low, Nat.reduceSub, BitVec.extractLsb'_eq_self]

theorem RoundTrip.ldb (d : Code) (a : Code) (n : BitVec 6) (s : BitVec 2) :
    RoundTrip.Statement (.ldb d a n s) := by
  have h1 : fld (0xA0#8 ++ d ++ a ++ n ++ s) 28 4 = 0xA#4 := by simp (disch := decide) only [fld_high, Nat.reduceSub]; rfl
  have h2 : fld (0xA0#8 ++ d ++ a ++ n ++ s) 24 4 = 0x0#4 := by simp (disch := decide) only [fld_high, Nat.reduceSub]; rfl
  have h3 : (0xA0#8 ++ d ++ a ++ n ++ s) &&& 0x0#32 = 0 := BitVec.and_zero
  refine ofParse rfl ?_
  simp (disch := decide) only [parse, h1, h2, BitVec.reduceToNat, parseRowA, reservedZero, h3, reduceIte, fld_high, fld_low, Nat.reduceSub, BitVec.extractLsb'_eq_self]

theorem RoundTrip.ldbs (d : Code) (a : Code) (n : BitVec 6) (s : BitVec 2) :
    RoundTrip.Statement (.ldbs d a n s) := by
  have h1 : fld (0xA1#8 ++ d ++ a ++ n ++ s) 28 4 = 0xA#4 := by simp (disch := decide) only [fld_high, Nat.reduceSub]; rfl
  have h2 : fld (0xA1#8 ++ d ++ a ++ n ++ s) 24 4 = 0x1#4 := by simp (disch := decide) only [fld_high, Nat.reduceSub]; rfl
  have h3 : (0xA1#8 ++ d ++ a ++ n ++ s) &&& 0x0#32 = 0 := BitVec.and_zero
  refine ofParse rfl ?_
  simp (disch := decide) only [parse, h1, h2, BitVec.reduceToNat, parseRowA, reservedZero, h3, reduceIte, fld_high, fld_low, Nat.reduceSub, BitVec.extractLsb'_eq_self]

theorem RoundTrip.ldh (d : Code) (a : Code) (n : BitVec 6) (s : BitVec 2) :
    RoundTrip.Statement (.ldh d a n s) := by
  have h1 : fld (0xA2#8 ++ d ++ a ++ n ++ s) 28 4 = 0xA#4 := by simp (disch := decide) only [fld_high, Nat.reduceSub]; rfl
  have h2 : fld (0xA2#8 ++ d ++ a ++ n ++ s) 24 4 = 0x2#4 := by simp (disch := decide) only [fld_high, Nat.reduceSub]; rfl
  have h3 : (0xA2#8 ++ d ++ a ++ n ++ s) &&& 0x0#32 = 0 := BitVec.and_zero
  refine ofParse rfl ?_
  simp (disch := decide) only [parse, h1, h2, BitVec.reduceToNat, parseRowA, reservedZero, h3, reduceIte, fld_high, fld_low, Nat.reduceSub, BitVec.extractLsb'_eq_self]

theorem RoundTrip.ldhs (d : Code) (a : Code) (n : BitVec 6) (s : BitVec 2) :
    RoundTrip.Statement (.ldhs d a n s) := by
  have h1 : fld (0xA3#8 ++ d ++ a ++ n ++ s) 28 4 = 0xA#4 := by simp (disch := decide) only [fld_high, Nat.reduceSub]; rfl
  have h2 : fld (0xA3#8 ++ d ++ a ++ n ++ s) 24 4 = 0x3#4 := by simp (disch := decide) only [fld_high, Nat.reduceSub]; rfl
  have h3 : (0xA3#8 ++ d ++ a ++ n ++ s) &&& 0x0#32 = 0 := BitVec.and_zero
  refine ofParse rfl ?_
  simp (disch := decide) only [parse, h1, h2, BitVec.reduceToNat, parseRowA, reservedZero, h3, reduceIte, fld_high, fld_low, Nat.reduceSub, BitVec.extractLsb'_eq_self]

theorem RoundTrip.ldw (d : Code) (a : Code) (n : BitVec 6) (s : BitVec 2) :
    RoundTrip.Statement (.ldw d a n s) := by
  have h1 : fld (0xA4#8 ++ d ++ a ++ n ++ s) 28 4 = 0xA#4 := by simp (disch := decide) only [fld_high, Nat.reduceSub]; rfl
  have h2 : fld (0xA4#8 ++ d ++ a ++ n ++ s) 24 4 = 0x4#4 := by simp (disch := decide) only [fld_high, Nat.reduceSub]; rfl
  have h3 : (0xA4#8 ++ d ++ a ++ n ++ s) &&& 0x0#32 = 0 := BitVec.and_zero
  refine ofParse rfl ?_
  simp (disch := decide) only [parse, h1, h2, BitVec.reduceToNat, parseRowA, reservedZero, h3, reduceIte, fld_high, fld_low, Nat.reduceSub, BitVec.extractLsb'_eq_self]

theorem RoundTrip.ldd (d : Code) (a : Code) (n : BitVec 6) (s : BitVec 2) :
    RoundTrip.Statement (.ldd d a n s) := by
  have h1 : fld (0xA5#8 ++ d ++ a ++ n ++ s) 28 4 = 0xA#4 := by simp (disch := decide) only [fld_high, Nat.reduceSub]; rfl
  have h2 : fld (0xA5#8 ++ d ++ a ++ n ++ s) 24 4 = 0x5#4 := by simp (disch := decide) only [fld_high, Nat.reduceSub]; rfl
  have h3 : (0xA5#8 ++ d ++ a ++ n ++ s) &&& 0x0#32 = 0 := BitVec.and_zero
  refine ofParse rfl ?_
  simp (disch := decide) only [parse, h1, h2, BitVec.reduceToNat, parseRowA, reservedZero, h3, reduceIte, fld_high, fld_low, Nat.reduceSub, BitVec.extractLsb'_eq_self]

theorem RoundTrip.ldq (d : Code) (a : Code) (n : BitVec 6) (s : BitVec 2) :
    RoundTrip.Statement (.ldq d a n s) := by
  have h1 : fld (0xA6#8 ++ d ++ a ++ n ++ s) 28 4 = 0xA#4 := by simp (disch := decide) only [fld_high, Nat.reduceSub]; rfl
  have h2 : fld (0xA6#8 ++ d ++ a ++ n ++ s) 24 4 = 0x6#4 := by simp (disch := decide) only [fld_high, Nat.reduceSub]; rfl
  have h3 : (0xA6#8 ++ d ++ a ++ n ++ s) &&& 0x0#32 = 0 := BitVec.and_zero
  refine ofParse rfl ?_
  simp (disch := decide) only [parse, h1, h2, BitVec.reduceToNat, parseRowA, reservedZero, h3, reduceIte, fld_high, fld_low, Nat.reduceSub, BitVec.extractLsb'_eq_self]

theorem RoundTrip.ldAcq (d : Code) (a : Code) (c : BitVec 3) (r : BitVec 1) (w : BitVec 1) (s : BitVec 2) :
    RoundTrip.Statement (.ldAcq d a c r w s) := by
  have h1 : fld (0xA7#8 ++ d ++ a ++ c ++ r ++ 0x0#1 ++ w ++ s) 28 4 = 0xA#4 := by simp (disch := decide) only [fld_high, Nat.reduceSub]; rfl
  have h2 : fld (0xA7#8 ++ d ++ a ++ c ++ r ++ 0x0#1 ++ w ++ s) 24 4 = 0x7#4 := by simp (disch := decide) only [fld_high, Nat.reduceSub]; rfl
  have h3 : (0xA7#8 ++ d ++ a ++ c ++ r ++ 0x0#1 ++ w ++ s) &&& 0x8#32 = 0 := (and0 (u := 0x2#30) (v := 0x0#2) rfl (and0 (u := 0x1#29) (v := 0x0#1) rfl (and0 (u := 0x0#28) (v := 0x1#1) rfl (and0 (u := 0x0#27) (v := 0x0#1) rfl (and0 (u := 0x0#24) (v := 0x0#3) rfl (and0 (u := 0x0#16) (v := 0x0#8) rfl (and0 (u := 0x0#8) (v := 0x0#8) rfl rfl BitVec.and_zero) BitVec.and_zero) BitVec.and_zero) BitVec.and_zero) BitVec.zero_and) BitVec.and_zero) BitVec.and_zero)
  refine ofParse rfl ?_
  simp (disch := decide) only [parse, h1, h2, BitVec.reduceToNat, parseRowA, reservedZero, h3, reduceIte, fld_high, fld_low, Nat.reduceSub, BitVec.extractLsb'_eq_self]

theorem RoundTrip.stb (d : Code) (a : Code) (n : BitVec 6) (s : BitVec 2) :
    RoundTrip.Statement (.stb d a n s) := by
  have h1 : fld (0xA8#8 ++ d ++ a ++ n ++ s) 28 4 = 0xA#4 := by simp (disch := decide) only [fld_high, Nat.reduceSub]; rfl
  have h2 : fld (0xA8#8 ++ d ++ a ++ n ++ s) 24 4 = 0x8#4 := by simp (disch := decide) only [fld_high, Nat.reduceSub]; rfl
  have h3 : (0xA8#8 ++ d ++ a ++ n ++ s) &&& 0x0#32 = 0 := BitVec.and_zero
  refine ofParse rfl ?_
  simp (disch := decide) only [parse, h1, h2, BitVec.reduceToNat, parseRowA, reservedZero, h3, reduceIte, fld_high, fld_low, Nat.reduceSub, BitVec.extractLsb'_eq_self]

theorem RoundTrip.sth (d : Code) (a : Code) (n : BitVec 6) (s : BitVec 2) :
    RoundTrip.Statement (.sth d a n s) := by
  have h1 : fld (0xA9#8 ++ d ++ a ++ n ++ s) 28 4 = 0xA#4 := by simp (disch := decide) only [fld_high, Nat.reduceSub]; rfl
  have h2 : fld (0xA9#8 ++ d ++ a ++ n ++ s) 24 4 = 0x9#4 := by simp (disch := decide) only [fld_high, Nat.reduceSub]; rfl
  have h3 : (0xA9#8 ++ d ++ a ++ n ++ s) &&& 0x0#32 = 0 := BitVec.and_zero
  refine ofParse rfl ?_
  simp (disch := decide) only [parse, h1, h2, BitVec.reduceToNat, parseRowA, reservedZero, h3, reduceIte, fld_high, fld_low, Nat.reduceSub, BitVec.extractLsb'_eq_self]

theorem RoundTrip.stw (d : Code) (a : Code) (n : BitVec 6) (s : BitVec 2) :
    RoundTrip.Statement (.stw d a n s) := by
  have h1 : fld (0xAA#8 ++ d ++ a ++ n ++ s) 28 4 = 0xA#4 := by simp (disch := decide) only [fld_high, Nat.reduceSub]; rfl
  have h2 : fld (0xAA#8 ++ d ++ a ++ n ++ s) 24 4 = 0xA#4 := by simp (disch := decide) only [fld_high, Nat.reduceSub]; rfl
  have h3 : (0xAA#8 ++ d ++ a ++ n ++ s) &&& 0x0#32 = 0 := BitVec.and_zero
  refine ofParse rfl ?_
  simp (disch := decide) only [parse, h1, h2, BitVec.reduceToNat, parseRowA, reservedZero, h3, reduceIte, fld_high, fld_low, Nat.reduceSub, BitVec.extractLsb'_eq_self]

theorem RoundTrip.std (d : Code) (a : Code) (n : BitVec 6) (s : BitVec 2) :
    RoundTrip.Statement (.std d a n s) := by
  have h1 : fld (0xAB#8 ++ d ++ a ++ n ++ s) 28 4 = 0xA#4 := by simp (disch := decide) only [fld_high, Nat.reduceSub]; rfl
  have h2 : fld (0xAB#8 ++ d ++ a ++ n ++ s) 24 4 = 0xB#4 := by simp (disch := decide) only [fld_high, Nat.reduceSub]; rfl
  have h3 : (0xAB#8 ++ d ++ a ++ n ++ s) &&& 0x0#32 = 0 := BitVec.and_zero
  refine ofParse rfl ?_
  simp (disch := decide) only [parse, h1, h2, BitVec.reduceToNat, parseRowA, reservedZero, h3, reduceIte, fld_high, fld_low, Nat.reduceSub, BitVec.extractLsb'_eq_self]

theorem RoundTrip.stq (d : Code) (a : Code) (n : BitVec 6) (s : BitVec 2) :
    RoundTrip.Statement (.stq d a n s) := by
  have h1 : fld (0xAC#8 ++ d ++ a ++ n ++ s) 28 4 = 0xA#4 := by simp (disch := decide) only [fld_high, Nat.reduceSub]; rfl
  have h2 : fld (0xAC#8 ++ d ++ a ++ n ++ s) 24 4 = 0xC#4 := by simp (disch := decide) only [fld_high, Nat.reduceSub]; rfl
  have h3 : (0xAC#8 ++ d ++ a ++ n ++ s) &&& 0x0#32 = 0 := BitVec.and_zero
  refine ofParse rfl ?_
  simp (disch := decide) only [parse, h1, h2, BitVec.reduceToNat, parseRowA, reservedZero, h3, reduceIte, fld_high, fld_low, Nat.reduceSub, BitVec.extractLsb'_eq_self]

theorem RoundTrip.stRel (d : Code) (a : Code) (c : BitVec 3) (l : BitVec 1) (w : BitVec 1) (s : BitVec 2) :
    RoundTrip.Statement (.stRel d a c l w s) := by
  have h1 : fld (0xAD#8 ++ d ++ a ++ c ++ l ++ 0x0#1 ++ w ++ s) 28 4 = 0xA#4 := by simp (disch := decide) only [fld_high, Nat.reduceSub]; rfl
  have h2 : fld (0xAD#8 ++ d ++ a ++ c ++ l ++ 0x0#1 ++ w ++ s) 24 4 = 0xD#4 := by simp (disch := decide) only [fld_high, Nat.reduceSub]; rfl
  have h3 : (0xAD#8 ++ d ++ a ++ c ++ l ++ 0x0#1 ++ w ++ s) &&& 0x8#32 = 0 := (and0 (u := 0x2#30) (v := 0x0#2) rfl (and0 (u := 0x1#29) (v := 0x0#1) rfl (and0 (u := 0x0#28) (v := 0x1#1) rfl (and0 (u := 0x0#27) (v := 0x0#1) rfl (and0 (u := 0x0#24) (v := 0x0#3) rfl (and0 (u := 0x0#16) (v := 0x0#8) rfl (and0 (u := 0x0#8) (v := 0x0#8) rfl rfl BitVec.and_zero) BitVec.and_zero) BitVec.and_zero) BitVec.and_zero) BitVec.zero_and) BitVec.and_zero) BitVec.and_zero)
  refine ofParse rfl ?_
  simp (disch := decide) only [parse, h1, h2, BitVec.reduceToNat, parseRowA, reservedZero, h3, reduceIte, fld_high, fld_low, Nat.reduceSub, BitVec.extractLsb'_eq_self]

theorem RoundTrip.pref (l : BitVec 1) (a : Code) (n : BitVec 6) (s : BitVec 1) :
    RoundTrip.Statement (.pref l a n s) := by
  have h1 : fld (0xAE#8 ++ 0x0#7 ++ l ++ a ++ n ++ 0x0#1 ++ s) 28 4 = 0xA#4 := by simp (disch := decide) only [fld_high, Nat.reduceSub]; rfl
  have h2 : fld (0xAE#8 ++ 0x0#7 ++ l ++ a ++ n ++ 0x0#1 ++ s) 24 4 = 0xE#4 := by simp (disch := decide) only [fld_high, Nat.reduceSub]; rfl
  have h3 : (0xAE#8 ++ 0x0#7 ++ l ++ a ++ n ++ 0x0#1 ++ s) &&& 0xfe0002#32 = 0 := (and0 (u := 0x7F0001#31) (v := 0x0#1) rfl (and0 (u := 0x3F8000#30) (v := 0x1#1) rfl (and0 (u := 0xFE00#24) (v := 0x0#6) rfl (and0 (u := 0xFE#16) (v := 0x0#8) rfl (and0 (u := 0x7F#15) (v := 0x0#1) rfl (and0 (u := 0x0#8) (v := 0x7F#7) rfl rfl BitVec.zero_and) BitVec.and_zero) BitVec.and_zero) BitVec.and_zero) BitVec.zero_and) BitVec.and_zero)
  refine ofParse rfl ?_
  simp (disch := decide) only [parse, h1, h2, BitVec.reduceToNat, parseRowA, reservedZero, h3, reduceIte, fld_high, fld_low, Nat.reduceSub, BitVec.extractLsb'_eq_self]

theorem RoundTrip.pglob (d : Code) (a : Code) :
    RoundTrip.Statement (.pglob d a) := by
  have h1 : fld (0xAF#8 ++ d ++ a ++ 0x0#8) 28 4 = 0xA#4 := by simp (disch := decide) only [fld_high, Nat.reduceSub]; rfl
  have h2 : fld (0xAF#8 ++ d ++ a ++ 0x0#8) 24 4 = 0xF#4 := by simp (disch := decide) only [fld_high, Nat.reduceSub]; rfl
  have h3 : (0xAF#8 ++ d ++ a ++ 0x0#8) &&& 0xff#32 = 0 := (and0 (u := 0x0#24) (v := 0xFF#8) rfl (and0 (u := 0x0#16) (v := 0x0#8) rfl (and0 (u := 0x0#8) (v := 0x0#8) rfl rfl BitVec.and_zero) BitVec.and_zero) BitVec.zero_and)
  refine ofParse rfl ?_
  simp (disch := decide) only [parse, h1, h2, BitVec.reduceToNat, parseRowA, reservedZero, h3, reduceIte, fld_high, fld_low, Nat.reduceSub, BitVec.extractLsb'_eq_self]

theorem RoundTrip.atadd (d : Code) (a : Code) (c : BitVec 3) (r : BitVec 1) (w : BitVec 1) (s : BitVec 2) :
    RoundTrip.Statement (.atadd d a c r w s) := by
  have h1 : fld (0xB0#8 ++ d ++ a ++ c ++ 0x0#1 ++ r ++ w ++ s) 28 4 = 0xB#4 := by simp (disch := decide) only [fld_high, Nat.reduceSub]; rfl
  have h2 : fld (0xB0#8 ++ d ++ a ++ c ++ 0x0#1 ++ r ++ w ++ s) 24 4 = 0x0#4 := by simp (disch := decide) only [fld_high, Nat.reduceSub]; rfl
  have h3 : (0xB0#8 ++ d ++ a ++ c ++ 0x0#1 ++ r ++ w ++ s) &&& 0x10#32 = 0 := (and0 (u := 0x4#30) (v := 0x0#2) rfl (and0 (u := 0x2#29) (v := 0x0#1) rfl (and0 (u := 0x1#28) (v := 0x0#1) rfl (and0 (u := 0x0#27) (v := 0x1#1) rfl (and0 (u := 0x0#24) (v := 0x0#3) rfl (and0 (u := 0x0#16) (v := 0x0#8) rfl (and0 (u := 0x0#8) (v := 0x0#8) rfl rfl BitVec.and_zero) BitVec.and_zero) BitVec.and_zero) BitVec.zero_and) BitVec.and_zero) BitVec.and_zero) BitVec.and_zero)
  refine ofParse rfl ?_
  simp (disch := decide) only [parse, h1, h2, BitVec.reduceToNat, parseRowB, reservedZero, h3, reduceIte, fld_high, fld_low, Nat.reduceSub, BitVec.extractLsb'_eq_self]

theorem RoundTrip.atfadd (d : Code) (a : Code) (c : BitVec 3) (r : BitVec 1) (w : BitVec 1) (s : BitVec 2) :
    RoundTrip.Statement (.atfadd d a c r w s) := by
  have h1 : fld (0xB1#8 ++ d ++ a ++ c ++ 0x0#1 ++ r ++ w ++ s) 28 4 = 0xB#4 := by simp (disch := decide) only [fld_high, Nat.reduceSub]; rfl
  have h2 : fld (0xB1#8 ++ d ++ a ++ c ++ 0x0#1 ++ r ++ w ++ s) 24 4 = 0x1#4 := by simp (disch := decide) only [fld_high, Nat.reduceSub]; rfl
  have h3 : (0xB1#8 ++ d ++ a ++ c ++ 0x0#1 ++ r ++ w ++ s) &&& 0x10#32 = 0 := (and0 (u := 0x4#30) (v := 0x0#2) rfl (and0 (u := 0x2#29) (v := 0x0#1) rfl (and0 (u := 0x1#28) (v := 0x0#1) rfl (and0 (u := 0x0#27) (v := 0x1#1) rfl (and0 (u := 0x0#24) (v := 0x0#3) rfl (and0 (u := 0x0#16) (v := 0x0#8) rfl (and0 (u := 0x0#8) (v := 0x0#8) rfl rfl BitVec.and_zero) BitVec.and_zero) BitVec.and_zero) BitVec.zero_and) BitVec.and_zero) BitVec.and_zero) BitVec.and_zero)
  refine ofParse rfl ?_
  simp (disch := decide) only [parse, h1, h2, BitVec.reduceToNat, parseRowB, reservedZero, h3, reduceIte, fld_high, fld_low, Nat.reduceSub, BitVec.extractLsb'_eq_self]

theorem RoundTrip.atmin (d : Code) (a : Code) (c : BitVec 3) (r : BitVec 1) (w : BitVec 1) (s : BitVec 2) :
    RoundTrip.Statement (.atmin d a c r w s) := by
  have h1 : fld (0xB2#8 ++ d ++ a ++ c ++ 0x0#1 ++ r ++ w ++ s) 28 4 = 0xB#4 := by simp (disch := decide) only [fld_high, Nat.reduceSub]; rfl
  have h2 : fld (0xB2#8 ++ d ++ a ++ c ++ 0x0#1 ++ r ++ w ++ s) 24 4 = 0x2#4 := by simp (disch := decide) only [fld_high, Nat.reduceSub]; rfl
  have h3 : (0xB2#8 ++ d ++ a ++ c ++ 0x0#1 ++ r ++ w ++ s) &&& 0x10#32 = 0 := (and0 (u := 0x4#30) (v := 0x0#2) rfl (and0 (u := 0x2#29) (v := 0x0#1) rfl (and0 (u := 0x1#28) (v := 0x0#1) rfl (and0 (u := 0x0#27) (v := 0x1#1) rfl (and0 (u := 0x0#24) (v := 0x0#3) rfl (and0 (u := 0x0#16) (v := 0x0#8) rfl (and0 (u := 0x0#8) (v := 0x0#8) rfl rfl BitVec.and_zero) BitVec.and_zero) BitVec.and_zero) BitVec.zero_and) BitVec.and_zero) BitVec.and_zero) BitVec.and_zero)
  refine ofParse rfl ?_
  simp (disch := decide) only [parse, h1, h2, BitVec.reduceToNat, parseRowB, reservedZero, h3, reduceIte, fld_high, fld_low, Nat.reduceSub, BitVec.extractLsb'_eq_self]

theorem RoundTrip.atmax (d : Code) (a : Code) (c : BitVec 3) (r : BitVec 1) (w : BitVec 1) (s : BitVec 2) :
    RoundTrip.Statement (.atmax d a c r w s) := by
  have h1 : fld (0xB3#8 ++ d ++ a ++ c ++ 0x0#1 ++ r ++ w ++ s) 28 4 = 0xB#4 := by simp (disch := decide) only [fld_high, Nat.reduceSub]; rfl
  have h2 : fld (0xB3#8 ++ d ++ a ++ c ++ 0x0#1 ++ r ++ w ++ s) 24 4 = 0x3#4 := by simp (disch := decide) only [fld_high, Nat.reduceSub]; rfl
  have h3 : (0xB3#8 ++ d ++ a ++ c ++ 0x0#1 ++ r ++ w ++ s) &&& 0x10#32 = 0 := (and0 (u := 0x4#30) (v := 0x0#2) rfl (and0 (u := 0x2#29) (v := 0x0#1) rfl (and0 (u := 0x1#28) (v := 0x0#1) rfl (and0 (u := 0x0#27) (v := 0x1#1) rfl (and0 (u := 0x0#24) (v := 0x0#3) rfl (and0 (u := 0x0#16) (v := 0x0#8) rfl (and0 (u := 0x0#8) (v := 0x0#8) rfl rfl BitVec.and_zero) BitVec.and_zero) BitVec.and_zero) BitVec.zero_and) BitVec.and_zero) BitVec.and_zero) BitVec.and_zero)
  refine ofParse rfl ?_
  simp (disch := decide) only [parse, h1, h2, BitVec.reduceToNat, parseRowB, reservedZero, h3, reduceIte, fld_high, fld_low, Nat.reduceSub, BitVec.extractLsb'_eq_self]

theorem RoundTrip.atand (d : Code) (a : Code) (c : BitVec 3) (r : BitVec 1) (w : BitVec 1) (s : BitVec 2) :
    RoundTrip.Statement (.atand d a c r w s) := by
  have h1 : fld (0xB4#8 ++ d ++ a ++ c ++ 0x0#1 ++ r ++ w ++ s) 28 4 = 0xB#4 := by simp (disch := decide) only [fld_high, Nat.reduceSub]; rfl
  have h2 : fld (0xB4#8 ++ d ++ a ++ c ++ 0x0#1 ++ r ++ w ++ s) 24 4 = 0x4#4 := by simp (disch := decide) only [fld_high, Nat.reduceSub]; rfl
  have h3 : (0xB4#8 ++ d ++ a ++ c ++ 0x0#1 ++ r ++ w ++ s) &&& 0x10#32 = 0 := (and0 (u := 0x4#30) (v := 0x0#2) rfl (and0 (u := 0x2#29) (v := 0x0#1) rfl (and0 (u := 0x1#28) (v := 0x0#1) rfl (and0 (u := 0x0#27) (v := 0x1#1) rfl (and0 (u := 0x0#24) (v := 0x0#3) rfl (and0 (u := 0x0#16) (v := 0x0#8) rfl (and0 (u := 0x0#8) (v := 0x0#8) rfl rfl BitVec.and_zero) BitVec.and_zero) BitVec.and_zero) BitVec.zero_and) BitVec.and_zero) BitVec.and_zero) BitVec.and_zero)
  refine ofParse rfl ?_
  simp (disch := decide) only [parse, h1, h2, BitVec.reduceToNat, parseRowB, reservedZero, h3, reduceIte, fld_high, fld_low, Nat.reduceSub, BitVec.extractLsb'_eq_self]

theorem RoundTrip.ator (d : Code) (a : Code) (c : BitVec 3) (r : BitVec 1) (w : BitVec 1) (s : BitVec 2) :
    RoundTrip.Statement (.ator d a c r w s) := by
  have h1 : fld (0xB5#8 ++ d ++ a ++ c ++ 0x0#1 ++ r ++ w ++ s) 28 4 = 0xB#4 := by simp (disch := decide) only [fld_high, Nat.reduceSub]; rfl
  have h2 : fld (0xB5#8 ++ d ++ a ++ c ++ 0x0#1 ++ r ++ w ++ s) 24 4 = 0x5#4 := by simp (disch := decide) only [fld_high, Nat.reduceSub]; rfl
  have h3 : (0xB5#8 ++ d ++ a ++ c ++ 0x0#1 ++ r ++ w ++ s) &&& 0x10#32 = 0 := (and0 (u := 0x4#30) (v := 0x0#2) rfl (and0 (u := 0x2#29) (v := 0x0#1) rfl (and0 (u := 0x1#28) (v := 0x0#1) rfl (and0 (u := 0x0#27) (v := 0x1#1) rfl (and0 (u := 0x0#24) (v := 0x0#3) rfl (and0 (u := 0x0#16) (v := 0x0#8) rfl (and0 (u := 0x0#8) (v := 0x0#8) rfl rfl BitVec.and_zero) BitVec.and_zero) BitVec.and_zero) BitVec.zero_and) BitVec.and_zero) BitVec.and_zero) BitVec.and_zero)
  refine ofParse rfl ?_
  simp (disch := decide) only [parse, h1, h2, BitVec.reduceToNat, parseRowB, reservedZero, h3, reduceIte, fld_high, fld_low, Nat.reduceSub, BitVec.extractLsb'_eq_self]

theorem RoundTrip.atxor (d : Code) (a : Code) (c : BitVec 3) (r : BitVec 1) (w : BitVec 1) (s : BitVec 2) :
    RoundTrip.Statement (.atxor d a c r w s) := by
  have h1 : fld (0xB6#8 ++ d ++ a ++ c ++ 0x0#1 ++ r ++ w ++ s) 28 4 = 0xB#4 := by simp (disch := decide) only [fld_high, Nat.reduceSub]; rfl
  have h2 : fld (0xB6#8 ++ d ++ a ++ c ++ 0x0#1 ++ r ++ w ++ s) 24 4 = 0x6#4 := by simp (disch := decide) only [fld_high, Nat.reduceSub]; rfl
  have h3 : (0xB6#8 ++ d ++ a ++ c ++ 0x0#1 ++ r ++ w ++ s) &&& 0x10#32 = 0 := (and0 (u := 0x4#30) (v := 0x0#2) rfl (and0 (u := 0x2#29) (v := 0x0#1) rfl (and0 (u := 0x1#28) (v := 0x0#1) rfl (and0 (u := 0x0#27) (v := 0x1#1) rfl (and0 (u := 0x0#24) (v := 0x0#3) rfl (and0 (u := 0x0#16) (v := 0x0#8) rfl (and0 (u := 0x0#8) (v := 0x0#8) rfl rfl BitVec.and_zero) BitVec.and_zero) BitVec.and_zero) BitVec.zero_and) BitVec.and_zero) BitVec.and_zero) BitVec.and_zero)
  refine ofParse rfl ?_
  simp (disch := decide) only [parse, h1, h2, BitVec.reduceToNat, parseRowB, reservedZero, h3, reduceIte, fld_high, fld_low, Nat.reduceSub, BitVec.extractLsb'_eq_self]

theorem RoundTrip.atxchg (d : Code) (a : Code) (c : BitVec 3) (l : BitVec 1) (r : BitVec 1) (w : BitVec 1) (s : BitVec 2) :
    RoundTrip.Statement (.atxchg d a c l r w s) := by
  have h1 : fld (0xB7#8 ++ d ++ a ++ c ++ l ++ r ++ w ++ s) 28 4 = 0xB#4 := by simp (disch := decide) only [fld_high, Nat.reduceSub]; rfl
  have h2 : fld (0xB7#8 ++ d ++ a ++ c ++ l ++ r ++ w ++ s) 24 4 = 0x7#4 := by simp (disch := decide) only [fld_high, Nat.reduceSub]; rfl
  have h3 : (0xB7#8 ++ d ++ a ++ c ++ l ++ r ++ w ++ s) &&& 0x0#32 = 0 := BitVec.and_zero
  refine ofParse rfl ?_
  simp (disch := decide) only [parse, h1, h2, BitVec.reduceToNat, parseRowB, reservedZero, h3, reduceIte, fld_high, fld_low, Nat.reduceSub, BitVec.extractLsb'_eq_self]

theorem RoundTrip.atcas (d : Code) (a : Code) (c : BitVec 3) (l : BitVec 1) (r : BitVec 1) (w : BitVec 1) (s : BitVec 2) :
    RoundTrip.Statement (.atcas d a c l r w s) := by
  have h1 : fld (0xB8#8 ++ d ++ a ++ c ++ l ++ r ++ w ++ s) 28 4 = 0xB#4 := by simp (disch := decide) only [fld_high, Nat.reduceSub]; rfl
  have h2 : fld (0xB8#8 ++ d ++ a ++ c ++ l ++ r ++ w ++ s) 24 4 = 0x8#4 := by simp (disch := decide) only [fld_high, Nat.reduceSub]; rfl
  have h3 : (0xB8#8 ++ d ++ a ++ c ++ l ++ r ++ w ++ s) &&& 0x0#32 = 0 := BitVec.and_zero
  refine ofParse rfl ?_
  simp (disch := decide) only [parse, h1, h2, BitVec.reduceToNat, parseRowB, reservedZero, h3, reduceIte, fld_high, fld_low, Nat.reduceSub, BitVec.extractLsb'_eq_self]

theorem RoundTrip.fenceAcq (c : BitVec 3) :
    RoundTrip.Statement (.fenceAcq c) := by
  have h1 : fld (0xB9#8 ++ 0x0#13 ++ c ++ 0x0#8) 28 4 = 0xB#4 := by simp (disch := decide) only [fld_high, Nat.reduceSub]; rfl
  have h2 : fld (0xB9#8 ++ 0x0#13 ++ c ++ 0x0#8) 24 4 = 0x9#4 := by simp (disch := decide) only [fld_high, Nat.reduceSub]; rfl
  have h4 : fld (0xB9#8 ++ 0x0#13 ++ c ++ 0x0#8) 16 8 = 0x0#8 := by
    simp (disch := decide) only [fld_high, fld_low, BitVec.extractLsb'_eq_self, Nat.reduceSub]
    rfl
  have h3 : (0xB9#8 ++ 0x0#13 ++ c ++ 0x0#8) &&& 0xf8ff#32 = 0 := (and0 (u := 0xF8#24) (v := 0xFF#8) rfl (and0 (u := 0x1F#21) (v := 0x0#3) rfl (and0 (u := 0x0#8) (v := 0x1F#13) rfl rfl BitVec.zero_and) BitVec.and_zero) BitVec.zero_and)
  refine ofParse rfl ?_
  simp (disch := decide) only [parse, h1, h2, BitVec.reduceToNat, parseRowB, reservedZero, h4, h3, reduceIte, BitVec.reduceEq, fld_high, fld_low, Nat.reduceSub, BitVec.extractLsb'_eq_self]

theorem RoundTrip.fenceRel (c : BitVec 3) :
    RoundTrip.Statement (.fenceRel c) := by
  have h1 : fld (0xB9#8 ++ 0x20#13 ++ c ++ 0x0#8) 28 4 = 0xB#4 := by simp (disch := decide) only [fld_high, Nat.reduceSub]; rfl
  have h2 : fld (0xB9#8 ++ 0x20#13 ++ c ++ 0x0#8) 24 4 = 0x9#4 := by simp (disch := decide) only [fld_high, Nat.reduceSub]; rfl
  have h4 : fld (0xB9#8 ++ 0x20#13 ++ c ++ 0x0#8) 16 8 = 0x1#8 := by
    simp (disch := decide) only [fld_high, fld_low, BitVec.extractLsb'_eq_self, Nat.reduceSub]
    rfl
  have h3 : (0xB9#8 ++ 0x20#13 ++ c ++ 0x0#8) &&& 0xf8ff#32 = 0 := (and0 (u := 0xF8#24) (v := 0xFF#8) rfl (and0 (u := 0x1F#21) (v := 0x0#3) rfl (and0 (u := 0x0#8) (v := 0x1F#13) rfl rfl rfl) BitVec.and_zero) BitVec.zero_and)
  refine ofParse rfl ?_
  simp (disch := decide) only [parse, h1, h2, BitVec.reduceToNat, parseRowB, reservedZero, h4, h3, reduceIte, BitVec.reduceEq, fld_high, fld_low, Nat.reduceSub, BitVec.extractLsb'_eq_self]

theorem RoundTrip.fenceAcqrel (c : BitVec 3) :
    RoundTrip.Statement (.fenceAcqrel c) := by
  have h1 : fld (0xB9#8 ++ 0x40#13 ++ c ++ 0x0#8) 28 4 = 0xB#4 := by simp (disch := decide) only [fld_high, Nat.reduceSub]; rfl
  have h2 : fld (0xB9#8 ++ 0x40#13 ++ c ++ 0x0#8) 24 4 = 0x9#4 := by simp (disch := decide) only [fld_high, Nat.reduceSub]; rfl
  have h4 : fld (0xB9#8 ++ 0x40#13 ++ c ++ 0x0#8) 16 8 = 0x2#8 := by
    simp (disch := decide) only [fld_high, fld_low, BitVec.extractLsb'_eq_self, Nat.reduceSub]
    rfl
  have h3 : (0xB9#8 ++ 0x40#13 ++ c ++ 0x0#8) &&& 0xf8ff#32 = 0 := (and0 (u := 0xF8#24) (v := 0xFF#8) rfl (and0 (u := 0x1F#21) (v := 0x0#3) rfl (and0 (u := 0x0#8) (v := 0x1F#13) rfl rfl rfl) BitVec.and_zero) BitVec.zero_and)
  refine ofParse rfl ?_
  simp (disch := decide) only [parse, h1, h2, BitVec.reduceToNat, parseRowB, reservedZero, h4, h3, reduceIte, BitVec.reduceEq, fld_high, fld_low, Nat.reduceSub, BitVec.extractLsb'_eq_self]

theorem RoundTrip.fenceSc (c : BitVec 3) :
    RoundTrip.Statement (.fenceSc c) := by
  have h1 : fld (0xB9#8 ++ 0x60#13 ++ c ++ 0x0#8) 28 4 = 0xB#4 := by simp (disch := decide) only [fld_high, Nat.reduceSub]; rfl
  have h2 : fld (0xB9#8 ++ 0x60#13 ++ c ++ 0x0#8) 24 4 = 0x9#4 := by simp (disch := decide) only [fld_high, Nat.reduceSub]; rfl
  have h4 : fld (0xB9#8 ++ 0x60#13 ++ c ++ 0x0#8) 16 8 = 0x3#8 := by
    simp (disch := decide) only [fld_high, fld_low, BitVec.extractLsb'_eq_self, Nat.reduceSub]
    rfl
  have h3 : (0xB9#8 ++ 0x60#13 ++ c ++ 0x0#8) &&& 0xf8ff#32 = 0 := (and0 (u := 0xF8#24) (v := 0xFF#8) rfl (and0 (u := 0x1F#21) (v := 0x0#3) rfl (and0 (u := 0x0#8) (v := 0x1F#13) rfl rfl rfl) BitVec.and_zero) BitVec.zero_and)
  refine ofParse rfl ?_
  simp (disch := decide) only [parse, h1, h2, BitVec.reduceToNat, parseRowB, reservedZero, h4, h3, reduceIte, BitVec.reduceEq, fld_high, fld_low, Nat.reduceSub, BitVec.extractLsb'_eq_self]

theorem RoundTrip.fencePath (a : BitVec 6) (b : BitVec 6) :
    RoundTrip.Statement (.fencePath a b) := by
  have h1 : fld (0xBA#8 ++ 0x0#10 ++ a ++ 0x0#2 ++ b) 28 4 = 0xB#4 := by simp (disch := decide) only [fld_high, Nat.reduceSub]; rfl
  have h2 : fld (0xBA#8 ++ 0x0#10 ++ a ++ 0x0#2 ++ b) 24 4 = 0xA#4 := by simp (disch := decide) only [fld_high, Nat.reduceSub]; rfl
  have h4 : fld (0xBA#8 ++ 0x0#10 ++ a ++ 0x0#2 ++ b) 16 8 = 0x0#8 := by
    simp (disch := decide) only [fld_high, fld_low, BitVec.extractLsb'_eq_self, Nat.reduceSub]
    rfl
  have h3 : (0xBA#8 ++ 0x0#10 ++ a ++ 0x0#2 ++ b) &&& 0xc0c0#32 = 0 := (and0 (u := 0x303#26) (v := 0x0#6) rfl (and0 (u := 0xC0#24) (v := 0x3#2) rfl (and0 (u := 0x3#18) (v := 0x0#6) rfl (and0 (u := 0x0#8) (v := 0x3#10) rfl rfl BitVec.zero_and) BitVec.and_zero) BitVec.zero_and) BitVec.and_zero)
  refine ofParse rfl ?_
  simp (disch := decide) only [parse, h1, h2, BitVec.reduceToNat, parseRowB, reservedZero, h4, h3, reduceIte, BitVec.reduceEq, fld_high, fld_low, Nat.reduceSub, BitVec.extractLsb'_eq_self]

theorem RoundTrip.mwatch (d : Code) (a : Code) (n : BitVec 6) (s : BitVec 1) :
    RoundTrip.Statement (.mwatch d a n s) := by
  have h1 : fld (0xBB#8 ++ d ++ a ++ n ++ 0x0#1 ++ s) 28 4 = 0xB#4 := by simp (disch := decide) only [fld_high, Nat.reduceSub]; rfl
  have h2 : fld (0xBB#8 ++ d ++ a ++ n ++ 0x0#1 ++ s) 24 4 = 0xB#4 := by simp (disch := decide) only [fld_high, Nat.reduceSub]; rfl
  have h3 : (0xBB#8 ++ d ++ a ++ n ++ 0x0#1 ++ s) &&& 0x2#32 = 0 := (and0 (u := 0x1#31) (v := 0x0#1) rfl (and0 (u := 0x0#30) (v := 0x1#1) rfl (and0 (u := 0x0#24) (v := 0x0#6) rfl (and0 (u := 0x0#16) (v := 0x0#8) rfl (and0 (u := 0x0#8) (v := 0x0#8) rfl rfl BitVec.and_zero) BitVec.and_zero) BitVec.and_zero) BitVec.zero_and) BitVec.and_zero)
  refine ofParse rfl ?_
  simp (disch := decide) only [parse, h1, h2, BitVec.reduceToNat, parseRowB, reservedZero, h3, reduceIte, fld_high, fld_low, Nat.reduceSub, BitVec.extractLsb'_eq_self]

theorem RoundTrip.mwait (d : Code) (a : Code) :
    RoundTrip.Statement (.mwait d a) := by
  have h1 : fld (0xBC#8 ++ d ++ a ++ 0x0#8) 28 4 = 0xB#4 := by simp (disch := decide) only [fld_high, Nat.reduceSub]; rfl
  have h2 : fld (0xBC#8 ++ d ++ a ++ 0x0#8) 24 4 = 0xC#4 := by simp (disch := decide) only [fld_high, Nat.reduceSub]; rfl
  have h3 : (0xBC#8 ++ d ++ a ++ 0x0#8) &&& 0xff#32 = 0 := (and0 (u := 0x0#24) (v := 0xFF#8) rfl (and0 (u := 0x0#16) (v := 0x0#8) rfl (and0 (u := 0x0#8) (v := 0x0#8) rfl rfl BitVec.and_zero) BitVec.and_zero) BitVec.zero_and)
  refine ofParse rfl ?_
  simp (disch := decide) only [parse, h1, h2, BitVec.reduceToNat, parseRowB, reservedZero, h3, reduceIte, fld_high, fld_low, Nat.reduceSub, BitVec.extractLsb'_eq_self]

theorem RoundTrip.tick : RoundTrip.Statement .tick := ofParse rfl rfl

theorem RoundTrip.cmaint (o : BitVec 2) (a : Code) (n : BitVec 6) (s : BitVec 1) :
    RoundTrip.Statement (.cmaint o a n s) := by
  have h1 : fld (0xBE#8 ++ 0x0#6 ++ o ++ a ++ n ++ 0x0#1 ++ s) 28 4 = 0xB#4 := by simp (disch := decide) only [fld_high, Nat.reduceSub]; rfl
  have h2 : fld (0xBE#8 ++ 0x0#6 ++ o ++ a ++ n ++ 0x0#1 ++ s) 24 4 = 0xE#4 := by simp (disch := decide) only [fld_high, Nat.reduceSub]; rfl
  have h3 : (0xBE#8 ++ 0x0#6 ++ o ++ a ++ n ++ 0x0#1 ++ s) &&& 0xfc0002#32 = 0 := (and0 (u := 0x7E0001#31) (v := 0x0#1) rfl (and0 (u := 0x3F0000#30) (v := 0x1#1) rfl (and0 (u := 0xFC00#24) (v := 0x0#6) rfl (and0 (u := 0xFC#16) (v := 0x0#8) rfl (and0 (u := 0x3F#14) (v := 0x0#2) rfl (and0 (u := 0x0#8) (v := 0x3F#6) rfl rfl BitVec.zero_and) BitVec.and_zero) BitVec.and_zero) BitVec.and_zero) BitVec.zero_and) BitVec.and_zero)
  refine ofParse rfl ?_
  simp (disch := decide) only [parse, h1, h2, BitVec.reduceToNat, parseRowB, reservedZero, h3, reduceIte, fld_high, fld_low, Nat.reduceSub, BitVec.extractLsb'_eq_self]

theorem RoundTrip.binit (a : Code) (b : Code) :
    RoundTrip.Statement (.binit a b) := by
  have h1 : fld (0xC0#8 ++ 0x0#8 ++ a ++ b) 28 4 = 0xC#4 := by simp (disch := decide) only [fld_high, Nat.reduceSub]; rfl
  have h2 : fld (0xC0#8 ++ 0x0#8 ++ a ++ b) 24 4 = 0x0#4 := by simp (disch := decide) only [fld_high, Nat.reduceSub]; rfl
  have h4 : fld (0xC0#8 ++ 0x0#8 ++ a ++ b) 16 8 = 0x0#8 := by
    simp (disch := decide) only [fld_high, fld_low, BitVec.extractLsb'_eq_self, Nat.reduceSub]
  have h3 : (0xC0#8 ++ 0x0#8 ++ a ++ b) &&& 0x0#32 = 0 := BitVec.and_zero
  refine ofParse rfl ?_
  simp (disch := decide) only [parse, h1, h2, BitVec.reduceToNat, parseRowC, reservedZero, h4, h3, reduceIte, BitVec.reduceEq, fld_high, fld_low, Nat.reduceSub, BitVec.extractLsb'_eq_self]

theorem RoundTrip.barv (p : BitVec 6) (a : Code) :
    RoundTrip.Statement (.barv p a) := by
  have h1 : fld (0xC1#8 ++ 0x0#2 ++ p ++ a ++ 0x0#8) 28 4 = 0xC#4 := by simp (disch := decide) only [fld_high, Nat.reduceSub]; rfl
  have h2 : fld (0xC1#8 ++ 0x0#2 ++ p ++ a ++ 0x0#8) 24 4 = 0x1#4 := by simp (disch := decide) only [fld_high, Nat.reduceSub]; rfl
  have h3 : (0xC1#8 ++ 0x0#2 ++ p ++ a ++ 0x0#8) &&& 0xc000ff#32 = 0 := (and0 (u := 0xC000#24) (v := 0xFF#8) rfl (and0 (u := 0xC0#16) (v := 0x0#8) rfl (and0 (u := 0x3#10) (v := 0x0#6) rfl (and0 (u := 0x0#8) (v := 0x3#2) rfl rfl BitVec.zero_and) BitVec.and_zero) BitVec.and_zero) BitVec.zero_and)
  refine ofParse rfl ?_
  simp (disch := decide) only [parse, h1, h2, BitVec.reduceToNat, parseRowC, reservedZero, h3, reduceIte, fld_high, fld_low, Nat.reduceSub, BitVec.extractLsb'_eq_self]

theorem RoundTrip.bwait (a : Code) :
    RoundTrip.Statement (.bwait a) := by
  have h1 : fld (0xC2#8 ++ 0x0#8 ++ a ++ 0x0#8) 28 4 = 0xC#4 := by simp (disch := decide) only [fld_high, Nat.reduceSub]; rfl
  have h2 : fld (0xC2#8 ++ 0x0#8 ++ a ++ 0x0#8) 24 4 = 0x2#4 := by simp (disch := decide) only [fld_high, Nat.reduceSub]; rfl
  have h4 : fld (0xC2#8 ++ 0x0#8 ++ a ++ 0x0#8) 16 8 = 0x0#8 := by
    simp (disch := decide) only [fld_high, fld_low, BitVec.extractLsb'_eq_self, Nat.reduceSub]
  have h3 : (0xC2#8 ++ 0x0#8 ++ a ++ 0x0#8) &&& 0xff#32 = 0 := (and0 (u := 0x0#24) (v := 0xFF#8) rfl (and0 (u := 0x0#16) (v := 0x0#8) rfl (and0 (u := 0x0#8) (v := 0x0#8) rfl rfl BitVec.and_zero) BitVec.and_zero) BitVec.zero_and)
  refine ofParse rfl ?_
  simp (disch := decide) only [parse, h1, h2, BitVec.reduceToNat, parseRowC, reservedZero, h4, h3, reduceIte, BitVec.reduceEq, fld_high, fld_low, Nat.reduceSub, BitVec.extractLsb'_eq_self]

theorem RoundTrip.bwaitGen (a : Code) (b : Code) :
    RoundTrip.Statement (.bwaitGen a b) := by
  have h1 : fld (0xC2#8 ++ 0x1#8 ++ a ++ b) 28 4 = 0xC#4 := by simp (disch := decide) only [fld_high, Nat.reduceSub]; rfl
  have h2 : fld (0xC2#8 ++ 0x1#8 ++ a ++ b) 24 4 = 0x2#4 := by simp (disch := decide) only [fld_high, Nat.reduceSub]; rfl
  have h4 : fld (0xC2#8 ++ 0x1#8 ++ a ++ b) 16 8 = 0x1#8 := by
    simp (disch := decide) only [fld_high, fld_low, BitVec.extractLsb'_eq_self, Nat.reduceSub]
  have h3 : (0xC2#8 ++ 0x1#8 ++ a ++ b) &&& 0x0#32 = 0 := BitVec.and_zero
  refine ofParse rfl ?_
  simp (disch := decide) only [parse, h1, h2, BitVec.reduceToNat, parseRowC, reservedZero, h4, h3, reduceIte, BitVec.reduceEq, fld_high, fld_low, Nat.reduceSub, BitVec.extractLsb'_eq_self]

theorem RoundTrip.barw (p : BitVec 6) (a : Code) :
    RoundTrip.Statement (.barw p a) := by
  have h1 : fld (0xC3#8 ++ 0x0#2 ++ p ++ a ++ 0x0#8) 28 4 = 0xC#4 := by simp (disch := decide) only [fld_high, Nat.reduceSub]; rfl
  have h2 : fld (0xC3#8 ++ 0x0#2 ++ p ++ a ++ 0x0#8) 24 4 = 0x3#4 := by simp (disch := decide) only [fld_high, Nat.reduceSub]; rfl
  have h3 : (0xC3#8 ++ 0x0#2 ++ p ++ a ++ 0x0#8) &&& 0xc000ff#32 = 0 := (and0 (u := 0xC000#24) (v := 0xFF#8) rfl (and0 (u := 0xC0#16) (v := 0x0#8) rfl (and0 (u := 0x3#10) (v := 0x0#6) rfl (and0 (u := 0x0#8) (v := 0x3#2) rfl rfl BitVec.zero_and) BitVec.and_zero) BitVec.and_zero) BitVec.zero_and)
  refine ofParse rfl ?_
  simp (disch := decide) only [parse, h1, h2, BitVec.reduceToNat, parseRowC, reservedZero, h3, reduceIte, fld_high, fld_low, Nat.reduceSub, BitVec.extractLsb'_eq_self]

theorem RoundTrip.baddx (a : Code) (b : Code) :
    RoundTrip.Statement (.baddx a b) := by
  have h1 : fld (0xC4#8 ++ 0x0#8 ++ a ++ b) 28 4 = 0xC#4 := by simp (disch := decide) only [fld_high, Nat.reduceSub]; rfl
  have h2 : fld (0xC4#8 ++ 0x0#8 ++ a ++ b) 24 4 = 0x4#4 := by simp (disch := decide) only [fld_high, Nat.reduceSub]; rfl
  have h4 : fld (0xC4#8 ++ 0x0#8 ++ a ++ b) 16 8 = 0x0#8 := by
    simp (disch := decide) only [fld_high, fld_low, BitVec.extractLsb'_eq_self, Nat.reduceSub]
  have h3 : (0xC4#8 ++ 0x0#8 ++ a ++ b) &&& 0x0#32 = 0 := BitVec.and_zero
  refine ofParse rfl ?_
  simp (disch := decide) only [parse, h1, h2, BitVec.reduceToNat, parseRowC, reservedZero, h4, h3, reduceIte, BitVec.reduceEq, fld_high, fld_low, Nat.reduceSub, BitVec.extractLsb'_eq_self]

theorem RoundTrip.baddxE (a : Code) (b : Code) :
    RoundTrip.Statement (.baddxE a b) := by
  have h1 : fld (0xC4#8 ++ 0x1#8 ++ a ++ b) 28 4 = 0xC#4 := by simp (disch := decide) only [fld_high, Nat.reduceSub]; rfl
  have h2 : fld (0xC4#8 ++ 0x1#8 ++ a ++ b) 24 4 = 0x4#4 := by simp (disch := decide) only [fld_high, Nat.reduceSub]; rfl
  have h4 : fld (0xC4#8 ++ 0x1#8 ++ a ++ b) 16 8 = 0x1#8 := by
    simp (disch := decide) only [fld_high, fld_low, BitVec.extractLsb'_eq_self, Nat.reduceSub]
  have h3 : (0xC4#8 ++ 0x1#8 ++ a ++ b) &&& 0x0#32 = 0 := BitVec.and_zero
  refine ofParse rfl ?_
  simp (disch := decide) only [parse, h1, h2, BitVec.reduceToNat, parseRowC, reservedZero, h4, h3, reduceIte, BitVec.reduceEq, fld_high, fld_low, Nat.reduceSub, BitVec.extractLsb'_eq_self]

theorem RoundTrip.btest (a : Code) (b : Code) :
    RoundTrip.Statement (.btest a b) := by
  have h1 : fld (0xC5#8 ++ 0x0#8 ++ a ++ b) 28 4 = 0xC#4 := by simp (disch := decide) only [fld_high, Nat.reduceSub]; rfl
  have h2 : fld (0xC5#8 ++ 0x0#8 ++ a ++ b) 24 4 = 0x5#4 := by simp (disch := decide) only [fld_high, Nat.reduceSub]; rfl
  have h4 : fld (0xC5#8 ++ 0x0#8 ++ a ++ b) 16 8 = 0x0#8 := by
    simp (disch := decide) only [fld_high, fld_low, BitVec.extractLsb'_eq_self, Nat.reduceSub]
  have h3 : (0xC5#8 ++ 0x0#8 ++ a ++ b) &&& 0x0#32 = 0 := BitVec.and_zero
  refine ofParse rfl ?_
  simp (disch := decide) only [parse, h1, h2, BitVec.reduceToNat, parseRowC, reservedZero, h4, h3, reduceIte, BitVec.reduceEq, fld_high, fld_low, Nat.reduceSub, BitVec.extractLsb'_eq_self]

theorem RoundTrip.btestWord1 (a : Code) (b : Code) :
    RoundTrip.Statement (.btestWord1 a b) := by
  have h1 : fld (0xC5#8 ++ 0x1#8 ++ a ++ b) 28 4 = 0xC#4 := by simp (disch := decide) only [fld_high, Nat.reduceSub]; rfl
  have h2 : fld (0xC5#8 ++ 0x1#8 ++ a ++ b) 24 4 = 0x5#4 := by simp (disch := decide) only [fld_high, Nat.reduceSub]; rfl
  have h4 : fld (0xC5#8 ++ 0x1#8 ++ a ++ b) 16 8 = 0x1#8 := by
    simp (disch := decide) only [fld_high, fld_low, BitVec.extractLsb'_eq_self, Nat.reduceSub]
  have h3 : (0xC5#8 ++ 0x1#8 ++ a ++ b) &&& 0x0#32 = 0 := BitVec.and_zero
  refine ofParse rfl ?_
  simp (disch := decide) only [parse, h1, h2, BitVec.reduceToNat, parseRowC, reservedZero, h4, h3, reduceIte, BitVec.reduceEq, fld_high, fld_low, Nat.reduceSub, BitVec.extractLsb'_eq_self]

theorem RoundTrip.ngjoin (a : Code) :
    RoundTrip.Statement (.ngjoin a) := by
  have h1 : fld (0xC6#8 ++ 0x0#8 ++ a ++ 0x0#8) 28 4 = 0xC#4 := by simp (disch := decide) only [fld_high, Nat.reduceSub]; rfl
  have h2 : fld (0xC6#8 ++ 0x0#8 ++ a ++ 0x0#8) 24 4 = 0x6#4 := by simp (disch := decide) only [fld_high, Nat.reduceSub]; rfl
  have h4 : fld (0xC6#8 ++ 0x0#8 ++ a ++ 0x0#8) 16 8 = 0x0#8 := by
    simp (disch := decide) only [fld_high, fld_low, BitVec.extractLsb'_eq_self, Nat.reduceSub]
  have h3 : (0xC6#8 ++ 0x0#8 ++ a ++ 0x0#8) &&& 0xff#32 = 0 := (and0 (u := 0x0#24) (v := 0xFF#8) rfl (and0 (u := 0x0#16) (v := 0x0#8) rfl (and0 (u := 0x0#8) (v := 0x0#8) rfl rfl BitVec.and_zero) BitVec.and_zero) BitVec.zero_and)
  refine ofParse rfl ?_
  simp (disch := decide) only [parse, h1, h2, BitVec.reduceToNat, parseRowC, reservedZero, h4, h3, reduceIte, BitVec.reduceEq, fld_high, fld_low, Nat.reduceSub, BitVec.extractLsb'_eq_self]

theorem RoundTrip.ngjoinLeave (a : Code) :
    RoundTrip.Statement (.ngjoinLeave a) := by
  have h1 : fld (0xC6#8 ++ 0x1#8 ++ a ++ 0x0#8) 28 4 = 0xC#4 := by simp (disch := decide) only [fld_high, Nat.reduceSub]; rfl
  have h2 : fld (0xC6#8 ++ 0x1#8 ++ a ++ 0x0#8) 24 4 = 0x6#4 := by simp (disch := decide) only [fld_high, Nat.reduceSub]; rfl
  have h4 : fld (0xC6#8 ++ 0x1#8 ++ a ++ 0x0#8) 16 8 = 0x1#8 := by
    simp (disch := decide) only [fld_high, fld_low, BitVec.extractLsb'_eq_self, Nat.reduceSub]
  have h3 : (0xC6#8 ++ 0x1#8 ++ a ++ 0x0#8) &&& 0xff#32 = 0 := (and0 (u := 0x0#24) (v := 0xFF#8) rfl (and0 (u := 0x0#16) (v := 0x0#8) rfl (and0 (u := 0x0#8) (v := 0x0#8) rfl rfl rfl) BitVec.and_zero) BitVec.zero_and)
  refine ofParse rfl ?_
  simp (disch := decide) only [parse, h1, h2, BitVec.reduceToNat, parseRowC, reservedZero, h4, h3, reduceIte, BitVec.reduceEq, fld_high, fld_low, Nat.reduceSub, BitVec.extractLsb'_eq_self]

theorem RoundTrip.ngarv (p : BitVec 6) (a : Code) :
    RoundTrip.Statement (.ngarv p a) := by
  have h1 : fld (0xC7#8 ++ 0x0#2 ++ p ++ a ++ 0x0#8) 28 4 = 0xC#4 := by simp (disch := decide) only [fld_high, Nat.reduceSub]; rfl
  have h2 : fld (0xC7#8 ++ 0x0#2 ++ p ++ a ++ 0x0#8) 24 4 = 0x7#4 := by simp (disch := decide) only [fld_high, Nat.reduceSub]; rfl
  have h3 : (0xC7#8 ++ 0x0#2 ++ p ++ a ++ 0x0#8) &&& 0xc000ff#32 = 0 := (and0 (u := 0xC000#24) (v := 0xFF#8) rfl (and0 (u := 0xC0#16) (v := 0x0#8) rfl (and0 (u := 0x3#10) (v := 0x0#6) rfl (and0 (u := 0x0#8) (v := 0x3#2) rfl rfl BitVec.zero_and) BitVec.and_zero) BitVec.and_zero) BitVec.zero_and)
  refine ofParse rfl ?_
  simp (disch := decide) only [parse, h1, h2, BitVec.reduceToNat, parseRowC, reservedZero, h3, reduceIte, fld_high, fld_low, Nat.reduceSub, BitVec.extractLsb'_eq_self]

theorem RoundTrip.ngwait (a : Code) :
    RoundTrip.Statement (.ngwait a) := by
  have h1 : fld (0xC8#8 ++ 0x0#8 ++ a ++ 0x0#8) 28 4 = 0xC#4 := by simp (disch := decide) only [fld_high, Nat.reduceSub]; rfl
  have h2 : fld (0xC8#8 ++ 0x0#8 ++ a ++ 0x0#8) 24 4 = 0x8#4 := by simp (disch := decide) only [fld_high, Nat.reduceSub]; rfl
  have h4 : fld (0xC8#8 ++ 0x0#8 ++ a ++ 0x0#8) 16 8 = 0x0#8 := by
    simp (disch := decide) only [fld_high, fld_low, BitVec.extractLsb'_eq_self, Nat.reduceSub]
  have h3 : (0xC8#8 ++ 0x0#8 ++ a ++ 0x0#8) &&& 0xff#32 = 0 := (and0 (u := 0x0#24) (v := 0xFF#8) rfl (and0 (u := 0x0#16) (v := 0x0#8) rfl (and0 (u := 0x0#8) (v := 0x0#8) rfl rfl BitVec.and_zero) BitVec.and_zero) BitVec.zero_and)
  refine ofParse rfl ?_
  simp (disch := decide) only [parse, h1, h2, BitVec.reduceToNat, parseRowC, reservedZero, h4, h3, reduceIte, BitVec.reduceEq, fld_high, fld_low, Nat.reduceSub, BitVec.extractLsb'_eq_self]

theorem RoundTrip.ngwaitGen (a : Code) (b : Code) :
    RoundTrip.Statement (.ngwaitGen a b) := by
  have h1 : fld (0xC8#8 ++ 0x1#8 ++ a ++ b) 28 4 = 0xC#4 := by simp (disch := decide) only [fld_high, Nat.reduceSub]; rfl
  have h2 : fld (0xC8#8 ++ 0x1#8 ++ a ++ b) 24 4 = 0x8#4 := by simp (disch := decide) only [fld_high, Nat.reduceSub]; rfl
  have h4 : fld (0xC8#8 ++ 0x1#8 ++ a ++ b) 16 8 = 0x1#8 := by
    simp (disch := decide) only [fld_high, fld_low, BitVec.extractLsb'_eq_self, Nat.reduceSub]
  have h3 : (0xC8#8 ++ 0x1#8 ++ a ++ b) &&& 0x0#32 = 0 := BitVec.and_zero
  refine ofParse rfl ?_
  simp (disch := decide) only [parse, h1, h2, BitVec.reduceToNat, parseRowC, reservedZero, h4, h3, reduceIte, BitVec.reduceEq, fld_high, fld_low, Nat.reduceSub, BitVec.extractLsb'_eq_self]

theorem RoundTrip.ngwaitRead (a : Code) (b : Code) :
    RoundTrip.Statement (.ngwaitRead a b) := by
  have h1 : fld (0xC8#8 ++ 0x2#8 ++ a ++ b) 28 4 = 0xC#4 := by simp (disch := decide) only [fld_high, Nat.reduceSub]; rfl
  have h2 : fld (0xC8#8 ++ 0x2#8 ++ a ++ b) 24 4 = 0x8#4 := by simp (disch := decide) only [fld_high, Nat.reduceSub]; rfl
  have h4 : fld (0xC8#8 ++ 0x2#8 ++ a ++ b) 16 8 = 0x2#8 := by
    simp (disch := decide) only [fld_high, fld_low, BitVec.extractLsb'_eq_self, Nat.reduceSub]
  have h3 : (0xC8#8 ++ 0x2#8 ++ a ++ b) &&& 0x0#32 = 0 := BitVec.and_zero
  refine ofParse rfl ?_
  simp (disch := decide) only [parse, h1, h2, BitVec.reduceToNat, parseRowC, reservedZero, h4, h3, reduceIte, BitVec.reduceEq, fld_high, fld_low, Nat.reduceSub, BitVec.extractLsb'_eq_self]

theorem RoundTrip.bsetm (a : Code) (b : Code) :
    RoundTrip.Statement (.bsetm a b) := by
  have h1 : fld (0xC9#8 ++ 0x0#8 ++ a ++ b) 28 4 = 0xC#4 := by simp (disch := decide) only [fld_high, Nat.reduceSub]; rfl
  have h2 : fld (0xC9#8 ++ 0x0#8 ++ a ++ b) 24 4 = 0x9#4 := by simp (disch := decide) only [fld_high, Nat.reduceSub]; rfl
  have h4 : fld (0xC9#8 ++ 0x0#8 ++ a ++ b) 16 8 = 0x0#8 := by
    simp (disch := decide) only [fld_high, fld_low, BitVec.extractLsb'_eq_self, Nat.reduceSub]
  have h3 : (0xC9#8 ++ 0x0#8 ++ a ++ b) &&& 0x0#32 = 0 := BitVec.and_zero
  refine ofParse rfl ?_
  simp (disch := decide) only [parse, h1, h2, BitVec.reduceToNat, parseRowC, reservedZero, h4, h3, reduceIte, BitVec.reduceEq, fld_high, fld_low, Nat.reduceSub, BitVec.extractLsb'_eq_self]

theorem RoundTrip.bsetmDevice (a : Code) (b : Code) :
    RoundTrip.Statement (.bsetmDevice a b) := by
  have h1 : fld (0xC9#8 ++ 0x1#8 ++ a ++ b) 28 4 = 0xC#4 := by simp (disch := decide) only [fld_high, Nat.reduceSub]; rfl
  have h2 : fld (0xC9#8 ++ 0x1#8 ++ a ++ b) 24 4 = 0x9#4 := by simp (disch := decide) only [fld_high, Nat.reduceSub]; rfl
  have h4 : fld (0xC9#8 ++ 0x1#8 ++ a ++ b) 16 8 = 0x1#8 := by
    simp (disch := decide) only [fld_high, fld_low, BitVec.extractLsb'_eq_self, Nat.reduceSub]
  have h3 : (0xC9#8 ++ 0x1#8 ++ a ++ b) &&& 0x0#32 = 0 := BitVec.and_zero
  refine ofParse rfl ?_
  simp (disch := decide) only [parse, h1, h2, BitVec.reduceToNat, parseRowC, reservedZero, h4, h3, reduceIte, BitVec.reduceEq, fld_high, fld_low, Nat.reduceSub, BitVec.extractLsb'_eq_self]

theorem RoundTrip.bsetmRoot (a : Code) (b : Code) :
    RoundTrip.Statement (.bsetmRoot a b) := by
  have h1 : fld (0xC9#8 ++ 0x2#8 ++ a ++ b) 28 4 = 0xC#4 := by simp (disch := decide) only [fld_high, Nat.reduceSub]; rfl
  have h2 : fld (0xC9#8 ++ 0x2#8 ++ a ++ b) 24 4 = 0x9#4 := by simp (disch := decide) only [fld_high, Nat.reduceSub]; rfl
  have h4 : fld (0xC9#8 ++ 0x2#8 ++ a ++ b) 16 8 = 0x2#8 := by
    simp (disch := decide) only [fld_high, fld_low, BitVec.extractLsb'_eq_self, Nat.reduceSub]
  have h3 : (0xC9#8 ++ 0x2#8 ++ a ++ b) &&& 0x0#32 = 0 := BitVec.and_zero
  refine ofParse rfl ?_
  simp (disch := decide) only [parse, h1, h2, BitVec.reduceToNat, parseRowC, reservedZero, h4, h3, reduceIte, BitVec.reduceEq, fld_high, fld_low, Nat.reduceSub, BitVec.extractLsb'_eq_self]

theorem RoundTrip.cpyc (x : BitVec 1) (c : BitVec 1) (g : BitVec 4) (a : Code) (b : Code) :
    RoundTrip.Statement (.cpyc x c g a b) := by
  have h1 : fld (0xCA#8 ++ 0x0#2 ++ x ++ c ++ g ++ a ++ b) 28 4 = 0xC#4 := by simp (disch := decide) only [fld_high, Nat.reduceSub]; rfl
  have h2 : fld (0xCA#8 ++ 0x0#2 ++ x ++ c ++ g ++ a ++ b) 24 4 = 0xA#4 := by simp (disch := decide) only [fld_high, Nat.reduceSub]; rfl
  have h3 : (0xCA#8 ++ 0x0#2 ++ x ++ c ++ g ++ a ++ b) &&& 0xc00000#32 = 0 := (and0 (u := 0xC000#24) (v := 0x0#8) rfl (and0 (u := 0xC0#16) (v := 0x0#8) rfl (and0 (u := 0xC#12) (v := 0x0#4) rfl (and0 (u := 0x6#11) (v := 0x0#1) rfl (and0 (u := 0x3#10) (v := 0x0#1) rfl (and0 (u := 0x0#8) (v := 0x3#2) rfl rfl BitVec.zero_and) BitVec.and_zero) BitVec.and_zero) BitVec.and_zero) BitVec.and_zero) BitVec.and_zero)
  refine ofParse rfl ?_
  simp (disch := decide) only [parse, h1, h2, BitVec.reduceToNat, parseRowC, reservedZero, h3, reduceIte, fld_high, fld_low, Nat.reduceSub, BitVec.extractLsb'_eq_self]

theorem RoundTrip.cpy (a : Code) (b : Code) :
    RoundTrip.Statement (.cpy a b) := by
  have h1 : fld (0xCB#8 ++ 0x0#8 ++ a ++ b) 28 4 = 0xC#4 := by simp (disch := decide) only [fld_high, Nat.reduceSub]; rfl
  have h2 : fld (0xCB#8 ++ 0x0#8 ++ a ++ b) 24 4 = 0xB#4 := by simp (disch := decide) only [fld_high, Nat.reduceSub]; rfl
  have h4 : fld (0xCB#8 ++ 0x0#8 ++ a ++ b) 16 8 = 0x0#8 := by
    simp (disch := decide) only [fld_high, fld_low, BitVec.extractLsb'_eq_self, Nat.reduceSub]
  have h3 : (0xCB#8 ++ 0x0#8 ++ a ++ b) &&& 0x0#32 = 0 := BitVec.and_zero
  refine ofParse rfl ?_
  simp (disch := decide) only [parse, h1, h2, BitVec.reduceToNat, parseRowC, reservedZero, h4, h3, reduceIte, BitVec.reduceEq, fld_high, fld_low, Nat.reduceSub, BitVec.extractLsb'_eq_self]

theorem RoundTrip.gath (a : Code) (b : Code) :
    RoundTrip.Statement (.gath a b) := by
  have h1 : fld (0xCC#8 ++ 0x0#8 ++ a ++ b) 28 4 = 0xC#4 := by simp (disch := decide) only [fld_high, Nat.reduceSub]; rfl
  have h2 : fld (0xCC#8 ++ 0x0#8 ++ a ++ b) 24 4 = 0xC#4 := by simp (disch := decide) only [fld_high, Nat.reduceSub]; rfl
  have h4 : fld (0xCC#8 ++ 0x0#8 ++ a ++ b) 16 8 = 0x0#8 := by
    simp (disch := decide) only [fld_high, fld_low, BitVec.extractLsb'_eq_self, Nat.reduceSub]
  have h3 : (0xCC#8 ++ 0x0#8 ++ a ++ b) &&& 0x0#32 = 0 := BitVec.and_zero
  refine ofParse rfl ?_
  simp (disch := decide) only [parse, h1, h2, BitVec.reduceToNat, parseRowC, reservedZero, h4, h3, reduceIte, BitVec.reduceEq, fld_high, fld_low, Nat.reduceSub, BitVec.extractLsb'_eq_self]

theorem RoundTrip.scat (a : Code) (b : Code) :
    RoundTrip.Statement (.scat a b) := by
  have h1 : fld (0xCD#8 ++ 0x0#8 ++ a ++ b) 28 4 = 0xC#4 := by simp (disch := decide) only [fld_high, Nat.reduceSub]; rfl
  have h2 : fld (0xCD#8 ++ 0x0#8 ++ a ++ b) 24 4 = 0xD#4 := by simp (disch := decide) only [fld_high, Nat.reduceSub]; rfl
  have h4 : fld (0xCD#8 ++ 0x0#8 ++ a ++ b) 16 8 = 0x0#8 := by
    simp (disch := decide) only [fld_high, fld_low, BitVec.extractLsb'_eq_self, Nat.reduceSub]
  have h3 : (0xCD#8 ++ 0x0#8 ++ a ++ b) &&& 0x0#32 = 0 := BitVec.and_zero
  refine ofParse rfl ?_
  simp (disch := decide) only [parse, h1, h2, BitVec.reduceToNat, parseRowC, reservedZero, h4, h3, reduceIte, BitVec.reduceEq, fld_high, fld_low, Nat.reduceSub, BitVec.extractLsb'_eq_self]

theorem RoundTrip.mcast (a : Code) (b : Code) :
    RoundTrip.Statement (.mcast a b) := by
  have h1 : fld (0xCE#8 ++ 0x0#8 ++ a ++ b) 28 4 = 0xC#4 := by simp (disch := decide) only [fld_high, Nat.reduceSub]; rfl
  have h2 : fld (0xCE#8 ++ 0x0#8 ++ a ++ b) 24 4 = 0xE#4 := by simp (disch := decide) only [fld_high, Nat.reduceSub]; rfl
  have h4 : fld (0xCE#8 ++ 0x0#8 ++ a ++ b) 16 8 = 0x0#8 := by
    simp (disch := decide) only [fld_high, fld_low, BitVec.extractLsb'_eq_self, Nat.reduceSub]
  have h3 : (0xCE#8 ++ 0x0#8 ++ a ++ b) &&& 0x0#32 = 0 := BitVec.and_zero
  refine ofParse rfl ?_
  simp (disch := decide) only [parse, h1, h2, BitVec.reduceToNat, parseRowC, reservedZero, h4, h3, reduceIte, BitVec.reduceEq, fld_high, fld_low, Nat.reduceSub, BitVec.extractLsb'_eq_self]

theorem RoundTrip.sclp (a : Code) (b : Code) :
    RoundTrip.Statement (.sclp a b) := by
  have h1 : fld (0xCF#8 ++ 0x0#8 ++ a ++ b) 28 4 = 0xC#4 := by simp (disch := decide) only [fld_high, Nat.reduceSub]; rfl
  have h2 : fld (0xCF#8 ++ 0x0#8 ++ a ++ b) 24 4 = 0xF#4 := by simp (disch := decide) only [fld_high, Nat.reduceSub]; rfl
  have h4 : fld (0xCF#8 ++ 0x0#8 ++ a ++ b) 16 8 = 0x0#8 := by
    simp (disch := decide) only [fld_high, fld_low, BitVec.extractLsb'_eq_self, Nat.reduceSub]
  have h3 : (0xCF#8 ++ 0x0#8 ++ a ++ b) &&& 0x0#32 = 0 := BitVec.and_zero
  refine ofParse rfl ?_
  simp (disch := decide) only [parse, h1, h2, BitVec.reduceToNat, parseRowC, reservedZero, h4, h3, reduceIte, BitVec.reduceEq, fld_high, fld_low, Nat.reduceSub, BitVec.extractLsb'_eq_self]

theorem RoundTrip.gqry (a : Code) (b : Code) :
    RoundTrip.Statement (.gqry a b) := by
  have h1 : fld (0xCF#8 ++ 0x1#8 ++ a ++ b) 28 4 = 0xC#4 := by simp (disch := decide) only [fld_high, Nat.reduceSub]; rfl
  have h2 : fld (0xCF#8 ++ 0x1#8 ++ a ++ b) 24 4 = 0xF#4 := by simp (disch := decide) only [fld_high, Nat.reduceSub]; rfl
  have h4 : fld (0xCF#8 ++ 0x1#8 ++ a ++ b) 16 8 = 0x1#8 := by
    simp (disch := decide) only [fld_high, fld_low, BitVec.extractLsb'_eq_self, Nat.reduceSub]
  have h3 : (0xCF#8 ++ 0x1#8 ++ a ++ b) &&& 0x0#32 = 0 := BitVec.and_zero
  refine ofParse rfl ?_
  simp (disch := decide) only [parse, h1, h2, BitVec.reduceToNat, parseRowC, reservedZero, h4, h3, reduceIte, BitVec.reduceEq, fld_high, fld_low, Nat.reduceSub, BitVec.extractLsb'_eq_self]

theorem RoundTrip.gcncl (a : Code) (b : Code) :
    RoundTrip.Statement (.gcncl a b) := by
  have h1 : fld (0xCF#8 ++ 0x2#8 ++ a ++ b) 28 4 = 0xC#4 := by simp (disch := decide) only [fld_high, Nat.reduceSub]; rfl
  have h2 : fld (0xCF#8 ++ 0x2#8 ++ a ++ b) 24 4 = 0xF#4 := by simp (disch := decide) only [fld_high, Nat.reduceSub]; rfl
  have h4 : fld (0xCF#8 ++ 0x2#8 ++ a ++ b) 16 8 = 0x2#8 := by
    simp (disch := decide) only [fld_high, fld_low, BitVec.extractLsb'_eq_self, Nat.reduceSub]
  have h3 : (0xCF#8 ++ 0x2#8 ++ a ++ b) &&& 0x0#32 = 0 := BitVec.and_zero
  refine ofParse rfl ?_
  simp (disch := decide) only [parse, h1, h2, BitVec.reduceToNat, parseRowC, reservedZero, h4, h3, reduceIte, BitVec.reduceEq, fld_high, fld_low, Nat.reduceSub, BitVec.extractLsb'_eq_self]

theorem RoundTrip.expb (d : Code) (a : Code) (b : Code) :
    RoundTrip.Statement (.expb d a b) := by
  have h1 : fld (0xD0#8 ++ d ++ a ++ b) 28 4 = 0xD#4 := by simp (disch := decide) only [fld_high, Nat.reduceSub]; rfl
  have h2 : fld (0xD0#8 ++ d ++ a ++ b) 24 4 = 0x0#4 := by simp (disch := decide) only [fld_high, Nat.reduceSub]; rfl
  have h3 : (0xD0#8 ++ d ++ a ++ b) &&& 0x0#32 = 0 := BitVec.and_zero
  refine ofParse rfl ?_
  simp (disch := decide) only [parse, h1, h2, BitVec.reduceToNat, parseRowD, reservedZero, h3, reduceIte, fld_high, fld_low, Nat.reduceSub, BitVec.extractLsb'_eq_self]

theorem RoundTrip.expbG (d : Code) (a : Code) (b : Code) :
    RoundTrip.Statement (.expbG d a b) := by
  have h1 : fld (0xD1#8 ++ d ++ a ++ b) 28 4 = 0xD#4 := by simp (disch := decide) only [fld_high, Nat.reduceSub]; rfl
  have h2 : fld (0xD1#8 ++ d ++ a ++ b) 24 4 = 0x1#4 := by simp (disch := decide) only [fld_high, Nat.reduceSub]; rfl
  have h3 : (0xD1#8 ++ d ++ a ++ b) &&& 0x0#32 = 0 := BitVec.and_zero
  refine ofParse rfl ?_
  simp (disch := decide) only [parse, h1, h2, BitVec.reduceToNat, parseRowD, reservedZero, h3, reduceIte, fld_high, fld_low, Nat.reduceSub, BitVec.extractLsb'_eq_self]

theorem RoundTrip.expn (d : Code) (a : Code) :
    RoundTrip.Statement (.expn d a) := by
  have h1 : fld (0xD2#8 ++ d ++ a ++ 0x0#8) 28 4 = 0xD#4 := by simp (disch := decide) only [fld_high, Nat.reduceSub]; rfl
  have h2 : fld (0xD2#8 ++ d ++ a ++ 0x0#8) 24 4 = 0x2#4 := by simp (disch := decide) only [fld_high, Nat.reduceSub]; rfl
  have h3 : (0xD2#8 ++ d ++ a ++ 0x0#8) &&& 0xff#32 = 0 := (and0 (u := 0x0#24) (v := 0xFF#8) rfl (and0 (u := 0x0#16) (v := 0x0#8) rfl (and0 (u := 0x0#8) (v := 0x0#8) rfl rfl BitVec.and_zero) BitVec.and_zero) BitVec.zero_and)
  refine ofParse rfl ?_
  simp (disch := decide) only [parse, h1, h2, BitVec.reduceToNat, parseRowD, reservedZero, h3, reduceIte, fld_high, fld_low, Nat.reduceSub, BitVec.extractLsb'_eq_self]

theorem RoundTrip.segr (d : Code) (a : Code) :
    RoundTrip.Statement (.segr d a) := by
  have h1 : fld (0xD3#8 ++ d ++ a ++ 0x0#8) 28 4 = 0xD#4 := by simp (disch := decide) only [fld_high, Nat.reduceSub]; rfl
  have h2 : fld (0xD3#8 ++ d ++ a ++ 0x0#8) 24 4 = 0x3#4 := by simp (disch := decide) only [fld_high, Nat.reduceSub]; rfl
  have h3 : (0xD3#8 ++ d ++ a ++ 0x0#8) &&& 0xff#32 = 0 := (and0 (u := 0x0#24) (v := 0xFF#8) rfl (and0 (u := 0x0#16) (v := 0x0#8) rfl (and0 (u := 0x0#8) (v := 0x0#8) rfl rfl BitVec.and_zero) BitVec.and_zero) BitVec.zero_and)
  refine ofParse rfl ?_
  simp (disch := decide) only [parse, h1, h2, BitVec.reduceToNat, parseRowD, reservedZero, h3, reduceIte, fld_high, fld_low, Nat.reduceSub, BitVec.extractLsb'_eq_self]

theorem RoundTrip.xsave (a : Code) (n : BitVec 6) (s : BitVec 1) :
    RoundTrip.Statement (.xsave a n s) := by
  have h1 : fld (0xD4#8 ++ 0x0#8 ++ a ++ n ++ 0x0#1 ++ s) 28 4 = 0xD#4 := by simp (disch := decide) only [fld_high, Nat.reduceSub]; rfl
  have h2 : fld (0xD4#8 ++ 0x0#8 ++ a ++ n ++ 0x0#1 ++ s) 24 4 = 0x4#4 := by simp (disch := decide) only [fld_high, Nat.reduceSub]; rfl
  have h3 : (0xD4#8 ++ 0x0#8 ++ a ++ n ++ 0x0#1 ++ s) &&& 0xff0002#32 = 0 := (and0 (u := 0x7F8001#31) (v := 0x0#1) rfl (and0 (u := 0x3FC000#30) (v := 0x1#1) rfl (and0 (u := 0xFF00#24) (v := 0x0#6) rfl (and0 (u := 0xFF#16) (v := 0x0#8) rfl (and0 (u := 0x0#8) (v := 0xFF#8) rfl rfl BitVec.zero_and) BitVec.and_zero) BitVec.and_zero) BitVec.zero_and) BitVec.and_zero)
  refine ofParse rfl ?_
  simp (disch := decide) only [parse, h1, h2, BitVec.reduceToNat, parseRowD, reservedZero, h3, reduceIte, fld_high, fld_low, Nat.reduceSub, BitVec.extractLsb'_eq_self]

theorem RoundTrip.xrst (a : Code) (n : BitVec 6) (s : BitVec 1) :
    RoundTrip.Statement (.xrst a n s) := by
  have h1 : fld (0xD5#8 ++ 0x0#8 ++ a ++ n ++ 0x0#1 ++ s) 28 4 = 0xD#4 := by simp (disch := decide) only [fld_high, Nat.reduceSub]; rfl
  have h2 : fld (0xD5#8 ++ 0x0#8 ++ a ++ n ++ 0x0#1 ++ s) 24 4 = 0x5#4 := by simp (disch := decide) only [fld_high, Nat.reduceSub]; rfl
  have h3 : (0xD5#8 ++ 0x0#8 ++ a ++ n ++ 0x0#1 ++ s) &&& 0xff0002#32 = 0 := (and0 (u := 0x7F8001#31) (v := 0x0#1) rfl (and0 (u := 0x3FC000#30) (v := 0x1#1) rfl (and0 (u := 0xFF00#24) (v := 0x0#6) rfl (and0 (u := 0xFF#16) (v := 0x0#8) rfl (and0 (u := 0x0#8) (v := 0xFF#8) rfl rfl BitVec.zero_and) BitVec.and_zero) BitVec.and_zero) BitVec.zero_and) BitVec.and_zero)
  refine ofParse rfl ?_
  simp (disch := decide) only [parse, h1, h2, BitVec.reduceToNat, parseRowD, reservedZero, h3, reduceIte, fld_high, fld_low, Nat.reduceSub, BitVec.extractLsb'_eq_self]

theorem RoundTrip.vsort (d : Code) (a : Code) :
    RoundTrip.Statement (.vsort d a) := by
  have h1 : fld (0xD6#8 ++ d ++ a ++ 0x0#8) 28 4 = 0xD#4 := by simp (disch := decide) only [fld_high, Nat.reduceSub]; rfl
  have h2 : fld (0xD6#8 ++ d ++ a ++ 0x0#8) 24 4 = 0x6#4 := by simp (disch := decide) only [fld_high, Nat.reduceSub]; rfl
  have h3 : (0xD6#8 ++ d ++ a ++ 0x0#8) &&& 0xff#32 = 0 := (and0 (u := 0x0#24) (v := 0xFF#8) rfl (and0 (u := 0x0#16) (v := 0x0#8) rfl (and0 (u := 0x0#8) (v := 0x0#8) rfl rfl BitVec.and_zero) BitVec.and_zero) BitVec.zero_and)
  refine ofParse rfl ?_
  simp (disch := decide) only [parse, h1, h2, BitVec.reduceToNat, parseRowD, reservedZero, h3, reduceIte, fld_high, fld_low, Nat.reduceSub, BitVec.extractLsb'_eq_self]

theorem RoundTrip.vtopk (d : Code) (a : Code) (b : Code) :
    RoundTrip.Statement (.vtopk d a b) := by
  have h1 : fld (0xD7#8 ++ d ++ a ++ b) 28 4 = 0xD#4 := by simp (disch := decide) only [fld_high, Nat.reduceSub]; rfl
  have h2 : fld (0xD7#8 ++ d ++ a ++ b) 24 4 = 0x7#4 := by simp (disch := decide) only [fld_high, Nat.reduceSub]; rfl
  have h3 : (0xD7#8 ++ d ++ a ++ b) &&& 0x0#32 = 0 := BitVec.and_zero
  refine ofParse rfl ?_
  simp (disch := decide) only [parse, h1, h2, BitVec.reduceToNat, parseRowD, reservedZero, h3, reduceIte, fld_high, fld_low, Nat.reduceSub, BitVec.extractLsb'_eq_self]

theorem RoundTrip.tkmrg (d : Code) (a : Code) (b : Code) :
    RoundTrip.Statement (.tkmrg d a b) := by
  have h1 : fld (0xD8#8 ++ d ++ a ++ b) 28 4 = 0xD#4 := by simp (disch := decide) only [fld_high, Nat.reduceSub]; rfl
  have h2 : fld (0xD8#8 ++ d ++ a ++ b) 24 4 = 0x8#4 := by simp (disch := decide) only [fld_high, Nat.reduceSub]; rfl
  have h3 : (0xD8#8 ++ d ++ a ++ b) &&& 0x0#32 = 0 := BitVec.and_zero
  refine ofParse rfl ?_
  simp (disch := decide) only [parse, h1, h2, BitVec.reduceToNat, parseRowD, reservedZero, h3, reduceIte, fld_high, fld_low, Nat.reduceSub, BitVec.extractLsb'_eq_self]

theorem RoundTrip.ctopk (d : Code) (a : Code) (b : Code) :
    RoundTrip.Statement (.ctopk d a b) := by
  have h1 : fld (0xD9#8 ++ d ++ a ++ b) 28 4 = 0xD#4 := by simp (disch := decide) only [fld_high, Nat.reduceSub]; rfl
  have h2 : fld (0xD9#8 ++ d ++ a ++ b) 24 4 = 0x9#4 := by simp (disch := decide) only [fld_high, Nat.reduceSub]; rfl
  have h3 : (0xD9#8 ++ d ++ a ++ b) &&& 0x0#32 = 0 := BitVec.and_zero
  refine ofParse rfl ?_
  simp (disch := decide) only [parse, h1, h2, BitVec.reduceToNat, parseRowD, reservedZero, h3, reduceIte, fld_high, fld_low, Nat.reduceSub, BitVec.extractLsb'_eq_self]

theorem RoundTrip.hins (d : Code) (a : Code) (b : Code) :
    RoundTrip.Statement (.hins d a b) := by
  have h1 : fld (0xDA#8 ++ d ++ a ++ b) 28 4 = 0xD#4 := by simp (disch := decide) only [fld_high, Nat.reduceSub]; rfl
  have h2 : fld (0xDA#8 ++ d ++ a ++ b) 24 4 = 0xA#4 := by simp (disch := decide) only [fld_high, Nat.reduceSub]; rfl
  have h3 : (0xDA#8 ++ d ++ a ++ b) &&& 0x0#32 = 0 := BitVec.and_zero
  refine ofParse rfl ?_
  simp (disch := decide) only [parse, h1, h2, BitVec.reduceToNat, parseRowD, reservedZero, h3, reduceIte, fld_high, fld_low, Nat.reduceSub, BitVec.extractLsb'_eq_self]

theorem RoundTrip.hacc (d : Code) (a : Code) (b : Code) :
    RoundTrip.Statement (.hacc d a b) := by
  have h1 : fld (0xDB#8 ++ d ++ a ++ b) 28 4 = 0xD#4 := by simp (disch := decide) only [fld_high, Nat.reduceSub]; rfl
  have h2 : fld (0xDB#8 ++ d ++ a ++ b) 24 4 = 0xB#4 := by simp (disch := decide) only [fld_high, Nat.reduceSub]; rfl
  have h3 : (0xDB#8 ++ d ++ a ++ b) &&& 0x0#32 = 0 := BitVec.and_zero
  refine ofParse rfl ?_
  simp (disch := decide) only [parse, h1, h2, BitVec.reduceToNat, parseRowD, reservedZero, h3, reduceIte, fld_high, fld_low, Nat.reduceSub, BitVec.extractLsb'_eq_self]

theorem RoundTrip.hfind (d : Code) (a : Code) (b : Code) :
    RoundTrip.Statement (.hfind d a b) := by
  have h1 : fld (0xDC#8 ++ d ++ a ++ b) 28 4 = 0xD#4 := by simp (disch := decide) only [fld_high, Nat.reduceSub]; rfl
  have h2 : fld (0xDC#8 ++ d ++ a ++ b) 24 4 = 0xC#4 := by simp (disch := decide) only [fld_high, Nat.reduceSub]; rfl
  have h3 : (0xDC#8 ++ d ++ a ++ b) &&& 0x0#32 = 0 := BitVec.and_zero
  refine ofParse rfl ?_
  simp (disch := decide) only [parse, h1, h2, BitVec.reduceToNat, parseRowD, reservedZero, h3, reduceIte, fld_high, fld_low, Nat.reduceSub, BitVec.extractLsb'_eq_self]

theorem RoundTrip.hinit (a : Code) (b : Code) :
    RoundTrip.Statement (.hinit a b) := by
  have h1 : fld (0xDD#8 ++ 0x0#8 ++ a ++ b) 28 4 = 0xD#4 := by simp (disch := decide) only [fld_high, Nat.reduceSub]; rfl
  have h2 : fld (0xDD#8 ++ 0x0#8 ++ a ++ b) 24 4 = 0xD#4 := by simp (disch := decide) only [fld_high, Nat.reduceSub]; rfl
  have h3 : (0xDD#8 ++ 0x0#8 ++ a ++ b) &&& 0xff0000#32 = 0 := (and0 (u := 0xFF00#24) (v := 0x0#8) rfl (and0 (u := 0xFF#16) (v := 0x0#8) rfl (and0 (u := 0x0#8) (v := 0xFF#8) rfl rfl BitVec.zero_and) BitVec.and_zero) BitVec.and_zero)
  refine ofParse rfl ?_
  simp (disch := decide) only [parse, h1, h2, BitVec.reduceToNat, parseRowD, reservedZero, h3, reduceIte, fld_high, fld_low, Nat.reduceSub, BitVec.extractLsb'_eq_self]

theorem RoundTrip.talloc (d : Code) (a : Code) (b : Code) :
    RoundTrip.Statement (.talloc d a b) := by
  have h1 : fld (0xE0#8 ++ d ++ a ++ b) 28 4 = 0xE#4 := by simp (disch := decide) only [fld_high, Nat.reduceSub]; rfl
  have h2 : fld (0xE0#8 ++ d ++ a ++ b) 24 4 = 0x0#4 := by simp (disch := decide) only [fld_high, Nat.reduceSub]; rfl
  have h3 : (0xE0#8 ++ d ++ a ++ b) &&& 0x0#32 = 0 := BitVec.and_zero
  refine ofParse rfl ?_
  simp (disch := decide) only [parse, h1, h2, BitVec.reduceToNat, parseRowE, reservedZero, h3, reduceIte, fld_high, fld_low, Nat.reduceSub, BitVec.extractLsb'_eq_self]

theorem RoundTrip.tfree (a : Code) :
    RoundTrip.Statement (.tfree a) := by
  have h1 : fld (0xE1#8 ++ 0x0#8 ++ a ++ 0x0#8) 28 4 = 0xE#4 := by simp (disch := decide) only [fld_high, Nat.reduceSub]; rfl
  have h2 : fld (0xE1#8 ++ 0x0#8 ++ a ++ 0x0#8) 24 4 = 0x1#4 := by simp (disch := decide) only [fld_high, Nat.reduceSub]; rfl
  have h4 : fld (0xE1#8 ++ 0x0#8 ++ a ++ 0x0#8) 16 8 = 0x0#8 := by
    simp (disch := decide) only [fld_high, fld_low, BitVec.extractLsb'_eq_self, Nat.reduceSub]
  have h3 : (0xE1#8 ++ 0x0#8 ++ a ++ 0x0#8) &&& 0xff#32 = 0 := (and0 (u := 0x0#24) (v := 0xFF#8) rfl (and0 (u := 0x0#16) (v := 0x0#8) rfl (and0 (u := 0x0#8) (v := 0x0#8) rfl rfl BitVec.and_zero) BitVec.and_zero) BitVec.zero_and)
  refine ofParse rfl ?_
  simp (disch := decide) only [parse, h1, h2, BitVec.reduceToNat, parseRowE, reservedZero, h4, h3, reduceIte, BitVec.reduceEq, fld_high, fld_low, Nat.reduceSub, BitVec.extractLsb'_eq_self]

theorem RoundTrip.mloop (a : Code) :
    RoundTrip.Statement (.mloop a) := by
  have h1 : fld (0xE2#8 ++ 0x0#8 ++ a ++ 0x0#8) 28 4 = 0xE#4 := by simp (disch := decide) only [fld_high, Nat.reduceSub]; rfl
  have h2 : fld (0xE2#8 ++ 0x0#8 ++ a ++ 0x0#8) 24 4 = 0x2#4 := by simp (disch := decide) only [fld_high, Nat.reduceSub]; rfl
  have h4 : fld (0xE2#8 ++ 0x0#8 ++ a ++ 0x0#8) 16 8 = 0x0#8 := by
    simp (disch := decide) only [fld_high, fld_low, BitVec.extractLsb'_eq_self, Nat.reduceSub]
  have h3 : (0xE2#8 ++ 0x0#8 ++ a ++ 0x0#8) &&& 0xff#32 = 0 := (and0 (u := 0x0#24) (v := 0xFF#8) rfl (and0 (u := 0x0#16) (v := 0x0#8) rfl (and0 (u := 0x0#8) (v := 0x0#8) rfl rfl BitVec.and_zero) BitVec.and_zero) BitVec.zero_and)
  refine ofParse rfl ?_
  simp (disch := decide) only [parse, h1, h2, BitVec.reduceToNat, parseRowE, reservedZero, h4, h3, reduceIte, BitVec.reduceEq, fld_high, fld_low, Nat.reduceSub, BitVec.extractLsb'_eq_self]

theorem RoundTrip.mdrain (z : BitVec 1) (s : BitVec 1) (a : Code) (b : Code) :
    RoundTrip.Statement (.mdrain z s a b) := by
  have h1 : fld (0xE3#8 ++ 0x0#6 ++ z ++ s ++ a ++ b) 28 4 = 0xE#4 := by simp (disch := decide) only [fld_high, Nat.reduceSub]; rfl
  have h2 : fld (0xE3#8 ++ 0x0#6 ++ z ++ s ++ a ++ b) 24 4 = 0x3#4 := by simp (disch := decide) only [fld_high, Nat.reduceSub]; rfl
  have h3 : (0xE3#8 ++ 0x0#6 ++ z ++ s ++ a ++ b) &&& 0xfc0000#32 = 0 := (and0 (u := 0xFC00#24) (v := 0x0#8) rfl (and0 (u := 0xFC#16) (v := 0x0#8) rfl (and0 (u := 0x7E#15) (v := 0x0#1) rfl (and0 (u := 0x3F#14) (v := 0x0#1) rfl (and0 (u := 0x0#8) (v := 0x3F#6) rfl rfl BitVec.zero_and) BitVec.and_zero) BitVec.and_zero) BitVec.and_zero) BitVec.and_zero)
  refine ofParse rfl ?_
  simp (disch := decide) only [parse, h1, h2, BitVec.reduceToNat, parseRowE, reservedZero, h3, reduceIte, fld_high, fld_low, Nat.reduceSub, BitVec.extractLsb'_eq_self]

theorem RoundTrip.mzero (a : Code) :
    RoundTrip.Statement (.mzero a) := by
  have h1 : fld (0xE4#8 ++ 0x0#8 ++ a ++ 0x0#8) 28 4 = 0xE#4 := by simp (disch := decide) only [fld_high, Nat.reduceSub]; rfl
  have h2 : fld (0xE4#8 ++ 0x0#8 ++ a ++ 0x0#8) 24 4 = 0x4#4 := by simp (disch := decide) only [fld_high, Nat.reduceSub]; rfl
  have h4 : fld (0xE4#8 ++ 0x0#8 ++ a ++ 0x0#8) 16 8 = 0x0#8 := by
    simp (disch := decide) only [fld_high, fld_low, BitVec.extractLsb'_eq_self, Nat.reduceSub]
  have h3 : (0xE4#8 ++ 0x0#8 ++ a ++ 0x0#8) &&& 0xff#32 = 0 := (and0 (u := 0x0#24) (v := 0xFF#8) rfl (and0 (u := 0x0#16) (v := 0x0#8) rfl (and0 (u := 0x0#8) (v := 0x0#8) rfl rfl BitVec.and_zero) BitVec.and_zero) BitVec.zero_and)
  refine ofParse rfl ?_
  simp (disch := decide) only [parse, h1, h2, BitVec.reduceToNat, parseRowE, reservedZero, h4, h3, reduceIte, BitVec.reduceEq, fld_high, fld_low, Nat.reduceSub, BitVec.extractLsb'_eq_self]

theorem RoundTrip.tacc (d : Code) (a : Code) (b : Code) :
    RoundTrip.Statement (.tacc d a b) := by
  have h1 : fld (0xE5#8 ++ d ++ a ++ b) 28 4 = 0xE#4 := by simp (disch := decide) only [fld_high, Nat.reduceSub]; rfl
  have h2 : fld (0xE5#8 ++ d ++ a ++ b) 24 4 = 0x5#4 := by simp (disch := decide) only [fld_high, Nat.reduceSub]; rfl
  have h3 : (0xE5#8 ++ d ++ a ++ b) &&& 0x0#32 = 0 := BitVec.and_zero
  refine ofParse rfl ?_
  simp (disch := decide) only [parse, h1, h2, BitVec.reduceToNat, parseRowE, reservedZero, h3, reduceIte, fld_high, fld_low, Nat.reduceSub, BitVec.extractLsb'_eq_self]

theorem RoundTrip.evset (a : Code) :
    RoundTrip.Statement (.evset a) := by
  have h1 : fld (0xE6#8 ++ 0x0#8 ++ a ++ 0x0#8) 28 4 = 0xE#4 := by simp (disch := decide) only [fld_high, Nat.reduceSub]; rfl
  have h2 : fld (0xE6#8 ++ 0x0#8 ++ a ++ 0x0#8) 24 4 = 0x6#4 := by simp (disch := decide) only [fld_high, Nat.reduceSub]; rfl
  have h4 : fld (0xE6#8 ++ 0x0#8 ++ a ++ 0x0#8) 16 8 = 0x0#8 := by
    simp (disch := decide) only [fld_high, fld_low, BitVec.extractLsb'_eq_self, Nat.reduceSub]
  have h3 : (0xE6#8 ++ 0x0#8 ++ a ++ 0x0#8) &&& 0xff#32 = 0 := (and0 (u := 0x0#24) (v := 0xFF#8) rfl (and0 (u := 0x0#16) (v := 0x0#8) rfl (and0 (u := 0x0#8) (v := 0x0#8) rfl rfl BitVec.and_zero) BitVec.and_zero) BitVec.zero_and)
  refine ofParse rfl ?_
  simp (disch := decide) only [parse, h1, h2, BitVec.reduceToNat, parseRowE, reservedZero, h4, h3, reduceIte, BitVec.reduceEq, fld_high, fld_low, Nat.reduceSub, BitVec.extractLsb'_eq_self]

theorem RoundTrip.evclr (a : Code) :
    RoundTrip.Statement (.evclr a) := by
  have h1 : fld (0xE7#8 ++ 0x0#8 ++ a ++ 0x0#8) 28 4 = 0xE#4 := by simp (disch := decide) only [fld_high, Nat.reduceSub]; rfl
  have h2 : fld (0xE7#8 ++ 0x0#8 ++ a ++ 0x0#8) 24 4 = 0x7#4 := by simp (disch := decide) only [fld_high, Nat.reduceSub]; rfl
  have h4 : fld (0xE7#8 ++ 0x0#8 ++ a ++ 0x0#8) 16 8 = 0x0#8 := by
    simp (disch := decide) only [fld_high, fld_low, BitVec.extractLsb'_eq_self, Nat.reduceSub]
  have h3 : (0xE7#8 ++ 0x0#8 ++ a ++ 0x0#8) &&& 0xff#32 = 0 := (and0 (u := 0x0#24) (v := 0xFF#8) rfl (and0 (u := 0x0#16) (v := 0x0#8) rfl (and0 (u := 0x0#8) (v := 0x0#8) rfl rfl BitVec.and_zero) BitVec.and_zero) BitVec.zero_and)
  refine ofParse rfl ?_
  simp (disch := decide) only [parse, h1, h2, BitVec.reduceToNat, parseRowE, reservedZero, h4, h3, reduceIte, BitVec.reduceEq, fld_high, fld_low, Nat.reduceSub, BitVec.extractLsb'_eq_self]

theorem RoundTrip.evwait (a : Code) :
    RoundTrip.Statement (.evwait a) := by
  have h1 : fld (0xE8#8 ++ 0x0#8 ++ a ++ 0x0#8) 28 4 = 0xE#4 := by simp (disch := decide) only [fld_high, Nat.reduceSub]; rfl
  have h2 : fld (0xE8#8 ++ 0x0#8 ++ a ++ 0x0#8) 24 4 = 0x8#4 := by simp (disch := decide) only [fld_high, Nat.reduceSub]; rfl
  have h4 : fld (0xE8#8 ++ 0x0#8 ++ a ++ 0x0#8) 16 8 = 0x0#8 := by
    simp (disch := decide) only [fld_high, fld_low, BitVec.extractLsb'_eq_self, Nat.reduceSub]
  have h3 : (0xE8#8 ++ 0x0#8 ++ a ++ 0x0#8) &&& 0xff#32 = 0 := (and0 (u := 0x0#24) (v := 0xFF#8) rfl (and0 (u := 0x0#16) (v := 0x0#8) rfl (and0 (u := 0x0#8) (v := 0x0#8) rfl rfl BitVec.and_zero) BitVec.and_zero) BitVec.zero_and)
  refine ofParse rfl ?_
  simp (disch := decide) only [parse, h1, h2, BitVec.reduceToNat, parseRowE, reservedZero, h4, h3, reduceIte, BitVec.reduceEq, fld_high, fld_low, Nat.reduceSub, BitVec.extractLsb'_eq_self]

theorem RoundTrip.evwaitClear (a : Code) :
    RoundTrip.Statement (.evwaitClear a) := by
  have h1 : fld (0xE8#8 ++ 0x1#8 ++ a ++ 0x0#8) 28 4 = 0xE#4 := by simp (disch := decide) only [fld_high, Nat.reduceSub]; rfl
  have h2 : fld (0xE8#8 ++ 0x1#8 ++ a ++ 0x0#8) 24 4 = 0x8#4 := by simp (disch := decide) only [fld_high, Nat.reduceSub]; rfl
  have h4 : fld (0xE8#8 ++ 0x1#8 ++ a ++ 0x0#8) 16 8 = 0x1#8 := by
    simp (disch := decide) only [fld_high, fld_low, BitVec.extractLsb'_eq_self, Nat.reduceSub]
  have h3 : (0xE8#8 ++ 0x1#8 ++ a ++ 0x0#8) &&& 0xff#32 = 0 := (and0 (u := 0x0#24) (v := 0xFF#8) rfl (and0 (u := 0x0#16) (v := 0x0#8) rfl (and0 (u := 0x0#8) (v := 0x0#8) rfl rfl rfl) BitVec.and_zero) BitVec.zero_and)
  refine ofParse rfl ?_
  simp (disch := decide) only [parse, h1, h2, BitVec.reduceToNat, parseRowE, reservedZero, h4, h3, reduceIte, BitVec.reduceEq, fld_high, fld_low, Nat.reduceSub, BitVec.extractLsb'_eq_self]

theorem RoundTrip.mpt (a : Code) :
    RoundTrip.Statement (.mpt a) := by
  have h1 : fld (0xE9#8 ++ 0x0#8 ++ a ++ 0x0#8) 28 4 = 0xE#4 := by simp (disch := decide) only [fld_high, Nat.reduceSub]; rfl
  have h2 : fld (0xE9#8 ++ 0x0#8 ++ a ++ 0x0#8) 24 4 = 0x9#4 := by simp (disch := decide) only [fld_high, Nat.reduceSub]; rfl
  have h4 : fld (0xE9#8 ++ 0x0#8 ++ a ++ 0x0#8) 16 8 = 0x0#8 := by
    simp (disch := decide) only [fld_high, fld_low, BitVec.extractLsb'_eq_self, Nat.reduceSub]
  have h3 : (0xE9#8 ++ 0x0#8 ++ a ++ 0x0#8) &&& 0xff#32 = 0 := (and0 (u := 0x0#24) (v := 0xFF#8) rfl (and0 (u := 0x0#16) (v := 0x0#8) rfl (and0 (u := 0x0#8) (v := 0x0#8) rfl rfl BitVec.and_zero) BitVec.and_zero) BitVec.zero_and)
  refine ofParse rfl ?_
  simp (disch := decide) only [parse, h1, h2, BitVec.reduceToNat, parseRowE, reservedZero, h4, h3, reduceIte, BitVec.reduceEq, fld_high, fld_low, Nat.reduceSub, BitVec.extractLsb'_eq_self]

theorem RoundTrip.msave (a : Code) (b : Code) :
    RoundTrip.Statement (.msave a b) := by
  have h1 : fld (0xEA#8 ++ 0x0#8 ++ a ++ b) 28 4 = 0xE#4 := by simp (disch := decide) only [fld_high, Nat.reduceSub]; rfl
  have h2 : fld (0xEA#8 ++ 0x0#8 ++ a ++ b) 24 4 = 0xA#4 := by simp (disch := decide) only [fld_high, Nat.reduceSub]; rfl
  have h4 : fld (0xEA#8 ++ 0x0#8 ++ a ++ b) 16 8 = 0x0#8 := by
    simp (disch := decide) only [fld_high, fld_low, BitVec.extractLsb'_eq_self, Nat.reduceSub]
  have h3 : (0xEA#8 ++ 0x0#8 ++ a ++ b) &&& 0x0#32 = 0 := BitVec.and_zero
  refine ofParse rfl ?_
  simp (disch := decide) only [parse, h1, h2, BitVec.reduceToNat, parseRowE, reservedZero, h4, h3, reduceIte, BitVec.reduceEq, fld_high, fld_low, Nat.reduceSub, BitVec.extractLsb'_eq_self]

theorem RoundTrip.mrestore (a : Code) (b : Code) :
    RoundTrip.Statement (.mrestore a b) := by
  have h1 : fld (0xEB#8 ++ 0x0#8 ++ a ++ b) 28 4 = 0xE#4 := by simp (disch := decide) only [fld_high, Nat.reduceSub]; rfl
  have h2 : fld (0xEB#8 ++ 0x0#8 ++ a ++ b) 24 4 = 0xB#4 := by simp (disch := decide) only [fld_high, Nat.reduceSub]; rfl
  have h4 : fld (0xEB#8 ++ 0x0#8 ++ a ++ b) 16 8 = 0x0#8 := by
    simp (disch := decide) only [fld_high, fld_low, BitVec.extractLsb'_eq_self, Nat.reduceSub]
  have h3 : (0xEB#8 ++ 0x0#8 ++ a ++ b) &&& 0x0#32 = 0 := BitVec.and_zero
  refine ofParse rfl ?_
  simp (disch := decide) only [parse, h1, h2, BitVec.reduceToNat, parseRowE, reservedZero, h4, h3, reduceIte, BitVec.reduceEq, fld_high, fld_low, Nat.reduceSub, BitVec.extractLsb'_eq_self]

theorem RoundTrip.rinv (a : Code) (b : Code) :
    RoundTrip.Statement (.rinv a b) := by
  have h1 : fld (0xF0#8 ++ 0x0#8 ++ a ++ b) 28 4 = 0xF#4 := by simp (disch := decide) only [fld_high, Nat.reduceSub]; rfl
  have h2 : fld (0xF0#8 ++ 0x0#8 ++ a ++ b) 24 4 = 0x0#4 := by simp (disch := decide) only [fld_high, Nat.reduceSub]; rfl
  have h4 : fld (0xF0#8 ++ 0x0#8 ++ a ++ b) 16 8 = 0x0#8 := by
    simp (disch := decide) only [fld_high, fld_low, BitVec.extractLsb'_eq_self, Nat.reduceSub]
  have h3 : (0xF0#8 ++ 0x0#8 ++ a ++ b) &&& 0x0#32 = 0 := BitVec.and_zero
  refine ofParse rfl ?_
  simp (disch := decide) only [parse, h1, h2, BitVec.reduceToNat, parseRowF, reservedZero, h4, h3, reduceIte, BitVec.reduceEq, fld_high, fld_low, Nat.reduceSub, BitVec.extractLsb'_eq_self]

theorem RoundTrip.rinvh (a : Code) (b : Code) :
    RoundTrip.Statement (.rinvh a b) := by
  have h1 : fld (0xF1#8 ++ 0x0#8 ++ a ++ b) 28 4 = 0xF#4 := by simp (disch := decide) only [fld_high, Nat.reduceSub]; rfl
  have h2 : fld (0xF1#8 ++ 0x0#8 ++ a ++ b) 24 4 = 0x1#4 := by simp (disch := decide) only [fld_high, Nat.reduceSub]; rfl
  have h4 : fld (0xF1#8 ++ 0x0#8 ++ a ++ b) 16 8 = 0x0#8 := by
    simp (disch := decide) only [fld_high, fld_low, BitVec.extractLsb'_eq_self, Nat.reduceSub]
  have h3 : (0xF1#8 ++ 0x0#8 ++ a ++ b) &&& 0x0#32 = 0 := BitVec.and_zero
  refine ofParse rfl ?_
  simp (disch := decide) only [parse, h1, h2, BitVec.reduceToNat, parseRowF, reservedZero, h4, h3, reduceIte, BitVec.reduceEq, fld_high, fld_low, Nat.reduceSub, BitVec.extractLsb'_eq_self]

theorem RoundTrip.rwait (d : Code) (a : Code) :
    RoundTrip.Statement (.rwait d a) := by
  have h1 : fld (0xF2#8 ++ d ++ a ++ 0x0#8) 28 4 = 0xF#4 := by simp (disch := decide) only [fld_high, Nat.reduceSub]; rfl
  have h2 : fld (0xF2#8 ++ d ++ a ++ 0x0#8) 24 4 = 0x2#4 := by simp (disch := decide) only [fld_high, Nat.reduceSub]; rfl
  have h3 : (0xF2#8 ++ d ++ a ++ 0x0#8) &&& 0xff#32 = 0 := (and0 (u := 0x0#24) (v := 0xFF#8) rfl (and0 (u := 0x0#16) (v := 0x0#8) rfl (and0 (u := 0x0#8) (v := 0x0#8) rfl rfl BitVec.and_zero) BitVec.and_zero) BitVec.zero_and)
  refine ofParse rfl ?_
  simp (disch := decide) only [parse, h1, h2, BitVec.reduceToNat, parseRowF, reservedZero, h3, reduceIte, fld_high, fld_low, Nat.reduceSub, BitVec.extractLsb'_eq_self]

theorem RoundTrip.rpoll (d : Code) (a : Code) :
    RoundTrip.Statement (.rpoll d a) := by
  have h1 : fld (0xF3#8 ++ d ++ a ++ 0x0#8) 28 4 = 0xF#4 := by simp (disch := decide) only [fld_high, Nat.reduceSub]; rfl
  have h2 : fld (0xF3#8 ++ d ++ a ++ 0x0#8) 24 4 = 0x3#4 := by simp (disch := decide) only [fld_high, Nat.reduceSub]; rfl
  have h3 : (0xF3#8 ++ d ++ a ++ 0x0#8) &&& 0xff#32 = 0 := (and0 (u := 0x0#24) (v := 0xFF#8) rfl (and0 (u := 0x0#16) (v := 0x0#8) rfl (and0 (u := 0x0#8) (v := 0x0#8) rfl rfl BitVec.and_zero) BitVec.and_zero) BitVec.zero_and)
  refine ofParse rfl ?_
  simp (disch := decide) only [parse, h1, h2, BitVec.reduceToNat, parseRowF, reservedZero, h3, reduceIte, fld_high, fld_low, Nat.reduceSub, BitVec.extractLsb'_eq_self]

theorem RoundTrip.rget (a : Code) (b : Code) :
    RoundTrip.Statement (.rget a b) := by
  have h1 : fld (0xF4#8 ++ 0x0#8 ++ a ++ b) 28 4 = 0xF#4 := by simp (disch := decide) only [fld_high, Nat.reduceSub]; rfl
  have h2 : fld (0xF4#8 ++ 0x0#8 ++ a ++ b) 24 4 = 0x4#4 := by simp (disch := decide) only [fld_high, Nat.reduceSub]; rfl
  have h4 : fld (0xF4#8 ++ 0x0#8 ++ a ++ b) 16 8 = 0x0#8 := by
    simp (disch := decide) only [fld_high, fld_low, BitVec.extractLsb'_eq_self, Nat.reduceSub]
  have h3 : (0xF4#8 ++ 0x0#8 ++ a ++ b) &&& 0x0#32 = 0 := BitVec.and_zero
  refine ofParse rfl ?_
  simp (disch := decide) only [parse, h1, h2, BitVec.reduceToNat, parseRowF, reservedZero, h4, h3, reduceIte, BitVec.reduceEq, fld_high, fld_low, Nat.reduceSub, BitVec.extractLsb'_eq_self]

theorem RoundTrip.rgetBarn (a : Code) (b : Code) :
    RoundTrip.Statement (.rgetBarn a b) := by
  have h1 : fld (0xF4#8 ++ 0x1#8 ++ a ++ b) 28 4 = 0xF#4 := by simp (disch := decide) only [fld_high, Nat.reduceSub]; rfl
  have h2 : fld (0xF4#8 ++ 0x1#8 ++ a ++ b) 24 4 = 0x4#4 := by simp (disch := decide) only [fld_high, Nat.reduceSub]; rfl
  have h4 : fld (0xF4#8 ++ 0x1#8 ++ a ++ b) 16 8 = 0x1#8 := by
    simp (disch := decide) only [fld_high, fld_low, BitVec.extractLsb'_eq_self, Nat.reduceSub]
  have h3 : (0xF4#8 ++ 0x1#8 ++ a ++ b) &&& 0x0#32 = 0 := BitVec.and_zero
  refine ofParse rfl ?_
  simp (disch := decide) only [parse, h1, h2, BitVec.reduceToNat, parseRowF, reservedZero, h4, h3, reduceIte, BitVec.reduceEq, fld_high, fld_low, Nat.reduceSub, BitVec.extractLsb'_eq_self]

theorem RoundTrip.rdrop (a : Code) :
    RoundTrip.Statement (.rdrop a) := by
  have h1 : fld (0xF5#8 ++ 0x0#8 ++ a ++ 0x0#8) 28 4 = 0xF#4 := by simp (disch := decide) only [fld_high, Nat.reduceSub]; rfl
  have h2 : fld (0xF5#8 ++ 0x0#8 ++ a ++ 0x0#8) 24 4 = 0x5#4 := by simp (disch := decide) only [fld_high, Nat.reduceSub]; rfl
  have h4 : fld (0xF5#8 ++ 0x0#8 ++ a ++ 0x0#8) 16 8 = 0x0#8 := by
    simp (disch := decide) only [fld_high, fld_low, BitVec.extractLsb'_eq_self, Nat.reduceSub]
  have h3 : (0xF5#8 ++ 0x0#8 ++ a ++ 0x0#8) &&& 0xff#32 = 0 := (and0 (u := 0x0#24) (v := 0xFF#8) rfl (and0 (u := 0x0#16) (v := 0x0#8) rfl (and0 (u := 0x0#8) (v := 0x0#8) rfl rfl BitVec.and_zero) BitVec.and_zero) BitVec.zero_and)
  refine ofParse rfl ?_
  simp (disch := decide) only [parse, h1, h2, BitVec.reduceToNat, parseRowF, reservedZero, h4, h3, reduceIte, BitVec.reduceEq, fld_high, fld_low, Nat.reduceSub, BitVec.extractLsb'_eq_self]

theorem RoundTrip.rbind (a : Code) (b : Code) :
    RoundTrip.Statement (.rbind a b) := by
  have h1 : fld (0xF6#8 ++ 0x0#8 ++ a ++ b) 28 4 = 0xF#4 := by simp (disch := decide) only [fld_high, Nat.reduceSub]; rfl
  have h2 : fld (0xF6#8 ++ 0x0#8 ++ a ++ b) 24 4 = 0x6#4 := by simp (disch := decide) only [fld_high, Nat.reduceSub]; rfl
  have h4 : fld (0xF6#8 ++ 0x0#8 ++ a ++ b) 16 8 = 0x0#8 := by
    simp (disch := decide) only [fld_high, fld_low, BitVec.extractLsb'_eq_self, Nat.reduceSub]
  have h3 : (0xF6#8 ++ 0x0#8 ++ a ++ b) &&& 0x0#32 = 0 := BitVec.and_zero
  refine ofParse rfl ?_
  simp (disch := decide) only [parse, h1, h2, BitVec.reduceToNat, parseRowF, reservedZero, h4, h3, reduceIte, BitVec.reduceEq, fld_high, fld_low, Nat.reduceSub, BitVec.extractLsb'_eq_self]

theorem RoundTrip.rput (a : Code) (b : Code) :
    RoundTrip.Statement (.rput a b) := by
  have h1 : fld (0xF7#8 ++ 0x0#8 ++ a ++ b) 28 4 = 0xF#4 := by simp (disch := decide) only [fld_high, Nat.reduceSub]; rfl
  have h2 : fld (0xF7#8 ++ 0x0#8 ++ a ++ b) 24 4 = 0x7#4 := by simp (disch := decide) only [fld_high, Nat.reduceSub]; rfl
  have h4 : fld (0xF7#8 ++ 0x0#8 ++ a ++ b) 16 8 = 0x0#8 := by
    simp (disch := decide) only [fld_high, fld_low, BitVec.extractLsb'_eq_self, Nat.reduceSub]
  have h3 : (0xF7#8 ++ 0x0#8 ++ a ++ b) &&& 0x0#32 = 0 := BitVec.and_zero
  refine ofParse rfl ?_
  simp (disch := decide) only [parse, h1, h2, BitVec.reduceToNat, parseRowF, reservedZero, h4, h3, reduceIte, BitVec.reduceEq, fld_high, fld_low, Nat.reduceSub, BitVec.extractLsb'_eq_self]

theorem RoundTrip.rfail (a : Code) (b : Code) :
    RoundTrip.Statement (.rfail a b) := by
  have h1 : fld (0xF7#8 ++ 0x1#8 ++ a ++ b) 28 4 = 0xF#4 := by simp (disch := decide) only [fld_high, Nat.reduceSub]; rfl
  have h2 : fld (0xF7#8 ++ 0x1#8 ++ a ++ b) 24 4 = 0x7#4 := by simp (disch := decide) only [fld_high, Nat.reduceSub]; rfl
  have h4 : fld (0xF7#8 ++ 0x1#8 ++ a ++ b) 16 8 = 0x1#8 := by
    simp (disch := decide) only [fld_high, fld_low, BitVec.extractLsb'_eq_self, Nat.reduceSub]
  have h3 : (0xF7#8 ++ 0x1#8 ++ a ++ b) &&& 0x0#32 = 0 := BitVec.and_zero
  refine ofParse rfl ?_
  simp (disch := decide) only [parse, h1, h2, BitVec.reduceToNat, parseRowF, reservedZero, h4, h3, reduceIte, BitVec.reduceEq, fld_high, fld_low, Nat.reduceSub, BitVec.extractLsb'_eq_self]

theorem RoundTrip.tcarm (a : Code) (b : Code) :
    RoundTrip.Statement (.tcarm a b) := by
  have h1 : fld (0xF7#8 ++ 0x2#8 ++ a ++ b) 28 4 = 0xF#4 := by simp (disch := decide) only [fld_high, Nat.reduceSub]; rfl
  have h2 : fld (0xF7#8 ++ 0x2#8 ++ a ++ b) 24 4 = 0x7#4 := by simp (disch := decide) only [fld_high, Nat.reduceSub]; rfl
  have h4 : fld (0xF7#8 ++ 0x2#8 ++ a ++ b) 16 8 = 0x2#8 := by
    simp (disch := decide) only [fld_high, fld_low, BitVec.extractLsb'_eq_self, Nat.reduceSub]
  have h3 : (0xF7#8 ++ 0x2#8 ++ a ++ b) &&& 0x0#32 = 0 := BitVec.and_zero
  refine ofParse rfl ?_
  simp (disch := decide) only [parse, h1, h2, BitVec.reduceToNat, parseRowF, reservedZero, h4, h3, reduceIte, BitVec.reduceEq, fld_high, fld_low, Nat.reduceSub, BitVec.extractLsb'_eq_self]

theorem RoundTrip.tcadd (a : Code) (b : Code) :
    RoundTrip.Statement (.tcadd a b) := by
  have h1 : fld (0xF7#8 ++ 0x3#8 ++ a ++ b) 28 4 = 0xF#4 := by simp (disch := decide) only [fld_high, Nat.reduceSub]; rfl
  have h2 : fld (0xF7#8 ++ 0x3#8 ++ a ++ b) 24 4 = 0x7#4 := by simp (disch := decide) only [fld_high, Nat.reduceSub]; rfl
  have h4 : fld (0xF7#8 ++ 0x3#8 ++ a ++ b) 16 8 = 0x3#8 := by
    simp (disch := decide) only [fld_high, fld_low, BitVec.extractLsb'_eq_self, Nat.reduceSub]
  have h3 : (0xF7#8 ++ 0x3#8 ++ a ++ b) &&& 0x0#32 = 0 := BitVec.and_zero
  refine ofParse rfl ?_
  simp (disch := decide) only [parse, h1, h2, BitVec.reduceToNat, parseRowF, reservedZero, h4, h3, reduceIte, BitVec.reduceEq, fld_high, fld_low, Nat.reduceSub, BitVec.extractLsb'_eq_self]

theorem RoundTrip.trap (c : BitVec 16) :
    RoundTrip.Statement (.trap c) := by
  have h1 : fld (0xF8#8 ++ 0x0#8 ++ c) 28 4 = 0xF#4 := by simp (disch := decide) only [fld_high, Nat.reduceSub]; rfl
  have h2 : fld (0xF8#8 ++ 0x0#8 ++ c) 24 4 = 0x8#4 := by simp (disch := decide) only [fld_high, Nat.reduceSub]; rfl
  have h3 : (0xF8#8 ++ 0x0#8 ++ c) &&& 0xff0000#32 = 0 := (and0 (u := 0xFF#16) (v := 0x0#16) rfl (and0 (u := 0x0#8) (v := 0xFF#8) rfl rfl BitVec.zero_and) BitVec.and_zero)
  refine ofParse rfl ?_
  simp (disch := decide) only [parse, h1, h2, BitVec.reduceToNat, parseRowF, reservedZero, h3, reduceIte, fld_high, fld_low, Nat.reduceSub, BitVec.extractLsb'_eq_self]

theorem RoundTrip.tvec (l : BitVec 1) (a : Code) (b : Code) :
    RoundTrip.Statement (.tvec l a b) := by
  have h1 : fld (0xF9#8 ++ 0x0#7 ++ l ++ a ++ b) 28 4 = 0xF#4 := by simp (disch := decide) only [fld_high, Nat.reduceSub]; rfl
  have h2 : fld (0xF9#8 ++ 0x0#7 ++ l ++ a ++ b) 24 4 = 0x9#4 := by simp (disch := decide) only [fld_high, Nat.reduceSub]; rfl
  have h3 : (0xF9#8 ++ 0x0#7 ++ l ++ a ++ b) &&& 0xfe0000#32 = 0 := (and0 (u := 0xFE00#24) (v := 0x0#8) rfl (and0 (u := 0xFE#16) (v := 0x0#8) rfl (and0 (u := 0x7F#15) (v := 0x0#1) rfl (and0 (u := 0x0#8) (v := 0x7F#7) rfl rfl BitVec.zero_and) BitVec.and_zero) BitVec.and_zero) BitVec.and_zero)
  refine ofParse rfl ?_
  simp (disch := decide) only [parse, h1, h2, BitVec.reduceToNat, parseRowF, reservedZero, h3, reduceIte, fld_high, fld_low, Nat.reduceSub, BitVec.extractLsb'_eq_self]

theorem RoundTrip.tret : RoundTrip.Statement .tret := ofParse rfl rfl

theorem RoundTrip.tretSkip : RoundTrip.Statement .tretSkip := ofParse rfl rfl

theorem RoundTrip.tdone (a : Code) :
    RoundTrip.Statement (.tdone a) := by
  have h1 : fld (0xFB#8 ++ 0x0#8 ++ a ++ 0x0#8) 28 4 = 0xF#4 := by simp (disch := decide) only [fld_high, Nat.reduceSub]; rfl
  have h2 : fld (0xFB#8 ++ 0x0#8 ++ a ++ 0x0#8) 24 4 = 0xB#4 := by simp (disch := decide) only [fld_high, Nat.reduceSub]; rfl
  have h4 : fld (0xFB#8 ++ 0x0#8 ++ a ++ 0x0#8) 16 8 = 0x0#8 := by
    simp (disch := decide) only [fld_high, fld_low, BitVec.extractLsb'_eq_self, Nat.reduceSub]
  have h3 : (0xFB#8 ++ 0x0#8 ++ a ++ 0x0#8) &&& 0xff#32 = 0 := (and0 (u := 0x0#24) (v := 0xFF#8) rfl (and0 (u := 0x0#16) (v := 0x0#8) rfl (and0 (u := 0x0#8) (v := 0x0#8) rfl rfl BitVec.and_zero) BitVec.and_zero) BitVec.zero_and)
  refine ofParse rfl ?_
  simp (disch := decide) only [parse, h1, h2, BitVec.reduceToNat, parseRowF, reservedZero, h4, h3, reduceIte, BitVec.reduceEq, fld_high, fld_low, Nat.reduceSub, BitVec.extractLsb'_eq_self]

theorem RoundTrip.sysrd (n : Code) (a : Code) :
    RoundTrip.Statement (.sysrd n a) := by
  have h1 : fld (0xFC#8 ++ n ++ a ++ 0x0#8) 28 4 = 0xF#4 := by simp (disch := decide) only [fld_high, Nat.reduceSub]; rfl
  have h2 : fld (0xFC#8 ++ n ++ a ++ 0x0#8) 24 4 = 0xC#4 := by simp (disch := decide) only [fld_high, Nat.reduceSub]; rfl
  have h3 : (0xFC#8 ++ n ++ a ++ 0x0#8) &&& 0xff#32 = 0 := (and0 (u := 0x0#24) (v := 0xFF#8) rfl (and0 (u := 0x0#16) (v := 0x0#8) rfl (and0 (u := 0x0#8) (v := 0x0#8) rfl rfl BitVec.and_zero) BitVec.and_zero) BitVec.zero_and)
  refine ofParse rfl ?_
  simp (disch := decide) only [parse, h1, h2, BitVec.reduceToNat, parseRowF, reservedZero, h3, reduceIte, fld_high, fld_low, Nat.reduceSub, BitVec.extractLsb'_eq_self]

theorem RoundTrip.syswr (n : Code) (a : Code) :
    RoundTrip.Statement (.syswr n a) := by
  have h1 : fld (0xFD#8 ++ n ++ a ++ 0x0#8) 28 4 = 0xF#4 := by simp (disch := decide) only [fld_high, Nat.reduceSub]; rfl
  have h2 : fld (0xFD#8 ++ n ++ a ++ 0x0#8) 24 4 = 0xD#4 := by simp (disch := decide) only [fld_high, Nat.reduceSub]; rfl
  have h3 : (0xFD#8 ++ n ++ a ++ 0x0#8) &&& 0xff#32 = 0 := (and0 (u := 0x0#24) (v := 0xFF#8) rfl (and0 (u := 0x0#16) (v := 0x0#8) rfl (and0 (u := 0x0#8) (v := 0x0#8) rfl rfl BitVec.and_zero) BitVec.and_zero) BitVec.zero_and)
  refine ofParse rfl ?_
  simp (disch := decide) only [parse, h1, h2, BitVec.reduceToNat, parseRowF, reservedZero, h3, reduceIte, fld_high, fld_low, Nat.reduceSub, BitVec.extractLsb'_eq_self]

theorem RoundTrip.tlbip (a : Code) (b : Code) :
    RoundTrip.Statement (.tlbip a b) := by
  have h1 : fld (0xFE#8 ++ 0x0#8 ++ a ++ b) 28 4 = 0xF#4 := by simp (disch := decide) only [fld_high, Nat.reduceSub]; rfl
  have h2 : fld (0xFE#8 ++ 0x0#8 ++ a ++ b) 24 4 = 0xE#4 := by simp (disch := decide) only [fld_high, Nat.reduceSub]; rfl
  have h4 : fld (0xFE#8 ++ 0x0#8 ++ a ++ b) 16 8 = 0x0#8 := by
    simp (disch := decide) only [fld_high, fld_low, BitVec.extractLsb'_eq_self, Nat.reduceSub]
  have h3 : (0xFE#8 ++ 0x0#8 ++ a ++ b) &&& 0x0#32 = 0 := BitVec.and_zero
  refine ofParse rfl ?_
  simp (disch := decide) only [parse, h1, h2, BitVec.reduceToNat, parseRowF, reservedZero, h4, h3, reduceIte, BitVec.reduceEq, fld_high, fld_low, Nat.reduceSub, BitVec.extractLsb'_eq_self]

theorem RoundTrip.tlbia (a : Code) :
    RoundTrip.Statement (.tlbia a) := by
  have h1 : fld (0xFE#8 ++ 0x1#8 ++ a ++ 0x0#8) 28 4 = 0xF#4 := by simp (disch := decide) only [fld_high, Nat.reduceSub]; rfl
  have h2 : fld (0xFE#8 ++ 0x1#8 ++ a ++ 0x0#8) 24 4 = 0xE#4 := by simp (disch := decide) only [fld_high, Nat.reduceSub]; rfl
  have h4 : fld (0xFE#8 ++ 0x1#8 ++ a ++ 0x0#8) 16 8 = 0x1#8 := by
    simp (disch := decide) only [fld_high, fld_low, BitVec.extractLsb'_eq_self, Nat.reduceSub]
  have h3 : (0xFE#8 ++ 0x1#8 ++ a ++ 0x0#8) &&& 0xff#32 = 0 := (and0 (u := 0x0#24) (v := 0xFF#8) rfl (and0 (u := 0x0#16) (v := 0x0#8) rfl (and0 (u := 0x0#8) (v := 0x0#8) rfl rfl rfl) BitVec.and_zero) BitVec.zero_and)
  refine ofParse rfl ?_
  simp (disch := decide) only [parse, h1, h2, BitVec.reduceToNat, parseRowF, reservedZero, h4, h3, reduceIte, BitVec.reduceEq, fld_high, fld_low, Nat.reduceSub, BitVec.extractLsb'_eq_self]

theorem RoundTrip.tlball : RoundTrip.Statement .tlball := ofParse rfl rfl

theorem RoundTrip.fwcall (a : Code) (b : Code) :
    RoundTrip.Statement (.fwcall a b) := by
  have h1 : fld (0xFE#8 ++ 0x3#8 ++ a ++ b) 28 4 = 0xF#4 := by simp (disch := decide) only [fld_high, Nat.reduceSub]; rfl
  have h2 : fld (0xFE#8 ++ 0x3#8 ++ a ++ b) 24 4 = 0xE#4 := by simp (disch := decide) only [fld_high, Nat.reduceSub]; rfl
  have h4 : fld (0xFE#8 ++ 0x3#8 ++ a ++ b) 16 8 = 0x3#8 := by
    simp (disch := decide) only [fld_high, fld_low, BitVec.extractLsb'_eq_self, Nat.reduceSub]
  have h3 : (0xFE#8 ++ 0x3#8 ++ a ++ b) &&& 0x0#32 = 0 := BitVec.and_zero
  refine ofParse rfl ?_
  simp (disch := decide) only [parse, h1, h2, BitVec.reduceToNat, parseRowF, reservedZero, h4, h3, reduceIte, BitVec.reduceEq, fld_high, fld_low, Nat.reduceSub, BitVec.extractLsb'_eq_self]

theorem RoundTrip.regangMerge (gang : Nat) (pc : PcVal) : RoundTrip.Statement (.regangMerge gang pc) := ofEvent rfl

theorem RoundTrip.gangEnd (gang : Nat) : RoundTrip.Statement (.gangEnd gang) := ofEvent rfl

theorem RoundTrip.regrowGrant (core : Nat) (lg : Nat) : RoundTrip.Statement (.regrowGrant core lg) := ofEvent rfl

theorem RoundTrip.regrowTimeout (gang : Nat) : RoundTrip.Statement (.regrowTimeout gang) := ofEvent rfl

theorem RoundTrip.promotionEvaluation (core : Nat) (lg : Nat) : RoundTrip.Statement (.promotionEvaluation core lg) := ofEvent rfl

theorem RoundTrip.demotion (core : Nat) (lg : Nat) : RoundTrip.Statement (.demotion core lg) := ofEvent rfl

theorem RoundTrip.branchMispredict (gang : Nat) : RoundTrip.Statement (.branchMispredict gang) := ofEvent rfl

theorem RoundTrip.memoryOperationComplete (gang : Nat) (id : Nat) : RoundTrip.Statement (.memoryOperationComplete gang id) := ofEvent rfl

theorem RoundTrip.releaseComplete (gang : Nat) (id : Nat) : RoundTrip.Statement (.releaseComplete gang id) := ofEvent rfl

theorem RoundTrip.mwaitTimeout (gang : Nat) : RoundTrip.Statement (.mwaitTimeout gang) := ofEvent rfl

theorem RoundTrip.reuseClockAdvance (wid : Nat) : RoundTrip.Statement (.reuseClockAdvance wid) := ofEvent rfl

theorem RoundTrip.gtAdvance : RoundTrip.Statement (.gtAdvance) := ofEvent rfl

theorem RoundTrip.pageWalk (core : Nat) (pasid : Nat) (va : Nat) (access : Nat) : RoundTrip.Statement (.pageWalk core pasid va access) := ofEvent rfl

theorem RoundTrip.heatSweep : RoundTrip.Statement (.heatSweep) := ofEvent rfl

theorem RoundTrip.tlbInvalidationComplete (gang : Nat) (id : Nat) : RoundTrip.Statement (.tlbInvalidationComplete gang id) := ofEvent rfl

theorem RoundTrip.teardownComplete (pasid : Nat) : RoundTrip.Statement (.teardownComplete pasid) := ofEvent rfl

theorem RoundTrip.namedGroupNodeArrival (part : Nat) (gid : Nat) (node : Nat) : RoundTrip.Statement (.namedGroupNodeArrival part gid node) := ofEvent rfl

theorem RoundTrip.namedGroupCompletion (part : Nat) (gid : Nat) : RoundTrip.Statement (.namedGroupCompletion part gid) := ofEvent rfl

theorem RoundTrip.gleanerCommandStart (core : Nat) : RoundTrip.Statement (.gleanerCommandStart core) := ofEvent rfl

theorem RoundTrip.copyUnit (core : Nat) (ticket : Nat) : RoundTrip.Statement (.copyUnit core ticket) := ofEvent rfl

theorem RoundTrip.gatherRow (core : Nat) (ticket : Nat) (row : Nat) : RoundTrip.Statement (.gatherRow core ticket row) := ofEvent rfl

theorem RoundTrip.multicastAck (core : Nat) (ticket : Nat) (receiver : Nat) : RoundTrip.Statement (.multicastAck core ticket receiver) := ofEvent rfl

theorem RoundTrip.scalePlacement (core : Nat) (ticket : Nat) : RoundTrip.Statement (.scalePlacement core ticket) := ofEvent rfl

theorem RoundTrip.gleanerCommandCompletion (core : Nat) (ticket : Nat) : RoundTrip.Statement (.gleanerCommandCompletion core ticket) := ofEvent rfl

theorem RoundTrip.mloopEntryStart (cluster : Nat) (slot : Nat) : RoundTrip.Statement (.mloopEntryStart cluster slot) := ofEvent rfl

theorem RoundTrip.thresherPassGrant (cluster : Nat) : RoundTrip.Statement (.thresherPassGrant cluster) := ofEvent rfl

theorem RoundTrip.thresherPassEnd (cluster : Nat) : RoundTrip.Statement (.thresherPassEnd cluster) := ofEvent rfl

theorem RoundTrip.tilePortStart (cluster : Nat) : RoundTrip.Statement (.tilePortStart cluster) := ofEvent rfl

theorem RoundTrip.tileOperationComplete (cluster : Nat) : RoundTrip.Statement (.tileOperationComplete cluster) := ofEvent rfl

theorem RoundTrip.invocationArrival (msg : Nat) : RoundTrip.Statement (.invocationArrival msg) := ofEvent rfl

theorem RoundTrip.dependentMessageAtHome (msg : Nat) : RoundTrip.Statement (.dependentMessageAtHome msg) := ofEvent rfl

theorem RoundTrip.bindReport (msg : Nat) : RoundTrip.Statement (.bindReport msg) := ofEvent rfl

theorem RoundTrip.resultPosted (msg : Nat) : RoundTrip.Statement (.resultPosted msg) := ofEvent rfl

theorem RoundTrip.rgetResultArrival (msg : Nat) : RoundTrip.Statement (.rgetResultArrival msg) := ofEvent rfl

theorem RoundTrip.invocationFabricTimeout (msg : Nat) : RoundTrip.Statement (.invocationFabricTimeout msg) := ofEvent rfl

theorem RoundTrip.tcaddArrival (msg : Nat) : RoundTrip.Statement (.tcaddArrival msg) := ofEvent rfl

theorem RoundTrip.pendingFireCopy (cell : Nat) : RoundTrip.Statement (.pendingFireCopy cell) := ofEvent rfl

theorem RoundTrip.preemptGraceExpiry (wid : Nat) : RoundTrip.Statement (.preemptGraceExpiry wid) := ofEvent rfl

theorem RoundTrip.preemptionSave (wid : Nat) : RoundTrip.Statement (.preemptionSave wid) := ofEvent rfl

theorem RoundTrip.workgroupRestore (wid : Nat) (core : Nat) : RoundTrip.Statement (.workgroupRestore wid core) := ofEvent rfl

theorem RoundTrip.fwcallReply (gang : Nat) : RoundTrip.Statement (.fwcallReply gang) := ofEvent rfl

theorem RoundTrip.plaquelTranslation (launch : Nat) : RoundTrip.Statement (.plaquelTranslation launch) := ofEvent rfl

theorem RoundTrip.doorbellWrite (queue : Nat) : RoundTrip.Statement (.doorbellWrite queue) := ofEvent rfl

theorem RoundTrip.queuePoll : RoundTrip.Statement (.queuePoll) := ofEvent rfl

theorem RoundTrip.launchPacket (queue : Nat) : RoundTrip.Statement (.launchPacket queue) := ofEvent rfl

theorem RoundTrip.waitAndPacket (queue : Nat) : RoundTrip.Statement (.waitAndPacket queue) := ofEvent rfl

theorem RoundTrip.waitAndPoll (queue : Nat) (pkt : Nat) : RoundTrip.Statement (.waitAndPoll queue pkt) := ofEvent rfl

theorem RoundTrip.waitAndTimeout (queue : Nat) (pkt : Nat) : RoundTrip.Statement (.waitAndTimeout queue pkt) := ofEvent rfl

theorem RoundTrip.triggerArmPacket (queue : Nat) : RoundTrip.Statement (.triggerArmPacket queue) := ofEvent rfl

theorem RoundTrip.copyPacket (queue : Nat) : RoundTrip.Statement (.copyPacket queue) := ofEvent rfl

theorem RoundTrip.signalPacket (queue : Nat) : RoundTrip.Statement (.signalPacket queue) := ofEvent rfl

theorem RoundTrip.partitionConfigure (queue : Nat) : RoundTrip.Statement (.partitionConfigure queue) := ofEvent rfl

theorem RoundTrip.partitionRemove (queue : Nat) : RoundTrip.Statement (.partitionRemove queue) := ofEvent rfl

theorem RoundTrip.partitionQueueDescriptor (queue : Nat) : RoundTrip.Statement (.partitionQueueDescriptor queue) := ofEvent rfl

theorem RoundTrip.partitionTeardown (queue : Nat) : RoundTrip.Statement (.partitionTeardown queue) := ofEvent rfl

theorem RoundTrip.partitionFlush (queue : Nat) : RoundTrip.Statement (.partitionFlush queue) := ofEvent rfl

theorem RoundTrip.dispatch (die : Nat) : RoundTrip.Statement (.dispatch die) := ofEvent rfl

theorem RoundTrip.workgroupAdmission (launch : Nat) (cores : List Nat) : RoundTrip.Statement (.workgroupAdmission launch cores) := ofEvent rfl

theorem RoundTrip.headAgeing (die : Nat) (queue : Nat) : RoundTrip.Statement (.headAgeing die queue) := ofEvent rfl

theorem RoundTrip.workgroupRetirement (wid : Nat) : RoundTrip.Statement (.workgroupRetirement wid) := ofEvent rfl

theorem RoundTrip.wgPreemptWrite (value : Word) : RoundTrip.Statement (.wgPreemptWrite value) := ofEvent rfl

theorem RoundTrip.tfqReplyRetry (die : Nat) (entry : Nat) : RoundTrip.Statement (.tfqReplyRetry die entry) := ofEvent rfl

theorem RoundTrip.tfqReplyDeliver (die : Nat) (entry : Nat) : RoundTrip.Statement (.tfqReplyDeliver die entry) := ofEvent rfl

theorem RoundTrip.tfqReplyFail (die : Nat) (entry : Nat) (fcause : Nat) : RoundTrip.Statement (.tfqReplyFail die entry fcause) := ofEvent rfl

theorem RoundTrip.tfqHeadWrite (die : Nat) (value : Word) : RoundTrip.Statement (.tfqHeadWrite die value) := ofEvent rfl

theorem RoundTrip.registerWrite (window : Bool) (die : Nat) (number : Nat) (value : DWord) : RoundTrip.Statement (.registerWrite window die number value) := ofEvent rfl

theorem RoundTrip.policyCommit (part : Nat) : RoundTrip.Statement (.policyCommit part) := ofEvent rfl

theorem RoundTrip.hostBar0Access (write : Bool) (addr : Nat) (size : Nat) (data : Nat) : RoundTrip.Statement (.hostBar0Access write addr size data) := ofEvent rfl

theorem RoundTrip.dvfsReq (value : Word) : RoundTrip.Statement (.dvfsReq value) := ofEvent rfl

theorem RoundTrip.clockSwitchEnd : RoundTrip.Statement (.clockSwitchEnd) := ofEvent rfl

theorem RoundTrip.voltageSlewEnd : RoundTrip.Statement (.voltageSlewEnd) := ofEvent rfl

theorem RoundTrip.thermalThrottle (die : Nat) (temp : Nat) : RoundTrip.Statement (.thermalThrottle die temp) := ofEvent rfl

theorem RoundTrip.throttleEnd : RoundTrip.Statement (.throttleEnd) := ofEvent rfl

theorem RoundTrip.thermalShutdown (die : Nat) (temp : Nat) : RoundTrip.Statement (.thermalShutdown die temp) := ofEvent rfl

theorem RoundTrip.powerCapStep (average : Nat) : RoundTrip.Statement (.powerCapStep average) := ofEvent rfl

theorem RoundTrip.telemetrySample (power : Nat) (inlet : Nat) (hot : Nat) : RoundTrip.Statement (.telemetrySample power inlet hot) := ofEvent rfl

theorem RoundTrip.patrolScrub (line : Nat) (verdict : Nat) : RoundTrip.Statement (.patrolScrub line verdict) := ofEvent rfl

theorem RoundTrip.rowActivationRefresh (row : Nat) : RoundTrip.Statement (.rowActivationRefresh row) := ofEvent rfl

theorem RoundTrip.meshFlitError (header : Bool) (die : Nat) (pasid : Nat) (found : List Nat) : RoundTrip.Statement (.meshFlitError header die pasid found) := ofEvent rfl

theorem RoundTrip.lumenMessageReceive (link : Nat) (crcOk : Bool) (header : DWord) (payload : List Byte) : RoundTrip.Statement (.lumenMessageReceive link crcOk header payload) := ofEvent rfl

theorem RoundTrip.heldMessageRelease (link : Nat) : RoundTrip.Statement (.heldMessageRelease link) := ofEvent rfl

theorem RoundTrip.linkRecalibration (link : Nat) (far : Option Nat) : RoundTrip.Statement (.linkRecalibration link far) := ofEvent rfl

theorem RoundTrip.inboundAccess (src : Nat) (spart : Nat) (pasid : Nat) (kind : Nat) (addr : Nat) (size : Nat) (data : Nat) : RoundTrip.Statement (.inboundAccess src spart pasid kind addr size data) := ofEvent rfl

theorem RoundTrip.inboundTimeout (id : Nat) : RoundTrip.Statement (.inboundTimeout id) := ofEvent rfl

theorem RoundTrip.initiatorTimeout (msg : Nat) : RoundTrip.Statement (.initiatorTimeout msg) := ofEvent rfl

theorem RoundTrip.deviceReset (pins : Nat) (bridge : Bool) : RoundTrip.Statement (.deviceReset pins bridge) := ofEvent rfl

theorem RoundTrip.illegalInstruction (word : Word) : RoundTrip.Statement (.illegalInstruction word) := ofEvent rfl

theorem RoundTrip.pageRequestReply (die : Nat) (entry : Nat) (resolved : Bool) : RoundTrip.Statement (.pageRequestReply die entry resolved) := ofEvent rfl

end Sys2Proof.Laws
end

