-- ==== Sys2Proof/Laws/State.lean ====
section
/-! SUPPORT. What every update of a record of State leaves as it was, field by field, and what reads find after it. -/

namespace Sys2Proof.Machine

/-! ### The records by key: which field of State each update changes -/

@[simp] theorem State.cur_setGangAt (s : State) (k : Nat) (g : Gang) : (s.setGangAt k g).cur = s.cur := rfl
@[simp] theorem State.wgs_setGangAt (s : State) (k : Nat) (g : Gang) : (s.setGangAt k g).wgs = s.wgs := rfl
@[simp] theorem State.cores_setGangAt (s : State) (k : Nat) (g : Gang) : (s.setGangAt k g).cores = s.cores := rfl
@[simp] theorem State.clusters_setGangAt (s : State) (k : Nat) (g : Gang) : (s.setGangAt k g).clusters = s.clusters := rfl
@[simp] theorem State.dies_setGangAt (s : State) (k : Nat) (g : Gang) : (s.setGangAt k g).dies = s.dies := rfl
@[simp] theorem State.parts_setGangAt (s : State) (k : Nat) (g : Gang) : (s.setGangAt k g).parts = s.parts := rfl
@[simp] theorem State.mem_setGangAt (s : State) (k : Nat) (g : Gang) : (s.setGangAt k g).mem = s.mem := rfl
@[simp] theorem State.badLines_setGangAt (s : State) (k : Nat) (g : Gang) : (s.setGangAt k g).badLines = s.badLines := rfl
@[simp] theorem State.migrating_setGangAt (s : State) (k : Nat) (g : Gang) : (s.setGangAt k g).migrating = s.migrating := rfl
@[simp] theorem State.ioTlb_setGangAt (s : State) (k : Nat) (g : Gang) : (s.setGangAt k g).ioTlb = s.ioTlb := rfl
@[simp] theorem State.window_setGangAt (s : State) (k : Nat) (g : Gang) : (s.setGangAt k g).window = s.window := rfl
@[simp] theorem State.sys_setGangAt (s : State) (k : Nat) (g : Gang) : (s.setGangAt k g).sys = s.sys := rfl
@[simp] theorem State.power_setGangAt (s : State) (k : Nat) (g : Gang) : (s.setGangAt k g).power = s.power := rfl
@[simp] theorem State.groups_setGangAt (s : State) (k : Nat) (g : Gang) : (s.setGangAt k g).groups = s.groups := rfl
@[simp] theorem State.handles_setGangAt (s : State) (k : Nat) (g : Gang) : (s.setGangAt k g).handles = s.handles := rfl
@[simp] theorem State.msgs_setGangAt (s : State) (k : Nat) (g : Gang) : (s.setGangAt k g).msgs = s.msgs := rfl
@[simp] theorem State.held_setGangAt (s : State) (k : Nat) (g : Gang) : (s.setGangAt k g).held = s.held := rfl
@[simp] theorem State.execs_setGangAt (s : State) (k : Nat) (g : Gang) : (s.setGangAt k g).execs = s.execs := rfl
@[simp] theorem State.alarms_setGangAt (s : State) (k : Nat) (g : Gang) : (s.setGangAt k g).alarms = s.alarms := rfl
@[simp] theorem State.cells_setGangAt (s : State) (k : Nat) (g : Gang) : (s.setGangAt k g).cells = s.cells := rfl
@[simp] theorem State.queues_setGangAt (s : State) (k : Nat) (g : Gang) : (s.setGangAt k g).queues = s.queues := rfl
@[simp] theorem State.frontWrites_setGangAt (s : State) (k : Nat) (g : Gang) : (s.setGangAt k g).frontWrites = s.frontWrites := rfl
@[simp] theorem State.launches_setGangAt (s : State) (k : Nat) (g : Gang) : (s.setGangAt k g).launches = s.launches := rfl
@[simp] theorem State.admission_setGangAt (s : State) (k : Nat) (g : Gang) : (s.setGangAt k g).admission = s.admission := rfl
@[simp] theorem State.saved_setGangAt (s : State) (k : Nat) (g : Gang) : (s.setGangAt k g).saved = s.saved := rfl
@[simp] theorem State.promo_setGangAt (s : State) (k : Nat) (g : Gang) : (s.setGangAt k g).promo = s.promo := rfl
@[simp] theorem State.watches_setGangAt (s : State) (k : Nat) (g : Gang) : (s.setGangAt k g).watches = s.watches := rfl
@[simp] theorem State.gt_setGangAt (s : State) (k : Nat) (g : Gang) : (s.setGangAt k g).gt = s.gt := rfl
@[simp] theorem State.sweep_setGangAt (s : State) (k : Nat) (g : Gang) : (s.setGangAt k g).sweep = s.sweep := rfl
@[simp] theorem State.teardowns_setGangAt (s : State) (k : Nat) (g : Gang) : (s.setGangAt k g).teardowns = s.teardowns := rfl
@[simp] theorem State.endings_setGangAt (s : State) (k : Nat) (g : Gang) : (s.setGangAt k g).endings = s.endings := rfl
@[simp] theorem State.invals_setGangAt (s : State) (k : Nat) (g : Gang) : (s.setGangAt k g).invals = s.invals := rfl
@[simp] theorem State.mirrors_setGangAt (s : State) (k : Nat) (g : Gang) : (s.setGangAt k g).mirrors = s.mirrors := rfl
@[simp] theorem State.fwcalls_setGangAt (s : State) (k : Nat) (g : Gang) : (s.setGangAt k g).fwcalls = s.fwcalls := rfl
@[simp] theorem State.links_setGangAt (s : State) (k : Nat) (g : Gang) : (s.setGangAt k g).links = s.links := rfl
@[simp] theorem State.inbound_setGangAt (s : State) (k : Nat) (g : Gang) : (s.setGangAt k g).inbound = s.inbound := rfl
@[simp] theorem State.hostReply_setGangAt (s : State) (k : Nat) (g : Gang) : (s.setGangAt k g).hostReply = s.hostReply := rfl
@[simp] theorem State.logIndex_setGangAt (s : State) (k : Nat) (g : Gang) : (s.setGangAt k g).logIndex = s.logIndex := rfl
@[simp] theorem State.logCount_setGangAt (s : State) (k : Nat) (g : Gang) : (s.setGangAt k g).logCount = s.logCount := rfl
@[simp] theorem State.routes_setGangAt (s : State) (k : Nat) (g : Gang) : (s.setGangAt k g).routes = s.routes := rfl
@[simp] theorem State.routesLoaded_setGangAt (s : State) (k : Nat) (g : Gang) : (s.setGangAt k g).routesLoaded = s.routesLoaded := rfl
@[simp] theorem State.rowFixes_setGangAt (s : State) (k : Nat) (g : Gang) : (s.setGangAt k g).rowFixes = s.rowFixes := rfl
@[simp] theorem State.spares_setGangAt (s : State) (k : Nat) (g : Gang) : (s.setGangAt k g).spares = s.spares := rfl
@[simp] theorem State.remap_setGangAt (s : State) (k : Nat) (g : Gang) : (s.setGangAt k g).remap = s.remap := rfl
@[simp] theorem State.scrubbed_setGangAt (s : State) (k : Nat) (g : Gang) : (s.setGangAt k g).scrubbed = s.scrubbed := rfl
@[simp] theorem State.eventIdx_setGangAt (s : State) (k : Nat) (g : Gang) : (s.setGangAt k g).eventIdx = s.eventIdx := rfl
@[simp] theorem State.sigIndex_setGangAt (s : State) (k : Nat) (g : Gang) : (s.setGangAt k g).sigIndex = s.sigIndex := rfl
@[simp] theorem State.sessions_setGangAt (s : State) (k : Nat) (g : Gang) : (s.setGangAt k g).sessions = s.sessions := rfl
@[simp] theorem State.flash_setGangAt (s : State) (k : Nat) (g : Gang) : (s.setGangAt k g).flash = s.flash := rfl
@[simp] theorem State.image_setGangAt (s : State) (k : Nat) (g : Gang) : (s.setGangAt k g).image = s.image := rfl
@[simp] theorem State.bootFailed_setGangAt (s : State) (k : Nat) (g : Gang) : (s.setGangAt k g).bootFailed = s.bootFailed := rfl
@[simp] theorem State.commits_setGangAt (s : State) (k : Nat) (g : Gang) : (s.setGangAt k g).commits = s.commits := rfl
@[simp] theorem State.windowCycles_setGangAt (s : State) (k : Nat) (g : Gang) : (s.setGangAt k g).windowCycles = s.windowCycles := rfl
@[simp] theorem State.slots_setGangAt (s : State) (k : Nat) (g : Gang) : (s.setGangAt k g).slots = s.slots := rfl
@[simp] theorem State.kept_setGangAt (s : State) (k : Nat) (g : Gang) : (s.setGangAt k g).kept = s.kept := rfl
@[simp] theorem State.devid_setGangAt (s : State) (k : Nat) (g : Gang) : (s.setGangAt k g).devid = s.devid := rfl
@[simp] theorem State.bridge_setGangAt (s : State) (k : Nat) (g : Gang) : (s.setGangAt k g).bridge = s.bridge := rfl
@[simp] theorem State.pcieUp_setGangAt (s : State) (k : Nat) (g : Gang) : (s.setGangAt k g).pcieUp = s.pcieUp := rfl
@[simp] theorem State.clock_setGangAt (s : State) (k : Nat) (g : Gang) : (s.setGangAt k g).clock = s.clock := rfl
@[simp] theorem State.ir_setGangAt (s : State) (k : Nat) (g : Gang) : (s.setGangAt k g).ir = s.ir := rfl
@[simp] theorem State.nextId_setGangAt (s : State) (k : Nat) (g : Gang) : (s.setGangAt k g).nextId = s.nextId := rfl
@[simp] theorem State.fresh_setGangAt (s : State) (k : Nat) (g : Gang) : (s.setGangAt k g).fresh = s.fresh := rfl
@[simp] theorem State.agenda_setGangAt (s : State) (k : Nat) (g : Gang) : (s.setGangAt k g).agenda = s.agenda := rfl
@[simp] theorem State.pace_setGangAt (s : State) (k : Nat) (g : Gang) : (s.setGangAt k g).pace = s.pace := rfl
@[simp] theorem State.stepNo_setGangAt (s : State) (k : Nat) (g : Gang) : (s.setGangAt k g).stepNo = s.stepNo := rfl

@[simp] theorem State.cur_setGang (s : State) (g : Gang) : (s.setGang g).cur = s.cur := rfl
@[simp] theorem State.wgs_setGang (s : State) (g : Gang) : (s.setGang g).wgs = s.wgs := rfl
@[simp] theorem State.cores_setGang (s : State) (g : Gang) : (s.setGang g).cores = s.cores := rfl
@[simp] theorem State.clusters_setGang (s : State) (g : Gang) : (s.setGang g).clusters = s.clusters := rfl
@[simp] theorem State.dies_setGang (s : State) (g : Gang) : (s.setGang g).dies = s.dies := rfl
@[simp] theorem State.parts_setGang (s : State) (g : Gang) : (s.setGang g).parts = s.parts := rfl
@[simp] theorem State.mem_setGang (s : State) (g : Gang) : (s.setGang g).mem = s.mem := rfl
@[simp] theorem State.badLines_setGang (s : State) (g : Gang) : (s.setGang g).badLines = s.badLines := rfl
@[simp] theorem State.migrating_setGang (s : State) (g : Gang) : (s.setGang g).migrating = s.migrating := rfl
@[simp] theorem State.ioTlb_setGang (s : State) (g : Gang) : (s.setGang g).ioTlb = s.ioTlb := rfl
@[simp] theorem State.window_setGang (s : State) (g : Gang) : (s.setGang g).window = s.window := rfl
@[simp] theorem State.sys_setGang (s : State) (g : Gang) : (s.setGang g).sys = s.sys := rfl
@[simp] theorem State.power_setGang (s : State) (g : Gang) : (s.setGang g).power = s.power := rfl
@[simp] theorem State.groups_setGang (s : State) (g : Gang) : (s.setGang g).groups = s.groups := rfl
@[simp] theorem State.handles_setGang (s : State) (g : Gang) : (s.setGang g).handles = s.handles := rfl
@[simp] theorem State.msgs_setGang (s : State) (g : Gang) : (s.setGang g).msgs = s.msgs := rfl
@[simp] theorem State.held_setGang (s : State) (g : Gang) : (s.setGang g).held = s.held := rfl
@[simp] theorem State.execs_setGang (s : State) (g : Gang) : (s.setGang g).execs = s.execs := rfl
@[simp] theorem State.alarms_setGang (s : State) (g : Gang) : (s.setGang g).alarms = s.alarms := rfl
@[simp] theorem State.cells_setGang (s : State) (g : Gang) : (s.setGang g).cells = s.cells := rfl
@[simp] theorem State.queues_setGang (s : State) (g : Gang) : (s.setGang g).queues = s.queues := rfl
@[simp] theorem State.frontWrites_setGang (s : State) (g : Gang) : (s.setGang g).frontWrites = s.frontWrites := rfl
@[simp] theorem State.launches_setGang (s : State) (g : Gang) : (s.setGang g).launches = s.launches := rfl
@[simp] theorem State.admission_setGang (s : State) (g : Gang) : (s.setGang g).admission = s.admission := rfl
@[simp] theorem State.saved_setGang (s : State) (g : Gang) : (s.setGang g).saved = s.saved := rfl
@[simp] theorem State.promo_setGang (s : State) (g : Gang) : (s.setGang g).promo = s.promo := rfl
@[simp] theorem State.watches_setGang (s : State) (g : Gang) : (s.setGang g).watches = s.watches := rfl
@[simp] theorem State.gt_setGang (s : State) (g : Gang) : (s.setGang g).gt = s.gt := rfl
@[simp] theorem State.sweep_setGang (s : State) (g : Gang) : (s.setGang g).sweep = s.sweep := rfl
@[simp] theorem State.teardowns_setGang (s : State) (g : Gang) : (s.setGang g).teardowns = s.teardowns := rfl
@[simp] theorem State.endings_setGang (s : State) (g : Gang) : (s.setGang g).endings = s.endings := rfl
@[simp] theorem State.invals_setGang (s : State) (g : Gang) : (s.setGang g).invals = s.invals := rfl
@[simp] theorem State.mirrors_setGang (s : State) (g : Gang) : (s.setGang g).mirrors = s.mirrors := rfl
@[simp] theorem State.fwcalls_setGang (s : State) (g : Gang) : (s.setGang g).fwcalls = s.fwcalls := rfl
@[simp] theorem State.links_setGang (s : State) (g : Gang) : (s.setGang g).links = s.links := rfl
@[simp] theorem State.inbound_setGang (s : State) (g : Gang) : (s.setGang g).inbound = s.inbound := rfl
@[simp] theorem State.hostReply_setGang (s : State) (g : Gang) : (s.setGang g).hostReply = s.hostReply := rfl
@[simp] theorem State.logIndex_setGang (s : State) (g : Gang) : (s.setGang g).logIndex = s.logIndex := rfl
@[simp] theorem State.logCount_setGang (s : State) (g : Gang) : (s.setGang g).logCount = s.logCount := rfl
@[simp] theorem State.routes_setGang (s : State) (g : Gang) : (s.setGang g).routes = s.routes := rfl
@[simp] theorem State.routesLoaded_setGang (s : State) (g : Gang) : (s.setGang g).routesLoaded = s.routesLoaded := rfl
@[simp] theorem State.rowFixes_setGang (s : State) (g : Gang) : (s.setGang g).rowFixes = s.rowFixes := rfl
@[simp] theorem State.spares_setGang (s : State) (g : Gang) : (s.setGang g).spares = s.spares := rfl
@[simp] theorem State.remap_setGang (s : State) (g : Gang) : (s.setGang g).remap = s.remap := rfl
@[simp] theorem State.scrubbed_setGang (s : State) (g : Gang) : (s.setGang g).scrubbed = s.scrubbed := rfl
@[simp] theorem State.eventIdx_setGang (s : State) (g : Gang) : (s.setGang g).eventIdx = s.eventIdx := rfl
@[simp] theorem State.sigIndex_setGang (s : State) (g : Gang) : (s.setGang g).sigIndex = s.sigIndex := rfl
@[simp] theorem State.sessions_setGang (s : State) (g : Gang) : (s.setGang g).sessions = s.sessions := rfl
@[simp] theorem State.flash_setGang (s : State) (g : Gang) : (s.setGang g).flash = s.flash := rfl
@[simp] theorem State.image_setGang (s : State) (g : Gang) : (s.setGang g).image = s.image := rfl
@[simp] theorem State.bootFailed_setGang (s : State) (g : Gang) : (s.setGang g).bootFailed = s.bootFailed := rfl
@[simp] theorem State.commits_setGang (s : State) (g : Gang) : (s.setGang g).commits = s.commits := rfl
@[simp] theorem State.windowCycles_setGang (s : State) (g : Gang) : (s.setGang g).windowCycles = s.windowCycles := rfl
@[simp] theorem State.slots_setGang (s : State) (g : Gang) : (s.setGang g).slots = s.slots := rfl
@[simp] theorem State.kept_setGang (s : State) (g : Gang) : (s.setGang g).kept = s.kept := rfl
@[simp] theorem State.devid_setGang (s : State) (g : Gang) : (s.setGang g).devid = s.devid := rfl
@[simp] theorem State.bridge_setGang (s : State) (g : Gang) : (s.setGang g).bridge = s.bridge := rfl
@[simp] theorem State.pcieUp_setGang (s : State) (g : Gang) : (s.setGang g).pcieUp = s.pcieUp := rfl
@[simp] theorem State.clock_setGang (s : State) (g : Gang) : (s.setGang g).clock = s.clock := rfl
@[simp] theorem State.ir_setGang (s : State) (g : Gang) : (s.setGang g).ir = s.ir := rfl
@[simp] theorem State.nextId_setGang (s : State) (g : Gang) : (s.setGang g).nextId = s.nextId := rfl
@[simp] theorem State.fresh_setGang (s : State) (g : Gang) : (s.setGang g).fresh = s.fresh := rfl
@[simp] theorem State.agenda_setGang (s : State) (g : Gang) : (s.setGang g).agenda = s.agenda := rfl
@[simp] theorem State.pace_setGang (s : State) (g : Gang) : (s.setGang g).pace = s.pace := rfl
@[simp] theorem State.stepNo_setGang (s : State) (g : Gang) : (s.setGang g).stepNo = s.stepNo := rfl

@[simp] theorem State.cur_updGangAt (s : State) (k : Nat) (f : Gang → Gang) : (s.updGangAt k f).cur = s.cur := rfl
@[simp] theorem State.wgs_updGangAt (s : State) (k : Nat) (f : Gang → Gang) : (s.updGangAt k f).wgs = s.wgs := rfl
@[simp] theorem State.cores_updGangAt (s : State) (k : Nat) (f : Gang → Gang) : (s.updGangAt k f).cores = s.cores := rfl
@[simp] theorem State.clusters_updGangAt (s : State) (k : Nat) (f : Gang → Gang) : (s.updGangAt k f).clusters = s.clusters := rfl
@[simp] theorem State.dies_updGangAt (s : State) (k : Nat) (f : Gang → Gang) : (s.updGangAt k f).dies = s.dies := rfl
@[simp] theorem State.parts_updGangAt (s : State) (k : Nat) (f : Gang → Gang) : (s.updGangAt k f).parts = s.parts := rfl
@[simp] theorem State.mem_updGangAt (s : State) (k : Nat) (f : Gang → Gang) : (s.updGangAt k f).mem = s.mem := rfl
@[simp] theorem State.badLines_updGangAt (s : State) (k : Nat) (f : Gang → Gang) : (s.updGangAt k f).badLines = s.badLines := rfl
@[simp] theorem State.migrating_updGangAt (s : State) (k : Nat) (f : Gang → Gang) : (s.updGangAt k f).migrating = s.migrating := rfl
@[simp] theorem State.ioTlb_updGangAt (s : State) (k : Nat) (f : Gang → Gang) : (s.updGangAt k f).ioTlb = s.ioTlb := rfl
@[simp] theorem State.window_updGangAt (s : State) (k : Nat) (f : Gang → Gang) : (s.updGangAt k f).window = s.window := rfl
@[simp] theorem State.sys_updGangAt (s : State) (k : Nat) (f : Gang → Gang) : (s.updGangAt k f).sys = s.sys := rfl
@[simp] theorem State.power_updGangAt (s : State) (k : Nat) (f : Gang → Gang) : (s.updGangAt k f).power = s.power := rfl
@[simp] theorem State.groups_updGangAt (s : State) (k : Nat) (f : Gang → Gang) : (s.updGangAt k f).groups = s.groups := rfl
@[simp] theorem State.handles_updGangAt (s : State) (k : Nat) (f : Gang → Gang) : (s.updGangAt k f).handles = s.handles := rfl
@[simp] theorem State.msgs_updGangAt (s : State) (k : Nat) (f : Gang → Gang) : (s.updGangAt k f).msgs = s.msgs := rfl
@[simp] theorem State.held_updGangAt (s : State) (k : Nat) (f : Gang → Gang) : (s.updGangAt k f).held = s.held := rfl
@[simp] theorem State.execs_updGangAt (s : State) (k : Nat) (f : Gang → Gang) : (s.updGangAt k f).execs = s.execs := rfl
@[simp] theorem State.alarms_updGangAt (s : State) (k : Nat) (f : Gang → Gang) : (s.updGangAt k f).alarms = s.alarms := rfl
@[simp] theorem State.cells_updGangAt (s : State) (k : Nat) (f : Gang → Gang) : (s.updGangAt k f).cells = s.cells := rfl
@[simp] theorem State.queues_updGangAt (s : State) (k : Nat) (f : Gang → Gang) : (s.updGangAt k f).queues = s.queues := rfl
@[simp] theorem State.frontWrites_updGangAt (s : State) (k : Nat) (f : Gang → Gang) : (s.updGangAt k f).frontWrites = s.frontWrites := rfl
@[simp] theorem State.launches_updGangAt (s : State) (k : Nat) (f : Gang → Gang) : (s.updGangAt k f).launches = s.launches := rfl
@[simp] theorem State.admission_updGangAt (s : State) (k : Nat) (f : Gang → Gang) : (s.updGangAt k f).admission = s.admission := rfl
@[simp] theorem State.saved_updGangAt (s : State) (k : Nat) (f : Gang → Gang) : (s.updGangAt k f).saved = s.saved := rfl
@[simp] theorem State.promo_updGangAt (s : State) (k : Nat) (f : Gang → Gang) : (s.updGangAt k f).promo = s.promo := rfl
@[simp] theorem State.watches_updGangAt (s : State) (k : Nat) (f : Gang → Gang) : (s.updGangAt k f).watches = s.watches := rfl
@[simp] theorem State.gt_updGangAt (s : State) (k : Nat) (f : Gang → Gang) : (s.updGangAt k f).gt = s.gt := rfl
@[simp] theorem State.sweep_updGangAt (s : State) (k : Nat) (f : Gang → Gang) : (s.updGangAt k f).sweep = s.sweep := rfl
@[simp] theorem State.teardowns_updGangAt (s : State) (k : Nat) (f : Gang → Gang) : (s.updGangAt k f).teardowns = s.teardowns := rfl
@[simp] theorem State.endings_updGangAt (s : State) (k : Nat) (f : Gang → Gang) : (s.updGangAt k f).endings = s.endings := rfl
@[simp] theorem State.invals_updGangAt (s : State) (k : Nat) (f : Gang → Gang) : (s.updGangAt k f).invals = s.invals := rfl
@[simp] theorem State.mirrors_updGangAt (s : State) (k : Nat) (f : Gang → Gang) : (s.updGangAt k f).mirrors = s.mirrors := rfl
@[simp] theorem State.fwcalls_updGangAt (s : State) (k : Nat) (f : Gang → Gang) : (s.updGangAt k f).fwcalls = s.fwcalls := rfl
@[simp] theorem State.links_updGangAt (s : State) (k : Nat) (f : Gang → Gang) : (s.updGangAt k f).links = s.links := rfl
@[simp] theorem State.inbound_updGangAt (s : State) (k : Nat) (f : Gang → Gang) : (s.updGangAt k f).inbound = s.inbound := rfl
@[simp] theorem State.hostReply_updGangAt (s : State) (k : Nat) (f : Gang → Gang) : (s.updGangAt k f).hostReply = s.hostReply := rfl
@[simp] theorem State.logIndex_updGangAt (s : State) (k : Nat) (f : Gang → Gang) : (s.updGangAt k f).logIndex = s.logIndex := rfl
@[simp] theorem State.logCount_updGangAt (s : State) (k : Nat) (f : Gang → Gang) : (s.updGangAt k f).logCount = s.logCount := rfl
@[simp] theorem State.routes_updGangAt (s : State) (k : Nat) (f : Gang → Gang) : (s.updGangAt k f).routes = s.routes := rfl
@[simp] theorem State.routesLoaded_updGangAt (s : State) (k : Nat) (f : Gang → Gang) : (s.updGangAt k f).routesLoaded = s.routesLoaded := rfl
@[simp] theorem State.rowFixes_updGangAt (s : State) (k : Nat) (f : Gang → Gang) : (s.updGangAt k f).rowFixes = s.rowFixes := rfl
@[simp] theorem State.spares_updGangAt (s : State) (k : Nat) (f : Gang → Gang) : (s.updGangAt k f).spares = s.spares := rfl
@[simp] theorem State.remap_updGangAt (s : State) (k : Nat) (f : Gang → Gang) : (s.updGangAt k f).remap = s.remap := rfl
@[simp] theorem State.scrubbed_updGangAt (s : State) (k : Nat) (f : Gang → Gang) : (s.updGangAt k f).scrubbed = s.scrubbed := rfl
@[simp] theorem State.eventIdx_updGangAt (s : State) (k : Nat) (f : Gang → Gang) : (s.updGangAt k f).eventIdx = s.eventIdx := rfl
@[simp] theorem State.sigIndex_updGangAt (s : State) (k : Nat) (f : Gang → Gang) : (s.updGangAt k f).sigIndex = s.sigIndex := rfl
@[simp] theorem State.sessions_updGangAt (s : State) (k : Nat) (f : Gang → Gang) : (s.updGangAt k f).sessions = s.sessions := rfl
@[simp] theorem State.flash_updGangAt (s : State) (k : Nat) (f : Gang → Gang) : (s.updGangAt k f).flash = s.flash := rfl
@[simp] theorem State.image_updGangAt (s : State) (k : Nat) (f : Gang → Gang) : (s.updGangAt k f).image = s.image := rfl
@[simp] theorem State.bootFailed_updGangAt (s : State) (k : Nat) (f : Gang → Gang) : (s.updGangAt k f).bootFailed = s.bootFailed := rfl
@[simp] theorem State.commits_updGangAt (s : State) (k : Nat) (f : Gang → Gang) : (s.updGangAt k f).commits = s.commits := rfl
@[simp] theorem State.windowCycles_updGangAt (s : State) (k : Nat) (f : Gang → Gang) : (s.updGangAt k f).windowCycles = s.windowCycles := rfl
@[simp] theorem State.slots_updGangAt (s : State) (k : Nat) (f : Gang → Gang) : (s.updGangAt k f).slots = s.slots := rfl
@[simp] theorem State.kept_updGangAt (s : State) (k : Nat) (f : Gang → Gang) : (s.updGangAt k f).kept = s.kept := rfl
@[simp] theorem State.devid_updGangAt (s : State) (k : Nat) (f : Gang → Gang) : (s.updGangAt k f).devid = s.devid := rfl
@[simp] theorem State.bridge_updGangAt (s : State) (k : Nat) (f : Gang → Gang) : (s.updGangAt k f).bridge = s.bridge := rfl
@[simp] theorem State.pcieUp_updGangAt (s : State) (k : Nat) (f : Gang → Gang) : (s.updGangAt k f).pcieUp = s.pcieUp := rfl
@[simp] theorem State.clock_updGangAt (s : State) (k : Nat) (f : Gang → Gang) : (s.updGangAt k f).clock = s.clock := rfl
@[simp] theorem State.ir_updGangAt (s : State) (k : Nat) (f : Gang → Gang) : (s.updGangAt k f).ir = s.ir := rfl
@[simp] theorem State.nextId_updGangAt (s : State) (k : Nat) (f : Gang → Gang) : (s.updGangAt k f).nextId = s.nextId := rfl
@[simp] theorem State.fresh_updGangAt (s : State) (k : Nat) (f : Gang → Gang) : (s.updGangAt k f).fresh = s.fresh := rfl
@[simp] theorem State.agenda_updGangAt (s : State) (k : Nat) (f : Gang → Gang) : (s.updGangAt k f).agenda = s.agenda := rfl
@[simp] theorem State.pace_updGangAt (s : State) (k : Nat) (f : Gang → Gang) : (s.updGangAt k f).pace = s.pace := rfl
@[simp] theorem State.stepNo_updGangAt (s : State) (k : Nat) (f : Gang → Gang) : (s.updGangAt k f).stepNo = s.stepNo := rfl

@[simp] theorem State.cur_updGang (s : State) (f : Gang → Gang) : (s.updGang f).cur = s.cur := rfl
@[simp] theorem State.wgs_updGang (s : State) (f : Gang → Gang) : (s.updGang f).wgs = s.wgs := rfl
@[simp] theorem State.cores_updGang (s : State) (f : Gang → Gang) : (s.updGang f).cores = s.cores := rfl
@[simp] theorem State.clusters_updGang (s : State) (f : Gang → Gang) : (s.updGang f).clusters = s.clusters := rfl
@[simp] theorem State.dies_updGang (s : State) (f : Gang → Gang) : (s.updGang f).dies = s.dies := rfl
@[simp] theorem State.parts_updGang (s : State) (f : Gang → Gang) : (s.updGang f).parts = s.parts := rfl
@[simp] theorem State.mem_updGang (s : State) (f : Gang → Gang) : (s.updGang f).mem = s.mem := rfl
@[simp] theorem State.badLines_updGang (s : State) (f : Gang → Gang) : (s.updGang f).badLines = s.badLines := rfl
@[simp] theorem State.migrating_updGang (s : State) (f : Gang → Gang) : (s.updGang f).migrating = s.migrating := rfl
@[simp] theorem State.ioTlb_updGang (s : State) (f : Gang → Gang) : (s.updGang f).ioTlb = s.ioTlb := rfl
@[simp] theorem State.window_updGang (s : State) (f : Gang → Gang) : (s.updGang f).window = s.window := rfl
@[simp] theorem State.sys_updGang (s : State) (f : Gang → Gang) : (s.updGang f).sys = s.sys := rfl
@[simp] theorem State.power_updGang (s : State) (f : Gang → Gang) : (s.updGang f).power = s.power := rfl
@[simp] theorem State.groups_updGang (s : State) (f : Gang → Gang) : (s.updGang f).groups = s.groups := rfl
@[simp] theorem State.handles_updGang (s : State) (f : Gang → Gang) : (s.updGang f).handles = s.handles := rfl
@[simp] theorem State.msgs_updGang (s : State) (f : Gang → Gang) : (s.updGang f).msgs = s.msgs := rfl
@[simp] theorem State.held_updGang (s : State) (f : Gang → Gang) : (s.updGang f).held = s.held := rfl
@[simp] theorem State.execs_updGang (s : State) (f : Gang → Gang) : (s.updGang f).execs = s.execs := rfl
@[simp] theorem State.alarms_updGang (s : State) (f : Gang → Gang) : (s.updGang f).alarms = s.alarms := rfl
@[simp] theorem State.cells_updGang (s : State) (f : Gang → Gang) : (s.updGang f).cells = s.cells := rfl
@[simp] theorem State.queues_updGang (s : State) (f : Gang → Gang) : (s.updGang f).queues = s.queues := rfl
@[simp] theorem State.frontWrites_updGang (s : State) (f : Gang → Gang) : (s.updGang f).frontWrites = s.frontWrites := rfl
@[simp] theorem State.launches_updGang (s : State) (f : Gang → Gang) : (s.updGang f).launches = s.launches := rfl
@[simp] theorem State.admission_updGang (s : State) (f : Gang → Gang) : (s.updGang f).admission = s.admission := rfl
@[simp] theorem State.saved_updGang (s : State) (f : Gang → Gang) : (s.updGang f).saved = s.saved := rfl
@[simp] theorem State.promo_updGang (s : State) (f : Gang → Gang) : (s.updGang f).promo = s.promo := rfl
@[simp] theorem State.watches_updGang (s : State) (f : Gang → Gang) : (s.updGang f).watches = s.watches := rfl
@[simp] theorem State.gt_updGang (s : State) (f : Gang → Gang) : (s.updGang f).gt = s.gt := rfl
@[simp] theorem State.sweep_updGang (s : State) (f : Gang → Gang) : (s.updGang f).sweep = s.sweep := rfl
@[simp] theorem State.teardowns_updGang (s : State) (f : Gang → Gang) : (s.updGang f).teardowns = s.teardowns := rfl
@[simp] theorem State.endings_updGang (s : State) (f : Gang → Gang) : (s.updGang f).endings = s.endings := rfl
@[simp] theorem State.invals_updGang (s : State) (f : Gang → Gang) : (s.updGang f).invals = s.invals := rfl
@[simp] theorem State.mirrors_updGang (s : State) (f : Gang → Gang) : (s.updGang f).mirrors = s.mirrors := rfl
@[simp] theorem State.fwcalls_updGang (s : State) (f : Gang → Gang) : (s.updGang f).fwcalls = s.fwcalls := rfl
@[simp] theorem State.links_updGang (s : State) (f : Gang → Gang) : (s.updGang f).links = s.links := rfl
@[simp] theorem State.inbound_updGang (s : State) (f : Gang → Gang) : (s.updGang f).inbound = s.inbound := rfl
@[simp] theorem State.hostReply_updGang (s : State) (f : Gang → Gang) : (s.updGang f).hostReply = s.hostReply := rfl
@[simp] theorem State.logIndex_updGang (s : State) (f : Gang → Gang) : (s.updGang f).logIndex = s.logIndex := rfl
@[simp] theorem State.logCount_updGang (s : State) (f : Gang → Gang) : (s.updGang f).logCount = s.logCount := rfl
@[simp] theorem State.routes_updGang (s : State) (f : Gang → Gang) : (s.updGang f).routes = s.routes := rfl
@[simp] theorem State.routesLoaded_updGang (s : State) (f : Gang → Gang) : (s.updGang f).routesLoaded = s.routesLoaded := rfl
@[simp] theorem State.rowFixes_updGang (s : State) (f : Gang → Gang) : (s.updGang f).rowFixes = s.rowFixes := rfl
@[simp] theorem State.spares_updGang (s : State) (f : Gang → Gang) : (s.updGang f).spares = s.spares := rfl
@[simp] theorem State.remap_updGang (s : State) (f : Gang → Gang) : (s.updGang f).remap = s.remap := rfl
@[simp] theorem State.scrubbed_updGang (s : State) (f : Gang → Gang) : (s.updGang f).scrubbed = s.scrubbed := rfl
@[simp] theorem State.eventIdx_updGang (s : State) (f : Gang → Gang) : (s.updGang f).eventIdx = s.eventIdx := rfl
@[simp] theorem State.sigIndex_updGang (s : State) (f : Gang → Gang) : (s.updGang f).sigIndex = s.sigIndex := rfl
@[simp] theorem State.sessions_updGang (s : State) (f : Gang → Gang) : (s.updGang f).sessions = s.sessions := rfl
@[simp] theorem State.flash_updGang (s : State) (f : Gang → Gang) : (s.updGang f).flash = s.flash := rfl
@[simp] theorem State.image_updGang (s : State) (f : Gang → Gang) : (s.updGang f).image = s.image := rfl
@[simp] theorem State.bootFailed_updGang (s : State) (f : Gang → Gang) : (s.updGang f).bootFailed = s.bootFailed := rfl
@[simp] theorem State.commits_updGang (s : State) (f : Gang → Gang) : (s.updGang f).commits = s.commits := rfl
@[simp] theorem State.windowCycles_updGang (s : State) (f : Gang → Gang) : (s.updGang f).windowCycles = s.windowCycles := rfl
@[simp] theorem State.slots_updGang (s : State) (f : Gang → Gang) : (s.updGang f).slots = s.slots := rfl
@[simp] theorem State.kept_updGang (s : State) (f : Gang → Gang) : (s.updGang f).kept = s.kept := rfl
@[simp] theorem State.devid_updGang (s : State) (f : Gang → Gang) : (s.updGang f).devid = s.devid := rfl
@[simp] theorem State.bridge_updGang (s : State) (f : Gang → Gang) : (s.updGang f).bridge = s.bridge := rfl
@[simp] theorem State.pcieUp_updGang (s : State) (f : Gang → Gang) : (s.updGang f).pcieUp = s.pcieUp := rfl
@[simp] theorem State.clock_updGang (s : State) (f : Gang → Gang) : (s.updGang f).clock = s.clock := rfl
@[simp] theorem State.ir_updGang (s : State) (f : Gang → Gang) : (s.updGang f).ir = s.ir := rfl
@[simp] theorem State.nextId_updGang (s : State) (f : Gang → Gang) : (s.updGang f).nextId = s.nextId := rfl
@[simp] theorem State.fresh_updGang (s : State) (f : Gang → Gang) : (s.updGang f).fresh = s.fresh := rfl
@[simp] theorem State.agenda_updGang (s : State) (f : Gang → Gang) : (s.updGang f).agenda = s.agenda := rfl
@[simp] theorem State.pace_updGang (s : State) (f : Gang → Gang) : (s.updGang f).pace = s.pace := rfl
@[simp] theorem State.stepNo_updGang (s : State) (f : Gang → Gang) : (s.updGang f).stepNo = s.stepNo := rfl

@[simp] theorem State.cur_advance (s : State) : (s.advance).cur = s.cur := rfl
@[simp] theorem State.wgs_advance (s : State) : (s.advance).wgs = s.wgs := rfl
@[simp] theorem State.cores_advance (s : State) : (s.advance).cores = s.cores := rfl
@[simp] theorem State.clusters_advance (s : State) : (s.advance).clusters = s.clusters := rfl
@[simp] theorem State.dies_advance (s : State) : (s.advance).dies = s.dies := rfl
@[simp] theorem State.parts_advance (s : State) : (s.advance).parts = s.parts := rfl
@[simp] theorem State.mem_advance (s : State) : (s.advance).mem = s.mem := rfl
@[simp] theorem State.badLines_advance (s : State) : (s.advance).badLines = s.badLines := rfl
@[simp] theorem State.migrating_advance (s : State) : (s.advance).migrating = s.migrating := rfl
@[simp] theorem State.ioTlb_advance (s : State) : (s.advance).ioTlb = s.ioTlb := rfl
@[simp] theorem State.window_advance (s : State) : (s.advance).window = s.window := rfl
@[simp] theorem State.sys_advance (s : State) : (s.advance).sys = s.sys := rfl
@[simp] theorem State.power_advance (s : State) : (s.advance).power = s.power := rfl
@[simp] theorem State.groups_advance (s : State) : (s.advance).groups = s.groups := rfl
@[simp] theorem State.handles_advance (s : State) : (s.advance).handles = s.handles := rfl
@[simp] theorem State.msgs_advance (s : State) : (s.advance).msgs = s.msgs := rfl
@[simp] theorem State.held_advance (s : State) : (s.advance).held = s.held := rfl
@[simp] theorem State.execs_advance (s : State) : (s.advance).execs = s.execs := rfl
@[simp] theorem State.alarms_advance (s : State) : (s.advance).alarms = s.alarms := rfl
@[simp] theorem State.cells_advance (s : State) : (s.advance).cells = s.cells := rfl
@[simp] theorem State.queues_advance (s : State) : (s.advance).queues = s.queues := rfl
@[simp] theorem State.frontWrites_advance (s : State) : (s.advance).frontWrites = s.frontWrites := rfl
@[simp] theorem State.launches_advance (s : State) : (s.advance).launches = s.launches := rfl
@[simp] theorem State.admission_advance (s : State) : (s.advance).admission = s.admission := rfl
@[simp] theorem State.saved_advance (s : State) : (s.advance).saved = s.saved := rfl
@[simp] theorem State.promo_advance (s : State) : (s.advance).promo = s.promo := rfl
@[simp] theorem State.watches_advance (s : State) : (s.advance).watches = s.watches := rfl
@[simp] theorem State.gt_advance (s : State) : (s.advance).gt = s.gt := rfl
@[simp] theorem State.sweep_advance (s : State) : (s.advance).sweep = s.sweep := rfl
@[simp] theorem State.teardowns_advance (s : State) : (s.advance).teardowns = s.teardowns := rfl
@[simp] theorem State.endings_advance (s : State) : (s.advance).endings = s.endings := rfl
@[simp] theorem State.invals_advance (s : State) : (s.advance).invals = s.invals := rfl
@[simp] theorem State.mirrors_advance (s : State) : (s.advance).mirrors = s.mirrors := rfl
@[simp] theorem State.fwcalls_advance (s : State) : (s.advance).fwcalls = s.fwcalls := rfl
@[simp] theorem State.links_advance (s : State) : (s.advance).links = s.links := rfl
@[simp] theorem State.inbound_advance (s : State) : (s.advance).inbound = s.inbound := rfl
@[simp] theorem State.hostReply_advance (s : State) : (s.advance).hostReply = s.hostReply := rfl
@[simp] theorem State.logIndex_advance (s : State) : (s.advance).logIndex = s.logIndex := rfl
@[simp] theorem State.logCount_advance (s : State) : (s.advance).logCount = s.logCount := rfl
@[simp] theorem State.routes_advance (s : State) : (s.advance).routes = s.routes := rfl
@[simp] theorem State.routesLoaded_advance (s : State) : (s.advance).routesLoaded = s.routesLoaded := rfl
@[simp] theorem State.rowFixes_advance (s : State) : (s.advance).rowFixes = s.rowFixes := rfl
@[simp] theorem State.spares_advance (s : State) : (s.advance).spares = s.spares := rfl
@[simp] theorem State.remap_advance (s : State) : (s.advance).remap = s.remap := rfl
@[simp] theorem State.scrubbed_advance (s : State) : (s.advance).scrubbed = s.scrubbed := rfl
@[simp] theorem State.eventIdx_advance (s : State) : (s.advance).eventIdx = s.eventIdx := rfl
@[simp] theorem State.sigIndex_advance (s : State) : (s.advance).sigIndex = s.sigIndex := rfl
@[simp] theorem State.sessions_advance (s : State) : (s.advance).sessions = s.sessions := rfl
@[simp] theorem State.flash_advance (s : State) : (s.advance).flash = s.flash := rfl
@[simp] theorem State.image_advance (s : State) : (s.advance).image = s.image := rfl
@[simp] theorem State.bootFailed_advance (s : State) : (s.advance).bootFailed = s.bootFailed := rfl
@[simp] theorem State.commits_advance (s : State) : (s.advance).commits = s.commits := rfl
@[simp] theorem State.windowCycles_advance (s : State) : (s.advance).windowCycles = s.windowCycles := rfl
@[simp] theorem State.slots_advance (s : State) : (s.advance).slots = s.slots := rfl
@[simp] theorem State.kept_advance (s : State) : (s.advance).kept = s.kept := rfl
@[simp] theorem State.devid_advance (s : State) : (s.advance).devid = s.devid := rfl
@[simp] theorem State.bridge_advance (s : State) : (s.advance).bridge = s.bridge := rfl
@[simp] theorem State.pcieUp_advance (s : State) : (s.advance).pcieUp = s.pcieUp := rfl
@[simp] theorem State.clock_advance (s : State) : (s.advance).clock = s.clock := rfl
@[simp] theorem State.ir_advance (s : State) : (s.advance).ir = s.ir := rfl
@[simp] theorem State.nextId_advance (s : State) : (s.advance).nextId = s.nextId := rfl
@[simp] theorem State.fresh_advance (s : State) : (s.advance).fresh = s.fresh := rfl
@[simp] theorem State.agenda_advance (s : State) : (s.advance).agenda = s.agenda := rfl
@[simp] theorem State.pace_advance (s : State) : (s.advance).pace = s.pace := rfl
@[simp] theorem State.stepNo_advance (s : State) : (s.advance).stepNo = s.stepNo := rfl

@[simp] theorem State.cur_setWgAt (s : State) (k : Nat) (w : Workgroup) : (s.setWgAt k w).cur = s.cur := rfl
@[simp] theorem State.gangs_setWgAt (s : State) (k : Nat) (w : Workgroup) : (s.setWgAt k w).gangs = s.gangs := rfl
@[simp] theorem State.cores_setWgAt (s : State) (k : Nat) (w : Workgroup) : (s.setWgAt k w).cores = s.cores := rfl
@[simp] theorem State.clusters_setWgAt (s : State) (k : Nat) (w : Workgroup) : (s.setWgAt k w).clusters = s.clusters := rfl
@[simp] theorem State.dies_setWgAt (s : State) (k : Nat) (w : Workgroup) : (s.setWgAt k w).dies = s.dies := rfl
@[simp] theorem State.parts_setWgAt (s : State) (k : Nat) (w : Workgroup) : (s.setWgAt k w).parts = s.parts := rfl
@[simp] theorem State.mem_setWgAt (s : State) (k : Nat) (w : Workgroup) : (s.setWgAt k w).mem = s.mem := rfl
@[simp] theorem State.badLines_setWgAt (s : State) (k : Nat) (w : Workgroup) : (s.setWgAt k w).badLines = s.badLines := rfl
@[simp] theorem State.migrating_setWgAt (s : State) (k : Nat) (w : Workgroup) : (s.setWgAt k w).migrating = s.migrating := rfl
@[simp] theorem State.ioTlb_setWgAt (s : State) (k : Nat) (w : Workgroup) : (s.setWgAt k w).ioTlb = s.ioTlb := rfl
@[simp] theorem State.window_setWgAt (s : State) (k : Nat) (w : Workgroup) : (s.setWgAt k w).window = s.window := rfl
@[simp] theorem State.sys_setWgAt (s : State) (k : Nat) (w : Workgroup) : (s.setWgAt k w).sys = s.sys := rfl
@[simp] theorem State.power_setWgAt (s : State) (k : Nat) (w : Workgroup) : (s.setWgAt k w).power = s.power := rfl
@[simp] theorem State.groups_setWgAt (s : State) (k : Nat) (w : Workgroup) : (s.setWgAt k w).groups = s.groups := rfl
@[simp] theorem State.handles_setWgAt (s : State) (k : Nat) (w : Workgroup) : (s.setWgAt k w).handles = s.handles := rfl
@[simp] theorem State.msgs_setWgAt (s : State) (k : Nat) (w : Workgroup) : (s.setWgAt k w).msgs = s.msgs := rfl
@[simp] theorem State.held_setWgAt (s : State) (k : Nat) (w : Workgroup) : (s.setWgAt k w).held = s.held := rfl
@[simp] theorem State.execs_setWgAt (s : State) (k : Nat) (w : Workgroup) : (s.setWgAt k w).execs = s.execs := rfl
@[simp] theorem State.alarms_setWgAt (s : State) (k : Nat) (w : Workgroup) : (s.setWgAt k w).alarms = s.alarms := rfl
@[simp] theorem State.cells_setWgAt (s : State) (k : Nat) (w : Workgroup) : (s.setWgAt k w).cells = s.cells := rfl
@[simp] theorem State.queues_setWgAt (s : State) (k : Nat) (w : Workgroup) : (s.setWgAt k w).queues = s.queues := rfl
@[simp] theorem State.frontWrites_setWgAt (s : State) (k : Nat) (w : Workgroup) : (s.setWgAt k w).frontWrites = s.frontWrites := rfl
@[simp] theorem State.launches_setWgAt (s : State) (k : Nat) (w : Workgroup) : (s.setWgAt k w).launches = s.launches := rfl
@[simp] theorem State.admission_setWgAt (s : State) (k : Nat) (w : Workgroup) : (s.setWgAt k w).admission = s.admission := rfl
@[simp] theorem State.saved_setWgAt (s : State) (k : Nat) (w : Workgroup) : (s.setWgAt k w).saved = s.saved := rfl
@[simp] theorem State.promo_setWgAt (s : State) (k : Nat) (w : Workgroup) : (s.setWgAt k w).promo = s.promo := rfl
@[simp] theorem State.watches_setWgAt (s : State) (k : Nat) (w : Workgroup) : (s.setWgAt k w).watches = s.watches := rfl
@[simp] theorem State.gt_setWgAt (s : State) (k : Nat) (w : Workgroup) : (s.setWgAt k w).gt = s.gt := rfl
@[simp] theorem State.sweep_setWgAt (s : State) (k : Nat) (w : Workgroup) : (s.setWgAt k w).sweep = s.sweep := rfl
@[simp] theorem State.teardowns_setWgAt (s : State) (k : Nat) (w : Workgroup) : (s.setWgAt k w).teardowns = s.teardowns := rfl
@[simp] theorem State.endings_setWgAt (s : State) (k : Nat) (w : Workgroup) : (s.setWgAt k w).endings = s.endings := rfl
@[simp] theorem State.invals_setWgAt (s : State) (k : Nat) (w : Workgroup) : (s.setWgAt k w).invals = s.invals := rfl
@[simp] theorem State.mirrors_setWgAt (s : State) (k : Nat) (w : Workgroup) : (s.setWgAt k w).mirrors = s.mirrors := rfl
@[simp] theorem State.fwcalls_setWgAt (s : State) (k : Nat) (w : Workgroup) : (s.setWgAt k w).fwcalls = s.fwcalls := rfl
@[simp] theorem State.links_setWgAt (s : State) (k : Nat) (w : Workgroup) : (s.setWgAt k w).links = s.links := rfl
@[simp] theorem State.inbound_setWgAt (s : State) (k : Nat) (w : Workgroup) : (s.setWgAt k w).inbound = s.inbound := rfl
@[simp] theorem State.hostReply_setWgAt (s : State) (k : Nat) (w : Workgroup) : (s.setWgAt k w).hostReply = s.hostReply := rfl
@[simp] theorem State.logIndex_setWgAt (s : State) (k : Nat) (w : Workgroup) : (s.setWgAt k w).logIndex = s.logIndex := rfl
@[simp] theorem State.logCount_setWgAt (s : State) (k : Nat) (w : Workgroup) : (s.setWgAt k w).logCount = s.logCount := rfl
@[simp] theorem State.routes_setWgAt (s : State) (k : Nat) (w : Workgroup) : (s.setWgAt k w).routes = s.routes := rfl
@[simp] theorem State.routesLoaded_setWgAt (s : State) (k : Nat) (w : Workgroup) : (s.setWgAt k w).routesLoaded = s.routesLoaded := rfl
@[simp] theorem State.rowFixes_setWgAt (s : State) (k : Nat) (w : Workgroup) : (s.setWgAt k w).rowFixes = s.rowFixes := rfl
@[simp] theorem State.spares_setWgAt (s : State) (k : Nat) (w : Workgroup) : (s.setWgAt k w).spares = s.spares := rfl
@[simp] theorem State.remap_setWgAt (s : State) (k : Nat) (w : Workgroup) : (s.setWgAt k w).remap = s.remap := rfl
@[simp] theorem State.scrubbed_setWgAt (s : State) (k : Nat) (w : Workgroup) : (s.setWgAt k w).scrubbed = s.scrubbed := rfl
@[simp] theorem State.eventIdx_setWgAt (s : State) (k : Nat) (w : Workgroup) : (s.setWgAt k w).eventIdx = s.eventIdx := rfl
@[simp] theorem State.sigIndex_setWgAt (s : State) (k : Nat) (w : Workgroup) : (s.setWgAt k w).sigIndex = s.sigIndex := rfl
@[simp] theorem State.sessions_setWgAt (s : State) (k : Nat) (w : Workgroup) : (s.setWgAt k w).sessions = s.sessions := rfl
@[simp] theorem State.flash_setWgAt (s : State) (k : Nat) (w : Workgroup) : (s.setWgAt k w).flash = s.flash := rfl
@[simp] theorem State.image_setWgAt (s : State) (k : Nat) (w : Workgroup) : (s.setWgAt k w).image = s.image := rfl
@[simp] theorem State.bootFailed_setWgAt (s : State) (k : Nat) (w : Workgroup) : (s.setWgAt k w).bootFailed = s.bootFailed := rfl
@[simp] theorem State.commits_setWgAt (s : State) (k : Nat) (w : Workgroup) : (s.setWgAt k w).commits = s.commits := rfl
@[simp] theorem State.windowCycles_setWgAt (s : State) (k : Nat) (w : Workgroup) : (s.setWgAt k w).windowCycles = s.windowCycles := rfl
@[simp] theorem State.slots_setWgAt (s : State) (k : Nat) (w : Workgroup) : (s.setWgAt k w).slots = s.slots := rfl
@[simp] theorem State.kept_setWgAt (s : State) (k : Nat) (w : Workgroup) : (s.setWgAt k w).kept = s.kept := rfl
@[simp] theorem State.devid_setWgAt (s : State) (k : Nat) (w : Workgroup) : (s.setWgAt k w).devid = s.devid := rfl
@[simp] theorem State.bridge_setWgAt (s : State) (k : Nat) (w : Workgroup) : (s.setWgAt k w).bridge = s.bridge := rfl
@[simp] theorem State.pcieUp_setWgAt (s : State) (k : Nat) (w : Workgroup) : (s.setWgAt k w).pcieUp = s.pcieUp := rfl
@[simp] theorem State.clock_setWgAt (s : State) (k : Nat) (w : Workgroup) : (s.setWgAt k w).clock = s.clock := rfl
@[simp] theorem State.ir_setWgAt (s : State) (k : Nat) (w : Workgroup) : (s.setWgAt k w).ir = s.ir := rfl
@[simp] theorem State.nextId_setWgAt (s : State) (k : Nat) (w : Workgroup) : (s.setWgAt k w).nextId = s.nextId := rfl
@[simp] theorem State.fresh_setWgAt (s : State) (k : Nat) (w : Workgroup) : (s.setWgAt k w).fresh = s.fresh := rfl
@[simp] theorem State.agenda_setWgAt (s : State) (k : Nat) (w : Workgroup) : (s.setWgAt k w).agenda = s.agenda := rfl
@[simp] theorem State.pace_setWgAt (s : State) (k : Nat) (w : Workgroup) : (s.setWgAt k w).pace = s.pace := rfl
@[simp] theorem State.stepNo_setWgAt (s : State) (k : Nat) (w : Workgroup) : (s.setWgAt k w).stepNo = s.stepNo := rfl

@[simp] theorem State.cur_updWgAt (s : State) (k : Nat) (f : Workgroup → Workgroup) : (s.updWgAt k f).cur = s.cur := rfl
@[simp] theorem State.gangs_updWgAt (s : State) (k : Nat) (f : Workgroup → Workgroup) : (s.updWgAt k f).gangs = s.gangs := rfl
@[simp] theorem State.cores_updWgAt (s : State) (k : Nat) (f : Workgroup → Workgroup) : (s.updWgAt k f).cores = s.cores := rfl
@[simp] theorem State.clusters_updWgAt (s : State) (k : Nat) (f : Workgroup → Workgroup) : (s.updWgAt k f).clusters = s.clusters := rfl
@[simp] theorem State.dies_updWgAt (s : State) (k : Nat) (f : Workgroup → Workgroup) : (s.updWgAt k f).dies = s.dies := rfl
@[simp] theorem State.parts_updWgAt (s : State) (k : Nat) (f : Workgroup → Workgroup) : (s.updWgAt k f).parts = s.parts := rfl
@[simp] theorem State.mem_updWgAt (s : State) (k : Nat) (f : Workgroup → Workgroup) : (s.updWgAt k f).mem = s.mem := rfl
@[simp] theorem State.badLines_updWgAt (s : State) (k : Nat) (f : Workgroup → Workgroup) : (s.updWgAt k f).badLines = s.badLines := rfl
@[simp] theorem State.migrating_updWgAt (s : State) (k : Nat) (f : Workgroup → Workgroup) : (s.updWgAt k f).migrating = s.migrating := rfl
@[simp] theorem State.ioTlb_updWgAt (s : State) (k : Nat) (f : Workgroup → Workgroup) : (s.updWgAt k f).ioTlb = s.ioTlb := rfl
@[simp] theorem State.window_updWgAt (s : State) (k : Nat) (f : Workgroup → Workgroup) : (s.updWgAt k f).window = s.window := rfl
@[simp] theorem State.sys_updWgAt (s : State) (k : Nat) (f : Workgroup → Workgroup) : (s.updWgAt k f).sys = s.sys := rfl
@[simp] theorem State.power_updWgAt (s : State) (k : Nat) (f : Workgroup → Workgroup) : (s.updWgAt k f).power = s.power := rfl
@[simp] theorem State.groups_updWgAt (s : State) (k : Nat) (f : Workgroup → Workgroup) : (s.updWgAt k f).groups = s.groups := rfl
@[simp] theorem State.handles_updWgAt (s : State) (k : Nat) (f : Workgroup → Workgroup) : (s.updWgAt k f).handles = s.handles := rfl
@[simp] theorem State.msgs_updWgAt (s : State) (k : Nat) (f : Workgroup → Workgroup) : (s.updWgAt k f).msgs = s.msgs := rfl
@[simp] theorem State.held_updWgAt (s : State) (k : Nat) (f : Workgroup → Workgroup) : (s.updWgAt k f).held = s.held := rfl
@[simp] theorem State.execs_updWgAt (s : State) (k : Nat) (f : Workgroup → Workgroup) : (s.updWgAt k f).execs = s.execs := rfl
@[simp] theorem State.alarms_updWgAt (s : State) (k : Nat) (f : Workgroup → Workgroup) : (s.updWgAt k f).alarms = s.alarms := rfl
@[simp] theorem State.cells_updWgAt (s : State) (k : Nat) (f : Workgroup → Workgroup) : (s.updWgAt k f).cells = s.cells := rfl
@[simp] theorem State.queues_updWgAt (s : State) (k : Nat) (f : Workgroup → Workgroup) : (s.updWgAt k f).queues = s.queues := rfl
@[simp] theorem State.frontWrites_updWgAt (s : State) (k : Nat) (f : Workgroup → Workgroup) : (s.updWgAt k f).frontWrites = s.frontWrites := rfl
@[simp] theorem State.launches_updWgAt (s : State) (k : Nat) (f : Workgroup → Workgroup) : (s.updWgAt k f).launches = s.launches := rfl
@[simp] theorem State.admission_updWgAt (s : State) (k : Nat) (f : Workgroup → Workgroup) : (s.updWgAt k f).admission = s.admission := rfl
@[simp] theorem State.saved_updWgAt (s : State) (k : Nat) (f : Workgroup → Workgroup) : (s.updWgAt k f).saved = s.saved := rfl
@[simp] theorem State.promo_updWgAt (s : State) (k : Nat) (f : Workgroup → Workgroup) : (s.updWgAt k f).promo = s.promo := rfl
@[simp] theorem State.watches_updWgAt (s : State) (k : Nat) (f : Workgroup → Workgroup) : (s.updWgAt k f).watches = s.watches := rfl
@[simp] theorem State.gt_updWgAt (s : State) (k : Nat) (f : Workgroup → Workgroup) : (s.updWgAt k f).gt = s.gt := rfl
@[simp] theorem State.sweep_updWgAt (s : State) (k : Nat) (f : Workgroup → Workgroup) : (s.updWgAt k f).sweep = s.sweep := rfl
@[simp] theorem State.teardowns_updWgAt (s : State) (k : Nat) (f : Workgroup → Workgroup) : (s.updWgAt k f).teardowns = s.teardowns := rfl
@[simp] theorem State.endings_updWgAt (s : State) (k : Nat) (f : Workgroup → Workgroup) : (s.updWgAt k f).endings = s.endings := rfl
@[simp] theorem State.invals_updWgAt (s : State) (k : Nat) (f : Workgroup → Workgroup) : (s.updWgAt k f).invals = s.invals := rfl
@[simp] theorem State.mirrors_updWgAt (s : State) (k : Nat) (f : Workgroup → Workgroup) : (s.updWgAt k f).mirrors = s.mirrors := rfl
@[simp] theorem State.fwcalls_updWgAt (s : State) (k : Nat) (f : Workgroup → Workgroup) : (s.updWgAt k f).fwcalls = s.fwcalls := rfl
@[simp] theorem State.links_updWgAt (s : State) (k : Nat) (f : Workgroup → Workgroup) : (s.updWgAt k f).links = s.links := rfl
@[simp] theorem State.inbound_updWgAt (s : State) (k : Nat) (f : Workgroup → Workgroup) : (s.updWgAt k f).inbound = s.inbound := rfl
@[simp] theorem State.hostReply_updWgAt (s : State) (k : Nat) (f : Workgroup → Workgroup) : (s.updWgAt k f).hostReply = s.hostReply := rfl
@[simp] theorem State.logIndex_updWgAt (s : State) (k : Nat) (f : Workgroup → Workgroup) : (s.updWgAt k f).logIndex = s.logIndex := rfl
@[simp] theorem State.logCount_updWgAt (s : State) (k : Nat) (f : Workgroup → Workgroup) : (s.updWgAt k f).logCount = s.logCount := rfl
@[simp] theorem State.routes_updWgAt (s : State) (k : Nat) (f : Workgroup → Workgroup) : (s.updWgAt k f).routes = s.routes := rfl
@[simp] theorem State.routesLoaded_updWgAt (s : State) (k : Nat) (f : Workgroup → Workgroup) : (s.updWgAt k f).routesLoaded = s.routesLoaded := rfl
@[simp] theorem State.rowFixes_updWgAt (s : State) (k : Nat) (f : Workgroup → Workgroup) : (s.updWgAt k f).rowFixes = s.rowFixes := rfl
@[simp] theorem State.spares_updWgAt (s : State) (k : Nat) (f : Workgroup → Workgroup) : (s.updWgAt k f).spares = s.spares := rfl
@[simp] theorem State.remap_updWgAt (s : State) (k : Nat) (f : Workgroup → Workgroup) : (s.updWgAt k f).remap = s.remap := rfl
@[simp] theorem State.scrubbed_updWgAt (s : State) (k : Nat) (f : Workgroup → Workgroup) : (s.updWgAt k f).scrubbed = s.scrubbed := rfl
@[simp] theorem State.eventIdx_updWgAt (s : State) (k : Nat) (f : Workgroup → Workgroup) : (s.updWgAt k f).eventIdx = s.eventIdx := rfl
@[simp] theorem State.sigIndex_updWgAt (s : State) (k : Nat) (f : Workgroup → Workgroup) : (s.updWgAt k f).sigIndex = s.sigIndex := rfl
@[simp] theorem State.sessions_updWgAt (s : State) (k : Nat) (f : Workgroup → Workgroup) : (s.updWgAt k f).sessions = s.sessions := rfl
@[simp] theorem State.flash_updWgAt (s : State) (k : Nat) (f : Workgroup → Workgroup) : (s.updWgAt k f).flash = s.flash := rfl
@[simp] theorem State.image_updWgAt (s : State) (k : Nat) (f : Workgroup → Workgroup) : (s.updWgAt k f).image = s.image := rfl
@[simp] theorem State.bootFailed_updWgAt (s : State) (k : Nat) (f : Workgroup → Workgroup) : (s.updWgAt k f).bootFailed = s.bootFailed := rfl
@[simp] theorem State.commits_updWgAt (s : State) (k : Nat) (f : Workgroup → Workgroup) : (s.updWgAt k f).commits = s.commits := rfl
@[simp] theorem State.windowCycles_updWgAt (s : State) (k : Nat) (f : Workgroup → Workgroup) : (s.updWgAt k f).windowCycles = s.windowCycles := rfl
@[simp] theorem State.slots_updWgAt (s : State) (k : Nat) (f : Workgroup → Workgroup) : (s.updWgAt k f).slots = s.slots := rfl
@[simp] theorem State.kept_updWgAt (s : State) (k : Nat) (f : Workgroup → Workgroup) : (s.updWgAt k f).kept = s.kept := rfl
@[simp] theorem State.devid_updWgAt (s : State) (k : Nat) (f : Workgroup → Workgroup) : (s.updWgAt k f).devid = s.devid := rfl
@[simp] theorem State.bridge_updWgAt (s : State) (k : Nat) (f : Workgroup → Workgroup) : (s.updWgAt k f).bridge = s.bridge := rfl
@[simp] theorem State.pcieUp_updWgAt (s : State) (k : Nat) (f : Workgroup → Workgroup) : (s.updWgAt k f).pcieUp = s.pcieUp := rfl
@[simp] theorem State.clock_updWgAt (s : State) (k : Nat) (f : Workgroup → Workgroup) : (s.updWgAt k f).clock = s.clock := rfl
@[simp] theorem State.ir_updWgAt (s : State) (k : Nat) (f : Workgroup → Workgroup) : (s.updWgAt k f).ir = s.ir := rfl
@[simp] theorem State.nextId_updWgAt (s : State) (k : Nat) (f : Workgroup → Workgroup) : (s.updWgAt k f).nextId = s.nextId := rfl
@[simp] theorem State.fresh_updWgAt (s : State) (k : Nat) (f : Workgroup → Workgroup) : (s.updWgAt k f).fresh = s.fresh := rfl
@[simp] theorem State.agenda_updWgAt (s : State) (k : Nat) (f : Workgroup → Workgroup) : (s.updWgAt k f).agenda = s.agenda := rfl
@[simp] theorem State.pace_updWgAt (s : State) (k : Nat) (f : Workgroup → Workgroup) : (s.updWgAt k f).pace = s.pace := rfl
@[simp] theorem State.stepNo_updWgAt (s : State) (k : Nat) (f : Workgroup → Workgroup) : (s.updWgAt k f).stepNo = s.stepNo := rfl

@[simp] theorem State.cur_updWg (s : State) (f : Workgroup → Workgroup) : (s.updWg f).cur = s.cur := rfl
@[simp] theorem State.gangs_updWg (s : State) (f : Workgroup → Workgroup) : (s.updWg f).gangs = s.gangs := rfl
@[simp] theorem State.cores_updWg (s : State) (f : Workgroup → Workgroup) : (s.updWg f).cores = s.cores := rfl
@[simp] theorem State.clusters_updWg (s : State) (f : Workgroup → Workgroup) : (s.updWg f).clusters = s.clusters := rfl
@[simp] theorem State.dies_updWg (s : State) (f : Workgroup → Workgroup) : (s.updWg f).dies = s.dies := rfl
@[simp] theorem State.parts_updWg (s : State) (f : Workgroup → Workgroup) : (s.updWg f).parts = s.parts := rfl
@[simp] theorem State.mem_updWg (s : State) (f : Workgroup → Workgroup) : (s.updWg f).mem = s.mem := rfl
@[simp] theorem State.badLines_updWg (s : State) (f : Workgroup → Workgroup) : (s.updWg f).badLines = s.badLines := rfl
@[simp] theorem State.migrating_updWg (s : State) (f : Workgroup → Workgroup) : (s.updWg f).migrating = s.migrating := rfl
@[simp] theorem State.ioTlb_updWg (s : State) (f : Workgroup → Workgroup) : (s.updWg f).ioTlb = s.ioTlb := rfl
@[simp] theorem State.window_updWg (s : State) (f : Workgroup → Workgroup) : (s.updWg f).window = s.window := rfl
@[simp] theorem State.sys_updWg (s : State) (f : Workgroup → Workgroup) : (s.updWg f).sys = s.sys := rfl
@[simp] theorem State.power_updWg (s : State) (f : Workgroup → Workgroup) : (s.updWg f).power = s.power := rfl
@[simp] theorem State.groups_updWg (s : State) (f : Workgroup → Workgroup) : (s.updWg f).groups = s.groups := rfl
@[simp] theorem State.handles_updWg (s : State) (f : Workgroup → Workgroup) : (s.updWg f).handles = s.handles := rfl
@[simp] theorem State.msgs_updWg (s : State) (f : Workgroup → Workgroup) : (s.updWg f).msgs = s.msgs := rfl
@[simp] theorem State.held_updWg (s : State) (f : Workgroup → Workgroup) : (s.updWg f).held = s.held := rfl
@[simp] theorem State.execs_updWg (s : State) (f : Workgroup → Workgroup) : (s.updWg f).execs = s.execs := rfl
@[simp] theorem State.alarms_updWg (s : State) (f : Workgroup → Workgroup) : (s.updWg f).alarms = s.alarms := rfl
@[simp] theorem State.cells_updWg (s : State) (f : Workgroup → Workgroup) : (s.updWg f).cells = s.cells := rfl
@[simp] theorem State.queues_updWg (s : State) (f : Workgroup → Workgroup) : (s.updWg f).queues = s.queues := rfl
@[simp] theorem State.frontWrites_updWg (s : State) (f : Workgroup → Workgroup) : (s.updWg f).frontWrites = s.frontWrites := rfl
@[simp] theorem State.launches_updWg (s : State) (f : Workgroup → Workgroup) : (s.updWg f).launches = s.launches := rfl
@[simp] theorem State.admission_updWg (s : State) (f : Workgroup → Workgroup) : (s.updWg f).admission = s.admission := rfl
@[simp] theorem State.saved_updWg (s : State) (f : Workgroup → Workgroup) : (s.updWg f).saved = s.saved := rfl
@[simp] theorem State.promo_updWg (s : State) (f : Workgroup → Workgroup) : (s.updWg f).promo = s.promo := rfl
@[simp] theorem State.watches_updWg (s : State) (f : Workgroup → Workgroup) : (s.updWg f).watches = s.watches := rfl
@[simp] theorem State.gt_updWg (s : State) (f : Workgroup → Workgroup) : (s.updWg f).gt = s.gt := rfl
@[simp] theorem State.sweep_updWg (s : State) (f : Workgroup → Workgroup) : (s.updWg f).sweep = s.sweep := rfl
@[simp] theorem State.teardowns_updWg (s : State) (f : Workgroup → Workgroup) : (s.updWg f).teardowns = s.teardowns := rfl
@[simp] theorem State.endings_updWg (s : State) (f : Workgroup → Workgroup) : (s.updWg f).endings = s.endings := rfl
@[simp] theorem State.invals_updWg (s : State) (f : Workgroup → Workgroup) : (s.updWg f).invals = s.invals := rfl
@[simp] theorem State.mirrors_updWg (s : State) (f : Workgroup → Workgroup) : (s.updWg f).mirrors = s.mirrors := rfl
@[simp] theorem State.fwcalls_updWg (s : State) (f : Workgroup → Workgroup) : (s.updWg f).fwcalls = s.fwcalls := rfl
@[simp] theorem State.links_updWg (s : State) (f : Workgroup → Workgroup) : (s.updWg f).links = s.links := rfl
@[simp] theorem State.inbound_updWg (s : State) (f : Workgroup → Workgroup) : (s.updWg f).inbound = s.inbound := rfl
@[simp] theorem State.hostReply_updWg (s : State) (f : Workgroup → Workgroup) : (s.updWg f).hostReply = s.hostReply := rfl
@[simp] theorem State.logIndex_updWg (s : State) (f : Workgroup → Workgroup) : (s.updWg f).logIndex = s.logIndex := rfl
@[simp] theorem State.logCount_updWg (s : State) (f : Workgroup → Workgroup) : (s.updWg f).logCount = s.logCount := rfl
@[simp] theorem State.routes_updWg (s : State) (f : Workgroup → Workgroup) : (s.updWg f).routes = s.routes := rfl
@[simp] theorem State.routesLoaded_updWg (s : State) (f : Workgroup → Workgroup) : (s.updWg f).routesLoaded = s.routesLoaded := rfl
@[simp] theorem State.rowFixes_updWg (s : State) (f : Workgroup → Workgroup) : (s.updWg f).rowFixes = s.rowFixes := rfl
@[simp] theorem State.spares_updWg (s : State) (f : Workgroup → Workgroup) : (s.updWg f).spares = s.spares := rfl
@[simp] theorem State.remap_updWg (s : State) (f : Workgroup → Workgroup) : (s.updWg f).remap = s.remap := rfl
@[simp] theorem State.scrubbed_updWg (s : State) (f : Workgroup → Workgroup) : (s.updWg f).scrubbed = s.scrubbed := rfl
@[simp] theorem State.eventIdx_updWg (s : State) (f : Workgroup → Workgroup) : (s.updWg f).eventIdx = s.eventIdx := rfl
@[simp] theorem State.sigIndex_updWg (s : State) (f : Workgroup → Workgroup) : (s.updWg f).sigIndex = s.sigIndex := rfl
@[simp] theorem State.sessions_updWg (s : State) (f : Workgroup → Workgroup) : (s.updWg f).sessions = s.sessions := rfl
@[simp] theorem State.flash_updWg (s : State) (f : Workgroup → Workgroup) : (s.updWg f).flash = s.flash := rfl
@[simp] theorem State.image_updWg (s : State) (f : Workgroup → Workgroup) : (s.updWg f).image = s.image := rfl
@[simp] theorem State.bootFailed_updWg (s : State) (f : Workgroup → Workgroup) : (s.updWg f).bootFailed = s.bootFailed := rfl
@[simp] theorem State.commits_updWg (s : State) (f : Workgroup → Workgroup) : (s.updWg f).commits = s.commits := rfl
@[simp] theorem State.windowCycles_updWg (s : State) (f : Workgroup → Workgroup) : (s.updWg f).windowCycles = s.windowCycles := rfl
@[simp] theorem State.slots_updWg (s : State) (f : Workgroup → Workgroup) : (s.updWg f).slots = s.slots := rfl
@[simp] theorem State.kept_updWg (s : State) (f : Workgroup → Workgroup) : (s.updWg f).kept = s.kept := rfl
@[simp] theorem State.devid_updWg (s : State) (f : Workgroup → Workgroup) : (s.updWg f).devid = s.devid := rfl
@[simp] theorem State.bridge_updWg (s : State) (f : Workgroup → Workgroup) : (s.updWg f).bridge = s.bridge := rfl
@[simp] theorem State.pcieUp_updWg (s : State) (f : Workgroup → Workgroup) : (s.updWg f).pcieUp = s.pcieUp := rfl
@[simp] theorem State.clock_updWg (s : State) (f : Workgroup → Workgroup) : (s.updWg f).clock = s.clock := rfl
@[simp] theorem State.ir_updWg (s : State) (f : Workgroup → Workgroup) : (s.updWg f).ir = s.ir := rfl
@[simp] theorem State.nextId_updWg (s : State) (f : Workgroup → Workgroup) : (s.updWg f).nextId = s.nextId := rfl
@[simp] theorem State.fresh_updWg (s : State) (f : Workgroup → Workgroup) : (s.updWg f).fresh = s.fresh := rfl
@[simp] theorem State.agenda_updWg (s : State) (f : Workgroup → Workgroup) : (s.updWg f).agenda = s.agenda := rfl
@[simp] theorem State.pace_updWg (s : State) (f : Workgroup → Workgroup) : (s.updWg f).pace = s.pace := rfl
@[simp] theorem State.stepNo_updWg (s : State) (f : Workgroup → Workgroup) : (s.updWg f).stepNo = s.stepNo := rfl

@[simp] theorem State.cur_updCore (s : State) (k : Nat) (f : Core → Core) : (s.updCore k f).cur = s.cur := rfl
@[simp] theorem State.gangs_updCore (s : State) (k : Nat) (f : Core → Core) : (s.updCore k f).gangs = s.gangs := rfl
@[simp] theorem State.wgs_updCore (s : State) (k : Nat) (f : Core → Core) : (s.updCore k f).wgs = s.wgs := rfl
@[simp] theorem State.clusters_updCore (s : State) (k : Nat) (f : Core → Core) : (s.updCore k f).clusters = s.clusters := rfl
@[simp] theorem State.dies_updCore (s : State) (k : Nat) (f : Core → Core) : (s.updCore k f).dies = s.dies := rfl
@[simp] theorem State.parts_updCore (s : State) (k : Nat) (f : Core → Core) : (s.updCore k f).parts = s.parts := rfl
@[simp] theorem State.mem_updCore (s : State) (k : Nat) (f : Core → Core) : (s.updCore k f).mem = s.mem := rfl
@[simp] theorem State.badLines_updCore (s : State) (k : Nat) (f : Core → Core) : (s.updCore k f).badLines = s.badLines := rfl
@[simp] theorem State.migrating_updCore (s : State) (k : Nat) (f : Core → Core) : (s.updCore k f).migrating = s.migrating := rfl
@[simp] theorem State.ioTlb_updCore (s : State) (k : Nat) (f : Core → Core) : (s.updCore k f).ioTlb = s.ioTlb := rfl
@[simp] theorem State.window_updCore (s : State) (k : Nat) (f : Core → Core) : (s.updCore k f).window = s.window := rfl
@[simp] theorem State.sys_updCore (s : State) (k : Nat) (f : Core → Core) : (s.updCore k f).sys = s.sys := rfl
@[simp] theorem State.power_updCore (s : State) (k : Nat) (f : Core → Core) : (s.updCore k f).power = s.power := rfl
@[simp] theorem State.groups_updCore (s : State) (k : Nat) (f : Core → Core) : (s.updCore k f).groups = s.groups := rfl
@[simp] theorem State.handles_updCore (s : State) (k : Nat) (f : Core → Core) : (s.updCore k f).handles = s.handles := rfl
@[simp] theorem State.msgs_updCore (s : State) (k : Nat) (f : Core → Core) : (s.updCore k f).msgs = s.msgs := rfl
@[simp] theorem State.held_updCore (s : State) (k : Nat) (f : Core → Core) : (s.updCore k f).held = s.held := rfl
@[simp] theorem State.execs_updCore (s : State) (k : Nat) (f : Core → Core) : (s.updCore k f).execs = s.execs := rfl
@[simp] theorem State.alarms_updCore (s : State) (k : Nat) (f : Core → Core) : (s.updCore k f).alarms = s.alarms := rfl
@[simp] theorem State.cells_updCore (s : State) (k : Nat) (f : Core → Core) : (s.updCore k f).cells = s.cells := rfl
@[simp] theorem State.queues_updCore (s : State) (k : Nat) (f : Core → Core) : (s.updCore k f).queues = s.queues := rfl
@[simp] theorem State.frontWrites_updCore (s : State) (k : Nat) (f : Core → Core) : (s.updCore k f).frontWrites = s.frontWrites := rfl
@[simp] theorem State.launches_updCore (s : State) (k : Nat) (f : Core → Core) : (s.updCore k f).launches = s.launches := rfl
@[simp] theorem State.admission_updCore (s : State) (k : Nat) (f : Core → Core) : (s.updCore k f).admission = s.admission := rfl
@[simp] theorem State.saved_updCore (s : State) (k : Nat) (f : Core → Core) : (s.updCore k f).saved = s.saved := rfl
@[simp] theorem State.promo_updCore (s : State) (k : Nat) (f : Core → Core) : (s.updCore k f).promo = s.promo := rfl
@[simp] theorem State.watches_updCore (s : State) (k : Nat) (f : Core → Core) : (s.updCore k f).watches = s.watches := rfl
@[simp] theorem State.gt_updCore (s : State) (k : Nat) (f : Core → Core) : (s.updCore k f).gt = s.gt := rfl
@[simp] theorem State.sweep_updCore (s : State) (k : Nat) (f : Core → Core) : (s.updCore k f).sweep = s.sweep := rfl
@[simp] theorem State.teardowns_updCore (s : State) (k : Nat) (f : Core → Core) : (s.updCore k f).teardowns = s.teardowns := rfl
@[simp] theorem State.endings_updCore (s : State) (k : Nat) (f : Core → Core) : (s.updCore k f).endings = s.endings := rfl
@[simp] theorem State.invals_updCore (s : State) (k : Nat) (f : Core → Core) : (s.updCore k f).invals = s.invals := rfl
@[simp] theorem State.mirrors_updCore (s : State) (k : Nat) (f : Core → Core) : (s.updCore k f).mirrors = s.mirrors := rfl
@[simp] theorem State.fwcalls_updCore (s : State) (k : Nat) (f : Core → Core) : (s.updCore k f).fwcalls = s.fwcalls := rfl
@[simp] theorem State.links_updCore (s : State) (k : Nat) (f : Core → Core) : (s.updCore k f).links = s.links := rfl
@[simp] theorem State.inbound_updCore (s : State) (k : Nat) (f : Core → Core) : (s.updCore k f).inbound = s.inbound := rfl
@[simp] theorem State.hostReply_updCore (s : State) (k : Nat) (f : Core → Core) : (s.updCore k f).hostReply = s.hostReply := rfl
@[simp] theorem State.logIndex_updCore (s : State) (k : Nat) (f : Core → Core) : (s.updCore k f).logIndex = s.logIndex := rfl
@[simp] theorem State.logCount_updCore (s : State) (k : Nat) (f : Core → Core) : (s.updCore k f).logCount = s.logCount := rfl
@[simp] theorem State.routes_updCore (s : State) (k : Nat) (f : Core → Core) : (s.updCore k f).routes = s.routes := rfl
@[simp] theorem State.routesLoaded_updCore (s : State) (k : Nat) (f : Core → Core) : (s.updCore k f).routesLoaded = s.routesLoaded := rfl
@[simp] theorem State.rowFixes_updCore (s : State) (k : Nat) (f : Core → Core) : (s.updCore k f).rowFixes = s.rowFixes := rfl
@[simp] theorem State.spares_updCore (s : State) (k : Nat) (f : Core → Core) : (s.updCore k f).spares = s.spares := rfl
@[simp] theorem State.remap_updCore (s : State) (k : Nat) (f : Core → Core) : (s.updCore k f).remap = s.remap := rfl
@[simp] theorem State.scrubbed_updCore (s : State) (k : Nat) (f : Core → Core) : (s.updCore k f).scrubbed = s.scrubbed := rfl
@[simp] theorem State.eventIdx_updCore (s : State) (k : Nat) (f : Core → Core) : (s.updCore k f).eventIdx = s.eventIdx := rfl
@[simp] theorem State.sigIndex_updCore (s : State) (k : Nat) (f : Core → Core) : (s.updCore k f).sigIndex = s.sigIndex := rfl
@[simp] theorem State.sessions_updCore (s : State) (k : Nat) (f : Core → Core) : (s.updCore k f).sessions = s.sessions := rfl
@[simp] theorem State.flash_updCore (s : State) (k : Nat) (f : Core → Core) : (s.updCore k f).flash = s.flash := rfl
@[simp] theorem State.image_updCore (s : State) (k : Nat) (f : Core → Core) : (s.updCore k f).image = s.image := rfl
@[simp] theorem State.bootFailed_updCore (s : State) (k : Nat) (f : Core → Core) : (s.updCore k f).bootFailed = s.bootFailed := rfl
@[simp] theorem State.commits_updCore (s : State) (k : Nat) (f : Core → Core) : (s.updCore k f).commits = s.commits := rfl
@[simp] theorem State.windowCycles_updCore (s : State) (k : Nat) (f : Core → Core) : (s.updCore k f).windowCycles = s.windowCycles := rfl
@[simp] theorem State.slots_updCore (s : State) (k : Nat) (f : Core → Core) : (s.updCore k f).slots = s.slots := rfl
@[simp] theorem State.kept_updCore (s : State) (k : Nat) (f : Core → Core) : (s.updCore k f).kept = s.kept := rfl
@[simp] theorem State.devid_updCore (s : State) (k : Nat) (f : Core → Core) : (s.updCore k f).devid = s.devid := rfl
@[simp] theorem State.bridge_updCore (s : State) (k : Nat) (f : Core → Core) : (s.updCore k f).bridge = s.bridge := rfl
@[simp] theorem State.pcieUp_updCore (s : State) (k : Nat) (f : Core → Core) : (s.updCore k f).pcieUp = s.pcieUp := rfl
@[simp] theorem State.clock_updCore (s : State) (k : Nat) (f : Core → Core) : (s.updCore k f).clock = s.clock := rfl
@[simp] theorem State.ir_updCore (s : State) (k : Nat) (f : Core → Core) : (s.updCore k f).ir = s.ir := rfl
@[simp] theorem State.nextId_updCore (s : State) (k : Nat) (f : Core → Core) : (s.updCore k f).nextId = s.nextId := rfl
@[simp] theorem State.fresh_updCore (s : State) (k : Nat) (f : Core → Core) : (s.updCore k f).fresh = s.fresh := rfl
@[simp] theorem State.agenda_updCore (s : State) (k : Nat) (f : Core → Core) : (s.updCore k f).agenda = s.agenda := rfl
@[simp] theorem State.pace_updCore (s : State) (k : Nat) (f : Core → Core) : (s.updCore k f).pace = s.pace := rfl
@[simp] theorem State.stepNo_updCore (s : State) (k : Nat) (f : Core → Core) : (s.updCore k f).stepNo = s.stepNo := rfl

@[simp] theorem State.cur_updCluster (s : State) (k : Nat) (f : Cluster → Cluster) : (s.updCluster k f).cur = s.cur := rfl
@[simp] theorem State.gangs_updCluster (s : State) (k : Nat) (f : Cluster → Cluster) : (s.updCluster k f).gangs = s.gangs := rfl
@[simp] theorem State.wgs_updCluster (s : State) (k : Nat) (f : Cluster → Cluster) : (s.updCluster k f).wgs = s.wgs := rfl
@[simp] theorem State.cores_updCluster (s : State) (k : Nat) (f : Cluster → Cluster) : (s.updCluster k f).cores = s.cores := rfl
@[simp] theorem State.dies_updCluster (s : State) (k : Nat) (f : Cluster → Cluster) : (s.updCluster k f).dies = s.dies := rfl
@[simp] theorem State.parts_updCluster (s : State) (k : Nat) (f : Cluster → Cluster) : (s.updCluster k f).parts = s.parts := rfl
@[simp] theorem State.mem_updCluster (s : State) (k : Nat) (f : Cluster → Cluster) : (s.updCluster k f).mem = s.mem := rfl
@[simp] theorem State.badLines_updCluster (s : State) (k : Nat) (f : Cluster → Cluster) : (s.updCluster k f).badLines = s.badLines := rfl
@[simp] theorem State.migrating_updCluster (s : State) (k : Nat) (f : Cluster → Cluster) : (s.updCluster k f).migrating = s.migrating := rfl
@[simp] theorem State.ioTlb_updCluster (s : State) (k : Nat) (f : Cluster → Cluster) : (s.updCluster k f).ioTlb = s.ioTlb := rfl
@[simp] theorem State.window_updCluster (s : State) (k : Nat) (f : Cluster → Cluster) : (s.updCluster k f).window = s.window := rfl
@[simp] theorem State.sys_updCluster (s : State) (k : Nat) (f : Cluster → Cluster) : (s.updCluster k f).sys = s.sys := rfl
@[simp] theorem State.power_updCluster (s : State) (k : Nat) (f : Cluster → Cluster) : (s.updCluster k f).power = s.power := rfl
@[simp] theorem State.groups_updCluster (s : State) (k : Nat) (f : Cluster → Cluster) : (s.updCluster k f).groups = s.groups := rfl
@[simp] theorem State.handles_updCluster (s : State) (k : Nat) (f : Cluster → Cluster) : (s.updCluster k f).handles = s.handles := rfl
@[simp] theorem State.msgs_updCluster (s : State) (k : Nat) (f : Cluster → Cluster) : (s.updCluster k f).msgs = s.msgs := rfl
@[simp] theorem State.held_updCluster (s : State) (k : Nat) (f : Cluster → Cluster) : (s.updCluster k f).held = s.held := rfl
@[simp] theorem State.execs_updCluster (s : State) (k : Nat) (f : Cluster → Cluster) : (s.updCluster k f).execs = s.execs := rfl
@[simp] theorem State.alarms_updCluster (s : State) (k : Nat) (f : Cluster → Cluster) : (s.updCluster k f).alarms = s.alarms := rfl
@[simp] theorem State.cells_updCluster (s : State) (k : Nat) (f : Cluster → Cluster) : (s.updCluster k f).cells = s.cells := rfl
@[simp] theorem State.queues_updCluster (s : State) (k : Nat) (f : Cluster → Cluster) : (s.updCluster k f).queues = s.queues := rfl
@[simp] theorem State.frontWrites_updCluster (s : State) (k : Nat) (f : Cluster → Cluster) : (s.updCluster k f).frontWrites = s.frontWrites := rfl
@[simp] theorem State.launches_updCluster (s : State) (k : Nat) (f : Cluster → Cluster) : (s.updCluster k f).launches = s.launches := rfl
@[simp] theorem State.admission_updCluster (s : State) (k : Nat) (f : Cluster → Cluster) : (s.updCluster k f).admission = s.admission := rfl
@[simp] theorem State.saved_updCluster (s : State) (k : Nat) (f : Cluster → Cluster) : (s.updCluster k f).saved = s.saved := rfl
@[simp] theorem State.promo_updCluster (s : State) (k : Nat) (f : Cluster → Cluster) : (s.updCluster k f).promo = s.promo := rfl
@[simp] theorem State.watches_updCluster (s : State) (k : Nat) (f : Cluster → Cluster) : (s.updCluster k f).watches = s.watches := rfl
@[simp] theorem State.gt_updCluster (s : State) (k : Nat) (f : Cluster → Cluster) : (s.updCluster k f).gt = s.gt := rfl
@[simp] theorem State.sweep_updCluster (s : State) (k : Nat) (f : Cluster → Cluster) : (s.updCluster k f).sweep = s.sweep := rfl
@[simp] theorem State.teardowns_updCluster (s : State) (k : Nat) (f : Cluster → Cluster) : (s.updCluster k f).teardowns = s.teardowns := rfl
@[simp] theorem State.endings_updCluster (s : State) (k : Nat) (f : Cluster → Cluster) : (s.updCluster k f).endings = s.endings := rfl
@[simp] theorem State.invals_updCluster (s : State) (k : Nat) (f : Cluster → Cluster) : (s.updCluster k f).invals = s.invals := rfl
@[simp] theorem State.mirrors_updCluster (s : State) (k : Nat) (f : Cluster → Cluster) : (s.updCluster k f).mirrors = s.mirrors := rfl
@[simp] theorem State.fwcalls_updCluster (s : State) (k : Nat) (f : Cluster → Cluster) : (s.updCluster k f).fwcalls = s.fwcalls := rfl
@[simp] theorem State.links_updCluster (s : State) (k : Nat) (f : Cluster → Cluster) : (s.updCluster k f).links = s.links := rfl
@[simp] theorem State.inbound_updCluster (s : State) (k : Nat) (f : Cluster → Cluster) : (s.updCluster k f).inbound = s.inbound := rfl
@[simp] theorem State.hostReply_updCluster (s : State) (k : Nat) (f : Cluster → Cluster) : (s.updCluster k f).hostReply = s.hostReply := rfl
@[simp] theorem State.logIndex_updCluster (s : State) (k : Nat) (f : Cluster → Cluster) : (s.updCluster k f).logIndex = s.logIndex := rfl
@[simp] theorem State.logCount_updCluster (s : State) (k : Nat) (f : Cluster → Cluster) : (s.updCluster k f).logCount = s.logCount := rfl
@[simp] theorem State.routes_updCluster (s : State) (k : Nat) (f : Cluster → Cluster) : (s.updCluster k f).routes = s.routes := rfl
@[simp] theorem State.routesLoaded_updCluster (s : State) (k : Nat) (f : Cluster → Cluster) : (s.updCluster k f).routesLoaded = s.routesLoaded := rfl
@[simp] theorem State.rowFixes_updCluster (s : State) (k : Nat) (f : Cluster → Cluster) : (s.updCluster k f).rowFixes = s.rowFixes := rfl
@[simp] theorem State.spares_updCluster (s : State) (k : Nat) (f : Cluster → Cluster) : (s.updCluster k f).spares = s.spares := rfl
@[simp] theorem State.remap_updCluster (s : State) (k : Nat) (f : Cluster → Cluster) : (s.updCluster k f).remap = s.remap := rfl
@[simp] theorem State.scrubbed_updCluster (s : State) (k : Nat) (f : Cluster → Cluster) : (s.updCluster k f).scrubbed = s.scrubbed := rfl
@[simp] theorem State.eventIdx_updCluster (s : State) (k : Nat) (f : Cluster → Cluster) : (s.updCluster k f).eventIdx = s.eventIdx := rfl
@[simp] theorem State.sigIndex_updCluster (s : State) (k : Nat) (f : Cluster → Cluster) : (s.updCluster k f).sigIndex = s.sigIndex := rfl
@[simp] theorem State.sessions_updCluster (s : State) (k : Nat) (f : Cluster → Cluster) : (s.updCluster k f).sessions = s.sessions := rfl
@[simp] theorem State.flash_updCluster (s : State) (k : Nat) (f : Cluster → Cluster) : (s.updCluster k f).flash = s.flash := rfl
@[simp] theorem State.image_updCluster (s : State) (k : Nat) (f : Cluster → Cluster) : (s.updCluster k f).image = s.image := rfl
@[simp] theorem State.bootFailed_updCluster (s : State) (k : Nat) (f : Cluster → Cluster) : (s.updCluster k f).bootFailed = s.bootFailed := rfl
@[simp] theorem State.commits_updCluster (s : State) (k : Nat) (f : Cluster → Cluster) : (s.updCluster k f).commits = s.commits := rfl
@[simp] theorem State.windowCycles_updCluster (s : State) (k : Nat) (f : Cluster → Cluster) : (s.updCluster k f).windowCycles = s.windowCycles := rfl
@[simp] theorem State.slots_updCluster (s : State) (k : Nat) (f : Cluster → Cluster) : (s.updCluster k f).slots = s.slots := rfl
@[simp] theorem State.kept_updCluster (s : State) (k : Nat) (f : Cluster → Cluster) : (s.updCluster k f).kept = s.kept := rfl
@[simp] theorem State.devid_updCluster (s : State) (k : Nat) (f : Cluster → Cluster) : (s.updCluster k f).devid = s.devid := rfl
@[simp] theorem State.bridge_updCluster (s : State) (k : Nat) (f : Cluster → Cluster) : (s.updCluster k f).bridge = s.bridge := rfl
@[simp] theorem State.pcieUp_updCluster (s : State) (k : Nat) (f : Cluster → Cluster) : (s.updCluster k f).pcieUp = s.pcieUp := rfl
@[simp] theorem State.clock_updCluster (s : State) (k : Nat) (f : Cluster → Cluster) : (s.updCluster k f).clock = s.clock := rfl
@[simp] theorem State.ir_updCluster (s : State) (k : Nat) (f : Cluster → Cluster) : (s.updCluster k f).ir = s.ir := rfl
@[simp] theorem State.nextId_updCluster (s : State) (k : Nat) (f : Cluster → Cluster) : (s.updCluster k f).nextId = s.nextId := rfl
@[simp] theorem State.fresh_updCluster (s : State) (k : Nat) (f : Cluster → Cluster) : (s.updCluster k f).fresh = s.fresh := rfl
@[simp] theorem State.agenda_updCluster (s : State) (k : Nat) (f : Cluster → Cluster) : (s.updCluster k f).agenda = s.agenda := rfl
@[simp] theorem State.pace_updCluster (s : State) (k : Nat) (f : Cluster → Cluster) : (s.updCluster k f).pace = s.pace := rfl
@[simp] theorem State.stepNo_updCluster (s : State) (k : Nat) (f : Cluster → Cluster) : (s.updCluster k f).stepNo = s.stepNo := rfl

@[simp] theorem State.cur_updDie (s : State) (k : Nat) (f : Die → Die) : (s.updDie k f).cur = s.cur := rfl
@[simp] theorem State.gangs_updDie (s : State) (k : Nat) (f : Die → Die) : (s.updDie k f).gangs = s.gangs := rfl
@[simp] theorem State.wgs_updDie (s : State) (k : Nat) (f : Die → Die) : (s.updDie k f).wgs = s.wgs := rfl
@[simp] theorem State.cores_updDie (s : State) (k : Nat) (f : Die → Die) : (s.updDie k f).cores = s.cores := rfl
@[simp] theorem State.clusters_updDie (s : State) (k : Nat) (f : Die → Die) : (s.updDie k f).clusters = s.clusters := rfl
@[simp] theorem State.parts_updDie (s : State) (k : Nat) (f : Die → Die) : (s.updDie k f).parts = s.parts := rfl
@[simp] theorem State.mem_updDie (s : State) (k : Nat) (f : Die → Die) : (s.updDie k f).mem = s.mem := rfl
@[simp] theorem State.badLines_updDie (s : State) (k : Nat) (f : Die → Die) : (s.updDie k f).badLines = s.badLines := rfl
@[simp] theorem State.migrating_updDie (s : State) (k : Nat) (f : Die → Die) : (s.updDie k f).migrating = s.migrating := rfl
@[simp] theorem State.ioTlb_updDie (s : State) (k : Nat) (f : Die → Die) : (s.updDie k f).ioTlb = s.ioTlb := rfl
@[simp] theorem State.window_updDie (s : State) (k : Nat) (f : Die → Die) : (s.updDie k f).window = s.window := rfl
@[simp] theorem State.sys_updDie (s : State) (k : Nat) (f : Die → Die) : (s.updDie k f).sys = s.sys := rfl
@[simp] theorem State.power_updDie (s : State) (k : Nat) (f : Die → Die) : (s.updDie k f).power = s.power := rfl
@[simp] theorem State.groups_updDie (s : State) (k : Nat) (f : Die → Die) : (s.updDie k f).groups = s.groups := rfl
@[simp] theorem State.handles_updDie (s : State) (k : Nat) (f : Die → Die) : (s.updDie k f).handles = s.handles := rfl
@[simp] theorem State.msgs_updDie (s : State) (k : Nat) (f : Die → Die) : (s.updDie k f).msgs = s.msgs := rfl
@[simp] theorem State.held_updDie (s : State) (k : Nat) (f : Die → Die) : (s.updDie k f).held = s.held := rfl
@[simp] theorem State.execs_updDie (s : State) (k : Nat) (f : Die → Die) : (s.updDie k f).execs = s.execs := rfl
@[simp] theorem State.alarms_updDie (s : State) (k : Nat) (f : Die → Die) : (s.updDie k f).alarms = s.alarms := rfl
@[simp] theorem State.cells_updDie (s : State) (k : Nat) (f : Die → Die) : (s.updDie k f).cells = s.cells := rfl
@[simp] theorem State.queues_updDie (s : State) (k : Nat) (f : Die → Die) : (s.updDie k f).queues = s.queues := rfl
@[simp] theorem State.frontWrites_updDie (s : State) (k : Nat) (f : Die → Die) : (s.updDie k f).frontWrites = s.frontWrites := rfl
@[simp] theorem State.launches_updDie (s : State) (k : Nat) (f : Die → Die) : (s.updDie k f).launches = s.launches := rfl
@[simp] theorem State.admission_updDie (s : State) (k : Nat) (f : Die → Die) : (s.updDie k f).admission = s.admission := rfl
@[simp] theorem State.saved_updDie (s : State) (k : Nat) (f : Die → Die) : (s.updDie k f).saved = s.saved := rfl
@[simp] theorem State.promo_updDie (s : State) (k : Nat) (f : Die → Die) : (s.updDie k f).promo = s.promo := rfl
@[simp] theorem State.watches_updDie (s : State) (k : Nat) (f : Die → Die) : (s.updDie k f).watches = s.watches := rfl
@[simp] theorem State.gt_updDie (s : State) (k : Nat) (f : Die → Die) : (s.updDie k f).gt = s.gt := rfl
@[simp] theorem State.sweep_updDie (s : State) (k : Nat) (f : Die → Die) : (s.updDie k f).sweep = s.sweep := rfl
@[simp] theorem State.teardowns_updDie (s : State) (k : Nat) (f : Die → Die) : (s.updDie k f).teardowns = s.teardowns := rfl
@[simp] theorem State.endings_updDie (s : State) (k : Nat) (f : Die → Die) : (s.updDie k f).endings = s.endings := rfl
@[simp] theorem State.invals_updDie (s : State) (k : Nat) (f : Die → Die) : (s.updDie k f).invals = s.invals := rfl
@[simp] theorem State.mirrors_updDie (s : State) (k : Nat) (f : Die → Die) : (s.updDie k f).mirrors = s.mirrors := rfl
@[simp] theorem State.fwcalls_updDie (s : State) (k : Nat) (f : Die → Die) : (s.updDie k f).fwcalls = s.fwcalls := rfl
@[simp] theorem State.links_updDie (s : State) (k : Nat) (f : Die → Die) : (s.updDie k f).links = s.links := rfl
@[simp] theorem State.inbound_updDie (s : State) (k : Nat) (f : Die → Die) : (s.updDie k f).inbound = s.inbound := rfl
@[simp] theorem State.hostReply_updDie (s : State) (k : Nat) (f : Die → Die) : (s.updDie k f).hostReply = s.hostReply := rfl
@[simp] theorem State.logIndex_updDie (s : State) (k : Nat) (f : Die → Die) : (s.updDie k f).logIndex = s.logIndex := rfl
@[simp] theorem State.logCount_updDie (s : State) (k : Nat) (f : Die → Die) : (s.updDie k f).logCount = s.logCount := rfl
@[simp] theorem State.routes_updDie (s : State) (k : Nat) (f : Die → Die) : (s.updDie k f).routes = s.routes := rfl
@[simp] theorem State.routesLoaded_updDie (s : State) (k : Nat) (f : Die → Die) : (s.updDie k f).routesLoaded = s.routesLoaded := rfl
@[simp] theorem State.rowFixes_updDie (s : State) (k : Nat) (f : Die → Die) : (s.updDie k f).rowFixes = s.rowFixes := rfl
@[simp] theorem State.spares_updDie (s : State) (k : Nat) (f : Die → Die) : (s.updDie k f).spares = s.spares := rfl
@[simp] theorem State.remap_updDie (s : State) (k : Nat) (f : Die → Die) : (s.updDie k f).remap = s.remap := rfl
@[simp] theorem State.scrubbed_updDie (s : State) (k : Nat) (f : Die → Die) : (s.updDie k f).scrubbed = s.scrubbed := rfl
@[simp] theorem State.eventIdx_updDie (s : State) (k : Nat) (f : Die → Die) : (s.updDie k f).eventIdx = s.eventIdx := rfl
@[simp] theorem State.sigIndex_updDie (s : State) (k : Nat) (f : Die → Die) : (s.updDie k f).sigIndex = s.sigIndex := rfl
@[simp] theorem State.sessions_updDie (s : State) (k : Nat) (f : Die → Die) : (s.updDie k f).sessions = s.sessions := rfl
@[simp] theorem State.flash_updDie (s : State) (k : Nat) (f : Die → Die) : (s.updDie k f).flash = s.flash := rfl
@[simp] theorem State.image_updDie (s : State) (k : Nat) (f : Die → Die) : (s.updDie k f).image = s.image := rfl
@[simp] theorem State.bootFailed_updDie (s : State) (k : Nat) (f : Die → Die) : (s.updDie k f).bootFailed = s.bootFailed := rfl
@[simp] theorem State.commits_updDie (s : State) (k : Nat) (f : Die → Die) : (s.updDie k f).commits = s.commits := rfl
@[simp] theorem State.windowCycles_updDie (s : State) (k : Nat) (f : Die → Die) : (s.updDie k f).windowCycles = s.windowCycles := rfl
@[simp] theorem State.slots_updDie (s : State) (k : Nat) (f : Die → Die) : (s.updDie k f).slots = s.slots := rfl
@[simp] theorem State.kept_updDie (s : State) (k : Nat) (f : Die → Die) : (s.updDie k f).kept = s.kept := rfl
@[simp] theorem State.devid_updDie (s : State) (k : Nat) (f : Die → Die) : (s.updDie k f).devid = s.devid := rfl
@[simp] theorem State.bridge_updDie (s : State) (k : Nat) (f : Die → Die) : (s.updDie k f).bridge = s.bridge := rfl
@[simp] theorem State.pcieUp_updDie (s : State) (k : Nat) (f : Die → Die) : (s.updDie k f).pcieUp = s.pcieUp := rfl
@[simp] theorem State.clock_updDie (s : State) (k : Nat) (f : Die → Die) : (s.updDie k f).clock = s.clock := rfl
@[simp] theorem State.ir_updDie (s : State) (k : Nat) (f : Die → Die) : (s.updDie k f).ir = s.ir := rfl
@[simp] theorem State.nextId_updDie (s : State) (k : Nat) (f : Die → Die) : (s.updDie k f).nextId = s.nextId := rfl
@[simp] theorem State.fresh_updDie (s : State) (k : Nat) (f : Die → Die) : (s.updDie k f).fresh = s.fresh := rfl
@[simp] theorem State.agenda_updDie (s : State) (k : Nat) (f : Die → Die) : (s.updDie k f).agenda = s.agenda := rfl
@[simp] theorem State.pace_updDie (s : State) (k : Nat) (f : Die → Die) : (s.updDie k f).pace = s.pace := rfl
@[simp] theorem State.stepNo_updDie (s : State) (k : Nat) (f : Die → Die) : (s.updDie k f).stepNo = s.stepNo := rfl

@[simp] theorem State.cur_updPart (s : State) (k : Nat) (f : Part → Part) : (s.updPart k f).cur = s.cur := rfl
@[simp] theorem State.gangs_updPart (s : State) (k : Nat) (f : Part → Part) : (s.updPart k f).gangs = s.gangs := rfl
@[simp] theorem State.wgs_updPart (s : State) (k : Nat) (f : Part → Part) : (s.updPart k f).wgs = s.wgs := rfl
@[simp] theorem State.cores_updPart (s : State) (k : Nat) (f : Part → Part) : (s.updPart k f).cores = s.cores := rfl
@[simp] theorem State.clusters_updPart (s : State) (k : Nat) (f : Part → Part) : (s.updPart k f).clusters = s.clusters := rfl
@[simp] theorem State.dies_updPart (s : State) (k : Nat) (f : Part → Part) : (s.updPart k f).dies = s.dies := rfl
@[simp] theorem State.mem_updPart (s : State) (k : Nat) (f : Part → Part) : (s.updPart k f).mem = s.mem := rfl
@[simp] theorem State.badLines_updPart (s : State) (k : Nat) (f : Part → Part) : (s.updPart k f).badLines = s.badLines := rfl
@[simp] theorem State.migrating_updPart (s : State) (k : Nat) (f : Part → Part) : (s.updPart k f).migrating = s.migrating := rfl
@[simp] theorem State.ioTlb_updPart (s : State) (k : Nat) (f : Part → Part) : (s.updPart k f).ioTlb = s.ioTlb := rfl
@[simp] theorem State.window_updPart (s : State) (k : Nat) (f : Part → Part) : (s.updPart k f).window = s.window := rfl
@[simp] theorem State.sys_updPart (s : State) (k : Nat) (f : Part → Part) : (s.updPart k f).sys = s.sys := rfl
@[simp] theorem State.power_updPart (s : State) (k : Nat) (f : Part → Part) : (s.updPart k f).power = s.power := rfl
@[simp] theorem State.groups_updPart (s : State) (k : Nat) (f : Part → Part) : (s.updPart k f).groups = s.groups := rfl
@[simp] theorem State.handles_updPart (s : State) (k : Nat) (f : Part → Part) : (s.updPart k f).handles = s.handles := rfl
@[simp] theorem State.msgs_updPart (s : State) (k : Nat) (f : Part → Part) : (s.updPart k f).msgs = s.msgs := rfl
@[simp] theorem State.held_updPart (s : State) (k : Nat) (f : Part → Part) : (s.updPart k f).held = s.held := rfl
@[simp] theorem State.execs_updPart (s : State) (k : Nat) (f : Part → Part) : (s.updPart k f).execs = s.execs := rfl
@[simp] theorem State.alarms_updPart (s : State) (k : Nat) (f : Part → Part) : (s.updPart k f).alarms = s.alarms := rfl
@[simp] theorem State.cells_updPart (s : State) (k : Nat) (f : Part → Part) : (s.updPart k f).cells = s.cells := rfl
@[simp] theorem State.queues_updPart (s : State) (k : Nat) (f : Part → Part) : (s.updPart k f).queues = s.queues := rfl
@[simp] theorem State.frontWrites_updPart (s : State) (k : Nat) (f : Part → Part) : (s.updPart k f).frontWrites = s.frontWrites := rfl
@[simp] theorem State.launches_updPart (s : State) (k : Nat) (f : Part → Part) : (s.updPart k f).launches = s.launches := rfl
@[simp] theorem State.admission_updPart (s : State) (k : Nat) (f : Part → Part) : (s.updPart k f).admission = s.admission := rfl
@[simp] theorem State.saved_updPart (s : State) (k : Nat) (f : Part → Part) : (s.updPart k f).saved = s.saved := rfl
@[simp] theorem State.promo_updPart (s : State) (k : Nat) (f : Part → Part) : (s.updPart k f).promo = s.promo := rfl
@[simp] theorem State.watches_updPart (s : State) (k : Nat) (f : Part → Part) : (s.updPart k f).watches = s.watches := rfl
@[simp] theorem State.gt_updPart (s : State) (k : Nat) (f : Part → Part) : (s.updPart k f).gt = s.gt := rfl
@[simp] theorem State.sweep_updPart (s : State) (k : Nat) (f : Part → Part) : (s.updPart k f).sweep = s.sweep := rfl
@[simp] theorem State.teardowns_updPart (s : State) (k : Nat) (f : Part → Part) : (s.updPart k f).teardowns = s.teardowns := rfl
@[simp] theorem State.endings_updPart (s : State) (k : Nat) (f : Part → Part) : (s.updPart k f).endings = s.endings := rfl
@[simp] theorem State.invals_updPart (s : State) (k : Nat) (f : Part → Part) : (s.updPart k f).invals = s.invals := rfl
@[simp] theorem State.mirrors_updPart (s : State) (k : Nat) (f : Part → Part) : (s.updPart k f).mirrors = s.mirrors := rfl
@[simp] theorem State.fwcalls_updPart (s : State) (k : Nat) (f : Part → Part) : (s.updPart k f).fwcalls = s.fwcalls := rfl
@[simp] theorem State.links_updPart (s : State) (k : Nat) (f : Part → Part) : (s.updPart k f).links = s.links := rfl
@[simp] theorem State.inbound_updPart (s : State) (k : Nat) (f : Part → Part) : (s.updPart k f).inbound = s.inbound := rfl
@[simp] theorem State.hostReply_updPart (s : State) (k : Nat) (f : Part → Part) : (s.updPart k f).hostReply = s.hostReply := rfl
@[simp] theorem State.logIndex_updPart (s : State) (k : Nat) (f : Part → Part) : (s.updPart k f).logIndex = s.logIndex := rfl
@[simp] theorem State.logCount_updPart (s : State) (k : Nat) (f : Part → Part) : (s.updPart k f).logCount = s.logCount := rfl
@[simp] theorem State.routes_updPart (s : State) (k : Nat) (f : Part → Part) : (s.updPart k f).routes = s.routes := rfl
@[simp] theorem State.routesLoaded_updPart (s : State) (k : Nat) (f : Part → Part) : (s.updPart k f).routesLoaded = s.routesLoaded := rfl
@[simp] theorem State.rowFixes_updPart (s : State) (k : Nat) (f : Part → Part) : (s.updPart k f).rowFixes = s.rowFixes := rfl
@[simp] theorem State.spares_updPart (s : State) (k : Nat) (f : Part → Part) : (s.updPart k f).spares = s.spares := rfl
@[simp] theorem State.remap_updPart (s : State) (k : Nat) (f : Part → Part) : (s.updPart k f).remap = s.remap := rfl
@[simp] theorem State.scrubbed_updPart (s : State) (k : Nat) (f : Part → Part) : (s.updPart k f).scrubbed = s.scrubbed := rfl
@[simp] theorem State.eventIdx_updPart (s : State) (k : Nat) (f : Part → Part) : (s.updPart k f).eventIdx = s.eventIdx := rfl
@[simp] theorem State.sigIndex_updPart (s : State) (k : Nat) (f : Part → Part) : (s.updPart k f).sigIndex = s.sigIndex := rfl
@[simp] theorem State.sessions_updPart (s : State) (k : Nat) (f : Part → Part) : (s.updPart k f).sessions = s.sessions := rfl
@[simp] theorem State.flash_updPart (s : State) (k : Nat) (f : Part → Part) : (s.updPart k f).flash = s.flash := rfl
@[simp] theorem State.image_updPart (s : State) (k : Nat) (f : Part → Part) : (s.updPart k f).image = s.image := rfl
@[simp] theorem State.bootFailed_updPart (s : State) (k : Nat) (f : Part → Part) : (s.updPart k f).bootFailed = s.bootFailed := rfl
@[simp] theorem State.commits_updPart (s : State) (k : Nat) (f : Part → Part) : (s.updPart k f).commits = s.commits := rfl
@[simp] theorem State.windowCycles_updPart (s : State) (k : Nat) (f : Part → Part) : (s.updPart k f).windowCycles = s.windowCycles := rfl
@[simp] theorem State.slots_updPart (s : State) (k : Nat) (f : Part → Part) : (s.updPart k f).slots = s.slots := rfl
@[simp] theorem State.kept_updPart (s : State) (k : Nat) (f : Part → Part) : (s.updPart k f).kept = s.kept := rfl
@[simp] theorem State.devid_updPart (s : State) (k : Nat) (f : Part → Part) : (s.updPart k f).devid = s.devid := rfl
@[simp] theorem State.bridge_updPart (s : State) (k : Nat) (f : Part → Part) : (s.updPart k f).bridge = s.bridge := rfl
@[simp] theorem State.pcieUp_updPart (s : State) (k : Nat) (f : Part → Part) : (s.updPart k f).pcieUp = s.pcieUp := rfl
@[simp] theorem State.clock_updPart (s : State) (k : Nat) (f : Part → Part) : (s.updPart k f).clock = s.clock := rfl
@[simp] theorem State.ir_updPart (s : State) (k : Nat) (f : Part → Part) : (s.updPart k f).ir = s.ir := rfl
@[simp] theorem State.nextId_updPart (s : State) (k : Nat) (f : Part → Part) : (s.updPart k f).nextId = s.nextId := rfl
@[simp] theorem State.fresh_updPart (s : State) (k : Nat) (f : Part → Part) : (s.updPart k f).fresh = s.fresh := rfl
@[simp] theorem State.agenda_updPart (s : State) (k : Nat) (f : Part → Part) : (s.updPart k f).agenda = s.agenda := rfl
@[simp] theorem State.pace_updPart (s : State) (k : Nat) (f : Part → Part) : (s.updPart k f).pace = s.pace := rfl
@[simp] theorem State.stepNo_updPart (s : State) (k : Nat) (f : Part → Part) : (s.updPart k f).stepNo = s.stepNo := rfl

@[simp] theorem State.cur_setCell (s : State) (k : Nat) (c : TCell) : (s.setCell k c).cur = s.cur := rfl
@[simp] theorem State.gangs_setCell (s : State) (k : Nat) (c : TCell) : (s.setCell k c).gangs = s.gangs := rfl
@[simp] theorem State.wgs_setCell (s : State) (k : Nat) (c : TCell) : (s.setCell k c).wgs = s.wgs := rfl
@[simp] theorem State.cores_setCell (s : State) (k : Nat) (c : TCell) : (s.setCell k c).cores = s.cores := rfl
@[simp] theorem State.clusters_setCell (s : State) (k : Nat) (c : TCell) : (s.setCell k c).clusters = s.clusters := rfl
@[simp] theorem State.dies_setCell (s : State) (k : Nat) (c : TCell) : (s.setCell k c).dies = s.dies := rfl
@[simp] theorem State.parts_setCell (s : State) (k : Nat) (c : TCell) : (s.setCell k c).parts = s.parts := rfl
@[simp] theorem State.mem_setCell (s : State) (k : Nat) (c : TCell) : (s.setCell k c).mem = s.mem := rfl
@[simp] theorem State.badLines_setCell (s : State) (k : Nat) (c : TCell) : (s.setCell k c).badLines = s.badLines := rfl
@[simp] theorem State.migrating_setCell (s : State) (k : Nat) (c : TCell) : (s.setCell k c).migrating = s.migrating := rfl
@[simp] theorem State.ioTlb_setCell (s : State) (k : Nat) (c : TCell) : (s.setCell k c).ioTlb = s.ioTlb := rfl
@[simp] theorem State.window_setCell (s : State) (k : Nat) (c : TCell) : (s.setCell k c).window = s.window := rfl
@[simp] theorem State.sys_setCell (s : State) (k : Nat) (c : TCell) : (s.setCell k c).sys = s.sys := rfl
@[simp] theorem State.power_setCell (s : State) (k : Nat) (c : TCell) : (s.setCell k c).power = s.power := rfl
@[simp] theorem State.groups_setCell (s : State) (k : Nat) (c : TCell) : (s.setCell k c).groups = s.groups := rfl
@[simp] theorem State.handles_setCell (s : State) (k : Nat) (c : TCell) : (s.setCell k c).handles = s.handles := rfl
@[simp] theorem State.msgs_setCell (s : State) (k : Nat) (c : TCell) : (s.setCell k c).msgs = s.msgs := rfl
@[simp] theorem State.held_setCell (s : State) (k : Nat) (c : TCell) : (s.setCell k c).held = s.held := rfl
@[simp] theorem State.execs_setCell (s : State) (k : Nat) (c : TCell) : (s.setCell k c).execs = s.execs := rfl
@[simp] theorem State.alarms_setCell (s : State) (k : Nat) (c : TCell) : (s.setCell k c).alarms = s.alarms := rfl
@[simp] theorem State.queues_setCell (s : State) (k : Nat) (c : TCell) : (s.setCell k c).queues = s.queues := rfl
@[simp] theorem State.frontWrites_setCell (s : State) (k : Nat) (c : TCell) : (s.setCell k c).frontWrites = s.frontWrites := rfl
@[simp] theorem State.launches_setCell (s : State) (k : Nat) (c : TCell) : (s.setCell k c).launches = s.launches := rfl
@[simp] theorem State.admission_setCell (s : State) (k : Nat) (c : TCell) : (s.setCell k c).admission = s.admission := rfl
@[simp] theorem State.saved_setCell (s : State) (k : Nat) (c : TCell) : (s.setCell k c).saved = s.saved := rfl
@[simp] theorem State.promo_setCell (s : State) (k : Nat) (c : TCell) : (s.setCell k c).promo = s.promo := rfl
@[simp] theorem State.watches_setCell (s : State) (k : Nat) (c : TCell) : (s.setCell k c).watches = s.watches := rfl
@[simp] theorem State.gt_setCell (s : State) (k : Nat) (c : TCell) : (s.setCell k c).gt = s.gt := rfl
@[simp] theorem State.sweep_setCell (s : State) (k : Nat) (c : TCell) : (s.setCell k c).sweep = s.sweep := rfl
@[simp] theorem State.teardowns_setCell (s : State) (k : Nat) (c : TCell) : (s.setCell k c).teardowns = s.teardowns := rfl
@[simp] theorem State.endings_setCell (s : State) (k : Nat) (c : TCell) : (s.setCell k c).endings = s.endings := rfl
@[simp] theorem State.invals_setCell (s : State) (k : Nat) (c : TCell) : (s.setCell k c).invals = s.invals := rfl
@[simp] theorem State.mirrors_setCell (s : State) (k : Nat) (c : TCell) : (s.setCell k c).mirrors = s.mirrors := rfl
@[simp] theorem State.fwcalls_setCell (s : State) (k : Nat) (c : TCell) : (s.setCell k c).fwcalls = s.fwcalls := rfl
@[simp] theorem State.links_setCell (s : State) (k : Nat) (c : TCell) : (s.setCell k c).links = s.links := rfl
@[simp] theorem State.inbound_setCell (s : State) (k : Nat) (c : TCell) : (s.setCell k c).inbound = s.inbound := rfl
@[simp] theorem State.hostReply_setCell (s : State) (k : Nat) (c : TCell) : (s.setCell k c).hostReply = s.hostReply := rfl
@[simp] theorem State.logIndex_setCell (s : State) (k : Nat) (c : TCell) : (s.setCell k c).logIndex = s.logIndex := rfl
@[simp] theorem State.logCount_setCell (s : State) (k : Nat) (c : TCell) : (s.setCell k c).logCount = s.logCount := rfl
@[simp] theorem State.routes_setCell (s : State) (k : Nat) (c : TCell) : (s.setCell k c).routes = s.routes := rfl
@[simp] theorem State.routesLoaded_setCell (s : State) (k : Nat) (c : TCell) : (s.setCell k c).routesLoaded = s.routesLoaded := rfl
@[simp] theorem State.rowFixes_setCell (s : State) (k : Nat) (c : TCell) : (s.setCell k c).rowFixes = s.rowFixes := rfl
@[simp] theorem State.spares_setCell (s : State) (k : Nat) (c : TCell) : (s.setCell k c).spares = s.spares := rfl
@[simp] theorem State.remap_setCell (s : State) (k : Nat) (c : TCell) : (s.setCell k c).remap = s.remap := rfl
@[simp] theorem State.scrubbed_setCell (s : State) (k : Nat) (c : TCell) : (s.setCell k c).scrubbed = s.scrubbed := rfl
@[simp] theorem State.eventIdx_setCell (s : State) (k : Nat) (c : TCell) : (s.setCell k c).eventIdx = s.eventIdx := rfl
@[simp] theorem State.sigIndex_setCell (s : State) (k : Nat) (c : TCell) : (s.setCell k c).sigIndex = s.sigIndex := rfl
@[simp] theorem State.sessions_setCell (s : State) (k : Nat) (c : TCell) : (s.setCell k c).sessions = s.sessions := rfl
@[simp] theorem State.flash_setCell (s : State) (k : Nat) (c : TCell) : (s.setCell k c).flash = s.flash := rfl
@[simp] theorem State.image_setCell (s : State) (k : Nat) (c : TCell) : (s.setCell k c).image = s.image := rfl
@[simp] theorem State.bootFailed_setCell (s : State) (k : Nat) (c : TCell) : (s.setCell k c).bootFailed = s.bootFailed := rfl
@[simp] theorem State.commits_setCell (s : State) (k : Nat) (c : TCell) : (s.setCell k c).commits = s.commits := rfl
@[simp] theorem State.windowCycles_setCell (s : State) (k : Nat) (c : TCell) : (s.setCell k c).windowCycles = s.windowCycles := rfl
@[simp] theorem State.slots_setCell (s : State) (k : Nat) (c : TCell) : (s.setCell k c).slots = s.slots := rfl
@[simp] theorem State.kept_setCell (s : State) (k : Nat) (c : TCell) : (s.setCell k c).kept = s.kept := rfl
@[simp] theorem State.devid_setCell (s : State) (k : Nat) (c : TCell) : (s.setCell k c).devid = s.devid := rfl
@[simp] theorem State.bridge_setCell (s : State) (k : Nat) (c : TCell) : (s.setCell k c).bridge = s.bridge := rfl
@[simp] theorem State.pcieUp_setCell (s : State) (k : Nat) (c : TCell) : (s.setCell k c).pcieUp = s.pcieUp := rfl
@[simp] theorem State.clock_setCell (s : State) (k : Nat) (c : TCell) : (s.setCell k c).clock = s.clock := rfl
@[simp] theorem State.ir_setCell (s : State) (k : Nat) (c : TCell) : (s.setCell k c).ir = s.ir := rfl
@[simp] theorem State.nextId_setCell (s : State) (k : Nat) (c : TCell) : (s.setCell k c).nextId = s.nextId := rfl
@[simp] theorem State.fresh_setCell (s : State) (k : Nat) (c : TCell) : (s.setCell k c).fresh = s.fresh := rfl
@[simp] theorem State.agenda_setCell (s : State) (k : Nat) (c : TCell) : (s.setCell k c).agenda = s.agenda := rfl
@[simp] theorem State.pace_setCell (s : State) (k : Nat) (c : TCell) : (s.setCell k c).pace = s.pace := rfl
@[simp] theorem State.stepNo_setCell (s : State) (k : Nat) (c : TCell) : (s.setCell k c).stepNo = s.stepNo := rfl

@[simp] theorem State.cur_updQueue (s : State) (k : Nat) (f : Queue → Queue) : (s.updQueue k f).cur = s.cur := rfl
@[simp] theorem State.gangs_updQueue (s : State) (k : Nat) (f : Queue → Queue) : (s.updQueue k f).gangs = s.gangs := rfl
@[simp] theorem State.wgs_updQueue (s : State) (k : Nat) (f : Queue → Queue) : (s.updQueue k f).wgs = s.wgs := rfl
@[simp] theorem State.cores_updQueue (s : State) (k : Nat) (f : Queue → Queue) : (s.updQueue k f).cores = s.cores := rfl
@[simp] theorem State.clusters_updQueue (s : State) (k : Nat) (f : Queue → Queue) : (s.updQueue k f).clusters = s.clusters := rfl
@[simp] theorem State.dies_updQueue (s : State) (k : Nat) (f : Queue → Queue) : (s.updQueue k f).dies = s.dies := rfl
@[simp] theorem State.parts_updQueue (s : State) (k : Nat) (f : Queue → Queue) : (s.updQueue k f).parts = s.parts := rfl
@[simp] theorem State.mem_updQueue (s : State) (k : Nat) (f : Queue → Queue) : (s.updQueue k f).mem = s.mem := rfl
@[simp] theorem State.badLines_updQueue (s : State) (k : Nat) (f : Queue → Queue) : (s.updQueue k f).badLines = s.badLines := rfl
@[simp] theorem State.migrating_updQueue (s : State) (k : Nat) (f : Queue → Queue) : (s.updQueue k f).migrating = s.migrating := rfl
@[simp] theorem State.ioTlb_updQueue (s : State) (k : Nat) (f : Queue → Queue) : (s.updQueue k f).ioTlb = s.ioTlb := rfl
@[simp] theorem State.window_updQueue (s : State) (k : Nat) (f : Queue → Queue) : (s.updQueue k f).window = s.window := rfl
@[simp] theorem State.sys_updQueue (s : State) (k : Nat) (f : Queue → Queue) : (s.updQueue k f).sys = s.sys := rfl
@[simp] theorem State.power_updQueue (s : State) (k : Nat) (f : Queue → Queue) : (s.updQueue k f).power = s.power := rfl
@[simp] theorem State.groups_updQueue (s : State) (k : Nat) (f : Queue → Queue) : (s.updQueue k f).groups = s.groups := rfl
@[simp] theorem State.handles_updQueue (s : State) (k : Nat) (f : Queue → Queue) : (s.updQueue k f).handles = s.handles := rfl
@[simp] theorem State.msgs_updQueue (s : State) (k : Nat) (f : Queue → Queue) : (s.updQueue k f).msgs = s.msgs := rfl
@[simp] theorem State.held_updQueue (s : State) (k : Nat) (f : Queue → Queue) : (s.updQueue k f).held = s.held := rfl
@[simp] theorem State.execs_updQueue (s : State) (k : Nat) (f : Queue → Queue) : (s.updQueue k f).execs = s.execs := rfl
@[simp] theorem State.alarms_updQueue (s : State) (k : Nat) (f : Queue → Queue) : (s.updQueue k f).alarms = s.alarms := rfl
@[simp] theorem State.cells_updQueue (s : State) (k : Nat) (f : Queue → Queue) : (s.updQueue k f).cells = s.cells := rfl
@[simp] theorem State.frontWrites_updQueue (s : State) (k : Nat) (f : Queue → Queue) : (s.updQueue k f).frontWrites = s.frontWrites := rfl
@[simp] theorem State.launches_updQueue (s : State) (k : Nat) (f : Queue → Queue) : (s.updQueue k f).launches = s.launches := rfl
@[simp] theorem State.admission_updQueue (s : State) (k : Nat) (f : Queue → Queue) : (s.updQueue k f).admission = s.admission := rfl
@[simp] theorem State.saved_updQueue (s : State) (k : Nat) (f : Queue → Queue) : (s.updQueue k f).saved = s.saved := rfl
@[simp] theorem State.promo_updQueue (s : State) (k : Nat) (f : Queue → Queue) : (s.updQueue k f).promo = s.promo := rfl
@[simp] theorem State.watches_updQueue (s : State) (k : Nat) (f : Queue → Queue) : (s.updQueue k f).watches = s.watches := rfl
@[simp] theorem State.gt_updQueue (s : State) (k : Nat) (f : Queue → Queue) : (s.updQueue k f).gt = s.gt := rfl
@[simp] theorem State.sweep_updQueue (s : State) (k : Nat) (f : Queue → Queue) : (s.updQueue k f).sweep = s.sweep := rfl
@[simp] theorem State.teardowns_updQueue (s : State) (k : Nat) (f : Queue → Queue) : (s.updQueue k f).teardowns = s.teardowns := rfl
@[simp] theorem State.endings_updQueue (s : State) (k : Nat) (f : Queue → Queue) : (s.updQueue k f).endings = s.endings := rfl
@[simp] theorem State.invals_updQueue (s : State) (k : Nat) (f : Queue → Queue) : (s.updQueue k f).invals = s.invals := rfl
@[simp] theorem State.mirrors_updQueue (s : State) (k : Nat) (f : Queue → Queue) : (s.updQueue k f).mirrors = s.mirrors := rfl
@[simp] theorem State.fwcalls_updQueue (s : State) (k : Nat) (f : Queue → Queue) : (s.updQueue k f).fwcalls = s.fwcalls := rfl
@[simp] theorem State.links_updQueue (s : State) (k : Nat) (f : Queue → Queue) : (s.updQueue k f).links = s.links := rfl
@[simp] theorem State.inbound_updQueue (s : State) (k : Nat) (f : Queue → Queue) : (s.updQueue k f).inbound = s.inbound := rfl
@[simp] theorem State.hostReply_updQueue (s : State) (k : Nat) (f : Queue → Queue) : (s.updQueue k f).hostReply = s.hostReply := rfl
@[simp] theorem State.logIndex_updQueue (s : State) (k : Nat) (f : Queue → Queue) : (s.updQueue k f).logIndex = s.logIndex := rfl
@[simp] theorem State.logCount_updQueue (s : State) (k : Nat) (f : Queue → Queue) : (s.updQueue k f).logCount = s.logCount := rfl
@[simp] theorem State.routes_updQueue (s : State) (k : Nat) (f : Queue → Queue) : (s.updQueue k f).routes = s.routes := rfl
@[simp] theorem State.routesLoaded_updQueue (s : State) (k : Nat) (f : Queue → Queue) : (s.updQueue k f).routesLoaded = s.routesLoaded := rfl
@[simp] theorem State.rowFixes_updQueue (s : State) (k : Nat) (f : Queue → Queue) : (s.updQueue k f).rowFixes = s.rowFixes := rfl
@[simp] theorem State.spares_updQueue (s : State) (k : Nat) (f : Queue → Queue) : (s.updQueue k f).spares = s.spares := rfl
@[simp] theorem State.remap_updQueue (s : State) (k : Nat) (f : Queue → Queue) : (s.updQueue k f).remap = s.remap := rfl
@[simp] theorem State.scrubbed_updQueue (s : State) (k : Nat) (f : Queue → Queue) : (s.updQueue k f).scrubbed = s.scrubbed := rfl
@[simp] theorem State.eventIdx_updQueue (s : State) (k : Nat) (f : Queue → Queue) : (s.updQueue k f).eventIdx = s.eventIdx := rfl
@[simp] theorem State.sigIndex_updQueue (s : State) (k : Nat) (f : Queue → Queue) : (s.updQueue k f).sigIndex = s.sigIndex := rfl
@[simp] theorem State.sessions_updQueue (s : State) (k : Nat) (f : Queue → Queue) : (s.updQueue k f).sessions = s.sessions := rfl
@[simp] theorem State.flash_updQueue (s : State) (k : Nat) (f : Queue → Queue) : (s.updQueue k f).flash = s.flash := rfl
@[simp] theorem State.image_updQueue (s : State) (k : Nat) (f : Queue → Queue) : (s.updQueue k f).image = s.image := rfl
@[simp] theorem State.bootFailed_updQueue (s : State) (k : Nat) (f : Queue → Queue) : (s.updQueue k f).bootFailed = s.bootFailed := rfl
@[simp] theorem State.commits_updQueue (s : State) (k : Nat) (f : Queue → Queue) : (s.updQueue k f).commits = s.commits := rfl
@[simp] theorem State.windowCycles_updQueue (s : State) (k : Nat) (f : Queue → Queue) : (s.updQueue k f).windowCycles = s.windowCycles := rfl
@[simp] theorem State.slots_updQueue (s : State) (k : Nat) (f : Queue → Queue) : (s.updQueue k f).slots = s.slots := rfl
@[simp] theorem State.kept_updQueue (s : State) (k : Nat) (f : Queue → Queue) : (s.updQueue k f).kept = s.kept := rfl
@[simp] theorem State.devid_updQueue (s : State) (k : Nat) (f : Queue → Queue) : (s.updQueue k f).devid = s.devid := rfl
@[simp] theorem State.bridge_updQueue (s : State) (k : Nat) (f : Queue → Queue) : (s.updQueue k f).bridge = s.bridge := rfl
@[simp] theorem State.pcieUp_updQueue (s : State) (k : Nat) (f : Queue → Queue) : (s.updQueue k f).pcieUp = s.pcieUp := rfl
@[simp] theorem State.clock_updQueue (s : State) (k : Nat) (f : Queue → Queue) : (s.updQueue k f).clock = s.clock := rfl
@[simp] theorem State.ir_updQueue (s : State) (k : Nat) (f : Queue → Queue) : (s.updQueue k f).ir = s.ir := rfl
@[simp] theorem State.nextId_updQueue (s : State) (k : Nat) (f : Queue → Queue) : (s.updQueue k f).nextId = s.nextId := rfl
@[simp] theorem State.fresh_updQueue (s : State) (k : Nat) (f : Queue → Queue) : (s.updQueue k f).fresh = s.fresh := rfl
@[simp] theorem State.agenda_updQueue (s : State) (k : Nat) (f : Queue → Queue) : (s.updQueue k f).agenda = s.agenda := rfl
@[simp] theorem State.pace_updQueue (s : State) (k : Nat) (f : Queue → Queue) : (s.updQueue k f).pace = s.pace := rfl
@[simp] theorem State.stepNo_updQueue (s : State) (k : Nat) (f : Queue → Queue) : (s.updQueue k f).stepNo = s.stepNo := rfl

@[simp] theorem State.cur_updSlot (s : State) (k : Nat) (f : HSlot → HSlot) : (s.updSlot k f).cur = s.cur := rfl
@[simp] theorem State.gangs_updSlot (s : State) (k : Nat) (f : HSlot → HSlot) : (s.updSlot k f).gangs = s.gangs := rfl
@[simp] theorem State.wgs_updSlot (s : State) (k : Nat) (f : HSlot → HSlot) : (s.updSlot k f).wgs = s.wgs := rfl
@[simp] theorem State.cores_updSlot (s : State) (k : Nat) (f : HSlot → HSlot) : (s.updSlot k f).cores = s.cores := rfl
@[simp] theorem State.clusters_updSlot (s : State) (k : Nat) (f : HSlot → HSlot) : (s.updSlot k f).clusters = s.clusters := rfl
@[simp] theorem State.dies_updSlot (s : State) (k : Nat) (f : HSlot → HSlot) : (s.updSlot k f).dies = s.dies := rfl
@[simp] theorem State.parts_updSlot (s : State) (k : Nat) (f : HSlot → HSlot) : (s.updSlot k f).parts = s.parts := rfl
@[simp] theorem State.mem_updSlot (s : State) (k : Nat) (f : HSlot → HSlot) : (s.updSlot k f).mem = s.mem := rfl
@[simp] theorem State.badLines_updSlot (s : State) (k : Nat) (f : HSlot → HSlot) : (s.updSlot k f).badLines = s.badLines := rfl
@[simp] theorem State.migrating_updSlot (s : State) (k : Nat) (f : HSlot → HSlot) : (s.updSlot k f).migrating = s.migrating := rfl
@[simp] theorem State.ioTlb_updSlot (s : State) (k : Nat) (f : HSlot → HSlot) : (s.updSlot k f).ioTlb = s.ioTlb := rfl
@[simp] theorem State.window_updSlot (s : State) (k : Nat) (f : HSlot → HSlot) : (s.updSlot k f).window = s.window := rfl
@[simp] theorem State.sys_updSlot (s : State) (k : Nat) (f : HSlot → HSlot) : (s.updSlot k f).sys = s.sys := rfl
@[simp] theorem State.power_updSlot (s : State) (k : Nat) (f : HSlot → HSlot) : (s.updSlot k f).power = s.power := rfl
@[simp] theorem State.groups_updSlot (s : State) (k : Nat) (f : HSlot → HSlot) : (s.updSlot k f).groups = s.groups := rfl
@[simp] theorem State.msgs_updSlot (s : State) (k : Nat) (f : HSlot → HSlot) : (s.updSlot k f).msgs = s.msgs := rfl
@[simp] theorem State.held_updSlot (s : State) (k : Nat) (f : HSlot → HSlot) : (s.updSlot k f).held = s.held := rfl
@[simp] theorem State.execs_updSlot (s : State) (k : Nat) (f : HSlot → HSlot) : (s.updSlot k f).execs = s.execs := rfl
@[simp] theorem State.alarms_updSlot (s : State) (k : Nat) (f : HSlot → HSlot) : (s.updSlot k f).alarms = s.alarms := rfl
@[simp] theorem State.cells_updSlot (s : State) (k : Nat) (f : HSlot → HSlot) : (s.updSlot k f).cells = s.cells := rfl
@[simp] theorem State.queues_updSlot (s : State) (k : Nat) (f : HSlot → HSlot) : (s.updSlot k f).queues = s.queues := rfl
@[simp] theorem State.frontWrites_updSlot (s : State) (k : Nat) (f : HSlot → HSlot) : (s.updSlot k f).frontWrites = s.frontWrites := rfl
@[simp] theorem State.launches_updSlot (s : State) (k : Nat) (f : HSlot → HSlot) : (s.updSlot k f).launches = s.launches := rfl
@[simp] theorem State.admission_updSlot (s : State) (k : Nat) (f : HSlot → HSlot) : (s.updSlot k f).admission = s.admission := rfl
@[simp] theorem State.saved_updSlot (s : State) (k : Nat) (f : HSlot → HSlot) : (s.updSlot k f).saved = s.saved := rfl
@[simp] theorem State.promo_updSlot (s : State) (k : Nat) (f : HSlot → HSlot) : (s.updSlot k f).promo = s.promo := rfl
@[simp] theorem State.watches_updSlot (s : State) (k : Nat) (f : HSlot → HSlot) : (s.updSlot k f).watches = s.watches := rfl
@[simp] theorem State.gt_updSlot (s : State) (k : Nat) (f : HSlot → HSlot) : (s.updSlot k f).gt = s.gt := rfl
@[simp] theorem State.sweep_updSlot (s : State) (k : Nat) (f : HSlot → HSlot) : (s.updSlot k f).sweep = s.sweep := rfl
@[simp] theorem State.teardowns_updSlot (s : State) (k : Nat) (f : HSlot → HSlot) : (s.updSlot k f).teardowns = s.teardowns := rfl
@[simp] theorem State.endings_updSlot (s : State) (k : Nat) (f : HSlot → HSlot) : (s.updSlot k f).endings = s.endings := rfl
@[simp] theorem State.invals_updSlot (s : State) (k : Nat) (f : HSlot → HSlot) : (s.updSlot k f).invals = s.invals := rfl
@[simp] theorem State.mirrors_updSlot (s : State) (k : Nat) (f : HSlot → HSlot) : (s.updSlot k f).mirrors = s.mirrors := rfl
@[simp] theorem State.fwcalls_updSlot (s : State) (k : Nat) (f : HSlot → HSlot) : (s.updSlot k f).fwcalls = s.fwcalls := rfl
@[simp] theorem State.links_updSlot (s : State) (k : Nat) (f : HSlot → HSlot) : (s.updSlot k f).links = s.links := rfl
@[simp] theorem State.inbound_updSlot (s : State) (k : Nat) (f : HSlot → HSlot) : (s.updSlot k f).inbound = s.inbound := rfl
@[simp] theorem State.hostReply_updSlot (s : State) (k : Nat) (f : HSlot → HSlot) : (s.updSlot k f).hostReply = s.hostReply := rfl
@[simp] theorem State.logIndex_updSlot (s : State) (k : Nat) (f : HSlot → HSlot) : (s.updSlot k f).logIndex = s.logIndex := rfl
@[simp] theorem State.logCount_updSlot (s : State) (k : Nat) (f : HSlot → HSlot) : (s.updSlot k f).logCount = s.logCount := rfl
@[simp] theorem State.routes_updSlot (s : State) (k : Nat) (f : HSlot → HSlot) : (s.updSlot k f).routes = s.routes := rfl
@[simp] theorem State.routesLoaded_updSlot (s : State) (k : Nat) (f : HSlot → HSlot) : (s.updSlot k f).routesLoaded = s.routesLoaded := rfl
@[simp] theorem State.rowFixes_updSlot (s : State) (k : Nat) (f : HSlot → HSlot) : (s.updSlot k f).rowFixes = s.rowFixes := rfl
@[simp] theorem State.spares_updSlot (s : State) (k : Nat) (f : HSlot → HSlot) : (s.updSlot k f).spares = s.spares := rfl
@[simp] theorem State.remap_updSlot (s : State) (k : Nat) (f : HSlot → HSlot) : (s.updSlot k f).remap = s.remap := rfl
@[simp] theorem State.scrubbed_updSlot (s : State) (k : Nat) (f : HSlot → HSlot) : (s.updSlot k f).scrubbed = s.scrubbed := rfl
@[simp] theorem State.eventIdx_updSlot (s : State) (k : Nat) (f : HSlot → HSlot) : (s.updSlot k f).eventIdx = s.eventIdx := rfl
@[simp] theorem State.sigIndex_updSlot (s : State) (k : Nat) (f : HSlot → HSlot) : (s.updSlot k f).sigIndex = s.sigIndex := rfl
@[simp] theorem State.sessions_updSlot (s : State) (k : Nat) (f : HSlot → HSlot) : (s.updSlot k f).sessions = s.sessions := rfl
@[simp] theorem State.flash_updSlot (s : State) (k : Nat) (f : HSlot → HSlot) : (s.updSlot k f).flash = s.flash := rfl
@[simp] theorem State.image_updSlot (s : State) (k : Nat) (f : HSlot → HSlot) : (s.updSlot k f).image = s.image := rfl
@[simp] theorem State.bootFailed_updSlot (s : State) (k : Nat) (f : HSlot → HSlot) : (s.updSlot k f).bootFailed = s.bootFailed := rfl
@[simp] theorem State.commits_updSlot (s : State) (k : Nat) (f : HSlot → HSlot) : (s.updSlot k f).commits = s.commits := rfl
@[simp] theorem State.windowCycles_updSlot (s : State) (k : Nat) (f : HSlot → HSlot) : (s.updSlot k f).windowCycles = s.windowCycles := rfl
@[simp] theorem State.slots_updSlot (s : State) (k : Nat) (f : HSlot → HSlot) : (s.updSlot k f).slots = s.slots := rfl
@[simp] theorem State.kept_updSlot (s : State) (k : Nat) (f : HSlot → HSlot) : (s.updSlot k f).kept = s.kept := rfl
@[simp] theorem State.devid_updSlot (s : State) (k : Nat) (f : HSlot → HSlot) : (s.updSlot k f).devid = s.devid := rfl
@[simp] theorem State.bridge_updSlot (s : State) (k : Nat) (f : HSlot → HSlot) : (s.updSlot k f).bridge = s.bridge := rfl
@[simp] theorem State.pcieUp_updSlot (s : State) (k : Nat) (f : HSlot → HSlot) : (s.updSlot k f).pcieUp = s.pcieUp := rfl
@[simp] theorem State.clock_updSlot (s : State) (k : Nat) (f : HSlot → HSlot) : (s.updSlot k f).clock = s.clock := rfl
@[simp] theorem State.ir_updSlot (s : State) (k : Nat) (f : HSlot → HSlot) : (s.updSlot k f).ir = s.ir := rfl
@[simp] theorem State.nextId_updSlot (s : State) (k : Nat) (f : HSlot → HSlot) : (s.updSlot k f).nextId = s.nextId := rfl
@[simp] theorem State.fresh_updSlot (s : State) (k : Nat) (f : HSlot → HSlot) : (s.updSlot k f).fresh = s.fresh := rfl
@[simp] theorem State.agenda_updSlot (s : State) (k : Nat) (f : HSlot → HSlot) : (s.updSlot k f).agenda = s.agenda := rfl
@[simp] theorem State.pace_updSlot (s : State) (k : Nat) (f : HSlot → HSlot) : (s.updSlot k f).pace = s.pace := rfl
@[simp] theorem State.stepNo_updSlot (s : State) (k : Nat) (f : HSlot → HSlot) : (s.updSlot k f).stepNo = s.stepNo := rfl

@[simp] theorem State.cur_updLink (s : State) (k : Nat) (f : Link → Link) : (s.updLink k f).cur = s.cur := rfl
@[simp] theorem State.gangs_updLink (s : State) (k : Nat) (f : Link → Link) : (s.updLink k f).gangs = s.gangs := rfl
@[simp] theorem State.wgs_updLink (s : State) (k : Nat) (f : Link → Link) : (s.updLink k f).wgs = s.wgs := rfl
@[simp] theorem State.cores_updLink (s : State) (k : Nat) (f : Link → Link) : (s.updLink k f).cores = s.cores := rfl
@[simp] theorem State.clusters_updLink (s : State) (k : Nat) (f : Link → Link) : (s.updLink k f).clusters = s.clusters := rfl
@[simp] theorem State.dies_updLink (s : State) (k : Nat) (f : Link → Link) : (s.updLink k f).dies = s.dies := rfl
@[simp] theorem State.parts_updLink (s : State) (k : Nat) (f : Link → Link) : (s.updLink k f).parts = s.parts := rfl
@[simp] theorem State.mem_updLink (s : State) (k : Nat) (f : Link → Link) : (s.updLink k f).mem = s.mem := rfl
@[simp] theorem State.badLines_updLink (s : State) (k : Nat) (f : Link → Link) : (s.updLink k f).badLines = s.badLines := rfl
@[simp] theorem State.migrating_updLink (s : State) (k : Nat) (f : Link → Link) : (s.updLink k f).migrating = s.migrating := rfl
@[simp] theorem State.ioTlb_updLink (s : State) (k : Nat) (f : Link → Link) : (s.updLink k f).ioTlb = s.ioTlb := rfl
@[simp] theorem State.window_updLink (s : State) (k : Nat) (f : Link → Link) : (s.updLink k f).window = s.window := rfl
@[simp] theorem State.sys_updLink (s : State) (k : Nat) (f : Link → Link) : (s.updLink k f).sys = s.sys := rfl
@[simp] theorem State.power_updLink (s : State) (k : Nat) (f : Link → Link) : (s.updLink k f).power = s.power := rfl
@[simp] theorem State.groups_updLink (s : State) (k : Nat) (f : Link → Link) : (s.updLink k f).groups = s.groups := rfl
@[simp] theorem State.handles_updLink (s : State) (k : Nat) (f : Link → Link) : (s.updLink k f).handles = s.handles := rfl
@[simp] theorem State.msgs_updLink (s : State) (k : Nat) (f : Link → Link) : (s.updLink k f).msgs = s.msgs := rfl
@[simp] theorem State.held_updLink (s : State) (k : Nat) (f : Link → Link) : (s.updLink k f).held = s.held := rfl
@[simp] theorem State.execs_updLink (s : State) (k : Nat) (f : Link → Link) : (s.updLink k f).execs = s.execs := rfl
@[simp] theorem State.alarms_updLink (s : State) (k : Nat) (f : Link → Link) : (s.updLink k f).alarms = s.alarms := rfl
@[simp] theorem State.cells_updLink (s : State) (k : Nat) (f : Link → Link) : (s.updLink k f).cells = s.cells := rfl
@[simp] theorem State.queues_updLink (s : State) (k : Nat) (f : Link → Link) : (s.updLink k f).queues = s.queues := rfl
@[simp] theorem State.frontWrites_updLink (s : State) (k : Nat) (f : Link → Link) : (s.updLink k f).frontWrites = s.frontWrites := rfl
@[simp] theorem State.launches_updLink (s : State) (k : Nat) (f : Link → Link) : (s.updLink k f).launches = s.launches := rfl
@[simp] theorem State.admission_updLink (s : State) (k : Nat) (f : Link → Link) : (s.updLink k f).admission = s.admission := rfl
@[simp] theorem State.saved_updLink (s : State) (k : Nat) (f : Link → Link) : (s.updLink k f).saved = s.saved := rfl
@[simp] theorem State.promo_updLink (s : State) (k : Nat) (f : Link → Link) : (s.updLink k f).promo = s.promo := rfl
@[simp] theorem State.watches_updLink (s : State) (k : Nat) (f : Link → Link) : (s.updLink k f).watches = s.watches := rfl
@[simp] theorem State.gt_updLink (s : State) (k : Nat) (f : Link → Link) : (s.updLink k f).gt = s.gt := rfl
@[simp] theorem State.sweep_updLink (s : State) (k : Nat) (f : Link → Link) : (s.updLink k f).sweep = s.sweep := rfl
@[simp] theorem State.teardowns_updLink (s : State) (k : Nat) (f : Link → Link) : (s.updLink k f).teardowns = s.teardowns := rfl
@[simp] theorem State.endings_updLink (s : State) (k : Nat) (f : Link → Link) : (s.updLink k f).endings = s.endings := rfl
@[simp] theorem State.invals_updLink (s : State) (k : Nat) (f : Link → Link) : (s.updLink k f).invals = s.invals := rfl
@[simp] theorem State.mirrors_updLink (s : State) (k : Nat) (f : Link → Link) : (s.updLink k f).mirrors = s.mirrors := rfl
@[simp] theorem State.fwcalls_updLink (s : State) (k : Nat) (f : Link → Link) : (s.updLink k f).fwcalls = s.fwcalls := rfl
@[simp] theorem State.inbound_updLink (s : State) (k : Nat) (f : Link → Link) : (s.updLink k f).inbound = s.inbound := rfl
@[simp] theorem State.hostReply_updLink (s : State) (k : Nat) (f : Link → Link) : (s.updLink k f).hostReply = s.hostReply := rfl
@[simp] theorem State.logIndex_updLink (s : State) (k : Nat) (f : Link → Link) : (s.updLink k f).logIndex = s.logIndex := rfl
@[simp] theorem State.logCount_updLink (s : State) (k : Nat) (f : Link → Link) : (s.updLink k f).logCount = s.logCount := rfl
@[simp] theorem State.routes_updLink (s : State) (k : Nat) (f : Link → Link) : (s.updLink k f).routes = s.routes := rfl
@[simp] theorem State.routesLoaded_updLink (s : State) (k : Nat) (f : Link → Link) : (s.updLink k f).routesLoaded = s.routesLoaded := rfl
@[simp] theorem State.rowFixes_updLink (s : State) (k : Nat) (f : Link → Link) : (s.updLink k f).rowFixes = s.rowFixes := rfl
@[simp] theorem State.spares_updLink (s : State) (k : Nat) (f : Link → Link) : (s.updLink k f).spares = s.spares := rfl
@[simp] theorem State.remap_updLink (s : State) (k : Nat) (f : Link → Link) : (s.updLink k f).remap = s.remap := rfl
@[simp] theorem State.scrubbed_updLink (s : State) (k : Nat) (f : Link → Link) : (s.updLink k f).scrubbed = s.scrubbed := rfl
@[simp] theorem State.eventIdx_updLink (s : State) (k : Nat) (f : Link → Link) : (s.updLink k f).eventIdx = s.eventIdx := rfl
@[simp] theorem State.sigIndex_updLink (s : State) (k : Nat) (f : Link → Link) : (s.updLink k f).sigIndex = s.sigIndex := rfl
@[simp] theorem State.sessions_updLink (s : State) (k : Nat) (f : Link → Link) : (s.updLink k f).sessions = s.sessions := rfl
@[simp] theorem State.flash_updLink (s : State) (k : Nat) (f : Link → Link) : (s.updLink k f).flash = s.flash := rfl
@[simp] theorem State.image_updLink (s : State) (k : Nat) (f : Link → Link) : (s.updLink k f).image = s.image := rfl
@[simp] theorem State.bootFailed_updLink (s : State) (k : Nat) (f : Link → Link) : (s.updLink k f).bootFailed = s.bootFailed := rfl
@[simp] theorem State.commits_updLink (s : State) (k : Nat) (f : Link → Link) : (s.updLink k f).commits = s.commits := rfl
@[simp] theorem State.windowCycles_updLink (s : State) (k : Nat) (f : Link → Link) : (s.updLink k f).windowCycles = s.windowCycles := rfl
@[simp] theorem State.slots_updLink (s : State) (k : Nat) (f : Link → Link) : (s.updLink k f).slots = s.slots := rfl
@[simp] theorem State.kept_updLink (s : State) (k : Nat) (f : Link → Link) : (s.updLink k f).kept = s.kept := rfl
@[simp] theorem State.devid_updLink (s : State) (k : Nat) (f : Link → Link) : (s.updLink k f).devid = s.devid := rfl
@[simp] theorem State.bridge_updLink (s : State) (k : Nat) (f : Link → Link) : (s.updLink k f).bridge = s.bridge := rfl
@[simp] theorem State.pcieUp_updLink (s : State) (k : Nat) (f : Link → Link) : (s.updLink k f).pcieUp = s.pcieUp := rfl
@[simp] theorem State.clock_updLink (s : State) (k : Nat) (f : Link → Link) : (s.updLink k f).clock = s.clock := rfl
@[simp] theorem State.ir_updLink (s : State) (k : Nat) (f : Link → Link) : (s.updLink k f).ir = s.ir := rfl
@[simp] theorem State.nextId_updLink (s : State) (k : Nat) (f : Link → Link) : (s.updLink k f).nextId = s.nextId := rfl
@[simp] theorem State.fresh_updLink (s : State) (k : Nat) (f : Link → Link) : (s.updLink k f).fresh = s.fresh := rfl
@[simp] theorem State.agenda_updLink (s : State) (k : Nat) (f : Link → Link) : (s.updLink k f).agenda = s.agenda := rfl
@[simp] theorem State.pace_updLink (s : State) (k : Nat) (f : Link → Link) : (s.updLink k f).pace = s.pace := rfl
@[simp] theorem State.stepNo_updLink (s : State) (k : Nat) (f : Link → Link) : (s.updLink k f).stepNo = s.stepNo := rfl

@[simp] theorem State.cur_stall (s : State) (b : Block) : (s.stall b).cur = s.cur := rfl
@[simp] theorem State.wgs_stall (s : State) (b : Block) : (s.stall b).wgs = s.wgs := rfl
@[simp] theorem State.cores_stall (s : State) (b : Block) : (s.stall b).cores = s.cores := rfl
@[simp] theorem State.clusters_stall (s : State) (b : Block) : (s.stall b).clusters = s.clusters := rfl
@[simp] theorem State.dies_stall (s : State) (b : Block) : (s.stall b).dies = s.dies := rfl
@[simp] theorem State.parts_stall (s : State) (b : Block) : (s.stall b).parts = s.parts := rfl
@[simp] theorem State.mem_stall (s : State) (b : Block) : (s.stall b).mem = s.mem := rfl
@[simp] theorem State.badLines_stall (s : State) (b : Block) : (s.stall b).badLines = s.badLines := rfl
@[simp] theorem State.migrating_stall (s : State) (b : Block) : (s.stall b).migrating = s.migrating := rfl
@[simp] theorem State.ioTlb_stall (s : State) (b : Block) : (s.stall b).ioTlb = s.ioTlb := rfl
@[simp] theorem State.window_stall (s : State) (b : Block) : (s.stall b).window = s.window := rfl
@[simp] theorem State.sys_stall (s : State) (b : Block) : (s.stall b).sys = s.sys := rfl
@[simp] theorem State.power_stall (s : State) (b : Block) : (s.stall b).power = s.power := rfl
@[simp] theorem State.groups_stall (s : State) (b : Block) : (s.stall b).groups = s.groups := rfl
@[simp] theorem State.handles_stall (s : State) (b : Block) : (s.stall b).handles = s.handles := rfl
@[simp] theorem State.msgs_stall (s : State) (b : Block) : (s.stall b).msgs = s.msgs := rfl
@[simp] theorem State.held_stall (s : State) (b : Block) : (s.stall b).held = s.held := rfl
@[simp] theorem State.execs_stall (s : State) (b : Block) : (s.stall b).execs = s.execs := rfl
@[simp] theorem State.alarms_stall (s : State) (b : Block) : (s.stall b).alarms = s.alarms := rfl
@[simp] theorem State.cells_stall (s : State) (b : Block) : (s.stall b).cells = s.cells := rfl
@[simp] theorem State.queues_stall (s : State) (b : Block) : (s.stall b).queues = s.queues := rfl
@[simp] theorem State.frontWrites_stall (s : State) (b : Block) : (s.stall b).frontWrites = s.frontWrites := rfl
@[simp] theorem State.launches_stall (s : State) (b : Block) : (s.stall b).launches = s.launches := rfl
@[simp] theorem State.admission_stall (s : State) (b : Block) : (s.stall b).admission = s.admission := rfl
@[simp] theorem State.saved_stall (s : State) (b : Block) : (s.stall b).saved = s.saved := rfl
@[simp] theorem State.promo_stall (s : State) (b : Block) : (s.stall b).promo = s.promo := rfl
@[simp] theorem State.watches_stall (s : State) (b : Block) : (s.stall b).watches = s.watches := rfl
@[simp] theorem State.gt_stall (s : State) (b : Block) : (s.stall b).gt = s.gt := rfl
@[simp] theorem State.sweep_stall (s : State) (b : Block) : (s.stall b).sweep = s.sweep := rfl
@[simp] theorem State.teardowns_stall (s : State) (b : Block) : (s.stall b).teardowns = s.teardowns := rfl
@[simp] theorem State.endings_stall (s : State) (b : Block) : (s.stall b).endings = s.endings := rfl
@[simp] theorem State.invals_stall (s : State) (b : Block) : (s.stall b).invals = s.invals := rfl
@[simp] theorem State.mirrors_stall (s : State) (b : Block) : (s.stall b).mirrors = s.mirrors := rfl
@[simp] theorem State.fwcalls_stall (s : State) (b : Block) : (s.stall b).fwcalls = s.fwcalls := rfl
@[simp] theorem State.links_stall (s : State) (b : Block) : (s.stall b).links = s.links := rfl
@[simp] theorem State.inbound_stall (s : State) (b : Block) : (s.stall b).inbound = s.inbound := rfl
@[simp] theorem State.hostReply_stall (s : State) (b : Block) : (s.stall b).hostReply = s.hostReply := rfl
@[simp] theorem State.logIndex_stall (s : State) (b : Block) : (s.stall b).logIndex = s.logIndex := rfl
@[simp] theorem State.logCount_stall (s : State) (b : Block) : (s.stall b).logCount = s.logCount := rfl
@[simp] theorem State.routes_stall (s : State) (b : Block) : (s.stall b).routes = s.routes := rfl
@[simp] theorem State.routesLoaded_stall (s : State) (b : Block) : (s.stall b).routesLoaded = s.routesLoaded := rfl
@[simp] theorem State.rowFixes_stall (s : State) (b : Block) : (s.stall b).rowFixes = s.rowFixes := rfl
@[simp] theorem State.spares_stall (s : State) (b : Block) : (s.stall b).spares = s.spares := rfl
@[simp] theorem State.remap_stall (s : State) (b : Block) : (s.stall b).remap = s.remap := rfl
@[simp] theorem State.scrubbed_stall (s : State) (b : Block) : (s.stall b).scrubbed = s.scrubbed := rfl
@[simp] theorem State.eventIdx_stall (s : State) (b : Block) : (s.stall b).eventIdx = s.eventIdx := rfl
@[simp] theorem State.sigIndex_stall (s : State) (b : Block) : (s.stall b).sigIndex = s.sigIndex := rfl
@[simp] theorem State.sessions_stall (s : State) (b : Block) : (s.stall b).sessions = s.sessions := rfl
@[simp] theorem State.flash_stall (s : State) (b : Block) : (s.stall b).flash = s.flash := rfl
@[simp] theorem State.image_stall (s : State) (b : Block) : (s.stall b).image = s.image := rfl
@[simp] theorem State.bootFailed_stall (s : State) (b : Block) : (s.stall b).bootFailed = s.bootFailed := rfl
@[simp] theorem State.commits_stall (s : State) (b : Block) : (s.stall b).commits = s.commits := rfl
@[simp] theorem State.windowCycles_stall (s : State) (b : Block) : (s.stall b).windowCycles = s.windowCycles := rfl
@[simp] theorem State.slots_stall (s : State) (b : Block) : (s.stall b).slots = s.slots := rfl
@[simp] theorem State.kept_stall (s : State) (b : Block) : (s.stall b).kept = s.kept := rfl
@[simp] theorem State.devid_stall (s : State) (b : Block) : (s.stall b).devid = s.devid := rfl
@[simp] theorem State.bridge_stall (s : State) (b : Block) : (s.stall b).bridge = s.bridge := rfl
@[simp] theorem State.pcieUp_stall (s : State) (b : Block) : (s.stall b).pcieUp = s.pcieUp := rfl
@[simp] theorem State.clock_stall (s : State) (b : Block) : (s.stall b).clock = s.clock := rfl
@[simp] theorem State.ir_stall (s : State) (b : Block) : (s.stall b).ir = s.ir := rfl
@[simp] theorem State.nextId_stall (s : State) (b : Block) : (s.stall b).nextId = s.nextId := rfl
@[simp] theorem State.fresh_stall (s : State) (b : Block) : (s.stall b).fresh = s.fresh := rfl
@[simp] theorem State.agenda_stall (s : State) (b : Block) : (s.stall b).agenda = s.agenda := rfl
@[simp] theorem State.pace_stall (s : State) (b : Block) : (s.stall b).pace = s.pace := rfl
@[simp] theorem State.stepNo_stall (s : State) (b : Block) : (s.stall b).stepNo = s.stepNo := rfl

/-! ### The gang: which field each update changes -/

@[simp] theorem Gang.live_setV (g : Gang) (r l : Nat) (x : Word) : (g.setV r l x).live = g.live := rfl
@[simp] theorem Gang.wid_setV (g : Gang) (r l : Nat) (x : Word) : (g.setV r l x).wid = g.wid := rfl
@[simp] theorem Gang.num_setV (g : Gang) (r l : Nat) (x : Word) : (g.setV r l x).num = g.num := rfl
@[simp] theorem Gang.lg_setV (g : Gang) (r l : Nat) (x : Word) : (g.setV r l x).lg = g.lg := rfl
@[simp] theorem Gang.alloc_setV (g : Gang) (r l : Nat) (x : Word) : (g.setV r l x).alloc = g.alloc := rfl
@[simp] theorem Gang.rows_setV (g : Gang) (r l : Nat) (x : Word) : (g.setV r l x).rows = g.rows := rfl
@[simp] theorem Gang.age_setV (g : Gang) (r l : Nat) (x : Word) : (g.setV r l x).age = g.age := rfl
@[simp] theorem Gang.flow_setV (g : Gang) (r l : Nat) (x : Word) : (g.setV r l x).flow = g.flow := rfl
@[simp] theorem Gang.trap_setV (g : Gang) (r l : Nat) (x : Word) : (g.setV r l x).trap = g.trap := rfl
@[simp] theorem Gang.out_setV (g : Gang) (r l : Nat) (x : Word) : (g.setV r l x).out = g.out := rfl
@[simp] theorem Gang.issued_setV (g : Gang) (r l : Nat) (x : Word) : (g.setV r l x).issued = g.issued := rfl
@[simp] theorem Gang.pend_setV (g : Gang) (r l : Nat) (x : Word) : (g.setV r l x).pend = g.pend := rfl
@[simp] theorem Gang.reports_setV (g : Gang) (r l : Nat) (x : Word) : (g.setV r l x).reports = g.reports := rfl
@[simp] theorem Gang.watch_setV (g : Gang) (r l : Nat) (x : Word) : (g.setV r l x).watch = g.watch := rfl
@[simp] theorem Gang.locks_setV (g : Gang) (r l : Nat) (x : Word) : (g.setV r l x).locks = g.locks := rfl
@[simp] theorem Gang.hint_setV (g : Gang) (r l : Nat) (x : Word) : (g.setV r l x).hint = g.hint := rfl
@[simp] theorem Gang.holds_setV (g : Gang) (r l : Nat) (x : Word) : (g.setV r l x).holds = g.holds := rfl
@[simp] theorem Gang.late_setV (g : Gang) (r l : Nat) (x : Word) : (g.setV r l x).late = g.late := rfl
@[simp] theorem Gang.fetchFails_setV (g : Gang) (r l : Nat) (x : Word) : (g.setV r l x).fetchFails = g.fetchFails := rfl
@[simp] theorem Gang.polls_setV (g : Gang) (r l : Nat) (x : Word) : (g.setV r l x).polls = g.polls := rfl
@[simp] theorem Gang.exitPc_setV (g : Gang) (r l : Nat) (x : Word) : (g.setV r l x).exitPc = g.exitPc := rfl

@[simp] theorem Gang.live_setPMask (g : Gang) (i : Nat) (m : Word) : (g.setPMask i m).live = g.live := rfl
@[simp] theorem Gang.wid_setPMask (g : Gang) (i : Nat) (m : Word) : (g.setPMask i m).wid = g.wid := rfl
@[simp] theorem Gang.num_setPMask (g : Gang) (i : Nat) (m : Word) : (g.setPMask i m).num = g.num := rfl
@[simp] theorem Gang.lg_setPMask (g : Gang) (i : Nat) (m : Word) : (g.setPMask i m).lg = g.lg := rfl
@[simp] theorem Gang.alloc_setPMask (g : Gang) (i : Nat) (m : Word) : (g.setPMask i m).alloc = g.alloc := rfl
@[simp] theorem Gang.rows_setPMask (g : Gang) (i : Nat) (m : Word) : (g.setPMask i m).rows = g.rows := rfl
@[simp] theorem Gang.age_setPMask (g : Gang) (i : Nat) (m : Word) : (g.setPMask i m).age = g.age := rfl
@[simp] theorem Gang.flow_setPMask (g : Gang) (i : Nat) (m : Word) : (g.setPMask i m).flow = g.flow := rfl
@[simp] theorem Gang.trap_setPMask (g : Gang) (i : Nat) (m : Word) : (g.setPMask i m).trap = g.trap := rfl
@[simp] theorem Gang.out_setPMask (g : Gang) (i : Nat) (m : Word) : (g.setPMask i m).out = g.out := rfl
@[simp] theorem Gang.issued_setPMask (g : Gang) (i : Nat) (m : Word) : (g.setPMask i m).issued = g.issued := rfl
@[simp] theorem Gang.pend_setPMask (g : Gang) (i : Nat) (m : Word) : (g.setPMask i m).pend = g.pend := rfl
@[simp] theorem Gang.reports_setPMask (g : Gang) (i : Nat) (m : Word) : (g.setPMask i m).reports = g.reports := rfl
@[simp] theorem Gang.watch_setPMask (g : Gang) (i : Nat) (m : Word) : (g.setPMask i m).watch = g.watch := rfl
@[simp] theorem Gang.locks_setPMask (g : Gang) (i : Nat) (m : Word) : (g.setPMask i m).locks = g.locks := rfl
@[simp] theorem Gang.hint_setPMask (g : Gang) (i : Nat) (m : Word) : (g.setPMask i m).hint = g.hint := rfl
@[simp] theorem Gang.holds_setPMask (g : Gang) (i : Nat) (m : Word) : (g.setPMask i m).holds = g.holds := rfl
@[simp] theorem Gang.late_setPMask (g : Gang) (i : Nat) (m : Word) : (g.setPMask i m).late = g.late := rfl
@[simp] theorem Gang.fetchFails_setPMask (g : Gang) (i : Nat) (m : Word) : (g.setPMask i m).fetchFails = g.fetchFails := rfl
@[simp] theorem Gang.polls_setPMask (g : Gang) (i : Nat) (m : Word) : (g.setPMask i m).polls = g.polls := rfl
@[simp] theorem Gang.exitPc_setPMask (g : Gang) (i : Nat) (m : Word) : (g.setPMask i m).exitPc = g.exitPc := rfl

@[simp] theorem Gang.live_setS (g : Gang) (k i : Nat) (x : Word) : (g.setS k i x).live = g.live := rfl
@[simp] theorem Gang.wid_setS (g : Gang) (k i : Nat) (x : Word) : (g.setS k i x).wid = g.wid := rfl
@[simp] theorem Gang.num_setS (g : Gang) (k i : Nat) (x : Word) : (g.setS k i x).num = g.num := rfl
@[simp] theorem Gang.lg_setS (g : Gang) (k i : Nat) (x : Word) : (g.setS k i x).lg = g.lg := rfl
@[simp] theorem Gang.alloc_setS (g : Gang) (k i : Nat) (x : Word) : (g.setS k i x).alloc = g.alloc := rfl
@[simp] theorem Gang.rows_setS (g : Gang) (k i : Nat) (x : Word) : (g.setS k i x).rows = g.rows := rfl
@[simp] theorem Gang.age_setS (g : Gang) (k i : Nat) (x : Word) : (g.setS k i x).age = g.age := rfl
@[simp] theorem Gang.flow_setS (g : Gang) (k i : Nat) (x : Word) : (g.setS k i x).flow = g.flow := rfl
@[simp] theorem Gang.trap_setS (g : Gang) (k i : Nat) (x : Word) : (g.setS k i x).trap = g.trap := rfl
@[simp] theorem Gang.out_setS (g : Gang) (k i : Nat) (x : Word) : (g.setS k i x).out = g.out := rfl
@[simp] theorem Gang.issued_setS (g : Gang) (k i : Nat) (x : Word) : (g.setS k i x).issued = g.issued := rfl
@[simp] theorem Gang.pend_setS (g : Gang) (k i : Nat) (x : Word) : (g.setS k i x).pend = g.pend := rfl
@[simp] theorem Gang.reports_setS (g : Gang) (k i : Nat) (x : Word) : (g.setS k i x).reports = g.reports := rfl
@[simp] theorem Gang.watch_setS (g : Gang) (k i : Nat) (x : Word) : (g.setS k i x).watch = g.watch := rfl
@[simp] theorem Gang.locks_setS (g : Gang) (k i : Nat) (x : Word) : (g.setS k i x).locks = g.locks := rfl
@[simp] theorem Gang.hint_setS (g : Gang) (k i : Nat) (x : Word) : (g.setS k i x).hint = g.hint := rfl
@[simp] theorem Gang.holds_setS (g : Gang) (k i : Nat) (x : Word) : (g.setS k i x).holds = g.holds := rfl
@[simp] theorem Gang.late_setS (g : Gang) (k i : Nat) (x : Word) : (g.setS k i x).late = g.late := rfl
@[simp] theorem Gang.fetchFails_setS (g : Gang) (k i : Nat) (x : Word) : (g.setS k i x).fetchFails = g.fetchFails := rfl
@[simp] theorem Gang.polls_setS (g : Gang) (k i : Nat) (x : Word) : (g.setS k i x).polls = g.polls := rfl
@[simp] theorem Gang.exitPc_setS (g : Gang) (k i : Nat) (x : Word) : (g.setS k i x).exitPc = g.exitPc := rfl

@[simp] theorem Gang.live_setMode (g : Gang) (k : Nat) (x : Word) : (g.setMode k x).live = g.live := rfl
@[simp] theorem Gang.wid_setMode (g : Gang) (k : Nat) (x : Word) : (g.setMode k x).wid = g.wid := rfl
@[simp] theorem Gang.num_setMode (g : Gang) (k : Nat) (x : Word) : (g.setMode k x).num = g.num := rfl
@[simp] theorem Gang.lg_setMode (g : Gang) (k : Nat) (x : Word) : (g.setMode k x).lg = g.lg := rfl
@[simp] theorem Gang.alloc_setMode (g : Gang) (k : Nat) (x : Word) : (g.setMode k x).alloc = g.alloc := rfl
@[simp] theorem Gang.rows_setMode (g : Gang) (k : Nat) (x : Word) : (g.setMode k x).rows = g.rows := rfl
@[simp] theorem Gang.age_setMode (g : Gang) (k : Nat) (x : Word) : (g.setMode k x).age = g.age := rfl
@[simp] theorem Gang.flow_setMode (g : Gang) (k : Nat) (x : Word) : (g.setMode k x).flow = g.flow := rfl
@[simp] theorem Gang.trap_setMode (g : Gang) (k : Nat) (x : Word) : (g.setMode k x).trap = g.trap := rfl
@[simp] theorem Gang.out_setMode (g : Gang) (k : Nat) (x : Word) : (g.setMode k x).out = g.out := rfl
@[simp] theorem Gang.issued_setMode (g : Gang) (k : Nat) (x : Word) : (g.setMode k x).issued = g.issued := rfl
@[simp] theorem Gang.pend_setMode (g : Gang) (k : Nat) (x : Word) : (g.setMode k x).pend = g.pend := rfl
@[simp] theorem Gang.reports_setMode (g : Gang) (k : Nat) (x : Word) : (g.setMode k x).reports = g.reports := rfl
@[simp] theorem Gang.watch_setMode (g : Gang) (k : Nat) (x : Word) : (g.setMode k x).watch = g.watch := rfl
@[simp] theorem Gang.locks_setMode (g : Gang) (k : Nat) (x : Word) : (g.setMode k x).locks = g.locks := rfl
@[simp] theorem Gang.hint_setMode (g : Gang) (k : Nat) (x : Word) : (g.setMode k x).hint = g.hint := rfl
@[simp] theorem Gang.holds_setMode (g : Gang) (k : Nat) (x : Word) : (g.setMode k x).holds = g.holds := rfl
@[simp] theorem Gang.late_setMode (g : Gang) (k : Nat) (x : Word) : (g.setMode k x).late = g.late := rfl
@[simp] theorem Gang.fetchFails_setMode (g : Gang) (k : Nat) (x : Word) : (g.setMode k x).fetchFails = g.fetchFails := rfl
@[simp] theorem Gang.polls_setMode (g : Gang) (k : Nat) (x : Word) : (g.setMode k x).polls = g.polls := rfl
@[simp] theorem Gang.exitPc_setMode (g : Gang) (k : Nat) (x : Word) : (g.setMode k x).exitPc = g.exitPc := rfl

@[simp] theorem Gang.live_setRst (g : Gang) (k : Nat) (r : RetStack) : (g.setRst k r).live = g.live := rfl
@[simp] theorem Gang.wid_setRst (g : Gang) (k : Nat) (r : RetStack) : (g.setRst k r).wid = g.wid := rfl
@[simp] theorem Gang.num_setRst (g : Gang) (k : Nat) (r : RetStack) : (g.setRst k r).num = g.num := rfl
@[simp] theorem Gang.lg_setRst (g : Gang) (k : Nat) (r : RetStack) : (g.setRst k r).lg = g.lg := rfl
@[simp] theorem Gang.alloc_setRst (g : Gang) (k : Nat) (r : RetStack) : (g.setRst k r).alloc = g.alloc := rfl
@[simp] theorem Gang.rows_setRst (g : Gang) (k : Nat) (r : RetStack) : (g.setRst k r).rows = g.rows := rfl
@[simp] theorem Gang.age_setRst (g : Gang) (k : Nat) (r : RetStack) : (g.setRst k r).age = g.age := rfl
@[simp] theorem Gang.regs_setRst (g : Gang) (k : Nat) (r : RetStack) : (g.setRst k r).regs = g.regs := rfl
@[simp] theorem Gang.trap_setRst (g : Gang) (k : Nat) (r : RetStack) : (g.setRst k r).trap = g.trap := rfl
@[simp] theorem Gang.out_setRst (g : Gang) (k : Nat) (r : RetStack) : (g.setRst k r).out = g.out := rfl
@[simp] theorem Gang.issued_setRst (g : Gang) (k : Nat) (r : RetStack) : (g.setRst k r).issued = g.issued := rfl
@[simp] theorem Gang.pend_setRst (g : Gang) (k : Nat) (r : RetStack) : (g.setRst k r).pend = g.pend := rfl
@[simp] theorem Gang.reports_setRst (g : Gang) (k : Nat) (r : RetStack) : (g.setRst k r).reports = g.reports := rfl
@[simp] theorem Gang.watch_setRst (g : Gang) (k : Nat) (r : RetStack) : (g.setRst k r).watch = g.watch := rfl
@[simp] theorem Gang.locks_setRst (g : Gang) (k : Nat) (r : RetStack) : (g.setRst k r).locks = g.locks := rfl
@[simp] theorem Gang.hint_setRst (g : Gang) (k : Nat) (r : RetStack) : (g.setRst k r).hint = g.hint := rfl
@[simp] theorem Gang.holds_setRst (g : Gang) (k : Nat) (r : RetStack) : (g.setRst k r).holds = g.holds := rfl
@[simp] theorem Gang.late_setRst (g : Gang) (k : Nat) (r : RetStack) : (g.setRst k r).late = g.late := rfl
@[simp] theorem Gang.fetchFails_setRst (g : Gang) (k : Nat) (r : RetStack) : (g.setRst k r).fetchFails = g.fetchFails := rfl
@[simp] theorem Gang.polls_setRst (g : Gang) (k : Nat) (r : RetStack) : (g.setRst k r).polls = g.polls := rfl
@[simp] theorem Gang.exitPc_setRst (g : Gang) (k : Nat) (r : RetStack) : (g.setRst k r).exitPc = g.exitPc := rfl

@[simp] theorem Gang.live_writeLanes (g : Gang) (r : Nat) (f : Nat → Bool) (x : Nat → Word) : (g.writeLanes r f x).live = g.live := rfl
@[simp] theorem Gang.wid_writeLanes (g : Gang) (r : Nat) (f : Nat → Bool) (x : Nat → Word) : (g.writeLanes r f x).wid = g.wid := rfl
@[simp] theorem Gang.num_writeLanes (g : Gang) (r : Nat) (f : Nat → Bool) (x : Nat → Word) : (g.writeLanes r f x).num = g.num := rfl
@[simp] theorem Gang.lg_writeLanes (g : Gang) (r : Nat) (f : Nat → Bool) (x : Nat → Word) : (g.writeLanes r f x).lg = g.lg := rfl
@[simp] theorem Gang.alloc_writeLanes (g : Gang) (r : Nat) (f : Nat → Bool) (x : Nat → Word) : (g.writeLanes r f x).alloc = g.alloc := rfl
@[simp] theorem Gang.rows_writeLanes (g : Gang) (r : Nat) (f : Nat → Bool) (x : Nat → Word) : (g.writeLanes r f x).rows = g.rows := rfl
@[simp] theorem Gang.age_writeLanes (g : Gang) (r : Nat) (f : Nat → Bool) (x : Nat → Word) : (g.writeLanes r f x).age = g.age := rfl
@[simp] theorem Gang.flow_writeLanes (g : Gang) (r : Nat) (f : Nat → Bool) (x : Nat → Word) : (g.writeLanes r f x).flow = g.flow := rfl
@[simp] theorem Gang.trap_writeLanes (g : Gang) (r : Nat) (f : Nat → Bool) (x : Nat → Word) : (g.writeLanes r f x).trap = g.trap := rfl
@[simp] theorem Gang.out_writeLanes (g : Gang) (r : Nat) (f : Nat → Bool) (x : Nat → Word) : (g.writeLanes r f x).out = g.out := rfl
@[simp] theorem Gang.issued_writeLanes (g : Gang) (r : Nat) (f : Nat → Bool) (x : Nat → Word) : (g.writeLanes r f x).issued = g.issued := rfl
@[simp] theorem Gang.pend_writeLanes (g : Gang) (r : Nat) (f : Nat → Bool) (x : Nat → Word) : (g.writeLanes r f x).pend = g.pend := rfl
@[simp] theorem Gang.watch_writeLanes (g : Gang) (r : Nat) (f : Nat → Bool) (x : Nat → Word) : (g.writeLanes r f x).watch = g.watch := rfl
@[simp] theorem Gang.locks_writeLanes (g : Gang) (r : Nat) (f : Nat → Bool) (x : Nat → Word) : (g.writeLanes r f x).locks = g.locks := rfl
@[simp] theorem Gang.hint_writeLanes (g : Gang) (r : Nat) (f : Nat → Bool) (x : Nat → Word) : (g.writeLanes r f x).hint = g.hint := rfl
@[simp] theorem Gang.holds_writeLanes (g : Gang) (r : Nat) (f : Nat → Bool) (x : Nat → Word) : (g.writeLanes r f x).holds = g.holds := rfl
@[simp] theorem Gang.late_writeLanes (g : Gang) (r : Nat) (f : Nat → Bool) (x : Nat → Word) : (g.writeLanes r f x).late = g.late := rfl
@[simp] theorem Gang.fetchFails_writeLanes (g : Gang) (r : Nat) (f : Nat → Bool) (x : Nat → Word) : (g.writeLanes r f x).fetchFails = g.fetchFails := rfl
@[simp] theorem Gang.polls_writeLanes (g : Gang) (r : Nat) (f : Nat → Bool) (x : Nat → Word) : (g.writeLanes r f x).polls = g.polls := rfl
@[simp] theorem Gang.exitPc_writeLanes (g : Gang) (r : Nat) (f : Nat → Bool) (x : Nat → Word) : (g.writeLanes r f x).exitPc = g.exitPc := rfl

@[simp] theorem Gang.live_writePLanes (g : Gang) (i : Nat) (f x : Nat → Bool) : (g.writePLanes i f x).live = g.live := Gang.live_setPMask g i _
@[simp] theorem Gang.wid_writePLanes (g : Gang) (i : Nat) (f x : Nat → Bool) : (g.writePLanes i f x).wid = g.wid := Gang.wid_setPMask g i _
@[simp] theorem Gang.num_writePLanes (g : Gang) (i : Nat) (f x : Nat → Bool) : (g.writePLanes i f x).num = g.num := Gang.num_setPMask g i _
@[simp] theorem Gang.lg_writePLanes (g : Gang) (i : Nat) (f x : Nat → Bool) : (g.writePLanes i f x).lg = g.lg := Gang.lg_setPMask g i _
@[simp] theorem Gang.alloc_writePLanes (g : Gang) (i : Nat) (f x : Nat → Bool) : (g.writePLanes i f x).alloc = g.alloc := Gang.alloc_setPMask g i _
@[simp] theorem Gang.rows_writePLanes (g : Gang) (i : Nat) (f x : Nat → Bool) : (g.writePLanes i f x).rows = g.rows := Gang.rows_setPMask g i _
@[simp] theorem Gang.age_writePLanes (g : Gang) (i : Nat) (f x : Nat → Bool) : (g.writePLanes i f x).age = g.age := Gang.age_setPMask g i _
@[simp] theorem Gang.flow_writePLanes (g : Gang) (i : Nat) (f x : Nat → Bool) : (g.writePLanes i f x).flow = g.flow := Gang.flow_setPMask g i _
@[simp] theorem Gang.trap_writePLanes (g : Gang) (i : Nat) (f x : Nat → Bool) : (g.writePLanes i f x).trap = g.trap := Gang.trap_setPMask g i _
@[simp] theorem Gang.out_writePLanes (g : Gang) (i : Nat) (f x : Nat → Bool) : (g.writePLanes i f x).out = g.out := Gang.out_setPMask g i _
@[simp] theorem Gang.issued_writePLanes (g : Gang) (i : Nat) (f x : Nat → Bool) : (g.writePLanes i f x).issued = g.issued := Gang.issued_setPMask g i _
@[simp] theorem Gang.pend_writePLanes (g : Gang) (i : Nat) (f x : Nat → Bool) : (g.writePLanes i f x).pend = g.pend := Gang.pend_setPMask g i _
@[simp] theorem Gang.reports_writePLanes (g : Gang) (i : Nat) (f x : Nat → Bool) : (g.writePLanes i f x).reports = g.reports := Gang.reports_setPMask g i _
@[simp] theorem Gang.watch_writePLanes (g : Gang) (i : Nat) (f x : Nat → Bool) : (g.writePLanes i f x).watch = g.watch := Gang.watch_setPMask g i _
@[simp] theorem Gang.locks_writePLanes (g : Gang) (i : Nat) (f x : Nat → Bool) : (g.writePLanes i f x).locks = g.locks := Gang.locks_setPMask g i _
@[simp] theorem Gang.hint_writePLanes (g : Gang) (i : Nat) (f x : Nat → Bool) : (g.writePLanes i f x).hint = g.hint := Gang.hint_setPMask g i _
@[simp] theorem Gang.holds_writePLanes (g : Gang) (i : Nat) (f x : Nat → Bool) : (g.writePLanes i f x).holds = g.holds := Gang.holds_setPMask g i _
@[simp] theorem Gang.late_writePLanes (g : Gang) (i : Nat) (f x : Nat → Bool) : (g.writePLanes i f x).late = g.late := Gang.late_setPMask g i _
@[simp] theorem Gang.fetchFails_writePLanes (g : Gang) (i : Nat) (f x : Nat → Bool) : (g.writePLanes i f x).fetchFails = g.fetchFails := Gang.fetchFails_setPMask g i _
@[simp] theorem Gang.polls_writePLanes (g : Gang) (i : Nat) (f x : Nat → Bool) : (g.writePLanes i f x).polls = g.polls := Gang.polls_setPMask g i _
@[simp] theorem Gang.exitPc_writePLanes (g : Gang) (i : Nat) (f x : Nat → Bool) : (g.writePLanes i f x).exitPc = g.exitPc := Gang.exitPc_setPMask g i _

@[simp] theorem Gang.live_writeSlices (g : Gang) (i : Nat) (f : Nat → Bool) (x : Nat → Word) : (g.writeSlices i f x).live = g.live := rfl
@[simp] theorem Gang.wid_writeSlices (g : Gang) (i : Nat) (f : Nat → Bool) (x : Nat → Word) : (g.writeSlices i f x).wid = g.wid := rfl
@[simp] theorem Gang.num_writeSlices (g : Gang) (i : Nat) (f : Nat → Bool) (x : Nat → Word) : (g.writeSlices i f x).num = g.num := rfl
@[simp] theorem Gang.lg_writeSlices (g : Gang) (i : Nat) (f : Nat → Bool) (x : Nat → Word) : (g.writeSlices i f x).lg = g.lg := rfl
@[simp] theorem Gang.alloc_writeSlices (g : Gang) (i : Nat) (f : Nat → Bool) (x : Nat → Word) : (g.writeSlices i f x).alloc = g.alloc := rfl
@[simp] theorem Gang.rows_writeSlices (g : Gang) (i : Nat) (f : Nat → Bool) (x : Nat → Word) : (g.writeSlices i f x).rows = g.rows := rfl
@[simp] theorem Gang.age_writeSlices (g : Gang) (i : Nat) (f : Nat → Bool) (x : Nat → Word) : (g.writeSlices i f x).age = g.age := rfl
@[simp] theorem Gang.flow_writeSlices (g : Gang) (i : Nat) (f : Nat → Bool) (x : Nat → Word) : (g.writeSlices i f x).flow = g.flow := rfl
@[simp] theorem Gang.trap_writeSlices (g : Gang) (i : Nat) (f : Nat → Bool) (x : Nat → Word) : (g.writeSlices i f x).trap = g.trap := rfl
@[simp] theorem Gang.out_writeSlices (g : Gang) (i : Nat) (f : Nat → Bool) (x : Nat → Word) : (g.writeSlices i f x).out = g.out := rfl
@[simp] theorem Gang.issued_writeSlices (g : Gang) (i : Nat) (f : Nat → Bool) (x : Nat → Word) : (g.writeSlices i f x).issued = g.issued := rfl
@[simp] theorem Gang.pend_writeSlices (g : Gang) (i : Nat) (f : Nat → Bool) (x : Nat → Word) : (g.writeSlices i f x).pend = g.pend := rfl
@[simp] theorem Gang.reports_writeSlices (g : Gang) (i : Nat) (f : Nat → Bool) (x : Nat → Word) : (g.writeSlices i f x).reports = g.reports := rfl
@[simp] theorem Gang.watch_writeSlices (g : Gang) (i : Nat) (f : Nat → Bool) (x : Nat → Word) : (g.writeSlices i f x).watch = g.watch := rfl
@[simp] theorem Gang.locks_writeSlices (g : Gang) (i : Nat) (f : Nat → Bool) (x : Nat → Word) : (g.writeSlices i f x).locks = g.locks := rfl
@[simp] theorem Gang.hint_writeSlices (g : Gang) (i : Nat) (f : Nat → Bool) (x : Nat → Word) : (g.writeSlices i f x).hint = g.hint := rfl
@[simp] theorem Gang.holds_writeSlices (g : Gang) (i : Nat) (f : Nat → Bool) (x : Nat → Word) : (g.writeSlices i f x).holds = g.holds := rfl
@[simp] theorem Gang.late_writeSlices (g : Gang) (i : Nat) (f : Nat → Bool) (x : Nat → Word) : (g.writeSlices i f x).late = g.late := rfl
@[simp] theorem Gang.fetchFails_writeSlices (g : Gang) (i : Nat) (f : Nat → Bool) (x : Nat → Word) : (g.writeSlices i f x).fetchFails = g.fetchFails := rfl
@[simp] theorem Gang.polls_writeSlices (g : Gang) (i : Nat) (f : Nat → Bool) (x : Nat → Word) : (g.writeSlices i f x).polls = g.polls := rfl
@[simp] theorem Gang.exitPc_writeSlices (g : Gang) (i : Nat) (f : Nat → Bool) (x : Nat → Word) : (g.writeSlices i f x).exitPc = g.exitPc := rfl

@[simp] theorem Gang.live_advance (g : Gang) : (g.advance).live = g.live := rfl
@[simp] theorem Gang.wid_advance (g : Gang) : (g.advance).wid = g.wid := rfl
@[simp] theorem Gang.num_advance (g : Gang) : (g.advance).num = g.num := rfl
@[simp] theorem Gang.lg_advance (g : Gang) : (g.advance).lg = g.lg := rfl
@[simp] theorem Gang.alloc_advance (g : Gang) : (g.advance).alloc = g.alloc := rfl
@[simp] theorem Gang.rows_advance (g : Gang) : (g.advance).rows = g.rows := rfl
@[simp] theorem Gang.age_advance (g : Gang) : (g.advance).age = g.age := rfl
@[simp] theorem Gang.regs_advance (g : Gang) : (g.advance).regs = g.regs := rfl
@[simp] theorem Gang.trap_advance (g : Gang) : (g.advance).trap = g.trap := rfl
@[simp] theorem Gang.out_advance (g : Gang) : (g.advance).out = g.out := rfl
@[simp] theorem Gang.issued_advance (g : Gang) : (g.advance).issued = g.issued := rfl
@[simp] theorem Gang.pend_advance (g : Gang) : (g.advance).pend = g.pend := rfl
@[simp] theorem Gang.reports_advance (g : Gang) : (g.advance).reports = g.reports := rfl
@[simp] theorem Gang.watch_advance (g : Gang) : (g.advance).watch = g.watch := rfl
@[simp] theorem Gang.locks_advance (g : Gang) : (g.advance).locks = g.locks := rfl
@[simp] theorem Gang.hint_advance (g : Gang) : (g.advance).hint = g.hint := rfl
@[simp] theorem Gang.holds_advance (g : Gang) : (g.advance).holds = g.holds := rfl
@[simp] theorem Gang.late_advance (g : Gang) : (g.advance).late = g.late := rfl
@[simp] theorem Gang.fetchFails_advance (g : Gang) : (g.advance).fetchFails = g.fetchFails := rfl
@[simp] theorem Gang.polls_advance (g : Gang) : (g.advance).polls = g.polls := rfl
@[simp] theorem Gang.exitPc_advance (g : Gang) : (g.advance).exitPc = g.exitPc := rfl

@[simp] theorem Gang.live_divide (g : Gang) (x : Nat → PcVal) : (g.divide x).live = g.live := rfl
@[simp] theorem Gang.wid_divide (g : Gang) (x : Nat → PcVal) : (g.divide x).wid = g.wid := rfl
@[simp] theorem Gang.num_divide (g : Gang) (x : Nat → PcVal) : (g.divide x).num = g.num := rfl
@[simp] theorem Gang.lg_divide (g : Gang) (x : Nat → PcVal) : (g.divide x).lg = g.lg := rfl
@[simp] theorem Gang.alloc_divide (g : Gang) (x : Nat → PcVal) : (g.divide x).alloc = g.alloc := rfl
@[simp] theorem Gang.rows_divide (g : Gang) (x : Nat → PcVal) : (g.divide x).rows = g.rows := rfl
@[simp] theorem Gang.age_divide (g : Gang) (x : Nat → PcVal) : (g.divide x).age = g.age := rfl
@[simp] theorem Gang.regs_divide (g : Gang) (x : Nat → PcVal) : (g.divide x).regs = g.regs := rfl
@[simp] theorem Gang.trap_divide (g : Gang) (x : Nat → PcVal) : (g.divide x).trap = g.trap := rfl
@[simp] theorem Gang.out_divide (g : Gang) (x : Nat → PcVal) : (g.divide x).out = g.out := rfl
@[simp] theorem Gang.issued_divide (g : Gang) (x : Nat → PcVal) : (g.divide x).issued = g.issued := rfl
@[simp] theorem Gang.pend_divide (g : Gang) (x : Nat → PcVal) : (g.divide x).pend = g.pend := rfl
@[simp] theorem Gang.reports_divide (g : Gang) (x : Nat → PcVal) : (g.divide x).reports = g.reports := rfl
@[simp] theorem Gang.watch_divide (g : Gang) (x : Nat → PcVal) : (g.divide x).watch = g.watch := rfl
@[simp] theorem Gang.locks_divide (g : Gang) (x : Nat → PcVal) : (g.divide x).locks = g.locks := rfl
@[simp] theorem Gang.hint_divide (g : Gang) (x : Nat → PcVal) : (g.divide x).hint = g.hint := rfl
@[simp] theorem Gang.holds_divide (g : Gang) (x : Nat → PcVal) : (g.divide x).holds = g.holds := rfl
@[simp] theorem Gang.late_divide (g : Gang) (x : Nat → PcVal) : (g.divide x).late = g.late := rfl
@[simp] theorem Gang.fetchFails_divide (g : Gang) (x : Nat → PcVal) : (g.divide x).fetchFails = g.fetchFails := rfl
@[simp] theorem Gang.polls_divide (g : Gang) (x : Nat → PcVal) : (g.divide x).polls = g.polls := rfl
@[simp] theorem Gang.exitPc_divide (g : Gang) (x : Nat → PcVal) : (g.divide x).exitPc = g.exitPc := rfl

@[simp] theorem Gang.live_raise (g : Gang) (p id : Nat) (perf : Bool) : (g.raise p id perf).live = g.live := rfl
@[simp] theorem Gang.wid_raise (g : Gang) (p id : Nat) (perf : Bool) : (g.raise p id perf).wid = g.wid := rfl
@[simp] theorem Gang.num_raise (g : Gang) (p id : Nat) (perf : Bool) : (g.raise p id perf).num = g.num := rfl
@[simp] theorem Gang.lg_raise (g : Gang) (p id : Nat) (perf : Bool) : (g.raise p id perf).lg = g.lg := rfl
@[simp] theorem Gang.alloc_raise (g : Gang) (p id : Nat) (perf : Bool) : (g.raise p id perf).alloc = g.alloc := rfl
@[simp] theorem Gang.rows_raise (g : Gang) (p id : Nat) (perf : Bool) : (g.raise p id perf).rows = g.rows := rfl
@[simp] theorem Gang.age_raise (g : Gang) (p id : Nat) (perf : Bool) : (g.raise p id perf).age = g.age := rfl
@[simp] theorem Gang.regs_raise (g : Gang) (p id : Nat) (perf : Bool) : (g.raise p id perf).regs = g.regs := rfl
@[simp] theorem Gang.flow_raise (g : Gang) (p id : Nat) (perf : Bool) : (g.raise p id perf).flow = g.flow := rfl
@[simp] theorem Gang.trap_raise (g : Gang) (p id : Nat) (perf : Bool) : (g.raise p id perf).trap = g.trap := rfl
@[simp] theorem Gang.pend_raise (g : Gang) (p id : Nat) (perf : Bool) : (g.raise p id perf).pend = g.pend := rfl
@[simp] theorem Gang.reports_raise (g : Gang) (p id : Nat) (perf : Bool) : (g.raise p id perf).reports = g.reports := rfl
@[simp] theorem Gang.watch_raise (g : Gang) (p id : Nat) (perf : Bool) : (g.raise p id perf).watch = g.watch := rfl
@[simp] theorem Gang.locks_raise (g : Gang) (p id : Nat) (perf : Bool) : (g.raise p id perf).locks = g.locks := rfl
@[simp] theorem Gang.hint_raise (g : Gang) (p id : Nat) (perf : Bool) : (g.raise p id perf).hint = g.hint := rfl
@[simp] theorem Gang.holds_raise (g : Gang) (p id : Nat) (perf : Bool) : (g.raise p id perf).holds = g.holds := rfl
@[simp] theorem Gang.late_raise (g : Gang) (p id : Nat) (perf : Bool) : (g.raise p id perf).late = g.late := rfl
@[simp] theorem Gang.fetchFails_raise (g : Gang) (p id : Nat) (perf : Bool) : (g.raise p id perf).fetchFails = g.fetchFails := rfl
@[simp] theorem Gang.polls_raise (g : Gang) (p id : Nat) (perf : Bool) : (g.raise p id perf).polls = g.polls := rfl
@[simp] theorem Gang.exitPc_raise (g : Gang) (p id : Nat) (perf : Bool) : (g.raise p id perf).exitPc = g.exitPc := rfl

@[simp] theorem Gang.live_complete (g : Gang) (id : Nat) : (g.complete id).live = g.live := rfl
@[simp] theorem Gang.wid_complete (g : Gang) (id : Nat) : (g.complete id).wid = g.wid := rfl
@[simp] theorem Gang.num_complete (g : Gang) (id : Nat) : (g.complete id).num = g.num := rfl
@[simp] theorem Gang.lg_complete (g : Gang) (id : Nat) : (g.complete id).lg = g.lg := rfl
@[simp] theorem Gang.alloc_complete (g : Gang) (id : Nat) : (g.complete id).alloc = g.alloc := rfl
@[simp] theorem Gang.rows_complete (g : Gang) (id : Nat) : (g.complete id).rows = g.rows := rfl
@[simp] theorem Gang.age_complete (g : Gang) (id : Nat) : (g.complete id).age = g.age := rfl
@[simp] theorem Gang.regs_complete (g : Gang) (id : Nat) : (g.complete id).regs = g.regs := rfl
@[simp] theorem Gang.flow_complete (g : Gang) (id : Nat) : (g.complete id).flow = g.flow := rfl
@[simp] theorem Gang.trap_complete (g : Gang) (id : Nat) : (g.complete id).trap = g.trap := rfl
@[simp] theorem Gang.issued_complete (g : Gang) (id : Nat) : (g.complete id).issued = g.issued := rfl
@[simp] theorem Gang.pend_complete (g : Gang) (id : Nat) : (g.complete id).pend = g.pend := rfl
@[simp] theorem Gang.reports_complete (g : Gang) (id : Nat) : (g.complete id).reports = g.reports := rfl
@[simp] theorem Gang.watch_complete (g : Gang) (id : Nat) : (g.complete id).watch = g.watch := rfl
@[simp] theorem Gang.locks_complete (g : Gang) (id : Nat) : (g.complete id).locks = g.locks := rfl
@[simp] theorem Gang.hint_complete (g : Gang) (id : Nat) : (g.complete id).hint = g.hint := rfl
@[simp] theorem Gang.holds_complete (g : Gang) (id : Nat) : (g.complete id).holds = g.holds := rfl
@[simp] theorem Gang.late_complete (g : Gang) (id : Nat) : (g.complete id).late = g.late := rfl
@[simp] theorem Gang.fetchFails_complete (g : Gang) (id : Nat) : (g.complete id).fetchFails = g.fetchFails := rfl
@[simp] theorem Gang.polls_complete (g : Gang) (id : Nat) : (g.complete id).polls = g.polls := rfl
@[simp] theorem Gang.exitPc_complete (g : Gang) (id : Nat) : (g.complete id).exitPc = g.exitPc := rfl

@[simp] theorem Gang.live_performed (g : Gang) (id : Nat) : (g.performed id).live = g.live := rfl
@[simp] theorem Gang.wid_performed (g : Gang) (id : Nat) : (g.performed id).wid = g.wid := rfl
@[simp] theorem Gang.num_performed (g : Gang) (id : Nat) : (g.performed id).num = g.num := rfl
@[simp] theorem Gang.lg_performed (g : Gang) (id : Nat) : (g.performed id).lg = g.lg := rfl
@[simp] theorem Gang.alloc_performed (g : Gang) (id : Nat) : (g.performed id).alloc = g.alloc := rfl
@[simp] theorem Gang.rows_performed (g : Gang) (id : Nat) : (g.performed id).rows = g.rows := rfl
@[simp] theorem Gang.age_performed (g : Gang) (id : Nat) : (g.performed id).age = g.age := rfl
@[simp] theorem Gang.regs_performed (g : Gang) (id : Nat) : (g.performed id).regs = g.regs := rfl
@[simp] theorem Gang.flow_performed (g : Gang) (id : Nat) : (g.performed id).flow = g.flow := rfl
@[simp] theorem Gang.trap_performed (g : Gang) (id : Nat) : (g.performed id).trap = g.trap := rfl
@[simp] theorem Gang.issued_performed (g : Gang) (id : Nat) : (g.performed id).issued = g.issued := rfl
@[simp] theorem Gang.pend_performed (g : Gang) (id : Nat) : (g.performed id).pend = g.pend := rfl
@[simp] theorem Gang.reports_performed (g : Gang) (id : Nat) : (g.performed id).reports = g.reports := rfl
@[simp] theorem Gang.watch_performed (g : Gang) (id : Nat) : (g.performed id).watch = g.watch := rfl
@[simp] theorem Gang.locks_performed (g : Gang) (id : Nat) : (g.performed id).locks = g.locks := rfl
@[simp] theorem Gang.hint_performed (g : Gang) (id : Nat) : (g.performed id).hint = g.hint := rfl
@[simp] theorem Gang.holds_performed (g : Gang) (id : Nat) : (g.performed id).holds = g.holds := rfl
@[simp] theorem Gang.late_performed (g : Gang) (id : Nat) : (g.performed id).late = g.late := rfl
@[simp] theorem Gang.fetchFails_performed (g : Gang) (id : Nat) : (g.performed id).fetchFails = g.fetchFails := rfl
@[simp] theorem Gang.polls_performed (g : Gang) (id : Nat) : (g.performed id).polls = g.polls := rfl
@[simp] theorem Gang.exitPc_performed (g : Gang) (id : Nat) : (g.performed id).exitPc = g.exitPc := rfl

/-! ### Reads after updates -/

@[simp] theorem State.gangAt_setGangAt (s : State) (k : Nat) (g : Gang) : (s.setGangAt k g).gangAt k = g := by
  simp [State.gangAt, State.setGangAt, mapFind_put_same]

theorem State.gangAt_setGangAt_other (s : State) {k j : Nat} (h : j ≠ k) (g : Gang) :
    (s.setGangAt k g).gangAt j = s.gangAt j := by
  simp [State.gangAt, State.setGangAt, mapFind_put_other h]

@[simp] theorem State.gang_setGang (s : State) (g : Gang) : (s.setGang g).gang = g := by
  simp [State.gang, State.setGang]

@[simp] theorem State.gang_updGang (s : State) (f : Gang → Gang) : (s.updGang f).gang = f s.gang := by
  simp [State.updGang]

theorem State.gangAt_updGang_other (s : State) (f : Gang → Gang) {j : Nat} (h : j ≠ s.cur) :
    (s.updGang f).gangAt j = s.gangAt j := State.gangAt_setGangAt_other s h _

@[simp] theorem State.wgAt_setWgAt (s : State) (k : Nat) (w : Workgroup) : (s.setWgAt k w).wgAt k = w := by
  simp [State.wgAt, State.setWgAt, mapFind_put_same]

@[simp] theorem State.coreAt_updCore (s : State) (k : Nat) (f : Core → Core) :
    (s.updCore k f).coreAt k = f (s.coreAt k) := by
  simp [State.coreAt, State.updCore, mapFind_put_same]

@[simp] theorem State.clusterAt_updCluster (s : State) (k : Nat) (f : Cluster → Cluster) :
    (s.updCluster k f).clusterAt k = f (s.clusterAt k) := by
  simp [State.clusterAt, State.updCluster, mapFind_put_same]

@[simp] theorem State.dieAt_updDie (s : State) (k : Nat) (f : Die → Die) : (s.updDie k f).dieAt k = f (s.dieAt k) := by
  simp [State.dieAt, State.updDie, mapFind_put_same]

@[simp] theorem State.partAt_updPart (s : State) (k : Nat) (f : Part → Part) :
    (s.updPart k f).partAt k = f (s.partAt k) := by
  simp [State.partAt, State.updPart, mapFind_put_same]

@[simp] theorem State.cellAt_setCell (s : State) (k : Nat) (c : TCell) : (s.setCell k c).cellAt k = c := by
  simp [State.cellAt, State.setCell, mapFind_put_same]

@[simp] theorem State.queueAt_updQueue (s : State) (k : Nat) (f : Queue → Queue) :
    (s.updQueue k f).queueAt k = f (s.queueAt k) := by
  simp [State.queueAt, State.updQueue, mapFind_put_same]

@[simp] theorem State.slotAt_updSlot (s : State) (k : Nat) (f : HSlot → HSlot) :
    (s.updSlot k f).slotAt k = f (s.slotAt k) := by
  simp [State.slotAt, State.updSlot, mapFind_put_same]

@[simp] theorem State.linkAt_updLink (s : State) (k : Nat) (f : Link → Link) :
    (s.updLink k f).linkAt k = f (s.linkAt k) := by
  simp [State.linkAt, State.updLink, mapFind_put_same]

/-! ### Lanes and slices -/

theorem mapGet_writeVMap (r : Nat) (f : Nat → Bool) (x : Nat → Word) (n : Nat) (hn : n ≤ 32) (m : SMap Word)
    (q l : Nat) (hl : l < 32) : mapGet 0 (writeVMap r f x n m) (q * 32 + l) =
      if q = r ∧ l < n ∧ f l = true then x l else mapGet 0 m (q * 32 + l) := by
  induction n with
  | zero => simp [writeVMap]
  | succ k ih =>
    have ih := ih (by omega)
    simp only [writeVMap]
    by_cases hf : f k = true
    · rw [if_pos hf]
      by_cases he : q * 32 + l = r * 32 + k
      · obtain ⟨rfl, rfl⟩ : q = r ∧ l = k := by omega
        rw [mapGet_set_same]; simp [hf]
      · rw [mapGet_set_other _ _ he, ih]
        have : (q = r ∧ l < k + 1 ∧ f l = true) ↔ (q = r ∧ l < k ∧ f l = true) := by
          constructor
          · rintro ⟨h1, h2, h3⟩; exact ⟨h1, by omega, h3⟩
          · rintro ⟨h1, h2, h3⟩; exact ⟨h1, by omega, h3⟩
        simp only [this]
    · rw [if_neg hf, ih]
      have : (q = r ∧ l < k + 1 ∧ f l = true) ↔ (q = r ∧ l < k ∧ f l = true) := by
        constructor
        · rintro ⟨h1, h2, h3⟩
          refine ⟨h1, ?_, h3⟩
          rcases Nat.lt_or_ge l k with h | h
          · exact h
          · obtain rfl : l = k := by omega
            exact absurd h3 hf
        · rintro ⟨h1, h2, h3⟩; exact ⟨h1, by omega, h3⟩
      simp only [this]

/-- What a write of lanes does to every vector register: register r in the chosen lanes takes the value, every other
lane of every register stays. -/
theorem Gang.v_writeLanes (g : Gang) (r : Nat) (f : Nat → Bool) (x : Nat → Word) (q l : Nat) (hl : l < 32) :
    (g.writeLanes r f x).v q l = if q = r ∧ f l = true then x l else g.v q l := by
  have := mapGet_writeVMap r f x 32 (Nat.le_refl _) g.regs.v q l hl
  simpa [Gang.v, Gang.writeLanes, hl] using this

theorem mapGet_writeSMap (i : Nat) (hi : i < 32) (f : Nat → Bool) (x : Nat → Word) (n : Nat) (m : SMap Word)
    (k j : Nat) (hj : j < 32) : mapGet 0 (writeSMap i f x n m) (k * 32 + j) =
      if j = i ∧ k < n ∧ f k = true then x k else mapGet 0 m (k * 32 + j) := by
  induction n with
  | zero => simp [writeSMap]
  | succ c ih =>
    simp only [writeSMap]
    by_cases hf : f c = true
    · rw [if_pos hf]
      by_cases he : k * 32 + j = c * 32 + i
      · obtain ⟨rfl, rfl⟩ : k = c ∧ j = i := by omega
        rw [mapGet_set_same]; simp [hf]
      · rw [mapGet_set_other _ _ he, ih]
        have : (j = i ∧ k < c + 1 ∧ f k = true) ↔ (j = i ∧ k < c ∧ f k = true) := by
          constructor
          · rintro ⟨h1, h2, h3⟩; exact ⟨h1, by omega, h3⟩
          · rintro ⟨h1, h2, h3⟩; exact ⟨h1, by omega, h3⟩
        simp only [this]
    · rw [if_neg hf, ih]
      have : (j = i ∧ k < c + 1 ∧ f k = true) ↔ (j = i ∧ k < c ∧ f k = true) := by
        constructor
        · rintro ⟨h1, h2, h3⟩
          refine ⟨h1, ?_, h3⟩
          rcases Nat.lt_or_ge k c with h | h
          · exact h
          · obtain rfl : k = c := by omega
            exact absurd h3 hf
        · rintro ⟨h1, h2, h3⟩; exact ⟨h1, by omega, h3⟩
      simp only [this]

/-- What a write of slices does to every scalar register. -/
theorem Gang.s_writeSlices (g : Gang) (i : Nat) (hi : i < 32) (f : Nat → Bool) (x : Nat → Word) (k j : Nat)
    (hk : k < 8) (hj : j < 32) :
    (g.writeSlices i f x).s k j = if j = i ∧ f k = true then x k else g.s k j := by
  have := mapGet_writeSMap i hi f x 8 g.regs.sc k j hj
  simpa [Gang.s, Gang.writeSlices, hk] using this

theorem mapGet_setPcMap (f : Nat → Bool) (x : Nat → PcVal) (n : Nat) (m : SMap PcVal) (k : Nat) :
    mapGet 0 (setPcMap f x n m) k = if k < n ∧ f k = true then x k else mapGet 0 m k := by
  induction n with
  | zero => simp [setPcMap]
  | succ c ih =>
    simp only [setPcMap]
    by_cases hf : f c = true
    · rw [if_pos hf]
      by_cases he : k = c
      · subst he; rw [mapGet_set_same]; simp [hf]
      · rw [mapGet_set_other _ _ he, ih]
        have : (k < c + 1 ∧ f k = true) ↔ (k < c ∧ f k = true) := by
          constructor
          · rintro ⟨h2, h3⟩; exact ⟨by omega, h3⟩
          · rintro ⟨h2, h3⟩; exact ⟨by omega, h3⟩
        simp only [this]
    · rw [if_neg hf, ih]
      have : (k < c + 1 ∧ f k = true) ↔ (k < c ∧ f k = true) := by
        constructor
        · rintro ⟨h2, h3⟩
          refine ⟨?_, h3⟩
          rcases Nat.lt_or_ge k c with h | h
          · exact h
          · obtain rfl : k = c := by omega
            exact absurd h3 hf
        · rintro ⟨h2, h3⟩; exact ⟨by omega, h3⟩
      simp only [this]

/-- Moving past a word: every issuing slice's PC is the PC being issued plus 4, every other slice's stays (03 R67). -/
theorem Gang.pc_advance (g : Gang) (k : Nat) (hk : k < 8) :
    g.advance.pc k = if g.issuing k = true then g.pcNow + 4 else g.pc k := by
  have := mapGet_setPcMap g.issuing (fun _ => g.pcNow + 4) 8 g.flow.pc k
  simpa [Gang.pc, Gang.advance, hk] using this

@[simp] theorem Gang.v_advance (g : Gang) (r l : Nat) : g.advance.v r l = g.v r l := rfl
@[simp] theorem Gang.s_advance (g : Gang) (k i : Nat) : g.advance.s k i = g.s k i := rfl
@[simp] theorem Gang.p_advance (g : Gang) (i l : Nat) : g.advance.p i l = g.p i l := rfl
@[simp] theorem Gang.mode_advance (g : Gang) (k : Nat) : g.advance.mode k = g.mode k := rfl
@[simp] theorem Gang.s_writeLanes (g : Gang) (r : Nat) (f : Nat → Bool) (x : Nat → Word) (k i : Nat) :
    (g.writeLanes r f x).s k i = g.s k i := rfl
@[simp] theorem Gang.p_writeLanes (g : Gang) (r : Nat) (f : Nat → Bool) (x : Nat → Word) (i l : Nat) :
    (g.writeLanes r f x).p i l = g.p i l := rfl
@[simp] theorem Gang.v_writeSlices (g : Gang) (i : Nat) (f : Nat → Bool) (x : Nat → Word) (r l : Nat) :
    (g.writeSlices i f x).v r l = g.v r l := rfl
@[simp] theorem Gang.p_writeSlices (g : Gang) (i : Nat) (f : Nat → Bool) (x : Nat → Word) (j l : Nat) :
    (g.writeSlices i f x).p j l = g.p j l := rfl
@[simp] theorem Gang.mode_writeLanes (g : Gang) (r : Nat) (f : Nat → Bool) (x : Nat → Word) (k : Nat) :
    (g.writeLanes r f x).mode k = g.mode k := rfl
@[simp] theorem Gang.mode_writeSlices (g : Gang) (i : Nat) (f : Nat → Bool) (x : Nat → Word) (k : Nat) :
    (g.writeSlices i f x).mode k = g.mode k := rfl
@[simp] theorem Gang.v_setPMask (g : Gang) (i : Nat) (m : Word) (r l : Nat) : (g.setPMask i m).v r l = g.v r l := rfl
@[simp] theorem Gang.s_setPMask (g : Gang) (i : Nat) (m : Word) (k j : Nat) : (g.setPMask i m).s k j = g.s k j := rfl
@[simp] theorem Gang.pMask_setPMask (g : Gang) (i : Nat) (m : Word) : (g.setPMask i m).pMask i = m :=
  mapGet_set_same 0 g.regs.p i m

/-! ### The memory keeps its canonical form (log entry 10) -/

/-- A write of bytes to local memory keeps the canonical form. -/
theorem memWf_putBytes (s : State) (a n : Nat) (f : Nat → Byte) (h : memWf s.mem = true) :
    memWf (s.putBytes a n f).mem = true := mapWf_setRange 0 f a n s.mem h

theorem memWf_mergeDirty (x : L1Line) (a n : Nat) (m : List Host.Cell) (h : memWf m = true) :
    memWf (mergeDirty x a n m) = true := by
  induction n with
  | zero => simpa [mergeDirty] using h
  | succ k ih =>
    simp only [mergeDirty]
    split
    · exact mapWf_set 0 _ _ _ ih
    · exact ih

/-- Dropping bytes keeps the canonical form. -/
theorem mapRising_filter {α : Type} (p : Nat × α → Bool) (m : SMap α) :
    ∀ lo, mapRising lo m = true → mapRising lo (m.filter p) = true := by
  induction m with
  | nil => intro lo h; exact h
  | cons e m ih =>
    intro lo h
    obtain ⟨i, x⟩ := e
    simp only [mapRising, Bool.and_eq_true, decide_eq_true_eq] at h
    rw [List.filter_cons]
    split
    · simp only [mapRising, Bool.and_eq_true, decide_eq_true_eq]
      exact ⟨h.1, ih _ h.2⟩
    · exact mapRising_mono (by omega) _ (ih _ h.2)

theorem memWf_filter (p : Host.Cell → Bool) (m : List Host.Cell) (h : memWf m = true) : memWf (m.filter p) = true := by
  simp only [memWf, mapWf, Bool.and_eq_true] at h ⊢
  refine ⟨mapRising_filter p m 0 h.1, ?_⟩
  simp only [List.all_eq_true, List.mem_filter] at h ⊢
  exact fun e he => h.2 e he.1

theorem memWf_reset : memWf State.reset.mem = true := rfl

end Sys2Proof.Machine
end

