-- ==== Sys2Proof/Laws/Steps.lean ====
section
/-! SUPPORT. One lemma for each shared operation of a word: the prologue, and what each form of result does to the whole
state. The meanings of the register-only words are read off these. -/

namespace Sys2Proof.Machine

/-! ### The prologue -/

/-- A word that issues has its own effect. -/
theorem guardOps_issues {s : State} {f : OpndsOf} (h : s.issues f = true) (body : State → Res) :
    guardOps s f body = body s := by
  simp only [State.issues, Bool.and_eq_true, Bool.not_eq_true', Option.isNone_iff_eq_none] at h
  obtain ⟨⟨⟨h1, h2⟩, h3⟩, h4⟩ := h
  simp [guardOps, h1, h2, h3, h4]

/-- Everything the prologue can do: the illegal-instruction trap, the register-range trap, a stall, a poison report, or
the word's own effect. -/
theorem guardOps_cases (s : State) (f : OpndsOf) (body : State → Res) :
    guardOps s f body = illegal s ∨ guardOps s f body = trapNow { cause := 0x02 } s ∨
    guardOps s f body = stallOn (.regs (s.gang.pend.map (·.id))) s ∨
    (∃ p, s.gang.poisonFor f = some p ∧ guardOps s f body = s.takeReport p) ∨
    (s.issues f = true ∧ guardOps s f body = body s) := by
  unfold guardOps
  by_cases h1 : s.gang.illegalFor f = true
  · simp [h1]
  · by_cases h2 : s.gang.rangeFor f = true
    · simp [h1, h2]
    · by_cases h3 : s.gang.waitsFor f = true
      · simp [h1, h2, h3]
      · cases h4 : s.gang.poisonFor f with
        | some p => simp [h1, h2, h3, h4]
        | none => simp [h1, h2, h3, h4, State.issues]

/-! ### Frames -/

theorem sameDevice_updGang (s : State) (f : Gang → Gang) : s.sameDevice (s.updGang f) :=
  ⟨rfl, fun _ h => State.gangAt_updGang_other s f h⟩

theorem past_of {s : State} {f : Gang → Gang} (h1 : (f s.gang).flow = s.gang.flow) :
    s.past (s.updGang (fun g => (f g).advance)) := by
  intro k hk
  have hi : (f s.gang).issuing k = s.gang.issuing k := by unfold Gang.issuing Gang.exitedAt Gang.grp; rw [h1]
  have hp : (f s.gang).pcNow = s.gang.pcNow := by unfold Gang.pcNow Gang.pc Gang.low; rw [h1]
  rw [State.gang_updGang, Gang.pc_advance _ _ hk, hi, hp]
  simp [Gang.pc, h1]

theorem sameReports_refl (g : Gang) : g.sameReports g := rfl

theorem clearMarks_marks (r : Nat) (f : Nat → Bool) (rs : List Report) :
    (clearMarks r f rs).map (fun p => { p with marks := [] }) = rs.map (fun p => { p with marks := [] }) := by
  simp [clearMarks, List.map_map, Function.comp_def]

/-! ### The forms of a result -/

/-- The gang after a vector result. -/
theorem putV_gang (g : Gang) (d : Code) (wide f : Nat → Bool) (x : Nat → DWord) :
    g.putV d wide f x = { g with
      regs := { g.regs with v := (g.putV d wide f x).regs.v }
      reports := (g.putV d wide f x).reports } ∧ g.sameReports (g.putV d wide f x) := by
  unfold Gang.putV
  split
  · exact ⟨rfl, rfl⟩
  · refine ⟨rfl, ?_⟩
    show List.map _ (clearMarks _ _ (clearMarks _ _ g.reports)) = _
    rw [clearMarks_marks, clearMarks_marks]

theorem putV_v (g : Gang) (d : Code) (wide f : Nat → Bool) (x : Nat → DWord) (r l : Nat) (hl : l < 32) :
    (g.putV d wide f x).v r l =
      if d ≠ 0xF0 ∧ f l = true ∧ wide l = true ∧ r = d.toNat + 1 then (x l >>> 32).setWidth 32
      else if d ≠ 0xF0 ∧ f l = true ∧ r = d.toNat then (x l).setWidth 32
      else g.v r l := by
  unfold Gang.putV
  by_cases hd : d = 240#8
  · simp [hd]
  · rw [if_neg (show ¬ d = 0xF0 from hd), Gang.v_writeLanes _ _ _ _ _ _ hl, Gang.v_writeLanes _ _ _ _ _ _ hl]
    by_cases h1 : f l = true <;> by_cases h2 : wide l = true <;> by_cases h3 : r = d.toNat + 1 <;>
      by_cases h4 : r = d.toNat <;> simp [hd, h1, h2, h3, h4]

/-- A vector result, flags, and past the word. -/
theorem vecStep_putV (s : State) (d : Code) (wide f : Nat → Bool) (x : Nat → DWord) (fl : Nat) :
    s.vecStep (s.updGang (fun g => (Gang.putV (g.raiseFlags fl) d wide f x).advance)) d wide f x fl := by
  have hg := putV_gang (s.gang.raiseFlags fl) d wide f x
  refine ⟨fun r l hl => ?_, ?_, sameDevice_updGang s _, ?_, ?_⟩
  · rw [State.gang_updGang, Gang.v_advance, putV_v _ _ _ _ _ _ _ hl]; rfl
  · refine past_of (f := fun g => Gang.putV (g.raiseFlags fl) d wide f x) ?_
    rw [hg.1]; rfl
  · rw [State.gang_updGang]; exact hg.2
  · rw [State.gang_updGang, Gang.advance, hg.1]; rfl

/-- A vector result with no flag. -/
theorem vecStep_putV0 (s : State) (d : Code) (wide f : Nat → Bool) (x : Nat → DWord) :
    s.vecStep (s.updGang (fun g => (g.putV d wide f x).advance)) d wide f x 0 := by
  have hz : ∀ g : Gang, g.raiseFlags 0 = g := by intro g; simp [Gang.raiseFlags]
  have := vecStep_putV s d wide f x 0
  simpa only [hz] using this

/-- A 32-bit vector result is a vector result with no wide lane. -/
theorem putV32_eq (g : Gang) (d : Code) (f : Nat → Bool) (x : Nat → Word) (r l : Nat) (hl : l < 32) :
    (g.putV32 d f x).v r l = if d ≠ 0xF0 ∧ f l = true ∧ r = d.toNat then x l else g.v r l := by
  unfold Gang.putV32
  by_cases hd : d = 240#8
  · simp [hd]
  · rw [if_neg (show ¬ d = 0xF0 from hd), Gang.v_writeLanes _ _ _ _ _ _ hl]
    by_cases h1 : f l = true <;> by_cases h4 : r = d.toNat <;> simp [hd, h1, h4]

theorem vecStep_putV32 (s : State) (d : Code) (f : Nat → Bool) (x : Nat → Word) (fl : Nat) :
    s.vecStep (s.updGang (fun g => (Gang.putV32 (g.raiseFlags fl) d f x).advance)) d (fun _ => false) f
      (fun l => (x l).setWidth 64) fl := by
  refine ⟨fun r l hl => ?_, ?_, sameDevice_updGang s _, ?_, ?_⟩
  · rw [State.gang_updGang, Gang.v_advance, putV32_eq _ _ _ _ _ _ hl]
    simp; rfl
  · refine past_of (f := fun g => Gang.putV32 (g.raiseFlags fl) d f x) ?_
    unfold Gang.putV32; split <;> rfl
  · rw [State.gang_updGang]
    unfold Gang.putV32; split
    · rfl
    · show List.map _ (clearMarks _ _ s.gang.reports) = _
      rw [clearMarks_marks]
  · rw [State.gang_updGang]
    unfold Gang.putV32; split <;> rfl

theorem vecStep_putV32_0 (s : State) (d : Code) (f : Nat → Bool) (x : Nat → Word) :
    s.vecStep (s.updGang (fun g => (g.putV32 d f x).advance)) d (fun _ => false) f (fun l => (x l).setWidth 64) 0 := by
  have hz : ∀ g : Gang, g.raiseFlags 0 = g := by intro g; simp [Gang.raiseFlags]
  have := vecStep_putV32 s d f x 0
  simpa only [hz] using this

/-- A bit of a lane mask. -/
theorem laneMask_bit (f : Nat → Bool) (l : Nat) (hl : l < 32) : (laneMask f).getLsbD l = f l := by
  have key : ∀ n, ((List.range n).map (fun k => if f k then 2 ^ k else 0)).sum < 2 ^ n ∧
      ∀ j, j < n → (((List.range n).map (fun k => if f k then 2 ^ k else 0)).sum).testBit j = f j := by
    intro n
    induction n with
    | zero => simp
    | succ n ih =>
      obtain ⟨hlt, hb⟩ := ih
      rw [List.range_succ, List.map_append, List.sum_append]
      simp only [List.map_cons, List.map_nil, List.sum_cons, List.sum_nil, Nat.add_zero]
      refine ⟨?_, fun j hj => ?_⟩
      · rw [Nat.pow_succ]; split <;> omega
      · by_cases hn : f n = true
        · rw [if_pos hn, Nat.add_comm]
          by_cases he : j = n
          · subst he
            rw [Nat.testBit_two_pow_add_eq, Nat.testBit_lt_two_pow hlt, hn]; rfl
          · rw [Nat.testBit_two_pow_add_gt (by omega), hb j (by omega)]
        · rw [if_neg hn, Nat.add_zero]
          by_cases he : j = n
          · subst he
            rw [Nat.testBit_lt_two_pow hlt]; simpa using hn
          · exact hb j (by omega)
  have h := (key 32).2 l hl
  simp only [laneMask, BitVec.getLsbD_ofNat, hl, decide_true, Bool.true_and]
  exact h

theorem putP_p (g : Gang) (d : Code) (f x : Nat → Bool) (i l : Nat) (hl : l < 32) :
    (g.putP d f x).p i l = if d ≠ 0xF0 ∧ i = d.toNat ∧ f l = true then x l else g.p i l := by
  unfold Gang.putP
  by_cases hd : d = 240#8
  · simp [hd]
  · rw [if_neg (show ¬ d = 0xF0 from hd)]
    simp only [Gang.p, Gang.writePLanes, Gang.setPMask]
    rw [mapGet_set]
    by_cases hi : i = d.toNat
    · rw [if_pos hi, laneMask_bit _ _ hl]
      by_cases hf : f l = true <;> simp [hd, hi, hf]
    · simp [hi]

theorem putP_gang (g : Gang) (d : Code) (f x : Nat → Bool) :
    g.putP d f x = { g with regs := { g.regs with p := (g.putP d f x).regs.p } } := by
  unfold Gang.putP Gang.writePLanes
  generalize laneMask _ = m
  split <;> rfl

/-- A predicate result, flags, and past the word. -/
theorem predStep_putP (s : State) (d : Code) (f x : Nat → Bool) (fl : Nat) :
    s.predStep (s.updGang (fun g => (Gang.putP (g.raiseFlags fl) d f x).advance)) d f x fl := by
  refine ⟨fun i l hl => ?_, ?_, sameDevice_updGang s _, ?_⟩
  · rw [State.gang_updGang, Gang.p_advance, putP_p _ _ _ _ _ _ hl]; rfl
  · refine past_of (f := fun g => Gang.putP (g.raiseFlags fl) d f x) ?_
    rw [putP_gang]; rfl
  · rw [State.gang_updGang, Gang.advance, putP_gang]; rfl

theorem predStep_putP0 (s : State) (d : Code) (f x : Nat → Bool) :
    s.predStep (s.updGang (fun g => (g.putP d f x).advance)) d f x 0 := by
  have hz : ∀ g : Gang, g.raiseFlags 0 = g := by intro g; simp [Gang.raiseFlags]
  have := predStep_putP s d f x 0
  simpa only [hz] using this

/-- A scalar result, and past the word; the code is a register or the discard code. -/
theorem scalarStep_putS (s : State) (d : Code) (hd : sDst d = true) (x : Nat → Word) :
    s.scalarStep (s.updGang (fun g => (g.putS d s.gang.issuing x).advance)) d x := by
  refine ⟨fun k i hk hi => ?_, ?_, sameDevice_updGang s _, ?_⟩
  · rw [State.gang_updGang, Gang.s_advance]
    unfold Gang.putS
    by_cases h0 : d = 240#8
    · simp [h0]
    · have h32 : d.toNat < 32 := by
        simp only [sDst, Bool.or_eq_true, decide_eq_true_eq] at hd
        rcases hd with h | h
        · exact h
        · exact absurd (BitVec.eq_of_toNat_eq h) h0
      rw [if_neg (show ¬ d = 0xF0 from h0), Gang.s_writeSlices _ _ h32 _ _ _ _ hk hi]
      by_cases h1 : i = d.toNat <;> by_cases h2 : s.gang.issuing k = true <;> simp [h0, h1, h2]
  · refine past_of (f := fun g => g.putS d s.gang.issuing x) ?_
    unfold Gang.putS; split <;> rfl
  · rw [State.gang_updGang]
    unfold Gang.putS; split <;> rfl

/-- Only past the word. -/
theorem idleStep_advance (s : State) : s.idleStep s.advance :=
  ⟨past_of (f := id) rfl, sameDevice_updGang s _, by rw [State.advance, State.gang_updGang]; rfl⟩

end Sys2Proof.Machine
end

