-- ==== Sys2Proof/Tests/Slice0.lean ====
section
/-! SUPPORT. The model's own tests: words of every family against the encodings of the spec, ill-formed terms, single steps
with results of the spec, and for each statement a state that meets its hypotheses. -/

set_option Elab.async false

namespace Sys2Proof.Tests
open Sys2Proof Sys2Proof.Machine

/-! ### Words (02 R36 to R38, R44, R45): each literal is the table's match with the operand bits in their places -/

/-- The word decodes to the instruction. -/
def decodesTo (p : Word × Instr) : Bool := match decode p.1 with
  | .ok i => decide (i = p.2)
  | .error _ => false

theorem test_decode_control : ([
    (0x012CFFFE, .br 5 1 0 65534), (0x02000800, .brx 8), (0x03000123, .call 291), (0x04000800, .callx 8),
    (0x05000000, .ret), (0x06000400, .regang 4), (0x07000000, .exit), (0x08000000, .nop), (0x09000000, .yield),
    (0x0A000000, .promo), (0x0A010000, .promoDemote), (0x1004080C, .pand 4 8 12), (0x1104080C, .por 4 8 12),
    (0x1204080C, .pxor 4 8 12), (0x13040800, .pnot 4 8), (0x14040000, .exsave 4), (0x15040801, .exand 4 8 1),
    (0x16000800, .exload 8), (0x17040800, .ballot 4 8), (0x18040801, .vote 4 8 1), (0x19040800, .popc 4 8),
    (0x1A040800, .mpfx 4 8), (0x1B04080C, .shfl 4 8 12), (0x1C048004, .shfli 4 2 4), (0x1D040804, .gred 4 8 4),
    (0x1E040800, .psets 4 8), (0x20020001, .mset 2 1), (0x217A005F, .msetg 7995487), (0x22040000, .mget 4),
    (0x23000800, .msetr 8)
    ] : List (Word × Instr)).all decodesTo = true := by decide
theorem test_decode_control_2 : ([
    (0x24FC0042, .wait 63 0 1 2), (0x2500040C, .waitr 4 12), (0x26030010, .regrow 3 16), (0x27000010, .regshr 16),
    (0x28040000, .flget 4), (0x29000005, .flclr 5)
    ] : List (Word × Instr)).all decodesTo = true := by decide
theorem test_decode_integer : ([
    (0x3004080C, .sadd 4 8 12), (0x3104080C, .ssub 4 8 12), (0x3204080C, .smul 4 8 12), (0x3304080C, .sand 4 8 12),
    (0x3404080C, .sor 4 8 12), (0x3504080C, .sxor 4 8 12), (0x3604080C, .sshl 4 8 12), (0x3704080C, .sshr 4 8 12),
    (0x3804080C, .sslt 4 8 12), (0x39041234, .smovi 4 4660), (0x3A041234, .smovhi 4 4660), (0x3B04080C, .sread 4 8 12),
    (0x4004080C, .iadd 4 8 12), (0x4104080C, .isub 4 8 12), (0x4204080C, .imul 4 8 12), (0x4304080C, .imulh 4 8 12),
    (0x4404080C, .imad 4 8 12), (0x4504080C, .idiv 4 8 12), (0x4604080C, .irem 4 8 12), (0x4704080C, .imin 4 8 12),
    (0x4804080C, .imax 4 8 12), (0x49040800, .iabs 4 8), (0x4A040800, .ineg 4 8), (0x4B04080C, .icmpeq 4 8 12),
    (0x4C04080C, .icmpne 4 8 12), (0x4D04080C, .icmplt 4 8 12), (0x4E04080C, .icmple 4 8 12),
    (0x4F04080C, .isel 4 8 12), (0x50041234, .imovi 4 4660), (0x51041234, .imovhi 4 4660)
    ] : List (Word × Instr)).all decodesTo = true := by decide
theorem test_decode_integer_2 : ([
    (0x52040800, .vbcst 4 8), (0x53041234, .iaddi 4 4660), (0x5404080C, .iaddc 4 8 12), (0x5504080C, .imadw 4 8 12),
    (0x6004080C, .and 4 8 12), (0x6104080C, .or 4 8 12), (0x6204080C, .xor 4 8 12), (0x6304080C, .shl 4 8 12),
    (0x6404080C, .shr 4 8 12), (0x6504080C, .sar 4 8 12), (0x6604080C, .rol 4 8 12), (0x6704080C, .ror 4 8 12),
    (0x68040800, .bcnt 4 8), (0x69040800, .clz 4 8), (0x6A04080C, .bfe 4 8 12), (0x6B04080C, .bfi 4 8 12),
    (0x6C04080C, .lea 4 8 12)
    ] : List (Word × Instr)).all decodesTo = true := by decide
theorem test_decode_float : ([
    (0x7004080C, .cvt 4 8 12), (0x71040800, .cvtpk 4 8), (0x72040800, .unpk 4 8), (0x73040800, .frint 4 8),
    (0x7404080C, .cvtq 4 8 12), (0x7504080C, .cvtdq 4 8 12), (0x8004080C, .fadd 4 8 12), (0x8104080C, .fsub 4 8 12),
    (0x8204080C, .fmul 4 8 12), (0x8304080C, .ffma 4 8 12), (0x8404080C, .ffms 4 8 12), (0x8504080C, .fnma 4 8 12),
    (0x8604080C, .fmin 4 8 12), (0x8704080C, .fmax 4 8 12), (0x88040800, .fabs 4 8), (0x89040800, .fneg 4 8),
    (0x8A040800, .vmov 4 8), (0x8B04080C, .fcmpeq 4 8 12), (0x8C04080C, .fcmplt 4 8 12), (0x8D04080C, .fcmple 4 8 12),
    (0x8E04080C, .fcmpun 4 8 12), (0x8F040800, .fclass 4 8), (0x90040800, .frcp 4 8), (0x91040800, .frsq 4 8),
    (0x92040800, .fsqrt 4 8), (0x9304080C, .fdiv 4 8 12), (0x94040800, .fexp2 4 8), (0x95040800, .flog2 4 8),
    (0x9604080C, .fhadd 4 8 12), (0x9704080C, .fhmul 4 8 12)
    ] : List (Word × Instr)).all decodesTo = true := by decide
theorem test_decode_float_2 : ([
    (0x9804080C, .fhfma 4 8 12), (0x9904080C, .fhmin 4 8 12), (0x9A04080C, .fhmax 4 8 12), (0x9B04080C, .fdot2 4 8 12),
    (0x9C04080C, .fsel 4 8 12), (0x9D04080C, .fscale 4 8 12), (0x9E040800, .fgetexp 4 8),
    (0x9F04080C, .fcopysign 4 8 12)
    ] : List (Word × Instr)).all decodesTo = true := by decide
theorem test_decode_memory : ([
    (0xA0040825, .ldb 4 8 9 1), (0xA1040825, .ldbs 4 8 9 1), (0xA2040825, .ldh 4 8 9 1), (0xA3040825, .ldhs 4 8 9 1),
    (0xA4040825, .ldw 4 8 9 1), (0xA5040825, .ldd 4 8 9 1), (0xA6040825, .ldq 4 8 9 1),
    (0xA7040895, .ldAcq 4 8 4 1 1 1), (0xA8040825, .stb 4 8 9 1), (0xA9040825, .sth 4 8 9 1),
    (0xAA040825, .stw 4 8 9 1), (0xAB040825, .std 4 8 9 1), (0xAC040825, .stq 4 8 9 1),
    (0xAD040895, .stRel 4 8 4 1 1 1), (0xAE010825, .pref 1 8 9 1), (0xAF040800, .pglob 4 8),
    (0xB004088D, .atadd 4 8 4 1 1 1), (0xB104088D, .atfadd 4 8 4 1 1 1), (0xB204088D, .atmin 4 8 4 1 1 1),
    (0xB304088D, .atmax 4 8 4 1 1 1), (0xB404088D, .atand 4 8 4 1 1 1), (0xB504088D, .ator 4 8 4 1 1 1),
    (0xB604088D, .atxor 4 8 4 1 1 1), (0xB704089D, .atxchg 4 8 4 1 1 1 1), (0xB804089D, .atcas 4 8 4 1 1 1 1),
    (0xB9000400, .fenceAcq 4), (0xB9010400, .fenceRel 4), (0xB9020400, .fenceAcqrel 4), (0xB9030400, .fenceSc 4),
    (0xBA000909, .fencePath 9 9)
    ] : List (Word × Instr)).all decodesTo = true := by decide
theorem test_decode_memory_2 : ([
    (0xBB040825, .mwatch 4 8 9 1), (0xBC040800, .mwait 4 8), (0xBD000000, .tick), (0xBE010825, .cmaint 1 8 9 1)
    ] : List (Word × Instr)).all decodesTo = true := by decide
theorem test_decode_barrier : ([
    (0xC000080C, .binit 8 12), (0xC1090800, .barv 9 8), (0xC2000800, .bwait 8), (0xC201080C, .bwaitGen 8 12),
    (0xC3090800, .barw 9 8), (0xC400080C, .baddx 8 12), (0xC401080C, .baddxE 8 12), (0xC500080C, .btest 8 12),
    (0xC501080C, .btestWord1 8 12), (0xC6000800, .ngjoin 8), (0xC6010800, .ngjoinLeave 8), (0xC7090800, .ngarv 9 8)
    ] : List (Word × Instr)).all decodesTo = true := by decide
theorem test_decode_gleaner : ([
    (0xC8000800, .ngwait 8), (0xC801080C, .ngwaitGen 8 12), (0xC802080C, .ngwaitRead 8 12), (0xC900080C, .bsetm 8 12),
    (0xC901080C, .bsetmDevice 8 12), (0xC902080C, .bsetmRoot 8 12), (0xCA39080C, .cpyc 1 1 9 8 12),
    (0xCB00080C, .cpy 8 12), (0xCC00080C, .gath 8 12), (0xCD00080C, .scat 8 12), (0xCE00080C, .mcast 8 12),
    (0xCF00080C, .sclp 8 12), (0xCF01080C, .gqry 8 12), (0xCF02080C, .gcncl 8 12)
    ] : List (Word × Instr)).all decodesTo = true := by decide
theorem test_decode_expand : ([
    (0xD004080C, .expb 4 8 12), (0xD104080C, .expbG 4 8 12), (0xD2040800, .expn 4 8), (0xD3040800, .segr 4 8),
    (0xD4000825, .xsave 8 9 1), (0xD5000825, .xrst 8 9 1), (0xD6040800, .vsort 4 8), (0xD704080C, .vtopk 4 8 12),
    (0xD804080C, .tkmrg 4 8 12), (0xD904080C, .ctopk 4 8 12), (0xDA04080C, .hins 4 8 12), (0xDB04080C, .hacc 4 8 12),
    (0xDC04080C, .hfind 4 8 12), (0xDD00080C, .hinit 8 12)
    ] : List (Word × Instr)).all decodesTo = true := by decide
theorem test_decode_matrix : ([
    (0xE004080C, .talloc 4 8 12), (0xE1000800, .tfree 8), (0xE2000800, .mloop 8), (0xE303080C, .mdrain 1 1 8 12),
    (0xE4000800, .mzero 8), (0xE504080C, .tacc 4 8 12), (0xE6000800, .evset 8), (0xE7000800, .evclr 8),
    (0xE8000800, .evwait 8), (0xE8010800, .evwaitClear 8), (0xE9000800, .mpt 8), (0xEA00080C, .msave 8 12),
    (0xEB00080C, .mrestore 8 12)
    ] : List (Word × Instr)).all decodesTo = true := by decide
theorem test_decode_remote : ([
    (0xF000080C, .rinv 8 12), (0xF100080C, .rinvh 8 12), (0xF2040800, .rwait 4 8), (0xF3040800, .rpoll 4 8),
    (0xF400080C, .rget 8 12), (0xF401080C, .rgetBarn 8 12), (0xF5000800, .rdrop 8), (0xF600080C, .rbind 8 12),
    (0xF700080C, .rput 8 12), (0xF701080C, .rfail 8 12), (0xF702080C, .tcarm 8 12), (0xF703080C, .tcadd 8 12)
    ] : List (Word × Instr)).all decodesTo = true := by decide
theorem test_decode_system : ([
    (0xF8000007, .trap 7), (0xF901080C, .tvec 1 8 12), (0xFA000000, .tret), (0xFA010000, .tretSkip),
    (0xFB000800, .tdone 8), (0xFC200400, .sysrd 32 4), (0xFD200400, .syswr 32 4), (0xFE00080C, .tlbip 8 12),
    (0xFE010800, .tlbia 8), (0xFE020000, .tlball), (0xFE03080C, .fwcall 8 12)
    ] : List (Word × Instr)).all decodesTo = true := by decide

/-! ### Ill-formed terms: one or more for each check of WellFormed -/

theorem test_illformed_operands : ([.iadd 0xF1 0 0, .iadd 0 0xFF 0, .ldd 1 0 0 0, .ldq 2 0 0 0, .ldw 0 0xFE 0 0, .ldw 0 1 0 0,
    .std 1 0 0 0, .stq 2 0 0 0, .vsort 2 0, .rget 0 0xD1, .sadd 32 0 0, .sadd 0 0xF3 0, .sadd 0 0xFB 0,
    .pand 24 0 0, .pand 0 24 0, .pand 0xF1 0 0, .binit 16 0, .brx 1, .brx 0xF0, .tvec 0 1 0, .btest 0 1, .mloop 0xF0,
    .cpyc 0 0 0 2 0, .rbind 0 2, .tlbip 0 2, .tlbip 0 29, .rwait 0 1, .lea 1 0 0, .lea 0 1 0, .expbG 0xF1 0 0, .segr 0xFF 0,
    .atcas 1 0 3 0 0 0 0, .atcas 2 0 3 0 1 1 0, .atadd 1 0 3 1 1 0, .atadd 0xFF 0 3 0 0 0, .ldAcq 1 0 3 0 1 0,
    .sysrd 0x24 1, .syswr 0x24 1] : List Instr).all (fun i => !WellFormed i) = true := by decide

theorem test_illformed_values : ([.br 24 0 0 0, .br 1 0 1 0, .br 0 1 3 0, .vote 0 0 3, .gred 0 0 6, .mset 0 24, .mset 0 64,
    .mset 1 19, .mset 2 5, .mset 3 2, .mset 4 2, .mset 5 2, .mset 6 62, .mset 7 1024, .mset 7 19, .mset 7 0xA0, .msetg 24,
    .msetg 0x4C0, .msetg 0x2800, .msetg 0x7C0000, .msetg 0x7E0000, .waitr 6 0, .regrow 0 0, .regrow 0 4, .regrow 0 240,
    .regshr 12, .cvt 0 0 19, .ldb 0 0 63 0, .ldAcq 0 0 7 0 0 0, .ldAcq 0 0 3 1 0 0, .stRel 0 0 7 0 0 0, .fenceAcq 7,
    .fenceSc 7, .fencePath 0 1, .fencePath 1 0, .cpyc 0 0 1 0 0, .sysrd 8 0, .sysrd 0x31 0, .syswr 0x1F 0] :
    List Instr).all (fun i => !WellFormed i) = true := by decide

/-- The same edges from inside: the last legal value of each. -/
theorem test_wellformed_edges : ([.iadd 0xF0 0xFE 239, .br 23 1 0 0, .vote 0 0 2, .gred 0 0 5, .mset 0 23, .mset 1 18,
    .mset 6 61, .regrow 0 232, .waitr 5 0, .cvt 0 0 18, .ldb 0 0 62 0, .ldAcq 0 0 4 1 0 0, .rget 0 0xD0, .sysrd 0x30 0,
    .ldq 236 0 0 0, .vsort 236 31, .vsort 0xF0 0, .tkmrg 0xFC 31 0, .fwcall 0 0xF0, .binit 15 0xFA, .fencePath 1 1] : List Instr).all WellFormed = true := by decide

/-- Words that no rule assigns, reserved bits and reserved values are rejected by name (02 R46). -/
theorem test_rejected_words : ([(0x00000000, .unassignedOpcode), (0xFFFFFFFF, .unassignedOpcode), (0x0703FFFE, .reservedSubOp),
    (0x06000001, .reservedField), (0x18000003, .reservedValue), (0x40F10000, .illegalOperand)] : List (Word × Reject)).all
    (fun p => match decode p.1 with
      | .ok _ => false
      | .error r => decide (r = p.2)) = true := by decide

/-! ### States for the tests -/

/-- The gang that `placeWord` loads, at its word (log entry 17). -/
def base : State := State.reset.placeWord 0

/-- Every slice holds the MODE image `m`. -/
def moded (s : State) (m : Nat) : State :=
  s.updGang (fun g => { g with regs := { g.regs with mode := (List.range 8).map (fun k => (k, BitVec.ofNat 32 m)) } })

/-- Etype `t`, no guard, every other field at its reset value (02 R50). -/
def typed (t : Nat) : State := moded base (0x7A001F + 64 * t)

/-- Scalar register `r` of every slice holds `x`. -/
def sset (s : State) (r x : Nat) : State := s.updGang (fun g => g.writeSlices r (fun _ => true) (fun _ => BitVec.ofNat 32 x))

/-- Vector register `r` of lane `l` holds `x`. -/
def vset (s : State) (r l x : Nat) : State := s.updGang (fun g => g.setV r l (BitVec.ofNat 32 x))

/-- The lanes of the mask, and no others, are in EXEC. -/
def execd (s : State) (m : Nat) : State := s.updGang (fun g => { g with regs := { g.regs with exec := BitVec.ofNat 32 m } })

/-- Lane 0 alone in EXEC, with the pair v0, v1 at `addr`. -/
def atAddr (s : State) (addr : Nat) : State := vset (vset (execd s 1) 0 0 addr) 1 0 (addr / 2 ^ 32)

/-- Slice 0 is a group of its own. -/
def parted : State := base.updGang (fun g => { g with flow := { g.flow with grp := (List.range 8).map (fun k => (k, min k 1)) } })

/-- Every statement of a list of checks holds. -/
abbrev checks (l : List Bool) : Prop := l.all id = true

/-- The step answers a next state that passes the check. -/
def nextHas (r : Res) (f : State → Bool) : Bool := match r with
  | .next t => f t
  | _ => false

/-! ### States that meet the hypotheses of the statements, at the edges of their ranges -/

theorem test_hyp_codes : encode (.iadd 239 0xFE 0) = some 0x40EFFE00 ∧ WellFormed (.iadd 239 0xFE 0) = true ∧
    decodesTo (0x40EFFE00, .iadd 239 0xFE 0) = true := by decide

/-- The turn at the head of the agenda fetches a word, in the state that passes the check. -/
def fetches (s : State) (f : State → Nat → Word → Bool) : Bool :=
  match ({ s.passTime with agenda := [] } : State).takeSlot 0 0 with
    | some (v, key) => (match (v.focus key).fetch with
      | .word u w => f u key w
      | _ => false)
    | none => false

theorem test_hyp_step : fetches base (fun _ _ w => decide (w = 0)) = true ∧
    fetches (State.reset.placeWord 0x08000000) (fun u key w => decodesTo (w, .nop) && (u.seatOf key).isNone &&
      nextHas (exec .nop u) (fun t => (t.seatOf key).isNone &&
        (mapFind (t.gangAt key).flow.served (t.gangAt key).flow.blocks).isNone)) = true ∧
    base.passTime.agenda = [.issue 0 0] ∧ base.passTime.power.shutdown = false ∧ base.passTime.bootFailed = false ∧
    base.passTime.power.clockStopped = false := by decide

theorem test_hyp_events : (∀ ts n, ({ State.reset with agenda := n :: ts } : State).passTime.agenda = n :: ts) ∧
    State.reset.passTime.power.shutdown = false ∧ State.reset.passTime.bootFailed = false ∧
    State.reset.passTime.power.clockStopped = false ∧ Turn.clockless (.event .clockSwitchEnd) = true ∧
    Turn.clockless (.issue 0 0) = false ∧ Turn.reachesLoader (.event (.deviceReset 0 true)) = true ∧
    Turn.reachesLoader (.event .gtAdvance) = false ∧
    ({ State.reset with bootFailed := true } : State).passTime.bootFailed = true ∧
    ({ State.reset with power := { State.reset.power with clockStopped := true } } : State).passTime.power.clockStopped = true ∧
    ({ State.reset with power := { State.reset.power with shutdown := true } } : State).passTime.power.shutdown = true :=
  ⟨fun _ _ => rfl, by decide⟩

theorem test_hyp_inv : State.reset.Inv ∧ ∃ t, step { State.reset with agenda := [.event .gtAdvance] } = .next t := ⟨rfl, _, rfl⟩

theorem test_hyp_scalar : [fieldsS 31 0 0xF0, fixedOps [.sw 32 31], fixedOps [.sw 32 0xF0, .vr 32 239, .sr 32 31],
    fixedOps [.sw 32 0, .pr 23]].all base.issues = true := by decide

theorem test_hyp_predicate : checks ([fixedOps [.pw 23, .pr 0xF1, .pr 0xF0], fixedOps [.pw 0xF0, .pr 23],
    fixedOps [.pw 0, .sr 32 31]].map base.issues ++ [(typed 10).issues (fieldsP wideTypes 23 239 0xFE),
    (typed 9).issues (fieldsP wideTypes 23 238 0xFD)]) := by decide

theorem test_hyp_element : checks ([9, 10, 11, 12, 13, 14, 15, 16].map (fun t => (typed t).issues (fields3 intTypes 238 0 0xF0) &&
    (typed t).issues (fields3x intTypes 0xF0 238 2) && (typed t).issues (fields2 intTypes 238 0xF0) &&
    (typed t).issues (etypeOps intTypes (fun t => [.vx (vwidth t) 238]))) ++ [10, 11, 12, 14, 15, 16].map (fun t =>
    (typed t).issues (etypeOps imadwTypes (fun t => [.vx (vwidth (imadwAcc t)) 238, .vr 32 239, .vr 32 0])))) := by decide

theorem test_hyp_bits : checks [(typed 0).issues (fields3 (fun _ => true) 238 0 0xF0), base.issues (fields3 (fun _ => true) 239 1 3),
    (typed 9).issues (fields3 intTypes 238 0 0), (typed 16).issues (fields2 intTypes 239 239),
    (typed 9).issues (etypeOps wideTypes (fun t => [.vw (vwidth t) 238, .vr (vwidth t) 0, .vr 32 239])),
    (typed 10).issues (etypeOps wideTypes (fun t => [.vx (vwidth t) 239, .vr (vwidth t) 1, .vr 32 239])),
    (typed 12).issues (etypeOps leaTypes (fun _ => [.vw 64 238, .vr 64 0xF0, .vr 32 239]))] := by decide

theorem test_hyp_moves : checks [base.issues (fixedOps [.vw 32 239]), base.issues (fixedOps [.vx 32 239]),
    (typed 0).issues (etypeOps (fun _ => true) (fun t => [.vw (vwidth t) 238, .sr (vwidth t) 30])),
    base.issues (fields2 (fun _ => true) 239 0xFE), (typed 9).issues (fields3 intTypes 238 0 0), base.issues (fields3 signTypes 239 0 0),
    base.issues (fixedOps [.vw 32 239, .pr 23]), base.gang.sameMode modeEtype,
    base.issues (etypeOps (fun _ => true) (fun t => [.vw (vwidth t) 239, .vr (vwidth t) 0, .vr 32 0])),
    (typed 0).issues (etypeOps (fun _ => true) (fun t => [.vx (vwidth t) 238]))] := by decide

theorem test_hyp_division : zeroDivisors (typed 10) 0xF1 = 0 ∧ zeroDivisors (typed 10) 0xF0 ≠ 0 ∧
    (typed 10).issues (fields3 intTypes 239 0 0xF0) = true ∧ (typed 10).issues (fields3 intTypes 239 0 0xF1) = true ∧
    (typed 9).issues (fields3 wideTypes 238 0 2) = true ∧ (typed 9).execLane 31 = true := by decide

theorem test_hyp_float : checks ([0, 1].map (fun t => (typed t).issues (fields3 dblTypes 238 0 0xF0) &&
    (typed t).issues (fields3x dblTypes 238 0 2) && (typed t).issues (fields2 dblTypes 238 0) &&
    (typed t).issues (etypeOps dblTypes (fun t => [.vw (vwidth t) 238, .vr (vwidth t) 0, .vr 32 239]))) ++
    [2, 3].map (fun t => (typed t).issues (fieldsH 239 0 0xF0) && (typed t).issues (fieldsHx 239 0 1)) ++
    [(typed 0).issues (fields2 signTypes 238 0), (typed 3).issues (fields3 signTypes 239 0 1),
      (typed 0).issues (etypeOps signTypes (fun t => [.vw 32 239, .vr (vwidth t) 238]))] ++
    [decide ((typed 1).gang.trapping (fun _ => 31) = 0)]) := by decide

theorem test_hyp_convert : checks [(typed 0).issues (fieldsP dblTypes 23 238 0xF0),
    (typed 18).issues (etypeOps (fun _ => true) (fun t => [.vw (vwidth t) 239, .vr (vwidth 9) 238])),
    (typed 4).issues (etypeOps packTypes (fun t => [.vw 32 239, .vg (elemCount t) (elemCount t) true false true 236])),
    (typed 4).issues (etypeOps packTypes (fun t => [.vw 32 239, .vg (elemCount t) (elemCount t) true false true 0, .vr 64 238])),
    (typed 4).issues (etypeOps packTypes (fun t => [.vg (elemCount t) (elemCount t) false true true 236, .vr 32 239])),
    (typed 4).issues (etypeOps packTypes (fun t => [.vg (elemCount t) (elemCount t) false true true 0, .vr 32 239, .vr 64 238])),
    base.gang.sameMode modeEtype, base.gang.sameMode modeRound, base.gang.sameMode (fun m => toNat01 (modeSat m)),
    base.gang.sameMode (fun m => toNat01 (modeFtz m)), (typed 1).issues (etypeOps (gredTypes 0) (fun t => [.vw (vwidth t) 239, .vr (vwidth t) 0])),
    (typed 9).issues (etypeOps (gredTypes 5) (fun t => [.vw (vwidth t) 238, .vr (vwidth t) 0])),
    (execd base 0).gang.activeList = [], base.gang.activeList = List.range 32] := by decide

/-- A property of every issuing slice, from a check of the eight slices. -/
theorem slices (g : Gang) (P : Nat → Prop) [DecidablePred P]
    (h : (List.range 8).all (fun k => !g.issuing k || decide (P k)) = true) : ∀ k, g.issuing k = true → P k := by
  intro k hk
  have h8 : k < 8 := by simp only [Gang.issuing, Bool.and_eq_true, decide_eq_true_eq] at hk; exact hk.1.1
  have := (List.all_eq_true.mp h) k (List.mem_range.mpr h8)
  simpa [hk] using this

/-- A property of every active lane, from a check of the 32 lanes. -/
theorem lanes (g : Gang) (P : Nat → Prop) [DecidablePred P]
    (h : (List.range 32).all (fun k => !g.active k || decide (P k)) = true) : ∀ k, g.active k = true → P k := by
  intro k hk
  have h8 : k < 32 := by simp only [Gang.active, Bool.and_eq_true, decide_eq_true_eq] at hk; exact hk.1.1.1
  have := (List.all_eq_true.mp h) k (List.mem_range.mpr h8)
  simpa [hk] using this

/-- The state of a division of 1 by 0 under MODE.fpx (06 R152). -/
def trapping : State := moded base (0x7A001F + 64 + 2 ^ 16)

theorem test_hyp_floatTrap : trapping.issues (fields3 dblTypes 239 0xF1 0xF0) = true ∧
    trapping.gang.trapping (fun l => (laneOp trapping .div 239 0xF1 0xF0 l).2) ≠ 0 := by decide

/-- The lanes of `s` raise flags `fl` that trap, and the word's fields are ready. -/
def trapsWith (s : State) (f : OpndsOf) (fl : Nat → Nat) : Bool := s.issues f && decide (s.gang.trapping fl ≠ 0)

/-- Under MODE.fpx and etype `t`, v5 and v6 of lane 0 hold these values. -/
def fpx (t x y : Nat) : State := vset (vset (moded base (0x7A001F + 64 * t + 2 ^ 16)) 5 0 x) 6 0 y

/-- A signalling NaN makes every word with a float source trap, and so does what overflows in a conversion (06 R150 to R152). -/
theorem test_hyp_floatTraps : checks (
    (let s := fpx 1 0x7F800001 0x7F800001
     [.add, .sub, .mul, .div, .min, .max].map (fun op => trapsWith s (fields3 dblTypes 239 5 6) (fun l => (laneOp s op 239 5 6 l).2)) ++
     [.fma, .fms, .nma].map (fun op => trapsWith s (fields3x dblTypes 239 5 6) (fun l => (laneOp s op 239 5 6 l).2)) ++
     [FUn.rcp, .rsq, .sqrt, .exp2, .log2, .getexp, .rint].map (fun op => trapsWith s (fields2 dblTypes 239 5) (fun l => (laneUn s op 5 l).2)) ++
     [0, 1, 2, 3].map (fun k => trapsWith s (fieldsP dblTypes 23 5 6) (fun l => (laneCmp s k 5 6 l).2)) ++
     [trapsWith s (fieldsScale 239 5 6) (fun l => (laneScale s 5 6 l).2), trapsWith s (fieldsCvt 239 5 1) (fun l => (laneCvt s 5 1 l).2),
      decide (s.gang.activeList = 0 :: (List.range 31).map (· + 1)) &&
        trapsWith s (fieldsGred 239 5 0) (flagsIn (s.gredOf 5 0 0 ((List.range 31).map (· + 1))).2)]) ++
    (let s := fpx 2 0x7F817F81 0x7F817F81
     [.add, .mul, .min, .max].map (fun op => trapsWith s (fieldsH 239 5 6) (fun l => (halves (halfOp s op 239 5 6) l).2)) ++
     [trapsWith s (fieldsHx 239 5 6) (fun l => (halves (halfOp s .fma 239 5 6) l).2),
      trapsWith s (fieldsHx 239 5 6) (fun l => (laneDot s 239 5 6 l).2),
      trapsWith s (fieldsUnpack 238 5) (s.unpackFlags (elemUnpack s 5)),
      trapsWith s (fieldsDequant 238 5 6) (s.unpackFlags (elemDequant s 5 6)),
      (let s := vset s 8 0 0x7F800001
       trapsWith s (fieldsPack 239 8) (fun l => (lanePack s 8 l).2) && trapsWith s (fieldsQuant 239 8 6) (fun l => (laneQuant s 8 6 l).2))])) := by
  decide +kernel

theorem test_hyp_branches : base.issues (fixedOps [.so 64 30]) = true ∧
    (∀ k, base.gang.issuing k = true → (base.ssrc64 30 k).toNat < 2 ^ 56 ∧ (base.ssrc64 30 k).toNat % 4 = 0) :=
  ⟨by decide, slices _ _ (by decide)⟩

theorem test_hyp_badTarget : (sset base 30 2).issues (fixedOps [.so 64 30]) = true ∧
    (sset base 30 2).gang.issuingList.find? (fun k => badTarget ((sset base 30 2).ssrc64 30 k)) = some 0 ∧
    (sset base 30 2).gang.issuingList.head? = some 0 := by decide

/-- Every slice's hardware stack holds `n` entries, with `g` groups spilled. -/
def stacked (n g : Nat) : State := base.updGang (fun x => { x with flow := { x.flow with
  rst := (List.range 8).map (fun k => (k, { entries := List.replicate n 0x10000, spilled := g })) } })

theorem test_hyp_calls : (∀ k, (stacked 7 0).gang.issuing k = true → ((stacked 7 0).gang.rst k).entries.length < 8) ∧
    (stacked 7 0).gang.pcNow.toNat % 4 = 0 ∧ (stacked 7 0).issues (fixedOps [.so 64 0]) = true ∧
    (∀ k, (stacked 7 0).gang.issuing k = true → ((stacked 7 0).gang.rst k).entries.length < 8 ∧
      badTarget ((stacked 7 0).ssrc64 0 k) = false) ∧
    (∀ k, (stacked 1 0).gang.issuing k = true → ((stacked 1 0).gang.rst k).entries ≠ [] ∧
      badTarget (((stacked 1 0).gang.rst k).entries.getLastD 0) = false) :=
  ⟨slices _ _ (by decide), by decide, by decide, slices _ _ (by decide), slices _ _ (by decide)⟩

/-- The spills of a call, slice by slice. -/
def spillAll (s0 : State) : List Nat → State → Option State
  | [], s => some s
  | k :: ks, s =>
    if (s0.gang.rst k).entries.length < 8 then spillAll s0 ks s
    else match s.gangStoreRun s0.gang.core s0.gang.wid s0.wg.part s0.wg.pasid 61
        [(((s0.gang.rst k).entries.take 4).map (fun e => bytesLE 8 e.toNat)).flatten] (s0.spillAt k (s0.gang.rst k).spilled) with
      | .ok m => spillAll s0 ks m
      | .error _ => none

theorem spilled_of {s0 u : State} : ∀ (ks : List Nat) (s : State), spillAll s0 ks s = some u → s0.spilledTo u ks s
  | [], s, h => by simpa [spillAll, State.spilledTo, eq_comm] using h
  | k :: ks, s, h => by
    simp only [spillAll] at h
    simp only [State.spilledTo]
    split at h
    next hk => rw [if_pos hk]; exact spilled_of ks s h
    next hk =>
      split at h
      next m hm => rw [if_neg hk]; exact ⟨m, hm, spilled_of ks m h⟩
      next => exact absurd h (by simp)

/-- Its refills in a ret: the state, and what each slice pops. -/
def refillAll (s0 : State) : List Nat → State → Option (State × List (Nat × RetStack))
  | [], s => some (s, [])
  | k :: ks, s =>
    if (s0.gang.rst k).entries ≠ [] then (refillAll s0 ks s).map (fun r => (r.1, (k, s0.gang.rst k) :: r.2))
    else match s.gangLoadRun s0.gang.core s0.gang.wid s0.wg.part s0.wg.pasid 61 [32] (s0.spillAt k ((s0.gang.rst k).spilled - 1)) with
      | .ok (m, bs) => (refillAll s0 ks m).map (fun r => (r.1,
        (k, { entries := (List.range 4).map (fun i => BitVec.ofNat 64 (ofBytesLE ((bs.drop (8 * i)).take 8)))
              spilled := (s0.gang.rst k).spilled - 1 }) :: r.2))
      | .error _ => none

theorem refilled_of {s0 u : State} {x : Nat → RetStack} : ∀ (ks : List Nat) (s : State) (xs : List (Nat × RetStack)),
    refillAll s0 ks s = some (u, xs) → (∀ p ∈ xs, x p.1 = p.2) → s0.refilledTo u x ks s
  | [], s, xs, h, _ => by
    simp only [refillAll, Option.some.injEq, Prod.mk.injEq] at h
    simpa [State.refilledTo] using h.1.symm
  | k :: ks, s, xs, h, hx => by
    simp only [refillAll] at h
    simp only [State.refilledTo]
    split at h
    next hk =>
      obtain ⟨r, hr, he⟩ := Option.map_eq_some_iff.mp h
      obtain ⟨rfl, rfl⟩ := Prod.mk.inj he
      rw [if_pos hk]
      exact ⟨hx _ (List.mem_cons_self ..), refilled_of ks s r.2 hr (fun p hp => hx p (List.mem_cons_of_mem _ hp))⟩
    next hk =>
      rw [if_neg hk]
      split at h
      next m bs hm =>
        obtain ⟨r, hr, he⟩ := Option.map_eq_some_iff.mp h
        obtain ⟨rfl, rfl⟩ := Prod.mk.inj he
        exact ⟨m, bs, hm, hx _ (List.mem_cons_self ..), refilled_of ks m r.2 hr (fun p hp => hx p (List.mem_cons_of_mem _ hp))⟩
      next => exact absurd h (by simp)

/-- The 1 GiB page 0 is mapped to itself for PASID 1. -/
def paged (s : State) : State :=
  (((s.writeHomeNum 8 2 0x1001).writeHomeNum 0x1000 2 0x2001).writeHomeNum 0x2000 2 0x3001).writeHomeNum 0x3000 1 0x1F

/-- A full hardware stack, and an empty one with a spilled group, over mapped slots. -/
def full : State := paged (stacked 8 0)
@[inherit_doc full]
def empty : State := paged (stacked 0 1)

theorem test_hyp_spillRefill : (∃ u, full.spilledTo u full.gang.issuingList full) ∧
    (∀ k, full.gang.issuing k = true → 8 ≤ (full.gang.rst k).entries.length ∧ (full.gang.rst k).spilled < 32 ∧
      full.lateOnRun (full.spillAt k (full.gang.rst k).spilled) 32 .write = [] ∧ badTarget (full.ssrc64 0 k) = false) ∧
    full.gang.pcNow.toNat % 4 = 0 ∧ full.issues (fixedOps [.so 64 0]) = true ∧
    ∃ u x, empty.refilledTo u x empty.gang.issuingList empty ∧
      ∀ k, empty.gang.issuing k = true → badTarget ((x k).entries.getLastD 0) = false ∧ ((empty.gang.rst k).entries = [] →
        0 < (empty.gang.rst k).spilled ∧ empty.lateOnRun (empty.spillAt k ((empty.gang.rst k).spilled - 1)) 32 .read = []) := by
  have hs : (spillAll full full.gang.issuingList full).isSome = true := by decide +kernel
  obtain ⟨u, hu⟩ := Option.isSome_iff_exists.mp hs
  have hr : (refillAll empty empty.gang.issuingList empty).isSome = true := by decide +kernel
  obtain ⟨⟨v, xs⟩, hv⟩ := Option.isSome_iff_exists.mp hr
  have hx : ((refillAll empty empty.gang.issuingList empty).map (·.2)) =
      some ((List.range 8).map (fun k => (k, { entries := [0, 0, 0, 0], spilled := 0 }))) := by decide +kernel
  rw [hv] at hx
  obtain rfl : xs = (List.range 8).map (fun k => (k, { entries := [0, 0, 0, 0], spilled := 0 })) := by simpa using hx
  refine ⟨⟨u, spilled_of _ _ hu⟩, slices _ _ (by decide +kernel), by decide, by decide, v, fun _ => { entries := [0, 0, 0, 0], spilled := 0 },
    refilled_of _ _ _ hv ?_, slices _ _ (by decide +kernel)⟩
  intro p hp
  simp only [List.mem_map] at hp
  obtain ⟨_, _, rfl⟩ := hp
  rfl

theorem test_hyp_stackLimits : (stacked 8 32).gang.issuingList.head? = some 0 ∧ (stacked 8 32).gang.pcNow.toNat % 4 = 0 ∧
    8 ≤ ((stacked 8 32).gang.rst 0).entries.length ∧ 32 ≤ ((stacked 8 32).gang.rst 0).spilled ∧
    (base.gang.rst 0).entries = [] ∧ (base.gang.rst 0).spilled = 0 := by decide

/-- Slices 1 to 7 wait elsewhere for every slice. -/
def crossed : State := parted.updGang (fun g => { g with flow := { g.flow with
  pc := (List.range 8).map (fun k => (k, if k = 0 then 0x10000 else 0x20000)), waiting := 0xFE } })

theorem test_hyp_regang : (base.gang.waitHere 0xFF).mergesAt base.gang.pcNow = true ∧
    (parted.gang.waitHere 0xFF).mergesAt parted.gang.pcNow = false ∧ (parted.gang.waitHere 0xFF).regangDead = false ∧
    base.gang.reports = [] ∧ base.gang.exitHere.regangDead = false ∧
    (crossed.gang.waitHere 0).mergesAt crossed.gang.pcNow = false ∧ (crossed.gang.waitHere 0).regangDead = true := by decide

theorem test_hyp_hints : base.gang.locks = [] ∧
    (base.updGang (fun g => { g with locks := [{ addr := 8, space := 0, since := 0 }] })).gang.locks ≠ [] := by decide

theorem test_hyp_masks : checks [base.issues (fixedOps [.sw 32 31, .pr 23]), base.issues (fixedOps [.sr 32 31]),
    msetImageOk 6 61, modeImageOk 0x7A005F, (sset base 31 0x7A005F).issues (fixedOps [.sr 32 31]),
    (sset base 31 0x7A005F).gang.allIssuing (fun k => modeImageOk (((sset base 31 0x7A005F).ssrc 31 k).setWidth 23))] := by decide

/-- Two loads are outstanding. -/
def loading : State := base.updGang (fun g => { g with out := [{ path := 0, id := 1, perf := false, done := false, seq := 1, pc := 0x10000 },
  { path := 0, id := 2, perf := false, done := false, seq := 2, pc := 0x10004 }] })

theorem test_hyp_waits : base.gang.reports = [] ∧ (∀ p, p < 4 → waitNumber 63 0 1 2 p = 63 ∨ loading.gang.counter p ≤ waitNumber 63 0 1 2 p) ∧
    waitNumber 1 0 0 0 0 < loading.gang.counter 0 ∧ (sset loading 31 1).issues (fixedOps [.sr 32 31]) = true ∧
    ((sset loading 31 1).sarg 31).toNat < 63 ∧ ((sset loading 31 1).sarg 31).toNat < (sset loading 31 1).gang.counter 0 ∧
    (sset loading 31 2).gang.counter 0 ≤ ((sset loading 31 2).sarg 31).toNat := by decide

/-- The gang holds 8 registers. -/
def small : State := base.updGang (fun g => { g with alloc := 8 })

/-- Another gang of its lane group waits for rows. -/
def behind : State := small.setGangAt 1 { small.gang with num := 1, flow := { small.gang.flow with blocks := [(0, .regrow 23 8 0)] } }

theorem test_hyp_allocation : allocStepOk 232 = true ∧ small.issues (fixedOps [.pw 23]) = true ∧ small.gang.whole = true ∧
    small.gang.alloc + 232 ≤ 240 ∧ 232 ≤ (small.leaveSeat small.cur).freeRows small.gang.core small.gang.lg ∧
    (((small.leaveSeat small.cur).requests small.gang.core small.gang.lg).any (fun r => decide (r.2.1 ≠ small.cur))) = false ∧
    small.gang.alloc + 8 ≤ 240 ∧ (behind.leaveSeat behind.cur).requests 0 0 ≠ [] ∧
    ((behind.leaveSeat behind.cur).requests behind.gang.core behind.gang.lg).any (fun r => decide (r.2.1 ≠ behind.cur)) = true ∧
    behind.issues (fixedOps [.pw 23]) = true ∧ behind.gang.whole = true ∧ behind.gang.alloc + 8 ≤ 240 ∧
    240 < base.gang.alloc + 8 ∧ 232 + 8 ≤ base.gang.alloc ∧ base.gang.whole = true := by decide

/-! Memory -/

/-- The check behind `reaches`. -/
def reachesB (s : State) (f : Form) (a : Code) (before : State → State) : Bool :=
  let r := (translateLanes f (s.lanePlaces f a) (before (s.countMem f))).2
  (s.gang.heldBy f.paths).isEmpty && (s.placeFault f s.gang.memLanes (s.vsrc64 a)).isNone && (decide (f.sp = 2) || decide (s.gang.counter f.path < 63)) &&
    r.faults.isEmpty && (s.gang.lateOn r.ok).isEmpty

theorem reaches_of {s : State} {f : Form} {a : Code} {before : State → State} (h : reachesB s f a before = true) :
    s.reaches f a before := by
  simp only [reachesB, Bool.and_eq_true, List.isEmpty_iff, Option.isNone_iff_eq_none, Bool.or_eq_true, decide_eq_true_eq] at h
  exact ⟨h.1.1.1.1, h.1.1.1.2, h.1.1.2, h.1.2, h.2⟩

theorem lanesAt_of {s : State} {f : Form} {a : Code} {ts : List (Nat × Target)} (hm : s.gang.memLanes = ts.map (·.1))
    (hr : reachesB s f a id = true) (ho : (translateLanes f (s.lanePlaces f a) (s.countMem f)).2.ok = ts)
    (hf : (translateLanes f (s.lanePlaces f a) (s.countMem f)).2.faults = []) :
    s.lanesAt f a (translateLanes f (s.lanePlaces f a) (s.countMem f)).1 ts := by
  refine ⟨hm, reaches_of hr, ?_⟩
  rw [← ho, ← hf]

theorem laneAt_of {s : State} {f : Form} {a : Code} {l : Nat} {t : Target} (hm : s.gang.memLanes = [l])
    (hr : reachesB s f a id = true) (ho : (translateLanes f (s.lanePlaces f a) (s.countMem f)).2.ok = [(l, t)])
    (hf : (translateLanes f (s.lanePlaces f a) (s.countMem f)).2.faults = []) :
    s.laneAt f a l (translateLanes f (s.lanePlaces f a) (s.countMem f)).1 t := lanesAt_of hm hr ho hf

/-- Nothing on other cores has to perform before the word (08 R224). -/
def pushesNothing (s : State) (f : Form) (a : Code) (e : Effect) : Bool :=
  (e.push s (translateLanes f (s.lanePlaces f a) (e.before (s.countMem f))).2.ok).isEmpty

/-- The last 16 bytes of the mapped page's first line, by lane 0. -/
def atLine : State := atAddr base 0x10070

/-- What the mapped page leaves with a line: it may be written, and its number is 1. -/
def page0 : Page := { w := true, va := 1 }

/-- A tile of handle 0 with one granule. -/
def tile0 : Tile := { rows := 1, rowBytes := 128, level := 0, granules := [0] }

/-- Lane 0 names the last word of that tile. -/
def atTile : State := (atAddr base 31).setWgAt 0 { base.wgAt 0 with tiles := [(0, tile0)] }

/-- Two earlier loads are outstanding there, or a store to another device. -/
def atLineLoading : State := atLine.updGang (fun g => { g with out := loading.gang.out })
def atLineStoring : State := atLine.updGang (fun g => { g with out := loading.gang.out.map (fun o => { o with path := 1 }) })

theorem test_hyp_loads : atLine.pace = .now ∧ [1, 2, 4, 8, 16].all (fun n => atLine.issues (fixedOps [.vw (max 32 (8 * n)) 236, .vr 64 0]) &&
      atLine.issues (fixedOps [.vr (max 32 (8 * n)) 236, .vr 64 0])) = true ∧
    atLine.reaches { acc := .read, size := 16, sp := 0, path := 0 } 0 id ∧
    atLine.reaches { acc := .write, size := 16, sp := 0, path := 1 } 0 id ∧
    checks [pushesNothing atLine { acc := .read, size := 16, sp := 0, path := 0 } 0 (pacedLoad .now 236 16 false (atLine.gang.nuCode 0)),
      pushesNothing atLine { acc := .write, size := 16, sp := 0, path := 1 } 0 (pacedStore .now 16 (atLine.gang.nuCode 0) (fun _ => 0))] :=
  ⟨by decide, by decide, reaches_of (by decide), reaches_of (by decide), by decide⟩

theorem test_hyp_loaded : (∃ u, atLine.laneAt { acc := .read, size := 16, sp := 0, path := 0 } 0 0 u (.mem 0x10070 page0)) ∧
    0x10070 % 128 + 16 ≤ 128 ∧
    (∃ u, atTile.laneAt { acc := .read, size := 4, sp := 2, path := 0 } 0 0 u (.tile 0 tile0 124)) :=
  ⟨⟨_, laneAt_of (by decide) (by decide) (by decide) (by decide)⟩, by decide,
    ⟨_, laneAt_of (by decide) (by decide) (by decide) (by decide)⟩⟩

theorem test_hyp_stored : ∃ u, atLine.laneAt { acc := .write, size := 16, sp := 0, path := 1 } 0 0 u (.mem 0x10070 page0) ∧
    u.roomFor atLine.gang.core 0x10070 :=
  ⟨_, laneAt_of (by decide) (by decide) (by decide) (by decide), .inr (by decide)⟩

theorem test_hyp_barnStore : tile0.granules.Nodup ∧ 124 + 4 ≤ tile0.granules.length * 128 ∧ tile0.level = 0 ∧
    atTile.issues (fixedOps [.vr 32 239, .vr 64 0]) = true ∧
    ∃ u, atTile.laneAt { acc := .write, size := 4, sp := 2, path := 1 } 0 0 u (.tile 0 tile0 124) :=
  ⟨by decide, by decide, by decide, by decide, _, laneAt_of (by decide) (by decide) (by decide) (by decide)⟩

theorem test_hyp_ordered : (atLine.issues (fixedOps [.vw 64 238, .vr 64 0]) = true ∧ atLine.gang.releaseReport 4 = none ∧
      atLine.releasesNow 4 = true) ∧ atLine.reaches (orderedForm .read 1 0 0) 0 id ∧
    atLine.reaches (orderedForm .write 1 0 1) 0 (fun q => q.releaseActs q.gang.core 4) ∧
    atLineLoading.reaches (orderedForm .write 0 0 1) 0 id ∧
    atLineLoading.issues (fixedOps [.vr 32 238, .vr 64 0]) = true ∧ atLineLoading.releasesNow 4 = false ∧
    atLineStoring.issues (fixedOps [.vr 32 238, .vr 64 0]) = true ∧ atLineStoring.gang.releaseReport 6 = none ∧
    atLineStoring.releasesNow 6 = false ∧ atLineStoring.reaches (orderedForm .write 1 0 1) 0 id ∧
    checks [pushesNothing atLine (orderedForm .read 1 0 0) 0 (acquireEffect 238 8 4 false (atLine.gang.nuCode 62)),
      pushesNothing atLine (orderedForm .write 1 0 1) 0 { releaseEffect 8 4 (atLine.gang.nuCode 62) (fun _ => 0) with before := fun q => q.releaseActs q.gang.core 4 },
      pushesNothing atLineLoading (orderedForm .write 0 0 1) 0 { releaseEffect 4 4 (atLine.gang.nuCode 62) (fun _ => 0) with now := false }] :=
  ⟨by decide, reaches_of (by decide), reaches_of (by decide), reaches_of (by decide), by decide, by decide, by decide, by decide,
    by decide, reaches_of (by decide), by decide⟩

/-- Lane 0 of a state of etype i32, at the mapped page. -/
def atInt : State := moded atLine (0x7A001F + 640)

/-- Lanes 0 and 1 of it name one location. -/
def atBoth : State := vset (vset (execd atInt 3) 0 1 0x10070) 1 1 0

/-- They name one word of the tile instead. -/
def bothTile : State := (vset (vset atBoth 0 0 31) 0 1 31).setWgAt 0 { base.wgAt 0 with tiles := [(0, tile0)] }

/-- A page of device 1. -/
def farEntry : TlbEntry :=
  { pasid := 1, bits := 16, vpn := 2, base := 2 ^ 40 + 0x10000, r := true, w := true, x := true, d := true, leafW := true }

/-- They name one word of it. -/
def bothFar : State :=
  (vset (vset atBoth 0 0 0x20070) 0 1 0x20070).updCore 0 (fun c => { c with tlb := farEntry :: c.tlb })

/-- What the far page leaves with a line. -/
def pageFar : Page := { w := true, va := 2 }

theorem test_hyp_atomics : atBoth.gang.memLanes = [0, 1] ∧
    [0, 1].all (fun r => [0, 1].all (fun w => (atomicWords 236 0 4 1 r w 0).all (fun p => atBoth.issues p.2.2.2))) = true ∧
    casDataOk true true 236 = true ∧
    (∃ u, atBoth.lanesAt (orderedForm .atomic 1 0 0) 0 u ([0, 1].map (fun k => (k, .mem 0x10070 page0))) ∧
      u.roomFor atBoth.gang.core 0x10070) ∧
    (∃ u, atBoth.lanesAt (orderedForm .atomic 0 0 1) 0 u ([0, 1].map (fun k => (k, .mem 0x10070 page0)))) ∧
    (∃ u, bothTile.lanesAt (orderedForm .atomic 0 2 0) 0 u ([0, 1].map (fun k => (k, .tile 0 tile0 124)))) ∧
    (∃ u, bothFar.lanesAt (orderedForm .atomic 1 0 0) 0 u ([0, 1].map (fun k => (k, .remote (2 ^ 40 + 0x10070) pageFar)))) ∧
    checks ([(atBoth, 0), (bothTile, 2), (bothFar, 0)].map (fun p => pushesNothing p.1 (orderedForm .atomic 0 p.2 0) 0
      (p.1.atomEffect .xchg 236 0 4 4 true true p.2.toNat) && p.1.issues (etypeOps anyType (fun _ => [.vx 32 236, .vr 64 0])))) :=
  ⟨by decide, by decide, by decide, ⟨_, lanesAt_of (by decide) (by decide) (by decide) (by decide), .inr (by decide)⟩,
    ⟨_, lanesAt_of (by decide) (by decide) (by decide) (by decide)⟩, ⟨_, lanesAt_of (by decide) (by decide) (by decide) (by decide)⟩,
    ⟨_, lanesAt_of (by decide) (by decide) (by decide) (by decide)⟩, by decide⟩

/-- Each fault of a memory word, in space 0, in space 1, and each of a tile's in the spaces 2 and 3, is the first to be met
by lane 0 alone. -/
theorem test_hyp_addressFaults : checks ([0, 1].map (fun (sp : Nat) => decide ((atAddr base 1).gang.heldBy 1 = []) &&
      (atAddr base 1).issues (fixedOps [.vw 32 239, .vr 64 0]) && decide (sp < 2) &&
      decide ((atAddr base 1).gang.memLanes.filter (fun l => decide (((atAddr base 1).vsrc64 0 l).toNat % 4 ≠ 0)) = [0])) ++
    [(let s := atAddr base (2 ^ 56)
      decide (∀ k ∈ s.gang.memLanes, (s.vsrc64 0 k).toNat % 4 = 0) &&
        decide (s.gang.memLanes.filter (fun l => decide (2 ^ 56 ≤ (s.vsrc64 0 l).toNat)) = [0])),
      (let s := atAddr base (255 * 2 ^ 48 + 1024)
       decide (∀ k ∈ s.gang.memLanes, (s.vsrc64 0 k).toNat % 4 = 0 ∧ (s.vsrc64 0 k).toNat < 2 ^ 56) &&
        decide (s.gang.memLanes.filter (fun l => inAperture (s.vsrc64 0 l).toNat && !(inAperture (s.vsrc64 0 l).toNat &&
          decide ((s.vsrc64 0 l).toNat % 2 ^ 48 + 4 ≤ s.wg.z))) = [0])),
      (let s := atAddr base 0x10000
       decide (∀ k ∈ s.gang.memLanes, (s.vsrc64 0 k).toNat % 4 = 0) &&
        decide (s.gang.memLanes.filter (fun l => !(decide ((s.vsrc64 0 l).toNat < 2 ^ 56) && (inAperture (s.vsrc64 0 l).toNat &&
          decide ((s.vsrc64 0 l).toNat % 2 ^ 48 + 4 ≤ s.wg.z)))) = [0])),
      decide (atTile.tileFault 2 4 31 = none), decide (atTile.tileFault 2 4 32 = some (2, 0)),
      decide (atTile.tileFault 2 4 (63 * 2 ^ 32) = some (0, 63)), decide (atTile.tileFault 2 4 (64 * 2 ^ 32) = some (5, 0)),
      decide (atTile.tileFault 3 4 (31 * 2 ^ 40) = some (3, 0)), decide (atTile.tileFault 3 4 (8192 * 2 ^ 32) = some (5, 0)),
      decide ((atTile.setWgAt 0 { base.wgAt 0 with tiles := [(0, { tile0 with level := 1 })] }).tileFault 2 4 0 = some (1, 0))]) := by decide

/-- The core holds a dirty byte of the line at 0x10000. -/
def dirtyLine : State :=
  let x : L1Line := { way := 0, valid := 0xF, dirty := 1, data := 0x11, slot := 0, deadline := 0, noReuse := false, orphan := false
                      leafW := true, notes := [] }
  atLine.updCore 0 (fun c => { c with l1 := [(512, x)] })

/-- A dirty line of device 1. -/
def dirtyFar : State := dirtyLine.updCore 0 (fun c => { c with l1 := c.l1.map (fun e => (farLine (2 ^ 40 + 0x10000), e.2)) })

theorem test_hyp_fences : base.gang.releaseReport 0 = none ∧ base.gang.releaseReport 6 = none ∧ base.gang.unperformed 1 = [] ∧
    loading.gang.unperformed 1 ≠ [] ∧ base.gang.releaseWaits 4 = [] ∧ base.gang.unperformed 3 = [] ∧
    base.releasesNow 6 = true ∧ loading.releasesNow 4 = false ∧ dirtyFar.releasesNow 5 = false ∧
    ((base.acquireActs 0 5).releaseActs 0 5).flushing 0 = [] ∧ ((dirtyFar.acquireActs 0 5).releaseActs 0 5).flushing 0 ≠ [] ∧
    base.gang.out = [] ∧ base.gang.late = [] ∧
    loading.gang.out.filter (fun o => bit 1 o.path) ≠ [] ∧ (dirtyLine.l1Line 0 512).isSome = true := by decide

theorem test_hyp_addresses : (atAddr base (255 * 2 ^ 48 + 1023)).issues (fixedOps [.vw 64 238, .vr 64 0]) = true ∧
    (∀ l, (atAddr base (255 * 2 ^ 48 + 1023)).gang.active l = true →
      canonical ((atAddr base (255 * 2 ^ 48 + 1023)).vsrc64 0 l).toNat = true →
      inAperture ((atAddr base (255 * 2 ^ 48 + 1023)).vsrc64 0 l).toNat = true →
      ((atAddr base (255 * 2 ^ 48 + 1023)).vsrc64 0 l).toNat % 2 ^ 48 < (atAddr base (255 * 2 ^ 48 + 1023)).wg.z) ∧
    atLine.issues (fixedOps [.vr 64 0]) = true ∧ atLine.gang.heldBy 64 = [] ∧
    (∃ u x, dirtyLine.laneAt { acc := .read, size := 1, sp := 0, path := 1, rights := 2, ticks := false } 0 0 u (.mem 0x10070 page0) ∧
      u.l1Line dirtyLine.gang.core (0x10070 / 128) = some x) :=
  ⟨by decide, lanes _ _ (by decide), by decide, by decide, _, _, laneAt_of (by decide) (by decide) (by decide) (by decide), rfl⟩

/-- The gang watches the line at 0x10000. -/
def watching : State := base.updGang (fun g => { g with watch := { g.watch with armed := some (512, 512) } })

theorem test_hyp_watching : atLine.issues (fixedOps [.vw 32 239, .vr 64 0]) = true ∧ atLine.gang.heldBy 1 = [] ∧
    atLine.gang.lateOn [(0, .mem 0x10070 page0)] = [] ∧
    atLine.gang.memLanes = [0] ∧ atLine.gang.counter 0 < 63 ∧
    (let f : Form := { acc := .read, size := 4, sp := 0, path := 0, ticks := false }
     atLine.placeFault f [0] (atLine.vsrc64 0) = none ∧ atLine.place 0 4 (atLine.vsrc64 0 0) 0 = .ok (.glob 0x10070) ∧
     ∃ u, translateLanes f [(0, .glob 0x10070)] atLine = (u, { ok := [(0, .mem 0x10070 page0)], faults := [] })) ∧
    watching.issues (fixedOps [.sw 32 31, .sr 32 0xF1]) = true ∧ watching.gang.watch.wake (watching.sarg 0xF1).toNat = none ∧
    base.gang.watch.wake 1 = some 3 ∧ watching.gang.watch.wake 0 = some 1 :=
  ⟨by decide, by decide, by decide, by decide, by decide, ⟨by decide, rfl, _, rfl⟩, by decide, by decide, by decide, by decide⟩

/-- b15 expects two arrivals; 1,023, 0, 2 in s1, s2, s3. -/
def barriers : State := sset (sset (sset (base.updBar 15 (fun r => { r with init := true, e := 2 })) 1 1023) 2 0) 3 2

/-- The gang has arrived at b15. -/
def arrived : State := barriers.updBar 15 (fun r => { r with a := 1, arrived := 1 })

/-- Its barw there has arrived and waits. -/
def marked (s : State) : State := s.updBar 15 (fun r => { r with barw := mapPut s.gang.barwKey s.gang.pcNow r.barw })

theorem test_hyp_barriers : checks [barriers.issues (fixedOps [.br 14, .sr 32 1]), (barriers.sarg 1).toNat = 1023, (barriers.bar 14).a = 0,
    (barriers.bar 14).arrived = 0, (barriers.bar 14).rc = 0, (barriers.bar 14).kc = 0, !barriers.barWaiter barriers.gang.wid 14,
    barriers.issues (fixedOps [.br 15]), barriers.gang.whole, (barriers.bar 15).init, !barriers.gang.busyOn ((63 : BitVec 6) ||| 3).toNat,
    !(barriers.bar 15).here barriers.gang.num, mapFind barriers.gang.barwKey (barriers.bar 15).barw ≠ some barriers.gang.pcNow,
    barriers.gang.lateAccesses.isEmpty,
    ((barriers.bar 15).arrive barriers.gang.num).here barriers.gang.num,
    !(({ barriers.bar 15 with e := 1 } : Bar).arrive barriers.gang.num).here barriers.gang.num,
    (arrived.bar 15).here arrived.gang.num, (barriers.bar 15).gen.toNat ≠ (barriers.sarg 1).toNat,
    (barriers.bar 15).gen.toNat = (barriers.sarg 2).toNat, (baddxNew (barriers.bar 15) (barriers.sarg 3).toNat false).isSome,
    (baddxNew (barriers.bar 15) 1021 true).isSome, (baddxNew (barriers.bar 15) 2047 true).isSome, barriers.issues (fixedOps [.br 15, .sw 64 30]),
    decide (mapFind (marked barriers).gang.barwKey ((marked barriers).bar 15).barw = some (marked barriers).gang.pcNow),
    !((marked barriers).bar 15).here (marked barriers).gang.num, ((marked arrived).bar 15).here (marked arrived).gang.num,
    (marked arrived).issues (fixedOps [.br 15]), (marked arrived).gang.whole] := by decide

theorem test_hyp_barrierProgress : (barriers.bar 15).init = true ∧ (barriers.bar 15).a < 1023 ∧
    (arrived.bar 15).e + (arrived.bar 15).x ≤ (arrived.bar 15).a + 1 ∧ (barriers.bar 15).a + 1 < (barriers.bar 15).e + (barriers.bar 15).x ∧
    (barriers.bar 14).init = false ∧ barriers.issues (fixedOps [.br 14]) = true ∧ parted.gang.whole = false ∧
    parted.issues (fixedOps [.br 14]) = true ∧ (barriers.sarg 2).toNat = 0 ∧ 1024 ≤ ((sset barriers 1 1024).sarg 1).toNat := by decide

/-- Group 1023 of partition 0 has the entry `e`; s1 names it and s2, s3 hold 3. -/
def grouped (e : Nat) : State := (sset (sset (sset base 1 1023) 2 3) 3 0).updPart 0 (fun p => { p with ngTable := [(1023, BitVec.ofNat 64 e)] })

/-- The workgroup is the member at position 0 of its die node, with the masks and the arrivals given. -/
def joined (a : Nat) : State := (grouped 5).updGroup 1023 (fun g => { g with
  bound := some 0, nodes := [(16, { cur := 3, pending := 3, arrived := a, passed := false })], members := [(1024, 0)] })

/-- The place of the workgroup of `base` in a group of the die level or wider. -/
def here : NgPlace := { node := 16, pos := 0, key := 1024, home := 0 }

theorem names_of {s : State} {a : Code} {e k : Nat} {p : NgPlace} (h : decide ((s.sarg a).toNat < 1024) &&
    decide (e = s.ngEntry s.wg.part (s.sarg a).toNat) && bit e 0 && decide (k = groupKey s.wg.part (s.sarg a).toNat) &&
    decide (s.wg.ngPlace (s.groupAt k) s.gang.wid (ngLevel e) = some p) = true) : s.names a e k p := by
  simp only [Bool.and_eq_true, decide_eq_true_eq] at h
  exact ⟨h.1.1.1.1, h.1.1.1.2, h.1.1.2, h.1.2, h.2⟩

theorem test_hyp_membership : (grouped 5).names 1 5 1023 here ∧ (joined 0).names 1 5 1023 here ∧ (grouped 9).names 1 9 1023 here ∧
    (grouped 13).names 1 13 1023 here ∧ (joined 0).issues (fixedOps [.sr 32 1]) = true ∧
    ((joined 0).groupAt 1023).bound = some here.home ∧ (grouped 5).ngHolder ((grouped 5).groupAt 1023) here = none ∧
    (joined 0).ngHolder ((joined 0).groupAt 1023) here = some (joined 0).gang.wid ∧
    (joined 0).ngMember ((joined 0).groupAt 1023) here (joined 0).gang.wid (ngLevel 5) = true ∧
    (joined 0).issues (fixedOps [.sr 32 1, .sr 64 2]) = true ∧ ((joined 0).sarg64 2).toNat < 2 ^ 24 ∧
    ngLevel 9 = 2 ∧ ((grouped 9).sarg64 2).toNat < 256 ∧ ngLevel 13 = 3 ∧ ngRoot 13 = (grouped 13).devid ∧
    0 < ((grouped 13).sarg64 2).toNat ∧ ((grouped 13).sarg64 2).toNat ≤ 2304 :=
  ⟨names_of (by decide), names_of (by decide), names_of (by decide), names_of (by decide), by decide, by decide, by decide, by decide,
    by decide, by decide, by decide, by decide, by decide, by decide, by decide, by decide, by decide⟩

/-- What may stand in the way of an answer does not. -/
def isOk {α β : Type} (x : Except α β) : Bool := match x with
  | .ok _ => true
  | .error _ => false

theorem test_hyp_groupArrival : (∃ q u, (joined 2).arrivePaths 63 = .ok q ∧ q.release (ngScope 5) = .ok u) ∧ checks [(joined 2).gang.whole, (joined 2).gang.releaseReport (ngScope 5) = none,
    !bit (((joined 2).groupAt 1023).node 16).arrived 0,
    bit (((joined 2).groupAt 1023).node 16).cur 0, bit (((joined 1).groupAt 1023).node 16).arrived 0,
    (joined 1).ngMember ((joined 1).groupAt 1023) here (joined 1).gang.wid (ngLevel 5), (joined 0).issues (fixedOps [.sr 32 1, .sr 32 2]),
    ((joined 0).sarg 2).toNat < 2 ^ 16, ((joined 0).groupAt 1023).gen.toNat ≠ ((joined 0).sarg 2).toNat,
    (joined 0).issues (fixedOps [.sr 32 1, .sw 32 2])] := ⟨⟨_, _, rfl, rfl⟩, by decide⟩

/-! Engines -/

/-- `n` bytes that are 0 but for the given runs: offset, size, value. -/
def fill (n : Nat) (xs : List (Nat × Nat × Nat)) : List Byte :=
  (List.range n).map (fun i => match xs.find? (fun x => decide (x.1 ≤ i) && decide (i < x.1 + x.2.1)) with
    | some x => BitVec.ofNat 8 (x.2.2 / 256 ^ (i - x.1))
    | none => 0)

/-- A Barn tile of 1 KiB, one scale granule and one accumulator granule under handles 0, 1, 2; the Barn holds `bs`. -/
def barned (bs : List Byte) : State :=
  let t : Tile := { rows := 1, rowBytes := 1024, level := 0, granules := List.range 8 }
  let s := base.updWg (fun w => { w with tiles := [(0, t), (1, { t with rowBytes := 512, level := 2, granules := [0] }),
    (2, { t with rows := 64, rowBytes := 256, level := 1, granules := [0] })] })
  s.updCore 0 (fun c => { c with banks := (List.range bs.length).foldr (fun i m => mapSet 0 m i (bs.getD i 0)) [] })

/-- A legal block of each kind (11 R279, R280): a copy between global addresses, a gather and a scatter of one row, a multicast
to a global receiver, and the placement of a scale tensor. -/
def block (kind : Nat) : List Byte :=
  if kind = 1 then fill 64 [(0, 1, 1), (8, 1, 2), (0x10, 4, 0x10000), (0x18, 4, 0x10100), (0x28, 4, 4)]
  else if kind = 4 then fill 80 [(0, 1, 4), (9, 1, 1), (0x18, 4, 4), (0x1C, 4, 64), (64, 1, 1), (72, 4, 0x10000)]
  else if kind = 5 then fill 64 [(0, 1, 5), (8, 4, 0x10000), (0x10, 4, 0x10040), (0x18, 4, 2 ^ 26), (0x1C, 4, 512)]
  else fill 64 [(0, 1, kind), (0x0A, 2, 1), (0x0C, 4, 128), (0x10, 4, 0x10000), (0x18, 4, 4), (0x1C, 4, 4), (0x20, 4, 256), (0x24, 4, 4)]

/-- The checks of a block of the kind pass in the state that holds it. -/
def blockPasses (kind : Nat) (bs : List Byte := block kind) : Bool :=
  let s := (barned bs).updBar 15 (fun r => { r with init := true, kc := 4094 })
  s.issues (fixedOps [.sr 32 0, .sw 32 31]) && s.gang.lateAccesses.isEmpty && (s.gang.heldBy 4).isEmpty && (s.gang.heldBy 16).isEmpty && (s.wg.tile (field (s.sarg 0).toNat 26 6)).isSome &&
    (s.wg.rangeFault (s.sarg 0).toNat 64 64 0).isNone && (match s.blockFault kind (bs.take 64) with
      | .ok _ => true
      | .error _ => false) && decide (((s.wg.tile 0).map (fun x => s.tileBytes s.gang.core x 0 64)) = some (bs.take 64)) &&
    decide (s.gang.counter 2 < 63) && decide (s.gang.counter 4 < 63) && decide ((s.coreAt s.gang.core).gleaner.length < 16) &&
    (!bit (blockNum bs 1 1) 4 || decide ((s.wg.bar (blockNum bs 1 1 % 16)).kc + blockNum bs 9 1 ≤ 4095))

theorem test_hyp_gleanerIssue : checks [blockPasses 1, blockPasses 2, blockPasses 3, blockPasses 4, blockPasses 5,
  blockPasses 4 (fill 80 [(0, 1, 4), (1, 1, 31), (9, 1, 1), (0x18, 4, 4), (0x1C, 4, 64), (64, 1, 1), (72, 4, 0x10000)])] := by decide +kernel

/-- A contribution without bytes of the gang of `base`. -/
def noBytes : Contribution := { gang := 0, flags := 0, quad := [0, 0, 0, 0], dest := 31, word := 0 }

/-- A command of the kind with its block, in the state given, as ticket 7. -/
def command (kind state : Nat) : Gcmd :=
  { Gcmd.fresh 7 0 0 0 1 0 kind ((block kind).take 64) 0 with state := state, receivers := [(block 4).drop 64] }

/-- The queue of core 0 holds that command. -/
def running (kind state : Nat) : State :=
  (paged (barned (block kind))).updCore 0 (fun c => { c with gleaner := [command kind state] })

/-- The gang of `s` has contributed. -/
def contributed (s : State) : State := (s.stall .collective).updWg (fun w => { w with assembling := insertContribution noBytes w.assembling })

/-- A second gang of its workgroup, which has contributed before it or has not. -/
def together (before : Bool) : State :=
  (base.setGangAt 1 { loadedGang with num := 1, flow := { loadedGang.flow with
    blocks := if before then [(0, .collective)] else [] } }).updWg (fun w =>
      { w with gangs := 2, assembling := if before then [{ noBytes with gang := 1 }] else [] })

theorem test_hyp_collective : checks ([base, together true, together false].map (fun s =>
      s.issues (fixedOps [.so 128 28, .sw 32 31]) && s.gang.whole && s.gang.lateAccesses.isEmpty && (s.gang.heldBy 4).isEmpty &&
        decide (s.gang.counter 2 < 63) && decide (s.cur = gangKey s.gang.wid s.gang.num) && s.gang.flow.blocks.isEmpty &&
        decide ((s.coreAt s.gang.core).gleaner.length < 16) && decide ((s.coreAt (coreOfWid s.gang.wid)).gleaner.length < 16) &&
        decide (noBytes = { gang := s.gang.num, flags := 0, quad := (List.range 4).map (fun i => s.gang.s s.gang.low (28 + i))
                            dest := 31, word := s.ir })) ++
    [decide (base.gangsOf base.gang.wid = [base.cur]), base.wg.assembling.isEmpty, (base.wg.rejectCollective [noBytes]).isNone,
      (contributed (together true)).assembled 0, decide (((contributed (together true)).contributions 0).map (·.gang)).Nodup,
      ((together true).wg.rejectCollective ((contributed (together true)).contributions 0)).isNone,
      !(contributed (together false)).assembled 0, decide ((base.sarg 0).toNat < 65536),
      base.issues (fixedOps [.sr 32 0, .sw 32 31])]) ∧
    (let s := sset (running 1 1) 1 7
     ((s.coreAt 0).gleaner.find? (fun c => decide (c.ticket = (s.sarg 1).toNat % 65536) && decide (c.wid = 0))) = some (command 1 1) ∧
      s.engBusy (command 1 1).id = false ∧
      ({ s with msgs := [{ Msg.blank with gang := noGang, opid := (command 1 1).id, reg := 0xFF, src := s.devid }] } : State).engBusy
        (command 1 1).id = true) := by decide

/-- The check behind a move that succeeds. -/
def moved (r : State × Except XErr Unit) : Bool := match r.2 with
  | .ok _ => true
  | .error _ => false

/-- It stops at a fault, or fails. -/
def faultsAt (r : State × Except XErr Unit) : Bool := match r.2 with
  | .error (.fault _ _ _) => true
  | _ => false
@[inherit_doc faultsAt]
def failsAt (r : State × Except XErr Unit) : Bool := match r.2 with
  | .error (.fail _ _ _ _ _) => true
  | _ => false

/-- Its PASID has no page tables, or its partition no channel. -/
def unpaged (kind : Nat) : State := (barned (block kind)).updCore 0 (fun c => { c with gleaner := [command kind 2], tlb := [] })
@[inherit_doc unpaged]
def ownerless (kind : Nat) : State := (running kind 2).updPart 0 (fun p => { p with channels := [] })

/-- The move of row or receiver 0 of the command. -/
def rowMove (kind : Nat) (s : State) : State × Except XErr Unit :=
  let barn := (s.wgAt 0).barnLoc 0 256
  if kind = 2 then s.movePart (command 2 2) 0 (.glob 0x10000) (barn.add 0) 4
  else if kind = 3 then s.movePart (command 3 2) 0 (barn.add 0) (.glob 0x10000) 4
  else s.movePart (command 4 2) 0 ((s.wgAt 0).barnLoc 0 0) (s.receiverLoc (command 4 2) ((command 4 2).receivers.getD 0 [])) 4

/-- The next unit of the copy. -/
def unitMove (s : State) : Option (State × Except XErr Unit) :=
  (unitAt (s.copySegs (command 1 2)) 0).map (fun u => s.moveUnit ((command 1 2).agent 0) u.1 u.2.1 u.2.2.1)

theorem test_hyp_gleanerEvents : checks ([decide ((running 1 1).nextStart 0 = some (command 1 1)),
    (unitMove (running 1 2)).any moved, (unitMove (unpaged 1)).any faultsAt, (unitMove (ownerless 1)).any failsAt] ++
    [1, 2, 3, 4, 5].map (fun n => decide ((running n 2).cmd 0 7 = some (command n 2)) && !(command n 2).cancelled) ++
    [2, 3, 4].map (fun n => decide (0 < (command n 2).count) && !(command n 2).settled 0 && !(running n 2).partBusy (command n 2).id 0 &&
      moved (rowMove n (running n 2)) && faultsAt (rowMove n (unpaged n)) && failsAt (rowMove n (ownerless n))) ++
    [2, 3].map (fun n => decide (((List.range (command n 2).count).filter ((running n 2).partBusy (command n 2).id)).length < 64) &&
      decide ((running n 2).rowIndex (command n 2) 0 = 0) && !badGlobal 0x10000 && badGlobal (255 * 2 ^ 48)) ++
    [decide (((running 2 2).updCore 0 (fun c => { c with banks := (List.range 4).foldl (fun m i => mapSet 0 m (128 + i) 0xFF) c.banks })).rowIndex
      (command 2 2) 0 = 2 ^ 32 - 1),
    (let s := (running 5 2).writeHomeNum 0x10040 16 (3 + 4 * 2 ^ 8 + 2 ^ 32 + 2 ^ 64 + 4 * 2 ^ 96)
     match (s.placedForm ((command 5 2).agent 0) 0x10000 0x10040 512).2, (s.wgAt 0).barnLoc 0 (2 ^ 26) with
      | .ok _, .barn _ _ _ => true
      | _, _ => false),
    (running 1 2).cmdDone { command 1 2 with moved := 4 }, (command 1 2).failed.isNone, decide (command 1 2).issuers.Nodup]) := by
  decide +kernel

/-! Selection, expand groups and tables -/

/-- Etype i32 over the Barn that holds `bs`. -/
def barnedInt (bs : List Byte) : State := moded (barned bs) (0x7A001F + 640)

/-- A list of capacity 1 and etype i32 at the start of the tile. -/
def listed : State := barnedInt (fill 32 [(0, 1, 1), (4, 1, 10)])

/-- The workgroup's ctopk has been answered with 5. -/
def answered : State := (joined 0).updGroup 1023 (fun g => { g with
  topk := [{ gang := 0, pc := 0x10000, loc := 0, image := [], result := some (some 5) }] })

theorem test_hyp_sorts : base.gang.whole = true ∧ base.gang.heldBy 64 = [] ∧ ((typed 9).issues (selectOps true 236 [.sw 32 31]) && (typed 9).issues (selectOps true 0xF0 [.sw 32 0xF0]) &&
      base.gang.lateAccesses.isEmpty && listed.issues (selectOps false 0xFC [.sr 32 0, .sw 32 31])) = true ∧
    (sset (typed 10) 1 32).issues (selectOps true 236 [.sw 32 31, .sr 32 1]) = true ∧ ((sset (typed 10) 1 32).sarg 1).toNat = 32 ∧
    listed.issues (selectOps false 0 [.sr 32 0, .sw 32 31]) = true ∧
    (match (listed.drainQueues listed.gang.core).listAt listed.wg listed.gang.core (listed.sarg 0).toNat with
      | .ok (_, img) => decide (listed.keyTypes = [blockNum img 4 1])
      | .error _ => false) = true ∧
    answered.issues (fixedOps [.sw 32 31, .sr 32 1, .sr 32 0]) = true ∧ answered.names 1 5 1023 here ∧
    answered.ngMember (answered.groupAt 1023) here answered.gang.wid (ngLevel 5) = true ∧
    (((answered.groupAt 1023).topk.find? (fun x => decide (x.gang = answered.cur) && decide (x.pc = answered.gang.pcNow))).map
      (·.result)) = some (some (some 5)) :=
  ⟨by decide, by decide, by decide, by decide, by decide, by decide, by decide, by decide, names_of (by decide), by decide, by decide⟩

theorem test_hyp_sorted : isFloat 14 = false ∧ isFloat 9 = false := by decide

/-- A group of the gang alone with 40 items in lane 0. -/
def alone : XGroup := { members := [0], total := 40, start := [], pre := (List.range 31).map (fun l => (l + 1, 40)) }

/-- The gang of `base` in that group, in round 0. -/
def expanded : State :=
  (moded base (0x7A001F + 640)).updWg (fun w => { w with groups := [alone] }) |>.updGang (fun g =>
    { g with regs := { g.regs with xst := xstOf 2 0 0 0 } })

/-- Two gangs; s1 names both, s2 the first alone. -/
def pair : State := sset (((base.setGangAt 1 { loadedGang with num := 1 }).updWg (fun w => { w with gangs := 2 }))) 1 (2 ^ 20 + 32)

theorem test_hyp_formation : pair.issues (fixedOps [.sw 32 1, .vr 64 238, .vr 32 239]) = true ∧ pair.gang.whole = true ∧
    pair.gang.flow.blocks = [] ∧ pair.cur = gangKey pair.gang.wid pair.gang.num ∧ pair.gang.live = true ∧ pair.wg.forming = [] ∧
    (prefixMap (fun l => (pair.laneRun 0 0xF1 l).2) 32).2 < 2 ^ 32 ∧ descOk pair.wg pair.gang.num (pair.sarg 2) = true ∧
    descMembers (pair.sarg 2) = [pair.gang.num] ∧ descOk pair.wg pair.gang.num (pair.sarg 1) = true ∧
    (∃ m ∈ descMembers (pair.sarg 1), m ≠ pair.gang.num ∧ (pair.gangAt (gangKey pair.gang.wid m)).atFormation = false) ∧
    (∀ m ∈ descMembers (pair.sarg 1), (pair.gangAt (gangKey pair.gang.wid m)).live = true) := by decide

theorem inGroup_of {s : State} {x : XGroup} (h : s.gang.whole && !s.gang.regs.broken && decide (xstState s.gang.regs.xst = 2) &&
    decide (s.wg.groupOf s.gang.num = some x) = true) : s.inGroup x := by
  simp only [Bool.and_eq_true, decide_eq_true_eq, Bool.not_eq_true'] at h
  exact ⟨h.1.1.1, h.1.1.2, h.1.2, h.2⟩

theorem test_hyp_rounds : expanded.inGroup alone ∧ expanded.issues (fixedOps [.pw 23, .pw 0xF0]) = true ∧
    expanded.issues (etypeOps keyType (fun t => [.vx (vwidth t) 239, .vr (vwidth t) 0])) = true ∧
    (∀ m ∈ alone.members, (expanded.gangAt (gangKey expanded.gang.wid m)).live = true ∧ ((239 : Code) ≠ 0xF0 →
      (239 : Code).toNat + (if (List.range 8).any (fun k => expanded.gang.issuing k && etypeWide (modeEtype (expanded.gang.mode k)))
        then 2 else 1) ≤ (expanded.gangAt (gangKey expanded.gang.wid m)).alloc)) ∧
    (∀ l, expanded.gang.active l = true → (mapGet (0 : Word) expanded.gang.regs.xo l).toNat < 32 * alone.members.length) ∧
    expanded.gang.readable 239 2 (expanded.gang.ownOwners alone etypeWide) ∧
    expanded.gang.readable 239 1 (expanded.gang.ownOwners alone (fun t => !etypeWide t)) ∧
    expanded.gang.trapping (fun _ => 31) = 0 :=
  ⟨inGroup_of (by decide), by decide, by decide, by decide, lanes _ _ (by decide), by decide, by decide, by decide⟩

/-- A signalling NaN in v5 of lane 0, under MODE.fpx and f32. -/
def segrTraps : State := vset (moded expanded (0x7A001F + 64 + 2 ^ 16)) 5 0 0x7F800001

theorem test_hyp_segr : segrTraps.inGroup alone ∧
    segrTraps.issues (etypeOps keyType (fun t => [.vx (vwidth t) 239, .vr (vwidth t) 5])) = true ∧
    segrTraps.gang.trapping (fun l => (((segrLanes alone 239 5 segrTraps.gang.activeList segrTraps).2.find?
      (fun e => decide (e.1 = l))).map (·.2)).getD 0) = 1 := ⟨inGroup_of (by decide), by decide, by decide +kernel⟩

/-- A group without items, whose image at 0x10000 has the member count `n`. -/
def imaged (n : Nat) : State :=
  ((atAddr expanded 0x10000).updWg (fun w => { w with groups := [{ alone with total := 0, pre := [] }] })).writeHomeNum 0x10004 1 n

/-- The reads of an image. -/
def imageRead (n : Nat) : Except RunStop (State × List Byte) :=
  let s := imaged n
  let f : Form := { acc := .read, size := 416, sp := 0, path := 0, ticks := false }
  let r := translateLanes f (s.imagePlaces 0 416 (s.vsrc64 0 0)) (s.countMem f)
  State.readImage (s.gang.nuCode 61 0) (imagePieces 0x10000 416 r.2.ok) r.1

theorem test_hyp_images : (imaged 1).inGroup { alone with total := 0, pre := [] } ∧ (imaged 1).gang.heldBy 3 = [] ∧
    (imaged 1).issues (fixedOps [.vl 64 0]) = true ∧ (imaged 1).gang.readable 0 2 [0] ∧ (imaged 1).imageFault 0 416 ((imaged 1).vsrc64 0 0) = none ∧
    (imaged 1).gang.counter 0 < 63 ∧ (imaged 1).gang.counter 1 < 63 ∧
    (let s := imaged 1
     let f : Form := { acc := .write, size := 416, sp := 0, path := 1, ticks := false }
     let r := (translateLanes f (s.imagePlaces 0 416 (s.vsrc64 0 0)) (s.countMem f)).2
     r.faults = [] ∧ s.gang.lateOn r.ok = []) ∧
    (match imageRead 1 with
      | .ok (_, im) => imageOk { alone with total := 0, pre := [] } im
      | .error _ => false) = true ∧
    (match imageRead 2 with
      | .ok (_, im) => !imageOk { alone with total := 0, pre := [] } im
      | .error _ => false) = true :=
  ⟨inGroup_of (by decide), by decide, by decide, by decide, by decide, by decide, by decide, by decide +kernel, by decide +kernel, by decide +kernel⟩

/-- A table of two slots in the tile: keys of `4 + 4 kw` bytes, values of the etype; s1 holds its hinit word. -/
def tabled (kw ty : Nat) : State :=
  sset (barnedInt (fill 64 [(4, 1, 1), (5, 1, kw), (6, 1, ty), (7, 1, 16), (8, 1, 2)])) 1 (1 + kw * 16 + ty * 32 + 16 * 1024 + 2 * 32768)

theorem test_hyp_tables : checks ([(tabled 0 10), (tabled 1 9)].map (fun s => s.issues (fixedOps [.sr 32 0, .sr 32 1]) &&
    (s.gang.heldBy 64).isEmpty && s.gang.lateAccesses.isEmpty &&
    decide ((s.sarg 1).toNat < 2 ^ 17) && (s.wg.rangeFault 0 (16 + 2 * 16) 1 0).isNone &&
    s.issues (fixedOps [.sr 32 0, .vr 32 238, .vr 32 236]) && s.issues (fixedOps [.sr 32 0, .vr 32 238, .vw 32 236]) &&
    (match (s.drainQueues s.gang.core).tableAt (s.sarg 0).toNat with
      | .ok h => s.issues (fixedOps (h.pairs 1 238 236)) && s.issues (fixedOps (h.pairs 2 238 236)) &&
        decide ((238 : Code).toNat % 2 = 0 ∧ (238 : Code).toNat + 2 ≤ s.gang.alloc ∧ h.kw = 4 + 4 * (blockNum (s.barnBlock 0 16) 5 1))
      | .error _ => false)) ++ [hashOk 1 1 9 16 2, hashOk 15 0 10 16 2]) := by decide

/-! The Thresher, tiles -/

/-- A legal request block at the accumulator tile of handle 2 (14 R344). -/
def request : List Byte := fill 128 [(0, 1, 2), (8, 1, 2), (0x10, 1, 1), (0x18, 4, 0x10000), (0x20, 4, 0x10040), (0x34, 2, 1), (0x38, 4, 2 * 2 ^ 26)]

/-- A legal drain block of an mdrain, and the same with the quantised copy (14 R353). -/
def drainBlock (sh : Nat) : List Byte :=
  fill 64 ([(0, 4, 0x10000)] ++ (if sh = 1 then [(0x18, 1, 1), (0x20, 4, 0x10400)] else []))

/-- s1 names the tile of handle 2, and s2, s3 hold a line address; s5 holds 127. -/
def matrix (bs : List Byte) : State := sset (sset (sset (typedOver (barned bs)) 1 (2 * 2 ^ 26)) 2 0x10000) 5 127
where typedOver (s : State) : State := moded s (0x7A001F + 64)

theorem test_hyp_thresherIssue : checks [(matrix []).gang.lateAccesses.isEmpty, ((matrix []).gang.heldBy 8).isEmpty, decide ((matrix []).gang.counter 3 < 63),
    ((matrix []).clusterAt 0).table.isEmpty, (matrix request).issues (fixedOps [.so 32 0]),
    ((matrix request).wg.rangeFault ((matrix request).sarg 4).toNat 128 128 0).isNone,
    decide ((matrix request).barnBlock ((matrix request).sarg 4).toNat 128 = request), ((matrix request).wg.requestBounds request).isNone,
    requestOk request ((matrix request).wg.accTileOf (accHandle (blockNum request 0x38 4))).rowBytes,
    !(matrix request).wg.scaleLevelBad (blockNum request 0 8), !(matrix request).wg.scaleLevelBad (blockNum request 8 8),
    (matrix []).issues (fixedOps [.so 32 1, .so 32 4]), ((matrix []).wg.accFault ((matrix []).sarg 1).toNat).isNone,
    ((matrix []).wg.rangeFault ((matrix []).sarg 4).toNat 64 64 0).isNone,
    drainOk ((matrix (drainBlock 0)).barnBlock 0 64) false, drainOk ((matrix (drainBlock 1)).barnBlock 0 64) true,
    (matrix []).issues (fixedOps [.so 32 1, .so 64 2]), addrOk ((matrix []).sarg64 2).toNat 128,
    (matrix []).issues (taccOps 1 0 5), decide (((matrix []).sarg 5).toNat = 127),
    (List.range 8).all (fun k => !(matrix []).gang.issuing k || decide (modeEtype ((matrix []).gang.mode k) =
      ((matrix []).wg.accTileOf (accHandle ((matrix []).sarg 1).toNat)).accType))] := by decide +kernel

/-- s1 holds `n`, and event bit 255 stands. -/
def bits (n : Nat) : State := (sset base 1 n).updCluster 0 (fun c => { c with events := 2 ^ 255 })

/-- A pre-emption is pending. -/
def pending : State := base.updGang (fun g => { g with trap := { g.trap with preempt := true } })

/-- A second gang of the workgroup waits by this block. -/
def waited (b : Block) (s : State) : State := s.setGangAt 1 { loadedGang with num := 1, flow := { loadedGang.flow with blocks := [(0, b)] } }

/-- What evset leaves before the waiters go on. -/
def evsetDone (s : State) (n : Nat) : State := ((s.releaseActs 0 4).updCluster 0 (fun c => c.setEvents (eventMask n) 0)).advance

theorem test_hyp_eventBits : checks [(bits 255).issues (fixedOps [.sr 32 1]), decide (((bits 255).sarg 1).toNat = 255),
    decide ((bits 255).gang.releaseReport 4 = none), decide ((bits 255).gang.releaseWaits 4 = []),
    ((bits 255).clusterAt (bits 255).gang.cluster).events.getLsbD 255,
    ((bits 255).clearWaiters (bits 255).gang.cluster (bits 255).cur 255).isEmpty,
    decide (mapFind (bits 255).gang.flow.served (bits 255).gang.flow.blocks ≠ some (.eventClear 255)),
    !((waited (.eventClear 255) (bits 255)).clearWaiters 0 (bits 255).cur 255).isEmpty,
    !((bits 0).clusterAt (bits 0).gang.cluster).events.getLsbD 0, decide (256 ≤ ((bits 256).sarg 1).toNat),
    ((bits 255).clusterAt 0).table.all (fun e => !((bits 255).clusterAt 0).eligible e),
    ((evsetDone (bits 0) 0).clusterAt 0).starters.isEmpty, ((evsetDone (bits 0) 0).waitedBits 0).isEmpty,
    (let u := evsetDone (waited (.eventBit 0) (bits 0)) 0
     (u.clusterAt 0).starters.isEmpty && decide (u.eventWaiters 0 (.eventBit 0) = [1]) && mapRising 0 (u.gangAt 1).flow.blocks &&
       decide ((u.gangAt 1).flow.blocks.length ≤ 8)),
    base.issues (fixedOps [.sr 64 30]), !base.gang.trap.preempt, pending.gang.trap.preempt, !pending.gang.trap.taken] := by
  decide +kernel

/-- The workgroup holds 8 Barn granules; s1, s2 ask for one row of 4 bytes. -/
def roomy : State := sset (sset (base.updWg (fun w => { w with barn := List.range 8 })) 1 1) 2 4

/-- Every handle is taken. -/
def crowded : State := roomy.updWg (fun w => { w with tiles := (List.range 64).map (fun h => (h, tile0)) })

theorem test_hyp_tileHandles : roomy.issues (fixedOps [.sw 32 31, .sr 32 1, .sr 32 2]) = true ∧
    tallocOk (roomy.sarg 1).toNat (roomy.sarg 2).toNat = true ∧ roomy.wg.tile 0 = none ∧
    granulesFor 0 1 4 ≤ (roomy.freeGranules roomy.gang.wid 0).length ∧ tallocOk (base.sarg 1).toNat (base.sarg 2).toNat = false ∧
    (∀ j, j < 64 → crowded.wg.tile j ≠ none) ∧ ((sset (sset base 1 1) 2 4).freeGranules 0 0).length < granulesFor 0 1 4 ∧
    crowded.tileBusy crowded.gang.wid 63 = false ∧ (matrix []).tileBusy 0 2 = false ∧
    (((matrix []).updCluster 0 (fun c => { c with table := [(matrix []).newMop 0xE4 0 (2 * 2 ^ 26) []] })).tileBusy 0 2) = true ∧
    roomy.wg.tile (roomy.sarg 1).toNat = none := by decide

/-- The cluster holds one operation in its last entry, in the state given. -/
def posted (e : Mentry) (f : Cluster → Cluster) : State :=
  (paged (matrix [])).updCluster 0 (fun c => f { c with table := [{ e with slot := 31, id := 1 }] })

/-- An operation as posted, of the tile of handle 2. -/
def operation (op : Nat) (blk : List Byte) (f : Mentry → Mentry) : Mentry :=
  f { (matrix []).newMop op 0 (2 * 2 ^ 26) blk with slot := 31, id := 1 }

/-- The check behind an operation that meets no error. -/
def clean {α β : Type} (r : α × β × Option XErr) : Bool := r.2.2.isNone

theorem test_hyp_kstep : ((stepRows 1 [[FVal.zero false]] [[FVal.zero false]] [[5]])[0]?.bind (fun r => r[0]?)).isSome = true ∧
    [[5]][0]? = some [5] ∧ [5][0]? = some 5 := by decide +kernel

theorem test_hyp_thresher : checks [
    (let e := operation 0xE2 request id
     let s := posted e id
     decide ((s.clusterAt 0).entry 31 = some e) && (s.clusterAt 0).mayStart e && !s.headerSpoilt e 0 && !s.headerSpoilt e 8 &&
       headerFits ((s.wgAt e.wid).sclTile (e.num 0 8)) (e.num 0 8) e.kExtent (s.scaleHeader e 0) &&
       headerFits ((s.wgAt e.wid).sclTile (e.num 8 8)) (e.num 8 8) e.kExtent (s.scaleHeader e 8) &&
       decide ((s.clusterAt 0).starters = [e]) && (s.waitedBits 0).isEmpty && decide (((s.clusterAt 0).table.map (·.slot)).Nodup) &&
       decide (e ∈ (s.clusterAt 0).table) && (s.clusterAt 0).eligible e && e.keepsBits && !s.engBusy e.id && e.failed.isNone),
    (let e := operation 0xE5 [] id
     !((posted e (fun c => { c with port := some 31 })).clusterAt 0).rowSpoilt ((posted e id).mopTile e) e.tile e.row),
    (let e := operation 0xE2 request (fun e => { e with started := true })
     ((posted e id).nextPass 0).isSome &&
     (match State.runSteps 0 1 (posted e (fun c => { c with pass := some (31, 1) })) e
        (((posted e id).clusterAt 0).tileRows ((posted e id).mopTile e) e.tile) with
      | (_, _, _, x) => x.isNone)),
    (let e := operation 0xE4 [] id
     decide (((posted e id).clusterAt 0).nextPort = some e)),
    (let e := operation 0xE3 (drainBlock 0) (fun e => { e with prow := 63, snap := some [] })
     let s := posted e (fun c => { c with port := some 31 })
     decide ((s.clusterAt 0).port = some 31) && !(s.clusterAt 0).failed (s.mopTile e) e.tile && decide (e.num 0x10 8 = 0) &&
       clean (State.drainLines 1 64 ((imageRows (s.mopTile e) []).map (fun r => r.map (elemValue (s.mopTile e).accType false))) 129 s e)),
    (let e := operation 0xEB (bytesLE 8 0x10000) (fun e => { e with prow := 63 })
     let s := posted e (fun c => { c with port := some 31 })
     clean (State.imageLines 0 (s.mopTile e) 65 s e))] := by decide +kernel

/-! Handles, services, cells -/

/-- Partition 0 has 8 handle slots and 4 result slots; s2, s3 hold the handle of slot 5, generation 1, kind 1, and s4 the number 3
of a cell of the partition; slot 5 and cell 3 are as given. -/
def remote (bs : List Byte) (h : HSlot → HSlot) (c : TCell → TCell) : State :=
  let s := (barned bs).updPart 0 (fun p => { p with slots := (0, 8), pool := (0x20000, 4), cells := (0, 16) })
  let s := sset (sset (sset s 2 257) 3 5) 4 3
  { s with handles := [(5, h { HSlot.free with gen := 1, used := true, kind := 1 })], cells := [(3, c { TCell.zero with owner := some 0 })] }

theorem test_hyp_invocations : checks ([(remote [] id id), (remote (fill 64 [(0x18, 8, 257 + 5 * 2 ^ 32)]) id id)].map (fun s =>
      s.issues (fixedOps [.so 32 0, .so 64 30]) && (s.gang.heldBy 32).isEmpty && s.gang.lateAccesses.isEmpty && isOk (s.release 5) && (s.wg.rangeFault 0 64 1 0).isNone &&
      (s.wg.rangeFault 64 256 1 0).isNone && decide (s.gang.counter 5 < 63) && decide (s.gang.releaseReport 5 = none) &&
      decide (s.gang.releaseWaits 5 = []) && (s.newHandle s.wg.part 1 s.cur s.nextId).isSome) ++
    [invBlockOk false ((remote [] id id).barnBlock 0 64),
      invBlockOk true ((remote (fill 64 [(0x18, 8, 257 + 5 * 2 ^ 32)]) id id).barnBlock 0 64),
      !handleBad (257 + 5 * 2 ^ 32),
      (let s := (remote [] id id).updPart 0 (fun p => { p with slots := (0, 0) })
       s.issues (fixedOps [.so 32 0, .so 64 30]) && (s.gang.heldBy 32).isEmpty && (s.newHandle s.wg.part 1 0 0).isNone)]) := by
  decide +kernel

theorem test_hyp_noHandle : ∀ k, ((remote [] id id).updPart 0 (fun p => { p with slots := (0, 0) })).newHandle 0 k 0 0 = none :=
  fun _ => rfl

/-- s2, s3 hold a handle whose home is device 1. -/
def away : State := sset (remote [] id id) 3 (5 + 2 ^ 20)

theorem test_hyp_results : checks [(remote [] id id).issues (fixedOps [.sw 32 31, .so 64 2]), !handleBad ((remote [] id id).sarg64 2),
    (remote [] id id).handleStatus 0 ((remote [] id id).sarg64 2) = 0,
    (remote [] (fun h => { h with state := 2 }) id).handleStatus 0 ((remote [] id id).sarg64 2) ≠ 0,
    (remote [] id id).issues (fixedOps [.so 64 2, .vg 32 1 false true false 208]), (remote [] id id).issues (fixedOps [.so 64 2, .so 32 0]),
    (remote [] id id).known 0 ((remote [] id id).sarg64 2) = some 5, ((remote [] id id).slotAt 5).state < 2,
    2 ≤ ((remote [] (fun h => { h with state := 2 }) id).slotAt 5).state, (base.known 0 (base.sarg64 2)).isNone,
    (remote [] id id).gang.heldBy 64 = [], (remote [] id id).gang.heldBy 32 = [], !(remote [] id id).farHandle ((remote [] id id).sarg64 2),
    away.farHandle (away.sarg64 2), !handleBad (away.sarg64 2), (away.gang.poll (away.sarg64 2) 0).isNone,
    (remote [] id id).gang.lateAccesses.isEmpty, decide (((remote [] id id).sarg 0).toNat % 4 = 0),
    decide ((away.updGang (fun g => { g with polls := [(away.sarg64 2, 0, 1)] })).gang.poll (away.sarg64 2) 0 = some 1),
    decide ((away.updGang (fun g => { g with polls := [(away.sarg64 2, 0, 2 ^ 32)] })).gang.poll (away.sarg64 2) 0 = some (2 ^ 32)),
    decide ((away.updGang (fun g => { g with polls := [(away.sarg64 2, 1, 0)] })).gang.poll (away.sarg64 2) 1 = some 0),
    (away.gang.poll (away.sarg64 2) 1).isNone] := by decide

/-- An accepted invocation of cell 3 with that handle. -/
def invocation : Exec := { handle := 257 + 5 * 2 ^ 32, home := 0, spart := 0, cell := 3, idx := 0, part := 0, bound := none, bytes := 0, settled := 0, freed := false }

/-- A service cell with one entry that no workgroup has bound. -/
def serving : State :=
  { remote [] id (fun c => { c with flags := 4, tail := 1, inbox := 0x10000 }) with execs := [invocation] }

/-- The workgroup has bound it; s6, s7 name 8 bytes of the tile, and s8 holds 255. -/
def bound : State := sset (sset ({ remote [] id id with execs := [{ invocation with bound := some (0, 0) }] }) 7 8) 8 255

/-- A legal block of a cell that is not over its threshold (15 R380). -/
def cellBlock : List Byte := fill 64 [(0x0C, 4, 1), (0x20, 4, 1)]

theorem test_hyp_services : checks [serving.issues (fixedOps [.so 32 4, .so 128 28]), decide ((serving.cellAt 3).owner = some serving.wg.part),
    bit (serving.cellAt 3).flags.toNat 2, decide ((serving.cellAt 3).bind ≠ (serving.cellAt 3).tail),
    decide (((remote [] id (fun c => { c with flags := 4 })).cellAt 3).bind = 0),
    (findBelow (fun i => !(serving.partAt 0).poolUsed.contains i) (serving.partAt 0).pool.2).isSome,
    (serving.execs.find? (fun x => decide (x.cell = 3) && decide (x.idx = (serving.cellAt 3).bind.toNat) && x.bound.isNone)).isSome,
    (bound.ownExec (bound.sarg64 2)).isSome, decide (bound.gang.releaseReport 5 = none), decide (bound.gang.releaseWaits 5 = []),
    isOk (bound.release 5), isOk ((remote cellBlock id id).release 4), bound.issues (fixedOps [.so 64 2, .so 64 6]), decide ((bound.sarg64 6).toNat / 2 ^ 32 = 8), (bound.wg.rangeFault 0 8 1 0).isNone,
    bound.issues (fixedOps [.so 64 2, .so 32 8]), decide ((bound.sarg 8).toNat = 255),
    cellBlockOk ((remote cellBlock id id).barnBlock 0 64), (((remote cellBlock id id).cellAt 3).armable 0),
    decide (blockNum cellBlock 8 4 < blockNum cellBlock 0x0C 4), (remote cellBlock id id).issues (fixedOps [.so 32 4, .so 32 0]),
    decide ((remote [] id id).sarg 2 ≠ 0), decide (((remote [] id id).cellAt 3).owner = some 0)] := by decide +kernel

/-- A message of this kind to this device is in flight as number 9. -/
def inFlight (kind : MsgKind) (f : Msg → Msg) (s : State) : State :=
  { s with msgs := [f { Msg.blank with id := 9, kind := kind, cell := 3, handle := 257 + 5 * 2 ^ 32, dep := 257 + 5 * 2 ^ 32 }] }

theorem test_hyp_messages : checks [
    (let s := inFlight .invoke id (remote [] id id)
     (match s.msg 9 with
      | some m => !s.earlierInvocation m && (s.dropMsg 9).cellAdmits m && decide ((s.cellAt m.cell).owner = some m.tpart)
      | none => false)),
    (let s := inFlight .invoke (fun m => { m with tpart := 1 }) (remote [] id id)
     (match s.msg 9 with
      | some m => (s.dropMsg 9).cellAdmits m && decide ((s.cellAt m.cell).owner ≠ some m.tpart)
      | none => false)),
    ((inFlight .dependent id base).known 0 (257 + 5 * 2 ^ 32)).isNone,
    decide ((inFlight .dependent id (remote [] id id)).known 0 (257 + 5 * 2 ^ 32) = some 5),
    decide (((remote [] (fun h => { h with state := 3 }) id).slotAt 5).state = 3),
    decide ((inFlight (.bindReport 1 2 3) id (remote [] id id)).current (257 + 5 * 2 ^ 32) = some 5),
    decide (((remote [] (fun h => { h with state := 0 }) id).slotAt 5).waitlist = []),
    (let s := inFlight (.result 8) id (remote [] (fun h => { h with state := 1 }) id)
     decide (s.current (257 + 5 * 2 ^ 32) = some 5) && decide ((s.slotAt 5).state = 1) && !(s.slotAt 5).dropped &&
       decide ((s.slotAt 5).dev = s.devid)),
    (let s := inFlight (.result 8) id (remote [] (fun h => { h with state := 1, dev := 1 }) id)
     decide (s.current (257 + 5 * 2 ^ 32) = some 5) && decide ((s.slotAt 5).dev ≠ s.devid)),
    (let s := inFlight .invoke (fun m => { m with dst := 1 }) (remote [] id id)
     decide (s.current (257 + 5 * 2 ^ 32) = some 5) && !(s.slotAt 5).accepted && (s.msg 9).any (fun m => decide (m.dst ≠ s.devid))),
    (let s := inFlight .dependent id (remote [] id id)
     (s.msg 9).any (fun m => decide (m.dst = s.devid) && !s.earlierInvocation m)),
    (let s := inFlight (.rget 9) id (remote [] (fun h => { h with state := 2, bytes := 4096 }) id)
     decide (s.handleStatus 0 (257 + 5 * 2 ^ 32) = BitVec.ofNat 32 (1 + 4096 * 2 ^ 16)) && (s.gangAt 0).live),
    (let s := inFlight (.cellAdd 3 65535 0) id (remote [] id id)
     (match s.msg 9 with
      | some m => (s.dropMsg 9).cellAdmits m && (s.cellAt 3).owner.isSome && decide (BitVec.ofNat 16 0 &&& (s.cellAt 3).tagm = (s.cellAt 3).tagv)
      | none => false)),
    (let s := inFlight (.cellAdd 3 1 0) (fun m => { m with part := 1 }) (remote [] id id)
     (match s.msg 9 with
      | some m => !(s.dropMsg 9).cellAdmits m
      | none => false)),
    decide (((inFlight (.cellAdd 3 1 0) id (remote [] id (fun _ => TCell.zero))).cellAt 3).owner = none),
    decide (((remote [] id (fun c => { c with pend := 1 })).cellAt 3).pend ≠ 0), ((remote [] id (fun c => { c with pend := 1 })).copyFire 3).2,
    decide ((remote [] id (fun c => { c with threshold := 2 })).cellAt 3 = { TCell.zero with owner := some 0, threshold := 2 })] := by
  decide +kernel

/-! Traps and system words -/

/-- Handlers at 0x10000 for both levels and frames from 0x10800 on. -/
def handled (level : Nat) : State := paged (base.updGang (fun g => { g with
  trap := { g.trap with hpc1 := 0x10000, hpc2 := 0x10000, frame := 0x10800, level := level } }))

/-- The bytes of the frame that the trap of code 7 at level 1 leaves in the core's view. -/
def inHandler : State := (handled 0).takeTrap { cause := 0x1C, aux := 7 }

/-- The store of a frame succeeds. -/
def frameStored (s : State) : Bool :=
  let g := s.gang
  let level := g.trap.level + 1
  let q := s.atFrame level
  match q.gangStoreRun g.core g.wid s.wg.part s.wg.pasid 61
      (chunks 128 8 (q.gang.frameBytes (recordBytes { cause := 0x1C } level g.issuingMask g.pcNow.toNat s.ir.toNat))) (g.frameAt level) with
  | .ok _ => decide (q.gang.trap = g.trap) && decide (q.gang.flow.exited = g.flow.exited)
  | .error _ => false

/-- The frame of the handler's level is read and legal. -/
def frameRead (s : State) : Bool :=
  let g := s.gang
  match s.gangLoadRun g.core g.wid s.wg.part s.wg.pasid 61 (List.replicate 8 128) (g.frameAt g.trap.level) with
  | .ok (u, f) => g.frameOk f && (u.regangFar f).isNone && (s.lateOnRun (g.frameAt g.trap.level) 1024 .read).isEmpty &&
      !((u.updGang (fun g => g.restoreFrom f true)).rereadMasks).gang.regangDead
  | .error _ => false

/-- The record of the handler's frame is read, for tdone. -/
def recordRead (s : State) : Bool :=
  let g := s.gang
  isOk (s.gangLoadRun g.core g.wid s.wg.part s.wg.pasid 61 [64] (g.frameAt g.trap.level))

theorem test_hyp_traps : checks [frameStored (handled 0), frameStored (handled 1), decide ((handled 1).gang.hpc 2 ≠ 0),
    decide (base.gang.hpc 1 = 0), decide ((handled 2).gang.trap.level + 1 = 3), decide (inHandler.gang.trap.level = 1),
    inHandler.gang.whole, frameRead inHandler, recordRead inHandler,
    !recordRead (base.updGang (fun g => { g with trap := { g.trap with level := 1, frame := 2 ^ 40 } })),
    ((handled 0).gang.lateOn (((handled 0).leaveSeat (handled 0).cur).runTargets ((handled 0).gang.frameAt 1) 1024 .write)).isEmpty, inHandler.issues (fixedOps [.sr 32 31]), base.issues (fixedOps [.sr 64 30, .sr 64 0xF0]),
    canonical (base.sarg64 30).toNat, addrOk (base.sarg64 0xF0).toNat 2048, decide (base.gang.trap.level = 0), base.gang.whole,
    base.issues (fixedOps [.sr 32 31])] := by decide +kernel

/-- The gang of `base` on a core that is not the reeve core. -/
def plain : State := base.updGang (fun g => { g with wid := 16 })

theorem test_hyp_system : checks [sysRegKnown 0x30, base.privileged, base.issues (fixedOps [.sw 64 30]), base.issues (fixedOps [.sw 32 31]),
    base.issues (fixedOps [.sr 64 30]), base.issues (fixedOps [.sr 32 31]), !plain.privileged, plain.issues (fixedOps [.sw 64 30]),
    plain.issues (fixedOps [.sr 64 30]), plain.issues (fixedOps [.sr 32 31, .sr 128 28]), plain.issues (fixedOps [.sr 32 31]),
    decide (base.gang.releaseReport 4 = none), decide (base.gang.releaseWaits 4 = []),
    decide ((sset base 31 (2 ^ 20 - 1)).sarg 31 = 2 ^ 20 - 1), (sset base 30 1).issues (fixedOps [.sr 32 31, .sr 128 28]), (sset base 30 1).issues (fixedOps [.sr 32 31, .sr 128 0xF0]),
    decide (((sset base 30 (2 ^ 24)).gang.s 0 30).toNat = 2 ^ 24), base.issues (fixedOps [.sr 32 31, .sw 64 30]), base.issues (fixedOps [.sr 32 31, .sw 64 0xF0]),
    base.badSysPart 8, base.badSysPart 7, !base.badSysPart 0, decide (base.preemptTarget 0 = some 0),
    decide (base.preemptTarget 0xFFFFFFFF = none)] := by decide +kernel

/-! Events of the device -/

/-- The gang of `base` with a request for `n` rows into p(d), blocked. -/
def blockedRegrow (d : Code) (n : Nat) : State := small.updGang (fun g => { g with flow := { g.flow with blocks := [(0, .regrow d n 0)] } })

/-- The gang of `base` with the hint, and the seat of its lane group as given. -/
def seated (x : Seat) : State := (base.updGang (fun g => { g with hint := some 0 })).updCore 0 (fun c => { c with seats := [(0, x)] })

/-- An operation of the gang that has performed, behind none, and a younger one. -/
def performed : State := base.updGang (fun g => { g with out := [{ path := 0, id := 1, perf := true, done := false, seq := 1, pc := 0x10000 },
  { path := 0, id := 2, perf := false, done := false, seq := 2, pc := 0x10004 }] })

theorem test_hyp_gangEvents : checks [(base.gang.waitHere 0xFF).mergesAt base.gang.pcNow,
    ({ base.gang with flow := { base.gang.flow with exited := 0xFF } } : Gang).live, decide (base.gang.out = []),
    decide (base.gang.late = []), !(blockedRegrow 23 8).gang.trap.taken,
    decide ((blockedRegrow 0xF0 232).grantable 0 0 = some 0), decide ((blockedRegrow 0xF0 232).gang.regrowBlock = some (0xF0, 232, 0)),
    decide ((blockedRegrow 23 8).grantable 0 0 = some 0), decide ((blockedRegrow 23 8).gang.regrowBlock = some (23, 8, 0)),
    decide ((seated Seat.empty).bestCandidate 0 0 = some 0), decide (16 ≤ (seated Seat.empty).freeRows 0 0),
    ((seated Seat.empty).requests 0 0).isEmpty,
    decide (mapGet Seat.empty ((seated { Seat.empty with holder := some 0, demoting := true }).coreAt 0).seats 0 =
      { Seat.empty with holder := some 0, demoting := true }),
    (base.updGang (fun g => { g with flow := { g.flow with blocks := [(0, .watch)] } })).gang.flow.blocks.contains (0, .watch),
    decide ((seated Seat.empty).seatAt 0 0 = Seat.empty),
    performed.gang.out.drop 1 |>.all (fun x => decide (x.id ≠ 1) && !x.done),
    decide (65536 ≤ ((base.updWg (fun w => { w with mcount := 65536 })).wgAt 0).mcount)] := by decide +kernel

/-- The gang of `atLine` holds its seat, with a load of one word at its PC as the only entry of the window: it performed early
with the values given. -/
def windowed (vals : List (Nat × DWord)) : State := atLine.updCore 0 (fun c => { c with seats := [(0, { Seat.empty with
  holder := some 0
  window := [{ group := 0, pc := atLine.gang.pcNow, word := 0xA4040000, rows := [(4, 4)], side := 0, loaded := some vals
               early := true, sent := false }] })] })

/-- What the load of that entry finds: 0 in every lane of v4. -/
def zeros : List (Nat × DWord) := (List.range 32).map (fun l => (128 + l, 0))

theorem test_hyp_window : checks ([zeros, []].map (fun vals => match (windowed vals).seatOf 0 with
    | some x => (match x.window with
      | e :: _ => (windowed vals).gang.leads e.group e.pc && decodesTo (e.word, .ldw 4 0 0 0) &&
          decide (e.loaded = some vals) && (match loadRun (.ldw 4 0 0 0) ((windowed vals).atEntry 0 e) with
            | some (.next u) => ((windowed vals).atEntry 0 e).ranFrom u 0 e.group &&
                decide (((windowed vals).atEntry 0 e).loadFound u 0 e (.ldw 4 0 0 0) = zeros)
            | _ => false)
      | [] => false)
    | none => false)) ∧
    ((windowed []).updGang Gang.advance).gang.leads 0 atLine.gang.pcNow = false := by decide +kernel

/-- An invalidation of the gang with nothing left to perform, and a call of the firmware; each is what its PC-group waits for. -/
def maintained : State := { base.updGang (fun g => { g with flow := { g.flow with blocks := [(0, .invalidation 5)] } }) with
  invals := [{ gang := 0, id := 5, msgs := [], late := [] }] }
def called : State := { base.updGang (fun g => { g with flow := { g.flow with blocks := [(0, .firmware 6)] } }) with
  fwcalls := [{ gang := 0, id := 6, code := 0, arg := 0, dest := 30 }] }

theorem test_hyp_completions : checks [
    (maintained.invals.find? (fun v => decide (v.gang = 0) && decide (v.id = 5) && maintained.invalDone v)).isSome,
    decide (maintained.gang.flow.blocks = [(maintained.gang.flow.served, .invalidation 5)]),
    (called.fwcalls.find? (fun c => decide (c.gang = 0))).isSome,
    decide (called.gang.flow.blocks = [(called.gang.flow.served, .firmware 6)]), called.gang.issuing 0] := by decide

/-- The workgroup of `base` has a post and its gang has taken it. -/
def yielding : State := (base.updGang (fun g => { g with trap := { g.trap with preempt := true, taken := true } })).updWg (fun w =>
  { w with posted := some 0x20000 })

/-- An open entry of die 7 of the kind, in the PASID as given. -/
def faulted (kind : Nat) (cause : Byte) : State :=
  base.updDie 7 (fun d => { d with opened := [{ entry := 1023, kind := kind, key := 0, ident := 0, record := { cause := 1 }, bytes := [0, cause] }] })

/-- The group of `grouped` at the die level or above, with a node in which every member has arrived. -/
def gathered (node : Nat) : State := (grouped 9).updGroup 1023 (fun g => { g with
  bound := some 0, nodes := [(node, { cur := 3, pending := 3, arrived := 3, passed := false })] })

/-- A saved workgroup of partition 0 without gangs or tiles. -/
def kept : Saved := { id := 0, wid := 0, addr := 0x20000, bytes := 0, part := 0, pasid := 1, launch := 0, nbh := none, nbhId := 0, age := 0,
                      pb := 0, z := 1024, barn := 0, barw := [], cmds := [], ops := [], gangs := [], ended := [] }

theorem test_hyp_systemEvents : checks [
    (match (paged base).walkDone 1 0x10000 (accOf 0) with
      | .ok _ => true
      | .error _ => false),
    (match base.walkDone 1 0x10000 (accOf 2) with
      | .ok _ => false
      | .error _ => true),
    ((faulted 0 0).openEntry 7 1023).isSome, ((faulted 2 0).openEntry 7 1023).any (fun a => decide ((a.bytes.getD 1 0).toNat ≠ 3) &&
      !(faulted 2 0).direct a), ((faulted 0 0).dieAt 7).waiting.isEmpty,
    ((faulted 2 0).openEntry 7 1023).any (fun a => decide (ofBytesLE ((a.bytes.drop 8).take 2) = (faulted 2 0).pasidGen (ofBytesLE ((a.bytes.drop 4).take 4)))),
    decide (base.preemptTarget 0 = some 0), base.wg.posted.isNone, yielding.wg.posted.isSome, yielding.readyToSave 0,
    decide (levelNeed (base.savedContext kept) 1 + (base.clusterAt 0).accUsed.length ≤ 64), base.restorable kept 1,
    (({ base with teardowns := [{ pasid := 1, pkt := 5, queue := 4095, gen := 0 }] } : State).queueAt 4095).packet 6 5 |>.isNone,
    (((gathered 23).groupAt 1023).node 23).full, !(((gathered 23).groupAt 1023).node 23).passed, decide (2 ≤ ngLevel ((gathered 23).ngEntry 0 1023)), (gathered 1).groupDone 0 1023] := by
  decide +kernel


/-- Queue 9 of partition 0 and PASID 1: its ring of 512 units at 0x11000 holds the bytes, its doorbell 0x12000 one unit more. -/
def queued (bs : List Byte) : State :=
  ((paged base).writeHomeList 0x11000 bs).writeHomeNum 0x12000 4 (bs.length / 8) |>.updQueue 9 (fun q =>
    { q with desc := fill 64 [(0, 8, 0x11000), (8, 1, 9), (0x0B, 1, 1), (0x0C, 4, 1), (0x10, 8, 0x12000), (0x18, 8, 0x12004)],
             wr := BitVec.ofNat 32 (bs.length / 8) })

/-- A packet of a type: its fields are tag, length and value (17 R414, R415). -/
def packet (type : Nat) (fs : List (Nat × Nat × Nat)) : List Byte :=
  let body := (fs.map (fun f => bytesLE 4 (f.1 * 65536 + f.2.1) ++ bytesLE (roundUp f.2.1 4) f.2.2)).flatten
  let n := (8 + body.length + 7) / 8
  bytesLE 8 (type + n * 65536) ++ body ++ List.replicate (8 * n - 8 - body.length) 0

/-- A packet in the management queue. -/
def managed (fs : List (Nat × Nat × Nat)) : State :=
  let bs := packet 6 fs
  (base.putWindowList 0xC0000 bs).updQueue mgmtQueue (fun q => { q with wr := BitVec.ofNat 32 (bs.length / 8) })

/-- The packet at the head of the queue starts as one of the type. -/
def startsB (s : State) (k type : Nat) : Bool := match (s.head k).2 with
  | .pkt _ b => s.mayStart (s.queueAt k) (pktHeader b) && decide (s.packetCause k b = 0) && decide (pktHeader b % 256 = type)
  | _ => false

/-- The state in which the packet at the head runs. -/
def started (s : State) (k : Nat) : State := match s.head k with
  | (t, .pkt fed b) => (t.takeHead k fed b).takeId.2.updQueue k (fun q => { q with running := q.running ++ [s.packetOf k b] })
  | _ => s

/-- The fields of the packet at the head. -/
def fieldsOf (s : State) (k : Nat) : List PField := match (s.head k).2 with
  | .pkt _ b => (scanFields b.length (b.drop 8)).1
  | _ => []

theorem starts_of {s : State} {k type : Nat} (h : startsB s k type = true) : ∃ p fs u, s.starts k type p fs u := by
  unfold startsB at h
  split at h
  next fed b hb =>
    simp only [Bool.and_eq_true, decide_eq_true_eq] at h
    exact ⟨_, _, _, (s.head k).1, fed, b, by rw [← hb], h.1.1, h.1.2, h.2, rfl, rfl, rfl⟩
  next => exact absurd h (by decide)

/-- A COPY of 4 bytes, and the reading of a field in the packet at the head. -/
def copied : State := queued (packet 4 [(0x40, 8, 0x10000), (0x41, 8, 0x10100), (0x42, 4, 4)])
/-- A SIGNAL that writes 0 at 0x10100. -/
def signalled : State := queued (packet 5 [(0x50, 16, 0x10100)])
/-- A TRIGGER-ARM of cell 3, which is the partition's. -/
def arming : State := { queued (packet 3 [(0x30, 4, 3), (0x31, 64, ofBytesLE cellBlock)]) with cells := [(3, { TCell.zero with owner := some 0 })] }
/-- Op 1 of a PARTITION packet for partition 1, with cluster 1 and channel 1. -/
def configuring : State := managed [(0x60, 4, 1), (0x61, 4, 1), (0x62, 16, 2), (0x63, 24, 2), (0x64, 4, 12), (0x65, 4, 255), (0x67, 8, 0),
  (0x68, 8, 0), (0x69, 16, 3221225472), (0x6B, 16, 3221225472 + 16 * 2 ^ 64)]
/-- The other ops for partition 0. -/
def partitionOp (op : Nat) : State := managed ([(0x60, 4, op), (0x61, 4, 0)] ++ (if op = 3 then
  [(0x66, 66, 9 + 2 ^ 16 * ofBytesLE (fill 64 [(0, 8, 0x11000), (8, 1, 9), (0x0B, 1, 1), (0x0C, 4, 1)]))] else []) ++
  if op = 4 then [(0x6A, 4, 1)] else [])

/-- The second GiB of PASID 1 is device 1's. -/
def twoHomes (s : State) : State := s.writeHomeNum 0x3008 8 (2 ^ 40 + 0x1F)
/-- A SIGNAL there, and one at an address without a page; a COPY to such an address. -/
def signalledFar (a : Nat) : State := twoHomes (queued (packet 5 [(0x50, 16, a)]))
@[inherit_doc signalledFar]
def copiedFar : State := queued (packet 4 [(0x40, 8, 0x10000), (0x41, 8, 2 ^ 31), (0x42, 4, 4)])
/-- The agent of the copy that runs in `u`. -/
def copyAgent (u : State) : Agent := { core := u.reeveCore (((u.partAt 0).clusters.headD 0) / 15), part := 0, pasid := 1, op := 0, idx := 0 }
/-- An end of partition 0 waits. -/
def ending : State := { base with endings := [{ op := 2, what := 0, pkt := 1 }] }

theorem test_hyp_packets : checks [(signalledFar (2 ^ 30)).pasidLive 1, isOk ((started (signalledFar (2 ^ 30)) 9).signalWrite
      ((started (signalledFar (2 ^ 30)) 9).packetOf 9 (packet 5 [(0x50, 16, 2 ^ 30)])) (fieldsOf (signalledFar (2 ^ 30)) 9)).2,
    (let v := (started (signalledFar (2 ^ 30)) 9).signalWrite ((started (signalledFar (2 ^ 30)) 9).packetOf 9
      (packet 5 [(0x50, 16, 2 ^ 30)])) (fieldsOf (signalledFar (2 ^ 30)) 9)
     v.1.engBusy ((started (signalledFar (2 ^ 30)) 9).packetOf 9 (packet 5 [(0x50, 16, 2 ^ 30)])).id),
    startsB (signalledFar (2 ^ 31)) 9 5, !isOk ((started (signalledFar (2 ^ 31)) 9).signalWrite
      ((started (signalledFar (2 ^ 31)) 9).packetOf 9 (packet 5 [(0x50, 16, 2 ^ 31)])) (fieldsOf (signalledFar (2 ^ 31)) 9)).2,
    startsB copiedFar 9 4, (State.copyUnits (copyAgent (started copiedFar 9)) (.glob 0x10000) (.glob (2 ^ 31)) 4 3 0 (started copiedFar 9)).2.2.isSome,
    !ending.endings.isEmpty, base.endings.isEmpty, (base.partAt 0).live,
    !base.engBusy 0, (base.queueAt mgmtQueue).up mgmtQueue, (base.readDoorbell mgmtQueue).2.isSome, ((queued []).queueAt 9).up 9,
    ((queued []).readDoorbell 9).2.isSome, startsB (queued (packet 2 [(0x20, 16, 0x10000)])) 9 2,
    ((started (queued (packet 2 [(0x20, 16, 0x10000), (0x21, 4, 1)])) 9).queueAt 9).running.any (fun p => decide (p.type = 2) &&
      decide (fieldNum (scanFields p.bytes.length (p.bytes.drop 8)).1 0x21 0 4 ≠ 0)),
    startsB arming 9 3, ((started arming 9).cellAt (fieldNum (fieldsOf arming 9) 0x30 0 4)).armable 0, startsB copied 9 4,
    (let u := started copied 9
     (State.copyUnits { core := u.reeveCore (((u.partAt 0).clusters.headD 0) / 15), part := 0, pasid := 1, op := 0, idx := 0 } (.glob 0x10000) (.glob 0x10100)
       4 3 0 u).2.2.isNone), startsB signalled 9 5,
    isOk ((started signalled 9).signalWrite ((started signalled 9).packetOf 9 (packet 5 [(0x50, 16, 0x10100)])) (fieldsOf signalled 9)).2] := by
  decide +kernel

/-- Op 1 for partition 0, which is in use, and for partition 1 with a channel of partition 0's too. -/
def reconfiguring (p : Nat) : State := managed [(0x60, 4, 1), (0x61, 4, p), (0x62, 16, 2), (0x63, 24, 2 + p), (0x64, 4, 12), (0x65, 4, 255), (0x67, 8, 0),
  (0x68, 8, 0), (0x69, 16, 3221225472), (0x6B, 16, 3221225472 + 16 * 2 ^ 64)]

theorem test_hyp_reconfigure : checks ([0, 1].map (fun p => startsB (reconfiguring p) mgmtQueue 6 && (reconfiguring p).endings.isEmpty &&
    decide ((started (reconfiguring p) mgmtQueue).configRefused p (fieldsOf (reconfiguring p) mgmtQueue) = decide (p = 1)) &&
    (decide (p = 1) || ((started (reconfiguring p) mgmtQueue).partAt p).live))) := by decide +kernel

theorem test_hyp_partitions : checks ([2, 3, 4, 5].map (fun n => startsB (partitionOp n) mgmtQueue 6 &&
      decide (fieldNum (fieldsOf (partitionOp n) mgmtQueue) 0x60 0 4 = n) &&
      ((started (partitionOp n) mgmtQueue).partAt (fieldNum (fieldsOf (partitionOp n) mgmtQueue) 0x61 0 4)).live) ++
    [configuring.endings.isEmpty, !((started configuring mgmtQueue).partAt 1).live, startsB configuring mgmtQueue 6, decide (fieldNum (fieldsOf configuring mgmtQueue) 0x60 0 4 = 1),
      !(started configuring mgmtQueue).configRefused 1 (fieldsOf configuring mgmtQueue),
      decide (fieldNum (fieldsOf (partitionOp 3) mgmtQueue) 0x66 0 2 ≠ mgmtQueue),
      decide (blockNum (((getField (fieldsOf (partitionOp 3) mgmtQueue) 0x66).getD []).drop 2) 0x0A 1 = 0),
      ((started (partitionOp 3) mgmtQueue).queueAt 9).desc.isEmpty]) := by decide +kernel

/-- A legal launch record of one workgroup of one gang with 8 registers, in its flags (17 R422). -/
def record (flags : Nat) : List Byte := fill 256 [(0, 8, 0x10000), (8, 4, 1), (0x0C, 2, flags), (0x14, 4, 1024), (0x20, 8, 2 ^ 32 + 8 * 2 ^ 40)]

/-- A launch of a record in partition 0, with its code. -/
def launch (flags : Nat) (code : Option DWord) : Launch :=
  { id := 7, queue := 9, prio := 0, pkt := 0, part := 0, pasid := 1, record := record flags, addr := 0x10800, args := [], code := code,
    stride := 1, next := 0, retired := 0, fatal := none, passes := 0, failedOnce := false, aged := false, doom := none }

/-- A LAUNCH packet of the record at 0x10800. -/
def launching : State := (queued (packet 1 [(0x10, 8, 0x10800)])).writeHomeList 0x10800 (record 0)

/-- The launch waits for the dispatcher. -/
def headed : State := { base with launches := [launch 0 (some 0x10000)] }

/-- The choice of die 0 for it. -/
def choice : Option (Launch × List Nat) := (headed.updDie 0 (fun d => d.enter ((headed.candidates 0).map (fun c => c.1.part)).eraseDups)).choose 0
  (headed.candidates 0)

/-- A launch whose record lies at an address without a page. -/
def unreadable : State := queued (packet 1 [(0x10, 8, 2 ^ 31)])

/-- The choice of core 1 for the launch is in progress; a line of another device of a core that it takes back is on its way. -/
def admitting (draining : Bool) : State :=
  let s := { headed with admission := some (7, [1], 0) }
  if draining then { s with msgs := [{ Msg.blank with id := 9 }] }.updCore 1 (fun c => { c with drains := [9] }) else s

theorem test_hyp_admissions : checks [(admitting false).reclaimBegun (launch 0 (some 0x10000)) [1], !(admitting false).reclaimPending [1],
    (admitting true).reclaimBegun (launch 0 (some 0x10000)) [1], (admitting true).reclaimPending [1],
    !((admitting true).updCore 1 (fun c => { c with reclaiming := [0] })).reclaimBegun (launch 0 (some 0x10000)) [1],
    (admitting false).stillFits (launch 0 (some 0x10000)) [1], !(admitting false).launchFailed (launch 0 (some 0x10000)),
    !({ base with gangs := [] } : State).lateLeft 0, startsB unreadable 9 1,
    !isOk ((started unreadable 9).readRun 0 5 1 (2 ^ 31) 256).2, (launch 0 none).doom.isNone] := by decide +kernel

theorem test_hyp_launches : checks [startsB launching 9 1,
    (match ((started launching 9).readRun 0 5 1 (fieldNum (fieldsOf launching 9) 0x10 0 8) 256).2 with
      | .ok b => decide (b = record 0)
      | .error _ => false),
    (launch 0 none).recordOk, (launch 1 none).recordOk, !(launch 16 none).recordOk, !bit (launch 0 none).flags 2,
    (launch 0 none).groupRequests.isEmpty, decide ((launch 0 none).num 0x88 1 = 0), !launching.neverFits (launch 0 none),
    (let s := (({ base with launches := [launch 1 none] } : State).updPart 0 (fun p => { p with
        codeTable := [(0x10000, 5)]
        natives := [{ digest := 5, base := 0x20000, place := 0x20000, size := 0, stride := 4, kernels := [], cached := true }] }))
     (((s.partAt 0).codeTable.find? (fun x => decide (x.1 = (launch 1 none).num 0 8))).bind (fun e => (s.partAt 0).tabled e.2)).isSome),
    headed.admission.isNone, (headed.newlyFailed 0).isEmpty, decide (choice = some (launch 0 (some 0x10000), [1])),
    headed.stillFits (launch 0 (some 0x10000)) [1], !headed.launchFailed (launch 0 (some 0x10000)), headed.isHead (launch 0 (some 0x10000)), headed.onDie (launch 0 (some 0x10000)) 0,
    decide ((({ headed with gangs := [] } : State).gangsOf 0) = []), base.wg.live] := by decide +kernel

/-- Partition 0 holds every channel, and its policy grants the host and every device all rights (18 R440). -/
def granted : State := base.updPart 0 (fun p => { p with
  channels := List.range 192
  policy := fill 64 [(8, 1, 3), (16, 8, 2303 * 2 ^ 12 + 255 * 2 ^ 24 + 7 * 2 ^ 32 + 2 ^ 35)] })

/-- Link 35 is up. -/
def linked (f : Link → Link) : State := granted.updLink 35 (fun k => f { k with up := true, far := some 1 })

/-- The header of a message of the kind from device 1 to device 0 (18 R433). -/
def header (kind : Nat) : DWord := BitVec.ofNat 64 (2 ^ 40 + kind * 16)

theorem test_hyp_fabric : checks [policyOk 0 (base.windowBytes 0 64), policyOk 7 (base.windowBytes 448 64),
    granted.admitsHost (granted.channelOwner (channelOf 0)) 3, granted.admitsHost (granted.channelOwner (channelOf (localLimit - 1))) 3,
    granted.badLines.isEmpty, decide (base.sigIndex < 2 ^ 20), ((linked (fun k => { k with draining := true })).linkAt 35).draining,
    !(linked id).outstanding 35, ((linked id).linkAt 35).up,
    ((linked id).updPart 0 (fun p => { p with blocked := [(1, 0)] })).parts.any (fun e => e.2.blocked.contains ((lumenHeader (header 3)).src, (lumenHeader (header 3)).spart)),
    [0, 2, 3, 16].all (fun n => (linked id).headerOk (lumenHeader (header n)) && decide ((lumenHeader (header n)).kind = n)),
    [17, 23].all (fun n => (linked id).headerOk (lumenHeader (header n)) && decide ((lumenHeader (header n)).kind = n)),
    decide (((linked (fun k => { k with replays := 7 })).linkAt 35).replays < 8), granted.inbound.isEmpty,
    (granted.inboundCause false 1 7 2 (localLimit - 8) 8).isNone, decide (granted.inboundCause false 1 7 2 (localLimit - 4) 8 = some 0),
    decide (base.inboundCause false 1 7 0 0 4 = some 1), ({ granted with pcieUp := true } : State).pcieUp, !granted.pcieUp,
    base.memRequest { Msg.blank with dst := 1, kind := .write 4 }, decide ((2303 : Nat) < 2304)] := by decide +kernel

/-- The power state as given. -/
def powered (f : Power → Power) : State := { State.reset with power := f State.reset.power }

theorem test_hyp_power : checks [!pointOk 2500 800, !pointOk 2400 801, pointOk 2400 800, floorOk 2400 800, pointOk 800 600, floorOk 800 600,
    pointOk 2400 795, !floorOk 2400 795, (powered (fun p => { p with throttled := true })).power.throttled, !State.reset.power.busy,
    (powered (fun p => { p with clockStopped := true, phase := 3 })).power.clockStopped, State.reset.power.waiting.isNone,
    decide ((powered (fun p => { p with phase := 1, busy := true })).power.phase = 1), decide ((powered (fun p => { p with phase := 4 })).power.phase = 4),
    decide ((powered (fun p => { p with clockStopped := true, phase := 2 })).power.phase = 2),
    decide (State.reset.power.reqFreq ≤ State.reset.power.capFreq), decide (State.reset.power.cap < 3601),
    decide (800 < State.reset.power.freq), decide (4831838207 * 128 < localLimit), (paged base).pasidLive 1, decide (agreed [1, 2, 2] = some 2)] := by
  decide +kernel

/-! ### Worked examples of the spec, one step each -/

/-- The word runs, and the next state passes the check. -/
def runs (i : Instr) (s : State) (f : State → Bool) : Bool := nextHas (exec i s) f

/-- Lane 0 of vector register `r` holds the value. -/
def vIs (r x : Nat) (t : State) : Bool := decide ((t.gang.v r 0).toNat = x)

/-- v5 and v6 of lane 0 hold the values, under the MODE image. -/
def two (m x y : Nat) : State := vset (vset (moded base m) 5 0 x) 6 0 y

/-- 05 R131's table: each row's dividend, divisor, quotient and remainder, under i32. -/
theorem test_division_table : checks ([(7, 2, 3, 1), (2 ^ 32 - 7, 2, 2 ^ 32 - 3, 2 ^ 32 - 1), (7, 2 ^ 32 - 2, 2 ^ 32 - 3, 1),
    (2 ^ 32 - 7, 2 ^ 32 - 2, 3, 2 ^ 32 - 1), (2 ^ 31, 2 ^ 32 - 1, 2 ^ 31, 0)].map (fun r =>
      let s := execd (two (0x7A001F + 640) r.1 r.2.1) 1
      runs (.idiv 4 5 6) s (vIs 4 r.2.2.1) && runs (.irem 4 5 6) s (vIs 4 r.2.2.2))) := by decide +kernel

/-- 05 R131's last row but one with MODE.sat = 1: Max(t). -/
theorem test_division_saturates : runs (.idiv 4 5 6) (execd (two (0x7A001F + 640 + 0x4000) (2 ^ 31) (2 ^ 32 - 1)) 1) (vIs 4 (2 ^ 31 - 1)) = true := by
  decide +kernel

/-- 05, "A packed addition under three modes". -/
theorem test_packed_addition : checks ([(0x7A431F, 0x7F80007F), (0x7A031F, 0x807F0083), (0x7A441F, 0x80FFFF83)].map (fun r =>
    runs (.iadd 4 5 6) (two r.1 0x7F800105 0x01FFFF7E) (vIs 4 r.2))) := by decide +kernel

/-- 05 R140's example: lea under f32 and under n32. -/
theorem test_lea_example : checks ([(0x7A001F + 64, 0xFF4, 0x40), (0x7A001F + 14 * 64, 0xFF4, 0x44)].map (fun r =>
    runs (.lea 10 8 12) (vset (vset (vset (moded base r.1) 8 0 0x1000) 9 0 0x40) 12 0 0xFFFFFFFD) (fun t => vIs 10 r.2.1 t && vIs 11 r.2.2 t))) := by
  decide +kernel

/-- 06, "A packing example". -/
theorem test_packing_example : runs (.cvtpk 8 4) (vset (vset (vset (vset (typed 5) 4 0 0x3FC00000) 5 0 0xC0100000) 6 0 0x43FA0000) 7 0
    0x3A83126F) (fun t => vIs 8 0x017EC13C t && decide (t.gang.regs.fpf = 0x1C)) = true := by decide +kernel

/-- A gang whose group has lengths 3, 0, 2 and 4 in lanes 0 to 3 (12 R306's example), in round 0. -/
def lengths : State :=
  (base.updWg (fun w => { w with groups := [{ members := [0], total := 9, start := [], pre := [(1, 3), (2, 3), (3, 5)] ++ (List.range 28).map (fun i => (i + 4, 9)) }] })).updGang (fun g =>
      { g with regs := { g.regs with xst := xstOf 2 0 0 0 } })

theorem test_expn_example : runs (.expn 3 4) lengths (fun t =>
    decide (((List.range 10).map (fun l => t.gang.p 3 l)) = List.replicate 9 true ++ [false]) && !t.gang.p 4 0 &&
    decide (((List.range 9).map (fun l => (mapGet 0 t.gang.regs.xk l).toNat)) = [0, 1, 2, 0, 1, 0, 1, 2, 3])) = true := by decide +kernel

/-- 12 R317's example: a table with L = 2 and plim 2; lanes 0 to 4 hold keys 1, 3, 5, 11 and 2, and the guard is p5. -/
def hashed : State :=
  let s := moded (barned (fill 48 [(4, 1, 2), (6, 1, 10), (7, 1, 2), (16, 4, 2 ^ 32 - 1), (24, 4, 2 ^ 32 - 1), (32, 4, 2 ^ 32 - 1),
    (40, 4, 2 ^ 32 - 1)])) (0x7A0000 + 640 + 5)
  (List.range 5).foldl (fun s l => vset (vset s 8 l ([1, 3, 5, 11, 2].getD l 0)) 10 l (10 + l))
    (execd (s.updGang (fun g => g.putP 5 (fun _ => true) (fun _ => true))) 0x1F)

theorem test_hins_example : runs (.hins 0 8 10) hashed (fun t =>
    decide (((List.range 5).map (fun l => t.gang.p 5 l)) = [true, true, true, true, false]) &&
    decide (blockNum (t.barnBlock 0 48) 0 4 = 4) && decide (blockNum (t.barnBlock 0 48) 9 1 = 1) &&
    decide (([16, 24, 32, 40].map (fun o => blockNum (t.barnBlock 0 48) o 4)) = [5, 11, 1, 3])) = true := by decide +kernel

/-- 13 R331's example: two products of 2^-24 on an accumulator of 1 make 0x3F800001. -/
theorem test_kstep_example : stepElem 1 0x3F800000 [elemValue 2 false 0x3980, elemValue 2 false 0x3980]
    [elemValue 2 false 0x3980, elemValue 2 false 0x3980] = 0x3F800001 := by decide +kernel

/-- 15 R381's example: threshold 3, rearm 1; raises of 2, 1 and 2, in two orders, leave 2. -/
theorem test_cell_example : checks ([[2, 2, 1], [1, 2, 2]].map (fun ns =>
    decide (((ns.foldl (fun s n => s.raiseCell 3 n) (remote [] id (fun c => { c with threshold := 3, flags := 3 }))).cellAt 3).counter = 2))) := by
  decide +kernel

/-- 19, the three requests. -/
theorem test_dvfs_example : runs (.dvfsReq (2000 + 750 * 65536)) State.reset (fun t =>
    t.power.busy && t.power.clockStopped && decide (t.power.volt = 800) && decide (t.power.deny = 0)) = true ∧
  runs (.dvfsReq (2400 + 780 * 65536)) (powered (fun p => { p with freq := 2000, volt := 750 })) (fun t =>
    !t.power.busy && decide (t.power.deny = 2) && decide (t.power.freq = 2000)) = true := by decide +kernel

end Sys2Proof.Tests
end

section
/-! SUPPORT. How a word runs whose meaning is the prologue and then one result: a predicate result, a 32-bit vector
result, and a result that is a pair where the lane is wide; and the forms that share one such result (03 R81; 05 R133,
R134; 06 R161). -/

namespace Sys2Proof.Machine

/-- A predicate form (03 R81): the prologue, then one bit in each lane of Active(). -/
theorem predRuns_of_predForm {i : Instr} {s : State} {d : Code} {srcs : List Opnd} (x : State → Nat → Bool)
    (he : exec i s = predForm s d srcs x) : predRuns i s (fixedOps (.pw d :: srcs)) d s.gang.active (x s) := fun hi =>
  ⟨_, he.trans (guardOps_issues hi _), predStep_putP0 s d s.gang.active (x s)⟩

/-- A compare form (05 R133): the relation of the two elements in each lane of Active(). -/
theorem predRuns_of_compareForm {i : Instr} {s : State} {d a b : Code} (r : Int → Int → Bool)
    (he : exec i s = compareForm s d a b r) :
    predRuns i s (fieldsP wideTypes d a b) d s.gang.active (fun l => r (s.ielem a l 0) (s.ielem b l 0)) := fun hi =>
  ⟨_, he.trans (guardOps_issues hi _), predStep_putP0 s d s.gang.active _⟩

/-- The prologue, then a 32-bit vector result on Active(). -/
theorem vecRuns_of_putV32 {i : Instr} {s : State} {f : OpndsOf} {d : Code} (x : State → Nat → Word)
    (he : exec i s = guardOps s f (fun s => finishWith s (fun g => g.putV32 d s.gang.active (x s)))) :
    vecRuns i s f d (fun _ => false) s.gang.active (fun l => (x s l).setWidth 64) := fun hi =>
  ⟨_, he.trans (guardOps_issues hi _), vecStep_putV32_0 s d s.gang.active (x s)⟩

/-- The prologue, then a vector result on Active() that is a pair where the lane's etype is wide (05 R121). -/
theorem vecRuns_of_vecFinish {i : Instr} {s : State} {f : OpndsOf} {d : Code} (x : State → Nat → DWord)
    (he : exec i s = guardOps s f (fun s => vecFinish s d (x s))) :
    vecRuns i s f d s.wideLane s.gang.active (x s) := fun hi =>
  ⟨_, he.trans (guardOps_issues hi _), vecStep_putV0 s d s.wideLane s.gang.active (x s)⟩

/-- A select form (05 R134; 06 R161): EXEC alone chooses the lanes, and the guard the source. -/
theorem vecRuns_of_selectForm {i : Instr} {s : State} (ok : Nat → Bool) {d a b : Code}
    (he : exec i s = selectForm s ok d a b) :
    vecRuns i s (fields3 ok d a b) d s.wideLane s.execLane
      (fun l => s.vsrc (.int (vwidth (s.gang.et l))) (if s.gang.guard l then a else b) l) := fun hi => by
  have hx : ∀ l, s.vsrc (.int (vwidth (s.gang.et l))) (if s.gang.guard l then a else b) l =
      if s.gang.guard l then s.vsrc (.int (vwidth (s.gang.et l))) a l
      else s.vsrc (.int (vwidth (s.gang.et l))) b l := fun l =>
    apply_ite (fun c => s.vsrc (.int (vwidth (s.gang.et l))) c l) _ _ _
  simp only [hx]
  exact ⟨_, he.trans (guardOps_issues hi _), vecStep_putV0 s d s.wideLane s.execLane _⟩

end Sys2Proof.Machine
end

section
/-! The predicate words (03 R81, R83; 05 R133). -/

namespace Sys2Proof.Machine

/-- pxor (03 R81). -/
theorem predRuns_pxor (s : State) (d a b : Code) :
    predRuns (.pxor d a b) s (fixedOps [.pw d, .pr a, .pr b]) d s.gang.active
      (fun l => xor (s.gang.psrc a l) (s.gang.psrc b l)) := by
  simp only [← Bool.bne_eq_xor]
  exact predRuns_of_predForm (fun s l => s.gang.psrc a l != s.gang.psrc b l) rfl

/-- vote (03 R83): any, all or uni, as the selector names; the reserved selector 3 is excluded. -/
theorem predRuns_vote (s : State) (d a : Code) {v : BitVec 2} (hv : v ≠ 3) :
    predRuns (.vote d a v) s (fixedOps [.pw d, .pr a]) d s.gang.active (fun _ =>
      if v = 0 then s.gang.ballotMask a ≠ 0
      else if v = 1 then s.gang.ballotMask a = s.gang.activeMask
      else s.gang.ballotMask a = s.gang.activeMask ∨ s.gang.ballotMask a = 0) := by
  have hcases : ∀ u : BitVec 2, u ≠ 3 → u = 0 ∨ u = 1 ∨ u = 2 := by decide
  obtain rfl | rfl | rfl := hcases v hv
  · have h := predRuns_of_predForm (i := .vote d a 0) (s := s) (fun s _ => decide (s.gang.ballotMask a ≠ 0)) rfl
    simpa using h
  · have h := predRuns_of_predForm (i := .vote d a 1) (s := s)
      (fun s _ => decide (s.gang.ballotMask a = s.gang.activeMask)) rfl
    simpa using h
  · have h := predRuns_of_predForm (i := .vote d a 2) (s := s)
      (fun s _ => decide (s.gang.ballotMask a = s.gang.activeMask) || !decide (s.gang.ballotMask a ≠ 0)) rfl
    simpa using h

/-- Settles O9: the logic and the comparisons by their forms, the vote by its selector. -/
theorem predicateForms : Obligations.PredicateForms := fun s d a b _ =>
  ⟨predRuns_of_predForm (fun s l => s.gang.psrc a l && s.gang.psrc b l) rfl,
    predRuns_of_predForm (fun s l => s.gang.psrc a l || s.gang.psrc b l) rfl,
    predRuns_pxor s d a b,
    predRuns_of_predForm (fun s l => !s.gang.psrc a l) rfl,
    predRuns_of_predForm (fun s l => (s.ssrc a (l / 4)).getLsbD l) rfl,
    predRuns_vote s d a,
    predRuns_of_compareForm (fun x y => decide (x = y)) rfl,
    predRuns_of_compareForm (fun x y => decide (x ≠ y)) rfl,
    predRuns_of_compareForm (fun x y => decide (x < y)) rfl,
    predRuns_of_compareForm (fun x y => decide (x ≤ y)) rfl⟩

end Sys2Proof.Machine
end

section
/-! The moves, selections and shuffles of vector registers (05 R134, R135; 06 R161; 03 R83, R84). -/

namespace Sys2Proof.Machine

/-- shfl (03 R84): under one etype each lane takes the lane that b names, or itself where that one is not active. -/
theorem vecRuns_shfl {s : State} (hm : s.gang.sameMode modeEtype = true) (d a b : Code) :
    vecRuns (.shfl d a b) s (etypeOps (fun _ => true) (fun t => [.vw (vwidth t) d, .vr (vwidth t) a, .vr 32 b])) d
      s.wideLane s.gang.active (fun l => s.vsrc (.int (vwidth (s.gang.et l))) a
        (if s.gang.active ((s.vsrc32 b l).toNat % 32) then (s.vsrc32 b l).toNat % 32 else l)) :=
  vecRuns_of_vecFinish (fun s l => s.vsrc (.int (vwidth (s.gang.et l))) a
    (if s.gang.active ((s.vsrc32 b l).toNat % 32) then (s.vsrc32 b l).toNat % 32 else l)) (if_neg (by simp [hm]))

/-- The lane that shfli reads (03 R84): the one that it names where that one is active, otherwise the lane itself. -/
def shuffleSource (s : State) (m : BitVec 2) (c : BitVec 5) (l : Nat) : Nat :=
  match shuffleLane m.toNat c.toNat l with
  | some j => if s.gang.active j then j else l
  | none => l

theorem shuffleSource_eq_getD (s : State) (m : BitVec 2) (c : BitVec 5) (l : Nat) :
    shuffleSource s m c l = ((shuffleLane m.toNat c.toNat l).filter s.gang.active).getD l := by
  unfold shuffleSource
  cases shuffleLane m.toNat c.toNat l with
  | none => rfl
  | some j => by_cases hj : s.gang.active j = true <;> simp [Option.filter, hj]

/-- shfli (03 R84): under one etype each lane takes the lane that it reads. -/
theorem vecRuns_shfli {s : State} (hm : s.gang.sameMode modeEtype = true) (d : Code) (m : BitVec 2) (c : BitVec 5) :
    vecRuns (.shfli d m c) s (etypeOps (fun _ => true) (fun t => [.vx (vwidth t) d])) d s.wideLane s.gang.active
      (fun l => s.vsrc (.int (vwidth (s.gang.et l))) d
        (((shuffleLane m.toNat c.toNat l).filter s.gang.active).getD l)) := by
  simp only [← shuffleSource_eq_getD]
  exact vecRuns_of_vecFinish (fun s l => s.vsrc (.int (vwidth (s.gang.et l))) d (shuffleSource s m c l))
    (if_neg (by simp [hm]))

/-- Settles O12: the moves by their one result, the selections by their form, the shuffles under one etype. -/
theorem vectorMoves : Obligations.VectorMoves := fun _ d a b i m c =>
  ⟨vecRuns_of_putV32 (fun _ _ => i.signExtend 32) rfl,
    vecRuns_of_putV32 (fun s l => i ++ (s.vsrc32 d l).setWidth 16) rfl,
    vecRuns_of_vecFinish (fun s l => if s.wideLane l then s.ssrc64 a (l / 4) else (s.ssrc a (l / 4)).setWidth 64) rfl,
    vecRuns_of_vecFinish (fun s l => s.vsrc (.int (vwidth (s.gang.et l))) a l) rfl,
    vecRuns_of_selectForm intTypes rfl,
    vecRuns_of_selectForm signTypes rfl,
    vecRuns_of_putV32 (fun s l => BitVec.ofNat 32 (popCount (s.gang.ballotMask a).toNat l)) rfl,
    fun hm => vecRuns_shfl hm d a b,
    fun hm => vecRuns_shfli hm d m c⟩

end Sys2Proof.Machine
end

section
/-! SUPPORT. What issuing says of the operand fields of an issuing slice (02 R46), and how a word runs whose meaning is
the prologue and then one scalar result (02 R49; 05 R125 to R127). -/

namespace Sys2Proof.Machine

/-- A word that issues has, in every issuing slice, operand fields whose codes are legal (02 R39, R46). -/
theorem operands_of_issues {s : State} {f : OpndsOf} (h : s.issues f = true) {k : Nat} (hk : s.gang.issuing k = true) :
    ∃ os, f (s.gang.mode k) = some os ∧ ∀ o ∈ os, o.legal = true := by
  have hlegal : s.gang.illegalFor f = false := by
    simp only [State.issues, Bool.and_eq_true, Bool.not_eq_true'] at h
    exact h.1.1.1
  have hk8 : k < 8 := by
    simp only [Gang.issuing, Bool.and_eq_true, decide_eq_true_eq] at hk
    exact hk.1.1
  have hslice := List.any_eq_false.mp hlegal k (List.mem_range.mpr hk8)
  cases hf : f (s.gang.mode k) with
  | none => simp [hk, hf] at hslice
  | some os => exact ⟨os, rfl, by simpa [hk, hf] using hslice⟩

/-- Every issuing slice's etype is among those that the word accepts (05 R123). -/
theorem accepted_of_issues {s : State} {ok : Nat → Bool} {os : Nat → List Opnd} (h : s.issues (etypeOps ok os) = true)
    {k : Nat} (hk : s.gang.issuing k = true) : ok (modeEtype (s.gang.mode k)) = true := by
  obtain ⟨_, hf, _⟩ := operands_of_issues h hk
  by_contra hok
  simp [etypeOps, hok] at hf

/-- Where some slice issues, the scalar destination is a register or the discard code (02 R41). -/
theorem sDst_of_issues {s : State} {d : Code} {srcs : List Opnd} (h : s.issues (fixedOps (.sw 32 d :: srcs)) = true)
    {k : Nat} (hk : s.gang.issuing k = true) : sDst d = true := by
  obtain ⟨os, hf, hlegal⟩ := operands_of_issues h hk
  obtain rfl : .sw 32 d :: srcs = os := Option.some.inj hf
  exact hlegal _ List.mem_cons_self

/-- A scalar write that chooses no slice changes nothing. -/
theorem writeSMap_none (i : Nat) {f : Nat → Bool} (hf : ∀ k, f k = false) (x : Nat → Word) (n : Nat) (m : SMap Word) :
    writeSMap i f x n m = m := by
  induction n with
  | zero => rfl
  | succ n ih => simp [writeSMap, hf, ih]

/-- A scalar result where no slice issues: only past the word, whatever the destination's code. -/
theorem scalarStep_putS_none {s : State} (hnone : ∀ k, s.gang.issuing k = false) (d : Code) (x : Nat → Word) :
    s.scalarStep (s.updGang (fun g => (g.putS d s.gang.issuing x).advance)) d x := by
  have hput : s.gang.putS d s.gang.issuing x = s.gang := by
    simp [Gang.putS, Gang.writeSlices, writeSMap_none _ hnone]
  refine ⟨fun k i _ _ => ?_, past_of (f := fun g => g.putS d s.gang.issuing x) (by rw [hput]), sameDevice_updGang s _, ?_⟩
  · simp [hput, hnone]
  · rw [State.gang_updGang, hput]; rfl

/-- The prologue, then one scalar result in each issuing slice (02 R49). -/
theorem scalarRuns_of_putS {i : Instr} {s : State} {d : Code} {srcs : List Opnd} (x : Nat → Word)
    (he : s.issues (fixedOps (.sw 32 d :: srcs)) = true →
      exec i s = finishWith s (fun g => g.putS d s.gang.issuing x)) :
    scalarRuns i s (fixedOps (.sw 32 d :: srcs)) d x := fun hi => by
  refine ⟨_, he hi, ?_⟩
  by_cases hsome : ∃ k, s.gang.issuing k = true
  · obtain ⟨k, hk⟩ := hsome
    exact scalarStep_putS s d (sDst_of_issues hi hk) x
  · exact scalarStep_putS_none (by simpa using hsome) d x

/-- The same for a word whose meaning is the prologue and that result. -/
theorem scalarRuns_of_guardOps {i : Instr} {s : State} {d : Code} {srcs : List Opnd} (x : State → Nat → Word)
    (he : exec i s = guardOps s (fixedOps (.sw 32 d :: srcs)) (fun s => finishWith s (fun g => g.putS d s.gang.issuing (x s)))) :
    scalarRuns i s (fixedOps (.sw 32 d :: srcs)) d (x s) :=
  scalarRuns_of_putS (x s) (fun hi => he.trans (guardOps_issues hi _))

/-- A scalar form of two sources (05 R125). -/
theorem scalarRuns_of_scalarForm {i : Instr} {s : State} {d a b : Code} (r : Word → Word → Word)
    (he : exec i s = scalarForm s d a b r) :
    scalarRuns i s (fieldsS d a b) d (fun k => r (s.ssrc a k) (s.ssrc b k)) :=
  scalarRuns_of_guardOps (fun s k => r (s.ssrc a k) (s.ssrc b k)) he

end Sys2Proof.Machine
end

section
/-! The scalar words, and the words that put one value into a scalar register (05 R125 to R127; 03 R80, R83, R87;
06 R153). -/

namespace Sys2Proof.Machine

/-- sslt (05 R125): the signed comparison of 32-bit words is that of their values. -/
theorem scalarRuns_sslt (s : State) (d a b : Code) :
    scalarRuns (.sslt d a b) s (fieldsS d a b) d
      (fun k => if (s.ssrc a k).toInt < (s.ssrc b k).toInt then 1 else 0) := by
  simpa only [BitVec.slt, decide_eq_true_eq] using
    scalarRuns_of_scalarForm (i := .sslt d a b) (s := s) (fun x y => if x.slt y then 1 else 0) rfl

/-- Lanes in which nothing is awaited or marked hold up no word. -/
theorem guardLanes_readable {s : State} {c : Code} {n : Nat} {lanes : List Nat} (h : s.gang.readable c n lanes) (body : Res) :
    guardLanes c n lanes s body = body := by
  obtain ⟨hpend, hmark⟩ := h
  simp [guardLanes, hpend, hmark]

/-- sread (05 R127): each slice's own lane of the register, 0 where that lane's slice does not issue. -/
theorem scalarRuns_sread {s : State} {d a b : Code}
    (h : s.gang.readable a 1 ((s.gang.issuingList.map (s.sreadLane b)).filter (fun l => s.gang.issuing (l / 4)))) :
    scalarRuns (.sread d a b) s (fixedOps [.sw 32 d, .vl 32 a, .sr 32 b]) d (fun k =>
      if s.gang.issuing ((s.ssrc b k).toNat % 32 / 4) then s.vsrc32 a ((s.ssrc b k).toNat % 32) else 0) :=
  scalarRuns_of_putS _ fun hi =>
    calc exec (.sread d a b) s
      _ = execSread d a b s := rfl
      _ = guardLanes a 1 ((s.gang.issuingList.map (s.sreadLane b)).filter (fun l => s.gang.issuing (l / 4))) s _ :=
        guardOps_issues hi _
      _ = _ := guardLanes_readable h _

/-- The scalar arithmetic by its form (05 R125). -/
theorem scalarArithmetic : Sys2Proof.Claims.ScalarArithmetic := fun s d a b =>
  ⟨scalarRuns_of_scalarForm (· + ·) rfl,
    scalarRuns_of_scalarForm (· - ·) rfl,
    scalarRuns_of_scalarForm (· * ·) rfl,
    scalarRuns_of_scalarForm (· &&& ·) rfl,
    scalarRuns_of_scalarForm (· ||| ·) rfl,
    scalarRuns_of_scalarForm (· ^^^ ·) rfl,
    scalarRuns_of_scalarForm (fun x y => x <<< (y.toNat % 256)) rfl,
    scalarRuns_of_scalarForm (fun x y => x >>> (y.toNat % 256)) rfl,
    scalarRuns_sslt s d a b⟩

/-- The words that put one value into a scalar register: all but sread are the prologue and one result. -/
theorem scalarMoves : Sys2Proof.Claims.ScalarMoves := fun _ d a _ i =>
  ⟨scalarRuns_of_guardOps (fun _ _ => i.signExtend 32) rfl,
    scalarRuns_of_guardOps (fun s k => i ++ (s.ssrc d k).setWidth 16) rfl,
    scalarRuns_sread,
    scalarRuns_of_guardOps (fun s k => s.gang.mode k &&& 0x007FFFFF) rfl,
    scalarRuns_of_guardOps (fun s _ => s.gang.regs.exec) rfl,
    scalarRuns_of_guardOps (fun s _ => s.gang.ballotMask a) rfl,
    scalarRuns_of_guardOps (fun s _ => BitVec.ofNat 32 (popCount (s.gang.ballotMask a).toNat 32)) rfl,
    scalarRuns_of_guardOps (fun s _ => s.gang.regs.fpf.setWidth 32) rfl⟩

/-- Settles O8: the arithmetic by its form, the other words by their one scalar result. -/
theorem scalarWords : Obligations.ScalarWords := ⟨scalarArithmetic, scalarMoves⟩

end Sys2Proof.Machine
end

section
/-! SUPPORT. How the element-wise forms run (05 R120, R128, R137, R138), and a vector result whose width does not follow
the etype (05 R129, R140). -/

namespace Sys2Proof.Machine

/-- The prologue, then a vector result on Active(), a pair where the word says so. -/
theorem vecRuns_of_putV {i : Instr} {s : State} {f : OpndsOf} {d : Code} (wide : State → Nat → Bool) (x : State → Nat → DWord)
    (he : exec i s = guardOps s f (fun s => finishWith s (fun g => g.putV d (wide s) s.gang.active (x s)))) :
    vecRuns i s f d (wide s) s.gang.active (x s) := fun hi =>
  ⟨_, he.trans (guardOps_issues hi _), vecStep_putV0 s d (wide s) s.gang.active (x s)⟩

/-- The prologue, then one value for each element of the lanes of Active() (05 R121, R128). -/
theorem elemRuns_of_mapElems {i : Instr} {s : State} {f : OpndsOf} {d : Code} (x : State → Nat → Nat → Bool → Nat → Nat)
    (he : exec i s = guardOps s f (fun s => vecFinish s d (fun l => mapElems (s.gang.et l) (x s l (s.gang.et l) (s.laneSat l))))) :
    elemRuns i s f d (x s) :=
  vecRuns_of_vecFinish (fun s l => mapElems (s.gang.et l) (x s l (s.gang.et l) (s.laneSat l))) he

/-- A form of two element sources whose destination is only written (05 R128). -/
theorem elemRuns_of_elemForm {i : Instr} {s : State} {d a b : Code} {ok : Nat → Bool} (r : Nat → Bool → Int → Int → Nat)
    (he : exec i s = elemForm s false ok d a b (fun t sat x y _ => r t sat x y)) :
    elemRuns i s (fields3 ok d a b) d (fun l t sat k => r t sat (s.ielem a l k) (s.ielem b l k)) :=
  elemRuns_of_mapElems (fun s l t sat k => r t sat (s.ielem a l k) (s.ielem b l k)) he

/-- A form of one element source (05 R128). -/
theorem elemRuns_of_elemUnary {i : Instr} {s : State} {d a : Code} (r : Nat → Bool → Int → Nat)
    (he : exec i s = elemUnary s d a r) :
    elemRuns i s (fields2 intTypes d a) d (fun l t sat k => r t sat (s.ielem a l k)) :=
  elemRuns_of_mapElems (fun s l t sat k => r t sat (s.ielem a l k)) he

/-- A shift or rotate (05 R137): `r` of the element as an integer, its bits and the count. -/
theorem elemRuns_of_shiftForm {i : Instr} {s : State} {d a b : Code} (r : Nat → Bool → Int → Nat → Nat → Nat)
    (he : exec i s = shiftForm s d a b r) :
    elemRuns i s (fields3 intTypes d a b) d (fun l t sat k =>
      r t sat (s.ielem a l k) (s.belem a l k) (shiftCount t (s.vsrc (.int (vwidth t)) b l) k)) :=
  elemRuns_of_mapElems (fun s l t sat k =>
    r t sat (s.ielem a l k) (s.belem a l k) (shiftCount t (s.vsrc (.int (vwidth t)) b l) k)) he

/-- A count of the bits of each element (05 R138). -/
theorem elemRuns_of_bitsUnary {i : Instr} {s : State} {d a : Code} (r : Nat → Nat → Nat)
    (he : exec i s = bitsUnary s d a r) :
    elemRuns i s (fields2 intTypes d a) d (fun l t _ k => r (etypeWidth t) (s.belem a l k)) :=
  elemRuns_of_mapElems (fun s l t _ k => r (etypeWidth t) (s.belem a l k)) he

end Sys2Proof.Machine
end

section
/-! The element-wise integer words and the widening multiply-add (05 R128, R129). -/

namespace Sys2Proof.Machine

/-- imadw's result in a lane (05 R129): the accumulator and every product, narrowed once. -/
def imadwResult (s : State) (d a b : Code) (l : Nat) : DWord :=
  let u := imadwAcc (s.gang.et l)
  BitVec.ofNat 64 (narrow u (s.laneSat l) (elemInt u (s.vsrc (.elem u) d l) 0 +
    ((List.range (elemCount (s.gang.et l))).map (fun k => s.ielem a l k * s.ielem b l k)).sum))

/-- Settles O10: each word by its form; imad and iaddi read their destination, and imadw's accumulator has a width of its
own. -/
theorem elementArithmetic : Obligations.ElementArithmetic := fun _ d a b i =>
  ⟨elemRuns_of_elemForm (fun t sat x y => narrow t sat (x + y)) rfl,
    elemRuns_of_elemForm (fun t sat x y => narrow t sat (x - y)) rfl,
    elemRuns_of_elemForm (fun t sat x y => narrow t sat (x * y)) rfl,
    elemRuns_of_elemForm (fun t _ x y => wrapTo (etypeWidth t) ((x * y) / 2 ^ etypeWidth t)) rfl,
    elemRuns_of_mapElems (fun s l t sat k => narrow t sat (s.ielem a l k * s.ielem b l k + s.ielem d l k)) rfl,
    elemRuns_of_elemForm (fun t _ x y => wrapTo (etypeWidth t) (min x y)) rfl,
    elemRuns_of_elemForm (fun t _ x y => wrapTo (etypeWidth t) (max x y)) rfl,
    elemRuns_of_elemUnary (fun t sat x => narrow t sat (x.natAbs : Int)) rfl,
    elemRuns_of_elemUnary (fun t sat x => narrow t sat (-x)) rfl,
    elemRuns_of_mapElems (fun s l t sat k => narrow t sat (s.ielem d l k + i.toInt)) rfl,
    vecRuns_of_putV (fun s l => etypeWide (imadwAcc (s.gang.et l))) (fun s => imadwResult s d a b) rfl⟩

end Sys2Proof.Machine
end

section
/-! The bit words, bit fields and scaled addresses (05 R136 to R140). -/

namespace Sys2Proof.Machine

/-- The bit words by their forms (05 R136 to R138). -/
theorem bitOperations : Sys2Proof.Claims.BitOperations := fun _ _ a b =>
  ⟨vecRuns_of_vecFinish (fun s l => s.vsrc (.int (vwidth (s.gang.et l))) a l &&& s.vsrc (.int (vwidth (s.gang.et l))) b l) rfl,
    vecRuns_of_vecFinish (fun s l => s.vsrc (.int (vwidth (s.gang.et l))) a l ||| s.vsrc (.int (vwidth (s.gang.et l))) b l) rfl,
    vecRuns_of_vecFinish (fun s l => s.vsrc (.int (vwidth (s.gang.et l))) a l ^^^ s.vsrc (.int (vwidth (s.gang.et l))) b l) rfl,
    elemRuns_of_shiftForm (fun t sat x u c =>
      if sat then narrow t true (x * 2 ^ c) else if c < etypeWidth t then (u * 2 ^ c) % 2 ^ etypeWidth t else 0) rfl,
    elemRuns_of_shiftForm (fun t _ _ u c => if c < etypeWidth t then u / 2 ^ c else 0) rfl,
    elemRuns_of_shiftForm (fun t _ _ u c =>
      wrapTo (etypeWidth t) (signedOf (etypeWidth t) u / 2 ^ min c (etypeWidth t - 1))) rfl,
    elemRuns_of_shiftForm (fun t _ _ u c => rotLeft (etypeWidth t) u (c % etypeWidth t)) rfl,
    elemRuns_of_shiftForm (fun t _ _ u c =>
      rotLeft (etypeWidth t) u ((etypeWidth t - c % etypeWidth t) % etypeWidth t)) rfl,
    elemRuns_of_bitsUnary (fun w u => popCount u w) rfl,
    elemRuns_of_bitsUnary (fun w u => if u = 0 then w else w - 1 - Nat.log2 u) rfl⟩

/-- lea's address in a lane (05 R140): the base and the index, which is unsigned under the n types, scaled. -/
def leaResult (s : State) (a b : Code) (l : Nat) : DWord :=
  s.vsrc64 a l +
    ((if decide (13 ≤ s.gang.et l) && decide (s.gang.et l ≤ 16) then (s.vsrc32 b l).setWidth 64
      else (s.vsrc32 b l).signExtend 64) <<< leaScale (s.gang.et l))

/-- lea (05 R140). -/
theorem vecRuns_lea (s : State) (d a b : Code) :
    vecRuns (.lea d a b) s (etypeOps leaTypes (fun _ => [.vw 64 d, .vr 64 a, .vr 32 b])) d (fun _ => true) s.gang.active
      (fun l => s.vsrc64 a l +
        ((if 13 ≤ s.gang.et l ∧ s.gang.et l ≤ 16 then (s.vsrc32 b l).setWidth 64 else (s.vsrc32 b l).signExtend 64) <<<
          leaScale (s.gang.et l))) := by
  simpa only [leaResult, Bool.and_eq_true, decide_eq_true_eq] using
    vecRuns_of_putV (i := .lea d a b) (s := s) (fun _ _ => true) (fun s l => leaResult s a b l) rfl

/-- Bit fields by their one result, lea by its index (05 R139, R140). -/
theorem fieldsAndAddresses : Sys2Proof.Claims.FieldsAndAddresses := fun s d a b =>
  ⟨vecRuns_of_vecFinish (fun s l => BitVec.ofNat 64 (bfeBits (etypeWidth (s.gang.et l)) (isSigned (s.gang.et l)) (s.felem a l)
      ((s.vsrc32 b l).toNat % 256) (min (field (s.vsrc32 b l).toNat 8 8) (etypeWidth (s.gang.et l))))) rfl,
    vecRuns_of_vecFinish (fun s l => BitVec.ofNat 64 (bfiBits (etypeWidth (s.gang.et l)) (s.felem d l) (s.felem a l)
      ((s.vsrc32 b l).toNat % 256) (min (field (s.vsrc32 b l).toNat 8 8) (etypeWidth (s.gang.et l))))) rfl,
    vecRuns_lea s d a b⟩

/-- Settles O11: the bit words by their forms, bfe and bfi by their one result, lea by its index. -/
theorem bitWords : Obligations.BitWords := ⟨bitOperations, fieldsAndAddresses⟩

end Sys2Proof.Machine
end

section
/-! Division and its trap (05 R131, R132). -/

namespace Sys2Proof.Machine

/-- A division with no zero divisor in an active lane is an element-wise form (05 R131). -/
theorem elemRuns_of_divForm {i : Instr} {s : State} {d a b : Code} (hz : zeroDivisors s b = 0)
    (r : Nat → Bool → Int → Int → Nat) (he : exec i s = divForm s d a b (fun t sat x y _ => r t sat x y)) :
    elemRuns i s (fields3 intTypes d a b) d (fun l t sat k => r t sat (s.ielem a l k) (s.ielem b l k)) := fun hi =>
  have hform : exec i s = elemForm s false intTypes d a b (fun t sat x y _ => r t sat x y) :=
    he.trans ((guardOps_issues hi _).trans (if_pos hz))
  elemRuns_of_elemForm r hform hi

/-- A division with a zero divisor in an active lane traps before it writes anything (05 R132). -/
theorem divForm_traps {s : State} {d a b : Code} (hz : zeroDivisors s b ≠ 0) (hi : s.issues (fields3 intTypes d a b) = true)
    (r : Nat → Bool → Int → Int → Int → Nat) :
    divForm s d a b r = .next (s.takeTrap { cause := 0x09, lanes := zeroDivisors s b }) :=
  (guardOps_issues hi _).trans (if_neg hz)

/-- Both division words by their form, and their trap (05 R131, R132). -/
theorem division : Sys2Proof.Claims.Division := fun _ _ _ _ =>
  ⟨fun hz =>
    ⟨elemRuns_of_divForm hz (fun t sat x y => narrow t sat (x.tdiv y)) rfl,
      elemRuns_of_divForm hz (fun t _ x y => wrapTo (etypeWidth t) (x.tmod y)) rfl⟩,
    fun hz hi => ⟨divForm_traps hz hi _, divForm_traps hz hi _⟩⟩

end Sys2Proof.Machine
end

section
/-! Addition with carry (05 R130): the guards of the issuing slices may name several predicates, and each takes the carries
of the lanes whose guard names it. -/

namespace Sys2Proof.Machine

/-- What a predicate write does to every predicate. -/
theorem Gang.p_writePLanes (g : Gang) (i : Nat) (f x : Nat → Bool) (j l : Nat) (hl : l < 32) :
    (g.writePLanes i f x).p j l = if j = i ∧ f l = true then x l else g.p j l := by
  simp only [Gang.p, Gang.writePLanes, Gang.setPMask, mapGet_set]
  by_cases hj : j = i
  · simp [hj, laneMask_bit _ _ hl]
  · simp [hj]

/-- Write the values `x` to each predicate of a list that `sel` chooses, in the lanes of that predicate. -/
def Gang.writePreds (sel : Nat → Bool) (lanes : Nat → Nat → Bool) (x : Nat → Bool) (is : List Nat) (g : Gang) : Gang :=
  is.foldl (fun h i => if sel i then h.writePLanes i (lanes i) x else h) g

section
variable (sel : Nat → Bool) (lanes : Nat → Nat → Bool) (x : Nat → Bool)

theorem Gang.p_writePreds (is : List Nat) (g : Gang) (j l : Nat) (hl : l < 32) :
    (g.writePreds sel lanes x is).p j l =
      if j ∈ is ∧ sel j = true ∧ lanes j l = true then x l else g.p j l := by
  induction is generalizing g with
  | nil => simp [Gang.writePreds]
  | cons i is ih =>
    have hcons : g.writePreds sel lanes x (i :: is) =
      (if sel i then g.writePLanes i (lanes i) x else g).writePreds sel lanes x is := rfl
    rw [hcons, ih]
    by_cases hs : sel i = true
    · rw [if_pos hs, Gang.p_writePLanes _ _ _ _ _ _ hl]
      by_cases hj : j = i <;> grind
    · rw [if_neg hs]
      grind

/-- Nothing but predicates changes. -/
theorem Gang.writePreds_eq (is : List Nat) (g : Gang) :
    g.writePreds sel lanes x is = { g with regs := { g.regs with p := (g.writePreds sel lanes x is).regs.p } } := by
  induction is generalizing g with
  | nil => rfl
  | cons i is ih =>
    show Gang.writePreds sel lanes x is _ = _
    rw [ih]
    by_cases hs : sel i = true <;> simp [Gang.writePreds, hs, Gang.writePLanes, Gang.setPMask]

end

/-- The predicate that MODE.guard names in a lane. -/
abbrev State.guardPred (s : State) (l : Nat) : Nat := modeGuard (s.gang.mode (l / 4))

/-- The exact sum of iaddc in a lane: the two operands and the carry in (05 R130). -/
def State.carrySum (s : State) (a b : Code) (l : Nat) : Nat :=
  s.felem a l + s.felem b l + toNat01 (decide (s.guardPred l ≠ 31) && s.gang.p (s.guardPred l) l)

/-- The sums of iaddc written to its destination. -/
def Gang.putSums (s : State) (d a b : Code) (g : Gang) : Gang :=
  g.putV d s.wideLane s.execLane (fun l => BitVec.ofNat 64 (s.carrySum a b l % 2 ^ etypeWidth (s.gang.et l)))

/-- The carries of iaddc written to the predicates that the guards of the issuing slices name. -/
def Gang.putCarries (s : State) (a b : Code) (g : Gang) : Gang :=
  g.writePreds (fun i => (List.range 8).any (fun k => s.gang.issuing k && decide (modeGuard (s.gang.mode k) = i)))
    (fun i l => s.execLane l && decide (s.guardPred l = i))
    (fun l => decide (2 ^ etypeWidth (s.gang.et l) ≤ s.carrySum a b l)) (List.range 24)

/-- iaddc writes its sums, then its carries, and moves past the word. -/
theorem exec_iaddc {s : State} {d a b : Code} (hi : s.issues (fields3 wideTypes d a b) = true) :
    exec (.iaddc d a b) s = .next (s.updGang (fun g => ((g.putSums s d a b).putCarries s a b).advance)) :=
  calc exec (.iaddc d a b) s
    _ = execIaddc d a b s := rfl
    _ = _ := guardOps_issues hi _

@[simp] theorem Gang.v_putCarries (s : State) (a b : Code) (g : Gang) (r l : Nat) : (g.putCarries s a b).v r l = g.v r l := by
  rw [Gang.putCarries, Gang.writePreds_eq]; rfl

@[simp] theorem Gang.flow_putCarries (s : State) (a b : Code) (g : Gang) : (g.putCarries s a b).flow = g.flow := by
  rw [Gang.putCarries, Gang.writePreds_eq]

@[simp] theorem Gang.flow_putSums (s : State) (d a b : Code) (g : Gang) : (g.putSums s d a b).flow = g.flow := by
  rw [Gang.putSums, (putV_gang _ _ _ _ _).1]

/-- A lane of iaddc has its carry in the predicate that its guard names. -/
theorem Gang.p_putCarries {s : State} {l : Nat} (hl : l < 32) (hx : s.execLane l = true) (hn : s.guardPred l < 24)
    (a b : Code) (g : Gang) :
    (g.putCarries s a b).p (s.guardPred l) l = decide (2 ^ etypeWidth (s.gang.et l) ≤ s.carrySum a b l) := by
  have hissue : s.gang.issuing (l / 4) = true := (Bool.and_eq_true_iff.mp hx).1
  have hsel : (List.range 8).any (fun k => s.gang.issuing k && decide (modeGuard (s.gang.mode k) = s.guardPred l)) = true :=
    List.any_eq_true.mpr ⟨l / 4, List.mem_range.mpr (by omega), by simp [hissue]⟩
  rw [Gang.putCarries, Gang.p_writePreds _ _ _ _ _ _ _ hl,
    if_pos ⟨List.mem_range.mpr hn, hsel, by simpa using hx⟩]

/-- A lane of iaddc has the low 32 bits of the sum in d: the operand is 32 or 64 bits wide. -/
theorem Gang.v_putSums_low {s : State} {d : Code} (hd : d ≠ 0xF0) {l : Nat} (hl : l < 32) (hx : s.execLane l = true)
    (hw : 32 ≤ etypeWidth (s.gang.et l)) (a b : Code) (g : Gang) :
    (g.putSums s d a b).v d.toNat l = BitVec.ofNat 32 (s.carrySum a b l) := by
  have hdvd : 2 ^ 32 ∣ 2 ^ etypeWidth (s.gang.et l) := Nat.pow_dvd_pow 2 hw
  rw [Gang.putSums, putV_v _ _ _ _ _ _ _ hl, if_neg (by omega), if_pos ⟨hd, hx, rfl⟩]
  apply BitVec.eq_of_toNat_eq
  simp only [BitVec.toNat_setWidth, BitVec.toNat_ofNat]
  rw [Nat.mod_mod_of_dvd _ (by norm_num), Nat.mod_mod_of_dvd _ hdvd]

/-- A wide lane has the upper 32 bits of the sum in d + 1. -/
theorem Gang.v_putSums_high {s : State} {d : Code} (hd : d ≠ 0xF0) {l : Nat} (hl : l < 32) (hx : s.execLane l = true)
    (hw : s.wideLane l = true) (a b : Code) (g : Gang) :
    (g.putSums s d a b).v (d.toNat + 1) l = BitVec.ofNat 32 (s.carrySum a b l / 2 ^ 32) := by
  have h64 : etypeWidth (s.gang.et l) = 64 := by simpa [etypeWide] using hw
  rw [Gang.putSums, putV_v _ _ _ _ _ _ _ hl, if_pos ⟨hd, hx, hw, rfl⟩, h64]
  apply BitVec.eq_of_toNat_eq
  simp only [BitVec.toNat_setWidth, BitVec.toNat_ushiftRight, BitVec.toNat_ofNat, Nat.shiftRight_eq_div_pow]
  omega

/-- The wide integer types are 32 or 64 bits wide (05 R124). -/
theorem etypeWidth_of_wideTypes {t : Nat} (h : wideTypes t = true) : 32 ≤ etypeWidth t := by
  simp only [wideTypes, Bool.or_eq_true, decide_eq_true_eq] at h
  obtain ((rfl | rfl) | rfl) | rfl := h <;> decide

/-- iaddc in one lane (05 R130): the sum stands in d, and in d + 1 where the lane is wide, the carry in the guard's predicate. -/
theorem addWithCarry : Sys2Proof.Claims.AddWithCarry := by
  intro s d a b l hi hd hl hx n sum
  have hsum : s.carrySum a b l = sum := by simp [State.carrySum, sum, n, toNat01]
  have hw : 32 ≤ etypeWidth (s.gang.et l) :=
    etypeWidth_of_wideTypes (accepted_of_issues hi (Bool.and_eq_true_iff.mp hx).1)
  refine ⟨_, exec_iaddc hi, ?_, sameDevice_updGang s _, ?_, fun hwide => ?_, fun hn => ?_⟩
  · exact past_of (f := fun g => (g.putSums s d a b).putCarries s a b) (by simp)
  · simpa [← hsum] using Gang.v_putSums_low hd hl hx hw a b s.gang
  · simpa [← hsum] using Gang.v_putSums_high hd hl hx hwide a b s.gang
  · simpa [← hsum] using Gang.p_putCarries hl hx hn a b (s.gang.putSums s d a b)

/-- Settles O13: the quotients by their form, the trap by the prologue, and the carries predicate by predicate. -/
theorem divisionAndCarry : Obligations.DivisionAndCarry := ⟨division, addWithCarry⟩

end Sys2Proof.Machine
end

section
/-! Decoding undoes encoding: the round trip of every constructor (02 R36 to R46). -/

namespace Sys2Proof.Laws

/-- Every well-formed instruction that has a word is what its word decodes to. -/
theorem roundTrip : ∀ i, RoundTrip.Statement i
  | .br .. => RoundTrip.br _ _ _ _
  | .brx .. => RoundTrip.brx _
  | .call .. => RoundTrip.call _
  | .callx .. => RoundTrip.callx _
  | .ret => RoundTrip.ret
  | .regang .. => RoundTrip.regang _
  | .exit => RoundTrip.exit
  | .nop => RoundTrip.nop
  | .yield => RoundTrip.yield
  | .promo => RoundTrip.promo
  | .promoDemote => RoundTrip.promoDemote
  | .pand .. => RoundTrip.pand _ _ _
  | .por .. => RoundTrip.por _ _ _
  | .pxor .. => RoundTrip.pxor _ _ _
  | .pnot .. => RoundTrip.pnot _ _
  | .exsave .. => RoundTrip.exsave _
  | .exand .. => RoundTrip.exand _ _ _
  | .exload .. => RoundTrip.exload _
  | .ballot .. => RoundTrip.ballot _ _
  | .vote .. => RoundTrip.vote _ _ _
  | .popc .. => RoundTrip.popc _ _
  | .mpfx .. => RoundTrip.mpfx _ _
  | .shfl .. => RoundTrip.shfl _ _ _
  | .shfli .. => RoundTrip.shfli _ _ _
  | .gred .. => RoundTrip.gred _ _ _
  | .psets .. => RoundTrip.psets _ _
  | .mset .. => RoundTrip.mset _ _
  | .msetg .. => RoundTrip.msetg _
  | .mget .. => RoundTrip.mget _
  | .msetr .. => RoundTrip.msetr _
  | .wait .. => RoundTrip.wait _ _ _ _
  | .waitr .. => RoundTrip.waitr _ _
  | .regrow .. => RoundTrip.regrow _ _
  | .regshr .. => RoundTrip.regshr _
  | .flget .. => RoundTrip.flget _
  | .flclr .. => RoundTrip.flclr _
  | .sadd .. => RoundTrip.sadd _ _ _
  | .ssub .. => RoundTrip.ssub _ _ _
  | .smul .. => RoundTrip.smul _ _ _
  | .sand .. => RoundTrip.sand _ _ _
  | .sor .. => RoundTrip.sor _ _ _
  | .sxor .. => RoundTrip.sxor _ _ _
  | .sshl .. => RoundTrip.sshl _ _ _
  | .sshr .. => RoundTrip.sshr _ _ _
  | .sslt .. => RoundTrip.sslt _ _ _
  | .smovi .. => RoundTrip.smovi _ _
  | .smovhi .. => RoundTrip.smovhi _ _
  | .sread .. => RoundTrip.sread _ _ _
  | .iadd .. => RoundTrip.iadd _ _ _
  | .isub .. => RoundTrip.isub _ _ _
  | .imul .. => RoundTrip.imul _ _ _
  | .imulh .. => RoundTrip.imulh _ _ _
  | .imad .. => RoundTrip.imad _ _ _
  | .idiv .. => RoundTrip.idiv _ _ _
  | .irem .. => RoundTrip.irem _ _ _
  | .imin .. => RoundTrip.imin _ _ _
  | .imax .. => RoundTrip.imax _ _ _
  | .iabs .. => RoundTrip.iabs _ _
  | .ineg .. => RoundTrip.ineg _ _
  | .icmpeq .. => RoundTrip.icmpeq _ _ _
  | .icmpne .. => RoundTrip.icmpne _ _ _
  | .icmplt .. => RoundTrip.icmplt _ _ _
  | .icmple .. => RoundTrip.icmple _ _ _
  | .isel .. => RoundTrip.isel _ _ _
  | .imovi .. => RoundTrip.imovi _ _
  | .imovhi .. => RoundTrip.imovhi _ _
  | .vbcst .. => RoundTrip.vbcst _ _
  | .iaddi .. => RoundTrip.iaddi _ _
  | .iaddc .. => RoundTrip.iaddc _ _ _
  | .imadw .. => RoundTrip.imadw _ _ _
  | .and .. => RoundTrip.and _ _ _
  | .or .. => RoundTrip.or _ _ _
  | .xor .. => RoundTrip.xor _ _ _
  | .shl .. => RoundTrip.shl _ _ _
  | .shr .. => RoundTrip.shr _ _ _
  | .sar .. => RoundTrip.sar _ _ _
  | .rol .. => RoundTrip.rol _ _ _
  | .ror .. => RoundTrip.ror _ _ _
  | .bcnt .. => RoundTrip.bcnt _ _
  | .clz .. => RoundTrip.clz _ _
  | .bfe .. => RoundTrip.bfe _ _ _
  | .bfi .. => RoundTrip.bfi _ _ _
  | .lea .. => RoundTrip.lea _ _ _
  | .cvt .. => RoundTrip.cvt _ _ _
  | .cvtpk .. => RoundTrip.cvtpk _ _
  | .unpk .. => RoundTrip.unpk _ _
  | .frint .. => RoundTrip.frint _ _
  | .cvtq .. => RoundTrip.cvtq _ _ _
  | .cvtdq .. => RoundTrip.cvtdq _ _ _
  | .fadd .. => RoundTrip.fadd _ _ _
  | .fsub .. => RoundTrip.fsub _ _ _
  | .fmul .. => RoundTrip.fmul _ _ _
  | .ffma .. => RoundTrip.ffma _ _ _
  | .ffms .. => RoundTrip.ffms _ _ _
  | .fnma .. => RoundTrip.fnma _ _ _
  | .fmin .. => RoundTrip.fmin _ _ _
  | .fmax .. => RoundTrip.fmax _ _ _
  | .fabs .. => RoundTrip.fabs _ _
  | .fneg .. => RoundTrip.fneg _ _
  | .vmov .. => RoundTrip.vmov _ _
  | .fcmpeq .. => RoundTrip.fcmpeq _ _ _
  | .fcmplt .. => RoundTrip.fcmplt _ _ _
  | .fcmple .. => RoundTrip.fcmple _ _ _
  | .fcmpun .. => RoundTrip.fcmpun _ _ _
  | .fclass .. => RoundTrip.fclass _ _
  | .frcp .. => RoundTrip.frcp _ _
  | .frsq .. => RoundTrip.frsq _ _
  | .fsqrt .. => RoundTrip.fsqrt _ _
  | .fdiv .. => RoundTrip.fdiv _ _ _
  | .fexp2 .. => RoundTrip.fexp2 _ _
  | .flog2 .. => RoundTrip.flog2 _ _
  | .fhadd .. => RoundTrip.fhadd _ _ _
  | .fhmul .. => RoundTrip.fhmul _ _ _
  | .fhfma .. => RoundTrip.fhfma _ _ _
  | .fhmin .. => RoundTrip.fhmin _ _ _
  | .fhmax .. => RoundTrip.fhmax _ _ _
  | .fdot2 .. => RoundTrip.fdot2 _ _ _
  | .fsel .. => RoundTrip.fsel _ _ _
  | .fscale .. => RoundTrip.fscale _ _ _
  | .fgetexp .. => RoundTrip.fgetexp _ _
  | .fcopysign .. => RoundTrip.fcopysign _ _ _
  | .ldb .. => RoundTrip.ldb _ _ _ _
  | .ldbs .. => RoundTrip.ldbs _ _ _ _
  | .ldh .. => RoundTrip.ldh _ _ _ _
  | .ldhs .. => RoundTrip.ldhs _ _ _ _
  | .ldw .. => RoundTrip.ldw _ _ _ _
  | .ldd .. => RoundTrip.ldd _ _ _ _
  | .ldq .. => RoundTrip.ldq _ _ _ _
  | .ldAcq .. => RoundTrip.ldAcq _ _ _ _ _ _
  | .stb .. => RoundTrip.stb _ _ _ _
  | .sth .. => RoundTrip.sth _ _ _ _
  | .stw .. => RoundTrip.stw _ _ _ _
  | .std .. => RoundTrip.std _ _ _ _
  | .stq .. => RoundTrip.stq _ _ _ _
  | .stRel .. => RoundTrip.stRel _ _ _ _ _ _
  | .pref .. => RoundTrip.pref _ _ _ _
  | .pglob .. => RoundTrip.pglob _ _
  | .atadd .. => RoundTrip.atadd _ _ _ _ _ _
  | .atfadd .. => RoundTrip.atfadd _ _ _ _ _ _
  | .atmin .. => RoundTrip.atmin _ _ _ _ _ _
  | .atmax .. => RoundTrip.atmax _ _ _ _ _ _
  | .atand .. => RoundTrip.atand _ _ _ _ _ _
  | .ator .. => RoundTrip.ator _ _ _ _ _ _
  | .atxor .. => RoundTrip.atxor _ _ _ _ _ _
  | .atxchg .. => RoundTrip.atxchg _ _ _ _ _ _ _
  | .atcas .. => RoundTrip.atcas _ _ _ _ _ _ _
  | .fenceAcq .. => RoundTrip.fenceAcq _
  | .fenceRel .. => RoundTrip.fenceRel _
  | .fenceAcqrel .. => RoundTrip.fenceAcqrel _
  | .fenceSc .. => RoundTrip.fenceSc _
  | .fencePath .. => RoundTrip.fencePath _ _
  | .mwatch .. => RoundTrip.mwatch _ _ _ _
  | .mwait .. => RoundTrip.mwait _ _
  | .tick => RoundTrip.tick
  | .cmaint .. => RoundTrip.cmaint _ _ _ _
  | .binit .. => RoundTrip.binit _ _
  | .barv .. => RoundTrip.barv _ _
  | .bwait .. => RoundTrip.bwait _
  | .bwaitGen .. => RoundTrip.bwaitGen _ _
  | .barw .. => RoundTrip.barw _ _
  | .baddx .. => RoundTrip.baddx _ _
  | .baddxE .. => RoundTrip.baddxE _ _
  | .btest .. => RoundTrip.btest _ _
  | .btestWord1 .. => RoundTrip.btestWord1 _ _
  | .ngjoin .. => RoundTrip.ngjoin _
  | .ngjoinLeave .. => RoundTrip.ngjoinLeave _
  | .ngarv .. => RoundTrip.ngarv _ _
  | .ngwait .. => RoundTrip.ngwait _
  | .ngwaitGen .. => RoundTrip.ngwaitGen _ _
  | .ngwaitRead .. => RoundTrip.ngwaitRead _ _
  | .bsetm .. => RoundTrip.bsetm _ _
  | .bsetmDevice .. => RoundTrip.bsetmDevice _ _
  | .bsetmRoot .. => RoundTrip.bsetmRoot _ _
  | .cpyc .. => RoundTrip.cpyc _ _ _ _ _
  | .cpy .. => RoundTrip.cpy _ _
  | .gath .. => RoundTrip.gath _ _
  | .scat .. => RoundTrip.scat _ _
  | .mcast .. => RoundTrip.mcast _ _
  | .sclp .. => RoundTrip.sclp _ _
  | .gqry .. => RoundTrip.gqry _ _
  | .gcncl .. => RoundTrip.gcncl _ _
  | .expb .. => RoundTrip.expb _ _ _
  | .expbG .. => RoundTrip.expbG _ _ _
  | .expn .. => RoundTrip.expn _ _
  | .segr .. => RoundTrip.segr _ _
  | .xsave .. => RoundTrip.xsave _ _ _
  | .xrst .. => RoundTrip.xrst _ _ _
  | .vsort .. => RoundTrip.vsort _ _
  | .vtopk .. => RoundTrip.vtopk _ _ _
  | .tkmrg .. => RoundTrip.tkmrg _ _ _
  | .ctopk .. => RoundTrip.ctopk _ _ _
  | .hins .. => RoundTrip.hins _ _ _
  | .hacc .. => RoundTrip.hacc _ _ _
  | .hfind .. => RoundTrip.hfind _ _ _
  | .hinit .. => RoundTrip.hinit _ _
  | .talloc .. => RoundTrip.talloc _ _ _
  | .tfree .. => RoundTrip.tfree _
  | .mloop .. => RoundTrip.mloop _
  | .mdrain .. => RoundTrip.mdrain _ _ _ _
  | .mzero .. => RoundTrip.mzero _
  | .tacc .. => RoundTrip.tacc _ _ _
  | .evset .. => RoundTrip.evset _
  | .evclr .. => RoundTrip.evclr _
  | .evwait .. => RoundTrip.evwait _
  | .evwaitClear .. => RoundTrip.evwaitClear _
  | .mpt .. => RoundTrip.mpt _
  | .msave .. => RoundTrip.msave _ _
  | .mrestore .. => RoundTrip.mrestore _ _
  | .rinv .. => RoundTrip.rinv _ _
  | .rinvh .. => RoundTrip.rinvh _ _
  | .rwait .. => RoundTrip.rwait _ _
  | .rpoll .. => RoundTrip.rpoll _ _
  | .rget .. => RoundTrip.rget _ _
  | .rgetBarn .. => RoundTrip.rgetBarn _ _
  | .rdrop .. => RoundTrip.rdrop _
  | .rbind .. => RoundTrip.rbind _ _
  | .rput .. => RoundTrip.rput _ _
  | .rfail .. => RoundTrip.rfail _ _
  | .tcarm .. => RoundTrip.tcarm _ _
  | .tcadd .. => RoundTrip.tcadd _ _
  | .trap .. => RoundTrip.trap _
  | .tvec .. => RoundTrip.tvec _ _ _
  | .tret => RoundTrip.tret
  | .tretSkip => RoundTrip.tretSkip
  | .tdone .. => RoundTrip.tdone _
  | .sysrd .. => RoundTrip.sysrd _ _
  | .syswr .. => RoundTrip.syswr _ _
  | .tlbip .. => RoundTrip.tlbip _ _
  | .tlbia .. => RoundTrip.tlbia _
  | .tlball => RoundTrip.tlball
  | .fwcall .. => RoundTrip.fwcall _ _
  | .regangMerge .. => RoundTrip.regangMerge _ _
  | .gangEnd .. => RoundTrip.gangEnd _
  | .regrowGrant .. => RoundTrip.regrowGrant _ _
  | .regrowTimeout .. => RoundTrip.regrowTimeout _
  | .promotionEvaluation .. => RoundTrip.promotionEvaluation _ _
  | .demotion .. => RoundTrip.demotion _ _
  | .earlyLoadReread .. => ofEvent rfl
  | .branchMispredict .. => RoundTrip.branchMispredict _
  | .memoryOperationComplete .. => RoundTrip.memoryOperationComplete _ _
  | .releaseComplete .. => RoundTrip.releaseComplete _ _
  | .mwaitTimeout .. => RoundTrip.mwaitTimeout _
  | .reuseClockAdvance .. => RoundTrip.reuseClockAdvance _
  | .gtAdvance => RoundTrip.gtAdvance
  | .pageWalk .. => RoundTrip.pageWalk _ _ _ _
  | .heatSweep => RoundTrip.heatSweep
  | .tlbInvalidationComplete .. => RoundTrip.tlbInvalidationComplete _ _
  | .teardownComplete .. => RoundTrip.teardownComplete _
  | .namedGroupNodeArrival .. => RoundTrip.namedGroupNodeArrival _ _ _
  | .namedGroupCompletion .. => RoundTrip.namedGroupCompletion _ _
  | .gleanerCommandStart .. => RoundTrip.gleanerCommandStart _
  | .copyUnit .. => RoundTrip.copyUnit _ _
  | .gatherRow .. => RoundTrip.gatherRow _ _ _
  | .multicastAck .. => RoundTrip.multicastAck _ _ _
  | .scalePlacement .. => RoundTrip.scalePlacement _ _
  | .gleanerCommandCompletion .. => RoundTrip.gleanerCommandCompletion _ _
  | .mloopEntryStart .. => RoundTrip.mloopEntryStart _ _
  | .thresherPassGrant .. => RoundTrip.thresherPassGrant _
  | .thresherPassEnd .. => RoundTrip.thresherPassEnd _
  | .tilePortStart .. => RoundTrip.tilePortStart _
  | .tileOperationComplete .. => RoundTrip.tileOperationComplete _
  | .invocationArrival .. => RoundTrip.invocationArrival _
  | .dependentMessageAtHome .. => RoundTrip.dependentMessageAtHome _
  | .bindReport .. => RoundTrip.bindReport _
  | .resultPosted .. => RoundTrip.resultPosted _
  | .rgetResultArrival .. => RoundTrip.rgetResultArrival _
  | .invocationFabricTimeout .. => RoundTrip.invocationFabricTimeout _
  | .tcaddArrival .. => RoundTrip.tcaddArrival _
  | .pendingFireCopy .. => RoundTrip.pendingFireCopy _
  | .preemptGraceExpiry .. => RoundTrip.preemptGraceExpiry _
  | .preemptionSave .. => RoundTrip.preemptionSave _
  | .workgroupRestore .. => RoundTrip.workgroupRestore _ _
  | .fwcallReply .. => RoundTrip.fwcallReply _
  | .plaquelTranslation .. => RoundTrip.plaquelTranslation _
  | .doorbellWrite .. => RoundTrip.doorbellWrite _
  | .queuePoll => RoundTrip.queuePoll
  | .launchPacket .. => RoundTrip.launchPacket _
  | .waitAndPacket .. => RoundTrip.waitAndPacket _
  | .waitAndPoll .. => RoundTrip.waitAndPoll _ _
  | .waitAndTimeout .. => RoundTrip.waitAndTimeout _ _
  | .triggerArmPacket .. => RoundTrip.triggerArmPacket _
  | .copyPacket .. => RoundTrip.copyPacket _
  | .signalPacket .. => RoundTrip.signalPacket _
  | .partitionConfigure .. => RoundTrip.partitionConfigure _
  | .partitionRemove .. => RoundTrip.partitionRemove _
  | .partitionQueueDescriptor .. => RoundTrip.partitionQueueDescriptor _
  | .partitionTeardown .. => RoundTrip.partitionTeardown _
  | .partitionFlush .. => RoundTrip.partitionFlush _
  | .dispatch .. => RoundTrip.dispatch _
  | .workgroupAdmission .. => RoundTrip.workgroupAdmission _ _
  | .headAgeing .. => RoundTrip.headAgeing _ _
  | .workgroupRetirement .. => RoundTrip.workgroupRetirement _
  | .wgPreemptWrite .. => RoundTrip.wgPreemptWrite _
  | .tfqReplyRetry .. => RoundTrip.tfqReplyRetry _ _
  | .tfqReplyDeliver .. => RoundTrip.tfqReplyDeliver _ _
  | .tfqReplyFail .. => RoundTrip.tfqReplyFail _ _ _
  | .tfqHeadWrite .. => RoundTrip.tfqHeadWrite _ _
  | .registerWrite .. => RoundTrip.registerWrite _ _ _ _
  | .policyCommit .. => RoundTrip.policyCommit _
  | .hostBar0Access .. => RoundTrip.hostBar0Access _ _ _ _
  | .attestationRequest .. => ofEvent rfl
  | .dvfsReq .. => RoundTrip.dvfsReq _
  | .clockSwitchEnd => RoundTrip.clockSwitchEnd
  | .voltageSlewEnd => RoundTrip.voltageSlewEnd
  | .thermalThrottle .. => RoundTrip.thermalThrottle _ _
  | .throttleEnd => RoundTrip.throttleEnd
  | .thermalShutdown .. => RoundTrip.thermalShutdown _ _
  | .powerCapStep .. => RoundTrip.powerCapStep _
  | .telemetrySample .. => RoundTrip.telemetrySample _ _ _
  | .patrolScrub .. => RoundTrip.patrolScrub _ _
  | .rowActivationRefresh .. => RoundTrip.rowActivationRefresh _
  | .meshFlitError .. => RoundTrip.meshFlitError _ _ _ _
  | .lumenMessageReceive .. => RoundTrip.lumenMessageReceive _ _ _ _
  | .heldMessageRelease .. => RoundTrip.heldMessageRelease _
  | .linkRecalibration .. => RoundTrip.linkRecalibration _ _
  | .inboundAccess .. => RoundTrip.inboundAccess _ _ _ _ _ _ _
  | .inboundTimeout .. => RoundTrip.inboundTimeout _
  | .initiatorTimeout .. => RoundTrip.initiatorTimeout _
  | .deviceReset .. => RoundTrip.deviceReset _ _
  | .illegalInstruction .. => RoundTrip.illegalInstruction _
  | .pageRequestReply .. => RoundTrip.pageRequestReply _ _ _

/-- Settles O1: the round trip of each constructor. -/
theorem decodeOfEncode : Obligations.DecodeOfEncode := roundTrip

end Sys2Proof.Laws
end

section
/-! Every decoding word is the encoding of its instruction (02 R36 to R46): a word is the parts that its layout names, one
after the other, and the parse names every bit of it. -/

namespace Sys2Proof.Laws

-- The rows' case splits, elaborated side by side, would each hold a thread's stack.
set_option Elab.async false

/-- `x` is what the word holds from bit `lo` up to its top. -/
def Upper (w : Word) (lo : Nat) {n : Nat} (x : BitVec n) : Prop := x = fld w lo n

/-- A field goes on where the parts above it end. -/
theorem Upper.const {w : Word} {hi n : Nat} {x : BitVec n} (h : Upper w hi x) (lo k : Nat) {c : BitVec k}
    (hc : fld w lo k = c) (hlo : hi = lo + k := by rfl) : Upper w lo (x ++ c) := by
  subst hc
  rw [Upper, h, fld, fld, BitVec.extractLsb'_append_extractLsb'_eq_extractLsb' hlo]

theorem Upper.part {w : Word} {hi n : Nat} {x : BitVec n} (h : Upper w hi x) (lo k : Nat)
    (hlo : hi = lo + k := by rfl) : Upper w lo (x ++ fld w lo k) := h.const lo k rfl hlo

/-- A field that the mask of reserved bits covers is zero (R46). -/
theorem fld_eq_zero {w m : Word} (hm : w &&& m = 0) (lo k : Nat) (hk : fld m lo k = BitVec.allOnes k) :
    fld w lo k = 0#k := by
  have h : fld (w &&& m) lo k = 0#k := by rw [hm]; exact BitVec.extractLsb'_zero
  rwa [fld, BitVec.extractLsb'_and, show m.extractLsb' lo k = _ from hk, BitVec.and_allOnes] at h

theorem Upper.zero {w m : Word} {hi n : Nat} {x : BitVec n} (h : Upper w hi x) (lo k : Nat) (hm : w &&& m = 0)
    (hk : fld m lo k = BitVec.allOnes k) (hlo : hi = lo + k := by rfl) : Upper w lo (x ++ 0#k) :=
  h.const lo k (fld_eq_zero hm lo k hk) hlo

/-- A sub-op with the zeros below it. -/
theorem subZero {w m : Word} {c : BitVec 8} (lo k : Nat) (hs : fld w 16 8 = c) (hm : w &&& m = 0)
    (hk : fld m lo k = BitVec.allOnes k) (hlo : 16 = lo + k := by rfl) : fld w lo (8 + k) = c ++ 0#k :=
  (Upper.zero (w := w) (x := c) hs.symm lo k hm hk hlo).symm

/-- All 32 bits are the word. -/
theorem Upper.word {w x : Word} (h : Upper w 0 x) : x = w := h.trans BitVec.extractLsb'_eq_self

/-- Where the reserved bits are zero, the instruction is the one that the layout names. -/
theorem encode_of_reservedZero {w m x : Word} {i j : Instr} (h : reservedZero w m i = .ok j) (hx : w &&& m = 0 → x = w)
    (he : encode i = some x := by rfl) : encode j = some w := by
  unfold reservedZero at h
  split at h
  · next hm => rw [← Except.ok.inj h, he, hx hm]
  · exact nomatch h

/-- The two ways through a choice by sub-op (R45). -/
theorem of_ite {c P : Prop} [Decidable c] {x y z : Except Reject Instr} (h : (if c then x else y) = z)
    (hx : c → x = z → P) (hy : y = z → P) : P := by
  split at h
  · next hc => exact hx hc h
  · exact hy h

section
variable {w : Word} {op : BitVec 8}

/-- A word of three operand codes. -/
theorem Upper.fields_dab (hop : Upper w 24 op) :
    op ++ fld w 16 8 ++ fld w 8 8 ++ fld w 0 8 = w :=
  (((hop.part 16 8).part 8 8).part 0 8).word

/-- A word of two operand codes, then zeros. -/
theorem Upper.fields_da (hop : Upper w 24 op) (hm : w &&& 0xff#32 = 0) :
    op ++ fld w 16 8 ++ fld w 8 8 ++ 0#8 = w :=
  (((hop.part 16 8).part 8 8).zero 0 8 hm rfl).word

/-- A word of an operand code and 16 bits. -/
theorem Upper.fields_di (hop : Upper w 24 op) :
    op ++ fld w 16 8 ++ fld w 0 16 = w :=
  ((hop.part 16 8).part 0 16).word

/-- A word of two operand codes, a next-use code and a space. -/
theorem Upper.fields_dans (hop : Upper w 24 op) :
    op ++ fld w 16 8 ++ fld w 8 8 ++ fld w 2 6 ++ fld w 0 2 = w :=
  ((((hop.part 16 8).part 8 8).part 2 6).part 0 2).word

/-- A word of a sub-op and two operand codes. -/
theorem Upper.fields_ab {c : BitVec 8} (hop : Upper w 24 op) (hs : fld w 16 8 = c) :
    op ++ c ++ fld w 8 8 ++ fld w 0 8 = w :=
  (((hop.const 16 8 hs).part 8 8).part 0 8).word

/-- A word of a sub-op and one operand code, then zeros. -/
theorem Upper.fields_a {c : BitVec 8} (hop : Upper w 24 op) (hs : fld w 16 8 = c) (hm : w &&& 0xff#32 = 0) :
    op ++ c ++ fld w 8 8 ++ 0#8 = w :=
  (((hop.const 16 8 hs).part 8 8).zero 0 8 hm rfl).word

/-- A word of an operand code, then zeros. -/
theorem Upper.fields_d (hop : Upper w 24 op) (hm : w &&& 0xffff#32 = 0) :
    op ++ fld w 16 8 ++ 0#16 = w :=
  ((hop.part 16 8).zero 0 16 hm rfl).word

/-- A word of one operand code between zeros. -/
theorem Upper.fields_0a (hop : Upper w 24 op) (hm : w &&& 0xff00ff#32 = 0) :
    op ++ 0#8 ++ fld w 8 8 ++ 0#8 = w :=
  (((hop.zero 16 8 hm rfl).part 8 8).zero 0 8 hm rfl).word

/-- A word of a sub-op, then zeros. -/
theorem Upper.fields_sub {c : BitVec 8} (hop : Upper w 24 op) (hs : fld w 16 8 = c) (hm : w &&& 0xffff#32 = 0) :
    op ++ (c ++ 0#16) = w :=
  (hop.const 0 24 (subZero 0 16 hs hm rfl)).word

/-- A word of an atomic without a lock bit. -/
theorem Upper.fields_atomic (hop : Upper w 24 op) (hm : w &&& 0x10#32 = 0) :
    op ++ fld w 16 8 ++ fld w 8 8 ++ fld w 5 3 ++ 0#1 ++ fld w 3 1 ++ fld w 2 1 ++ fld w 0 2 = w :=
  (((((((hop.part 16 8).part 8 8).part 5 3).zero 4 1 hm rfl).part 3 1).part 2 1).part 0 2).word

/-- A word of a sub-op and a scope. -/
theorem Upper.fields_fence {c : BitVec 8} (hop : Upper w 24 op) (hs : fld w 16 8 = c) (hm : w &&& 0xf8ff#32 = 0) :
    op ++ (c ++ 0#5) ++ fld w 8 3 ++ 0#8 = w :=
  (((hop.const 11 13 (subZero 11 5 hs hm rfl)).part 8 3).zero 0 8 hm rfl).word

end

/-- Row 0_ of the opcode grid. -/
theorem encode_of_parseRow0 {w : Word} {i : Instr} : ∀ lo, Upper w 24 (BitVec.ofNat 8 (0 + lo)) →
    parseRow0 w lo = .ok i → encode i = some w
  | 1, hop, h => encode_of_reservedZero h fun _ => ((((hop.part 19 5).part 18 1).part 16 2).part 0 16).word
  | 2, hop, h => encode_of_reservedZero h fun hm => hop.fields_0a hm
  | 3, hop, h => encode_of_reservedZero h fun _ => (hop.part 0 24).word
  | 4, hop, h => encode_of_reservedZero h fun hm => hop.fields_0a hm
  | 5, hop, h =>
    of_ite h (fun hs h => encode_of_reservedZero h fun hm => hop.fields_sub hs hm) fun h =>
    nomatch h
  | 6, hop, h =>
    of_ite h (fun hs h => encode_of_reservedZero h fun hm => hop.fields_a hs hm) fun h =>
    nomatch h
  | 7, hop, h =>
    of_ite h (fun hs h => encode_of_reservedZero h fun hm => hop.fields_sub hs hm) fun h =>
    nomatch h
  | 8, hop, h => encode_of_reservedZero h fun hm => (hop.zero 0 24 hm rfl).word
  | 9, hop, h =>
    of_ite h (fun hs h => encode_of_reservedZero h fun hm => hop.fields_sub hs hm) fun h =>
    nomatch h
  | 10, hop, h =>
    of_ite h (fun hs h => encode_of_reservedZero h fun hm => hop.fields_sub hs hm) fun h =>
    of_ite h (fun hs h => encode_of_reservedZero h fun hm => hop.fields_sub hs hm) fun h =>
    nomatch h
  | _ + 11, _, h => nomatch h

/-- Row 1_ of the opcode grid. -/
theorem encode_of_parseRow1 {w : Word} {i : Instr} : ∀ lo, Upper w 24 (BitVec.ofNat 8 (16 + lo)) →
    parseRow1 w lo = .ok i → encode i = some w
  | 0, hop, h => encode_of_reservedZero h fun _ => hop.fields_dab
  | 1, hop, h => encode_of_reservedZero h fun _ => hop.fields_dab
  | 2, hop, h => encode_of_reservedZero h fun _ => hop.fields_dab
  | 3, hop, h => encode_of_reservedZero h fun hm => hop.fields_da hm
  | 4, hop, h => encode_of_reservedZero h fun hm => hop.fields_d hm
  | 5, hop, h => encode_of_reservedZero h fun hm => ((((hop.part 16 8).part 8 8).zero 1 7 hm rfl).part 0 1).word
  | 6, hop, h => encode_of_reservedZero h fun hm => hop.fields_0a hm
  | 7, hop, h => encode_of_reservedZero h fun hm => hop.fields_da hm
  | 8, hop, h => encode_of_reservedZero h fun hm => ((((hop.part 16 8).part 8 8).zero 2 6 hm rfl).part 0 2).word
  | 9, hop, h => encode_of_reservedZero h fun hm => hop.fields_da hm
  | 10, hop, h => encode_of_reservedZero h fun hm => hop.fields_da hm
  | 11, hop, h => encode_of_reservedZero h fun _ => hop.fields_dab
  | 12, hop, h => encode_of_reservedZero h fun hm => ((((hop.part 16 8).part 14 2).zero 5 9 hm rfl).part 0 5).word
  | 13, hop, h => encode_of_reservedZero h fun hm => ((((hop.part 16 8).part 8 8).zero 3 5 hm rfl).part 0 3).word
  | 14, hop, h => encode_of_reservedZero h fun hm => hop.fields_da hm
  | _ + 15, _, h => nomatch h

/-- Row 2_ of the opcode grid. -/
theorem encode_of_parseRow2 {w : Word} {i : Instr} : ∀ lo, Upper w 24 (BitVec.ofNat 8 (32 + lo)) →
    parseRow2 w lo = .ok i → encode i = some w
  | 0, hop, h => encode_of_reservedZero h fun hm => (((hop.zero 19 5 hm rfl).part 16 3).part 0 16).word
  | 1, hop, h => encode_of_reservedZero h fun hm => ((hop.zero 23 1 hm rfl).part 0 23).word
  | 2, hop, h => encode_of_reservedZero h fun hm => hop.fields_d hm
  | 3, hop, h => encode_of_reservedZero h fun hm => hop.fields_0a hm
  | 4, hop, h => encode_of_reservedZero h fun _ => ((((hop.part 18 6).part 12 6).part 6 6).part 0 6).word
  | 5, hop, h => encode_of_reservedZero h fun hm => (((hop.zero 11 13 hm rfl).part 8 3).part 0 8).word
  | 6, hop, h => encode_of_reservedZero h fun _ => hop.fields_di
  | 7, hop, h => encode_of_reservedZero h fun hm => ((hop.zero 16 8 hm rfl).part 0 16).word
  | 8, hop, h => encode_of_reservedZero h fun hm => hop.fields_d hm
  | 9, hop, h => encode_of_reservedZero h fun hm => ((hop.zero 5 19 hm rfl).part 0 5).word
  | _ + 10, _, h => nomatch h

/-- Row 3_ of the opcode grid. -/
theorem encode_of_parseRow3 {w : Word} {i : Instr} : ∀ lo, Upper w 24 (BitVec.ofNat 8 (48 + lo)) →
    parseRow3 w lo = .ok i → encode i = some w
  | 0, hop, h => encode_of_reservedZero h fun _ => hop.fields_dab
  | 1, hop, h => encode_of_reservedZero h fun _ => hop.fields_dab
  | 2, hop, h => encode_of_reservedZero h fun _ => hop.fields_dab
  | 3, hop, h => encode_of_reservedZero h fun _ => hop.fields_dab
  | 4, hop, h => encode_of_reservedZero h fun _ => hop.fields_dab
  | 5, hop, h => encode_of_reservedZero h fun _ => hop.fields_dab
  | 6, hop, h => encode_of_reservedZero h fun _ => hop.fields_dab
  | 7, hop, h => encode_of_reservedZero h fun _ => hop.fields_dab
  | 8, hop, h => encode_of_reservedZero h fun _ => hop.fields_dab
  | 9, hop, h => encode_of_reservedZero h fun _ => hop.fields_di
  | 10, hop, h => encode_of_reservedZero h fun _ => hop.fields_di
  | 11, hop, h => encode_of_reservedZero h fun _ => hop.fields_dab
  | _ + 12, _, h => nomatch h

/-- Row 4_ of the opcode grid. -/
theorem encode_of_parseRow4 {w : Word} {i : Instr} : ∀ lo, Upper w 24 (BitVec.ofNat 8 (64 + lo)) →
    parseRow4 w lo = .ok i → encode i = some w
  | 0, hop, h => encode_of_reservedZero h fun _ => hop.fields_dab
  | 1, hop, h => encode_of_reservedZero h fun _ => hop.fields_dab
  | 2, hop, h => encode_of_reservedZero h fun _ => hop.fields_dab
  | 3, hop, h => encode_of_reservedZero h fun _ => hop.fields_dab
  | 4, hop, h => encode_of_reservedZero h fun _ => hop.fields_dab
  | 5, hop, h => encode_of_reservedZero h fun _ => hop.fields_dab
  | 6, hop, h => encode_of_reservedZero h fun _ => hop.fields_dab
  | 7, hop, h => encode_of_reservedZero h fun _ => hop.fields_dab
  | 8, hop, h => encode_of_reservedZero h fun _ => hop.fields_dab
  | 9, hop, h => encode_of_reservedZero h fun hm => hop.fields_da hm
  | 10, hop, h => encode_of_reservedZero h fun hm => hop.fields_da hm
  | 11, hop, h => encode_of_reservedZero h fun _ => hop.fields_dab
  | 12, hop, h => encode_of_reservedZero h fun _ => hop.fields_dab
  | 13, hop, h => encode_of_reservedZero h fun _ => hop.fields_dab
  | 14, hop, h => encode_of_reservedZero h fun _ => hop.fields_dab
  | 15, hop, h => encode_of_reservedZero h fun _ => hop.fields_dab
  | _ + 16, _, h => nomatch h

/-- Row 5_ of the opcode grid. -/
theorem encode_of_parseRow5 {w : Word} {i : Instr} : ∀ lo, Upper w 24 (BitVec.ofNat 8 (80 + lo)) →
    parseRow5 w lo = .ok i → encode i = some w
  | 0, hop, h => encode_of_reservedZero h fun _ => hop.fields_di
  | 1, hop, h => encode_of_reservedZero h fun _ => hop.fields_di
  | 2, hop, h => encode_of_reservedZero h fun hm => hop.fields_da hm
  | 3, hop, h => encode_of_reservedZero h fun _ => hop.fields_di
  | 4, hop, h => encode_of_reservedZero h fun _ => hop.fields_dab
  | 5, hop, h => encode_of_reservedZero h fun _ => hop.fields_dab
  | _ + 6, _, h => nomatch h

/-- Row 6_ of the opcode grid. -/
theorem encode_of_parseRow6 {w : Word} {i : Instr} : ∀ lo, Upper w 24 (BitVec.ofNat 8 (96 + lo)) →
    parseRow6 w lo = .ok i → encode i = some w
  | 0, hop, h => encode_of_reservedZero h fun _ => hop.fields_dab
  | 1, hop, h => encode_of_reservedZero h fun _ => hop.fields_dab
  | 2, hop, h => encode_of_reservedZero h fun _ => hop.fields_dab
  | 3, hop, h => encode_of_reservedZero h fun _ => hop.fields_dab
  | 4, hop, h => encode_of_reservedZero h fun _ => hop.fields_dab
  | 5, hop, h => encode_of_reservedZero h fun _ => hop.fields_dab
  | 6, hop, h => encode_of_reservedZero h fun _ => hop.fields_dab
  | 7, hop, h => encode_of_reservedZero h fun _ => hop.fields_dab
  | 8, hop, h => encode_of_reservedZero h fun hm => hop.fields_da hm
  | 9, hop, h => encode_of_reservedZero h fun hm => hop.fields_da hm
  | 10, hop, h => encode_of_reservedZero h fun _ => hop.fields_dab
  | 11, hop, h => encode_of_reservedZero h fun _ => hop.fields_dab
  | 12, hop, h => encode_of_reservedZero h fun _ => hop.fields_dab
  | _ + 13, _, h => nomatch h

/-- Row 7_ of the opcode grid. -/
theorem encode_of_parseRow7 {w : Word} {i : Instr} : ∀ lo, Upper w 24 (BitVec.ofNat 8 (112 + lo)) →
    parseRow7 w lo = .ok i → encode i = some w
  | 0, hop, h => encode_of_reservedZero h fun _ => hop.fields_dab
  | 1, hop, h => encode_of_reservedZero h fun hm => hop.fields_da hm
  | 2, hop, h => encode_of_reservedZero h fun hm => hop.fields_da hm
  | 3, hop, h => encode_of_reservedZero h fun hm => hop.fields_da hm
  | 4, hop, h => encode_of_reservedZero h fun _ => hop.fields_dab
  | 5, hop, h => encode_of_reservedZero h fun _ => hop.fields_dab
  | _ + 6, _, h => nomatch h

/-- Row 8_ of the opcode grid. -/
theorem encode_of_parseRow8 {w : Word} {i : Instr} : ∀ lo, Upper w 24 (BitVec.ofNat 8 (128 + lo)) →
    parseRow8 w lo = .ok i → encode i = some w
  | 0, hop, h => encode_of_reservedZero h fun _ => hop.fields_dab
  | 1, hop, h => encode_of_reservedZero h fun _ => hop.fields_dab
  | 2, hop, h => encode_of_reservedZero h fun _ => hop.fields_dab
  | 3, hop, h => encode_of_reservedZero h fun _ => hop.fields_dab
  | 4, hop, h => encode_of_reservedZero h fun _ => hop.fields_dab
  | 5, hop, h => encode_of_reservedZero h fun _ => hop.fields_dab
  | 6, hop, h => encode_of_reservedZero h fun _ => hop.fields_dab
  | 7, hop, h => encode_of_reservedZero h fun _ => hop.fields_dab
  | 8, hop, h => encode_of_reservedZero h fun hm => hop.fields_da hm
  | 9, hop, h => encode_of_reservedZero h fun hm => hop.fields_da hm
  | 10, hop, h => encode_of_reservedZero h fun hm => hop.fields_da hm
  | 11, hop, h => encode_of_reservedZero h fun _ => hop.fields_dab
  | 12, hop, h => encode_of_reservedZero h fun _ => hop.fields_dab
  | 13, hop, h => encode_of_reservedZero h fun _ => hop.fields_dab
  | 14, hop, h => encode_of_reservedZero h fun _ => hop.fields_dab
  | 15, hop, h => encode_of_reservedZero h fun hm => hop.fields_da hm
  | _ + 16, _, h => nomatch h

/-- Row 9_ of the opcode grid. -/
theorem encode_of_parseRow9 {w : Word} {i : Instr} : ∀ lo, Upper w 24 (BitVec.ofNat 8 (144 + lo)) →
    parseRow9 w lo = .ok i → encode i = some w
  | 0, hop, h => encode_of_reservedZero h fun hm => hop.fields_da hm
  | 1, hop, h => encode_of_reservedZero h fun hm => hop.fields_da hm
  | 2, hop, h => encode_of_reservedZero h fun hm => hop.fields_da hm
  | 3, hop, h => encode_of_reservedZero h fun _ => hop.fields_dab
  | 4, hop, h => encode_of_reservedZero h fun hm => hop.fields_da hm
  | 5, hop, h => encode_of_reservedZero h fun hm => hop.fields_da hm
  | 6, hop, h => encode_of_reservedZero h fun _ => hop.fields_dab
  | 7, hop, h => encode_of_reservedZero h fun _ => hop.fields_dab
  | 8, hop, h => encode_of_reservedZero h fun _ => hop.fields_dab
  | 9, hop, h => encode_of_reservedZero h fun _ => hop.fields_dab
  | 10, hop, h => encode_of_reservedZero h fun _ => hop.fields_dab
  | 11, hop, h => encode_of_reservedZero h fun _ => hop.fields_dab
  | 12, hop, h => encode_of_reservedZero h fun _ => hop.fields_dab
  | 13, hop, h => encode_of_reservedZero h fun _ => hop.fields_dab
  | 14, hop, h => encode_of_reservedZero h fun hm => hop.fields_da hm
  | 15, hop, h => encode_of_reservedZero h fun _ => hop.fields_dab
  | _ + 16, _, h => nomatch h

/-- Row A_ of the opcode grid. -/
theorem encode_of_parseRowA {w : Word} {i : Instr} : ∀ lo, Upper w 24 (BitVec.ofNat 8 (160 + lo)) →
    parseRowA w lo = .ok i → encode i = some w
  | 0, hop, h => encode_of_reservedZero h fun _ => hop.fields_dans
  | 1, hop, h => encode_of_reservedZero h fun _ => hop.fields_dans
  | 2, hop, h => encode_of_reservedZero h fun _ => hop.fields_dans
  | 3, hop, h => encode_of_reservedZero h fun _ => hop.fields_dans
  | 4, hop, h => encode_of_reservedZero h fun _ => hop.fields_dans
  | 5, hop, h => encode_of_reservedZero h fun _ => hop.fields_dans
  | 6, hop, h => encode_of_reservedZero h fun _ => hop.fields_dans
  | 7, hop, h => encode_of_reservedZero h fun hm => (((((((hop.part 16 8).part 8 8).part 5 3).part 4 1).zero 3 1 hm rfl).part 2 1).part 0 2).word
  | 8, hop, h => encode_of_reservedZero h fun _ => hop.fields_dans
  | 9, hop, h => encode_of_reservedZero h fun _ => hop.fields_dans
  | 10, hop, h => encode_of_reservedZero h fun _ => hop.fields_dans
  | 11, hop, h => encode_of_reservedZero h fun _ => hop.fields_dans
  | 12, hop, h => encode_of_reservedZero h fun _ => hop.fields_dans
  | 13, hop, h => encode_of_reservedZero h fun hm => (((((((hop.part 16 8).part 8 8).part 5 3).part 4 1).zero 3 1 hm rfl).part 2 1).part 0 2).word
  | 14, hop, h => encode_of_reservedZero h fun hm => ((((((hop.zero 17 7 hm rfl).part 16 1).part 8 8).part 2 6).zero 1 1 hm rfl).part 0 1).word
  | 15, hop, h => encode_of_reservedZero h fun hm => hop.fields_da hm
  | _ + 16, _, h => nomatch h

/-- Row B_ of the opcode grid. -/
theorem encode_of_parseRowB {w : Word} {i : Instr} : ∀ lo, Upper w 24 (BitVec.ofNat 8 (176 + lo)) →
    parseRowB w lo = .ok i → encode i = some w
  | 0, hop, h => encode_of_reservedZero h fun hm => hop.fields_atomic hm
  | 1, hop, h => encode_of_reservedZero h fun hm => hop.fields_atomic hm
  | 2, hop, h => encode_of_reservedZero h fun hm => hop.fields_atomic hm
  | 3, hop, h => encode_of_reservedZero h fun hm => hop.fields_atomic hm
  | 4, hop, h => encode_of_reservedZero h fun hm => hop.fields_atomic hm
  | 5, hop, h => encode_of_reservedZero h fun hm => hop.fields_atomic hm
  | 6, hop, h => encode_of_reservedZero h fun hm => hop.fields_atomic hm
  | 7, hop, h => encode_of_reservedZero h fun _ => (((((((hop.part 16 8).part 8 8).part 5 3).part 4 1).part 3 1).part 2 1).part 0 2).word
  | 8, hop, h => encode_of_reservedZero h fun _ => (((((((hop.part 16 8).part 8 8).part 5 3).part 4 1).part 3 1).part 2 1).part 0 2).word
  | 9, hop, h =>
    of_ite h (fun hs h => encode_of_reservedZero h fun hm => hop.fields_fence hs hm) fun h =>
    of_ite h (fun hs h => encode_of_reservedZero h fun hm => hop.fields_fence hs hm) fun h =>
    of_ite h (fun hs h => encode_of_reservedZero h fun hm => hop.fields_fence hs hm) fun h =>
    of_ite h (fun hs h => encode_of_reservedZero h fun hm => hop.fields_fence hs hm) fun h =>
    nomatch h
  | 10, hop, h =>
    of_ite h (fun hs h => encode_of_reservedZero h fun hm => ((((hop.const 14 10 (subZero 14 2 hs hm rfl)).part 8 6).zero 6 2 hm rfl).part 0 6).word) fun h =>
    nomatch h
  | 11, hop, h => encode_of_reservedZero h fun hm => (((((hop.part 16 8).part 8 8).part 2 6).zero 1 1 hm rfl).part 0 1).word
  | 12, hop, h => encode_of_reservedZero h fun hm => hop.fields_da hm
  | 13, hop, h => encode_of_reservedZero h fun hm => (hop.zero 0 24 hm rfl).word
  | 14, hop, h => encode_of_reservedZero h fun hm => ((((((hop.zero 18 6 hm rfl).part 16 2).part 8 8).part 2 6).zero 1 1 hm rfl).part 0 1).word
  | _ + 15, _, h => nomatch h

/-- Row C_ of the opcode grid. -/
theorem encode_of_parseRowC {w : Word} {i : Instr} : ∀ lo, Upper w 24 (BitVec.ofNat 8 (192 + lo)) →
    parseRowC w lo = .ok i → encode i = some w
  | 0, hop, h =>
    of_ite h (fun hs h => encode_of_reservedZero h fun _ => hop.fields_ab hs) fun h =>
    nomatch h
  | 1, hop, h => encode_of_reservedZero h fun hm => ((((hop.zero 22 2 hm rfl).part 16 6).part 8 8).zero 0 8 hm rfl).word
  | 2, hop, h =>
    of_ite h (fun hs h => encode_of_reservedZero h fun hm => hop.fields_a hs hm) fun h =>
    of_ite h (fun hs h => encode_of_reservedZero h fun _ => hop.fields_ab hs) fun h =>
    nomatch h
  | 3, hop, h => encode_of_reservedZero h fun hm => ((((hop.zero 22 2 hm rfl).part 16 6).part 8 8).zero 0 8 hm rfl).word
  | 4, hop, h =>
    of_ite h (fun hs h => encode_of_reservedZero h fun _ => hop.fields_ab hs) fun h =>
    of_ite h (fun hs h => encode_of_reservedZero h fun _ => hop.fields_ab hs) fun h =>
    nomatch h
  | 5, hop, h =>
    of_ite h (fun hs h => encode_of_reservedZero h fun _ => hop.fields_ab hs) fun h =>
    of_ite h (fun hs h => encode_of_reservedZero h fun _ => hop.fields_ab hs) fun h =>
    nomatch h
  | 6, hop, h =>
    of_ite h (fun hs h => encode_of_reservedZero h fun hm => hop.fields_a hs hm) fun h =>
    of_ite h (fun hs h => encode_of_reservedZero h fun hm => hop.fields_a hs hm) fun h =>
    nomatch h
  | 7, hop, h => encode_of_reservedZero h fun hm => ((((hop.zero 22 2 hm rfl).part 16 6).part 8 8).zero 0 8 hm rfl).word
  | 8, hop, h =>
    of_ite h (fun hs h => encode_of_reservedZero h fun hm => hop.fields_a hs hm) fun h =>
    of_ite h (fun hs h => encode_of_reservedZero h fun _ => hop.fields_ab hs) fun h =>
    of_ite h (fun hs h => encode_of_reservedZero h fun _ => hop.fields_ab hs) fun h =>
    nomatch h
  | 9, hop, h =>
    of_ite h (fun hs h => encode_of_reservedZero h fun _ => hop.fields_ab hs) fun h =>
    of_ite h (fun hs h => encode_of_reservedZero h fun _ => hop.fields_ab hs) fun h =>
    of_ite h (fun hs h => encode_of_reservedZero h fun _ => hop.fields_ab hs) fun h =>
    nomatch h
  | 10, hop, h => encode_of_reservedZero h fun hm => ((((((hop.zero 22 2 hm rfl).part 21 1).part 20 1).part 16 4).part 8 8).part 0 8).word
  | 11, hop, h =>
    of_ite h (fun hs h => encode_of_reservedZero h fun _ => hop.fields_ab hs) fun h =>
    nomatch h
  | 12, hop, h =>
    of_ite h (fun hs h => encode_of_reservedZero h fun _ => hop.fields_ab hs) fun h =>
    nomatch h
  | 13, hop, h =>
    of_ite h (fun hs h => encode_of_reservedZero h fun _ => hop.fields_ab hs) fun h =>
    nomatch h
  | 14, hop, h =>
    of_ite h (fun hs h => encode_of_reservedZero h fun _ => hop.fields_ab hs) fun h =>
    nomatch h
  | 15, hop, h =>
    of_ite h (fun hs h => encode_of_reservedZero h fun _ => hop.fields_ab hs) fun h =>
    of_ite h (fun hs h => encode_of_reservedZero h fun _ => hop.fields_ab hs) fun h =>
    of_ite h (fun hs h => encode_of_reservedZero h fun _ => hop.fields_ab hs) fun h =>
    nomatch h
  | _ + 16, _, h => nomatch h

/-- Row D_ of the opcode grid. -/
theorem encode_of_parseRowD {w : Word} {i : Instr} : ∀ lo, Upper w 24 (BitVec.ofNat 8 (208 + lo)) →
    parseRowD w lo = .ok i → encode i = some w
  | 0, hop, h => encode_of_reservedZero h fun _ => hop.fields_dab
  | 1, hop, h => encode_of_reservedZero h fun _ => hop.fields_dab
  | 2, hop, h => encode_of_reservedZero h fun hm => hop.fields_da hm
  | 3, hop, h => encode_of_reservedZero h fun hm => hop.fields_da hm
  | 4, hop, h => encode_of_reservedZero h fun hm => (((((hop.zero 16 8 hm rfl).part 8 8).part 2 6).zero 1 1 hm rfl).part 0 1).word
  | 5, hop, h => encode_of_reservedZero h fun hm => (((((hop.zero 16 8 hm rfl).part 8 8).part 2 6).zero 1 1 hm rfl).part 0 1).word
  | 6, hop, h => encode_of_reservedZero h fun hm => hop.fields_da hm
  | 7, hop, h => encode_of_reservedZero h fun _ => hop.fields_dab
  | 8, hop, h => encode_of_reservedZero h fun _ => hop.fields_dab
  | 9, hop, h => encode_of_reservedZero h fun _ => hop.fields_dab
  | 10, hop, h => encode_of_reservedZero h fun _ => hop.fields_dab
  | 11, hop, h => encode_of_reservedZero h fun _ => hop.fields_dab
  | 12, hop, h => encode_of_reservedZero h fun _ => hop.fields_dab
  | 13, hop, h => encode_of_reservedZero h fun hm => (((hop.zero 16 8 hm rfl).part 8 8).part 0 8).word
  | _ + 14, _, h => nomatch h

/-- Row E_ of the opcode grid. -/
theorem encode_of_parseRowE {w : Word} {i : Instr} : ∀ lo, Upper w 24 (BitVec.ofNat 8 (224 + lo)) →
    parseRowE w lo = .ok i → encode i = some w
  | 0, hop, h => encode_of_reservedZero h fun _ => hop.fields_dab
  | 1, hop, h =>
    of_ite h (fun hs h => encode_of_reservedZero h fun hm => hop.fields_a hs hm) fun h =>
    nomatch h
  | 2, hop, h =>
    of_ite h (fun hs h => encode_of_reservedZero h fun hm => hop.fields_a hs hm) fun h =>
    nomatch h
  | 3, hop, h => encode_of_reservedZero h fun hm => (((((hop.zero 18 6 hm rfl).part 17 1).part 16 1).part 8 8).part 0 8).word
  | 4, hop, h =>
    of_ite h (fun hs h => encode_of_reservedZero h fun hm => hop.fields_a hs hm) fun h =>
    nomatch h
  | 5, hop, h => encode_of_reservedZero h fun _ => hop.fields_dab
  | 6, hop, h =>
    of_ite h (fun hs h => encode_of_reservedZero h fun hm => hop.fields_a hs hm) fun h =>
    nomatch h
  | 7, hop, h =>
    of_ite h (fun hs h => encode_of_reservedZero h fun hm => hop.fields_a hs hm) fun h =>
    nomatch h
  | 8, hop, h =>
    of_ite h (fun hs h => encode_of_reservedZero h fun hm => hop.fields_a hs hm) fun h =>
    of_ite h (fun hs h => encode_of_reservedZero h fun hm => hop.fields_a hs hm) fun h =>
    nomatch h
  | 9, hop, h =>
    of_ite h (fun hs h => encode_of_reservedZero h fun hm => hop.fields_a hs hm) fun h =>
    nomatch h
  | 10, hop, h =>
    of_ite h (fun hs h => encode_of_reservedZero h fun _ => hop.fields_ab hs) fun h =>
    nomatch h
  | 11, hop, h =>
    of_ite h (fun hs h => encode_of_reservedZero h fun _ => hop.fields_ab hs) fun h =>
    nomatch h
  | _ + 12, _, h => nomatch h

/-- Row F_ of the opcode grid. -/
theorem encode_of_parseRowF {w : Word} {i : Instr} : ∀ lo, Upper w 24 (BitVec.ofNat 8 (240 + lo)) →
    parseRowF w lo = .ok i → encode i = some w
  | 0, hop, h =>
    of_ite h (fun hs h => encode_of_reservedZero h fun _ => hop.fields_ab hs) fun h =>
    nomatch h
  | 1, hop, h =>
    of_ite h (fun hs h => encode_of_reservedZero h fun _ => hop.fields_ab hs) fun h =>
    nomatch h
  | 2, hop, h => encode_of_reservedZero h fun hm => hop.fields_da hm
  | 3, hop, h => encode_of_reservedZero h fun hm => hop.fields_da hm
  | 4, hop, h =>
    of_ite h (fun hs h => encode_of_reservedZero h fun _ => hop.fields_ab hs) fun h =>
    of_ite h (fun hs h => encode_of_reservedZero h fun _ => hop.fields_ab hs) fun h =>
    nomatch h
  | 5, hop, h =>
    of_ite h (fun hs h => encode_of_reservedZero h fun hm => hop.fields_a hs hm) fun h =>
    nomatch h
  | 6, hop, h =>
    of_ite h (fun hs h => encode_of_reservedZero h fun _ => hop.fields_ab hs) fun h =>
    nomatch h
  | 7, hop, h =>
    of_ite h (fun hs h => encode_of_reservedZero h fun _ => hop.fields_ab hs) fun h =>
    of_ite h (fun hs h => encode_of_reservedZero h fun _ => hop.fields_ab hs) fun h =>
    of_ite h (fun hs h => encode_of_reservedZero h fun _ => hop.fields_ab hs) fun h =>
    of_ite h (fun hs h => encode_of_reservedZero h fun _ => hop.fields_ab hs) fun h =>
    nomatch h
  | 8, hop, h => encode_of_reservedZero h fun hm => ((hop.zero 16 8 hm rfl).part 0 16).word
  | 9, hop, h => encode_of_reservedZero h fun hm => ((((hop.zero 17 7 hm rfl).part 16 1).part 8 8).part 0 8).word
  | 10, hop, h =>
    of_ite h (fun hs h => encode_of_reservedZero h fun hm => hop.fields_sub hs hm) fun h =>
    of_ite h (fun hs h => encode_of_reservedZero h fun hm => hop.fields_sub hs hm) fun h =>
    nomatch h
  | 11, hop, h =>
    of_ite h (fun hs h => encode_of_reservedZero h fun hm => hop.fields_a hs hm) fun h =>
    nomatch h
  | 12, hop, h => encode_of_reservedZero h fun hm => hop.fields_da hm
  | 13, hop, h => encode_of_reservedZero h fun hm => hop.fields_da hm
  | 14, hop, h =>
    of_ite h (fun hs h => encode_of_reservedZero h fun _ => hop.fields_ab hs) fun h =>
    of_ite h (fun hs h => encode_of_reservedZero h fun hm => hop.fields_a hs hm) fun h =>
    of_ite h (fun hs h => encode_of_reservedZero h fun hm => hop.fields_sub hs hm) fun h =>
    of_ite h (fun hs h => encode_of_reservedZero h fun _ => hop.fields_ab hs) fun h =>
    nomatch h
  | _ + 15, _, h => nomatch h

/-- The opcode by its two digits. -/
theorem upper_opcode (w : Word) : Upper w 24 (BitVec.ofNat 8 (16 * (fld w 28 4).toNat + (fld w 24 4).toNat)) := by
  have h : fld w 24 8 = fld w 28 4 ++ fld w 24 4 :=
    (BitVec.extractLsb'_append_extractLsb'_eq_extractLsb' (start₁ := 24) (len₁ := 4) (start₂ := 28) (len₂ := 4) rfl).symm
  rw [Upper, h]
  apply BitVec.eq_of_toNat_eq
  rw [BitVec.toNat_append, ← Nat.shiftLeft_add_eq_or_of_lt (fld w 24 4).isLt, BitVec.toNat_ofNat, Nat.shiftLeft_eq]
  have := (fld w 28 4).isLt
  have := (fld w 24 4).isLt
  omega

/-- The parse names every bit of the word. -/
theorem encode_of_parse {w : Word} {i : Instr} (h : parse w = .ok i) : encode i = some w := by
  have hop := upper_opcode w
  unfold parse at h
  generalize (fld w 28 4).toNat = hi at hop h
  match hi, hop, h with
  | 0, hop, h => exact encode_of_parseRow0 _ hop h
  | 1, hop, h => exact encode_of_parseRow1 _ hop h
  | 2, hop, h => exact encode_of_parseRow2 _ hop h
  | 3, hop, h => exact encode_of_parseRow3 _ hop h
  | 4, hop, h => exact encode_of_parseRow4 _ hop h
  | 5, hop, h => exact encode_of_parseRow5 _ hop h
  | 6, hop, h => exact encode_of_parseRow6 _ hop h
  | 7, hop, h => exact encode_of_parseRow7 _ hop h
  | 8, hop, h => exact encode_of_parseRow8 _ hop h
  | 9, hop, h => exact encode_of_parseRow9 _ hop h
  | 10, hop, h => exact encode_of_parseRowA _ hop h
  | 11, hop, h => exact encode_of_parseRowB _ hop h
  | 12, hop, h => exact encode_of_parseRowC _ hop h
  | 13, hop, h => exact encode_of_parseRowD _ hop h
  | 14, hop, h => exact encode_of_parseRowE _ hop h
  | 15, hop, h => exact encode_of_parseRowF _ hop h
  | _ + 16, _, h => exact nomatch h

/-- A word decodes to what its layout names, where that is well formed. -/
theorem decode_ok_iff {w : Word} {i : Instr} : decode w = .ok i ↔ parse w = .ok i ∧ WellFormed i = true := by
  unfold decode
  cases hp : parse w with
  | error r => simp
  | ok j =>
    cases hi : illegality j with
    | none =>
      have hj : j = i → illegality i = none := fun h => h ▸ hi
      simpa [WellFormed, hi] using hj
    | some r =>
      have hj : j = i → illegality i = some r := fun h => h ▸ hi
      simp only [hi, WellFormed, Option.isNone_iff_eq_none, Except.ok.injEq, reduceCtorEq, false_iff, not_and]
      exact fun h => by simp [hj h]

/-- Settles O2: the parse names every bit of the word, and the decoder admits only well-formed instructions. -/
theorem encodeOfDecode : Obligations.EncodeOfDecode := fun _ _ h => by
  obtain ⟨hparse, hwf⟩ := decode_ok_iff.mp h
  exact ⟨encode_of_parse hparse, hwf⟩

end Sys2Proof.Laws
end

section
/-! Fixed words against the opcode grid, and the state after reset (02 R36 to R46, R50; 16 R405). -/

namespace Sys2Proof.Machine

/-- Settles O3: each word is read by the decoder. -/
theorem decodeWords : Obligations.DecodeWords := by
  unfold Obligations.DecodeWords
  decide

/-- Settles O5: the records of the reset state hold nothing, and a record that is not held is the empty one. -/
theorem resetValues : Obligations.ResetValues := by
  unfold Obligations.ResetValues
  refine ⟨rfl, rfl, rfl, rfl, rfl, rfl, rfl, rfl, rfl, rfl, rfl, rfl, rfl, rfl, rfl, rfl, rfl, rfl, rfl, rfl, ?_, ?_, ?_, ?_⟩
  · exact fun _ => ⟨rfl, rfl, rfl, rfl⟩
  · exact fun _ => ⟨rfl, rfl, rfl⟩
  · exact fun _ => ⟨rfl, rfl, rfl⟩
  · exact fun _ => ⟨rfl, rfl⟩

/-- Settles O6. -/
theorem invAtReset : Obligations.InvAtReset := memWf_reset

end Sys2Proof.Machine
end

section
/-! SUPPORT. The end of a floating-point word: flags with the result, or flags with the trap (06 R151, R152). -/

namespace Sys2Proof.Machine

/-- A second put at a key replaces the first. -/
theorem mapPut_mapPut {α : Type} (k : Nat) (x y : α) (m : SMap α) : mapPut k x (mapPut k y m) = mapPut k x m := by
  induction m with
  | nil => simp [mapPut]
  | cons e m ih =>
    obtain ⟨i, z⟩ := e
    rcases Nat.lt_trichotomy i k with h | rfl | h
    · simp [mapPut, h, ih]
    · simp [mapPut]
    · simp [mapPut, Nat.lt_asymm h, Nat.ne_of_gt h]

@[simp] theorem State.updGang_updGang (s : State) (f g : Gang → Gang) :
    (s.updGang f).updGang g = s.updGang (fun h => g (f h)) := by
  simp [State.updGang, State.setGang, State.setGangAt, State.gang, State.gangAt, mapPut_mapPut, mapFind_put_same]

/-- With no trapping lane the flags and the result are written. -/
theorem floatFinish_commits {s : State} {fl : Nat → Nat} (ht : s.gang.trapping fl = 0) (commit : Gang → Gang) :
    floatFinish s fl commit = .next (s.updGang (fun g => (commit (g.raiseFlags (laneFlags s.gang fl))).advance)) := by
  simp [floatFinish, ht, finishWith]

/-- With a trapping lane the flags alone are written, and the trap names the lanes. -/
theorem floatFinish_traps {s : State} {fl : Nat → Nat} (ht : s.gang.trapping fl ≠ 0) (commit : Gang → Gang) :
    floatFinish s fl commit = .next ((s.updGang (fun g => g.raiseFlags (laneFlags s.gang fl))).takeTrap
      { cause := 0x0A, lanes := s.gang.trapping fl, aux := BitVec.ofNat 32 (laneFlags s.gang fl) }) := by
  unfold floatFinish
  rw [if_neg ht]
  rfl

/-- Only the bits that are written matter: the low word where no lane is wide. -/
theorem State.vecStep.low {s t : State} {d : Code} {lanes : Nat → Bool} {x y : Nat → DWord} {fl : Nat}
    (h : s.vecStep t d (fun _ => false) lanes x fl) (hxy : ∀ l, (x l).setWidth 32 = (y l).setWidth 32) :
    s.vecStep t d (fun _ => false) lanes y fl := by
  obtain ⟨hv, hrest⟩ := h
  exact ⟨fun r l hl => by simpa [hxy] using hv r l hl, hrest⟩

/-- The prologue, then flags and a result that is a pair where the lane's etype is wide. -/
theorem floatRuns_of_putV {i : Instr} {s : State} {f : OpndsOf} {d : Code} (r : State → Nat → Nat × Nat)
    (he : exec i s = guardOps s f (fun s => floatFinish s (fun l => (r s l).2) (fun h =>
      h.putV d s.wideLane s.gang.active (fun l => BitVec.ofNat 64 (r s l).1)))) :
    floatRuns i s f d s.wideLane (r s) := fun hi ht =>
  ⟨_, (he.trans (guardOps_issues hi _)).trans (floatFinish_commits ht _), vecStep_putV s d s.wideLane s.gang.active _ _⟩

/-- The prologue, then flags and a result of 32 bits. -/
theorem floatRuns_of_putV32 {i : Instr} {s : State} {f : OpndsOf} {d : Code} (r : State → Nat → Nat × Nat)
    (x : State → Nat → Nat) (hx : ∀ l, BitVec.ofNat 32 (x s l) = BitVec.ofNat 32 (r s l).1)
    (he : exec i s = guardOps s f (fun s => floatFinish s (fun l => (r s l).2) (fun h =>
      h.putV32 d s.gang.active (fun l => BitVec.ofNat 32 (x s l))))) :
    floatRuns i s f d (fun _ => false) (r s) := fun hi ht =>
  ⟨_, (he.trans (guardOps_issues hi _)).trans (floatFinish_commits ht _),
    (vecStep_putV32 s d s.gang.active _ _).low (fun l => by simp [hx, BitVec.setWidth_ofNat_of_le])⟩

/-- The prologue, then flags and a predicate. -/
theorem compareRuns_of_putP {i : Instr} {s : State} {f : OpndsOf} {d : Code} (r : State → Nat → Bool × Nat)
    (he : exec i s = guardOps s f (fun s => floatFinish s (fun l => (r s l).2) (fun h =>
      h.putP d s.gang.active (fun l => (r s l).1)))) :
    compareRuns i s f d (r s) := fun hi ht =>
  ⟨_, (he.trans (guardOps_issues hi _)).trans (floatFinish_commits ht _), predStep_putP s d s.gang.active _ _⟩

/-- The prologue, then flags: with a trapping lane the trap is taken, whatever the result would have been. -/
theorem floatTraps_of_floatFinish {i : Instr} {s : State} {f : OpndsOf} (fl : State → Nat → Nat)
    (commit : State → Gang → Gang) (he : exec i s = guardOps s f (fun s => floatFinish s (fl s) (commit s))) :
    floatTraps i s f (fl s) := fun hi ht =>
  (he.trans (guardOps_issues hi _)).trans (floatFinish_traps ht _)

theorem floatTraps_of_putV {i : Instr} {s : State} {f : OpndsOf} {d : Code} (r : State → Nat → Nat × Nat)
    (he : exec i s = guardOps s f (fun s => floatFinish s (fun l => (r s l).2) (fun h =>
      h.putV d s.wideLane s.gang.active (fun l => BitVec.ofNat 64 (r s l).1)))) :
    floatTraps i s f (fun l => (r s l).2) := floatTraps_of_floatFinish (fun s l => (r s l).2) _ he

theorem floatTraps_of_putV32 {i : Instr} {s : State} {f : OpndsOf} {d : Code} (r : State → Nat → Nat × Nat)
    (x : State → Nat → Nat) (he : exec i s = guardOps s f (fun s => floatFinish s (fun l => (r s l).2) (fun h =>
      h.putV32 d s.gang.active (fun l => BitVec.ofNat 32 (x s l))))) :
    floatTraps i s f (fun l => (r s l).2) := floatTraps_of_floatFinish (fun s l => (r s l).2) _ he

theorem floatTraps_of_putP {i : Instr} {s : State} {f : OpndsOf} {d : Code} (r : State → Nat → Bool × Nat)
    (he : exec i s = guardOps s f (fun s => floatFinish s (fun l => (r s l).2) (fun h =>
      h.putP d s.gang.active (fun l => (r s l).1)))) :
    floatTraps i s f (fun l => (r s l).2) := floatTraps_of_floatFinish (fun s l => (r s l).2) _ he

/-! ### Groups of registers -/

theorem elemCount_le (t : Nat) : elemCount t ≤ 8 := by
  unfold elemCount etypeWide etypeStride etypeWidth
  split <;> simp

/-- A write of lanes changes vector registers, and only the marks of reports. -/
def Gang.lanesOnly (g h : Gang) : Prop :=
  g.sameReports h ∧ h = { g with regs := { g.regs with v := h.regs.v }, reports := h.reports }

theorem Gang.lanesOnly_refl (g : Gang) : g.lanesOnly g := ⟨rfl, rfl⟩

theorem Gang.lanesOnly.writeLanes {g h : Gang} (hgh : g.lanesOnly h) (r : Nat) (f : Nat → Bool) (x : Nat → Word) :
    g.lanesOnly (h.writeLanes r f x) := by
  obtain ⟨hreports, heq⟩ := hgh
  refine ⟨?_, ?_⟩
  · show List.map _ (clearMarks r f h.reports) = _
    rw [clearMarks_marks]
    exact hreports
  · rw [heq]
    rfl

/-- Registers d to d + m - 1, register d + k in the lanes that hold more than k elements (06 R166, R167). -/
def Gang.putElems (g : Gang) (d : Code) (n : Nat → Nat) (lanes : Nat → Bool) (x : Nat → Nat → Word) (m : Nat) : Gang :=
  (List.range m).foldl (fun h k =>
    if d = 0xF0 then h else h.writeLanes (d.toNat + k) (fun l => lanes l && decide (k < n l)) (x k)) g

theorem Gang.putElems_succ (g : Gang) (d : Code) (n : Nat → Nat) (lanes : Nat → Bool) (x : Nat → Nat → Word) (m : Nat) :
    g.putElems d n lanes x (m + 1) = if d = 0xF0 then g.putElems d n lanes x m else
      (g.putElems d n lanes x m).writeLanes (d.toNat + m) (fun l => lanes l && decide (m < n l)) (x m) := by
  simp [Gang.putElems, List.range_succ]

theorem Gang.lanesOnly_putElems (g : Gang) (d : Code) (n : Nat → Nat) (lanes : Nat → Bool) (x : Nat → Nat → Word) (m : Nat) :
    g.lanesOnly (g.putElems d n lanes x m) := by
  induction m with
  | zero => exact g.lanesOnly_refl
  | succ m ih =>
    rw [Gang.putElems_succ]
    split
    · exact ih
    · exact ih.writeLanes _ _ _

theorem Gang.v_putElems (g : Gang) (d : Code) (n : Nat → Nat) (lanes : Nat → Bool) (x : Nat → Nat → Word) (m r l : Nat)
    (hl : l < 32) : (g.putElems d n lanes x m).v r l =
      if d ≠ 0xF0 ∧ lanes l = true ∧ d.toNat ≤ r ∧ r < d.toNat + min m (n l) then x (r - d.toNat) l else g.v r l := by
  induction m with
  | zero => rw [if_neg (by omega)]; rfl
  | succ m ih =>
    rw [Gang.putElems_succ]
    split
    · next hd => rw [ih, if_neg (fun h => h.1 hd), if_neg (fun h => h.1 hd)]
    · next hd =>
      rw [Gang.v_writeLanes _ _ _ _ _ _ hl, ih]
      by_cases hr : r = d.toNat + m
      · subst hr
        have hcut : ¬ d.toNat + m < d.toNat + min m (n l) := by omega
        have hin : d.toNat + m < d.toNat + min (m + 1) (n l) ↔ m < n l := by omega
        simp [show ¬ d = 240#8 from hd, hin]
      · have hin : d.toNat ≤ r → (r < d.toNat + min (m + 1) (n l) ↔ r < d.toNat + min m (n l)) := by omega
        simp only [hr, false_and, if_false]
        by_cases hle : d.toNat ≤ r <;> simp [hle, hin]

/-- A group of registers, flags, and past the word. -/
theorem groupStep_putElems (s : State) (d : Code) (n : Nat → Nat) (lanes : Nat → Bool) (x : Nat → Nat → Word) (fl : Nat)
    (hn : ∀ l, n l ≤ 8) :
    s.groupStep (s.updGang (fun g => ((g.raiseFlags fl).putElems d n lanes x 8).advance)) d n lanes x fl := by
  obtain ⟨hreports, heq⟩ := (s.gang.raiseFlags fl).lanesOnly_putElems d n lanes x 8
  refine ⟨fun r l hl => ?_, ?_, sameDevice_updGang s _, ?_, ?_⟩
  · rw [State.gang_updGang, Gang.v_advance, Gang.v_putElems _ _ _ _ _ _ _ _ hl, Nat.min_eq_right (hn l)]
    rfl
  · refine past_of (f := fun g => (g.raiseFlags fl).putElems d n lanes x 8) ?_
    rw [heq]; rfl
  · rw [State.gang_updGang]; exact hreports
  · rw [State.gang_updGang, Gang.advance, heq]; rfl

/-- The prologue, then flags and a group of registers. -/
theorem unpackRuns_of_putElems {i : Instr} {s : State} {f : OpndsOf} {d : Code} (c : State → Nat → Nat → Nat × Nat)
    (he : exec i s = guardOps s f (fun s => floatFinish s (s.unpackFlags (c s)) (fun h =>
      h.putElems d (fun l => elemCount (s.gang.et l)) s.gang.active (fun k l => BitVec.ofNat 32 (c s l k).1) 8))) :
    unpackRuns i s f d (c s) := fun hi ht =>
  ⟨_, (he.trans (guardOps_issues hi _)).trans (floatFinish_commits ht _),
    groupStep_putElems s d _ s.gang.active _ _ (fun _ => elemCount_le _)⟩

theorem floatTraps_of_putElems {i : Instr} {s : State} {f : OpndsOf} {d : Code} (c : State → Nat → Nat → Nat × Nat)
    (he : exec i s = guardOps s f (fun s => floatFinish s (s.unpackFlags (c s)) (fun h =>
      h.putElems d (fun l => elemCount (s.gang.et l)) s.gang.active (fun k l => BitVec.ofNat 32 (c s l k).1) 8))) :
    floatTraps i s f (s.unpackFlags (c s)) := floatTraps_of_floatFinish (fun s => s.unpackFlags (c s)) _ he

end Sys2Proof.Machine
end

section
/-! The floating-point words (06 R158 to R168), the class masks and sign words, and gred (03 R85). -/

namespace Sys2Proof.Machine

/-- The two halves of a packed result are its low 32 bits. -/
theorem ofNat_halves (x : Nat) : BitVec.ofNat 32 x = BitVec.ofNat 32 (x % 2 ^ 32) := by
  apply BitVec.eq_of_toNat_eq
  simp

/-- A packed word (06 R162). -/
theorem floatRuns_of_halfForm {i : Instr} {s : State} {f : OpndsOf} {d a b : Code} (op : FOp)
    (he : exec i s = guardOps s f (fun s => floatFinish s (fun l => (halves (halfOp s op d a b) l).2) (fun h =>
      h.putV32 d s.gang.active (fun l => BitVec.ofNat 32 ((halfOp s op d a b l 0).1 + (halfOp s op d a b l 1).1 * 2 ^ 16))))) :
    floatRuns i s f d (fun _ => false) (halves (halfOp s op d a b)) :=
  floatRuns_of_putV32 (fun s => halves (halfOp s op d a b)) _ (fun _ => ofNat_halves _) he

theorem floatArithmetic : Sys2Proof.Claims.FloatArithmetic := fun _ d a b =>
  ⟨floatRuns_of_putV (fun s => laneOp s .add d a b) rfl, floatRuns_of_putV (fun s => laneOp s .sub d a b) rfl,
    floatRuns_of_putV (fun s => laneOp s .mul d a b) rfl, floatRuns_of_putV (fun s => laneOp s .div d a b) rfl,
    floatRuns_of_putV (fun s => laneOp s .min d a b) rfl, floatRuns_of_putV (fun s => laneOp s .max d a b) rfl,
    floatRuns_of_putV (fun s => laneOp s .fma d a b) rfl, floatRuns_of_putV (fun s => laneOp s .fms d a b) rfl,
    floatRuns_of_putV (fun s => laneOp s .nma d a b) rfl, floatRuns_of_putV (fun s => laneScale s a b) rfl⟩

theorem floatUnaryWords : Sys2Proof.Claims.FloatUnary := fun _ _ a =>
  ⟨floatRuns_of_putV (fun s => laneUn s .rcp a) rfl, floatRuns_of_putV (fun s => laneUn s .rsq a) rfl,
    floatRuns_of_putV (fun s => laneUn s .sqrt a) rfl, floatRuns_of_putV (fun s => laneUn s .exp2 a) rfl,
    floatRuns_of_putV (fun s => laneUn s .log2 a) rfl, floatRuns_of_putV (fun s => laneUn s .getexp a) rfl,
    floatRuns_of_putV (fun s => laneUn s .rint a) rfl⟩

theorem packedFloat : Sys2Proof.Claims.PackedFloat := fun _ d a b =>
  ⟨floatRuns_of_halfForm .add rfl, floatRuns_of_halfForm .mul rfl, floatRuns_of_halfForm .min rfl,
    floatRuns_of_halfForm .max rfl, floatRuns_of_halfForm .fma rfl,
    floatRuns_of_putV32 (fun s => laneDot s d a b) (fun s l => (laneDot s d a b l).1) (fun _ => rfl) rfl⟩

/-- Settles O14: the forms of each shape, by the end that they share. -/
theorem floatElements : Obligations.FloatElements := ⟨floatArithmetic, floatUnaryWords, packedFloat⟩

/-- Settles O15: one result in each lane of Active(), with no flag. -/
theorem signsAndClasses : Obligations.SignsAndClasses := fun _ _ a b =>
  ⟨vecRuns_of_vecFinish (fun s l => mapElems (s.gang.et l) (fun k =>
      s.belem a l k % 2 ^ (etypeWidth (s.gang.et l) - 1))) rfl,
    vecRuns_of_vecFinish (fun s l => mapElems (s.gang.et l) (fun k =>
      s.belem a l k ^^^ 2 ^ (etypeWidth (s.gang.et l) - 1))) rfl,
    vecRuns_of_vecFinish (fun s l => mapElems (s.gang.et l) (fun k =>
      s.belem a l k % 2 ^ (etypeWidth (s.gang.et l) - 1) +
        s.belem b l k / 2 ^ (etypeWidth (s.gang.et l) - 1) * 2 ^ (etypeWidth (s.gang.et l) - 1))) rfl,
    vecRuns_of_putV32 (fun s l => BitVec.ofNat 32 (if halfTypes (s.gang.et l) then
      2 ^ classOf (fmtOf (s.gang.et l)) (s.belem a l 0) + 2 ^ classOf (fmtOf (s.gang.et l)) (s.belem a l 1) * 2 ^ 16
      else 2 ^ classOf (fmtOf (s.gang.et l)) (s.belem a l 0))) rfl⟩

/-- cvt of a type that exists (06 R163). -/
theorem exec_cvt {s : State} {d a b : Code} (hb : b.toNat ≤ 18) :
    exec (.cvt d a b) s = guardOps s (fieldsCvt d a b) (fun s => floatFinish s (fun l => (laneCvt s a b l).2) (fun h =>
      h.putV d s.wideLane s.gang.active (fun l => BitVec.ofNat 64 (laneCvt s a b l).1))) :=
  if_neg (by omega)

/-- An element of cvtq: the quotient by the scale, rounded to nearest even (06 R167). -/
def quantElem (s : State) (a b : Code) (l k : Nat) : Nat × Nat :=
  let q := fvDiv (elemValue 1 (s.gang.fmode l).ftz (s.groupElem a k l)) (s.scaleOf b l).1
  let z := convert (s.gang.et l) { s.gang.fmode l with round := 0 } q.1
  (z.1, z.2 ||| q.2 ||| (s.scaleOf b l).2)

/-- A packing word (06 R166, R167): its elements side by side, and the flags of all. -/
theorem floatRuns_of_packForm {i : Instr} {s : State} {f : OpndsOf} {d : Code} (c : State → Nat → Nat → Nat × Nat)
    (he : exec i s = guardOps s f (fun s => floatFinish s (s.unpackFlags (c s)) (fun h =>
      h.putV32 d s.gang.active (fun l =>
        BitVec.ofNat 32 (packElems (s.gang.et l) (fun k => (c s l k).1) (elemCount (s.gang.et l))))))) :
    floatRuns i s f d (fun _ => false) (fun l =>
      (packElems (s.gang.et l) (fun k => (c s l k).1) (elemCount (s.gang.et l)) % 2 ^ 32, s.unpackFlags (c s) l)) :=
  floatRuns_of_putV32 (fun s l =>
    (packElems (s.gang.et l) (fun k => (c s l k).1) (elemCount (s.gang.et l)) % 2 ^ 32, s.unpackFlags (c s) l))
    (fun s l => packElems (s.gang.et l) (fun k => (c s l k).1) (elemCount (s.gang.et l))) (fun _ => ofNat_halves _) he

theorem compareAndConvert : Sys2Proof.Claims.CompareAndConvert := fun s d a b => by
  refine ⟨fun p hp => ?_, fun hb => floatRuns_of_putV (fun s => laneCvt s a b) (exec_cvt hb),
    floatRuns_of_packForm (fun s l k => cvtElem 1 (s.gang.et l) (s.gang.fmode l) (s.groupElem a k l)) rfl,
    floatRuns_of_packForm (fun s l k => quantElem s a b l k) rfl⟩
  fin_cases hp
  · exact compareRuns_of_putP (fun s => laneCmp s 0 a b) rfl
  · exact compareRuns_of_putP (fun s => laneCmp s 1 a b) rfl
  · exact compareRuns_of_putP (fun s => laneCmp s 2 a b) rfl
  · exact compareRuns_of_putP (fun s => laneCmp s 3 a b) rfl

/-- gred of an operation that exists, under one MODE (03 R85). -/
theorem exec_gred {s : State} {d a : Code} {op : BitVec 3} (hop : op.toNat < 6) (hm : s.gredModes)
    (hi : s.issues (fieldsGred d a op) = true) :
    exec (.gred d a op) s = match s.gang.activeList with
      | [] => .next s.advance
      | l0 :: ls => floatFinish s (flagsIn (s.gredOf a op l0 ls).2) (fun h =>
          h.putV d (fun _ => etypeWide (modeEtype (s.gang.mode s.gang.low))) s.gang.active
            (fun _ => BitVec.ofNat 64 (s.gredOf a op l0 ls).1)) := by
  obtain ⟨het, hround, hsat, hftz⟩ := hm
  have hop' : ¬ 6 ≤ op.toNat := by omega
  show execGred d a op s = _
  unfold execGred
  rw [if_neg (by simp [hop', het, hround, hsat, hftz])]
  refine (guardOps_issues hi _).trans ?_
  cases hls : s.gang.activeList with
  | nil => simp only [hls]
  | cons l0 ls => simp only [hls]

theorem unpackAndReduce : Sys2Proof.Claims.UnpackAndReduce := fun s d a b op => by
  refine ⟨unpackRuns_of_putElems (fun s => elemUnpack s a) rfl, unpackRuns_of_putElems (fun s => elemDequant s a b) rfl,
    fun hop hm hi => ?_⟩
  rw [exec_gred hop hm hi]
  cases s.gang.activeList with
  | nil => exact ⟨_, rfl, idleStep_advance s⟩
  | cons l0 ls => exact fun ht => ⟨_, floatFinish_commits ht _, vecStep_putV s d _ s.gang.active _ _⟩

/-- Settles O16: comparisons and conversions by the end that they share, gred by its fold. -/
theorem floatConversions : Obligations.FloatConversions := ⟨compareAndConvert, unpackAndReduce⟩

/-- A packed word traps by the flags of both halves. -/
theorem floatTraps_of_halfForm {i : Instr} {s : State} {f : OpndsOf} {d a b : Code} (op : FOp)
    (he : exec i s = guardOps s f (fun s => floatFinish s (fun l => (halves (halfOp s op d a b) l).2) (fun h =>
      h.putV32 d s.gang.active (fun l => BitVec.ofNat 32 ((halfOp s op d a b l 0).1 + (halfOp s op d a b l 1).1 * 2 ^ 16))))) :
    floatTraps i s f (fun l => (halves (halfOp s op d a b) l).2) :=
  floatTraps_of_putV32 (fun s => halves (halfOp s op d a b)) _ he

/-- A packing word traps by the flags of all its elements. -/
theorem floatTraps_of_packForm {i : Instr} {s : State} {f : OpndsOf} {d : Code} (c : State → Nat → Nat → Nat × Nat)
    (he : exec i s = guardOps s f (fun s => floatFinish s (s.unpackFlags (c s)) (fun h =>
      h.putV32 d s.gang.active (fun l =>
        BitVec.ofNat 32 (packElems (s.gang.et l) (fun k => (c s l k).1) (elemCount (s.gang.et l))))))) :
    floatTraps i s f (s.unpackFlags (c s)) := floatTraps_of_floatFinish (fun s => s.unpackFlags (c s)) _ he

/-- Settles O17: every form ends in the shared end, whose trap does not depend on the result. -/
theorem floatTrap : Obligations.FloatTrap := fun s d a b op => by
  refine ⟨fun p hp => ?_, fun p hp => ?_, floatTraps_of_putV (fun s => laneScale s a b) rfl,
    fun p hp => ?_, fun p hp => ?_, floatTraps_of_halfForm .fma rfl,
    floatTraps_of_putV32 (fun s => laneDot s d a b) (fun s l => (laneDot s d a b l).1) rfl, fun p hp => ?_,
    fun hb => floatTraps_of_putV (fun s => laneCvt s a b) (exec_cvt hb),
    floatTraps_of_packForm (fun s l k => cvtElem 1 (s.gang.et l) (s.gang.fmode l) (s.groupElem a k l)) rfl,
    floatTraps_of_packForm (fun s l k => quantElem s a b l k) rfl,
    floatTraps_of_putElems (fun s => elemUnpack s a) rfl,
    floatTraps_of_putElems (fun s => elemDequant s a b) rfl, fun hop hm l0 ls hls hi ht => ?_⟩
  · fin_cases hp
    · exact floatTraps_of_putV (fun s => laneOp s .add d a b) rfl
    · exact floatTraps_of_putV (fun s => laneOp s .sub d a b) rfl
    · exact floatTraps_of_putV (fun s => laneOp s .mul d a b) rfl
    · exact floatTraps_of_putV (fun s => laneOp s .div d a b) rfl
    · exact floatTraps_of_putV (fun s => laneOp s .min d a b) rfl
    · exact floatTraps_of_putV (fun s => laneOp s .max d a b) rfl
  · fin_cases hp
    · exact floatTraps_of_putV (fun s => laneOp s .fma d a b) rfl
    · exact floatTraps_of_putV (fun s => laneOp s .fms d a b) rfl
    · exact floatTraps_of_putV (fun s => laneOp s .nma d a b) rfl
  · fin_cases hp
    · exact floatTraps_of_putV (fun s => laneUn s .rcp a) rfl
    · exact floatTraps_of_putV (fun s => laneUn s .rsq a) rfl
    · exact floatTraps_of_putV (fun s => laneUn s .sqrt a) rfl
    · exact floatTraps_of_putV (fun s => laneUn s .exp2 a) rfl
    · exact floatTraps_of_putV (fun s => laneUn s .log2 a) rfl
    · exact floatTraps_of_putV (fun s => laneUn s .getexp a) rfl
    · exact floatTraps_of_putV (fun s => laneUn s .rint a) rfl
  · fin_cases hp
    · exact floatTraps_of_halfForm .add rfl
    · exact floatTraps_of_halfForm .mul rfl
    · exact floatTraps_of_halfForm .min rfl
    · exact floatTraps_of_halfForm .max rfl
  · fin_cases hp
    · exact floatTraps_of_putP (fun s => laneCmp s 0 a b) rfl
    · exact floatTraps_of_putP (fun s => laneCmp s 1 a b) rfl
    · exact floatTraps_of_putP (fun s => laneCmp s 2 a b) rfl
    · exact floatTraps_of_putP (fun s => laneCmp s 3 a b) rfl
  · rw [exec_gred hop hm hi, hls]
    exact floatFinish_traps ht _

end Sys2Proof.Machine
end

section
/-! SUPPORT. Issuing slices, the division of a group, and masks of slices (03 R67 to R71, R77). -/

namespace Sys2Proof.Machine

/-! ### Issuing slices -/

theorem Gang.lt_of_issuing {g : Gang} {k : Nat} (h : g.issuing k = true) : k < 8 := by
  simp only [Gang.issuing, Bool.and_eq_true, decide_eq_true_eq] at h
  exact h.1.1

@[simp] theorem Gang.mem_issuingList {g : Gang} {k : Nat} : k ∈ g.issuingList ↔ g.issuing k = true := by
  simp only [Gang.issuingList, List.mem_filter, List.mem_range, and_iff_right_iff_imp]
  exact Gang.lt_of_issuing

theorem Gang.issuingList_nodup (g : Gang) : g.issuingList.Nodup := List.nodup_range.filter _

theorem Gang.allIssuing_iff {g : Gang} {f : Nat → Bool} :
    g.allIssuing f = true ↔ ∀ k, g.issuing k = true → f k = true := by
  simp only [Gang.allIssuing, List.all_eq_true, List.mem_range, Bool.or_eq_true, Bool.not_eq_true']
  exact ⟨fun h k hk => (h k (Gang.lt_of_issuing hk)).resolve_left (by simp [hk]),
    fun h k _ => (Bool.eq_false_or_eq_true (g.issuing k)).symm.imp_right (h k)⟩

/-- Which slices issue rests on the groups, the group served and the slices that have exited. -/
theorem Gang.issuing_congr {g h : Gang} (hgrp : h.flow.grp = g.flow.grp) (hserved : h.flow.served = g.flow.served)
    (hexited : h.flow.exited = g.flow.exited) (k : Nat) : h.issuing k = g.issuing k := by
  unfold Gang.issuing Gang.exitedAt Gang.grp
  rw [hgrp, hserved, hexited]

/-! ### Division (03 R71) -/

theorem mapGet_setGrpMap (f : Nat → Bool) (x : Nat → Nat) (n : Nat) (m : SMap Nat) (k : Nat) :
    mapGet 0 (setGrpMap f x n m) k = if k < n ∧ f k = true then x k else mapGet 0 m k := by
  induction n with
  | zero => simp [setGrpMap]
  | succ c ih =>
    have hlt : k < c + 1 ↔ k < c ∨ k = c := by omega
    simp only [setGrpMap]
    by_cases hf : f c = true
    · rw [if_pos hf, mapGet_set, ih]
      by_cases hk : k = c
      · subst hk; simp [hf]
      · simp [hk, hlt]
    · rw [if_neg hf, ih]
      by_cases hk : k = c
      · subst hk; simp [hf]
      · simp [hk, hlt]

/-- The lowest issuing slice that goes to `y`. -/
def Gang.leaderTo (g : Gang) (x : Nat → PcVal) (y : PcVal) : Option Nat :=
  (List.range 8).find? (fun j => g.issuing j && decide (x j = y))

/-- An issuing slice's leader: issuing, no higher, and going to the same place. -/
theorem Gang.leaderTo_spec {g : Gang} (x : Nat → PcVal) {k : Nat} (hk : g.issuing k = true) :
    ∃ j, g.leaderTo x (x k) = some j ∧ j ≤ k ∧ g.issuing j = true ∧ x j = x k := by
  cases hf : g.leaderTo x (x k) with
  | none =>
    have := List.find?_eq_none.mp hf k (List.mem_range.mpr (Gang.lt_of_issuing hk))
    simp [hk] at this
  | some j =>
    have hj := List.find?_some hf
    simp only [Bool.and_eq_true, decide_eq_true_eq] at hj
    refine ⟨j, rfl, ?_, hj.1, hj.2⟩
    obtain ⟨_, i, hi, hget, hfirst⟩ := List.find?_eq_some_iff_getElem.mp hf
    rw [List.getElem_range] at hget
    by_contra hlt
    have := hfirst k (by omega)
    simp [hk] at this

theorem Gang.pc_divide (g : Gang) (x : Nat → PcVal) {k : Nat} (hk : k < 8) :
    (g.divide x).pc k = if g.issuing k = true then x k else g.pc k := by
  have := mapGet_setPcMap g.issuing x 8 g.flow.pc k
  simpa [Gang.pc, Gang.divide, hk] using this

theorem Gang.grp_divide (g : Gang) (x : Nat → PcVal) (k : Nat) :
    (g.divide x).grp k = if g.issuing k = true then (g.leaderTo x (x k)).getD k else g.grp k := by
  have h := mapGet_setGrpMap g.issuing (fun k => (g.leaderTo x (x k)).getD k) 8 g.flow.grp k
  have hlt : (k < 8 ∧ g.issuing k = true) ↔ g.issuing k = true := and_iff_right_of_imp Gang.lt_of_issuing
  simp only [hlt] at h
  exact h

/-- A division from a gang whose slices issue and stand as those of the gang in focus. -/
theorem dividedTo_divide {s t : State} {g : Gang} {x : Nat → PcVal} (hpc : g.flow.pc = s.gang.flow.pc)
    (hgrp : g.flow.grp = s.gang.flow.grp) (hserved : g.flow.served = s.gang.flow.served)
    (hexited : g.flow.exited = s.gang.flow.exited) (ht : t.gang = g.divide x) : s.dividedTo t x := by
  have hi := Gang.issuing_congr (g := s.gang) (h := g) hgrp hserved hexited
  have hg : ∀ k, t.gang.grp k = if s.gang.issuing k = true then (g.leaderTo x (x k)).getD k else s.gang.grp k := by
    intro k
    rw [ht, Gang.grp_divide, hi]
    simp [Gang.grp, hgrp]
  refine ⟨fun k hk => ?_, fun j k hj hk => ?_, fun k hk => ?_, fun k _ hk => ?_⟩
  · rw [ht, Gang.pc_divide g x hk, hi]
    simp [Gang.pc, hpc]
  · obtain ⟨a, ha, -, -, hxa⟩ := g.leaderTo_spec x ((hi j).trans hj)
    obtain ⟨b, hb, -, -, hxb⟩ := g.leaderTo_spec x ((hi k).trans hk)
    rw [hg, hg, if_pos hj, if_pos hk, ha, hb]
    refine ⟨fun h => ?_, fun h => ?_⟩
    · obtain rfl : a = b := h
      rw [← hxa, hxb]
    · rw [h, hb] at ha
      exact (Option.some.inj ha).symm
  · obtain ⟨a, ha, hle, hia, hxa⟩ := g.leaderTo_spec x ((hi k).trans hk)
    have hgk : t.gang.grp k = a := by rw [hg, if_pos hk, ha]; rfl
    rw [hgk]
    exact ⟨hle, (hi a).symm.trans hia, hxa⟩
  · rw [hg, hk, if_neg (by simp)]

theorem sameDevice_setGang (s : State) (g : Gang) : s.sameDevice (s.setGang g) := sameDevice_updGang s (fun _ => g)

/-- A division of the group in focus changes nothing else. -/
theorem flowOnly_divide (s : State) (x : Nat → PcVal) : s.flowOnly (s.setGang (s.gang.divide x)) :=
  ⟨sameDevice_setGang s _, by rw [State.gang_setGang]; rfl⟩

/-! ### Masks of slices -/

/-- The bits of a sum of distinct powers of 2. -/
theorem sum_pow_range (f : Nat → Bool) (n : Nat) :
    ((List.range n).map (fun k => if f k then 2 ^ k else 0)).sum < 2 ^ n ∧
      ∀ j, j < n → (((List.range n).map (fun k => if f k then 2 ^ k else 0)).sum).testBit j = f j := by
  induction n with
  | zero => simp
  | succ n ih =>
    obtain ⟨hlt, hb⟩ := ih
    rw [List.range_succ, List.map_append, List.sum_append]
    simp only [List.map_cons, List.map_nil, List.sum_cons, List.sum_nil, Nat.add_zero]
    refine ⟨?_, fun j hj => ?_⟩
    · rw [Nat.pow_succ]; split <;> omega
    · by_cases he : j = n
      · subst he
        by_cases hf : f j = true
        · rw [if_pos hf, Nat.add_comm, Nat.testBit_two_pow_add_eq, Nat.testBit_lt_two_pow hlt, hf]; rfl
        · rw [if_neg hf, Nat.add_zero, Nat.testBit_lt_two_pow hlt]
          simpa using hf
      · by_cases hf : f n = true
        · rw [if_pos hf, Nat.add_comm, Nat.testBit_two_pow_add_gt (by omega), hb j (by omega)]
        · rw [if_neg hf, Nat.add_zero, hb j (by omega)]

theorem sum_map_filter (f : Nat → Bool) (l : List Nat) :
    ((l.filter f).map (fun k => 2 ^ k)).sum = (l.map (fun k => if f k then 2 ^ k else 0)).sum := by
  induction l with
  | nil => rfl
  | cons a l ih => by_cases h : f a = true <;> simp [h, ih]

/-- A bit of the mask of the issuing slices. -/
theorem Gang.issuingMask_bit (g : Gang) {k : Nat} (hk : k < 8) :
    (BitVec.ofNat 8 g.issuingMask).getLsbD k = g.issuing k := by
  simpa only [Gang.issuingMask, BitVec.getLsbD_ofNat, hk, decide_true, Bool.true_and] using
    (sum_pow_range g.issuing 8).2 k hk

/-- Of lists, the waiters' mask among them. -/
theorem sliceMask_bit (f : Nat → Bool) {k : Nat} (hk : k < 8) :
    (BitVec.ofNat 8 (((List.range 8).filter f).map (fun k => 2 ^ k)).sum).getLsbD k = f k := by
  rw [sum_map_filter]
  simpa only [BitVec.getLsbD_ofNat, hk, decide_true, Bool.true_and] using (sum_pow_range f 8).2 k hk

end Sys2Proof.Machine
end

section
/-! Branches, regang, exit and the hints (03 R71 to R79, R95). -/

namespace Sys2Proof.Machine

/-! ### Branches (03 R71, R73) -/

/-- A word that issues is its meaning past the prologue. -/
theorem exec_of_issues {i : Instr} {s : State} {f : OpndsOf} {body : State → Res} (hi : s.issues f = true)
    (he : exec i s = guardOps s f body := by rfl) : exec i s = body s := he.trans (guardOps_issues hi _)

theorem firstBad_eq_none {s : State} {t : Nat → DWord} (h : ∀ k, s.gang.issuing k = true → badTarget (t k) = false) :
    s.gang.firstBad t = none := by
  simp only [Gang.firstBad, Option.map_eq_none_iff, List.find?_eq_none, Gang.mem_issuingList]
  exact fun k hk => by simp [h k hk]

theorem branches : Sys2Proof.Claims.Branches := by
  refine ⟨fun s p n k o hp hk => ⟨s.setGang (s.gang.divide _), ?_, flowOnly_divide s _, ?_,
    dividedTo_divide rfl rfl rfl rfl (State.gang_setGang s _)⟩, fun s a hi ht => ⟨s.setGang (s.gang.divide _), ?_,
    flowOnly_divide s _, ?_, dividedTo_divide rfl rfl rfl rfl (State.gang_setGang s _)⟩⟩
  · refine if_neg ?_
    by_cases h0 : k = 0
    · have := hp h0
      simp [h0]; omega
    · obtain ⟨rfl, rfl⟩ := hk h0
      simp
  · rw [State.gang_setGang]; rfl
  · have hgood : ∀ k, s.gang.issuing k = true → badTarget (s.ssrc64 a k) = false := fun k hk => by
      obtain ⟨hlt, h4⟩ := ht k hk
      simp [badTarget, h4]; omega
    rw [exec_of_issues hi]
    simp only [firstBad_eq_none hgood]
  · rw [State.gang_setGang]; rfl

theorem badBranchTarget : Sys2Proof.Claims.BadBranchTarget := fun s a k hi hbad hfirst => by
  have hk : badTarget (s.ssrc64 a k) = true := by simpa using List.find?_some hbad
  rw [exec_of_issues (i := .brx a) hi, exec_of_issues (i := .callx a) hi]
  refine ⟨?_, ?_⟩
  · simp only [Gang.firstBad, hbad, Option.map_some]
    rfl
  · obtain ⟨ks, hks⟩ := List.head?_eq_some_iff.mp hfirst
    unfold State.callTo
    rw [hks]
    simp only [callSpills, hk, if_true]
    rfl

/-- Settles O18: a branch divides the group; the first bad target is the trap's. -/
theorem branchesAndTargets : Obligations.BranchesAndTargets := ⟨branches, badBranchTarget⟩

/-! ### regang and exit (03 R77 to R79) -/

/-- The word that a stall keeps plays no part in a merge. -/
theorem Gang.waitersAt_keepWord (g : Gang) (w : Word) (m : BitVec 8) (x : PcVal) :
    ((g.keepWord w).waitHere m).waitersAt x = (g.waitHere m).waitersAt x := rfl
theorem Gang.mergesAt_keepWord (g : Gang) (w : Word) (m : BitVec 8) (x : PcVal) :
    ((g.keepWord w).waitHere m).mergesAt x = (g.waitHere m).mergesAt x := rfl
theorem Gang.regangDead_keepWord (g : Gang) (w : Word) (m : BitVec 8) :
    ((g.keepWord w).waitHere m).regangDead = (g.waitHere m).regangDead := rfl

/-- What a merge gives each slice that waits there. -/
theorem Gang.mergeAt_waiter (g : Gang) (x : PcVal) {k : Nat} (hk : k ∈ g.waitersAt x) :
    (g.mergeAt x).pc k = x + 4 ∧ (g.mergeAt x).flow.waiting.getLsbD k = false ∧
      (g.mergeAt x).grp k = (g.waitersAt x).headD 0 := by
  have hk8 : k < 8 := List.mem_range.mp (List.mem_filter.mp hk).1
  have hw : (fun k => decide (k ∈ g.waitersAt x)) k = true := decide_eq_true hk
  have hc : (g.waitersAt x).contains k = true := List.contains_iff_mem.mpr hk
  refine ⟨?_, ?_, ?_⟩
  · exact (mapGet_setPcMap _ (fun _ => x + 4) 8 g.flow.pc k).trans (if_pos ⟨hk8, hc⟩)
  · have hbit := sliceMask_bit (fun k => !g.exitedAt k && g.flow.waiting.getLsbD k && decide (g.pc k = x)) hk8
    rw [(List.mem_filter.mp hk).2] at hbit
    simp only [Gang.mergeAt, BitVec.getLsbD_and, BitVec.getLsbD_not, hk8, decide_true, Bool.true_and]
    show (_ && !(BitVec.ofNat 8 ((g.waitersAt x).map (fun k => 2 ^ k)).sum).getLsbD k) = false
    rw [show (BitVec.ofNat 8 ((g.waitersAt x).map (fun k => 2 ^ k)).sum).getLsbD k = true from hbit]
    simp
  · exact (mapGet_setGrpMap _ (fun _ => (g.waitersAt x).headD 0) 8 g.flow.grp k).trans (if_pos ⟨hk8, hc⟩)

theorem State.checkRegang_alive {s : State} (h : s.gang.regangDead = false) : s.checkRegang = s := by
  unfold State.checkRegang
  exact if_neg (by simp [h])

theorem State.checkRegang_dead {s : State} (h : s.gang.regangDead = true) : s.checkRegang =
    (s.setGang { s.gang with flow := { s.gang.flow with served := s.gang.grp s.gang.firstLive } }).trapWaiting
      { cause := 0x07 } := by
  unfold State.checkRegang
  exact if_pos h

theorem State.setGang_setGang (s : State) (g h : Gang) : (s.setGang g).setGang h = s.setGang h := by
  simp [State.setGang, State.setGangAt, mapPut_mapPut]

theorem exec_regang_merges {s : State} {m : Code} (h : (s.gang.waitHere m).mergesAt s.gang.pcNow = true) :
    exec (.regang m) s = .next (s.setGang (((s.gang.keepWord s.ir).waitHere m).mergeAt s.gang.pcNow)) := by
  show execRegang m s = _
  unfold execRegang
  exact if_pos h

theorem exec_regang_waits {s : State} {m : Code} (h : (s.gang.waitHere m).mergesAt s.gang.pcNow = false) :
    exec (.regang m) s = .next (s.setGang ((s.gang.keepWord s.ir).waitHere m)).checkRegang := by
  show execRegang m s = _
  unfold execRegang
  exact if_neg (by rw [Gang.mergesAt_keepWord, h]; simp)

theorem exec_exit {s : State} (h : s.gang.reports = []) :
    exec .exit s = .next (s.setGang s.gang.exitHere).checkRegang := by
  show execExit s = _
  simp only [execExit, h]
  cases s.gang.whole <;> rfl

theorem rejoinAndExit : Sys2Proof.Claims.RejoinAndExit := by
  refine ⟨fun s m hm => ⟨_, exec_regang_merges hm, sameDevice_setGang s _, ?_, fun k _ hk => ?_⟩,
    fun s m hm hd => ⟨s.setGang ((s.gang.keepWord s.ir).waitHere m), ?_, sameDevice_setGang s _, ?_, fun k hk => ?_⟩,
    fun s hr hd => ⟨s.setGang s.gang.exitHere, ?_, sameDevice_setGang s _, ?_, fun k hk => ?_⟩⟩
  · rw [State.gang_setGang]; rfl
  · rw [State.gang_setGang]
    exact Gang.mergeAt_waiter ((s.gang.keepWord s.ir).waitHere m) s.gang.pcNow hk
  · rw [exec_regang_waits hm, State.checkRegang_alive]
    rwa [State.gang_setGang, Gang.regangDead_keepWord]
  · rw [State.gang_setGang]; rfl
  · rw [State.gang_setGang]
    refine ⟨rfl, ?_⟩
    rw [← s.gang.issuingMask_bit hk]
    exact BitVec.getLsbD_or
  · rw [exec_exit hr, State.checkRegang_alive]
    rwa [State.gang_setGang]
  · rw [State.gang_setGang]; rfl
  · rw [State.gang_setGang]
    refine ⟨?_, rfl⟩
    rw [← s.gang.issuingMask_bit hk]
    exact BitVec.getLsbD_or

theorem regangDeadlock : Sys2Proof.Claims.RegangDeadlock := fun s m hm hd => by
  rw [exec_regang_waits hm, State.checkRegang_dead (by rwa [State.gang_setGang, Gang.regangDead_keepWord]),
    State.gang_setGang, State.setGang_setGang]

/-- Settles O20: a merge, a wait and an exit by their own effects; the deadlock by the check that follows them. -/
theorem regangAndExit : Obligations.RegangAndExit := ⟨rejoinAndExit, regangDeadlock⟩

end Sys2Proof.Machine
end

section
/-! Masks, modes, waits, register allocation and the hints (03 R80, R86 to R95; 06 R153). -/

namespace Sys2Proof.Machine

/-! ### EXEC and MODE (03 R80, R86, R87) -/

/-- Past the word after a change that leaves the flow alone. -/
theorem past_updGang {s : State} {f : Gang → Gang} (h : (f s.gang).flow = s.gang.flow) {t : State}
    (ht : t.gang = (f s.gang).advance) : s.past t := fun k hk => by
  have := past_of h k hk
  rwa [State.gang_updGang, ← ht] at this

theorem Gang.execBit_setExec (g : Gang) (f : Nat → Bool) {l : Nat} (hl : l < 32) :
    (g.setExec f).execBit l = if g.issuing (l / 4) then f l else g.execBit l := by
  simp only [Gang.setExec, Gang.execBit, laneMask_bit _ l hl]

theorem Gang.flow_setExec (g : Gang) (f : Nat → Bool) : (g.setExec f).flow = g.flow := by simp only [Gang.setExec]
theorem Gang.issuing_setExec (g : Gang) (f : Nat → Bool) (k : Nat) : (g.setExec f).issuing k = g.issuing k :=
  Gang.issuing_congr (by rw [Gang.flow_setExec]) (by rw [Gang.flow_setExec]) (by rw [Gang.flow_setExec]) k
theorem Gang.execBit_advance (g : Gang) (l : Nat) : g.advance.execBit l = g.execBit l := rfl

theorem Gang.flow_putS (g : Gang) (d : Code) (f : Nat → Bool) (x : Nat → Word) : (g.putS d f x).flow = g.flow := by
  unfold Gang.putS; split <;> rfl
theorem Gang.execBit_putSAll (g : Gang) (d : Code) (x : Word) (l : Nat) : (g.putSAll d x).execBit l = g.execBit l := by
  unfold Gang.putSAll Gang.putS; split <;> rfl
theorem Gang.flow_putSAll (g : Gang) (d : Code) (x : Word) : (g.putSAll d x).flow = g.flow := Gang.flow_putS ..
theorem Gang.s_putS (g : Gang) {d : Code} (hd : d ≠ 0xF0) (hs : sDst d = true) (f : Nat → Bool) (x : Nat → Word) {k : Nat}
    (hk : k < 8) : (g.putS d f x).s k d.toNat = if f k = true then x k else g.s k d.toNat := by
  have h32 : d.toNat < 32 := by
    simp only [sDst, Bool.or_eq_true, decide_eq_true_eq] at hs
    exact hs.resolve_right fun h => hd (BitVec.eq_of_toNat_eq h)
  rw [Gang.putS, if_neg hd, Gang.s_writeSlices _ _ h32 _ _ _ _ hk h32]
  simp

/-- A write of MODE slice by slice. -/
theorem Gang.mode_setModes (g : Gang) (f : Nat → Word) (k : Nat) :
    (g.setModes f).mode k = if g.issuing k = true then f k else g.mode k := by
  have key : ∀ (ks : List Nat) (h : Gang), (ks.foldl (fun h k => h.setMode k (f k)) h).mode k =
      if k ∈ ks then f k else h.mode k := by
    intro ks
    induction ks with
    | nil => simp
    | cons j js ih =>
      intro h
      have hset : (h.setMode j (f j)).mode k = if k = j then f j else h.mode k := mapGet_set _ _ _ _ _
      rw [List.foldl_cons, ih, hset]
      by_cases hj : k ∈ js <;> by_cases he : k = j <;> simp [hj, he]
  have h := key g.issuingList g
  simp only [Gang.mem_issuingList] at h
  exact h

theorem Gang.flow_setModes (g : Gang) (f : Nat → Word) : (g.setModes f).flow = g.flow := by
  have key : ∀ (ks : List Nat) (h : Gang), (ks.foldl (fun h k => h.setMode k (f k)) h).flow = h.flow := by
    intro ks
    induction ks with
    | nil => exact fun _ => rfl
    | cons j js ih => exact fun h => ih _
  exact key _ g

/-- The end of a register-only word: past it, and the gang changed. -/
theorem finishWith_step (s : State) {f : Gang → Gang} (hf : (f s.gang).flow = s.gang.flow) :
    ∃ t, finishWith s f = .next t ∧ s.past t ∧ s.sameDevice t ∧ t.gang = (f s.gang).advance :=
  ⟨_, rfl, past_of hf, sameDevice_updGang s _, State.gang_updGang s _⟩

/-- A write of MODE and past the word. -/
theorem setModes_step (s : State) (f : Gang → Nat → Word) :
    ∃ t, finishWith s (fun g => g.setModes (f g)) = .next t ∧ s.past t ∧ s.sameDevice t ∧
      ∀ k, k < 8 → t.gang.mode k = if s.gang.issuing k then f s.gang k else s.gang.mode k := by
  obtain ⟨t, ht, hpast, hdev, hg⟩ := finishWith_step s (f := fun g => g.setModes (f g)) (s.gang.flow_setModes _)
  exact ⟨t, ht, hpast, hdev, fun k _ => by rw [hg, Gang.mode_advance, Gang.mode_setModes]⟩

theorem exec_exand {s : State} {d a : Code} (b : BitVec 1) (hi : s.issues (fixedOps [.sw 32 d, .pr a]) = true) :
    exec (.exand d a b) s = finishWith s (fun h => (h.setExec (fun l =>
      s.gang.execBit l && (s.gang.psrc a l == decide (b = 0)))).putSAll d s.gang.regs.exec) :=
  exec_of_issues (body := fun s => finishWith s (fun h => (h.setExec (fun l =>
    s.gang.execBit l && (s.gang.psrc a l == decide (b = 0)))).putSAll d s.gang.regs.exec)) hi

theorem exec_exload {s : State} {a : Code} (hi : s.issues (fixedOps [.sr 32 a]) = true) :
    exec (.exload a) s = finishWith s (fun h => h.setExec (fun l => (s.ssrc a (l / 4)).getLsbD l)) :=
  exec_of_issues (body := fun s => finishWith s (fun h => h.setExec (fun l => (s.ssrc a (l / 4)).getLsbD l))) hi

theorem exec_mset {s : State} {sel : BitVec 3} {i : BitVec 16} (h : msetImageOk sel i = true) :
    exec (.mset sel i) s = finishWith s (fun g => g.setModes (fun k => msetValue (g.mode k) sel.toNat i.toNat)) := by
  show execMset sel i s = _
  simp only [execMset, h, Bool.not_true, Bool.false_eq_true, if_false]

theorem exec_msetg {s : State} {w : BitVec 23} (h : modeImageOk w = true) :
    exec (.msetg w) s = finishWith s (fun g => g.setModes (fun _ => w.setWidth 32)) := by
  show execMsetg w s = _
  simp only [execMsetg, h, Bool.not_true, Bool.false_eq_true, if_false]

theorem exec_msetr {s : State} {a : Code} (hi : s.issues (fixedOps [.sr 32 a]) = true)
    (h : s.gang.allIssuing (fun k => modeImageOk ((s.ssrc a k).setWidth 23)) = true) : exec (.msetr a) s =
      finishWith s (fun g => g.setModes (fun k => ((s.ssrc a k).setWidth 23 : BitVec 23).setWidth 32)) := by
  show execMsetr a s = _
  unfold execMsetr
  rw [guardOps_issues hi]
  exact if_pos h

theorem exand_step {s : State} {d a : Code} (b : BitVec 1) (hi : s.issues (fixedOps [.sw 32 d, .pr a]) = true) :
    ∃ t, exec (.exand d a b) s = .next t ∧ s.past t ∧ s.sameDevice t ∧
      (∀ l, l < 32 → t.gang.execBit l = if s.gang.issuing (l / 4) then
        s.gang.execBit l && (s.gang.psrc a l == decide (b = 0)) else s.gang.execBit l) ∧
      ∀ k, k < 8 → s.gang.issuing k = true → d ≠ 0xF0 → t.gang.s k d.toNat = s.gang.regs.exec := by
  obtain ⟨t, ht, hpast, hdev, hg⟩ := finishWith_step s (f := fun h => (h.setExec (fun l =>
    s.gang.execBit l && (s.gang.psrc a l == decide (b = 0)))).putSAll d s.gang.regs.exec)
    ((Gang.flow_putSAll ..).trans (Gang.flow_setExec ..))
  refine ⟨t, (exec_exand b hi).trans ht, hpast, hdev, fun l hl => ?_, fun k hk hik hd => ?_⟩
  · rw [hg, Gang.execBit_advance, Gang.execBit_putSAll, Gang.execBit_setExec _ _ hl]
  · rw [hg, Gang.s_advance, Gang.putSAll, Gang.s_putS _ hd (sDst_of_issues hi hik) _ _ hk, Gang.issuing_setExec, if_pos hik]

theorem exload_step {s : State} {a : Code} (hi : s.issues (fixedOps [.sr 32 a]) = true) :
    ∃ t, exec (.exload a) s = .next t ∧ s.past t ∧ s.sameDevice t ∧
      ∀ l, l < 32 → t.gang.execBit l = if s.gang.issuing (l / 4) then (s.ssrc a (l / 4)).getLsbD l else s.gang.execBit l := by
  obtain ⟨t, ht, hpast, hdev, hg⟩ := finishWith_step s (f := fun h => h.setExec (fun l => (s.ssrc a (l / 4)).getLsbD l))
    (Gang.flow_setExec ..)
  exact ⟨t, (exec_exload hi).trans ht, hpast, hdev, fun l hl => by
    rw [hg, Gang.execBit_advance, Gang.execBit_setExec _ _ hl]⟩

/-- flclr clears the flags that it names (06 R153). -/
theorem flclr_step (s : State) (m : BitVec 5) :
    ∃ t, exec (.flclr m) s = .next t ∧ s.past t ∧ s.sameDevice t ∧ t.gang.regs = { s.gang.regs with
      fpf := s.gang.regs.fpf &&& ~~~ m } := by
  obtain ⟨t, ht, hpast, hdev, hg⟩ := finishWith_step s
    (f := fun g => { g with regs := { g.regs with fpf := g.regs.fpf &&& ~~~ m } }) rfl
  exact ⟨t, ht, hpast, hdev, by rw [hg]; rfl⟩

/-- Settles O22: EXEC by its one write, MODE slice by slice. -/
theorem masksAndModes : Obligations.MasksAndModes := fun s d a b sel i w m => by
  refine ⟨exand_step b, exload_step, fun hok => ?_, fun hok => ?_, fun hi hok => ?_, flclr_step s m⟩
  · rw [exec_mset hok]
    exact setModes_step s (fun g k => msetValue (g.mode k) sel.toNat i.toNat)
  · rw [exec_msetg hok]
    exact setModes_step s (fun _ _ => w.setWidth 32)
  · rw [exec_msetr hi hok]
    exact setModes_step s (fun _ k => ((s.ssrc a k).setWidth 23 : BitVec 23).setWidth 32)

/-! ### Waits (03 R89, R90) -/

theorem Gang.coveredReport_none {g : Gang} (h : g.reports = []) (p n : Nat) : g.coveredReport p n = none := by
  simp [Gang.coveredReport, h]

/-- Every path's counter is at or below the number that the wait names for it. -/
def Gang.waitDone (g : Gang) (n : Nat → Nat) : Bool := (List.range 4).all (fun p => decide (n p = 63) || decide (g.counter p ≤ n p))

theorem Gang.waitDone_iff {g : Gang} {n : Nat → Nat} : g.waitDone n = true ↔ ∀ p, p < 4 → n p = 63 ∨ g.counter p ≤ n p := by
  simp [Gang.waitDone, List.all_eq_true]

/-- With no report a wait is past when every counter is low enough, and stalls otherwise. -/
theorem exec_wait {s : State} (hr : s.gang.reports = []) (l st c t : BitVec 6) :
    exec (.wait l st c t) s = if s.gang.waitDone (waitNumber l st c t) = true then Host.Outcome.next s.advance
      else Host.Outcome.next (s.stall (.counters l.toNat st.toNat c.toNat t.toNat)) := by
  show execWait l st c t s = _
  simp only [execWait, Gang.coveredReport_none hr, ite_self]
  rfl

theorem exec_waitr {s : State} {a : BitVec 3} {b : Code} (hi : s.issues (fixedOps [.sr 32 b]) = true)
    (hr : s.gang.reports = []) (ha : a.toNat < 6) :
    exec (.waitr a b) s = if 63 ≤ (s.sarg b).toNat ∨ s.gang.counter a.toNat ≤ (s.sarg b).toNat then
      Host.Outcome.next s.advance else Host.Outcome.next (s.stall (.path a.toNat (s.sarg b).toNat)) := by
  have he : exec (.waitr a b) s = guardOps s (fixedOps [.sr 32 b]) (fun s =>
      if 63 ≤ (s.sarg b).toNat then .next s.advance
      else match s.gang.coveredReport a.toNat (s.sarg b).toNat with
        | some r => s.takeReport r
        | none => if s.gang.counter a.toNat ≤ (s.sarg b).toNat then .next s.advance
          else stallOn (.path a.toNat (s.sarg b).toNat) s) := if_neg (by omega)
  rw [exec_of_issues hi he]
  simp only [Gang.coveredReport_none hr]
  by_cases h63 : 63 ≤ (s.sarg b).toNat
  · simp [h63]
  · simp [h63, stallOn]

/-- Settles O23: with no report the counters alone decide. -/
theorem waits : Obligations.Waits := by
  refine ⟨fun s l st c t hr => ⟨fun h => ⟨_, (exec_wait hr l st c t).trans (if_pos (Gang.waitDone_iff.mpr h)), idleStep_advance s⟩, ?_⟩,
    fun s a b hi hr ha => ⟨fun h => ⟨_, (exec_waitr hi hr ha).trans (if_pos h), idleStep_advance s⟩, fun h1 h2 => ?_⟩⟩
  · rintro ⟨p, hp, hne, hlt⟩
    refine (exec_wait hr l st c t).trans (if_neg fun hall => ?_)
    exact (Gang.waitDone_iff.mp hall p hp).elim hne (Nat.not_le.mpr hlt)
  · exact (exec_waitr hi hr ha).trans (if_neg (by omega))

/-! ### Register allocation (03 R91 to R94) -/

@[simp] theorem State.gang_leaveSeat (s : State) (k : Nat) : (s.leaveSeat k).gang = s.gang := rfl

/-- The committed map of a gang is no register of it. -/
theorem State.gang_fitRows (s : State) : (s.fitRows s.cur).gang = { s.gang with rows := (s.fitRows s.cur).gang.rows } := by
  have h : ∀ f : Gang → Gang, (s.updGangAt s.cur f).gang = f s.gang := State.gang_updGang s
  simp only [State.fitRows, h]

theorem Gang.v_zeroRegs (g : Gang) (lo n r l : Nat) (hl : l < 32) :
    (g.zeroRegs lo n).v r l = if lo ≤ r ∧ r < lo + n then 0 else g.v r l := by
  have h := mapFind_dropRange (lo * 32) (n * 32) (r * 32 + l) g.regs.v
  have hin : (lo * 32 ≤ r * 32 + l ∧ r * 32 + l < lo * 32 + n * 32) ↔ (lo ≤ r ∧ r < lo + n) := by omega
  simp only [hin] at h
  unfold Gang.v Gang.zeroRegs mapGet
  rw [h]
  split <;> rfl

theorem Gang.regrown_granted (g : Gang) (d : Code) (n : Nat) : g.regrown d n true =
    { g.zeroRegs g.alloc n with
      alloc := g.alloc + n, regs := { (g.zeroRegs g.alloc n).regs with p := (g.regrown d n true).regs.p } } := by
  unfold Gang.regrown
  simp only [if_true]
  rw [putP_gang]
theorem Gang.regrown_refused (g : Gang) (d : Code) (n : Nat) : g.regrown d n false =
    { g with regs := { g.regs with p := (g.regrown d n false).regs.p } } := by
  unfold Gang.regrown
  exact putP_gang ..
theorem Gang.p_regrown (g : Gang) {d : Code} (hd : d ≠ 0xF0) (n : Nat) (ok : Bool) {l : Nat} (hl : l < 32) :
    (g.regrown d n ok).p d.toNat l = ok := by
  unfold Gang.regrown
  exact (putP_p _ d _ _ _ l hl).trans (if_pos ⟨hd, rfl, rfl⟩)

/-- regrow of a whole gang, past the checks at issue (03 R91, R92). -/
theorem exec_regrow {s : State} {d : Code} {i : BitVec 16} (hs : allocStepOk i = true)
    (hi : s.issues (fixedOps [.pw d]) = true) (hw : s.gang.whole = true) :
    exec (.regrow d i) s =
      let u := s.leaveSeat s.cur
      if 240 < s.gang.alloc + i.toNat then Host.Outcome.next (u.updGang (fun g => (g.regrown d i.toNat false).advance))
      else if (decide (i.toNat ≤ u.freeRows s.gang.core s.gang.lg) &&
          !(u.requests s.gang.core s.gang.lg).any (fun r => decide (r.2.1 ≠ s.cur))) = true then
        Host.Outcome.next ((u.updGang (fun g => (g.regrown d i.toNat true).advance)).fitRows s.cur)
      else Host.Outcome.next (u.takeId.2.stall (.regrow d i.toNat u.takeId.1)) := by
  refine (show exec (.regrow d i) s = guardOps s (fixedOps [.pw d]) _ from if_neg (by simp [hs])).trans ?_
  exact (guardOps_issues hi _).trans (if_neg (by simp [hw]))

theorem regrow_granted {s : State} {d : Code} (n : Nat) :
    let t := ((s.leaveSeat s.cur).updGang (fun g => (g.regrown d n true).advance)).fitRows s.cur
    s.past t ∧ t.gang.alloc = s.gang.alloc + n ∧ (∀ l, l < 32 → d ≠ 0xF0 → t.gang.p d.toNat l = true) ∧
      ∀ r l, l < 32 → t.gang.v r l = if s.gang.alloc ≤ r ∧ r < s.gang.alloc + n then 0 else s.gang.v r l := by
  intro t
  have hg : t.gang = { (s.gang.regrown d n true).advance with rows := t.gang.rows } :=
    (State.gang_fitRows _).trans (by rw [State.gang_updGang]; rfl)
  have hr := s.gang.regrown_granted d n
  refine ⟨fun k hk => ?_, ?_, fun l hl hd => ?_, fun r l hl => ?_⟩
  · have hpast := past_of (s := s) (f := fun g => g.regrown d n true) (by rw [hr]; rfl) k hk
    rw [State.gang_updGang] at hpast
    rw [hg]
    exact hpast
  · rw [hg, hr]; rfl
  · rw [hg]
    exact s.gang.p_regrown hd n true hl
  · rw [hg]
    refine Eq.trans ?_ (s.gang.v_zeroRegs s.gang.alloc n r l hl)
    show (s.gang.regrown d n true).v r l = _
    rw [hr]; rfl

theorem regrow_refused {s : State} {d : Code} (n : Nat) :
    let t := (s.leaveSeat s.cur).updGang (fun g => (g.regrown d n false).advance)
    s.past t ∧ t.gang.alloc = s.gang.alloc ∧ ∀ l, l < 32 → d ≠ 0xF0 → t.gang.p d.toNat l = false := by
  intro t
  have hg : t.gang = (s.gang.regrown d n false).advance := State.gang_updGang ..
  have hr := s.gang.regrown_refused d n
  refine ⟨past_updGang (f := fun g => g.regrown d n false) (by rw [hr]) hg, ?_, fun l hl hd => ?_⟩
  · rw [hg, hr]; rfl
  · rw [hg]
    exact s.gang.p_regrown hd n false hl

theorem regshr_step {s : State} {i : BitVec 16} (hs : allocStepOk i = true) (hw : s.gang.whole = true)
    (ha : i.toNat + 8 ≤ s.gang.alloc) :
    ∃ t, exec (.regshr i) s = .next t ∧ s.past t ∧ t.gang.alloc = s.gang.alloc - i.toNat ∧
      ∀ r l, r < s.gang.alloc - i.toNat → l < 32 → t.gang.v r l = s.gang.v r l := by
  let f := fun g : Gang => { g.zeroRegs (g.alloc - i.toNat) i.toNat with alloc := g.alloc - i.toNat }
  let t := ((s.leaveSeat s.cur).updGang (fun g => (f g).advance)).fitRows s.cur
  have hg : t.gang = { (f s.gang).advance with rows := t.gang.rows } :=
    (State.gang_fitRows _).trans (by rw [State.gang_updGang]; rfl)
  refine ⟨t, ?_, fun k hk => ?_, ?_, fun r l hr hl => ?_⟩
  · show execRegshr i s = _
    unfold execRegshr
    rw [if_neg (by simp [hs]), if_neg (by simp [hw]), if_neg (by omega)]
  · have hpast := past_of (s := s) (f := f) rfl k hk
    rw [State.gang_updGang] at hpast
    rw [hg]
    exact hpast
  · rw [hg]; rfl
  · rw [hg]
    exact (s.gang.v_zeroRegs _ _ r l hl).trans (if_neg (by omega))

/-- Settles O24: what regrow grants, refuses and leaves waiting, and what regshr gives up. -/
theorem registerAllocation : Obligations.RegisterAllocation := by
  refine ⟨fun s d i hs hi hw => ⟨fun hle hroom => ⟨_, ?_, regrow_granted i.toNat⟩, fun hle hroom => ?_,
    fun hgt => ⟨_, ?_, regrow_refused i.toNat⟩⟩, fun s i => regshr_step⟩
  · rw [exec_regrow hs hi hw]
    exact (if_neg (by omega)).trans (if_pos hroom)
  · rw [exec_regrow hs hi hw]
    exact (if_neg (by omega)).trans (if_neg (by simpa using hroom))
  · rw [exec_regrow hs hi hw]
    exact if_pos hgt

/-! ### Hints (03 R95) -/

theorem State.coreAt_updCore_other (s : State) {k j : Nat} (h : j ≠ k) (f : Core → Core) :
    (s.updCore k f).coreAt j = s.coreAt j := by
  simp [State.coreAt, State.updCore, mapFind_put_other h]

/-- The ring of a lane group after a gang has moved directly before the gang that issued last. -/
def ringBefore (key p : Nat) (r : List Nat) : List Nat :=
  let rest := r.filter (fun k => decide (k ≠ key))
  match rest.findIdx? (fun k => decide (some k = some p)) with
  | some i => rest.take i ++ key :: rest.drop i
  | none => rest ++ [key]

/-- The ring of a gang's core, where another gang of the ring issued last. -/
theorem ring_ringLast {s : State} {key core lg p : Nat} (hcore : (s.gangAt key).core = core) (hlg : (s.gangAt key).lg = lg)
    (hp : mapFind lg (s.coreAt core).herdPtr = some p) (hne : p ≠ key) (hmem : key ∈ mapGet [] (s.coreAt core).ring lg) :
    mapGet [] ((s.ringLast key).coreAt core).ring lg = ringBefore key p (mapGet [] (s.coreAt core).ring lg) := by
  subst hcore hlg
  have hc : (mapGet [] (s.coreAt (s.gangAt key).core).ring (s.gangAt key).lg).contains key = true :=
    List.contains_iff_mem.mpr hmem
  unfold State.ringLast ringBefore
  simp only [State.coreAt_updCore, hp]
  rw [if_neg (by rw [hc]; simpa using hne)]
  split
  · next i hi =>
      simp only [mapGet] at hi
      simp only [mapGet, mapFind_put_same, Option.getD_some, hi]
  · next hi =>
      simp only [mapGet] at hi
      simp only [mapGet, mapFind_put_same, Option.getD_some, hi]

theorem ringBefore_eq {key p : Nat} {r : List Nat} (hne : p ≠ key) (hp : p ∈ r) :
    ∃ before after, r.filter (fun k => decide (k ≠ key)) = before ++ p :: after ∧
      ringBefore key p r = before ++ key :: p :: after := by
  have hrest : p ∈ r.filter (fun k => decide (k ≠ key)) := List.mem_filter.mpr ⟨hp, by simpa using hne⟩
  unfold ringBefore
  generalize r.filter (fun k => decide (k ≠ key)) = rest at hrest
  cases hf : rest.findIdx? (fun k => decide (some k = some p)) with
  | none =>
    have := List.findIdx?_eq_none_iff.mp hf p hrest
    simp at this
  | some i =>
    obtain ⟨hi, heq, -⟩ := List.findIdx?_eq_some_iff_getElem.mp hf
    have hip : rest[i] = p := by simpa using heq
    refine ⟨rest.take i, rest.drop (i + 1), ?_, ?_⟩
    · rw [← hip, ← List.drop_eq_getElem_cons hi, List.take_append_drop]
    · simp only [hf]
      rw [List.drop_eq_getElem_cons hi, hip]

/-- Past the word, by the flow alone. -/
theorem past_of_flow {s t : State} (h : t.gang.flow = s.gang.advance.flow) : s.past t := fun k hk => by
  have hpast := past_of (s := s) (f := id) rfl k hk
  rw [State.gang_updGang] at hpast
  unfold Gang.pc at hpast ⊢
  rw [h]
  exact hpast

/-- What yield leaves: the count of the fetch slot at its bound, and the ring. -/
theorem yield_step (s : State) :
    ∃ t, exec .yield s = .next t ∧ s.past t ∧ t = { s with gangs := t.gangs, cores := t.cores } ∧
      (∀ k, k ≠ s.cur → t.gangAt k = s.gangAt k) ∧ t.gang.regs = s.gang.regs ∧ t.gang.flow.count = 16 ∧
      (∀ c, c ≠ s.gang.core → t.coreAt c = s.coreAt c) ∧
      t.coreAt s.gang.core = { s.coreAt s.gang.core with ring := (t.coreAt s.gang.core).ring } ∧
      (∀ p, mapFind s.gang.lg (s.coreAt s.gang.core).herdPtr = some p → p ≠ s.cur →
        s.cur ∈ mapGet [] (s.coreAt s.gang.core).ring s.gang.lg → p ∈ mapGet [] (s.coreAt s.gang.core).ring s.gang.lg →
        ∃ before after, (mapGet [] (s.coreAt s.gang.core).ring s.gang.lg).filter (fun k => decide (k ≠ s.cur)) =
            before ++ p :: after ∧
          mapGet [] (t.coreAt s.gang.core).ring s.gang.lg = before ++ s.cur :: p :: after) := by
  let f := fun g : Gang => { g.advance with flow := { g.advance.flow with count := 16 } }
  let u := s.updGang f
  have hu : u.gangAt s.cur = f s.gang := State.gang_updGang s f
  have hcore : ∀ c, (u.ringLast s.cur).coreAt c = if c = s.gang.core then (u.ringLast s.cur).coreAt s.gang.core
      else s.coreAt c := by
    intro c
    split
    · next h => rw [h]
    · next h =>
      have h' : c ≠ (u.gangAt s.cur).core := by rw [hu]; exact h
      exact State.coreAt_updCore_other u h' _
  have hthis : (u.ringLast s.cur).coreAt s.gang.core = { s.coreAt s.gang.core with
      ring := ((u.ringLast s.cur).coreAt s.gang.core).ring } := by
    have hk : (u.gangAt s.cur).core = s.gang.core := by rw [hu]; rfl
    unfold State.ringLast
    simp only [hk, State.coreAt_updCore]
    rfl
  refine ⟨u.ringLast s.cur, rfl, ?_, rfl, fun k hk => State.gangAt_updGang_other s f hk, ?_, ?_, fun c hc => ?_, hthis,
    fun p hp hne hcur hmem => ?_⟩
  · have hpast := past_of (s := s) (f := id) rfl
    exact fun k hk => (congrArg (Gang.pc · k) (State.gang_updGang s f)).trans
      ((congrArg (Gang.pc · k) (State.gang_updGang s Gang.advance)).symm.trans (hpast k hk))
  · show u.gang.regs = _
    rw [State.gang_updGang]; rfl
  · show u.gang.flow.count = _
    rw [State.gang_updGang]
  · rw [hcore, if_neg hc]
  · obtain ⟨before, after, hrest, hring⟩ := ringBefore_eq hne hmem
    refine ⟨before, after, hrest, ?_⟩
    exact (ring_ringLast (s := u) (by rw [hu]; rfl) (by rw [hu]; rfl) hp hne hcur).trans hring

/-- promo demote without a lock: the gang holds no seat of its core (04 R109). -/
theorem promoDemote_unlocked {s : State} (h : s.gang.locks = []) :
    ∃ t, exec .promoDemote s = .next t ∧ s.past t ∧ t.gang.regs = s.gang.regs ∧
      (∀ k q, (k, q) ∈ (t.coreAt s.gang.core).seats → q.holder ≠ some s.cur) ∧ t.mem = s.mem := by
  have he : exec .promoDemote s = .next (s.leaveSeat s.cur).advance := by
    show execPromoDemote s = _
    simp [execPromoDemote, h]
  have hg : (s.leaveSeat s.cur).advance.gang = s.gang.advance := State.gang_updGang (s.leaveSeat s.cur) Gang.advance
  refine ⟨_, he, past_updGang (f := id) rfl hg, by rw [hg]; rfl, fun k q hkq hq => ?_, rfl⟩
  have hseats : ((s.leaveSeat s.cur).advance.coreAt s.gang.core).seats =
      (s.coreAt s.gang.core).seats.map (fun e => if e.2.holder = some s.cur then (e.1, Seat.empty) else e) := by
    have hc : (s.leaveSeat s.cur).advance.coreAt s.gang.core = (s.leaveSeat s.cur).coreAt s.gang.core := rfl
    have hk : (s.gangAt s.cur).core = s.gang.core := rfl
    rw [hc]
    simp only [State.leaveSeat, hk, State.coreAt_updCore]
  rw [hseats] at hkq
  obtain ⟨e, -, he⟩ := List.mem_map.mp hkq
  by_cases hh : e.2.holder = some s.cur
  · rw [if_pos hh] at he
    obtain ⟨-, rfl⟩ := Prod.mk.inj he
    exact nomatch hq
  · rw [if_neg hh] at he
    subst he
    exact hh hq

theorem promoDemote_locked {s : State} (h : s.gang.locks ≠ []) : ∃ t, exec .promoDemote s = .next t ∧ s.idleStep t :=
  ⟨s.advance, by show execPromoDemote s = _; simp [execPromoDemote, h], idleStep_advance s⟩

/-- Settles O21: each hint by the one field that it changes. -/
theorem hints : Obligations.Hints := fun s =>
  ⟨⟨_, rfl, idleStep_advance s⟩, yield_step s,
    ⟨_, rfl, past_of_flow (by rw [State.gang_updGang]), sameDevice_updGang s _,
      by rw [State.gang_updGang]; rfl, by rw [State.gang_updGang]⟩,
    promoDemote_unlocked, promoDemote_locked⟩

end Sys2Proof.Machine
end

section
/-! A memory word that reaches its lanes runs them (07 R177 to R184): the common flow, once for loads, stores, ordered forms
and atomics. -/

namespace Sys2Proof.Machine

theorem heldOr_free {paths : Nat} {s : State} (h : s.gang.heldBy paths = []) (body : Res) : heldOr paths s body = body := by
  unfold heldOr
  rw [h]

/-- The flow of an access whose lanes have been translated: it waits, or the lanes perform and the word is past or parked. -/
def State.flowOf (s : State) (f : Form) (e : Effect) (r : State × Lanes) : Res :=
  let id := r.1.nextId
  let s1 := { r.1 with nextId := id + 1 }
  if !(s.gang.lateOn r.2.ok).isEmpty then stallOn (.ops (s.gang.lateOn r.2.ok)) s
  else if !(e.push s r.2.ok).isEmpty then stallOn (.pushed (e.push s r.2.ok)) s
  else
    let perf := !r.2.ok.any (fun t => t.2.far) && (e.late id r.2.ok).isNone
    let count := decide (f.sp ≠ 2) && (!r.2.ok.isEmpty || r.2.faults.isEmpty)
    let s2 := if count then s1.updGang (fun g => g.raise f.path id perf) else s1
    let s3 := s2.runLanes f e id r.2.ok
    match r.2.faults with
    | [] => .next ((s3.updGang Gang.finishReplay).advance)
    | (_, c, va) :: _ =>
      let left := laneMask (fun l => r.2.faults.any (fun x => decide (x.1 = l)))
      .next (s3.park 0 c f.acc va left left)

theorem memFlow_eq (s : State) (f : Form) (a : Code) (e : Effect) : memFlow s f a e =
    heldOr f.paths s (match s.placeFault f s.gang.memLanes (s.vsrc64 a) with
      | some t => trapNow t s
      | none =>
        if f.sp ≠ 2 && decide (63 ≤ s.gang.counter f.path) then stallOn (.path f.path 62) s
        else s.flowOf f e (translateLanes f (s.lanePlaces f a) (e.before (s.countMem f)))) := rfl

/-- With no lane at fault and nothing to wait for, the lanes perform and the word is past. -/
theorem flowOf_free {s : State} {f : Form} {e : Effect} {r : State × Lanes} (hlate : s.gang.lateOn r.2.ok = [])
    (hpush : e.push s r.2.ok = []) (hfaults : r.2.faults = []) : s.flowOf f e r =
      let s1 : State := { r.1 with nextId := r.1.nextId + 1 }
      let done := !r.2.ok.any (fun t => t.2.far) && (e.late r.1.nextId r.2.ok).isNone
      let s2 := if f.sp = 2 then s1 else s1.updGang (fun g => g.raise f.path r.1.nextId done)
      Host.Outcome.next (((s2.runLanes f e r.1.nextId r.2.ok).updGang Gang.finishReplay).advance) := by
  have hcount : (decide (f.sp ≠ 2) && (!r.2.ok.isEmpty || r.2.faults.isEmpty)) = decide (f.sp ≠ 2) := by
    rw [hfaults, List.isEmpty_nil, Bool.or_true, Bool.and_true]
  unfold State.flowOf
  dsimp only
  rw [hlate, hpush, if_neg (by decide), if_neg (by decide), hcount, hfaults]
  by_cases hsp : f.sp = 2
  · rw [decide_eq_false (not_not.mpr hsp), if_neg (by decide), if_pos hsp]
  · rw [decide_eq_true hsp, if_pos rfl, if_neg hsp]

/-- The common flow of an access that nothing holds, faults or pushes: its lanes perform and the word is past. -/
theorem memFlow_of_reaches {s : State} {f : Form} {a : Code} {e : Effect} (h : s.reaches f a e.before)
    (hp : e.push s (translateLanes f (s.lanePlaces f a) (e.before (s.countMem f))).2.ok = []) :
    memFlow s f a e =
      let r := translateLanes f (s.lanePlaces f a) (e.before (s.countMem f))
      let id := r.1.nextId
      let s1 := { r.1 with nextId := id + 1 }
      let done := !r.2.ok.any (fun t => t.2.far) && (e.late id r.2.ok).isNone
      let s2 := if f.sp = 2 then s1 else s1.updGang (fun g => g.raise f.path id done)
      Host.Outcome.next (((s2.runLanes f e id r.2.ok).updGang Gang.finishReplay).advance) := by
  obtain ⟨hheld, hplace, hroom, hfaults, hlate⟩ := h
  have hcounter : (decide (f.sp ≠ 2) && decide (63 ≤ s.gang.counter f.path)) = false := by
    rcases hroom with h | h
    · rw [decide_eq_false (not_not.mpr h), Bool.false_and]
    · rw [decide_eq_false (Nat.not_le.mpr h), Bool.and_false]
  rw [memFlow_eq, heldOr_free hheld, hplace]
  dsimp only
  rw [hcounter, if_neg (by decide)]
  exact flowOf_free hlate hp hfaults

/-- A word whose meaning is the common flow behind the prologue runs. -/
theorem memRuns_of {i : Instr} {s : State} {fs : OpndsOf} {f : Form} {a : Code} {e : Effect} {body : State → Res}
    (he : exec i s = guardOps s fs body) (hb : body s = memFlow s f a e) : memRuns i s fs f a e := by
  intro hi hr hp
  rw [he, guardOps_issues hi, hb]
  exact memFlow_of_reaches hr hp

/-- Settles O25: each word is the common flow behind its prologue. -/
theorem loadsAndStoresRun : Obligations.LoadsAndStoresRun := by
  intro s d a n sp hn
  simp only [List.forall_mem_cons, List.not_mem_nil, false_imp_iff, implies_true, and_true]
  exact ⟨⟨memRuns_of (if_neg hn) rfl, memRuns_of (if_neg hn) rfl, memRuns_of (if_neg hn) rfl, memRuns_of (if_neg hn) rfl,
    memRuns_of (if_neg hn) rfl, memRuns_of (if_neg hn) rfl, memRuns_of (if_neg hn) rfl⟩, memRuns_of (if_neg hn) rfl,
    memRuns_of (if_neg hn) rfl, memRuns_of (if_neg hn) rfl, memRuns_of (if_neg hn) rfl, memRuns_of (if_neg hn) rfl⟩

theorem reportOr_none {s : State} {sc : Nat} (h : s.gang.releaseReport sc = none) (body : Res) : reportOr s sc body = body := by
  unfold reportOr
  rw [h]

/-- The meaning of ld.acq behind its decoding. -/
theorem exec_ldAcq {d a : Code} {c : BitVec 3} {r w : BitVec 1} {sp : BitVec 2} {s : State} (hc : c ≠ 7) (hr : r = 1 → c = 4) :
    exec (.ldAcq d a c r w sp) s = guardOps s (fixedOps [.vw (8 * wSize w) d, .vr 64 a]) (fun s =>
      memFlow s (orderedForm .read w sp 0) a (acquireEffect d (wSize w) c.toNat (r = 1) (s.gang.nuCode 62))) := by
  refine if_neg ?_
  simp only [Bool.or_eq_true, decide_eq_true_eq, Bool.and_eq_true, not_or, not_and, not_not]
  exact ⟨hc, fun h => by simpa using hr h⟩

/-- Settles O29: both words are the common flow behind their prologue; a release that has nothing to report chooses between
its two effects. -/
theorem orderedLoadsAndStores : Obligations.OrderedLoadsAndStores := by
  intro s d a c r lk w sp hc
  exact ⟨fun hr => memRuns_of (exec_ldAcq hc hr) rfl, fun hrep =>
    ⟨fun hnow => memRuns_of (if_neg hc) (by simp only [reportOr_none hrep, hnow, if_true]),
      fun hnow => memRuns_of (if_neg hc) (by simp only [reportOr_none hrep, hnow, Bool.false_eq_true, if_false])⟩⟩

end Sys2Proof.Machine
end

section
/-! The address checks of a memory word (07 R176, R179; 16 R387): what `State.place` refuses, and which refusal
`State.placeFault` names. -/

namespace Sys2Proof.Machine

/-- Why an address pair is refused, if it is. -/
def State.placeError (s : State) (sp size : Nat) (x : DWord) (l : Nat) : Option PlaceFault :=
  match s.place sp size x l with
  | .error e => some e
  | .ok _ => none

/-- The lanes whose tile address is refused, with the sub-cause and the handle. -/
def State.tileFaults (s : State) (f : Form) (lanes : List Nat) (addr : Nat → DWord) : List (Nat × Nat × Nat) :=
  lanes.filterMap (fun l => match s.placeError f.sp f.size (addr l) l with
    | some (.tile sub h) => some (l, sub, h)
    | _ => none)

/-- An aperture address whose bytes lie in the lane's slot. -/
def State.fitsSlot (s : State) (size : Nat) (x : DWord) : Bool :=
  inAperture x.toNat && decide (x.toNat % 2 ^ 48 + size ≤ s.wg.z)

theorem canonical_eq_false {x : Nat} : canonical x = false ↔ 2 ^ 56 ≤ x := by simp [canonical]

theorem placeError_nonCanonical {s : State} {sp size : Nat} {x : DWord} {l : Nat} (hsp : sp < 2) :
    s.placeError sp size x l = some .nonCanonical ↔ sp = 0 ∧ 2 ^ 56 ≤ x.toNat := by
  simp only [State.placeError, State.place, if_pos hsp, ← canonical_eq_false]
  cases canonical x.toNat <;> cases inAperture x.toNat <;> by_cases hz : x.toNat % 2 ^ 48 + size ≤ s.wg.z <;>
    by_cases h0 : sp = 0 <;> by_cases h1 : sp = 1 <;> simp [-Nat.reducePow, hz, h0, h1]

theorem placeError_bounds_global {s : State} {size : Nat} {x : DWord} {l : Nat} (hx : canonical x.toNat = true) :
    s.placeError 0 size x l = some .bounds ↔ (inAperture x.toNat && !s.fitsSlot size x) = true := by
  simp only [State.placeError, State.place, State.fitsSlot, hx]
  cases inAperture x.toNat <;> by_cases hz : x.toNat % 2 ^ 48 + size ≤ s.wg.z <;> simp [-Nat.reducePow, hz]

theorem placeError_bounds_private {s : State} {size : Nat} {x : DWord} {l : Nat} :
    s.placeError 1 size x l = some .bounds ↔ (!(canonical x.toNat && s.fitsSlot size x)) = true := by
  simp only [State.placeError, State.place, State.fitsSlot]
  cases canonical x.toNat <;> cases inAperture x.toNat <;> by_cases hz : x.toNat % 2 ^ 48 + size ≤ s.wg.z <;> simp [-Nat.reducePow, hz]

theorem placeError_space {s : State} {sp size : Nat} {x : DWord} {l : Nat} (hsp : sp < 2) (sub h : Nat) :
    s.placeError sp size x l ≠ some (.tile sub h) := by
  simp only [State.placeError, State.place, if_pos hsp]
  cases canonical x.toNat <;> cases inAperture x.toNat <;> by_cases hz : x.toNat % 2 ^ 48 + size ≤ s.wg.z <;>
    by_cases h0 : sp = 0 <;> by_cases h1 : sp = 1 <;> simp [-Nat.reducePow, hz, h0, h1]

theorem placeError_tile {s : State} {sp size : Nat} {x : DWord} {l : Nat} (hsp : ¬ sp < 2) :
    s.placeError sp size x l = (s.tileFault sp size x).map (fun r => .tile r.1 r.2) := by
  simp only [State.placeError, State.place, if_neg hsp, State.tileFault, field, Nat.reducePow]
  generalize (if sp = 2 then x.toNat / 4294967296 / 64
    else x.toNat / 4294967296 / 8192 + x.toNat / 4294967296 / 64 % 4) = reserved
  generalize (if sp = 2 then some s.gang.wid else s.neighbour s.wg (x.toNat / 4294967296 / 256 % 32)) = owner
  by_cases hres : reserved ≠ 0
  · simp [hres]
  · rcases owner with _ | wid
    · simp [hres]
    · rcases ht : (s.wgAt wid).tile (x.toNat / 4294967296 % 64) with _ | t
      · simp [hres, ht]
      · by_cases hl : t.level ≠ 0 <;> by_cases he : t.extent < x.toNat % 4294967296 * size + size <;>
          simp [hres, ht, hl, he]

/-- The trap of the first of R179's checks that some lane fails, from the lanes that fail each. -/
def firstFault (addr : Nat → DWord) : List Nat → List Nat → List Nat → List (Nat × Nat × Nat) → Option TrapReq
  | l :: ls, _, _, _ => some { cause := 0x0B, lanes := laneMask (fun k => (l :: ls).contains k), addr := addr l }
  | [], l :: ls, _, _ => some { cause := 0x0C, lanes := laneMask (fun k => (l :: ls).contains k), addr := addr l }
  | [], [], l :: ls, _ => some { cause := 0x0D, lanes := laneMask (fun k => (l :: ls).contains k), addr := addr l }
  | [], [], [], t :: ts =>
    let best := ts.foldl (fun b c => if tileRank c.2.1 < tileRank b.2.1 then c else b) t
    some { cause := 0x0E, sub := best.2.1, lanes := laneMask (fun k => ((t :: ts).map (·.1)).contains k)
           aux := BitVec.ofNat 32 best.2.2 }
  | [], [], [], [] => none

theorem firstFault_eq (addr : Nat → DWord) (mis nc pb : List Nat) (tb : List (Nat × Nat × Nat)) :
    (match mis, nc, pb, tb with
      | l :: _, _, _, _ => some { cause := 0x0B, lanes := laneMask (fun k => mis.contains k), addr := addr l }
      | [], l :: _, _, _ => some { cause := 0x0C, lanes := laneMask (fun k => nc.contains k), addr := addr l }
      | [], [], l :: _, _ => some { cause := 0x0D, lanes := laneMask (fun k => pb.contains k), addr := addr l }
      | [], [], [], t :: ts =>
        let best := ts.foldl (fun b c => if tileRank c.2.1 < tileRank b.2.1 then c else b) t
        some ({ cause := 0x0E, sub := best.2.1, lanes := laneMask (fun k => (tb.map (·.1)).contains k)
                aux := BitVec.ofNat 32 best.2.2 } : TrapReq)
      | [], [], [], [] => none) = firstFault addr mis nc pb tb := by
  rcases mis with _ | _ <;> rcases nc with _ | _ <;> rcases pb with _ | _ <;> rcases tb with _ | _ <;> rfl

theorem placeFault_eq (s : State) (f : Form) (lanes : List Nat) (addr : Nat → DWord) :
    s.placeFault f lanes addr = firstFault addr
      (lanes.filter (fun l => decide (f.sp < 2) && decide ((addr l).toNat % f.size ≠ 0)))
      (lanes.filter (fun l => decide (s.placeError f.sp f.size (addr l) l = some .nonCanonical)))
      (lanes.filter (fun l => decide (s.placeError f.sp f.size (addr l) l = some .bounds))) (s.tileFaults f lanes addr) :=
  firstFault_eq addr _ _ _ _

theorem foldl_lowestRank {y : Nat × Nat × Nat} {ys : List (Nat × Nat × Nat)} (h : ∀ z ∈ ys, tileRank y.2.1 ≤ tileRank z.2.1) :
    ys.foldl (fun b c => if tileRank c.2.1 < tileRank b.2.1 then c else b) y = y := by
  induction ys with
  | nil => rfl
  | cons z zs ih =>
    obtain ⟨hz, hzs⟩ := List.forall_mem_cons.mp h
    rw [List.foldl_cons, if_neg (by omega), ih hzs]

/-- The fold over the tile faults keeps the first of the lowest rank. -/
theorem foldl_firstLowest {xs ys : List (Nat × Nat × Nat)} {b y : Nat × Nat × Nat} (hb : tileRank y.2.1 < tileRank b.2.1)
    (hx : ∀ z ∈ xs, tileRank y.2.1 < tileRank z.2.1) (hy : ∀ z ∈ ys, tileRank y.2.1 ≤ tileRank z.2.1) :
    (xs ++ y :: ys).foldl (fun b c => if tileRank c.2.1 < tileRank b.2.1 then c else b) b = y := by
  induction xs generalizing b with
  | nil => rw [List.nil_append, List.foldl_cons, if_pos hb, foldl_lowestRank hy]
  | cons x xs ih =>
    obtain ⟨hx0, hxs⟩ := List.forall_mem_cons.mp hx
    rw [List.cons_append, List.foldl_cons]
    by_cases h : tileRank x.2.1 < tileRank b.2.1
    · rw [if_pos h, ih hx0 hxs]
    · rw [if_neg h, ih hb hxs]

section
variable {s : State} {f : Form} {addr : Nat → DWord} {lanes : List Nat} {l : Nat} {ls : List Nat}

theorem placeFault_misaligned (hsp : f.sp < 2) (h : lanes.filter (fun l => decide ((addr l).toNat % f.size ≠ 0)) = l :: ls) :
    s.placeFault f lanes addr =
      some { cause := 0x0B, lanes := laneMask (fun k => (l :: ls).contains k), addr := addr l } := by
  simp only [placeFault_eq, hsp, decide_true, Bool.true_and, h, firstFault]

theorem misaligned_nil (h : ∀ k ∈ lanes, (addr k).toNat % f.size = 0) :
    lanes.filter (fun l => decide (f.sp < 2) && decide ((addr l).toNat % f.size ≠ 0)) = [] :=
  List.filter_eq_nil_iff.mpr (fun k hk => by simp [h k hk])

theorem placeFault_nonCanonical (hsp : f.sp = 0) (ha : ∀ k ∈ lanes, (addr k).toNat % f.size = 0)
    (h : lanes.filter (fun l => decide (2 ^ 56 ≤ (addr l).toNat)) = l :: ls) :
    s.placeFault f lanes addr =
      some { cause := 0x0C, lanes := laneMask (fun k => (l :: ls).contains k), addr := addr l } := by
  have hnc : ∀ k, decide (s.placeError f.sp f.size (addr k) k = some .nonCanonical) = decide (2 ^ 56 ≤ (addr k).toNat) :=
    fun k => decide_eq_decide.mpr ((placeError_nonCanonical (by omega)).trans (and_iff_right hsp))
  simp only [placeFault_eq, misaligned_nil ha, hnc, h, firstFault]

/-- The lanes outside their private slot, in a space where no lane meets an earlier check. -/
theorem placeFault_bounds {bad : Nat → Bool} (ha : ∀ k ∈ lanes, (addr k).toNat % f.size = 0)
    (hnc : ∀ k ∈ lanes, s.placeError f.sp f.size (addr k) k ≠ some .nonCanonical)
    (hb : ∀ k ∈ lanes, s.placeError f.sp f.size (addr k) k = some .bounds ↔ bad k = true) (h : lanes.filter bad = l :: ls) :
    s.placeFault f lanes addr =
      some { cause := 0x0D, lanes := laneMask (fun k => (l :: ls).contains k), addr := addr l } := by
  have h1 : lanes.filter (fun l => decide (s.placeError f.sp f.size (addr l) l = some .nonCanonical)) = [] :=
    List.filter_eq_nil_iff.mpr (fun k hk => by simp [hnc k hk])
  have h2 : lanes.filter (fun l => decide (s.placeError f.sp f.size (addr l) l = some .bounds)) = l :: ls := by
    rw [← h]
    exact List.filter_congr (fun k hk => by simp [hb k hk])
  simp only [placeFault_eq, misaligned_nil ha, h1, h2, firstFault]

theorem tileFaults_eq (hsp : ¬ f.sp < 2) : s.tileFaults f lanes addr =
    lanes.filterMap (fun l => (s.tileFault f.sp f.size (addr l)).map (fun r => (l, r.1, r.2))) := by
  refine List.filterMap_congr (fun l _ => ?_)
  rw [placeError_tile hsp]
  cases s.tileFault f.sp f.size (addr l) <;> rfl

theorem placeFault_tile {xs ys : List (Nat × Nat × Nat)} {y : Nat × Nat × Nat} (hsp : ¬ f.sp < 2)
    (h : lanes.filterMap (fun l => (s.tileFault f.sp f.size (addr l)).map (fun r => (l, r.1, r.2))) = xs ++ y :: ys)
    (hx : ∀ z ∈ xs, tileRank y.2.1 < tileRank z.2.1) (hy : ∀ z ∈ ys, tileRank y.2.1 ≤ tileRank z.2.1) :
    s.placeFault f lanes addr = some { cause := 0x0E, sub := y.2.1, aux := BitVec.ofNat 32 y.2.2
                                       lanes := laneMask (fun k => ((xs ++ y :: ys).map (·.1)).contains k) } := by
  have hmis : lanes.filter (fun l => decide (f.sp < 2) && decide ((addr l).toNat % f.size ≠ 0)) = [] := by simp [hsp]
  have hnone : ∀ e, (∀ r : Nat × Nat, PlaceFault.tile r.1 r.2 ≠ e) →
      lanes.filter (fun l => decide (s.placeError f.sp f.size (addr l) l = some e)) = [] := fun e he => by
    simp only [placeError_tile hsp]
    exact List.filter_eq_nil_iff.mpr (fun k _ => by cases s.tileFault f.sp f.size (addr k) <;> simp [he])
  rw [placeFault_eq, hmis, hnone _ (by simp), hnone _ (by simp), tileFaults_eq hsp, h]
  cases xs with
  | nil => simp only [List.nil_append, firstFault, foldl_lowestRank hy]
  | cons x xs =>
    obtain ⟨hx0, hxs⟩ := List.forall_mem_cons.mp hx
    simp only [List.cons_append, firstFault, foldl_firstLowest hx0 hxs hy]

end

/-- A word that traps with its first address fault meets `addressFaults`. -/
theorem addressFaults_of {i : Instr} {s : State} {fs : OpndsOf} {f : Form} {a : Code} {lanes : List Nat}
    (he : s.issues fs = true → s.gang.heldBy f.paths = [] → ∀ t, s.placeFault f lanes (s.vsrc64 a) = some t →
      exec i s = .next (s.takeTrap t)) : addressFaults i s fs f a lanes := by
  intro hi hh
  have he := he hi hh
  refine ⟨fun hsp => ⟨fun l ls h => he _ (placeFault_misaligned hsp h),
    fun ha h0 l ls h => he _ (placeFault_nonCanonical h0 ha h), fun ha h0 hc l ls h => he _ (placeFault_bounds ha ?_ ?_ h),
    fun ha h1 l ls h => he _ (placeFault_bounds ha ?_ ?_ h)⟩, fun hsp xs y ys h hx hy => ?_⟩
  · intro k hk hn
    have := ((placeError_nonCanonical hsp).mp hn).2
    have : (s.vsrc64 a k).toNat < 2 ^ 56 := hc k hk
    omega
  · intro k hk
    rw [h0]
    exact placeError_bounds_global (by simpa [canonical] using hc k hk)
  · intro k hk hn
    have := ((placeError_nonCanonical hsp).mp hn).1
    omega
  · intro k hk
    rw [h1]
    exact placeError_bounds_private
  · exact he _ (placeFault_tile (by omega) h hx hy)

/-- A word whose meaning is the common flow behind the prologue checks its addresses. -/
theorem addressFaults_of_memFlow {i : Instr} {s : State} {fs : OpndsOf} {f : Form} {a : Code} {e : Effect} {body : State → Res}
    (he : exec i s = guardOps s fs body) (hb : body s = memFlow s f a e) : addressFaults i s fs f a s.gang.memLanes := by
  refine addressFaults_of (fun hi hh t ht => ?_)
  rw [he, guardOps_issues hi, hb, memFlow, heldOr_free hh, ht]
  rfl

/-- The meaning of an atomic behind its decoding. -/
theorem atomInstr_eq {s : State} {op : AtomOp} {acc : Nat → Bool} {d a : Code} {c : BitVec 3} {lock : Bool} {r w : BitVec 1}
    {sp : BitVec 2} (hc : c ≠ 7) (hd : op = .cas → casDataOk (r = 1) (w = 1) d = true) :
    atomInstr s op acc d a c lock r w sp = guardOps s (etypeOps acc (fun _ => atomOps op d a (wSize w) (r = 1))) (fun s =>
      memFlow s (orderedForm .atomic w sp (if r = 1 then 0 else 1)) a
        (s.atomEffect op d a (wSize w) c.toNat lock (r = 1) sp.toNat)) := by
  refine if_neg ?_
  simp only [Bool.or_eq_true, decide_eq_true_eq, Bool.and_eq_true, Bool.not_eq_true', not_or, not_and, Bool.not_eq_false]
  exact ⟨hc, hd⟩

theorem atomOps_plain {op : AtomOp} (h : op ≠ .cas) (d a : Code) (n : Nat) (r : BitVec 1) :
    atomOps op d a n (r = 1) = [if r = 1 then .vx (8 * n) d else .vr (8 * n) d, .vr 64 a] := by
  cases op <;> simp [atomOps] at h ⊢

/-- Every atomic word is the common flow behind its prologue. -/
theorem exec_atomic (s : State) {d a : Code} {c : BitVec 3} (lk r w : BitVec 1) (sp : BitVec 2) (hc : c ≠ 7) :
    ∀ p ∈ atomicWords d a c lk r w sp, (p.2.1 = .cas → casDataOk (r = 1) (w = 1) d = true) →
      exec p.1 s = guardOps s p.2.2.2 (fun s => memFlow s (orderedForm .atomic w sp (if r = 1 then 0 else 1)) a
        (s.atomEffect p.2.1 d a (wSize w) c.toNat (p.2.2.1 = 1) (r = 1) sp.toNat)) := by
  have plain : ∀ op acc lock, op ≠ .cas → atomInstr s op acc d a c lock r w sp =
      guardOps s (etypeOps acc (fun _ => [if r = 1 then .vx (8 * wSize w) d else .vr (8 * wSize w) d, .vr 64 a])) (fun s =>
        memFlow s (orderedForm .atomic w sp (if r = 1 then 0 else 1)) a
          (s.atomEffect op d a (wSize w) c.toNat lock (r = 1) sp.toNat)) := fun op acc lock h => by
    rw [atomInstr_eq hc (fun e => absurd e h)]
    simp only [atomOps_plain h]
  simp only [List.forall_mem_cons, List.not_mem_nil, false_imp_iff, implies_true, and_true]
  exact ⟨fun _ => plain .add _ false nofun, fun _ => plain .fadd _ false nofun, fun _ => plain .min _ false nofun,
    fun _ => plain .max _ false nofun, fun _ => plain .and _ false nofun, fun _ => plain .or _ false nofun,
    fun _ => plain .xor _ false nofun, fun _ => plain .xchg _ _ nofun, fun h => atomInstr_eq hc (fun _ => h trivial)⟩

/-- mwatch checks the address of its lowest lane. -/
theorem addressFaults_mwatch {s : State} {d a : Code} {n : BitVec 6} {w : BitVec 1} (hn : n ≠ 63) {l : Nat} {ls : List Nat}
    (hl : s.gang.memLanes = l :: ls) : addressFaults (.mwatch d a n w) s (fixedOps [.vw 32 d, .vr 64 a])
      { acc := .read, size := 4, sp := w.toNat, path := 0, ticks := false } a [l] := by
  refine addressFaults_of (fun hi hh t ht => ?_)
  rw [show exec (.mwatch d a n w) s = _ from if_neg hn, guardOps_issues hi]
  simp only [heldOr_free (show s.gang.heldBy 1 = [] from hh), hl, ht]
  rfl

end Sys2Proof.Machine

namespace Sys2Proof.Laws
open Sys2Proof.Machine

/-- Settles O31: every word but mwatch is the common flow, which checks the addresses of its lanes before anything else. -/
theorem addressFaults : Obligations.AddressFaults := by
  intro s d a n sp c lk r w o
  refine ⟨fun hn => ?_, fun hn => ?_, fun hc hr => addressFaults_of_memFlow (exec_ldAcq hc hr) rfl, fun hc hrep => ?_,
    fun hc p hp hd => addressFaults_of_memFlow (exec_atomic s lk r w sp hc p hp hd) rfl,
    fun hn => addressFaults_of_memFlow (if_neg hn) rfl, fun hn l ls hl => addressFaults_mwatch hn hl⟩
  · simp only [List.forall_mem_cons, List.not_mem_nil, false_imp_iff, implies_true, and_true]
    refine ⟨?_, ?_, ?_, ?_, ?_, ?_, ?_⟩ <;> exact addressFaults_of_memFlow (if_neg hn) rfl
  · simp only [List.forall_mem_cons, List.not_mem_nil, false_imp_iff, implies_true, and_true]
    refine ⟨?_, ?_, ?_, ?_, ?_⟩ <;> exact addressFaults_of_memFlow (if_neg hn) rfl
  · refine addressFaults_of (fun hi hh t ht => ?_)
    rw [show exec (.stRel d a c lk w sp) s = _ from if_neg hc, guardOps_issues hi]
    simp only [reportOr_none hrep, memFlow, heldOr_free hh, ht, ite_self]
    rfl

end Sys2Proof.Laws
end

section
/-! What an access of memory leaves unchanged (08 R218): everything of the device but the memories, caches and queues, the
messages and watches, and of every gang everything but its watch. -/

namespace Sys2Proof.Machine

/-- `s` with the memories, caches, messages and watches of `t`. -/
def State.withMemory (s t : State) : State :=
  { s with mem := t.mem, badLines := t.badLines, cores := t.cores, clusters := t.clusters, msgs := t.msgs, links := t.links
           nextId := t.nextId, fresh := t.fresh, watches := t.watches, promo := t.promo, gangs := t.gangs }

/-- `t` is `s` after accesses of memory. -/
structure State.accessed (s t : State) : Prop where
  eq : t = s.withMemory t
  gang : ∀ k, t.gangAt k = { s.gangAt k with watch := (t.gangAt k).watch }

namespace State.accessed

theorem refl (s : State) : s.accessed s := ⟨rfl, fun _ => rfl⟩

theorem trans {s t u : State} (h1 : s.accessed t) (h2 : t.accessed u) : s.accessed u where
  eq := by
    calc u = t.withMemory u := h2.eq
      _ = (s.withMemory t).withMemory u := by rw [← h1.eq]
      _ = s.withMemory u := rfl
  gang k := by rw [h2.gang k, h1.gang k]

/-- A fold of accesses is one. -/
theorem foldl {α : Type} {f : State → α → State} (h : ∀ (s : State) a, s.accessed (f s a)) (as : List α) (s : State) :
    s.accessed (as.foldl f s) := by
  induction as generalizing s with
  | nil => exact refl s
  | cons a as ih => exact (h s a).trans (ih _)

section
variable {s t : State} (h : s.accessed t)
include h

theorem cur : t.cur = s.cur := by rw [h.eq]; rfl
theorem wgs : t.wgs = s.wgs := by rw [h.eq]; rfl
theorem devid : t.devid = s.devid := by rw [h.eq]; rfl
theorem parts : t.parts = s.parts := by rw [h.eq]; rfl
theorem sys : t.sys = s.sys := by rw [h.eq]; rfl
theorem dies : t.dies = s.dies := by rw [h.eq]; rfl
theorem focus : t.gang = { s.gang with watch := t.gang.watch } := by
  rw [State.gang, State.gang, h.cur]
  exact h.gang s.cur
theorem regs : t.gang.regs = s.gang.regs := by rw [h.focus]
theorem flow : t.gang.flow = s.gang.flow := by rw [h.focus]
theorem wid : t.gang.wid = s.gang.wid := by rw [h.focus]
theorem core : t.gang.core = s.gang.core := by
  rw [h.focus]
  rfl
theorem wg : t.wg = s.wg := by rw [State.wg, State.wg, State.wgAt, State.wgAt, h.wgs, h.wid]
theorem wgAt (k : Nat) : t.wgAt k = s.wgAt k := by rw [State.wgAt, State.wgAt, h.wgs]

end

end State.accessed

theorem accessed_takeId (s : State) : s.accessed s.takeId.2 := ⟨rfl, fun _ => rfl⟩

theorem accessed_launchMsg (s : State) (m : Msg) : s.accessed (s.launchMsg m) := by
  unfold State.launchMsg
  split
  · exact ⟨rfl, fun _ => rfl⟩
  · split <;> exact ⟨rfl, fun _ => rfl⟩

theorem accessed_send (s : State) (m : Msg) : s.accessed (s.send m) :=
  (accessed_takeId s).trans (accessed_launchMsg _ _)

theorem accessed_putBytes (s : State) (a n : Nat) (f : Nat → Byte) : s.accessed (s.putBytes a n f) := ⟨rfl, fun _ => rfl⟩

theorem accessed_fireGang (s : State) (k : Nat) : s.accessed (fireGang s k) := by
  refine ⟨rfl, fun j => ?_⟩
  by_cases h : j = k
  · subst h
    simp [fireGang, State.updGangAt]
  · simp [fireGang, State.updGangAt, State.gangAt_setGangAt_other s h]

theorem accessed_fireWatcher (s : State) (w : Watcher) : s.accessed (fireWatcher s w) := by
  cases w with
  | gang k => exact accessed_fireGang s k
  | far dev id => exact accessed_send s _

theorem accessed_fireWatches (s : State) (line : Nat) : s.accessed (s.fireWatches line) :=
  State.accessed.trans (t := { s with watches := s.watches.filter (fun w => decide (w.1 ≠ line)) }) ⟨rfl, fun _ => rfl⟩
    (State.accessed.foldl (fun s (w : Nat × Watcher) => accessed_fireWatcher s w.2) _ _)

theorem accessed_fireRange (s : State) (a n : Nat) : s.accessed (s.fireRange a n) :=
  State.accessed.foldl (fun s _ => accessed_fireWatches s _) _ _

theorem accessed_writeHome (s : State) (a n : Nat) (f : Nat → Byte) : s.accessed (s.writeHome a n f) :=
  ((accessed_putBytes s a n f).trans (accessed_fireRange _ a n)).trans ⟨rfl, fun _ => rfl⟩

theorem accessed_updCore (s : State) (k : Nat) (f : Core → Core) : s.accessed (s.updCore k f) := ⟨rfl, fun _ => rfl⟩

theorem accessed_updCluster (s : State) (k : Nat) (f : Cluster → Cluster) : s.accessed (s.updCluster k f) := ⟨rfl, fun _ => rfl⟩

theorem accessed_drainList (s : State) (qs : List QueuedByte) : s.accessed (s.drainList qs) :=
  State.accessed.foldl (fun s _ => accessed_updCore s _ _) _ _

theorem accessed_drainQueues (s : State) (core : Nat) : s.accessed (s.drainQueues core) :=
  (accessed_drainList s _).trans (accessed_updCore _ _ _)

theorem accessed_drainSome (s : State) (core : Nat) (f : List QueuedByte → QueuedByte → Bool) : s.accessed (s.drainSome core f) := by
  unfold State.drainSome
  exact (accessed_drainList s _).trans (accessed_updCore _ _ _)

theorem accessed_bankStore (s : State) (core a : Nat) (b : Byte) : s.accessed (s.bankStore core a b) := by
  unfold State.bankStore
  split
  · exact (accessed_drainSome s _ _).trans (accessed_updCore _ _ _)
  · exact accessed_updCore _ _ _

theorem accessed_setLine (s : State) (core line : Nat) (x : Option L1Line) : s.accessed (s.setLine core line x) :=
  accessed_updCore s _ _

theorem accessed_putDirty (s : State) (core line : Nat) (x : L1Line) : s.accessed (s.putDirty core line x) := by
  unfold State.putDirty
  split
  · exact State.accessed.trans (t := s.cancelFills core (some line)) ⟨rfl, fun _ => rfl⟩ (accessed_send _ _)
  · refine State.accessed.trans ?_ (accessed_fireWatches _ line)
    exact ⟨rfl, fun _ => rfl⟩

theorem accessed_writeBackOne (s : State) (core line : Nat) : s.accessed (s.writeBackOne core line) := by
  unfold State.writeBackOne
  split
  · exact State.accessed.refl s
  · split
    · exact State.accessed.refl s
    · exact (accessed_putDirty s _ _ _).trans (accessed_setLine _ _ _ _)

theorem accessed_writeBackAll (s : State) (core : Nat) : s.accessed (s.writeBackAll core) :=
  (State.accessed.foldl (fun s l => accessed_writeBackOne s core l) _ _).trans ⟨rfl, fun _ => rfl⟩

theorem accessed_pushCore (s : State) (core : Nat) : s.accessed (s.pushCore core) :=
  (accessed_drainQueues s core).trans (accessed_writeBackAll _ core)

theorem accessed_writeBack (s : State) (core line : Nat) : s.accessed (s.writeBack core line) := by
  unfold State.writeBack
  split
  · exact accessed_pushCore s core
  · exact accessed_writeBackOne s core line

theorem accessed_flushLine (s : State) (core line : Nat) : s.accessed (s.flushLine core line) :=
  (accessed_writeBack s core line).trans (accessed_setLine _ _ _ _)

theorem accessed_dropClean (s : State) (core : Nat) : s.accessed (s.dropClean core) :=
  State.accessed.trans (t := s.cancelFills core none) ⟨rfl, fun _ => rfl⟩ (accessed_updCore _ _ _)

theorem accessed_evict (s : State) (core line w : Nat) : s.accessed (s.evict core line w) := by
  unfold State.evict
  split
  · exact accessed_flushLine s _ _
  · exact State.accessed.refl s

theorem accessed_allocLine (s : State) (core wid line code : Nat) (page : Page) :
    s.accessed (s.allocLine core wid line code page).1 := by
  unfold State.allocLine
  split
  · exact State.accessed.refl s
  · exact accessed_evict s _ _ _

theorem accessed_probe (s : State) (core line : Nat) (page : Page) : s.accessed (s.probe core line page).1 := by
  unfold State.probe
  dsimp only
  split
  · exact State.accessed.refl s
  · split
    · exact State.accessed.refl s
    · split
      · exact State.accessed.refl s
      · split
        · exact State.accessed.refl s
        · exact accessed_updCluster s (clusterOfCore core) (fun c => { c with predictor := mapDrop (page.va % 256) c.predictor })

theorem accessed_learn (s : State) (page : Page) (cls : List Nat) : s.accessed (s.learn page cls) := by
  refine State.accessed.foldl (fun s c => ?_) _ _
  split
  · exact accessed_updCluster s _ _
  · exact State.accessed.refl s

theorem accessed_multicast (s : State) (core line : Nat) (page : Page) : s.accessed (s.multicast core line page) := by
  unfold State.multicast
  dsimp only
  split
  · exact State.accessed.refl s
  · split
    · exact State.accessed.refl s
    · split
      · exact ⟨rfl, fun _ => rfl⟩
      · exact State.accessed.trans (t := { s with fresh := s.fresh + 1 }) ⟨rfl, fun _ => rfl⟩ (accessed_learn _ _ _)

theorem accessed_l1Fill (s : State) (core wid line code : Nat) (page : Page) : s.accessed (s.l1Fill core wid line code page) := by
  have ha := accessed_allocLine s core wid line code page
  unfold State.l1Fill
  dsimp only
  split
  · exact ha.trans (accessed_setLine _ _ _ _)
  · have hp := ha.trans (accessed_probe (s.allocLine core wid line code page).1 core line page)
    split
    · exact hp.trans (accessed_setLine _ _ _ _)
    · exact (hp.trans (accessed_multicast _ _ _ _)).trans (accessed_setLine _ _ _ _)

theorem accessed_l1FillFar (s : State) (core wid line code : Nat) (page : Page) (data : Nat → Byte) :
    s.accessed (s.l1FillFar core wid line code page data) := by
  unfold State.l1FillFar
  exact (accessed_allocLine s core wid line code page).trans (accessed_setLine _ _ _ _)

theorem accessed_l1Hit (s : State) (core wid line off n code : Nat) : s.accessed (s.l1Hit core wid line off n code).1 := by
  unfold State.l1Hit
  split
  · dsimp only
    exact accessed_setLine s _ _ _
  · exact State.accessed.refl s

theorem accessed_l1Put (s : State) (core wid line off n v code : Nat) (page : Page) :
    s.accessed (s.l1Put core wid line off n v code page) := by
  unfold State.l1Put
  exact (accessed_allocLine s core wid line code page).trans (accessed_setLine _ _ _ _)

theorem accessed_noteStore (s : State) (core line : Nat) (n : StoreNote) : s.accessed (s.noteStore core line n) := by
  unfold State.noteStore
  split
  · exact accessed_setLine s _ _ _
  · exact State.accessed.refl s

theorem accessed_plainLoad (s : State) (core wid a n code : Nat) (page : Page) :
    s.accessed (s.plainLoad core wid a n code page).1 := accessed_l1Fill s _ _ _ _ _

theorem accessed_tileStore (s : State) (by_ lg core : Nat) (t : Tile) (off x n : Nat) :
    s.accessed (s.tileStore by_ lg core t off x n) := by
  induction n with
  | zero => exact State.accessed.refl s
  | succ n ih =>
    simp only [State.tileStore, State.barnStore]
    exact ih.trans (accessed_updCore _ _ _)

theorem accessed_tileBankWrite (s : State) (core : Nat) (t : Tile) (off : Nat) (bs : List Byte) :
    s.accessed (s.tileBankWrite core t off bs) := by
  induction bs generalizing s off with
  | nil => exact State.accessed.refl s
  | cons b bs ih =>
    refine State.accessed.trans ?_ (ih _ _)
    split
    · exact accessed_bankStore s _ _ _
    · exact State.accessed.refl s

/-! ### Releases and acquires -/

theorem accessed_releaseActs (s : State) (core sc : Nat) : s.accessed (s.releaseActs core sc) := by
  unfold State.releaseActs
  split
  · exact accessed_pushCore s core
  · exact State.accessed.refl s

theorem accessed_acquireActs (s : State) (core sc : Nat) : s.accessed (s.acquireActs core sc) := by
  unfold State.acquireActs
  split
  · exact accessed_dropClean s core
  · exact State.accessed.refl s

theorem accessed_pushPromo (s : State) (line core : Nat) : s.accessed (s.pushPromo line core) := by
  unfold State.pushPromo
  split
  · split
    · exact State.accessed.refl s
    · exact accessed_releaseActs s _ _
  · exact State.accessed.refl s

/-! ### Translation -/

theorem accessed_walkEnd {s t : State} {cache : List WalkEntry} {pasid va : Nat} {a : Acc} {r : TlbEntry × Leaf}
    (h : s.walkEnd cache pasid va a = .ok (t, r)) : s.accessed t := by
  unfold State.walkEnd at h
  split at h
  · cases h
  · split at h
    · cases h
    · dsimp only at h
      split_ifs at h
      cases h
      exact accessed_writeHome s _ _ _

theorem accessed_fillL1Tlb (s : State) (core : Nat) (e : TlbEntry) : s.accessed (s.fillL1Tlb core e) := by
  unfold State.fillL1Tlb
  exact accessed_updCore s _ _

theorem accessed_fillClusterTlb (s : State) (cl : Nat) (e : TlbEntry) : s.accessed (s.fillClusterTlb cl e) := by
  unfold State.fillClusterTlb
  exact accessed_updCluster s _ _

theorem accessed_fillWalkCache (s : State) (cl pasid va : Nat) (l : Leaf) : s.accessed (s.fillWalkCache cl pasid va l) := by
  unfold State.fillWalkCache
  exact accessed_updCluster s _ _

theorem accessed_translateCluster {s t : State} {missed : Bool} {cl pasid va : Nat} {a : Acc} {e : TlbEntry}
    (h : s.translateCluster missed cl pasid va a = .ok (t, e)) : s.accessed t := by
  unfold State.translateCluster at h
  dsimp only at h
  split at h
  · cases h
    exact accessed_fillClusterTlb s _ _
  · split at h
    · cases h
    · rename_i hw
      cases h
      exact ((accessed_walkEnd hw).trans (accessed_fillWalkCache _ _ _ _ _)).trans (accessed_fillClusterTlb _ _ _)

theorem accessed_translate {s t : State} {core pasid va : Nat} {a : Acc} {x : Xlate}
    (h : s.translate core pasid va a = .ok (t, x)) : s.accessed t := by
  unfold State.translate at h
  split at h
  · cases h
    exact accessed_fillL1Tlb s _ _
  · split at h
    · cases h
    · rename_i hw
      cases h
      exact (accessed_translateCluster hw).trans (accessed_fillL1Tlb _ _ _)

theorem accessed_xlate {s t : State} {part core pasid va : Nat} {a : Acc} {x : Xlate}
    (h : s.xlate part core pasid va a = .ok (t, x)) : s.accessed t := by
  unfold State.xlate at h
  split at h
  · split_ifs at h
    cases h
    exact State.accessed.refl s
  · exact accessed_translate h

theorem accessed_translateLanes (f : Form) (ps : List (Nat × Place)) (s : State) : s.accessed (translateLanes f ps s).1 := by
  induction ps generalizing s with
  | nil => exact State.accessed.refl s
  | cons p ps ih =>
    obtain ⟨l, va | ⟨core, t, off⟩⟩ := p
    · simp only [translateLanes]
      split
      · exact ih s
      · rename_i hx
        exact (accessed_xlate hx).trans (ih _)
    · exact ih s

/-! ### Runs of bytes -/

theorem accessed_gangLoadRun {core wid part pasid code : Nat} {ns : List Nat} {va : Nat} {s t : State} {bs : List Byte}
    (h : s.gangLoadRun core wid part pasid code ns va = .ok (t, bs)) : s.accessed t := by
  induction ns generalizing s va bs with
  | nil =>
    cases h
    exact State.accessed.refl _
  | cons n ns ih =>
    simp only [State.gangLoadRun] at h
    split at h
    · cases h
    · rename_i s1 x hx
      refine (accessed_xlate hx).trans ?_
      split at h
      · cases h
      · rename_i s2 v hr
        split at h
        · cases h
        · rename_i hrest
          cases h
          refine State.accessed.trans ?_ (ih hrest)
          split at hr
          · have hs : (s1.plainLoad _ _ _ _ _ _).1 = s2 := congrArg Prod.fst (Except.ok.inj hr)
            exact hs ▸ accessed_plainLoad _ _ _ _ _ _ _
          · split at hr
            · have hs : (s1.l1Hit _ _ _ _ _ _).1 = s2 := congrArg Prod.fst (Except.ok.inj hr)
              exact hs ▸ accessed_l1Hit _ _ _ _ _ _ _
            · cases hr
          · cases hr
          · cases hr

theorem accessed_gangStoreRun {core wid part pasid code : Nat} {bss : List (List Byte)} {va : Nat} {s t : State}
    (h : s.gangStoreRun core wid part pasid code bss va = .ok t) : s.accessed t := by
  induction bss generalizing s va with
  | nil =>
    cases h
    exact State.accessed.refl _
  | cons bs bss ih =>
    simp only [State.gangStoreRun] at h
    split at h
    · cases h
    · rename_i s1 x hx
      refine (accessed_xlate hx).trans ?_
      split at h
      · exact (accessed_l1Put _ _ _ _ _ _ _ _ _).trans (ih h)
      · exact ((accessed_l1Put _ _ _ _ _ _ _ _ _).trans (accessed_noteStore _ _ _ _)).trans (ih h)
      · cases h
      · cases h

end Sys2Proof.Machine
end

section
/-! Calls, returns and the return stack with its spills (03 R74 to R76). -/

namespace Sys2Proof.Machine

/-- Writing return stacks changes nothing else, and each slice written holds its own. -/
theorem Gang.foldl_setRst (f : Nat → RetStack) (ks : List Nat) (g : Gang) :
    ∃ m, ks.foldl (fun g k => g.setRst k (f k)) g = { g with flow := { g.flow with rst := m } } ∧
      ∀ j, mapGet { entries := [], spilled := 0 } m j = if j ∈ ks then f j else g.rst j := by
  induction ks generalizing g with
  | nil => exact ⟨g.flow.rst, rfl, fun j => by simp [Gang.rst]⟩
  | cons k ks ih =>
    obtain ⟨m, hm, hr⟩ := ih (g.setRst k (f k))
    refine ⟨m, hm, fun j => ?_⟩
    rw [hr j, Gang.rst, Gang.setRst]
    simp only [mapGet_set, List.mem_cons, Gang.rst]
    by_cases hj : j ∈ ks
    · simp [hj]
    · by_cases hk : j = k <;> simp [hj, hk]

/-- The gang of `u` with the return stacks `f` and the PCs `x` in the slices that issue in `s`. -/
def State.stacked (s u : State) (f : Nat → RetStack) (x : Nat → PcVal) : State :=
  u.updGang (fun g => (s.gang.issuingList.foldl (fun g k => g.setRst k (f k)) g).divide x)

theorem stacked_eq (s u : State) (f : Nat → RetStack) (x : Nat → PcVal) :
    s.stacked u f x = { u with gangs := (s.stacked u f x).gangs } := rfl

theorem stacked_gang {s u : State} (f : Nat → RetStack) (x : Nat → PcVal) (hflow : u.gang.flow = s.gang.flow) :
    s.dividedTo (s.stacked u f x) x ∧ (∀ k, s.gang.issuing k = true → (s.stacked u f x).gang.rst k = f k) ∧
      (s.stacked u f x).gang = { u.gang with flow := { u.gang.flow with
        pc := (s.stacked u f x).gang.flow.pc, grp := (s.stacked u f x).gang.flow.grp,
        rst := (s.stacked u f x).gang.flow.rst } } := by
  obtain ⟨m, hm, hr⟩ := Gang.foldl_setRst f s.gang.issuingList u.gang
  have ht : (s.stacked u f x).gang = ({ u.gang with flow := { u.gang.flow with rst := m } } : Gang).divide x := by
    rw [State.stacked, State.gang_updGang, hm]
  refine ⟨dividedTo_divide (by rw [hflow]) (by rw [hflow]) (by rw [hflow]) (by rw [hflow]) ht, fun k hk => ?_, by rw [ht]; rfl⟩
  rw [ht]
  exact (hr k).trans (if_pos (Gang.mem_issuingList.mpr hk))

theorem stacked_regs {s u : State} (f : Nat → RetStack) (x : Nat → PcVal) (h : s.accessed u) :
    (s.stacked u f x).gang.regs = s.gang.regs := by
  rw [(stacked_gang f x h.flow).2.2]
  exact h.regs

theorem badTarget_branchTarget {pc : PcVal} {i : Int} (h : pc.toNat % 4 = 0) :
    badTarget ((branchTarget pc i).setWidth 64) = false := by
  have hlt := (branchTarget pc i).isLt
  have hmod : (branchTarget pc i).toNat % 4 = 0 := by
    simp only [branchTarget, BitVec.toNat_add, BitVec.toNat_ofInt]
    omega
  simp only [badTarget, BitVec.toNat_setWidth, Bool.or_eq_false_iff, decide_eq_false_iff_not]
  rw [Nat.mod_eq_of_lt (by omega)]
  omega

theorem runOr_free {α : Type} {s : State} {va : Nat} {acc : Acc} (h : s.lateOnRun va 32 acc = []) (body : Except Res α) :
    runOr s va acc body = body := by
  unfold runOr
  rw [h]

theorem spillAt_accessed {s t : State} (h : s.accessed t) (slice k : Nat) : t.spillAt slice k = s.spillAt slice k := by
  rw [State.spillAt, State.spillAt, h.wg, h.focus]

/-- The spills of a call that all succeed. -/
theorem callSpills_of_spilledTo {s0 u : State} {x : Nat → DWord} (ks : List Nat) (s : State) (h0 : s0.accessed s)
    (hu : s0.spilledTo u ks s) (hgood : ∀ k ∈ ks, badTarget (x k) = false)
    (hroom : ∀ k ∈ ks, 8 ≤ (s0.gang.rst k).entries.length →
      (s0.gang.rst k).spilled < 32 ∧ s0.lateOnRun (s0.spillAt k (s0.gang.rst k).spilled) 32 .write = []) :
    callSpills s0 x ks s = .ok u ∧ s0.accessed u := by
  induction ks generalizing s with
  | nil =>
    obtain rfl : u = s := hu
    exact ⟨rfl, h0⟩
  | cons k ks ih =>
    obtain ⟨hgk, hgs⟩ := List.forall_mem_cons.mp hgood
    obtain ⟨hrk, hrs⟩ := List.forall_mem_cons.mp hroom
    have hrst : s.gang.rst k = s0.gang.rst k := by rw [Gang.rst, h0.flow, Gang.rst]
    simp only [callSpills, hgk, hrst, Bool.false_eq_true, if_false]
    by_cases hlen : (s0.gang.rst k).entries.length < 8
    · rw [State.spilledTo, if_pos hlen] at hu
      rw [if_pos hlen]
      exact ih s h0 hu hgs hrs
    · rw [State.spilledTo, if_neg hlen] at hu
      obtain ⟨m, hm, hum⟩ := hu
      obtain ⟨hsp, hlate⟩ := hrk (by omega)
      rw [if_neg hlen, if_neg (by omega), spillAt_accessed h0, h0.core, h0.wid, h0.wg, runOr_free hlate, hm]
      exact ih m (h0.trans (accessed_gangStoreRun hm)) hum hgs hrs

/-- What a call whose spills leave `u` does. -/
theorem callTo_of_spilledTo {s u : State} {x : Nat → DWord} (hu : s.spilledTo u s.gang.issuingList s)
    (hgood : ∀ k, s.gang.issuing k = true → badTarget (x k) = false)
    (hroom : ∀ k, s.gang.issuing k = true → 8 ≤ (s.gang.rst k).entries.length →
      (s.gang.rst k).spilled < 32 ∧ s.lateOnRun (s.spillAt k (s.gang.rst k).spilled) 32 .write = []) :
    s.accessed u ∧ s.callTo x =
      .next (s.stacked u (fun k => (s.gang.rst k).push ((s.gang.pcNow + 4).setWidth 64)) (fun k => (x k).setWidth 56)) := by
  obtain ⟨hcall, hacc⟩ := callSpills_of_spilledTo (x := x) s.gang.issuingList s (State.accessed.refl s) hu
    (fun k hk => hgood k (Gang.mem_issuingList.mp hk)) (fun k hk => hroom k (Gang.mem_issuingList.mp hk))
  have hlist : u.gang.issuingList = s.gang.issuingList :=
    List.filter_congr (fun k _ => by rw [Gang.issuing_congr] <;> rw [hacc.flow])
  refine ⟨hacc, ?_⟩
  simp only [State.callTo, hcall, State.stacked, State.updGang, Gang.setRsts, hlist]

/-- No slice spills where every hardware stack has room. -/
theorem spilledTo_room {s : State} {ks : List Nat} (h : ∀ k ∈ ks, (s.gang.rst k).entries.length < 8) : s.spilledTo s ks s := by
  induction ks with
  | nil => rfl
  | cons k ks ih =>
    obtain ⟨hk, hks⟩ := List.forall_mem_cons.mp h
    rw [State.spilledTo, if_pos hk]
    exact ih hks

/-- A call with room in every issuing slice's hardware stack pushes and divides. -/
theorem callTo_room {s : State} {x : Nat → DWord} (hroom : ∀ k, s.gang.issuing k = true → (s.gang.rst k).entries.length < 8)
    (hgood : ∀ k, s.gang.issuing k = true → badTarget (x k) = false) :
    ∃ t, s.callTo x = .next t ∧ s.flowOnly t ∧ s.dividedTo t (fun k => (x k).setWidth 56) ∧
      ∀ k, s.gang.issuing k = true → t.gang.rst k =
        { s.gang.rst k with entries := (s.gang.rst k).entries ++ [(s.gang.pcNow + 4).setWidth 64] } := by
  obtain ⟨-, hc⟩ := callTo_of_spilledTo (x := x) (spilledTo_room (fun k hk => hroom k (Gang.mem_issuingList.mp hk))) hgood
    (fun k hk h8 => absurd (hroom k hk) (by omega))
  obtain ⟨hdiv, hrst, hgang⟩ := stacked_gang (s := s) (u := s) (fun k => (s.gang.rst k).push ((s.gang.pcNow + 4).setWidth 64))
    (fun k => (x k).setWidth 56) rfl
  exact ⟨_, hc, ⟨sameDevice_updGang s _, hgang⟩, hdiv, fun k hk => (hrst k hk).trans (if_pos (hroom k hk))⟩

/-! ### ret (03 R75, R76) -/

/-- No slice refills where every hardware stack holds an entry. -/
theorem refilledTo_held {s : State} {ks : List Nat} (h : ∀ k ∈ ks, (s.gang.rst k).entries ≠ []) :
    s.refilledTo s s.gang.rst ks s := by
  induction ks with
  | nil => rfl
  | cons k ks ih =>
    obtain ⟨hk, hks⟩ := List.forall_mem_cons.mp h
    rw [State.refilledTo, if_pos hk]
    exact ⟨rfl, ih hks⟩

/-- The refills of a ret that all succeed, `x k` the return stack that slice k pops. -/
theorem retRefills_of_refilledTo {s0 u : State} {x : Nat → RetStack} (ks : List Nat) (s : State) (h0 : s0.accessed s)
    (hu : s0.refilledTo u x ks s) (hgood : ∀ k ∈ ks, badTarget ((x k).entries.getLastD 0) = false)
    (hfill : ∀ k ∈ ks, (s0.gang.rst k).entries = [] →
      0 < (s0.gang.rst k).spilled ∧ s0.lateOnRun (s0.spillAt k ((s0.gang.rst k).spilled - 1)) 32 .read = []) :
    retRefills s0 ks s = .ok (u, ks.map (fun k =>
      (k, { x k with entries := (x k).entries.dropLast }, (x k).entries.getLastD 0))) ∧ s0.accessed u := by
  induction ks generalizing s with
  | nil =>
    obtain rfl : u = s := hu
    exact ⟨rfl, h0⟩
  | cons k ks ih =>
    obtain ⟨hgk, hgs⟩ := List.forall_mem_cons.mp hgood
    obtain ⟨hfk, hfs⟩ := List.forall_mem_cons.mp hfill
    have hrst : s.gang.rst k = s0.gang.rst k := by rw [Gang.rst, h0.flow, Gang.rst]
    simp only [retRefills, hrst, List.isEmpty_iff]
    by_cases he : (s0.gang.rst k).entries = []
    · rw [State.refilledTo, if_neg (not_not.mpr he)] at hu
      obtain ⟨m, bs, hm, hx, hum⟩ := hu
      obtain ⟨hsp, hlate⟩ := hfk he
      obtain ⟨hrest, hacc⟩ := ih m (h0.trans (accessed_gangLoadRun hm)) hum hgs hfs
      rw [hx] at hgk
      rw [if_pos he, if_neg (by omega), spillAt_accessed h0, h0.core, h0.wid, h0.wg, runOr_free hlate, hm]
      simp only [hgk, Bool.false_eq_true, if_false, hrest, List.map_cons, hx]
      exact ⟨trivial, hacc⟩
    · rw [State.refilledTo, if_pos he] at hu
      obtain ⟨hx, hum⟩ := hu
      obtain ⟨hrest, hacc⟩ := ih s h0 hum hgs hfs
      rw [hx] at hgk
      simp only [he, hgk, Bool.false_eq_true, if_false, hrest, List.map_cons, hx]
      exact ⟨trivial, hacc⟩

theorem find?_map_key {α : Type} (f : Nat → α) (ks : List Nat) (k : Nat) :
    (ks.map (fun j => (j, f j))).find? (fun e => decide (e.1 = k)) = if k ∈ ks then some (k, f k) else none := by
  induction ks with
  | nil => rfl
  | cons j js ih =>
    rw [List.map_cons, List.find?_cons]
    by_cases h : j = k
    · simp [h]
    · simp [h, ih, Ne.symm h]

theorem dividedTo_congr {s t : State} {x y : Nat → PcVal} (h : ∀ k, s.gang.issuing k = true → x k = y k)
    (hx : s.dividedTo t x) : s.dividedTo t y := by
  obtain ⟨hpc, hgrp, hlead, hrest⟩ := hx
  refine ⟨fun k hk => ?_, fun j k hj hk => ?_, fun k hk => ?_, hrest⟩
  · rw [hpc k hk]
    exact ite_congr rfl (fun hi => h k hi) (fun _ => rfl)
  · rw [hgrp j k hj hk, h j hj, h k hk]
  · obtain ⟨hle, hi, hx⟩ := hlead k hk
    exact ⟨hle, hi, by rw [← h _ hi, ← h k hk, hx]⟩

/-- What a ret whose refills leave `u` does. -/
theorem ret_of_refilledTo {s u : State} {x : Nat → RetStack} (hu : s.refilledTo u x s.gang.issuingList s)
    (hx : ∀ k, s.gang.issuing k = true → badTarget ((x k).entries.getLastD 0) = false ∧ ((s.gang.rst k).entries = [] →
      0 < (s.gang.rst k).spilled ∧ s.lateOnRun (s.spillAt k ((s.gang.rst k).spilled - 1)) 32 .read = [])) :
    s.accessed u ∧ ∃ y : Nat → PcVal, (∀ k, s.gang.issuing k = true → y k = ((x k).entries.getLastD 0).setWidth 56) ∧
      exec .ret s = .next (s.stacked u (fun k => { x k with entries := (x k).entries.dropLast }) y) := by
  obtain ⟨hret, hacc⟩ := retRefills_of_refilledTo s.gang.issuingList s (State.accessed.refl s) hu
    (fun k hk => (hx k (Gang.mem_issuingList.mp hk)).1) (fun k hk => (hx k (Gang.mem_issuingList.mp hk)).2)
  refine ⟨hacc, fun k => match (s.gang.issuingList.map (fun k =>
      (k, ({ x k with entries := (x k).entries.dropLast } : RetStack), (x k).entries.getLastD 0))).find?
        (fun e => decide (e.1 = k)) with
    | some e => e.2.2.setWidth 56
    | none => u.gang.pcNow, fun k hk => ?_, ?_⟩
  · simp only [find?_map_key (fun k => (({ x k with entries := (x k).entries.dropLast } : RetStack),
      (x k).entries.getLastD 0)), Gang.mem_issuingList, hk, if_true]
  · show execRet s = _
    simp only [execRet, hret, State.stacked, State.updGang, List.foldl_map] <;> rfl

theorem callsAndReturns : Sys2Proof.Claims.CallsAndReturns := by
  refine ⟨fun s i hroom hpc => ?_, fun s a hi hk => ?_, fun s hk => ?_⟩
  · obtain ⟨t, ht, hflow, hdiv, hrst⟩ := callTo_room hroom (fun k _ => badTarget_branchTarget hpc)
    exact ⟨t, ht, hflow, dividedTo_congr (fun k _ => by simp [branchTarget]) hdiv, hrst⟩
  · rw [exec_of_issues (i := .callx a) hi]
    exact callTo_room (fun k h => (hk k h).1) (fun k h => (hk k h).2)
  · obtain ⟨-, y, hy, ht⟩ := ret_of_refilledTo (u := s) (x := s.gang.rst)
      (refilledTo_held (fun k h => (hk k (Gang.mem_issuingList.mp h)).1))
      (fun k h => ⟨(hk k h).2, fun he => absurd he (hk k h).1⟩)
    obtain ⟨hdiv, hrst, hgang⟩ := stacked_gang (s := s) (u := s)
      (fun k => { s.gang.rst k with entries := (s.gang.rst k).entries.dropLast }) y rfl
    exact ⟨_, ht, ⟨sameDevice_updGang s _, hgang⟩, dividedTo_congr hy hdiv, hrst⟩

theorem spillAndRefill : Sys2Proof.Claims.SpillAndRefill := by
  refine ⟨fun s u i a hu hroom => ⟨fun hpc => ?_, fun hi hgood => ?_⟩, fun s u x hu hx => ?_⟩
  · obtain ⟨hacc, ht⟩ := callTo_of_spilledTo hu (fun k _ => badTarget_branchTarget (i := i.toInt) hpc) hroom
    obtain ⟨hdiv, hrst, -⟩ := stacked_gang _ _ hacc.flow
    exact ⟨_, ht, ⟨stacked_eq _ _ _ _, stacked_regs _ _ hacc, hrst⟩, dividedTo_congr (fun k _ => by simp [branchTarget]) hdiv⟩
  · obtain ⟨hacc, ht⟩ := callTo_of_spilledTo hu hgood hroom
    obtain ⟨hdiv, hrst, -⟩ := stacked_gang _ _ hacc.flow
    rw [exec_of_issues (i := .callx a) hi]
    exact ⟨_, ht, ⟨stacked_eq _ _ _ _, stacked_regs _ _ hacc, hrst⟩, hdiv⟩
  · obtain ⟨hacc, y, hy, ht⟩ := ret_of_refilledTo hu hx
    obtain ⟨hdiv, hrst, -⟩ := stacked_gang (s := s) (u := u) (fun k => { x k with entries := (x k).entries.dropLast }) y hacc.flow
    exact ⟨_, ht, stacked_eq _ _ _ _, stacked_regs _ _ hacc, dividedTo_congr hy hdiv, hrst⟩

theorem returnStackLimits : Sys2Proof.Claims.ReturnStackLimits := by
  intro s k hk
  obtain ⟨ks, hks⟩ := List.head?_eq_some_iff.mp hk
  refine ⟨fun hpc i hlen hsp => ?_, fun he hsp => ?_⟩
  · show s.callTo _ = _
    unfold State.callTo
    rw [hks]
    simp only [callSpills, badTarget_branchTarget hpc, Bool.false_eq_true, if_false, if_neg (by omega : ¬ (s.gang.rst k).entries.length < 8),
      if_pos hsp]
    rfl
  · show execRet s = _
    unfold execRet
    rw [hks]
    simp only [retRefills, he, hsp, List.isEmpty_nil, if_true]
    rfl

/-- Settles O19: what a call or a ret does follows from what its spills or refills leave; with room, that is the state itself. -/
theorem returnStacks : Obligations.ReturnStacks := ⟨callsAndReturns, spillAndRefill, returnStackLimits⟩

end Sys2Proof.Machine
end

section
/-! What the caches, the queues and home hold after a write-back, a flush, an acquire and a release (08 R218 to R220). -/

namespace Sys2Proof.Machine

/-! ### Messages and watches -/

/-- `t` is `s` but for messages and watches, those of its gangs among them. -/
structure State.signalled (s t : State) : Prop where
  eq : t = { s with msgs := t.msgs, links := t.links, nextId := t.nextId, watches := t.watches, gangs := t.gangs }
  gang : ∀ k, t.gangAt k = { s.gangAt k with watch := (t.gangAt k).watch }

namespace State.signalled

theorem trans {s t u : State} (h1 : s.signalled t) (h2 : t.signalled u) : s.signalled u where
  eq := by
    have h := h2.eq
    rw [h1.eq] at h
    exact h
  gang k := by rw [h2.gang k, h1.gang k]

theorem foldl {α : Type} {f : State → α → State} (h : ∀ (s : State) a, s.signalled (f s a)) (as : List α) (s : State) :
    s.signalled (as.foldl f s) := by
  induction as generalizing s with
  | nil => exact ⟨rfl, fun _ => rfl⟩
  | cons a as ih => exact (h s a).trans (ih _)

section
variable {s t : State} (h : s.signalled t)
include h

theorem mem : t.mem = s.mem := by rw [h.eq]
theorem cores : t.cores = s.cores := by rw [h.eq]
theorem promo : t.promo = s.promo := by rw [h.eq]
theorem clusters : t.clusters = s.clusters := by rw [h.eq]

end
end State.signalled

theorem signalled_launchMsg (s : State) (m : Msg) : s.signalled (s.launchMsg m) := by
  unfold State.launchMsg
  split
  · exact ⟨rfl, fun _ => rfl⟩
  · split <;> exact ⟨rfl, fun _ => rfl⟩

theorem signalled_send (s : State) (m : Msg) : s.signalled (s.send m) :=
  State.signalled.trans (t := s.takeId.2) ⟨rfl, fun _ => rfl⟩ (signalled_launchMsg _ _)

theorem signalled_fireWatcher (s : State) (w : Watcher) : s.signalled (fireWatcher s w) := by
  cases w with
  | gang k => exact ⟨rfl, (accessed_fireGang s k).gang⟩
  | far dev id => exact signalled_send s _

theorem signalled_fireWatches (s : State) (line : Nat) : s.signalled (s.fireWatches line) :=
  State.signalled.trans (t := { s with watches := s.watches.filter (fun w => decide (w.1 ≠ line)) }) ⟨rfl, fun _ => rfl⟩
    (State.signalled.foldl (fun s (w : Nat × Watcher) => signalled_fireWatcher s w.2) _ _)

theorem signalled_fireRange (s : State) (a n : Nat) : s.signalled (s.fireRange a n) :=
  State.signalled.foldl (fun s _ => signalled_fireWatches s _) _ _

/-! ### Lines of an L1 -/

@[simp] theorem mem_setLine (s : State) (core line : Nat) (x : Option L1Line) : (s.setLine core line x).mem = s.mem := rfl
@[simp] theorem promo_setLine (s : State) (core line : Nat) (x : Option L1Line) : (s.setLine core line x).promo = s.promo := rfl

/-- Putting or dropping a line changes the L1 of its core alone. -/
theorem coreAt_setLine (s : State) (core line : Nat) (x : Option L1Line) (c : Nat) :
    (s.setLine core line x).coreAt c = { s.coreAt c with l1 := ((s.setLine core line x).coreAt c).l1 } := by
  by_cases h : c = core
  · subst h
    simp [State.setLine]
  · rw [State.setLine, State.coreAt_updCore_other s h]

theorem l1Line_setLine (s : State) (core line : Nat) (x : Option L1Line) (c l : Nat) :
    (s.setLine core line x).l1Line c l = if c = core ∧ l = line then x else s.l1Line c l := by
  unfold State.l1Line State.setLine
  by_cases h : c = core
  · subst h
    rw [State.coreAt_updCore]
    by_cases hl : l = line
    · subst hl
      cases x <;> simp [mapFind_put_same, mapFind_drop_same]
    · cases x <;> simp [hl, mapFind_put_other hl, mapFind_drop_other hl]
  · simp [h, State.coreAt_updCore_other s h]

theorem mapFind_isSome_of_key {α : Type} {k : Nat} {m : SMap α} {x : α} (h : mapFind k m = some x) : k ∈ m.map (·.1) := by
  induction m with
  | nil => cases h
  | cons e m ih =>
    obtain ⟨i, y⟩ := e
    simp only [mapFind] at h
    split at h
    · exact List.mem_cons_of_mem _ (ih h)
    · split at h
      · next hi => exact hi ▸ List.mem_cons_self
      · cases h

/-! ### Home memory -/

/-- The home byte after a line's dirty bytes have been put there. -/
theorem mapGet_mergeDirty (x : L1Line) (base n : Nat) (m : List Host.Cell) (b : Nat) :
    mapGet 0 (mergeDirty x base n m) b =
      if base ≤ b ∧ b < base + n ∧ x.dirty.getLsbD (b - base) = true then x.byte (b - base) else mapGet 0 m b := by
  induction n with
  | zero => 
    rw [if_neg (by omega)]
    rfl
  | succ n ih =>
    simp only [mergeDirty]
    by_cases hb : b = base + n
    · subst hb
      have hsub : base + n - base = n := by omega
      rw [hsub]
      split
      · next hd => simp [hd]
      · next hd =>
        rw [ih, if_neg (by omega), if_neg (by simp [hd])]
    · have hiff : (base ≤ b ∧ b < base + n ∧ x.dirty.getLsbD (b - base) = true) ↔
          (base ≤ b ∧ b < base + (n + 1) ∧ x.dirty.getLsbD (b - base) = true) :=
        and_congr_right fun _ => and_congr_left fun _ => by omega
      rw [← if_congr hiff rfl rfl, ← ih]
      split
      · exact mapGet_set_other _ _ hb _
      · rfl

/-- The dirty bytes of another device's line go there in a message. -/
theorem putDirty_far {s : State} {core line : Nat} {x : L1Line} (h : isFar line = true) :
    ∃ m, s.putDirty core line x = (s.cancelFills core (some line)).send m := by
  rw [State.putDirty, if_pos h]
  exact ⟨_, rfl⟩

theorem putDirty_local {s : State} {core line : Nat} {x : L1Line} (h : ¬ isFar line = true) :
    ∃ bad, s.putDirty core line x = ({ s with mem := mergeDirty x (line * 128) 128 s.mem, badLines := bad } : State).fireWatches line := by
  rw [State.putDirty, if_neg h]
  exact ⟨_, rfl⟩

theorem cores_putDirty (s : State) (core line : Nat) (x : L1Line) : (s.putDirty core line x).cores = s.cores := by
  by_cases h : isFar line = true
  · obtain ⟨m, hm⟩ := putDirty_far (s := s) (core := core) (x := x) h
    exact hm ▸ (signalled_send _ m).cores
  · obtain ⟨bad, hb⟩ := putDirty_local (s := s) (core := core) (x := x) h
    exact hb ▸ (signalled_fireWatches _ line).cores

theorem promo_putDirty (s : State) (core line : Nat) (x : L1Line) : (s.putDirty core line x).promo = s.promo := by
  by_cases h : isFar line = true
  · obtain ⟨m, hm⟩ := putDirty_far (s := s) (core := core) (x := x) h
    exact hm ▸ (signalled_send _ m).promo
  · obtain ⟨bad, hb⟩ := putDirty_local (s := s) (core := core) (x := x) h
    exact hb ▸ (signalled_fireWatches _ line).promo

theorem mem_putDirty (s : State) (core line : Nat) (x : L1Line) : (s.putDirty core line x).mem =
    if isFar line = true then s.mem else mergeDirty x (line * 128) 128 s.mem := by
  by_cases h : isFar line = true
  · obtain ⟨m, hm⟩ := putDirty_far (s := s) (core := core) (x := x) h
    rw [if_pos h, hm, (signalled_send _ m).mem]
    rfl
  · obtain ⟨bad, hb⟩ := putDirty_local (s := s) (core := core) (x := x) h
    rw [if_neg h, hb, (signalled_fireWatches _ line).mem]

/-! ### Write-backs -/

/-- A line as its write-back leaves it. -/
def L1Line.clean (x : L1Line) : L1Line := if x.dirty = 0 then x else { x with dirty := 0, notes := [] }

theorem L1Line.dirty_clean (x : L1Line) : x.clean.dirty = 0 := by
  unfold L1Line.clean
  split <;> simp [*]

/-- `t` is `s` but for the L1 of one core, home memory and what follows from their writes. -/
structure State.cachedOnly (core : Nat) (s t : State) : Prop where
  other : ∀ c, c ≠ core → t.coreAt c = s.coreAt c
  own : ∀ c, t.coreAt c = { s.coreAt c with l1 := (t.coreAt c).l1 }

theorem State.cachedOnly.refl (core : Nat) (s : State) : State.cachedOnly core s s := ⟨fun _ _ => rfl, fun _ => rfl⟩

theorem State.cachedOnly.trans {core : Nat} {s t u : State} (h1 : State.cachedOnly core s t) (h2 : State.cachedOnly core t u) :
    State.cachedOnly core s u :=
  ⟨fun c hc => (h2.other c hc).trans (h1.other c hc), fun c => by rw [h2.own c, h1.own c]⟩

theorem State.cachedOnly.squeue {core : Nat} {s t : State} (h : State.cachedOnly core s t) (c : Nat) :
    (t.coreAt c).squeue = (s.coreAt c).squeue := by rw [h.own c]

theorem State.cachedOnly.banks {core : Nat} {s t : State} (h : State.cachedOnly core s t) (c : Nat) :
    (t.coreAt c).banks = (s.coreAt c).banks := by rw [h.own c]

theorem cachedOnly_setLine (s : State) (core line : Nat) (x : Option L1Line) : State.cachedOnly core s (s.setLine core line x) :=
  ⟨fun _ hc => State.coreAt_updCore_other s hc _, coreAt_setLine s core line x⟩

theorem cachedOnly_putDirty (s : State) (core line : Nat) (x : L1Line) : State.cachedOnly core s (s.putDirty core line x) := by
  have h : ∀ c, (s.putDirty core line x).coreAt c = s.coreAt c := fun c => by rw [State.coreAt, State.coreAt, cores_putDirty]
  exact ⟨fun c _ => h c, fun c => by rw [h c]⟩

theorem cachedOnly_writeBackOne (s : State) (core line : Nat) : State.cachedOnly core s (s.writeBackOne core line) := by
  unfold State.writeBackOne
  split
  · exact .refl core s
  · split
    · exact .refl core s
    · exact (cachedOnly_putDirty s core line _).trans (cachedOnly_setLine _ core line _)

theorem promo_writeBackOne (s : State) (core line : Nat) : (s.writeBackOne core line).promo = s.promo := by
  unfold State.writeBackOne
  split
  · rfl
  · split
    · rfl
    · rw [promo_setLine, promo_putDirty]

theorem l1Line_writeBackOne (s : State) (core line c l : Nat) : (s.writeBackOne core line).l1Line c l =
    if c = core ∧ l = line then (s.l1Line c l).map L1Line.clean else s.l1Line c l := by
  cases hx : s.l1Line core line with
  | none =>
    simp only [State.writeBackOne, hx]
    split
    · next h =>
      obtain ⟨rfl, rfl⟩ := h
      rw [hx]
      rfl
    · rfl
  | some x =>
    have hput : (s.putDirty core line x).l1Line c l = s.l1Line c l := by
      unfold State.l1Line State.coreAt
      rw [cores_putDirty]
    simp only [State.writeBackOne, hx]
    by_cases hd : x.dirty = 0
    · rw [if_pos hd]
      split
      · next h =>
        obtain ⟨rfl, rfl⟩ := h
        rw [hx, Option.map_some, L1Line.clean, if_pos hd]
      · rfl
    · rw [if_neg hd, l1Line_setLine, hput]
      split
      · next h =>
        obtain ⟨rfl, rfl⟩ := h
        rw [hx, Option.map_some, L1Line.clean, if_neg hd]
      · rfl

/-- The home bytes after a line's write-back: its own dirty bytes, and no other. -/
theorem byteAt_writeBackOne (s : State) (core line b : Nat) : (s.writeBackOne core line).byteAt b =
    match s.l1Line core line with
    | some x => if isFar line = false ∧ b / 128 = line ∧ x.dirty.getLsbD (b % 128) = true then x.byte (b % 128) else s.byteAt b
    | none => s.byteAt b := by
  unfold State.writeBackOne
  cases hx : s.l1Line core line with
  | none => rfl
  | some x =>
    by_cases hd : x.dirty = 0
    · simp [hd]
    · simp only [hd, if_false, State.byteAt, mem_setLine, mem_putDirty]
      cases hf : isFar line with
      | true => simp
      | false =>
        simp only [Bool.false_eq_true, if_false, mapGet_mergeDirty, true_and]
        by_cases hb : b / 128 = line
        · have h1 : b - line * 128 = b % 128 := by omega
          rw [h1]
          exact if_congr ⟨fun h => ⟨hb, h.2.2⟩, fun h => ⟨by omega, by omega, h.2⟩⟩ rfl rfl
        · rw [if_neg (by omega), if_neg (by simp [hb])]

/-- A write-back of every line of a list. -/
def State.writeBackLines (s : State) (core : Nat) (ls : List Nat) : State := ls.foldl (fun s l => s.writeBackOne core l) s

theorem writeBackAll_eq (s : State) (core : Nat) : s.writeBackAll core =
    { s.writeBackLines core (s.l1Lines core) with
      promo := (s.writeBackLines core (s.l1Lines core)).promo.filter (fun e => decide (e.2 ≠ core)) } := rfl

theorem cachedOnly_writeBackLines (core : Nat) (ls : List Nat) (s : State) :
    State.cachedOnly core s (s.writeBackLines core ls) := by
  induction ls generalizing s with
  | nil => exact .refl core s
  | cons l ls ih => exact (cachedOnly_writeBackOne s core l).trans (ih _)

theorem l1Line_writeBackLines (core : Nat) (ls : List Nat) (s : State) (l : Nat) :
    (s.writeBackLines core ls).l1Line core l = if l ∈ ls then (s.l1Line core l).map L1Line.clean else s.l1Line core l := by
  induction ls generalizing s with
  | nil => rfl
  | cons j ls ih =>
    rw [State.writeBackLines, List.foldl_cons]
    refine (ih _).trans ?_
    rw [l1Line_writeBackOne]
    have hcc : ∀ o : Option L1Line, (o.map L1Line.clean).map L1Line.clean = o.map L1Line.clean := fun o => by
      cases o with
      | none => rfl
      | some x => simp [L1Line.clean]; split <;> simp [*]
    by_cases h1 : l = j
    · subst h1
      by_cases h2 : l ∈ ls <;> simp [h2, hcc]
    · by_cases h2 : l ∈ ls <;> simp [h1, h2]

theorem l1Line_mem_l1Lines {s : State} {core line : Nat} {x : L1Line} (h : s.l1Line core line = some x) :
    line ∈ s.l1Lines core := mapFind_isSome_of_key h

/-- After every line of a core is written back, none is dirty. -/
theorem l1Line_writeBackAll (s : State) (core line : Nat) :
    (s.writeBackAll core).l1Line core line = (s.l1Line core line).map L1Line.clean := by
  rw [writeBackAll_eq]
  refine (l1Line_writeBackLines core _ s line).trans ?_
  cases h : s.l1Line core line with
  | none => simp
  | some x => simp [l1Line_mem_l1Lines h]

theorem cachedOnly_writeBackAll (s : State) (core : Nat) : State.cachedOnly core s (s.writeBackAll core) := by
  obtain ⟨h1, h2⟩ := cachedOnly_writeBackLines core (s.l1Lines core) s
  exact ⟨h1, h2⟩

end Sys2Proof.Machine
end

section
/-! Fences, acquires and releases (08 R219 to R221, R229). -/

namespace Sys2Proof.Machine

/-! ### Store queues -/

theorem coreAt_putBank (s : State) (core a : Nat) (b : Byte) (c : Nat) :
    (s.putBank core a b).coreAt c = { s.coreAt c with banks := ((s.putBank core a b).coreAt c).banks } := by
  by_cases h : c = core
  · subst h
    simp [State.putBank]
  · rw [State.putBank, State.coreAt_updCore_other s h]

/-- Bytes that reach the banks change the banks alone. -/
theorem coreAt_drainList (qs : List QueuedByte) (s : State) (c : Nat) :
    (s.drainList qs).coreAt c = { s.coreAt c with banks := ((s.drainList qs).coreAt c).banks } := by
  induction qs generalizing s with
  | nil => rfl
  | cons q qs ih =>
    rw [State.drainList, List.foldl_cons]
    refine (ih _).trans ?_
    rw [coreAt_putBank]
    rfl

theorem mem_drainList (qs : List QueuedByte) (s : State) : (s.drainList qs).mem = s.mem := by
  induction qs generalizing s with
  | nil => rfl
  | cons q qs ih => exact ih _

@[simp] theorem mem_drainQueues (s : State) (core : Nat) : (s.drainQueues core).mem = s.mem := mem_drainList _ _

theorem squeue_drainQueues_own (s : State) (core : Nat) : ((s.drainQueues core).coreAt core).squeue = [] := by
  rw [State.drainQueues, State.coreAt_updCore]

theorem l1_drainQueues (s : State) (core c : Nat) : ((s.drainQueues core).coreAt c).l1 = (s.coreAt c).l1 := by
  unfold State.drainQueues
  by_cases h : c = core
  · subst h
    rw [State.coreAt_updCore, coreAt_drainList]
  · rw [State.coreAt_updCore_other _ h, coreAt_drainList]

theorem l1Line_drainQueues (s : State) (core c line : Nat) : (s.drainQueues core).l1Line c line = s.l1Line c line := by
  rw [State.l1Line, l1_drainQueues, State.l1Line]

/-! ### What a release and an acquire leave -/

theorem l1Line_pushCore (s : State) (core line : Nat) :
    (s.pushCore core).l1Line core line = (s.l1Line core line).map L1Line.clean := by
  rw [State.pushCore, l1Line_writeBackAll, l1Line_drainQueues]

theorem squeue_pushCore (s : State) (core : Nat) : ((s.pushCore core).coreAt core).squeue = [] := by
  rw [State.pushCore, (cachedOnly_writeBackAll _ core).squeue, squeue_drainQueues_own]

theorem mapFind_map {α β : Type} (f : α → β) (k : Nat) (m : SMap α) :
    mapFind k (m.map (fun e => (e.1, f e.2))) = (mapFind k m).map f := by
  induction m with
  | nil => rfl
  | cons e m ih =>
    simp only [List.map_cons, mapFind, ih]
    split
    · rfl
    · split <;> rfl

theorem l1Line_dropClean {s : State} {core line : Nat} {x : L1Line} (h : s.l1Line core line = some x) :
    (s.dropClean core).l1Line core line = some { x with valid := x.dirty } := by
  unfold State.dropClean State.l1Line
  rw [State.coreAt_updCore]
  have hc : (s.cancelFills core none).coreAt core = s.coreAt core := rfl
  rw [hc]
  refine (mapFind_map (fun y : L1Line => { y with valid := y.dirty }) line _).trans ?_
  rw [show mapFind line (s.coreAt core).l1 = some x from h]
  rfl

theorem acquireAndRelease : Sys2Proof.Claims.AcquireAndRelease := by
  intro s core sc line hsc
  have ha : s.acquireActs core sc = s.dropClean core := if_pos hsc
  have hr : s.releaseActs core sc = s.pushCore core := if_pos hsc
  rw [ha, hr]
  refine ⟨fun x hx => l1Line_dropClean hx, rfl, fun x hx => ?_, squeue_pushCore s core⟩
  rw [l1Line_pushCore] at hx
  obtain ⟨y, -, rfl⟩ := Option.map_eq_some_iff.mp hx
  exact L1Line.dirty_clean y

/-! ### The fences -/

/-- What is not performed on LD is not performed on LD or ST. -/
theorem unperformed_LD {g : Gang} (h : g.unperformed 3 = []) : g.unperformed 1 = [] := by
  unfold Gang.unperformed at h ⊢
  simp only [List.append_eq_nil_iff, List.map_eq_nil_iff, List.filter_eq_nil_iff] at h ⊢
  have hbit : ∀ p, bit 1 p = true → bit 3 p = true := fun p hp => by
    rcases p with _ | p
    · rfl
    · have : 1 / 2 ^ (p + 1) = 0 := Nat.div_eq_of_lt (Nat.one_lt_two_pow (by omega))
      simp [bit, this] at hp
  refine ⟨fun o ho hb => h.1 o ho ?_, fun o ho hb => h.2 o ho (hbit _ hb)⟩
  simp only [Bool.and_eq_true] at hb ⊢
  exact ⟨hbit _ hb.1, hb.2⟩

theorem unperformed_of_releaseWaits {g : Gang} {sc : Nat} (h : g.releaseWaits sc = []) : g.unperformed 1 = [] := by
  have h1 := (List.append_eq_nil_iff.mp h).1
  split at h1
  · exact unperformed_LD h1
  · exact h1

/-- What an acquire does at the head of a fence leaves the gang in focus. -/
theorem gang_acquireActs (s : State) (core sc : Nat) : (s.acquireActs core sc).gang = s.gang := by
  unfold State.acquireActs
  split <;> rfl

/-- A fence that nothing reports waits, then acquires, then releases. -/
theorem fenceInstr_eq {s : State} {c : BitVec 3} (hc : c ≠ 7) (hrep : s.gang.releaseReport c.toNat = none) (rel sc : Bool) :
    fenceInstr s c rel sc =
      if !(s.gang.unperformed (if sc then 3 else 1)).isEmpty then stallOn (.ops (s.gang.unperformed (if sc then 3 else 1))) s
      else if rel then withRelease (s.acquireActs s.gang.core c.toNat) c.toNat (fun s => .next s.advance)
      else .next (s.acquireActs s.gang.core c.toNat).advance := by
  unfold fenceInstr
  rw [if_neg hc]
  simp only [hrep]

/-- The release of a fence with nothing earlier to wait for ends, or stalls for other devices' acknowledgements. -/
theorem withRelease_acquired {s : State} {sc : Nat} (hrep : s.gang.releaseReport sc = none) (hw : s.gang.releaseWaits sc = [])
    (body : State → Res) :
    let both := (s.acquireActs s.gang.core sc).releaseActs s.gang.core sc
    withRelease (s.acquireActs s.gang.core sc) sc body =
      if 5 ≤ sc ∧ both.flushing s.gang.core ≠ [] then both.stall (.answers (both.flushing s.gang.core)) |> Host.Outcome.next
      else body both := by
  intro both
  unfold withRelease State.release
  simp only [gang_acquireActs, hrep, hw, List.isEmpty_nil, Bool.not_true, Bool.false_eq_true, if_false]
  by_cases h5 : 5 ≤ sc <;> by_cases hf : both.flushing s.gang.core = [] <;> simp [h5, hf, both, stallOn] at *

/-- Past its word after accesses of memory. -/
theorem State.accessed.past_advance {s t : State} (h : s.accessed t) : s.past t.advance :=
  past_of_flow (by rw [State.advance, State.gang_updGang, h.focus]; rfl)

theorem State.accessed.regs_advance {s t : State} (h : s.accessed t) : t.advance.gang.regs = s.gang.regs := by
  rw [State.advance, State.gang_updGang, h.focus]
  rfl

theorem fencePath_ends (s : State) {a b : BitVec 6} (ha : a ≠ 0) (hb : b ≠ 0) :
    let ids := (s.gang.out.filter (fun o => bit a.toNat o.path)).map (·.id) ++
      (s.gang.late.filter (fun o => bit a.toNat o.path)).map (·.id)
    (ids = [] → ∃ t, exec (.fencePath a b) s = .next t ∧ s.past t ∧ t.mem = s.mem ∧
      t.gang.regs = s.gang.regs ∧ (a.getLsbD 1 = true → (t.coreAt s.gang.core).squeue = [])) ∧
    (ids ≠ [] → ∃ t, exec (.fencePath a b) s = .next t ∧ s.past t ∧ t.mem = s.mem ∧ t.gang.regs = s.gang.regs ∧
      t.gang.holds = s.gang.holds ++ [{ id := s.nextId, paths := b.toNat, scope := none }]) := by
  intro ids
  have he : exec (.fencePath a b) s = .next ((if ids.isEmpty then (if bit a.toNat 1 then s.drainQueues s.gang.core else s)
      else s.holdLate (.pathFence (bit a.toNat 1)) ids b.toNat).advance) := if_neg (by
      simp only [Bool.or_eq_true, decide_eq_true_eq, not_or]
      exact ⟨ha, hb⟩)
  refine ⟨fun h => ?_, fun h => ?_⟩
  · have hacc : s.accessed (if bit a.toNat 1 then s.drainQueues s.gang.core else s) := by
      split
      · exact accessed_drainQueues s _
      · exact State.accessed.refl s
    rw [h] at he
    refine ⟨_, he, hacc.past_advance, ?_, hacc.regs_advance, fun h1 => ?_⟩
    · rw [State.mem_advance]
      simp only [List.isEmpty_nil, if_true]
      split <;> simp
    · have hb1 : bit a.toNat 1 = true := by
        simpa [bit, BitVec.getLsbD, Nat.testBit_eq_decide_div_mod_eq] using h1
      simp only [List.isEmpty_nil, if_true, hb1]
      exact squeue_drainQueues_own s s.gang.core
  · have hne : ids.isEmpty = false := by simpa using h
    rw [hne] at he
    refine ⟨_, he, past_of_flow ?_, rfl, ?_, ?_⟩ <;> 
      simp only [Bool.false_eq_true, if_false, State.advance, State.holdLate, State.gang_updGang, State.updGang_updGang] <;> rfl

theorem fences : Sys2Proof.Claims.Fences := by
  refine ⟨fun s c hc hrep => ?_, fun s a b ha hb => fencePath_ends s ha hb⟩
  intro both ends
  have hacq : ∀ rel sc, s.gang.unperformed (if sc then 3 else 1) = [] → fenceInstr s c rel sc =
      if rel then withRelease (s.acquireActs s.gang.core c.toNat) c.toNat (fun s => .next s.advance)
      else .next (s.acquireActs s.gang.core c.toNat).advance := fun rel sc h => by
    rw [fenceInstr_eq hc hrep, h]
    rfl
  have hends : ∀ i sc, exec i s = fenceInstr s c true sc → s.gang.unperformed (if sc then 3 else 1) = [] →
      s.gang.releaseWaits c.toNat = [] →
      (c.toNat < 5 ∨ both.flushing s.gang.core = [] → exec i s = .next both.advance) ∧
      (5 ≤ c.toNat → both.flushing s.gang.core ≠ [] →
        exec i s = .next (both.stall (.answers (both.flushing s.gang.core)))) := fun i sc he hu hw => by
    rw [he, hacq true sc hu, if_pos rfl, withRelease_acquired hrep hw]
    exact ⟨fun h => if_neg (fun hn => h.elim (by omega) hn.2), fun h5 hf => if_pos ⟨h5, hf⟩⟩
  refine ⟨fun h => hacq false false h, fun h => ?_, fun h => ?_, fun h => ?_, fun h => ?_, fun h hu => ?_⟩
  · show fenceInstr s c false false = _
    rw [fenceInstr_eq hc hrep]
    exact if_pos (by simpa using h)
  · show execFenceRel c s = _
    rw [execFenceRel, if_neg hc, reportOr_none hrep, h]
    rfl
  · show execFenceRel c s = _
    rw [execFenceRel, if_neg hc, reportOr_none hrep, h]
    rfl
  · exact hends (.fenceAcqrel c) false rfl (unperformed_of_releaseWaits h) h
  · exact hends (.fenceSc c) true rfl hu h

/-- Settles O32: each fence is its waits, then the acquire and the release; what those two leave is what dropping the clean
bytes and writing back every line leave. -/
theorem fencesAndScopes : Obligations.FencesAndScopes := ⟨fences, acquireAndRelease⟩

end Sys2Proof.Machine
end

section
/-! Bytes of a line of an L1, and what a store into it leaves (07 R177, R194; 08 R218). -/

namespace Sys2Proof.Machine

/-! ### Bytes of a line -/

theorem getLsbD_maskFrom {w : Nat} (i n j : Nat) (hj : j < w) :
    (maskFrom w i n).getLsbD j = decide (i ≤ j ∧ j < i + n) := by
  simp only [maskFrom, BitVec.getLsbD_shiftLeft, BitVec.getLsbD_ofNat, Nat.testBit_two_pow_sub_one, hj]
  by_cases h : i ≤ j
  · simp only [h, decide_true, true_and, Bool.true_and, Nat.not_lt.mpr h, decide_false, Bool.not_false]
    have : j - i < w := by omega
    simp only [this, decide_true, Bool.true_and, decide_eq_decide]
    omega
  · simp [h, Nat.lt_of_not_le h]

theorem L1Line.getLsbD_byte (x : L1Line) (i j : Nat) (hj : j < 8) : (x.byte i).getLsbD j = x.data.getLsbD (8 * i + j) := by
  simp [L1Line.byte, hj]

theorem valid_store (x : L1Line) (off n v i : Nat) (hi : i < 128) :
    (x.store off n v).valid.getLsbD i = (x.valid.getLsbD i || decide (off ≤ i ∧ i < off + n)) := by
  simp only [L1Line.store, BitVec.getLsbD_or, getLsbD_maskFrom _ _ _ hi]

theorem dirty_store (x : L1Line) (off n v i : Nat) (hi : i < 128) :
    (x.store off n v).dirty.getLsbD i = (x.dirty.getLsbD i || decide (off ≤ i ∧ i < off + n)) := by
  simp only [L1Line.store, BitVec.getLsbD_or, getLsbD_maskFrom _ _ _ hi]

theorem getLsbD_byteAt (v k j : Nat) (hj : j < 8) : (byteAt v k).getLsbD j = v.testBit (8 * k + j) := by
  rw [byteAt, BitVec.getLsbD_ofNat, show (256 : Nat) ^ k = 2 ^ (8 * k) by rw [Nat.pow_mul], ← Nat.shiftRight_eq_div_pow,
    Nat.testBit_shiftRight]
  simp [hj]

/-- The bytes of a number below a bound are those of its remainder. -/
theorem byteAt_mod (v : Nat) {n i : Nat} (h : i < n) : byteAt (v % 256 ^ n) i = byteAt v i := by
  apply BitVec.eq_of_getLsbD_eq
  intro j hj
  rw [getLsbD_byteAt _ _ _ hj, getLsbD_byteAt _ _ _ hj, show (256 : Nat) ^ n = 2 ^ (8 * n) by rw [Nat.pow_mul],
    Nat.testBit_mod_two_pow]
  simp [show 8 * i + j < 8 * n by omega]

theorem byte_store (x : L1Line) (off n v i : Nat) (hi : i < 128) :
    (x.store off n v).byte i = if off ≤ i ∧ i < off + n then byteAt v (i - off) else x.byte i := by
  apply BitVec.eq_of_getLsbD_eq
  intro j hj
  rw [L1Line.getLsbD_byte _ _ _ hj]
  simp only [L1Line.store, BitVec.getLsbD_or, BitVec.getLsbD_and, BitVec.getLsbD_not, BitVec.getLsbD_shiftLeft,
    BitVec.getLsbD_ofNat, getLsbD_maskFrom _ _ _ (show 8 * i + j < 1024 by omega), show 8 * i + j < 1024 by omega,
    show (256 : Nat) ^ n = 2 ^ (8 * n) by rw [Nat.pow_mul], Nat.testBit_mod_two_pow]
  by_cases h : off ≤ i ∧ i < off + n
  · rw [if_pos h, getLsbD_byteAt _ _ _ hj]
    have h1 : 8 * off ≤ 8 * i + j ∧ 8 * i + j < 8 * off + 8 * n := by omega
    have h2 : 8 * i + j - 8 * off = 8 * (i - off) + j := by omega
    have h3 : 8 * (i - off) + j < 8 * n := by omega
    have h4 : 8 * (i - off) + j < 1024 := by omega
    simp only [h1, h2, h3, h4, and_self, decide_true, Bool.not_true, Bool.and_false, Bool.false_or, Bool.true_and,
      Nat.not_lt.mpr h1.1, decide_false, Bool.not_false]
  · rw [if_neg h, L1Line.getLsbD_byte _ _ _ hj]
    have h1 : ¬ (8 * off ≤ 8 * i + j ∧ 8 * i + j < 8 * off + 8 * n) := by omega
    have h2 : 8 * i + j < 8 * off ∨ ¬ 8 * i + j - 8 * off < 8 * n := by omega
    rcases h2 with h2 | h2 <;> simp [h1, h2]

/-! ### A line for an access -/

@[simp] theorem valid_touch (s : State) (wid code : Nat) (x : L1Line) : (s.touch wid code x).valid = x.valid := rfl
@[simp] theorem dirty_touch (s : State) (wid code : Nat) (x : L1Line) : (s.touch wid code x).dirty = x.dirty := rfl
@[simp] theorem byte_touch (s : State) (wid code : Nat) (x : L1Line) (i : Nat) : (s.touch wid code x).byte i = x.byte i := rfl

/-- The byte that a line gives where it is valid, and home otherwise. -/
def L1Line.lookIn (x : L1Line) (s : State) (a : Nat) : Byte :=
  if x.valid.getLsbD (a % 128) then x.byte (a % 128) else s.byteAt a

theorem look_of_line {s : State} {core a : Nat} {x : L1Line} (h : s.l1Line core (a / 128) = some x) :
    s.look core a = x.lookIn s a := by
  unfold State.look
  rw [h]
  rfl

theorem look_of_none {s : State} {core a : Nat} (h : s.l1Line core (a / 128) = none) : s.look core a = s.byteAt a := by
  unfold State.look
  rw [h]

/-- A line is held, or its place is free. -/
def State.lineFree (s : State) (core line : Nat) : Prop :=
  (s.l1Line core line).isSome = true ∨
  (s.coreAt core).l1.find? (fun e => decide (e.1 % 128 = line % 128) && decide (e.2.way = s.chooseWay core line)) = none

/-- With room for its line an access evicts nothing, and the line gives the core's own view of memory. -/
theorem allocLine_of_free {s : State} {core line : Nat} (wid code : Nat) (page : Page) (h : s.lineFree core line) :
    ∃ x, s.allocLine core wid line code page = (s, x) ∧ ∀ a, a / 128 = line → x.lookIn s a = s.look core a := by
  unfold State.allocLine
  cases hx : s.l1Line core line with
  | some x =>
    refine ⟨_, rfl, fun a ha => ?_⟩
    subst ha
    rw [look_of_line hx]
    rfl
  | none =>
    have hfree := h.resolve_left (by simp [hx])
    refine ⟨_, by simp only [State.evict, hfree]; rfl, fun a ha => ?_⟩
    subst ha
    rw [look_of_none hx]
    simp [L1Line.lookIn]

/-- The core's view of memory after a line of its L1 has been put. -/
theorem look_setLine (s : State) (core line : Nat) (x : L1Line) (b : Nat) :
    (s.setLine core line (some x)).look core b = if b / 128 = line then x.lookIn s b else s.look core b := by
  have hl := l1Line_setLine s core line (some x) core (b / 128)
  by_cases h : b / 128 = line
  · rw [if_pos ⟨rfl, h⟩] at hl
    rw [if_pos h, look_of_line hl]
    rfl
  · rw [if_neg (fun hc => h hc.2)] at hl
    rw [if_neg h]
    unfold State.look
    rw [hl]
    rfl

/-- What a store of a core into its L1 leaves: its view of memory with the bytes stored; home memory and every other core
as they were. -/
structure State.storedIn (core a n v : Nat) (s t : State) : Prop where
  look : ∀ b, t.look core b = if a ≤ b ∧ b < a + n then Machine.byteAt v (b - a) else s.look core b
  mem : t.mem = s.mem
  gangs : t.gangs = s.gangs
  cur : t.cur = s.cur
  cached : State.cachedOnly core s t
  held : (t.l1Line core (a / 128)).isSome = true

theorem lookIn_store {x : L1Line} {s : State} {a n v b : Nat} (hb : b / 128 = a / 128) :
    (x.store (a % 128) n v).lookIn s b = if a ≤ b ∧ b < a + n then byteAt v (b - a) else x.lookIn s b := by
  have hlt : b % 128 < 128 := Nat.mod_lt _ (by omega)
  have hiff : (a % 128 ≤ b % 128 ∧ b % 128 < a % 128 + n) ↔ (a ≤ b ∧ b < a + n) := by omega
  simp only [L1Line.lookIn, valid_store _ _ _ _ _ hlt, byte_store _ _ _ _ _ hlt, hiff]
  by_cases h : a ≤ b ∧ b < a + n
  · have hsub : b % 128 - a % 128 = b - a := by omega
    simp [h, hsub]
  · simp [h]

theorem storedIn_l1Store {s : State} {core a : Nat} (wid n v code : Nat) (page : Page) (hfree : s.lineFree core (a / 128))
    (ha : a % 128 + n ≤ 128) : State.storedIn core a n v s (s.l1Store core wid a n v code page) := by
  obtain ⟨x, hx, hlook⟩ := allocLine_of_free wid code page hfree
  have ht : s.l1Store core wid a n v code page = s.setLine core (a / 128) (some (x.store (a % 128) n v)) := by
    simp only [State.l1Store, State.l1Put, hx]
  rw [ht]
  refine ⟨fun b => ?_, rfl, rfl, rfl, cachedOnly_setLine s core _ _, by simp [l1Line_setLine]⟩
  rw [look_setLine]
  by_cases hb : b / 128 = a / 128
  · rw [if_pos hb, lookIn_store hb, hlook b hb]
  · rw [if_neg hb, if_neg (by omega)]

/-- A note at a line changes nothing that an access finds. -/
theorem storedIn_noteStore {core a n v : Nat} {s t : State} (h : State.storedIn core a n v s t) (line : Nat) (x : StoreNote) :
    State.storedIn core a n v s (t.noteStore core line x) := by
  unfold State.noteStore
  cases hl : t.l1Line core line with
  | none => exact h
  | some y =>
    refine ⟨fun b => ?_, h.mem, h.gangs, h.cur, h.cached.trans (cachedOnly_setLine t core _ _), ?_⟩
    · rw [look_setLine, ← h.look b]
      split
      · next hb =>
        subst hb
        exact (look_of_line hl).symm
      · rfl
    · rw [l1Line_setLine]
      split
      · rfl
      · exact h.held

/-- The two halves of a value stored one after the other store the value. -/
theorem State.storedIn.append {core a n m v : Nat} {s t u : State} (h1 : State.storedIn core a n (v % 256 ^ n) s t)
    (h2 : State.storedIn core (a + n) m (v / 256 ^ n % 256 ^ m) t u) (hline : (a + n) / 128 = a / 128) :
    State.storedIn core a (n + m) v s u := by
  refine ⟨fun b => ?_, h2.mem.trans h1.mem, h2.gangs.trans h1.gangs, h2.cur.trans h1.cur, h1.cached.trans h2.cached,
    hline ▸ h2.held⟩
  rw [h2.look, h1.look]
  by_cases hb2 : a + n ≤ b ∧ b < a + n + m
  · have hpow : (256 : Nat) ^ (b - a) = 256 ^ n * 256 ^ (b - (a + n)) := by rw [← Nat.pow_add]; congr 1; omega
    rw [if_pos hb2, if_pos (by omega), byteAt_mod _ (by omega), Machine.byteAt, Machine.byteAt, Nat.div_div_eq_div_mul, ← hpow]
  · by_cases hb1 : a ≤ b ∧ b < a + n
    · rw [if_neg hb2, if_pos hb1, if_pos (by omega), byteAt_mod _ (by omega)]
    · rw [if_neg hb2, if_neg hb1, if_neg (by omega)]

end Sys2Proof.Machine
end

section
/-! A memory word whose lanes perform as it issues: what its common flow adds to the accesses themselves (02 R52; 07 R178). -/

namespace Sys2Proof.Machine

/-- `h` is `g` but for its outstanding operations, its watch, and what it replays or holds. -/
def Gang.countsOnly (g h : Gang) : Prop :=
  h = { g with out := h.out, issued := h.issued, pend := h.pend, watch := h.watch, trap := h.trap, holds := h.holds }

/-- The operation `id` of a word enters its path's counter, at the state after the translation. -/
def State.counted (u : State) (f : Form) (done : Bool) : State :=
  if f.sp = 2 then { u with nextId := u.nextId + 1 }
  else ({ u with nextId := u.nextId + 1 } : State).updGang (fun g => g.raise f.path u.nextId done)

/-- The end of a memory word. -/
def State.finished (s : State) : State := (s.updGang Gang.finishReplay).advance

section
variable (u : State) (f : Form) (done : Bool)

theorem counted_cases : u.counted f done = { u with nextId := u.nextId + 1, gangs := (u.counted f done).gangs } := by
  unfold State.counted
  split <;> rfl

@[simp] theorem mem_counted : (u.counted f done).mem = u.mem := by rw [counted_cases]
@[simp] theorem cur_counted : (u.counted f done).cur = u.cur := by rw [counted_cases]
@[simp] theorem cores_counted : (u.counted f done).cores = u.cores := by rw [counted_cases]
@[simp] theorem clusters_counted : (u.counted f done).clusters = u.clusters := by rw [counted_cases]
@[simp] theorem coreAt_counted (c : Nat) : (u.counted f done).coreAt c = u.coreAt c := by rw [State.coreAt, cores_counted]; rfl
@[simp] theorem byteAt_counted (b : Nat) : (u.counted f done).byteAt b = u.byteAt b := by
  rw [State.byteAt, mem_counted]; rfl
@[simp] theorem l1Line_counted (c l : Nat) : (u.counted f done).l1Line c l = u.l1Line c l := by
  rw [State.l1Line, coreAt_counted]; rfl
@[simp] theorem look_counted (c b : Nat) : (u.counted f done).look c b = u.look c b := by
  unfold State.look
  rw [l1Line_counted, byteAt_counted]
@[simp] theorem barnByte_counted (b c a : Nat) : (u.counted f done).barnByte b c a = u.barnByte b c a := by
  simp only [State.barnByte, State.bankByte, coreAt_counted]

theorem gang_counted : u.gang.countsOnly (u.counted f done).gang := by
  unfold State.counted
  split
  · rfl
  · rw [State.gang_updGang]
    rfl

end

section
variable (w : State)

theorem finished_cases : w.finished = { w with gangs := w.finished.gangs } := rfl
@[simp] theorem mem_finished : w.finished.mem = w.mem := rfl
@[simp] theorem msgs_finished : w.finished.msgs = w.msgs := rfl
@[simp] theorem coreAt_finished (c : Nat) : w.finished.coreAt c = w.coreAt c := rfl
@[simp] theorem look_finished (c b : Nat) : w.finished.look c b = w.look c b := rfl
@[simp] theorem byteAt_finished (b : Nat) : w.finished.byteAt b = w.byteAt b := rfl
@[simp] theorem bankByte_finished (c b : Nat) : w.finished.bankByte c b = w.bankByte c b := rfl
@[simp] theorem barnByte_finished (b c a : Nat) : w.finished.barnByte b c a = w.barnByte b c a := rfl
@[simp] theorem l1Line_finished (c l : Nat) : w.finished.l1Line c l = w.l1Line c l := rfl

theorem gang_finished : w.finished.gang = w.gang.finishReplay.advance := by
  rw [State.finished, State.advance, State.gang_updGang, State.gang_updGang]

@[simp] theorem regs_finished : w.finished.gang.regs = w.gang.regs := by rw [gang_finished]; rfl
@[simp] theorem locks_finished : w.finished.gang.locks = w.gang.locks := by rw [gang_finished]; rfl
@[simp] theorem v_finished (r l : Nat) : w.finished.gang.v r l = w.gang.v r l := by rw [Gang.v, regs_finished]; rfl

theorem past_finished {s : State} (h : w.gang.flow = s.gang.flow) : s.past w.finished := by
  refine past_updGang (f := fun _ => w.gang.finishReplay) ?_ (gang_finished w)
  exact h

end

/-- A place of this device where an access performs. -/
def Target.here : Target → Bool
  | .mem _ _ => true
  | .tile _ _ _ => true
  | _ => false

theorem performLanes_here {e : Effect} {id : Nat} {ts : List (Nat × Target)} (h : ∀ t ∈ ts, t.2.here = true) (s : State) :
    performLanes e id ts s = ts.foldl (fun s t => e.act id s t.1 t.2) s := by
  induction ts generalizing s with
  | nil => rfl
  | cons t ts ih =>
    obtain ⟨ht, hts⟩ := List.forall_mem_cons.mp h
    obtain ⟨l, tg⟩ := t
    cases tg <;> simp only [Target.here, Bool.false_eq_true] at ht <;> exact ih hts _

theorem refusedOf_nil {ts : List (Nat × Target)} (h : ∀ t ∈ ts, t.2.stopped = false) : refusedOf ts = [] := by
  refine List.filterMap_eq_nil_iff.mpr (fun t ht => ?_)
  have := h t ht
  cases hx : t.2 <;> simp [hx, Target.stopped] at this ⊢

theorem badOf_nil {ts : List (Nat × Target)} (h : ∀ t ∈ ts, t.2.stopped = false) : badOf ts = [] := by
  refine List.filterMap_eq_nil_iff.mpr (fun t ht => ?_)
  have := h t ht
  cases hx : t.2 <;> simp [hx, Target.stopped] at this ⊢

/-- With no lane refused there is nothing to report. -/
theorem afterLanes_none {ts : List (Nat × Target)} (h : ∀ t ∈ ts, t.2.stopped = false) (s : State) (path rights : Nat)
    (regs : List Nat) (id : Nat) : s.afterLanes path rights regs id ts = s := by
  simp only [State.afterLanes, refusedOf_nil h, badOf_nil h, List.map_nil, alarmOwners]

/-- The lanes of a word at places of this device perform in order, and nothing is left of it. -/
theorem runLanes_here {f : Form} {e : Effect} {id : Nat} {ts : List (Nat × Target)} (h : ∀ t ∈ ts, t.2.here = true)
    (hnow : e.now = true) (hlate : e.late id ts = none) (s : State) :
    s.runLanes f e id ts = e.after id (ts.foldl (fun s t => e.act id s t.1 t.2) s) := by
  have hstop : ∀ t ∈ ts, t.2.stopped = false := fun t ht => by
    have := h t ht
    cases hx : t.2 <;> simp [hx, Target.stopped, Target.here] at this ⊢
  have hfar : ts.any (fun t => t.2.far) = false := List.any_eq_false.mpr (fun t ht => by
    have := h t ht
    cases hx : t.2 <;> simp [hx, Target.far, Target.here] at this ⊢)
  simp only [State.runLanes, hnow, Bool.true_or, List.filter_true, afterLanes_none hstop, hlate, hfar, Bool.false_eq_true,
    if_false, performLanes_here h]

/-- A word that performs at places of this device: its accesses, between the entry of its operation and its end. -/
theorem exec_lanesAt {i : Instr} {s u : State} {fs : OpndsOf} {f : Form} {a : Code} {e : Effect} {ts : List (Nat × Target)}
    (hrun : memRuns i s fs f a e) (hi : s.issues fs = true) (hl : s.lanesAt f a u ts) (hbefore : e.before = id)
    (hpush : e.push s ts = []) :
    ∃ done, exec i s = .next ((u.counted f done).runLanes f e u.nextId ts).finished := by
  obtain ⟨-, hreach, htr⟩ := hl
  have h := hrun hi (by rw [hbefore]; exact hreach) (by rw [hbefore, id, htr]; exact hpush)
  rw [hbefore] at h
  simp only [id, htr] at h
  exact ⟨_, h⟩

theorem accessed_countMem (s : State) (f : Form) :
    (s.countMem f).gang = s.gang ∧ (s.countMem f).cur = s.cur := by
  unfold State.countMem
  split <;> exact ⟨rfl, rfl⟩

/-- The translation leaves the gang in focus all but its watch. -/
theorem focus_lanesAt {s u : State} {f : Form} {a : Code} {ts : List (Nat × Target)} (hl : s.lanesAt f a u ts) :
    u.gang = { s.gang with watch := u.gang.watch } ∧ u.cur = s.cur := by
  obtain ⟨-, -, htr⟩ := hl
  have hacc := accessed_translateLanes f (s.lanePlaces f a) (s.countMem f)
  rw [htr] at hacc
  obtain ⟨hg, hc⟩ := accessed_countMem s f
  exact ⟨by have := hacc.focus; rwa [hg] at this, hacc.cur.trans hc⟩

theorem storeData_slice (v : Nat) : v % 256 ^ 16 / 256 ^ 0 % 256 ^ 8 = v % 256 ^ 8 := by
  rw [Nat.pow_zero, Nat.div_one, Nat.mod_mod_of_dvd _ (pow_dvd_pow 256 (by omega))]

end Sys2Proof.Machine
end

section
/-! Plain stores: their bytes in the core's view of memory, or in a Barn (07 R174, R177; 08 R218). -/

namespace Sys2Proof.Machine

theorem lineFree_counted {u : State} {core line : Nat} (f : Form) (done : Bool) (h : u.lineFree core line) :
    (u.counted f done).lineFree core line := by
  rw [counted_cases]
  exact h

theorem storedIn_mod {core a n v : Nat} {s t : State} (h : State.storedIn core a n (v % 256 ^ n) s t) :
    State.storedIn core a n v s t := by
  refine ⟨fun b => ?_, h.mem, h.gangs, h.cur, h.cached, h.held⟩
  rw [h.look]
  split
  · exact byteAt_mod v (by omega)
  · rfl

theorem State.storedIn.gang {core a n v : Nat} {s t : State} (h : State.storedIn core a n v s t) : t.gang = s.gang := by
  rw [State.gang, State.gang, State.gangAt, State.gangAt, h.gangs, h.cur]

theorem storedIn_storeAt {q : State} {id l n code v pa : Nat} {lw : Page} (hfree : q.lineFree q.gang.core (pa / 128))
    (ha : pa % 128 + n ≤ 128) : State.storedIn q.gang.core pa n v q (q.storeAt id l n code v (.mem pa lw)) :=
  storedIn_noteStore (storedIn_l1Store _ n v code lw hfree ha) _ _

/-- A plain store at a place of memory, in its one part or its two. -/
theorem storedIn_storeEffect {q : State} {id l n pa : Nat} {lw : Page} {code v : Nat → Nat}
    (hfree : q.lineFree q.gang.core (pa / 128)) (ha : pa % 128 + n ≤ 128) :
    State.storedIn q.gang.core pa n (v l) q ((storeEffect n code v).act id q l (.mem pa lw)) := by
  by_cases hn : n = 16
  · subst hn
    have h1 : State.storedIn q.gang.core pa 8 (v l % 256 ^ 8) q
        (q.storeAt id l 8 (code l) (v l / 256 ^ 0 % 256 ^ 8) (.mem pa lw)) := by
      rw [Nat.pow_zero, Nat.div_one]
      exact storedIn_storeAt hfree (by omega)
    generalize hq : q.storeAt id l 8 (code l) (v l / 256 ^ 0 % 256 ^ 8) (.mem pa lw) = q1 at h1
    have hline : (pa + 8) / 128 = pa / 128 := by omega
    have h2 : State.storedIn q1.gang.core (pa + 8) 8 (v l / 256 ^ 8 % 256 ^ 8) q1
        (q1.storeAt id l 8 (code l) (v l / 256 ^ 8 % 256 ^ 8) (.mem (pa + 8) lw)) :=
      storedIn_storeAt (.inl (by rw [hline, h1.gang]; exact h1.held)) (by omega)
    rw [h1.gang] at h2
    have h := h1.append h2 hline
    simpa only [storeEffect, storeParts, accessParts, if_true, List.foldl_cons, List.foldl_nil, Target.shift, Nat.add_zero, hq] using h
  · have h1 : State.storedIn q.gang.core pa n (v l % 256 ^ n) q
        (q.storeAt id l n (code l) (v l / 256 ^ 0 % 256 ^ n) (.mem pa lw)) := by
      rw [Nat.pow_zero, Nat.div_one]
      exact storedIn_storeAt hfree ha
    have h := storedIn_mod h1
    simpa only [storeEffect, storeParts, accessParts, if_neg hn, List.foldl_cons, List.foldl_nil, Target.shift, Nat.add_zero] using h

/-- What O27 says of one store word. -/
theorem storeWord_mem {i : Instr} {s u : State} {fs : OpndsOf} {f : Form} {a : Code} {l n pa : Nat} {lw : Page} {code v : Nat → Nat}
    (hrun : memRuns i s fs f a (storeEffect n code v)) (hi : s.issues fs = true) (hl : s.laneAt f a l u (.mem pa lw))
    (ha : pa % 128 + n ≤ 128) (hroom : u.roomFor s.gang.core pa) :
    ∃ t, exec i s = .next t ∧ s.past t ∧ t.gang.regs = s.gang.regs ∧
      (∀ b, t.look s.gang.core b = if pa ≤ b ∧ b < pa + n then byteAt (v l) (b - pa) else u.look s.gang.core b) ∧
      t.mem = u.mem ∧ (∀ c, c ≠ s.gang.core → t.coreAt c = u.coreAt c) ∧
      (t.coreAt s.gang.core).banks = (u.coreAt s.gang.core).banks := by
  obtain ⟨done, he⟩ := exec_lanesAt hrun hi hl rfl rfl
  rw [runLanes_here (by simp [Target.here]) rfl rfl] at he
  obtain ⟨hfocus, -⟩ := focus_lanesAt hl
  have hcount := gang_counted u f done
  have hcore : (u.counted f done).gang.core = s.gang.core := by rw [hcount, hfocus]; rfl
  have hst := storedIn_storeEffect (q := u.counted f done) (id := u.nextId) (l := l) (lw := lw) (code := code) (v := v)
    (hcore ▸ lineFree_counted f done hroom) ha
  rw [hcore] at hst
  change exec i s = .next ((storeEffect n code v).act u.nextId (u.counted f done) l (.mem pa lw)).finished at he
  generalize (storeEffect n code v).act u.nextId (u.counted f done) l (.mem pa lw) = w at he hst
  refine ⟨_, he, past_finished _ ?_, ?_, fun b => ?_, ?_, fun c hc => ?_, ?_⟩
  · rw [hst.gang, hcount, hfocus]
  · rw [regs_finished, hst.gang, hcount, hfocus]
  · rw [look_finished, hst.look, look_counted]
  · rw [mem_finished, hst.mem, mem_counted]
  · rw [coreAt_finished, hst.cached.other c hc, coreAt_counted]
  · rw [coreAt_finished, hst.cached.banks, coreAt_counted]

/-- The words of plain stores run. -/
theorem storeWords_run {s : State} {d a : Code} {n : BitVec 6} {sp : BitVec 2} (hn : n ≠ 63) (hpace : s.pace = .now) :
    ∀ p ∈ [((Instr.stb d a n sp), 1), (.sth d a n sp, 2), (.stw d a n sp, 4), (.std d a n sp, 8), (.stq d a n sp, 16)],
      memRuns p.1 s (fixedOps [.vr (max 32 (8 * p.2)) d, .vr 64 a]) { acc := .write, size := p.2, sp := sp.toNat, path := 1 } a
        (storeEffect p.2 (s.gang.nuCode n.toNat) (fun l => s.storeData d p.2 l)) := fun p hp => by
  have h := (loadsAndStoresRun s d a n sp hn).2 p hp
  rwa [hpace] at h

/-- Settles O27: a plain store goes into its line of the L1, in one part or two. -/
theorem storedBytesAndFrame : Obligations.StoredBytesAndFrame := by
  intro s u d a n sp l pa lw hn hpace p hp hi hl ha hroom
  exact storeWord_mem (storeWords_run hn hpace p hp) hi hl ha hroom

end Sys2Proof.Machine
end

section
/-! Stores into a Barn: their bytes stand in the core's store queues (07 R174; 08 R214, R218). -/

namespace Sys2Proof.Machine

theorem queuedByte_append (core a : Nat) (qs rs : List QueuedByte) :
    queuedByte core a (qs ++ rs) = (queuedByte core a rs).or (queuedByte core a qs) := by
  induction qs with
  | nil => simp [queuedByte]
  | cons q qs ih =>
    rw [List.cons_append, queuedByte, queuedByte, ih]
    cases queuedByte core a rs <;> rfl

/-- A note on queued bytes changes none of them. -/
theorem queuedByte_map_note (core a : Nat) (x : StoreNote) (qs : List QueuedByte) :
    queuedByte core a (qs.map (fun q => { q with note := some x })) = queuedByte core a qs := by
  induction qs with
  | nil => rfl
  | cons q qs ih => simp only [List.map_cons, queuedByte, ih]

/-- Distinct bytes of a BARN tile lie at distinct bank addresses. -/
theorem phys_inj {t : Tile} (hn : t.granules.Nodup) (hl : t.level = 0) {i j : Nat} (hi : i < t.granules.length * 128)
    (hj : j < t.granules.length * 128) (h : t.phys i = t.phys j) : i = j := by
  simp only [Tile.phys, hl, granuleSize, if_true] at h
  have hi' : i / 128 < t.granules.length := by omega
  have hj' : j / 128 < t.granules.length := by omega
  rw [List.getD_eq_getElem _ _ hi', List.getD_eq_getElem _ _ hj'] at h
  have hg : t.granules[i / 128] = t.granules[j / 128] := by omega
  have := (hn.getElem_inj_iff).mp hg
  omega

/-- What a store of a core into a Barn leaves: a Barn load of the core finds its bytes; all else is as before. -/
structure State.queuedIn (by_ core : Nat) (t : Tile) (off n v : Nat) (s s' : State) : Prop where
  own : ∀ i, i < n → s'.barnByte by_ core (t.phys (off + i)) = Machine.byteAt v i
  other : ∀ c b, ¬ (c = core ∧ ∃ i, i < n ∧ b = t.phys (off + i)) → s'.barnByte by_ c b = s.barnByte by_ c b
  mem : s'.mem = s.mem
  gangs : s'.gangs = s.gangs
  cur : s'.cur = s.cur
  core : ∀ c, s'.coreAt c = { s.coreAt c with squeue := (s'.coreAt c).squeue }

theorem State.queuedIn.gang {b core : Nat} {t : Tile} {off n v : Nat} {s s' : State} (h : State.queuedIn b core t off n v s s') :
    s'.gang = s.gang := by
  rw [State.gang, State.gang, State.gangAt, State.gangAt, h.gangs, h.cur]

theorem coreAt_barnStore (s : State) (by_ lg core a : Nat) (x : Byte) (c : Nat) :
    (s.barnStore by_ lg core a x).coreAt c = { s.coreAt c with squeue := (s.coreAt c).squeue ++
      if c = by_ then [{ lg := lg, core := core, addr := a, val := x }] else [] } := by
  by_cases h : c = by_
  · subst h
    simp [State.barnStore]
  · rw [State.barnStore, State.coreAt_updCore_other s h]
    simp [h]

theorem barnByte_barnStore (s : State) (by_ lg core a : Nat) (x : Byte) (c b : Nat) :
    (s.barnStore by_ lg core a x).barnByte by_ c b = if c = core ∧ b = a then x else s.barnByte by_ c b := by
  have hbank : (s.barnStore by_ lg core a x).bankByte c b = s.bankByte c b := by
    rw [State.bankByte, coreAt_barnStore]
    rfl
  unfold State.barnByte
  rw [hbank, coreAt_barnStore]
  simp only [if_true, queuedByte_append, queuedByte]
  by_cases h : c = core ∧ b = a
  · obtain ⟨rfl, rfl⟩ := h
    simp
  · have h' : ¬ (core = c ∧ a = b) := fun ⟨h1, h2⟩ => h ⟨h1.symm, h2.symm⟩
    simp [h, h']

theorem queuedIn_tileStore (s : State) (by_ lg core : Nat) {t : Tile} {off n : Nat} (v : Nat) (hn : t.granules.Nodup)
    (hl : t.level = 0) (hb : off + n ≤ t.granules.length * 128) :
    State.queuedIn by_ core t off n v s (s.tileStore by_ lg core t off v n) := by
  induction n with
  | zero => exact ⟨fun i hi => absurd hi (by omega), fun _ _ _ => rfl, rfl, rfl, rfl, fun _ => rfl⟩
  | succ n ih =>
    have h := ih (by omega)
    simp only [State.tileStore]
    refine ⟨fun i hi => ?_, fun c b hcb => ?_, h.mem, h.gangs, h.cur, fun c => ?_⟩
    · rw [barnByte_barnStore]
      by_cases hi' : i = n
      · rw [hi', if_pos ⟨rfl, rfl⟩]
      · rw [if_neg (fun hc => hi' (by have := phys_inj hn hl (by omega) (by omega) hc.2; omega)), h.own i (by omega)]
    · rw [barnByte_barnStore, if_neg (fun hc => hcb ⟨hc.1, n, by omega, hc.2⟩),
        h.other c b (fun ⟨hc, i, hi, hp⟩ => hcb ⟨hc, i, by omega, hp⟩)]
    · rw [coreAt_barnStore, h.core c]

theorem queuedIn_noteQueued {by_ core : Nat} {t : Tile} {off n v : Nat} {s s' : State}
    (h : State.queuedIn by_ core t off n v s s') (m : Nat) (x : StoreNote) :
    State.queuedIn by_ core t off n v s (s'.noteQueued by_ m x) := by
  have hcore : ∀ c, (s'.noteQueued by_ m x).coreAt c =
      { s'.coreAt c with squeue := ((s'.noteQueued by_ m x).coreAt c).squeue } := fun c => by
    by_cases hc : c = by_
    · subst hc
      simp [State.noteQueued]
    · rw [State.noteQueued, State.coreAt_updCore_other s' hc]
  have hbyte : ∀ c b, (s'.noteQueued by_ m x).barnByte by_ c b = s'.barnByte by_ c b := fun c b => by
    have hq : queuedByte c b ((s'.noteQueued by_ m x).coreAt by_).squeue = queuedByte c b (s'.coreAt by_).squeue := by
      rw [State.noteQueued, State.coreAt_updCore]
      simp only [queuedByte_append, queuedByte_map_note]
      rw [← queuedByte_append, List.take_append_drop]
    unfold State.barnByte State.bankByte
    rw [hq, hcore]
  refine ⟨fun i hi => (hbyte _ _).trans (h.own i hi), fun c b hcb => (hbyte c b).trans (h.other c b hcb), h.mem, h.gangs, h.cur,
    fun c => ?_⟩
  rw [hcore, h.core c]

theorem State.queuedIn.append {by_ core : Nat} {t : Tile} {off n m v : Nat} {s s1 s2 : State} (hn : t.granules.Nodup)
    (hl : t.level = 0) (hb : off + (n + m) ≤ t.granules.length * 128)
    (h1 : State.queuedIn by_ core t off n (v % 256 ^ n) s s1)
    (h2 : State.queuedIn by_ core t (off + n) m (v / 256 ^ n % 256 ^ m) s1 s2) :
    State.queuedIn by_ core t off (n + m) v s s2 := by
  refine ⟨fun i hi => ?_, fun c b hcb => ?_, h2.mem.trans h1.mem, h2.gangs.trans h1.gangs, h2.cur.trans h1.cur,
    fun c => by rw [h2.core, h1.core]⟩
  · by_cases hi' : i < n
    · rw [h2.other _ _ (fun ⟨_, j, hj, hp⟩ => by have := phys_inj hn hl (by omega) (by omega) hp; omega), h1.own i hi',
        byteAt_mod v hi']
    · have hpow : (256 : Nat) ^ i = 256 ^ n * 256 ^ (i - n) := by rw [← Nat.pow_add]; congr 1; omega
      have hoff : off + i = off + n + (i - n) := by omega
      rw [hoff, h2.own _ (by omega), byteAt_mod _ (by omega), Machine.byteAt, Machine.byteAt, Nat.div_div_eq_div_mul, ← hpow]
  · rw [h2.other c b (fun ⟨hc, i, hi, hp⟩ => hcb ⟨hc, n + i, by omega, by rw [← Nat.add_assoc]; exact hp⟩),
      h1.other c b (fun ⟨hc, i, hi, hp⟩ => hcb ⟨hc, i, by omega, hp⟩)]

theorem queuedIn_mod {by_ core : Nat} {t : Tile} {off n v : Nat} {s s' : State}
    (h : State.queuedIn by_ core t off n (v % 256 ^ n) s s') : State.queuedIn by_ core t off n v s s' :=
  ⟨fun i hi => (h.own i hi).trans (byteAt_mod v hi), h.other, h.mem, h.gangs, h.cur, h.core⟩

/-- A plain store at a place of a Barn, in its one part or its two. -/
theorem queuedIn_storeEffect {q : State} {id l n core off : Nat} {t : Tile} {code v : Nat → Nat} (hn : t.granules.Nodup)
    (hl : t.level = 0) (hb : off + n ≤ t.granules.length * 128) :
    State.queuedIn q.gang.core core t off n (v l) q ((storeEffect n code v).act id q l (.tile core t off)) := by
  have part : ∀ (q : State) (off n x : Nat), off + n ≤ t.granules.length * 128 →
      State.queuedIn q.gang.core core t off n x q (q.storeAt id l n (code l) x (.tile core t off)) := fun q off n x hb =>
    queuedIn_noteQueued (queuedIn_tileStore q q.gang.core q.gang.lg core x hn hl hb) n _
  by_cases h16 : n = 16
  · subst h16
    have h1 := part q off 8 (v l / 256 ^ 0 % 256 ^ 8) (by omega)
    generalize hq : q.storeAt id l 8 (code l) (v l / 256 ^ 0 % 256 ^ 8) (.tile core t off) = q1 at h1
    have h2 := part q1 (off + 8) 8 (v l / 256 ^ 8 % 256 ^ 8) (by omega)
    rw [h1.gang] at h2
    rw [Nat.pow_zero, Nat.div_one] at h1
    have h := h1.append hn hl hb h2
    simpa only [storeEffect, storeParts, accessParts, if_true, List.foldl_cons, List.foldl_nil, Target.shift, Nat.add_zero, hq] using h
  · have h1 := part q off n (v l / 256 ^ 0 % 256 ^ n) hb
    have h := queuedIn_mod (v := v l) (by rw [Nat.pow_zero, Nat.div_one] at h1; exact h1)
    simpa only [storeEffect, storeParts, accessParts, if_neg h16, List.foldl_cons, List.foldl_nil, Target.shift, Nat.add_zero,
      Nat.pow_zero, Nat.div_one] using h

/-- Settles O28: a Barn store queues its bytes on the core, in one part or two. -/
theorem barnStoreAndFrame : Obligations.BarnStoreAndFrame := by
  intro s u d a n sp l core off tl hn hnodup hlevel hpace p hp hb hi hl
  obtain ⟨done, he⟩ := exec_lanesAt (storeWords_run hn hpace p hp) hi hl rfl rfl
  rw [runLanes_here (by simp [Target.here]) rfl rfl] at he
  obtain ⟨hfocus, -⟩ := focus_lanesAt hl
  generalize hf : ({ acc := .write, size := p.2, sp := sp.toNat, path := 1 } : Form) = f at he hl
  have hcount := gang_counted u f done
  have hcore : (u.counted f done).gang.core = s.gang.core := by rw [hcount, hfocus]; rfl
  have hq := queuedIn_storeEffect (q := u.counted f done) (id := u.nextId) (l := l) (core := core)
    (code := s.gang.nuCode n.toNat) (v := fun l => s.storeData d p.2 l) hnodup hlevel hb
  rw [hcore] at hq
  change exec p.1 s = .next ((storeEffect p.2 (s.gang.nuCode n.toNat) (fun l => s.storeData d p.2 l)).act u.nextId
    (u.counted f done) l (.tile core tl off)).finished at he
  generalize (storeEffect p.2 (s.gang.nuCode n.toNat) (fun l => s.storeData d p.2 l)).act u.nextId
    (u.counted f done) l (.tile core tl off) = w at he hq
  refine ⟨_, he, past_finished _ ?_, ?_, ?_, fun c => ?_, fun i hi => ?_, fun c b hcb => ?_⟩
  · rw [hq.gang, hcount, hfocus]
  · rw [regs_finished, hq.gang, hcount, hfocus]
  · rw [mem_finished, hq.mem, mem_counted]
  · rw [coreAt_finished, hq.core, coreAt_counted]
    exact ⟨rfl, rfl⟩
  · rw [barnByte_finished, hq.own i hi]
  · rw [barnByte_finished, hq.other c b hcb, barnByte_counted]

end Sys2Proof.Machine
end

section
/-! What a load finds: the fill of its line, and the registers that take the value (07 R177, R194, R202; 08 R218). -/

namespace Sys2Proof.Machine

/-! ### What an eviction leaves of another line -/

theorem promo_dropped_writeBackAll (s : State) (core b : Nat) :
    (s.writeBackAll core).byteAt b = (s.writeBackLines core (s.l1Lines core)).byteAt b := rfl

/-- A line that a core's L1 does not hold. -/
theorem byteAt_writeBackOne_absent {s : State} {core b : Nat} (h : s.l1Line core (b / 128) = none) (line : Nat) :
    (s.writeBackOne core line).byteAt b = s.byteAt b := by
  rw [byteAt_writeBackOne]
  split
  · next x hx => exact if_neg (fun ⟨_, hl, _⟩ => by rw [hl, hx] at h; cases h)
  · rfl

theorem l1Line_writeBackOne_absent {s : State} {core l : Nat} (h : s.l1Line core l = none) (line : Nat) :
    (s.writeBackOne core line).l1Line core l = none := by
  rw [l1Line_writeBackOne, h]
  split <;> rfl

theorem byteAt_writeBackLines_absent {core b : Nat} (ls : List Nat) {s : State} (h : s.l1Line core (b / 128) = none) :
    (s.writeBackLines core ls).byteAt b = s.byteAt b := by
  induction ls generalizing s with
  | nil => rfl
  | cons l ls ih => exact (ih (l1Line_writeBackOne_absent h l)).trans (byteAt_writeBackOne_absent h l)

theorem byteAt_drainQueues (s : State) (core b : Nat) : (s.drainQueues core).byteAt b = s.byteAt b := by
  rw [State.byteAt, mem_drainQueues, State.byteAt]

theorem byteAt_flushLine_absent {s : State} {core b : Nat} (h : s.l1Line core (b / 128) = none) (line : Nat) :
    (s.flushLine core line).byteAt b = s.byteAt b := by
  show (s.writeBack core line).byteAt b = s.byteAt b
  unfold State.writeBack
  split
  · rw [State.pushCore, promo_dropped_writeBackAll, byteAt_writeBackLines_absent _ (by rw [l1Line_drainQueues, h]),
      byteAt_drainQueues]
  · exact byteAt_writeBackOne_absent h line

theorem l1Line_flushLine_absent {s : State} {core l : Nat} (h : s.l1Line core l = none) (line : Nat) :
    (s.flushLine core line).l1Line core l = none := by
  rw [State.flushLine, l1Line_setLine]
  split
  · rfl
  · unfold State.writeBack
    split
    · rw [l1Line_pushCore, h]
      rfl
    · exact l1Line_writeBackOne_absent h line

theorem l1Line_flushLine_other {s : State} {core c : Nat} (hc : c ≠ core) (line l : Nat) :
    (s.flushLine core line).l1Line c l = s.l1Line c l := by
  rw [State.flushLine, l1Line_setLine, if_neg (fun h => hc h.1)]
  unfold State.writeBack
  split
  · rw [State.pushCore, State.l1Line, (cachedOnly_writeBackAll _ core).other c hc]
    exact l1Line_drainQueues s core c l
  · rw [State.l1Line, (cachedOnly_writeBackOne s core line).other c hc, State.l1Line]

/-! ### The clusters -/

theorem clusters_drainList (qs : List QueuedByte) (s : State) : (s.drainList qs).clusters = s.clusters := by
  induction qs generalizing s with
  | nil => rfl
  | cons q qs ih => exact ih _

theorem clusters_putDirty (s : State) (core line : Nat) (x : L1Line) : (s.putDirty core line x).clusters = s.clusters := by
  by_cases h : isFar line = true
  · obtain ⟨m, hm⟩ := putDirty_far (s := s) (core := core) (x := x) h
    exact hm ▸ (signalled_send _ m).clusters
  · obtain ⟨bad, hb⟩ := putDirty_local (s := s) (core := core) (x := x) h
    exact hb ▸ (signalled_fireWatches _ line).clusters

theorem clusters_writeBackOne (s : State) (core line : Nat) : (s.writeBackOne core line).clusters = s.clusters := by
  unfold State.writeBackOne
  split
  · rfl
  · split
    · rfl
    · exact clusters_putDirty s core line _

theorem clusters_writeBackLines (core : Nat) (ls : List Nat) (s : State) : (s.writeBackLines core ls).clusters = s.clusters := by
  induction ls generalizing s with
  | nil => rfl
  | cons l ls ih => exact (ih _).trans (clusters_writeBackOne s core l)

theorem clusters_flushLine (s : State) (core line : Nat) : (s.flushLine core line).clusters = s.clusters := by
  show (s.writeBack core line).clusters = s.clusters
  unfold State.writeBack
  split
  · exact (clusters_writeBackLines core _ (s.drainQueues core)).trans (clusters_drainList _ s)
  · exact clusters_writeBackOne s core line

/-! ### The peer that a fill probes -/

/-- The probed peer rests on the clusters, the dies and the lines of that number in the L1s. -/
theorem probe_congr {s t : State} (hcl : t.clusters = s.clusters) (hd : t.dies = s.dies) {line : Nat}
    (hl : ∀ c, t.l1Line c line = s.l1Line c line) (core : Nat) (page : Page) :
    (t.probe core line page).2 = (s.probe core line page).2 := by
  have hreeve : ∀ d, t.reeveCore d = s.reeveCore d := fun d => by rw [State.reeveCore, State.dieAt, hd]; rfl
  have hpeer : ∀ cl, t.peerLine cl line = s.peerLine cl line := fun cl => by
    unfold State.peerLine State.peerCores
    simp only [hl, hreeve]
  unfold State.probe State.clusterAt
  simp only [hreeve, hcl, hpeer]
  split
  · rfl
  · split
    · rfl
    · split
      · rfl
      · split <;> rfl

/-! ### Merged lines -/

theorem getLsbD_mergeFrom (x : L1Line) (f : Nat → Byte) (n : Nat) (hn : n ≤ 128) {i j : Nat} (hi : i < 128) (hj : j < 8) :
    (x.mergeFrom f n).getLsbD (8 * i + j) =
      (decide (i < n) && (if x.valid.getLsbD i = true then x.byte i else f i).getLsbD j) := by
  induction n with
  | zero => simp [L1Line.mergeFrom]
  | succ n ih =>
    rw [L1Line.mergeFrom, BitVec.getLsbD_or, ih (by omega), BitVec.getLsbD_shiftLeft, BitVec.getLsbD_setWidth]
    rcases Nat.lt_trichotomy i n with h | h | h
    · have h1 : 8 * i + j < 8 * n := by omega
      simp [h, h1, show i < n + 1 by omega]
    · subst h
      have h1 : ¬ 8 * i + j < 8 * i := by omega
      have h2 : 8 * i + j - 8 * i = j := by omega
      simp [h2, show 8 * i + j < 1024 by omega, show j < 1024 by omega]
    · have h1 : ¬ i < n := by omega
      have h2 : ¬ i < n + 1 := by omega
      have h3 : 8 ≤ 8 * i + j - 8 * n := by omega
      simp only [h1, h2, decide_false, Bool.false_and, Bool.false_or, BitVec.getLsbD_of_ge _ _ h3, Bool.and_false]

theorem byte_mergeFrom (x : L1Line) (f : Nat → Byte) (v : BitVec 128) {i : Nat} (hi : i < 128) :
    ({ x with data := x.mergeFrom f 128, valid := v } : L1Line).byte i = if x.valid.getLsbD i = true then x.byte i else f i := by
  apply BitVec.eq_of_getLsbD_eq
  intro j hj
  rw [L1Line.getLsbD_byte _ _ _ hj]
  show (x.mergeFrom f 128).getLsbD _ = _
  rw [getLsbD_mergeFrom x f 128 (by omega) hi hj]
  simp [hi]

end Sys2Proof.Machine
end

section
/-! A load through the L1, and the registers that take its value (07 R177, R194, R202; 08 R214, R218). -/

namespace Sys2Proof.Machine

theorem allOnes_bit (b : Nat) : (BitVec.allOnes 128).getLsbD (b % 128) = true := by
  rw [BitVec.getLsbD_allOnes]
  exact decide_eq_true (Nat.mod_lt _ (by omega))

/-- The bytes of its line that the core's view of memory gives once a line has been filled. -/
structure State.filledIn (core pa : Nat) (page : Page) (s t : State) : Prop where
  line : ∃ x, t.l1Line core (pa / 128) = some x ∧ x.valid = BitVec.allOnes 128 ∧
    ∀ b, b / 128 = pa / 128 → x.byte (b % 128) = s.filled core pa page b
  acc : s.accessed t

theorem State.filledIn.look {core pa : Nat} {page : Page} {s t : State} (h : State.filledIn core pa page s t) {b : Nat}
    (hb : b / 128 = pa / 128) : t.look core b = s.filled core pa page b := by
  obtain ⟨x, hx, hv, hbyte⟩ := h.line
  rw [look_of_line (hb ▸ hx), L1Line.lookIn, hv, allOnes_bit, if_pos rfl, hbyte b hb]

/-- What an access of a wholly valid line finds is that line. -/
theorem filled_of_valid {s : State} {core pa b : Nat} {x : L1Line} (page : Page) (hx : s.l1Line core (pa / 128) = some x)
    (hv : x.valid = BitVec.allOnes 128) : s.filled core pa page b = x.byte (b % 128) := by
  unfold State.filled
  rw [hx]
  cases (s.probe core (pa / 128) page).2 <;> simp only [hv, allOnes_bit, if_true]

theorem accessed_l1Line_setLine (s : State) (core line : Nat) (x : L1Line) :
    (s.setLine core line (some x)).l1Line core line = some x := by
  rw [l1Line_setLine, if_pos ⟨rfl, rfl⟩]

/-- The line of an access that the L1 does not hold: it is blank, and what made room for it changed none of its home bytes. -/
theorem allocLine_absent {s : State} {core wid line code : Nat} {page : Page} (h : s.l1Line core line = none) :
    (s.allocLine core wid line code page).2.valid = 0 ∧
      (∀ b, b / 128 = line → (s.allocLine core wid line code page).1.byteAt b = s.byteAt b) ∧
      (∀ c, (s.allocLine core wid line code page).1.l1Line c line = s.l1Line c line) ∧
      (s.allocLine core wid line code page).1.clusters = s.clusters := by
  simp only [State.allocLine, h]
  refine ⟨rfl, fun b hb => ?_, fun c => ?_, ?_⟩ <;> unfold State.evict
  · split
    · exact byteAt_flushLine_absent (hb ▸ h) _
    · rfl
  · split
    · by_cases hc : c = core
      · rw [hc, l1Line_flushLine_absent h, h]
      · exact l1Line_flushLine_other hc _ _
    · rfl
  · split
    · exact clusters_flushLine _ _ _
    · rfl

theorem allocLine_held {s : State} {core wid line code : Nat} {page : Page} {x : L1Line} (h : s.l1Line core line = some x) :
    s.allocLine core wid line code page = (s, s.touch wid code x) := by
  simp only [State.allocLine, h]

/-- After a load the whole line is valid, with the core's own bytes, the peer's, or the home's (07 R202). -/
theorem filledIn_l1Fill (s : State) (core wid pa code : Nat) (page : Page) :
    State.filledIn core pa page s (s.l1Fill core wid (pa / 128) code page) := by
  refine ⟨?_, accessed_l1Fill s core wid (pa / 128) code page⟩
  have hprobe : ((s.allocLine core wid (pa / 128) code page).1.probe core (pa / 128) page).2 = (s.probe core (pa / 128) page).2 := by
    cases hx : s.l1Line core (pa / 128) with
    | some x => rw [allocLine_held hx]
    | none =>
      obtain ⟨-, -, hline, hcl⟩ := allocLine_absent (wid := wid) (code := code) (page := page) hx
      exact probe_congr hcl (accessed_allocLine s core wid (pa / 128) code page).dies hline core page
  have hbytes : ∀ b, b / 128 = pa / 128 → s.filled core pa page b =
      if (s.allocLine core wid (pa / 128) code page).2.valid.getLsbD (b % 128) = true then
        (s.allocLine core wid (pa / 128) code page).2.byte (b % 128)
      else match (s.probe core (pa / 128) page).2 with
        | some y => y.byte (b % 128)
        | none => (s.allocLine core wid (pa / 128) code page).1.byteAt b := fun b hb => by
    unfold State.filled
    cases hx : s.l1Line core (pa / 128) with
    | some x =>
      rw [allocLine_held hx]
      cases (s.probe core (pa / 128) page).2 <;> rfl
    | none =>
      obtain ⟨hv, hbyte, -, -⟩ := allocLine_absent (wid := wid) (code := code) (page := page) hx
      rw [hv, hbyte b hb]
      cases (s.probe core (pa / 128) page).2 <;> simp
  unfold State.l1Fill
  dsimp only
  generalize s.allocLine core wid (pa / 128) code page = r at hprobe hbytes ⊢
  obtain ⟨q, x⟩ := r
  dsimp only at hprobe hbytes ⊢
  by_cases hv : x.valid = BitVec.allOnes 128
  · rw [if_pos hv]
    refine ⟨x, accessed_l1Line_setLine _ _ _ _, hv, fun b hb => ?_⟩
    rw [hbytes b hb, hv, allOnes_bit, if_pos rfl]
  · rw [if_neg hv, hprobe]
    cases hy : (s.probe core (pa / 128) page).2 with
    | some y =>
      refine ⟨_, accessed_l1Line_setLine _ _ _ _, rfl, fun b hb => ?_⟩
      rw [byte_mergeFrom _ _ _ (Nat.mod_lt _ (by omega)), hbytes b hb, hy]
    | none =>
      refine ⟨_, accessed_l1Line_setLine _ _ _ _, rfl, fun b hb => ?_⟩
      rw [byte_mergeFrom _ _ _ (Nat.mod_lt _ (by omega)), hbytes b hb, hy]
      have : pa / 128 * 128 + b % 128 = b := by omega
      rw [this]

theorem readLE_congr {f g : Nat → Byte} {a n : Nat} (h : ∀ b, a ≤ b → b < a + n → f b = g b) : readLE f a n = readLE g a n := by
  induction n generalizing a with
  | zero => rfl
  | succ n ih => rw [readLE, readLE, h a (by omega) (by omega), ih (fun b h1 h2 => h b (by omega) (by omega))]

/-- The value of a plain load within one line. -/
theorem plainLoad_value {s : State} {core wid pa n code : Nat} {page : Page} (h : pa % 128 + n ≤ 128) :
    (s.plainLoad core wid pa n code page).2 = readLE (s.filled core pa page) pa n :=
  readLE_congr (fun b h1 h2 => (filledIn_l1Fill s core wid pa code page).look (by omega))

theorem readLE_lt (f : Nat → Byte) (a n : Nat) : readLE f a n < 256 ^ n := by
  induction n generalizing a with
  | zero => simp [readLE]
  | succ n ih =>
    have := ih (a + 1)
    have hb := (f a).isLt
    rw [readLE, Nat.pow_succ]
    omega

theorem readLE_add (f : Nat → Byte) (a n m : Nat) : readLE f a (n + m) = readLE f a n + 256 ^ n * readLE f (a + n) m := by
  induction n generalizing a with
  | zero => simp [readLE]
  | succ n ih =>
    rw [Nat.add_right_comm, readLE, readLE, ih, Nat.pow_succ, show a + 1 + n = a + (n + 1) by omega]
    ring

/-! ### The registers of a load -/

/-- Only vector registers of the gang change. -/
theorem Gang.lanesOnly.trans {g h k : Gang} (h1 : g.lanesOnly h) (h2 : h.lanesOnly k) : g.lanesOnly k := by
  refine ⟨h2.1.trans h1.1, ?_⟩
  rw [h2.2, h1.2]

theorem lanesOnly_putGroup (g : Gang) (d : Code) (f : Nat → Bool) (x : Nat → Nat → Word) (n : Nat) :
    g.lanesOnly (g.putGroup d f x n) := by
  induction n with
  | zero => exact Gang.lanesOnly_refl g
  | succ n ih =>
    simp only [Gang.putGroup]
    split
    · exact Gang.lanesOnly_refl g
    · exact ih.writeLanes _ _ _

theorem lanesOnly_putLoad (g : Gang) (d : Code) (n : Nat) (sg : Bool) (l v : Nat) : g.lanesOnly (g.putLoad d n sg l v) := by
  unfold Gang.putLoad
  dsimp only
  split
  · unfold Gang.putV32
    split
    · exact Gang.lanesOnly_refl g
    · exact (Gang.lanesOnly_refl g).writeLanes _ _ _
  · exact lanesOnly_putGroup g d _ _ _

theorem v_putGroup (g : Gang) {d : Code} (hd : d ≠ 0xF0) (f : Nat → Bool) (x : Nat → Nat → Word) (n r k : Nat) (hk : k < 32) :
    (g.putGroup d f x n).v r k =
      if f k = true ∧ d.toNat ≤ r ∧ r < d.toNat + n then x (r - d.toNat) k else g.v r k := by
  induction n with
  | zero => rw [if_neg (by omega)]; rfl
  | succ n ih =>
    rw [Gang.putGroup, if_neg hd, Gang.v_writeLanes _ _ _ _ _ _ hk, ih]
    by_cases hr : r = d.toNat + n
    · subst hr
      by_cases hf : f k = true <;> simp [hf]
    · by_cases hf : f k = true ∧ d.toNat ≤ r ∧ r < d.toNat + n
      · rw [if_neg (fun h => hr h.1), if_pos hf, if_pos ⟨hf.1, hf.2.1, by omega⟩]
      · rw [if_neg (fun h => hr h.1), if_neg hf, if_neg (fun h => hf ⟨h.1, h.2.1, by omega⟩)]

/-- Register `j` of a loaded value. -/
def loadWord (n : Nat) (sg : Bool) (v j : Nat) : Word := if n ≤ 4 then extendLoad n sg v else BitVec.ofNat 32 (v / 2 ^ (32 * j))

theorem v_putLoad (g : Gang) {d : Code} (hd : d ≠ 0xF0) (n : Nat) (sg : Bool) (l v r k : Nat) (hk : k < 32) :
    (g.putLoad d n sg l v).v r k =
      if k = l ∧ d.toNat ≤ r ∧ r < d.toNat + max 1 (n / 4) then loadWord n sg v (r - d.toNat) else g.v r k := by
  unfold Gang.putLoad loadWord
  by_cases hn : n ≤ 4
  · have hmax : max 1 (n / 4) = 1 := by omega
    simp only [hn, if_true, hmax]
    rw [putV32_eq _ _ _ _ _ _ hk]
    refine if_congr ⟨fun ⟨_, h1, h2⟩ => ⟨by simpa using h1, by omega, by omega⟩, fun ⟨h1, h2, h3⟩ => ⟨hd, by simpa using h1, by omega⟩⟩
      rfl rfl
  · have hmax : max 1 (n / 4) = n / 4 := by omega
    simp only [hn, if_false, hmax]
    rw [v_putGroup g hd _ _ _ _ _ hk]
    simp only [decide_eq_true_eq]

end Sys2Proof.Machine
end

section
/-! Plain loads: the value of their lane (07 R177, R202; 08 R214, R218). -/

namespace Sys2Proof.Machine

theorem codeAfter_zero (d : Code) : codeAfter d 0 = d := by
  unfold codeAfter
  split <;> simp

/-- `g` holds the value `v` of `n` bytes in lane `l` of the registers from `d` on, and nothing else of its vector registers
differs from `g0`. -/
def Gang.tookLoad (g0 g : Gang) (d : Code) (n : Nat) (sg : Bool) (l v : Nat) : Prop :=
  g.flow = g0.flow ∧ ∀ r k, k < 32 → g.v r k =
    if k = l ∧ d.toNat ≤ r ∧ r < d.toNat + max 1 (n / 4) then loadWord n sg v (r - d.toNat) else g0.v r k

theorem tookLoad_putLoad {g0 g : Gang} (hflow : g.flow = g0.flow) (hregs : g.regs = g0.regs) {d : Code} (hd : d ≠ 0xF0)
    (n : Nat) (sg : Bool) (l v : Nat) : g0.tookLoad (g.putLoad d n sg l v) d n sg l v := by
  refine ⟨?_, fun r k hk => ?_⟩
  · rw [(lanesOnly_putLoad g d n sg l v).2, ← hflow]
  · rw [v_putLoad g hd _ _ _ _ _ _ hk, Gang.v, Gang.v, hregs]

/-- The two halves of a quad's value, one after the other. -/
theorem tookLoad_halves {g0 g1 g2 : Gang} {d : Code} {sg : Bool} {l v : Nat} (hd : d.toNat < 0xEE)
    (h1 : g0.tookLoad g1 d 8 sg l (v % 256 ^ 8)) (h2 : g1.tookLoad g2 (codeAfter d 2) 8 sg l (v / 256 ^ 8)) :
    g0.tookLoad g2 d 16 sg l v := by
  refine ⟨h2.1.trans h1.1, fun r k hk => ?_⟩
  have hc : (codeAfter d 2).toNat = d.toNat + 2 := by
    rw [codeAfter, if_pos (by omega), BitVec.toNat_add]
    simp
    omega
  have hw : ∀ x j, loadWord 8 sg x j = BitVec.ofNat 32 (x / 2 ^ (32 * j)) := fun x j => if_neg (by omega)
  have hq : ∀ x j, loadWord 16 sg x j = BitVec.ofNat 32 (x / 2 ^ (32 * j)) := fun x j => if_neg (by omega)
  have hhi : v / 256 ^ 8 / 2 ^ (32 * (r - (d.toNat + 2))) = v / (256 ^ 8 * 2 ^ (32 * (r - (d.toNat + 2)))) :=
    Nat.div_div_eq_div_mul _ _ _
  rw [h2.2 r k hk, h1.2 r k hk, hc, hw, hw, hq]
  by_cases hk' : k = l
  · subst hk'
    simp only [true_and, Nat.reduceDiv, show max 1 2 = 2 from rfl, show max 1 4 = 4 from rfl]
    by_cases hr2 : d.toNat + 2 ≤ r ∧ r < d.toNat + 2 + 2
    · rw [if_pos hr2, if_pos ⟨by omega, by omega⟩, hhi, show (256 : Nat) ^ 8 = 2 ^ 64 by norm_num, ← Nat.pow_add,
        show 64 + 32 * (r - (d.toNat + 2)) = 32 * (r - d.toNat) by omega]
    · by_cases hr1 : d.toNat ≤ r ∧ r < d.toNat + 2
      · rw [if_neg hr2, if_pos hr1, if_pos ⟨by omega, by omega⟩]
        apply BitVec.eq_of_toNat_eq
        have hlow : v % 256 ^ 8 / 2 ^ (32 * (r - d.toNat)) % 2 ^ 32 = v / 2 ^ (32 * (r - d.toNat)) % 2 ^ 32 := by
          rcases (by omega : r - d.toNat = 0 ∨ r - d.toNat = 1) with h | h <;> rw [h] <;> norm_num
          omega
        simpa only [BitVec.toNat_ofNat] using hlow
      · rw [if_neg hr2, if_neg hr1, if_neg (by omega)]
  · simp [hk']

/-- A load at a place: the state that it leaves, and the value. -/
def State.loadsAt (q : State) (n : Nat) (tg : Target) (v : Nat) : Prop :=
  match tg with
  | .mem pa page => pa % 128 + n ≤ 128 ∧ v = readLE (q.filled q.gang.core pa page) pa n
  | .tile c t off => v = readLE (fun i => q.barnByte q.gang.core c (t.phys i)) off n
  | _ => False

theorem loadsAt_mem {q : State} {n v pa : Nat} {page : Page} : q.loadsAt n (.mem pa page) v ↔
    pa % 128 + n ≤ 128 ∧ v = readLE (q.filled q.gang.core pa page) pa n := Iff.rfl

theorem loadAt_value {q : State} {n v : Nat} {tg : Target} (h : q.loadsAt n tg v) (code : Nat) :
    (q.loadAt n code tg).2 = v ∧ q.accessed (q.loadAt n code tg).1 := by
  cases tg with
  | mem pa page =>
    obtain ⟨hpa, rfl⟩ := h
    exact ⟨plainLoad_value hpa, accessed_plainLoad _ _ _ _ _ _ _⟩
  | tile c t off =>
    obtain rfl := h
    exact ⟨rfl, State.accessed.refl q⟩
  | remote _ _ => exact h.elim
  | refused _ _ => exact h.elim
  | bad _ => exact h.elim

/-- One part of a load, at the state that an earlier part has left. -/
theorem tookLoad_part {q : State} {n v : Nat} {tg : Target} (h : q.loadsAt n tg v) (code : Nat) {d : Code} (hd : d ≠ 0xF0)
    (sg : Bool) (l : Nat) :
    q.gang.tookLoad (((q.loadAt n code tg).1.updGang (fun g => g.putLoad d n sg l (q.loadAt n code tg).2)).gang) d n sg l v := by
  obtain ⟨hv, hacc⟩ := loadAt_value h code
  rw [State.gang_updGang, hv]
  exact tookLoad_putLoad hacc.flow hacc.regs hd n sg l v

/-- The second half of a quad is found where the first was. -/
theorem loadsAt_half {q : State} {v : Nat} {tg : Target} (h : q.loadsAt 16 tg v) (code : Nat) (f : Gang → Gang)
    (hf : ∀ g, (f g).core = g.core) :
    q.loadsAt 8 tg (v % 256 ^ 8) ∧ ((q.loadAt 8 code tg).1.updGang f).loadsAt 8 (tg.shift 8) (v / 256 ^ 8) := by
  have hsplit : ∀ (g : Nat → Byte) a, readLE g a 16 % 256 ^ 8 = readLE g a 8 ∧ readLE g a 16 / 256 ^ 8 = readLE g (a + 8) 8 :=
    fun g a => by
      have hlt := readLE_lt g a 8
      rw [readLE_add g a 8 8, Nat.add_mul_mod_self_left, Nat.mod_eq_of_lt hlt, Nat.add_mul_div_left _ _ (by positivity),
        Nat.div_eq_of_lt hlt, Nat.zero_add]
      exact ⟨rfl, rfl⟩
  cases tg with
  | mem pa page =>
    rw [loadsAt_mem] at h
    obtain ⟨hpa, hv⟩ := h
    rw [hv, (hsplit _ _).1, (hsplit _ _).2, Target.shift, loadsAt_mem, loadsAt_mem]
    refine ⟨⟨by omega, rfl⟩, by omega, readLE_congr (fun b h1 h2 => ?_)⟩
    have hline : (pa + 8) / 128 = pa / 128 := by omega
    have hfill := filledIn_l1Fill q q.gang.core q.gang.wid pa code page
    obtain ⟨x, hx, hvalid, hbyte⟩ := hfill.line
    have hcore : ((q.loadAt 8 code (.mem pa page)).1.updGang f).gang.core = q.gang.core := by
      rw [State.gang_updGang, hf]
      exact hfill.acc.core
    rw [hcore]
    refine ((filled_of_valid page (core := q.gang.core) (pa := pa + 8) ?_ hvalid).trans (hbyte b (by omega))).symm
    rw [hline]
    exact hx
  | tile c t off =>
    have hv : v = readLE (fun i => q.barnByte q.gang.core c (t.phys i)) off 16 := h
    rw [hv, (hsplit _ _).1, (hsplit _ _).2]
    refine ⟨rfl, ?_⟩
    show _ = readLE (fun i => State.barnByte _ (State.gang (q.updGang f)).core c (t.phys i)) (off + 8) 8
    rw [State.gang_updGang, hf]
    rfl
  | remote _ _ => exact h.elim
  | refused _ _ => exact h.elim
  | bad _ => exact h.elim

/-- A plain load at a place, in its one part or its two. -/
theorem tookLoad_loadEffect {q : State} {n v id : Nat} {tg : Target} (h : q.loadsAt n tg v) {d : Code} (hd : d.toNat < 0xF0)
    (hq : n = 16 → d.toNat % 4 = 0) (sg : Bool) (code : Nat → Nat) (l : Nat) :
    q.gang.tookLoad ((loadEffect d n sg code).act id q l tg).gang d n sg l v := by
  have hne : d ≠ 0xF0 := fun hc => by rw [hc] at hd; simp at hd
  by_cases hn : n = 16
  · subst hn
    have hd4 := hq rfl
    have hc2 : codeAfter d 2 ≠ 0xF0 := fun hc => by
      have h2 : (codeAfter d 2).toNat = d.toNat + 2 := by
        rw [codeAfter, if_pos hd, BitVec.toNat_add]
        simp
        omega
      rw [hc] at h2
      simp at h2
      omega
    have hcore : ∀ g : Gang, (g.putLoad d 8 sg l (q.loadAt 8 (code l) tg).2).core = g.core := fun g => by
      rw [(lanesOnly_putLoad g d 8 sg l _).2]
      rfl
    obtain ⟨hlo, hhi⟩ := loadsAt_half h (code l) (fun g => g.putLoad d 8 sg l (q.loadAt 8 (code l) tg).2) hcore
    have h1 := tookLoad_part hlo (code l) hne sg l
    have h2 := tookLoad_part hhi (code l) hc2 sg l
    have h := tookLoad_halves (by omega) h1 h2
    have ht : tg.shift 0 = tg := by cases tg <;> rfl
    simpa only [loadEffect, loadParts, accessParts, if_true, List.foldl_cons, List.foldl_nil, codeAfter_zero, ht] using h
  · have h1 := tookLoad_part h (code l) hne sg l
    have ht : tg.shift 0 = tg := by cases tg <;> rfl
    simpa only [loadEffect, loadParts, accessParts, if_neg hn, List.foldl_cons, List.foldl_nil, codeAfter_zero, ht] using h1

/-- The words of plain loads run. -/
theorem loadWords_run {s : State} {d a : Code} {n : BitVec 6} {sp : BitVec 2} (hn : n ≠ 63) (hpace : s.pace = .now) :
    ∀ p ∈ [((Instr.ldb d a n sp), 1, false), (.ldbs d a n sp, 1, true), (.ldh d a n sp, 2, false), (.ldhs d a n sp, 2, true),
        (.ldw d a n sp, 4, false), (.ldd d a n sp, 8, false), (.ldq d a n sp, 16, false)],
      memRuns p.1 s (fixedOps [.vw (max 32 (8 * p.2.1)) d, .vr 64 a]) { acc := .read, size := p.2.1, sp := sp.toNat, path := 0 } a
        (loadEffect d p.2.1 p.2.2 (s.gang.nuCode n.toNat)) := fun p hp => by
  have h := (loadsAndStoresRun s d a n sp hn).1 p hp
  rwa [hpace] at h

/-- A lane that performs has an issuing slice. -/
theorem issuing_of_memLane {g : Gang} {l : Nat} (h : l ∈ g.memLanes) : g.issuing (l / 4) = true ∧ l < 32 := by
  have hl := (List.mem_filter.mp h).2
  simp only [Gang.memLane, Gang.active, Bool.and_eq_true, decide_eq_true_eq] at hl
  exact ⟨hl.1.1.1.2, hl.1.1.1.1⟩

/-- The data field of a load that issues with some lane names registers. -/
theorem loadField {s : State} {d a : Code} {m l : Nat} (hi : s.issues (fixedOps [.vw (max 32 (8 * m)) d, .vr 64 a]) = true)
    (hl : l ∈ s.gang.memLanes) (hd : d ≠ 0xF0) : d.toNat < 0xF0 ∧ (m = 16 → d.toNat % 4 = 0) := by
  obtain ⟨os, hos, hlegal⟩ := operands_of_issues hi (issuing_of_memLane hl).1
  obtain rfl : [.vw (max 32 (8 * m)) d, .vr 64 a] = os := Option.some.inj hos
  have h := hlegal _ List.mem_cons_self
  have hne : d.toNat ≠ 240 := fun hc => hd (BitVec.eq_of_toNat_eq hc)
  simp only [Opnd.legal] at h
  split at h
  · simp only [vDst128, Bool.and_eq_true, decide_eq_true_eq] at h
    exact ⟨by omega, fun _ => h.2⟩
  · split at h
    · next h1 h2 =>
      simp only [vDst64, Bool.and_eq_true, decide_eq_true_eq] at h
      exact ⟨by omega, fun hm => absurd h2 (by omega)⟩
    · next h1 h2 =>
      simp only [vDst, decide_eq_true_eq] at h
      exact ⟨by omega, fun hm => absurd h1 (by omega)⟩

end Sys2Proof.Machine
end

section
/-! O26: what a load that performs as it issues finds. -/

namespace Sys2Proof.Machine

theorem filled_counted (u : State) (f : Form) (done : Bool) (core pa : Nat) (page : Page) :
    (u.counted f done).filled core pa page = u.filled core pa page := by
  have hdies : (u.counted f done).dies = u.dies := by rw [counted_cases]
  funext b
  unfold State.filled
  rw [probe_congr (clusters_counted u f done) hdies (fun c => l1Line_counted u f done c _), l1Line_counted, byteAt_counted]

/-- What a load finds is found after its operation has entered its counter. -/
theorem loadsAt_counted {u : State} {f : Form} {done : Bool} {core n v : Nat} {tg : Target}
    (hcore : (u.counted f done).gang.core = core)
    (h : match tg with
      | .mem pa page => pa % 128 + n ≤ 128 ∧ v = readLE (u.filled core pa page) pa n
      | .tile c t off => v = readLE (fun i => u.barnByte core c (t.phys i)) off n
      | _ => False) : (u.counted f done).loadsAt n tg v := by
  cases tg with
  | mem pa page =>
    rw [loadsAt_mem, hcore, filled_counted]
    exact h
  | tile c t off =>
    show v = readLE (fun i => (u.counted f done).barnByte (u.counted f done).gang.core c (t.phys i)) off n
    simp only [hcore, barnByte_counted]
    exact h
  | remote _ _ => exact h
  | refused _ _ => exact h
  | bad _ => exact h

theorem extendLoad_word (v : Nat) : extendLoad 4 false v = BitVec.ofNat 32 (v / 2 ^ (32 * 0)) := by
  simp [extendLoad]

/-- Settles O26: the load fills its line, or reads the Barn, and its value goes into the data registers of the lane. -/
theorem loadedValue : Obligations.LoadedValue := by
  intro s u d a n sp l tg hn hd hpace p hp hi hl v hv
  have hmem : l ∈ s.gang.memLanes := by rw [hl.1]; exact List.mem_singleton_self l
  have hl32 := (issuing_of_memLane hmem).2
  obtain ⟨hdlt, hd4⟩ := loadField hi hmem hd
  have hsize : p.2.1 = 1 ∨ p.2.1 = 2 ∨ p.2.1 = 4 ∧ p.2.2 = false ∨ p.2.1 = 8 ∨ p.2.1 = 16 := by
    simp only [List.mem_cons, List.not_mem_nil, or_false] at hp
    rcases hp with rfl | rfl | rfl | rfl | rfl | rfl | rfl <;> simp
  have hhere : tg.here = true := by
    cases tg with
    | mem _ _ => rfl
    | tile _ _ _ => rfl
    | remote _ _ => exact hv.elim
    | refused _ _ => exact hv.elim
    | bad _ => exact hv.elim
  obtain ⟨done, he⟩ := exec_lanesAt (loadWords_run hn hpace p hp) hi hl rfl rfl
  rw [runLanes_here (by simpa using hhere) rfl rfl] at he
  obtain ⟨hfocus, -⟩ := focus_lanesAt hl
  generalize ({ acc := .read, size := p.2.1, sp := sp.toNat, path := 0 } : Form) = f at he hl
  have hcount := gang_counted u f done
  have hcore : (u.counted f done).gang.core = s.gang.core := by rw [hcount, hfocus]; rfl
  obtain ⟨hflow, hregs⟩ := tookLoad_loadEffect (id := u.nextId) (loadsAt_counted hcore hv) hdlt hd4 p.2.2
    (s.gang.nuCode n.toNat) l
  change exec p.1 s = .next ((loadEffect d p.2.1 p.2.2 (s.gang.nuCode n.toNat)).act u.nextId (u.counted f done) l tg).finished
    at he
  generalize (loadEffect d p.2.1 p.2.2 (s.gang.nuCode n.toNat)).act u.nextId (u.counted f done) l tg = w at he hflow hregs
  refine ⟨_, he, past_finished _ ?_, fun hlt => ?_, fun hle i hi4 => ?_, fun r k hk hrk => ?_⟩
  · rw [hflow, hcount, hfocus]
  · rw [v_finished, hregs _ _ hl32, if_pos ⟨rfl, by omega, by omega⟩, Nat.sub_self, loadWord, if_pos (by omega)]
  · rw [v_finished, hregs _ _ hl32, if_pos ⟨rfl, by omega, by omega⟩, Nat.add_sub_cancel_left, loadWord]
    split
    · have h4 : p.2.1 = 4 := by omega
      have hs : p.2.2 = false := by
        rcases hsize with h | h | ⟨_, h⟩ | h | h
        · omega
        · omega
        · exact h
        · omega
        · omega
      have hi0 : i = 0 := by omega
      rw [h4, hs, hi0, extendLoad_word]
    · rfl
  · rw [v_finished, hregs _ _ hk, if_neg hrk, hcount, hfocus]
    rfl

end Sys2Proof.Machine
end

section
/-! Address words, hints, cache maintenance and watches (07 R173, R185 to R188, R190). -/

namespace Sys2Proof.Machine

/-! ### A line's write-back and flush -/

/-- The byte that home has for a line once a core's dirty byte has been put there. -/
theorem byteAt_writeBackOne_dirty {s : State} {core line i : Nat} {x : L1Line} (hx : s.l1Line core line = some x)
    (hfar : isFar line = false) (hi : i < 128) (hd : x.dirty.getLsbD i = true) :
    (s.writeBackOne core line).byteAt (line * 128 + i) = x.byte i := by
  have h1 : (line * 128 + i) / 128 = line := by omega
  have h2 : (line * 128 + i) % 128 = i := by omega
  simp only [byteAt_writeBackOne, hx, h1, h2, hfar, hd, and_self, if_true]

/-- The view of an engine is what it was after any line is written back (08 R227). -/
theorem engineByte_writeBackOne {s : State} {core b : Nat} (hfar : isFar (b / 128) = false) (line : Nat) :
    (s.writeBackOne core line).engineByte core b = s.engineByte core b := by
  have hb : b / 128 * 128 + b % 128 = b := by omega
  unfold State.engineByte
  rw [l1Line_writeBackOne]
  by_cases hl : b / 128 = line
  · subst hl
    rw [if_pos ⟨rfl, rfl⟩]
    cases hx : s.l1Line core (b / 128) with
    | none => rw [byteAt_writeBackOne, hx]; rfl
    | some x =>
      simp only [Option.map_some, L1Line.dirty_clean]
      by_cases hd : x.dirty.getLsbD (b % 128) = true
      · have := byteAt_writeBackOne_dirty hx hfar (Nat.mod_lt b (by omega)) hd
        rw [hb] at this
        simp [hd, this]
      · have : (s.writeBackOne core (b / 128)).byteAt b = s.byteAt b := by
          simp only [byteAt_writeBackOne, hx]
          exact if_neg (fun h => hd h.2.2)
        simp [hd, this]
  · rw [if_neg (fun h => hl h.2)]
    have : (s.writeBackOne core line).byteAt b = s.byteAt b := by
      rw [byteAt_writeBackOne]
      split
      · exact if_neg (fun h => hl h.2.1)
      · rfl
    simp only [this]

theorem engineByte_writeBackLines {core b : Nat} (hfar : isFar (b / 128) = false) (ls : List Nat) (s : State) :
    (s.writeBackLines core ls).engineByte core b = s.engineByte core b := by
  induction ls generalizing s with
  | nil => rfl
  | cons l ls ih => exact (ih _).trans (engineByte_writeBackOne hfar l)

theorem engineByte_writeBack {s : State} {core b : Nat} (hfar : isFar (b / 128) = false) (line : Nat) :
    (s.writeBack core line).engineByte core b = s.engineByte core b := by
  unfold State.writeBack
  split
  · refine (engineByte_writeBackLines hfar _ (s.drainQueues core)).trans ?_
    unfold State.engineByte
    rw [l1Line_drainQueues, byteAt_drainQueues]
  · exact engineByte_writeBackOne hfar line

/-- A line that has been written back is clean. -/
theorem l1Line_writeBack (s : State) (core line : Nat) :
    (s.writeBack core line).l1Line core line = (s.l1Line core line).map L1Line.clean := by
  unfold State.writeBack
  split
  · exact l1Line_pushCore s core line
  · rw [l1Line_writeBackOne, if_pos ⟨rfl, rfl⟩]

/-- Home has a line's dirty bytes once it has been written back. -/
theorem byteAt_writeBack_dirty {s : State} {core line i : Nat} {x : L1Line} (hx : s.l1Line core line = some x)
    (hfar : isFar line = false) (hi : i < 128) (hd : x.dirty.getLsbD i = true) :
    (s.writeBack core line).byteAt (line * 128 + i) = x.byte i := by
  have h1 : (line * 128 + i) / 128 = line := by omega
  have h2 : (line * 128 + i) % 128 = i := by omega
  have h := engineByte_writeBack (s := s) (core := core) (b := line * 128 + i) (by rw [h1]; exact hfar) line
  unfold State.engineByte at h
  rw [h1, h2, l1Line_writeBack, hx] at h
  have hz : (0 : BitVec 128).getLsbD i = false := BitVec.getLsbD_zero
  simpa only [Option.map_some, L1Line.dirty_clean, hz, Bool.false_eq_true, if_false, hd, if_true] using h

/-! ### Places of this device -/

theorem reach_here_lt {s : State} {part need pa : Nat} {x : Xlate} {pg : Page} (h : s.reach part need x = .here pa pg) :
    pa < 2 ^ 40 := by
  unfold State.reach at h
  dsimp only at h
  split_ifs at h
  cases h
  exact Nat.mod_lt _ (by positivity)

/-- A lane's place in this device's memory lies below 2^40. -/
theorem translateLanes_mem_lt (f : Form) (ps : List (Nat × Place)) (s : State) {l pa : Nat} {pg : Page}
    (h : (l, Target.mem pa pg) ∈ (translateLanes f ps s).2.ok) : pa < 2 ^ 40 := by
  induction ps generalizing s with
  | nil => cases h
  | cons p ps ih =>
    obtain ⟨k, va | ⟨core, t, off⟩⟩ := p
    · simp only [translateLanes] at h
      split at h
      · exact ih s h
      · rename_i s1 x hx
        rcases List.mem_cons.mp h with h | h
        · split at h
          · rename_i hr
            cases h
            exact reach_here_lt hr
          · cases h
          · cases h
          · cases h
        · exact ih _ h
    · rcases List.mem_cons.mp h with h | h
      · cases h
      · exact ih s h

theorem isFar_lanesAt {s u : State} {f : Form} {a : Code} {ts : List (Nat × Target)} (hl : s.lanesAt f a u ts) {l pa : Nat}
    {pg : Page} (hm : (l, Target.mem pa pg) ∈ ts) : isFar (pa / 128) = false := by
  have hlt := translateLanes_mem_lt f (s.lanePlaces f a) (s.countMem f) (by rw [hl.2.2]; exact hm)
  simp only [isFar, decide_eq_false_iff_not]
  omega

/-! ### pglob, pref, cmaint, tick -/

theorem pglob_step (s : State) (d a : Code) (hi : s.issues (fixedOps [.vw 64 d, .vr 64 a]) = true)
    (hz : ∀ l, s.gang.active l = true → canonical (s.vsrc64 a l).toNat = true → inAperture (s.vsrc64 a l).toNat = true →
      (s.vsrc64 a l).toNat % 2 ^ 48 < s.wg.z) :
    ∃ t, exec (.pglob d a) s = .next t ∧ s.vecStep t d (fun _ => true) s.gang.active (fun l =>
      if canonical (s.vsrc64 a l).toNat && inAperture (s.vsrc64 a l).toNat then
        BitVec.ofNat 64 (s.wg.pb.toNat + ((s.wg.wgid * 32 + s.gang.num) * 32 + l) * s.wg.z + (s.vsrc64 a l).toNat % 2 ^ 48)
      else s.vsrc64 a l) 0 := by
  have hbad : s.gang.activeList.filter (fun l => (canonical (s.vsrc64 a l).toNat && inAperture (s.vsrc64 a l).toNat) &&
      decide (s.wg.z ≤ (s.vsrc64 a l).toNat % 2 ^ 48)) = [] := by
    refine List.filter_eq_nil_iff.mpr (fun l hl hb => ?_)
    simp only [Bool.and_eq_true, decide_eq_true_eq] at hb
    have := hz l (List.mem_filter.mp hl).2 hb.1.1 hb.1.2
    omega
  have hval : ∀ l, (if canonical (s.vsrc64 a l).toNat && inAperture (s.vsrc64 a l).toNat then
      BitVec.ofNat 64 (globalOf s.wg s.gang.num l (s.vsrc64 a l).toNat) else s.vsrc64 a l) =
      if canonical (s.vsrc64 a l).toNat && inAperture (s.vsrc64 a l).toNat then
        BitVec.ofNat 64 (s.wg.pb.toNat + ((s.wg.wgid * 32 + s.gang.num) * 32 + l) * s.wg.z + (s.vsrc64 a l).toNat % 2 ^ 48)
      else s.vsrc64 a l := fun l => by
    refine ite_congr rfl (fun h => ?_) (fun _ => rfl)
    rw [Bool.and_eq_true] at h
    rw [globalOf, if_pos h.2, slotBase]
  refine ⟨_, ?_, vecStep_putV0 s d (fun _ => true) s.gang.active _⟩
  rw [exec_of_issues (i := .pglob d a) hi]
  simp only [hbad, hval]
  rfl

/-- What a hint's lane does. -/
def prefLane (s : State) (lv : BitVec 1) (a : Code) (n sp : Nat) (t : State) (l : Nat) : State :=
  match s.place sp 1 (s.vsrc64 a l) l with
  | .ok (.glob va) => match t.peek s.gang.core s.wg.pasid va .read with
    | some x => match t.reach s.wg.part 1 x with
      | .here pa pg => if lv = 0 then t.l1Fill s.gang.core s.gang.wid (pa / 128) (s.gang.nuCode n l) pg else t
      | .away pa pg => if lv = 0 then t.prefetchFar (s.gang.nuCode n l) pa pg else t
      | _ => t
    | none => t
  | _ => t

theorem accessed_prefetchFar (s : State) (code pa : Nat) (page : Page) : s.accessed (s.prefetchFar code pa page) := by
  unfold State.prefetchFar
  dsimp only
  split
  · exact accessed_l1Hit _ _ _ _ _ _ _
  · exact accessed_send s _

theorem accessed_prefLane (s : State) (lv : BitVec 1) (a : Code) (n sp : Nat) (t : State) (l : Nat) :
    t.accessed (prefLane s lv a n sp t l) := by
  unfold prefLane
  split
  · split
    · split
      · split
        · exact accessed_l1Fill _ _ _ _ _ _
        · exact State.accessed.refl t
      · split
        · exact accessed_prefetchFar _ _ _ _
        · exact State.accessed.refl t
      · exact State.accessed.refl t
    · exact State.accessed.refl t
  · exact State.accessed.refl t

theorem exec_pref {s : State} {lv : BitVec 1} {a : Code} {n : BitVec 6} {sp : BitVec 1} (hn : n ≠ 63)
    (hi : s.issues (fixedOps [.vr 64 a]) = true) (hh : s.gang.heldBy 64 = []) : exec (.pref lv a n sp) s =
      .next (s.gang.activeList.foldl (prefLane s lv a n.toNat sp.toNat)
        (s.countMem { acc := .read, size := 1, sp := sp.toNat, path := 0 })).advance := by
  show execPref lv a n sp s = _
  unfold execPref
  rw [if_neg hn, guardOps_issues hi, heldOr_free hh]
  rfl

theorem pref_step (s : State) (lv : BitVec 1) (a : Code) (n : BitVec 6) (sp : BitVec 1) (hn : n ≠ 63)
    (hi : s.issues (fixedOps [.vr 64 a]) = true) (hh : s.gang.heldBy 64 = []) :
    ∃ t, exec (.pref lv a n sp) s = .next t ∧ s.past t ∧ t.gang.regs = s.gang.regs ∧ t.gang.out = s.gang.out := by
  have hacc := State.accessed.foldl (accessed_prefLane s lv a n.toNat sp.toNat) s.gang.activeList
    (s.countMem { acc := .read, size := 1, sp := sp.toNat, path := 0 })
  have hf := hacc.focus
  rw [(accessed_countMem s _).1] at hf
  refine ⟨_, exec_pref hn hi hh, past_of_flow ?_, ?_, ?_⟩ <;> rw [State.advance, State.gang_updGang, hf] <;> rfl

/-- The effect of a cache-maintenance word. -/
abbrev cmaintEffect (o : BitVec 2) : Effect :=
  { act := fun id s _ t =>
      let go := fun line => if o = 1 || o = 2 then s.flushLine s.gang.core line else s.writeBack s.gang.core line
      match t with
      | .mem pa _ => go (pa / 128)
      | .remote pa _ => (go (farLine pa)).claimFlush id s.gang.core (farLine pa)
      | _ => s
    poison := fun s _ => s
    request := fun _ _ _ _ => []
    regs := [] }

theorem cmaint_step (s u : State) (o : BitVec 2) (a : Code) (n : BitVec 6) (sp : BitVec 1) (l pa : Nat) (lw : Page) (x : L1Line)
    (hn : n ≠ 63) (hi : s.issues (fixedOps [.vr 64 a]) = true)
    (hl : s.laneAt { acc := .read, size := 1, sp := sp.toNat, path := 1, rights := 2, ticks := false } a l u (.mem pa lw))
    (hx : u.l1Line s.gang.core (pa / 128) = some x) :
    ∃ t, exec (.cmaint o a n sp) s = .next t ∧ s.past t ∧ t.gang.regs = s.gang.regs ∧
      (∀ i, i < 128 → x.dirty.getLsbD i = true → t.byteAt (pa / 128 * 128 + i) = x.byte i) ∧
      (o = 1 ∨ o = 2 → t.l1Line s.gang.core (pa / 128) = none) ∧
      (o = 0 ∨ o = 3 → ∃ y, t.l1Line s.gang.core (pa / 128) = some y ∧ y.dirty = 0) := by
  have hfar := isFar_lanesAt hl List.mem_cons_self
  have hrun : memRuns (.cmaint o a n sp) s (fixedOps [.vr 64 a])
      { acc := .read, size := 1, sp := sp.toNat, path := 1, rights := 2, ticks := false } a (cmaintEffect o) :=
    memRuns_of (if_neg hn) rfl
  obtain ⟨done, he⟩ := exec_lanesAt hrun hi hl rfl rfl
  rw [runLanes_here (by simp [Target.here]) rfl rfl] at he
  obtain ⟨hfocus, -⟩ := focus_lanesAt hl
  generalize ({ acc := .read, size := 1, sp := sp.toNat, path := 1, rights := 2, ticks := false } : Form) = f at he hl
  have hcount := gang_counted u f done
  have hcore : (u.counted f done).gang.core = s.gang.core := by rw [hcount, hfocus]; rfl
  have hw : ∃ w, exec (.cmaint o a n sp) s = .next w.finished ∧
      w = if o = 1 ∨ o = 2 then (u.counted f done).flushLine s.gang.core (pa / 128)
        else (u.counted f done).writeBack s.gang.core (pa / 128) := by
    refine ⟨_, he, ?_⟩
    simp only [List.foldl_cons, List.foldl_nil, hcore, Bool.or_eq_true, decide_eq_true_eq]
  obtain ⟨w, he, hw⟩ := hw
  have hacc : (u.counted f done).accessed w := by
    rw [hw]
    split
    · exact accessed_flushLine _ _ _
    · exact accessed_writeBack _ _ _
  have hxq : (u.counted f done).l1Line s.gang.core (pa / 128) = some x := by rw [l1Line_counted, hx]
  have hgang : w.gang.flow = s.gang.flow ∧ w.gang.regs = s.gang.regs := by
    rw [hacc.flow, hacc.regs, hcount, hfocus]
    exact ⟨rfl, rfl⟩
  refine ⟨_, he, past_finished w hgang.1, by rw [regs_finished, hgang.2], fun i hi hd => ?_, fun ho => ?_, fun ho => ?_⟩
  · rw [byteAt_finished, hw]
    split
    · exact byteAt_writeBack_dirty hxq hfar hi hd
    · exact byteAt_writeBack_dirty hxq hfar hi hd
  · rw [l1Line_finished, hw, if_pos ho, State.flushLine, l1Line_setLine, if_pos ⟨rfl, rfl⟩]
  · have hne : ¬ (o = 1 ∨ o = 2) := by rcases ho with rfl | rfl <;> decide
    rw [l1Line_finished, hw, if_neg hne, l1Line_writeBack, hxq]
    exact ⟨_, rfl, L1Line.dirty_clean x⟩

theorem tick_step (s : State) : ∃ t, exec .tick s = .next t ∧ s.past t ∧ t.gang.regs = s.gang.regs ∧ t.mem = s.mem ∧
    t.wg.rclock = s.wg.rclock + 1 ∧ t.wg.ticks = (s.clock :: s.wg.ticks).take 8 := by
  have hg : (s.updWg (fun w => { w.tickOnce with ticks := (s.clock :: w.ticks).take 8 })).advance.gang = s.gang.advance := by
    rw [State.advance, State.gang_updGang]
    rfl
  have hwg : (s.updWg (fun w => { w.tickOnce with ticks := (s.clock :: w.ticks).take 8 })).advance.wg =
      { s.wg.tickOnce with ticks := (s.clock :: s.wg.ticks).take 8 } := by
    rw [State.wg, hg]
    exact State.wgAt_setWgAt s s.gang.wid _
  exact ⟨_, rfl, past_of_flow (by rw [hg]), by rw [hg]; rfl, rfl, by rw [hwg]; rfl, by rw [hwg]⟩

theorem addressesAndHints : Sys2Proof.Claims.AddressesAndHints := ⟨pglob_step, pref_step, cmaint_step, tick_step⟩

/-! ### Watching a line -/

/-- Two states with the same home memory, caches and promotion record. -/
def State.sameCaches (s t : State) : Prop := t.mem = s.mem ∧ t.cores = s.cores ∧ t.promo = s.promo

section
variable {s t : State} (h : s.sameCaches t)
include h

theorem sameCaches_l1Line (core line : Nat) : t.l1Line core line = s.l1Line core line := by
  rw [State.l1Line, State.coreAt, h.2.1]
  rfl

theorem sameCaches_updCore (core : Nat) (f : Core → Core) : (s.updCore core f).sameCaches (t.updCore core f) := by
  refine ⟨h.1, ?_, h.2.2⟩
  simp only [State.updCore, State.coreAt, h.2.1]

theorem sameCaches_setLine (core line : Nat) (x : Option L1Line) : (s.setLine core line x).sameCaches (t.setLine core line x) :=
  sameCaches_updCore h core _

theorem sameCaches_writeBackOne (core line : Nat) : (s.writeBackOne core line).sameCaches (t.writeBackOne core line) := by
  unfold State.writeBackOne
  rw [sameCaches_l1Line h]
  cases s.l1Line core line with
  | none => exact h
  | some x =>
    dsimp only
    split
    · exact h
    · refine sameCaches_setLine ⟨?_, ?_, ?_⟩ core line _
      · rw [mem_putDirty, mem_putDirty, h.1]
      · rw [cores_putDirty, cores_putDirty, h.2.1]
      · rw [promo_putDirty, promo_putDirty, h.2.2]

end

theorem sameCaches_writeBackLines (core : Nat) (ls : List Nat) {s t : State} (h : s.sameCaches t) :
    (s.writeBackLines core ls).sameCaches (t.writeBackLines core ls) := by
  induction ls generalizing s t with
  | nil => exact h
  | cons l ls ih => exact ih (sameCaches_writeBackOne h core l)

theorem sameCaches_drainList (qs : List QueuedByte) {s t : State} (h : s.sameCaches t) :
    (s.drainList qs).sameCaches (t.drainList qs) := by
  induction qs generalizing s t with
  | nil => exact h
  | cons q qs ih => exact ih (sameCaches_updCore h q.core _)

theorem sameCaches_drainQueues {s t : State} (h : s.sameCaches t) (core : Nat) :
    (s.drainQueues core).sameCaches (t.drainQueues core) := by
  have hq : (t.coreAt core).squeue = (s.coreAt core).squeue := by rw [State.coreAt, h.2.1]; rfl
  unfold State.drainQueues
  rw [hq]
  exact sameCaches_updCore (sameCaches_drainList (s.coreAt core).squeue h) core _

theorem sameCaches_pushCore {s t : State} (h : s.sameCaches t) (core : Nat) : (s.pushCore core).sameCaches (t.pushCore core) := by
  have hd := sameCaches_drainQueues h core
  have hlines : (t.drainQueues core).l1Lines core = (s.drainQueues core).l1Lines core := by
    rw [State.l1Lines, State.coreAt, hd.2.1]
    rfl
  have hl := sameCaches_writeBackLines core ((s.drainQueues core).l1Lines core) hd
  rw [State.pushCore, State.pushCore, writeBackAll_eq, writeBackAll_eq, hlines]
  exact ⟨hl.1, hl.2.1, by rw [hl.2.2]⟩

theorem sameCaches_flushLine {s t : State} (h : s.sameCaches t) (core line : Nat) :
    (s.flushLine core line).sameCaches (t.flushLine core line) := by
  refine sameCaches_setLine ?_ core line none
  unfold State.writeBack
  rw [h.2.2]
  split
  · exact sameCaches_pushCore h core
  · exact sameCaches_writeBackOne h core line


theorem signalled_loseWatcher (s : State) (w : Watcher) : s.signalled (loseWatcher s w) := by
  cases w with
  | gang k =>
    refine ⟨rfl, fun j => ?_⟩
    show (s.updGangAt k Gang.loseWatch).gangAt j = _
    by_cases h : j = k
    · subst h
      simp only [loseWatcher, State.updGangAt, State.gangAt_setGangAt, Gang.loseWatch]
      split <;> rfl
    · simp only [loseWatcher, State.updGangAt, State.gangAt_setGangAt_other s h]
  | far dev id => exact signalled_send s _

theorem signalled_enterWatch (s : State) (line : Nat) (w : Watcher) :
    s.signalled (s.enterWatch line w) ∧ (line, w) ∈ (s.enterWatch line w).watches := by
  unfold State.enterWatch
  dsimp only
  refine ⟨?_, List.mem_append_right _ List.mem_cons_self⟩
  split
  · split
    · rename_i old _ _ _
      exact ((State.signalled.trans (t := { s with watches := s.watches.filter (fun x => decide (x.2 ≠ old.2)) })
        ⟨rfl, fun _ => rfl⟩ (signalled_loseWatcher _ old.2))).trans ⟨rfl, fun _ => rfl⟩
    · exact ⟨rfl, fun _ => rfl⟩
  · exact ⟨rfl, fun _ => rfl⟩

/-- What mwatch of a local line does, after its translation. -/
def State.watchLine (s u : State) (d : Code) (pa va : Nat) : State :=
  let s2 := (({ u with nextId := u.nextId + 1 } : State).flushLine s.gang.core (pa / 128)).armWatch (pa / 128) (va / 128)
  (s2.updGang (fun h => h.putV32 d s.gang.active (fun _ => BitVec.ofNat 32 (s2.readHome pa 4)))).updGang
    (fun g => (g.raise 0 u.nextId true).finishReplay)

theorem exec_mwatch_local {s u : State} {d a : Code} {n : BitVec 6} {sp : BitVec 1} {l va pa : Nat} {lw : Page} {ls : List Nat}
    (hn : n ≠ 63) (hi : s.issues (fixedOps [.vw 32 d, .vr 64 a]) = true) (hh : s.gang.heldBy 1 = [])
    (hl : s.gang.memLanes = l :: ls) (hroom : s.gang.counter 0 < 63)
    (hfault : s.placeFault { acc := .read, size := 4, sp := sp.toNat, path := 0, ticks := false } [l] (s.vsrc64 a) = none)
    (hplace : s.place sp.toNat 4 (s.vsrc64 a l) l = .ok (.glob va))
    (htr : translateLanes { acc := .read, size := 4, sp := sp.toNat, path := 0, ticks := false } [(l, .glob va)] s =
      (u, { ok := [(l, .mem pa lw)], faults := [] })) (hlate : s.gang.lateOn [(l, .mem pa lw)] = []) :
    exec (.mwatch d a n sp) s = .next (s.watchLine u d pa va).advance := by
  show execMwatch d a n sp s = _
  unfold execMwatch
  rw [if_neg hn, guardOps_issues hi]
  simp only [heldOr_free hh, hl, hfault, hplace, if_neg (by omega : ¬ 63 ≤ s.gang.counter 0), htr, hlate, List.isEmpty_nil,
    Bool.not_true, Bool.false_eq_true, if_false]
  rfl

/-- Arming a watch changes nothing of memory, and of the gang in focus its watch alone. -/
theorem armWatch_leaves (s : State) (line vline : Nat) :
    (s.armWatch line vline).mem = s.mem ∧ (line, Watcher.gang s.cur) ∈ (s.armWatch line vline).watches ∧
      (s.armWatch line vline).cur = s.cur ∧
      (s.armWatch line vline).gang = { s.gang with watch := { Watch.none with armed := some (line, vline) } } := by
  obtain ⟨hsig, hmem⟩ := signalled_enterWatch (s.dropWatches s.cur) line (.gang s.cur)
  have hdrop : s.signalled (s.dropWatches s.cur) := ⟨rfl, fun _ => rfl⟩
  have hall := hdrop.trans hsig
  have hcur : ((s.dropWatches s.cur).enterWatch line (.gang s.cur)).cur = s.cur := by rw [hall.eq]
  refine ⟨hall.mem, hmem, hcur, ?_⟩
  rw [State.armWatch, State.gang_updGang, State.gang, hcur, hall.gang s.cur]
  rfl

theorem mwatch_step (s u : State) (d a : Code) (n : BitVec 6) (sp : BitVec 1) (l va pa : Nat) (lw : Page) (ls : List Nat)
    (hn : n ≠ 63) (hd : d ≠ 0xF0) (hi : s.issues (fixedOps [.vw 32 d, .vr 64 a]) = true) (hh : s.gang.heldBy 1 = [])
    (hl : s.gang.memLanes = l :: ls) (hroom : s.gang.counter 0 < 63)
    (hfault : s.placeFault { acc := .read, size := 4, sp := sp.toNat, path := 0, ticks := false } [l] (s.vsrc64 a) = none)
    (hplace : s.place sp.toNat 4 (s.vsrc64 a l) l = .ok (.glob va))
    (htr : translateLanes { acc := .read, size := 4, sp := sp.toNat, path := 0, ticks := false } [(l, .glob va)] s =
      (u, { ok := [(l, .mem pa lw)], faults := [] })) (hlate : s.gang.lateOn [(l, .mem pa lw)] = []) :
    ∃ t, exec (.mwatch d a n sp) s = .next t ∧ s.past t ∧
      t.gang.watch.armed = some (pa / 128, va / 128) ∧ (pa / 128, .gang s.cur) ∈ t.watches ∧
      ∀ k, s.gang.active k = true → t.gang.v d.toNat k =
        BitVec.ofNat 32 ((u.flushLine s.gang.core (pa / 128)).readHome pa 4) := by
  have hu := accessed_translateLanes { acc := .read, size := 4, sp := sp.toNat, path := 0, ticks := false } [(l, .glob va)] s
  rw [htr] at hu
  have hu1 : u.accessed { u with nextId := u.nextId + 1 } := ⟨rfl, fun _ => rfl⟩
  have hfl := (hu.trans hu1).trans (accessed_flushLine { u with nextId := u.nextId + 1 } s.gang.core (pa / 128))
  have hsame : (u.flushLine s.gang.core (pa / 128)).sameCaches
      (({ u with nextId := u.nextId + 1 } : State).flushLine s.gang.core (pa / 128)) :=
    sameCaches_flushLine (s := u) (t := { u with nextId := u.nextId + 1 }) ⟨rfl, rfl, rfl⟩ _ _
  generalize hq : ({ u with nextId := u.nextId + 1 } : State).flushLine s.gang.core (pa / 128) = q at hfl hsame
  obtain ⟨hmem, hin, hcur, hgang⟩ := armWatch_leaves q (pa / 128) (va / 128)
  have hval : (q.armWatch (pa / 128) (va / 128)).readHome pa 4 = (u.flushLine s.gang.core (pa / 128)).readHome pa 4 := by
    unfold State.readHome State.byteAt
    rw [hmem, hsame.1]
  have hw : (s.watchLine u d pa va).advance.gang = (((({ q.gang with watch :=
      { Watch.none with armed := some (pa / 128, va / 128) } } : Gang).putV32 d s.gang.active (fun _ =>
        BitVec.ofNat 32 ((u.flushLine s.gang.core (pa / 128)).readHome pa 4))).raise 0 u.nextId true).finishReplay).advance := by
    simp only [State.watchLine, hq, State.advance, State.gang_updGang, hgang, hval]
  refine ⟨_, exec_mwatch_local hn hi hh hl hroom hfault hplace htr hlate, past_of_flow ?_, ?_, ?_, fun k hk => ?_⟩
  · rw [hw, hfl.focus]
    simp only [Gang.putV32, if_neg hd]
    rfl
  · rw [hw]
    simp only [Gang.putV32, if_neg hd]
    rfl
  · have hc : q.cur = s.cur := hfl.cur
    rw [← hc]
    show _ ∈ (s.watchLine u d pa va).watches
    simp only [State.watchLine, hq]
    exact hin
  · have hk32 : k < 32 := by
      simp only [Gang.active, Bool.and_eq_true, decide_eq_true_eq] at hk
      exact hk.1.1.1
    rw [hw]
    refine (putV32_eq _ d s.gang.active _ d.toNat k hk32).trans ?_
    rw [if_pos ⟨hd, hk, rfl⟩]

theorem mwait_step (s : State) (d a : Code) (hi : s.issues (fixedOps [.sw 32 d, .sr 32 a]) = true) :
    (∀ c, s.gang.watch.wake (s.sarg a).toNat = some c → ∃ t, exec (.mwait d a) s = .next t ∧ s.past t ∧
      t.gang.watch.armed = none ∧ (∀ w ∈ t.watches, w.2 ≠ .gang s.cur) ∧
      ∀ k, k < 8 → s.gang.issuing k = true → d ≠ 0xF0 → t.gang.s k d.toNat = BitVec.ofNat 32 c) ∧
    (s.gang.watch.wake (s.sarg a).toNat = none → exec (.mwait d a) s = .next (s.stall .watch)) := by
  have he := exec_of_issues (i := .mwait d a) hi
  refine ⟨fun c hc => ?_, fun hc => ?_⟩
  · rw [he]
    simp only [hc, finishWith]
    have hg : ((s.dropWatches s.cur).updGang (fun g =>
        ({ g.putSAll d (BitVec.ofNat 32 c) with watch := Watch.none } : Gang).advance)).gang =
        ({ s.gang.putSAll d (BitVec.ofNat 32 c) with watch := Watch.none } : Gang).advance := State.gang_updGang _ _
    refine ⟨_, rfl, past_updGang (f := fun g => { g.putSAll d (BitVec.ofNat 32 c) with watch := Watch.none }) ?_ hg, ?_,
      fun w hw => ?_, fun k hk hik hd => ?_⟩
    · exact Gang.flow_putSAll _ _ _
    · rw [hg]; rfl
    · exact of_decide_eq_true (List.mem_filter.mp hw).2
    · rw [hg, Gang.s_advance]
      exact (Gang.s_putS s.gang hd (sDst_of_issues hi hik) _ _ hk).trans (if_pos hik)
  · rw [he]
    simp only [hc]
    rfl

/-- Settles O33: the hints and the maintenance words are accesses of memory; a watch is armed after the line's flush. -/
theorem hintsAndWatches : Obligations.HintsAndWatches := ⟨addressesAndHints, mwatch_step, mwait_step⟩

end Sys2Proof.Machine
end

section
/-! Atomics: what one lane makes of a location, and the lanes of a word in order (07 R182 to R184; 04 R103). -/

namespace Sys2Proof.Machine

/-! ### The value of one lane -/

theorem wSize_cases (w : BitVec 1) : wSize w = 4 ∨ wSize w = 8 := by
  unfold wSize
  split
  · exact .inr rfl
  · exact .inl rfl

theorem atomWord_lt (s : State) (d : Code) (w : BitVec 1) (l i : Nat) : s.atomWord d (wSize w) l i < 2 ^ (8 * wSize w) := by
  unfold State.atomWord
  rcases wSize_cases w with h | h <;> rw [h]
  · exact (s.vword d l i).isLt
  · have h0 := (s.vword d l (2 * i)).isLt
    have h1 := (s.vword d l (2 * i + 1)).isLt
    simp only [if_true]
    omega

theorem wrapTo_lt (n : Nat) (x : Int) : wrapTo n x < 2 ^ n := by
  have h0 := Int.emod_nonneg x (show (2 ^ n : Int) ≠ 0 by positivity)
  have h1 := Int.emod_lt_of_pos x (show (0 : Int) < 2 ^ n by positivity)
  unfold wrapTo
  zify
  omega

theorem atomLow_lt (s : State) (d : Code) (w : BitVec 1) (l : Nat) : s.atomLow d (wSize w) l < 2 ^ (8 * wSize w) := by
  unfold State.atomLow
  split
  · exact atomWord_lt s d w l 0
  · exact wrapTo_lt _ _

theorem atomNewArg_lt (s : State) {op : AtomOp} (hop : op ≠ .fadd) (d : Code) (w : BitVec 1) (l : Nat) :
    s.atomNewArg op d (wSize w) l < 2 ^ (8 * wSize w) := by
  cases op with
  | fadd => exact absurd rfl hop
  | cas =>
    simp only [State.atomNewArg]
    split
    · exact atomWord_lt s d w l 1
    · exact atomLow_lt s d w l
  | _ => exact atomLow_lt s d w l

theorem ite_lt {p : Prop} [Decidable p] {x y n : Nat} (hx : x < n) (hy : y < n) : (if p then x else y) < n := by
  split
  · exact hx
  · exact hy

/-- What an atomic's lane writes, cut to the size of the access (07 R182, R183). -/
theorem atomNew_mod (s : State) (op : AtomOp) (d : Code) (w : BitVec 1) (l : Nat) {m : Nat} (hm : m < 2 ^ (8 * wSize w)) :
    atomNew op (wSize w) (decide (s.gang.et l < 13)) m (s.atomNewArg op d (wSize w) l) (s.atomLow d (wSize w) l)
      % 2 ^ (8 * wSize w) = s.atomResult op d w l m := by
  have hsize : (if wSize w = 8 then 0 else 1) = (if w = 1 then 0 else 1) := by
    unfold wSize
    by_cases h : w = 1 <;> simp [h]
  have hx : op ≠ .fadd → s.atomNewArg op d (wSize w) l < 2 ^ (8 * wSize w) := fun h => atomNewArg_lt s h d w l
  cases op with
  | add => exact Nat.mod_mod _ _
  | fadd => simp only [atomNew, State.atomResult, hsize]
  | min =>
    have hx := hx nofun
    simp only [atomNew, State.atomResult, Nat.mod_eq_of_lt hx, Nat.mod_eq_of_lt hm, decide_eq_true_eq]
    split <;> exact Nat.mod_eq_of_lt (ite_lt hx hm)
  | max =>
    have hx := hx nofun
    simp only [atomNew, State.atomResult, Nat.mod_eq_of_lt hx, Nat.mod_eq_of_lt hm, decide_eq_true_eq]
    split <;> exact Nat.mod_eq_of_lt (ite_lt hx hm)
  | and => exact Nat.mod_eq_of_lt (Nat.and_lt_two_pow _ (hx nofun))
  | or => exact Nat.mod_eq_of_lt (Nat.or_lt_two_pow hm (hx nofun))
  | xor => exact Nat.mod_eq_of_lt (Nat.xor_lt_two_pow hm (hx nofun))
  | xchg => exact Nat.mod_eq_of_lt (hx nofun)
  | cas =>
    have hx := hx nofun
    exact Nat.mod_eq_of_lt (ite_lt hx hm)

theorem atomResult_lt (s : State) (op : AtomOp) (d : Code) (w : BitVec 1) (l : Nat) {m : Nat} (hm : m < 2 ^ (8 * wSize w)) :
    s.atomResult op d w l m < 2 ^ (8 * wSize w) := by
  rw [← atomNew_mod s op d w l hm]
  exact Nat.mod_lt _ (by positivity)

/-! ### The lanes in order -/

/-- One lane's step on the location's value and the lock list. -/
def State.atomStep (s : State) (op : AtomOp) (d a : Code) (lk w : BitVec 1) (sp : Nat) (q : Nat × List LockEntry) (l : Nat) :
    Nat × List LockEntry :=
  let key := lockKey sp (wSize w) (s.vsrc64 a l)
  (s.atomResult op d w l q.1,
    if lk = 1 ∧ ((op = .xchg ∧ q.1 ≠ s.atomNewArg op d (wSize w) l) ∨ (op = .cas ∧ q.1 = s.atomLow d (wSize w) l)) then
      lockEnter q.2 key.1 key.2 s.stepNo else q.2)

theorem atomFold_eq (s : State) (op : AtomOp) (d a : Code) (lk w : BitVec 1) (sp old : Nat) (ls : List Nat) :
    s.atomFold op d a lk w sp old ls = ls.foldl (s.atomStep op d a lk w sp) (old, s.gang.locks) := rfl

/-- A lane takes the lock of its location. -/
theorem lockTaken_iff (op : AtomOp) (m x c : Nat) : lockTaken op m x c = true ↔ (op = .xchg ∧ m ≠ x) ∨ (op = .cas ∧ m = c) := by
  cases op <;> simp [lockTaken]

/-- A location that holds `m`: what an atomic's access of it finds and leaves. `P` speaks of the states before the first
access, `Q` of those after one. -/
structure AtomPlace (n sc : Nat) (tg : Target) (P Q : State → Nat → Prop) : Prop where
  weaken : ∀ q m, Q q m → P q m
  access : ∀ (q : State) m code f, P q m → (q.atomicAt n code sc f tg).2 = m ∧
    Q (q.atomicAt n code sc f tg).1 (f m % 2 ^ (8 * n)) ∧ q.accessed (q.atomicAt n code sc f tg).1
  gang : ∀ (q : State) m (f : Gang → Gang), (∀ g, (f g).core = g.core) → Q q m → Q (q.updGang f) m

section
variable {s : State} {op : AtomOp} {d a : Code} {lk ret w : BitVec 1} {sc sp id : Nat} {tg : Target} {P Q : State → Nat → Prop}

/-- The lock list with lane `l`'s location entered. -/
def State.atomEnter (s : State) (a : Code) (w : BitVec 1) (sp l : Nat) (ls : List LockEntry) : List LockEntry :=
  lockEnter ls (lockKey sp (wSize w) (s.vsrc64 a l)).1 (lockKey sp (wSize w) (s.vsrc64 a l)).2 s.stepNo

/-- What lane `l` of an atomic makes of its gang, once it has found `m`. -/
def Gang.atomLane (s : State) (op : AtomOp) (d a : Code) (lk ret w : BitVec 1) (sp l m : Nat) (g : Gang) : Gang :=
  let h := if ret = 1 then g.putLoad d (wSize w) false l m else g
  if lk = 1 ∧ ((op = .xchg ∧ m ≠ s.atomNewArg op d (wSize w) l) ∨ (op = .cas ∧ m = s.atomLow d (wSize w) l)) then
    { h with locks := s.atomEnter a w sp l h.locks }
  else h

/-- The access that lane `l` of an atomic makes. -/
def State.atomAccess (s : State) (op : AtomOp) (d : Code) (w : BitVec 1) (sc l : Nat) (tg : Target) (q : State) : State × Nat :=
  q.atomicAt (wSize w) (s.gang.nuCode 62 l) sc (fun m => atomNew op (wSize w) (decide (s.gang.et l < 13)) m
    (s.atomNewArg op d (wSize w) l) (s.atomLow d (wSize w) l)) tg

theorem core_putLoad (g : Gang) (d : Code) (n : Nat) (sg : Bool) (l v : Nat) : (g.putLoad d n sg l v).core = g.core := by
  rw [(lanesOnly_putLoad g d n sg l v).2]
  rfl

/-- A lane of an atomic makes its access, and then changes its gang alone. -/
theorem atomAct_spec (q : State) (l : Nat) (tg : Target) :
    let r := s.atomAccess op d w sc l tg q
    let q' := (s.atomEffect op d a (wSize w) sc (lk = 1) (ret = 1) sp).act id q l tg
    q'.gang = Gang.atomLane s op d a lk ret w sp l r.2 r.1.gang ∧
      (q' = r.1 ∨ ∃ f : Gang → Gang, (∀ g, (f g).core = g.core) ∧ q' = r.1.updGang f) := by
  intro r q'
  have hq' : q' = (let s1 := if ret = 1 then r.1.updGang (fun g => g.putLoad d (wSize w) false l r.2) else r.1
      if lk = 1 ∧ ((op = .xchg ∧ r.2 ≠ s.atomNewArg op d (wSize w) l) ∨ (op = .cas ∧ r.2 = s.atomLow d (wSize w) l)) then
        s1.updGang (fun g => { g with locks := s.atomEnter a w sp l g.locks })
      else s1) := by
    show (s.atomEffect op d a (wSize w) sc (lk = 1) (ret = 1) sp).act id q l tg = _
    simp only [State.atomEffect, Bool.and_eq_true, lockTaken_iff, decide_eq_true_eq]
    rfl
  rw [hq', Gang.atomLane]
  by_cases hr : ret = 1
  · by_cases ht : lk = 1 ∧ ((op = .xchg ∧ r.2 ≠ s.atomNewArg op d (wSize w) l) ∨ (op = .cas ∧ r.2 = s.atomLow d (wSize w) l))
    · simp only [if_pos hr, if_pos ht, State.gang_updGang, State.updGang_updGang, true_and]
      exact .inr ⟨fun g => { g.putLoad d (wSize w) false l r.2 with
        locks := s.atomEnter a w sp l (g.putLoad d (wSize w) false l r.2).locks }, fun g => core_putLoad g d _ _ _ _, rfl⟩
    · simp only [if_pos hr, if_neg ht, State.gang_updGang, true_and]
      exact .inr ⟨fun g => g.putLoad d (wSize w) false l r.2, fun g => core_putLoad g d _ _ _ _, rfl⟩
  · by_cases ht : lk = 1 ∧ ((op = .xchg ∧ r.2 ≠ s.atomNewArg op d (wSize w) l) ∨ (op = .cas ∧ r.2 = s.atomLow d (wSize w) l))
    · simp only [if_neg hr, if_pos ht, State.gang_updGang, true_and]
      exact .inr ⟨fun g => { g with locks := s.atomEnter a w sp l g.locks }, fun _ => rfl, rfl⟩
    · simp only [if_neg hr, if_neg ht, true_or, and_self]

theorem flow_atomLane (l m : Nat) (g : Gang) : (Gang.atomLane s op d a lk ret w sp l m g).flow = g.flow := by
  have hp : (g.putLoad d (wSize w) false l m).flow = g.flow := by rw [(lanesOnly_putLoad g d (wSize w) false l m).2]
  unfold Gang.atomLane
  by_cases hr : ret = 1
  · simp only [if_pos hr]
    split <;> exact hp
  · simp only [if_neg hr]
    split <;> rfl

theorem locks_atomLane (l m : Nat) (g : Gang) : (Gang.atomLane s op d a lk ret w sp l m g).locks =
    (s.atomStep op d a lk w sp (m, g.locks) l).2 := by
  have hp : (g.putLoad d (wSize w) false l m).locks = g.locks := by rw [(lanesOnly_putLoad g d (wSize w) false l m).2]
  unfold Gang.atomLane State.atomStep
  by_cases hr : ret = 1
  · simp only [if_pos hr]
    split
    · rw [hp]; rfl
    · exact hp
  · simp only [if_neg hr]
    split <;> rfl

theorem v_atomLane (l m r k : Nat) (g : Gang) : (Gang.atomLane s op d a lk ret w sp l m g).v r k =
    if ret = 1 then (g.putLoad d (wSize w) false l m).v r k else g.v r k := by
  unfold Gang.atomLane
  by_cases hr : ret = 1
  · simp only [if_pos hr]
    split <;> rfl
  · simp only [if_neg hr]
    split <;> rfl

/-- One lane, from a state in which its location holds `m`. -/
theorem atomLane_step (hplace : AtomPlace (wSize w) sc tg P Q) {q : State} {m : Nat} (hm : m < 2 ^ (8 * wSize w)) (hP : P q m)
    (l : Nat) :
    let q' := (s.atomEffect op d a (wSize w) sc (lk = 1) (ret = 1) sp).act id q l tg
    Q q' (s.atomResult op d w l m) ∧ q'.gang.flow = q.gang.flow ∧
      q'.gang.locks = (s.atomStep op d a lk w sp (m, q.gang.locks) l).2 ∧
      (∀ r k, k < 32 → k ≠ l → q'.gang.v r k = q.gang.v r k) ∧
      (ret = 1 → d.toNat < 0xF0 → l < 32 → ∀ j, j < wSize w / 4 →
        q'.gang.v (d.toNat + j) l = BitVec.ofNat 32 (m / 2 ^ (32 * j))) := by
  intro q'
  obtain ⟨hval, hQ, hacc⟩ := hplace.access q m (s.gang.nuCode 62 l) (fun m => atomNew op (wSize w) (decide (s.gang.et l < 13)) m
    (s.atomNewArg op d (wSize w) l) (s.atomLow d (wSize w) l)) hP
  obtain ⟨hgang, hform⟩ := atomAct_spec (s := s) (op := op) (d := d) (a := a) (lk := lk) (ret := ret) (w := w) (sc := sc)
    (sp := sp) (id := id) q l tg
  rw [show (s.atomAccess op d w sc l tg q).2 = m from hval] at hgang
  rw [atomNew_mod s op d w l hm] at hQ
  have hfocus := hacc.focus
  rw [show (q.atomicAt (wSize w) _ sc _ tg).1.gang = (s.atomAccess op d w sc l tg q).1.gang from rfl] at hfocus
  refine ⟨?_, ?_, ?_, fun r k hk hkl => ?_, fun hr hd hl j hj => ?_⟩
  · rcases hform with h | ⟨f, hf, h⟩
    · rw [show q' = _ from h]
      exact hQ
    · rw [show q' = _ from h]
      exact hplace.gang _ _ f hf hQ
  · rw [hgang, flow_atomLane, hfocus]
  · rw [hgang, locks_atomLane, hfocus]
  · rw [hgang, v_atomLane, hfocus]
    split
    · by_cases hd : d = 0xF0
      · subst hd
        unfold Gang.putLoad Gang.putV32
        rcases wSize_cases w with h | h <;> rw [h] <;> rfl
      · rw [v_putLoad _ hd _ _ _ _ _ _ hk, if_neg (fun h => hkl h.1)]
        rfl
    · rfl
  · have hne : d ≠ 0xF0 := fun hc => by rw [hc] at hd; simp at hd
    rw [hgang, v_atomLane, if_pos hr, v_putLoad _ hne _ _ _ _ _ _ hl, if_pos ⟨rfl, by omega, by omega⟩, Nat.add_sub_cancel_left,
      loadWord]
    rcases wSize_cases w with h | h
    · have hj0 : j = 0 := by omega
      rw [h, if_pos (by omega), hj0, extendLoad_word]
    · rw [h, if_neg (by omega)]

/-- The lanes of an atomic in order, from a state in which their location holds `m`. -/
theorem atomLanes_fold (hplace : AtomPlace (wSize w) sc tg P Q) (ls : List Nat) (hnodup : ls.Nodup) (hlt : ∀ l ∈ ls, l < 32)
    {q : State} {m : Nat} (hm : m < 2 ^ (8 * wSize w)) (hQ : Q q m) :
    let t := ls.foldl (fun q k => (s.atomEffect op d a (wSize w) sc (lk = 1) (ret = 1) sp).act id q k tg) q
    let r := fun xs : List Nat => xs.foldl (s.atomStep op d a lk w sp) (m, q.gang.locks)
    Q t (r ls).1 ∧ t.gang.flow = q.gang.flow ∧ t.gang.locks = (r ls).2 ∧
      (∀ i k, k < 32 → k ∉ ls → t.gang.v i k = q.gang.v i k) ∧
      (ret = 1 → d.toNat < 0xF0 → ∀ xs l ys, ls = xs ++ l :: ys → ∀ j, j < wSize w / 4 →
        t.gang.v (d.toNat + j) l = BitVec.ofNat 32 ((r xs).1 / 2 ^ (32 * j))) := by
  induction ls generalizing q m with
  | nil => exact ⟨hQ, rfl, rfl, fun _ _ _ _ => rfl, fun _ _ xs l ys h => absurd h (by simp)⟩
  | cons l ls ih =>
    obtain ⟨hl, hls⟩ := List.forall_mem_cons.mp hlt
    obtain ⟨hnot, hnodup'⟩ := List.nodup_cons.mp hnodup
    obtain ⟨h1, hflow, hlocks, hother, hreg⟩ := atomLane_step (s := s) (op := op) (d := d) (a := a) (lk := lk) (ret := ret)
      (sp := sp) (id := id) hplace hm (hplace.weaken q m hQ) l
    obtain ⟨g1, g2, g3, g4, g5⟩ := ih hnodup' hls (atomResult_lt s op d w l hm) h1
    have hstep : ∀ xs : List Nat, (l :: xs).foldl (s.atomStep op d a lk w sp) (m, q.gang.locks) =
        xs.foldl (s.atomStep op d a lk w sp) (s.atomResult op d w l m,
          ((s.atomEffect op d a (wSize w) sc (lk = 1) (ret = 1) sp).act id q l tg).gang.locks) := fun xs => by
      rw [List.foldl_cons, hlocks]
      rfl
    refine ⟨?_, g2.trans hflow, ?_, fun i k hk hkl => ?_, fun hr hd xs k ys hxs j hj => ?_⟩
    · dsimp only
      rw [hstep]
      exact g1
    · dsimp only
      rw [hstep]
      exact g3
    · rw [List.mem_cons, not_or] at hkl
      exact (g4 i k hk hkl.2).trans (hother i k hk hkl.1)
    · cases xs with
      | nil =>
        obtain ⟨rfl, rfl⟩ : l = k ∧ ls = ys := by simpa using hxs
        exact (g4 _ _ hl hnot).trans (hreg hr hd hl j hj)
      | cons x xs =>
        obtain ⟨rfl, rfl⟩ : l = x ∧ ls = xs ++ k :: ys := by simpa using hxs
        dsimp only
        rw [hstep]
        exact g5 hr hd xs k ys rfl j hj

end

end Sys2Proof.Machine
end

section
/-! The places of an atomic: at home, in the core's view of memory, in a Barn (07 R184; 08 R218). -/

namespace Sys2Proof.Machine

/-! ### Writes at home -/

theorem mem_writeHome (s : State) (a n : Nat) (f : Nat → Byte) : (s.writeHome a n f).mem = mapSetRange 0 f a n s.mem :=
  (signalled_fireRange (s.putBytes a n f) a n).mem

theorem cores_writeHome (s : State) (a n : Nat) (f : Nat → Byte) : (s.writeHome a n f).cores = s.cores :=
  (signalled_fireRange (s.putBytes a n f) a n).cores

theorem promo_writeHome (s : State) (a n : Nat) (f : Nat → Byte) : (s.writeHome a n f).promo = s.promo :=
  (signalled_fireRange (s.putBytes a n f) a n).promo

theorem byteAt_writeHomeNum (s : State) (a n x b : Nat) :
    (s.writeHomeNum a n x).byteAt b = if a ≤ b ∧ b < a + n then byteAt x (b - a) else s.byteAt b := by
  rw [State.byteAt, State.writeHomeNum, mem_writeHome, mapGet_setRange]
  rfl

theorem readLE_byteAt (m a n : Nat) : readLE (fun b => byteAt m (b - a)) a n = m % 256 ^ n := by
  have key : ∀ n k, readLE (fun b => byteAt m (b - a)) (a + k) n = m / 256 ^ k % 256 ^ n := by
    intro n
    induction n with
    | zero => intro k; simp [readLE, Nat.mod_one]
    | succ n ih =>
      intro k
      have hmod : m / 256 ^ k % (256 * 256 ^ n) = m / 256 ^ k % 256 + 256 * (m / 256 ^ k / 256 % 256 ^ n) := Nat.mod_mul
      rw [readLE, Nat.add_assoc, ih (k + 1), byteAt, Nat.add_sub_cancel_left, BitVec.toNat_ofNat, Nat.pow_succ' (n := n),
        hmod, Nat.div_div_eq_div_mul, ← Nat.pow_succ]
  have h := key n 0
  rwa [Nat.add_zero, Nat.pow_zero, Nat.div_one] at h

theorem pow256 (n : Nat) : (256 : Nat) ^ n = 2 ^ (8 * n) := by rw [Nat.pow_mul]

/-- The value of a location whose bytes are those of `m`. -/
theorem readLE_stored {g : Nat → Byte} {a n m : Nat} (hm : m < 2 ^ (8 * n))
    (h : ∀ b, a ≤ b → b < a + n → g b = byteAt m (b - a)) : readLE g a n = m := by
  rw [readLE_congr h, readLE_byteAt, pow256, Nat.mod_eq_of_lt hm]

/-! ### At home -/

theorem promo_writeBackLines (core : Nat) (ls : List Nat) (s : State) : (s.writeBackLines core ls).promo = s.promo := by
  induction ls generalizing s with
  | nil => rfl
  | cons l ls ih => exact (ih _).trans (promo_writeBackOne s core l)

theorem promo_drainQueues (s : State) (core : Nat) : (s.drainQueues core).promo = s.promo := by
  have : ∀ (qs : List QueuedByte) (s : State), (s.drainList qs).promo = s.promo := fun qs => by
    induction qs with
    | nil => exact fun _ => rfl
    | cons q qs ih => exact fun s => ih _
  exact this _ s

/-- After a flush the promotion record names the core for the line no more (08 R224). -/
theorem promo_flushLine (s : State) (core line : Nat) : (line, core) ∉ (s.flushLine core line).promo := by
  show (line, core) ∉ (s.writeBack core line).promo
  unfold State.writeBack
  split
  · show (line, core) ∉ List.filter _ _
    simp
  · next h =>
    rw [promo_writeBackOne]
    simpa using h

/-- The flush of a line that a core neither holds nor has promised changes no byte at home. -/
theorem mem_flushLine_absent {s : State} {core line : Nat} (h : s.l1Line core line = none) (hp : (line, core) ∉ s.promo) :
    (s.flushLine core line).mem = s.mem := by
  show (s.writeBack core line).mem = s.mem
  unfold State.writeBack
  rw [if_neg (by simpa using hp), State.writeBackOne, h]

theorem l1Line_flushLine_self (s : State) (core line : Nat) : (s.flushLine core line).l1Line core line = none := by
  rw [State.flushLine, l1Line_setLine, if_pos ⟨rfl, rfl⟩]

/-- Before an atomic at home: what home holds once the core's copy is flushed. -/
def homeBefore (core pa n : Nat) (v : Nat → Byte) (q : State) (m : Nat) : Prop :=
  q.gang.core = core ∧ (q.flushLine core (pa / 128)).readHome pa n = m ∧
    ∀ b, ¬ (pa ≤ b ∧ b < pa + n) → (q.flushLine core (pa / 128)).byteAt b = v b

/-- After one: home holds the location, and the core has no copy. -/
def homeAfter (core pa n : Nat) (v : Nat → Byte) (q : State) (m : Nat) : Prop :=
  q.gang.core = core ∧ m < 2 ^ (8 * n) ∧ q.l1Line core (pa / 128) = none ∧ (pa / 128, core) ∉ q.promo ∧
    ∀ b, q.byteAt b = if pa ≤ b ∧ b < pa + n then byteAt m (b - pa) else v b

theorem atomPlace_home {core pa n sc : Nat} {v : Nat → Byte} {page : Page} (hsc : 3 ≤ sc) :
    AtomPlace n sc (.mem pa page) (homeBefore core pa n v) (homeAfter core pa n v) where
  weaken q m := by
    rintro ⟨hcore, hm, hline, hpromo, hbyte⟩
    have hmem := mem_flushLine_absent hline hpromo
    have hb : ∀ b, (q.flushLine core (pa / 128)).byteAt b = q.byteAt b := fun b => by rw [State.byteAt, hmem, State.byteAt]
    refine ⟨hcore, ?_, fun b hn => by rw [hb, hbyte, if_neg hn]⟩
    exact readLE_stored hm (fun b h1 h2 => by rw [hb, hbyte, if_pos ⟨h1, h2⟩])
  access q m code f := by
    rintro ⟨hcore, hm, hbyte⟩
    have hr : q.atomicAt n code sc f (.mem pa page) =
        ((q.flushLine core (pa / 128)).writeHomeNum pa n (f m), m) := by
      simp only [State.atomicAt, if_neg (by omega : ¬ sc < 3), hcore, hm]
    rw [hr]
    have hacc : q.accessed ((q.flushLine core (pa / 128)).writeHomeNum pa n (f m)) :=
      (accessed_flushLine q core _).trans (accessed_writeHome _ _ _ _)
    refine ⟨rfl, ⟨hacc.core.trans hcore, Nat.mod_lt _ (by positivity), ?_, ?_, fun b => ?_⟩, hacc⟩
    · rw [State.l1Line, State.coreAt, State.writeHomeNum, cores_writeHome]
      exact l1Line_flushLine_self q core (pa / 128)
    · rw [State.writeHomeNum, promo_writeHome]
      exact promo_flushLine q core (pa / 128)
    · rw [byteAt_writeHomeNum]
      split
      · rw [← pow256, byteAt_mod _ (by omega)]
      · next h => exact hbyte b h
  gang q m f hf h := by
    obtain ⟨hcore, hrest⟩ := h
    exact ⟨by rw [State.gang_updGang, hf, hcore], hrest⟩

/-! ### In the core's view -/

theorem mem_probe (s : State) (core line : Nat) (page : Page) :
    (s.probe core line page).1.mem = s.mem ∧ (s.probe core line page).1.cores = s.cores := by
  unfold State.probe
  dsimp only
  split
  · exact ⟨rfl, rfl⟩
  · split
    · exact ⟨rfl, rfl⟩
    · split
      · exact ⟨rfl, rfl⟩
      · split <;> exact ⟨rfl, rfl⟩

theorem mem_learn (page : Page) (cls : List Nat) (s : State) :
    (s.learn page cls).mem = s.mem ∧ (s.learn page cls).cores = s.cores := by
  have key : ∀ (xs : List Nat) (s : State), (xs.foldl (fun s c => match cls.find? (fun d => decide (d ≠ c)) with
      | some d => s.updCluster c (fun k => { k with predictor := mapPut (page.va % 256) (page.va / 256, d) k.predictor })
      | none => s) s).mem = s.mem ∧ (xs.foldl (fun s c => match cls.find? (fun d => decide (d ≠ c)) with
      | some d => s.updCluster c (fun k => { k with predictor := mapPut (page.va % 256) (page.va / 256, d) k.predictor })
      | none => s) s).cores = s.cores := fun xs => by
    induction xs with
    | nil => exact fun _ => ⟨rfl, rfl⟩
    | cons x xs ih =>
      intro s
      rw [List.foldl_cons]
      refine ⟨(ih _).1.trans ?_, (ih _).2.trans ?_⟩ <;> split <;> rfl
  exact key cls s

theorem mem_multicast (s : State) (core line : Nat) (page : Page) :
    (s.multicast core line page).mem = s.mem ∧ (s.multicast core line page).cores = s.cores := by
  unfold State.multicast
  dsimp only
  split
  · exact ⟨rfl, rfl⟩
  · split
    · exact ⟨rfl, rfl⟩
    · split
      · exact ⟨rfl, rfl⟩
      · exact mem_learn page _ _

theorem look_congr {s t : State} (hm : t.mem = s.mem) (hc : t.cores = s.cores) (core b : Nat) : t.look core b = s.look core b := by
  unfold State.look State.l1Line State.coreAt State.byteAt
  rw [hm, hc]

/-- A load with room for its line changes no byte at home, and none of the core's view of another line. -/
theorem l1Fill_of_free {s : State} {core line : Nat} (wid code : Nat) (page : Page) (h : s.lineFree core line) :
    (s.l1Fill core wid line code page).mem = s.mem ∧
      ∀ b, b / 128 ≠ line → (s.l1Fill core wid line code page).look core b = s.look core b := by
  obtain ⟨x, hx, -⟩ := allocLine_of_free wid code page h
  unfold State.l1Fill
  simp only [hx]
  split
  · exact ⟨rfl, fun b hb => by rw [look_setLine, if_neg hb]⟩
  · have hp := mem_probe s core line page
    split
    · exact ⟨hp.1, fun b hb => by rw [look_setLine, if_neg hb, look_congr hp.1 hp.2]⟩
    · have hm := mem_multicast (s.probe core line page).1 core line page
      exact ⟨hm.1.trans hp.1, fun b hb => by
        rw [look_setLine, if_neg hb, look_congr (hm.1.trans hp.1) (hm.2.trans hp.2)]⟩

/-- Before an atomic below nbh scope: what the core's line would hold once filled. -/
def viewBefore (core pa n : Nat) (page : Page) (u : State) (q : State) (m : Nat) : Prop :=
  q.gang.core = core ∧ q.lineFree core (pa / 128) ∧ readLE (q.filled core pa page) pa n = m ∧ q.mem = u.mem ∧
    (∀ b, b / 128 = pa / 128 → ¬ (pa ≤ b ∧ b < pa + n) → q.filled core pa page b = u.filled core pa page b) ∧
    ∀ b, b / 128 ≠ pa / 128 → q.look core b = u.look core b

/-- After one: the core's line holds the location. -/
def viewAfter (core pa n : Nat) (page : Page) (u : State) (q : State) (m : Nat) : Prop :=
  q.gang.core = core ∧ m < 2 ^ (8 * n) ∧ (∃ x, q.l1Line core (pa / 128) = some x ∧ x.valid = BitVec.allOnes 128) ∧
    q.mem = u.mem ∧ ∀ b, q.look core b = if pa ≤ b ∧ b < pa + n then byteAt m (b - pa)
      else if b / 128 = pa / 128 then u.filled core pa page b else u.look core b

theorem look_of_valid {s : State} {core pa b : Nat} {x : L1Line} (page : Page) (hx : s.l1Line core (pa / 128) = some x)
    (hv : x.valid = BitVec.allOnes 128) (hb : b / 128 = pa / 128) : s.filled core pa page b = s.look core b := by
  rw [filled_of_valid page hx hv, look_of_line (hb ▸ hx), L1Line.lookIn, hv, allOnes_bit, if_pos rfl]

theorem atomPlace_view {core pa n sc : Nat} {u : State} {page : Page} (hsc : sc < 3) (hpa : pa % 128 + n ≤ 128) :
    AtomPlace n sc (.mem pa page) (viewBefore core pa n page u) (viewAfter core pa n page u) where
  weaken q m := by
    rintro ⟨hcore, hm, ⟨x, hx, hv⟩, hmem, hlook⟩
    refine ⟨hcore, .inl (by rw [hx]; rfl), ?_, hmem, fun b hb hn => ?_, fun b hb => ?_⟩
    · refine readLE_stored hm (fun b h1 h2 => ?_)
      rw [look_of_valid page hx hv (by omega), hlook, if_pos ⟨h1, h2⟩]
    · rw [look_of_valid page hx hv hb, hlook, if_neg hn, if_pos hb]
    · rw [hlook, if_neg (by omega), if_neg hb]
  access q m code f := by
    rintro ⟨hcore, hfree, hm, hmem, hin, hout⟩
    have hfill := filledIn_l1Fill q core q.gang.wid pa code page
    have hold := l1Fill_of_free q.gang.wid code page hfree
    have hval : (q.plainLoad core q.gang.wid pa n code page).2 = m := by rw [plainLoad_value hpa, hm]
    obtain ⟨x, hx, hv, -⟩ := hfill.line
    have hr : q.atomicAt n code sc f (.mem pa page) =
        ((q.l1Fill core q.gang.wid (pa / 128) code page).l1Store core q.gang.wid pa n (f m) code page, m) := by
      simp only [State.atomicAt, if_pos hsc, hcore, hval]
      rfl
    rw [hr]
    generalize hq1 : q.l1Fill core q.gang.wid (pa / 128) code page = q1 at hfill hold hx
    have hst := storedIn_l1Store (s := q1) (core := core) (a := pa) q.gang.wid n (f m) code page (.inl (by rw [hx]; rfl)) hpa
    have hx2 : (q1.l1Store core q.gang.wid pa n (f m) code page).l1Line core (pa / 128) =
        some ((q1.touch q.gang.wid code x).store (pa % 128) n (f m)) := by
      simp only [State.l1Store, State.l1Put, allocLine_held hx, l1Line_setLine, and_self, if_true]
    have hv2 : ((q1.touch q.gang.wid code x).store (pa % 128) n (f m)).valid = BitVec.allOnes 128 := by
      apply BitVec.eq_of_getLsbD_eq
      intro i hi
      rw [valid_store _ _ _ _ _ hi, valid_touch, hv, BitVec.getLsbD_allOnes]
      simp [hi]
    refine ⟨rfl, ⟨?_, Nat.mod_lt _ (by positivity), ⟨_, hx2, hv2⟩, (hst.mem.trans hold.1).trans hmem, fun b => ?_⟩,
      hfill.acc.trans (accessed_l1Put _ _ _ _ _ _ _ _ _)⟩
    · rw [hst.gang, hfill.acc.core, hcore]
    · rw [hst.look]
      by_cases h : pa ≤ b ∧ b < pa + n
      · rw [if_pos h, if_pos h, ← pow256, byteAt_mod _ (by omega)]
      · rw [if_neg h, if_neg h]
        by_cases hb : b / 128 = pa / 128
        · rw [if_pos hb, hfill.look hb, hin b hb h]
        · rw [if_neg hb, hold.2 b hb, hout b hb]
  gang q m f hf h := by
    obtain ⟨hcore, hrest⟩ := h
    exact ⟨by rw [State.gang_updGang, hf, hcore], hrest⟩

end Sys2Proof.Machine
end

section
/-! The place of an atomic in a Barn: the banks, once the store queues have reached them (07 R184; 08 R218). -/

namespace Sys2Proof.Machine

theorem squeue_drainQueues (s : State) (core c : Nat) :
    ((s.drainQueues core).coreAt c).squeue = if c = core then [] else (s.coreAt c).squeue := by
  split
  · next h => rw [h]; exact squeue_drainQueues_own s core
  · next h => rw [State.drainQueues, State.coreAt_updCore_other _ h, coreAt_drainList]

theorem bankByte_updCore_squeue (s : State) (core c b : Nat) (qs : List QueuedByte) :
    (s.updCore core (fun x => { x with squeue := qs })).bankByte c b = s.bankByte c b := by
  unfold State.bankByte
  by_cases h : c = core
  · rw [h, State.coreAt_updCore]
  · rw [State.coreAt_updCore_other _ h]

/-- Empty queues leave the banks as they are. -/
theorem bankByte_drainQueues_empty {s : State} {core : Nat} (h : (s.coreAt core).squeue = []) (c b : Nat) :
    (s.drainQueues core).bankByte c b = s.bankByte c b := by
  rw [State.drainQueues, bankByte_updCore_squeue, h]
  rfl

theorem bankByte_putBank (s : State) (core a : Nat) (x : Byte) (c b : Nat) :
    (s.putBank core a x).bankByte c b = if c = core ∧ b = a then x else s.bankByte c b := by
  unfold State.bankByte State.putBank
  by_cases h : c = core
  · rw [h, State.coreAt_updCore]
    simp only [mapGet_set, true_and]
  · rw [State.coreAt_updCore_other _ h, if_neg (fun hc => h hc.1)]

theorem squeue_putBank (s : State) (core a : Nat) (x : Byte) (c : Nat) :
    ((s.putBank core a x).coreAt c).squeue = (s.coreAt c).squeue := by rw [coreAt_putBank]

theorem barnByte_of_empty {s : State} {by_ : Nat} (h : (s.coreAt by_).squeue = []) (c b : Nat) :
    s.barnByte by_ c b = s.bankByte c b := by rw [State.barnByte, h]; rfl

theorem length_bytesLE (n x : Nat) : (bytesLE n x).length = n := by
  induction n generalizing x with
  | zero => rfl
  | succ n ih => rw [bytesLE, List.length_cons, ih]

theorem getD_bytesLE {n i : Nat} (hi : i < n) (x : Nat) : (bytesLE n x).getD i 0 = byteAt x i := by
  induction n generalizing x i with
  | zero => omega
  | succ n ih =>
    cases i with
    | zero => rw [byteAt, Nat.pow_zero, Nat.div_one]; rfl
    | succ i => rw [bytesLE, List.getD_cons_succ, ih (by omega), byteAt, byteAt, Nat.div_div_eq_div_mul, ← Nat.pow_succ']

/-- What a write straight into the banks of a tile leaves, with no byte queued on the tile's core. -/
structure State.bankedIn (core : Nat) (t : Tile) (off : Nat) (bs : List Byte) (s s' : State) : Prop where
  own : ∀ i, i < bs.length → s'.bankByte core (t.phys (off + i)) = bs.getD i 0
  other : ∀ c b, ¬ (c = core ∧ ∃ i, i < bs.length ∧ b = t.phys (off + i)) → s'.bankByte c b = s.bankByte c b
  mem : s'.mem = s.mem
  squeue : ∀ c, (s'.coreAt c).squeue = (s.coreAt c).squeue

theorem bankedIn_tileBankWrite {core : Nat} {t : Tile} (hn : t.granules.Nodup) (hl : t.level = 0) (bs : List Byte) {off : Nat}
    (hext : off + bs.length ≤ t.granules.length * 128) {s : State} (hq : (s.coreAt core).squeue = []) :
    State.bankedIn core t off bs s (s.tileBankWrite core t off bs) := by
  induction bs generalizing s off with
  | nil => exact ⟨fun i h => absurd h (by simp), fun _ _ _ => rfl, rfl, fun _ => rfl⟩
  | cons x bs ih =>
    rw [List.length_cons] at hext
    have hin : off / granuleSize t.level < t.granules.length := by
      rw [hl]
      simp only [granuleSize, if_true]
      omega
    have hstep : s.tileBankWrite core t off (x :: bs) = (s.putBank core (t.phys off) x).tileBankWrite core t (off + 1) bs := by
      rw [State.tileBankWrite]
      simp only [if_pos hin, State.bankStore, hq, queuedByte, Option.isSome_none, Bool.false_eq_true, if_false]
    rw [hstep]
    have h := ih (off := off + 1) (by omega) (s := s.putBank core (t.phys off) x) ((squeue_putBank s _ _ _ _).trans hq)
    refine ⟨fun i hi => ?_, fun c b hb => ?_, h.mem, fun c => (h.squeue c).trans (squeue_putBank s _ _ _ _)⟩
    · cases i with
      | zero =>
        have hfar : ¬ (core = core ∧ ∃ i, i < bs.length ∧ t.phys off = t.phys (off + 1 + i)) := by
          rintro ⟨-, i, hi, he⟩
          have := phys_inj hn hl (by omega) (by omega) he
          omega
        exact (h.other core _ hfar).trans (by rw [bankByte_putBank, if_pos ⟨rfl, rfl⟩]; rfl)
      | succ i =>
        rw [show off + (i + 1) = off + 1 + i by omega, h.own i (by simpa using hi)]
        rfl
    · have hrest : ¬ (c = core ∧ ∃ i, i < bs.length ∧ b = t.phys (off + 1 + i)) := by
        rintro ⟨hc, i, hi, he⟩
        exact hb ⟨hc, i + 1, by simpa using hi, by rw [he]; congr 1; omega⟩
      rw [h.other c b hrest, bankByte_putBank, if_neg]
      rintro ⟨hc, he⟩
      exact hb ⟨hc, 0, by simp, by rw [he, Nat.add_zero]⟩

/-- The store queues of a Barn's core and of the issuing core have reached the banks. -/
def State.drainedFor (s : State) (tc core : Nat) : State := (s.drainQueues tc).drainQueues core

theorem squeue_drainedFor (s : State) (tc core : Nat) :
    ((s.drainedFor tc core).coreAt tc).squeue = [] ∧ ((s.drainedFor tc core).coreAt core).squeue = [] := by
  constructor
  · rw [State.drainedFor, squeue_drainQueues, squeue_drainQueues, if_pos rfl]
    split <;> rfl
  · exact squeue_drainQueues_own _ _

theorem bankByte_drainedFor_empty {s : State} {tc core : Nat} (ht : (s.coreAt tc).squeue = []) (hc : (s.coreAt core).squeue = [])
    (c b : Nat) : (s.drainedFor tc core).bankByte c b = s.bankByte c b := by
  rw [State.drainedFor, bankByte_drainQueues_empty, bankByte_drainQueues_empty ht]
  rw [squeue_drainQueues]
  split
  · rfl
  · exact hc

/-- Before an atomic in a Barn: what the banks hold once the queues have reached them. -/
def barnBefore (core tc : Nat) (tl : Tile) (off n : Nat) (u : State) (q : State) (m : Nat) : Prop :=
  q.gang.core = core ∧ readLE (fun i => (q.drainedFor tc core).bankByte tc (tl.phys i)) off n = m ∧ q.mem = u.mem ∧
    ∀ k b, ¬ (k = tc ∧ ∃ i, i < n ∧ b = tl.phys (off + i)) →
      (q.drainedFor tc core).bankByte k b = (u.drainedFor tc core).bankByte k b

/-- After one: nothing is queued, and the banks hold the location. -/
def barnAfter (core tc : Nat) (tl : Tile) (off n : Nat) (u : State) (q : State) (m : Nat) : Prop :=
  q.gang.core = core ∧ m < 2 ^ (8 * n) ∧ (q.coreAt tc).squeue = [] ∧ (q.coreAt core).squeue = [] ∧ q.mem = u.mem ∧
    (∀ i, i < n → q.bankByte tc (tl.phys (off + i)) = byteAt m i) ∧
    ∀ k b, ¬ (k = tc ∧ ∃ i, i < n ∧ b = tl.phys (off + i)) → q.bankByte k b = (u.drainedFor tc core).bankByte k b

theorem atomPlace_barn {core tc n sc off : Nat} {tl : Tile} {u : State} (hn : tl.granules.Nodup) (hl : tl.level = 0)
    (hext : off + n ≤ tl.granules.length * 128) :
    AtomPlace n sc (.tile tc tl off) (barnBefore core tc tl off n u) (barnAfter core tc tl off n u) where
  weaken q m := by
    rintro ⟨hcore, hm, htc, hco, hmem, hown, hother⟩
    refine ⟨hcore, readLE_stored hm fun b h1 h2 => ?_, hmem, fun k b hb => ?_⟩
    · rw [bankByte_drainedFor_empty htc hco, show b = off + (b - off) by omega, hown _ (by omega), Nat.add_sub_cancel_left]
    · rw [bankByte_drainedFor_empty htc hco, hother k b hb]
  access q m code f := by
    rintro ⟨hcore, hm, hmem, hother⟩
    obtain ⟨htc, hco⟩ := squeue_drainedFor q tc core
    have hread : (q.drainedFor tc core).tileRead tc tc tl off n = m := by
      rw [State.tileRead, ← hm]
      exact readLE_congr fun b _ _ => barnByte_of_empty htc _ _
    have hr : q.atomicAt n code sc f (.tile tc tl off) =
        ((q.drainedFor tc core).tileBankWrite tc tl off (bytesLE n (f m)), m) := by
      simp only [State.atomicAt, hcore]
      change ((q.drainedFor tc core).tileBankWrite tc tl off (bytesLE n (f ((q.drainedFor tc core).tileRead tc tc tl off n))), _) = _
      rw [hread]
      exact congrArg (Prod.mk _) hread
    rw [hr]
    have hlen : (bytesLE n (f m)).length = n := length_bytesLE _ _
    have h := bankedIn_tileBankWrite hn hl (bytesLE n (f m)) (off := off) (by omega) htc
    have hacc : q.accessed ((q.drainedFor tc core).tileBankWrite tc tl off (bytesLE n (f m))) :=
      ((accessed_drainQueues q tc).trans (accessed_drainQueues _ core)).trans (accessed_tileBankWrite _ _ _ _ _)
    rw [show (q.drainedFor tc core).tileBankWrite tc tl off (bytesLE n (f m)) = _ from rfl] at h
    refine ⟨rfl, ⟨hacc.core.trans hcore, Nat.mod_lt _ (by positivity), (h.squeue tc).trans htc, (h.squeue core).trans hco,
      ?_, fun i hi => ?_, fun k b hb => ?_⟩, hacc⟩
    · rw [h.mem, ← hmem]
      simp [State.drainedFor]
    · rw [h.own i (by omega), ← pow256, byteAt_mod _ hi, getD_bytesLE hi]
    · rw [h.other k b (by rwa [hlen]), hother k b hb]
  gang q m f hf h := by
    obtain ⟨hcore, hrest⟩ := h
    exact ⟨by rw [State.gang_updGang, hf, hcore], hrest⟩

end Sys2Proof.Machine
end

section
/-! The atomic words, their lanes at one place of this device (07 R182 to R184). -/

namespace Sys2Proof.Machine

/-! ### The acquire of a lock word -/

theorem mem_acquireAfter (s : State) (id sc : Nat) : (s.acquireAfter id sc).mem = s.mem := by
  unfold State.acquireAfter State.acquireActs
  split
  · rfl
  · split <;> rfl

theorem bankByte_dropClean (s : State) (core c b : Nat) : (s.dropClean core).bankByte c b = s.bankByte c b := by
  unfold State.bankByte State.dropClean
  by_cases h : c = core
  · rw [h, State.coreAt_updCore]
    rfl
  · rw [State.coreAt_updCore_other _ h]
    rfl

theorem bankByte_acquireAfter (s : State) (id sc c b : Nat) : (s.acquireAfter id sc).bankByte c b = s.bankByte c b := by
  unfold State.acquireAfter State.acquireActs
  split
  · rfl
  · split
    · exact bankByte_dropClean s _ c b
    · rfl

theorem look_acquireAfter {sc : Nat} (h : sc < 3) (s : State) (id c b : Nat) :
    (s.acquireAfter id sc).look c b = s.look c b := by
  unfold State.acquireAfter State.acquireActs
  split
  · rfl
  · rw [if_neg (by omega)]

theorem gang_acquireAfter (s : State) (id sc : Nat) :
    (s.acquireAfter id sc).gang = { s.gang with holds := (s.acquireAfter id sc).gang.holds } := by
  unfold State.acquireAfter
  split
  · rw [State.gang_updGang]
  · rw [gang_acquireActs]

/-- What follows the lanes of an atomic: with .lock, the acquire. -/
def State.lockAfter (q : State) (lk : BitVec 1) (id sc : Nat) : State := if lk = 1 then q.acquireAfter id sc else q

theorem gang_lockAfter (q : State) (lk : BitVec 1) (id sc : Nat) :
    (q.lockAfter lk id sc).gang = { q.gang with holds := (q.lockAfter lk id sc).gang.holds } := by
  unfold State.lockAfter
  split
  · exact gang_acquireAfter q id sc
  · rfl

theorem mem_lockAfter (q : State) (lk : BitVec 1) (id sc : Nat) : (q.lockAfter lk id sc).mem = q.mem := by
  unfold State.lockAfter
  split
  · exact mem_acquireAfter q id sc
  · rfl

theorem bankByte_lockAfter (q : State) (lk : BitVec 1) (id sc c b : Nat) :
    (q.lockAfter lk id sc).bankByte c b = q.bankByte c b := by
  unfold State.lockAfter
  split
  · exact bankByte_acquireAfter q id sc c b
  · rfl

theorem look_lockAfter {sc : Nat} (h : sc < 3) (q : State) (lk : BitVec 1) (id c b : Nat) :
    (q.lockAfter lk id sc).look c b = q.look c b := by
  unfold State.lockAfter
  split
  · exact look_acquireAfter h q id c b
  · rfl

/-! ### The lanes at one place -/

section
variable {s u : State} {i : Instr} {fs : OpndsOf} {f : Form} {op : AtomOp} {d a : Code} {lk ret w : BitVec 1} {sc sp m l : Nat}
  {ls : List Nat} {tg : Target} {P Q : State → Nat → Prop}

theorem lanesAt_lanes (hl : s.lanesAt f a u ((l :: ls).map (fun k => (k, tg)))) :
    (l :: ls).Nodup ∧ ∀ k ∈ l :: ls, k < 32 := by
  obtain ⟨hlanes, -, -⟩ := hl
  have he : s.gang.memLanes = l :: ls := by simpa [Function.comp_def] using hlanes
  exact ⟨he ▸ List.nodup_range.filter _, fun k hk => (issuing_of_memLane (he ▸ hk)).2⟩

/-- The lanes of an atomic that name one place of this device, which holds `m`. -/
theorem atomic_lanes (hplace : AtomPlace (wSize w) sc tg P Q) (hhere : tg.here = true)
    (hrun : memRuns i s fs f a (s.atomEffect op d a (wSize w) sc (lk = 1) (ret = 1) sp)) (hi : s.issues fs = true)
    (hl : s.lanesAt f a u ((l :: ls).map (fun k => (k, tg)))) (hm : m < 2 ^ (8 * wSize w)) (hP : ∀ done, P (u.counted f done) m) :
    ∃ q id, exec i s = .next (q.lockAfter lk id sc).finished ∧
      s.atomEnd (q.lockAfter lk id sc).finished op d a lk w ret sp m (l :: ls) ∧
      Q q (s.atomFold op d a lk w sp m (l :: ls)).1 := by
  obtain ⟨hnodup, hlt⟩ := lanesAt_lanes hl
  obtain ⟨hnot, hnodup'⟩ := List.nodup_cons.mp hnodup
  obtain ⟨hl32, hlt'⟩ := List.forall_mem_cons.mp hlt
  obtain ⟨done, he⟩ := exec_lanesAt hrun hi hl rfl rfl
  have hall : ∀ t ∈ (l :: ls).map (fun k => (k, tg)), t.2.here = true := by simp [hhere]
  rw [runLanes_here hall rfl rfl, List.foldl_map, List.foldl_cons] at he
  obtain ⟨hfocus, -⟩ := focus_lanesAt hl
  have hcount := gang_counted u f done
  obtain ⟨h1, hflow, hlocks, hother, hreg⟩ := atomLane_step (s := s) (op := op) (d := d) (a := a) (lk := lk) (ret := ret)
    (sp := sp) (id := u.nextId) hplace hm (hP done) l
  obtain ⟨g1, g2, g3, g4, g5⟩ := atomLanes_fold (s := s) (op := op) (d := d) (a := a) (lk := lk) (ret := ret) (sp := sp)
    (id := u.nextId) hplace ls hnodup' hlt' (atomResult_lt s op d w l hm) h1
  have hfl0 : (u.counted f done).gang.flow = s.gang.flow := by rw [hcount, hfocus]
  have hlk0 : (u.counted f done).gang.locks = s.gang.locks := by rw [hcount, hfocus]
  rw [hlk0] at hlocks
  have hfold : ∀ xs : List Nat, s.atomFold op d a lk w sp m (l :: xs) = xs.foldl (s.atomStep op d a lk w sp)
      (s.atomResult op d w l m, ((s.atomEffect op d a (wSize w) sc (lk = 1) (ret = 1) sp).act u.nextId (u.counted f done)
        l tg).gang.locks) := fun xs => by
    rw [atomFold_eq, List.foldl_cons, hlocks]
    rfl
  generalize ls.foldl _ _ = q at he g1 g2 g3 g4 g5
  have hg := gang_lockAfter q lk u.nextId sc
  have hafter : (s.atomEffect op d a (wSize w) sc (lk = 1) (ret = 1) sp).after u.nextId q = q.lockAfter lk u.nextId sc := by
    simp only [State.atomEffect, State.lockAfter, decide_eq_true_eq]
  rw [hafter] at he
  refine ⟨q, u.nextId, he, ⟨past_finished _ ?_, ?_, fun hr hd xs k ys hxs j hj => ?_⟩, ?_⟩
  · rw [hg]
    exact (g2.trans hflow).trans hfl0
  · rw [locks_finished, hg, hfold]
    exact g3
  · rw [v_finished, show (q.lockAfter lk u.nextId sc).gang.v = q.gang.v by rw [hg]; rfl]
    cases xs with
    | nil =>
      obtain ⟨rfl, rfl⟩ : l = k ∧ ls = ys := by simpa using hxs
      exact (g4 _ _ hl32 hnot).trans (hreg hr hd hl32 j hj)
    | cons x xs =>
      obtain ⟨rfl, rfl⟩ : l = x ∧ ls = xs ++ k :: ys := by simpa using hxs
      rw [hfold]
      exact g5 hr hd xs k ys rfl j hj
  · rw [hfold]
    exact g1

end

theorem sameCaches_counted (u : State) (f : Form) (done : Bool) : u.sameCaches (u.counted f done) := by
  rw [counted_cases]
  exact ⟨rfl, rfl, rfl⟩

theorem readLE_lt_pow (g : Nat → Byte) (a : Nat) (w : BitVec 1) : readLE g a (wSize w) < 2 ^ (8 * wSize w) := by
  rw [← pow256]
  exact readLE_lt g a (wSize w)

section
variable {s u : State} {i : Instr} {fs : OpndsOf} {f : Form} {op : AtomOp} {d a : Code} {lk ret w : BitVec 1} {sc sp l pa : Nat}
  {ls : List Nat} {page : Page} {tc off : Nat} {tl : Tile}

theorem core_counted (hl : s.lanesAt f a u ((l :: ls).map (fun k => (k, tg)))) (done : Bool) :
    (u.counted f done).gang.core = s.gang.core := by
  rw [gang_counted u f done, (focus_lanesAt hl).1]
  rfl

/-- At scope nbh or wider an atomic performs at home. -/
theorem atomic_home (hsc : 3 ≤ sc) (hrun : memRuns i s fs f a (s.atomEffect op d a (wSize w) sc (lk = 1) (ret = 1) sp))
    (hi : s.issues fs = true) (hl : s.lanesAt f a u ((l :: ls).map (fun k => (k, .mem pa page)))) :
    let v := u.flushLine s.gang.core (pa / 128)
    let old := v.readHome pa (wSize w)
    ∃ t, exec i s = .next t ∧ s.atomEnd t op d a lk w ret sp old (l :: ls) ∧
      ∀ b, t.byteAt b = if pa ≤ b ∧ b < pa + wSize w then byteAt (s.atomFold op d a lk w sp old (l :: ls)).1 (b - pa)
        else v.byteAt b := by
  intro v old
  have hplace : AtomPlace (wSize w) sc (.mem pa page) _ _ := atomPlace_home (core := s.gang.core) (v := v.byteAt) hsc
  obtain ⟨q, id, he, hend, hQ⟩ := atomic_lanes hplace rfl hrun hi hl (readLE_lt_pow _ _ _ : old < _) (fun done => by
    obtain ⟨hmem, -, -⟩ := sameCaches_flushLine (sameCaches_counted u f done) s.gang.core (pa / 128)
    have hb : ((u.counted f done).flushLine s.gang.core (pa / 128)).byteAt = v.byteAt := by
      funext b
      rw [State.byteAt, hmem]
      rfl
    exact ⟨core_counted hl done, by rw [State.readHome, hb, ← State.readHome], fun b _ => by rw [hb]⟩)
  obtain ⟨-, -, -, -, hbyte⟩ := hQ
  exact ⟨_, he, hend, fun b => by rw [byteAt_finished, State.byteAt, mem_lockAfter]; exact hbyte b⟩

/-- Below scope nbh an atomic performs in the core's view. -/
theorem atomic_view (hsc : sc < 3) (hpa : pa % 128 + wSize w ≤ 128) (hroom : u.roomFor s.gang.core pa)
    (hrun : memRuns i s fs f a (s.atomEffect op d a (wSize w) sc (lk = 1) (ret = 1) sp))
    (hi : s.issues fs = true) (hl : s.lanesAt f a u ((l :: ls).map (fun k => (k, .mem pa page)))) :
    let old := readLE (u.filled s.gang.core pa page) pa (wSize w)
    ∃ t, exec i s = .next t ∧ s.atomEnd t op d a lk w ret sp old (l :: ls) ∧ t.mem = u.mem ∧
      ∀ b, t.look s.gang.core b =
        if pa ≤ b ∧ b < pa + wSize w then byteAt (s.atomFold op d a lk w sp old (l :: ls)).1 (b - pa)
        else if b / 128 = pa / 128 then u.filled s.gang.core pa page b else u.look s.gang.core b := by
  intro old
  have hplace : AtomPlace (wSize w) sc (.mem pa page) _ _ := atomPlace_view (core := s.gang.core) (u := u) (page := page) hsc hpa
  obtain ⟨q, id, he, hend, hQ⟩ := atomic_lanes hplace rfl hrun hi hl (readLE_lt_pow _ _ _ : old < _) (fun done => by
    have hf : (u.counted f done).filled s.gang.core pa page = u.filled s.gang.core pa page := by
      exact filled_counted u f done s.gang.core pa page
    refine ⟨core_counted hl done, lineFree_counted f done hroom, by rw [hf], mem_counted u f done, fun b _ _ => by rw [hf],
      fun b _ => look_counted u f done _ b⟩)
  obtain ⟨-, -, -, hmem, hlook⟩ := hQ
  exact ⟨_, he, hend, by rw [mem_finished, mem_lockAfter, hmem],
    fun b => by rw [look_finished, look_lockAfter hsc, hlook]⟩

/-- In a Barn an atomic performs in the banks. -/
theorem atomic_barn (hn : tl.granules.Nodup) (hlevel : tl.level = 0) (hext : off + wSize w ≤ tl.granules.length * 128)
    (hrun : memRuns i s fs f a (s.atomEffect op d a (wSize w) sc (lk = 1) (ret = 1) sp))
    (hi : s.issues fs = true) (hl : s.lanesAt f a u ((l :: ls).map (fun k => (k, .tile tc tl off)))) :
    let v := (u.drainQueues tc).drainQueues s.gang.core
    let old := readLE (fun i => v.bankByte tc (tl.phys i)) off (wSize w)
    ∃ t, exec i s = .next t ∧ s.atomEnd t op d a lk w ret sp old (l :: ls) ∧ t.mem = u.mem ∧
      (∀ i, i < wSize w → t.bankByte tc (tl.phys (off + i)) = byteAt (s.atomFold op d a lk w sp old (l :: ls)).1 i) ∧
      ∀ k b, ¬ (k = tc ∧ ∃ i, i < wSize w ∧ b = tl.phys (off + i)) → t.bankByte k b = v.bankByte k b := by
  intro v old
  have hplace : AtomPlace (wSize w) sc (.tile tc tl off) _ _ := atomPlace_barn (core := s.gang.core) (u := u) hn hlevel hext
  obtain ⟨q, id, he, hend, hQ⟩ := atomic_lanes hplace rfl hrun hi hl (readLE_lt_pow _ _ _ : old < _) (fun done => by
    have hsame : v.sameCaches ((u.counted f done).drainedFor tc s.gang.core) :=
      sameCaches_drainQueues (sameCaches_drainQueues (sameCaches_counted u f done) tc) s.gang.core
    have hb : ∀ k b, ((u.counted f done).drainedFor tc s.gang.core).bankByte k b = v.bankByte k b := fun k b => by
      rw [State.bankByte, State.coreAt, hsame.2.1]
      rfl
    exact ⟨core_counted hl done, readLE_congr fun b _ _ => hb _ _, mem_counted u f done, fun k b _ => hb k b⟩)
  obtain ⟨-, -, -, -, hmem, hown, hother⟩ := hQ
  exact ⟨_, he, hend, by rw [mem_finished, mem_lockAfter, hmem],
    fun i hi => by rw [bankByte_finished, bankByte_lockAfter, hown i hi],
    fun k b hb => by rw [bankByte_finished, bankByte_lockAfter, hother k b hb]; rfl⟩

end

end Sys2Proof.Machine
end

section
/-! Messages under way stay under way through the accesses of other words: only fetches and fills are ever called off
(08 R218, R220). -/

namespace Sys2Proof.Machine

/-- A message that a core's own write-back or acquire can change: a fetch of a line for its L1. -/
def MsgKind.fills : MsgKind → Bool
  | .fill .. => true
  | .fetch .. => true
  | _ => false

/-- Every message under way but the fetches of lines is still under way, as it was. -/
def State.keepsMsgs (s t : State) : Prop := ∀ m ∈ s.msgs, m.kind.fills = false → m ∈ t.msgs

namespace State.keepsMsgs

theorem of_eq {s t : State} (h : t.msgs = s.msgs) : s.keepsMsgs t := fun _ hm _ => h ▸ hm

theorem trans {s t u : State} (h1 : s.keepsMsgs t) (h2 : t.keepsMsgs u) : s.keepsMsgs u := fun m hm hk => h2 m (h1 m hm hk) hk

theorem since {s t u : State} (h : t.keepsMsgs u) (he : t.msgs = s.msgs) : s.keepsMsgs u := (of_eq he).trans h

theorem foldl {α : Type} {f : State → α → State} (h : ∀ (s : State) a, s.keepsMsgs (f s a)) (as : List α) (s : State) :
    s.keepsMsgs (as.foldl f s) := by
  induction as generalizing s with
  | nil => exact of_eq rfl
  | cons a as ih => exact (h s a).trans (ih _)

end State.keepsMsgs

/-- A message launched is under way, but for its link. -/
theorem launchMsg_mem (s : State) (m : Msg) : s.keepsMsgs (s.launchMsg m) ∧ ∃ l, { m with link := l } ∈ (s.launchMsg m).msgs := by
  have hadd : ∀ x : Msg, (∀ y ∈ s.msgs, y.kind.fills = false → y ∈ s.msgs ++ [x]) ∧ x ∈ s.msgs ++ [x] := fun x =>
    ⟨fun y hy _ => List.mem_append_left _ hy, List.mem_append_right _ List.mem_cons_self⟩
  unfold State.launchMsg
  split
  · exact ⟨(hadd _).1, none, (hadd _).2⟩
  · split
    · next e _ => exact ⟨(hadd { m with link := some e.1 }).1, some e.1, (hadd _).2⟩
    · exact ⟨(hadd _).1, s.linkTo m.dst m.addr, (hadd _).2⟩

/-- A message sent is under way, with a number, its sender, its generation and its link. -/
theorem send_mem (s : State) (m : Msg) :
    s.keepsMsgs (s.send m) ∧ ∃ i g l, { m with id := i, src := s.devid, gen := g, link := l } ∈ (s.send m).msgs := by
  obtain ⟨hk, l, hl⟩ := launchMsg_mem s.takeId.2 { m with id := s.nextId, src := s.devid, gen := s.takeId.2.pasidGen m.pasid }
  exact ⟨hk, _, _, l, hl⟩

theorem keepsMsgs_cancelFills (s : State) (core : Nat) (line : Option Nat) : s.keepsMsgs (s.cancelFills core line) := by
  intro m hm hk
  refine List.mem_map.mpr ⟨m, hm, ?_⟩
  cases h : m.kind <;> rw [h] at hk <;> simp_all [MsgKind.fills]

theorem keepsMsgs_fireWatches (s : State) (line : Nat) : s.keepsMsgs (s.fireWatches line) :=
  State.keepsMsgs.trans (t := { s with watches := s.watches.filter (fun w => decide (w.1 ≠ line)) }) (.of_eq rfl)
    (.foldl (fun s (w : Nat × Watcher) => by
      cases w.2 with
      | gang k => exact .of_eq rfl
      | far dev id => exact (send_mem s _).1) _ _)

theorem keepsMsgs_putDirty (s : State) (core line : Nat) (x : L1Line) : s.keepsMsgs (s.putDirty core line x) := by
  by_cases h : isFar line = true
  · obtain ⟨m, hm⟩ := putDirty_far (s := s) (core := core) (x := x) h
    rw [hm]
    exact (keepsMsgs_cancelFills s core _).trans (send_mem _ m).1
  · obtain ⟨bad, hb⟩ := putDirty_local (s := s) (core := core) (x := x) h
    rw [hb]
    exact (keepsMsgs_fireWatches _ _).since rfl

theorem keepsMsgs_writeBackOne (s : State) (core line : Nat) : s.keepsMsgs (s.writeBackOne core line) := by
  unfold State.writeBackOne
  split
  · exact .of_eq rfl
  · split
    · exact .of_eq rfl
    · exact (keepsMsgs_putDirty s core line _).trans (.of_eq rfl)

theorem keepsMsgs_pushCore (s : State) (core : Nat) : s.keepsMsgs (s.pushCore core) := by
  have hdrain : s.keepsMsgs (s.drainQueues core) :=
    State.keepsMsgs.trans (t := s.drainList (s.coreAt core).squeue)
      (.foldl (f := fun s (q : QueuedByte) => s.putBank q.core q.addr q.val) (fun _ _ => .of_eq rfl) _ _) (.of_eq rfl)
  refine hdrain.trans ?_
  unfold State.pushCore State.writeBackAll
  exact (State.keepsMsgs.foldl (fun s l => keepsMsgs_writeBackOne s core l) _ _).trans (.of_eq rfl)

theorem keepsMsgs_flushLine (s : State) (core line : Nat) : s.keepsMsgs (s.flushLine core line) := by
  unfold State.flushLine State.writeBack
  split
  · exact (keepsMsgs_pushCore s core).trans (.of_eq rfl)
  · exact (keepsMsgs_writeBackOne s core line).trans (.of_eq rfl)

theorem keepsMsgs_acquireActs (s : State) (core sc : Nat) : s.keepsMsgs (s.acquireActs core sc) := by
  unfold State.acquireActs
  split
  · exact (keepsMsgs_cancelFills s core none).trans (.of_eq rfl)
  · exact .of_eq rfl

end Sys2Proof.Machine
end

section
/-! An atomic whose lanes name a place of another device: each lane sends its operation there (07 R184). -/

namespace Sys2Proof.Machine

/-! ### The end of an operation that went to another device -/

theorem flow_settle (s : State) (id : Nat) : (s.settle s.cur id).gang.flow = s.gang.flow := by
  unfold State.settle
  split
  · rfl
  · dsimp only
    have hg : (s.updGangAt s.cur (fun g => { g.performed id with holds := g.holds.filter (fun h => decide (h.id ≠ id)) })).gang.flow =
        s.gang.flow := by
      rw [show s.updGangAt s.cur _ = s.updGang _ from rfl, State.gang_updGang]
      rfl
    split
    · rw [gang_acquireActs]
      exact hg
    · exact hg

theorem mem_settle (s : State) (k id : Nat) : (s.settle k id).mem = s.mem := by
  unfold State.settle State.acquireActs
  split
  · rfl
  · dsimp only
    split
    · split <;> rfl
    · rfl

theorem keepsMsgs_settle (s : State) (k id : Nat) : s.keepsMsgs (s.settle k id) := by
  unfold State.settle
  split
  · exact .of_eq rfl
  · dsimp only
    split
    · exact (keepsMsgs_acquireActs _ _ _).since rfl
    · exact .of_eq rfl

theorem keepsMsgs_lockAfter (q : State) (lk : BitVec 1) (id sc : Nat) : q.keepsMsgs (q.lockAfter lk id sc) := by
  unfold State.lockAfter State.acquireAfter
  split
  · split
    · exact .of_eq rfl
    · exact keepsMsgs_acquireActs _ _ _
  · exact .of_eq rfl

/-- The lanes of a word of which some are on another device perform in order, and its operation ends when nothing of it is
under way. -/
theorem runLanes_away {f : Form} {e : Effect} {id : Nat} {ts : List (Nat × Target)} {s : State}
    (hstop : ∀ t ∈ ts, t.2.stopped = false) (hfar : ts.any (fun t => t.2.far) = true) (hnow : e.now = true)
    (hlate : e.late id ts = none) :
    s.runLanes f e id ts = (e.after id (performLanes e id ts s)).settle (e.after id (performLanes e id ts s)).cur id := by
  simp only [State.runLanes, hnow, Bool.true_or, List.filter_true, afterLanes_none hstop, hlate, hfar, if_true]

/-! ### One lane's message -/

section
variable {s u : State} {i : Instr} {fs : OpndsOf} {f : Form} {op : AtomOp} {d a : Code} {lk ret w : BitVec 1} {sc sp pa id core : Nat}
  {ls : List Nat} {page : Page}

/-- The message by which lane `k` of the word sends its operation. -/
def State.isAtomMsg (s : State) (op : AtomOp) (d : Code) (ret w : BitVec 1) (pa k : Nat) (m : Msg) : Prop :=
  m.kind = .atomic (atomTag op (s.gang.et k < 13)) (wSize w) (BitVec.ofNat 64 (s.atomNewArg op d (wSize w) k)) ∧
    m.data = s.atomLow d (wSize w) k ∧ m.addr = pa ∧ m.dst = pa / 2 ^ 40 ∧
    m.gang = s.cur ∧ m.lane = k ∧ m.reg = if ret = 1 then d.toNat else 0xF0

/-- A lane of an atomic on another device: the core's copy of the line goes there, then the operation. -/
def State.atomSend (s : State) (op : AtomOp) (d a : Code) (lk ret w : BitVec 1) (sc sp id pa : Nat) (page : Page) (q : State) (k : Nat) :
    State :=
  let e := s.atomEffect op d a (wSize w) sc (lk = 1) (ret = 1) sp
  (e.request q k pa page).foldl (fun t m => t.sendLane id (pa + m.addr) k m) (e.prep q k pa page)

/-- A lane's message: the request's, to the place's device. -/
theorem sendLane_eq (s : State) (id pa l : Nat) (m0 : Msg) : ∃ m : Msg,
    s.sendLane id pa l m0 = (s.send m).updGang (fun g => { g with
      pend := g.pend ++ m.regs.map (fun r => { id := id, reg := r, lanes := m.lanes }) }) ∧
    m.kind = m0.kind ∧ m.data = m0.data ∧ m.reg = m0.reg ∧ m.addr = pa ∧ m.dst = pa / 2 ^ 40 ∧ m.gang = s.cur ∧ m.lane = l ∧
    m.opid = id :=
  ⟨_, rfl, rfl, rfl, rfl, rfl, rfl, rfl, rfl, rfl⟩

/-- The lane's message is under way, and what was under way still is; home is as the flush has left it, and the core has no
copy left. -/
theorem atomSend_spec {q : State} (hcore : q.gang.core = core) (hcur : q.cur = s.cur) (k : Nat) :
    let t := s.atomSend op d a lk ret w sc sp id pa page q k
    q.keepsMsgs t ∧ (∃ m ∈ t.msgs, s.isAtomMsg op d ret w pa k m) ∧ t.mem = (q.flushLine core (farLine pa)).mem ∧
      t.l1Line core (farLine pa) = none ∧ (farLine pa, core) ∉ t.promo ∧ t.gang.core = core ∧ t.gang.flow = q.gang.flow ∧
      t.cur = s.cur := by
  intro t
  have hacc := accessed_flushLine q core (farLine pa)
  obtain ⟨m, hm, ht⟩ : ∃ m : Msg, s.isAtomMsg op d ret w pa k m ∧
      t = ((q.flushLine core (farLine pa)).send m).updGang (fun g => { g with
        pend := g.pend ++ m.regs.map (fun r => { id := id, reg := r, lanes := m.lanes }) }) := by
    obtain ⟨m, hm, hkind, hdata, hreg, haddr, hdst, hgang, hlane, -⟩ := sendLane_eq (q.flushLine core (farLine pa)) id pa k
      { Msg.blank with
        kind := .atomic (atomTag op (s.gang.et k < 13)) (wSize w) (BitVec.ofNat 64 (s.atomNewArg op d (wSize w) k))
        data := s.atomLow d (wSize w) k
        reg := if ret = 1 then d.toNat else 0xF0
        dep := if lk = 1 then 1 else 0
        handle := BitVec.ofNat 64 (lockKey sp (wSize w) (s.vsrc64 a k)).1
        cell := (lockKey sp (wSize w) (s.vsrc64 a k)).2 }
    refine ⟨m, ⟨hkind, hdata, haddr, hdst, hgang.trans (hacc.cur.trans hcur), hlane, hreg⟩, ?_⟩
    rw [← hm, ← hcore]
    simp only [t, State.atomSend, State.atomEffect, List.foldl_cons, List.foldl_nil, decide_eq_true_eq]
    rfl
  generalize hv : q.flushLine core (farLine pa) = v at hacc ht
  have hsig := signalled_send v m
  obtain ⟨hkeep, j, g, l, hsent⟩ := send_mem v m
  have hg : t.gang = { v.gang with watch := t.gang.watch, pend := t.gang.pend } := by
    rw [ht, State.gang_updGang, State.gang, hsig.eq]
    have := hsig.gang v.cur
    rw [hsig.eq] at this
    rw [this]
    rfl
  have hcurv : (v.send m).cur = v.cur := by rw [hsig.eq]
  have hmsgs : t.msgs = (v.send m).msgs := by rw [ht]; rfl
  refine ⟨?_, ⟨_, hmsgs ▸ hsent, ?_⟩, ?_, ?_, ?_, ?_, ?_, ?_⟩
  · rw [ht]
    exact ((hv ▸ keepsMsgs_flushLine q core (farLine pa)).trans hkeep).trans (.of_eq rfl)
  · exact hm
  · rw [ht]
    exact hsig.mem
  · rw [ht, State.l1Line, State.coreAt]
    show mapFind _ (mapGet _ (v.send m).cores core).l1 = none
    rw [hsig.cores, ← hv]
    exact l1Line_flushLine_self q core (farLine pa)
  · rw [ht]
    show _ ∉ (v.send m).promo
    rw [hsig.promo, ← hv]
    exact promo_flushLine q core (farLine pa)
  · rw [hg]
    exact hacc.core.trans hcore
  · rw [hg]
    exact (congrArg Gang.flow hacc.focus :)
  · rw [ht]
    exact hcurv.trans (hacc.cur.trans hcur)

/-- The lanes of an atomic on another device, in order. -/
theorem atomSends_spec {q : State} (hcore : q.gang.core = core) (hcur : q.cur = s.cur) (ks : List Nat) :
    let t := ks.foldl (s.atomSend op d a lk ret w sc sp id pa page) q
    q.keepsMsgs t ∧ (∀ k ∈ ks, ∃ m ∈ t.msgs, s.isAtomMsg op d ret w pa k m) ∧ t.gang.flow = q.gang.flow ∧ t.cur = s.cur ∧
      (ks ≠ [] → t.mem = (q.flushLine core (farLine pa)).mem) := by
  induction ks generalizing q with
  | nil => exact ⟨.of_eq rfl, fun _ h => absurd h List.not_mem_nil, rfl, hcur, fun h => absurd rfl h⟩
  | cons k ks ih =>
    obtain ⟨hk, ⟨m, hm, hmsg⟩, hmem, hline, hpromo, hcore', hflow, hcur'⟩ := atomSend_spec (s := s) (op := op) (d := d) (a := a)
      (lk := lk) (ret := ret) (w := w) (sc := sc) (sp := sp) (id := id) (pa := pa) (page := page) hcore hcur k
    obtain ⟨g1, g2, g3, g4, g5⟩ := ih hcore' hcur'
    refine ⟨hk.trans g1, fun j hj => ?_, g3.trans hflow, g4, fun _ => ?_⟩
    · rcases List.mem_cons.mp hj with rfl | hj
      · exact ⟨m, g1 m hm (by rw [hmsg.1]; rfl), hmsg⟩
      · exact g2 j hj
    · rw [List.foldl_cons]
      by_cases hks : ks = []
      · subst hks
        exact hmem
      · exact (g5 hks).trans ((mem_flushLine_absent hline hpromo).trans hmem)

theorem performLanes_away (ks : List Nat) (q : State) :
    performLanes (s.atomEffect op d a (wSize w) sc (lk = 1) (ret = 1) sp) id (ks.map (fun k => (k, .remote pa page))) q =
      ks.foldl (s.atomSend op d a lk ret w sc sp id pa page) q := by
  induction ks generalizing q with
  | nil => rfl
  | cons k ks ih => exact ih _

theorem atomAfter (q : State) :
    (s.atomEffect op d a (wSize w) sc (lk = 1) (ret = 1) sp).after id q = q.lockAfter lk id sc := by
  simp only [State.atomEffect, State.lockAfter, decide_eq_true_eq]

/-- Every lane of an atomic on another device sends its operation there. -/
theorem atomic_away {l : Nat} (hrun : memRuns i s fs f a (s.atomEffect op d a (wSize w) sc (lk = 1) (ret = 1) sp))
    (hi : s.issues fs = true) (hl : s.lanesAt f a u ((l :: ls).map (fun k => (k, .remote pa page)))) :
    ∃ t, exec i s = .next t ∧ s.past t ∧ t.mem = (u.flushLine s.gang.core (farLine pa)).mem ∧
      ∀ k ∈ l :: ls, ∃ m ∈ t.msgs, s.isAtomMsg op d ret w pa k m := by
  obtain ⟨done, he⟩ := exec_lanesAt hrun hi hl rfl rfl
  obtain ⟨hfocus, hcurs⟩ := focus_lanesAt hl
  have hcount := gang_counted u f done
  have hcore := core_counted hl done
  obtain ⟨-, hmsgs, hflow, hcur, hmem⟩ := atomSends_spec (s := s) (op := op) (d := d) (a := a) (lk := lk) (ret := ret) (w := w)
    (sc := sc) (sp := sp) (id := u.nextId) (pa := pa) (page := page) hcore ((cur_counted u f done).trans hcurs) (l :: ls)
  have hmem := (hmem nofun).trans (sameCaches_flushLine (sameCaches_counted u f done) s.gang.core (farLine pa)).1
  have hrl : (u.counted f done).runLanes f (s.atomEffect op d a (wSize w) sc (lk = 1) (ret = 1) sp) u.nextId
      ((l :: ls).map (fun k => (k, .remote pa page))) =
      (fun q => (q.lockAfter lk u.nextId sc).settle (q.lockAfter lk u.nextId sc).cur u.nextId)
        ((l :: ls).foldl (s.atomSend op d a lk ret w sc sp u.nextId pa page) (u.counted f done)) := by
    rw [runLanes_away (by simp [Target.stopped]) (by simp [Target.far]) rfl rfl, performLanes_away, atomAfter]
  rw [hrl] at he
  generalize (l :: ls).foldl _ _ = q at he hmsgs hflow hcur hmem
  refine ⟨_, he, past_finished _ ?_, ?_, fun k hk => ?_⟩
  · dsimp only
    rw [flow_settle, gang_lockAfter]
    exact hflow.trans (by rw [hcount, hfocus])
  · rw [mem_finished]
    exact (mem_settle _ _ _).trans ((mem_lockAfter _ _ _ _).trans hmem)
  · obtain ⟨m, hm, hmsg⟩ := hmsgs k hk
    have hkind : m.kind.fills = false := by rw [hmsg.1]; rfl
    exact ⟨m, keepsMsgs_settle _ _ _ m (keepsMsgs_lockAfter q lk u.nextId sc m hm hkind) hkind, hmsg⟩

end

/-- Settles O30: each word is the common flow with its operation, and each kind of place is one of the places above. -/
theorem atomics : Obligations.Atomics := by
  intro s d a c lk r w sp hc p hp hd f n core
  have hrun := memRuns_of (exec_atomic s lk r w sp hc p hp hd) rfl
  refine ⟨hrun, ?_⟩
  intro u l ls tg hi hl new
  cases tg with
  | mem pa page => exact ⟨fun hsc => atomic_home hsc hrun hi hl, fun hsc hpa hroom => atomic_view hsc hpa hroom hrun hi hl⟩
  | tile tc tl off => exact fun hn hlevel hext => atomic_barn hn hlevel hext hrun hi hl
  | remote pa page => exact atomic_away hrun hi hl
  | refused o pa => trivial
  | bad b => trivial

end Sys2Proof.Machine
end

section
/-! One step: the turn at the head of the agenda, and what an issue slot makes of its gang's word (03 R68; 04 R97, R98). -/

namespace Sys2Proof.Machine

section
variable {s0 s : State} {n : Turn} {ts : List Turn}

/-- The step of a device that runs is its turn. -/
theorem step_running (hs : s = s0.passTime) (ha : s.agenda = n :: ts) (hpower : s.power.shutdown = false)
    (hboot : s.bootFailed = false) (hclock : n.clockless = true ∨ s.power.clockStopped = false) :
    step s0 = runTurn { s with agenda := ts } n := by
  have hc : (s.power.clockStopped && !n.clockless) = false := by rcases hclock with h | h <;> simp [h]
  subst hs
  simp only [step, ha, hpower, hboot, hc, Bool.false_eq_true, if_false]

/-- While the arithmetic clock is stopped, a turn that needs it waits for the switch. -/
theorem step_clockStopped (hs : s = s0.passTime) (ha : s.agenda = n :: ts) (hpower : s.power.shutdown = false)
    (hboot : s.bootFailed = false) (hn : n.clockless = false) (hclock : s.power.clockStopped = true) :
    step s0 = exec .clockSwitchEnd s := by
  subst hs
  simp only [step, ha, hpower, hboot, hclock, hn, Bool.false_eq_true, if_false, Bool.not_false, Bool.and_self, if_true]
  rfl

/-- A device in its boot loader takes what reaches the loader. -/
theorem step_bootFailed (hs : s = s0.passTime) (ha : s.agenda = n :: ts) (hpower : s.power.shutdown = false)
    (hboot : s.bootFailed = true) :
    step s0 = if n.reachesLoader then runTurn { s with agenda := ts } n else .next { s with agenda := ts } := by
  subst hs
  simp only [step, ha, hpower, hboot, Bool.false_eq_true, if_false, if_true]

theorem step_shutdown_reset {d b} (hs : s = s0.passTime) (ha : s.agenda = .event (.deviceReset d b) :: ts)
    (hpower : s.power.shutdown = true) : step s0 = exec (.deviceReset d b) { s with agenda := ts } := by
  subst hs
  simp only [step, ha, hpower, if_true]

theorem step_shutdown_window {fn off k} (hs : s = s0.passTime) (ha : s.agenda = .window fn off k none :: ts)
    (hpower : s.power.shutdown = true) : step s0 = .next (State.windowAccess { s with agenda := ts } fn off k none) := by
  subst hs
  simp only [step, ha, hpower, if_true]

/-- After a thermal shutdown every other turn is held. -/
theorem step_shutdown_held (hs : s = s0.passTime) (ha : s.agenda = n :: ts) (hpower : s.power.shutdown = true)
    (hreset : ∀ d b, n ≠ .event (.deviceReset d b)) (hwindow : ∀ fn off k, n ≠ .window fn off k none) :
    step s0 = .fault .heldInReset := by
  subst hs
  simp only [step, ha, hpower, if_true]

end

/-! ### The issue slot -/

section
variable {s v u : State} {core lg key : Nat} {w : Word}

/-- The gang that takes the slot runs the word that it fetches, and the slot is counted. -/
theorem issueSlot_word (ht : s.takeSlot core lg = some (v, key)) (hf : (v.focus key).fetch = .word u w) :
    issueSlot s core lg = thenNext (runWord (u.enterWindow key w) w) (s.afterIssue core key) := by
  simp only [issueSlot, ht, issueGang, hf]

theorem runWord_ok {i : Instr} (h : decode w = .ok i) (s : State) : runWord s w = exec i s := by
  simp only [runWord, h]

theorem runWord_error {r : Reject} (h : decode w = .error r) (s : State) :
    runWord s w = .next (({ s with ir := w }).takeTrap { cause := 0x01 }) := by
  simp only [runWord, h]
  rfl

theorem enterWindow_noSeat (h : u.seatOf key = none) (w : Word) : u.enterWindow key w = u := by
  simp only [State.enterWindow, h]

/-- The turn of a gang without a seat whose word did not stall leaves what the word left, with the slot counted. -/
theorem afterIssue_noSeat (core : Nat) {t : State} (hseat : t.seatOf key = none)
    (hblock : mapFind (t.gangAt key).flow.served (t.gangAt key).flow.blocks = none) :
    s.afterIssue core key t = t.countIssued core (s.issueCycles key) := by
  simp only [State.afterIssue, hblock, State.squashAll, State.retireHead, hseat, ite_self]

end

theorem stepRunsDecoded : Sys2Proof.Claims.StepRunsDecoded := by
  intro s0 s u core lg key ts w hs hpower hboot hclock ha v ht hf
  have hstep : step s0 = thenNext (runWord (u.enterWindow key w) w) (({ s with agenda := ts } : State).afterIssue core key) :=
    (step_running hs ha hpower hboot (.inr hclock)).trans (issueSlot_word ht hf)
  refine ⟨fun i hi => ?_, fun i t hi hseat he hseat' hblock => ?_, fun r hr => ?_, ⟨_, rfl, rfl⟩⟩
  · rw [hstep, runWord_ok hi]
  · rw [hstep, runWord_ok hi, enterWindow_noSeat hseat, he, thenNext, afterIssue_noSeat core hseat' hblock]
  · rw [hstep, runWord_error hr, thenNext]

theorem stepRunsEvents : Sys2Proof.Claims.StepRunsEvents := by
  intro s0 s n ts hs ha u
  refine ⟨fun hp hb hc => ?_, fun hp hb => step_clockStopped hs ha hp hb, fun hp hb => step_bootFailed hs ha hp hb,
    fun hp => ⟨fun d b hn => ?_, fun fn off k hn => ?_, step_shutdown_held hs ha hp⟩⟩
  · have hstep := step_running hs ha hp hb hc
    exact ⟨hstep, fun i hi => by rw [hstep, hi]; rfl⟩
  · exact step_shutdown_reset hs (hn ▸ ha) hp
  · exact step_shutdown_window hs (hn ▸ ha) hp

/-- Settles O4: a step is its turn, and a turn of a lane group is the word of its gang. -/
theorem stepIsExec : Obligations.StepIsExec := ⟨stepRunsDecoded, stepRunsEvents⟩

end Sys2Proof.Machine
end

section
/-! Sorting entries by their keys (12 R313): insertion keeps every entry once, and the keys do not rise. -/

namespace Sys2Proof.Machine

/-- The number that an integer key stands for. -/
def keyInt (ty a : Nat) : Int := if isSigned ty then signedOf (etypeWidth ty) a else a

theorem keyGreater_int {ty : Nat} (h : isFloat ty = false) (a b : Nat) :
    keyGreater ty a b = decide (keyInt ty b < keyInt ty a) := by
  unfold keyGreater keyInt
  rw [if_neg (by simp [h])]
  split <;> simp

theorem keyGreater_eq_false {ty : Nat} (h : isFloat ty = false) (a b : Nat) :
    keyGreater ty a b = false ↔ keyInt ty a ≤ keyInt ty b := by
  rw [keyGreater_int h]
  simp

theorem insertEnt_perm (ty : Nat) (e : Ent) (es : List Ent) : (insertEnt ty e es).Perm (e :: es) := by
  induction es with
  | nil => exact List.Perm.refl _
  | cons x xs ih =>
    rw [insertEnt]
    split
    · exact List.Perm.refl _
    · exact (ih.cons x).trans (List.Perm.swap e x xs)

/-- Keys that do not rise along a list. -/
def keysFall (ty : Nat) (es : List Ent) : Prop := es.Pairwise (fun a b => keyInt ty b.key ≤ keyInt ty a.key)

theorem keysFall_insertEnt {ty : Nat} (h : isFloat ty = false) (e : Ent) {es : List Ent} (hs : keysFall ty es) :
    keysFall ty (insertEnt ty e es) := by
  induction es with
  | nil => exact List.pairwise_singleton _ e
  | cons x xs ih =>
    obtain ⟨hx, hxs⟩ := List.pairwise_cons.mp hs
    rw [insertEnt]
    split
    · next hfirst =>
      have hle : keyInt ty x.key ≤ keyInt ty e.key := by
        rw [Bool.or_eq_true, Bool.and_eq_true, Bool.not_eq_true', keyGreater_eq_false h, keyGreater_int h, decide_eq_true_eq] at hfirst
        rcases hfirst with hlt | ⟨hle, -⟩
        · exact le_of_lt hlt
        · exact hle
      refine List.pairwise_cons.mpr ⟨fun y hy => ?_, hs⟩
      rcases List.mem_cons.mp hy with rfl | hy
      · exact hle
      · exact (hx y hy).trans hle
    · next hlater =>
      have hle : keyInt ty e.key ≤ keyInt ty x.key := by
        rw [Bool.or_eq_true, not_or, Bool.not_eq_true, keyGreater_eq_false h] at hlater
        exact hlater.1
      refine List.pairwise_cons.mpr ⟨fun y hy => ?_, ih hxs⟩
      rcases List.mem_cons.mp ((insertEnt_perm ty e xs).mem_iff.mp hy) with rfl | hy
      · exact hle
      · exact hx y hy

theorem foldl_insertEnt {ty : Nat} (h : isFloat ty = false) (es acc : List Ent) (ha : keysFall ty acc) :
    (es.foldl (fun acc e => insertEnt ty e acc) acc).Perm (es ++ acc) ∧
      keysFall ty (es.foldl (fun acc e => insertEnt ty e acc) acc) := by
  induction es generalizing acc with
  | nil => exact ⟨List.Perm.refl _, ha⟩
  | cons e es ih =>
    obtain ⟨hp, hs⟩ := ih (insertEnt ty e acc) (keysFall_insertEnt h e ha)
    refine ⟨hp.trans ?_, hs⟩
    exact ((insertEnt_perm ty e acc).append_left es).trans List.perm_middle

/-- Settles O41, by insertion. -/
theorem sortedEntries : Obligations.SortedEntries := by
  intro ty es h
  obtain ⟨hp, hs⟩ := foldl_insertEnt h es [] List.Pairwise.nil
  rw [List.append_nil] at hp
  exact ⟨hp, hs.imp fun hle => (keyGreater_eq_false h _ _).mpr hle⟩

end Sys2Proof.Machine
end

section
/-! What the sprinter does ahead of retirement (04 R111 to R114). -/

namespace Sys2Proof.Machine

/-- Renaming enters an entry in a seat's window, and nothing else. -/
theorem renameWord_cases (s : State) (core lg group : Nat) (pc : PcVal) (modes : List Word) (word : Word) :
    ∃ cs, s.renameWord core lg group pc modes word = { s with cores := cs } := by
  unfold State.renameWord
  split <;> exact ⟨_, rfl⟩

theorem rename_cases (run : State → Word → Res) (s : State) (core lg group : Nat) (pc : PcVal) :
    ∃ cs, State.rename run s core lg group pc = { s with cores := cs } := by
  unfold State.rename
  split
  · exact ⟨_, rfl⟩
  · split
    · exact ⟨_, rfl⟩
    · dsimp only
      split
      · exact renameWord_cases s ..
      · exact ⟨_, rfl⟩

/-- A squash changes a seat's window and pool, and nothing else. -/
theorem squashAll_cases (s : State) (key : Nat) : ∃ cs, s.squashAll key = { s with cores := cs } := by
  unfold State.squashAll
  dsimp only
  split <;> exact ⟨_, rfl⟩

/-- A state with the gangs, workgroups and focus of `s`. -/
def State.sameGangs (s t : State) : Prop := t.gangs = s.gangs ∧ t.wgs = s.wgs ∧ t.cur = s.cur

theorem dispatchLoad_sameGangs {run : State → Word → Res} {s t u : State} {core lg i h : Nat} {e : Renamed} {j : Instr}
    (hd : s.dispatchLoad run core lg i h e j u = some t) : s.sameGangs t := by
  unfold State.dispatchLoad at hd
  dsimp only at hd
  split at hd
  · cases hd
  · split at hd
    · cases hd
    · split at hd
      · cases hd
      · split at hd
        · split at hd
          · cases hd; exact ⟨rfl, rfl, rfl⟩
          · split at hd
            · cases hd; exact ⟨rfl, rfl, rfl⟩
            · cases hd
        · cases hd

theorem dispatchEntry_sameGangs {run : State → Word → Res} {s t : State} {core lg i : Nat}
    (hd : s.dispatchEntry run core lg i = some t) : s.sameGangs t := by
  unfold State.dispatchEntry at hd
  dsimp only at hd
  split at hd
  · split at hd
    · cases hd
    · split at hd
      · cases hd
      · split at hd
        · cases hd
        · split at hd
          · exact dispatchLoad_sameGangs hd
          · split at hd
            · split at hd
              · cases hd
              · cases hd; exact ⟨rfl, rfl, rfl⟩
            · cases hd
          · cases hd
  · cases hd

/-- Settles O55: renaming and a squash change a seat alone, and a dispatch takes the gangs and workgroups of before. -/
theorem windowUnseen : Obligations.WindowUnseen := by
  intro s run core lg group i key pc
  obtain ⟨cs, hr⟩ := rename_cases run s core lg group pc
  obtain ⟨ds, hq⟩ := squashAll_cases s key
  refine ⟨by rw [hr]; exact ⟨rfl, rfl⟩, by rw [hq]; exact ⟨rfl, rfl⟩, fun t ht => ?_⟩
  unfold State.dispatchOldest at ht
  split at ht
  · cases ht
  · exact dispatchEntry_sameGangs ht

end Sys2Proof.Machine
end

section
/-! What the words of the workgroup change: the focus after a change of it, and the scalar results that a word leaves
(02 R49; 03 R67). -/

namespace Sys2Proof.Machine

/-! ### The focus -/

@[simp] theorem State.gang_updWg (s : State) (f : Workgroup → Workgroup) : (s.updWg f).gang = s.gang := rfl

@[simp] theorem State.wg_updWg (s : State) (f : Workgroup → Workgroup) : (s.updWg f).wg = f s.wg :=
  State.wgAt_setWgAt s s.gang.wid (f s.wg)

@[simp] theorem State.gang_advance (s : State) : s.advance.gang = s.gang.advance := by
  rw [State.advance, State.gang_updGang]

@[simp] theorem State.wg_advance (s : State) : s.advance.wg = s.wg := by
  rw [State.wg, State.gang_advance]
  rfl

/-- Past the word from a state in which the gang's flow is as before. -/
theorem past_advance {s t : State} (h : t.gang.flow = s.gang.flow) : s.past t.advance :=
  past_updGang (f := fun _ => t.gang) h (State.gang_advance t)

/-! ### Scalar destinations -/

/-- An operand field of a word that issues has a legal code. -/
theorem legal_of_issues {s : State} {os : List Opnd} (h : s.issues (fixedOps os) = true) {k : Nat}
    (hk : s.gang.issuing k = true) {o : Opnd} (ho : o ∈ os) : o.legal = true := by
  obtain ⟨os', hf, hlegal⟩ := operands_of_issues h hk
  obtain rfl : os = os' := Option.some.inj hf
  exact hlegal o ho

theorem Gang.s_putSAll (g : Gang) {d : Code} (hd : d ≠ 0xF0) (hs : sDst d = true) (x : Word) {k : Nat} (hk : k < 8)
    (hi : g.issuing k = true) : (g.putSAll d x).s k d.toNat = x := by
  rw [Gang.putSAll, Gang.s_putS g hd hs _ _ hk, if_pos hi]

theorem Gang.flow_putS64 (g : Gang) (d : Code) (f : Nat → Bool) (x : Nat → DWord) : (g.putS64 d f x).flow = g.flow := by
  unfold Gang.putS64; split <;> rfl

/-- A scalar pair reads as the value put in it. -/
theorem Gang.s_putS64 (g : Gang) {d : Code} (hd : d ≠ 0xF0) (hs : sDst64 d = true) (f : Nat → Bool) (x : Nat → DWord) {k : Nat}
    (hk : k < 8) (hf : f k = true) :
    (g.putS64 d f x).s k (d.toNat + 1) ++ (g.putS64 d f x).s k d.toNat = x k := by
  have h32 : d.toNat < 32 ∧ d.toNat % 2 = 0 := by
    simp only [sDst64, Bool.or_eq_true, Bool.and_eq_true, decide_eq_true_eq] at hs
    exact hs.resolve_right fun h => hd (BitVec.eq_of_toNat_eq h)
  have hhi : (g.putS64 d f x).s k (d.toNat + 1) = (x k >>> 32).setWidth 32 := by
    rw [Gang.putS64, if_neg hd, Gang.s_writeSlices _ _ (by omega) _ _ _ _ hk (by omega), if_pos ⟨rfl, hf⟩]
  have hlo : (g.putS64 d f x).s k d.toNat = (x k).setWidth 32 := by
    rw [Gang.putS64, if_neg hd, Gang.s_writeSlices _ _ (by omega) _ _ _ _ hk (by omega), if_neg (by omega),
      Gang.s_writeSlices _ _ (by omega) _ _ _ _ hk (by omega), if_pos ⟨rfl, hf⟩]
  rw [hhi, hlo]
  apply BitVec.eq_of_getLsbD_eq
  intro i hi
  simp only [BitVec.getLsbD_append, BitVec.getLsbD_setWidth, BitVec.getLsbD_ushiftRight]
  by_cases h : i < 32
  · simp [h]
  · simp [h, show i - 32 < 32 by omega, show 32 + (i - 32) = i by omega]

/-- A word with a scalar destination among its operands, whose meaning is one result in every issuing slice. -/
theorem scalarRuns_of_mem {i : Instr} {s : State} {os : List Opnd} {d : Code} (hd : .sw 32 d ∈ os) (x : Nat → Word)
    (he : s.issues (fixedOps os) = true → exec i s = finishWith s (fun g => g.putS d s.gang.issuing x)) :
    scalarRuns i s (fixedOps os) d x := fun hi => by
  refine ⟨_, he hi, ?_⟩
  by_cases hsome : ∃ k, s.gang.issuing k = true
  · obtain ⟨k, hk⟩ := hsome
    exact scalarStep_putS s d (legal_of_issues hi hk hd) x
  · exact scalarStep_putS_none (by simpa using hsome) d x

end Sys2Proof.Machine
end

section
/-! Barrier registers (10 R256 to R265, R271). -/

namespace Sys2Proof.Machine

/-! ### A register -/

theorem Workgroup.bar_updBar (w : Workgroup) (i j : Nat) (f : Bar → Bar) :
    (w.updBar i f).bar j = if j = i then f (w.bar i) else w.bar j := by
  unfold Workgroup.updBar Workgroup.bar
  split
  · next h => rw [h, mapFind_put_same]; rfl
  · next h => rw [mapFind_put_other h]

/-- A change of a register, and past the word. -/
theorem updBar_advance {s u : State} (a : Code) (f : Bar → Bar) (hflow : u.gang = s.gang) (hwg : u.wg = s.wg) (hmem : u.mem = s.mem) :
    s.past (u.updBar a f).advance ∧ s.onlyBar (u.updBar a f).advance a.toNat ∧ (u.updBar a f).advance.bar a = f (s.bar a) := by
  have hw : (u.updBar a f).advance.wg = s.wg.updBar a.toNat f := by
    rw [State.wg_advance, State.updBar, State.wg_updWg, hwg]
  refine ⟨past_advance (by rw [State.updBar, State.gang_updWg, hflow]), ⟨fun j hj => ?_, ?_, hmem⟩, ?_⟩
  · rw [hw, Workgroup.bar_updBar, if_neg hj]
  · rw [State.gang_advance, State.updBar, State.gang_updWg, hflow]
    rfl
  · rw [State.bar, hw, Workgroup.bar_updBar, if_pos rfl]
    rfl

/-! ### Arrivals (10 R259, R262) -/

/-- Queued bytes that reach their banks change cores alone. -/
theorem drainQueues_cases (s : State) (core : Nat) : ∃ cs, s.drainQueues core = { s with cores := cs } := by
  have key : ∀ (qs : List QueuedByte) (t : State), ∃ cs, t.drainList qs = { t with cores := cs } := fun qs => by
    induction qs with
    | nil => exact fun t => ⟨t.cores, rfl⟩
    | cons q qs ih =>
      intro t
      obtain ⟨cs, h⟩ := ih (t.putBank q.core q.addr q.val)
      exact ⟨cs, h⟩
  obtain ⟨cs, h⟩ := key (s.coreAt core).squeue s
  rw [State.drainQueues, h]
  exact ⟨_, rfl⟩

/-- Paths that have passed leave the gang, its workgroup and memory as they are. -/
theorem arrivePaths_ok {s : State} {p : BitVec 6} (hbusy : s.gang.busyOn (p ||| 3).toNat = false) (hlate : s.gang.lateAccesses = []) :
    ∃ u, s.arrivePaths p = .ok u ∧ u.gang = s.gang ∧ u.wg = s.wg ∧ u.mem = s.mem := by
  unfold State.arrivePaths
  simp only [hbusy, hlate, Bool.false_eq_true, if_false, List.isEmpty_nil, Bool.not_true]
  refine ⟨_, rfl, ?_⟩
  split
  · obtain ⟨cs, h⟩ := drainQueues_cases s s.gang.core
    rw [h]
    exact ⟨rfl, rfl, rfl⟩
  · exact ⟨rfl, rfl, rfl⟩

/-- An arrival once the paths have passed. -/
theorem arrive_ok {s : State} {p : BitVec 6} {a : Code} (hw : s.gang.whole = true) (hinit : (s.bar a).init = true)
    (hbusy : s.gang.busyOn (p ||| 3).toNat = false) (hlate : s.gang.lateAccesses = []) (hhere : (s.bar a).here s.gang.num = false) :
    ∃ u : State, s.arrive p a = .ok (u.updBar a (fun r => r.arrive s.gang.num)) ∧ u.gang = s.gang ∧ u.wg = s.wg ∧ u.mem = s.mem := by
  obtain ⟨u, hu, hg, hwg, hm⟩ := arrivePaths_ok (p := p) hbusy hlate
  have hb : u.bar a = s.bar a := by rw [State.bar, hwg]; rfl
  refine ⟨u, ?_, hg, hwg, hm⟩
  simp only [State.arrive, hw, hinit, hu, hb, hg, hhere, Bool.not_true, Bool.false_eq_true, if_false]

theorem barv_arrives {s : State} {p : BitVec 6} {a : Code} (hi : s.issues (fixedOps [.br a]) = true) (hw : s.gang.whole = true)
    (hinit : (s.bar a).init = true) (hbusy : s.gang.busyOn (p ||| 3).toNat = false) (hlate : s.gang.lateAccesses = [])
    (hhere : (s.bar a).here s.gang.num = false) :
    ∃ t, exec (.barv p a) s = .next t ∧ s.past t ∧ s.onlyBar t a.toNat ∧ t.bar a = (s.bar a).arrive s.gang.num := by
  obtain ⟨u, hu, hg, hwg, hm⟩ := arrive_ok (p := p) hw hinit hbusy hlate hhere
  refine ⟨_, ?_, updBar_advance a (fun r => r.arrive s.gang.num) hg hwg hm⟩
  rw [exec_of_issues (i := .barv p a) hi]
  simp only [hu]

/-- A barw of a gang that has not arrived: it goes on when its arrival completes the generation, and waits when it does
not. -/
theorem barw_arrives {s : State} {p : BitVec 6} {a : Code} (hi : s.issues (fixedOps [.br a]) = true) (hw : s.gang.whole = true)
    (hinit : (s.bar a).init = true) (hbusy : s.gang.busyOn (p ||| 3).toNat = false) (hlate : s.gang.lateAccesses = [])
    (hhere : (s.bar a).here s.gang.num = false) (hmark : mapFind s.gang.barwKey (s.bar a).barw ≠ some s.gang.pcNow) :
    let r := (s.bar a).arrive s.gang.num
    (r.here s.gang.num = false →
      ∃ t, exec (.barw p a) s = .next t ∧ s.past t ∧ s.onlyBar t a.toNat ∧ t.bar a = r) ∧
    (r.here s.gang.num = true →
      ∃ u, exec (.barw p a) s = .next (u.stall (.barrierArrive a.toNat)) ∧ u.gang = s.gang ∧ s.onlyBar u a.toNat ∧
        u.bar a = { r with barw := mapPut s.gang.barwKey s.gang.pcNow r.barw }) := by
  intro r
  obtain ⟨u, hu, hg, hwg, hm⟩ := arrive_ok (p := p) hw hinit hbusy hlate hhere
  have hw1 : (u.updBar a (fun r => r.arrive s.gang.num)).wg = s.wg.updBar a.toNat (fun r => r.arrive s.gang.num) := by
    rw [State.updBar, State.wg_updWg, hwg]
  have hb1 : (u.updBar a (fun r => r.arrive s.gang.num)).bar a = r := by
    rw [State.bar, hw1, Workgroup.bar_updBar, if_pos rfl]
    rfl
  have he : exec (.barw p a) s = if r.here s.gang.num then
      stallOn (.barrierArrive a.toNat) ((u.updBar a (fun r => r.arrive s.gang.num)).updBar a
        (fun r => { r with barw := mapPut s.gang.barwKey s.gang.pcNow r.barw }))
      else .next (u.updBar a (fun r => r.arrive s.gang.num)).advance := by
    rw [exec_of_issues (i := .barw p a) hi]
    simp only [hu, hb1, hmark, decide_false, Bool.false_and, Bool.false_eq_true, if_false]
  refine ⟨fun h => ⟨_, by rw [he, if_neg (by simp [h])], updBar_advance a (fun r => r.arrive s.gang.num) hg hwg hm⟩,
    fun h => ⟨(u.updBar a (fun r => r.arrive s.gang.num)).updBar a
      (fun r => { r with barw := mapPut s.gang.barwKey s.gang.pcNow r.barw }), by rw [he, if_pos h]; rfl, hg, ⟨fun j hj => ?_, by rw [State.updBar, State.gang_updWg, State.updBar, State.gang_updWg, hg], hm⟩, ?_⟩⟩
  · rw [State.updBar, State.wg_updWg, hw1, Workgroup.bar_updBar, if_neg hj, Workgroup.bar_updBar, if_neg hj]
  · rw [State.bar, State.updBar, State.wg_updWg, hw1, Workgroup.bar_updBar, if_pos rfl, Workgroup.bar_updBar, if_pos rfl]
    rfl

/-- A barw that has arrived and issues again only waits. -/
theorem barw_again {s : State} {p : BitVec 6} {a : Code} (hi : s.issues (fixedOps [.br a]) = true) (hw : s.gang.whole = true)
    (hmark : mapFind s.gang.barwKey (s.bar a).barw = some s.gang.pcNow) :
    ((s.bar a).here s.gang.num = true → exec (.barw p a) s = .next (s.stall (.barrierArrive a.toNat))) ∧
    ((s.bar a).here s.gang.num = false → ∃ t, exec (.barw p a) s = .next t ∧ s.past t ∧ s.onlyBar t a.toNat ∧
      t.bar a = { s.bar a with barw := mapDrop s.gang.barwKey (s.bar a).barw }) := by
  have he : exec (.barw p a) s = if (s.bar a).here s.gang.num then stallOn (.barrierArrive a.toNat) s
      else .next (s.updBar a (fun r => { r with barw := mapDrop s.gang.barwKey r.barw })).advance := by
    rw [exec_of_issues (i := .barw p a) hi]
    simp only [hmark, hw, decide_true, Bool.and_self, if_true]
  exact ⟨fun h => by rw [he, if_pos h]; rfl, fun h => ⟨_, by rw [he, if_neg (by simp [h])], updBar_advance a _ rfl rfl rfl⟩⟩

/-! ### The other words -/

theorem binit_runs {s : State} {a b : Code} (hi : s.issues (fixedOps [.br a, .sr 32 b]) = true) (h0 : 0 < (s.sarg b).toNat)
    (h1 : (s.sarg b).toNat < 1024) (ha : (s.bar a).a = 0) (harr : (s.bar a).arrived = 0) (hrc : (s.bar a).rc = 0)
    (hkc : (s.bar a).kc = 0) (hwait : s.barWaiter s.gang.wid a.toNat = false) :
    ∃ t, exec (.binit a b) s = .next t ∧ s.past t ∧ s.onlyBar t a.toNat ∧
      t.bar a = { s.bar a with init := true, ovf := false, e := (s.sarg b).toNat, x := 0 } := by
  refine ⟨_, ?_, updBar_advance a (fun r => { r with init := true, ovf := false, e := (s.sarg b).toNat, x := 0 }) rfl rfl rfl⟩
  rw [exec_of_issues (i := .binit a b) hi]
  simp only [ha, harr, hrc, hkc, hwait, ne_eq, not_true_eq_false, decide_false, Bool.or_self, Bool.false_eq_true, if_false]
  rw [if_neg]
  simp only [Bool.or_eq_true, decide_eq_true_eq]
  omega

theorem bwait_runs {s : State} {a : Code} (hi : s.issues (fixedOps [.br a]) = true) (hinit : (s.bar a).init = true) :
    ((s.bar a).here s.gang.num = false → ∃ t, exec (.bwait a) s = .next t ∧ s.idleStep t) ∧
    ((s.bar a).here s.gang.num = true → exec (.bwait a) s = .next (s.stall (.barrierArrive a.toNat))) := by
  have he : exec (.bwait a) s = s.waitOwn a := by
    rw [exec_of_issues (i := .bwait a) hi]
    simp only [hinit, Bool.not_true, Bool.false_eq_true, if_false]
  rw [he, State.waitOwn]
  exact ⟨fun h => ⟨_, if_neg (by simp [h]), idleStep_advance s⟩, fun h => if_pos h⟩

theorem bwaitGen_runs {s : State} {a b : Code} (hi : s.issues (fixedOps [.br a, .sr 32 b]) = true)
    (hinit : (s.bar a).init = true) (hv : (s.sarg b).toNat < 2 ^ 16) :
    ((s.bar a).gen.toNat ≠ (s.sarg b).toNat → ∃ t, exec (.bwaitGen a b) s = .next t ∧ s.idleStep t) ∧
    ((s.bar a).gen.toNat = (s.sarg b).toNat →
      exec (.bwaitGen a b) s = .next (s.stall (.barrierGen a.toNat (s.sarg b).toNat))) := by
  have he : exec (.bwaitGen a b) s = if (s.bar a).gen.toNat = (s.sarg b).toNat then
      stallOn (.barrierGen a.toNat (s.sarg b).toNat) s else .next s.advance := by
    rw [exec_of_issues (i := .bwaitGen a b) hi]
    simp only [hinit, Bool.not_true, Bool.false_eq_true, if_false, if_neg (Nat.not_le.mpr hv)]
  rw [he]
  exact ⟨fun h => ⟨_, if_neg h, idleStep_advance s⟩, fun h => if_pos h⟩

/-- baddx and its E form with a change in range. -/
theorem baddInstr_runs {s : State} {a b : Code} {toE : Bool} {e x : Nat} (hi : s.issues (fixedOps [.br a, .sr 32 b]) = true)
    (hinit : (s.bar a).init = true) (hv : (s.sarg b).toNat < if toE then 2048 else 1024)
    (hnew : baddxNew (s.bar a) (s.sarg b).toNat toE = some (e, x)) :
    ∃ t, baddInstr a b toE s = .next t ∧ s.past t ∧ s.onlyBar t a.toNat ∧
      t.bar a = ({ s.bar a with e := e, x := x } : Bar).complete := by
  refine ⟨_, ?_, updBar_advance a (fun r => ({ r with e := e, x := x } : Bar).complete) rfl rfl rfl⟩
  rw [baddInstr, guardOps_issues hi]
  simp only [hinit, hnew, Bool.not_true, Bool.false_eq_true, if_false, if_neg (Nat.not_le.mpr hv)]

/-- btest of a word. -/
theorem btestInstr_runs {s : State} {a b : Code} (hi : s.issues (fixedOps [.br a, .sw 64 b]) = true) (hb : b ≠ 0xF0) (i : Nat) :
    ∃ t, btestInstr a b i s = .next t ∧ s.past t ∧ s.sameDevice t ∧ ∀ k, k < 8 → s.gang.issuing k = true →
      t.gang.s k (b.toNat + 1) ++ t.gang.s k b.toNat = (s.bar a).word i := by
  obtain ⟨t, he, hpast, hsame, hg⟩ := finishWith_step s (f := fun g => g.putS64 b s.gang.issuing (fun _ => (s.bar a).word i))
    (Gang.flow_putS64 s.gang b s.gang.issuing (fun _ => (s.bar a).word i))
  refine ⟨t, by rw [btestInstr, guardOps_issues hi]; exact he, hpast, hsame, fun k hk hik => ?_⟩
  have hdst : sDst64 b = true := legal_of_issues hi hik (o := .sw 64 b) (by simp)
  rw [hg]
  exact Gang.s_putS64 s.gang hb hdst s.gang.issuing (fun _ => (s.bar a).word i) hk hik

/-- Settles O34: each word by what it makes of its register. -/
theorem barrierRegisters : Obligations.BarrierRegisters := by
  intro s p a b
  refine ⟨binit_runs, fun hi hw hinit hbusy hlate hhere => ⟨barv_arrives hi hw hinit hbusy hlate hhere,
    barw_arrives hi hw hinit hbusy hlate hhere⟩, barw_again, bwait_runs, bwaitGen_runs, fun hi hinit => ⟨?_, ?_⟩, fun hi hb => ?_⟩
  · exact fun e x hv hnew => baddInstr_runs (toE := false) hi hinit hv hnew
  · exact fun e x hv hnew => baddInstr_runs (toE := true) hi hinit hv hnew
  · exact ⟨btestInstr_runs hi hb 0, btestInstr_runs hi hb 1⟩

/-! ### Completion and misuse (10 R257, R258, R271) -/

theorem barrierCompletes : Sys2Proof.Claims.BarrierCompletes := by
  intro r g hinit hrc hkc ha hg
  have hne : r.a ≠ 1023 := by omega
  have hcount : r.arrive g = ({ r with arrived := r.arrived ||| BitVec.ofNat 32 (2 ^ g), a := r.a + 1 } : Bar).complete := by
    simp only [Bar.arrive, Bar.count, hne, if_false]
  rw [hcount]
  unfold Bar.complete
  refine ⟨fun h => ?_, fun h => ?_⟩
  · rw [if_pos (by simp [hinit, hrc, hkc, h])]
  · rw [if_neg (by simp [Nat.not_le.mpr h])]
    refine ⟨rfl, rfl, ?_⟩
    rw [Bar.here, BitVec.getLsbD_or, BitVec.getLsbD_ofNat]
    simp [hg, Nat.testBit_two_pow_self]

theorem barrierMisuse : Sys2Proof.Claims.BarrierMisuse := by
  intro s p a b
  refine ⟨fun hi hinit => ⟨?_, fun hw => ?_, fun hw => ?_⟩, fun hi hv => ?_⟩
  · rw [exec_of_issues (i := .bwait a) hi]
    simp only [hinit, Bool.not_false, if_true]
    rfl
  · rw [exec_of_issues (i := .barv p a) hi]
    simp only [State.arrive, hw, hinit, Bool.not_true, Bool.not_false, Bool.false_eq_true, if_false, if_true]
    rfl
  · rw [exec_of_issues (i := .barv p a) hi]
    simp only [State.arrive, hw, Bool.not_false, if_true]
    rfl
  · rw [exec_of_issues (i := .binit a b) hi]
    simp only [Bool.or_eq_true, decide_eq_true_eq, hv.symm, if_true]
    rfl

/-- Settles O35. -/
theorem barrierProgress : Obligations.BarrierProgress := ⟨barrierCompletes, barrierMisuse⟩

end Sys2Proof.Machine
end

section
/-! Named groups: their masks, members and generations (10 R266 to R271). -/

namespace Sys2Proof.Machine

/-! ### Masks -/

theorem bit_eq_true {x i : Nat} : bit x i = true ↔ x / 2 ^ i % 2 = 1 := by simp [bit]

theorem bit_eq_false {x i : Nat} : bit x i = false ↔ x / 2 ^ i % 2 = 0 := by
  rw [← Bool.not_eq_true, bit_eq_true]
  omega

/-- A bit put in a mask is there. -/
theorem bit_putBit (m i : Nat) (b : Bool) : bit (putBit m i b) i = b := by
  unfold putBit
  split
  · assumption
  · next h =>
    have hpos : 0 < 2 ^ i := by positivity
    cases b with
    | true =>
      have h0 := bit_eq_false.mp (by simpa using h)
      rw [if_pos rfl, bit_eq_true, Nat.add_div_right _ hpos]
      omega
    | false =>
      have h1 := bit_eq_true.mp (by simpa using h)
      have hle : 2 ^ i ≤ m := by
        by_contra hlt
        rw [Nat.div_eq_of_lt (by omega)] at h1
        omega
      have hdiv := Nat.div_eq_sub_div hpos hle
      rw [if_neg Bool.false_ne_true, bit_eq_false]
      omega

namespace NamedGroup

theorem node_updNode (g : NamedGroup) (n m : Nat) (f : GroupNode → GroupNode) :
    (g.updNode n f).node m = if m = n then f (g.node n) else g.node m := by
  unfold updNode node
  split
  · next h => rw [h, mapFind_put_same]; rfl
  · next h => rw [mapFind_put_other h]

theorem pending_setPending (n : GroupNode) (idle : Bool) (m : Nat) : (n.setPending idle m).pending = m := by
  unfold GroupNode.setPending
  split <;> rfl

/-- A new pending mask of a node. -/
theorem pending_setMask (g : NamedGroup) (n m : Nat) : ((g.setMask n m).node n).pending = m := by
  rw [setMask, node_updNode, if_pos rfl, pending_setPending]

theorem node_setMask_other (g : NamedGroup) {n m : Nat} (h : m ≠ n) (x : Nat) : (g.setMask n x).node m = g.node m := by
  rw [setMask, node_updNode, if_neg h]

/-- The device node's mask of dies leaves every other node as it is. -/
theorem node_dieBit (g : NamedGroup) (level die : Nat) (b : Bool) {m : Nat} (h : m ≠ 1) : (g.dieBit level die b).node m = g.node m := by
  unfold dieBit
  split
  · rfl
  · exact node_setMask_other g h _

theorem members_dieBit (g : NamedGroup) (level die : Nat) (b : Bool) : (g.dieBit level die b).members = g.members := by
  unfold dieBit
  split <;> rfl

theorem node_unbind (g : NamedGroup) (m : Nat) : g.unbind.node m = g.node m := rfl

/-- A workgroup that leaves is in its node's pending mask no more. -/
theorem pending_leave (g : NamedGroup) (level : Nat) (p : NgPlace) (hp : p.node ≠ 1) :
    bit ((g.leave level p).node p.node).pending p.pos = false := by
  rw [leave, node_unbind]
  split
  · rw [node_dieBit _ _ _ _ hp, pending_setMask, bit_putBit]
  · rw [pending_setMask, bit_putBit]

theorem arrived_arriveAt (g : NamedGroup) (p : NgPlace) (wid : Nat) : bit ((g.arriveAt p wid).node p.node).arrived p.pos = true := by
  show bit ((g.updNode p.node (fun n => { n with arrived := putBit n.arrived p.pos true })).node p.node).arrived p.pos = true
  rw [node_updNode, if_pos rfl, bit_putBit]

end NamedGroup

/-- No workgroup's own node is the device node. -/
theorem ngPlace_node {w : Workgroup} {g : NamedGroup} {wid level : Nat} {p : NgPlace} (h : w.ngPlace g wid level = some p) :
    p.node ≠ 1 := by
  unfold Workgroup.ngPlace at h
  dsimp only at h
  split at h
  · obtain ⟨i, -, rfl⟩ := Option.map_eq_some_iff.mp h
    simp
  · cases h
    dsimp only
    omega

/-- A generation's end. -/
theorem groupCompletes : Sys2Proof.Claims.GroupCompletes := by
  intro g n
  have hnode : g.complete.node n = { g.node n with arrived := 0, passed := false, cur := (g.node n).pending } := by
    have hmap := mapFind_map (fun x : GroupNode => { x with arrived := 0, passed := false, cur := x.pending }) n g.nodes
    show (mapFind n (g.nodes.map (fun e => (e.1, ({ e.2 with arrived := 0, passed := false, cur := e.2.pending } : GroupNode))))).getD
      GroupNode.empty = _
    rw [hmap, NamedGroup.node]
    cases mapFind n g.nodes <;> rfl
  rw [hnode]
  exact ⟨rfl, rfl, rfl, rfl⟩

/-! ### The words that change masks (10 R268, R269) -/

theorem groupAt_updGroup (s : State) (k j : Nat) (f : NamedGroup → NamedGroup) :
    (s.updGroup k f).groupAt j = if j = k then f (s.groupAt k) else s.groupAt j := by
  unfold State.updGroup State.groupAt
  split
  · next h => rw [h, mapFind_put_same]; rfl
  · next h => rw [mapFind_put_other h]

theorem groupAt_advance (s : State) (j : Nat) : s.advance.groupAt j = s.groupAt j := rfl

/-- A change of a group, and past the word. -/
theorem updGroup_advance (s : State) (k : Nat) (f : NamedGroup → NamedGroup) :
    s.past (s.updGroup k f).advance ∧ (s.updGroup k f).advance.gang.regs = s.gang.regs :=
  ⟨past_advance rfl, by rw [State.gang_advance]; rfl⟩

section
variable {s : State} {a b : Code} {e k : Nat} {p : NgPlace} (hn : s.names a e k p)
include hn

/-- A named group that the workgroup may name passes the checks. -/
theorem withGroup_names (body : Nat → Nat → Nat → State → Res) : withGroup s a body = body (s.sarg a).toNat e k s := by
  obtain ⟨hlt, rfl, hvalid, rfl, -⟩ := hn
  simp only [withGroup, hvalid, Bool.not_true, Bool.or_false, decide_eq_true_eq, if_neg (Nat.not_le.mpr hlt)]

theorem place_names : s.wg.ngPlace (s.groupAt k) s.gang.wid (ngLevel e) = some p := hn.2.2.2.2

/-- A join by a workgroup whose place is free and whose home is the group's. -/
theorem ngjoin_runs (hi : s.issues (fixedOps [.sr 32 a]) = true)
    (hbound : ngLevel e < 2 → ∀ h, (s.groupAt k).bound = some h → h = p.home)
    (hholder : ∀ w, s.ngHolder (s.groupAt k) p = some w → w = s.gang.wid) :
    ∃ t, exec (.ngjoin a) s = .next t ∧ s.past t ∧ t.gang.regs = s.gang.regs ∧
      bit ((t.groupAt k).node p.node).pending p.pos = true ∧ mapFind p.key (t.groupAt k).members = some s.gang.wid ∧
      ∀ j, j ≠ k → t.groupAt j = s.groupAt j := by
  have hplace := place_names hn
  let f : NamedGroup → NamedGroup := fun g =>
    ({ g.setMask p.node (putBit (g.node p.node).pending p.pos true) with
        members := mapPut p.key s.gang.wid g.members
        bound := if ngLevel e < 2 then some p.home else none }).dieBit (ngLevel e) p.home true
  have he : exec (.ngjoin a) s = .next (s.updGroup k f).advance := by
    rw [exec_of_issues (i := .ngjoin a) hi]
    simp only [withGroup_names hn, hplace]
    refine (if_neg ?_).trans (if_neg ?_)
    · intro hc
      obtain ⟨hl, hc⟩ := Bool.and_eq_true_iff.mp hc
      cases h : (s.groupAt k).bound with
      | none => simp [h] at hc
      | some x => simp [h, hbound (of_decide_eq_true hl) x h] at hc
    · intro hc
      cases h : s.ngHolder (s.groupAt k) p with
      | none => simp [h] at hc
      | some w => simp [h, hholder w h] at hc
  obtain ⟨hpast, hregs⟩ := updGroup_advance s k f
  refine ⟨_, he, hpast, hregs, ?_, ?_, fun j hj => ?_⟩
  · rw [groupAt_advance, groupAt_updGroup, if_pos rfl, NamedGroup.node_dieBit _ _ _ _ (ngPlace_node hplace)]
    show bit (((s.groupAt k).setMask p.node _).node p.node).pending p.pos = true
    rw [NamedGroup.pending_setMask, bit_putBit]
  · rw [groupAt_advance, groupAt_updGroup, if_pos rfl, NamedGroup.members_dieBit, mapFind_put_same]
  · rw [groupAt_advance, groupAt_updGroup, if_neg hj]

theorem ngjoinLeave_runs (hi : s.issues (fixedOps [.sr 32 a]) = true)
    (hmember : s.ngMember (s.groupAt k) p s.gang.wid (ngLevel e) = true) :
    ∃ t, exec (.ngjoinLeave a) s = .next t ∧ s.past t ∧ t.gang.regs = s.gang.regs ∧
      bit ((t.groupAt k).node p.node).pending p.pos = false ∧ ∀ j, j ≠ k → t.groupAt j = s.groupAt j := by
  have hplace := place_names hn
  have he : exec (.ngjoinLeave a) s = .next (s.updGroup k (fun g => g.leave (ngLevel e) p)).advance := by
    rw [exec_of_issues (i := .ngjoinLeave a) hi]
    simp only [withGroup_names hn, hplace, hmember, if_true]
  obtain ⟨hpast, hregs⟩ := updGroup_advance s k (fun g => g.leave (ngLevel e) p)
  refine ⟨_, he, hpast, hregs, ?_, fun j hj => ?_⟩
  · rw [groupAt_advance, groupAt_updGroup, if_pos rfl, NamedGroup.pending_leave _ _ _ (ngPlace_node hplace)]
  · rw [groupAt_advance, groupAt_updGroup, if_neg hj]

theorem bsetm_runs (hi : s.issues (fixedOps [.sr 32 a, .sr 64 b]) = true)
    (hbound : ngLevel e < 2 → ∀ h, (s.groupAt k).bound = some h → h = p.home)
    (hm : (s.sarg64 b).toNat < 2 ^ (if ngLevel e = 0 then 24 else 60)) :
    ∃ t, exec (.bsetm a b) s = .next t ∧ s.past t ∧
      ((t.groupAt k).node p.node).pending = (s.sarg64 b).toNat ∧ t.gang.regs = s.gang.regs := by
  have hplace := place_names hn
  let f : NamedGroup → NamedGroup := fun g => ({ g with bound := if ngLevel e < 2 then some p.home else none }).unbind
  have he : exec (.bsetm a b) s = .next ((s.setMask k p.node (s.sarg64 b).toNat).updGroup k f).advance := by
    rw [exec_of_issues (i := .bsetm a b) hi]
    simp only [withGroup_names hn, hplace]
    refine (if_neg (Nat.not_le.mpr hm)).trans (if_neg ?_)
    intro hc
    obtain ⟨hl, hc⟩ := Bool.and_eq_true_iff.mp hc
    cases h : (s.groupAt k).bound with
    | none => simp [h] at hc
    | some x => simp [h, hbound (of_decide_eq_true hl) x h] at hc
  refine ⟨_, he, past_advance rfl, ?_, by rw [State.gang_advance]; rfl⟩
  rw [groupAt_advance, groupAt_updGroup, if_pos rfl, State.setMask, groupAt_updGroup, if_pos rfl]
  exact NamedGroup.pending_setMask _ _ _

theorem bsetmDevice_runs (hi : s.issues (fixedOps [.sr 32 a, .sr 64 b]) = true) (hlevel : 2 ≤ ngLevel e)
    (hm : (s.sarg64 b).toNat < 256) :
    ∃ t, exec (.bsetmDevice a b) s = .next t ∧ s.past t ∧ ((t.groupAt k).node 1).pending = (s.sarg64 b).toNat := by
  have he : exec (.bsetmDevice a b) s = .next (s.setMask k 1 (s.sarg64 b).toNat).advance := by
    rw [exec_of_issues (i := .bsetmDevice a b) hi]
    simp only [withGroup_names hn, if_neg (Nat.not_lt.mpr hlevel), if_neg (Nat.not_le.mpr hm)]
  refine ⟨_, he, past_advance rfl, ?_⟩
  rw [groupAt_advance, State.setMask, groupAt_updGroup, if_pos rfl, NamedGroup.pending_setMask]

theorem bsetmRoot_runs (hi : s.issues (fixedOps [.sr 32 a, .sr 64 b]) = true) (hlevel : ngLevel e = 3) (hroot : ngRoot e = s.devid)
    (h0 : 0 < (s.sarg64 b).toNat) (hm : (s.sarg64 b).toNat ≤ 2304) :
    ∃ t, exec (.bsetmRoot a b) s = .next t ∧ s.past t ∧ ((t.groupAt k).node 2).pending = (s.sarg64 b).toNat := by
  have hc : (decide (ngLevel e ≠ 3) || decide ((s.sarg64 b).toNat = 0) || decide (2304 < (s.sarg64 b).toNat)) = false := by
    simp [hlevel, Nat.pos_iff_ne_zero.mp h0, hm]
  have he : exec (.bsetmRoot a b) s = .next (s.setMask k 2 (s.sarg64 b).toNat).advance := by
    rw [exec_of_issues (i := .bsetmRoot a b) hi]
    simp only [withGroup_names hn, hc, Bool.false_eq_true, if_false, if_pos hroot]
  refine ⟨_, he, past_advance rfl, ?_⟩
  rw [groupAt_advance, State.setMask, groupAt_updGroup, if_pos rfl, NamedGroup.pending_setMask]

/-! ### Arriving and waiting (10 R270) -/

omit hn in
/-- A release that goes through leaves everything but the memories as it is. -/
theorem accessed_release {q u : State} {sc : Nat} (h : q.release sc = .ok u) : q.accessed u := by
  unfold State.release at h
  dsimp only at h
  split at h
  · cases h
  · split at h
    · cases h
    · split at h
      · cases h
      · cases h
        exact accessed_releaseActs q _ sc

omit hn in
theorem accessed_arrivePaths {q u : State} {ps : BitVec 6} (h : q.arrivePaths ps = .ok u) : q.accessed u := by
  unfold State.arrivePaths at h
  dsimp only at h
  split at h
  · cases h
  · split at h
    · cases h
    · cases h
      split
      · exact accessed_drainQueues q _
      · exact State.accessed.refl q

theorem ngarv_runs {ps : BitVec 6} (hmember : s.ngMember (s.groupAt k) p s.gang.wid (ngLevel e) = true)
    (hi : s.issues (fixedOps [.sr 32 a]) = true) (hw : s.gang.whole = true) (hrep : s.gang.releaseReport (ngScope e) = none)
    (hok : ∃ q u, s.arrivePaths ps = .ok q ∧ q.release (ngScope e) = .ok u)
    (harr : bit ((s.groupAt k).node p.node).arrived p.pos = false) (hcur : bit ((s.groupAt k).node p.node).cur p.pos = true) :
    ∃ t, exec (.ngarv ps a) s = .next t ∧ s.past t ∧ t.gang.regs = s.gang.regs ∧
      bit ((t.groupAt k).node p.node).arrived p.pos = true := by
  obtain ⟨q, u, hq, hu⟩ := hok
  have hacc := (accessed_arrivePaths hq).trans (accessed_release hu)
  have harrive : s.ngArrive ps (s.sarg a).toNat e k = .ok (u.updGroup k (fun g => g.arriveAt p u.gang.wid)) := by
    simp only [State.ngArrive, hw, place_names hn, hmember, hrep, hq, hu, harr, hcur, Bool.not_true, Bool.false_eq_true, if_false]
  have he : exec (.ngarv ps a) s = .next (u.updGroup k (fun g => g.arriveAt p u.gang.wid)).advance := by
    rw [exec_of_issues (i := .ngarv ps a) hi]
    simp only [hw, withGroup_names hn, harrive, Bool.not_true, Bool.false_eq_true, if_false]
  refine ⟨_, he, past_advance hacc.flow, by rw [State.gang_advance]; exact hacc.regs, ?_⟩
  rw [groupAt_advance, groupAt_updGroup, if_pos rfl, NamedGroup.arrived_arriveAt]

theorem ngWaiting_names (hmember : s.ngMember (s.groupAt k) p s.gang.wid (ngLevel e) = true)
    (body : NgPlace → Nat → Nat → Nat → State → Res) : ngWaiting s a body = body p (s.sarg a).toNat e k s := by
  simp only [ngWaiting, withGroup_names hn, place_names hn, hmember, if_true]

theorem ngwait_runs (hmember : s.ngMember (s.groupAt k) p s.gang.wid (ngLevel e) = true) (hi : s.issues (fixedOps [.sr 32 a]) = true) :
    (bit ((s.groupAt k).node p.node).arrived p.pos = false →
      exec (.ngwait a) s = .next (s.acquireActs s.gang.core (ngScope e)).advance) ∧
    (bit ((s.groupAt k).node p.node).arrived p.pos = true →
      exec (.ngwait a) s = .next (s.stall (.groupWait (s.sarg a).toNat))) := by
  have he : exec (.ngwait a) s = if bit ((s.groupAt k).node p.node).arrived p.pos then stallOn (.groupWait (s.sarg a).toNat) s
      else .next (s.acquireActs s.gang.core (ngScope e)).advance := by
    rw [exec_of_issues (i := .ngwait a) hi, ngWaiting_names hn hmember]
  rw [he]
  exact ⟨fun h => if_neg (by simp [h]), fun h => if_pos h⟩

theorem ngwaitGen_runs (hmember : s.ngMember (s.groupAt k) p s.gang.wid (ngLevel e) = true)
    (hi : s.issues (fixedOps [.sr 32 a, .sr 32 b]) = true) (hv : (s.sarg b).toNat < 2 ^ 16)
    (hgen : (s.groupAt k).gen.toNat ≠ (s.sarg b).toNat) :
    exec (.ngwaitGen a b) s = .next (s.acquireActs s.gang.core (ngScope e)).advance := by
  rw [exec_of_issues (i := .ngwaitGen a b) hi, ngWaiting_names hn hmember]
  exact (if_neg (Nat.not_le.mpr hv)).trans (if_neg hgen)

theorem ngwaitRead_runs :
    scalarRuns (.ngwaitRead a b) s (fixedOps [.sr 32 a, .sw 32 b]) b (fun _ => (s.groupAt k).gen.setWidth 32) := by
  refine scalarRuns_of_mem (by simp) _ (fun hi => ?_)
  rw [exec_of_issues (i := .ngwaitRead a b) hi, withGroup_names hn]
  rfl

end

/-- Settles O36: each word by what it makes of its group. -/
theorem namedGroups : Obligations.NamedGroups := by
  refine ⟨fun s a b e k p hn => ?_, fun s ps a b e k p hn hmember => ?_, groupCompletes⟩
  · exact ⟨ngjoin_runs hn, ngjoinLeave_runs hn, bsetm_runs hn, bsetmDevice_runs hn, bsetmRoot_runs hn⟩
  · exact ⟨ngarv_runs hn hmember, ngwait_runs hn hmember, ngwaitGen_runs hn hmember, ngwaitRead_runs hn⟩

end Sys2Proof.Machine
end

section
/-! Gleaner commands are queued under tickets (11 R275 to R280). -/

namespace Sys2Proof.Machine

/-- An event of an engine that nothing of the gang holds up. -/
theorem engineOr_free {paths : Nat} {s : State} (hlate : s.gang.lateAccesses = []) (hheld : s.gang.heldBy paths = []) (body : Res) :
    engineOr paths s body = body := by
  unfold engineOr
  rw [hlate]
  exact heldOr_free hheld body

theorem Gang.counter_raise (g : Gang) (p id : Nat) (perf : Bool) : (g.raise p id perf).counter p = g.counter p + 1 := by
  simp [Gang.counter, Gang.raise]

/-- A ticketed command: the operation on its path, the ticket in every issuing slice, and past the word. -/
def Gang.ticketed (path id ticket : Nat) (b : Code) (g : Gang) : Gang := (g.raise path id false).putSAll b (BitVec.ofNat 32 ticket)

section
variable (path id ticket : Nat) (b : Code) (g : Gang)

theorem Gang.ticketed_eq : g.ticketed path id ticket b =
    { g.raise path id false with regs := { g.regs with sc := (g.ticketed path id ticket b).regs.sc } } := by
  unfold Gang.ticketed Gang.putSAll Gang.putS
  split <;> rfl

theorem Gang.flow_ticketed : (g.ticketed path id ticket b).flow = g.flow := by rw [Gang.ticketed_eq]; rfl

theorem Gang.counter_ticketed : (g.ticketed path id ticket b).counter path = g.counter path + 1 := by
  rw [Gang.ticketed_eq]
  exact Gang.counter_raise g path id false

theorem Gang.v_ticketed : (g.ticketed path id ticket b).regs.v = g.regs.v := by rw [Gang.ticketed_eq]

theorem Gang.s_ticketed {b : Code} (hb : b ≠ 0xF0) (hs : sDst b = true) {k : Nat} (hk : k < 8) (hi : g.issuing k = true) :
    (g.ticketed path id ticket b).s k b.toNat = BitVec.ofNat 32 ticket := Gang.s_putSAll _ hb hs _ hk hi

end

/-- The command that a word queues. -/
def State.newCmd (s : State) (kind : Nat) (block : List Byte) (rs : List (List Byte)) : Gcmd :=
  { Gcmd.fresh (s.coreAt s.gang.core).ticket s.nextId s.gang.wid s.gang.num s.wg.pasid s.wg.part kind block (s.gang.pcNow.setWidth 64)
    with receivers := rs }

theorem coreAt_enqueue (s : State) (core : Nat) (c : Gcmd) : (s.enqueue core c).coreAt core =
    { s.coreAt core with gleaner := (s.coreAt core).gleaner ++ [c], ticket := ((s.coreAt core).ticket + 1) % 65536 } := by
  rw [State.enqueue, State.coreAt_updCore]

/-- A block that passes its checks is queued. -/
theorem gleanerInstr_queues {s : State} {a b : Code} {x : Tile} {rs : List (List Byte)} {kind : Nat}
    (hi : s.issues (fixedOps [.sr 32 a, .sw 32 b]) = true) (hlate : s.gang.lateAccesses = [])
    (hheld : s.gang.heldBy (2 ^ (if kind = 2 ∨ kind = 3 then 4 else 2)) = [])
    (htile : s.wg.tile (field (s.sarg a).toNat 26 6) = some x) (hrange : s.wg.rangeFault (s.sarg a).toNat 64 64 0 = none)
    (hblock : s.blockFault kind (s.tileBytes s.gang.core x ((s.sarg a).toNat % 2 ^ 26) 64) = .ok rs)
    (hroom : s.gang.counter (if kind = 2 ∨ kind = 3 then 4 else 2) < 63) (hqueue : (s.coreAt s.gang.core).gleaner.length < 16)
    (howes : kind = 4 → bit (blockNum (s.tileBytes s.gang.core x ((s.sarg a).toNat % 2 ^ 26) 64) 1 1) 4 = true →
      (s.wg.bar (blockNum (s.tileBytes s.gang.core x ((s.sarg a).toNat % 2 ^ 26) 64) 1 1 % 16)).kc +
        blockNum (s.tileBytes s.gang.core x ((s.sarg a).toNat % 2 ^ 26) 64) 9 1 ≤ 4095) :
    ∃ u : State, gleanerInstr kind a b s = .next ((u.updGang (fun h => (h.ticketed (if kind = 2 ∨ kind = 3 then 4 else 2) s.nextId
        (s.coreAt s.gang.core).ticket b).advance))) ∧ u.gang = s.gang ∧ u.mem = s.mem ∧
      u.cores = (s.takeId.2.enqueue s.gang.core
        (s.newCmd kind (s.tileBytes s.gang.core x ((s.sarg a).toNat % 2 ^ 26) 64) rs)).cores := by
  have hpath : (if (decide (kind = 2) || decide (kind = 3)) = true then 4 else 2) = if kind = 2 ∨ kind = 3 then 4 else 2 := by
    simp only [Bool.or_eq_true, decide_eq_true_eq]
  rw [gleanerInstr, guardOps_issues hi]
  simp only [hpath, hrange, Workgroup.barnLoc, htile, Option.getD_some]
  rw [engineOr_free hlate hheld]
  generalize hbl : s.tileBytes s.gang.core x ((s.sarg a).toNat % 2 ^ 26) 64 = block at hblock howes
  simp only [hblock, if_neg (Nat.not_le.mpr hroom), if_neg (Nat.not_le.mpr hqueue)]
  rw [if_neg (by
    simp only [Bool.and_eq_true, decide_eq_true_eq]
    rintro ⟨⟨h4, hbit⟩, hgt⟩
    have := howes h4 hbit
    rw [if_pos h4] at hgt
    omega)]
  refine ⟨_, rfl, ?_⟩
  split <;> exact ⟨rfl, rfl, rfl⟩

/-- Settles O37: the words are one instruction of five kinds. -/
theorem gleanerIssue : Obligations.GleanerIssue := by
  intro s a b x rs q hq loc block path owes hi hlate hheld htile hrange hblock hroom hqueue howes
  have hexec : exec q.1 s = gleanerInstr q.2 a b s := by
    simp only [List.mem_cons, List.not_mem_nil, or_false] at hq
    rcases hq with rfl | rfl | rfl | rfl | rfl <;> rfl
  obtain ⟨u, he, hg, hm, hcores⟩ := gleanerInstr_queues (kind := q.2) hi hlate hheld htile hrange hblock hroom hqueue howes
  have htg : (u.updGang (fun h => (h.ticketed path s.nextId (s.coreAt s.gang.core).ticket b).advance)).gang =
      (s.gang.ticketed path s.nextId (s.coreAt s.gang.core).ticket b).advance := by rw [State.gang_updGang, hg]
  have hcore : (u.updGang (fun h => (h.ticketed path s.nextId (s.coreAt s.gang.core).ticket b).advance)).coreAt s.gang.core =
      (s.takeId.2.enqueue s.gang.core (s.newCmd q.2 block rs)).coreAt s.gang.core := by
    show (mapFind s.gang.core u.cores).getD Core.empty = _
    rw [hcores]
    rfl
  refine ⟨_, s.newCmd q.2 block rs, hexec.trans he,
    past_updGang (f := fun h => h.ticketed path s.nextId (s.coreAt s.gang.core).ticket b) (Gang.flow_ticketed ..) htg, hm, ?_, rfl,
    rfl, rfl, rfl, rfl, rfl, rfl, ?_, ?_, ?_, fun k hk hik hb => ?_⟩
  · rw [hcore, coreAt_enqueue]
    rfl
  · rw [hcore, coreAt_enqueue]
    rfl
  · rw [htg]
    exact Gang.counter_ticketed ..
  · rw [htg]
    exact Gang.v_ticketed ..
  · rw [htg]
    exact Gang.s_ticketed _ _ _ _ hb (legal_of_issues hi hik (o := .sw 32 b) (by simp)) hk hik

end Sys2Proof.Machine
end

section
/-! The collective copy, and the query and cancelling of a ticket (11 R281, R282, R295, R296). -/

namespace Sys2Proof.Machine

/-! ### Gangs changed one by one -/

theorem gangAt_updGangAt (s : State) (j k : Nat) (f : Gang → Gang) :
    (s.updGangAt j f).gangAt k = if k = j then f (s.gangAt j) else s.gangAt k := by
  unfold State.updGangAt
  split
  · next h => rw [h, State.gangAt_setGangAt]
  · next h => exact State.gangAt_setGangAt_other s h _

section
variable {α : Type} (key : α → Nat) (f : α → Gang → Gang)

/-- Each of some elements changes the gang of its key. -/
def State.updGangs (as : List α) (s : State) : State := as.foldl (fun s a => s.updGangAt (key a) (f a)) s

theorem updGangs_cases (as : List α) (s : State) : ∃ gs, s.updGangs key f as = { s with gangs := gs } := by
  induction as generalizing s with
  | nil => exact ⟨_, rfl⟩
  | cons a as ih =>
    obtain ⟨gs, h⟩ := ih (s.updGangAt (key a) (f a))
    exact ⟨gs, h⟩

theorem gangAt_updGangs_other (as : List α) (s : State) {k : Nat} (hk : k ∉ as.map key) : (s.updGangs key f as).gangAt k = s.gangAt k := by
  induction as generalizing s with
  | nil => rfl
  | cons a as ih =>
    rw [List.map_cons, List.mem_cons, not_or] at hk
    exact (ih _ hk.2).trans (by rw [gangAt_updGangAt, if_neg hk.1])

/-- Elements with keys of their own change their gangs once. -/
theorem gangAt_updGangs (as : List α) (s : State) (hn : (as.map key).Nodup) {a : α} (ha : a ∈ as) :
    (s.updGangs key f as).gangAt (key a) = f a (s.gangAt (key a)) := by
  induction as generalizing s with
  | nil => cases ha
  | cons b as ih =>
    obtain ⟨hb, hn'⟩ := List.nodup_cons.mp hn
    rcases List.mem_cons.mp ha with rfl | ha
    · exact (gangAt_updGangs_other key f as _ hb).trans (by rw [gangAt_updGangAt, if_pos rfl])
    · have hne : key a ≠ key b := fun h => hb (h ▸ List.mem_map_of_mem ha)
      exact (ih _ hn' ha).trans (by rw [gangAt_updGangAt, if_neg hne])

/-- What each change leaves of a gang, all of them leave. -/
theorem gangAt_updGangs_leaves {P : Gang → Gang → Prop} (hrefl : ∀ g, P g g) (htrans : ∀ g h k, P g h → P h k → P g k)
    (hf : ∀ a g, P g (f a g)) (as : List α) (s : State) (k : Nat) : P (s.gangAt k) ((s.updGangs key f as).gangAt k) := by
  induction as generalizing s with
  | nil => exact hrefl _
  | cons a as ih =>
    refine htrans _ _ _ ?_ (ih _)
    rw [gangAt_updGangAt]
    split
    · next h => exact h ▸ hf a _
    · exact hrefl _

end

theorem mem_mapPut {α : Type} {k j : Nat} {x y : α} {m : SMap α} (h : (j, y) ∈ mapPut k x m) : (j, y) = (k, x) ∨ (j, y) ∈ m := by
  induction m with
  | nil => exact .inl (List.mem_singleton.mp h)
  | cons e m ih =>
    obtain ⟨i, z⟩ := e
    simp only [mapPut] at h
    split at h
    · rcases List.mem_cons.mp h with h | h
      · exact .inr (h ▸ List.mem_cons_self)
      · exact (ih h).imp_right (List.mem_cons_of_mem _)
    · split at h
      · rcases List.mem_cons.mp h with h | h
        · exact .inl h
        · exact .inr (List.mem_cons_of_mem _ h)
      · exact List.mem_cons.mp h

theorem mem_of_mapFind {α : Type} {k : Nat} {x : α} {m : SMap α} (h : mapFind k m = some x) : (k, x) ∈ m := by
  induction m with
  | nil => cases h
  | cons e m ih =>
    obtain ⟨i, y⟩ := e
    simp only [mapFind] at h
    split at h
    · exact List.mem_cons_of_mem _ (ih h)
    · split at h
      · next hi => cases h; exact hi ▸ List.mem_cons_self
      · cases h

/-- Past the word from a gang whose PCs and groups are as before. -/
theorem past_advance_of {s t : State} {h : Gang} (ht : t.gang = h.advance) (hpc : h.flow.pc = s.gang.flow.pc)
    (hgrp : h.flow.grp = s.gang.flow.grp) (hexited : h.flow.exited = s.gang.flow.exited) (hserved : h.flow.served = s.gang.flow.served) :
    s.past t := fun k hk => by
  have hi : h.issuing k = s.gang.issuing k := by unfold Gang.issuing Gang.exitedAt Gang.grp; rw [hgrp, hexited, hserved]
  have hp : ∀ j, h.pc j = s.gang.pc j := fun j => by unfold Gang.pc; rw [hpc]
  rw [ht, Gang.pc_advance _ _ hk, hi, hp, Gang.pcNow, hp, Gang.low, hserved]
  rfl

/-! ### The collective copy -/

section
variable {u : State} {wid : Nat}

/-- The command of an assembled collective. -/
def State.collectiveCmd (u : State) (wid : Nat) : Gcmd :=
  let w := u.wgAt wid
  let cs := u.contributions wid
  let lead := cs.headD { gang := 0, flags := 0, quad := [], dest := 0xF0, word := 0 }
  { Gcmd.fresh (u.coreAt (coreOfWid wid)).ticket u.nextId wid lead.gang w.pasid w.part 0 [lead.flags]
      ((u.gangAt (gangKey wid lead.gang)).pcNow.setWidth 64) with segs := cs }

/-- An assembled collective with room in the queue is accepted under one ticket. -/
theorem tryCollective_accepts (ha : u.assembled wid = true) (hr : (u.wgAt wid).rejectCollective (u.contributions wid) = none)
    (hq : (u.coreAt (coreOfWid wid)).gleaner.length < 16) :
    u.tryCollective wid = (((u.takeId.2.enqueue (coreOfWid wid) (u.collectiveCmd wid)).updWgAt wid
      (fun w => { w with assembling := [] })).updGangs (fun c => gangKey wid c.gang)
        (fun c g => g.accepted u.nextId (u.coreAt (coreOfWid wid)).ticket c) (u.contributions wid)) := by
  simp only [State.tryCollective, ha, hr, Bool.not_true, Bool.false_eq_true, if_false, if_neg (Nat.not_le.mpr hq)]
  rfl

theorem tryCollective_waits (ha : u.assembled wid = false) : u.tryCollective wid = u := by
  simp only [State.tryCollective, ha, Bool.not_false, if_true]

end

theorem mem_insertContribution (c : Contribution) (cs : List Contribution) : c ∈ insertContribution c cs := by
  induction cs with
  | nil => exact List.mem_cons_self
  | cons d ds ih =>
    rw [insertContribution]
    split
    · exact List.mem_cons_of_mem _ ih
    · split <;> exact List.mem_cons_self

/-- The gang's contribution to a collective. -/
def State.segment (s : State) (x c : BitVec 1) (gb : BitVec 4) (a b : Code) : Contribution :=
  { gang := s.gang.num, flags := 0#2 ++ x ++ c ++ gb
    quad := (List.range 4).map (fun i => s.gang.s s.gang.low (a.toNat + i)), dest := b, word := s.ir }

/-- The gang stalled at its cpyc, with its contribution made. -/
def State.contributed (s : State) (me : Contribution) : State :=
  (s.stall .collective).updWg (fun w => { w with assembling := insertContribution me w.assembling })

section
variable (s : State) (me : Contribution)

/-- The gang that has made its contribution. -/
theorem gang_contributed : (s.contributed me).gang = { s.gang with flow := { s.gang.flow with
    words := (s.gang.keepWord s.ir).flow.words, blocks := mapPut s.gang.flow.served .collective s.gang.flow.blocks } } := by
  show (s.stall .collective).gang = _
  rw [State.stall, State.gang_updGang]
  rfl

theorem wgAt_contributed : (s.contributed me).wgAt s.gang.wid =
    { s.wg with assembling := insertContribution me s.wg.assembling } := by
  have hwid : (s.stall .collective).gang.wid = s.gang.wid := by rw [State.stall, State.gang_updGang]; rfl
  rw [State.contributed, State.updWg, State.updWgAt, hwid, State.wgAt_setWgAt]
  rfl

theorem atCollective_contributed : (s.contributed me).gang.atCollective = true := by
  rw [gang_contributed]
  have hfind := mapFind_put_same s.gang.flow.served Block.collective s.gang.flow.blocks
  refine List.any_eq_true.mpr ⟨_, mem_of_mapFind hfind, ?_⟩
  simp

variable {s me}

/-- The gang's own contribution counts. -/
theorem mem_contributions (hcur : s.cur = gangKey s.gang.wid s.gang.num) (hme : me.gang = s.gang.num) :
    me ∈ (s.contributed me).contributions s.gang.wid := by
  refine List.mem_filter.mpr ⟨?_, ?_⟩
  · rw [wgAt_contributed]
    exact mem_insertContribution me _
  · rw [hme, ← hcur]
    exact atCollective_contributed s me

/-- The gang whose collective is accepted. -/
theorem accepted_contributed (hblocks : s.gang.flow.blocks = []) (id ticket : Nat) :
    (s.contributed me).gang.accepted id ticket me =
      (Gang.ticketed 2 id ticket me.dest { s.gang with flow := { s.gang.flow with
        words := (s.gang.keepWord s.ir).flow.words, blocks := mapDrop s.gang.flow.served [(s.gang.flow.served, .collective)] } }).advance := by
  rw [gang_contributed]
  simp only [Gang.accepted, hblocks, mapPut, List.find?_cons, decide_true, Option.map_some, Option.getD_some]
  rfl

end

end Sys2Proof.Machine
end

section
/-! The words of the collective copy, of the query and of the cancelling (11 R281, R282, R295, R296). -/

namespace Sys2Proof.Machine

section
variable {s : State} {x c : BitVec 1} {gb : BitVec 4} {a b : Code}

/-- cpyc of a gang that nothing holds up. -/
theorem exec_cpyc (hc : c = 0 → gb = 0) (hi : s.issues (fixedOps [.so 128 a, .sw 32 b]) = true) (hw : s.gang.whole = true)
    (hlate : s.gang.lateAccesses = []) (hheld : s.gang.heldBy 4 = []) (hroom : s.gang.counter 2 < 63) :
    exec (.cpyc x c gb a b) s = .next ((s.contributed (s.segment x c gb a b)).tryCollective s.gang.wid) := by
  have hlegal : (decide (c = 0) && decide (gb ≠ 0)) = false := by
    simpa using hc
  show execCpyc x c gb a b s = _
  rw [execCpyc, hlegal, if_neg Bool.false_ne_true, guardOps_issues hi]
  simp only [hw, Bool.not_true, Bool.false_eq_true, if_false]
  rw [engineOr_free hlate hheld, if_neg (Nat.not_le.mpr hroom)]
  rfl

/-- A collective that is accepted with the gang's own contribution. -/
theorem cpyc_accepted (hcur : s.cur = gangKey s.gang.wid s.gang.num) (hblocks : s.gang.flow.blocks = []) {me : Contribution}
    (hme : me.gang = s.gang.num) (ha : (s.contributed me).assembled s.gang.wid = true)
    (hn : (((s.contributed me).contributions s.gang.wid).map (·.gang)).Nodup)
    (hr : s.wg.rejectCollective ((s.contributed me).contributions s.gang.wid) = none)
    (hq : (s.coreAt (coreOfWid s.gang.wid)).gleaner.length < 16) :
    ∃ t k, (s.contributed me).tryCollective s.gang.wid = t ∧ s.past t ∧
      (t.coreAt (coreOfWid s.gang.wid)).gleaner = (s.coreAt (coreOfWid s.gang.wid)).gleaner ++ [k] ∧ k.kind = 0 ∧
      k.segs = (s.contributed me).contributions s.gang.wid ∧ k.ticket = (s.coreAt (coreOfWid s.gang.wid)).ticket ∧
      t.wg.assembling = [] ∧ t.gang.counter 2 = s.gang.counter 2 + 1 ∧
      (sDst me.dest = true → ∀ j, j < 8 → s.gang.issuing j = true → me.dest ≠ 0xF0 →
        t.gang.s j me.dest.toNat = BitVec.ofNat 32 k.ticket) := by
  have hr' : ((s.contributed me).wgAt s.gang.wid).rejectCollective ((s.contributed me).contributions s.gang.wid) = none := by
    rw [wgAt_contributed]
    exact hr
  have hmem := mem_contributions hcur hme
  have htry := tryCollective_accepts ha hr' hq
  generalize hcs : (s.contributed me).contributions s.gang.wid = cs at *
  generalize hb : (((s.contributed me).takeId.2.enqueue (coreOfWid s.gang.wid) ((s.contributed me).collectiveCmd s.gang.wid)).updWgAt
    s.gang.wid (fun w => { w with assembling := [] })) = base at htry
  obtain ⟨gs, hgs⟩ := updGangs_cases (fun c => gangKey s.gang.wid c.gang)
    (fun c g => g.accepted (s.contributed me).nextId ((s.contributed me).coreAt (coreOfWid s.gang.wid)).ticket c) cs base
  have hkeys : (cs.map (fun c => gangKey s.gang.wid c.gang)).Nodup := by
    have : cs.map (fun c => gangKey s.gang.wid c.gang) = (cs.map (·.gang)).map (gangKey s.gang.wid) := by simp [Function.comp_def]
    rw [this]
    exact hn.map fun i j h => by simpa [gangKey] using h
  have hown := gangAt_updGangs (fun c => gangKey s.gang.wid c.gang)
    (fun c g => g.accepted (s.contributed me).nextId ((s.contributed me).coreAt (coreOfWid s.gang.wid)).ticket c) cs base hkeys hmem
  rw [← htry] at hgs hown
  have hbase : base.gangs = (s.contributed me).gangs ∧ base.cur = s.cur := by rw [← hb]; exact ⟨rfl, rfl⟩
  have hg : ((s.contributed me).tryCollective s.gang.wid).gang =
      (Gang.ticketed 2 (s.contributed me).nextId ((s.contributed me).coreAt (coreOfWid s.gang.wid)).ticket me.dest
        { s.gang with flow := { s.gang.flow with
          words := (s.gang.keepWord s.ir).flow.words, blocks := mapDrop s.gang.flow.served [(s.gang.flow.served, .collective)] } }).advance := by
    rw [← accepted_contributed hblocks]
    have hc : ((s.contributed me).tryCollective s.gang.wid).cur = gangKey s.gang.wid me.gang := by
      rw [hgs, hme, ← hcur]
      exact hbase.2
    have hbg : base.gangAt (gangKey s.gang.wid me.gang) = (s.contributed me).gang := by
      rw [hme, ← hcur, State.gangAt, hbase.1]
      rfl
    rw [State.gang, hc]
    exact hown.trans (by rw [hbg])
  have hcore : ((s.contributed me).tryCollective s.gang.wid).coreAt (coreOfWid s.gang.wid) = base.coreAt (coreOfWid s.gang.wid) := by
    rw [hgs]
    rfl
  have hbcore : base.coreAt (coreOfWid s.gang.wid) = { s.coreAt (coreOfWid s.gang.wid) with
      gleaner := (s.coreAt (coreOfWid s.gang.wid)).gleaner ++ [(s.contributed me).collectiveCmd s.gang.wid]
      ticket := ((s.coreAt (coreOfWid s.gang.wid)).ticket + 1) % 65536 } := by
    rw [← hb]
    exact coreAt_enqueue _ _ _
  refine ⟨_, (s.contributed me).collectiveCmd s.gang.wid, rfl, past_advance_of hg ?_ ?_ ?_ ?_, ?_, rfl, hcs, rfl, ?_, ?_, fun hs j hj hij hd => ?_⟩
  · rw [Gang.flow_ticketed]
  · rw [Gang.flow_ticketed]
  · rw [Gang.flow_ticketed]
  · rw [Gang.flow_ticketed]
  · rw [hcore, hbcore]
  · have hwid : ((s.contributed me).tryCollective s.gang.wid).gang.wid = s.gang.wid := by rw [hg, Gang.ticketed_eq]; rfl
    have hw : base.wgAt s.gang.wid = { (s.contributed me).wgAt s.gang.wid with assembling := [] } := by
      rw [← hb]
      exact State.wgAt_setWgAt _ _ _
    rw [State.wg, hwid, hgs]
    show (base.wgAt s.gang.wid).assembling = []
    rw [hw]
  · rw [hg]
    exact Gang.counter_ticketed 2 _ _ _ _
  · rw [hg]
    exact Gang.s_ticketed _ _ _ _ hd hs hj hij

/-- The only gang of a workgroup assembles its collective alone. -/
theorem contributions_alone (hcur : s.cur = gangKey s.gang.wid s.gang.num) (halone : s.gangsOf s.gang.wid = [s.cur])
    (hassembling : s.wg.assembling = []) {me : Contribution} (hme : me.gang = s.gang.num) :
    (s.contributed me).contributions s.gang.wid = [me] ∧ (s.contributed me).assembled s.gang.wid = true := by
  have hcs : (s.contributed me).contributions s.gang.wid = [me] := by
    have hat : ((s.contributed me).gangAt (gangKey s.gang.wid me.gang)).atCollective = true := by
      rw [hme, ← hcur]
      exact atCollective_contributed s me
    rw [State.contributions, wgAt_contributed, hassembling]
    simp [insertContribution, hat]
  refine ⟨hcs, ?_⟩
  rw [State.assembled, hcs]
  simp only [List.isEmpty_cons, Bool.not_false, Bool.true_and, List.all_eq_true, List.any_cons, List.any_nil, Bool.or_false,
    decide_eq_true_eq, hme, ← hcur]
  intro k hk
  obtain ⟨⟨j, g⟩, he, rfl⟩ := List.mem_map.mp hk
  obtain ⟨hin, hlive⟩ := List.mem_filter.mp he
  rcases mem_mapPut hin with h | h
  · exact (congrArg Prod.fst h).symm
  · have : j ∈ s.gangsOf s.gang.wid := List.mem_map.mpr ⟨(j, g), List.mem_filter.mpr ⟨h, hlive⟩, rfl⟩
    rw [halone] at this
    exact (List.mem_singleton.mp this).symm

end

/-! ### Query and cancel -/

theorem gqry_runs {s : State} {a b : Code} (h : (s.sarg a).toNat < 65536) :
    scalarRuns (.gqry a b) s (fixedOps [.sr 32 a, .sw 32 b]) b
      (fun _ => s.ticketStatus s.gang.core s.gang.wid (s.sarg a).toNat) := by
  refine scalarRuns_of_mem (by simp) _ (fun hi => ?_)
  rw [exec_of_issues (i := .gqry a b) hi]
  exact if_neg (Nat.not_le.mpr h)

/-- The barrier credits that a cancelled command owes change its workgroup alone. -/
theorem creditCmd_cases (s : State) (c : Gcmd) (f : Bar → Bar) : ∃ ws, s.creditCmd c f = { s with wgs := ws } := by
  unfold State.creditCmd
  split <;> exact ⟨_, rfl⟩

theorem payOwed_cases (s : State) (c : Gcmd) : ∃ ws, s.payOwed c = { s with wgs := ws } := by
  unfold State.payOwed
  split
  · exact creditCmd_cases s c _
  · split <;> exact creditCmd_cases s c _

theorem lowerIssuers_eq (s : State) (c : Gcmd) : s.lowerIssuers c = s.updGangs (fun k => k) (fun _ g => g.complete c.id) c.issuers := rfl

/-- The issuers' counters fall, and nothing else of a gang changes. -/
theorem gangAt_lowerIssuers (s : State) (c : Gcmd) (k : Nat) :
    (s.lowerIssuers c).gangAt k = { s.gangAt k with out := ((s.lowerIssuers c).gangAt k).out } := by
  rw [lowerIssuers_eq]
  exact gangAt_updGangs_leaves (fun k => k) (fun _ g => g.complete c.id) (P := fun g h => h = { g with out := h.out })
    (fun _ => rfl) (fun g h k h1 h2 => by rw [h2, h1]) (fun _ _ => rfl) c.issuers s k

/-- A cancelled command leaves the queue with status 5. -/
theorem cancelCmd_spec (s : State) (core : Nat) (c : Gcmd) :
    ((s.cancelCmd core c).coreAt core).gleaner = (s.coreAt core).gleaner.filter (fun x => decide (x.id ≠ c.id)) ∧
      ((s.cancelCmd core c).coreAt core).ended.head? = some (c.wid, c.ticket, statusWord c 5 0) ∧
      (s.cancelCmd core c).mem = s.mem ∧ (s.cancelCmd core c).gang = { s.gang with out := (s.cancelCmd core c).gang.out } := by
  obtain ⟨ws, hw⟩ := payOwed_cases s c
  have hcore : ((s.payOwed c).endCmd core c 5 0).coreAt core = { s.coreAt core with
      gleaner := (s.coreAt core).gleaner.filter (fun x => decide (x.id ≠ c.id))
      ended := ((c.wid, c.ticket, statusWord c 5 0) :: (s.coreAt core).ended).take 48 } := by
    rw [State.endCmd, State.coreAt_updCore, hw]
    rfl
  obtain ⟨gs, hgs⟩ := updGangs_cases (fun k => k) (fun _ g => g.complete c.id) c.issuers ((s.payOwed c).endCmd core c 5 0)
  rw [← lowerIssuers_eq] at hgs
  have hl : (s.cancelCmd core c).coreAt core = ((s.payOwed c).endCmd core c 5 0).coreAt core := by
    rw [State.cancelCmd, hgs]
    rfl
  refine ⟨by rw [hl, hcore], by rw [hl, hcore]; rfl, ?_, ?_⟩
  · rw [State.cancelCmd, hgs, hw]
    rfl
  · have hg := gangAt_lowerIssuers ((s.payOwed c).endCmd core c 5 0) c s.cur
    have hcur : (s.cancelCmd core c).cur = s.cur := by rw [State.cancelCmd, hgs, hw]; rfl
    have hsame : ((s.payOwed c).endCmd core c 5 0).gangAt s.cur = s.gang := by rw [hw]; rfl
    rw [hsame] at hg
    rw [State.gang, hcur]
    exact hg

theorem gcncl_runs {s : State} {a b : Code} (hi : s.issues (fixedOps [.sr 32 a, .sw 32 b]) = true) :
    let q := (s.coreAt s.gang.core).gleaner
    let mine := fun (c : Gcmd) => decide (c.ticket = (s.sarg a).toNat % 65536) && decide (c.wid = s.gang.wid)
    (∀ c, q.find? mine = some c → s.engBusy c.id = false → ∃ t, exec (.gcncl a b) s = .next t ∧ s.past t ∧
      (t.coreAt s.gang.core).gleaner = q.filter (fun x => decide (x.id ≠ c.id)) ∧
      (t.coreAt s.gang.core).ended.head? = some (c.wid, c.ticket, statusWord c 5 0) ∧ t.mem = s.mem ∧
      ∀ j, j < 8 → s.gang.issuing j = true → b ≠ 0xF0 → t.gang.s j b.toNat = 0) ∧
    (∀ c, q.find? mine = some c → s.engBusy c.id = true → exec (.gcncl a b) s =
      .next ((s.updCmd s.gang.core c.id (fun c => { c with cancelled := true })).stall (.cancel c.id b))) ∧
    (q.find? mine = none → scalarRuns (.gcncl a b) s (fixedOps [.sr 32 a, .sw 32 b]) b (fun _ =>
      if (s.coreAt s.gang.core).ended.any (fun e => decide (e.1 = s.gang.wid) &&
        decide (e.2.1 = (s.sarg a).toNat % 65536)) then 1 else 7)) := by
  intro q mine
  have he := exec_of_issues (i := .gcncl a b) hi
  refine ⟨fun c hc hbusy => ?_, fun c hc hbusy => ?_, fun hnone => ?_⟩
  · obtain ⟨hq, hended, hmem, hg⟩ := cancelCmd_spec s s.gang.core c
    have hflow : (s.cancelCmd s.gang.core c).gang.flow = s.gang.flow := by rw [hg]
    obtain ⟨t, ht, -, -, htg⟩ := finishWith_step (s.cancelCmd s.gang.core c) (f := fun h => h.putSAll b 0) (Gang.flow_putSAll ..)
    have htt : t = (s.cancelCmd s.gang.core c).updGang (fun h => (h.putSAll b 0).advance) := (Host.Outcome.next.inj ht).symm
    refine ⟨t, ?_, ?_, ?_, ?_, ?_, fun j hj hij hb => ?_⟩
    · have hfound : (s.coreAt s.gang.core).gleaner.find? (fun c => decide (c.ticket = (s.sarg a).toNat % 65536) && decide (c.wid = s.gang.wid)) = some c := hc
      rw [he]
      simp only [hfound, hbusy, Bool.false_eq_true, if_false]
      exact ht
    · exact past_advance_of htg (by rw [Gang.flow_putSAll, hflow]) (by rw [Gang.flow_putSAll, hflow])
        (by rw [Gang.flow_putSAll, hflow]) (by rw [Gang.flow_putSAll, hflow])
    · rw [htt]; exact hq
    · rw [htt]; exact hended
    · rw [htt]; exact hmem
    · rw [htg]
      exact Gang.s_putSAll _ hb (legal_of_issues hi hij (o := .sw 32 b) (by simp)) _ hj (by rw [← hij, Gang.issuing, Gang.issuing, Gang.exitedAt, Gang.exitedAt, Gang.grp, Gang.grp, hflow])
  · have hfound : (s.coreAt s.gang.core).gleaner.find? (fun c => decide (c.ticket = (s.sarg a).toNat % 65536) && decide (c.wid = s.gang.wid)) = some c := hc
    rw [he]
    simp only [hfound, hbusy, if_true]
    rfl
  · refine scalarRuns_of_mem (by simp) _ (fun _ => ?_)
    have hfound : (s.coreAt s.gang.core).gleaner.find? (fun c => decide (c.ticket = (s.sarg a).toNat % 65536) && decide (c.wid = s.gang.wid)) = none := hnone
    rw [he]
    simp only [hfound]
    rfl

/-- Settles O38. -/
theorem collectiveQueryCancel : Obligations.CollectiveQueryCancel := by
  refine ⟨fun s x c gb a b hc hi hw hlate hheld hroom hcur hblocks => ?_, fun s a b => gqry_runs, fun s a b => gcncl_runs⟩
  have he := exec_cpyc (x := x) hc hi hw hlate hheld hroom
  refine ⟨fun halone hassembling hr hq => ?_, fun ha hn hr hq => ?_, fun ha => ?_⟩
  · obtain ⟨hcs, ha⟩ := contributions_alone hcur halone hassembling (me := s.segment x c gb a b) rfl
    obtain ⟨t, k, ht, hpast, hgl, hkind, hsegs, hticket, -, hcount, hs⟩ := cpyc_accepted hcur hblocks rfl ha
      (by rw [hcs]; exact List.nodup_singleton _) (by rw [hcs]; exact hr) hq
    exact ⟨t, k, he.trans (by rw [ht]), hpast, hgl, hkind, hsegs.trans hcs, hticket, hcount, fun j hj hij hb =>
      hs (legal_of_issues hi hij (o := .sw 32 b) (by simp)) j hj hij hb⟩
  · obtain ⟨t, k, ht, hpast, hgl, hkind, hsegs, hticket, hassembling, -, -⟩ := cpyc_accepted hcur hblocks
      (me := s.segment x c gb a b) rfl ha hn hr hq
    exact ⟨t, k, he.trans (by rw [ht]), hpast, hgl, hkind, hsegs, hticket, hassembling⟩
  · refine ⟨s.contributed (s.segment x c gb a b), he.trans (congrArg Host.Outcome.next (tryCollective_waits ha)), ?_, ?_, ?_⟩
    · have hwid : (s.contributed (s.segment x c gb a b)).gang.wid = s.gang.wid := by rw [gang_contributed]
      rw [State.wg, hwid, wgAt_contributed]
      rfl
    · rw [gang_contributed]
      exact mapFind_put_same _ _ _
    · rw [gang_contributed]

end Sys2Proof.Machine
end

section
/-! What the agents outside the cores leave unchanged (09 R235; 15 R381; 17 R484): they reach memory at home, the tables of
the partitions, the queues and the cells, and of a gang its watch alone. -/

namespace Sys2Proof.Machine

/-- `s` with what the agents outside the cores write as in `t`. -/
def State.withAgents (s t : State) : State :=
  { s with mem := t.mem, badLines := t.badLines, msgs := t.msgs, links := t.links, nextId := t.nextId, watches := t.watches, gangs := t.gangs
           fresh := t.fresh, ioTlb := t.ioTlb, alarms := t.alarms, window := t.window, logIndex := t.logIndex
           logCount := t.logCount, parts := t.parts, queues := t.queues, cells := t.cells }

/-- `t` is `s` after accesses of the agents outside the cores. -/
structure State.agented (s t : State) : Prop where
  eq : t = s.withAgents t
  gang : ∀ k, t.gangAt k = { s.gangAt k with watch := (t.gangAt k).watch }

namespace State.agented

theorem refl (s : State) : s.agented s := ⟨rfl, fun _ => rfl⟩

theorem trans {s t u : State} (h1 : s.agented t) (h2 : t.agented u) : s.agented u where
  eq := by
    calc u = t.withAgents u := h2.eq
      _ = (s.withAgents t).withAgents u := by rw [← h1.eq]
      _ = s.withAgents u := rfl
  gang k := by rw [h2.gang k, h1.gang k]

theorem foldl {α : Type} {f : State → α → State} (h : ∀ (s : State) a, s.agented (f s a)) (as : List α) (s : State) :
    s.agented (as.foldl f s) := by
  induction as generalizing s with
  | nil => exact refl s
  | cons a as ih => exact (h s a).trans (ih _)

/-- Messages and watches are among what they write. -/
theorem of_signalled {s t : State} (h : s.signalled t) : s.agented t where
  eq := by
    have he := h.eq
    generalize t.msgs = a, t.links = b, t.nextId = c, t.watches = d, t.gangs = e at he
    subst he
    rfl
  gang := h.gang

section
variable {s t : State} (h : s.agented t)
include h

theorem cur : t.cur = s.cur := by rw [h.eq]; rfl
theorem wgs : t.wgs = s.wgs := by rw [h.eq]; rfl
theorem cores : t.cores = s.cores := by rw [h.eq]; rfl
theorem clusters : t.clusters = s.clusters := by rw [h.eq]; rfl
theorem devid : t.devid = s.devid := by rw [h.eq]; rfl
theorem out (k : Nat) : (t.gangAt k).out = (s.gangAt k).out := by rw [h.gang]
theorem coreAt (k : Nat) : t.coreAt k = s.coreAt k := by rw [State.coreAt, State.coreAt, h.cores]

end
end State.agented

/-! ### Translation, reading and writing by an agent outside the cores -/

theorem agented_writeHome (s : State) (a n : Nat) (f : Nat → Byte) : s.agented (s.writeHome a n f) :=
  (State.agented.trans (t := s.putBytes a n f) ⟨rfl, fun _ => rfl⟩ (.of_signalled (signalled_fireRange _ a n))).trans
    ⟨rfl, fun _ => rfl⟩

theorem agented_walkDone {s t : State} {pasid va : Nat} {a : Acc} {e : TlbEntry} (h : s.walkDone pasid va a = .ok (t, e)) :
    s.agented t := by
  unfold State.walkDone at h
  split at h
  · cases h
  · next r hr =>
    cases h
    unfold State.walkEnd at hr
    split at hr
    · cases hr
    · split at hr
      · cases hr
      · dsimp only at hr
        split_ifs at hr
        cases hr
        exact agented_writeHome s _ _ _

theorem agented_translateIo {s t : State} {iod pasid va : Nat} {a : Acc} {x : Xlate}
    (h : s.translateIo iod pasid va a = .ok (t, x)) : s.agented t := by
  unfold State.translateIo at h
  dsimp only at h
  split at h
  · cases h
    exact ⟨rfl, fun _ => rfl⟩
  · split at h
    · cases h
    · next hw =>
      cases h
      exact (agented_walkDone hw).trans ⟨rfl, fun _ => rfl⟩

theorem agented_putWindow (s : State) (a n x : Nat) : s.agented (s.putWindow a n x) := ⟨rfl, fun _ => rfl⟩

theorem agented_logSecurity (s : State) (target src spart cls pasid kind action : Nat) :
    s.agented (s.logSecurity target src spart cls pasid kind action) := by
  unfold State.logSecurity
  refine (State.agented.trans ?_ (agented_putWindow _ _ _ _)).trans (agented_putWindow _ _ _ _)
  exact (agented_putWindow s _ _ _).trans ⟨rfl, fun _ => rfl⟩

theorem agented_alarm (s : State) (owner : Option Nat) (target part cls pasid kind : Nat) :
    s.agented (s.alarm owner target part cls pasid kind) := by
  have hlog := agented_logSecurity s target s.devid part cls pasid kind (s.alarmAction owner)
  unfold State.alarm
  dsimp only
  generalize s.logSecurity target s.devid part cls pasid kind (s.alarmAction owner) = u at *
  split
  · exact hlog
  · exact hlog.trans ⟨rfl, fun _ => rfl⟩

theorem agented_refuseDirect (s : State) (part cls pasid kind : Nat) (r : Reach) :
    s.agented (s.refuseDirect part cls pasid kind r) := by
  cases r with
  | here => exact .refl s
  | away => exact .refl s
  | refused => exact agented_alarm s _ _ _ _ _ _
  | bad => exact ⟨rfl, fun _ => rfl⟩

theorem agented_readPieces (part cls pasid : Nat) (ps : List (Nat × Nat × Nat)) (s : State) :
    s.agented (State.readPieces part cls pasid ps s).1 := by
  induction ps generalizing s with
  | nil => exact .refl s
  | cons p ps ih =>
    unfold State.readPieces
    split
    · exact .refl s
    · split
      · exact .refl s
      · next t x hx =>
        have ht := agented_translateIo hx
        dsimp only
        split
        · exact ht.trans (ih t)
        · exact (ht.trans (State.agented.trans (t := (t.farBytes p.2.2).1) ⟨rfl, fun _ => rfl⟩ (ih _)))
        · exact ht.trans (agented_refuseDirect t _ _ _ _ _)

theorem agented_dirRead (s : State) (part cls pasid va n : Nat) : s.agented (s.dirRead part cls pasid va n).1 :=
  agented_readPieces part cls pasid _ s

/-! ### Notices, and the raises and fires of a cell -/

theorem agented_notice (s : State) (part reason what pend counter : Nat) : s.agented (s.notice part reason what pend counter) := by
  have hseq : s.agented (s.updPart part (fun p => { p with noticeSeq := p.noticeSeq + 1 })) := ⟨rfl, fun _ => rfl⟩
  unfold State.notice
  dsimp only
  split
  · exact hseq
  · exact (hseq.trans (agented_writeHome _ _ _ _)).trans ⟨rfl, fun _ => rfl⟩

theorem agented_setCell (s : State) (k : Nat) (c : TCell) : s.agented (s.setCell k c) := ⟨rfl, fun _ => rfl⟩

theorem agented_cellOvf (s : State) (k reason : Nat) : s.agented (s.cellOvf k reason) := by
  unfold State.cellOvf
  dsimp only
  split
  · exact (agented_setCell s k _).trans (agented_notice _ _ _ _ _ _)
  · exact agented_setCell s k _

theorem agented_copyFire (s : State) (k : Nat) : s.agented (s.copyFire k).1 := by
  unfold State.copyFire
  dsimp only
  split
  · exact agented_cellOvf s k 3
  · split
    · exact (agented_dirRead s _ _ _ _ _).trans (agented_cellOvf _ k 2)
    · have h2 := fun n => (agented_dirRead s (s.queueAt ((s.cellAt k).queue % 4096)).part 5 (s.cellAt k).pasid
        (s.cellAt k).packet.toNat 8).trans (agented_dirRead _ (s.queueAt ((s.cellAt k).queue % 4096)).part 5 (s.cellAt k).pasid
        (s.cellAt k).packet.toNat n)
      split
      · exact (h2 _).trans (agented_cellOvf _ k 2)
      · split
        · exact .refl s
        · exact (h2 _).trans ⟨rfl, fun _ => rfl⟩

theorem agented_fireOnce (s : State) (k : Nat) : s.agented (s.fireOnce k) := by
  have hhold (u : State) (c : TCell) : u.agented (if 255 ≤ c.pend then u.cellOvf k 1 else u.setCell k { u.cellAt k with pend := c.pend + 1 }) := by
    split
    · exact agented_cellOvf u k 1
    · exact agented_setCell u k _
  unfold State.fireOnce
  dsimp only
  refine State.agented.trans ?_ (agented_setCell _ k _)
  split
  · exact agented_cellOvf s k 3
  · split
    · exact hhold s _
    · split
      · exact agented_copyFire s k
      · exact (agented_copyFire s k).trans (hhold _ _)

theorem agented_fireLoop (k n : Nat) (s : State) : s.agented (State.fireLoop k n s) := by
  induction n generalizing s with
  | zero => exact .refl s
  | succ n ih =>
    unfold State.fireLoop
    dsimp only
    split
    · exact (agented_fireOnce s k).trans (ih _)
    · exact .refl s

theorem agented_raiseCell (s : State) (k n : Nat) : s.agented (s.raiseCell k n) := by
  unfold State.raiseCell
  dsimp only
  refine State.agented.trans ?_ (agented_fireLoop k _ _)
  split
  · exact (agented_setCell s k _).trans (agented_cellOvf _ k 0)
  · exact agented_setCell s k _

end Sys2Proof.Machine
end

section
/-! The steps of running Gleaner commands (11 R275, R285 to R293). -/

namespace Sys2Proof.Machine

/-- A part that has been moved is done, in the field that its kind keeps. -/
theorem partDone_row (u : State) (core i : Nat) {c : Gcmd} (h : c.kind ≠ 4) : u.partDone core c i =
    u.movedPart core i c (fun c => { c with delivered := c.delivered ||| BitVec.ofNat 256 (2 ^ i) }) Bar.row := by
  unfold State.partDone State.movedPart
  dsimp only
  rw [if_neg h]

theorem partDone_receiver (u : State) (core i : Nat) {c : Gcmd} (h : c.kind = 4) : u.partDone core c i =
    u.movedPart core i c (fun c => { c with acked := c.acked ||| BitVec.ofNat 64 (2 ^ i) }) Bar.ack := by
  unfold State.partDone State.movedPart
  dsimp only
  rw [if_pos h]

theorem mayMove_of {s : State} {c : Gcmd} {i : Nat} (hs : c.state = 2) (hc : c.cancelled = false) (hi : i < c.count)
    (hset : c.settled i = false) (hbusy : s.partBusy c.id i = false)
    (hroom : c.kind = 4 ∨ ((List.range c.count).filter (s.partBusy c.id)).length < 64) : s.mayMove c i = true := by
  simpa [State.mayMove, hs, hc, hi, hset, hbusy] using hroom

section
variable {s u : State} {core ticket i : Nat} {c : Gcmd} (hc : s.cmd core ticket = some c)
include hc

/-! ### A unit, a row, a receiver and a scale tensor -/

theorem exec_copyUnit (hs : c.state = 2) (hcan : c.cancelled = false) (hk : c.kind ≤ 1) {src dst : Loc} {n off : Nat}
    (hu : unitAt (s.copySegs c) c.moved = some (src, dst, n, off)) :
    exec (.copyUnit core ticket) s = match s.moveUnit (c.agent c.moved) src dst n with
      | (t, .ok _) => .next (t.updCmd core c.id (fun c => { c with moved := c.moved + n }))
      | (t, .error (.fault k acc va)) => .next (t.parkCmd core c c.moved off k acc va)
      | (t, .error (.fail k va dev rc r)) => .next ((t.cmdAlarm core c r).failPart core c c.moved n (c.failRec k va dev rc)) := by
  have hguard : ¬ ((decide (c.state ≠ 2) || decide (1 < c.kind) || c.cancelled) = true) := by simp [hs, hcan, hk]
  show execCopyUnit core ticket s = _
  unfold execCopyUnit
  rw [hc]
  dsimp only
  rw [if_neg hguard, hu] <;> rfl

theorem exec_gatherRow (hk : c.kind = 2 ∨ c.kind = 3) (hmay : s.mayMove c i = true) :
    exec (.gatherRow core ticket i) s =
      let x := s.rowIndex c i
      let ga := (c.num 0x10 8 + x * c.num 0x18 4) % 2 ^ 64
      let barn := ((s.wgAt c.wid).barnLoc core (c.num 0x20 4)).add (i * c.num 0x24 4)
      if x = (if c.num 8 1 = 0 then 2 ^ 32 - 1 else 2 ^ 64 - 1) then .next (s.partDone core c i)
      else if badGlobal ga then .next (s.failPart core c i 0 (c.failRec 2 ga 0 0))
      else match (if c.kind = 2 then s.movePart c i (.glob ga) barn (c.num 0x1C 4)
          else s.movePart c i barn (.glob ga) (c.num 0x1C 4)) with
        | (t, .ok _) => .next (t.partDone core c i)
        | (t, .error (.fault k acc va)) => .next (t.parkCmd core c i i k acc va)
        | (t, .error (.fail k va dev rc r)) => .next ((t.cmdAlarm core c r).failPart core c i 0 (c.failRec k va dev rc)) := by
  have hguard : ¬ ((decide (c.kind ≠ 2) && decide (c.kind ≠ 3) || !s.mayMove c i) = true) := by
    rw [hmay]
    rcases hk with h | h <;> simp [h]
  show execGatherRow core ticket i s = _
  unfold execGatherRow
  rw [hc]
  dsimp only
  rw [if_neg hguard] <;> rfl

theorem exec_multicastAck (hk : c.kind = 4) (hmay : s.mayMove c i = true) :
    exec (.multicastAck core ticket i) s =
      let dst := s.receiverLoc c (c.receivers.getD i [])
      match s.movePart c i (if c.num 8 1 = 1 then .glob (c.num 0x10 8) else (s.wgAt c.wid).barnLoc core (c.num 0x0C 4)) dst
          (c.num 0x18 4) with
        | (t, .ok _) => .next (t.partDone core c i)
        | (t, .error (.fault k acc va)) => .next (t.parkCmd core c i (va - dst.addr) k acc va)
        | (t, .error (.fail k va dev rc r)) => .next ((t.cmdAlarm core c r).failPart core c i 0 (c.failRec k va dev rc)) := by
  have hguard : ¬ ((decide (c.kind ≠ 4) || !s.mayMove c i) = true) := by simp [hk, hmay]
  show execMulticastAck core ticket i s = _
  unfold execMulticastAck
  rw [hc]
  dsimp only
  rw [if_neg hguard] <;> rfl

theorem exec_scalePlacement (hs : c.state = 2) (hcan : c.cancelled = false) (hk : c.kind = 5) (hm : c.moved = 0)
    {bs : List Byte} {cl o : Nat} {t : Tile}
    (hp : s.placedForm (c.agent 0) (c.num 8 8) (c.num 0x10 8) (c.num 0x1C 4) = (u, .ok bs))
    (hloc : (s.wgAt c.wid).barnLoc core (c.num 0x18 4) = .barn cl t o) : exec (.scalePlacement core ticket) s =
      .next ((u.sclWrite (clusterOfCore core) t o bs).updCmd core c.id (fun c => { c with moved := 1 })) := by
  have hguard : ¬ ((decide (c.state ≠ 2) || decide (c.kind ≠ 5) || decide (c.moved ≠ 0) || c.cancelled) = true) := by
    simp [hs, hcan, hk, hm]
  show execScalePlacement core ticket s = _
  unfold execScalePlacement
  rw [hc]
  dsimp only
  rw [if_neg hguard, hp, hloc]

end

/-! ### Completion -/

/-- What completion pays before the command ends: the final credit, and the notify. -/
def State.settled (s : State) (c : Gcmd) : State :=
  let s := if c.kind ≤ 1 || c.kind = 5 then s.creditCmd c Bar.member else s
  if c.kind ≠ 0 && bit c.flags 5 then s.raiseCell (c.num 2 2) 1 else s

theorem settled_out (s : State) (c : Gcmd) (k : Nat) : ((s.settled c).gangAt k).out = (s.gangAt k).out := by
  have hcredit : ((if c.kind ≤ 1 || c.kind = 5 then s.creditCmd c Bar.member else s).gangAt k) = s.gangAt k := by
    split
    · obtain ⟨ws, hw⟩ := creditCmd_cases s c Bar.member
      rw [hw]
      rfl
    · rfl
  unfold State.settled
  dsimp only
  split
  · rw [(agented_raiseCell _ _ _).out, hcredit]
  · rw [hcredit]

/-- Each issuer takes the report of the failed command. -/
def State.reported (s : State) (c : Gcmd) : State :=
  match c.failed with
  | some (_, t) => c.issuers.foldl (fun (s : State) k => s.reportCmd k c t) s
  | none => s

/-- The gang with its report of the command `c`, whose failure is `t`. -/
def Gang.failureReported (c : Gcmd) (t : TrapReq) (g : Gang) : Gang :=
  let r : Report := { id := c.id, path := c.path, seq := g.seqOf c.path c.id, record := t, marks := [], relScope := none }
  { g with reports := insertReport r g.reports }

theorem reported_out (s : State) (c : Gcmd) (k : Nat) : ((s.reported c).gangAt k).out = (s.gangAt k).out := by
  unfold State.reported
  split
  · next p t h =>
    exact gangAt_updGangs_leaves (fun k => k) (fun _ g => g.failureReported c t) (P := fun g h => h.out = g.out)
      (fun _ => rfl) (fun _ _ _ h1 h2 => h2.trans h1) (fun _ _ => rfl) c.issuers s k
  · rfl

theorem mem_insertReport {r q : Report} {qs : List Report} : q ∈ insertReport r qs ↔ q = r ∨ q ∈ qs := by
  induction qs with
  | nil => simp [insertReport]
  | cons x xs ih =>
    unfold insertReport
    split
    · exact List.mem_cons
    · rw [List.mem_cons, ih, List.mem_cons]
      tauto

/-- A gang's report of the command `c`, whose failure is `t`. -/
def Gang.hasReport (c : Gcmd) (t : TrapReq) (g : Gang) : Prop := ∃ q ∈ g.reports, q.id = c.id ∧ q.record = t

theorem reported_issuers (s : State) {c : Gcmd} {p : Nat} {t : TrapReq} (h : c.failed = some (p, t)) {k : Nat}
    (hk : k ∈ c.issuers) : ((s.reported c).gangAt k).hasReport c t := by
  have hrep (ks : List Nat) (s : State) : (k ∈ ks ∨ (s.gangAt k).hasReport c t) →
      ((ks.foldl (fun (s : State) k => s.reportCmd k c t) s).gangAt k).hasReport c t := by
    induction ks generalizing s with
    | nil => exact fun h => h.resolve_left (by simp)
    | cons j ks ih =>
      intro h
      refine ih (s.reportCmd j c t) ?_
      by_cases hj : k ∈ ks
      · exact .inl hj
      · refine .inr ?_
        rw [State.reportCmd, gangAt_updGangAt]
        split
        · exact ⟨_, mem_insertReport.mpr (.inl rfl), rfl, rfl⟩
        · next hne =>
          exact h.elim (fun hm => absurd ((List.mem_cons.mp hm).resolve_right hj) hne) id
  unfold State.reported
  rw [h]
  exact hrep c.issuers s (.inl hk)

theorem exec_gleanerCompletion {s : State} {core ticket : Nat} {c : Gcmd} (hc : s.cmd core ticket = some c) (hs : c.state = 2)
    (hd : s.cmdDone c = true) : exec (.gleanerCommandCompletion core ticket) s =
      .next ((((s.settled c).reported c).endCmd core c (if c.failed.isSome then 4 else 0)
        ((c.failed.map (fun (f : Nat × TrapReq) => f.2.sub)).getD 0)).lowerIssuers c) := by
  have hguard : ¬ ((decide (c.state ≠ 2) || !s.cmdDone c) = true) := by simp [hs, hd]
  show execGleanerCommandCompletion core ticket s = _
  unfold execGleanerCommandCompletion
  rw [hc]
  dsimp only
  rw [if_neg hguard]
  rfl

theorem coreAt_lowerIssuers (s : State) (c : Gcmd) (k : Nat) : (s.lowerIssuers c).coreAt k = s.coreAt k := by
  obtain ⟨gs, h⟩ := updGangs_cases (fun k => k) (fun _ g => g.complete c.id) c.issuers s
  rw [lowerIssuers_eq, h]
  rfl

theorem coreAt_endCmd (s : State) (core : Nat) (c : Gcmd) (state cause : Nat) : (s.endCmd core c state cause).coreAt core =
    { s.coreAt core with gleaner := (s.coreAt core).gleaner.filter (fun x => decide (x.id ≠ c.id))
                         ended := ((c.wid, c.ticket, statusWord c state cause) :: (s.coreAt core).ended).take 48 } :=
  State.coreAt_updCore ..

/-- Settles O39. -/
theorem gleanerEvents : Obligations.GleanerEvents := by
  intro s u core ticket i c
  refine ⟨fun hn => ?_, fun hc hs hcan => ⟨?_, ?_, ?_, ?_, ?_⟩⟩
  · show Host.Outcome.next (match s.nextStart core with
      | some c => s.updCmd core c.id (fun c => { c with state := 2, retried := false })
      | none => s) = _
    rw [hn]
  · intro src dst n off hk hu
    have he := exec_copyUnit hc hs hcan hk hu
    exact ⟨fun h => by rw [he, h], fun k acc va h => by rw [he, h], fun k va dev rc r h => by rw [he, h]⟩
  · intro hk hi hset hbusy hroom x ga barn done moves none_
    have he := exec_gatherRow hc hk (mayMove_of hs hcan hi hset hbusy (.inr hroom))
    have h4 : c.kind ≠ 4 := by omega
    dsimp only at he
    refine ⟨fun hx => ?_, fun hx hb => ?_, fun hx hb => ?_⟩
    · rw [he, if_pos hx, partDone_row _ _ _ h4]
    · rw [he, if_neg hx, if_pos hb]
    · rw [if_neg hx, if_neg (by rw [hb]; exact Bool.false_ne_true)] at he
      exact ⟨fun h => by rw [he, show _ = (u, _) from h]; exact congrArg _ (partDone_row _ _ _ h4),
        fun k acc va h => by rw [he, show _ = (u, _) from h], fun k va dev rc r h => by rw [he, show _ = (u, _) from h]⟩
  · intro hk hi hset hbusy dst moves
    have he := exec_multicastAck hc hk (mayMove_of hs hcan hi hset hbusy (.inl hk))
    dsimp only at he
    exact ⟨fun h => by rw [he, show _ = (u, _) from h]; exact congrArg _ (partDone_receiver _ _ _ hk),
      fun k acc va h => by rw [he, show _ = (u, _) from h], fun k va dev rc r h => by rw [he, show _ = (u, _) from h]⟩
  · exact fun bs cl t o hk hm hp hloc => exec_scalePlacement hc hs hcan hk hm hp hloc
  · intro hd
    refine ⟨_, exec_gleanerCompletion hc hs hd, ?_, fun hf => ?_, fun p r hf => ⟨?_, fun k hk => ?_⟩, fun hn k hk => ?_⟩
    · rw [coreAt_lowerIssuers, coreAt_endCmd]
      exact fun y hy => of_decide_eq_true (List.mem_filter.mp hy).2
    · rw [coreAt_lowerIssuers, coreAt_endCmd, hf]
      rfl
    · rw [coreAt_lowerIssuers, coreAt_endCmd, hf]
      rfl
    · have hr := reported_issuers (s.settled c) hf hk
      rw [gangAt_lowerIssuers]
      exact hr
    · have h := gangAt_updGangs (fun k => k) (fun _ g => g.complete c.id) c.issuers
        (((s.settled c).reported c).endCmd core c (if c.failed.isSome then 4 else 0)
        ((c.failed.map (fun (f : Nat × TrapReq) => f.2.sub)).getD 0)) (by rwa [List.map_id']) hk
      have hout : (((s.settled c).reported c).gangAt k).out = (s.gangAt k).out := (reported_out _ c k).trans (settled_out s c k)
      rw [lowerIssuers_eq, h]
      unfold Gang.complete
      dsimp only
      rw [show ((((s.settled c).reported c).endCmd core c _ _).gangAt k).out = (s.gangAt k).out from hout]

end Sys2Proof.Machine
end

section
/-! Operating points, limits and background activity (19 R449 to R459; 07 R204). -/

namespace Sys2Proof.Machine

/-! ### What an event of the ring and a step to a point leave -/

theorem power_logEvent (s : State) (kind : Nat) (data : List Byte) : (s.logEvent kind data).power = s.power := rfl

theorem mem_logEvent (s : State) (kind : Nat) (data : List Byte) : (s.logEvent kind data).mem = s.mem := rfl

theorem badLines_logEvent (s : State) (kind : Nat) (data : List Byte) : (s.logEvent kind data).badLines = s.badLines := rfl

theorem power_pointReached (s : State) : s.pointReached.power = { s.power with busy := false, phase := 0, clockStopped := false } :=
  rfl

/-- A step to a point has the point as its target and leaves the throttle and the cap as they are. -/
theorem power_startStep (s : State) (f v : Nat) : (s.startStep f v).power.target = (f, v) ∧
    (s.startStep f v).power.throttled = s.power.throttled ∧ (s.startStep f v).power.capFreq = s.power.capFreq := by
  unfold State.startStep
  dsimp only
  split
  · exact ⟨rfl, rfl, rfl⟩
  · split
    · exact ⟨rfl, rfl, rfl⟩
    · split
      · exact ⟨rfl, rfl, rfl⟩
      · split <;> exact ⟨rfl, rfl, rfl⟩

/-- A step ends with no request waiting. -/
theorem power_endStep {s : State} (h : s.power.waiting = none) :
    s.endStep.power = { s.power with busy := false, phase := 0, clockStopped := false } := by
  unfold State.endStep
  dsimp only
  rw [show s.pointReached.power.waiting = none from h]
  rfl

/-! ### Requests, steps and limits -/

theorem dvfsReq_runs (s : State) (v : Word) : let p := s.power
    let f := v.toNat % 65536
    let volt := v.toNat / 65536
    (pointOk f volt = false → ∃ t, exec (.dvfsReq v) s = .next t ∧ t.power = { p with deny := 1 }) ∧
    (pointOk f volt = true → floorOk f volt = false → ∃ t, exec (.dvfsReq v) s = .next t ∧ t.power = { p with deny := 2 }) ∧
    (pointOk f volt = true → floorOk f volt = true → p.throttled = true → exec (.dvfsReq v) s =
      .next { s with power := { p with reqFreq := f, reqVolt := volt, deny := 3 } }) ∧
    (pointOk f volt = true → floorOk f volt = true → p.throttled = false → p.busy = false → exec (.dvfsReq v) s =
      .next (({ s with power := { p with reqFreq := f, reqVolt := volt, deny := 0, capFreq := 2400 } }).startStep f volt)) ∧
    (pointOk f volt = true → floorOk f volt = true → p.throttled = false → p.busy = true → exec (.dvfsReq v) s =
      .next { s with power := { p with reqFreq := f, reqVolt := volt, deny := 0, waiting := some (f, volt) } }) := by
  intro p f volt
  have he : exec (.dvfsReq v) s = .next (s.dvfsReq v) := rfl
  rw [he]
  unfold State.dvfsReq
  dsimp only
  refine ⟨fun hp => ?_, fun hp hf => ?_, fun hp hf ht => ?_, fun hp hf ht hb => ?_, fun hp hf ht hb => ?_⟩
  · rw [show pointOk (v.toNat % 65536) (v.toNat / 65536) = false from hp]
    exact ⟨_, rfl, rfl⟩
  all_goals rw [show pointOk (v.toNat % 65536) (v.toNat / 65536) = true from hp, Bool.not_true, if_neg Bool.false_ne_true]
  · rw [show floorOk (v.toNat % 65536) (v.toNat / 65536) = false from hf]
    exact ⟨_, rfl, rfl⟩
  all_goals rw [show floorOk (v.toNat % 65536) (v.toNat / 65536) = true from hf, Bool.not_true, if_neg Bool.false_ne_true]
  · rw [show s.power.throttled = true from ht]
    rfl
  all_goals rw [show s.power.throttled = false from ht, if_neg Bool.false_ne_true, if_neg Bool.false_ne_true]
  · rw [show s.power.busy = false from hb]
    rfl
  · rw [show s.power.busy = true from hb]
    rfl

theorem clockSwitchEnd_runs {s : State} (hc : s.power.clockStopped = true) :
    (s.power.phase = 3 → ∃ t, exec .clockSwitchEnd s = .next t ∧
      t.power = { s.power with freq := s.power.target.1, clockStopped := false, phase := 4 }) ∧
    (s.power.phase = 2 → s.power.waiting = none → ∃ t, exec .clockSwitchEnd s = .next t ∧
      t.power = { s.power with freq := s.power.target.1, clockStopped := false, phase := 0, busy := false }) := by
  have he : exec .clockSwitchEnd s = execClockSwitchEnd s := rfl
  rw [he]
  unfold execClockSwitchEnd
  dsimp only
  rw [hc, Bool.not_true, if_neg Bool.false_ne_true]
  refine ⟨fun hp => ?_, fun hp hw => ?_⟩
  · rw [if_pos hp]
    exact ⟨_, rfl, rfl⟩
  · rw [if_neg (by omega)]
    exact ⟨_, rfl, power_endStep hw⟩

theorem voltageSlewEnd_runs (s : State) :
    (s.power.phase = 1 → exec .voltageSlewEnd s =
      .next { s with power := { s.power with volt := s.power.target.2, phase := 2, clockStopped := true } }) ∧
    (s.power.phase = 4 → s.power.waiting = none → ∃ t, exec .voltageSlewEnd s = .next t ∧
      t.power = { s.power with volt := s.power.target.2, phase := 0, busy := false, clockStopped := false }) := by
  have he : exec .voltageSlewEnd s = execVoltageSlewEnd s := rfl
  rw [he]
  unfold execVoltageSlewEnd
  dsimp only
  refine ⟨fun hp => by rw [if_pos hp], fun hp hw => ?_⟩
  rw [if_neg (by omega), if_pos hp]
  exact ⟨_, rfl, power_endStep hw⟩

theorem thermalThrottle_runs {s : State} (die : Nat) {temp : Nat} (ht : 10500 ≤ temp) (h : s.power.throttled = false) :
    ∃ t, exec (.thermalThrottle die temp) s = .next t ∧ t.power.throttled = true ∧ t.power.target = (1200, 650) := by
  have hn : ¬ ((decide (temp < 10500) || s.power.throttled) = true) := by simp [h, Nat.not_lt.mpr ht]
  have he : exec (.thermalThrottle die temp) s = .next (if temp < 10500 || s.power.throttled then s
    else ({ s with power := { s.power with throttled := true, waiting := none } }.logEvent 2
      (bytesLE 1 die ++ bytesLE 2 temp)).startStep 1200 650) := rfl
  rw [if_neg hn] at he
  obtain ⟨htarget, hthrottled, -⟩ := power_startStep ({ s with power := { s.power with
    throttled := true, waiting := none } }.logEvent 2 (bytesLE 1 die ++ bytesLE 2 temp)) 1200 650
  exact ⟨_, he, hthrottled, htarget⟩

theorem throttleEnd_runs {s : State} (ht : s.power.throttled = true) (hb : s.power.busy = false)
    (hf : s.power.reqFreq ≤ s.power.capFreq) : ∃ t, exec .throttleEnd s = .next t ∧ t.power.throttled = false ∧
      t.power.target = (s.power.reqFreq, s.power.reqVolt) := by
  have he : exec .throttleEnd s = .next ({ s with power := { s.power with throttled := false } }.startStep
      s.power.reqFreq s.power.reqVolt) := by
    show execThrottleEnd s = _
    unfold execThrottleEnd
    dsimp only
    rw [ht, hb, Nat.min_eq_left hf, if_neg (Nat.not_lt.mpr hf)]
    rfl
  obtain ⟨htarget, hthrottled, -⟩ := power_startStep { s with power := { s.power with throttled := false } }
    s.power.reqFreq s.power.reqVolt
  exact ⟨_, he, hthrottled, htarget⟩

theorem thermalShutdown_runs (s : State) (die : Nat) {temp : Nat} (ht : 11500 ≤ temp) :
    ∃ t, exec (.thermalShutdown die temp) s = .next t ∧ t.power.shutdown = true :=
  ⟨_, congrArg Host.Outcome.next (if_neg (Nat.not_lt.mpr ht)), rfl⟩

theorem powerCapStep_lowers {s : State} {w : Nat} (ht : s.power.throttled = false) (hb : s.power.busy = false)
    (hw : s.power.cap < w) (hf : 800 < s.power.freq) : ∃ t, exec (.powerCapStep w) s = .next t ∧
      t.power.target = (s.power.freq - 100, vmin (s.power.freq - 100)) ∧ t.power.capFreq = s.power.freq - 100 := by
  have he : exec (.powerCapStep w) s = .next ({ s with power := { s.power with capFreq := s.power.freq - 100 } }.startStep
      (s.power.freq - 100) (vmin (s.power.freq - 100))) := by
    show execPowerCapStep w s = _
    unfold execPowerCapStep
    dsimp only
    rw [ht, hb, if_neg (by simp), if_pos hw, if_neg (Nat.not_le.mpr hf)]
  obtain ⟨htarget, -, hcap⟩ := power_startStep { s with power := { s.power with capFreq := s.power.freq - 100 } }
    (s.power.freq - 100) (vmin (s.power.freq - 100))
  exact ⟨_, he, htarget, hcap⟩

/-! ### Background activity -/

theorem telemetrySample_runs (s : State) (a b c : Nat) : ∃ t, exec (.telemetrySample a b c) s = .next t ∧ t.power = s.power ∧
    t.mem = s.mem ∧ t.gangs = s.gangs ∧ t.windowCycles = 0 ∧ t.slots = [] ∧
    ∀ i, i < 8 → mapGet 0 t.window (0x60000 + i) = byteAt s.clock.toNat i := by
  have hblock (bs : List Byte) : ∃ w, s.putWindowList 0x60008 bs = { s with window := w } := ⟨_, rfl⟩
  show ∃ t, execTelemetrySample a b c s = .next t ∧ _
  unfold execTelemetrySample
  dsimp only
  generalize (_ ++ _ : List Byte) = bs
  obtain ⟨w, hw⟩ := hblock bs
  rw [hw]
  refine ⟨_, rfl, rfl, rfl, rfl, rfl, rfl, fun i hi => ?_⟩
  refine (mapGet_setRange 0 (byteAt s.clock.toNat) 0x60000 8 _ (0x60000 + i)).trans ?_
  rw [if_pos (by omega), Nat.add_sub_cancel_left]

theorem countScrub_leaves (s : State) (stack : Nat) : (s.countScrub stack).mem = s.mem ∧
    (s.countScrub stack).badLines = s.badLines := by
  unfold State.countScrub
  dsimp only
  split <;> exact ⟨rfl, rfl⟩

theorem patrolScrub_poisons (s : State) {line : Nat} (h : line * 128 < localLimit) :
    ∃ t, exec (.patrolScrub line 2) s = .next t ∧ line ∈ t.badLines ∧ t.mem = s.mem := by
  obtain ⟨hmem, -⟩ := countScrub_leaves s (channelOf (line * 128) / 16)
  refine ⟨_, if_neg (Nat.not_le.mpr h), ?_, hmem⟩
  rw [if_neg (by decide), if_pos rfl, badLines_logEvent]
  dsimp only
  split
  · next hm => exact List.contains_iff_mem.mp hm
  · exact List.mem_cons_self

theorem payloadError_spec (s : State) (pasid : Nat) (line : Option Nat) :
    (s.payloadError pasid line).alarms = s.alarms ++ [(1, pasid, 0xFF)] ∧ (s.payloadError pasid line).mem = s.mem ∧
    ∀ l, line = some l → l * 128 < localLimit → l ∈ (s.payloadError pasid line).badLines := by
  unfold State.payloadError
  cases line with
  | none => exact ⟨rfl, rfl, fun l h => by cases h⟩
  | some x =>
    dsimp only
    split
    · next h =>
      refine ⟨rfl, rfl, fun l hl hlim => ?_⟩
      cases hl
      rw [Bool.or_eq_true, decide_eq_true_eq] at h
      exact List.contains_iff_mem.mp (h.resolve_left (Nat.not_le.mpr hlim))
    · refine ⟨rfl, rfl, fun l hl _ => ?_⟩
      cases hl
      exact List.mem_cons_self

/-- Settles O60. -/
theorem powerEvents : Obligations.PowerEvents := by
  intro s p
  obtain ⟨hraise, hslewed⟩ := voltageSlewEnd_runs s
  refine ⟨dvfsReq_runs s, fun hc => (clockSwitchEnd_runs hc).1, fun hc => (clockSwitchEnd_runs hc).2, hraise, hslewed,
    fun die temp => thermalThrottle_runs die, throttleEnd_runs, fun die temp => thermalShutdown_runs s die,
    fun w => powerCapStep_lowers, telemetrySample_runs s, fun line => patrolScrub_poisons s, fun row => rfl,
    fun die pasid ls => ⟨_, rfl, payloadError_spec s pasid ls.head?⟩, fun die pasid cs q hq => ?_⟩
  show execMeshFlitError true die pasid cs s = _
  unfold execMeshFlitError
  rw [hq]
  rfl

end Sys2Proof.Machine
end

section
/-! The fabric and the host (18 R432 to R448; 09 R253; 16 R405). -/

namespace Sys2Proof.Machine

/-! ### Messages -/

/-- A message that is sent joins those in flight under the next number, and nothing else but the links' queues changes. -/
theorem send_eq (s : State) (m : Msg) : ∃ l ks, s.send m = { s with
    msgs := s.msgs ++ [{ m with id := s.nextId, src := s.devid, gen := s.pasidGen m.pasid, link := l }]
    nextId := s.nextId + 1, links := ks } := by
  have hgen : s.takeId.2.pasidGen m.pasid = s.pasidGen m.pasid := rfl
  show ∃ l ks, s.takeId.2.launchMsg { m with id := s.nextId, src := s.devid, gen := s.takeId.2.pasidGen m.pasid } = _
  rw [hgen]
  unfold State.launchMsg
  split
  · exact ⟨none, s.links, rfl⟩
  · split
    · exact ⟨_, _, rfl⟩
    · exact ⟨_, s.links, rfl⟩

/-! ### Links and routes -/

theorem linkAt_updLink (s : State) (k : Nat) (f : Link → Link) : (s.updLink k f).linkAt k = f (s.linkAt k) := by
  unfold State.linkAt State.updLink
  rw [mapFind_put_same]
  rfl

theorem linkAt_updLink_other (s : State) {j k : Nat} (h : j ≠ k) (f : Link → Link) : (s.updLink k f).linkAt j = s.linkAt j := by
  show (mapFind j (mapPut k (f (s.linkAt k)) s.links)).getD Link.down = _
  rw [mapFind_put_other h]
  rfl

/-- A route changes the route table and its copy in the window. -/
theorem setRoute_cases (s : State) (d mask : Nat) : ∃ rs w, s.setRoute d mask = { s with routes := rs, window := w } := ⟨_, _, rfl⟩

theorem links_setRoute (s : State) (d mask : Nat) : (s.setRoute d mask).links = s.links := rfl

theorem linkDown_up (s : State) (l : Nat) : ((s.linkDown l).linkAt l).up = false := by
  have hfold (es : List (Nat × Nat)) (u : State) :
      (es.foldl (fun s e => if bit e.2 l then s.setRoute e.1 (e.2 - 2 ^ l) else s) u).links = u.links := by
    induction es generalizing u with
    | nil => rfl
    | cons e es ih =>
      rw [List.foldl_cons, ih]
      split <;> rfl
  have hlinks : (s.linkDown l).links = _ := hfold s.routes _
  rw [State.linkAt, hlinks, ← State.linkAt, linkAt_updLink]

/-- A link that has trained is up, and knows the device at its far end. -/
theorem linkUp_cases (s : State) (l far : Nat) : ∃ rs w, s.linkUp l far =
    { s.updLink l (fun k => { k with up := true, far := some far, replays := 0 }) with routes := rs, window := w } := by
  unfold State.linkUp
  dsimp only
  split
  · exact ⟨_, _, rfl⟩
  · exact setRoute_cases _ _ _

theorem linkAt_linkUp_eq (s : State) (l far j : Nat) : (s.linkUp l far).linkAt j =
    (s.updLink l (fun k => { k with up := true, far := some far, replays := 0 })).linkAt j := by
  obtain ⟨rs, w, h⟩ := linkUp_cases s l far
  have hlinks : (s.linkUp l far).links =
      (s.updLink l (fun k => { k with up := true, far := some far, replays := 0 })).links := by rw [h]
  rw [State.linkAt, hlinks, State.linkAt]

theorem linkAt_linkUp (s : State) (l far : Nat) :
    ((s.linkUp l far).linkAt l).up = true ∧ ((s.linkUp l far).linkAt l).far = some far := by
  rw [linkAt_linkUp_eq, linkAt_updLink]
  exact ⟨rfl, rfl⟩

theorem linkAt_linkUp_other (s : State) {j l : Nat} (hj : j ≠ l) (far : Nat) : (s.linkUp l far).linkAt j = s.linkAt j := by
  rw [linkAt_linkUp_eq, linkAt_updLink_other s hj]

/-! ### Device reset -/

/-- The links of a device train one by one. -/
def trainLinks (pins : Nat) (ks : List Nat) (s : State) : State :=
  ks.foldl (fun (s : State) k => match trainedFar pins k with
    | some d => s.linkUp k d
    | none => s) s

theorem trainLinks_cases (pins : Nat) (ks : List Nat) (s : State) :
    ∃ rs w ls, trainLinks pins ks s = { s with routes := rs, window := w, links := ls } := by
  induction ks generalizing s with
  | nil => exact ⟨_, _, _, rfl⟩
  | cons k ks ih =>
    unfold trainLinks
    rw [List.foldl_cons]
    split
    · next d hd =>
      obtain ⟨rs, w, ls, h⟩ := ih (s.linkUp k d)
      obtain ⟨rs', w', h'⟩ := linkUp_cases s k d
      refine ⟨rs, w, ls, h.trans ?_⟩
      rw [h']
      rfl
    · exact ih s

/-- A link of the list that finds a device has trained. -/
theorem linkAt_trainLinks {pins l d : Nat} (hd : trainedFar pins l = some d) (ks : List Nat) (s : State)
    (h : l ∈ ks ∨ ((s.linkAt l).up = true ∧ (s.linkAt l).far = some d)) :
    ((trainLinks pins ks s).linkAt l).up = true ∧ ((trainLinks pins ks s).linkAt l).far = some d := by
  induction ks generalizing s with
  | nil => exact h.resolve_left (by simp)
  | cons k ks ih =>
    unfold trainLinks
    rw [List.foldl_cons]
    refine ih _ ?_
    by_cases hk : l = k
    · subst hk
      rw [hd]
      exact .inr (linkAt_linkUp s l d)
    · refine h.imp (fun hm => (List.mem_cons.mp hm).resolve_left hk) (fun hup => ?_)
      split
      · rw [linkAt_linkUp_other s hk]
        exact hup
      · exact hup

/-- The state that DEVICE_RESET starts from: the straps are read, and what stands over a reset stands. -/
def State.strapped (s : State) (pins : Nat) (bridge : Bool) : State :=
  { State.reset with
    devid := pins % 4096, bridge := bridge, pcieUp := bridge, sigIndex := s.sigIndex, flash := s.flash, image := s.flash.1
    dies := s.dies.map (fun (e : Nat × Die) => (e.1, { Die.empty with disabled := e.2.disabled }))
    nextId := s.nextId, fresh := s.fresh, stepNo := s.stepNo, agenda := s.agenda }

theorem bootLoader_cases (s : State) (ok : Bool) : ∃ w, s.bootLoader ok =
    { s with bootFailed := if ok then s.bootFailed else true, window := w } := by
  unfold State.bootLoader
  cases ok with
  | true => exact ⟨s.window, rfl⟩
  | false => exact ⟨_, rfl⟩

theorem deviceReset_runs (s : State) {pins : Nat} (bridge : Bool) (h : pins % 4096 < 2304) :
    ∃ t, exec (.deviceReset pins bridge) s = .next t ∧ t.devid = pins % 4096 ∧
      t.bridge = bridge ∧ t.pcieUp = bridge ∧ t.gangs = [] ∧ t.wgs = [] ∧ t.cores = [] ∧ t.clusters = [] ∧ t.parts = [] ∧
      t.mem = [] ∧ t.queues = State.reset.queues ∧ t.power = State.reset.power ∧ t.sys = State.reset.sys ∧
      t.sigIndex = s.sigIndex ∧ t.bootFailed = !s.bootAccepts ∧
      ∀ l d, l < 36 → trainedFar pins l = some d → (t.linkAt l).up = true ∧ (t.linkAt l).far = some d := by
  have he : exec (.deviceReset pins bridge) s =
      .next ((trainLinks pins (List.range 36) (s.strapped pins bridge)).bootLoader s.bootAccepts) :=
    if_neg (Nat.not_le.mpr h)
  have hlinks : ∀ l d, l < 36 → trainedFar pins l = some d → _ := fun l d hl hd =>
    linkAt_trainLinks hd (List.range 36) (s.strapped pins bridge) (.inl (List.mem_range.mpr hl))
  obtain ⟨rs, w, ls, ht⟩ := trainLinks_cases pins (List.range 36) (s.strapped pins bridge)
  rw [ht] at he hlinks
  obtain ⟨w', hb⟩ := bootLoader_cases { s.strapped pins bridge with routes := rs, window := w, links := ls } s.bootAccepts
  rw [hb] at he
  refine ⟨_, he, rfl, rfl, rfl, rfl, rfl, rfl, rfl, rfl, rfl, rfl, rfl, rfl, rfl, ?_, hlinks⟩
  cases s.bootAccepts <;> rfl

/-! ### The host's accesses -/

theorem hostBar0_here {s : State} {fn addr size : Nat} (hup : s.pcieUp = true) (hf : fn < 8) (ha : addr < localLimit)
    (hfn : fn = s.devid % 8) (write : Bool) (data : Nat) :
    exec (.hostBar0Access write (fn * 2 ^ 40 + addr) size data) s = .next (s.hostAccess write addr size data) := by
  have hlim : addr < 2 ^ 40 := by unfold localLimit at ha; omega
  have hplace : (fn * 2 ^ 40 + addr) / 2 ^ 40 = fn ∧ (fn * 2 ^ 40 + addr) % 2 ^ 40 = addr := by omega
  have hdev : s.groupDevice fn = s.devid := by unfold State.groupDevice; omega
  show execHostBar0Access _ _ _ _ _ = _
  unfold execHostBar0Access
  dsimp only
  rw [hplace.1, hplace.2, hup, if_neg (by simp; omega), if_pos hdev]

theorem hostBar0_away {s : State} {fn addr size : Nat} (hup : s.pcieUp = true) (hf : fn < 8) (ha : addr < localLimit)
    (hs : addr + size ≤ localLimit) (hfn : fn ≠ s.devid % 8) (write : Bool) (data : Nat) :
    ∃ t m, exec (.hostBar0Access write (fn * 2 ^ 40 + addr) size data) s = .next t ∧ t.msgs = s.msgs ++ [m] ∧
      m.dst = s.devid / 8 * 8 + fn ∧ m.kind = (if write then .write size else .read size) ∧ t.hostReply = none ∧
      t.mem = s.mem := by
  have hlim : addr < 2 ^ 40 := by unfold localLimit at ha; omega
  have hplace : (fn * 2 ^ 40 + addr) / 2 ^ 40 = fn ∧ (fn * 2 ^ 40 + addr) % 2 ^ 40 = addr := by omega
  have hdev : s.groupDevice fn ≠ s.devid := by unfold State.groupDevice; omega
  have he : exec (.hostBar0Access write (fn * 2 ^ 40 + addr) size data) s =
      .next (({ s with hostReply := none }).send { Msg.blank with
        kind := if write then .write size else .read size, dst := s.groupDevice fn, addr := s.groupDevice fn * 2 ^ 40 + addr
        data := data, gang := noGang, reg := 0xFE }) := by
    show execHostBar0Access _ _ _ _ _ = _
    unfold execHostBar0Access
    dsimp only
    rw [hplace.1, hplace.2, hup, if_neg (by simp; omega), if_neg hdev, if_neg (by simp; omega)]
  generalize hm : ({ Msg.blank with
        kind := if write then .write size else .read size, dst := s.groupDevice fn, addr := s.groupDevice fn * 2 ^ 40 + addr
        data := data, gang := noGang, reg := 0xFE } : Msg) = m at he
  obtain ⟨l, ks, hsend⟩ := send_eq { s with hostReply := none } m
  rw [hsend] at he
  refine ⟨_, _, he, rfl, ?_, ?_, rfl, rfl⟩ <;> rw [← hm]
  rfl

theorem hostAccess_write {s : State} {addr size : Nat} (ha : addr < localLimit) (hs : addr + size ≤ localLimit)
    (h1 : s.admitsHost (s.channelOwner (channelOf addr)) 2 = true)
    (h2 : s.admitsHost (s.channelOwner (channelOf (addr + size - 1))) 2 = true) (data : Nat) :
    s.hostAccess true addr size data = { s.writeHomeNum addr size data with hostReply := some (0, 0) } := by
  unfold State.hostAccess
  dsimp only
  rw [if_neg (by simp; omega), if_neg (by simp [h1, h2])]
  rfl

theorem hostAccess_read {s : State} {addr size : Nat} (ha : addr < localLimit) (hs : addr + size ≤ localLimit)
    (hgood : s.badLines = []) (h1 : s.admitsHost (s.channelOwner (channelOf addr)) 1 = true)
    (h2 : s.admitsHost (s.channelOwner (channelOf (addr + size - 1))) 1 = true) (data : Nat) :
    s.hostAccess false addr size data = { s with hostReply := some (0, s.readHome addr size) } := by
  unfold State.hostAccess
  dsimp only
  rw [if_neg (by simp; omega), if_neg (by simp [h1, h2]), if_neg Bool.false_ne_true, if_neg (by simp [hgood])]

/-! ### Policies, attestation and held messages -/

theorem partAt_updPart (s : State) (k : Nat) (f : Part → Part) : (s.updPart k f).partAt k = f (s.partAt k) := by
  unfold State.partAt State.updPart
  rw [mapFind_put_same]
  rfl

theorem policyCommit_runs {s : State} {part : Nat} (hp : part < 8) (hok : policyOk part (s.windowBytes (64 * part) 64) = true) :
    ∃ t, exec (.policyCommit part) s = .next t ∧
      t.partAt part = { s.partAt part with policy := s.windowBytes (64 * part) 64, blocked := [] } := by
  refine ⟨_, rfl, ?_⟩
  unfold State.commitPolicy
  dsimp only
  rw [if_neg (Nat.not_le.mpr hp), if_pos hok, partAt_updPart]
  rfl

theorem putWindowList_cases (s : State) (a : Nat) (bs : List Byte) : ∃ w, s.putWindowList a bs = { s with window := w } := ⟨_, rfl⟩

theorem attestationRequest_runs {s : State} (nonce : List Byte) (key : Option (List Byte)) (h : s.sigIndex < 2 ^ 20) :
    ∃ t, exec (.attestationRequest nonce key) s = .next t ∧ t.sigIndex = s.sigIndex + 1 ∧ t.gangs = s.gangs ∧ t.mem = s.mem := by
  show ∃ t, execAttestationRequest nonce key s = .next t ∧ _
  unfold execAttestationRequest
  rw [if_neg (Nat.not_le.mpr h)]
  dsimp only
  generalize (_ ++ _ : List Byte) = report
  obtain ⟨w, hw⟩ := putWindowList_cases { s.takeFresh.2 with sigIndex := s.sigIndex + 1 } 0x40800 report
  rw [hw]
  split <;> exact ⟨_, rfl, rfl, rfl, rfl⟩

theorem heldMessageRelease_runs {s : State} {link : Nat} (hd : (s.linkAt link).draining = true) (ho : s.outstanding link = false) :
    ∃ t, exec (.heldMessageRelease link) s = .next t ∧ (t.linkAt link).draining = false ∧ (t.linkAt link).held = [] ∧
      t.msgs.length = s.msgs.length := by
  refine ⟨_, congrArg Host.Outcome.next (if_neg (by simp [hd, ho])), ?_, ?_, ?_⟩
  · rw [linkAt_updLink]
  · rw [linkAt_updLink]
  · exact List.length_map _

/-! ### Messages received and inbound accesses -/

/-- The link after a flit that passes its CRC. -/
def State.flitTaken (s : State) (link : Nat) (h : DWord) : State :=
  s.updLink link (fun k => { k with replays := 0, seqIn := k.seqIn + 1 + (lumenHeader h).more })

section
variable {s : State} {link : Nat} (hl : link < 36) (hup : (s.linkAt link).up = true) (h : DWord) (p : List Byte)
include hl hup

theorem lumen_crcFails : exec (.lumenMessageReceive link false h p) s = .next (if (s.linkAt link).replays < 8 then
    s.updLink link (fun k => { k with replays := k.replays + 1 }) else s.linkDown link) := by
  show execLumenMessageReceive link false h p s = _
  unfold execLumenMessageReceive
  rw [if_neg (by simp [hup]; omega), if_pos (by rfl)]
  by_cases hr : (s.linkAt link).replays < 8
  · rw [if_pos hr, if_neg (Nat.not_le.mpr hr)]
  · rw [if_neg hr, if_pos (Nat.not_lt.mp hr)]

theorem lumen_taken (hok : (s.flitTaken link h).headerOk (lumenHeader h) = true) :
    exec (.lumenMessageReceive link true h p) s =
      let u := s.flitTaken link h
      let l := lumenHeader h
      if l.kind < 3 || l.kind = 17 || l.kind = 23 then .next (u.takeAccess l p)
      else if l.kind = 6 then
        .next (match u.msg (blockNum p 0 8) with
          | some m => if u.memRequest m && decide (m.dst = l.src) then u.completeMsg m (blockNum p 32 8) (p.drop 64) else u
          | none => u)
      else if s.parts.any (fun e => e.2.blocked.contains (l.src, l.spart)) then .next (u.refuseBlocked (u.wireMsg l p))
      else .next (u.takeMsg (u.wireMsg l p)) := by
  show execLumenMessageReceive link true h p s = _
  unfold execLumenMessageReceive
  rw [if_neg (by simp [hup]; omega), if_neg (by simp)]
  dsimp only
  rw [if_neg (by simpa [State.flitTaken] using hok)]
  rfl

end

theorem inboundAccess_runs {s : State} (hs : s.inbound = []) (src spart pasid kind addr size data : Nat) :
    exec (.inboundAccess src spart pasid kind addr size data) s = .next (s.serve
      { id := 0, src := src, spart := spart, pasid := pasid, kind := kind, addr := addr, size := size, data := data, tag := 0
        host := false, gen := s.pasidGen pasid }) := by
  show execInboundAccess src spart pasid kind addr size data s = _
  unfold execInboundAccess
  rw [hs]
  rfl

/-- Settles O59. -/
theorem fabricEvents : Obligations.FabricEvents := by
  intro s
  refine ⟨fun die n x hn => ?_, fun die off x => rfl, fun part hp hok => policyCommit_runs hp hok,
    fun fn addr size data hup hf ha hs => ⟨fun hfn h1 h2 => ?_, fun hfn hgood h1 h2 => ?_, fun hfn write => ?_⟩,
    fun write addr size data hup => ?_, fun nonce key hi => attestationRequest_runs nonce key hi, fun link far hl => ⟨?_, ?_⟩,
    fun link hd ho => heldMessageRelease_runs hd ho, ?_,
    ?_, fun x hx => ?_, fun id m hm hr ha => ?_,
    fun pins bridge hp => deviceReset_runs s bridge hp⟩
  · show Host.Outcome.next (if n = 0x20 && s.badSysPart x.toNat then s else s.setSysReg die n x) = _
    rw [if_neg (by simp [hn])]
  · rw [hostBar0_here hup hf ha hfn, hostAccess_write ha hs h1 h2]
  · rw [hostBar0_here hup hf ha hfn, hostAccess_read ha hs hgood h1 h2]
  · exact hostBar0_away hup hf ha hs hfn write data
  · exact congrArg Host.Outcome.next (if_pos (by simp [hup]))
  · exact congrArg Host.Outcome.next (if_neg (Nat.not_le.mpr hl))
  · exact ⟨_, congrArg Host.Outcome.next (if_neg (Nat.not_le.mpr hl)), linkDown_up s link⟩
  · intro link h p hl hup u l
    refine ⟨fun hok hk => (lumen_taken hl hup h p hok).trans (if_pos (by simpa [or_assoc] using hk)),
      fun hok h3 h6 h17 h23 => (lumen_taken hl hup h p hok).trans ?_, lumen_crcFails hl hup h p⟩
    have hk : ¬ ((decide ((lumenHeader h).kind < 3) || decide ((lumenHeader h).kind = 17) || decide ((lumenHeader h).kind = 23)) = true) := by
      simp only [Bool.or_eq_true, decide_eq_true_eq]
      exact fun hk => hk.elim (fun hk => hk.elim (fun hk => absurd hk (Nat.not_lt.mpr h3)) h17) h23
    dsimp only
    rw [if_neg hk, if_neg h6]
    exact (apply_ite Host.Outcome.next _ _ _).symm
  · intro src spart pasid kind addr size data hs x
    refine ⟨fun hc => ?_, fun c hc => ?_⟩
    · rw [inboundAccess_runs hs, State.serve, show s.inboundCause false src spart kind addr size = none from hc]
    · rw [inboundAccess_runs hs, State.serve, show s.inboundCause false src spart kind addr size = some c from hc]
  · show execInboundTimeout x.id s = _
    unfold execInboundTimeout
    rw [hx]
  · show execInitiatorTimeout id s = _
    unfold execInitiatorTimeout
    rw [hm]
    simp only [hr, ha, Bool.and_true, if_true]

end Sys2Proof.Machine
end

section
/-! System registers, maintenance of translations and firmware calls (16 R404 to R408; 09 R250). -/

namespace Sys2Proof.Machine

/-! ### Releases that wait for nothing -/

/-- A release that passes is the release's actions. -/
theorem eq_of_release {s u : State} {sc : Nat} (h : s.release sc = .ok u) : u = s.releaseActs s.gang.core sc := by
  unfold State.release at h
  dsimp only at h
  split at h
  · cases h
  · split_ifs at h
    exact (Except.ok.inj h).symm

theorem accessed_release_ok {s u : State} {sc : Nat} (h : s.release sc = .ok u) : s.accessed u :=
  eq_of_release h ▸ accessed_releaseActs s _ _

theorem release_device {s : State} (hrep : s.gang.releaseReport 4 = none) (hw : s.gang.releaseWaits 4 = []) :
    s.release 4 = .ok (s.releaseActs s.gang.core 4) := by
  unfold State.release
  simp only [hrep, hw]
  rfl

theorem withRelease_ok {s u : State} {sc : Nat} (h : s.release sc = .ok u) (body : State → Res) : withRelease s sc body = body u := by
  rw [withRelease, h]

/-! ### Scalar pairs by word -/

/-- The words of a pair, from the pair. -/
theorem words_of_append {hi lo : Word} {x : DWord} (h : hi ++ lo = x) : lo = x.setWidth 32 ∧ hi = (x >>> 32).setWidth 32 := by
  have hbit (i : Nat) : x.getLsbD i = if i < 32 then lo.getLsbD i else hi.getLsbD (i - 32) := by
    rw [← h]
    exact BitVec.getLsbD_append
  exact ⟨by ext i hi; simp [hbit, hi], by ext i hi; simp [hbit, BitVec.getLsbD_eq_getElem hi]⟩

/-! ### sysrd and syswr -/

theorem sysrd_reads {s : State} {n a : Code} (hn : sysRegKnown n = true)
    (hi : s.issues (fixedOps [.sw (if sysRegWide n then 64 else 32) a]) = true) (hp : n.toNat < 0x20 ∨ s.privileged = true) :
    ∃ t, exec (.sysrd n a) s = .next t ∧ s.past t ∧ s.sameDevice t ∧ t.gang.regs.v = s.gang.regs.v ∧
      ∀ k, k < 8 → s.gang.issuing k = true → a ≠ 0xF0 → t.gang.s k a.toNat = (s.sysReg n.toNat).setWidth 32 ∧
        (sysRegWide n = true → t.gang.s k (a.toNat + 1) = (s.sysReg n.toNat >>> 32).setWidth 32) := by
  have he : exec (.sysrd n a) s = if sysRegWide n then finishWith s (fun g => g.putS64 a g.issuing (fun _ => s.sysReg n.toNat))
      else finishWith s (fun g => g.putSAll a ((s.sysReg n.toNat).setWidth 32)) := by
    show execSysrd n a s = _
    have hn' : ¬ ((!sysRegKnown n) = true) := by simp [hn]
    have hp' : ¬ ((decide (0x20 ≤ n.toNat) && !s.privileged) = true) := by
      rcases hp with h | h
      · simp; omega
      · simp [h]
    unfold execSysrd
    rw [if_neg hn', guardOps_issues hi, if_neg hp']
  cases hwide : sysRegWide n with
  | true =>
    rw [hwide] at hi he
    obtain ⟨t, ht, hpast, hdev, hg⟩ := finishWith_step s (f := fun g => g.putS64 a g.issuing (fun _ => s.sysReg n.toNat))
      (Gang.flow_putS64 ..)
    refine ⟨t, he.trans ht, hpast, hdev, ?_, fun k hk hik ha => ?_⟩
    · rw [hg, Gang.regs_advance, Gang.putS64]
      split <;> rfl
    · obtain ⟨hlo, hhi⟩ := words_of_append (s.gang.s_putS64 ha
        (legal_of_issues hi hik (o := .sw 64 a) (by simp)) s.gang.issuing (fun _ => s.sysReg n.toNat) hk hik)
      rw [hg]
      exact ⟨hlo, fun _ => hhi⟩
  | false =>
    rw [hwide] at hi he
    obtain ⟨t, ht, hpast, hdev, hg⟩ := finishWith_step s (f := fun g => g.putSAll a ((s.sysReg n.toNat).setWidth 32))
      (Gang.flow_putSAll ..)
    refine ⟨t, he.trans ht, hpast, hdev, ?_, fun k hk hik ha => ⟨?_, fun h => Bool.noConfusion h⟩⟩
    · rw [hg, Gang.regs_advance, Gang.putSAll, Gang.putS]
      split <;> rfl
    · rw [hg]
      exact s.gang.s_putSAll ha (legal_of_issues hi hik (o := .sw 32 a) (by simp)) _ hk hik

theorem sysrd_traps {s : State} {n a : Code} (hn : sysRegKnown n = true)
    (hi : s.issues (fixedOps [.sw (if sysRegWide n then 64 else 32) a]) = true) (h20 : 0x20 ≤ n.toNat)
    (hp : s.privileged = false) : exec (.sysrd n a) s = .next (s.takeTrap { cause := 0x03, aux := n.setWidth 32 }) := by
  show execSysrd n a s = _
  unfold execSysrd
  rw [if_neg (by simp [hn]), guardOps_issues hi, if_pos (by simp [h20, hp])]
  rfl

/-- The value that syswr writes. -/
def State.sysValue (s : State) (n a : Code) : DWord := if sysRegWide n then s.sarg64 a else (s.sarg a).setWidth 64

theorem exec_syswr {s : State} {n a : Code} (hn : sysRegKnown n = true)
    (hi : s.issues (fixedOps [.sr (if sysRegWide n then 64 else 32) a]) = true) : exec (.syswr n a) s =
      if !s.privileged then privilegeTrap n s
      else if n.toNat = 0x20 && s.badSysPart (s.sysValue n a).toNat then trapNow { cause := 0x1D, sub := 2 } s
      else if n.toNat = 0x2C then
        match s.preemptTarget (s.sysValue n a).toNat with
        | some wid => .next (s.advance.postPreempt wid)
        | none => trapNow { cause := 0x1D, sub := 2 } s
      else if n.toNat = 0x2E then execTfqHeadWrite (dieOfCore s.gang.core) ((s.sysValue n a).setWidth 32) s.advance
      else if n.toNat = 0x30 then s.advance.tfqReply (dieOfCore s.gang.core) (s.sysValue n a).toNat
      else .next (s.setSysReg (dieOfCore s.gang.core) n.toNat (s.sysValue n a)).advance := by
  show execSyswr n a s = _
  unfold execSyswr
  rw [if_neg (by simp [hn]), guardOps_issues hi]
  rfl

theorem sysValue_narrow {s : State} {n a : Code} (h : sysRegWide n = false) : (s.sysValue n a).toNat = (s.sarg a).toNat ∧
    (s.sysValue n a).setWidth 32 = s.sarg a := by
  unfold State.sysValue
  rw [h]
  refine ⟨?_, by simp⟩
  have := (s.sarg a).isLt
  simp only [Bool.false_eq_true, if_false, BitVec.toNat_setWidth]
  omega

theorem syswr_sysPart {s : State} {n a : Code} (hn : sysRegKnown n = true)
    (hi : s.issues (fixedOps [.sr (if sysRegWide n then 64 else 32) a]) = true) (hp : s.privileged = true) (h20 : n.toNat = 0x20) :
    (s.badSysPart (s.sarg a).toNat = true → exec (.syswr n a) s = .next (s.takeTrap { cause := 0x1D, sub := 2 })) ∧
    (s.badSysPart (s.sarg a).toNat = false → ∃ t, exec (.syswr n a) s = .next t ∧ s.past t ∧ t.sys.sysPart = s.sarg a) := by
  have hwide : sysRegWide n = false := by
    unfold sysRegWide
    rw [h20]
    decide
  obtain ⟨hnat, hword⟩ := sysValue_narrow (s := s) (a := a) hwide
  have he := exec_syswr hn hi
  rw [hp, if_neg (by simp), hnat] at he
  refine ⟨fun hb => ?_, fun hb => ?_⟩
  · rw [he, if_pos (by simp [h20, hb])]
    rfl
  · rw [if_neg (by simp [hb]), h20, if_neg (by decide), if_neg (by decide), if_neg (by decide)] at he
    exact ⟨_, he, past_advance rfl, hword⟩

theorem syswr_preempt {s : State} {n a : Code} (hn : sysRegKnown n = true)
    (hi : s.issues (fixedOps [.sr (if sysRegWide n then 64 else 32) a]) = true) (hp : s.privileged = true) (h2C : n.toNat = 0x2C) :
    (s.preemptTarget (s.sarg a).toNat = none → exec (.syswr n a) s = .next (s.takeTrap { cause := 0x1D, sub := 2 })) ∧
    ∀ wid, s.preemptTarget (s.sarg a).toNat = some wid → exec (.syswr n a) s = .next (s.advance.postPreempt wid) := by
  have hwide : sysRegWide n = false := by
    unfold sysRegWide
    rw [h2C]
    decide
  obtain ⟨hnat, -⟩ := sysValue_narrow (s := s) (a := a) hwide
  have he := exec_syswr hn hi
  rw [hp, if_neg (by simp), hnat, if_neg (by simp [h2C]), if_pos h2C] at he
  exact ⟨fun h => by rw [he, h]; rfl, fun wid h => by rw [he, h]⟩

/-! ### Maintenance of translations and firmware calls -/

theorem invalidateNow_runs {s : State} (hrep : s.gang.releaseReport 4 = none) (hw : s.gang.releaseWaits 4 = []) (c : Cover) :
    invalidateNow c s = let r := (s.releaseActs s.gang.core 4).takeId
      .next ((r.2.startInval s.cur r.1 c).stall (.invalidation r.1)) := by
  have hcur : (s.releaseActs s.gang.core 4).cur = s.cur := (accessed_releaseActs s s.gang.core 4).cur
  rw [invalidateNow, withRelease_ok (release_device hrep hw), ← hcur]
  rfl

theorem exec_tlbip {s : State} {a b : Code} (hi : s.issues (fixedOps [.sr 32 a, .sr 128 b]) = true) : let q := fun i => (s.sword b s.gang.low i).toNat
    let va := q 0 + q 1 * 2 ^ 32
    let good := (s.sarg a).toNat < 2 ^ 20 ∧ va % 65536 = 0 ∧ canonical va = true ∧ 1 ≤ q 2 ∧ q 2 ≤ 2 ^ 24 ∧ q 3 = 0
    (s.privileged = false → exec (.tlbip a b) s = .next (s.takeTrap { cause := 0x03 })) ∧
    (s.privileged = true → good → exec (.tlbip a b) s =
      invalidateNow { pasid := some (s.sarg a).toNat, lo := va, hi := va + 65536 * q 2 } s) ∧
    (s.privileged = true → ¬ good → exec (.tlbip a b) s = .next (s.takeTrap { cause := 0x1D, sub := 2 })) := by
  intro q va good
  have hbad : ((decide (2 ^ 20 ≤ (s.sarg a).toNat) || decide (va % 65536 ≠ 0) || !canonical va || decide (q 2 < 1) ||
      decide (2 ^ 24 < q 2) || decide (q 3 ≠ 0)) = true) ↔ ¬ good := by
    simp only [good, Bool.or_eq_true, decide_eq_true_eq, Bool.not_eq_true', not_and_or, Nat.not_lt, Nat.not_le, Bool.not_eq_true,
      or_assoc, ne_eq, Nat.lt_one_iff]
  rw [exec_of_issues (i := .tlbip a b) hi]
  refine ⟨fun hp => by rw [hp]; rfl, fun hp hg => ?_, fun hp hg => ?_⟩
  · rw [hp, if_neg (by simp)]
    exact if_neg (fun h => (hbad.mp h) hg)
  · rw [hp, if_neg (by simp)]
    exact if_pos (hbad.mpr hg)

theorem exec_tlbia {s : State} {a : Code} (hi : s.issues (fixedOps [.sr 32 a]) = true) :
    (s.privileged = false → exec (.tlbia a) s = .next (s.takeTrap { cause := 0x03 })) ∧
    (s.privileged = true → (s.sarg a).toNat < 2 ^ 20 → exec (.tlbia a) s =
      invalidateNow { pasid := some (s.sarg a).toNat, lo := 0, hi := 2 ^ 64 } s) := by
  rw [exec_of_issues (i := .tlbia a) hi]
  refine ⟨fun hp => by rw [hp]; rfl, fun hp hlt => ?_⟩
  rw [hp, if_neg (by simp)]
  exact if_neg (Nat.not_le.mpr hlt)

theorem exec_tlball (s : State) : exec .tlball s =
    if !s.privileged then privilegeTrap 0 s else invalidateNow { pasid := none, lo := 0, hi := 2 ^ 64 } s := rfl

theorem fwcall_runs {s : State} {a b : Code} (hi : s.issues (fixedOps [.sr 32 a, .sw 64 b]) = true) :
    ∃ t, exec (.fwcall a b) s = .next t ∧ mapFind s.gang.flow.served t.gang.flow.blocks = some (.firmware s.nextId) ∧
      t.gang.regs = s.gang.regs ∧
      t.fwcalls = s.fwcalls ++ [{ gang := s.cur, id := s.nextId, code := s.sarg a, arg := s.sarg64 b, dest := b }] := by
  rw [exec_of_issues (i := .fwcall a b) hi]
  refine ⟨_, rfl, ?_, ?_, rfl⟩
  · rw [State.stall, State.gang_updGang]
    exact mapFind_put_same _ _ _
  · rw [State.stall, State.gang_updGang]
    rfl

theorem systemInstructions : Sys2Proof.Claims.SystemInstructions := by
  intro s n a b
  refine ⟨fun hn hi => ⟨sysrd_reads hn hi, sysrd_traps hn hi⟩, fun hn hi => ⟨fun hp => ?_, fun hp h20 h2C h2E h30 => ?_,
    fun hp => syswr_sysPart hn hi hp, fun hp => syswr_preempt hn hi hp⟩, ?_, ?_, fwcall_runs⟩
  · rw [exec_syswr hn hi, hp]
    rfl
  · rw [exec_syswr hn hi, hp, if_neg (by simp), if_neg (by simp [h20]), if_neg h2C, if_neg h2E, if_neg h30]
    rfl
  · intro hp hrep hw dropped
    refine ⟨?_, fun hi hlt => ?_, fun hi => ?_⟩
    · rw [exec_tlball, hp, if_neg (by simp)]
      exact invalidateNow_runs hrep hw _
    · exact ((exec_tlbia hi).2 hp hlt).trans (invalidateNow_runs hrep hw _)
    · obtain ⟨-, hgood, hbad⟩ := exec_tlbip hi
      exact ⟨fun hg => (hgood hp hg).trans (invalidateNow_runs hrep hw _), hbad hp⟩
  · intro hp
    refine ⟨?_, fun hi => (exec_tlbia hi).1 hp, fun hi => (exec_tlbip hi).1 hp⟩
    rw [exec_tlball, hp]
    rfl

end Sys2Proof.Machine
end

section
/-! What an invalidation of translations leaves in the TLBs (09 R235, R250; 07 R202). -/

namespace Sys2Proof.Machine

/-- No core of `t` holds a TLB that a core of `s` does not hold, and the other TLBs are as they were. -/
structure State.sameTlbs (s t : State) : Prop where
  cores : ∀ e ∈ t.cores, e.2.tlb = [] ∨ ∃ e' ∈ s.cores, e'.2.tlb = e.2.tlb
  clusters : t.clusters = s.clusters
  ioTlb : t.ioTlb = s.ioTlb

namespace State.sameTlbs

theorem refl (s : State) : s.sameTlbs s := ⟨fun e he => .inr ⟨e, he, rfl⟩, rfl, rfl⟩

theorem trans {s t u : State} (h1 : s.sameTlbs t) (h2 : t.sameTlbs u) : s.sameTlbs u where
  cores e he := by
    rcases h2.cores e he with h | ⟨e', he', h⟩
    · exact .inl h
    · exact h ▸ h1.cores e' he'
  clusters := h2.clusters.trans h1.clusters
  ioTlb := h2.ioTlb.trans h1.ioTlb

theorem foldl {α : Type} {f : State → α → State} (h : ∀ (s : State) a, s.sameTlbs (f s a)) (as : List α) (s : State) :
    s.sameTlbs (as.foldl f s) := by
  induction as generalizing s with
  | nil => exact refl s
  | cons a as ih => exact (h s a).trans (ih _)

theorem of_cores {s t : State} (h : t.cores = s.cores) (hc : t.clusters = s.clusters) (hi : t.ioTlb = s.ioTlb) : s.sameTlbs t :=
  ⟨fun e he => .inr ⟨e, h ▸ he, rfl⟩, hc, hi⟩

end State.sameTlbs

/-- A core's other fields change. -/
theorem sameTlbs_updCore (s : State) (k : Nat) {f : Core → Core} (hf : ∀ c, (f c).tlb = c.tlb) : s.sameTlbs (s.updCore k f) where
  cores e he := by
    rcases mem_mapPut he with h | h
    · obtain rfl : e = (k, f (s.coreAt k)) := h
      show (f (s.coreAt k)).tlb = [] ∨ _
      rw [hf, State.coreAt]
      cases hk : mapFind k s.cores with
      | none => exact .inl rfl
      | some c => exact .inr ⟨_, mem_of_mapFind hk, rfl⟩
    · exact .inr ⟨e, h, rfl⟩
  clusters := rfl
  ioTlb := rfl

theorem sameTlbs_drainQueues (s : State) (core : Nat) : s.sameTlbs (s.drainQueues core) :=
  (State.sameTlbs.foldl (fun s (q : QueuedByte) => sameTlbs_updCore s q.core (f := fun c => { c with banks := mapSet 0 c.banks q.addr q.val })
    (fun _ => rfl)) _ s).trans (sameTlbs_updCore _ core fun _ => rfl)

theorem sameTlbs_setLine (s : State) (core line : Nat) (x : Option L1Line) : s.sameTlbs (s.setLine core line x) :=
  sameTlbs_updCore s core fun _ => rfl

theorem sameTlbs_signalled {s t : State} (h : s.signalled t) : s.sameTlbs t :=
  .of_cores h.cores h.clusters (by rw [h.eq])

theorem sameTlbs_putDirty (s : State) (core line : Nat) (x : L1Line) : s.sameTlbs (s.putDirty core line x) := by
  unfold State.putDirty
  split
  · exact State.sameTlbs.trans (t := s.cancelFills core (some line)) (.of_cores rfl rfl rfl)
      (sameTlbs_signalled (signalled_send _ _))
  · refine State.sameTlbs.trans ?_ (sameTlbs_signalled (signalled_fireWatches _ line))
    exact .of_cores rfl rfl rfl

theorem sameTlbs_writeBackOne (s : State) (core line : Nat) : s.sameTlbs (s.writeBackOne core line) := by
  unfold State.writeBackOne
  split
  · exact .refl s
  · split
    · exact .refl s
    · exact (sameTlbs_putDirty s core line _).trans (sameTlbs_setLine _ _ _ _)

theorem sameTlbs_writeBackAll (s : State) (core : Nat) : s.sameTlbs (s.writeBackAll core) :=
  (State.sameTlbs.foldl (fun s l => sameTlbs_writeBackOne s core l) _ s).trans (.of_cores rfl rfl rfl)

theorem sameTlbs_flushLine (s : State) (core line : Nat) : s.sameTlbs (s.flushLine core line) := by
  refine State.sameTlbs.trans ?_ (sameTlbs_setLine _ core line none)
  unfold State.writeBack
  split
  · exact (sameTlbs_drainQueues s core).trans (sameTlbs_writeBackAll _ core)
  · exact sameTlbs_writeBackOne s core line

theorem sameTlbs_dropReadOnly (s : State) (core : Nat) : s.sameTlbs (s.dropReadOnly core) := by
  refine State.sameTlbs.foldl (fun s l => ?_) _ s
  split
  · split
    · exact .refl s
    · exact sameTlbs_flushLine s core l
  · exact .refl s

theorem sameTlbs_wakeCovered (s : State) (c : Cover) : s.sameTlbs (s.wakeCovered c) := by
  refine State.sameTlbs.foldl (fun s k => ?_) _ s
  dsimp only
  split
  · split
    · exact .of_cores rfl rfl rfl
    · exact .refl s
  · exact .refl s

/-- The TLBs of `s` without what `c` covers. -/
def State.uncovered (s : State) (c : Cover) : State :=
  { s with
    cores := s.cores.map (fun (e : Nat × Core) => (e.1, { e.2 with tlb := e.2.tlb.filter (fun t => !c.entry t) }))
    clusters := s.clusters.map (fun (e : Nat × Cluster) => (e.1, { e.2 with
      tlb := e.2.tlb.filter (fun t => !c.entry t.2)
      walkCache := e.2.walkCache.filter (fun t => !c.table t) }))
    ioTlb := s.ioTlb.map (fun (e : Nat × List TlbEntry) => (e.1, e.2.filter (fun t => !c.entry t))) }

theorem sameTlbs_invalidate (s : State) (c : Cover) : (s.uncovered c).sameTlbs (s.invalidate c) :=
  (State.sameTlbs.foldl (fun s (e : Nat × Core) => sameTlbs_dropReadOnly s e.1) _ _).trans (sameTlbs_wakeCovered _ c)

theorem not_of_mem_filter {α : Type} {p : α → Bool} {x : α} {xs : List α} (h : x ∈ xs.filter (fun x => !p x)) : p x = false := by
  simpa using (List.mem_filter.mp h).2

theorem invalidationCovers : Sys2Proof.Claims.InvalidationCovers := by
  intro s c
  have h := sameTlbs_invalidate s c
  refine ⟨fun e he t ht => ?_, fun e he => ?_, fun e he t ht => ?_⟩
  · rcases h.cores e he with hnil | ⟨e', he', heq⟩
    · rw [hnil] at ht
      cases ht
    · obtain ⟨e0, -, rfl⟩ := List.mem_map.mp he'
      rw [← heq] at ht
      exact not_of_mem_filter ht
  · rw [h.clusters] at he
    obtain ⟨e0, -, rfl⟩ := List.mem_map.mp he
    exact ⟨fun t ht => not_of_mem_filter (p := fun (t : Nat × TlbEntry) => c.entry t.2) ht, fun t ht => not_of_mem_filter ht⟩
  · rw [h.ioTlb] at he
    obtain ⟨e0, -, rfl⟩ := List.mem_map.mp he
    exact not_of_mem_filter ht

/-- Settles O54. -/
theorem systemWords : Obligations.SystemWords := ⟨systemInstructions, invalidationCovers⟩

end Sys2Proof.Machine
end

section
/-! Taking a trap with a load under way on a line of the frame (16 R389; 08 R213). -/

namespace Sys2Proof.Machine

/-- A late load of v0 of lane 0 from a poisoned line of the frame. -/
def frameLoad : LateOp :=
  { id := 0, kind := .load 0 4 false, path := 0, after := []
    lanes := [{ lane := 0, target := .bad 0x10800, value := 0, code := 0, lock := none }] }

/-- A gang about to trap to level 1, whose frame is at 0x10800: v0 of lane 0 holds 1, and the load has not performed. -/
def loadingFrame : State :=
  (State.reset.placeWord 0).updGang (fun g => { g.setV 0 0 1 with
    trap := { g.trap with hpc1 := 0x10000, frame := 0x10800 }, late := [frameLoad] })

/-- The trap that it takes. -/
def frameTrap : TrapReq := { cause := 0x1C }

/-- The store of the frame, with the registers as they are once the load has performed. -/
def frameRun : Except RunStop State :=
  let g := loadingFrame.gang
  (loadingFrame.atFrame 1).gangStoreRun g.core g.wid loadingFrame.wg.part loadingFrame.wg.pasid 61
    (chunks 128 8 ((loadingFrame.atFrame 1).gang.frameBytes
      (recordBytes frameTrap 1 g.issuingMask g.pcNow.toNat loadingFrame.ir.toNat))) (g.frameAt 1)

/-- The store succeeds, and does not leave the caches that the trap leaves. -/
def frameRunDiffers : Bool := match frameRun with
  | .ok u => decide ((loadingFrame.takeTrap frameTrap).cores ≠ u.cores)
  | .error _ => false

theorem frameRun_differs : frameRunDiffers = true := by decide +kernel

theorem loadingFrame_kept : (loadingFrame.atFrame 1).gang.trap = loadingFrame.gang.trap ∧
    (loadingFrame.atFrame 1).gang.flow.exited = loadingFrame.gang.flow.exited ∧ loadingFrame.gang.hpc 1 ≠ 0 ∧
    loadingFrame.gang.trap.level = 0 := by decide +kernel

/-- Refutes O52: the load performs before the frame is stored, and the frame still holds what its register held before. -/
theorem not_trapsAndTermination : ¬ Obligations.TrapsAndTermination := by
  intro ⟨hentry, _⟩
  obtain ⟨htrap, hexited, hpc, hlevel⟩ := loadingFrame_kept
  have hdiffers := frameRun_differs
  unfold frameRunDiffers at hdiffers
  split at hdiffers
  · next u hu =>
    have h := (hentry loadingFrame frameTrap).1
    simp only [hlevel] at h
    obtain ⟨-, -, hcores⟩ := h (by decide) hpc u hu htrap hexited
    exact of_decide_eq_true hdiffers hcores
  · cases hdiffers

end Sys2Proof.Machine
end

section
/-! The trap instructions, and a frame restored (16 R390 to R396). -/

namespace Sys2Proof.Machine

/-! ### A frame restored -/

theorem mapGet_foldl_set {α : Type} [DecidableEq α] (d : α) (live : Nat → Bool) (x : Nat → α) (ks : List Nat) (m : SMap α) (k : Nat) :
    mapGet d (ks.foldl (fun m k => if live k then mapSet d m k (x k) else m) m) k =
      if k ∈ ks ∧ live k = true then x k else mapGet d m k := by
  induction ks generalizing m with
  | nil => simp
  | cons j ks ih =>
    rw [List.foldl_cons, ih]
    by_cases hk : k ∈ ks ∧ live k = true
    · rw [if_pos hk, if_pos ⟨List.mem_cons_of_mem _ hk.1, hk.2⟩]
    · rw [if_neg hk]
      by_cases hj : k = j
      · subst hj
        cases hlive : live k <;> simp
      · have hmem : ¬ (k ∈ j :: ks ∧ live k = true) := fun h =>
          hk ⟨(List.mem_cons.mp h.1).resolve_left hj, h.2⟩
        rw [if_neg hmem]
        split
        · exact mapGet_set_other d m hj _
        · rfl

/-- What each step of a fold keeps, the fold keeps. -/
theorem foldl_keeps {α β γ : Type} (π : β → γ) {F : β → α → β} (h : ∀ b a, π (F b a) = π b) (as : List α) (b : β) :
    π (as.foldl F b) = π b := by
  induction as generalizing b with
  | nil => rfl
  | cons a as ih => exact (ih _).trans (h b a)

/-- The gang with s28 to s31 of its slices and v0 to v3 from a frame. -/
def Gang.frameWords (f : List Byte) (live : Nat → Bool) (g : Gang) : Gang :=
  (List.range 4).foldl (fun g r =>
    g.writeLanes r (fun _ => true) (fun l => BitVec.ofNat 32 (frameWord f (0x180 + 128 * r + 4 * l))))
    ((List.range 4).foldl (fun g i =>
      g.writeSlices (28 + i) live (fun k => BitVec.ofNat 32 (frameWord f (0xC0 + 16 * k + 4 * i)))) g)

section
variable (f : List Byte) (live : Nat → Bool) (g : Gang)

/-- What neither kind of write changes, the frame's words leave. -/
theorem Gang.frameWords_keeps {γ : Type} (π : Gang → γ) (hs : ∀ (g : Gang) i x, π (g.writeSlices i live x) = π g)
    (hv : ∀ (g : Gang) r f x, π (g.writeLanes r f x) = π g) : π (g.frameWords f live) = π g :=
  (foldl_keeps π (fun _ _ => hv _ _ _ _) _ _).trans (foldl_keeps π (fun _ _ => hs _ _ _) _ _)

theorem Gang.flow_frameWords : (g.frameWords f live).flow = g.flow :=
  g.frameWords_keeps f live (·.flow) (fun _ _ _ => rfl) (fun _ _ _ _ => rfl)
theorem Gang.trap_frameWords : (g.frameWords f live).trap = g.trap :=
  g.frameWords_keeps f live (·.trap) (fun _ _ _ => rfl) (fun _ _ _ _ => rfl)
theorem Gang.alloc_frameWords : (g.frameWords f live).alloc = g.alloc :=
  g.frameWords_keeps f live (·.alloc) (fun _ _ _ => rfl) (fun _ _ _ _ => rfl)
theorem Gang.fpf_frameWords : (g.frameWords f live).regs.fpf = g.regs.fpf :=
  g.frameWords_keeps f live (·.regs.fpf) (fun _ _ _ => rfl) (fun _ _ _ _ => rfl)
theorem Gang.modes_frameWords : (g.frameWords f live).regs.mode = g.regs.mode :=
  g.frameWords_keeps f live (·.regs.mode) (fun _ _ _ => rfl) (fun _ _ _ _ => rfl)
theorem Gang.preds_frameWords : (g.frameWords f live).regs.p = g.regs.p :=
  g.frameWords_keeps f live (·.regs.p) (fun _ _ _ => rfl) (fun _ _ _ _ => rfl)

theorem Gang.v_frameWords (r : Nat) {l : Nat} (hl : l < 32) : (g.frameWords f live).v r l =
    if r < 4 then BitVec.ofNat 32 (frameWord f (0x180 + 128 * r + 4 * l)) else g.v r l := by
  simp only [Gang.frameWords, List.range_eq_range', List.range', List.foldl_cons, List.foldl_nil, Gang.v_writeLanes _ _ _ _ _ _ hl,
    Gang.v_writeSlices, and_true]
  rcases r with _ | _ | _ | _ | r <;> simp

theorem Gang.s_frameWords {k i : Nat} (hk : k < 8) (hi : i < 32) : (g.frameWords f live).s k i =
    if 28 ≤ i ∧ live k = true then BitVec.ofNat 32 (frameWord f (0xC0 + 16 * k + 4 * (i - 28))) else g.s k i := by
  simp only [Gang.frameWords, List.range_eq_range', List.range', List.foldl_cons, List.foldl_nil, Gang.s_writeLanes]
  rw [Gang.s_writeSlices _ _ (by omega) _ _ _ _ hk hi, Gang.s_writeSlices _ _ (by omega) _ _ _ _ hk hi,
    Gang.s_writeSlices _ _ (by omega) _ _ _ _ hk hi, Gang.s_writeSlices _ _ (by omega) _ _ _ _ hk hi]
  by_cases h28 : 28 ≤ i
  · have hi' : i = 28 ∨ i = 29 ∨ i = 30 ∨ i = 31 := by omega
    cases hlive : live k <;> rcases hi' with h | h | h | h <;> subst h <;> simp
  · simp [h28, show i ≠ 28 by omega, show i ≠ 29 by omega, show i ≠ 30 by omega, show i ≠ 31 by omega]

end

/-- The PC that a frame gives a slice. -/
def framePc (f : List Byte) (skip : Bool) (k : Nat) : PcVal :=
  BitVec.ofNat 56 (frameSlice f k).1 + (if skip && bit (ofBytesLE ((f.drop 3).take 1)) k then 4 else 0)

/-- A frame restored: the slices' states and the level, then the frame's words. -/
theorem restoreFrom_cases (g : Gang) (f : List Byte) (skip : Bool) : ∃ h : Gang,
    g.restoreFrom f skip = h.frameWords f (fun k => !g.exitedAt k) ∧
    h.trap.level = g.trap.level - 1 ∧ h.regs.fpf = BitVec.ofNat 5 (frameWord f 0x140) ∧
    h.regs.mode = (List.range 8).foldl (fun m k => if (!g.exitedAt k) = true then
      mapSet modeReset m k (BitVec.ofNat 32 ((frameSlice f k).2.2.2 % 2 ^ 23)) else m) g.regs.mode ∧
    h.flow.pc = setPcMap (fun k => !g.exitedAt k) (framePc f skip) 8 g.flow.pc ∧
    h.flow.grp = setGrpMap (fun k => !g.exitedAt k) (fun k => (frameSlice f k).2.2.1) 8 g.flow.grp ∧
    h.regs.sc = g.regs.sc ∧ h.regs.v = g.regs.v ∧ h.regs.p = g.regs.p ∧ h.alloc = g.alloc := by
  unfold Gang.restoreFrom Gang.frameWords
  exact ⟨_, rfl, rfl, rfl, rfl, rfl, rfl, rfl, rfl, rfl, rfl⟩

theorem frameRestored : Sys2Proof.Claims.FrameRestored := by
  intro g f skip h
  obtain ⟨g1, hh, hlevel, hfpf, hmode, hpc, hgrp, hs, hv, hp, halloc⟩ := restoreFrom_cases g f skip
  let live := fun k => !g.exitedAt k
  have hsc (k i : Nat) : g1.s k i = g.s k i := by rw [Gang.s, hs, Gang.s]
  rw [show h = g1.frameWords f live from hh]
  refine ⟨(congrArg (·.level) (g1.trap_frameWords f live)).trans hlevel, (g1.fpf_frameWords f live).trans hfpf,
    fun k hk hex => ?_, fun r l hl => ?_, (g1.preds_frameWords f live).trans hp, (g1.alloc_frameWords f live).trans halloc⟩
  · have hlive : live k = true := by simp [live, hex]
    refine ⟨?_, ?_, ?_, fun i hi => ?_, fun i hi => ?_⟩
    · rw [Gang.pc, Gang.flow_frameWords, hpc, mapGet_setPcMap, if_pos ⟨hk, hlive⟩, framePc]
    · rw [Gang.grp, Gang.flow_frameWords, hgrp, mapGet_setGrpMap, if_pos ⟨hk, hlive⟩]
    · rw [Gang.mode, Gang.modes_frameWords, hmode, mapGet_foldl_set, if_pos ⟨List.mem_range.mpr hk, hlive⟩]
    · rw [Gang.s_frameWords f live g1 hk (by omega), if_pos ⟨by omega, hlive⟩, Nat.add_sub_cancel_left]
    · rw [Gang.s_frameWords f live g1 hk (by omega), if_neg (by omega), hsc]
  · rw [Gang.v_frameWords f live g1 r hl, Gang.v, hv, Gang.v]

/-! ### tvec, tret and tdone -/

theorem tvec_runs {s : State} {l : BitVec 1} {a b : Code} (hi : s.issues (fixedOps [.sr 64 a, .sr 64 b]) = true)
    (hc : canonical (s.sarg64 a).toNat = true) (ha : (s.sarg64 a).toNat % 4 = 0) (hf : addrOk (s.sarg64 b).toNat 2048 = true) :
    ∃ t, exec (.tvec l a b) s = .next t ∧ s.past t ∧ t.gang.regs = s.gang.regs ∧ t.mem = s.mem ∧
      t.gang.trap = { s.gang.trap with
        hpc1 := if l = 0 then s.sarg64 a else s.gang.trap.hpc1, hpc2 := if l = 0 then s.gang.trap.hpc2 else s.sarg64 a
        frame := s.sarg64 b } := by
  have he : exec (.tvec l a b) s = finishWith s (fun g => { g with trap := { g.trap with
      hpc1 := if l = 0 then s.sarg64 a else g.trap.hpc1
      hpc2 := if l = 0 then g.trap.hpc2 else s.sarg64 a
      frame := s.sarg64 b } }) := by
    rw [exec_of_issues (i := .tvec l a b) hi]
    exact if_neg (by simp [hc, ha, hf])
  obtain ⟨t, ht, hpast, hdev, hg⟩ := finishWith_step s (f := fun g => { g with trap := { g.trap with
      hpc1 := if l = 0 then s.sarg64 a else g.trap.hpc1
      hpc2 := if l = 0 then g.trap.hpc2 else s.sarg64 a
      frame := s.sarg64 b } }) rfl
  exact ⟨t, he.trans ht, hpast, by rw [hg]; rfl, by rw [hdev.1], by rw [hg]; rfl⟩

theorem exec_tret (skip : Bool) (s : State) : exec (if skip then .tretSkip else .tret) s = s.trapReturn skip := by
  cases skip <;> rfl

theorem trapReturn_restores {s u : State} {skip : Bool} {f : List Byte} (hw : s.gang.whole = true) (hl : 0 < s.gang.trap.level)
    (hlate : s.lateOnRun (s.gang.frameAt s.gang.trap.level) 1024 .read = [])
    (hrun : s.gangLoadRun s.gang.core s.gang.wid s.wg.part s.wg.pasid 61 (List.replicate 8 128)
      (s.gang.frameAt s.gang.trap.level) = .ok (u, f)) (hok : s.gang.frameOk f = true) (hfar : u.regangFar f = none)
    (hdead : ((u.updGang (fun g => g.restoreFrom f skip)).rereadMasks).gang.regangDead = false) :
    s.trapReturn skip = .next ((u.updGang (fun g => g.restoreFrom f skip)).rereadMasks) := by
  unfold State.trapReturn
  dsimp only
  rw [hw, hlate, hrun]
  dsimp only
  rw [if_neg (by simp), if_neg (by omega), if_neg (by simp), hok, if_neg (by simp), hfar]
  dsimp only
  rw [State.checkRegang, hdead, if_neg Bool.false_ne_true]

theorem trapReturn_outside {s : State} {skip : Bool} (hw : s.gang.whole = true) (hl : s.gang.trap.level = 0) :
    s.trapReturn skip = .next (s.takeTrap { cause := 0x1D }) := by
  unfold State.trapReturn
  dsimp only
  rw [hw]
  rw [if_neg (by simp), if_pos hl]
  rfl

theorem exec_tdone {s : State} {a : Code} (hi : s.issues (fixedOps [.sr 32 a]) = true) :
    (s.gang.trap.level = 0 → exec (.tdone a) s = .next (s.takeTrap { cause := 0x1D })) ∧
    (0 < s.gang.trap.level →
      let run := s.gangLoadRun s.gang.core s.gang.wid s.wg.part s.wg.pasid 61 [64] (s.gang.frameAt s.gang.trap.level)
      (∀ u f, run = .ok (u, f) → exec (.tdone a) s = .next (s.fatal f s.gang.trap.level (s.sarg a).toNat 3)) ∧
      (∀ e, run = .error e → (∀ pa page va, e ≠ .away pa page va) →
        exec (.tdone a) s = .next (s.fatal [] s.gang.trap.level (s.sarg a).toNat 3))) := by
  rw [exec_of_issues (i := .tdone a) hi]
  refine ⟨fun hl => if_pos hl, ?_⟩
  intro hl run
  refine ⟨fun u f hrun => ?_, fun e hrun he => ?_⟩
  · dsimp only
    rw [if_neg (by omega), show s.gangLoadRun _ _ _ _ _ _ _ = _ from hrun]
  · dsimp only
    rw [if_neg (by omega), show s.gangLoadRun _ _ _ _ _ _ _ = _ from hrun]
    cases e with
    | away pa page va => exact absurd rfl (he pa page va)
    | fault c va => rfl
    | refused o pa va => rfl
    | bad va => rfl

theorem trapInstructions : Sys2Proof.Claims.TrapInstructions := by
  intro s g
  refine ⟨fun c => rfl, fun l a b hi hc ha hf => tvec_runs hi hc ha hf, fun skip u f hw hl hlate hrun hok hfar hdead => ?_,
    fun a hi hl => (exec_tdone hi).2 hl, fun hl => ⟨fun hw i hi => ?_, fun a hi => (exec_tdone hi).1 hl⟩⟩
  · exact (exec_tret skip s).trans (trapReturn_restores hw hl hlate hrun hok hfar hdead)
  · rcases List.mem_cons.mp hi with rfl | hi
    · exact trapReturn_outside (skip := false) hw hl
    · rw [List.mem_singleton.mp hi]
      exact trapReturn_outside (skip := true) hw hl

/-- Settles O53. -/
theorem trapReturns : Obligations.TrapReturns := ⟨trapInstructions, frameRestored⟩

end Sys2Proof.Machine
end

section
/-! Thresher operations are posted (14 R342 to R346, R353, R355, R357). -/

namespace Sys2Proof.Machine

/-- The operation `e` takes entry `i` of its cluster's table. -/
def State.withMop (s : State) (e : Mentry) (i : Nat) : State :=
  (s.takeId.2.updCluster s.gang.cluster (fun c => { c with table := c.table ++ [{ e with slot := i, id := s.nextId }] })).updGang
    (fun h => (h.raise 3 s.nextId false).advance)

/-- With room in the table and on the path the operation is posted. -/
theorem postMop_posted {s : State} (hroom : s.tableRoom) (e : Mentry) : ∃ t, postMop e s = .next t ∧ s.postedMop t e := by
  obtain ⟨_, _, hcount, i, hi, hfree⟩ := hroom
  have hpath : ¬ 63 ≤ s.gang.counter 3 := by omega
  obtain ⟨j, hj⟩ : ∃ j, findBelow (fun i => !((s.clusterAt s.gang.cluster).table.map (·.slot)).contains i) 32 = some j :=
    Option.isSome_iff_exists.1 (List.find?_isSome.2 ⟨i, List.mem_range.2 hi, by simpa using hfree⟩)
  have hslot : ∀ f ∈ (s.clusterAt s.gang.cluster).table, f.slot ≠ j := by simpa using List.find?_some hj
  have hcluster : (s.withMop e j).clusterAt s.gang.cluster = { s.clusterAt s.gang.cluster with
      table := (s.clusterAt s.gang.cluster).table ++ [{ e with slot := j, id := s.nextId }] } :=
    State.clusterAt_updCluster s.takeId.2 s.gang.cluster
      (fun c => { c with table := c.table ++ [{ e with slot := j, id := s.nextId }] })
  have hgang : (s.withMop e j).gang = (s.gang.raise 3 s.nextId false).advance := State.gang_updGang _ _
  refine ⟨s.withMop e j, by simp only [postMop, if_neg hpath, hj]; rfl,
    ⟨j, s.nextId, List.mem_range.1 (List.mem_of_find?_eq_some hj), hslot, by rw [hcluster]⟩, by rw [hcluster], ?_, ?_, rfl, rfl, ?_⟩
  · rw [hgang]
    exact Gang.counter_raise _ 3 s.nextId false
  · rw [hgang]; rfl
  · exact past_updGang (f := fun g => g.raise 3 s.nextId false) rfl hgang

/-- A word of the Thresher that issues with room in the table posts what its checks let through. -/
theorem posts_of_issues {s : State} {i : Instr} {f : OpndsOf} {body : State → Res} (e : Mentry) (hroom : s.tableRoom)
    (hi : s.issues f = true) (hbody : body s = postMop e s)
    (he : exec i s = guardOps s f (fun s => engineOr 8 s (body s)) := by rfl) : ∃ t, exec i s = .next t ∧ s.postedMop t e := by
  obtain ⟨hlate, hheld, _⟩ := id hroom
  rw [exec_of_issues hi he, engineOr_free hlate hheld, hbody]
  exact postMop_posted hroom e

theorem mloop_posts {s : State} (hroom : s.tableRoom) (a : Code) (hi : s.issues (fixedOps [.so 32 a]) = true)
    (hrange : s.wg.rangeFault (s.sarg a).toNat 128 128 0 = none)
    (hbounds : s.wg.requestBounds (s.barnBlock (s.sarg a).toNat 128) = none)
    (hok : requestOk (s.barnBlock (s.sarg a).toNat 128)
      (s.wg.accTileOf (accHandle (blockNum (s.barnBlock (s.sarg a).toNat 128) 0x38 4))).rowBytes = true)
    (hlevelA : s.wg.scaleLevelBad (blockNum (s.barnBlock (s.sarg a).toNat 128) 0 8) = false)
    (hlevelB : s.wg.scaleLevelBad (blockNum (s.barnBlock (s.sarg a).toNat 128) 8 8) = false) :
    ∃ t, exec (.mloop a) s = .next t ∧ s.postedMop t (s.newMop 0xE2 0
      (blockNum (s.barnBlock (s.sarg a).toNat 128) 0x38 4) (s.barnBlock (s.sarg a).toNat 128)) := by
  refine posts_of_issues _ hroom hi ?_
  simp only [hrange, hbounds, hok, hlevelA, hlevelB, Bool.not_true, Bool.or_self, Bool.false_eq_true, if_false]

theorem mdrain_posts {s : State} (hroom : s.tableRoom) (z sh : BitVec 1) (a b : Code)
    (hi : s.issues (fixedOps [.so 32 a, .so 32 b]) = true) (hacc : s.wg.accFault (s.sarg a).toNat = none)
    (hrange : s.wg.rangeFault (s.sarg b).toNat 64 64 0 = none)
    (hok : drainOk (s.barnBlock (s.sarg b).toNat 64) (decide (sh = 1)) = true) :
    ∃ t, exec (.mdrain z sh a b) s = .next t ∧ s.postedMop t
      (s.newMop 0xE3 (sh.toNat + 2 * z.toNat) (s.sarg a).toNat (s.barnBlock (s.sarg b).toNat 64)) := by
  refine posts_of_issues _ hroom hi ?_
  simp only [hacc, hrange, hok, Bool.not_true, Bool.false_eq_true, if_false]

theorem mzero_posts {s : State} (hroom : s.tableRoom) (a : Code) (hi : s.issues (fixedOps [.so 32 a]) = true)
    (hacc : s.wg.accFault (s.sarg a).toNat = none) :
    ∃ t, exec (.mzero a) s = .next t ∧ s.postedMop t (s.newMop 0xE4 0 (s.sarg a).toNat []) := by
  refine posts_of_issues _ hroom hi ?_
  simp only [hacc]

theorem image_posts {s : State} (hroom : s.tableRoom) {i : Instr} {op : Nat} (a b : Code)
    (hi : s.issues (fixedOps [.so 32 a, .so 64 b]) = true) (hacc : s.wg.accFault (s.sarg a).toNat = none)
    (haddr : addrOk (s.sarg64 b).toNat 128 = true) (he : exec i s = imageInstr op a b s := by rfl) :
    ∃ t, exec i s = .next t ∧ s.postedMop t (s.newMop op 0 (s.sarg a).toNat (bytesLE 8 (s.sarg64 b).toNat)) := by
  refine posts_of_issues _ hroom hi ?_ he
  simp only [hacc, haddr, Bool.not_true, Bool.false_eq_true, if_false]

theorem tacc_posts {s : State} (hroom : s.tableRoom) (d a b : Code) (hi : s.issues (taccOps d a b) = true)
    (hacc : s.wg.accFault (s.sarg d).toNat = none)
    (hty : ∀ k, s.gang.issuing k = true →
      modeEtype (s.gang.mode k) = (s.wg.accTileOf (accHandle (s.sarg d).toNat)).accType) (hsel : (s.sarg b).toNat < 128) :
    ∃ t, exec (.tacc d a b) s = .next t ∧ s.postedMop t { s.newMop 0xE5 0 (s.sarg d).toNat [] with
      row := (s.sarg b).toNat % 64, half := (s.sarg b).toNat / 64
      values := s.gang.activeList.map (fun l =>
        (l, s.vsrc (.elem (s.wg.accTileOf (accHandle (s.sarg d).toNat)).accType) a l)) } := by
  have hall := Gang.allIssuing_iff.2 fun k hk => decide_eq_true (hty k hk)
  refine posts_of_issues _ hroom hi ?_
  simp only [hacc, hall, Nat.not_le.2 hsel, decide_false, Bool.not_true, Bool.or_self, Bool.false_eq_true, if_false]

/-- Settles O45: past its checks each of the six words is `postMop`, which finds room. -/
theorem thresherIssue : Obligations.ThresherIssue := fun s hroom =>
  ⟨fun a => mloop_posts hroom a, fun z sh a b => mdrain_posts hroom z sh a b, fun a => mzero_posts hroom a,
    fun a b hi hacc haddr => ⟨image_posts hroom a b hi hacc haddr, image_posts hroom a b hi hacc haddr⟩,
    fun d a b hi hacc hty hsel => tacc_posts hroom d a b hi hacc hty hsel⟩

end Sys2Proof.Machine
end

section
/-! Tile handles are taken and given back (07 R174, R175). -/

namespace Sys2Proof.Machine

theorem findBelow_eq_some {p : Nat → Bool} {n h : Nat} (hn : h < n) (hp : p h = true) (hlow : ∀ j, j < h → p j = false) :
    findBelow p n = some h := by
  rw [findBelow, List.find?_range_eq_some]
  exact ⟨hp, List.mem_range.2 hn, fun j hj => by simp [hlow j hj]⟩

theorem findBelow_eq_none {p : Nat → Bool} {n : Nat} (h : ∀ j, j < n → p j = false) : findBelow p n = none := by
  simpa [findBelow, List.find?_eq_none] using h

/-! ### What giving and freeing a tile leave -/

section
variable (s : State) (wid h : Nat) (tile : Tile)

theorem giveTile_leaves : (s.giveTile wid h tile).gangs = s.gangs ∧ (s.giveTile wid h tile).cur = s.cur ∧
    (s.giveTile wid h tile).mem = s.mem ∧
    (s.giveTile wid h tile).wgs = (s.updWgAt wid (fun w => { w with tiles := mapPut h tile w.tiles })).wgs := by
  unfold State.giveTile
  dsimp only
  split
  · exact ⟨rfl, rfl, rfl, rfl⟩
  · split <;> exact ⟨rfl, rfl, rfl, rfl⟩

@[simp] theorem gang_giveTile : (s.giveTile wid h tile).gang = s.gang := by
  obtain ⟨hgangs, hcur, _⟩ := giveTile_leaves s wid h tile
  rw [State.gang, State.gangAt, hgangs, hcur]; rfl

theorem wgAt_giveTile : (s.giveTile wid h tile).wgAt wid = { s.wgAt wid with tiles := mapPut h tile (s.wgAt wid).tiles } := by
  obtain ⟨_, _, _, hwgs⟩ := giveTile_leaves s wid h tile
  rw [State.wgAt, hwgs]
  exact State.wgAt_setWgAt s wid _

theorem freeTile_leaves : (s.freeTile wid h).gangs = s.gangs ∧ (s.freeTile wid h).cur = s.cur ∧ (s.freeTile wid h).mem = s.mem := by
  unfold State.freeTile
  split
  · exact ⟨rfl, rfl, rfl⟩
  · dsimp only
    split
    · exact ⟨rfl, rfl, rfl⟩
    · split <;> exact ⟨rfl, rfl, rfl⟩

@[simp] theorem gang_freeTile : (s.freeTile wid h).gang = s.gang := by
  obtain ⟨hgangs, hcur, _⟩ := freeTile_leaves s wid h
  rw [State.gang, State.gangAt, hgangs, hcur]; rfl

theorem wgAt_freeTile (hsome : (s.wgAt wid).tile h ≠ none) :
    (s.freeTile wid h).wgAt wid = { s.wgAt wid with tiles := mapDrop h (s.wgAt wid).tiles } := by
  have hwgs : (s.freeTile wid h).wgs = (s.updWgAt wid (fun w => { w with tiles := mapDrop h w.tiles })).wgs := by
    unfold State.freeTile
    split
    · next hnone => exact absurd hnone hsome
    · dsimp only
      split
      · rfl
      · split <;> rfl
  rw [State.wgAt, hwgs]
  exact State.wgAt_setWgAt s wid _

end

/-! ### The words -/

/-- The step of a word that answers `v` in `d`, over a state that keeps the gang and memory. -/
theorem answers_putSAll {s u : State} (hgang : u.gang = s.gang) (hmem : u.mem = s.mem) {d a b : Code}
    (hi : s.issues (fixedOps [.sw 32 d, .sr 32 a, .sr 32 b]) = true) (v : Word) :
    ∃ t, finishWith u (fun g => g.putSAll d v) = .next t ∧
      (s.past t ∧ t.mem = s.mem ∧ t.gang.regs.v = s.gang.regs.v ∧
        ∀ k i, k < 8 → i < 32 → t.gang.s k i = if d ≠ 0xF0 ∧ i = d.toNat ∧ s.gang.issuing k = true then v else s.gang.s k i) ∧
      t.wg = u.wg := by
  have hstep : u.scalarStep (u.updGang (fun g => (g.putS d u.gang.issuing (fun _ => v)).advance)) d (fun _ => v) := by
    by_cases hsome : ∃ k, s.gang.issuing k = true
    · obtain ⟨k, hk⟩ := hsome
      exact scalarStep_putS u d (legal_of_issues hi hk (List.mem_cons_self ..)) _
    · exact scalarStep_putS_none (by simpa [hgang] using hsome) d _
  obtain ⟨hs, hpast, _, hg⟩ := hstep
  refine ⟨_, rfl, ⟨?_, hmem, ?_, ?_⟩, ?_⟩
  · intro k hk
    rw [← hgang]
    exact hpast k hk
  · exact (congrArg (fun g => g.regs.v) hg).trans (congrArg (fun g => g.regs.v) hgang)
  · intro k i hk hi'
    rw [← hgang]
    exact hs k i hk hi'
  · have hwid : (u.updGang (fun g => (g.putSAll d v).advance)).gang.wid = u.gang.wid := by
      rw [State.gang_updGang, Gang.putSAll, Gang.putS]
      split <;> rfl
    exact congrArg u.wgAt hwid

/-- The tile that talloc gives. -/
def State.tileFor (s : State) (a b : Code) : Tile :=
  let level := field (s.sarg b).toNat 20 2
  { rows := (s.sarg a).toNat, rowBytes := (s.sarg b).toNat % 2 ^ 20, level := level
    granules := (s.freeGranules s.gang.wid level).take (granulesFor level (s.sarg a).toNat ((s.sarg b).toNat % 2 ^ 20)) }

theorem exec_talloc {s : State} {d a b : Code} (hi : s.issues (fixedOps [.sw 32 d, .sr 32 a, .sr 32 b]) = true)
    (hok : tallocOk (s.sarg a).toNat (s.sarg b).toNat = true) {h : Nat} (hlt : h < 64) (hfree : s.wg.tile h = none)
    (hlow : ∀ j, j < h → s.wg.tile j ≠ none) :
    exec (.talloc d a b) s =
      let level := field (s.sarg b).toNat 20 2
      let free := s.freeGranules s.gang.wid level
      let n := granulesFor level (s.sarg a).toNat ((s.sarg b).toNat % 2 ^ 20)
      if free.length < n then finishWith s (fun g => g.putSAll d 0xFFFFFFF1)
      else finishWith (s.giveTile s.gang.wid h (s.tileFor a b)) (fun g => g.putSAll d (BitVec.ofNat 32 h)) := by
  have hfind : findBelow (fun j => (s.wg.tile j).isNone) 64 = some h :=
    findBelow_eq_some hlt (by rw [hfree]; rfl) fun j hj => Option.isNone_eq_false_iff.2 (Option.isSome_iff_ne_none.2 (hlow j hj))
  rw [show exec (.talloc d a b) s = execTalloc d a b s from rfl, execTalloc, guardOps_issues hi]
  simp only [hok, Bool.not_true, Bool.false_eq_true, if_false, hfind]
  rfl

/-- The operands of tfree with a tile behind the handle. -/
theorem exec_tfree {s : State} {a : Code} (hi : s.issues (fixedOps [.sr 32 a]) = true) (hlt : (s.sarg a).toNat < 64)
    (hsome : s.wg.tile (s.sarg a).toNat ≠ none) : exec (.tfree a) s =
      if s.tileBusy s.gang.wid (s.sarg a).toNat then stallOn (.tile (s.sarg a).toNat) s
      else .next (s.freeTile s.gang.wid (s.sarg a).toNat).advance := by
  have hgo : (decide (64 ≤ (s.sarg a).toNat) || (s.wg.tile (s.sarg a).toNat).isNone) = false := by
    simp [hlt, Option.isNone_eq_false_iff, Option.isSome_iff_ne_none, hsome]
  rw [show exec (.tfree a) s = execTfree a s from rfl, execTfree, guardOps_issues hi]
  simp only [hgo, Bool.false_eq_true, if_false]

theorem tfree_frees {s : State} {a : Code} (hi : s.issues (fixedOps [.sr 32 a]) = true) (hlt : (s.sarg a).toNat < 64)
    (hsome : s.wg.tile (s.sarg a).toNat ≠ none) (hbusy : s.tileBusy s.gang.wid (s.sarg a).toNat = false) :
    ∃ t, exec (.tfree a) s = .next t ∧ s.past t ∧ t.gang.regs = s.gang.regs ∧ t.mem = s.mem ∧
      t.wg.tile (s.sarg a).toNat = none ∧ ∀ j, j ≠ (s.sarg a).toNat → t.wg.tile j = s.wg.tile j := by
  obtain ⟨_, _, hmem⟩ := freeTile_leaves s s.gang.wid (s.sarg a).toNat
  have hgang := gang_freeTile s s.gang.wid (s.sarg a).toNat
  have hwg : (s.freeTile s.gang.wid (s.sarg a).toNat).wg =
      { s.wg with tiles := mapDrop (s.sarg a).toNat s.wg.tiles } := by
    rw [State.wg, hgang]
    exact wgAt_freeTile s s.gang.wid _ hsome
  refine ⟨_, by rw [exec_tfree hi hlt hsome, hbusy]; rfl, past_advance (congrArg Gang.flow hgang), ?_, hmem, ?_, ?_⟩
  · rw [State.gang_advance, hgang]; rfl
  · rw [State.wg_advance, hwg]
    exact mapFind_drop_same _ _
  · intro j hj
    rw [State.wg_advance, hwg]
    exact mapFind_drop_other hj _

/-- Settles O47. -/
theorem tileHandles : Obligations.TileHandles := by
  refine ⟨fun s d a b hi => ?_, fun s a hi => ⟨fun hlt hsome hbusy => tfree_frees hi hlt hsome hbusy,
    fun hlt hsome hbusy => by rw [exec_tfree hi hlt hsome, hbusy]; rfl, fun hbad => ?_⟩⟩
  · refine ⟨fun h hlt hok hfree hlow hroom => ?_, fun hok => ?_, fun hok hfull => ?_, fun h hlt hok hfree hlow hroom => ?_⟩
    · obtain ⟨_, _, hmem, _⟩ := giveTile_leaves s s.gang.wid h (s.tileFor a b)
      obtain ⟨t, ht, hans, hwg⟩ := answers_putSAll (gang_giveTile s s.gang.wid h (s.tileFor a b)) hmem hi (BitVec.ofNat 32 h)
      have htile : t.wg = { s.wg with tiles := mapPut h (s.tileFor a b) s.wg.tiles } := by
        rw [hwg, State.wg, gang_giveTile, wgAt_giveTile]; rfl
      refine ⟨t, ?_, hans, ?_, fun j hj => ?_⟩
      · rw [exec_talloc hi hok hlt hfree hlow, ← ht]
        exact if_neg (Nat.not_lt.2 hroom)
      · rw [htile]; exact mapFind_put_same _ _ _
      · rw [htile]; exact mapFind_put_other hj _ _
    · obtain ⟨t, ht, hans, hwg⟩ := answers_putSAll rfl rfl hi 0xFFFFFFF2
      refine ⟨t, ?_, hans, hwg⟩
      rw [← ht, show exec (.talloc d a b) s = execTalloc d a b s from rfl, execTalloc, guardOps_issues hi]
      simp only [hok, Bool.not_false, if_true]
    · obtain ⟨t, ht, hans, hwg⟩ := answers_putSAll rfl rfl hi 0xFFFFFFF0
      have hfind : findBelow (fun j => (s.wg.tile j).isNone) 64 = none :=
        findBelow_eq_none fun j hj => Option.isNone_eq_false_iff.2 (Option.isSome_iff_ne_none.2 (hfull j hj))
      refine ⟨t, ?_, hans, hwg⟩
      rw [← ht, show exec (.talloc d a b) s = execTalloc d a b s from rfl, execTalloc, guardOps_issues hi]
      simp only [hok, Bool.not_true, Bool.false_eq_true, if_false, hfind]
    · obtain ⟨t, ht, hans, hwg⟩ := answers_putSAll rfl rfl hi 0xFFFFFFF1
      refine ⟨t, ?_, hans, hwg⟩
      rw [exec_talloc hi hok hlt hfree hlow, ← ht]
      exact if_pos hroom
  · have hgo : (decide (64 ≤ (s.sarg a).toNat) || (s.wg.tile (s.sarg a).toNat).isNone) = true := by
      simpa [Option.isNone_iff_eq_none] using hbad
    rw [show exec (.tfree a) s = execTfree a s from rfl, execTfree, guardOps_issues hi]
    simp only [hgo, if_true]
    rfl

end Sys2Proof.Machine
end

section
/-! Event bits and the pre-emption point (14 R347, R359; 08 R226). -/

namespace Sys2Proof.Machine

/-! ### The bits -/

theorem eventMask_bit (n : Nat) {i : Nat} (hi : i < 256) : (eventMask n).getLsbD i = decide (i = n) := by
  simp only [eventMask, BitVec.getLsbD_ofNat, hi, decide_true, Bool.true_and, Nat.testBit_two_pow, eq_comm]

theorem events_setEvents (c : Cluster) (n src : Nat) {i : Nat} (hi : i < 256) :
    (c.setEvents (eventMask n) src).events.getLsbD i = (decide (i = n) || c.events.getLsbD i) := by
  rw [show (c.setEvents (eventMask n) src).events = c.events ||| eventMask n from rfl, BitVec.getLsbD_or,
    eventMask_bit n hi, Bool.or_comm]

theorem events_clearEvents (c : Cluster) (n : Nat) {i : Nat} (hi : i < 256) :
    (c.clearEvents (eventMask n)).events.getLsbD i = (decide (i ≠ n) && c.events.getLsbD i) := by
  rw [show (c.clearEvents (eventMask n)).events = c.events &&& ~~~ eventMask n from rfl, BitVec.getLsbD_and,
    BitVec.getLsbD_not, eventMask_bit n hi, Bool.and_comm]
  simp [hi]

/-! ### The entries of the table that start and end -/

theorem mem_insertMop {e x : Mentry} {es : List Mentry} : x ∈ insertMop e es ↔ x = e ∨ x ∈ es := by
  induction es with
  | nil => simp [insertMop]
  | cons f fs ih =>
    unfold insertMop
    split
    · exact List.mem_cons
    · rw [List.mem_cons, ih, List.mem_cons]; tauto

theorem mem_foldr_insertMop {x : Mentry} {es : List Mentry} : x ∈ es.foldr insertMop [] ↔ x ∈ es := by
  induction es with
  | nil => rfl
  | cons f fs ih => rw [List.foldr_cons, mem_insertMop, ih, List.mem_cons]

theorem mem_starters {c : Cluster} {e : Mentry} : e ∈ c.starters ↔ e ∈ c.table ∧ c.eligible e = true := by
  simp only [Cluster.starters, List.mem_append, List.mem_filter, mem_foldr_insertMop]
  cases e.keepsBits <;> simp

theorem starters_eq_nil {c : Cluster} (h : ∀ e ∈ c.table, c.eligible e = false) : c.starters = [] :=
  List.eq_nil_iff_forall_not_mem.2 fun e he => by
    obtain ⟨hmem, helig⟩ := mem_starters.1 he
    simp [h e hmem] at helig

theorem startAll_of_none {s : State} {cl : Nat} (h : (s.clusterAt cl).starters = []) : s.startAll cl = s := by
  rw [State.startAll, h]; rfl

/-- What starts and ends of the table's entries leave: memory, and of a gang all but its operations and reports. -/
structure State.tableMoved (s t : State) : Prop where
  cur : t.cur = s.cur
  mem : t.mem = s.mem
  gang : ∀ k, t.gangAt k = { s.gangAt k with out := (t.gangAt k).out, reports := (t.gangAt k).reports }

namespace State.tableMoved

theorem refl (s : State) : s.tableMoved s := ⟨rfl, rfl, fun _ => rfl⟩

theorem trans {s t u : State} (h1 : s.tableMoved t) (h2 : t.tableMoved u) : s.tableMoved u :=
  ⟨h2.cur.trans h1.cur, h2.mem.trans h1.mem, fun k => by rw [h2.gang k, h1.gang k]⟩

theorem of_gangs {s t : State} (hcur : t.cur = s.cur) (hmem : t.mem = s.mem) (hgangs : t.gangs = s.gangs) : s.tableMoved t :=
  ⟨hcur, hmem, fun k => by rw [State.gangAt, hgangs]; rfl⟩

theorem updGangAt (s : State) (k : Nat) {f : Gang → Gang} (h : ∀ g, f g = { g with out := (f g).out, reports := (f g).reports }) :
    s.tableMoved (s.updGangAt k f) :=
  ⟨rfl, rfl, fun j => by
    rw [gangAt_updGangAt]
    split
    · next hj => rw [hj]; exact h _
    · rfl⟩

theorem foldl {α : Type} {f : State → α → State} (h : ∀ (s : State) a, s.tableMoved (f s a)) (as : List α) (s : State) :
    s.tableMoved (as.foldl f s) := by
  induction as generalizing s with
  | nil => exact refl s
  | cons a as ih => exact (h s a).trans (ih _)

section
variable {s t : State} (h : s.tableMoved t)
include h

theorem gang_eq : t.gang = { s.gang with out := t.gang.out, reports := t.gang.reports } := by
  rw [State.gang, h.cur]; exact h.gang s.cur

theorem flow : t.gang.flow = s.gang.flow := by rw [h.gang_eq]
theorem regs : t.gang.regs = s.gang.regs := by rw [h.gang_eq]

end

end State.tableMoved

theorem tableMoved_leaveTable (s : State) (cl : Nat) (e : Mentry) (fail : Option TrapReq) : s.tableMoved (s.leaveTable cl e fail) := by
  unfold State.leaveTable
  dsimp only
  refine .trans ?_ (.updGangAt _ _ fun g => rfl)
  split
  · refine .trans ?_ (.updGangAt _ _ fun g => rfl)
    exact .of_gangs rfl rfl rfl
  · exact .of_gangs rfl rfl rfl

theorem tableMoved_startEntry (s : State) (cl : Nat) (e : Mentry) : s.tableMoved (s.startEntry cl e) := by
  unfold State.startEntry
  dsimp only
  split
  · refine .trans ?_ (tableMoved_leaveTable ..)
    exact .of_gangs rfl rfl rfl
  · split
    · exact .of_gangs rfl rfl rfl
    · refine .trans ?_ (tableMoved_leaveTable ..)
      exact .of_gangs rfl rfl rfl

theorem tableMoved_startAll (s : State) (cl : Nat) : s.tableMoved (s.startAll cl) :=
  .foldl (fun s e => by
    unfold State.startEligible
    split
    · exact tableMoved_startEntry s cl e
    · exact .refl s) _ s

theorem tableMoved_takeEvents (s : State) (cl : Nat) (mask : BitVec 256) : s.tableMoved (s.takeEvents cl mask) :=
  (tableMoved_startAll s cl).trans (.of_gangs rfl rfl rfl)

/-- Bits cleared by an instruction: the named one is clear, and with no entry to start the others are as before. -/
theorem events_takeEvents (s : State) (cl n : Nat) {i : Nat} (hi : i < 256) (h : i = n ∨ (s.clusterAt cl).starters = []) :
    ((s.takeEvents cl (eventMask n)).clusterAt cl).events.getLsbD i = (decide (i ≠ n) && (s.clusterAt cl).events.getLsbD i) := by
  rw [State.takeEvents, State.clusterAt_updCluster, events_clearEvents _ _ hi]
  rcases h with h | h
  · simp [h]
  · rw [startAll_of_none h]

/-! ### The gangs that wait at a bit -/

theorem le_of_mem_rising {α : Type} {lo : Nat} {m : SMap α} (hm : mapRising lo m = true) {z : Nat × α} (hz : z ∈ m) : lo ≤ z.1 := by
  induction m generalizing lo with
  | nil => cases hz
  | cons e m ih =>
    obtain ⟨i, y⟩ := e
    simp only [mapRising, Bool.and_eq_true, decide_eq_true_eq] at hm
    rcases List.mem_cons.1 hz with rfl | hz
    · exact hm.1
    · exact hm.1.trans ((Nat.le_succ i).trans (ih hm.2 hz))

/-- Dropping a key of a rising map takes out its entry and no other. -/
theorem countP_mapDrop {α : Type} {p : Nat × α → Bool} {k lo : Nat} {x : α} (hp : p (k, x) = true) {m : SMap α}
    (hm : mapRising lo m = true) (hk : (k, x) ∈ m) : (mapDrop k m).countP p + 1 = m.countP p := by
  induction m generalizing lo with
  | nil => cases hk
  | cons e m ih =>
    obtain ⟨i, y⟩ := e
    simp only [mapRising, Bool.and_eq_true, decide_eq_true_eq] at hm
    obtain ⟨_, htail⟩ := hm
    have hge : ∀ z ∈ m, i < z.1 := fun z hz => le_of_mem_rising htail hz
    rcases List.mem_cons.1 hk with heq | hk
    · obtain ⟨rfl, rfl⟩ := Prod.mk.inj heq
      have hdrop : m.dropWhile (fun e => decide (e.1 ≤ k)) = m := by
        cases m with
        | nil => rfl
        | cons z m => exact List.dropWhile_cons_of_neg (by simpa using hge z (List.mem_cons_self ..))
      simp only [mapDrop, Nat.lt_irrefl, if_false, if_true, hdrop]
      rw [List.countP_cons_of_pos hp]
    · have hlt : i < k := hge _ hk
      simp only [mapDrop, if_pos hlt, List.countP_cons]
      have := ih htail hk
      omega

theorem mapDrop_sublist {α : Type} (k : Nat) (m : SMap α) : (mapDrop k m).Sublist m := by
  induction m with
  | nil => exact .slnil
  | cons e m ih =>
    obtain ⟨i, y⟩ := e
    unfold mapDrop
    split
    · exact ih.cons_cons _
    · split
      · exact (List.dropWhile_sublist _).cons _
      · exact .refl _

/-- The blocks of a gang that are `b`. -/
def Gang.blocksAt (b : Block) (g : Gang) : Nat := g.flow.blocks.countP (fun x => decide (x.2 = b))

theorem Gang.any_blocks (g : Gang) (b : Block) : g.flow.blocks.any (fun x => decide (x.2 = b)) = decide (0 < g.blocksAt b) := by
  rw [Bool.eq_iff_iff, decide_eq_true_iff, Gang.blocksAt, List.countP_pos_iff, List.any_eq_true]

/-- A gang after PC-groups of it have gone on: fewer blocks, the same place and trap state. -/
structure Gang.wokenTo (g h : Gang) : Prop where
  live : h.live = g.live
  wid : h.wid = g.wid
  trap : h.trap = g.trap
  rising : mapRising 0 g.flow.blocks = true → mapRising 0 h.flow.blocks = true
  blocks : h.flow.blocks.Sublist g.flow.blocks

theorem Gang.wokenTo.refl (g : Gang) : g.wokenTo g := ⟨rfl, rfl, rfl, id, .refl _⟩

theorem Gang.wokenTo.trans {g h k : Gang} (h1 : g.wokenTo h) (h2 : h.wokenTo k) : g.wokenTo k :=
  ⟨h2.live.trans h1.live, h2.wid.trans h1.wid, h2.trap.trans h1.trap, fun h => h2.rising (h1.rising h), h2.blocks.trans h1.blocks⟩

theorem Gang.wokenTo.blocksAt {g h : Gang} (hw : g.wokenTo h) (b : Block) : h.blocksAt b ≤ g.blocksAt b := hw.blocks.countP_le

theorem Gang.wokenTo_finishBlock (g : Gang) (b : Block) : g.wokenTo (g.finishBlock b (fun g => g)) := by
  unfold Gang.finishBlock
  split
  · exact .refl g
  · exact ⟨rfl, rfl, rfl, mapRising_drop _ _ 0, mapDrop_sublist _ _⟩

/-- One block fewer of those that there are. -/
theorem Gang.blocksAt_finishBlock {g : Gang} {b : Block} (hrise : mapRising 0 g.flow.blocks = true) (hb : 0 < g.blocksAt b) :
    (g.finishBlock b (fun g => g)).blocksAt b + 1 = g.blocksAt b := by
  obtain ⟨x, hx, hxb⟩ := List.countP_pos_iff.1 hb
  obtain ⟨⟨k, c⟩, hfind⟩ := Option.isSome_iff_exists.1 ((List.find?_isSome (p := fun e => decide (e.2 = b))).2 ⟨x, hx, hxb⟩)
  have hblocks : (g.finishBlock b (fun g => g)).flow.blocks = mapDrop k g.flow.blocks := by
    unfold Gang.finishBlock
    rw [hfind]
    rfl
  rw [Gang.blocksAt, hblocks]
  exact countP_mapDrop (List.find?_some hfind) hrise (List.mem_of_find?_eq_some hfind)

/-- A step that lets PC-groups go on: a cluster's bits may be taken, its table stays. -/
structure State.wokenTo (s t : State) : Prop where
  gang : ∀ k, (s.gangAt k).wokenTo (t.gangAt k)
  live : ∀ k, k ∈ s.liveGangs → k ∈ t.liveGangs

namespace State.wokenTo

theorem refl (s : State) : s.wokenTo s := ⟨fun _ => .refl _, fun _ h => h⟩

theorem trans {s t u : State} (h1 : s.wokenTo t) (h2 : t.wokenTo u) : s.wokenTo u :=
  ⟨fun k => (h1.gang k).trans (h2.gang k), fun k h => h2.live k (h1.live k h)⟩

theorem foldl {α : Type} {f : State → α → State} (h : ∀ (s : State) a, s.wokenTo (f s a)) (as : List α) (s : State) :
    s.wokenTo (as.foldl f s) := by
  induction as generalizing s with
  | nil => exact refl s
  | cons a as ih => exact (h s a).trans (ih _)

theorem of_gangs {s t : State} (h : t.gangs = s.gangs) : s.wokenTo t where
  gang k := by rw [State.gangAt, State.gangAt, h]; exact .refl _
  live k hk := by rwa [State.liveGangs, h]

end State.wokenTo

theorem mem_mapPut_self {α : Type} (k : Nat) (x : α) (m : SMap α) : (k, x) ∈ mapPut k x m := mem_of_mapFind (mapFind_put_same k x m)

/-- What a map lists stays listed, but for the entry that is found under the key. -/
theorem mem_mapPut_of_mem {α : Type} {k : Nat} {e : Nat × α} {m : SMap α} (x : α) (he : e ∈ m)
    (h : mapFind k m ≠ some e.2 ∨ e.1 ≠ k) : e ∈ mapPut k x m := by
  induction m with
  | nil => cases he
  | cons z m ih =>
    obtain ⟨i, y⟩ := z
    unfold mapPut
    unfold mapFind at h
    split_ifs at h ⊢ with hlt heq
    · rcases List.mem_cons.1 he with rfl | he
      · exact List.mem_cons_self ..
      · exact List.mem_cons_of_mem _ (ih he h)
    · rcases List.mem_cons.1 he with rfl | he
      · simp [heq] at h
      · exact List.mem_cons_of_mem _ he
    · exact List.mem_cons_of_mem _ he

theorem mem_liveGangs {s : State} {k : Nat} : k ∈ s.liveGangs ↔ ∃ g, (k, g) ∈ s.gangs ∧ g.live = true := by
  simp only [State.liveGangs, List.mem_map, List.mem_filter]
  constructor
  · rintro ⟨⟨j, g⟩, ⟨hmem, hlive⟩, rfl⟩
    exact ⟨g, hmem, hlive⟩
  · rintro ⟨g, hmem, hlive⟩
    exact ⟨(k, g), ⟨hmem, hlive⟩, rfl⟩

theorem State.wokenTo_updGangAt (s : State) (j : Nat) {f : Gang → Gang} (h : ∀ g : Gang, g.wokenTo (f g)) :
    s.wokenTo (s.updGangAt j f) where
  gang k := by
    rw [gangAt_updGangAt]
    split
    · next hk => rw [hk]; exact h _
    · exact .refl _
  live k hk := by
    obtain ⟨g, hmem, hlive⟩ := mem_liveGangs.1 hk
    refine mem_liveGangs.2 ?_
    by_cases hsame : mapFind j s.gangs = some g ∧ k = j
    · obtain ⟨hfind, rfl⟩ := hsame
      have hg : s.gangAt k = g := by rw [State.gangAt, hfind]; rfl
      exact ⟨f (s.gangAt k), mem_mapPut_self _ _ _, by rw [hg, (h g).live, hlive]⟩
    · exact ⟨g, mem_mapPut_of_mem _ hmem (not_and_or.1 hsame), hlive⟩

/-! ### Waking -/

section
variable (s : State)

theorem observeEvent_leaves (core n : Nat) : (s.observeEvent core n).gangs = s.gangs ∧
    (s.observeEvent core n).clusters = s.clusters ∧ (s.observeEvent core n).cur = s.cur ∧ (s.observeEvent core n).mem = s.mem := by
  unfold State.observeEvent State.acquireActs
  split_ifs <;> exact ⟨rfl, rfl, rfl, rfl⟩

theorem wokenTo_wakeAtEvent (n : Nat) (b : Block) (k : Nat) : s.wokenTo (s.wakeAtEvent n b k) :=
  (State.wokenTo.of_gangs (observeEvent_leaves s _ n).1).trans
    (State.wokenTo_updGangAt _ _ fun g => g.wokenTo_finishBlock b)

theorem clusters_wakeAtEvent (n : Nat) (b : Block) (k : Nat) : (s.wakeAtEvent n b k).clusters = s.clusters :=
  (observeEvent_leaves s (s.gangAt k).core n).2.1

theorem gangAt_wakeAtEvent (n : Nat) (b : Block) (k : Nat) :
    (s.wakeAtEvent n b k).gangAt k = (s.gangAt k).finishBlock b (fun g => g) := by
  rw [State.wakeAtEvent, gangAt_updGangAt, if_pos rfl, State.gangAt, (observeEvent_leaves s _ n).1]
  rfl

/-- One turn of a gang that waits for bit `n`: a PC-group that waits at it goes on. -/
def State.wakeReader (n k : Nat) (s : State) : State :=
  if (s.gangAt k).flow.blocks.any (fun x => decide (x.2 = .eventBit n)) then s.wakeAtEvent n (.eventBit n) k else s

theorem wokenTo_wakeReader (n k : Nat) : s.wokenTo (s.wakeReader n k) := by
  unfold State.wakeReader
  split
  · exact wokenTo_wakeAtEvent s n _ k
  · exact .refl s

theorem clusters_wakeReader (n k : Nat) : (s.wakeReader n k).clusters = s.clusters := by
  unfold State.wakeReader
  split
  · exact clusters_wakeAtEvent s n _ k
  · rfl

/-- As many turns as a gang has PC-groups at the bit leave none there. -/
theorem blocksAt_wakeReaders (n k : Nat) {as : List Nat} {s : State} (hrise : mapRising 0 (s.gangAt k).flow.blocks = true)
    (hlen : (s.gangAt k).blocksAt (.eventBit n) ≤ as.length) :
    ((as.foldl (fun s _ => s.wakeReader n k) s).gangAt k).blocksAt (.eventBit n) = 0 := by
  induction as generalizing s with
  | nil => exact Nat.le_zero.1 hlen
  | cons a as ih =>
    refine ih (((wokenTo_wakeReader s n k).gang k).rising hrise) ?_
    show ((s.wakeReader n k).gangAt k).blocksAt _ ≤ _
    rw [State.wakeReader, Gang.any_blocks]
    by_cases hb : 0 < (s.gangAt k).blocksAt (.eventBit n)
    · have := Gang.blocksAt_finishBlock hrise hb
      rw [if_pos (decide_eq_true hb), gangAt_wakeAtEvent]
      simp only [List.length_cons] at hlen
      omega
    · rw [if_neg (by simpa using hb)]
      omega

theorem wakeReaders_eq (cl n : Nat) : State.wakeReaders cl s n =
    if (s.clusterAt cl).events.getLsbD n then
      (s.eventWaiters cl (.eventBit n)).foldl (fun s k => (List.range 8).foldl (fun s _ => s.wakeReader n k) s) s
    else s := rfl

theorem wokenTo_eightTurns (n k : Nat) : s.wokenTo ((List.range 8).foldl (fun s _ => s.wakeReader n k) s) :=
  .foldl (fun s _ => wokenTo_wakeReader s n k) _ s

theorem wokenTo_wakeReaders (cl n : Nat) : s.wokenTo (State.wakeReaders cl s n) := by
  rw [wakeReaders_eq]
  split
  · exact .foldl (fun s k => wokenTo_eightTurns s n k) _ s
  · exact .refl s

theorem clusters_wakeReaders (cl n : Nat) : (State.wakeReaders cl s n).clusters = s.clusters := by
  rw [wakeReaders_eq]
  split
  · exact foldl_keeps State.clusters (fun s k => foldl_keeps State.clusters (fun s _ => clusters_wakeReader s n k) _ s) _ s
  · rfl

theorem wokenTo_wakeClearer (cl n : Nat) : s.wokenTo (State.wakeClearer cl s n) := by
  unfold State.wakeClearer
  split
  · exact (wokenTo_wakeAtEvent s n _ _).trans (.of_gangs rfl)
  · exact .refl s

end

/-- A gang that waits at bit `n`. -/
theorem mem_eventWaiters {s : State} {cl k : Nat} {b : Block} : k ∈ s.eventWaiters cl b ↔
    k ∈ s.liveGangs ∧ (s.gangAt k).cluster = cl ∧ (s.gangAt k).trap.taken = false ∧ 0 < (s.gangAt k).blocksAt b := by
  simp only [State.eventWaiters, List.mem_filter, Gang.any_blocks, Bool.and_eq_true, decide_eq_true_eq, Bool.not_eq_true', and_assoc]

theorem mem_waitedBits {s : State} {cl k n : Nat} (hk : k ∈ s.eventWaiters cl (.eventBit n)) : n ∈ s.waitedBits cl := by
  obtain ⟨hlive, hcl, _, hb⟩ := mem_eventWaiters.1 hk
  obtain ⟨x, hx, hxb⟩ := List.countP_pos_iff.1 hb
  refine List.mem_eraseDups.2 (List.mem_flatMap.2 ⟨k, List.mem_filter.2 ⟨hlive, decide_eq_true hcl⟩, List.mem_filterMap.2 ⟨x, hx, ?_⟩⟩)
  rw [of_decide_eq_true hxb]

/-- The readers of a set bit go on. -/
theorem blocksAt_wakeReaders_self {s : State} {cl n k : Nat} (hset : (s.clusterAt cl).events.getLsbD n = true)
    (hk : k ∈ s.eventWaiters cl (.eventBit n)) (hrise : mapRising 0 (s.gangAt k).flow.blocks = true)
    (hlen : (s.gangAt k).flow.blocks.length ≤ 8) : ((State.wakeReaders cl s n).gangAt k).blocksAt (.eventBit n) = 0 := by
  rw [wakeReaders_eq, if_pos hset]
  obtain ⟨before, after, hsplit⟩ := List.append_of_mem hk
  rw [hsplit, List.foldl_append, List.foldl_cons]
  have hbefore := (State.wokenTo.foldl (fun s k => wokenTo_eightTurns s n k) before s).gang k
  have hafter := (State.wokenTo.foldl (fun s k => wokenTo_eightTurns s n k) after
    ((List.range 8).foldl (fun s _ => s.wakeReader n k)
      (before.foldl (fun s k => (List.range 8).foldl (fun s _ => s.wakeReader n k) s) s))).gang k
  have hnone := blocksAt_wakeReaders n k (as := List.range 8) (hbefore.rising hrise)
    (((List.countP_le_length).trans (hbefore.blocks.length_le)).trans hlen)
  exact Nat.le_zero.1 (hnone ▸ hafter.blocksAt _)

/-- What an instruction has set lets every reader of the bit go on. -/
theorem blocksAt_settleEvents {s : State} {cl n k : Nat} (hset : (s.clusterAt cl).events.getLsbD n = true)
    (hstart : (s.clusterAt cl).starters = []) (hk : k ∈ s.eventWaiters cl (.eventBit n))
    (hrise : mapRising 0 (s.gangAt k).flow.blocks = true) (hlen : (s.gangAt k).flow.blocks.length ≤ 8) :
    ((s.settleEvents cl).gangAt k).blocksAt (.eventBit n) = 0 := by
  obtain ⟨before, after, hsplit⟩ := List.append_of_mem (mem_waitedBits hk)
  have hcluster : ∀ (ns : List Nat) (s : State), (ns.foldl (State.wakeReaders cl) s).clusterAt cl = s.clusterAt cl := fun ns s =>
    congrArg (fun cs => (mapFind cl cs).getD Cluster.empty)
      (foldl_keeps State.clusters (fun s n => clusters_wakeReaders s cl n) ns s)
  have hstart1 : (((s.waitedBits cl).foldl (State.wakeReaders cl) s).clusterAt cl).starters = [] := by rw [hcluster, hstart]
  have hsettle : s.settleEvents cl = (((s.waitedBits cl).foldl (State.wakeReaders cl) s).waitedBits cl).foldl
      (State.wakeClearer cl) ((s.waitedBits cl).foldl (State.wakeReaders cl) s) := by
    unfold State.settleEvents State.settleRounds
    simp only [startAll_of_none hstart1, hstart1, List.isEmpty_nil, if_true]
  have hclear := (State.wokenTo.foldl (fun s n => wokenTo_wakeClearer s cl n)
    (((s.waitedBits cl).foldl (State.wakeReaders cl) s).waitedBits cl) ((s.waitedBits cl).foldl (State.wakeReaders cl) s)).gang k
  rw [hsettle]
  refine Nat.le_zero.1 ((hclear.blocksAt _).trans (Nat.le_zero.2 ?_))
  rw [hsplit, List.foldl_append, List.foldl_cons]
  have hafter := (State.wokenTo.foldl (fun s n => wokenTo_wakeReaders s cl n) after
    (State.wakeReaders cl (before.foldl (State.wakeReaders cl) s) n)).gang k
  refine Nat.le_zero.1 ((hafter.blocksAt _).trans (Nat.le_zero.2 ?_))
  have hbefore := State.wokenTo.foldl (fun s n => wokenTo_wakeReaders s cl n) before s
  have hg := hbefore.gang k
  by_cases hb : 0 < ((before.foldl (State.wakeReaders cl) s).gangAt k).blocksAt (.eventBit n)
  · obtain ⟨hlive, hcl, htaken, _⟩ := mem_eventWaiters.1 hk
    refine blocksAt_wakeReaders_self (by rw [hcluster, hset]) (mem_eventWaiters.2 ⟨hbefore.live k hlive, ?_, ?_, hb⟩)
      (hg.rising hrise) (hg.blocks.length_le.trans hlen)
    · exact (congrArg (fun w => clusterOfCore (coreOfWid w)) hg.wid).trans hcl
    · rw [hg.trap, htaken]
  · exact Nat.le_zero.1 ((((wokenTo_wakeReaders _ cl n).gang k).blocksAt _).trans (Nat.le_of_not_lt hb))

/-- With nothing to start and no gang at a bit nothing goes on. -/
theorem settleEvents_idle {s : State} {cl : Nat} (hstart : (s.clusterAt cl).starters = []) (hw : s.waitedBits cl = []) :
    s.settleEvents cl = s := by
  unfold State.settleEvents State.settleRounds
  simp only [hw, List.foldl_nil, startAll_of_none hstart, hstart, List.isEmpty_nil, if_true]

/-! ### The words -/

section
variable {s : State} {a : Code}

theorem clusters_releaseActs (s : State) (core sc : Nat) : (s.releaseActs core sc).clusters = s.clusters := by
  unfold State.releaseActs State.pushCore
  split
  · rw [writeBackAll_eq, clusters_writeBackLines]
    exact clusters_drainList _ _
  · rfl

/-- An event-bit word with an index in range. -/
theorem eventInstr_runs (hi : s.issues (fixedOps [.sr 32 a]) = true) (hn : (s.sarg a).toNat < 256) (body : Nat → State → Res) :
    eventInstr a body s = body (s.sarg a).toNat s := by
  rw [eventInstr, guardOps_issues hi]
  exact if_neg (Nat.not_le.2 hn)

theorem eventInstr_misuse (hi : s.issues (fixedOps [.sr 32 a]) = true) (hn : 256 ≤ (s.sarg a).toNat) (body : Nat → State → Res) :
    eventInstr a body s = .next (s.takeTrap { cause := 0x18, sub := 2 }) := by
  rw [eventInstr, guardOps_issues hi]
  exact if_pos hn

/-- The state from which an evset lets what waits go on. -/
def State.afterEvset (s : State) (n : Nat) : State :=
  ((s.releaseActs s.gang.core 4).updCluster s.gang.cluster (fun c => c.setEvents (eventMask n) 0)).advance

theorem accessed_afterEvset (s : State) : s.accessed (s.releaseActs s.gang.core 4) := accessed_releaseActs s _ _

theorem events_afterEvset (s : State) (n : Nat) {i : Nat} (hi : i < 256) :
    ((s.afterEvset n).clusterAt s.gang.cluster).events.getLsbD i =
      (decide (i = n) || (s.clusterAt s.gang.cluster).events.getLsbD i) := by
  have hcl : (s.afterEvset n).clusterAt s.gang.cluster = (s.clusterAt s.gang.cluster).setEvents (eventMask n) 0 := by
    refine (State.clusterAt_updCluster (s.releaseActs s.gang.core 4) s.gang.cluster
      (fun c => c.setEvents (eventMask n) 0)).trans ?_
    rw [State.clusterAt, clusters_releaseActs]
    rfl
  rw [hcl, events_setEvents _ _ _ hi]

theorem exec_evset (hi : s.issues (fixedOps [.sr 32 a]) = true) (hn : (s.sarg a).toNat < 256)
    (hrep : s.gang.releaseReport 4 = none) (hw : s.gang.releaseWaits 4 = []) :
    exec (.evset a) s = .next ((s.afterEvset (s.sarg a).toNat).settleEvents s.gang.cluster) := by
  have hcl : (s.releaseActs s.gang.core 4).gang.cluster = s.gang.cluster :=
    congrArg (fun w => clusterOfCore (coreOfWid w)) (accessed_afterEvset s).wid
  show execEvset a s = _
  rw [execEvset, eventInstr_runs hi hn, withRelease_ok (release_device hrep hw), hcl]
  rfl

/-- What an instruction leaves that clears bit `n`, its PC past the word and its waiting PC-group free. -/
theorem cleared_takeEvents {s u t : State} {n : Nat} (hgang : u.gang = s.gang) (hmem : u.mem = s.mem) (hclusters : u.clusters = s.clusters)
    {f : Gang → Gang} (hf : ∀ g : Gang, f g = { g with flow := { g.flow with blocks := (f g).flow.blocks } })
    (ht : t = ((u.takeEvents s.gang.cluster (eventMask n)).updGang f).advance) (hn : n < 256) :
    s.past t ∧ t.gang.regs = s.gang.regs ∧ t.mem = s.mem ∧ (t.clusterAt s.gang.cluster).events.getLsbD n = false ∧
      ((∀ e ∈ (s.clusterAt s.gang.cluster).table, (s.clusterAt s.gang.cluster).eligible e = false) → ∀ i, i < 256 →
        (t.clusterAt s.gang.cluster).events.getLsbD i =
          (decide (i ≠ n) && (s.clusterAt s.gang.cluster).events.getLsbD i)) := by
  have hmoved := tableMoved_takeEvents u s.gang.cluster (eventMask n)
  have hcl : u.clusterAt s.gang.cluster = s.clusterAt s.gang.cluster := by rw [State.clusterAt, hclusters]; rfl
  have hflow := hmoved.flow.trans (congrArg Gang.flow hgang)
  have htg : t.gang = (f (u.takeEvents s.gang.cluster (eventMask n)).gang).advance := by
    rw [ht, State.gang_advance, State.gang_updGang]
  have htcl : t.clusterAt s.gang.cluster = (u.takeEvents s.gang.cluster (eventMask n)).clusterAt s.gang.cluster := by
    rw [ht]; rfl
  have hf' := hf (u.takeEvents s.gang.cluster (eventMask n)).gang
  refine ⟨past_advance_of htg ?_ ?_ ?_ ?_, ?_, by rw [ht]; exact hmoved.mem.trans hmem, ?_, fun hnone i hi => ?_⟩
  · rw [hf', ← hflow]
  · rw [hf', ← hflow]
  · rw [hf', ← hflow]
  · rw [hf', ← hflow]
  · rw [htg, Gang.regs_advance, hf']; exact hmoved.regs.trans (congrArg Gang.regs hgang)
  · rw [htcl, events_takeEvents u _ n hn (.inl rfl)]; simp
  · rw [htcl, events_takeEvents u _ n hi (.inr (starters_eq_nil (by rwa [hcl]))), hcl]

theorem evclr_runs (hi : s.issues (fixedOps [.sr 32 a]) = true) (hn : (s.sarg a).toNat < 256) :
    exec (.evclr a) s = .next ((s.takeEvents s.gang.cluster (eventMask (s.sarg a).toNat)).updGang id).advance := by
  show execEvclr a s = _
  rw [execEvclr, eventInstr_runs hi hn, State.advance, State.advance, State.updGang_updGang]
  rfl

/-- The PC-group of the gang that waited goes on. -/
def Gang.unblocked (g : Gang) : Gang := { g with flow := { g.flow with blocks := mapDrop g.flow.served g.flow.blocks } }

theorem evwait_runs (hi : s.issues (fixedOps [.sr 32 a]) = true) (hn : (s.sarg a).toNat < 256) (clear : Bool)
    (hset : (s.clusterAt s.gang.cluster).events.getLsbD (s.sarg a).toNat = true)
    (hfirst : clear = true → mapFind s.gang.flow.served s.gang.flow.blocks = some (.eventClear (s.sarg a).toNat) ∨
      s.clearWaiters s.gang.cluster s.cur (s.sarg a).toNat = []) :
    evwaitInstr clear a s = .next ((if clear then (s.observeEvent s.gang.core (s.sarg a).toNat).takeEvents s.gang.cluster
        (eventMask (s.sarg a).toNat) else s.observeEvent s.gang.core (s.sarg a).toNat).updGang Gang.unblocked).advance := by
  rw [evwaitInstr, eventInstr_runs hi hn]
  refine if_neg ?_
  rw [hset]
  cases clear with
  | false => simp
  | true =>
    rcases hfirst rfl with h | h
    · simp [h]
    · simp [h]

/-- evwait of a set bit only observes it. -/
theorem evwait_reads (hi : s.issues (fixedOps [.sr 32 a]) = true) (hn : (s.sarg a).toNat < 256)
    (hset : (s.clusterAt s.gang.cluster).events.getLsbD (s.sarg a).toNat = true) :
    ∃ t, exec (.evwait a) s = .next t ∧ s.past t ∧ t.gang.regs = s.gang.regs ∧ t.mem = s.mem ∧ t.clusters = s.clusters := by
  obtain ⟨hgangs, hclusters, hcur, hmem⟩ := observeEvent_leaves s s.gang.core (s.sarg a).toNat
  have hgang : (s.observeEvent s.gang.core (s.sarg a).toNat).gang = s.gang := by rw [State.gang, State.gangAt, hgangs, hcur]; rfl
  have htg : ((s.observeEvent s.gang.core (s.sarg a).toNat).updGang Gang.unblocked).advance.gang = s.gang.unblocked.advance := by
    rw [State.gang_advance, State.gang_updGang, hgang]
  exact ⟨_, evwait_runs hi hn false hset (by simp), past_advance_of htg rfl rfl rfl rfl,
    (congrArg Gang.regs htg :), hmem, hclusters⟩

theorem evwait_stalls (hi : s.issues (fixedOps [.sr 32 a]) = true) (hn : (s.sarg a).toNat < 256) (clear : Bool)
    (h : (s.clusterAt s.gang.cluster).events.getLsbD (s.sarg a).toNat = false ∨
      (clear = true ∧ mapFind s.gang.flow.served s.gang.flow.blocks ≠ some (.eventClear (s.sarg a).toNat) ∧
        s.clearWaiters s.gang.cluster s.cur (s.sarg a).toNat ≠ [])) :
    evwaitInstr clear a s = .next (s.stall (if clear then .eventClear (s.sarg a).toNat else .eventBit (s.sarg a).toNat)) := by
  rw [evwaitInstr, eventInstr_runs hi hn]
  refine if_pos ?_
  rcases h with h | ⟨rfl, hwait, hfirst⟩
  · simp [h]
  · simp [hwait, hfirst]

theorem gang_updGangAt_cur {u : State} {k : Nat} (h : u.cur = k) (f : Gang → Gang) : (u.updGangAt k f).gang = f u.gang := by
  subst h
  exact State.gang_updGang u f

/-- A pre-emption taken by the gang in focus: its PCs stay. -/
theorem takePreempt_gang (s : State) (mask : DWord) : ∃ g : Gang, g.flow = s.gang.flow ∧ (s.takePreempt s.cur mask).gang =
    { g.loseWatch with
      flow := { g.flow with blocks := g.flow.blocks.filter (fun b => !b.2.restarts) }
      trap := { g.trap with taken := true, tmask := mask } } := by
  have hform (u : State) (wid : Nat) (f : XForming) : (u.leaveFormation wid f).gang.flow = u.gang.flow := by
    show (State.gangAt (State.updGangAt _ _ _) _).flow = _
    rw [gangAt_updGangAt]
    split
    · next h => rw [State.gang, show u.cur = _ from h]; rfl
    · rfl
  unfold State.takePreempt
  dsimp only
  split
  · next f _ => exact ⟨_, hform ((s.leaveSeat s.cur).dropWatches s.cur) (s.gangAt s.cur).wid f, gang_updGangAt_cur rfl _⟩
  · exact ⟨_, rfl, gang_updGangAt_cur rfl _⟩

theorem mpt_taken (hi : s.issues (fixedOps [.sr 64 a]) = true) (hpre : s.gang.trap.preempt = true) (htaken : s.gang.trap.taken = false) :
    ∃ t, exec (.mpt a) s = .next t ∧ t.gang.trap.taken = true ∧ t.gang.trap.tmask = s.sarg64 a ∧
      t.gang.flow.pc = s.gang.flow.pc := by
  obtain ⟨g, hflow, hg⟩ := takePreempt_gang s (s.sarg64 a)
  refine ⟨s.takePreempt s.cur (s.sarg64 a), ?_, by rw [hg], by rw [hg], by rw [hg, ← hflow]⟩
  show execMpt a s = _
  rw [execMpt, guardOps_issues hi]
  simp only [hpre, htaken, Bool.not_false, Bool.and_true, if_true]

theorem mpt_idle (hi : s.issues (fixedOps [.sr 64 a]) = true) (hpre : s.gang.trap.preempt = false) :
    exec (.mpt a) s = .next s.advance := by
  show execMpt a s = _
  rw [execMpt, guardOps_issues hi]
  simp only [hpre, Bool.false_and, Bool.false_eq_true, if_false]

/-- evset: the bit, and the gangs that wait for it. -/
theorem evset_sets (hi : s.issues (fixedOps [.sr 32 a]) = true) (hn : (s.sarg a).toNat < 256)
    (hrep : s.gang.releaseReport 4 = none) (hw : s.gang.releaseWaits 4 = []) :
    let cl := s.gang.cluster
    let u := s.afterEvset (s.sarg a).toNat
    exec (.evset a) s = .next (u.settleEvents cl) ∧ s.past u ∧ u.gang.regs = s.gang.regs ∧
    (∀ i, i < 256 → (u.clusterAt cl).events.getLsbD i =
      (decide (i = (s.sarg a).toNat) || (s.clusterAt cl).events.getLsbD i)) ∧
    ((u.clusterAt cl).starters = [] → (u.waitedBits cl = [] → u.settleEvents cl = u) ∧
      ∀ k ∈ u.eventWaiters cl (.eventBit (s.sarg a).toNat), mapRising 0 (u.gangAt k).flow.blocks = true →
        (u.gangAt k).flow.blocks.length ≤ 8 →
        ∀ b ∈ ((u.settleEvents cl).gangAt k).flow.blocks, b.2 ≠ .eventBit (s.sarg a).toNat) := by
  intro cl u
  have hacc := accessed_afterEvset s
  refine ⟨exec_evset hi hn hrep hw, past_advance hacc.flow, hacc.regs_advance, fun i hib => events_afterEvset s _ hib,
    fun hstart => ⟨settleEvents_idle hstart, fun k hk hrise hlen b hb heq => ?_⟩⟩
  have hset : (u.clusterAt cl).events.getLsbD (s.sarg a).toNat = true := by
    rw [events_afterEvset s _ hn, decide_eq_true rfl, Bool.true_or]
  have hnone := blocksAt_settleEvents hset hstart hk hrise hlen
  exact List.countP_eq_zero.1 hnone b hb (decide_eq_true heq)

end

/-- Settles O46: the readers of a bit go on one PC-group a turn, and a rising list of blocks loses one each time. -/
theorem eventBits : Obligations.EventBits := by
  intro s a n cl bits none_starts cleared
  have hcl : cl = s.gang.cluster := rfl
  have hidx : n = (s.sarg a).toNat := rfl
  clear_value cl n
  subst hcl hidx
  refine ⟨fun hi => ⟨fun hn hrep hw => ?_, fun hn => ⟨_, evclr_runs hi hn, ?_⟩, fun hn hset => ?_,
    fun hn hset hfirst => ⟨_, evwait_runs hi hn true hset fun _ => hfirst, ?_⟩,
    fun hn hwait hfirst => ?_, fun hn hclear => ⟨evwait_stalls hi hn false (.inl hclear), evwait_stalls hi hn true (.inl hclear)⟩,
    fun hn i hmem => ?_⟩, fun hi => ⟨fun hpre => ⟨_, mpt_idle hi hpre, idleStep_advance s⟩, fun hpre htaken => mpt_taken hi hpre htaken⟩⟩
  · have h := evset_sets hi hn hrep hw
    unfold State.afterEvset at h
    exact h
  · exact cleared_takeEvents rfl rfl rfl (fun g => rfl) rfl hn
  · obtain ⟨t, ht, hpast, hregs, hmem, hclusters⟩ := evwait_reads hi hn hset
    exact ⟨t, ht, hpast, hregs, hmem, congrArg (fun cs => ((mapFind s.gang.cluster cs).getD Cluster.empty).events) hclusters⟩
  · obtain ⟨hgangs, hclusters, hcur, hmem⟩ := observeEvent_leaves s s.gang.core (s.sarg a).toNat
    have hgang : (s.observeEvent s.gang.core (s.sarg a).toNat).gang = s.gang := by rw [State.gang, State.gangAt, hgangs, hcur]; rfl
    exact cleared_takeEvents hgang hmem hclusters (fun g => rfl) rfl hn
  · cases hset : (bits s).getLsbD (s.sarg a).toNat with
    | false => exact evwait_stalls hi hn true (.inl hset)
    | true => exact evwait_stalls hi hn true (.inr ⟨rfl, hwait, hfirst⟩)
  · simp only [List.mem_cons, List.not_mem_nil, or_false] at hmem
    rcases hmem with rfl | rfl | rfl | rfl
    · exact (show execEvset a s = _ from eventInstr_misuse hi hn _)
    · exact (show execEvclr a s = _ from eventInstr_misuse hi hn _)
    · exact (show evwaitInstr false a s = _ from eventInstr_misuse hi hn _)
    · exact (show evwaitInstr true a s = _ from eventInstr_misuse hi hn _)

end Sys2Proof.Machine
end

section
/-! The steps of posted operations (14 R346, R348). -/

namespace Sys2Proof.Machine

/-- An mloop of tile `tile` with an empty block: it waits for no bit and places no scales. -/
def bareLoop (slot id tile : Nat) (started : Bool) : Mentry :=
  { slot := slot, id := id, wid := 0, gang := 0, pasid := 0, part := 0, op := 0xE2, sub := 0, block := [], handle := 0
    tile := tile, row := 0, half := 0, values := [], opc := 0, started := started, startAge := 0, step := 0, prow := 0
    parked := false, snap := none, occ := [], hdr := ([], []), panel := [], failed := none }

/-- A table in which two entries share slot 0: the start of the younger replaces the older, which held up slot 1. -/
def sharedSlot : State := { State.reset with
  clusters := [(0, { Cluster.empty with table := [bareLoop 0 5 1 false, bareLoop 0 1 0 true, bareLoop 1 2 0 false] })] }

/-- The mloop that is eligible starts alone, but its start lets the one of slot 1 start too. -/
theorem sharedSlot_starts : (sharedSlot.clusterAt 0).starters = [bareLoop 0 5 1 false] ∧ sharedSlot.waitedBits 0 = [] ∧
    (((sharedSlot.settleEvents 0).clusterAt 0).table.map (·.started)) = [true, true, true] ∧
    (((sharedSlot.startEntry 0 (bareLoop 0 5 1 false)).clusterAt 0).table.map (·.started)) = [true, true, false] := by
  decide +kernel

/-- The scale headers of the mloop pass: it has none. -/
theorem sharedSlot_fits : sharedSlot.headerSpoilt (bareLoop 0 5 1 false) 0 = false ∧
    sharedSlot.headerSpoilt (bareLoop 0 5 1 false) 8 = false ∧
    headerFits ((sharedSlot.wgAt 0).sclTile ((bareLoop 0 5 1 false).num 0 8)) ((bareLoop 0 5 1 false).num 0 8)
      (bareLoop 0 5 1 false).kExtent (sharedSlot.scaleHeader (bareLoop 0 5 1 false) 0) = true ∧
    headerFits ((sharedSlot.wgAt 0).sclTile ((bareLoop 0 5 1 false).num 8 8)) ((bareLoop 0 5 1 false).num 8 8)
      (bareLoop 0 5 1 false).kExtent (sharedSlot.scaleHeader (bareLoop 0 5 1 false) 8) = true := by
  decide +kernel

/-- Refutes O48: that a single starter leaves nothing else to start is claimed without distinct slots. In `sharedSlot` the
start of the mloop takes the place of an entry that another one stands behind, and that other one starts too. -/
theorem not_thresherProgress : ¬ Obligations.ThresherProgress := by
  intro ⟨_, hevents⟩
  obtain ⟨_, hsingle, _⟩ := hevents sharedSlot 0 0 (bareLoop 0 5 1 false)
  obtain ⟨hstart, hwait, hboth, hone⟩ := sharedSlot_starts
  have h := hsingle hstart hwait sharedSlot_fits
  rw [h, hone] at hboth
  exact absurd hboth (by decide)

end Sys2Proof.Machine
end

section
/-! The messages of invocations and cells as they arrive, and the count of a cell (15 R369, R372, R375 to R381, R383). -/

namespace Sys2Proof.Machine

/-! ### Slots and cells -/

theorem State.slotAt_updSlot_other (s : State) {k j : Nat} (h : j ≠ k) (f : HSlot → HSlot) : (s.updSlot k f).slotAt j = s.slotAt j :=
  congrArg (·.getD HSlot.free) (mapFind_put_other h _ _)

theorem State.cellAt_setCell_other (s : State) {k j : Nat} (h : j ≠ k) (c : TCell) : (s.setCell k c).cellAt j = s.cellAt j :=
  congrArg (·.getD TCell.zero) (mapFind_put_other h _ _)

theorem cells_writeHome (s : State) (a n : Nat) (f : Nat → Byte) : (s.writeHome a n f).cells = s.cells := by
  have h := congrArg State.cells (signalled_fireRange (s.putBytes a n f) a n).eq
  exact h

theorem cells_notice (s : State) (part reason what pend counter : Nat) : (s.notice part reason what pend counter).cells = s.cells := by
  unfold State.notice
  dsimp only
  split
  · rfl
  · exact cells_writeHome _ _ _ _

theorem cellAt_cellOvf (s : State) (k reason : Nat) :
    (s.cellOvf k reason).cellAt k = { s.cellAt k with flags := (s.cellAt k).flags ||| 8 } := by
  unfold State.cellOvf
  dsimp only
  split
  · rw [State.cellAt, cells_notice]
    exact State.cellAt_setCell s k _
  · exact State.cellAt_setCell s k _

/-! ### The count of a cell -/

theorem bit_eq_testBit (x i : Nat) : bit x i = x.testBit i := Nat.testBit_eq_decide_div_mod_eq.symm

/-- A cell that is not due does not fire. -/
theorem fireLoop_quiet {k : Nat} {s : State} (h : bit (s.cellAt k).flags.toNat 0 = false ∨ (s.cellAt k).counter < (s.cellAt k).threshold)
    (n : Nat) : State.fireLoop k n s = s := by
  cases n with
  | zero => rfl
  | succ n =>
    refine if_neg ?_
    rcases h with h | h
    · simp [h]
    · simp [Nat.not_le.2 h]

theorem raiseCell_counts {s : State} {k n : Nat} (hlt : (s.cellAt k).counter + n < (s.cellAt k).threshold)
    (hthr : (s.cellAt k).threshold < 2 ^ 32) :
    s.raiseCell k n = s.setCell k { s.cellAt k with counter := (s.cellAt k).counter + n } := by
  have hmin : min ((s.cellAt k).counter + n) (2 ^ 32 - 1) = (s.cellAt k).counter + n := by omega
  have hno : ¬ 2 ^ 32 ≤ (s.cellAt k).counter + n := by omega
  unfold State.raiseCell
  dsimp only
  rw [hmin, if_neg hno, fireLoop_quiet]
  rw [State.cellAt_setCell]
  exact .inr hlt

theorem raiseCell_saturates {s : State} {k n : Nat} (hge : 2 ^ 32 ≤ (s.cellAt k).counter + n)
    (hunarmed : bit (s.cellAt k).flags.toNat 0 = false) :
    (s.raiseCell k n).cellAt k =
      { s.cellAt k with counter := 2 ^ 32 - 1, flags := (s.cellAt k).flags ||| 8 } := by
  have hmin : min ((s.cellAt k).counter + n) (2 ^ 32 - 1) = 2 ^ 32 - 1 := by omega
  have hcell := cellAt_cellOvf (s.setCell k { s.cellAt k with counter := 2 ^ 32 - 1 }) k 0
  rw [State.cellAt_setCell] at hcell
  have hquiet : bit ((s.cellAt k).flags ||| 8).toNat 0 = false := by
    rw [bit_eq_testBit] at hunarmed ⊢
    rw [BitVec.toNat_or, Nat.testBit_or, hunarmed]
    decide
  unfold State.raiseCell
  dsimp only
  rw [hmin, if_pos hge, fireLoop_quiet, hcell]
  rw [hcell]
  exact .inl hquiet

theorem cellCounts : Sys2Proof.Claims.CellCounts := by
  refine fun s k n => ⟨fun hlt hthr => ?_, fun hge hunarmed => ?_⟩
  · rw [raiseCell_counts hlt hthr]
    exact ⟨State.cellAt_setCell s k _, fun j hj => State.cellAt_setCell_other s hj _⟩
  · rw [raiseCell_saturates hge hunarmed]
    refine ⟨rfl, ?_⟩
    rw [bit_eq_testBit, BitVec.toNat_or, Nat.testBit_or]
    exact Bool.or_eq_true_iff.2 (.inr (by decide))

/-! ### Messages -/

section
variable {s : State} {id : Nat} {m : Msg} (hm : s.msg id = some m)
include hm

theorem invocationArrival_runs (hk : m.kind = .invoke) (hd : m.dst = s.devid) (he : s.earlierInvocation m = false) :
    exec (.invocationArrival id) s = .next ((s.dropMsg id).acceptInvocation m) := by
  show execInvocationArrival id s = _
  unfold execInvocationArrival
  rw [hm]
  simp only [hk, hd, he, ne_eq, not_true_eq_false, decide_false, Bool.or_self, Bool.false_eq_true, if_false]

omit hm in
theorem acceptInvocation_disowned {s : State} (hadmits : s.cellAdmits m = true) (howner : (s.cellAt m.cell).owner ≠ some m.tpart) :
    s.acceptInvocation m = s.breakHandle m.handle 2 := by
  unfold State.acceptInvocation
  simp only [hadmits, howner, ne_eq, not_false_eq_true, decide_true, Bool.not_true, Bool.true_or, Bool.false_eq_true, if_false, if_true]

/-- A dependent message at the home of its upstream handle. -/
theorem dependentAtHome_runs (hk : m.kind = .dependent) (hd : m.dst = s.devid) (he : s.earlierInvocation m = false) :
    exec (.dependentMessageAtHome id) s =
      match s.known m.part m.dep with
      | none => .next ((s.dropMsg id).breakHandle m.handle 9)
      | some k =>
        if (s.slotAt k).state = 0 then
          (if 64 ≤ (s.slotAt k).waitlist.length then .next ((s.dropMsg id).breakHandle m.handle 8)
          else .next ((s.dropMsg id).updSlot k (fun x => { x with waitlist := x.waitlist ++ [m] })))
        else if (s.slotAt k).state = 3 then .next ((s.dropMsg id).breakHandle m.handle 7)
        else .next ((s.dropMsg id).forwardMsg (s.slotAt k) m) := by
  show execDependentMessageAtHome id s = _
  unfold execDependentMessageAtHome
  rw [hm]
  simp only [hk, hd, he, ne_eq, not_true_eq_false, decide_false, Bool.or_self, Bool.false_eq_true, if_false, reduceCtorEq] <;> rfl

theorem bindReport_runs {dev part rslot k : Nat} (hk : m.kind = .bindReport dev part rslot) (hd : m.dst = s.devid)
    (hcur : s.current m.handle = some k) (hstate : (s.slotAt k).state = 0) (hwait : (s.slotAt k).waitlist = []) :
    exec (.bindReport id) s = .next ((s.dropMsg id).updSlot k (fun _ =>
      { s.slotAt k with state := 1, dev := dev, epart := part, rslot := rslot, waitlist := [] })) := by
  show execBindReport id s = _
  unfold execBindReport
  rw [hm]
  dsimp only
  rw [hk]
  dsimp only
  rw [if_neg (not_not.2 hd), show (s.dropMsg id).current m.handle = some k from hcur]
  dsimp only
  rw [if_neg (not_not.2 (show ((s.dropMsg id).slotAt k).state = 0 from hstate)),
    show ((s.dropMsg id).slotAt k).waitlist = [] from hwait]
  rfl

theorem resultPosted_runs {bytes k : Nat} (hk : m.kind = .result bytes) (hd : m.dst = s.devid)
    (hcur : s.current m.handle = some k) (hstate : (s.slotAt k).state = 1) (hdrop : (s.slotAt k).dropped = false) :
    exec (.resultPosted id) s = .next (((s.dropMsg id).updSlot k (fun x =>
      { x with state := 2, bytes := bytes })).tellRecorded m.handle (s.slotAt k).dev) := by
  have hmay : s.mayPost m = true := by
    unfold State.mayPost
    rw [hcur]
    simp [hstate]
  show execResultPosted id s = _
  unfold execResultPosted
  rw [hm]
  dsimp only
  rw [hk]
  dsimp only
  rw [show (s.dropMsg id).current m.handle = some k from hcur]
  simp only [hd, hmay, ne_eq, not_true_eq_false, decide_false, Bool.not_true, Bool.or_self, Bool.false_eq_true, if_false]
  rw [if_neg (not_not.2 (show ((s.dropMsg id).slotAt k).state = 1 from hstate)),
    show ((s.dropMsg id).slotAt k).dropped = false from hdrop]
  rfl

theorem fabricTimeout_runs {k : Nat} (hk : m.kind = .invoke ∨ m.kind = .dependent ∨ m.kind = .forward) (hd : m.dst ≠ s.devid)
    (hcur : s.current m.handle = some k) (hacc : (s.slotAt k).accepted = false) :
    exec (.invocationFabricTimeout id) s = .next ((s.dropMsg id).breakHandle m.handle 10) := by
  show execInvocationFabricTimeout id s = _
  unfold execInvocationFabricTimeout
  rw [hm]
  dsimp only
  rw [hcur]
  refine if_pos ?_
  rcases hk with hk | hk | hk <;> simp [hk, hd, hacc]

theorem tcaddArrival_runs {cell inc tag : Nat} (hk : m.kind = .cellAdd cell inc tag) (hd : m.dst = s.devid)
    (htag : BitVec.ofNat 16 tag &&& (s.cellAt cell).tagm = (s.cellAt cell).tagv) :
    exec (.tcaddArrival id) s = .next (if (s.cellAt cell).owner.isNone || !(s.dropMsg id).cellAdmits m then
      ((s.dropMsg id).cellAlarm m 4).cellDrop m else (s.dropMsg id).raiseCell cell inc).closePackets := by
  show execTcaddArrival id s = _
  unfold execTcaddArrival
  rw [hm]
  dsimp only
  rw [if_neg (not_not.2 hd), hk]
  dsimp only
  rw [if_neg (not_not.2 (show BitVec.ofNat 16 tag &&& ((s.dropMsg id).cellAt cell).tagm = ((s.dropMsg id).cellAt cell).tagv from htag))]
  rfl

end

/-! ### Results -/

/-- The slots of handles stay when held messages are delivered, and no message of the handle stays held. -/
theorem deliverHeld_leaves (s : State) (h : DWord) :
    (s.deliverHeld h).handles = s.handles ∧ ∀ x ∈ (s.deliverHeld h).held, x.dep ≠ h := by
  have hhandles := foldl_keeps State.handles (F := fun (s : State) m => s.deliver m) (fun _ _ => rfl)
    (s.held.filter (fun m => decide (m.dep = h))) { s with held := s.held.filter (fun m => decide (m.dep ≠ h)) }
  have hheld := foldl_keeps State.held (F := fun (s : State) m => s.deliver m) (fun _ _ => rfl)
    (s.held.filter (fun m => decide (m.dep = h))) { s with held := s.held.filter (fun m => decide (m.dep ≠ h)) }
  refine ⟨hhandles, fun x hx => ?_⟩
  rw [State.deliverHeld, hheld] at hx
  exact of_decide_eq_true (List.mem_filter.1 hx).2

/-- The registers that take a result. -/
theorem v_putResult (g : Gang) (reg : Nat) (bs : List Byte) (r l : Nat) (hl : l < 32) :
    (g.putResult reg bs).v r l = if reg ≤ r ∧ r < reg + ceilDiv bs.length 128 then
      BitVec.ofNat 32 (ofBytesLE ((bs.drop (128 * (r - reg) + 4 * l)).take 4)) else g.v r l := by
  unfold Gang.putResult
  generalize ceilDiv bs.length 128 = n
  induction n with
  | zero => simp
  | succ n ih =>
    rw [List.range_succ, List.foldl_append, List.foldl_cons, List.foldl_nil, Gang.v_writeLanes _ _ _ _ _ _ hl, ih]
    by_cases hr : r = reg + n
    · subst hr
      simp
    · have hiff : (reg ≤ r ∧ r < reg + (n + 1)) ↔ (reg ≤ r ∧ r < reg + n) := by omega
      simp only [hr, false_and, if_false, hiff]

theorem gangs_acquireActs (s : State) (core sc : Nat) : (s.acquireActs core sc).gangs = s.gangs := by
  unfold State.acquireActs
  split <;> rfl

theorem v_endRget (s : State) (m : Msg) (r l : Nat) : ((s.endRget m).gangAt m.gang).v r l = (s.gangAt m.gang).v r l := by
  rw [State.endRget, gangAt_updGangAt, if_pos rfl]
  rfl

/-- An rget of this device whose result stands in a slot of this device. -/
theorem rgetArrival_runs {s : State} {id opid : Nat} {m : Msg} {x : HSlot} (hm : s.msg id = some m) (hk : m.kind = .rget opid)
    (hd : m.dst = s.devid) (hsrc : m.src = s.devid) (hdata : m.data = 0) (hlive : (s.gangAt m.gang).live = true)
    (hx : x = s.slotAt (hSlot m.handle)) (hst : s.handleStatus m.part m.handle = BitVec.ofNat 32 (1 + x.bytes * 2 ^ 16))
    (hdev : x.dev = s.devid) :
    exec (.rgetResultArrival id) s = .next ((((s.dropMsg id).observeResult (s.gangAt m.gang).core x.dev).updGangAt m.gang
      (fun g => g.putResult m.reg (s.readHomeList ((s.partAt x.epart).pool.1 + 4096 * x.rslot) x.bytes))).endRget m) := by
  have hnat : (s.handleStatus m.part m.handle).toNat % 256 = 1 := by
    rw [hst, BitVec.toNat_ofNat]; omega
  have hzero : (s.handleStatus m.part m.handle).toNat ≠ 0 := fun h => by rw [h] at hnat; cases hnat
  have hgo : (decide ((s.handleStatus m.part m.handle).toNat = 0) || decide (m.dst ≠ s.devid)) ≠ true := by simp [hzero, hd]
  show execRgetResultArrival id s = _
  unfold execRgetResultArrival
  rw [hm]
  dsimp only
  rw [hk]
  dsimp only
  rw [if_neg hgo, if_neg (not_not.2 (show m.src = (s.dropMsg id).devid from hsrc)), if_neg (not_not.2 hnat),
    show (s.dropMsg id).slotAt (hSlot m.handle) = x from hx.symm, if_pos (show x.dev = (s.dropMsg id).devid from hdev)]
  unfold State.endsRget
  dsimp only
  rw [show (s.dropMsg id).gangAt m.gang = s.gangAt m.gang from rfl, hlive, if_pos hnat, if_pos hdata]
  rfl

theorem remoteEvents : Sys2Proof.Claims.RemoteEvents := by
  intro s id m hm
  refine ⟨fun hk hd he => ⟨invocationArrival_runs hm hk hd he, fun hadmits howner => ?_⟩, fun hk hd he => ⟨fun hnone => ?_,
    fun k hknown => ⟨fun hstate hlen => ?_, fun hstate => ?_⟩⟩, fun dev part rslot k hk hd hcur hstate hwait => ?_,
    fun bytes k hk hd hcur hstate hdrop => ⟨fun hdev => ?_, fun hdev => ?_⟩,
    fun opid x hk hd hsrc hdata hlive hx hst hdev => ?_, fun k hk hd hcur hacc => fabricTimeout_runs hm hk hd hcur hacc,
    fun cell inc tag hk hd howner htag hadmits => ?_, fun cell inc tag hk hd htag hrefused => ?_, fun cell hpend hcopy => ?_⟩
  · rw [invocationArrival_runs hm hk hd he, acceptInvocation_disowned hadmits howner]
  · rw [dependentAtHome_runs hm hk hd he, hnone]
  · refine ⟨_, ?_, State.slotAt_updSlot (s.dropMsg id) k (fun x => { x with waitlist := x.waitlist ++ [m] })⟩
    rw [dependentAtHome_runs hm hk hd he, hknown]
    dsimp only
    rw [if_pos hstate, if_neg (Nat.not_le.2 hlen)]
  · rw [dependentAtHome_runs hm hk hd he, hknown]
    dsimp only
    rw [if_neg (by omega), if_pos hstate]
  · exact ⟨_, bindReport_runs hm hk hd hcur hstate hwait, State.slotAt_updSlot _ _ _⟩
  · have hrun := resultPosted_runs hm hk hd hcur hstate hdrop
    replace hrun := hrun.trans (congrArg Host.Outcome.next (if_pos hdev))
    obtain ⟨hhandles, hheld⟩ := deliverHeld_leaves ((((s.dropMsg id).updSlot k (fun x =>
      { x with state := 2, bytes := bytes }))).updExec m.handle (fun x => { x with settled := 3 })) m.handle
    refine ⟨_, hrun, ?_, hheld⟩
    rw [State.resultRecorded, State.slotAt, hhandles]
    exact State.slotAt_updSlot (s.dropMsg id) k (fun x => { x with state := 2, bytes := bytes })
  · have hrun := resultPosted_runs hm hk hd hcur hstate hdrop
    exact hrun.trans (congrArg Host.Outcome.next (if_neg hdev))
  · refine ⟨_, rgetArrival_runs hm hk hd hsrc hdata hlive hx hst hdev, fun r l hl => ?_⟩
    rw [v_endRget, gangAt_updGangAt, if_pos rfl, v_putResult _ _ _ _ _ hl, State.observeResult, State.gangAt, gangs_acquireActs]
    rfl
  · have hsome : ((s.cellAt cell).owner.isNone || !(s.dropMsg id).cellAdmits m) = false := by
      rw [hadmits, Option.isNone_eq_false_iff.2 howner]; rfl
    rw [tcaddArrival_runs hm hk hd htag, hsome]
    rfl
  · have hno : ((s.cellAt cell).owner.isNone || !(s.dropMsg id).cellAdmits m) = true := by
      rcases hrefused with h | h <;> simp [h]
    rw [tcaddArrival_runs hm hk hd htag, hno]
    rfl
  · refine ⟨_, (if_neg hpend).trans (congrArg Host.Outcome.next (if_pos hcopy)), ?_⟩
    rw [State.cellAt_setCell]

/-- Settles O51. -/
theorem remoteProgress : Obligations.RemoteProgress := ⟨remoteEvents, cellCounts⟩

end Sys2Proof.Machine
end

section
/-! The service side and the trigger cells (15 R374 to R377, R380 to R383). -/

namespace Sys2Proof.Machine

/-! ### Writes by an agent outside the cores -/

theorem agented_writePlaces (part cls pasid : Nat) (ps : List (Nat × Nat × Nat)) (s : State) :
    s.agented (State.writePlaces part cls pasid ps s).1 := by
  induction ps generalizing s with
  | nil => exact .refl s
  | cons p ps ih =>
    unfold State.writePlaces
    split
    · exact .refl s
    · split
      · exact .refl s
      · next t x hx =>
        have ht := agented_translateIo hx
        split
        · exact ht.trans (ih t)
        · exact ht.trans (ih t)
        · exact ht.trans (agented_refuseDirect t _ _ _ _ _)

theorem agented_writeRun (s : State) (op part cls pasid va : Nat) (bs : List Byte) :
    s.agented (s.writeRun op part cls pasid va bs).1 := by
  have hplaces := agented_writePlaces part cls pasid (runPieces va bs.length) s
  unfold State.writeRun
  split
  · next h => rw [h] at hplaces; exact hplaces
  · next t ps h =>
    rw [h] at hplaces
    refine hplaces.trans (State.agented.foldl (fun s p => ?_) ps t)
    split
    · exact agented_writeHome _ _ _ _
    · exact .of_signalled (signalled_send _ _)
    · exact .refl s

theorem agented_dirWrite (s : State) (part cls pasid va : Nat) (bs : List Byte) : s.agented (s.dirWrite part cls pasid va bs).1 :=
  agented_writeRun s _ part cls pasid va bs

/-! ### A quad of scalar registers -/

/-- The words of a quad in every issuing slice. -/
def Gang.putQuad (b : Code) (f : Nat → Nat) (g : Gang) : Gang :=
  (List.range 4).foldl (fun g i => g.writeSlices (b.toNat + i) g.issuing (fun _ => BitVec.ofNat 32 (f i))) g

theorem Gang.flow_putQuad (b : Code) (f : Nat → Nat) (g : Gang) : (g.putQuad b f).flow = g.flow := rfl

theorem Gang.s_putQuad {b : Code} (hb : b.toNat + 3 < 32) (f : Nat → Nat) (g : Gang) {k i : Nat} (hk : k < 8) (hi : i < 4)
    (hissue : g.issuing k = true) : (g.putQuad b f).s k (b.toNat + i) = BitVec.ofNat 32 (f i) := by
  have key (n : Nat) (hn : n ≤ 4) :
      let h := (List.range n).foldl (fun g i => g.writeSlices (b.toNat + i) g.issuing (fun _ => BitVec.ofNat 32 (f i))) g
      h.issuing k = true ∧ (i < n → h.s k (b.toNat + i) = BitVec.ofNat 32 (f i)) := by
    induction n with
    | zero => exact ⟨hissue, fun h => absurd h (Nat.not_lt_zero i)⟩
    | succ n ih =>
      obtain ⟨hissuing, hbelow⟩ := ih (by omega)
      rw [List.range_succ, List.foldl_append, List.foldl_cons, List.foldl_nil]
      refine ⟨hissuing, fun hin => ?_⟩
      rw [Gang.s_writeSlices _ _ (by omega) _ _ _ _ hk (by omega)]
      by_cases heq : i = n
      · rw [if_pos ⟨by omega, hissuing⟩, heq]
      · rw [if_neg (by omega)]
        exact hbelow (by omega)
  exact (key 4 (Nat.le_refl 4)).2 hi

/-- The halves of a 64-bit number, put together. -/
theorem toNat_append_fields {e : Nat} (he : e < 2 ^ 64) :
    (BitVec.ofNat 32 (field e 32 32) ++ BitVec.ofNat 32 (field e 0 32)).toNat = e := by
  rw [BitVec.toNat_append, BitVec.toNat_ofNat, BitVec.toNat_ofNat, ← Nat.shiftLeft_add_eq_or_of_lt (Nat.mod_lt _ (by omega)),
    Nat.shiftLeft_eq]
  unfold field
  omega

theorem append_fields (x : DWord) : BitVec.ofNat 32 (field x.toNat 32 32) ++ BitVec.ofNat 32 (field x.toNat 0 32) = x :=
  BitVec.eq_of_toNat_eq (toNat_append_fields x.isLt)

/-- A word that ends with a quad in the issuing slices, over a state that keeps the gang's flow. -/
theorem putQuad_step {s u : State} (hflow : u.gang.flow = s.gang.flow) {b : Code} (f : Nat → Nat) :
    ∃ t, finishWith u (Gang.putQuad b f) = .next t ∧ s.past t ∧ t.gang = (u.gang.putQuad b f).advance ∧
      t = { u with gangs := t.gangs } := by
  have hg : (u.updGang (fun g => (g.putQuad b f).advance)).gang = (u.gang.putQuad b f).advance := State.gang_updGang u _
  refine ⟨_, rfl, past_advance_of hg ?_ ?_ ?_ ?_, hg, rfl⟩
  · rw [Gang.flow_putQuad, hflow]
  · rw [Gang.flow_putQuad, hflow]
  · rw [Gang.flow_putQuad, hflow]
  · rw [Gang.flow_putQuad, hflow]

/-! ### rbind -/

/-- Entry `bind` of cell `k` is bound to the invocation `x`, its result in slot `n` of the partition. -/
def State.bindEntry (u : State) (part wid k n : Nat) (bind : Word) (x : Exec) : State :=
  ((u.setCell k { u.cellAt k with bind := bind }).updPart part (fun p => { p with poolUsed := n :: p.poolUsed })).updExec x.handle
    (fun y => { y with bound := some (wid, n) })

/-- The home of an invocation hears of its binding, and the core acquires. -/
def State.tellBound (u : State) (core part n : Nat) (x : Exec) : State :=
  let u := u.send { Msg.blank with kind := .bindReport u.devid part n, dst := x.home, handle := x.handle, part := part }
  u.acquireActs core (if x.home = u.devid then 4 else 5)

/-- The state in which an rbind answers that has bound an entry of cell `k`. -/
def State.afterBind (s : State) (k n : Nat) (x : Exec) : State :=
  let c := s.cellAt k
  ((s.dirWrite s.wg.part 4 c.pasid ((c.entryAt c.bind.toNat + 0x13) % 2 ^ 64) [2]).1.bindEntry s.wg.part s.gang.wid k n
    (c.bind + 1) x).tellBound s.gang.core s.wg.part n x

theorem parts_acquireActs (s : State) (core sc : Nat) : (s.acquireActs core sc).parts = s.parts := (accessed_acquireActs s core sc).parts

theorem cells_acquireActs (s : State) (core sc : Nat) : (s.acquireActs core sc).cells = s.cells := by
  rw [(accessed_acquireActs s core sc).eq]; rfl

theorem cells_send (s : State) (m : Msg) : (s.send m).cells = s.cells := by rw [(signalled_send s m).eq]

theorem parts_send (s : State) (m : Msg) : (s.send m).parts = s.parts := (accessed_send s m).parts

theorem flow_send (s : State) (m : Msg) : (s.send m).gang.flow = s.gang.flow := (accessed_send s m).flow

theorem State.agented.flow {s t : State} (h : s.agented t) : t.gang.flow = s.gang.flow := by
  rw [State.gang, h.cur, h.gang]; rfl

section
variable (s : State) (k n : Nat) (x : Exec)

omit s k in
theorem tellBound_leaves (d : State) (core part : Nat) : (d.tellBound core part n x).gang.flow = d.gang.flow ∧
    (d.tellBound core part n x).cells = d.cells ∧ (d.tellBound core part n x).parts = d.parts := by
  unfold State.tellBound
  dsimp only
  exact ⟨by rw [gang_acquireActs, flow_send], by rw [cells_acquireActs, cells_send], by rw [parts_acquireActs, parts_send]⟩

theorem afterBind_leaves : ∃ d : State, s.agented d ∧
    (s.afterBind k n x).gang.flow = d.gang.flow ∧
    (s.afterBind k n x).cells = (d.bindEntry s.wg.part s.gang.wid k n ((s.cellAt k).bind + 1) x).cells ∧
    (s.afterBind k n x).parts = (d.bindEntry s.wg.part s.gang.wid k n ((s.cellAt k).bind + 1) x).parts := by
  have hd := agented_dirWrite s s.wg.part 4 (s.cellAt k).pasid (((s.cellAt k).entryAt (s.cellAt k).bind.toNat + 0x13) % 2 ^ 64) [2]
  unfold State.afterBind
  dsimp only
  generalize (State.dirWrite s _ _ _ _ _).1 = d at hd ⊢
  exact ⟨d, hd, tellBound_leaves n x _ s.gang.core s.wg.part⟩

theorem flow_afterBind : (s.afterBind k n x).gang.flow = s.gang.flow := by
  obtain ⟨d, hd, hflow, _⟩ := afterBind_leaves s k n x
  exact hflow.trans hd.flow

theorem bind_afterBind : ((s.afterBind k n x).cellAt k).bind = (s.cellAt k).bind + 1 := by
  obtain ⟨d, _, _, hcells, _⟩ := afterBind_leaves s k n x
  rw [State.cellAt, hcells]
  exact congrArg TCell.bind (State.cellAt_setCell d k _)

theorem poolUsed_afterBind : n ∈ ((s.afterBind k n x).partAt s.wg.part).poolUsed := by
  obtain ⟨d, _, _, _, hparts⟩ := afterBind_leaves s k n x
  rw [State.partAt, hparts]
  refine (congrArg (fun p => n ∈ Part.poolUsed p) (State.partAt_updPart (d.setCell k
    { d.cellAt k with bind := (s.cellAt k).bind + 1 }) s.wg.part (fun p => { p with poolUsed := n :: p.poolUsed }))).mpr ?_
  exact List.mem_cons_self ..

end

section
variable {s : State} {a b : Code}

/-- The registers of the quad are four, from a multiple of four on. -/
theorem quad_of_issues (hi : s.issues (fixedOps [.so 32 a, .so 128 b]) = true) {k : Nat} (hk : s.gang.issuing k = true) :
    b.toNat + 3 < 32 := by
  have h := legal_of_issues hi hk (o := .so 128 b) (by simp)
  simp only [Opnd.legal, Bool.and_eq_true, decide_eq_true_eq] at h
  omega

/-- rbind of a service cell of the own partition. -/
theorem exec_rbind (hheld : s.gang.heldBy 64 = []) (hi : s.issues (fixedOps [.so 32 a, .so 128 b]) = true)
    (hcell : (s.sarg a).toNat < 16384) (howner : (s.cellAt (s.sarg a).toNat).owner = some s.wg.part)
    (hservice : bit (s.cellAt (s.sarg a).toNat).flags.toNat 2 = true) :
    exec (.rbind a b) s =
      let k := (s.sarg a).toNat
      let c := s.cellAt k
      if c.bind = c.tail then finishWith s (Gang.putQuad b (fun _ => 0))
      else
        match findBelow (fun i => !(s.partAt s.wg.part).poolUsed.contains i) (s.partAt s.wg.part).pool.2,
            s.execs.find? (fun x => decide (x.cell = k) && decide (x.idx = c.bind.toNat) && x.bound.isNone) with
        | some n, some x =>
          let e := c.entryAt c.bind.toNat
          finishWith (s.afterBind k n x) (Gang.putQuad b (fun i => if i < 2 then field x.handle.toNat (32 * i) 32 else field e (32 * (i - 2)) 32))
        | _, _ => finishWith s (Gang.putQuad b (fun i => if i = 2 then 1 else 0)) := by
  show execRbind a b s = _
  unfold execRbind
  rw [guardOps_issues hi, heldOr_free hheld]
  unfold cellArg
  dsimp only
  rw [if_neg (Nat.not_le.2 hcell)]
  dsimp only
  rw [howner, hservice]
  simp only [ne_eq, not_true_eq_false, decide_false, Bool.not_true, Bool.or_self, Bool.false_eq_true, if_false] <;> rfl

/-- An empty inbox answers zeros. -/
theorem rbind_empty (hheld : s.gang.heldBy 64 = []) (hi : s.issues (fixedOps [.so 32 a, .so 128 b]) = true)
    (hcell : (s.sarg a).toNat < 16384) (howner : (s.cellAt (s.sarg a).toNat).owner = some s.wg.part)
    (hservice : bit (s.cellAt (s.sarg a).toNat).flags.toNat 2 = true)
    (hempty : (s.cellAt (s.sarg a).toNat).bind = (s.cellAt (s.sarg a).toNat).tail) :
    ∃ t, exec (.rbind a b) s = .next t ∧ s.past t ∧ t.cells = s.cells ∧
      ∀ k i, k < 8 → i < 4 → s.gang.issuing k = true → t.gang.s k (b.toNat + i) = 0 := by
  obtain ⟨t, ht, hpast, hg, heq⟩ := putQuad_step (s := s) rfl (b := b) (fun _ => 0)
  refine ⟨t, ?_, hpast, by rw [heq], fun k i hk hi4 hissue => ?_⟩
  · rw [exec_rbind hheld hi hcell howner hservice, ← ht]
    exact if_pos hempty
  · rw [hg, Gang.s_advance, Gang.s_putQuad (quad_of_issues hi hissue) _ _ hk hi4 hissue]
    rfl

/-- An entry of the inbox is bound to the first free slot. -/
theorem rbind_binds (hheld : s.gang.heldBy 64 = []) (hi : s.issues (fixedOps [.so 32 a, .so 128 b]) = true)
    (hcell : (s.sarg a).toNat < 16384) (howner : (s.cellAt (s.sarg a).toNat).owner = some s.wg.part)
    (hservice : bit (s.cellAt (s.sarg a).toNat).flags.toNat 2 = true) {n : Nat} {x : Exec}
    (hentry : (s.cellAt (s.sarg a).toNat).bind ≠ (s.cellAt (s.sarg a).toNat).tail)
    (hfree : findBelow (fun i => !(s.partAt s.wg.part).poolUsed.contains i) (s.partAt s.wg.part).pool.2 = some n)
    (hx : s.execs.find? (fun x => decide (x.cell = (s.sarg a).toNat) &&
      decide (x.idx = (s.cellAt (s.sarg a).toNat).bind.toNat) && x.bound.isNone) = some x) :
    ∃ t, exec (.rbind a b) s = .next t ∧ s.past t ∧
      (t.cellAt (s.sarg a).toNat).bind = (s.cellAt (s.sarg a).toNat).bind + 1 ∧ n ∈ (t.partAt s.wg.part).poolUsed ∧
      ∀ k, k < 8 → s.gang.issuing k = true → t.gang.s k (b.toNat + 1) ++ t.gang.s k b.toNat = x.handle ∧
        (t.gang.s k (b.toNat + 3) ++ t.gang.s k (b.toNat + 2)).toNat =
          (s.cellAt (s.sarg a).toNat).entryAt (s.cellAt (s.sarg a).toNat).bind.toNat := by
  have hflow := flow_afterBind s (s.sarg a).toNat n x
  obtain ⟨t, ht, hpast, hg, heq⟩ := putQuad_step hflow (b := b) (fun i => if i < 2 then field x.handle.toNat (32 * i) 32
    else field ((s.cellAt (s.sarg a).toNat).entryAt (s.cellAt (s.sarg a).toNat).bind.toNat) (32 * (i - 2)) 32)
  refine ⟨t, ?_, hpast, ?_, ?_, fun k hk hissue => ?_⟩
  · rw [exec_rbind hheld hi hcell howner hservice, ← ht]
    dsimp only
    rw [if_neg hentry, hfree, hx]
  · rw [heq]; exact bind_afterBind s _ n x
  · rw [heq]; exact poolUsed_afterBind s _ n x
  · have hissue' := (Gang.issuing_congr (congrArg Flow.grp hflow) (congrArg Flow.served hflow)
      (congrArg Flow.exited hflow) k).trans hissue
    have hword (i : Nat) (hi4 : i < 4) := Gang.s_putQuad (quad_of_issues hi hissue) (fun i => if i < 2 then
      field x.handle.toNat (32 * i) 32 else field ((s.cellAt (s.sarg a).toNat).entryAt
        (s.cellAt (s.sarg a).toNat).bind.toNat) (32 * (i - 2)) 32) _ hk hi4 hissue'
    have hlt : (s.cellAt (s.sarg a).toNat).entryAt (s.cellAt (s.sarg a).toNat).bind.toNat < 2 ^ 64 := Nat.mod_lt _ (by omega)
    rw [hg]
    simp only [Gang.s_advance]
    have h0 := hword 0 (by omega)
    rw [Nat.add_zero] at h0
    rw [h0, hword 1 (by omega), hword 2 (by omega), hword 3 (by omega)]
    exact ⟨append_fields x.handle, toNat_append_fields hlt⟩

/-! ### rput and rfail -/

/-- The end of an invocation that the workgroup has bound. -/
theorem endInvocation_runs {h : DWord} {x : Exec} {u : State} (hbad : handleBad h = false) (hown : s.ownExec h = some x)
    (hset : x.settled = 0) (hrel : s.release 5 = .ok u) (body : Exec → State → Res) : endInvocation h body s = body x u := by
  unfold endInvocation
  rw [hbad, hown]
  dsimp only
  rw [if_neg (by decide), if_neg (by omega), withRelease_ok hrel]

theorem rput_ends {x : Exec} {u : State} (hheld : s.gang.heldBy 64 = []) (hi : s.issues (fixedOps [.so 64 a, .so 64 b]) = true)
    (hbad : handleBad (s.sarg64 a) = false) (hown : s.ownExec (s.sarg64 a) = some x) (hset : x.settled = 0) (hrel : s.release 5 = .ok u)
    (hrange : s.wg.rangeFault ((s.sarg64 b).toNat % 2 ^ 32) ((s.sarg64 b).toNat / 2 ^ 32) 1 0 = none)
    (hmax : (s.sarg64 b).toNat / 2 ^ 32 ≤ 4096) (hn : (s.sarg64 b).toNat / 2 ^ 32 % 4 = 0) (hloc : (s.sarg64 b).toNat % 2 ^ 32 % 4 = 0) :
    exec (.rput a b) s =
      let loc := (s.sarg64 b).toNat % 2 ^ 32
      let n := (s.sarg64 b).toNat / 2 ^ 32
      let bs := u.barnBlock loc n
      let v := ((u.writeWide u.gang.core ((u.partAt x.part).pool.1 + 4096 * (x.bound.map (·.2)).getD 0) n
        (fun i => bs.getD i 0)).updExec x.handle (fun y => { y with settled := 1, bytes := n })).finishEntry x
      .next (v.send { Msg.blank with kind := .result n, dst := x.home, handle := x.handle, part := x.part }).advance := by
  show execRput a b s = _
  unfold execRput
  rw [guardOps_issues hi, heldOr_free hheld]
  dsimp only
  rw [hrange]
  dsimp only
  rw [if_neg (by simp only [Bool.or_eq_true, decide_eq_true_eq]; omega), endInvocation_runs hbad hown hset hrel]

theorem rfail_ends {x : Exec} {u : State} (hheld : s.gang.heldBy 64 = []) (hi : s.issues (fixedOps [.so 64 a, .so 32 b]) = true)
    (hbad : handleBad (s.sarg64 a) = false) (hown : s.ownExec (s.sarg64 a) = some x) (hset : x.settled = 0) (hrel : s.release 5 = .ok u)
    (hlow : 64 ≤ (s.sarg b).toNat) (hhigh : (s.sarg b).toNat < 256) :
    exec (.rfail a b) s = .next (u.breakExec x (s.sarg b).toNat).advance := by
  show execRfail a b s = _
  unfold execRfail
  rw [guardOps_issues hi, heldOr_free hheld]
  dsimp only
  rw [if_neg (by simp [hlow, hhigh]), endInvocation_runs hbad hown hset hrel]

/-! ### tcarm and tcadd -/

/-- The cell that tcarm writes from its block (R382). -/
def cellOfBlock (blk : List Byte) (pasid part : Nat) : TCell :=
  { inbox := BitVec.ofNat 64 (blockNum blk 0 8), counter := blockNum blk 8 4, threshold := blockNum blk 0x0C 4
    packet := BitVec.ofNat 64 (blockNum blk 0x10 8), queue := blockNum blk 0x18 2
    tagm := BitVec.ofNat 16 (blockNum blk 0x1A 2), tagv := BitVec.ofNat 16 (blockNum blk 0x1C 2)
    flags := BitVec.ofNat 16 (blockNum blk 0x1E 2 % 8), pasid := pasid, owner := some part
    ilog := blockNum blk 0x25 1, pend := 0, tail := 0, bind := 0, head := 0, fin := [] }

/-- A cell armed below its threshold does not fire. -/
theorem armCell_quiet (s : State) (k : Nat) {blk : List Byte} (pasid part : Nat) (hquiet : blockNum blk 8 4 < blockNum blk 0x0C 4) :
    s.armCell k blk pasid part = s.setCell k (cellOfBlock blk pasid part) :=
  fireLoop_quiet (s := s.setCell k (cellOfBlock blk pasid part)) (.inr (by rw [State.cellAt_setCell]; exact hquiet)) _

theorem tcarm_arms (hheld : s.gang.heldBy 64 = []) (hi : s.issues (fixedOps [.so 32 a, .so 32 b]) = true)
    (hrange : s.wg.rangeFault (s.sarg b).toNat 64 1 0 = none) (hloc : (s.sarg b).toNat % 64 = 0) (hcell : (s.sarg a).toNat < 16384)
    (hblock : cellBlockOk (s.barnBlock (s.sarg b).toNat 64) = true) (harm : (s.cellAt (s.sarg a).toNat).armable s.wg.part = true)
    (hrep : s.gang.releaseReport 4 = none) (hwaits : s.gang.releaseWaits 4 = [])
    (hquiet : blockNum (s.barnBlock (s.sarg b).toNat 64) 8 4 < blockNum (s.barnBlock (s.sarg b).toNat 64) 0x0C 4) :
    ∃ t, exec (.tcarm a b) s = .next t ∧ s.past t ∧
      t.cellAt (s.sarg a).toNat = cellOfBlock (s.barnBlock (s.sarg b).toNat 64) s.wg.pasid s.wg.part ∧
      ∀ j, j ≠ (s.sarg a).toNat → t.cellAt j = s.cellAt j := by
  have hacc := accessed_releaseActs s s.gang.core 4
  refine ⟨((s.releaseActs s.gang.core 4).setCell (s.sarg a).toNat
    (cellOfBlock (s.barnBlock (s.sarg b).toNat 64) s.wg.pasid s.wg.part)).advance, ?_, past_advance hacc.flow,
    State.cellAt_setCell _ _ _, fun j hj => ?_⟩
  · show execTcarm a b s = _
    unfold execTcarm
    rw [guardOps_issues hi, heldOr_free hheld]
    dsimp only
    rw [hrange]
    dsimp only
    rw [if_neg (not_not.2 hloc)]
    unfold cellArg
    dsimp only
    rw [if_neg (Nat.not_le.2 hcell)]
    dsimp only
    rw [hblock, harm, withRelease_ok (release_device hrep hwaits), armCell_quiet _ _ _ _ hquiet]
    rfl
  · refine (State.cellAt_setCell_other (s.releaseActs s.gang.core 4) hj _).trans ?_
    rw [State.cellAt, hacc.eq]
    rfl

/-- A message sent by name: it is put on its way with a number of its own. -/
theorem msgs_send (s : State) (m : Msg) : ∃ id src gen link,
    (s.send m).msgs = s.msgs ++ [{ m with id := id, src := src, gen := gen, link := link }] := by
  obtain ⟨l, ks, h⟩ := send_eq s m
  exact ⟨_, _, _, _, congrArg State.msgs h⟩

theorem tcadd_sends {q : State} (hheld : s.gang.heldBy 64 = []) (hi : s.issues (fixedOps [.so 32 a, .so 32 b]) = true)
    (hdev : (s.sarg a).toNat / 2 ^ 14 < 2304) (hinc : (s.sarg b).toNat % 65536 ≠ 0)
    (howner : (s.sarg a).toNat / 2 ^ 14 = s.devid → (s.cellAt ((s.sarg a).toNat % 16384)).owner = some s.wg.part)
    (hrel : s.release (if (s.sarg a).toNat / 2 ^ 14 = s.devid then 4 else 5) = .ok q) :
    ∃ t m, exec (.tcadd a b) s = .next t ∧ s.past t ∧ t.msgs = q.msgs ++ [m] ∧ m.dst = (s.sarg a).toNat / 2 ^ 14 ∧
      m.kind = .cellAdd ((s.sarg a).toNat % 16384) ((s.sarg b).toNat % 65536) ((s.sarg b).toNat / 65536) := by
  obtain ⟨id, src, gen, link, hmsgs⟩ := msgs_send q { Msg.blank with
    kind := .cellAdd ((s.sarg a).toNat % 16384) ((s.sarg b).toNat % 65536) ((s.sarg b).toNat / 65536)
    dst := (s.sarg a).toNat / 2 ^ 14, part := s.wg.part, pasid := s.wg.pasid, cell := (s.sarg a).toNat % 16384, gang := q.cur }
  refine ⟨_, _, ?_, ((accessed_release_ok hrel).trans (accessed_send q _)).past_advance, hmsgs, rfl, rfl⟩
  have hown : ¬ (decide ((s.sarg a).toNat / 2 ^ 14 = s.devid) &&
      decide ((s.cellAt ((s.sarg a).toNat % 16384)).owner ≠ some s.wg.part)) = true := by
    simpa using howner
  show execTcadd a b s = _
  unfold execTcadd
  rw [guardOps_issues hi, heldOr_free hheld]
  dsimp only
  rw [if_neg (by simp only [Bool.or_eq_true, decide_eq_true_eq]; omega), if_neg hown, withRelease_ok hrel]

end

/-- Settles O50. -/
theorem serviceAndCells : Obligations.ServiceAndCells := by
  refine fun s a b hheld => ⟨fun hi hcell howner hservice => ⟨fun hempty => rbind_empty hheld hi hcell howner hservice hempty,
    fun n x hentry hfree hx => rbind_binds hheld hi hcell howner hservice hentry hfree hx⟩,
    fun x u hbad hown hset hrel => ⟨fun hi hrange hmax hn hloc => rput_ends hheld hi hbad hown hset hrel hrange hmax hn hloc,
      fun hi hlow hhigh => rfail_ends hheld hi hbad hown hset hrel hlow hhigh⟩,
    fun hi => ⟨fun hrange hloc hcell hblock harm hrep hwaits hquiet => ?_,
      fun hdev hinc howner q hrel => tcadd_sends hheld hi hdev hinc howner hrel⟩⟩
  obtain ⟨t, ht, hpast, hcellAt, hother⟩ := tcarm_arms hheld hi hrange hloc hcell hblock harm hrep hwaits hquiet
  exact ⟨t, ht, hpast, by rw [hcellAt]; rfl, by rw [hcellAt]; rfl, by rw [hcellAt]; rfl, by rw [hcellAt]; rfl,
    by rw [hcellAt]; rfl, hother⟩

end Sys2Proof.Machine
end

section
/-! Invocations, waiting, results and dropped handles (15 R362 to R373). -/

namespace Sys2Proof.Machine

/-! ### rinv and rinvh -/

/-- A new handle changes the slots and the partition that it is taken from. -/
theorem newHandle_leaves {s u : State} {part kind issuer opid : Nat} {h : DWord}
    (hnew : s.newHandle part kind issuer opid = some (h, u)) : u.msgs = s.msgs ∧ u.gangs = s.gangs ∧ u.cur = s.cur ∧ u.nextId = s.nextId := by
  unfold State.newHandle at hnew
  dsimp only at hnew
  split at hnew
  · cases hnew
  · obtain ⟨rfl, rfl⟩ := Prod.mk.inj (Option.some.inj hnew)
    exact ⟨rfl, rfl, rfl, rfl⟩

/-- The message of an invocation with handle `h` (R368, R369). -/
def State.invocationMsg (s : State) (dep : Bool) (loc dst : Nat) (up h : DWord) : Msg :=
  { Msg.blank with
    kind := if dep then .dependent else .invoke
    dst := dst, part := s.wg.part, tpart := blockNum (s.barnBlock loc 64) 2 1, pasid := s.wg.pasid
    cell := blockNum (s.barnBlock loc 64) 4 2, handle := h, dep := up, gang := s.cur
    block := s.barnBlock loc 64 ++ s.barnBlock (loc + 64) (blockNum (s.barnBlock loc 64) 6 2) }

/-- The gang that has sent an invocation under the number `id`. -/
def Gang.invoking (b : Code) (id : Nat) (h : DWord) (g : Gang) : Gang := (g.raise 5 id false).putS64 b g.issuing (fun _ => h)

theorem Gang.flow_invoking (b : Code) (id : Nat) (h : DWord) (g : Gang) : (g.invoking b id h).flow = g.flow :=
  Gang.flow_putS64 _ _ _ _

theorem Gang.counter_invoking (b : Code) (id : Nat) (h : DWord) (g : Gang) : (g.invoking b id h).counter 5 = g.counter 5 + 1 := by
  rw [← Gang.counter_raise g 5 id false]
  unfold Gang.invoking Gang.putS64
  split <;> rfl

section
variable {s : State} {a b : Code} {dep : Bool}

/-- The block, the counts and the upstream handle of an invocation follow the rules (R366, R367). -/
structure State.invocable (s : State) (a : Code) (dep : Bool) : Prop where
  held : s.gang.heldBy 32 = []
  late : s.gang.lateAccesses = []
  aligned : (s.sarg a).toNat % 64 = 0
  range : s.wg.rangeFault (s.sarg a).toNat 64 1 0 = none
  args : s.wg.rangeFault ((s.sarg a).toNat + 64) (blockNum (s.barnBlock (s.sarg a).toNat 64) 6 2) 1 0 = none
  block : invBlockOk dep (s.barnBlock (s.sarg a).toNat 64) = true
  upstream : dep = true → handleBad (BitVec.ofNat 64 (blockNum (s.barnBlock (s.sarg a).toNat 64) 0x18 8)) = false
  count : s.gang.counter 5 < 63

/-- The upstream handle that an invocation block names. -/
def State.upOf (s : State) (a : Code) : DWord := BitVec.ofNat 64 (blockNum (s.barnBlock (s.sarg a).toNat 64) 0x18 8)

/-- The device that an invocation goes to (R368, R369). -/
def State.invokesAt (s : State) (a : Code) (dep : Bool) : Nat :=
  if dep then (if hKind (s.upOf a) = 0 then s.devid else hDev (s.upOf a)) else blockNum (s.barnBlock (s.sarg a).toNat 64) 0 2

theorem exec_invocation (hi : s.issues (fixedOps [.so 32 a, .so 64 b]) = true) (h : s.invocable a dep) :
    exec (if dep then Instr.rinvh a b else .rinv a b) s =
      if (s.newHandle s.wg.part 1 0 0).isNone then sendInvocation dep b (s.sarg a).toNat (s.invokesAt a dep) (s.upOf a) s
      else withRelease s (if !dep && decide (s.invokesAt a dep = s.devid) then 4 else 5)
        (sendInvocation dep b (s.sarg a).toNat (s.invokesAt a dep) (s.upOf a)) := by
  obtain ⟨hheld, hlate, haligned, hrange, hargs, hblock, hup, hcount⟩ := h
  have hargs' : (if blockNum (s.barnBlock (s.sarg a).toNat 64) 6 2 ≤ 256 then
      s.wg.rangeFault ((s.sarg a).toNat + 64) (blockNum (s.barnBlock (s.sarg a).toNat 64) 6 2) 1 0 else none) = none := by
    split
    · exact hargs
    · rfl
  have hbad : ¬ (dep && handleBad (BitVec.ofNat 64 (blockNum (s.barnBlock (s.sarg a).toNat 64) 0x18 8))) = true := by
    cases dep with
    | false => simp
    | true => simp [hup rfl]
  have hinstr : exec (if dep then Instr.rinvh a b else .rinv a b) s = invoke dep a b s := by cases dep <;> rfl
  rw [hinstr]
  unfold invoke
  rw [guardOps_issues hi, engineOr_free hlate hheld]
  dsimp only
  rw [hrange]
  dsimp only
  rw [if_neg (not_not.2 haligned), hargs']
  dsimp only
  rw [if_neg (by simp [hblock]), if_neg hbad, if_neg (Nat.not_le.2 hcount)]
  rfl

/-- The pair that receives the handle. -/
theorem pair_of_issues (hi : s.issues (fixedOps [.so 32 a, .so 64 b]) = true) {k : Nat} (hk : s.gang.issuing k = true) :
    sDst64 b = true := by
  have h := legal_of_issues hi hk (o := .so 64 b) (by simp)
  simp only [Opnd.legal, Bool.and_eq_true, decide_eq_true_eq] at h
  simp [sDst64, h]

theorem invocation_null (hb : b ≠ 0xF0) (hi : s.issues (fixedOps [.so 32 a, .so 64 b]) = true) (h : s.invocable a dep)
    (hfull : s.newHandle s.wg.part 1 0 0 = none) (hnone : ∀ k, s.newHandle s.wg.part k s.cur s.nextId = none) :
    ∃ t, exec (if dep then Instr.rinvh a b else .rinv a b) s = .next t ∧ s.past t ∧ t.msgs = s.msgs ∧ t.handles = s.handles ∧
      ∀ k, k < 8 → s.gang.issuing k = true → t.gang.s k b.toNat = 0 ∧ t.gang.s k (b.toNat + 1) = 0 := by
  have hg : (s.updGang (fun g => (g.putS64 b g.issuing (fun _ => 0)).advance)).gang =
      (s.gang.putS64 b s.gang.issuing (fun _ => 0)).advance := State.gang_updGang s _
  refine ⟨_, ?_, past_updGang (f := fun g => g.putS64 b g.issuing (fun _ => 0)) (Gang.flow_putS64 _ _ _ _) hg, rfl, rfl,
    fun k hk hissue => ?_⟩
  · rw [exec_invocation hi h, hfull]
    show sendInvocation dep b _ _ _ s = _
    unfold sendInvocation
    dsimp only
    rw [hnone]
    rfl
  · obtain ⟨hlo, hhi⟩ := words_of_append (Gang.s_putS64 s.gang hb (pair_of_issues hi hissue) s.gang.issuing (fun _ => 0) hk hissue)
    rw [hg, Gang.s_advance, Gang.s_advance, hlo, hhi]
    exact ⟨rfl, rfl⟩

omit s a in
/-- An invocation with its handle: the message is on its way, the count is up, and the pair has the handle. -/
theorem sendInvocation_some {q u : State} {loc dst : Nat} {up hd : DWord}
    (hnew : q.newHandle q.wg.part (if dep then 2 else 1) q.cur q.nextId = some (hd, u)) :
    sendInvocation dep b loc dst up q = .next ((u.takeId.2.send (q.invocationMsg dep loc dst up hd)).updGang
      (fun g => (g.invoking b q.nextId hd).advance)) := by
  unfold sendInvocation
  dsimp only
  rw [hnew]
  rfl

theorem invocation_sends (hb : b ≠ 0xF0) (hi : s.issues (fixedOps [.so 32 a, .so 64 b]) = true) (h : s.invocable a dep)
    {q u : State} {hd : DWord} (hfree : (s.newHandle s.wg.part 1 0 0).isSome = true)
    (hrel : s.release (if dep = false ∧ s.invokesAt a dep = s.devid then 4 else 5) = .ok q)
    (hnew : q.newHandle s.wg.part (if dep then 2 else 1) s.cur q.nextId = some (hd, u)) :
    ∃ t m, exec (if dep then Instr.rinvh a b else .rinv a b) s = .next t ∧ s.past t ∧ t.msgs = q.msgs ++ [m] ∧ t.handles = u.handles ∧
      m.kind = (if dep then .dependent else .invoke) ∧ m.dst = s.invokesAt a dep ∧ m.handle = hd ∧ m.dep = s.upOf a ∧
      m.part = s.wg.part ∧ m.tpart = blockNum (q.barnBlock (s.sarg a).toNat 64) 2 1 ∧
      m.cell = blockNum (q.barnBlock (s.sarg a).toNat 64) 4 2 ∧ t.gang.counter 5 = s.gang.counter 5 + 1 ∧
      ∀ k, k < 8 → s.gang.issuing k = true → t.gang.s k (b.toNat + 1) ++ t.gang.s k b.toNat = hd := by
  have hacc := accessed_release_ok hrel
  obtain ⟨humsgs, hugangs, hucur, huid⟩ := newHandle_leaves hnew
  have hsgang : ∀ m, ∃ w, (u.takeId.2.send m).gang = { s.gang with watch := w } := fun m => by
    have hu : u.takeId.2.gang = q.gang := by
      show (mapFind u.cur u.gangs).getD _ = _
      rw [hugangs, hucur]; rfl
    exact ⟨_, by rw [(accessed_send u.takeId.2 m).focus, hu, hacc.focus]⟩
  have hrun : exec (if dep then Instr.rinvh a b else .rinv a b) s =
      .next ((u.takeId.2.send (q.invocationMsg dep (s.sarg a).toNat (s.invokesAt a dep) (s.upOf a) hd)).updGang
        (fun g => (g.invoking b q.nextId hd).advance)) := by
    have hsc : (if !dep && decide (s.invokesAt a dep = s.devid) then 4 else 5) =
        if dep = false ∧ s.invokesAt a dep = s.devid then 4 else 5 := by
      cases dep <;> simp
    have hisNone : (s.newHandle s.wg.part 1 0 0).isNone = false := Option.isNone_eq_false_iff.2 hfree
    rw [exec_invocation hi h, hisNone, hsc, withRelease_ok hrel, if_neg Bool.false_ne_true]
    exact sendInvocation_some (by rw [hacc.wg, hacc.cur]; exact hnew)
  have hpart : (q.invocationMsg dep (s.sarg a).toNat (s.invokesAt a dep) (s.upOf a) hd).part = s.wg.part := by
    rw [← hacc.wg]; rfl
  obtain ⟨m, hmdef⟩ : ∃ m, m = q.invocationMsg dep (s.sarg a).toNat (s.invokesAt a dep) (s.upOf a) hd := ⟨_, rfl⟩
  rw [← hmdef] at hrun hpart
  obtain ⟨w, hw⟩ := hsgang m
  obtain ⟨id, src, gen, link, hmsgs⟩ := msgs_send u.takeId.2 m
  have hg : ((u.takeId.2.send m).updGang (fun g => (g.invoking b q.nextId hd).advance)).gang =
      ({ s.gang with watch := w }.invoking b q.nextId hd).advance := by
    rw [State.gang_updGang, hw]
  refine ⟨_, { m with id := id, src := src, gen := gen, link := link }, hrun, past_advance_of hg ?_ ?_ ?_ ?_, ?_, ?_, ?_, ?_, ?_, ?_,
    hpart, ?_, ?_, ?_, fun k hk hissue => ?_⟩
  · rw [Gang.flow_invoking]
  · rw [Gang.flow_invoking]
  · rw [Gang.flow_invoking]
  · rw [Gang.flow_invoking]
  · refine hmsgs.trans ?_
    rw [show u.takeId.2.msgs = u.msgs from rfl, humsgs]
  · show (u.takeId.2.send m).handles = _
    rw [(accessed_send u.takeId.2 m).eq]; rfl
  · rw [hmdef]; rfl
  · rw [hmdef]; rfl
  · rw [hmdef]; rfl
  · rw [hmdef]; rfl
  · rw [hmdef]; rfl
  · rw [hmdef]; rfl
  · rw [hg]
    exact Gang.counter_invoking b q.nextId hd { s.gang with watch := w }
  · rw [hg]
    exact Gang.s_putS64 _ hb (pair_of_issues hi hissue) _ (fun _ => hd) hk hissue

end

theorem invocations : Sys2Proof.Claims.Invocations := by
  intro s a b dep hb _ i loc blk alen up dst sc hi hheld hlate haligned hrange hargs hblock hup hcount
  have h : s.invocable a dep := ⟨hheld, hlate, haligned, hrange, hargs, hblock, hup, hcount⟩
  exact ⟨fun hfull hnone => invocation_null hb hi h hfull hnone, fun q hd u hfree hrel hnew =>
    invocation_sends hb hi h hfree hrel hnew⟩

end Sys2Proof.Machine
end

section
/-! Waiting for results, taking them, and dropping handles (15 R371 to R373). -/

namespace Sys2Proof.Machine

section
variable {s : State} {d a b : Code}

/-! ### rwait and rpoll -/

/-- The step of a word that answers `v` in `d`: past it, with memory and the vector registers as before. -/
def State.answersIn (s : State) (d : Code) (t : State) (v : Word) : Prop :=
  s.past t ∧ t.mem = s.mem ∧ t.gang.regs.v = s.gang.regs.v ∧
    ∀ k i, k < 8 → i < 32 → t.gang.s k i = if d ≠ 0xF0 ∧ i = d.toNat ∧ s.gang.issuing k = true then v else s.gang.s k i

/-- The end of a status word: the acquire of a done result, and the answer (R371). -/
def State.statusStep (s : State) (d : Code) (h : DWord) (x : Nat) : State :=
  (if x % 256 = 1 then s.observeResult s.gang.core (x / 2 ^ 32) else s).updGang
    (fun g => ((g.usePoll h).putSAll d (BitVec.ofNat 32 x)).advance)

theorem observeResult_leaves (s : State) (core dev : Nat) :
    (s.observeResult core dev).gang = s.gang ∧ (s.observeResult core dev).mem = s.mem := by
  unfold State.observeResult
  refine ⟨gang_acquireActs s _ _, ?_⟩
  unfold State.acquireActs
  split <;> rfl

theorem answersIn_statusStep (hi : s.issues (fixedOps [.sw 32 d, .so 64 a]) = true) (h : DWord) (x : Nat) :
    s.answersIn d (s.statusStep d h x) (BitVec.ofNat 32 x) := by
  obtain ⟨u, hu, hgang, hmem⟩ : ∃ u : State, (if x % 256 = 1 then s.observeResult s.gang.core (x / 2 ^ 32) else s) = u ∧
      u.gang = s.gang ∧ u.mem = s.mem := by
    refine ⟨_, rfl, ?_⟩
    split
    · exact observeResult_leaves s _ _
    · exact ⟨rfl, rfl⟩
  have hg : (s.statusStep d h x).gang = ((s.gang.usePoll h).putSAll d (BitVec.ofNat 32 x)).advance := by
    rw [State.statusStep, hu, State.gang_updGang, hgang]
  have hput : (s.gang.usePoll h).putSAll d (BitVec.ofNat 32 x) = { s.gang.putSAll d (BitVec.ofNat 32 x) with
      polls := (s.gang.usePoll h).polls } := by
    unfold Gang.putSAll Gang.putS
    split <;> rfl
  refine ⟨past_updGang (f := fun g => (g.usePoll h).putSAll d (BitVec.ofNat 32 x)) (Gang.flow_putSAll _ _ _) hg, ?_, ?_, ?_⟩
  · rw [State.statusStep, hu]; exact hmem
  · rw [hg, hput]
    unfold Gang.putSAll Gang.putS
    split <;> rfl
  · intro k i hk hi'
    have hstep : s.scalarStep (s.updGang (fun g => (g.putS d s.gang.issuing (fun _ => BitVec.ofNat 32 x)).advance)) d
        (fun _ => BitVec.ofNat 32 x) := by
      by_cases hsome : ∃ k, s.gang.issuing k = true
      · obtain ⟨k, hk⟩ := hsome
        exact scalarStep_putS s d (legal_of_issues hi hk (List.mem_cons_self ..)) _
      · exact scalarStep_putS_none (by simpa using hsome) d _
    obtain ⟨hs, _⟩ := hstep
    have hsame := hs k i hk hi'
    rw [State.gang_updGang] at hsame
    rw [hg, hput]
    exact hsame

theorem exec_status (hi : s.issues (fixedOps [.sw 32 d, .so 64 a]) = true) (hheld : s.gang.heldBy 64 = [])
    (hbad : handleBad (s.sarg64 a) = false) (wait : Bool) : statusInstr wait d a s =
      if s.farHandle (s.sarg64 a) then
        match s.gang.poll (s.sarg64 a) 0 with
        | none => s.askHome (s.sarg64 a) 0
        | some x => if wait && decide (x % 2 ^ 32 = 0) then (s.updGang (fun g => g.usePoll (s.sarg64 a))).askHome (s.sarg64 a) 0
            else .next (s.statusStep d (s.sarg64 a) x)
      else if wait && decide (s.statusAnswer s.wg.part (s.sarg64 a) % 2 ^ 32 = 0) then stallOn (.handle (s.sarg64 a)) s
      else .next (s.statusStep d (s.sarg64 a) (s.statusAnswer s.wg.part (s.sarg64 a))) := by
  unfold statusInstr
  rw [guardOps_issues hi, heldOr_free hheld]
  dsimp only
  rw [if_neg (by simp [hbad])] <;> rfl

/-- The low word of a home's answer is the status. -/
theorem statusAnswer_low (s : State) (part : Nat) (h : DWord) : s.statusAnswer part h % 2 ^ 32 = (s.handleStatus part h).toNat := by
  unfold State.statusAnswer
  have := (s.handleStatus part h).isLt
  omega

theorem ofNat_statusAnswer (s : State) (part : Nat) (h : DWord) : BitVec.ofNat 32 (s.statusAnswer part h) = s.handleStatus part h :=
  BitVec.eq_of_toNat_eq (by rw [BitVec.toNat_ofNat, statusAnswer_low])

theorem answersIn_statusAnswer (hi : s.issues (fixedOps [.sw 32 d, .so 64 a]) = true) (h : DWord) :
    s.answersIn d (s.statusStep d h (s.statusAnswer s.wg.part h)) (s.handleStatus s.wg.part h) :=
  ofNat_statusAnswer s s.wg.part h ▸ answersIn_statusStep hi h (s.statusAnswer s.wg.part h)

/-! ### rget -/

/-- The gang with an rget outstanding under `id` for a list of registers. -/
def Gang.awaiting (id : Nat) (regs : List Nat) (g : Gang) : Gang :=
  { g.raise 5 id false with pend := g.pend ++ regs.map (fun r => { id := id, reg := r, lanes := 0xFFFFFFFF }) }


/-- A request for a result is posted (R372). -/
theorem postRget_posts {h : DWord} {barn : Bool} {dest : Nat} {regs : List Nat} (hcount : s.gang.counter 5 < 63) :
    ∃ t, s.postRget h barn dest regs = .next t ∧ (s.past t ∧ t.gang.regs = s.gang.regs ∧ t.mem = s.mem ∧
      t.gang.counter 5 = s.gang.counter 5 + 1 ∧ ∃ m, t.msgs = s.msgs ++ [m] ∧ m.kind = .rget s.nextId ∧
      m.handle = h ∧ m.dst = (if s.farHandle h then hDev h else s.devid) ∧ m.gang = s.cur ∧ m.reg = dest ∧ m.data = toNat01 barn) ∧
      ∃ id, t.gang.pend = s.gang.pend ++ regs.map (fun r => { id := id, reg := r, lanes := 0xFFFFFFFF }) := by
  obtain ⟨m, hm⟩ : ∃ m : Msg, m = { Msg.blank with
      kind := .rget s.nextId, dst := if s.farHandle h then hDev h else s.devid, part := s.wg.part, pasid := s.wg.pasid, handle := h
      gang := s.cur, opid := s.nextId, reg := dest, data := toNat01 barn, addr := s.ir.toNat, opc := s.gang.pcNow.setWidth 64 } :=
    ⟨_, rfl⟩
  have hsent := signalled_send s.takeId.2 m
  have hfocus : (s.takeId.2.send m).gang = { s.gang with watch := (s.takeId.2.send m).gang.watch } :=
    ((accessed_takeId s).trans (accessed_send s.takeId.2 m)).focus
  obtain ⟨id, src, gen, link, hmsgs⟩ := msgs_send s.takeId.2 m
  have hrun : s.postRget h barn dest regs = .next ((s.takeId.2.send m).updGang
      (fun g => (g.awaiting s.nextId regs).advance)) := by
    unfold State.postRget
    dsimp only
    rw [if_neg (Nat.not_le.2 hcount), hm]
    rfl
  have hg := State.gang_updGang (s.takeId.2.send m) (fun g => (g.awaiting s.nextId regs).advance)
  rw [hfocus] at hg
  refine ⟨_, hrun, ⟨past_of_flow (by rw [hg]; rfl), by rw [hg]; rfl, hsent.mem, ?_, _, hmsgs, ?_⟩, s.nextId, by rw [hg]; rfl⟩
  · rw [hg]
    exact Gang.counter_raise s.gang 5 s.nextId false
  · rw [hm]
    exact ⟨rfl, rfl, rfl, rfl, rfl, rfl⟩

theorem rget_posts (hi : s.issues (fixedOps [.so 64 a, .vg 32 1 false true false b]) = true) (hheld : s.gang.heldBy 32 = [])
    (hbad : handleBad (s.sarg64 a) = false) :
    exec (.rget a b) s = s.postRget (s.sarg64 a) false b.toNat ((List.range 32).map (b.toNat + ·)) := by
  show execRget a b s = _
  unfold execRget
  rw [guardOps_issues hi, heldOr_free hheld, hbad, if_neg Bool.false_ne_true]

theorem rgetBarn_posts (hi : s.issues (fixedOps [.so 64 a, .so 32 b]) = true) (hheld : s.gang.heldBy 32 = [])
    (hlate : s.gang.lateAccesses = []) (hloc : (s.sarg b).toNat % 4 = 0) (hbad : handleBad (s.sarg64 a) = false) :
    exec (.rgetBarn a b) s = s.postRget (s.sarg64 a) true (s.sarg b).toNat [] := by
  show execRgetBarn a b s = _
  unfold execRgetBarn
  rw [guardOps_issues hi, engineOr_free hlate hheld]
  dsimp only
  rw [if_neg (not_not.2 hloc), hbad, if_neg Bool.false_ne_true]

/-! ### rdrop -/

theorem exec_rdrop (hi : s.issues (fixedOps [.so 64 a]) = true) (hheld : s.gang.heldBy 64 = []) (hbad : handleBad (s.sarg64 a) = false) :
    exec (.rdrop a) s =
      if s.farHandle (s.sarg64 a) then
        match s.gang.poll (s.sarg64 a) 1 with
        | none => s.askHome (s.sarg64 a) 1
        | some _ => finishWith s (fun g => g.usePoll (s.sarg64 a))
      else .next (s.dropHandle s.wg.part (s.sarg64 a)).advance := by
  show execRdrop a s = _
  unfold execRdrop
  rw [guardOps_issues hi, heldOr_free hheld]
  dsimp only
  rw [hbad, if_neg Bool.false_ne_true] <;> rfl

/-- A handle that its home knows is a handle of this device. -/
theorem farHandle_of_known {part k : Nat} {h : DWord} (hk : s.known part h = some k) : s.farHandle h = false := by
  have hcur : (s.current h).isSome = true := by
    cases hc : s.current h with
    | none => simp [State.known, hc] at hk
    | some j => rfl
  unfold State.current at hcur
  dsimp only at hcur
  split at hcur
  · next hand =>
    simp only [Bool.and_eq_true, decide_eq_true_eq] at hand
    obtain ⟨⟨⟨hdev, _⟩, _⟩, _⟩ := hand
    simp [State.farHandle, hdev]
  · cases hcur

/-- The slot of a dropped handle that is done is free, and no other slot has changed. -/
theorem freeHandle_leaves (s : State) (k : Nat) (h : DWord) :
    (s.freeHandle k h).handles = (s.updSlot k (fun x => { x with used := false, waitlist := [] })).handles ∧
      (s.freeHandle k h).gang.flow = s.gang.flow := by
  unfold State.freeHandle
  dsimp only
  split
  · unfold State.freeResult
    split
    · exact ⟨rfl, rfl⟩
    · dsimp only
      split
      · split
        · exact ⟨rfl, rfl⟩
        · exact ⟨rfl, rfl⟩
      · exact ⟨rfl, rfl⟩
  · rw [flow_send, (signalled_send _ _).eq]
    exact ⟨rfl, rfl⟩

theorem dropHandle_running {part k : Nat} {h : DWord} (hk : s.known part h = some k) (hrun : (s.slotAt k).state < 2) :
    s.dropHandle part h = s.updSlot k (fun x => { x with dropped := true }) := by
  unfold State.dropHandle
  rw [hk]
  exact if_neg (Nat.not_le.2 hrun)

theorem dropHandle_done {part k : Nat} {h : DWord} (hk : s.known part h = some k) (hdone : 2 ≤ (s.slotAt k).state) :
    s.dropHandle part h = s.freeHandle k h := by
  unfold State.dropHandle
  rw [hk]
  exact if_pos hdone

end

theorem resultsAndHandles : Sys2Proof.Claims.ResultsAndHandles := by
  refine fun s d a b => ⟨fun hi hheld hbad => ⟨fun hnear => ⟨?_, fun hst => ?_, fun hst => ?_⟩, fun hfar => ⟨fun hnone => ⟨?_, ?_⟩,
    fun x hx => ⟨?_, fun hne => ?_, fun hzero => ?_⟩⟩⟩, fun hheld hbad hcount => ⟨fun hi => ?_, fun hi hlate hloc => ?_⟩,
    fun hi hheld hbad => ⟨fun k hk hrun => ?_, fun k hk hdone => ?_, fun hnear hnone => ?_, fun hfar hpoll => ?_, fun hfar hpoll => ?_⟩⟩
  · refine ⟨_, (exec_status hi hheld hbad false).trans ?_, answersIn_statusAnswer hi (s.sarg64 a)⟩
    rw [hnear, if_neg Bool.false_ne_true, Bool.false_and, if_neg Bool.false_ne_true]
  · have hne : ¬ s.statusAnswer s.wg.part (s.sarg64 a) % 2 ^ 32 = 0 := by
      rw [statusAnswer_low]
      exact fun h => hst (BitVec.eq_of_toNat_eq h)
    refine ⟨_, (exec_status hi hheld hbad true).trans ?_, answersIn_statusAnswer hi (s.sarg64 a)⟩
    rw [hnear, if_neg Bool.false_ne_true, decide_eq_false hne, Bool.and_false, if_neg Bool.false_ne_true]
  · have heq : s.statusAnswer s.wg.part (s.sarg64 a) % 2 ^ 32 = 0 := by
      rw [statusAnswer_low]
      exact congrArg BitVec.toNat hst
    refine (exec_status hi hheld hbad true).trans ?_
    rw [hnear, if_neg Bool.false_ne_true, decide_eq_true heq]
    rfl
  · refine (exec_status hi hheld hbad false).trans ?_
    rw [hfar, if_pos rfl, hnone]
  · refine (exec_status hi hheld hbad true).trans ?_
    rw [hfar, if_pos rfl, hnone]
  · refine ⟨_, (exec_status hi hheld hbad false).trans ?_, answersIn_statusStep hi (s.sarg64 a) x⟩
    rw [hfar, if_pos rfl, hx]
    exact if_neg (by simp)
  · refine ⟨_, (exec_status hi hheld hbad true).trans ?_, answersIn_statusStep hi (s.sarg64 a) x⟩
    rw [hfar, if_pos rfl, hx]
    exact if_neg (by rw [decide_eq_false hne]; simp)
  · refine (exec_status hi hheld hbad true).trans ?_
    rw [hfar, if_pos rfl, hx]
    exact if_pos (by rw [decide_eq_true hzero]; rfl)
  · obtain ⟨t, ht, hposted, id, hpend⟩ := postRget_posts (s := s) (h := s.sarg64 a) (barn := false) (dest := b.toNat)
      (regs := (List.range 32).map (b.toNat + ·)) hcount
    refine ⟨t, (rget_posts hi hheld hbad).trans ht, hposted, fun r hlow hhigh => ?_⟩
    refine ⟨{ id := id, reg := r, lanes := 0xFFFFFFFF }, ?_, rfl, rfl⟩
    rw [hpend]
    refine List.mem_append_right _ (List.mem_map.2 ⟨r, List.mem_map.2 ⟨r - b.toNat, List.mem_range.2 (by omega), by omega⟩, rfl⟩)
  · obtain ⟨t, ht, hposted, id, hpend⟩ := postRget_posts (s := s) (h := s.sarg64 a) (barn := true) (dest := (s.sarg b).toNat)
      (regs := []) hcount
    exact ⟨t, (rgetBarn_posts hi hheld hlate hloc hbad).trans ht, hposted, hpend.trans (List.append_nil _)⟩
  · obtain ⟨_, hknown⟩ := hk
    refine ⟨_, ?_, past_advance (t := s.updSlot k (fun x => { x with dropped := true })) rfl,
      State.slotAt_updSlot s k (fun x => { x with dropped := true }),
      fun j hj => State.slotAt_updSlot_other s hj (fun x => { x with dropped := true })⟩
    rw [exec_rdrop hi hheld hbad, farHandle_of_known hknown, if_neg Bool.false_ne_true, dropHandle_running hknown hrun]
  · obtain ⟨_, hknown⟩ := hk
    obtain ⟨hhandles, hflow⟩ := freeHandle_leaves s k (s.sarg64 a)
    have hslot (j : Nat) : (s.freeHandle k (s.sarg64 a)).advance.slotAt j =
        (s.updSlot k (fun x => { x with used := false, waitlist := [] })).slotAt j := by
      show (mapFind j (s.freeHandle k (s.sarg64 a)).handles).getD _ = _
      rw [hhandles]; rfl
    refine ⟨_, ?_, past_advance hflow, ?_, fun j hj => ?_⟩
    · rw [exec_rdrop hi hheld hbad, farHandle_of_known hknown, if_neg Bool.false_ne_true, dropHandle_done hknown hdone]
    · rw [hslot, State.slotAt_updSlot]
    · rw [hslot, State.slotAt_updSlot_other s hj]
  · refine ⟨_, ?_, idleStep_advance s⟩
    rw [exec_rdrop hi hheld hbad, hnear, if_neg Bool.false_ne_true, State.dropHandle, hnone]
  · rw [exec_rdrop hi hheld hbad, hfar, if_pos rfl, hpoll]
  · obtain ⟨x, hx⟩ := Option.ne_none_iff_exists'.1 hpoll
    refine ⟨s.updGang (fun g => (g.usePoll (s.sarg64 a)).advance), ?_, past_updGang (f := fun g => g.usePoll (s.sarg64 a)) rfl
      (State.gang_updGang s _), rfl⟩
    rw [exec_rdrop hi hheld hbad, hfar, if_pos rfl, hx]
    rfl

/-- Settles O49. -/
theorem handlesAndInvocations : Obligations.HandlesAndInvocations := ⟨invocations, resultsAndHandles⟩

end Sys2Proof.Machine
end

section
/-! ## Events of gangs, and of the seats they hold (03 R77 to R93, 04 R101 to R114) -/

namespace Sys2Proof.Machine

theorem State.seatAt_updSeat (s : State) (core lg : Nat) (f : Seat → Seat) :
    (s.updSeat core lg f).seatAt core lg = f (s.seatAt core lg) := by
  unfold State.updSeat State.seatAt
  rw [State.coreAt_updCore]
  dsimp only [mapGet]
  rw [mapFind_put_same]
  rfl

theorem State.seatOf_eq_some {s : State} {key : Nat} {x : Seat} (h : s.seatOf key = some x) :
    x = s.seatAt (s.gangAt key).core (s.gangAt key).lg := by
  unfold State.seatOf at h
  dsimp only at h
  split at h
  · exact (Option.some.inj h).symm
  · cases h

theorem mem_breakExpand (s : State) (key : Nat) : (s.breakExpand key).mem = s.mem := by
  unfold State.breakExpand
  dsimp only
  split
  · rfl
  split
  · exact foldl_keeps State.mem (fun u m => by split <;> rfl) _ _
  · rfl

theorem mem_endGang (s : State) (key : Nat) : (s.endGang key).mem = s.mem := mem_breakExpand s key

theorem live_endGang (s : State) (key : Nat) : ((s.endGang key).gangAt key).live = false := by
  unfold State.endGang
  dsimp only
  rw [State.gangAt_setGangAt]

/-! ### Growth -/

/-- A gang whose group goes on past its regrow keeps its allocation and its registers as the answer left them. -/
theorem Gang.finishBlock_regrow {g : Gang} {d : Code} {n since : Nat} (h : g.regrowBlock = some (d, n, since)) (ok : Bool) :
    ∃ u : Gang, u.alloc = g.alloc ∧
      (g.finishBlock (.regrow d n since) fun h => h.regrown d n ok).alloc = (u.regrown d n ok).alloc ∧
      (g.finishBlock (.regrow d n since) fun h => h.regrown d n ok).regs = (u.regrown d n ok).regs := by
  obtain ⟨e, he, hb⟩ := List.exists_of_findSome?_eq_some h
  have hblock : e.2 = .regrow d n since := by
    split at hb
    · next d' n' since' hd =>
      cases Option.some.inj hb
      exact hd
    · cases hb
  unfold Gang.finishBlock
  split
  · next hnone => exact absurd (decide_eq_true hblock) (List.find?_eq_none.mp hnone e he)
  · next k b hfind => exact ⟨{ g with flow := { g.flow with served := k, blocks := mapDrop k g.flow.blocks } }, rfl, rfl, rfl⟩

theorem Gang.alloc_regrown (g : Gang) (d : Code) (n : Nat) (ok : Bool) :
    (g.regrown d n ok).alloc = if ok then g.alloc + n else g.alloc := by
  cases ok
  · rw [Gang.regrown_refused]; rfl
  · rw [Gang.regrown_granted]; rfl

theorem State.gangAt_fitRows (s : State) (key : Nat) :
    ∃ rows, (s.fitRows key).gangAt key = { s.gangAt key with rows := rows } :=
  ⟨_, (gangAt_updGangAt ..).trans (if_pos rfl)⟩

theorem State.endRegrow_answers {s : State} {key : Nat} {d : Code} {n since : Nat}
    (h : (s.gangAt key).regrowBlock = some (d, n, since)) (ok : Bool) :
    ((s.endRegrow key ok).gangAt key).alloc = (if ok then (s.gangAt key).alloc + n else (s.gangAt key).alloc) ∧
    (d ≠ 0xF0 → ∀ l, l < 32 → ((s.endRegrow key ok).gangAt key).p d.toNat l = ok) := by
  obtain ⟨u, hu, halloc, hregs⟩ := Gang.finishBlock_regrow h ok
  unfold State.endRegrow
  rw [h]
  dsimp only
  obtain ⟨rows, hg⟩ := State.gangAt_fitRows
    (s.updGangAt key fun g => g.finishBlock (.regrow d n since) fun h => h.regrown d n ok) key
  rw [hg, gangAt_updGangAt, if_pos rfl]
  refine ⟨halloc.trans ?_, fun hd l hl => ?_⟩
  · rw [Gang.alloc_regrown, hu]
  · refine Eq.trans ?_ (u.p_regrown hd n ok hl)
    unfold Gang.p
    exact congrArg (fun r : Regs => (mapGet 0 r.p d.toNat).getLsbD l) hregs

/-! ### Completions -/

theorem State.runLate_of_none {s : State} {key id : Nat} (h : ∀ o ∈ (s.gangAt key).late, o.id ≠ id) : s.runLate key id = s := by
  unfold State.runLate
  dsimp only
  rw [List.find?_eq_none.mpr fun o ho => by simpa using h o ho]

theorem dropDone_of_undone (p : Nat) {os : List OutOp} (h : ∀ o ∈ os, o.done = false) : dropDone p os = os := by
  induction os with
  | nil => rfl
  | cons o os ih =>
    unfold dropDone
    rw [h o List.mem_cons_self, ih fun x hx => h x (List.mem_cons_of_mem _ hx)]
    simp

/-- The oldest operation completes, and none behind it had: it leaves the list alone. -/
theorem Gang.complete_head {g : Gang} {o : OutOp} {rest : List OutOp} (hout : g.out = o :: rest)
    (hrest : ∀ x ∈ rest, x.id ≠ o.id ∧ x.done = false) : g.complete o.id = { g with out := rest } := by
  have hmap : rest.map (fun x => if x.id = o.id then { x with done := true } else x) = rest :=
    (List.map_congr_left fun x hx => if_neg (hrest x hx).1).trans rest.map_id
  unfold Gang.complete
  rw [hout]
  simp only [List.map_cons, if_true, List.find?_cons, decide_true, hmap]
  unfold dropDone
  simp only [if_true]
  rw [dropDone_of_undone _ fun x hx => (hrest x hx).2]

theorem memoryOperationComplete_runs (s : State) (key id : Nat) {o : OutOp} {rest : List OutOp}
    (hout : (s.gangAt key).out = o :: rest) (hid : o.id = id) (hperf : o.perf = true) (hdone : o.done = false)
    (hrest : ∀ x ∈ rest, x.id ≠ id ∧ x.done = false) (hlate : ∀ x ∈ (s.gangAt key).late, x.id ≠ id) :
    ∃ t, exec (.memoryOperationComplete key id) s = .next t ∧ (t.gangAt key).out = rest ∧
      (t.gangAt key).regs = (s.gangAt key).regs := by
  subst hid
  refine ⟨_, rfl, ?_⟩
  have hany : (s.gangAt key).out.any (fun x => decide (x.id = o.id) && x.perf && !x.done) = true := by
    simp [hout, hperf, hdone]
  rw [State.runLate_of_none hlate, gangAt_updGangAt, if_pos rfl, if_pos hany, Gang.complete_head hout hrest]
  exact ⟨rfl, rfl⟩

theorem releaseComplete_runs (s : State) (key id : Nat) : ∃ t, exec (.releaseComplete key id) s = .next t ∧
    ((∀ x ∈ (s.gangAt key).late, x.id ≠ id) → (t.gangAt key).regs = (s.gangAt key).regs) ∧
    ∀ e ∈ (t.gangAt key).flow.blocks, ∀ ids, e.2 = .ops ids → ids.contains id = true → (t.gangAt key).waitsOn ids = true := by
  refine ⟨_, rfl, fun hlate => ?_, ?_⟩
  · rw [gangAt_updGangAt, if_pos rfl, State.runLate_of_none hlate]
  · rw [gangAt_updGangAt, if_pos rfl]
    intro e he ids hops hid
    have hkept := (List.mem_filter.mp he).2
    rw [hops] at hkept
    dsimp only at hkept
    rw [hid, Bool.true_and, Bool.not_not] at hkept
    exact hkept

/-! ### The seat -/

theorem squashAll_of_seat {s : State} {key : Nat} {x : Seat} (h : s.seatOf key = some x) :
    s.squashAll key = s.updSeat (s.gangAt key).core (s.gangAt key).lg fun x => x.squash 0 := by
  unfold State.squashAll
  dsimp only
  rw [h]

theorem specKind_of_loadRun {i : Instr} {s : State} {r : Res} (h : loadRun i s = some r) : specKind i = .load := by
  unfold loadRun at h
  split at h
  case h_9 => cases h
  all_goals rfl

/-- The load at the head is read again, and every value is the same. -/
theorem rereadHead_same {s u : State} {key : Nat} {x : Seat} {e : Renamed} {rest : List Renamed}
    {early : List (Nat × DWord)} {i : Instr} (hseat : s.seatOf key = some x) (hwin : x.window = e :: rest)
    (hloaded : e.loaded = some early) (hlead : (s.gangAt key).leads e.group e.pc = true) (hi : decode e.word = .ok i)
    (hrun : loadRun i (s.atEntry key e) = some (.next u)) (hran : (s.atEntry key e).ranFrom u key e.group = true) :
    s.rereadHead key = some (if !e.early || decide ((s.atEntry key e).loadFound u key e i = early)
      then ((u.giveHead key i early).retireHead key).unfocus s
      else { (s.squashAll key).updSeat (s.gangAt key).core (s.gangAt key).lg (fun x => { x with restart := some e.pc }) with
        ir := e.word }) := by
  have hload := specKind_of_loadRun hrun
  have hstay : u.stalledAt key e.group = false := by
    unfold State.ranFrom State.ranOn at hran
    simp only [Bool.and_eq_true, Bool.not_eq_true'] at hran
    exact hran.1.1.1.1.1.2
  have hinstr : e.instr = some i := by unfold Renamed.instr; rw [hi]
  have hhead : (s.seatOf key).bind (fun x => x.window.head?) = some e := by
    rw [hseat]
    exact congrArg List.head? hwin
  unfold State.rereadHead
  dsimp only
  rw [hhead]
  dsimp only
  rw [hloaded, hinstr]
  dsimp only
  rw [hlead, hload, if_neg (by decide), hrun]
  dsimp only
  rw [hstay, hran, if_neg (by decide), Bool.true_and]
  split <;> rfl

theorem Seat.window_squash_zero (x : Seat) : (x.squash 0).window = [] := x.window.take_zero

/-- The load at the head has found something else: the window goes, and the load starts again. -/
theorem squash_restarts {s : State} {key : Nat} {x : Seat} (hseat : s.seatOf key = some x) (e : Renamed) :
    let t := { (s.squashAll key).updSeat (s.gangAt key).core (s.gangAt key).lg (fun x => { x with restart := some e.pc }) with
      ir := e.word }
    t.gangs = s.gangs ∧ (t.seatAt (s.gangAt key).core (s.gangAt key).lg).window = [] ∧
      (t.seatAt (s.gangAt key).core (s.gangAt key).lg).restart = some e.pc := by
  rw [squashAll_of_seat hseat]
  generalize (s.gangAt key).core = core
  generalize (s.gangAt key).lg = lg
  intro t
  have hat : t.seatAt core lg = { (s.seatAt core lg).squash 0 with restart := some e.pc } :=
    (State.seatAt_updSeat (s.updSeat core lg fun x => x.squash 0) core lg fun x => { x with restart := some e.pc }).trans
      (congrArg (fun x : Seat => { x with restart := some e.pc }) (State.seatAt_updSeat s core lg fun x => x.squash 0))
  exact ⟨rfl, (congrArg Seat.window hat).trans (Seat.window_squash_zero (s.seatAt core lg)), congrArg Seat.restart hat⟩

/-- What becomes of the oldest entry of a window: it was fetched wrongly, or is a load that was early (04 R113, R114). -/
theorem windowHead_events (s : State) (key : Nat) {x : Seat} {e : Renamed} {rest : List Renamed} (hseat : s.seatOf key = some x)
    (hwin : x.window = e :: rest) :
    ((s.gangAt key).leads e.group e.pc = true → exec (.branchMispredict key) s = .next s) ∧
    ((s.gangAt key).leads e.group e.pc = false → ∃ t, exec (.branchMispredict key) s = .next t ∧ t.gangs = s.gangs ∧
      t.mem = s.mem ∧ (t.seatAt (s.gangAt key).core (s.gangAt key).lg).window = []) ∧
    (∀ early i u, e.loaded = some early → e.early = true → (s.gangAt key).leads e.group e.pc = true → decode e.word = .ok i →
      loadRun i (s.atEntry key e) = some (.next u) → (s.atEntry key e).ranFrom u key e.group = true →
      ((s.atEntry key e).loadFound u key e i = early → exec (.earlyLoadReread key early) s =
        .next (((u.giveHead key i early).retireHead key).unfocus s)) ∧
      ((s.atEntry key e).loadFound u key e i ≠ early → ∃ t, exec (.earlyLoadReread key early) s = .next t ∧
        t.gangs = s.gangs ∧ (t.seatAt (s.gangAt key).core (s.gangAt key).lg).window = [] ∧
        (t.seatAt (s.gangAt key).core (s.gangAt key).lg).restart = some e.pc)) := by
  have hhead : (s.seatOf key).bind (fun x => x.window.head?) = some e := by
    rw [hseat]
    exact congrArg List.head? hwin
  have hmis : exec (.branchMispredict key) s =
      .next (if (s.gangAt key).leads e.group e.pc then s else s.squashAll key) := by
    show execBranchMispredict key s = _
    unfold execBranchMispredict
    rw [hhead]
  refine ⟨fun hlead => by rw [hmis, if_pos hlead], fun hlead => ⟨s.squashAll key, ?_, ?_⟩, ?_⟩
  · rw [hmis, hlead, if_neg Bool.false_ne_true]
  · rw [squashAll_of_seat hseat, State.seatAt_updSeat]
    exact ⟨rfl, rfl, Seat.window_squash_zero _⟩
  intro early i u hloaded hearly hlead hi hrun hran
  have hreread : exec (.earlyLoadReread key early) s = .next ((s.rereadHead key).getD s) := by
    show execEarlyLoadReread key early s = _
    unfold execEarlyLoadReread
    rw [hhead]
    dsimp only
    rw [if_pos hloaded]
  rw [hreread, rereadHead_same hseat hwin hloaded hlead hi hrun hran, hearly]
  refine ⟨fun hsame => ?_, fun hdiff => ?_⟩
  · rw [if_pos (by simpa using hsame)]
    rfl
  · rw [if_neg (by simpa using hdiff)]
    exact ⟨_, rfl, squash_restarts hseat e⟩

theorem promotion_takes (s : State) (core lg : Nat) {key : Nat} (hfree : (s.seatAt core lg).holder = none)
    (hbest : s.bestCandidate core lg = some key) (hrows : 16 ≤ s.freeRows core lg) (hreq : s.requests core lg = []) :
    ∃ t, exec (.promotionEvaluation core lg) s = .next t ∧ t.gangs = s.gangs ∧ t.seatAt core lg =
      { Seat.empty with
        holder := some key, pool := (s.freeRowList core lg).take (min 64 (s.freeRows core lg / 8 * 8)) } := by
  refine ⟨_, ?_, ?_, State.seatAt_updSeat s core lg fun _ => { Seat.empty with
    holder := some key, pool := (s.freeRowList core lg).take (min 64 (s.freeRows core lg / 8 * 8)) }⟩
  · show execPromotionEvaluation core lg s = _
    unfold execPromotionEvaluation
    dsimp only
    have hpick : (some key).filter (fun k => decide (some k ≠ (none : Option Nat))) = some key := rfl
    rw [hfree, hbest, hreq, hpick]
    dsimp only
    rw [if_pos (by simp [hrows])]
  · rfl

theorem demotion_leaves (s : State) (core lg : Nat) {key : Nat} (hheld : (s.seatAt core lg).holder = some key)
    (hdem : (s.seatAt core lg).demoting = true) (hwin : (s.seatAt core lg).window = []) :
    exec (.demotion core lg) s = .next (s.leaveSeat key) := by
  show execDemotion core lg s = _
  unfold execDemotion
  dsimp only
  rw [hheld, hdem, hwin]
  rfl

/-! ### The events -/

theorem regangMerge_runs (s : State) (key : Nat) {pc : PcVal} (h : (s.gangAt key).mergesAt pc = true) :
    ∃ t, exec (.regangMerge key pc) s = .next t ∧ (t.gangAt key).regs = (s.gangAt key).regs ∧
      ∀ k, k ∈ (s.gangAt key).waitersAt pc → (t.gangAt key).pc k = pc + 4 ∧
        (t.gangAt key).grp k = ((s.gangAt key).waitersAt pc).headD 0 ∧ (t.gangAt key).flow.waiting.getLsbD k = false := by
  refine ⟨_, rfl, ?_⟩
  rw [gangAt_updGangAt, if_pos rfl, if_pos h]
  refine ⟨rfl, fun k hk => ?_⟩
  obtain ⟨hpc, hwait, hgrp⟩ := Gang.mergeAt_waiter _ pc hk
  exact ⟨hpc, hgrp, hwait⟩

theorem gangEnd_runs (s : State) (key : Nat) (hlive : (s.gangAt key).live = true) (hexit : (s.gangAt key).flow.exited = 0xFF)
    (hout : (s.gangAt key).out = []) (hlate : (s.gangAt key).late = []) :
    ∃ t, exec (.gangEnd key) s = .next t ∧ (t.gangAt key).live = false ∧ t.mem = s.mem := by
  refine ⟨s.endGang key, ?_, live_endGang s key, mem_endGang s key⟩
  show execGangEnd key s = _
  unfold execGangEnd Gang.finished
  rw [hlive, hexit, hout, hlate]
  rfl

theorem mwaitTimeout_runs (s : State) (key k : Nat) (h : (k, Block.watch) ∈ (s.gangAt key).flow.blocks) :
    ∃ t, exec (.mwaitTimeout key) s = .next t ∧ (t.gangAt key).watch.timedOut = true ∧
      (t.gangAt key).regs = (s.gangAt key).regs := by
  refine ⟨_, rfl, ?_⟩
  rw [gangAt_updGangAt, if_pos rfl, if_pos (List.any_eq_true.mpr ⟨_, h, decide_eq_true rfl⟩)]
  exact ⟨rfl, rfl⟩

/-- Settles O56, event by event. -/
theorem gangEvents : Obligations.GangEvents := by
  intro s key core lg id g
  refine ⟨fun pc h => regangMerge_runs s key h, gangEnd_runs s key, ?_, ?_, ⟨promotion_takes s core lg, ?_⟩,
    fun x e rest hseat hwin => windowHead_events s key hseat hwin, ?_, releaseComplete_runs s key id,
    mwaitTimeout_runs s key, ?_, rfl⟩
  · intro d n since hgrant hblock
    refine ⟨s.endRegrow key true, ?_, State.endRegrow_answers hblock true⟩
    show execRegrowGrant core lg s = _
    unfold execRegrowGrant
    rw [hgrant]
  · intro d n since hblock htaken
    refine ⟨s.endRegrow key false, ?_, State.endRegrow_answers hblock false⟩
    show execRegrowTimeout key s = _
    unfold execRegrowTimeout
    rw [htaken]
    rfl
  · exact demotion_leaves s core lg
  · intro o rest hout hid hperf hdone hrest hlate
    exact memoryOperationComplete_runs s key id hout hid hperf hdone hrest hlate
  · intro wid hcount
    refine ⟨s.updWgAt wid Workgroup.tickOnce, ?_, rfl, ?_⟩
    · show execReuseClockAdvance wid s = _
      unfold execReuseClockAdvance
      rw [if_pos hcount]
    · exact State.wgAt_setWgAt ..

end Sys2Proof.Machine
end

section
/-! ## Hash tables (12 R317 to R320) -/

namespace Sys2Proof.Machine

theorem accessed_barnWrite (s : State) (l : Loc) (bs : List Byte) : s.accessed (s.barnWrite l bs) := by
  cases l with
  | glob va => exact State.accessed.refl s
  | barn c t o => exact accessed_tileBankWrite s c t o bs

theorem accessed_hashLane (h : HashTab) (kind x w : Nat) (s : State) : s.accessed (hashLane h kind x w s).1 := by
  unfold hashLane
  split
  · split
    · exact State.accessed.refl s
    · exact accessed_barnWrite ..
  split
  · dsimp only
    split
    · exact accessed_barnWrite ..
    · exact State.accessed.refl s
  · dsimp only
    split
    · exact State.accessed.refl s
    · exact ((accessed_barnWrite ..).trans (accessed_barnWrite ..)).trans (accessed_barnWrite ..)
  · dsimp only
    split
    · exact State.accessed.refl s
    · exact accessed_barnWrite ..

theorem accessed_hashLanes (h : HashTab) (kind : Nat) (key val : Nat → Nat) (ls : List Nat) (s : State) :
    s.accessed (hashLanes h kind key val ls s).1 := by
  induction ls generalizing s with
  | nil => exact State.accessed.refl s
  | cons l ls ih => exact (accessed_hashLane ..).trans (ih _)

/-! ### The guards -/

/-- Slice k's guard takes, in the lanes of the gang that are active, the outcomes that `found` gives. -/
def Gang.guardSlice (g : Gang) (found : Nat → Bool) (x : Gang) (k : Nat) : Gang :=
  if modeGuard (g.mode k) = 31 then x
  else x.writePLanes (modeGuard (g.mode k)) (fun l => g.active l && decide (l / 4 = k)) (fun l => found l != modeSense (g.mode k))

theorem Gang.keeps_guardSlices {α : Type} (π : Gang → α) (h : ∀ (x : Gang) i f y, π (x.writePLanes i f y) = π x)
    (g : Gang) (found : Nat → Bool) (ks : List Nat) (x : Gang) : π (ks.foldl (g.guardSlice found) x) = π x :=
  foldl_keeps π (fun x k => by
    unfold Gang.guardSlice
    split
    · rfl
    · exact h ..) ks x

/-- An active lane of a slice has its outcome in the slice's guard once the slice has had its turn. -/
theorem Gang.p_guardSlices (g : Gang) (found : Nat → Bool) {l : Nat} (hl : l < 32) (hact : g.active l = true)
    (hguard : modeGuard (g.mode (l / 4)) ≠ 31) (ks : List Nat) (x : Gang)
    (h : l / 4 ∈ ks ∨ x.p (modeGuard (g.mode (l / 4))) l = (found l != modeSense (g.mode (l / 4)))) :
    (ks.foldl (g.guardSlice found) x).p (modeGuard (g.mode (l / 4))) l = (found l != modeSense (g.mode (l / 4))) := by
  induction ks generalizing x with
  | nil => exact h.resolve_left List.not_mem_nil
  | cons k ks ih =>
    apply ih
    by_cases hk : l / 4 = k
    · subst hk
      right
      unfold Gang.guardSlice
      rw [if_neg hguard, Gang.p_writePLanes _ _ _ _ _ _ hl, if_pos ⟨rfl, by simp [hact]⟩]
    · have hkeep : (g.guardSlice found x k).p (modeGuard (g.mode (l / 4))) l = x.p (modeGuard (g.mode (l / 4))) l := by
        unfold Gang.guardSlice
        split
        · rfl
        · rw [Gang.p_writePLanes _ _ _ _ _ _ hl, if_neg (by simp [hk])]
      rw [hkeep]
      exact h.imp_left fun hmem => (List.mem_cons.mp hmem).resolve_left hk

/-! ### hinit, and the probes -/

theorem hinit_runs (s : State) (a b : Code) (hi : s.issues (fixedOps [.sr 32 a, .sr 32 b]) = true)
    (hlate : s.gang.lateAccesses = []) (hheld : s.gang.heldBy 64 = []) :
    let loc := (s.sarg a).toNat
    let v := (s.sarg b).toNat
    let kw := 4 + 4 * field v 4 1
    let half := max kw (etypeWidth (field v 5 5) / 8)
    loc % 16 = 0 → v < 2 ^ 17 → hashOk (v % 16) (field v 4 1) (field v 5 5) (field v 10 5) (field v 15 2) = true →
    s.wg.rangeFault loc (16 + 2 ^ (v % 16) * (2 * half)) 1 0 = none →
    exec (.hinit a b) s = .next ((s.drainQueues s.gang.core).barnWrite (s.wg.barnLoc s.gang.core loc)
      ([0, 0, 0, 0] ++ bytesLE 1 (v % 16) ++ bytesLE 1 (field v 4 1) ++ bytesLE 1 (field v 5 5) ++
        bytesLE 1 (field v 10 5) ++ bytesLE 1 (field v 15 2) ++ List.replicate 7 0 ++
        (List.replicate (2 ^ (v % 16)) (List.replicate kw 0xFF ++ List.replicate (2 * half - kw) 0)).flatten)).advance := by
  intro loc v kw half halign hv hok hrange
  have hbad : ¬ ((decide (loc % 16 ≠ 0) || decide (2 ^ 17 ≤ v) ||
      !hashOk (v % 16) (field v 4 1) (field v 5 5) (field v 10 5) (field v 15 2)) = true) := by
    have hlow : v < 131072 := hv
    simp [halign, hok, hlow]
  have hzeros : bytesLE 7 0 = List.replicate 7 0 := by decide
  have hcount : bytesLE 4 0 = [0, 0, 0, 0] := by decide
  show execHinit a b s = _
  unfold execHinit
  rw [guardOps_issues hi, engineOr_free hlate hheld]
  dsimp only
  rw [show s.wg.rangeFault (s.sarg a).toNat (tableBytes ((s.sarg b).toNat % 16) (4 + 4 * field (s.sarg b).toNat 4 1)
    (field (s.sarg b).toNat 5 5)) 1 0 = none from hrange]
  dsimp only
  rw [if_neg hbad, hzeros, hcount]

/-- A word on a table: the lanes probe in order, and the gang takes what they found. -/
def Gang.hashed (g : Gang) (h : HashTab) (kind : Nat) (v : Code) (out : Nat → Bool × Nat) (x : Gang) : Gang :=
  (List.range 8).foldl (g.guardSlice fun l => (out l).1)
    (if kind = 2 then x.putV v (fun _ => decide (h.vw = 8)) (fun l => g.active l && (out l).1) (fun l => BitVec.ofNat 64 (out l).2)
      else x)

theorem Gang.flow_hashed (g : Gang) (h : HashTab) (kind : Nat) (v : Code) (out : Nat → Bool × Nat) (x : Gang) :
    (g.hashed h kind v out x).flow = x.flow := by
  unfold Gang.hashed
  rw [Gang.keeps_guardSlices Gang.flow fun x i f y => Gang.flow_writePLanes x i f y]
  split
  · exact (congrArg Gang.flow (putV_gang x v (fun _ => decide (h.vw = 8)) (fun l => g.active l && (out l).1)
      fun l => BitVec.ofNat 64 (out l).2).1 :)
  · rfl

theorem Gang.v_hashed (g : Gang) (h : HashTab) (kind : Nat) (v : Code) (out : Nat → Bool × Nat) (x : Gang) (q : Nat) {l : Nat}
    (hl : l < 32) : (g.hashed h kind v out x).v q l =
      if kind = 2 ∧ v ≠ 0xF0 ∧ g.active l = true ∧ (out l).1 = true ∧ q = v.toNat then BitVec.ofNat 32 (out l).2
      else if kind = 2 ∧ v ≠ 0xF0 ∧ g.active l = true ∧ (out l).1 = true ∧ h.vw = 8 ∧ q = v.toNat + 1 then
        BitVec.ofNat 32 ((out l).2 / 2 ^ 32)
      else x.v q l := by
  unfold Gang.hashed
  rw [Gang.keeps_guardSlices (fun x => x.v q l) fun x i _ _ => Gang.v_setPMask x i _ q l]
  by_cases hkind : kind = 2
  · have hlow : (BitVec.ofNat 64 (out l).2).setWidth 32 = BitVec.ofNat 32 (out l).2 := by
      apply BitVec.eq_of_toNat_eq
      simp only [BitVec.toNat_setWidth, BitVec.toNat_ofNat]
      omega
    have hhigh : (BitVec.ofNat 64 (out l).2 >>> 32).setWidth 32 = BitVec.ofNat 32 ((out l).2 / 2 ^ 32) := by
      apply BitVec.eq_of_toNat_eq
      simp only [BitVec.toNat_setWidth, BitVec.toNat_ofNat, BitVec.toNat_ushiftRight, Nat.shiftRight_eq_div_pow]
      omega
    rw [if_pos hkind, putV_v _ _ _ _ _ _ _ hl, hlow, hhigh]
    by_cases hq : q = v.toNat
    · simp [hkind, hq]
    · simp [hkind, hq, and_assoc]
  · simp [hkind]

theorem hashInstr_runs (s : State) (loc k v : Code) (h : HashTab) (kind : Nat)
    (hi : s.issues (fixedOps [.sr 32 loc, .vr 32 k, if kind = 2 then .vw 32 v else .vr 32 v]) = true)
    (hlate : s.gang.lateAccesses = []) (hheld : s.gang.heldBy 64 = []) (hpairs : s.issues (fixedOps (h.pairs kind k v)) = true)
    (htab : (s.drainQueues s.gang.core).tableAt (s.sarg loc).toNat = .ok h)
    (hk : h.kw = 8 → k.toNat < 0xF0 → k.toNat % 2 = 0 ∧ k.toNat + 2 ≤ s.gang.alloc)
    (hv : h.vw = 8 → v.toNat < 0xF0 → v.toNat % 2 = 0 ∧ v.toNat + 2 ≤ s.gang.alloc) :
    let r := hashLanes h kind (fun l => (s.vsrc (.int (8 * h.kw)) k l).toNat % 2 ^ (8 * h.kw))
      (fun l => (s.vsrc (.elem h.vtype) v l).toNat % 2 ^ (8 * h.vw)) s.gang.activeList (s.drainQueues s.gang.core)
    hashInstr kind loc k v s = .next (r.1.updGang fun x => (s.gang.hashed h kind v
      (fun l => ((r.2.find? (fun e => decide (e.1 = l))).map (·.2)).getD (false, 0)) x).advance) := by
  intro r
  have hpair : ∀ (c : Code) (n : Nat), (n = 8 → c.toNat < 0xF0 → c.toNat % 2 = 0 ∧ c.toNat + 2 ≤ s.gang.alloc) →
      ¬ ((n = 8 && decide (c.toNat < 0xF0) && decide (c.toNat % 2 = 1)) = true) ∧
      ¬ ((n = 8 && decide (c.toNat < 0xF0) && decide (s.gang.alloc < c.toNat + 2)) = true) := by
    intro c n hc
    simp only [Bool.and_eq_true, decide_eq_true_eq]
    constructor
    · intro ⟨⟨h8, hlow⟩, hodd⟩
      have := (hc h8 hlow).1
      omega
    · intro ⟨⟨h8, hlow⟩, hpast⟩
      have := (hc h8 hlow).2
      omega
  obtain ⟨hkodd, hkpast⟩ := hpair k h.kw hk
  obtain ⟨hvodd, hvpast⟩ := hpair v h.vw hv
  unfold hashInstr
  rw [guardOps_issues hi, engineOr_free hlate hheld]
  dsimp only
  rw [htab]
  dsimp only
  rw [if_neg fun hbad => (Bool.or_eq_true .. ▸ hbad).elim hkodd hvodd,
    if_neg fun hbad => (Bool.or_eq_true .. ▸ hbad).elim hkpast hvpast, guardOps_issues hpairs]
  rfl

/-- Settles O44: hinit writes the table's bytes, and a probing word the lanes' outcomes. -/
theorem hashTables : Obligations.HashTables := by
  refine ⟨hinit_runs, ?_⟩
  intro s loc k v h kind i hmem hi hlate hheld hpairs htab hk hv r out
  have hexec : exec i s = hashInstr kind loc k v s := by
    simp only [List.mem_cons, List.not_mem_nil, or_false, Prod.mk.injEq] at hmem
    obtain ⟨rfl, rfl⟩ | ⟨rfl, rfl⟩ | ⟨rfl, rfl⟩ := hmem <;> rfl
  have hacc : s.accessed r.1 := (accessed_drainQueues ..).trans (accessed_hashLanes ..)
  have hg : (r.1.updGang fun x => (s.gang.hashed h kind v out x).advance).gang = (s.gang.hashed h kind v out r.1.gang).advance :=
    State.gang_updGang ..
  refine ⟨_, hexec.trans (hashInstr_runs s loc k v h kind hi hlate hheld hpairs htab hk hv), ?_, rfl, ?_, ?_⟩
  · exact past_updGang (f := fun _ => s.gang.hashed h kind v out r.1.gang) ((Gang.flow_hashed ..).trans hacc.flow) hg
  · intro l hact hl hguard
    rw [hg, Gang.p_advance]
    exact s.gang.p_guardSlices (fun l => (out l).1) hl hact hguard _ _ (.inl (List.mem_range.mpr (by omega)))
  · intro q l hl
    have hvs : r.1.gang.v q l = s.gang.v q l := congrArg (fun x : Regs => mapGet 0 x.v (q * 32 + l)) hacc.regs
    rw [hg, Gang.v_advance, Gang.v_hashed _ _ _ _ _ _ _ hl, hvs]

end Sys2Proof.Machine
end

section
/-! ## Selections and merged lists (12 R312 to R316) -/

namespace Sys2Proof.Machine

/-! ### A scalar destination of a word that issues -/

/-- A scalar destination that issues takes the value in the slices that issue, and nothing else changes. -/
theorem Gang.s_putSAll_of_issues {s : State} {f : OpndsOf} (hi : s.issues f = true) {d : Code}
    (hd : ∀ w os, f w = some os → .sw 32 d ∈ os) {g : Gang} (hflow : g.flow = s.gang.flow) (x : Word) {k i : Nat} (hk : k < 8)
    (hi32 : i < 32) : (g.putSAll d x).s k i = if d ≠ 0xF0 ∧ i = d.toNat ∧ s.gang.issuing k = true then x else g.s k i := by
  have hissue : ∀ j, g.issuing j = s.gang.issuing j := fun j => by unfold Gang.issuing Gang.exitedAt Gang.grp; rw [hflow]
  unfold Gang.putSAll Gang.putS
  by_cases h0 : d = 0xF0
  · rw [if_pos h0, if_neg fun h => h.1 h0]
  rw [if_neg h0]
  by_cases hsome : ∃ j, s.gang.issuing j = true
  · obtain ⟨j, hj⟩ := hsome
    obtain ⟨os, hos, hlegal⟩ := operands_of_issues hi hj
    have hdst : sDst d = true := hlegal _ (hd _ os hos)
    have h32 : d.toNat < 32 := by
      simp only [sDst, Bool.or_eq_true, decide_eq_true_eq] at hdst
      exact hdst.resolve_right fun h => h0 (BitVec.eq_of_toNat_eq h)
    rw [Gang.s_writeSlices _ _ h32 _ _ _ _ hk hi32, hissue]
    simp only [ne_eq, h0, not_false_eq_true, true_and]
  · have hnone : ∀ j, g.issuing j = false := fun j => by rw [hissue]; simpa using fun h => hsome ⟨j, h⟩
    rw [if_neg fun h => hsome ⟨k, h.2.2⟩]
    simp [Gang.writeSlices, writeSMap_none _ hnone, Gang.s]

/-! ### The entries in their lanes -/

section
variable (g : Gang) (free : Nat → Nat) (q : Code) (es : List (Nat × Ent))

theorem Gang.flow_putEntries : (g.putEntries free q es).flow = g.flow := by
  unfold Gang.putEntries
  split <;> rfl

theorem Gang.p_putEntries : (g.putEntries free q es).regs.p = g.regs.p := by
  unfold Gang.putEntries
  split <;> rfl

theorem Gang.s_putEntries (k i : Nat) : (g.putEntries free q es).s k i = g.s k i := by
  unfold Gang.putEntries
  split <;> rfl

theorem Gang.sameReports_putEntries : g.sameReports (g.putEntries free q es) := by
  unfold Gang.putEntries
  split
  · rfl
  · simp only [Gang.sameReports, Gang.writeLanes, clearMarks_marks]

theorem Gang.v_putEntries (hq : q ≠ 0xF0) (r : Nat) {l : Nat} (hl : l < 32) :
    let e := laneEnt free g.keyType es l
    (g.putEntries free q es).v r l =
      if r = q.toNat + 3 then BitVec.ofNat 32 (e.idx / 2 ^ 32)
      else if r = q.toNat + 2 then BitVec.ofNat 32 e.idx
      else if r = q.toNat + 1 ∧ etypeWide (g.keyType l) = true then BitVec.ofNat 32 (e.key / 2 ^ 32)
      else if r = q.toNat then BitVec.ofNat 32 e.key
      else g.v r l := by
  unfold Gang.putEntries
  simp only [if_neg hq, Gang.v_writeLanes _ _ _ _ _ _ hl, and_true]

end

/-- The step of a selection. -/
theorem selectEnd_step (s : State) {f : OpndsOf} (hi : s.issues f = true) {q a : Code} (ha : ∀ w os, f w = some os → .sw 32 a ∈ os)
    (es : List (Nat × Ent)) : ∃ t, selectEnd s q a es = .next t ∧ s.selected t q a es := by
  let u := s.gang.putEntries s.freeKey q es
  have hu : u.flow = s.gang.flow := Gang.flow_putEntries ..
  have hflow : (u.putSAll a (BitVec.ofNat 32 es.length)).flow = s.gang.flow := (Gang.flow_putSAll ..).trans hu
  have hregs : (u.putSAll a (BitVec.ofNat 32 es.length)).regs.v = u.regs.v ∧
      (u.putSAll a (BitVec.ofNat 32 es.length)).regs.p = u.regs.p ∧
      (u.putSAll a (BitVec.ofNat 32 es.length)).reports = u.reports := by
    unfold Gang.putSAll Gang.putS
    split <;> exact ⟨rfl, rfl, rfl⟩
  obtain ⟨hv, hp, hreports⟩ := hregs
  refine ⟨_, rfl, ?_⟩
  have hg : (s.spendTies.updGang fun g => ((g.putEntries s.freeKey q es).putSAll a (BitVec.ofNat 32 es.length)).advance).gang =
      (u.putSAll a (BitVec.ofNat 32 es.length)).advance := State.gang_updGang ..
  have hvr : ∀ r l, ((u.putSAll a (BitVec.ofNat 32 es.length)).advance).v r l = u.v r l := fun r l =>
    congrArg (fun m => mapGet 0 m (r * 32 + l)) hv
  unfold State.selected
  rw [hg]
  refine ⟨past_updGang (f := fun _ => u.putSAll a (BitVec.ofNat 32 es.length)) hflow hg, rfl, ?_, fun hq l hl => ?_,
    fun r l hl hr => ?_, fun k i hk hi32 => ?_, hp.trans (Gang.p_putEntries ..)⟩
  · show List.map _ (u.putSAll a (BitVec.ofNat 32 es.length)).reports = _
    rw [hreports]
    exact s.gang.sameReports_putEntries s.freeKey q es
  · rw [hvr, hvr, hvr, hvr]
    have hread := fun r => s.gang.v_putEntries s.freeKey q es hq r hl
    refine ⟨?_, fun hwide => ?_, ?_, ?_⟩
    · rw [hread]; simp
    · rw [hread]; simp [hwide]
    · rw [hread]; simp
    · rw [hread]; simp
  · rw [hvr]
    by_cases hq : q = 0xF0
    · show (s.gang.putEntries s.freeKey q es).v r l = _
      rw [Gang.putEntries, if_pos hq]
    · have hout := hr.resolve_left hq
      rw [s.gang.v_putEntries s.freeKey q es hq r hl, if_neg (by omega), if_neg (by omega), if_neg ?_, if_neg ?_]
      · rintro rfl
        omega
      · rintro ⟨rfl, hwide⟩
        obtain h | h | ⟨-, h⟩ := hout
        · omega
        · omega
        · exact Bool.false_ne_true (h.symm.trans hwide)
  · rw [Gang.s_advance, Gang.s_putSAll_of_issues hi ha hu _ hk hi32]
    congr 1
    exact s.gang.s_putEntries ..

theorem mem_selectOps {wr : Bool} {q : Code} {os : List Opnd} {o : Opnd} (ho : o ∈ os) (w : Word) (os' : List Opnd)
    (h : selectOps wr q os w = some os') : o ∈ os' := by
  unfold selectOps etypeOps at h
  split at h
  · cases h
    exact List.mem_append_right _ ho
  · cases h

theorem vsort_runs {s : State} {d a : Code} (hw : s.gang.whole = true) (hheld : s.gang.heldBy 64 = [])
    (hi : s.issues (selectOps true d [.sw 32 a]) = true) :
    ∃ t, exec (.vsort d a) s = .next t ∧ s.selected t d a (s.sorted d) := by
  obtain ⟨t, ht, hsel⟩ := selectEnd_step s hi (q := d) (mem_selectOps List.mem_cons_self) (s.sorted d)
  refine ⟨t, ?_, hsel⟩
  show execVsort d a s = _
  unfold execVsort
  rw [guardOps_issues hi, heldOr_free hheld, hw, ht]
  rfl

theorem vtopk_runs {s : State} {d a b : Code} (hw : s.gang.whole = true) (hheld : s.gang.heldBy 64 = [])
    (hi : s.issues (selectOps true d [.sw 32 a, .sr 32 b]) = true) (hpos : 0 < (s.sarg b).toNat) (hle : (s.sarg b).toNat ≤ 32) :
    ∃ t, exec (.vtopk d a b) s = .next t ∧ s.selected t d a ((s.sorted d).take (s.sarg b).toNat) := by
  obtain ⟨t, ht, hsel⟩ := selectEnd_step s hi (q := d) (mem_selectOps List.mem_cons_self) ((s.sorted d).take (s.sarg b).toNat)
  refine ⟨t, ?_, hsel⟩
  have hk : ¬ ((decide ((s.sarg b).toNat = 0) || decide (32 < (s.sarg b).toNat)) = true) := by
    simp only [Bool.or_eq_true, decide_eq_true_eq]
    omega
  show execVtopk d a b s = _
  unfold execVtopk
  rw [guardOps_issues hi, heldOr_free hheld, hw]
  dsimp only
  rw [if_neg hk, ht]
  rfl

/-! ### One key type -/

theorem filter_range_eq {ty : Nat} (h : ty < 32) : (List.range 32).filter (fun t => decide (ty = t)) = [ty] := by
  decide +revert

/-- Slices of one etype have one key type. -/
theorem keyTypes_of_same {s : State} {ty : Nat} (hty : ∀ k, k < 8 → s.gang.issuing k = true → modeEtype (s.gang.mode k) = ty)
    (hsome : ∃ k, k < 8 ∧ s.gang.issuing k = true) : s.keyTypes = [ty] := by
  obtain ⟨k, hk, hik⟩ := hsome
  have hlt : ty < 32 := by
    rw [← hty k hk hik]
    exact Nat.mod_lt _ (by decide)
  have hany : ∀ t, (List.range 8).any (fun k => s.gang.issuing k && decide (modeEtype (s.gang.mode k) = t)) = decide (ty = t) := by
    intro t
    rw [Bool.eq_iff_iff, decide_eq_true_eq, List.any_eq_true]
    simp only [List.mem_range, Bool.and_eq_true, decide_eq_true_eq]
    constructor
    · rintro ⟨j, hj, hij, rfl⟩
      exact (hty j hj hij).symm
    · rintro rfl
      exact ⟨k, hk, hik, hty k hk hik⟩
  unfold State.keyTypes
  simp only [hany]
  rw [filter_range_eq hlt]
  rfl

theorem sorted_of_same {s : State} {ty : Nat} (hty : ∀ k, k < 8 → s.gang.issuing k = true → modeEtype (s.gang.mode k) = ty)
    (hsome : ∃ k, k < 8 ∧ s.gang.issuing k = true) (d : Code) :
    s.sorted d = (sortEnts ty (s.entries d ty)).map (fun e => (ty, e)) := by
  unfold State.sorted
  rw [keyTypes_of_same hty hsome]
  exact List.append_nil _

/-! ### Lists in the Barn -/

theorem drainList_fresh (n : Nat) (qs : List QueuedByte) (s : State) :
    ({ s with fresh := n } : State).drainList qs = { s.drainList qs with fresh := n } := by
  induction qs generalizing s with
  | nil => rfl
  | cons q qs ih => exact ih (s.putBank q.core q.addr q.val)

theorem bankStore_fresh (n : Nat) (s : State) (core a : Nat) (b : Byte) :
    ({ s with fresh := n } : State).bankStore core a b = { s.bankStore core a b with fresh := n } := by
  have hdrain : ({ s with fresh := n } : State).drainFor core core a = { s.drainFor core core a with fresh := n } := by
    unfold State.drainFor State.drainSome
    dsimp only
    rw [show ({ s with fresh := n } : State).coreAt core = s.coreAt core from rfl, drainList_fresh]
    rfl
  unfold State.bankStore
  rw [show ({ s with fresh := n } : State).coreAt core = s.coreAt core from rfl]
  split
  · rw [hdrain]
    rfl
  · rfl

theorem tileBankWrite_fresh (n : Nat) (core : Nat) (t : Tile) (bs : List Byte) (off : Nat) (s : State) :
    ({ s with fresh := n } : State).tileBankWrite core t off bs = { s.tileBankWrite core t off bs with fresh := n } := by
  induction bs generalizing s off with
  | nil => rfl
  | cons b bs ih =>
    unfold State.tileBankWrite
    dsimp only
    split
    · rw [bankStore_fresh, ih]
    · exact ih _ _

/-- A write into a Barn does not ask how many free numbers have been used. -/
theorem barnWrite_fresh (n : Nat) (s : State) (l : Loc) (bs : List Byte) :
    ({ s with fresh := n } : State).barnWrite l bs = { s.barnWrite l bs with fresh := n } := by
  cases l with
  | glob va => rfl
  | barn c t o => exact tileBankWrite_fresh n c t bs o s

theorem mem_bankStore (s : State) (core a : Nat) (b : Byte) : (s.bankStore core a b).mem = s.mem := by
  unfold State.bankStore
  split
  · exact mem_drainList _ s
  · rfl

theorem mem_barnWrite (s : State) (l : Loc) (bs : List Byte) : (s.barnWrite l bs).mem = s.mem := by
  have key : ∀ (core : Nat) (t : Tile) (bs : List Byte) (off : Nat) (u : State), (u.tileBankWrite core t off bs).mem = u.mem :=
    fun core t bs => by
      induction bs with
      | nil => exact fun _ _ => rfl
      | cons b bs ih =>
        intro off u
        refine (ih (off + 1) _).trans ?_
        split
        · exact mem_bankStore ..
        · rfl
  cases l with
  | glob va => rfl
  | barn c t o => exact key c t bs o s

/-- A count in a scalar register, and past the word. -/
theorem finishWith_counts {s u : State} (hregs : u.gang.regs = s.gang.regs) (hflow : u.gang.flow = s.gang.flow) {f : OpndsOf}
    (hi : s.issues f = true) {b : Code} (hb : ∀ w os, f w = some os → .sw 32 b ∈ os) (x : Word) :
    let t := u.updGang fun g => (g.putSAll b x).advance
    s.past t ∧ t.gang.regs.v = s.gang.regs.v ∧ t.cores = u.cores ∧ t.mem = u.mem ∧
      ∀ j, j < 8 → s.gang.issuing j = true → b ≠ 0xF0 → t.gang.s j b.toNat = x := by
  intro t
  have hg : t.gang = (u.gang.putSAll b x).advance := State.gang_updGang ..
  refine ⟨past_updGang (f := fun _ => u.gang.putSAll b x) ((Gang.flow_putSAll ..).trans hflow) hg, ?_, rfl, rfl,
    fun j hj hij hb0 => ?_⟩
  · rw [hg]
    refine Eq.trans ?_ (congrArg Regs.v hregs)
    show (u.gang.putSAll b x).regs.v = _
    unfold Gang.putSAll Gang.putS
    split <;> rfl
  · obtain ⟨os, hos, hlegal⟩ := operands_of_issues hi hij
    have hdst : sDst b = true := hlegal _ (hb _ os hos)
    have hissue : u.gang.issuing j = true := by
      unfold Gang.issuing Gang.exitedAt Gang.grp
      rw [hflow]
      exact hij
    rw [hg, Gang.s_advance]
    exact Gang.s_putSAll _ hb0 hdst x hj hissue

theorem tkmrg_runs {s : State} {d a b : Code} {l : Loc} {img : List Byte} (hw : s.gang.whole = true)
    (hheld : s.gang.heldBy 64 = []) (hi : s.issues (selectOps false d [.sr 32 a, .sw 32 b]) = true)
    (hlate : s.gang.lateAccesses = [])
    (hlist : (s.drainQueues s.gang.core).listAt s.wg s.gang.core (s.sarg a).toNat = .ok (l, img))
    (htypes : s.keyTypes = [blockNum img 4 1]) :
    let k := blockNum img 0 2
    let ty := blockNum img 4 1
    let es := mergeEnts k ty (listEnts img (fun j => (Config.freeValue (s.fresh + 32 + j)).toNat) ++ s.entries d ty)
    ∃ t, exec (.tkmrg d a b) s = .next t ∧ s.past t ∧ t.gang.regs.v = s.gang.regs.v ∧
      t.cores = ((s.drainQueues s.gang.core).barnWrite l (listImage k ty es)).cores ∧ t.mem = s.mem ∧
      ∀ j, j < 8 → s.gang.issuing j = true → b ≠ 0xF0 → t.gang.s j b.toNat = BitVec.ofNat 32 es.length := by
  intro k ty es
  let u : State := { s.drainQueues s.gang.core with fresh := s.fresh + 32 + k }.barnWrite l (listImage k ty es)
  have hu : u = { (s.drainQueues s.gang.core).barnWrite l (listImage k ty es) with fresh := s.fresh + 32 + k } :=
    barnWrite_fresh ..
  have hacc : s.accessed ((s.drainQueues s.gang.core).barnWrite l (listImage k ty es)) :=
    (accessed_drainQueues ..).trans (accessed_barnWrite ..)
  have hexec : exec (.tkmrg d a b) s = finishWith u (fun g => g.putSAll b (BitVec.ofNat 32 es.length)) := by
    show execTkmrg d a b s = _
    unfold execTkmrg
    rw [guardOps_issues hi, engineOr_free hlate hheld]
    dsimp only
    rw [hw, if_neg (by decide), hlist]
    dsimp only
    rw [if_neg (not_not_intro htypes)]
  obtain ⟨hpast, hv, hcores, hmem, hs⟩ := finishWith_counts (s := s) (u := u) (by rw [hu]; exact hacc.regs)
    (by rw [hu]; exact hacc.flow) hi (mem_selectOps (List.mem_cons_of_mem _ List.mem_cons_self)) (BitVec.ofNat 32 es.length)
  refine ⟨_, hexec, hpast, hv, hcores.trans (by rw [hu]), hmem.trans ?_, hs⟩
  rw [hu]
  exact (mem_barnWrite ..).trans (mem_drainQueues ..)

theorem ctopk_answers {s : State} {d a b : Code} {e k : Nat} {p : NgPlace} {x : TopkIn} {n : Nat} (hw : s.gang.whole = true)
    (hheld : s.gang.heldBy 64 = []) (hi : s.issues (fixedOps [.sw 32 d, .sr 32 a, .sr 32 b]) = true)
    (hlate : s.gang.lateAccesses = []) (hn : s.names a e k p)
    (hfind : (s.groupAt k).topk.find? (fun x => decide (x.gang = s.cur) && decide (x.pc = s.gang.pcNow)) = some x)
    (hres : x.result = some (some n)) :
    ∃ t, exec (.ctopk d a b) s = .next t ∧ s.past t ∧ t.mem = s.mem ∧ t.gang.regs.v = s.gang.regs.v ∧
      ∀ j, j < 8 → s.gang.issuing j = true → d ≠ 0xF0 → t.gang.s j d.toNat = BitVec.ofNat 32 n := by
  let drop := s.updGroup k fun ng => { ng with
    topk := ng.topk.filter (fun x => !(decide (x.gang = s.cur) && decide (x.pc = s.gang.pcNow))) }
  let u := drop.acquireActs s.gang.core (ngScope e)
  have hgang : u.gang = s.gang := gang_acquireActs drop ..
  have hmem : u.mem = s.mem := by
    show (drop.acquireActs ..).mem = _
    unfold State.acquireActs
    split <;> rfl
  have hexec : exec (.ctopk d a b) s = finishWith u (fun g => g.putSAll d (BitVec.ofNat 32 n)) := by
    show execCtopk d a b s = _
    unfold execCtopk
    rw [guardOps_issues hi, engineOr_free hlate hheld]
    dsimp only
    rw [hw, if_neg (by decide), withGroup_names hn, hfind]
    dsimp only
    rw [hres]
  obtain ⟨hpast, hv, -, hmemt, hs⟩ := finishWith_counts (s := s) (u := u) (congrArg Gang.regs hgang) (congrArg Gang.flow hgang) hi
    (b := d) (fun w os h => Option.some.inj h ▸ List.mem_cons_self) (BitVec.ofNat 32 n)
  exact ⟨_, hexec, hpast, hmemt.trans hmem, hv, hs⟩

/-- Settles O40, word by word. -/
theorem sortsAndLists : Obligations.SortsAndLists := fun _ d _ _ hw hheld =>
  ⟨vsort_runs hw hheld, vtopk_runs hw hheld, fun _ hty hsome => sorted_of_same hty hsome d,
    fun _ _ hi hlate => tkmrg_runs hw hheld hi hlate,
    fun _ _ _ _ _ hi hlate hn _ => ctopk_answers hw hheld hi hlate hn⟩

end Sys2Proof.Machine
end

section
/-! ## Expand images (12 R309, R310) -/

namespace Sys2Proof.Machine

/-- What no path of a set is held by holds none of a smaller set. -/
theorem Gang.heldBy_subset {g : Gang} {paths sub : Nat} (hsub : paths &&& sub = sub) (h : g.heldBy paths = []) :
    g.heldBy sub = [] := by
  unfold Gang.heldBy at *
  rw [List.map_eq_nil_iff, List.filter_eq_nil_iff] at *
  intro e he hheld
  refine h e he (decide_eq_true fun hzero => of_decide_eq_true hheld ?_)
  rw [← hsub, ← Nat.and_assoc, hzero, Nat.zero_and]

/-- A gang in a group passes the checks of the words on it. -/
theorem withXGroup_in {s : State} {x : XGroup} (h : s.inGroup x) (body : XGroup → State → Res) : withXGroup s body = body x s := by
  obtain ⟨-, hbroken, hstate, hgroup⟩ := h
  simp only [withXGroup, hbroken, hstate, hgroup, Bool.false_eq_true, if_false, ne_eq, not_true]

theorem XGroup.length_image (x : XGroup) (round : Nat → Nat) : (x.image round).length = 32 + 384 * x.members.length := by
  simp [XGroup.image, length_bytesLE, List.length_flatten, Function.comp_def]
  omega

theorem exec_xsave {s : State} {x : XGroup} {a : Code} {n : BitVec 6} {sp : BitVec 1} (hn : n ≠ 63) (hx : s.inGroup x)
    (hheld : s.gang.heldBy 2 = []) (hi : s.issues (fixedOps [.vl 64 a]) = true) (hread : s.gang.readable a 2 [0])
    (hfault : s.imageFault sp.toNat (x.image (s.roundOf s.gang.wid x)).length (s.vsrc64 a 0) = none) :
    let addr := s.vsrc64 a 0
    let va := globalOf s.wg s.gang.num 0 addr.toNat
    let bs := x.image (s.roundOf s.gang.wid x)
    let f : Form := { acc := .write, size := bs.length, sp := sp.toNat, path := 1, ticks := false }
    let r := translateLanes f (s.imagePlaces sp.toNat bs.length addr) (s.countMem f)
    let id := r.1.nextId
    let s1 := ({ r.1 with nextId := id + 1 }).updGang (fun g => g.raise 1 id true)
    s.gang.counter 1 < 63 → r.2.faults = [] → s.gang.lateOn r.2.ok = [] →
    exec (.xsave a n sp) s = .next ((((imagePieces va bs.length r.2.ok).foldl (fun (u : State) p =>
      u.storeAt id 0 p.2.2 (s.gang.nuCode n.toNat 0) (ofBytesLE ((bs.drop p.2.1).take p.2.2)) p.1) s1).afterLanes 1 2 [] id
        r.2.ok).updGang Gang.finishReplay).advance := by
  intro addr va bs f r id s1 hroom hok hlate
  show execXsave a n sp s = _
  unfold execXsave
  rw [if_neg hn, guardOps_issues hi]
  dsimp only
  rw [hx.1, withXGroup_in hx, guardLanes_readable hread, heldOr_free hheld, hfault]
  dsimp only
  rw [if_neg (by decide), if_neg (Nat.not_le.mpr hroom), show (translateLanes f _ _).2.faults = [] from hok]
  dsimp only
  rw [show s.gang.lateOn (translateLanes f _ _).2.ok = [] from hlate]
  rfl

theorem exec_xrst {s : State} {x : XGroup} {a : Code} {n : BitVec 6} {sp : BitVec 1} (hn : n ≠ 63) (hx : s.inGroup x)
    (hheld : s.gang.heldBy 1 = []) (hi : s.issues (fixedOps [.vl 64 a]) = true) (hread : s.gang.readable a 2 [0])
    (hfault : s.imageFault sp.toNat (32 + 384 * x.members.length) (s.vsrc64 a 0) = none) :
    let addr := s.vsrc64 a 0
    let va := globalOf s.wg s.gang.num 0 addr.toNat
    let size := 32 + 384 * x.members.length
    let f : Form := { acc := .read, size := size, sp := sp.toNat, path := 0, ticks := false }
    let r := translateLanes f (s.imagePlaces sp.toNat size addr) (s.countMem f)
    ∀ u im, s.gang.counter 0 < 63 → r.2.faults = [] → s.gang.lateOn r.2.ok = [] →
      State.readImage (s.gang.nuCode n.toNat 0) (imagePieces va size r.2.ok) r.1 = .ok (u, im) →
      exec (.xrst a n sp) s = if !imageOk x im then xMisuse 2 s
        else .next (((({ u with nextId := u.nextId + 1 }).updGang
          (fun g => (g.raise 0 u.nextId true).finishReplay)).restoreGroup s.gang.wid x im).advance) := by
  intro addr va size f r u im hroom hok hlate himage
  show execXrst a n sp s = _
  unfold execXrst
  rw [if_neg hn, guardOps_issues hi]
  dsimp only
  rw [hx.1, withXGroup_in hx, guardLanes_readable hread, heldOr_free hheld, hfault]
  dsimp only
  rw [if_neg (by decide), if_neg (Nat.not_le.mpr hroom), show (translateLanes f _ _).2.faults = [] from hok]
  dsimp only
  rw [show s.gang.lateOn (translateLanes f _ _).2.ok = [] from hlate,
    show State.readImage _ (imagePieces va size (translateLanes f _ _).2.ok) (translateLanes f _ _).1 = .ok (u, im) from himage]
  rfl

/-- Settles O43: the two words run as their equations say, once the checks have passed. -/
theorem expandImages : Obligations.ExpandImages := by
  intro s x a n sp hn hx hheld hi hread addr va bs size
  have hlen : bs.length = size := XGroup.length_image ..
  refine ⟨hlen, fun hfault => ⟨?_, ?_⟩⟩
  · exact exec_xsave hn hx (Gang.heldBy_subset (by decide) hheld) hi hread (hlen.symm ▸ hfault)
  · intro f r u im hroom hok hlate himage
    have hexec := exec_xrst hn hx (Gang.heldBy_subset (by decide) hheld) hi hread hfault u im hroom hok hlate himage
    refine ⟨fun hgood => ?_, fun hbad => ?_⟩
    · rw [hexec, hgood]
      rfl
    · rw [hexec, hbad]
      rfl

end Sys2Proof.Machine
end

section
/-! ## Forming expand groups (12 R303, R304) -/

namespace Sys2Proof.Machine

/-! ### The tables of a group -/

theorem prefixMap_total (len : Nat → Nat) (n : Nat) : (prefixMap len n).2 = ((List.range n).map len).sum := by
  induction n with
  | zero => rfl
  | succ n ih => simp [prefixMap, ih, List.range_succ]

theorem mapGet_prefixMap (len : Nat → Nat) {n i : Nat} (hi : i < n) :
    mapGet 0 (prefixMap len n).1 i = ((List.range i).map len).sum := by
  induction n with
  | zero => omega
  | succ n ih =>
    rw [prefixMap, mapGet_set]
    split
    · next h => rw [h, prefixMap_total]
    · next h => exact ih (by omega)

theorem prefixMap_congr {f g : Nat → Nat} {n : Nat} (h : ∀ i, i < n → f i = g i) : prefixMap f n = prefixMap g n := by
  induction n with
  | zero => rfl
  | succ n ih => rw [prefixMap, prefixMap, ih fun i hi => h i (by omega), h n (by omega)]

theorem mapGet_startMap (start : Nat → DWord) {n i : Nat} (hi : i < n) : mapGet 0 (startMap start n) i = start i := by
  induction n with
  | zero => omega
  | succ n ih =>
    rw [startMap, mapGet_set]
    split
    · next h => rw [h]
    · next h => exact ih (by omega)

theorem startMap_congr {f g : Nat → DWord} {n : Nat} (h : ∀ i, i < n → f i = g i) : startMap f n = startMap g n := by
  induction n with
  | zero => rfl
  | succ n ih => rw [startMap, startMap, ih fun i hi => h i (by omega), h n (by omega)]

theorem gangKey_inj {wid m n : Nat} (h : gangKey wid m = gangKey wid n) : m = n := by
  unfold gangKey at h
  omega

/-! ### A group takes the place of others -/

theorem cur_installGroup (s : State) (wid : Nat) (x : XGroup) : (s.installGroup wid x).cur = s.cur := by
  show (List.foldl _ s _).cur = _
  refine foldl_keeps State.cur (fun u m => ?_) _ s
  rfl

theorem mem_installGroup (s : State) (wid : Nat) (x : XGroup) : (s.installGroup wid x).mem = s.mem := by
  show (List.foldl _ s _).mem = _
  refine foldl_keeps State.mem (fun u m => ?_) _ s
  rfl

/-- The members' own gangs are as before. -/
theorem gangAt_installGroup (s : State) (wid : Nat) (x : XGroup) {m : Nat} (hm : m ∈ x.members) :
    (s.installGroup wid x).gangAt (gangKey wid m) = s.gangAt (gangKey wid m) := by
  refine gangAt_updGangs_other (gangKey wid) (fun _ g => { g with regs := { g.regs with xst := 0, broken := true } }) _ s ?_
  intro h
  obtain ⟨j, hj, hkey⟩ := List.mem_map.mp h
  have hout := (List.mem_filter.mp hj).2
  rw [gangKey_inj hkey] at hout
  simp [hm] at hout

/-- The new group is the group of its members. -/
theorem groupOf_installGroup (s : State) (wid : Nat) (x : XGroup) {m : Nat} (hm : m ∈ x.members) :
    ((s.installGroup wid x).wgAt wid).groupOf m = some x := by
  unfold State.installGroup State.updWgAt
  dsimp only
  rw [State.wgAt_setWgAt]
  unfold Workgroup.groupOf
  dsimp only
  rw [List.find?_append, List.find?_eq_none.mpr ?_, Option.none_or, List.find?_cons_of_pos (by simpa using hm)]
  intro y hy hmem
  have hapart := (List.mem_filter.mp hy).2
  simp only [Bool.not_eq_true', List.any_eq_false] at hapart
  exact hapart m (by simpa using hmem) (by simpa using hm)

/-! ### A member after formation -/

/-- What a formation leaves of the gang in focus: past its word, a member, with the total in its scalar register. -/
def State.becameMember (s t : State) (d : Code) (xst : DWord) (total : Nat) : Prop :=
  s.past t ∧ t.gang.regs.v = s.gang.regs.v ∧ t.gang.regs.xst = xst ∧ t.gang.regs.broken = false ∧
  ∀ k, k < 8 → s.gang.issuing k = true → d ≠ 0xF0 → t.gang.s k d.toNat = BitVec.ofNat 32 total

/-- A gang that has left its formation as a member, before its total and its next word. -/
def Gang.joined (g : Gang) (xst : DWord) : Gang :=
  { g with
    flow := { g.flow with blocks := mapDrop g.flow.served g.flow.blocks }
    regs := { g.regs with xst := xst, broken := false } }

theorem Gang.formed_eq {g : Gang}
    (hlead : ((g.flow.blocks.find? (fun e => decide (e.2 = .formation))).map (·.1)).getD g.flow.served = g.flow.served)
    (g1 m total : Nat) (d : Code) : g.formed g1 m total d = ((g.joined (xstOf 2 g1 m 0)).putSAll d (BitVec.ofNat 32 total)).advance := by
  unfold Gang.formed
  rw [hlead]
  rfl

theorem Gang.regs_putSAll (g : Gang) (d : Code) (x : Word) : (g.putSAll d x).regs = { g.regs with sc := (g.putSAll d x).regs.sc } := by
  unfold Gang.putSAll Gang.putS
  split <;> rfl

theorem becameMember_joined {s t : State} {g : Gang} {xst : DWord} {total : Nat} {d : Code}
    (hg : t.gang = ((g.joined xst).putSAll d (BitVec.ofNat 32 total)).advance)
    (hpc : g.flow.pc = s.gang.flow.pc) (hgrp : g.flow.grp = s.gang.flow.grp) (hserved : g.flow.served = s.gang.flow.served)
    (hexited : g.flow.exited = s.gang.flow.exited) (hv : g.regs.v = s.gang.regs.v)
    (hd : ∀ k, s.gang.issuing k = true → sDst d = true) : s.becameMember t d xst total := by
  have hflow := Gang.flow_putSAll (g.joined xst) d (BitVec.ofNat 32 total)
  have hregs := Gang.regs_putSAll (g.joined xst) d (BitVec.ofNat 32 total)
  have hissue : ∀ k, (g.joined xst).issuing k = s.gang.issuing k := Gang.issuing_congr hgrp hserved hexited
  refine ⟨fun k hk => ?_, ?_, ?_, ?_, fun k hk hik hd0 => ?_⟩
  · have hissue' : ((g.joined xst).putSAll d (BitVec.ofNat 32 total)).issuing k = s.gang.issuing k :=
      (Gang.issuing_congr (congrArg Flow.grp hflow) (congrArg Flow.served hflow) (congrArg Flow.exited hflow) k).trans (hissue k)
    have hat : ∀ j, ((g.joined xst).putSAll d (BitVec.ofNat 32 total)).pc j = s.gang.pc j := fun j =>
      congrArg (fun p => mapGet 0 p j) ((congrArg Flow.pc hflow).trans hpc)
    have hnow : ((g.joined xst).putSAll d (BitVec.ofNat 32 total)).pcNow = s.gang.pcNow := by
      unfold Gang.pcNow Gang.low
      rw [show ((g.joined xst).putSAll d (BitVec.ofNat 32 total)).flow.served = s.gang.flow.served from
        (congrArg Flow.served hflow).trans hserved, hat]
    rw [hg, Gang.pc_advance _ _ hk, hissue', hnow, hat]
  · rw [hg, Gang.regs_advance, hregs]
    exact hv
  · rw [hg, Gang.regs_advance, hregs]
    rfl
  · rw [hg, Gang.regs_advance, hregs]
    rfl
  · rw [hg, Gang.s_advance]
    exact Gang.s_putSAll (g.joined xst) hd0 (hd k hik) _ hk ((hissue k).trans hik)

/-! ### expb -/

/-- The group that the gang in focus forms alone. -/
def State.aloneGroup (s : State) (a b : Code) : XGroup :=
  { members := [s.gang.num], total := (prefixMap (fun l => (s.laneRun a b l).2) 32).2
    start := startMap (fun l => (s.laneRun a b l).1) 32, pre := (prefixMap (fun l => (s.laneRun a b l).2) 32).1 }

/-- The gang in focus has become the only member of a group. -/
def State.formedAlone (s t : State) (d a b : Code) : Prop :=
  let p := prefixMap (fun l => (s.laneRun a b l).2) 32
  s.past t ∧ t.gang.regs.v = s.gang.regs.v ∧ t.mem = s.mem ∧
    t.gang.regs.xst = xstOf 2 0 0 0 ∧ t.gang.regs.broken = false ∧
    (∃ x, t.wg.groupOf s.gang.num = some x ∧ x.members = [s.gang.num] ∧ x.total = p.2 ∧
      ∀ l, l < 32 → mapGet 0 x.start l = (s.laneRun a b l).1 ∧
        mapGet 0 x.pre l = ((List.range l).map (fun j => (s.laneRun a b j).2)).sum) ∧
    ∀ k, k < 8 → s.gang.issuing k = true → d ≠ 0xF0 → t.gang.s k d.toNat = BitVec.ofNat 32 p.2

theorem formedAlone_of {s t : State} {d a b : Code} (ht : s.becameMember t d (xstOf 2 0 0 0) (s.aloneGroup a b).total) (hmem : t.mem = s.mem)
    (hgroup : t.wg.groupOf s.gang.num = some (s.aloneGroup a b)) : s.formedAlone t d a b := by
  obtain ⟨hpast, hv, hxst, hbroken, hs⟩ := ht
  exact ⟨hpast, hv, hmem, hxst, hbroken, ⟨_, hgroup, rfl, rfl, fun l hl => ⟨mapGet_startMap _ hl, mapGet_prefixMap _ hl⟩⟩, hs⟩

theorem expb_forms {s : State} {d a b : Code} (hheld : s.gang.heldBy 64 = [])
    (hi : s.issues (fixedOps [.sw 32 d, .vr 64 a, .vr 32 b]) = true) (hw : s.gang.whole = true)
    (hblocks : s.gang.flow.blocks = []) (hcur : s.cur = gangKey s.gang.wid s.gang.num)
    (hsum : (prefixMap (fun l => (s.laneRun a b l).2) 32).2 < 2 ^ 32) :
    ∃ t, exec (.expb d a b) s = .next t ∧ s.formedAlone t d a b := by
  let u := s.installGroup s.gang.wid (s.aloneGroup a b)
  have hucur : u.cur = s.cur := cur_installGroup ..
  have hgang : u.gang = s.gang := by
    show u.gangAt u.cur = s.gangAt s.cur
    rw [hucur, hcur]
    exact gangAt_installGroup s _ (s.aloneGroup a b) List.mem_cons_self
  have hg : (u.updGang fun g => g.formed 0 0 (s.aloneGroup a b).total d).gang = s.gang.formed 0 0 (s.aloneGroup a b).total d := by
    rw [State.gang_updGang, hgang]
  have hform : s.becameMember (u.updGang fun g => g.formed 0 0 (s.aloneGroup a b).total d) d (xstOf 2 0 0 0) (s.aloneGroup a b).total :=
    becameMember_joined (hg.trans (Gang.formed_eq (by rw [hblocks]; rfl) ..)) rfl rfl rfl rfl rfl fun k hk => legal_of_issues hi hk List.mem_cons_self
  refine ⟨_, ?_, formedAlone_of hform (mem_installGroup ..) ?_⟩
  · show execExpb d a b s = _
    unfold execExpb
    rw [guardOps_issues hi, heldOr_free hheld]
    dsimp only
    rw [hw, if_neg (by decide), if_neg (Nat.not_le.mpr hsum)]
    rfl
  · have hwid : (s.gang.formed 0 0 (s.aloneGroup a b).total d).wid = s.gang.wid := by
      unfold Gang.formed Gang.putSAll Gang.putS
      dsimp only
      split <;> rfl
    unfold State.wg
    rw [hg, hwid]
    exact groupOf_installGroup s s.gang.wid (s.aloneGroup a b) List.mem_cons_self

end Sys2Proof.Machine
end

section
/-! ## expb.g (12 R304) -/

namespace Sys2Proof.Machine

/-- What the gang in focus contributes to the formation that its expb.g waits for. -/
def State.ownForming (s : State) (d a b : Code) : XForming :=
  { gang := s.gang.num, desc := s.sarg d, dest := d, word := s.ir, old := s.gang.regs.xst
    start := startMap (fun l => (s.laneRun a b l).1) 32
    len := (List.range 32).foldl (fun m l => mapSet 0 m l (s.laneRun a b l).2) [] }

/-- A gang that waits at its expb.g, with the word kept and its xst. -/
def Gang.waitsForm (g : Gang) (w : Word) (xst : DWord) : Gang :=
  { g.keepWord w with
    flow := { (g.keepWord w).flow with blocks := mapPut g.flow.served .formation g.flow.blocks }
    regs := { g.regs with xst := xst, broken := false } }

theorem Gang.lead_waitsForm {g : Gang} (h : g.flow.blocks = []) (w : Word) (xst : DWord) :
    (((g.waitsForm w xst).flow.blocks.find? (fun e => decide (e.2 = .formation))).map (·.1)).getD (g.waitsForm w xst).flow.served =
      (g.waitsForm w xst).flow.served := by
  unfold Gang.waitsForm
  dsimp only
  rw [h]
  rfl

/-- The gang in focus waits at its expb.g, before the formation is looked at; `fx` gives its xst. -/
def State.waitingForm (fx : DWord → DWord) (s : State) (d a b : Code) : State :=
  ((s.stall .formation).updWg fun w => { w with
    forming := w.forming.filter (fun y => decide (y.gang ≠ s.gang.num)) ++ [s.ownForming d a b] }).updGang fun g =>
      { g with regs := { g.regs with xst := fx g.regs.xst, broken := false } }

theorem len_ownForming (s : State) (d a b : Code) {l : Nat} (hl : l < 32) :
    mapGet 0 (s.ownForming d a b).len l = (s.laneRun a b l).2 := by
  refine (mapGet_foldl_set 0 (fun _ => true) (fun l => (s.laneRun a b l).2) (List.range 32) [] l).trans ?_
  rw [if_pos ⟨List.mem_range.mpr hl, rfl⟩]

theorem exec_expbG {s : State} {d a b : Code} (hheld : s.gang.heldBy 64 = [])
    (hi : s.issues (fixedOps [.sw 32 d, .vr 64 a, .vr 32 b]) = true) (hw : s.gang.whole = true)
    (hdesc : descOk s.wg s.gang.num (s.sarg d) = true) :
    exec (.expbG d a b) s = .next ((s.waitingForm (xstWith · 1) d a b).tryFormation s.gang.wid) := by
  show execExpbG d a b s = _
  unfold execExpbG
  rw [guardOps_issues hi, heldOr_free hheld]
  dsimp only
  rw [hw, hdesc, if_neg (by decide), if_neg (by decide)]
  rfl

theorem xstWith_toNat (x : DWord) : (xstWith x 1).toNat = x.toNat % 2 ^ 62 + 2 ^ 62 := by
  unfold xstWith
  rw [BitVec.toNat_ofNat]
  omega

section
variable {s : State} (fx : DWord → DWord) (d a b : Code)

theorem gang_waitingForm : (s.waitingForm fx d a b).gang = s.gang.waitsForm s.ir (fx s.gang.regs.xst) := by
  unfold State.waitingForm
  rw [State.gang_updGang, State.gang_updWg, State.stall, State.gang_updGang]
  rfl

theorem gangAt_waitingForm_other {k : Nat} (hk : k ≠ s.cur) : (s.waitingForm fx d a b).gangAt k = s.gangAt k := by
  unfold State.waitingForm
  rw [State.gangAt_updGang_other _ _ (by exact hk)]
  show (s.stall .formation).gangAt k = _
  exact State.gangAt_updGang_other s _ hk

theorem live_waitingForm (k : Nat) : ((s.waitingForm fx d a b).gangAt k).live = (s.gangAt k).live := by
  by_cases hk : k = s.cur
  · subst hk
    exact (congrArg Gang.live (gang_waitingForm (s := s) fx d a b) :)
  · rw [gangAt_waitingForm_other fx d a b hk]

theorem wgAt_waitingForm (hforming : s.wg.forming = []) :
    (s.waitingForm fx d a b).wgAt s.gang.wid = { s.wg with forming := [s.ownForming d a b] } := by
  have hstall : (s.stall .formation).gang.wid = s.gang.wid := by
    unfold State.stall
    rw [State.gang_updGang]
    rfl
  have hwg : (s.stall .formation).wgAt s.gang.wid = s.wg := rfl
  unfold State.waitingForm State.updWg State.updWgAt
  show (State.setWgAt ..).wgAt s.gang.wid = _
  rw [hstall, State.wgAt_setWgAt, hwg]
  dsimp only
  rw [hforming]
  rfl

/-- The formation that waits, when no other gang of the workgroup's does: the members have not ended. -/
theorem tryFormation_waitingForm (hcur : s.cur = gangKey s.gang.wid s.gang.num) (hforming : s.wg.forming = [])
    (hlive : ∀ m ∈ descMembers (s.sarg d), (s.gangAt (gangKey s.gang.wid m)).live = true) :
    let u := s.waitingForm fx d a b
    let f := s.ownForming d a b
    u.formingOf s.gang.wid s.gang.num = some f ∧
    (u.formationReady s.gang.wid f = false → u.tryFormation s.gang.wid = u) ∧
    (∀ x : XGroup, descMembers (s.sarg d) = [s.gang.num] → x = s.aloneGroup a b → x.total < 2 ^ 32 →
      u.tryFormation s.gang.wid = ((u.installGroup s.gang.wid x).updWgAt s.gang.wid fun w => { w with
        forming := w.forming.filter (fun y => !([s.gang.num].contains y.gang)) }).updGangAt (gangKey s.gang.wid s.gang.num)
          fun g => g.formed 0 0 x.total d) := by
  intro u f
  have hgang : u.gangAt (gangKey s.gang.wid s.gang.num) = u.gang := congrArg u.gangAt hcur.symm
  have hat : (u.gangAt (gangKey s.gang.wid s.gang.num)).atFormation = true := by
    rw [hgang, gang_waitingForm]
    exact List.any_eq_true.mpr ⟨_, mem_mapPut_self _ _ _, decide_eq_true rfl⟩
  have hform : (u.wgAt s.gang.wid).forming = [f] := by rw [wgAt_waitingForm fx d a b hforming]
  have hof : u.formingOf s.gang.wid s.gang.num = some f := by
    unfold State.formingOf
    rw [if_pos hat, hform]
    exact List.find?_cons_of_pos (decide_eq_true rfl)
  have hfs : (u.wgAt s.gang.wid).forming.filter (fun f => (u.gangAt (gangKey s.gang.wid f.gang)).atFormation) = [f] := by
    rw [hform]
    exact List.filter_cons_of_pos hat
  have hlost : [f].find? (u.formationLost s.gang.wid) = none := by
    refine List.find?_cons_of_neg (fun hbad => ?_)
    obtain ⟨m, hm, hdead⟩ := List.any_eq_true.mp hbad
    rw [live_waitingForm, hlive m hm] at hdead
    cases hdead
  refine ⟨hof, fun hready => ?_, fun x hms hx hsum => ?_⟩
  · unfold State.tryFormation
    dsimp only
    rw [hfs, hlost]
    dsimp only
    rw [List.find?_cons_of_neg (by rw [hready]; decide)]
    rfl
  · have hmembers : descMembers f.desc = [s.gang.num] := hms
    have hready : u.formationReady s.gang.wid f = true := by
      unfold State.formationReady
      rw [hmembers]
      simp [hof]
    have hget : (u.formingOf s.gang.wid s.gang.num).getD f = f := by rw [hof]; rfl
    have howner : ∀ i, i < 32 → ([s.gang.num].getD (i / 32) 0) = s.gang.num := fun i hi => by
      rw [Nat.div_eq_of_lt hi]
      rfl
    have hprefix : prefixMap (fun i => mapGet 0 ((u.formingOf s.gang.wid ([s.gang.num].getD (i / 32) 0)).getD f).len (i % 32)) 32 =
        prefixMap (fun l => (s.laneRun a b l).2) 32 :=
      prefixMap_congr fun i hi => by rw [howner i hi, hget, Nat.mod_eq_of_lt hi, len_ownForming s d a b hi]
    have hstart : startMap (fun i => mapGet 0 ((u.formingOf s.gang.wid ([s.gang.num].getD (i / 32) 0)).getD f).start (i % 32)) 32 =
        startMap (fun l => (s.laneRun a b l).1) 32 :=
      startMap_congr fun i hi => by
        rw [howner i hi, hget, Nat.mod_eq_of_lt hi]
        exact mapGet_startMap _ hi
    subst hx
    have hfits : ¬ 2 ^ 32 ≤ (prefixMap (fun l => (s.laneRun a b l).2) 32).2 := Nat.not_le.mpr hsum
    unfold State.tryFormation
    dsimp only
    rw [hfs, hlost]
    dsimp only
    rw [List.find?_cons_of_pos hready]
    dsimp only
    rw [hmembers, if_neg (by simp [hget])]
    simp only [List.length_singleton, Nat.mul_one]
    rw [hprefix, hstart, if_neg hfits]
    simp only [List.foldl_cons, List.foldl_nil, hget]
    simp only [List.findIdx_cons, decide_true, cond_true]
    rfl

end

/-- The state in which the gang that waits alone has become the member of its group. -/
def State.joinedAlone (s u : State) (d a b : Code) : State :=
  ((u.installGroup s.gang.wid (s.aloneGroup a b)).updWgAt s.gang.wid fun w => { w with
    forming := w.forming.filter (fun y => !([s.gang.num].contains y.gang)) }).updGangAt (gangKey s.gang.wid s.gang.num)
      fun g => g.formed 0 0 (s.aloneGroup a b).total d

theorem formedAlone_joinedAlone {s u : State} {d a b : Code} {xst : DWord} (hu : u.gang = s.gang.waitsForm s.ir xst)
    (hucur : u.cur = s.cur) (hmem : u.mem = s.mem) (hblocks : s.gang.flow.blocks = [])
    (hcur : s.cur = gangKey s.gang.wid s.gang.num) (hd : ∀ k, s.gang.issuing k = true → sDst d = true) :
    s.formedAlone (s.joinedAlone u d a b) d a b := by
  let v := (u.installGroup s.gang.wid (s.aloneGroup a b)).updWgAt s.gang.wid fun w => { w with
    forming := w.forming.filter (fun y => !([s.gang.num].contains y.gang)) }
  have hvcur : v.cur = gangKey s.gang.wid s.gang.num := (cur_installGroup u ..).trans (hucur.trans hcur)
  have hgang : v.gang = u.gang := by
    show (u.installGroup s.gang.wid (s.aloneGroup a b)).gangAt v.cur = u.gangAt u.cur
    rw [hvcur, hucur, hcur]
    exact gangAt_installGroup u s.gang.wid (s.aloneGroup a b) List.mem_cons_self
  have hg : (s.joinedAlone u d a b).gang = u.gang.formed 0 0 (s.aloneGroup a b).total d :=
    (gang_updGangAt_cur hvcur _).trans (congrArg (fun g => g.formed 0 0 (s.aloneGroup a b).total d) hgang)
  have hlead : ((u.gang.flow.blocks.find? (fun e => decide (e.2 = .formation))).map (·.1)).getD u.gang.flow.served =
      u.gang.flow.served := by
    rw [hu]
    exact Gang.lead_waitsForm hblocks ..
  have hform : s.becameMember (s.joinedAlone u d a b) d (xstOf 2 0 0 0) (s.aloneGroup a b).total :=
    becameMember_joined (hg.trans (Gang.formed_eq hlead ..)) (by rw [hu]; rfl) (by rw [hu]; rfl) (by rw [hu]; rfl)
      (by rw [hu]; rfl) (by rw [hu]; rfl) hd
  refine formedAlone_of hform ((mem_installGroup u ..).trans hmem) ?_
  have hwid : (u.gang.formed 0 0 (s.aloneGroup a b).total d).wid = s.gang.wid := by
    have huwid : u.gang.wid = s.gang.wid := by rw [hu]; rfl
    rw [← huwid]
    unfold Gang.formed Gang.putSAll Gang.putS
    dsimp only
    split <;> rfl
  unfold State.wg
  rw [hg, hwid]
  refine Eq.trans ?_ (groupOf_installGroup u s.gang.wid (s.aloneGroup a b) List.mem_cons_self)
  show (v.wgAt s.gang.wid).groupOf s.gang.num = _
  rw [show v.wgAt s.gang.wid = _ from State.wgAt_setWgAt ..]
  rfl

theorem expbG_alone {s : State} {d a b : Code} (hheld : s.gang.heldBy 64 = [])
    (hi : s.issues (fixedOps [.sw 32 d, .vr 64 a, .vr 32 b]) = true) (hw : s.gang.whole = true)
    (hblocks : s.gang.flow.blocks = []) (hcur : s.cur = gangKey s.gang.wid s.gang.num) (hlive : s.gang.live = true)
    (hforming : s.wg.forming = []) (hdesc : descOk s.wg s.gang.num (s.sarg d) = true)
    (hms : descMembers (s.sarg d) = [s.gang.num]) (hsum : (prefixMap (fun l => (s.laneRun a b l).2) 32).2 < 2 ^ 32) :
    ∃ t, exec (.expbG d a b) s = .next t ∧ s.formedAlone t d a b := by
  have hlives : ∀ m ∈ descMembers (s.sarg d), (s.gangAt (gangKey s.gang.wid m)).live = true := fun m hm => by
    rw [hms, List.mem_singleton] at hm
    rw [hm, ← hcur]
    exact hlive
  obtain ⟨-, -, htry⟩ := tryFormation_waitingForm (xstWith · 1) d a b hcur hforming hlives
  exact ⟨s.joinedAlone (s.waitingForm (xstWith · 1) d a b) d a b, (exec_expbG hheld hi hw hdesc).trans (congrArg _ (htry _ hms rfl hsum)),
    formedAlone_joinedAlone (gang_waitingForm _ d a b) rfl rfl hblocks hcur fun k hk => legal_of_issues hi hk List.mem_cons_self⟩

/-- The gang has stalled, and of its xst the state alone has changed. -/
theorem waitingForm_stalls {s : State} (fx : DWord → DWord) (d a b : Code)
    (hfx : (fx s.gang.regs.xst).toNat = s.gang.regs.xst.toNat % 2 ^ 62 + 2 ^ 62) :
    let t := s.waitingForm fx d a b
    mapFind s.gang.flow.served t.gang.flow.blocks = some .formation ∧ xstState t.gang.regs.xst = 1 ∧
      t.gang.regs.xst.toNat % 2 ^ 62 = s.gang.regs.xst.toNat % 2 ^ 62 ∧ t.gang.regs.v = s.gang.regs.v := by
  intro t
  rw [show t.gang = _ from gang_waitingForm fx d a b]
  refine ⟨mapFind_put_same .., ?_, ?_, rfl⟩
  · show (fx s.gang.regs.xst).toNat / 2 ^ 62 % 2 ^ 2 = 1
    omega
  · show (fx s.gang.regs.xst).toNat % 2 ^ 62 = _
    omega

theorem expbG_waits {s : State} {d a b : Code} (hheld : s.gang.heldBy 64 = [])
    (hi : s.issues (fixedOps [.sw 32 d, .vr 64 a, .vr 32 b]) = true) (hw : s.gang.whole = true)
    (hcur : s.cur = gangKey s.gang.wid s.gang.num) (hforming : s.wg.forming = [])
    (hdesc : descOk s.wg s.gang.num (s.sarg d) = true)
    (hpartner : ∃ m ∈ descMembers (s.sarg d), m ≠ s.gang.num ∧ (s.gangAt (gangKey s.gang.wid m)).atFormation = false)
    (hlive : ∀ m ∈ descMembers (s.sarg d), (s.gangAt (gangKey s.gang.wid m)).live = true) :
    ∃ t, exec (.expbG d a b) s = .next t ∧ mapFind s.gang.flow.served t.gang.flow.blocks = some .formation ∧
      xstState t.gang.regs.xst = 1 ∧ t.gang.regs.xst.toNat % 2 ^ 62 = s.gang.regs.xst.toNat % 2 ^ 62 ∧
      t.gang.regs.v = s.gang.regs.v := by
  obtain ⟨m, hm, hne, hnot⟩ := hpartner
  obtain ⟨-, hstays, -⟩ := tryFormation_waitingForm (xstWith · 1) d a b hcur hforming hlive
  have hready : (s.waitingForm (xstWith · 1) d a b).formationReady s.gang.wid (s.ownForming d a b) = false := by
    rw [Bool.eq_false_iff]
    intro hall
    have hsome := List.all_eq_true.mp hall m hm
    unfold State.formingOf at hsome
    rw [gangAt_waitingForm_other _ d a b fun h => hne (gangKey_inj (h.trans hcur)), hnot] at hsome
    cases hsome
  refine ⟨_, (exec_expbG hheld hi hw hdesc).trans (congrArg _ (hstays hready)), ?_⟩
  exact waitingForm_stalls _ d a b (xstWith_toNat _)

end Sys2Proof.Machine
end

section
/-! ## Rounds and segmented sums (12 R305, R306) -/

namespace Sys2Proof.Machine

/-! ### expn -/

/-- Lane l of a round takes the item of its number from `base` on. -/
def XGroup.dealLane (x : XGroup) (base : Nat) (r : Regs) (l : Nat) : Regs :=
  { r with
    xo := mapSet 0 r.xo l (BitVec.ofNat 32 (x.owner (base + l)))
    xk := mapSet 0 r.xk l (BitVec.ofNat 32 (base + l - x.prefix_ (x.owner (base + l))))
    xi := mapSet 0 r.xi l (mapGet 0 x.start (x.owner (base + l)) + BitVec.ofNat 64 (base + l - x.prefix_ (x.owner (base + l)))) }

/-- The gang after a round that starts at item `base`, with its new xst and what d and a tell. -/
def Gang.dealt (g : Gang) (x : XGroup) (base : Nat) (xst : DWord) (d a : Code) (more : Bool) : Gang :=
  (({ g with regs := { ((List.range 32).filter fun l => decide (base + l < x.total)).foldl (x.dealLane base) g.regs with
    xst := xst } }).putP d (fun _ => true) fun l => decide (base + l < x.total)).putP a (fun _ => true) fun _ => more

theorem Gang.regs_setPMask (g : Gang) (i : Nat) (m : Word) : (g.setPMask i m).regs = { g.regs with p := (g.setPMask i m).regs.p } := rfl

theorem Gang.regs_putP (g : Gang) (d : Code) (f y : Nat → Bool) : (g.putP d f y).regs = { g.regs with p := (g.putP d f y).regs.p } := by
  by_cases hd : d = 0xF0
  · rw [Gang.putP, if_pos hd]
  · rw [Gang.putP, if_neg hd]
    exact Gang.regs_setPMask ..

theorem Gang.flow_putP (g : Gang) (d : Code) (f y : Nat → Bool) : (g.putP d f y).flow = g.flow := by
  by_cases hd : d = 0xF0
  · rw [Gang.putP, if_pos hd]
  · rw [Gang.putP, if_neg hd]
    exact Gang.flow_writePLanes ..

theorem Gang.p_putP (g : Gang) {d : Code} (hd : d ≠ 0xF0) (y : Nat → Bool) (j : Nat) {l : Nat} (hl : l < 32) :
    (g.putP d (fun _ => true) y).p j l = if j = d.toNat then y l else g.p j l := by
  unfold Gang.putP
  rw [if_neg hd, Gang.p_writePLanes _ _ _ _ _ _ hl]
  simp

/-- What the lanes of a round hold after it, and what of the registers it leaves. -/
theorem XGroup.dealLanes (x : XGroup) (base : Nat) (ls : List Nat) (r : Regs) (l : Nat) :
    let q := ls.foldl (x.dealLane base) r
    q.v = r.v ∧
    (mapGet 0 q.xo l = if l ∈ ls then BitVec.ofNat 32 (x.owner (base + l)) else mapGet 0 r.xo l) ∧
    (mapGet 0 q.xk l = if l ∈ ls then BitVec.ofNat 32 (base + l - x.prefix_ (x.owner (base + l))) else mapGet 0 r.xk l) ∧
    (mapGet 0 q.xi l = if l ∈ ls then mapGet 0 x.start (x.owner (base + l)) +
      BitVec.ofNat 64 (base + l - x.prefix_ (x.owner (base + l))) else mapGet 0 r.xi l) := by
  induction ls generalizing r with
  | nil => exact ⟨rfl, rfl, rfl, rfl⟩
  | cons j ls ih =>
    obtain ⟨hv, hxo, hxk, hxi⟩ := ih (x.dealLane base r j)
    refine ⟨hv, hxo.trans ?_, hxk.trans ?_, hxi.trans ?_⟩
    all_goals
      simp only [XGroup.dealLane, mapGet_set, List.mem_cons]
      by_cases hj : l = j
      · subst hj
        simp
      · simp [hj]

section
variable (g : Gang) (x : XGroup) (base : Nat) (xst : DWord) (d a : Code) (more : Bool)

theorem Gang.flow_dealt : (g.dealt x base xst d a more).flow = g.flow := (Gang.flow_putP ..).trans (Gang.flow_putP ..)

theorem Gang.regs_dealt : ∃ p, (g.dealt x base xst d a more).regs =
    { ((List.range 32).filter fun l => decide (base + l < x.total)).foldl (x.dealLane base) g.regs with p := p, xst := xst } := by
  unfold Gang.dealt
  rw [Gang.regs_putP, Gang.regs_putP]
  exact ⟨_, rfl⟩

theorem Gang.dealt_lane {l : Nat} (hl : l < 32) :
    (d ≠ 0xF0 → d ≠ a → (g.dealt x base xst d a more).p d.toNat l = decide (base + l < x.total)) ∧
    (a ≠ 0xF0 → (g.dealt x base xst d a more).p a.toNat l = more) ∧
    (base + l < x.total →
      (mapGet 0 (g.dealt x base xst d a more).regs.xo l).toNat = x.owner (base + l) % 2 ^ 32 ∧
      (mapGet 0 (g.dealt x base xst d a more).regs.xk l).toNat = (base + l - x.prefix_ (x.owner (base + l))) % 2 ^ 32 ∧
      mapGet 0 (g.dealt x base xst d a more).regs.xi l =
        mapGet 0 x.start (x.owner (base + l)) + BitVec.ofNat 64 (base + l - x.prefix_ (x.owner (base + l)))) ∧
    (x.total ≤ base + l → mapGet 0 (g.dealt x base xst d a more).regs.xi l = mapGet 0 g.regs.xi l) := by
  obtain ⟨p, hregs⟩ := g.regs_dealt x base xst d a more
  obtain ⟨-, hxo, hxk, hxi⟩ := x.dealLanes base ((List.range 32).filter fun l => decide (base + l < x.total)) g.regs l
  have hmem : l ∈ (List.range 32).filter (fun l => decide (base + l < x.total)) ↔ base + l < x.total := by
    simp [List.mem_filter, hl]
  refine ⟨fun hd hne => ?_, fun ha => ?_, fun hlt => ?_, fun hge => ?_⟩
  · unfold Gang.dealt
    by_cases ha : a = 0xF0
    · rw [Gang.putP, if_pos ha, Gang.p_putP _ hd _ _ hl, if_pos rfl]
    · rw [Gang.p_putP _ ha _ _ hl, if_neg fun h => hne (BitVec.eq_of_toNat_eq h), Gang.p_putP _ hd _ _ hl, if_pos rfl]
  · exact (Gang.p_putP _ ha _ _ hl).trans (if_pos rfl)
  · rw [if_pos (hmem.mpr hlt)] at hxo hxk hxi
    rw [hregs]
    exact ⟨(congrArg BitVec.toNat hxo).trans (BitVec.toNat_ofNat ..), (congrArg BitVec.toNat hxk).trans (BitVec.toNat_ofNat ..), hxi⟩
  · rw [if_neg fun h => absurd (hmem.mp h) (Nat.not_lt.mpr hge)] at hxi
    rw [hregs]
    exact hxi

end

theorem expn_deals {s : State} {d a : Code} {x : XGroup} (hheld : s.gang.heldBy 64 = [])
    (hi : s.issues (fixedOps [.pw d, .pw a]) = true) (hx : s.inGroup x) :
    let n := x.members.length
    let base := xstRound s.gang.regs.xst * 32 * n + 32 * xstM s.gang.regs.xst
    let next := (xstRound s.gang.regs.xst + 1) % 2 ^ 32
    ∃ t, exec (.expn d a) s = .next t ∧ s.past t ∧ s.sameDevice t ∧ t.gang.regs.v = s.gang.regs.v ∧
      t.gang.regs.xst = xstOf 2 (n - 1) (xstM s.gang.regs.xst) next ∧
      ∀ l, l < 32 → (d ≠ 0xF0 → d ≠ a → t.gang.p d.toNat l = decide (base + l < x.total)) ∧
        (a ≠ 0xF0 → t.gang.p a.toNat l = decide (next * 32 * n + 32 * xstM s.gang.regs.xst < x.total)) ∧
        (base + l < x.total →
          let o := x.owner (base + l)
          (mapGet 0 t.gang.regs.xo l).toNat = o % 2 ^ 32 ∧
          (mapGet 0 t.gang.regs.xk l).toNat = (base + l - x.prefix_ o) % 2 ^ 32 ∧
          mapGet 0 t.gang.regs.xi l = mapGet 0 x.start o + BitVec.ofNat 64 (base + l - x.prefix_ o)) ∧
        (x.total ≤ base + l → mapGet 0 t.gang.regs.xi l = mapGet 0 s.gang.regs.xi l) := by
  intro n base next
  have hexec : exec (.expn d a) s = finishWith s fun g => g.dealt x base (xstOf 2 (n - 1) (xstM s.gang.regs.xst) next) d a
      (decide (next * 32 * n + 32 * xstM s.gang.regs.xst < x.total)) := by
    show execExpn d a s = _
    unfold execExpn
    rw [guardOps_issues hi, heldOr_free hheld, hx.1, if_neg (by decide), withXGroup_in hx]
    rfl
  generalize xstOf 2 (n - 1) (xstM s.gang.regs.xst) next = xst at *
  generalize decide (next * 32 * n + 32 * xstM s.gang.regs.xst < x.total) = more at *
  obtain ⟨t, ht, hpast, hdev, hg⟩ := finishWith_step s (f := fun g => g.dealt x base xst d a more) (Gang.flow_dealt ..)
  obtain ⟨p, hregs⟩ := s.gang.regs_dealt x base xst d a more
  have htregs : t.gang.regs = (s.gang.dealt x base xst d a more).regs := by rw [hg]; rfl
  refine ⟨t, hexec.trans ht, hpast, hdev, ?_, ?_, fun l hl => ?_⟩
  · rw [htregs, hregs]
    exact (x.dealLanes base _ s.gang.regs 0).1
  · rw [htregs, hregs]
  · rw [hg]
    exact s.gang.dealt_lane x base xst d a more hl

/-! ### segr -/

theorem segr_runs {s : State} {d a : Code} {x : XGroup} (hheld : s.gang.heldBy 64 = [])
    (hi : s.issues (etypeOps keyType (fun t => [.vw (vwidth t) d, .vr (vwidth t) a])) = true) (hx : s.inGroup x)
    (hwide : s.gang.readable d 2 (s.gang.ownOwners x etypeWide))
    (hnarrow : s.gang.readable d 1 (s.gang.ownOwners x (fun t => !etypeWide t)))
    (hmembers : ∀ m ∈ x.members, (s.gangAt (gangKey s.gang.wid m)).live = true ∧
      (d ≠ 0xF0 → d.toNat + (if (List.range 8).any (fun k => s.gang.issuing k && etypeWide (modeEtype (s.gang.mode k)))
        then 2 else 1) ≤ (s.gangAt (gangKey s.gang.wid m)).alloc))
    (howners : ∀ l, s.gang.active l = true → (mapGet (0 : Word) s.gang.regs.xo l).toNat < 32 * x.members.length) :
    let r := segrLanes x d a s.gang.activeList s
    let fl := fun l => ((r.2.find? (fun e => decide (e.1 = l))).map (·.2)).getD 0
    exec (.segr d a) s = if s.gang.trapping fl = 0 then .next ((r.1.updGang (fun g => g.raiseFlags (laneFlags s.gang fl))).advance)
      else .next ((s.updGang (fun g => g.raiseFlags (laneFlags s.gang fl))).takeTrap
        { cause := 0x0A, lanes := s.gang.trapping fl, aux := BitVec.ofNat 32 (laneFlags s.gang fl) }) := by
  intro r fl
  have hshort : ¬ ((decide (d ≠ 0xF0) && x.members.any fun m => decide ((s.gangAt (gangKey s.gang.wid m)).alloc < d.toNat +
      (if (List.range 8).any (fun k => s.gang.issuing k && etypeWide (modeEtype (s.gang.mode k))) then 2 else 1))) = true) := by
    intro hbad
    obtain ⟨hd, hany⟩ := Bool.and_eq_true_iff.mp hbad
    obtain ⟨m, hm, hlt⟩ := List.any_eq_true.mp hany
    exact absurd (of_decide_eq_true hlt) (Nat.not_lt.mpr ((hmembers m hm).2 (of_decide_eq_true hd)))
  have hlost : ¬ (s.gang.activeList.any (fun l => decide (x.members.length ≤ (mapGet (0 : Word) s.gang.regs.xo l).toNat / 32) ||
      !(s.gangAt (gangKey s.gang.wid (x.members.getD ((mapGet (0 : Word) s.gang.regs.xo l).toNat / 32) 0))).live) = true) := by
    intro hbad
    obtain ⟨l, hl, hlane⟩ := List.any_eq_true.mp hbad
    have hact : s.gang.active l = true := (List.mem_filter.mp hl).2
    have hlt : (mapGet (0 : Word) s.gang.regs.xo l).toNat / 32 < x.members.length :=
      Nat.div_lt_of_lt_mul (howners l hact)
    have hmem : x.members.getD ((mapGet (0 : Word) s.gang.regs.xo l).toNat / 32) 0 ∈ x.members := by
      rw [List.getD_eq_getElem _ _ hlt]
      exact List.getElem_mem hlt
    rw [(hmembers _ hmem).1, decide_eq_false (Nat.not_le.mpr hlt)] at hlane
    cases hlane
  show execSegr d a s = _
  unfold execSegr
  rw [guardOps_issues hi, heldOr_free hheld]
  dsimp only
  rw [hx.2.2.2]
  dsimp only
  rw [if_neg hshort, withXGroup_in hx, if_neg hlost, guardLanes_readable hwide, guardLanes_readable hnarrow]
  rfl

theorem halves_append (y : DWord) : (y >>> 32).setWidth 32 ++ y.setWidth 32 = y := by
  apply BitVec.eq_of_toNat_eq
  rw [BitVec.toNat_append, ← Nat.shiftLeft_add_eq_or_of_lt (BitVec.isLt _), Nat.shiftLeft_eq]
  simp only [BitVec.toNat_setWidth, BitVec.toNat_ushiftRight, Nat.shiftRight_eq_div_pow]
  omega

/-- What one lane of segr leaves of its owner's register. -/
theorem segmentedSum : Sys2Proof.Claims.SegmentedSum := by
  intro s x d a l hd t o key h old u sum
  have hlane : o % 32 < 32 := Nat.mod_lt _ (by decide)
  have hu : u = h.putV d (fun _ => etypeWide t) (fun k => decide (k = o % 32)) fun _ => BitVec.ofNat 64 sum := by
    show (State.setGangAt ..).gangAt key = _
    rw [State.gangAt_setGangAt, if_neg hd]
  have hread := fun r k hk => (congrArg (fun g : Gang => g.v r k) hu).trans
    (putV_v h d (fun _ => etypeWide t) (fun k => decide (k = o % 32)) (fun _ => BitVec.ofNat 64 sum) r k hk)
  have hlow : u.v d.toNat (o % 32) = (BitVec.ofNat 64 sum).setWidth 32 := by
    rw [hread _ _ hlane, if_neg (by omega), if_pos ⟨hd, decide_eq_true rfl, rfl⟩]
  refine ⟨?_, fun r k hk hout => ?_⟩
  · by_cases hwide : etypeWide t = true
    · have hhigh : u.v (d.toNat + 1) (o % 32) = (BitVec.ofNat 64 sum >>> 32).setWidth 32 := by
        rw [hread _ _ hlane, if_pos ⟨hd, decide_eq_true rfl, hwide, rfl⟩]
      rw [if_pos hwide, Gang.vPair, hlow, hhigh, halves_append, BitVec.toNat_ofNat]
    · rw [if_neg hwide, hlow, BitVec.toNat_setWidth, BitVec.toNat_ofNat]
      omega
  · rw [hread _ _ hk, if_neg ?_, if_neg ?_]
    · rintro ⟨-, hk', rfl⟩
      refine hout ⟨of_decide_eq_true hk', le_rfl, ?_⟩
      split <;> omega
    · rintro ⟨-, hk', hwide, rfl⟩
      refine hout ⟨of_decide_eq_true hk', by omega, ?_⟩
      rw [if_pos hwide]
      omega

end Sys2Proof.Machine

namespace Sys2Proof

open Machine

/-- Settles O42: how groups form, how rounds are dealt, and what segr adds. -/
theorem expandGroups : Obligations.ExpandGroups := by
  refine ⟨fun s d a b hheld => ⟨?_, fun x hi hx => expn_deals hheld hi hx, ?_⟩, segmentedSum⟩
  · intro hi hw hblocks hcur hlive hforming p formed
    exact ⟨expb_forms hheld hi hw hblocks hcur, expbG_alone hheld hi hw hblocks hcur hlive hforming,
      expbG_waits hheld hi hw hcur hforming⟩
  · intro x hi hx hwide hnarrow hmembers howners r fl
    have hexec := segr_runs hheld hi hx hwide hnarrow hmembers howners
    exact ⟨fun h => hexec.trans (if_pos h), fun h => hexec.trans (if_neg h)⟩

end Sys2Proof
end

section
/-! ## Events of translation, maintenance and pre-emption (09 R237 to R252, 16 R399 to R408, 10 R267) -/

namespace Sys2Proof.Machine

/-! ### A PC-group that waits alone goes on -/

/-- The gang with no PC-group waiting. -/
def Gang.noneWaiting (g : Gang) : Gang := { g with flow := { g.flow with blocks := [] } }

theorem Gang.finishBlock_only {g : Gang} {b : Block} (h : g.flow.blocks = [(g.flow.served, b)]) (f : Gang → Gang)
    (hf : (f g.noneWaiting).flow = g.noneWaiting.flow) : g.finishBlock b f = (f g.noneWaiting).advance := by
  have hdrop : mapDrop g.flow.served [(g.flow.served, b)] = [] := by simp [mapDrop]
  have hfind : [(g.flow.served, b)].find? (fun e => decide (e.2 = b)) = some (g.flow.served, b) :=
    List.find?_cons_of_pos (decide_eq_true rfl)
  unfold Gang.finishBlock
  rw [h, hfind]
  dsimp only
  rw [hdrop]
  show ({ (f g.noneWaiting).advance with flow := { (f g.noneWaiting).advance.flow with served := g.flow.served } } : Gang) = _
  have hserved : (f g.noneWaiting).advance.flow.served = g.flow.served := (congrArg Flow.served hf :)
  rw [← hserved]

/-- The group goes past its word, and none waits. -/
theorem Gang.finishBlock_only_flow {g : Gang} {b : Block} (h : g.flow.blocks = [(g.flow.served, b)]) (f : Gang → Gang)
    (hf : (f g.noneWaiting).flow = g.noneWaiting.flow) :
    (g.finishBlock b f).flow.blocks = [] ∧ (g.finishBlock b f).regs = (f g.noneWaiting).regs ∧
      ∀ k, g.issuing k = true → k < 8 → (g.finishBlock b f).pc k = g.pcNow + 4 := by
  rw [Gang.finishBlock_only h f hf]
  refine ⟨congrArg Flow.blocks hf, rfl, fun k hk hk8 => ?_⟩
  have hissue : (f g.noneWaiting).issuing k = g.issuing k :=
    Gang.issuing_congr (congrArg Flow.grp hf) (congrArg Flow.served hf) (congrArg Flow.exited hf) k
  have hnow : (f g.noneWaiting).pcNow = g.pcNow := by
    unfold Gang.pcNow Gang.pc Gang.low
    rw [hf]
    rfl
  rw [Gang.pc_advance _ _ hk8, hissue, if_pos hk, hnow]

/-! ### Invalidations, firmware calls and the heat sweep -/

theorem accessed_mirrorHeard (s : State) (id answer : Nat) : ∃ ms, ({ s with mirrors := ms } : State).accessed (s.mirrorHeard id answer) :=
  ⟨_, State.accessed.foldl (fun u _ => accessed_send u _) _ _⟩

theorem tlbInvalidationComplete_runs (s : State) (key id : Nat) {v : Inval}
    (hfind : s.invals.find? (fun v => decide (v.gang = key) && decide (v.id = id) && s.invalDone v) = some v)
    (hblocks : (s.gangAt key).flow.blocks = [((s.gangAt key).flow.served, .invalidation id)]) :
    ∃ t, exec (.tlbInvalidationComplete key id) s = .next t ∧ v ∉ t.invals ∧ (t.gangAt key).flow.blocks = [] ∧
      (t.gangAt key).regs = (s.gangAt key).regs ∧
      ∀ k, (s.gangAt key).issuing k = true → k < 8 → (t.gangAt key).pc k = (s.gangAt key).pcNow + 4 := by
  let u := ({ s with invals := s.invals.filter (fun x => decide (x ≠ v)) } : State).updGangAt key fun g =>
    g.finishBlock (.invalidation id) (fun g => g)
  obtain ⟨ms, hacc⟩ := accessed_mirrorHeard u id 0
  have hgang : (u.mirrorHeard id 0).gangAt key = { u.gangAt key with watch := ((u.mirrorHeard id 0).gangAt key).watch } :=
    hacc.gang key
  have hu : u.gangAt key = (s.gangAt key).finishBlock (.invalidation id) (fun g => g) := (gangAt_updGangAt ..).trans (if_pos rfl)
  obtain ⟨hfree, hregs, hpc⟩ := Gang.finishBlock_only_flow hblocks (fun g => g) rfl
  refine ⟨u.mirrorHeard id 0, ?_, ?_, ?_, ?_, fun k hk hk8 => ?_⟩
  · show execTlbInvalidationComplete key id s = _
    unfold execTlbInvalidationComplete
    rw [hfind]
  · rw [show (u.mirrorHeard id 0).invals = s.invals.filter (fun x => decide (x ≠ v)) by rw [hacc.eq]; rfl]
    intro hmem
    exact of_decide_eq_true (List.mem_filter.mp hmem).2 rfl
  · rw [hgang, hu]
    exact hfree
  · rw [hgang, hu]
    exact hregs
  · rw [hgang, hu]
    exact hpc k hk hk8

theorem gangs_fwAnswer (s : State) (c : FwCall) : (s.fwAnswer c).1.gangs = s.gangs ∧ (s.fwAnswer c).1.fwcalls = s.fwcalls := by
  unfold State.fwAnswer
  dsimp only
  split <;> exact ⟨rfl, rfl⟩

theorem Gang.pair_putS64 (g : Gang) {d : Code} (hd : d ≠ 0xF0) (h32 : d.toNat + 1 < 32) (f : Nat → Bool) (x : Nat → DWord) {k : Nat}
    (hk : k < 8) (hf : f k = true) : (g.putS64 d f x).s k (d.toNat + 1) ++ (g.putS64 d f x).s k d.toNat = x k := by
  rw [Gang.putS64, if_neg hd, Gang.s_writeSlices _ _ h32 _ _ _ _ hk h32, if_pos ⟨rfl, hf⟩,
    Gang.s_writeSlices _ _ h32 _ _ _ _ hk (by omega), if_neg (by omega), Gang.s_writeSlices _ _ (by omega) _ _ _ _ hk (by omega),
    if_pos ⟨rfl, hf⟩]
  exact halves_append (x k)

theorem fwcallReply_runs (s : State) (key : Nat) {c : FwCall} (hfind : s.fwcalls.find? (fun c => decide (c.gang = key)) = some c)
    (hblocks : (s.gangAt key).flow.blocks = [((s.gangAt key).flow.served, .firmware c.id)]) :
    ∃ t, exec (.fwcallReply key) s = .next t ∧ c ∉ t.fwcalls ∧ (t.gangAt key).flow.blocks = [] ∧
      ∀ k, k < 8 → (s.gangAt key).issuing k = true → c.dest ≠ 0xF0 → c.dest.toNat + 1 < 32 →
        (t.gangAt key).s k (c.dest.toNat + 1) ++ (t.gangAt key).s k c.dest.toNat =
          (({ s with fwcalls := s.fwcalls.filter (fun x => decide (x.id ≠ c.id)) } : State).fwAnswer c).2 := by
  let r := ({ s with fwcalls := s.fwcalls.filter (fun x => decide (x.id ≠ c.id)) } : State).fwAnswer c
  let f := fun g : Gang => g.putS64 c.dest g.issuing fun _ => r.2
  obtain ⟨hgangs, hcalls⟩ : r.1.gangs = s.gangs ∧ r.1.fwcalls = s.fwcalls.filter (fun x => decide (x.id ≠ c.id)) := gangs_fwAnswer ..
  have hu : (r.1.updGangAt key fun g => g.finishBlock (.firmware c.id) f).gangAt key = (s.gangAt key).finishBlock (.firmware c.id) f := by
    rw [gangAt_updGangAt, if_pos rfl]
    unfold State.gangAt
    rw [hgangs]
  obtain ⟨hfree, hregs, -⟩ := Gang.finishBlock_only_flow hblocks f (Gang.flow_putS64 ..)
  refine ⟨r.1.updGangAt key fun g => g.finishBlock (.firmware c.id) f, ?_, ?_, hu ▸ hfree, fun k hk hik hd h32 => ?_⟩
  · show execFwcallReply key s = _
    have hwaits : (s.gangAt key).flow.blocks.any (fun e => decide (e.2 = .firmware c.id)) = true := by
      rw [hblocks]
      exact List.any_eq_true.mpr ⟨_, List.mem_cons_self, decide_eq_true rfl⟩
    unfold execFwcallReply
    rw [hfind]
    exact if_pos hwaits
  · rw [show (r.1.updGangAt key fun g => g.finishBlock (.firmware c.id) f).fwcalls = _ from hcalls]
    intro hmem
    exact of_decide_eq_true (List.mem_filter.mp hmem).2 rfl
  · have hs : ∀ i, ((s.gangAt key).finishBlock (.firmware c.id) f).s k i = (f (s.gangAt key).noneWaiting).s k i := fun i =>
      congrArg (fun x : Regs => mapGet 0 x.sc (k * 32 + i)) hregs
    rw [hu, hs, hs]
    exact Gang.pair_putS64 _ hd h32 _ _ hk hik

theorem accessed_sweepTable (ls : List (Nat × Nat × Nat)) (t : Nat) (s : State) : s.accessed (State.sweepTable ls t s) := by
  induction ls generalizing t s with
  | nil => exact State.accessed.refl s
  | cons l ls ih =>
    obtain ⟨level, lo, n⟩ := l
    unfold State.sweepTable
    refine State.accessed.foldl (fun u i => ?_) _ s
    dsimp only
    split
    · exact State.accessed.refl u
    split
    · split
      · exact State.accessed.refl u
      · exact accessed_writeHome ..
    split
    · exact State.accessed.refl u
    · exact ih _ u

theorem heatSweep_runs (s : State) : ∃ t, exec .heatSweep s = .next t ∧ t.sweep = s.sweep + 1 ∧ t.parts = s.parts := by
  refine ⟨_, rfl, ?_⟩
  generalize hu : List.foldl _ s _ = u
  have hacc : s.accessed u := by
    rw [← hu]
    refine State.accessed.foldl (fun u p => ?_) _ s
    dsimp only
    split
    · exact State.accessed.refl u
    · exact accessed_sweepTable ..
  exact ⟨by rw [hacc.eq]; rfl, hacc.parts⟩

/-! ### Pre-emption -/

theorem postPreempt_posts {s : State} {wid : Nat} (hnone : (s.wgAt wid).posted = none) :
    ((s.postPreempt wid).wgAt wid).posted = some s.sys.ctxBase ∧
      ∀ k ∈ s.gangsOf wid, ((s.postPreempt wid).gangAt k).trap.preempt = true := by
  let f : Nat → Gang → Gang := fun _ g => { g with trap := { g.trap with preempt := true } }
  have hpost : s.postPreempt wid = State.updGangs (fun k => k) f (s.gangsOf wid) (s.updWgAt wid fun w => { w with
      posted := some s.sys.ctxBase }) := by
    unfold State.postPreempt
    rw [hnone, if_neg (by decide)]
    rfl
  rw [hpost]
  refine ⟨?_, ?_⟩
  · obtain ⟨gs, h⟩ := updGangs_cases (fun k => k) f (s.gangsOf wid) (s.updWgAt wid fun w => { w with posted := some s.sys.ctxBase })
    rw [h]
    exact congrArg Workgroup.posted (State.wgAt_setWgAt s wid _)
  · have hkeep : ∀ (as : List Nat) (u : State) (k : Nat), (u.gangAt k).trap.preempt = true →
        ((State.updGangs (fun k => k) f as u).gangAt k).trap.preempt = true := fun as u k =>
      gangAt_updGangs_leaves (fun k => k) f (P := fun g h => g.trap.preempt = true → h.trap.preempt = true)
        (fun _ h => h) (fun _ _ _ h1 h2 h => h2 (h1 h)) (fun _ _ _ => rfl) as u k
    intro k hk
    generalize s.gangsOf wid = ks at hk
    generalize s.updWgAt wid (fun w => { w with posted := some s.sys.ctxBase }) = u
    induction ks generalizing u with
    | nil => cases hk
    | cons j ks ih =>
      rcases List.mem_cons.mp hk with rfl | hk
      · refine hkeep ks _ k ?_
        rw [gangAt_updGangAt, if_pos rfl]
      · exact ih hk _

/-- Every gang's request for a pre-emption stands, and one that it has taken stays taken. -/
def State.keepsPreempts (s t : State) : Prop :=
  ∀ k, (t.gangAt k).trap.preempt = (s.gangAt k).trap.preempt ∧ ((s.gangAt k).trap.taken = true → (t.gangAt k).trap.taken = true)

theorem trap_leaveFormation (s : State) (wid : Nat) (f : XForming) (k : Nat) :
    ((s.leaveFormation wid f).gangAt k).trap = (s.gangAt k).trap := by
  unfold State.leaveFormation
  rw [gangAt_updGangAt]
  split
  · next h =>
    subst h
    rfl
  · rfl

/-- The last change of a pre-emption taken by the gang of a key. -/
theorem markTaken_takes {s v : State} (htrap : ∀ k, (v.gangAt k).trap = (s.gangAt k).trap) (key : Nat) (mask : DWord)
    (f : Gang → Gang) (hf : ∀ g, (f g).trap = { g.trap with taken := true, tmask := mask }) :
    s.keepsPreempts (v.updGangAt key f) ∧ ((v.updGangAt key f).gangAt key).trap.taken = true := by
  refine ⟨fun k => ?_, by rw [gangAt_updGangAt, if_pos rfl, hf]⟩
  rw [gangAt_updGangAt, ← htrap]
  split
  · next h =>
    subst h
    rw [hf]
    exact ⟨rfl, fun _ => rfl⟩
  · exact ⟨rfl, id⟩

theorem takePreempt_takes (s : State) (key : Nat) (mask : DWord) :
    s.keepsPreempts (s.takePreempt key mask) ∧ ((s.takePreempt key mask).gangAt key).trap.taken = true := by
  unfold State.takePreempt
  dsimp only
  split
  · next f _ =>
    refine markTaken_takes (fun k => ?_) key mask _ fun g => rfl
    exact trap_leaveFormation ((s.leaveSeat key).dropWatches key) _ f k
  · refine markTaken_takes (fun k => ?_) key mask _ fun g => rfl
    rfl

/-- Each gang of some keys that has a request takes it. -/
theorem takePreempts_take (ks : List Nat) (s : State) :
    let t := ks.foldl (fun s k => if (s.gangAt k).trap.preempt && !(s.gangAt k).trap.taken then
      s.takePreempt k 0xFFFFFFFFFFFFFFFF else s) s
    s.keepsPreempts t ∧ ∀ k ∈ ks, (s.gangAt k).trap.preempt = true → (t.gangAt k).trap.taken = true := by
  induction ks generalizing s with
  | nil => exact ⟨fun _ => ⟨rfl, id⟩, fun k hk => absurd hk List.not_mem_nil⟩
  | cons j ks ih =>
    intro t
    let u := if (s.gangAt j).trap.preempt && !(s.gangAt j).trap.taken then s.takePreempt j 0xFFFFFFFFFFFFFFFF else s
    have hu : s.keepsPreempts u ∧ ((s.gangAt j).trap.preempt = true → (u.gangAt j).trap.taken = true) := by
      show s.keepsPreempts (if _ then _ else _) ∧ (_ → (State.gangAt (if _ then _ else _) j).trap.taken = true)
      split
      · exact ⟨(takePreempt_takes s j _).1, fun _ => (takePreempt_takes s j _).2⟩
      · next h => exact ⟨fun _ => ⟨rfl, id⟩, fun hp => by simpa [hp] using h⟩
    obtain ⟨hkeeps, htakes⟩ := ih u
    refine ⟨fun k => ⟨(hkeeps k).1.trans (hu.1 k).1, fun h => (hkeeps k).2 ((hu.1 k).2 h)⟩, fun k hk hp => ?_⟩
    rcases List.mem_cons.mp hk with rfl | hk
    · exact (hkeeps k).2 (hu.2 hp)
    · exact htakes k hk ((hu.1 k).1.trans hp)

/-! ### Named groups -/

theorem nodeArrive_passes {s : State} {part gid node : Nat}
    (hfull : ((s.groupAt (groupKey part gid)).node node).full = true)
    (hpassed : ((s.groupAt (groupKey part gid)).node node).passed = false) (hlo : 16 ≤ node) (hhi : node < 24)
    (hlevel : 2 ≤ ngLevel (s.ngEntry part gid)) :
    (((s.nodeArrive part gid node).groupAt (groupKey part gid)).node node).passed = true ∧
      bit (((s.nodeArrive part gid node).groupAt (groupKey part gid)).node 1).arrived (node - 16) = true := by
  have hnode : ∀ (g : NamedGroup) (n m : Nat) (f : GroupNode → GroupNode),
      (g.updNode n f).node m = if m = n then f (g.node n) else g.node m := fun g n m f => by
    unfold NamedGroup.updNode NamedGroup.node
    split
    · next h => rw [h, mapFind_put_same]; rfl
    · next h => rw [mapFind_put_other h]
  unfold State.nodeArrive
  dsimp only
  rw [hfull, hpassed, if_neg (by decide), if_pos (by simp [hlo, hhi, hlevel]), groupAt_updGroup, if_pos rfl]
  constructor
  · rw [hnode, if_neg (by omega), hnode, if_pos rfl]
  · rw [hnode, if_pos rfl]
    exact bit_putBit ..

theorem gen_updGroup_topk (s : State) (k : Nat) (f : NamedGroup → NamedGroup) (hf : ∀ g, (f g).gen = g.gen) :
    ((s.updGroup k f).groupAt k).gen = (s.groupAt k).gen := by
  rw [groupAt_updGroup, if_pos rfl, hf]

theorem groups_barnWrite (s : State) (l : Loc) (bs : List Byte) : (s.barnWrite l bs).groups = s.groups := by
  rw [(accessed_barnWrite s l bs).eq]
  rfl

theorem gen_giveLists (s : State) (key : Nat) (merged : Option (List Byte)) :
    ((s.giveLists key merged).groupAt key).gen = (s.groupAt key).gen := by
  unfold State.giveLists
  dsimp only
  refine (gen_updGroup_topk _ key _ ?_).trans ?_
  · exact fun g => rfl
  · refine congrArg (fun gs => ((mapFind key gs).getD NamedGroup.empty).gen) (foldl_keeps State.groups (fun u x => ?_) _ s)
    split
    · exact groups_barnWrite ..
    · rfl

theorem groups_wakeWaiter (s : State) (part gid k : Nat) : (s.wakeWaiter part gid k).groups = s.groups := by
  unfold State.wakeWaiter
  dsimp only
  split
  · show (s.acquireActs ..).groups = _
    rw [(accessed_acquireActs ..).eq]
    rfl
  · rfl

theorem gen_endGeneration (s : State) (part gid : Nat) :
    ((s.endGeneration part gid).groupAt (groupKey part gid)).gen = (s.groupAt (groupKey part gid)).gen + 1 := by
  unfold State.endGeneration
  refine (congrArg (fun gs => ((mapFind (groupKey part gid) gs).getD NamedGroup.empty).gen)
    (foldl_keeps State.groups (fun u k => groups_wakeWaiter u part gid k) s.liveGangs _)).trans ?_
  show ((s.updGroup (groupKey part gid) NamedGroup.complete).groupAt (groupKey part gid)).gen = _
  rw [groupAt_updGroup, if_pos rfl]
  rfl

theorem groupKey_div_mod (key : Nat) : groupKey (key / 1024) (key % 1024) = key := by
  unfold groupKey
  omega

theorem namedGroupCompletion_runs {s : State} {part gid : Nat} (hdone : s.groupDone part gid = true) :
    ∃ t, exec (.namedGroupCompletion part gid) s = .next t ∧
      (t.groupAt (groupKey part gid)).gen = (s.groupAt (groupKey part gid)).gen + 1 := by
  have hgen : ∀ (u : State) (key : Nat) (others : List (List Byte)),
      ((u.completeGroup key others).groupAt key).gen = (u.groupAt key).gen + 1 := fun u key others => by
    unfold State.completeGroup
    show ((State.endGeneration _ _ _).groupAt key).gen = _
    refine (congrArg (fun k => ((State.endGeneration _ _ _).groupAt k).gen) (groupKey_div_mod key).symm).trans ?_
    rw [gen_endGeneration, groupKey_div_mod, gen_giveLists]
  have hsends : ∀ (ds : List Nat) (f : Nat → Msg), (ds.foldl (fun (u : State) d => u.send (f d)) s).groups = s.groups := fun ds f =>
    foldl_keeps State.groups (fun u d => by rw [(accessed_send u (f d)).eq]; rfl) ds s
  let g := s.groupAt (groupKey part gid)
  let u := (g.devices.filter (fun d => decide (d ≠ s.devid))).foldl (fun (u : State) d => u.send { Msg.blank with
    kind := .groupNotice part gid, dst := d, part := part
    block := packImages s.fresh (g.images ++ g.lists.filter (fun i => !i.isEmpty)) }) s
  refine ⟨u.completeGroup (groupKey part gid) g.lists, ?_, ?_⟩
  · show execNamedGroupCompletion part gid s = _
    unfold execNamedGroupCompletion
    rw [hdone]
    rfl
  · rw [hgen]
    exact congrArg (fun gs => ((mapFind (groupKey part gid) gs).getD NamedGroup.empty).gen + 1) (hsends _ _)

/-! ### Answers to faults, saves and restores -/

theorem tfqReplies_run {s : State} {die entry : Nat} {a : TfqAgent} (h : s.openEntry die entry = some a) :
    exec (.tfqReplyRetry die entry) s = .next ((s.closeEntry die entry).retryAgent a) ∧
    (a.kind = 0 ∨ a.kind = 3 → exec (.tfqReplyDeliver die entry) s = .next ((s.closeEntry die entry).deliverAgent a)) ∧
    (∀ c, a.kind = 1 ∨ a.kind = 2 → exec (.tfqReplyFail die entry c) s = .next ((s.closeEntry die entry).failAgent a c)) ∧
    ((a.bytes.getD 1 0).toNat ≠ 3 → s.direct a = false →
      ofBytesLE ((a.bytes.drop 8).take 2) = s.pasidGen (ofBytesLE ((a.bytes.drop 4).take 4)) →
      exec (.pageRequestReply die entry true) s = .next ((s.closeEntry die entry).retryAgent a)) := by
  have hretry : execTfqReplyRetry die entry s = .next ((s.closeEntry die entry).retryAgent a) := by
    unfold execTfqReplyRetry
    rw [h]
  refine ⟨hretry, fun hkind => ?_, fun c hkind => ?_, fun hcause hdirect hgen => ?_⟩
  · show execTfqReplyDeliver die entry s = _
    unfold execTfqReplyDeliver
    rw [h]
    dsimp only
    rw [if_pos (by simpa using hkind)]
  · show execTfqReplyFail die entry c s = _
    unfold execTfqReplyFail
    rw [h]
    dsimp only
    rw [if_pos (by simpa using hkind)]
  · show execPageRequestReply die entry true s = _
    unfold execPageRequestReply
    rw [h]
    dsimp only
    rw [if_neg (by simp only [hcause, hdirect, hgen, decide_false, ne_eq, not_true, Bool.or_false, Bool.false_eq_true, not_false_eq_true]),
      if_pos rfl]
    exact hretry

theorem tfqHeadWrite_runs {s : State} {die : Nat} (v : Word) (h : (s.dieAt die).waiting = []) :
    ∃ t, exec (.tfqHeadWrite die v) s = .next t ∧ (t.dieAt die).tfqHead = v ∧ t.gangs = s.gangs := by
  have hwait : ((s.updDie die fun d => { d with tfqHead := v }).dieAt die).waiting = [] := by
    rw [State.dieAt_updDie]
    exact h
  refine ⟨s.updDie die fun d => { d with tfqHead := v }, ?_, by rw [State.dieAt_updDie], rfl⟩
  show execTfqHeadWrite die v s = _
  unfold execTfqHeadWrite State.writeWaiting
  rw [hwait]

theorem teardownComplete_runs {s : State} {pasid : Nat} {t : Teardown}
    (hfind : s.teardowns.find? (fun t => decide (t.pasid = pasid)) = some t) (hpkt : (s.queueAt t.queue).packet 6 t.pkt = none) :
    ∃ u, exec (.teardownComplete pasid) s = .next u ∧ t ∉ u.teardowns ∧ u.msgs = s.msgs ∧ u.gangs = s.gangs ∧
      ∀ b ∈ u.inbound, ¬(b.pasid = pasid ∧ b.gen = t.gen) := by
  refine ⟨{ s with
    teardowns := s.teardowns.filter (fun x => decide (x ≠ t))
    inbound := s.inbound.filter (fun b => !(decide (b.pasid = pasid) && decide (b.gen = t.gen))) }, ?_, fun hmem => ?_, rfl, rfl,
    fun b hb hsame => ?_⟩
  · show execTeardownComplete pasid s = _
    unfold execTeardownComplete
    rw [hfind]
    dsimp only
    split
    · next p hp => cases hp.symm.trans hpkt
    · rfl
  · exact of_decide_eq_true (List.mem_filter.mp hmem).2 rfl
  · have hkept := (List.mem_filter.mp hb).2
    simp [hsame] at hkept

/-- Settles O57, event by event. -/
theorem systemEvents : Obligations.SystemEvents := by
  intro s
  refine ⟨fun core pasid va acc u e h => ?_, fun core pasid va acc c h => ?_, heatSweep_runs s,
    fun key id v hfind hblocks => tlbInvalidationComplete_runs s key id hfind hblocks,
    fun key c hfind hblocks => fwcallReply_runs s key hfind hblocks, fun die entry a h => tfqReplies_run h,
    fun die v h => tfqHeadWrite_runs v h, fun v wid htarget hnone => ?_, fun wid hposted => ?_, fun wid a hposted hready => ?_,
    fun wid core v hfind hfits => ?_, fun pasid t hfind hpkt => teardownComplete_runs hfind hpkt,
    fun part gid node hfull hpassed hlo hhi hlevel => ⟨_, rfl, nodeArrive_passes hfull hpassed hlo hhi hlevel⟩,
    fun part gid hdone => namedGroupCompletion_runs hdone⟩
  · show execPageWalk core pasid va acc s = _
    unfold execPageWalk
    rw [h]
  · show execPageWalk core pasid va acc s = _
    unfold execPageWalk
    rw [h]
  · refine ⟨s.postPreempt wid, ?_, postPreempt_posts hnone⟩
    show execWgPreemptWrite v s = _
    unfold execWgPreemptWrite
    rw [htarget]
  · refine ⟨_, ?_, (takePreempts_take (s.gangsOf wid) s).2⟩
    show execPreemptGraceExpiry wid s = _
    unfold execPreemptGraceExpiry
    rw [if_neg (by simpa using hposted)]
  · show execPreemptionSave wid s = _
    unfold execPreemptionSave
    rw [hposted]
    dsimp only
    rw [if_pos hready]
    simp only [List.isEmpty_iff]
  · show execWorkgroupRestore wid core s = _
    unfold execWorkgroupRestore
    rw [hfind]
    dsimp only
    rw [hfits, if_neg (by decide)]
    simp only [List.isEmpty_iff]

end Sys2Proof.Machine
end

section
/-! Queues and packets (17 R412 to R421): how the packet at the head of a queue starts, the packets that wait, copy and
signal, and the five PARTITION ops. -/

namespace Sys2Proof.Machine

/-- A packet that starts runs its body, and the queue goes on (17 R412, R418). -/
theorem startPacket_starts {s u : State} {k type : Nat} {p : Packet} {fs : List PField} (hs : s.starts k type p fs u)
    (isIt : Nat → List PField → Bool) (body : Packet → List PField → State → State → State) (hit : isIt type fs = true) :
    startPacket k isIt body s = .next ((body p fs s u).onward k) := by
  obtain ⟨t, fed, b, hhead, hmay, hcause, rfl, rfl, rfl, rfl⟩ := hs
  have hgo : (s.mayStart (s.queueAt k) (pktHeader b) && decide (s.packetCause k b = 0) &&
      isIt (pktHeader b % 256) (scanFields b.length (b.drop 8)).1) = true := by
    simp only [hmay, hcause, hit, decide_true, Bool.and_self]
  unfold startPacket
  rw [hhead]
  dsimp only
  rw [if_pos hgo]

/-- The packet of a type alone, whatever its fields. -/
theorem startPacket_type {s u : State} {k type : Nat} {p : Packet} {fs : List PField} (hs : s.starts k type p fs u)
    (body : Packet → List PField → State → State → State) :
    startPacket k (fun t _ => decide (t = type)) body s = .next ((body p fs s u).onward k) :=
  startPacket_starts hs _ body (decide_eq_true rfl)

theorem doorbellWrite_hears {s t : State} {k : Nat} {w : Word} (hup : (s.queueAt k).up k = true)
    (hread : s.readDoorbell k = (t, some w)) : exec (.doorbellWrite k) s =
      .next ((t.updQueue k (fun q => { q with wr := w, stalled := false })).onward k) := by
  show execDoorbellWrite k s = _
  unfold execDoorbellWrite State.hearDoorbell
  rw [hup, hread]
  rfl

/-- The WAIT-AND packet starts by reading its locations (17 R420). -/
theorem waitAndPacket_polls {s u : State} {k : Nat} {p : Packet} {fs : List PField} (hs : s.starts k 2 p fs u) :
    exec (.waitAndPacket k) s = .next ((u.pollWait k p).onward k) := by
  show execWaitAndPacket k s = _
  unfold execWaitAndPacket
  exact startPacket_type hs _

theorem waitAndPoll_polls {s : State} {k i : Nat} {p : Packet} (hp : (s.queueAt k).packet 2 i = some p) :
    exec (.waitAndPoll k i) s = .next ((s.pollWait k p).onward k) := by
  show execWaitAndPoll k i s = _
  unfold execWaitAndPoll
  rw [hp]

theorem waitAndTimeout_ends {s : State} {k i : Nat} {p : Packet} (hp : (s.queueAt k).packet 2 i = some p)
    (hlim : fieldNum (scanFields p.bytes.length (p.bytes.drop 8)).1 0x21 0 4 ≠ 0) :
    exec (.waitAndTimeout k i) s = .next ((s.endPacket k p 11 p.ref []).onward k) := by
  show execWaitAndTimeout k i s = _
  unfold execWaitAndTimeout
  rw [hp]
  dsimp only
  rw [if_neg hlim]

theorem triggerArmPacket_arms {s u : State} {k : Nat} {p : Packet} {fs : List PField} (hs : s.starts k 3 p fs u)
    (harm : (u.cellAt (fieldNum fs 0x30 0 4)).armable p.part = true) : exec (.triggerArmPacket k) s =
      .next (((u.armCell (fieldNum fs 0x30 0 4) ((getField fs 0x31).getD []) p.pasid p.part).endPacket k p 0 0 []).onward k) := by
  show execTriggerArmPacket k s = _
  unfold execTriggerArmPacket
  rw [startPacket_type hs]
  dsimp only
  rw [if_pos harm]

/-- The agent that copies for a COPY packet (17 R419). -/
def State.copyAgent (u : State) (p : Packet) : Agent :=
  { core := u.reeveCore (((u.partAt p.part).clusters.headD 0) / 15), part := p.part, pasid := p.pasid, op := p.id, idx := 0 }

theorem copyPacket_closes {s u v : State} {k n : Nat} {p : Packet} {fs : List PField} (hs : s.starts k 4 p fs u)
    (hcopy : State.copyUnits (u.copyAgent p) (.glob (fieldNum fs 0x40 0 8)) (.glob (fieldNum fs 0x41 0 8)) (fieldNum fs 0x42 0 4)
      (fieldNum fs 0x42 0 4 / 4 + 2) 0 u = (v, n, none)) :
    exec (.copyPacket k) s = .next ((v.closePacket k p 0 n).onward k) := by
  show execCopyPacket k s = _
  unfold execCopyPacket
  rw [startPacket_type hs]
  unfold State.copyAgent at hcopy
  dsimp only
  rw [hcopy]

theorem copyPacket_faults {s u v : State} {k n : Nat} {p : Packet} {fs : List PField} {x : IoErr} (hs : s.starts k 4 p fs u)
    (hcopy : State.copyUnits (u.copyAgent p) (.glob (fieldNum fs 0x40 0 8)) (.glob (fieldNum fs 0x41 0 8)) (fieldNum fs 0x42 0 4)
      (fieldNum fs 0x42 0 4 / 4 + 2) 0 u = (v, n, some x)) :
    exec (.copyPacket k) s = .next ((v.faulted s k p x n).onward k) := by
  show execCopyPacket k s = _
  unfold execCopyPacket
  rw [startPacket_type hs]
  unfold State.copyAgent at hcopy
  dsimp only
  rw [hcopy]

/-- What a SIGNAL does once its write has been made: it raises and closes, or holds its raise (17 R416, R419). -/
theorem signalPacket_writes {s u v : State} {k : Nat} {p : Packet} {fs : List PField} (hs : s.starts k 5 p fs u)
    (hw : u.signalWrite p fs = (v, .ok ())) : exec (.signalPacket k) s = .next ((if v.engBusy p.id = true then
      (v.closePacket k p 0 0).updPacket k p.id (fun r => { r with held := true })
      else (v.signalRaise p fs).closePacket k p 0 0).onward k) := by
  show execSignalPacket k s = _
  unfold execSignalPacket
  rw [startPacket_type hs]
  rw [hw]

theorem signalPacket_faults {s u v : State} {k : Nat} {p : Packet} {fs : List PField} {x : IoErr} (hs : s.starts k 5 p fs u)
    (hw : u.signalWrite p fs = (v, .error x)) : exec (.signalPacket k) s = .next ((v.faulted s k p x 0).onward k) := by
  show execSignalPacket k s = _
  unfold execSignalPacket
  rw [startPacket_type hs]
  rw [hw]

theorem closePacket_idle {v : State} {k c n : Nat} {p : Packet} (hb : v.engBusy p.id = false) :
    v.closePacket k p c n = v.endPacket k p c n [] := by
  unfold State.closePacket
  rw [hb]
  rfl

/-! ### PARTITION packets (17 R421) -/

/-- While an end that another op has begun waits, no PARTITION op starts. -/
theorem partitionPacket_waits {s : State} (hend : s.endings ≠ []) (op k : Nat) (body : Nat → Packet → List PField → State → State) :
    partitionPacket op k body s = .next s := by
  unfold partitionPacket
  rw [if_pos (by cases h : s.endings with
    | nil => exact absurd h hend
    | cons x xs => rfl)]

/-- With no end that waits, the op starts as any packet. -/
theorem partitionPacket_starts {s u : State} {k op : Nat} {p : Packet} {fs : List PField} (hs : s.starts k 6 p fs u)
    (hend : s.endings = []) (hop : fieldNum fs 0x60 0 4 = op) (body : Nat → Packet → List PField → State → State) :
    partitionPacket op k body s = .next ((body (fieldNum fs 0x61 0 4) p fs u).onward k) := by
  unfold partitionPacket
  rw [hend, if_neg (by decide)]
  exact startPacket_starts hs (fun t fs => decide (t = 6) && decide (fieldNum fs 0x60 0 4 = op)) _
    (by simp only [hop, decide_true, Bool.and_self])

theorem onLivePart_live {u : State} {k part : Nat} {p : Packet} (hlive : (u.partAt part).live = true) (body : State → State) :
    onLivePart u k part p body = body u := by
  unfold onLivePart
  rw [if_pos hlive]

theorem live_endRemoval {s : State} {part : Nat} (hlive : (s.partAt part).live = true) :
    ((s.endRemoval part).partAt part).live = false := by
  unfold State.endRemoval
  rw [hlive, if_neg (by decide)]
  dsimp only
  rw [State.partAt_updPart]
  rfl

theorem partitionConfigure_refused {s u : State} {k : Nat} {p : Packet} {fs : List PField} (hs : s.starts k 6 p fs u)
    (hend : s.endings = []) (hop : fieldNum fs 0x60 0 4 = 1) (href : u.configRefused (fieldNum fs 0x61 0 4) fs = true) :
    exec (.partitionConfigure k) s = .next ((u.endPacket k p 9 0 []).onward k) := by
  show execPartitionConfigure k s = _
  unfold execPartitionConfigure
  rw [partitionPacket_starts hs hend hop]
  rw [if_pos href]

theorem partitionConfigure_taken {s u : State} {k : Nat} {p : Packet} {fs : List PField} (hs : s.starts k 6 p fs u)
    (hend : s.endings = []) (hop : fieldNum fs 0x60 0 4 = 1) (href : u.configRefused (fieldNum fs 0x61 0 4) fs = false) :
    exec (.partitionConfigure k) s = .next ((if (u.partAt (fieldNum fs 0x61 0 4)).live then
      u.askRemoval 1 (fieldNum fs 0x61 0 4) p.id
      else (u.configurePart (fieldNum fs 0x61 0 4) fs).endPacket k p 0 0 []).onward k) := by
  show execPartitionConfigure k s = _
  unfold execPartitionConfigure
  rw [partitionPacket_starts hs hend hop]
  rw [if_neg (by rw [href]; decide)]

theorem partitionRemove_asks {s u : State} {k : Nat} {p : Packet} {fs : List PField} (hs : s.starts k 6 p fs u)
    (hend : s.endings = []) (hop : fieldNum fs 0x60 0 4 = 2) (hlive : (u.partAt (fieldNum fs 0x61 0 4)).live = true) :
    exec (.partitionRemove k) s = .next ((u.askRemoval 2 (fieldNum fs 0x61 0 4) p.id).onward k) := by
  show execPartitionRemove k s = _
  unfold execPartitionRemove
  rw [partitionPacket_starts hs hend hop]
  rw [onLivePart_live hlive]

theorem partitionQueueDescriptor_writes {s u : State} {k : Nat} {p : Packet} {fs : List PField} (hs : s.starts k 6 p fs u)
    (hend : s.endings = []) (hop : fieldNum fs 0x60 0 4 = 3) (hlive : (u.partAt (fieldNum fs 0x61 0 4)).live = true)
    (hq : fieldNum fs 0x66 0 2 ≠ mgmtQueue) (hpart : blockNum (((getField fs 0x66).getD []).drop 2) 0x0A 1 = fieldNum fs 0x61 0 4)
    (hown : (u.queueAt (fieldNum fs 0x66 0 2)).desc = [] ∨ (u.queueAt (fieldNum fs 0x66 0 2)).part = fieldNum fs 0x61 0 4) :
    exec (.partitionQueueDescriptor k) s = .next (((u.writeDescriptor (fieldNum fs 0x66 0 2)
      (((getField fs 0x66).getD []).drop 2)).endPacket k p 0 0 []).onward k) := by
  have hfree : (!(u.queueAt (fieldNum fs 0x66 0 2)).desc.isEmpty &&
      decide ((u.queueAt (fieldNum fs 0x66 0 2)).part ≠ fieldNum fs 0x61 0 4)) = false := by
    rcases hown with hd | hp
    · rw [hd]; rfl
    · rw [hp, decide_eq_false (not_not.mpr rfl), Bool.and_false]
  show execPartitionQueueDescriptor k s = _
  unfold execPartitionQueueDescriptor
  rw [partitionPacket_starts hs hend hop]
  dsimp only
  rw [onLivePart_live hlive, hfree, decide_eq_false hq, decide_eq_false (not_not.mpr hpart), if_neg (by decide)]

theorem partitionTeardown_tears {s u : State} {k : Nat} {p : Packet} {fs : List PField} (hs : s.starts k 6 p fs u)
    (hend : s.endings = []) (hop : fieldNum fs 0x60 0 4 = 4) (hlive : (u.partAt (fieldNum fs 0x61 0 4)).live = true) :
    exec (.partitionTeardown k) s = .next ((u.teardown (fieldNum fs 0x6A 0 4) p.id).onward k) := by
  show execPartitionTeardown k s = _
  unfold execPartitionTeardown
  rw [partitionPacket_starts hs hend hop]
  rw [onLivePart_live hlive]

theorem partitionFlush_empties {s u : State} {k : Nat} {p : Packet} {fs : List PField} (hs : s.starts k 6 p fs u)
    (hend : s.endings = []) (hop : fieldNum fs 0x60 0 4 = 5) (hlive : (u.partAt (fieldNum fs 0x61 0 4)).live = true) :
    exec (.partitionFlush k) s = .next (((u.updPart (fieldNum fs 0x61 0 4)
      (fun x => { x with codeTable := [], natives := x.natives.map (fun n => { n with cached := false }) })).endPacket
        k p 0 0 []).onward k) := by
  show execPartitionFlush k s = _
  unfold execPartitionFlush
  rw [partitionPacket_starts hs hend hop]
  rw [onLivePart_live hlive]

/-- Each PARTITION op waits while an end waits. -/
theorem partitionOps_wait {s : State} (hend : s.endings ≠ []) (k : Nat) : ∀ i ∈ [Instr.partitionConfigure k, .partitionRemove k,
    .partitionQueueDescriptor k, .partitionTeardown k, .partitionFlush k], exec i s = .next s := by
  simp only [List.forall_mem_cons, List.not_mem_nil, false_implies, implies_true, and_true]
  refine ⟨?_, ?_, ?_, ?_, ?_⟩
  · show execPartitionConfigure k s = _
    exact partitionPacket_waits hend 1 k _
  · show execPartitionRemove k s = _
    exact partitionPacket_waits hend 2 k _
  · show execPartitionQueueDescriptor k s = _
    exact partitionPacket_waits hend 3 k _
  · show execPartitionTeardown k s = _
    exact partitionPacket_waits hend 4 k _
  · show execPartitionFlush k s = _
    exact partitionPacket_waits hend 5 k _

/-- Queues and packets, as `Claims.QueueEvents` states them. -/
theorem queueEvents : Claims.QueueEvents := by
  intro s u k p fs
  refine ⟨fun hup t w hread => doorbellWrite_hears hup hread, rfl, waitAndPacket_polls,
    fun i hp => ⟨waitAndPoll_polls hp, waitAndTimeout_ends hp⟩, triggerArmPacket_arms, fun hs v n e hcopy => ⟨?_, ?_⟩,
    fun hs v => ⟨fun hw => ⟨?_, ?_⟩, fun x hw => signalPacket_faults hs hw⟩, fun v c n => closePacket_idle,
    fun hend => partitionOps_wait hend k, fun part => live_endRemoval, fun hs hend => ?_⟩
  · rintro rfl
    exact copyPacket_closes hs hcopy
  · rintro x rfl
    exact copyPacket_faults hs hcopy
  · intro hb
    rw [signalPacket_writes hs hw, hb]
    rfl
  · intro hb
    rw [signalPacket_writes hs hw, if_pos hb]
  · exact ⟨partitionConfigure_refused hs hend, partitionConfigure_taken hs hend, partitionRemove_asks hs hend,
      partitionQueueDescriptor_writes hs hend, partitionTeardown_tears hs hend, partitionFlush_empties hs hend⟩

end Sys2Proof.Machine
end

section
/-! Launches (17 R422 to R430; 02 R64): the packet and its record, native code, the dispatcher's choice and its admission,
ageing and retirement. -/

namespace Sys2Proof.Machine

/-! ### The LAUNCH packet (17 R422, R423) -/

/-- The launch that a LAUNCH packet's record describes, before its arguments are read (17 R422, R423). -/
def State.launchRead (v : State) (k : Nat) (p : Packet) (fs : List PField) (rec_ : List Byte) : Launch :=
  { id := v.nextId, queue := k, prio := (v.queueAt k).prio, pkt := p.id, part := p.part, pasid := p.pasid, record := rec_
    addr := fieldNum fs 0x10 0 8, args := [], code := none, stride := 1, next := 0, retired := 0, fatal := none, doom := none
    passes := 0, failedOnce := false, aged := false }

/-- The queue's running packet `p` names its launch. -/
def State.nameLaunch (s : State) (k : Nat) (p : Packet) (id : Nat) : State :=
  s.updQueue k (fun q => { q with running := q.running.map (fun (x : Packet) => if x.id = p.id then { x with ref := id } else x) })

/-- A launch as it enters with the bytes `bs` of its arguments: a native one has its code. -/
def Launch.entering (l : Launch) (bs : List Byte) : Launch :=
  { l with args := (chunks 4 16 bs).map (fun b => BitVec.ofNat 32 (ofBytesLE b))
           code := if bit l.flags 0 then none else some (BitVec.ofNat 64 (l.num 0 8)) }

/-- What becomes of a launch whose record has been read: the checks, its arguments, and its entry. -/
def State.takeLaunch (w back : State) (k : Nat) (p : Packet) (l : Launch) : State :=
  if !l.recordOk || (bit l.flags 2 && decide ((w.cellAt (l.num 0x3C 4)).owner ≠ some p.part)) || w.groupConflict p.part l then
    w.endPacket k p 5 0 []
  else if w.neverFits l then w.endPacket k p 6 0 []
  else match (if 4 * l.num 0x88 1 = 0 then (w, .ok []) else w.readRun p.part 5 p.pasid (l.num 0x80 8) (4 * l.num 0x88 1)) with
    | (t, .error e) => t.faulted back k p e 0
    | (t, .ok bs) => (t.enterLaunch (l.entering bs)).nameLaunch k p l.id

/-- A LAUNCH packet starts by reading its record. -/
theorem launchPacket_reads {s u : State} {k : Nat} {p : Packet} {fs : List PField} (hs : s.starts k 1 p fs u) :
    exec (.launchPacket k) s = .next ((match u.readRun p.part 5 p.pasid (fieldNum fs 0x10 0 8) 256 with
      | (t, .error e) => t.faulted s k p e 0
      | (v, .ok rec_) => v.takeId.2.takeLaunch s k p (v.launchRead k p fs rec_)).onward k) := by
  show execLaunchPacket k s = _
  unfold execLaunchPacket
  exact startPacket_type hs _

theorem launchPacket_faults {s u v : State} {k : Nat} {p : Packet} {fs : List PField} {e : IoErr} (hs : s.starts k 1 p fs u)
    (hread : u.readRun p.part 5 p.pasid (fieldNum fs 0x10 0 8) 256 = (v, .error e)) :
    exec (.launchPacket k) s = .next ((v.faulted s k p e 0).onward k) := by
  rw [launchPacket_reads hs, hread]

/-- A record that the checks refuse completes with cause 5 (17 R423). -/
theorem takeLaunch_refused {w back : State} {k : Nat} {p : Packet} {l : Launch} (hbad : l.recordOk = false) :
    w.takeLaunch back k p l = w.endPacket k p 5 0 [] := by
  unfold State.takeLaunch
  rw [hbad, if_pos (by simp only [Bool.not_false, Bool.true_or])]

/-- Without named groups in the record none is in conflict. -/
theorem groupConflict_none {s : State} {part : Nat} {l : Launch} (h : l.groupRequests = []) : s.groupConflict part l = false := by
  unfold State.groupConflict
  rw [h]
  rfl

/-- Without named groups in the record a launch only joins the list. -/
theorem enterLaunch_plain {s : State} {l : Launch} (h : l.groupRequests = []) :
    s.enterLaunch l = { s with launches := s.launches ++ [l] } := by
  unfold State.enterLaunch
  rw [h]
  rfl

/-- A record without groups and arguments that passes the checks enters (17 R423). -/
theorem takeLaunch_enters {w back : State} {k : Nat} {p : Packet} {l : Launch} (hok : l.recordOk = true)
    (hsucc : bit l.flags 2 = false) (hgroups : l.groupRequests = []) (hargs : l.num 0x88 1 = 0) (hfits : w.neverFits l = false) :
    w.takeLaunch back k p l = State.nameLaunch { w with launches := w.launches ++ [l.entering []] } k p l.id := by
  unfold State.takeLaunch
  rw [hok, hsucc, groupConflict_none hgroups, hfits, hargs, if_neg (by simp only [Bool.not_true, Bool.false_and, Bool.or_self,
    Bool.false_eq_true, not_false_eq_true]), if_neg (by decide), if_pos (Nat.mul_zero 4)]
  dsimp only
  rw [enterLaunch_plain (show (l.entering []).groupRequests = [] from hgroups)]

/-! ### Native code (02 R64) -/

/-- A Plaquel launch whose address the code table names gets the native code that the table gives. -/
theorem plaquelTranslation_tabled {s : State} {l : Launch} {e : Nat × BitVec 256} {n : Native}
    (hl : s.launches.find? (fun x => decide (x.id = l.id)) = some l) (hcode : l.code = none) (hdoom : l.doom = none)
    (he : (s.partAt l.part).codeTable.find? (fun x => decide (x.1 = l.num 0 8)) = some e)
    (hn : (s.partAt l.part).tabled e.2 = some n) :
    exec (.plaquelTranslation l.id) s = .next ((s.updPart l.part (fun p => p.enterCode e.1 e.2)).giveCode l n) := by
  show execPlaquelTranslation l.id s = _
  unfold execPlaquelTranslation
  rw [hl]
  dsimp only
  rw [hcode, hdoom, if_neg (by decide), he]
  dsimp only
  rw [hn]

/-! ### The dispatcher (17 R426, R429) -/

/-- Where no head fails for the first time, the dispatcher makes the choice of R426. -/
theorem dispatch_chooses {s : State} {die : Nat} {l : Launch} {cs : List Nat} (hadm : s.admission = none)
    (hnew : s.newlyFailed die = []) (hchoice : (s.updDie die (fun d => d.enter ((s.candidates die).map
      (fun c => c.1.part)).eraseDups)).choose die (s.candidates die) = some (l, cs)) :
    ∃ t, exec (.dispatch die) s = .next t ∧ t.admission = some (l.id, cs, die) := by
  have hsame : ({ s with launches := s.launches.map (fun (l : Launch) =>
      if ([] : List Nat).contains l.id then { l with failedOnce := true } else l) } : State) = s :=
    congrArg (fun ls => { s with launches := ls }) (List.map_id' s.launches)
  refine ⟨((s.updDie die (fun d => d.enter ((s.candidates die).map (fun c => c.1.part)).eraseDups)).chosen die l cs), ?_, rfl⟩
  show execDispatch die s = _
  unfold execDispatch
  rw [if_neg (by rw [hadm]; decide), hnew]
  dsimp only
  rw [hsame]
  rw [hchoice]

/-- A head that has failed ages (17 R429). -/
theorem headAgeing_ages {s : State} {k die : Nat} {l : Launch}
    (hl : s.launches.find? (fun l => decide (l.queue = k) && s.isHead l && l.failedOnce && s.onDie l die) = some l) :
    ∃ t, exec (.headAgeing die k) s = .next t ∧ ∀ x ∈ t.launches, x.id = l.id → x.aged = true := by
  have haged : ∀ x ∈ (s.updLaunch l.id (fun l => { l with aged := true })).launches, x.id = l.id → x.aged = true := by
    intro x hx hid
    obtain ⟨y, -, rfl⟩ := List.mem_map.mp hx
    by_cases hy : y.id = l.id
    · rw [if_pos hy]
    · rw [if_neg hy] at hid
      exact absurd hid hy
  refine ⟨_, rfl, ?_⟩
  rw [hl]
  dsimp only
  split
  · exact haged
  · split
    · exact haged
    · exact haged

/-! ### Admission (17 R424, R427; 07 R195) -/

/-- A choice whose launch has failed, or whose cores take its workgroups no more, is dropped. -/
theorem workgroupAdmission_drops {s : State} {id die : Nat} {cs : List Nat} {l : Launch} (hadm : s.admission = some (id, cs, die))
    (hl : s.launches.find? (fun l => decide (l.id = id)) = some l) (hno : s.launchFailed l = true ∨ s.stillFits l cs = false) :
    exec (.workgroupAdmission id cs) s = .next (s.dropAdmission id) := by
  have hdrop : (s.launchFailed l || !s.stillFits l cs) = true := by
    rcases hno with h | h <;> rw [h]
    · rfl
    · exact Bool.or_true _
  show execWorkgroupAdmission id cs s = _
  unfold execWorkgroupAdmission
  rw [hadm]
  dsimp only
  rw [decide_eq_false (not_not.mpr rfl), decide_eq_false (not_not.mpr rfl), if_neg (by decide), hl]
  dsimp only
  rw [if_pos hdrop]

/-- A choice that stands begins to take back its ways, waits for their lines, or is carried out. -/
theorem workgroupAdmission_goesOn {s : State} {id die : Nat} {cs : List Nat} {l : Launch} (hadm : s.admission = some (id, cs, die))
    (hl : s.launches.find? (fun l => decide (l.id = id)) = some l) (hgood : s.launchFailed l = false)
    (hfits : s.stillFits l cs = true) : exec (.workgroupAdmission id cs) s =
      if !s.reclaimBegun l cs && (s.beginReclaim l cs).reclaimPending cs then .next (s.beginReclaim l cs)
      else if s.reclaimPending cs then .next s
      else .next ((((State.admitAll l cs 0 0 (s.dropAdmission id)).updLaunch id (fun k => { k with
        next := l.next + cs.length })).endReservation id).charge die l cs) := by
  show execWorkgroupAdmission id cs s = _
  unfold execWorkgroupAdmission
  rw [hadm]
  dsimp only
  rw [decide_eq_false (not_not.mpr rfl), decide_eq_false (not_not.mpr rfl), if_neg (by decide), hl]
  dsimp only
  rw [hgood, hfits, if_neg (by decide)]

/-! ### Retirement (17 R430) -/

/-- A workgroup without gangs and late accesses retires once its core's lines have been written back. -/
theorem workgroupRetirement_retires {s : State} {wid : Nat} (hlive : (s.wgAt wid).live = true) (hgangs : s.gangsOf wid = [])
    (hlate : s.lateLeft wid = false) : exec (.workgroupRetirement wid) s =
      .next (if (s.releaseActs (coreOfWid wid) 4).flushing (coreOfWid wid) = [] then
        (s.retireWg wid).finishLaunch (s.wgAt wid).launch else s.releaseActs (coreOfWid wid) 4) := by
  show execWorkgroupRetirement wid s = _
  unfold execWorkgroupRetirement
  dsimp only
  rw [hlive, hgangs, hlate, if_pos (by decide)]
  simp only [List.isEmpty_iff]

/-- Launches and the dispatcher, as `Claims.LaunchEvents` states them. -/
theorem launchEvents : Claims.LaunchEvents := by
  intro s u v k die p fs rec_
  refine ⟨fun hs e => launchPacket_faults hs, fun hs hread => ⟨fun hbad => ?_, fun hok hsucc hgroups hargs hfits => ?_⟩,
    fun l e n hl hcode hdoom he hn => plaquelTranslation_tabled hl hcode hdoom he hn,
    fun l cs hadm hnew hchoice => dispatch_chooses hadm hnew hchoice,
    fun id cs l hadm hl => ⟨workgroupAdmission_drops hadm hl, fun hgood hfits => ⟨fun hbegun hpend => ?_, fun hbegun hpend => ?_,
      fun hpend hdone => ?_⟩⟩,
    fun l => headAgeing_ages, fun wid hlive hgangs hlate => workgroupRetirement_retires hlive hgangs hlate⟩
  · rw [launchPacket_reads hs, hread]
    dsimp only
    rw [takeLaunch_refused (l := v.launchRead k p fs rec_) hbad]
  · rw [launchPacket_reads hs, hread]
    dsimp only
    rw [takeLaunch_enters (l := v.launchRead k p fs rec_) hok hsucc hgroups hargs hfits]
    rfl
  · rw [workgroupAdmission_goesOn hadm hl hgood hfits, hbegun, hpend]
    rfl
  · rw [workgroupAdmission_goesOn hadm hl hgood hfits, hbegun, hpend]
    rfl
  · have hskip : (!s.reclaimBegun l cs && (s.beginReclaim l cs).reclaimPending cs) = false := by
      rcases hdone with h | h <;> rw [h]
      · rfl
      · exact Bool.and_false _
    rw [workgroupAdmission_goesOn hadm hl hgood hfits, hskip, hpend]
    rfl

/-- Settles O58: each event unfolds to the body of its packet, or to what the dispatcher does. -/
theorem queuesAndLaunches : Obligations.QueuesAndLaunches := ⟨queueEvents, launchEvents⟩

end Sys2Proof.Machine
end

section
/-! The rules by which the invariant of O7 is carried through the model: what it depends on, what a step's outcome must give,
and how it passes a fold, a pair and the writes of local memory. -/

namespace Sys2Proof.Machine

/-- The invariant is about local memory alone. -/
theorem State.Inv.of_mem {s t : State} (h : s.Inv) (e : t.mem = s.mem) : t.Inv := by
  unfold State.Inv at h ⊢
  rw [e]
  exact h

/-- A state that takes its memory from one with the invariant has it, whatever its other fields are. -/
theorem inv_update {s : State} {cur gangs wgs cores clusters dies parts badLines migrating ioTlb window sys power groups
    handles msgs held execs alarms cells queues frontWrites launches admission saved promo watches gt sweep teardowns
    endings invals mirrors fwcalls links inbound hostReply logIndex logCount routes routesLoaded rowFixes spares remap
    scrubbed eventIdx sigIndex sessions flash image bootFailed commits windowCycles slots kept devid bridge pcieUp clock
    ir nextId fresh agenda pace stepNo : _} (h : s.Inv) :
    State.Inv {
      mem := s.mem, cur := cur, gangs := gangs, wgs := wgs, cores := cores, clusters := clusters, dies := dies, parts := parts,
      badLines := badLines, migrating := migrating, ioTlb := ioTlb, window := window, sys := sys, power := power,
      groups := groups, handles := handles, msgs := msgs, held := held, execs := execs, alarms := alarms, cells :=
      cells, queues := queues, frontWrites := frontWrites, launches := launches, admission := admission, saved :=
      saved, promo := promo, watches := watches, gt := gt, sweep := sweep, teardowns := teardowns, endings :=
      endings, invals := invals, mirrors := mirrors, fwcalls := fwcalls, links := links, inbound := inbound,
      hostReply := hostReply, logIndex := logIndex, logCount := logCount, routes := routes, routesLoaded :=
      routesLoaded, rowFixes := rowFixes, spares := spares, remap := remap, scrubbed := scrubbed, eventIdx :=
      eventIdx, sigIndex := sigIndex, sessions := sessions, flash := flash, image := image, bootFailed :=
      bootFailed, commits := commits, windowCycles := windowCycles, slots := slots, kept := kept, devid := devid,
      bridge := bridge, pcieUp := pcieUp, clock := clock, ir := ir, nextId := nextId, fresh := fresh, agenda :=
      agenda, pace := pace, stepNo := stepNo } := h

/-- An outcome keeps the invariant: the next state, when there is one, has it. -/
inductive Res.Keeps : Res → Prop
  | next {t : State} : t.Inv → Res.Keeps (.next t)
  | fault {f : Fault} : Res.Keeps (.fault f)
  | refused {f : Refusal} : Res.Keeps (.refused f)

/-- The next state of an outcome that keeps the invariant has it. -/
theorem Res.Keeps.inv {r : Res} {t : State} (h : r.Keeps) (he : r = .next t) : t.Inv := by
  subst he
  cases h with
  | next h => exact h

/-- What an attempt gives has a property, and so has the error it ends with. -/
inductive Gives {ε α : Type} (E : ε → Prop) (P : α → Prop) : Except ε α → Prop
  | ok {a : α} : P a → Gives E P (.ok a)
  | error {e : ε} : E e → Gives E P (.error e)

theorem Gives.of_ok {ε α : Type} {E : ε → Prop} {P : α → Prop} {x : Except ε α} {a : α} (h : Gives E P x) (he : x = .ok a) :
    P a := by
  subst he
  cases h with
  | ok h => exact h

theorem Gives.of_error {ε α : Type} {E : ε → Prop} {P : α → Prop} {x : Except ε α} {e : ε} (h : Gives E P x)
    (he : x = .error e) : E e := by
  subst he
  cases h with
  | error h => exact h

/-- What a search finds has a property. -/
inductive Finds {α : Type} (P : α → Prop) : Option α → Prop
  | some {a : α} : P a → Finds P (some a)
  | none : Finds P none

theorem Finds.of_some {α : Type} {P : α → Prop} {x : Option α} {a : α} (h : Finds P x) (he : x = .some a) : P a := by
  subst he
  cases h with
  | some h => exact h

theorem finds_bind {α β : Type} {P : β → Prop} {Q : α → Prop} {x : Option α} {f : α → Option β} (h : Finds Q x)
    (hf : ∀ a, Q a → Finds P (f a)) : Finds P (x.bind f) := by
  cases h with
  | none => exact .none
  | some h => exact hf _ h

theorem finds_map {α β : Type} {P : β → Prop} {x : Option α} {f : α → β} (h : ∀ a, P (f a)) : Finds P (x.map f) := by
  cases x with
  | none => exact .none
  | some a => exact .some (h a)

theorem finds_findSome? {α β : Type} {P : β → Prop} {f : α → Option β} {l : List α} (h : ∀ x, Finds P (f x)) :
    Finds P (l.findSome? f) := by
  cases he : l.findSome? f with
  | none => exact .none
  | some b =>
    obtain ⟨a, -, ha⟩ := List.exists_of_findSome?_eq_some he
    exact .some ((h a).of_some ha)

/-- The first that a list of searches finds has the property that each gives. -/
theorem finds_firstSome {α β : Type} {P : β → Prop} {f : α → Option β} {l : List α} (h : ∀ x ∈ l, Finds P (f x)) :
    Finds P (firstSome f l) := by
  induction l with
  | nil => exact .none
  | cons x xs ih =>
    unfold firstSome
    split
    · next y he => exact .some ((h x (List.mem_cons_self ..)).of_some he)
    · exact ih (fun y hy => h y (List.mem_cons_of_mem _ hy))

theorem inv_getD {x : Option State} {s : State} (hx : Finds State.Inv x) (h : s.Inv) : (x.getD s).Inv := by
  cases hx with
  | none => exact h
  | some hx => exact hx

theorem keeps_getD {x : Option Res} {r : Res} (hx : Finds Res.Keeps x) (h : r.Keeps) : (x.getD r).Keeps := by
  cases hx with
  | none => exact h
  | some hx => exact hx

theorem inv_id {s : State} (h : s.Inv) : (id s).Inv := h

/-- The state of a pair that an equation gives. -/
theorem inv_fst {α : Type} {r : State × α} {t : State} {a : α} (he : r = (t, a)) (h : r.1.Inv) : t.Inv := by
  subst he
  exact h

theorem inv_snd {α : Type} {r : α × State} {t : State} {a : α} (he : r = (a, t)) (h : r.2.Inv) : t.Inv := by
  subst he
  exact h

/-- A fold whose steps keep the invariant keeps it. -/
theorem inv_foldl {α : Type} {f : State → α → State} {s : State} {l : List α} (hf : ∀ u a, u.Inv → (f u a).Inv) (h : s.Inv) :
    (l.foldl f s).Inv := by
  induction l generalizing s with
  | nil => exact h
  | cons x xs ih => exact ih (hf s x h)

end Sys2Proof.Machine
end

section
/-! O7, State: the canonical form of local memory is kept by the state after reset. -/

namespace Sys2Proof.Machine

theorem inv_reset : State.reset.Inv := memWf_reset

end Sys2Proof.Machine
end

section
/-! O7, Regs: the canonical form of local memory is kept by the updates of gangs, workgroups, cores and the other parts of the state. -/

namespace Sys2Proof.Machine

theorem inv_setGangAt {s : State} {k : Nat} {g : Gang} (h : s.Inv) : (s.setGangAt k g).Inv :=
  h.of_mem rfl

theorem inv_setGang {s : State} {g : Gang} (h : s.Inv) : (s.setGang g).Inv := by
  unfold State.setGang
  exact inv_setGangAt h

theorem inv_updGangAt {s : State} {k : Nat} {f : Gang → Gang} (h : s.Inv) : (s.updGangAt k f).Inv := by
  unfold State.updGangAt
  exact inv_setGangAt h

theorem inv_updGang {s : State} {f : Gang → Gang} (h : s.Inv) : (s.updGang f).Inv := by
  unfold State.updGang
  exact inv_setGang h

theorem inv_setWgAt {s : State} {k : Nat} {w : Workgroup} (h : s.Inv) : (s.setWgAt k w).Inv :=
  h.of_mem rfl

theorem inv_updWgAt {s : State} {k : Nat} {f : Workgroup → Workgroup} (h : s.Inv) : (s.updWgAt k f).Inv := by
  unfold State.updWgAt
  exact inv_setWgAt h

theorem inv_updWg {s : State} {f : Workgroup → Workgroup} (h : s.Inv) : (s.updWg f).Inv := by
  unfold State.updWg
  exact inv_updWgAt h

theorem inv_updCore {s : State} {k : Nat} {f : Core → Core} (h : s.Inv) : (s.updCore k f).Inv :=
  h.of_mem rfl

theorem inv_updCluster {s : State} {k : Nat} {f : Cluster → Cluster} (h : s.Inv) : (s.updCluster k f).Inv :=
  h.of_mem rfl

theorem inv_updDie {s : State} {k : Nat} {f : Die → Die} (h : s.Inv) : (s.updDie k f).Inv :=
  h.of_mem rfl

theorem inv_updPart {s : State} {k : Nat} {f : Part → Part} (h : s.Inv) : (s.updPart k f).Inv :=
  h.of_mem rfl

theorem inv_setCell {s : State} {k : Nat} {c : TCell} (h : s.Inv) : (s.setCell k c).Inv :=
  h.of_mem rfl

theorem inv_updQueue {s : State} {k : Nat} {f : Queue → Queue} (h : s.Inv) : (s.updQueue k f).Inv :=
  h.of_mem rfl

theorem inv_updSlot {s : State} {k : Nat} {f : HSlot → HSlot} (h : s.Inv) : (s.updSlot k f).Inv :=
  h.of_mem rfl

theorem inv_updLink {s : State} {k : Nat} {f : Link → Link} (h : s.Inv) : (s.updLink k f).Inv :=
  h.of_mem rfl

theorem inv_takeFresh {s : State} (h : s.Inv) : s.takeFresh.2.Inv :=
  h.of_mem rfl

theorem inv_advance {s : State} (h : s.Inv) : s.advance.Inv := by
  unfold State.advance
  exact inv_updGang h

end Sys2Proof.Machine
end

section
/-! O7, Phys: the canonical form of local memory is kept by home memory, the L1 and the Barn. -/

namespace Sys2Proof.Machine

theorem inv_takeId {s : State} (h : s.Inv) : s.takeId.2.Inv :=
  h.of_mem rfl

theorem inv_launchMsg {s : State} {m : Msg} (h : s.Inv) : (s.launchMsg m).Inv := by
  unfold State.launchMsg
  split
  · exact h.of_mem rfl
  · split
    · exact inv_updLink (h.of_mem rfl)
    · exact h.of_mem rfl

theorem inv_send {s : State} {m : Msg} (h : s.Inv) : (s.send m).Inv := by
  unfold State.send
  dsimp only
  exact inv_launchMsg (inv_takeId h)

theorem inv_putBytes {s : State} {a n : Nat} {f : Nat → Byte} (h : s.Inv) : (s.putBytes a n f).Inv :=
  memWf_putBytes s a n f h

theorem inv_fireGang {s : State} {k : Nat} (h : s.Inv) : (fireGang s k).Inv := by
  unfold fireGang
  exact inv_updGangAt h

theorem inv_fireWatcher {s : State} {x : Watcher} (h : s.Inv) : (fireWatcher s x).Inv := by
  unfold fireWatcher
  dsimp only
  split
  · exact inv_fireGang h
  · exact inv_send h

theorem inv_fireWatches {s : State} {line : Nat} (h : s.Inv) : (s.fireWatches line).Inv := by
  unfold State.fireWatches
  exact inv_foldl (fun _ _ ht => inv_fireWatcher ht) (h.of_mem rfl)

theorem inv_fireRange {s : State} {a n : Nat} (h : s.Inv) : (s.fireRange a n).Inv := by
  unfold State.fireRange
  exact inv_foldl (fun _ _ ht => inv_fireWatches ht) h

theorem inv_writeHome {s : State} {a n : Nat} {f : Nat → Byte} (h : s.Inv) : (s.writeHome a n f).Inv := by
  unfold State.writeHome
  exact inv_update (inv_fireRange (inv_putBytes h))

theorem inv_writeHomeNum {s : State} {a n n1 : Nat} (h : s.Inv) : (s.writeHomeNum a n n1).Inv := by
  unfold State.writeHomeNum
  exact inv_writeHome h

theorem inv_writeHomeList {s : State} {a : Nat} {bs : List Byte} (h : s.Inv) : (s.writeHomeList a bs).Inv := by
  unfold State.writeHomeList
  exact inv_writeHome h

theorem inv_barnStore {s : State} {by_ lg core a : Nat} {b : Byte} (h : s.Inv) : (s.barnStore by_ lg core a b).Inv := by
  unfold State.barnStore
  exact inv_updCore h

theorem inv_putBank {s : State} {core a : Nat} {b : Byte} (h : s.Inv) : (s.putBank core a b).Inv := by
  unfold State.putBank
  exact inv_updCore h

theorem inv_drainList {s : State} {qs : List QueuedByte} (h : s.Inv) : (s.drainList qs).Inv := by
  unfold State.drainList
  exact inv_foldl (fun _ _ ht => inv_putBank ht) h

theorem inv_drainQueues {s : State} {core : Nat} (h : s.Inv) : (s.drainQueues core).Inv := by
  unfold State.drainQueues
  exact inv_updCore (inv_drainList h)

theorem inv_drainSome {s : State} {by_ : Nat} {f : List QueuedByte → QueuedByte → Bool} (h : s.Inv) :
    (s.drainSome by_ f).Inv := by
  unfold State.drainSome
  exact inv_updCore (inv_drainList h)

theorem inv_drainFor {s : State} {by_ core a : Nat} (h : s.Inv) : (s.drainFor by_ core a).Inv := by
  unfold State.drainFor
  exact inv_drainSome h

theorem inv_drainOne {s : State} {by_ i : Nat} (h : s.Inv) : (s.drainOne by_ i).Inv := by
  unfold State.drainOne
  exact inv_drainSome h

theorem inv_drainInto {s : State} {core : Nat} (h : s.Inv) : (s.drainInto core).Inv := by
  unfold State.drainInto
  exact inv_foldl (fun _ _ ht => inv_drainSome ht) h

theorem inv_bankStore {s : State} {core a : Nat} {b : Byte} (h : s.Inv) : (s.bankStore core a b).Inv := by
  unfold State.bankStore
  refine inv_putBank ?_
  split
  · exact inv_drainFor h
  · exact h

theorem inv_setLine {s : State} {core line : Nat} {x : Option L1Line} (h : s.Inv) : (s.setLine core line x).Inv := by
  unfold State.setLine
  exact inv_updCore h

theorem inv_cancelFills {s : State} {core : Nat} {line : Option Nat} (h : s.Inv) : (s.cancelFills core line).Inv :=
  h.of_mem rfl

/-- A write-back, to this device's memory or another's, keeps the invariant. -/
theorem inv_putDirty {s : State} {core line : Nat} {x : L1Line} (h : s.Inv) : (s.putDirty core line x).Inv := by
  unfold State.putDirty
  split
  · exact inv_send (inv_cancelFills h)
  · exact inv_fireWatches (memWf_mergeDirty x _ _ _ h)

theorem inv_writeBackOne {s : State} {core line : Nat} (h : s.Inv) : (s.writeBackOne core line).Inv := by
  unfold State.writeBackOne
  split
  · exact h
  · split
    · exact h
    · exact inv_setLine (inv_putDirty h)

theorem inv_writeBackAll {s : State} {core : Nat} (h : s.Inv) : (s.writeBackAll core).Inv := by
  unfold State.writeBackAll
  exact inv_update (inv_foldl (fun _ _ ht => inv_writeBackOne ht) h)

theorem inv_pushCore {s : State} {core : Nat} (h : s.Inv) : (s.pushCore core).Inv := by
  unfold State.pushCore
  exact inv_writeBackAll (inv_drainQueues h)

theorem inv_writeBack {s : State} {core line : Nat} (h : s.Inv) : (s.writeBack core line).Inv := by
  unfold State.writeBack
  split
  · exact inv_pushCore h
  · exact inv_writeBackOne h

theorem inv_flushLine {s : State} {core line : Nat} (h : s.Inv) : (s.flushLine core line).Inv := by
  unfold State.flushLine
  exact inv_setLine (inv_writeBack h)

theorem inv_dropClean {s : State} {core : Nat} (h : s.Inv) : (s.dropClean core).Inv := by
  unfold State.dropClean
  exact inv_updCore (inv_cancelFills h)

theorem inv_evict {s : State} {core line w : Nat} (h : s.Inv) : (s.evict core line w).Inv := by
  unfold State.evict
  split
  · exact inv_flushLine h
  · exact h

theorem inv_allocLine {s : State} {core wid line code : Nat} {page : Page} (h : s.Inv) :
    (s.allocLine core wid line code page).1.Inv := by
  unfold State.allocLine
  dsimp only
  split
  · exact h
  · exact inv_evict h

theorem inv_probe {s : State} {core line : Nat} {page : Page} (h : s.Inv) : (s.probe core line page).1.Inv := by
  unfold State.probe
  dsimp only
  split
  · exact h
  · split
    · exact h
    · split
      · exact h
      · split
        · exact h
        · exact inv_updCluster h

theorem inv_learn {s : State} {page : Page} {cls : List Nat} (h : s.Inv) : (s.learn page cls).Inv := by
  unfold State.learn
  refine inv_foldl (fun _ _ ht => ?_) h
  split
  · exact inv_updCluster ht
  · exact ht

theorem inv_multicast {s : State} {core line : Nat} {page : Page} (h : s.Inv) : (s.multicast core line page).Inv := by
  unfold State.multicast
  dsimp only
  split
  · exact h
  · split
    · exact h
    · split
      · exact h.of_mem rfl
      · exact inv_learn (h.of_mem rfl)

theorem inv_l1Fill {s : State} {core wid line code : Nat} {page : Page} (h : s.Inv) :
    (s.l1Fill core wid line code page).Inv := by
  unfold State.l1Fill
  dsimp only
  split
  · exact inv_setLine (inv_allocLine h)
  · split
    · exact inv_setLine (inv_probe (inv_allocLine h))
    · exact inv_setLine (inv_multicast (inv_probe (inv_allocLine h)))

theorem inv_l1FillFar {s : State} {core wid line code : Nat} {page : Page} {data : Nat → Byte} (h : s.Inv) :
    (s.l1FillFar core wid line code page data).Inv := by
  unfold State.l1FillFar
  dsimp only
  exact inv_setLine (inv_allocLine h)

theorem inv_l1Hit {s : State} {core wid line off n code : Nat} (h : s.Inv) : (s.l1Hit core wid line off n code).1.Inv := by
  unfold State.l1Hit
  split
  · exact inv_setLine h
  · exact h

theorem inv_l1Put {s : State} {core wid line off n v code : Nat} {page : Page} (h : s.Inv) :
    (s.l1Put core wid line off n v code page).Inv := by
  unfold State.l1Put
  dsimp only
  exact inv_setLine (inv_allocLine h)

theorem inv_l1Store {s : State} {core wid a n v code : Nat} {page : Page} (h : s.Inv) :
    (s.l1Store core wid a n v code page).Inv := by
  unfold State.l1Store
  exact inv_l1Put h

theorem inv_noteStore {s : State} {core line : Nat} {n : StoreNote} (h : s.Inv) : (s.noteStore core line n).Inv := by
  unfold State.noteStore
  split
  · exact inv_setLine h
  · exact h

theorem inv_writeWide {s : State} {core a n : Nat} {f : Nat → Byte} (h : s.Inv) : (s.writeWide core a n f).Inv := by
  unfold State.writeWide
  exact inv_writeHome (inv_flushLine h)

theorem inv_tileStore {s : State} {by_ lg core off x n : Nat} {t : Tile} (h : s.Inv) :
    (s.tileStore by_ lg core t off x n).Inv := by
  induction n with
  | zero => exact h
  | succ n ih => exact inv_barnStore ih

theorem inv_tileBankWrite {s : State} {core : Nat} {t : Tile} {off : Nat} {l : List Byte} (h : s.Inv) :
    (s.tileBankWrite core t off l).Inv := by
  induction l generalizing s core t off with
  | nil =>
    unfold State.tileBankWrite
    exact h
  | cons _ _ ih =>
    unfold State.tileBankWrite
    dsimp only
    refine ih ?_
    split
    · exact inv_bankStore h
    · exact h

end Sys2Proof.Machine
end

section
/-! O7, Translate: the canonical form of local memory is kept by translation. -/

namespace Sys2Proof.Machine

theorem inv_fillL1Tlb {s : State} {core : Nat} {e : TlbEntry} (h : s.Inv) : (s.fillL1Tlb core e).Inv := by
  unfold State.fillL1Tlb
  exact inv_updCore h

theorem inv_fillClusterTlb {s : State} {cl : Nat} {e : TlbEntry} (h : s.Inv) : (s.fillClusterTlb cl e).Inv := by
  unfold State.fillClusterTlb
  exact inv_updCluster h

theorem gives_walkEnd {s : State} {cache : List WalkEntry} {pasid va : Nat} {a : Acc} (h : s.Inv) :
    Gives (fun _e => True) (fun r => r.1.Inv) (s.walkEnd cache pasid va a) := by
  unfold State.walkEnd
  dsimp only
  split
  · exact .error trivial
  · split
    · exact .error trivial
    · split
      · dsimp only
        split
        · exact .error trivial
        · split
          · exact .error trivial
          · exact .ok (inv_writeHomeNum h)
      · split
        · split
          · exact .error trivial
          · split
            · exact .error trivial
            · exact .ok (inv_writeHomeNum h)
        · split
          · exact .error trivial
          · split
            · exact .error trivial
            · exact .ok (inv_writeHomeNum h)

theorem gives_walkDone {s : State} {pasid va : Nat} {a : Acc} (h : s.Inv) :
    Gives (fun _e => True) (fun r => r.1.Inv) (s.walkDone pasid va a) := by
  unfold State.walkDone
  split
  · exact .error trivial
  · next he =>
      exact .ok ((gives_walkEnd h).of_ok he)

theorem inv_fillWalkCache {s : State} {cl pasid va : Nat} {l : Leaf} (h : s.Inv) : (s.fillWalkCache cl pasid va l).Inv := by
  unfold State.fillWalkCache
  exact inv_updCluster h

theorem gives_translateCluster {s : State} {missed : Bool} {cl pasid va : Nat} {a : Acc} (h : s.Inv) :
    Gives (fun _e => True) (fun r => r.1.Inv) (s.translateCluster missed cl pasid va a) := by
  unfold State.translateCluster
  dsimp only
  split
  · exact .ok (inv_fillClusterTlb h)
  · split
    · exact .error trivial
    · next he1 =>
        exact .ok (inv_fillClusterTlb (inv_fillWalkCache ((gives_walkEnd h).of_ok he1)))

theorem gives_translate {s : State} {core pasid va : Nat} {a : Acc} (h : s.Inv) :
    Gives (fun _e => True) (fun r => r.1.Inv) (s.translate core pasid va a) := by
  unfold State.translate
  split
  · exact .ok (inv_fillL1Tlb h)
  · split
    · exact .error trivial
    · next he1 =>
        exact .ok (inv_fillL1Tlb ((gives_translateCluster h).of_ok he1))

theorem gives_xlate {s : State} {part core pasid va : Nat} {a : Acc} (h : s.Inv) :
    Gives (fun _e => True) (fun r => r.1.Inv) (s.xlate part core pasid va a) := by
  unfold State.xlate
  split
  · split
    · dsimp only
      split
      · exact .error trivial
      · exact .ok h
    · split
      · split
        · exact .error trivial
        · exact .ok h
      · split
        · exact .error trivial
        · exact .ok h
  · exact gives_translate h

theorem gives_translateIo {s : State} {iod pasid va : Nat} {a : Acc} (h : s.Inv) :
    Gives (fun _e => True) (fun r => r.1.Inv) (s.translateIo iod pasid va a) := by
  unfold State.translateIo
  dsimp only
  split
  · exact .ok (h.of_mem rfl)
  · split
    · exact .error trivial
    · next he1 =>
        exact .ok (inv_update ((gives_walkDone h).of_ok he1))

end Sys2Proof.Machine
end

section
/-! O7, Mem: the canonical form of local memory is kept by plain loads and stores, alarms and runs of bytes. -/

namespace Sys2Proof.Machine

theorem inv_putWindow {s : State} {a n n1 : Nat} (h : s.Inv) : (s.putWindow a n n1).Inv :=
  h.of_mem rfl

theorem inv_logSecurity {s : State} {target src spart cls pasid kind action : Nat} (h : s.Inv) :
    (s.logSecurity target src spart cls pasid kind action).Inv := by
  unfold State.logSecurity
  exact inv_putWindow (inv_putWindow (inv_update (inv_putWindow h)))

theorem inv_alarm {s : State} {owner : Option Nat} {target part cls pasid kind : Nat} (h : s.Inv) :
    (s.alarm owner target part cls pasid kind).Inv := by
  unfold State.alarm
  dsimp only
  split
  · exact inv_logSecurity h
  · exact inv_update (inv_logSecurity h)

theorem inv_plainLoad {s : State} {core wid a n code : Nat} {page : Page} (h : s.Inv) :
    (s.plainLoad core wid a n code page).1.Inv := by
  unfold State.plainLoad
  dsimp only
  exact inv_l1Fill h

theorem gives_gangLoadRun {s : State} {core wid part pasid code : Nat} {l : List Nat} {n : Nat} (h : s.Inv) :
    Gives (fun _e => True) (fun r => r.1.Inv) (s.gangLoadRun core wid part pasid code l n) := by
  induction l generalizing s n with
  | nil =>
    unfold State.gangLoadRun
    exact .ok h
  | cons _ _ ih =>
    unfold State.gangLoadRun
    dsimp only
    split
    · exact .error trivial
    · next he =>
        split
        · exact .error trivial
        · next he1 =>
            split
            · exact .error trivial
            · next he2 =>
                refine .ok ?_
                dsimp only
                refine (ih ?_).of_ok he2
                split at he1
                · cases he1
                  exact inv_l1Fill ((gives_xlate h).of_ok he)
                · split at he1
                  · injection he1 with he1
                    exact inv_fst he1 (inv_l1Hit ((gives_xlate h).of_ok he))
                  · cases he1
                · cases he1
                · cases he1

theorem gives_gangStoreRun {s : State} {core wid part pasid code : Nat} {l : List (List Byte)} {n : Nat} (h : s.Inv) :
    Gives (fun _e => True) State.Inv (s.gangStoreRun core wid part pasid code l n) := by
  induction l generalizing s n with
  | nil =>
    unfold State.gangStoreRun
    exact .ok h
  | cons _ _ ih =>
    unfold State.gangStoreRun
    split
    · exact .error trivial
    · next he =>
        split
        · exact ih (inv_l1Store ((gives_xlate h).of_ok he))
        · exact ih (inv_noteStore (inv_l1Put ((gives_xlate h).of_ok he)))
        · exact .error trivial
        · exact .error trivial

theorem inv_tfqPut {s : State} {die : Nat} {a : TfqAgent} (h : s.Inv) : (s.tfqPut die a).Inv := by
  unfold State.tfqPut
  exact inv_updDie (inv_writeHomeList h)

theorem inv_tfqWrite {s : State} {die : Nat} {a : TfqAgent} (h : s.Inv) : (s.tfqWrite die a).Inv := by
  unfold State.tfqWrite
  split
  · exact inv_updDie h
  · exact inv_tfqPut h

end Sys2Proof.Machine
end

section
/-! O7, Late: the canonical form of local memory is kept by accesses with their lanes, and what performs late. -/

namespace Sys2Proof.Machine

theorem inv_releaseActs {s : State} {core sc : Nat} (h : s.Inv) : (s.releaseActs core sc).Inv := by
  unfold State.releaseActs
  split
  · exact inv_pushCore h
  · exact h

theorem inv_acquireActs {s : State} {core sc : Nat} (h : s.Inv) : (s.acquireActs core sc).Inv := by
  unfold State.acquireActs
  split
  · exact inv_dropClean h
  · exact h

theorem inv_enterPromo {s : State} {line core : Nat} (h : s.Inv) : (s.enterPromo line core).Inv := by
  have hpush : State.Inv (match s.promo.find? (fun e => decide (e.1 = line) && decide (e.2 ≠ core)) with
      | some e => s.pushCore e.2
      | none => s) := by
    split
    · exact inv_pushCore h
    · exact h
  unfold State.enterPromo
  refine inv_update ?_
  split
  · split
    · exact inv_writeBack hpush
    · exact hpush
  · exact hpush

theorem inv_pushPromo {s : State} {line core : Nat} (h : s.Inv) : (s.pushPromo line core).Inv := by
  unfold State.pushPromo
  split
  · split
    · exact h
    · exact inv_releaseActs h
  · exact h

theorem inv_alarmOwners {kind : Nat} {l : List (Option Nat × Nat)} {l1 : List (Option Nat)} {s : State} (h : s.Inv) :
    (alarmOwners kind l l1 s).Inv := by
  induction l generalizing l1 s with
  | nil =>
    unfold alarmOwners
    exact h
  | cons _ _ ih =>
    unfold alarmOwners
    split
    · exact ih h
    · exact ih (inv_alarm h)

theorem inv_reportPoison {s : State} {id path : Nat} {regs : List Nat} {lanes : Word} {dev rcause addr : Nat}
    {opc : DWord} (h : s.Inv) :
    (s.reportPoison id path regs lanes dev rcause addr opc).Inv := by
  unfold State.reportPoison
  exact inv_updGang h

theorem inv_sendLane {s : State} {id pa l : Nat} {m0 : Msg} (h : s.Inv) : (s.sendLane id pa l m0).Inv := by
  unfold State.sendLane
  exact inv_updGang (inv_send h)

theorem inv_settle {s : State} {key opid : Nat} (h : s.Inv) : (s.settle key opid).Inv := by
  unfold State.settle
  dsimp only
  split
  · exact h
  · split
    · exact inv_acquireActs (inv_updGangAt h)
    · exact inv_updGangAt h

/-- An effect whose actions on the state keep the invariant. -/
structure Effect.Safe (e : Effect) : Prop where
  act : ∀ n s l t, s.Inv → (e.act n s l t).Inv
  poison : ∀ s l, s.Inv → (e.poison s l).Inv
  prep : ∀ s l a p, s.Inv → (e.prep s l a p).Inv
  before : ∀ s, s.Inv → (e.before s).Inv
  after : ∀ n s, s.Inv → (e.after n s).Inv

theorem safe_mk {act poison request prep regs before after now late push}
    (hact : ∀ (n : Nat) (s : State) (l : Nat) (t : Target), s.Inv → State.Inv (act n s l t))
    (hpoison : ∀ (s : State) (l : Nat), s.Inv → State.Inv (poison s l))
    (hprep : ∀ (s : State) (l a : Nat) (p : Page), s.Inv → State.Inv (prep s l a p))
    (hbefore : ∀ s : State, s.Inv → State.Inv (before s))
    (hafter : ∀ (n : Nat) (s : State), s.Inv → State.Inv (after n s)) :
    Effect.Safe {
      act := act, poison := poison, request := request, prep := prep, regs := regs, before := before
      after := after, now := now, late := late, push := push } :=
  ⟨hact, hpoison, hprep, hbefore, hafter⟩

theorem inv_act {e : Effect} {n l : Nat} {s : State} {t : Target} (he : e.Safe) (h : s.Inv) : (e.act n s l t).Inv :=
  he.act n s l t h

theorem inv_poison {e : Effect} {s : State} {l : Nat} (he : e.Safe) (h : s.Inv) : (e.poison s l).Inv := he.poison s l h

theorem inv_prep {e : Effect} {s : State} {l a : Nat} {p : Page} (he : e.Safe) (h : s.Inv) : (e.prep s l a p).Inv :=
  he.prep s l a p h

theorem inv_before {e : Effect} {s : State} (he : e.Safe) (h : s.Inv) : (e.before s).Inv := he.before s h

theorem inv_after {e : Effect} {n : Nat} {s : State} (he : e.Safe) (h : s.Inv) : (e.after n s).Inv := he.after n s h

theorem inv_performLanes {e : Effect} {id : Nat} {l : List (Nat × Target)} {s : State} (he : e.Safe) (h : s.Inv) :
    (performLanes e id l s).Inv := by
  induction l generalizing s with
  | nil => exact h
  | cons x xs ih =>
    unfold performLanes
    refine ih ?_
    split
    · split
      · exact inv_act he h
      · exact inv_foldl (fun _ _ ht => inv_sendLane ht) (inv_prep he h)
    · exact inv_poison he h
    · exact inv_poison he h
    · exact inv_act he h

theorem inv_loadAt {s : State} {size code : Nat} {t : Target} (h : s.Inv) : (s.loadAt size code t).1.Inv := by
  unfold State.loadAt
  dsimp only
  split
  · exact inv_plainLoad h
  · refine inv_l1Hit ?_
    split
    · exact h
    · split
      · exact inv_l1FillFar h
      · exact h
  · exact h
  · exact h

theorem inv_noteQueued {s : State} {core n : Nat} {x : StoreNote} (h : s.Inv) : (s.noteQueued core n x).Inv := by
  unfold State.noteQueued
  exact inv_updCore h

theorem inv_storeAt {s : State} {id l size code v : Nat} {t : Target} (h : s.Inv) : (s.storeAt id l size code v t).Inv := by
  unfold State.storeAt
  split
  · exact inv_noteStore (inv_l1Store h)
  · exact inv_noteStore (inv_l1Put h)
  · exact inv_noteQueued (inv_tileStore h)
  · exact h

theorem inv_updateCopy {s : State} {core line off size code v : Nat} (h : s.Inv) :
    (s.updateCopy core line off size code v).Inv := by
  unfold State.updateCopy
  dsimp only
  split
  · exact inv_setLine h
  · exact h

theorem inv_releaseStore {s : State} {id l size code sc v : Nat} {t : Target} (h : s.Inv) :
    (s.releaseStore id l size code sc v t).Inv := by
  unfold State.releaseStore
  dsimp only
  split
  · split
    · exact inv_enterPromo (inv_storeAt h)
    · exact inv_updateCopy (inv_writeHomeNum h)
  · exact inv_enterPromo (inv_storeAt h)
  · exact inv_storeAt h

theorem safe_loadParts {ps : List (Nat × Nat × Nat)} {d : Code} {size : Nat} {signed : Bool} {code : Nat → Nat} :
    (loadParts ps d size signed code).Safe := by
  unfold loadParts
  exact safe_mk (fun _ _ _ _ ht => inv_foldl (fun _ _ ht1 => inv_updGang (inv_loadAt ht1)) ht)
    (fun _ _ ht => inv_updGang ht) (fun _ _ _ _ ht => inv_probe ht) (fun _ ht => inv_id ht) (fun _ _ ht => ht)

theorem safe_loadEffect {d : Code} {size : Nat} {signed : Bool} {code : Nat → Nat} :
    (loadEffect d size signed code).Safe := by
  unfold loadEffect
  exact safe_loadParts

theorem safe_storeParts {ps : List (Nat × Nat × Nat)} {code v : Nat → Nat} : (storeParts ps code v).Safe := by
  unfold storeParts
  exact safe_mk (fun _ _ _ _ ht => inv_foldl (fun _ _ ht1 => inv_storeAt ht1) ht) (fun _ _ ht => ht)
    (fun _ _ _ _ ht => ht) (fun _ ht => inv_id ht) (fun _ _ ht => ht)

theorem safe_storeEffect {size : Nat} {code v : Nat → Nat} : (storeEffect size code v).Safe := by
  unfold storeEffect
  exact safe_storeParts

theorem safe_releaseEffect {size sc : Nat} {code v : Nat → Nat} : (releaseEffect size sc code v).Safe := by
  unfold releaseEffect
  exact safe_mk (fun _ _ _ _ ht => inv_releaseStore ht) (fun _ _ ht => ht) (fun _ _ _ _ ht => inv_updateCopy ht)
    (fun _ ht => inv_id ht) (fun _ _ ht => ht)

theorem inv_performNow {s : State} {o : LateOp} (h : s.Inv) : (s.performNow o).Inv := by
  unfold State.performNow
  dsimp only
  refine inv_settle ?_
  split
  · exact inv_performLanes safe_loadEffect (inv_updGang (inv_updGang h))
  · exact inv_performLanes safe_storeEffect (inv_updGang h)
  · refine inv_updGang (inv_performLanes safe_releaseEffect ?_)
    split
    · exact inv_releaseActs (inv_updGang h)
    · exact inv_updGang h
  · split
    · exact inv_drainQueues (inv_updGang h)
    · exact inv_updGang h

theorem inv_performLate {s : State} {o : LateOp} (h : s.Inv) : (s.performLate o).Inv := by
  unfold State.performLate
  dsimp only
  split
  · split
    · exact inv_updGang (inv_releaseActs h)
    · exact inv_performNow h
  · exact inv_performNow h

theorem inv_runLate {s : State} {key id : Nat} (h : s.Inv) : (s.runLate key id).Inv := by
  unfold State.runLate
  dsimp only
  split
  · split
    · exact inv_update (inv_performLate (h.of_mem rfl))
    · exact h
  · exact h

theorem inv_settleLines {s : State} {ts : List (Nat × Target)} (h : s.Inv) : (s.settleLines ts).Inv := by
  unfold State.settleLines
  exact inv_updGang (inv_foldl (fun _ _ ht => inv_runLate ht) h)

end Sys2Proof.Machine
end

section
/-! O7, Ops: the canonical form of local memory is kept by finishing, stalling, traps and the trap frame. -/

namespace Sys2Proof.Machine

theorem inv_leaveSeat {s : State} {key : Nat} (h : s.Inv) : (s.leaveSeat key).Inv := by
  unfold State.leaveSeat
  exact inv_updCore h

theorem inv_dropWatches {s : State} {key : Nat} (h : s.Inv) : (s.dropWatches key).Inv :=
  h.of_mem rfl

theorem inv_breakExpand {s : State} {key : Nat} (h : s.Inv) : (s.breakExpand key).Inv := by
  unfold State.breakExpand
  dsimp only
  split
  · exact h
  · split
    · refine inv_foldl (fun _ _ ht => ?_) (inv_updWgAt h)
      split
      · exact ht
      · exact inv_updGangAt ht
    · exact h

theorem inv_dropFaults {s : State} {key : Nat} (h : s.Inv) : (s.dropFaults key).Inv := by
  unfold State.dropFaults
  exact inv_updDie h

theorem inv_endGang {s : State} {key : Nat} (h : s.Inv) : (s.endGang key).Inv := by
  unfold State.endGang
  exact inv_setGangAt (inv_updCore (inv_dropFaults (inv_dropWatches (inv_leaveSeat (inv_breakExpand h)))))

theorem inv_dropEngineWork {s : State} {wid : Nat} (h : s.Inv) : (s.dropEngineWork wid).Inv := by
  unfold State.dropEngineWork
  exact inv_updWgAt (inv_updCluster (inv_updCore h))

theorem inv_failLaunch {s : State} {wid : Nat} {record : List Byte} (h : s.Inv) : (s.failLaunch wid record).Inv :=
  h.of_mem rfl

theorem inv_endWorkgroup {s : State} {wid : Nat} {record : List Byte} (h : s.Inv) : (s.endWorkgroup wid record).Inv := by
  unfold State.endWorkgroup
  exact inv_updWgAt (inv_dropEngineWork (inv_foldl (fun _ _ ht => inv_endGang ht) h))

theorem inv_fatal {s : State} {record : List Byte} {level code reason : Nat} (h : s.Inv) :
    (s.fatal record level code reason).Inv := by
  unfold State.fatal
  exact inv_failLaunch (inv_endWorkgroup h)

theorem inv_enterRecord {s : State} {t : TrapReq} {slices : Nat} {rec_ : List Byte} (h : s.Inv) :
    (s.enterRecord t slices rec_).Inv := by
  unfold State.enterRecord
  dsimp only
  split
  · exact inv_fatal h
  · split
    · exact inv_fatal h
    · split
      · refine inv_fatal ?_
        split
        · exact inv_alarm (inv_settleLines (inv_leaveSeat h))
        · exact inv_settleLines (inv_leaveSeat h)
      · next he =>
          exact inv_updGang (inv_dropWatches ((gives_gangStoreRun (inv_settleLines (inv_leaveSeat h))).of_ok he))

theorem inv_enterTrap {s : State} {t : TrapReq} {slices pc word : Nat} (h : s.Inv) : (s.enterTrap t slices pc word).Inv := by
  unfold State.enterTrap
  exact inv_enterRecord h

theorem inv_takeTrap {s : State} {t : TrapReq} (h : s.Inv) : (s.takeTrap t).Inv := by
  unfold State.takeTrap
  exact inv_enterTrap h

theorem inv_trapWaiting {s : State} {t : TrapReq} (h : s.Inv) : (s.trapWaiting t).Inv := by
  unfold State.trapWaiting
  exact inv_enterTrap h

theorem keeps_trapNow {t : TrapReq} {s : State} (h : s.Inv) : (trapNow t s).Keeps := by
  unfold trapNow
  exact .next (inv_takeTrap h)

theorem keeps_illegal {s : State} (h : s.Inv) : (illegal s).Keeps := by
  unfold illegal
  exact keeps_trapNow h

theorem inv_stall {s : State} {b : Block} (h : s.Inv) : (s.stall b).Inv := by
  unfold State.stall
  exact inv_updGang h

theorem keeps_stallOn {b : Block} {s : State} (h : s.Inv) : (stallOn b s).Keeps := by
  unfold stallOn
  exact .next (inv_stall h)

theorem inv_park {s : State} {kind cause : Nat} {acc : Acc} {addr : Nat} {lanes keep : Word} (h : s.Inv) :
    (s.park kind cause acc addr lanes keep).Inv := by
  unfold State.park
  exact inv_tfqWrite (inv_updGang h)

theorem keeps_fetchFar {s : State} {lanes : Word} {code pa : Nat} {page : Page} (h : s.Inv) :
    (s.fetchFar lanes code pa page).Keeps := by
  unfold State.fetchFar
  dsimp only
  split
  · exact keeps_trapNow (inv_updGang h)
  · exact keeps_stallOn (inv_send h)

theorem keeps_runStop {s : State} {lanes : Word} {acc : Acc} {code : Nat} {x : RunStop} (h : s.Inv) :
    (s.runStop lanes acc code x).Keeps := by
  unfold State.runStop
  split
  · exact .next (inv_park h)
  · exact keeps_trapNow (inv_alarm h)
  · exact keeps_trapNow (h.of_mem rfl)
  · exact keeps_fetchFar h

theorem inv_checkRegang {s : State} (h : s.Inv) : s.checkRegang.Inv := by
  unfold State.checkRegang
  dsimp only
  split
  · exact inv_trapWaiting (inv_setGang h)
  · exact h

theorem inv_rereadMasks {s : State} (h : s.Inv) : s.rereadMasks.Inv := by
  unfold State.rereadMasks
  exact inv_setGang h

theorem keeps_trapReturn {s : State} {skip : Bool} (h : s.Inv) : (s.trapReturn skip).Keeps := by
  unfold State.trapReturn
  dsimp only
  split
  · exact keeps_trapNow h
  · split
    · exact keeps_trapNow h
    · split
      · exact keeps_stallOn h
      · split
        · exact keeps_runStop h
        · next he =>
            split
            · exact keeps_trapNow h
            · split
              · exact keeps_fetchFar ((gives_gangLoadRun h).of_ok he)
              · exact .next (inv_checkRegang (inv_rereadMasks (inv_updGang ((gives_gangLoadRun h).of_ok he))))

end Sys2Proof.Machine
end

section
/-! O7, Operands: the canonical form of local memory is kept by the checks before a word. -/

namespace Sys2Proof.Machine

theorem keeps_takeReport {s : State} {p : Report} (h : s.Inv) : (s.takeReport p).Keeps := by
  unfold State.takeReport
  exact keeps_trapNow (inv_updGang h)

theorem keeps_guardLanes {c : Code} {n : Nat} {lanes : List Nat} {s : State} {body : Res} (h : s.Inv) (hb : body.Keeps) :
    (guardLanes c n lanes s body).Keeps := by
  unfold guardLanes
  split
  · split
    · exact keeps_takeReport h
    · exact hb
  · exact keeps_stallOn h

/-- The checks before a word acts keep the invariant when the word does. -/
theorem keeps_guardOps {s : State} {f : OpndsOf} {body : State → Res} (h : s.Inv) (hb : ∀ t, t.Inv → (body t).Keeps) :
    (guardOps s f body).Keeps := by
  unfold guardOps
  dsimp only
  split
  · exact keeps_illegal h
  · split
    · exact keeps_trapNow h
    · split
      · exact keeps_stallOn h
      · split
        · exact keeps_takeReport h
        · exact hb _ h

theorem keeps_finishWith {s : State} {f : Gang → Gang} (h : s.Inv) : (finishWith s f).Keeps := by
  unfold finishWith
  exact .next (inv_updGang h)

end Sys2Proof.Machine
end

section
/-! O7, Flags: the canonical form of local memory is kept by what a floating-point word ends with. -/

namespace Sys2Proof.Machine

theorem keeps_floatFinish {s : State} {fl : Nat → Nat} {commit : Gang → Gang} (h : s.Inv) :
    (floatFinish s fl commit).Keeps := by
  unfold floatFinish
  dsimp only
  split
  · exact keeps_finishWith (inv_updGang h)
  · exact keeps_trapNow (inv_updGang h)

end Sys2Proof.Machine
end

section
/-! O7, Access: the canonical form of local memory is kept by the flow of an access. -/

namespace Sys2Proof.Machine

theorem gives_release {s : State} {sc : Nat} (h : s.Inv) : Gives Res.Keeps State.Inv (s.release sc) := by
  unfold State.release
  dsimp only
  split
  · exact .error (keeps_takeReport h)
  · split
    · exact .error (keeps_stallOn h)
    · split
      · exact .error (keeps_stallOn (inv_releaseActs h))
      · exact .ok (inv_releaseActs h)

theorem keeps_withRelease {s : State} {sc : Nat} {body : State → Res} (h : s.Inv) (hb : ∀ t, t.Inv → (body t).Keeps) :
    (withRelease s sc body).Keeps := by
  unfold withRelease
  split
  · next he =>
      exact (gives_release h).of_error he
  · next he =>
      exact hb _ ((gives_release h).of_ok he)

theorem keeps_reportOr {s : State} {sc : Nat} {body : Res} (h : s.Inv) (hb : body.Keeps) : (reportOr s sc body).Keeps := by
  unfold reportOr
  split
  · exact keeps_takeReport h
  · exact hb

theorem keeps_heldOr {paths : Nat} {s : State} {body : Res} (h : s.Inv) (hb : body.Keeps) : (heldOr paths s body).Keeps := by
  unfold heldOr
  split
  · exact hb
  · exact keeps_stallOn h

theorem keeps_engineOr {paths : Nat} {s : State} {body : Res} (h : s.Inv) (hb : body.Keeps) :
    (engineOr paths s body).Keeps := by
  unfold engineOr
  split
  · exact keeps_heldOr h hb
  · exact keeps_stallOn h

theorem inv_translateLanes {f : Form} {l : List (Nat × Place)} {s : State} (h : s.Inv) : (translateLanes f l s).1.Inv := by
  induction l generalizing s with
  | nil => exact h
  | cons x xs ih =>
    obtain ⟨i, p⟩ := x
    cases p with
    | tile core t off => exact ih h
    | glob va =>
      unfold translateLanes
      split
      · exact ih h
      · next t x he => exact ih ((gives_xlate h).of_ok he)

theorem inv_countMem {s : State} {f : Form} (h : s.Inv) : (s.countMem f).Inv := by
  unfold State.countMem
  split
  · exact inv_updWg h
  · exact h

theorem inv_afterLanes {s : State} {path rights : Nat} {regs : List Nat} {id : Nat} {ts : List (Nat × Target)} (h : s.Inv) :
    (s.afterLanes path rights regs id ts).Inv := by
  unfold State.afterLanes
  dsimp only
  split
  · refine inv_alarmOwners ?_
    split
    · exact h
    · exact inv_reportPoison h
  · refine inv_update (inv_alarmOwners ?_)
    split
    · exact h
    · exact inv_reportPoison h

theorem inv_runLanes {s : State} {f : Form} {e : Effect} {id : Nat} {ts : List (Nat × Target)} (he : e.Safe) (h : s.Inv) :
    (s.runLanes f e id ts).Inv := by
  unfold State.runLanes
  dsimp only
  split
  · refine inv_settle (inv_after he ?_)
    split
    · exact inv_updGang (inv_afterLanes (inv_performLanes he h))
    · exact inv_afterLanes (inv_performLanes he h)
  · refine inv_after he ?_
    split
    · exact inv_updGang (inv_afterLanes (inv_performLanes he h))
    · exact inv_afterLanes (inv_performLanes he h)

/-- The flow of an access keeps the invariant when what it does with each lane does. -/
theorem keeps_memFlow {s : State} {f : Form} {a : Code} {e : Effect} (he : e.Safe) (h : s.Inv) : (memFlow s f a e).Keeps := by
  unfold memFlow
  dsimp only
  refine keeps_heldOr h ?_
  split
  · exact keeps_trapNow h
  · split
    · exact keeps_stallOn h
    · split
      · exact keeps_stallOn h
      · split
        · exact keeps_stallOn h
        · split
          · refine .next (inv_advance (inv_updGang (inv_runLanes he ?_)))
            split
            · exact inv_updGang (inv_update (inv_translateLanes (inv_before he (inv_countMem h))))
            · exact inv_update (inv_translateLanes (inv_before he (inv_countMem h)))
          · refine .next (inv_park (inv_runLanes he ?_))
            split
            · exact inv_updGang (inv_update (inv_translateLanes (inv_before he (inv_countMem h))))
            · exact inv_update (inv_translateLanes (inv_before he (inv_countMem h)))

theorem safe_pacedLoad {pace : Pace} {d : Code} {size : Nat} {signed : Bool} {code : Nat → Nat} :
    (pacedLoad pace d size signed code).Safe := by
  unfold pacedLoad
  dsimp only
  split
  · exact safe_loadEffect
  · exact safe_mk (fun _ _ _ _ ht => inv_act safe_loadEffect ht) (fun _ _ ht => inv_poison safe_loadEffect ht)
      (fun _ _ _ _ ht => inv_prep safe_loadEffect ht) (fun _ ht => inv_before safe_loadEffect ht)
      (fun _ _ ht => inv_after safe_loadEffect ht)
  · split
    · exact safe_mk (fun _ _ _ _ ht => inv_act safe_loadParts ht) (fun _ _ ht => inv_poison safe_loadParts ht)
        (fun _ _ _ _ ht => inv_prep safe_loadParts ht) (fun _ ht => inv_before safe_loadParts ht)
        (fun _ _ ht => inv_after safe_loadParts ht)
    · exact safe_loadEffect

theorem keeps_loadInstr {s : State} {d a : Code} {n sp size : Nat} {signed : Bool} (h : s.Inv) :
    (loadInstr s d a n sp size signed).Keeps := by
  unfold loadInstr
  exact keeps_guardOps h (fun _ ht => keeps_memFlow safe_pacedLoad ht)

theorem safe_pacedStore {pace : Pace} {size : Nat} {code v : Nat → Nat} : (pacedStore pace size code v).Safe := by
  unfold pacedStore
  dsimp only
  split
  · exact safe_mk (fun _ _ _ _ ht => inv_act safe_storeParts ht) (fun _ _ ht => inv_poison safe_storeParts ht)
      (fun _ _ _ _ ht => inv_prep safe_storeParts ht) (fun _ ht => inv_before safe_storeParts ht)
      (fun _ _ ht => inv_after safe_storeParts ht)
  · exact safe_storeEffect

theorem keeps_storeInstr {s : State} {d a : Code} {n sp size : Nat} (h : s.Inv) : (storeInstr s d a n sp size).Keeps := by
  unfold storeInstr
  exact keeps_guardOps h (fun _ ht => keeps_memFlow safe_pacedStore ht)

theorem inv_acquireAfter {s : State} {id sc : Nat} (h : s.Inv) : (s.acquireAfter id sc).Inv := by
  unfold State.acquireAfter
  split
  · exact inv_updGang h
  · exact inv_acquireActs h

theorem inv_acquireLoad {s : State} {size code sc : Nat} {rem_ : Bool} {t : Target} (h : s.Inv) :
    (s.acquireLoad size code sc rem_ t).1.Inv := by
  unfold State.acquireLoad
  dsimp only
  split
  · split
    · exact inv_loadAt h
    · dsimp only
      split
      · exact inv_pushPromo (inv_writeBack h)
      · exact inv_writeBack h
  · exact inv_loadAt h

theorem inv_atomicAt {s : State} {size code sc : Nat} {f : Nat → Nat} {t : Target} (h : s.Inv) :
    (s.atomicAt size code sc f t).1.Inv := by
  unfold State.atomicAt
  dsimp only
  split
  · split
    · exact inv_l1Store (inv_plainLoad h)
    · exact inv_writeHomeNum (inv_flushLine h)
  · exact inv_tileBankWrite (inv_drainQueues (inv_drainQueues h))
  · exact h

end Sys2Proof.Machine
end

section
/-! O7, Control: the canonical form of local memory is kept by branches, calls, masks, modes, waits and hints. -/

namespace Sys2Proof.Machine

theorem keeps_execBr {p : BitVec 5} {sn : BitVec 1} {k : BitVec 2} {o : BitVec 16} {s : State} (h : s.Inv) :
    (execBr p sn k o s).Keeps := by
  unfold execBr
  dsimp only
  split
  · exact keeps_illegal h
  · exact .next (inv_setGang h)

theorem keeps_execBrx {a : Code} {s : State} (h : s.Inv) : (execBrx a s).Keeps := by
  unfold execBrx
  refine keeps_guardOps h (fun _ ht => ?_)
  dsimp only
  split
  · exact keeps_trapNow ht
  · exact .next (inv_setGang ht)

theorem keeps_spillFault {s : State} {slice : Nat} {acc : Acc} {e : RunStop} (h : s.Inv) :
    (s.spillFault slice acc e).Keeps := by
  unfold State.spillFault
  exact keeps_runStop h

theorem gives_runOr {α : Type} {P : α → Prop} {s : State} {va : Nat} {acc : Acc} {body : Except Res α} (h : s.Inv)
    (hb : Gives Res.Keeps P body) : Gives Res.Keeps P (runOr s va acc body) := by
  unfold runOr
  split
  · exact hb
  · exact .error (keeps_stallOn h)

theorem gives_callSpills {s0 : State} {t : Nat → DWord} {l : List Nat} {s : State} (h0 : s0.Inv) (h : s.Inv) :
    Gives Res.Keeps State.Inv (callSpills s0 t l s) := by
  induction l generalizing s with
  | nil => exact .ok h
  | cons x xs ih =>
    unfold callSpills
    dsimp only
    split
    · exact .error (keeps_trapNow h0)
    · split
      · exact ih h
      · split
        · exact .error (keeps_trapNow h0)
        · refine gives_runOr h0 ?_
          split
          · exact .error (keeps_spillFault h0)
          · next he =>
              exact ih ((gives_gangStoreRun h).of_ok he)

theorem keeps_callTo {s : State} {t : Nat → DWord} (h : s.Inv) : (s.callTo t).Keeps := by
  unfold State.callTo
  dsimp only
  split
  · next he =>
      exact (gives_callSpills h h).of_error he
  · next he =>
      exact .next (inv_updGang ((gives_callSpills h h).of_ok he))

theorem keeps_execCall {i : BitVec 24} {s : State} (h : s.Inv) : (execCall i s).Keeps := by
  unfold execCall
  exact keeps_callTo h

theorem keeps_execCallx {a : Code} {s : State} (h : s.Inv) : (execCallx a s).Keeps := by
  unfold execCallx
  exact keeps_guardOps h (fun _ ht => keeps_callTo ht)

/-- The entry that a slice of ret pops, with the slices after it. -/
theorem gives_retRefills {s0 : State} {l : List Nat} {s : State} (h0 : s0.Inv) (h : s.Inv) :
    Gives Res.Keeps (fun r => r.1.Inv) (retRefills s0 l s) := by
  induction l generalizing s with
  | nil => exact .ok h
  | cons k ks ih =>
    have hgo : ∀ (t : State) (entries : List DWord) (spilled : Nat), t.Inv → Gives Res.Keeps (fun r => r.1.Inv)
        (if badTarget (entries.getLastD 0) then .error (trapNow { cause := 0x04, addr := entries.getLastD 0 } s0)
        else match retRefills s0 ks t with
          | .error x => .error x
          | .ok (u, rs) =>
            .ok (u, (k, ({ entries := entries.dropLast, spilled := spilled } : RetStack), entries.getLastD 0) :: rs)) := by
      intro t entries spilled ht
      split
      · exact .error (keeps_trapNow h0)
      · split
        · next r he => exact .error ((ih ht).of_error he)
        · next u rs he =>
          have hu := (ih ht).of_ok he
          exact .ok hu
    unfold retRefills
    dsimp only
    split
    · split
      · exact .error (keeps_trapNow h0)
      · refine gives_runOr h0 ?_
        split
        · exact .error (keeps_spillFault h0)
        · next t bs he => exact hgo t _ _ ((gives_gangLoadRun h).of_ok he)
    · exact hgo s _ _ h

theorem keeps_execRet {s : State} (h : s.Inv) : (execRet s).Keeps := by
  unfold execRet
  split
  · next he =>
      exact (gives_retRefills h h).of_error he
  · next he =>
      exact .next (inv_updGang ((gives_retRefills h h).of_ok he))

theorem keeps_execRegang {m : Code} {s : State} (h : s.Inv) : (execRegang m s).Keeps := by
  unfold execRegang
  dsimp only
  split
  · exact .next (inv_setGang h)
  · exact .next (inv_checkRegang (inv_setGang h))

theorem keeps_execExit {s : State} (h : s.Inv) : (execExit s).Keeps := by
  unfold execExit
  dsimp only
  split
  · exact keeps_takeReport h
  · exact .next (inv_checkRegang (inv_setGang h))

theorem keeps_execNop {s : State} (h : s.Inv) : (execNop s).Keeps := by
  unfold execNop
  exact .next (inv_advance h)

theorem inv_ringLast {s : State} {key : Nat} (h : s.Inv) : (s.ringLast key).Inv := by
  unfold State.ringLast
  exact inv_updCore h

theorem keeps_execYield {s : State} (h : s.Inv) : (execYield s).Keeps := by
  unfold execYield
  exact .next (inv_ringLast (inv_updGang h))

theorem keeps_execPromo {s : State} (h : s.Inv) : (execPromo s).Keeps := by
  unfold execPromo
  exact .next (inv_updGang h)

theorem keeps_execPromoDemote {s : State} (h : s.Inv) : (execPromoDemote s).Keeps := by
  unfold execPromoDemote
  refine .next (inv_advance ?_)
  split
  · exact inv_leaveSeat h
  · exact h

theorem keeps_predForm {s : State} {d : Code} {srcs : List Opnd} {f : State → Nat → Bool} (h : s.Inv) :
    (predForm s d srcs f).Keeps := by
  unfold predForm
  exact keeps_guardOps h (fun _ ht => keeps_finishWith ht)

theorem keeps_execPand {d a b : Code} {s : State} (h : s.Inv) : (execPand d a b s).Keeps := by
  unfold execPand
  exact keeps_predForm h

theorem keeps_execPor {d a b : Code} {s : State} (h : s.Inv) : (execPor d a b s).Keeps := by
  unfold execPor
  exact keeps_predForm h

theorem keeps_execPxor {d a b : Code} {s : State} (h : s.Inv) : (execPxor d a b s).Keeps := by
  unfold execPxor
  exact keeps_predForm h

theorem keeps_execPnot {d a : Code} {s : State} (h : s.Inv) : (execPnot d a s).Keeps := by
  unfold execPnot
  exact keeps_predForm h

theorem keeps_execPsets {d a : Code} {s : State} (h : s.Inv) : (execPsets d a s).Keeps := by
  unfold execPsets
  exact keeps_predForm h

theorem keeps_execExsave {d : Code} {s : State} (h : s.Inv) : (execExsave d s).Keeps := by
  unfold execExsave
  exact keeps_guardOps h (fun _ ht => keeps_finishWith ht)

theorem keeps_execExand {d a : Code} {b : BitVec 1} {s : State} (h : s.Inv) : (execExand d a b s).Keeps := by
  unfold execExand
  exact keeps_guardOps h (fun _ ht => keeps_finishWith ht)

theorem keeps_execExload {a : Code} {s : State} (h : s.Inv) : (execExload a s).Keeps := by
  unfold execExload
  exact keeps_guardOps h (fun _ ht => keeps_finishWith ht)

theorem keeps_execBallot {d a : Code} {s : State} (h : s.Inv) : (execBallot d a s).Keeps := by
  unfold execBallot
  exact keeps_guardOps h (fun _ ht => keeps_finishWith ht)

theorem keeps_execPopc {d a : Code} {s : State} (h : s.Inv) : (execPopc d a s).Keeps := by
  unfold execPopc
  exact keeps_guardOps h (fun _ ht => keeps_finishWith ht)

theorem keeps_execVote {d a : Code} {b : BitVec 2} {s : State} (h : s.Inv) : (execVote d a b s).Keeps := by
  unfold execVote
  dsimp only
  split
  · exact keeps_illegal h
  · exact keeps_guardOps h (fun _ ht => keeps_finishWith ht)

theorem keeps_execMpfx {d a : Code} {s : State} (h : s.Inv) : (execMpfx d a s).Keeps := by
  unfold execMpfx
  exact keeps_guardOps h (fun _ ht => keeps_finishWith ht)

theorem keeps_execShfl {d a b : Code} {s : State} (h : s.Inv) : (execShfl d a b s).Keeps := by
  unfold execShfl
  dsimp only
  split
  · exact keeps_illegal h
  · exact keeps_guardOps h (fun _ ht => keeps_finishWith ht)

theorem keeps_execShfli {d : Code} {m : BitVec 2} {c : BitVec 5} {s : State} (h : s.Inv) : (execShfli d m c s).Keeps := by
  unfold execShfli
  dsimp only
  split
  · exact keeps_illegal h
  · exact keeps_guardOps h (fun _ ht => keeps_finishWith ht)

theorem keeps_execGred {d a : Code} {b : BitVec 3} {s : State} (h : s.Inv) : (execGred d a b s).Keeps := by
  unfold execGred
  dsimp only
  split
  · exact keeps_illegal h
  · refine keeps_guardOps h (fun _ ht => ?_)
    split
    · exact .next (inv_advance ht)
    · exact keeps_floatFinish ht

theorem keeps_execMset {sel : BitVec 3} {i : BitVec 16} {s : State} (h : s.Inv) : (execMset sel i s).Keeps := by
  unfold execMset
  split
  · exact keeps_illegal h
  · exact keeps_finishWith h

theorem keeps_execMsetg {i : BitVec 23} {s : State} (h : s.Inv) : (execMsetg i s).Keeps := by
  unfold execMsetg
  split
  · exact keeps_illegal h
  · exact keeps_finishWith h

theorem keeps_execMget {d : Code} {s : State} (h : s.Inv) : (execMget d s).Keeps := by
  unfold execMget
  exact keeps_guardOps h (fun _ ht => keeps_finishWith ht)

theorem keeps_execMsetr {a : Code} {s : State} (h : s.Inv) : (execMsetr a s).Keeps := by
  unfold execMsetr
  refine keeps_guardOps h (fun _ ht => ?_)
  dsimp only
  split
  · exact keeps_finishWith ht
  · exact keeps_illegal ht

theorem keeps_execWait {l st c t : BitVec 6} {s : State} (h : s.Inv) : (execWait l st c t s).Keeps := by
  unfold execWait
  dsimp only
  split
  · exact keeps_takeReport h
  · split
    · exact .next (inv_advance h)
    · exact keeps_stallOn h

theorem keeps_execWaitr {a : BitVec 3} {b : Code} {s : State} (h : s.Inv) : (execWaitr a b s).Keeps := by
  unfold execWaitr
  dsimp only
  split
  · exact keeps_illegal h
  · refine keeps_guardOps h (fun _ ht => ?_)
    split
    · exact .next (inv_advance ht)
    · split
      · exact keeps_takeReport ht
      · split
        · exact .next (inv_advance ht)
        · exact keeps_stallOn ht

theorem inv_fitRows {s : State} {key : Nat} (h : s.Inv) : (s.fitRows key).Inv := by
  unfold State.fitRows
  exact inv_updGangAt h

theorem keeps_execRegrow {d : Code} {i : BitVec 16} {s : State} (h : s.Inv) : (execRegrow d i s).Keeps := by
  unfold execRegrow
  dsimp only
  split
  · exact keeps_illegal h
  · refine keeps_guardOps h (fun _ ht => ?_)
    split
    · exact keeps_trapNow ht
    · split
      · exact .next (inv_updGang (inv_leaveSeat ht))
      · split
        · exact .next (inv_fitRows (inv_updGang (inv_leaveSeat ht)))
        · exact keeps_stallOn (inv_takeId (inv_leaveSeat ht))

theorem keeps_execRegshr {i : BitVec 16} {s : State} (h : s.Inv) : (execRegshr i s).Keeps := by
  unfold execRegshr
  dsimp only
  split
  · exact keeps_illegal h
  · split
    · exact keeps_trapNow h
    · split
      · exact keeps_trapNow h
      · exact .next (inv_fitRows (inv_updGang (inv_leaveSeat h)))

theorem keeps_execFlget {d : Code} {s : State} (h : s.Inv) : (execFlget d s).Keeps := by
  unfold execFlget
  exact keeps_guardOps h (fun _ ht => keeps_finishWith ht)

theorem keeps_execFlclr {m : BitVec 5} {s : State} (h : s.Inv) : (execFlclr m s).Keeps := by
  unfold execFlclr
  exact keeps_finishWith h

end Sys2Proof.Machine
end

section
/-! O7, MemInstr: the canonical form of local memory is kept by the ordered, atomic and fence words, hints and watches. -/

namespace Sys2Proof.Machine

theorem keeps_execLdb {d a : Code} {n : BitVec 6} {sp : BitVec 2} {s : State} (h : s.Inv) : (execLdb d a n sp s).Keeps := by
  unfold execLdb
  split
  · exact keeps_illegal h
  · exact keeps_loadInstr h

theorem keeps_execLdbs {d a : Code} {n : BitVec 6} {sp : BitVec 2} {s : State} (h : s.Inv) :
    (execLdbs d a n sp s).Keeps := by
  unfold execLdbs
  split
  · exact keeps_illegal h
  · exact keeps_loadInstr h

theorem keeps_execLdh {d a : Code} {n : BitVec 6} {sp : BitVec 2} {s : State} (h : s.Inv) : (execLdh d a n sp s).Keeps := by
  unfold execLdh
  split
  · exact keeps_illegal h
  · exact keeps_loadInstr h

theorem keeps_execLdhs {d a : Code} {n : BitVec 6} {sp : BitVec 2} {s : State} (h : s.Inv) :
    (execLdhs d a n sp s).Keeps := by
  unfold execLdhs
  split
  · exact keeps_illegal h
  · exact keeps_loadInstr h

theorem keeps_execLdw {d a : Code} {n : BitVec 6} {sp : BitVec 2} {s : State} (h : s.Inv) : (execLdw d a n sp s).Keeps := by
  unfold execLdw
  split
  · exact keeps_illegal h
  · exact keeps_loadInstr h

theorem keeps_execLdd {d a : Code} {n : BitVec 6} {sp : BitVec 2} {s : State} (h : s.Inv) : (execLdd d a n sp s).Keeps := by
  unfold execLdd
  split
  · exact keeps_illegal h
  · exact keeps_loadInstr h

theorem keeps_execLdq {d a : Code} {n : BitVec 6} {sp : BitVec 2} {s : State} (h : s.Inv) : (execLdq d a n sp s).Keeps := by
  unfold execLdq
  split
  · exact keeps_illegal h
  · exact keeps_loadInstr h

theorem keeps_execStb {d a : Code} {n : BitVec 6} {sp : BitVec 2} {s : State} (h : s.Inv) : (execStb d a n sp s).Keeps := by
  unfold execStb
  split
  · exact keeps_illegal h
  · exact keeps_storeInstr h

theorem keeps_execSth {d a : Code} {n : BitVec 6} {sp : BitVec 2} {s : State} (h : s.Inv) : (execSth d a n sp s).Keeps := by
  unfold execSth
  split
  · exact keeps_illegal h
  · exact keeps_storeInstr h

theorem keeps_execStw {d a : Code} {n : BitVec 6} {sp : BitVec 2} {s : State} (h : s.Inv) : (execStw d a n sp s).Keeps := by
  unfold execStw
  split
  · exact keeps_illegal h
  · exact keeps_storeInstr h

theorem keeps_execStd {d a : Code} {n : BitVec 6} {sp : BitVec 2} {s : State} (h : s.Inv) : (execStd d a n sp s).Keeps := by
  unfold execStd
  split
  · exact keeps_illegal h
  · exact keeps_storeInstr h

theorem keeps_execStq {d a : Code} {n : BitVec 6} {sp : BitVec 2} {s : State} (h : s.Inv) : (execStq d a n sp s).Keeps := by
  unfold execStq
  split
  · exact keeps_illegal h
  · exact keeps_storeInstr h

theorem safe_acquireEffect {d : Code} {size sc : Nat} {rem_ : Bool} {code : Nat → Nat} :
    (acquireEffect d size sc rem_ code).Safe := by
  unfold acquireEffect
  dsimp only
  refine safe_mk (fun _ _ _ _ ht => inv_updGang (inv_acquireLoad ht)) (fun _ _ ht => inv_poison safe_loadEffect ht)
    (fun _ _ _ _ ht => ?_) (fun _ ht => inv_before safe_loadEffect ht) (fun _ _ ht => inv_acquireAfter ht)
  split
  · exact inv_prep safe_loadEffect ht
  · split
    · exact inv_pushPromo (inv_writeBack ht)
    · exact inv_writeBack ht

theorem keeps_execLdAcq {d a : Code} {c : BitVec 3} {r w : BitVec 1} {sp : BitVec 2} {s : State} (h : s.Inv) :
    (execLdAcq d a c r w sp s).Keeps := by
  unfold execLdAcq
  dsimp only
  split
  · exact keeps_illegal h
  · exact keeps_guardOps h (fun _ ht => keeps_memFlow safe_acquireEffect ht)

theorem keeps_execStRel {d a : Code} {c : BitVec 3} {lk w : BitVec 1} {sp : BitVec 2} {s : State} (h : s.Inv) :
    (execStRel d a c lk w sp s).Keeps := by
  unfold execStRel
  dsimp only
  split
  · exact keeps_illegal h
  · refine keeps_guardOps h (fun _ ht => ?_)
    refine keeps_reportOr ht ?_
    split
    · refine keeps_memFlow ?_ ht
      refine safe_mk (fun _ _ _ _ ht1 => inv_act safe_releaseEffect ht1)
        (fun _ _ ht1 => inv_poison safe_releaseEffect ht1) (fun _ _ _ _ ht1 => inv_prep safe_releaseEffect ht1)
        (fun _ ht1 => inv_releaseActs ht1) (fun _ _ ht1 => ?_)
      split
      · exact inv_updGang ht1
      · exact ht1
    · exact keeps_memFlow
        (safe_mk (fun _ _ _ _ ht1 => inv_act safe_releaseEffect ht1) (fun _ _ ht1 => inv_poison safe_releaseEffect ht1)
        (fun _ _ _ _ ht1 => inv_prep safe_releaseEffect ht1) (fun _ ht1 => inv_before safe_releaseEffect ht1)
        (fun _ _ ht1 => inv_after safe_releaseEffect ht1)) ht

theorem safe_atomEffect {s : State} {op : AtomOp} {d a : Code} {size sc : Nat} {lock ret : Bool} {sp : Nat} :
    (s.atomEffect op d a size sc lock ret sp).Safe := by
  unfold State.atomEffect
  dsimp only
  refine safe_mk (fun _ _ _ _ ht => ?_) (fun _ _ ht => ?_) (fun _ _ _ _ ht => inv_flushLine ht) (fun _ ht => inv_id ht)
    (fun _ _ ht => ?_)
  · split
    · refine inv_updGang ?_
      split
      · exact inv_updGang (inv_atomicAt ht)
      · exact inv_atomicAt ht
    · split
      · exact inv_updGang (inv_atomicAt ht)
      · exact inv_atomicAt ht
  · split
    · exact inv_updGang ht
    · exact ht
  · split
    · exact inv_acquireAfter ht
    · exact ht

theorem keeps_atomInstr {s : State} {op : AtomOp} {accepted : Nat → Bool} {d a : Code} {c : BitVec 3} {lock : Bool}
    {ret w : BitVec 1} {sp : BitVec 2} (h : s.Inv) : (atomInstr s op accepted d a c lock ret w sp).Keeps := by
  unfold atomInstr
  split
  · exact keeps_illegal h
  · exact keeps_guardOps h (fun _ ht => keeps_memFlow safe_atomEffect ht)

theorem keeps_execAtadd {d a : Code} {c : BitVec 3} {r w : BitVec 1} {sp : BitVec 2} {s : State} (h : s.Inv) :
    (execAtadd d a c r w sp s).Keeps := by
  unfold execAtadd
  exact keeps_atomInstr h

theorem keeps_execAtfadd {d a : Code} {c : BitVec 3} {r w : BitVec 1} {sp : BitVec 2} {s : State} (h : s.Inv) :
    (execAtfadd d a c r w sp s).Keeps := by
  unfold execAtfadd
  exact keeps_atomInstr h

theorem keeps_execAtmin {d a : Code} {c : BitVec 3} {r w : BitVec 1} {sp : BitVec 2} {s : State} (h : s.Inv) :
    (execAtmin d a c r w sp s).Keeps := by
  unfold execAtmin
  exact keeps_atomInstr h

theorem keeps_execAtmax {d a : Code} {c : BitVec 3} {r w : BitVec 1} {sp : BitVec 2} {s : State} (h : s.Inv) :
    (execAtmax d a c r w sp s).Keeps := by
  unfold execAtmax
  exact keeps_atomInstr h

theorem keeps_execAtand {d a : Code} {c : BitVec 3} {r w : BitVec 1} {sp : BitVec 2} {s : State} (h : s.Inv) :
    (execAtand d a c r w sp s).Keeps := by
  unfold execAtand
  exact keeps_atomInstr h

theorem keeps_execAtor {d a : Code} {c : BitVec 3} {r w : BitVec 1} {sp : BitVec 2} {s : State} (h : s.Inv) :
    (execAtor d a c r w sp s).Keeps := by
  unfold execAtor
  exact keeps_atomInstr h

theorem keeps_execAtxor {d a : Code} {c : BitVec 3} {r w : BitVec 1} {sp : BitVec 2} {s : State} (h : s.Inv) :
    (execAtxor d a c r w sp s).Keeps := by
  unfold execAtxor
  exact keeps_atomInstr h

theorem keeps_execAtxchg {d a : Code} {c : BitVec 3} {lk r w : BitVec 1} {sp : BitVec 2} {s : State} (h : s.Inv) :
    (execAtxchg d a c lk r w sp s).Keeps := by
  unfold execAtxchg
  exact keeps_atomInstr h

theorem keeps_execAtcas {d a : Code} {c : BitVec 3} {lk r w : BitVec 1} {sp : BitVec 2} {s : State} (h : s.Inv) :
    (execAtcas d a c lk r w sp s).Keeps := by
  unfold execAtcas
  exact keeps_atomInstr h

theorem keeps_fenceInstr {s : State} {c : BitVec 3} {rel sc : Bool} (h : s.Inv) : (fenceInstr s c rel sc).Keeps := by
  unfold fenceInstr
  dsimp only
  split
  · exact keeps_illegal h
  · split
    · exact keeps_takeReport h
    · split
      · split
        · exact keeps_stallOn h
        · split
          · exact keeps_withRelease (inv_acquireActs h) (fun _ ht => .next (inv_advance ht))
          · exact .next (inv_advance (inv_acquireActs h))
      · split
        · exact keeps_stallOn h
        · split
          · exact keeps_withRelease (inv_acquireActs h) (fun _ ht => .next (inv_advance ht))
          · exact .next (inv_advance (inv_acquireActs h))

theorem inv_holdLate {s : State} {kind : LateKind} {after : List Nat} {paths : Nat} (h : s.Inv) :
    (s.holdLate kind after paths).Inv := by
  unfold State.holdLate
  exact inv_updGang (inv_takeId h)

theorem keeps_execFenceAcq {c : BitVec 3} {s : State} (h : s.Inv) : (execFenceAcq c s).Keeps := by
  unfold execFenceAcq
  exact keeps_fenceInstr h

theorem keeps_execFenceRel {c : BitVec 3} {s : State} (h : s.Inv) : (execFenceRel c s).Keeps := by
  unfold execFenceRel
  split
  · exact keeps_illegal h
  · refine keeps_reportOr h (.next (inv_advance ?_))
    split
    · exact inv_releaseActs h
    · exact inv_holdLate h

theorem keeps_execFenceAcqrel {c : BitVec 3} {s : State} (h : s.Inv) : (execFenceAcqrel c s).Keeps := by
  unfold execFenceAcqrel
  exact keeps_fenceInstr h

theorem keeps_execFenceSc {c : BitVec 3} {s : State} (h : s.Inv) : (execFenceSc c s).Keeps := by
  unfold execFenceSc
  exact keeps_fenceInstr h

theorem keeps_execFencePath {a b : BitVec 6} {s : State} (h : s.Inv) : (execFencePath a b s).Keeps := by
  unfold execFencePath
  dsimp only
  split
  · exact keeps_illegal h
  · refine .next (inv_advance ?_)
    split
    · split
      · exact inv_drainQueues h
      · exact h
    · exact inv_holdLate h

theorem keeps_execPglob {d a : Code} {s : State} (h : s.Inv) : (execPglob d a s).Keeps := by
  unfold execPglob
  refine keeps_guardOps h (fun _ ht => ?_)
  dsimp only
  split
  · exact keeps_trapNow ht
  · exact keeps_finishWith ht

theorem inv_prefetchFar {s : State} {code pa : Nat} {page : Page} (h : s.Inv) : (s.prefetchFar code pa page).Inv := by
  unfold State.prefetchFar
  dsimp only
  split
  · exact inv_l1Hit h
  · exact inv_send h

theorem keeps_execPref {lv : BitVec 1} {a : Code} {n : BitVec 6} {sp : BitVec 1} {s : State} (h : s.Inv) :
    (execPref lv a n sp s).Keeps := by
  unfold execPref
  dsimp only
  split
  · exact keeps_illegal h
  · refine keeps_guardOps h (fun _ ht => ?_)
    refine keeps_heldOr ht (.next (inv_advance (inv_foldl (fun _ _ ht1 => ?_) (inv_countMem ht))))
    split
    · split
      · split
        · split
          · exact inv_l1Fill ht1
          · exact ht1
        · split
          · exact inv_prefetchFar ht1
          · exact ht1
        · exact ht1
      · exact ht1
    · exact ht1

theorem inv_claimFlush {s : State} {id core line : Nat} (h : s.Inv) : (s.claimFlush id core line).Inv := by
  unfold State.claimFlush
  split
  · exact h.of_mem rfl
  · exact h

theorem keeps_execCmaint {o : BitVec 2} {a : Code} {n : BitVec 6} {sp : BitVec 1} {s : State} (h : s.Inv) :
    (execCmaint o a n sp s).Keeps := by
  unfold execCmaint
  dsimp only
  split
  · exact keeps_illegal h
  · refine keeps_guardOps h (fun _ ht => ?_)
    refine keeps_memFlow ?_ ht
    refine safe_mk (fun _ _ _ _ ht1 => ?_) (fun _ _ ht1 => ht1) (fun _ _ _ _ ht1 => ht1) (fun _ ht1 => inv_id ht1)
      (fun _ _ ht1 => ht1)
    split
    · split
      · exact inv_flushLine ht1
      · exact inv_writeBack ht1
    · refine inv_claimFlush ?_
      split
      · exact inv_flushLine ht1
      · exact inv_writeBack ht1
    · exact ht1

theorem keeps_execTick {s : State} (h : s.Inv) : (execTick s).Keeps := by
  unfold execTick
  exact .next (inv_advance (inv_updWg h))

theorem inv_loseWatcher {s : State} {w : Watcher} (h : s.Inv) : (loseWatcher s w).Inv := by
  unfold loseWatcher
  dsimp only
  split
  · exact inv_updGangAt h
  · exact inv_send h

theorem inv_enterWatch {s : State} {line : Nat} {w : Watcher} (h : s.Inv) : (s.enterWatch line w).Inv := by
  unfold State.enterWatch
  dsimp only
  refine inv_update ?_
  split
  · split
    · exact inv_loseWatcher (h.of_mem rfl)
    · exact h
  · exact h

theorem inv_armWatch {s : State} {line vline : Nat} (h : s.Inv) : (s.armWatch line vline).Inv := by
  unfold State.armWatch
  exact inv_updGang (inv_enterWatch (inv_dropWatches h))

theorem keeps_execMwatch {d a : Code} {n : BitVec 6} {sp : BitVec 1} {s : State} (h : s.Inv) :
    (execMwatch d a n sp s).Keeps := by
  unfold execMwatch
  dsimp only
  split
  · exact keeps_illegal h
  · refine keeps_guardOps h (fun _ ht => ?_)
    refine keeps_heldOr ht ?_
    split
    · split
      · exact keeps_stallOn ht
      · exact .next (inv_advance (inv_updGang (inv_updGang (inv_dropWatches (inv_takeId ht)))))
    · split
      · exact keeps_trapNow ht
      · split
        · exact keeps_stallOn ht
        · split
          · exact keeps_stallOn ht
          · split
            · exact .next (inv_park (inv_update (inv_translateLanes ht)))
            · exact .next
                (inv_advance (inv_updGang (inv_updGang (inv_armWatch (inv_flushLine (inv_update (inv_translateLanes ht)))))))
            · exact .next
                (inv_advance
                (inv_sendLane
                (inv_updGang (inv_updGang (inv_flushLine (inv_dropWatches (inv_update (inv_translateLanes ht))))))))
            · exact .next (inv_advance (inv_afterLanes (inv_updGang (inv_updGang (inv_update (inv_translateLanes ht))))))
      · exact .next (inv_advance ht)

theorem keeps_execMwait {d a : Code} {s : State} (h : s.Inv) : (execMwait d a s).Keeps := by
  unfold execMwait
  refine keeps_guardOps h (fun _ ht => ?_)
  dsimp only
  split
  · exact keeps_finishWith (inv_dropWatches ht)
  · exact keeps_stallOn ht

end Sys2Proof.Machine
end

section
/-! O7, Barrier: the canonical form of local memory is kept by barriers and named groups. -/

namespace Sys2Proof.Machine

theorem inv_updBar {s : State} {a : Code} {f : Bar → Bar} (h : s.Inv) : (s.updBar a f).Inv := by
  unfold State.updBar
  exact inv_updWg h

theorem keeps_misuse {sub what : Nat} {s : State} (h : s.Inv) : (misuse sub what s).Keeps := by
  unfold misuse
  exact keeps_trapNow h

theorem keeps_execBinit {a b : Code} {s : State} (h : s.Inv) : (execBinit a b s).Keeps := by
  unfold execBinit
  refine keeps_guardOps h (fun _ ht => ?_)
  dsimp only
  split
  · exact keeps_misuse ht
  · split
    · exact keeps_misuse ht
    · exact .next (inv_advance (inv_updBar ht))

theorem gives_arrivePaths {s : State} {p : BitVec 6} (h : s.Inv) : Gives Res.Keeps State.Inv (s.arrivePaths p) := by
  unfold State.arrivePaths
  dsimp only
  split
  · exact .error (keeps_stallOn h)
  · split
    · exact .error (keeps_stallOn h)
    · refine .ok ?_
      split
      · exact inv_drainQueues h
      · exact h

theorem gives_arrive {s : State} {p : BitVec 6} {a : Code} (h : s.Inv) : Gives Res.Keeps State.Inv (s.arrive p a) := by
  unfold State.arrive
  split
  · exact .error (keeps_trapNow h)
  · split
    · exact .error (keeps_misuse h)
    · split
      · next he =>
          exact .error ((gives_arrivePaths h).of_error he)
      · next he =>
          split
          · exact .error (keeps_stallOn ((gives_arrivePaths h).of_ok he))
          · exact .ok (inv_updBar ((gives_arrivePaths h).of_ok he))

theorem keeps_execBarv {p : BitVec 6} {a : Code} {s : State} (h : s.Inv) : (execBarv p a s).Keeps := by
  unfold execBarv
  refine keeps_guardOps h (fun _ ht => ?_)
  split
  · next he =>
      exact (gives_arrive ht).of_error he
  · next he =>
      exact .next (inv_advance ((gives_arrive ht).of_ok he))

theorem keeps_waitOwn {s : State} {a : Code} (h : s.Inv) : (s.waitOwn a).Keeps := by
  unfold State.waitOwn
  split
  · exact keeps_stallOn h
  · exact .next (inv_advance h)

theorem keeps_execBwait {a : Code} {s : State} (h : s.Inv) : (execBwait a s).Keeps := by
  unfold execBwait
  refine keeps_guardOps h (fun _ ht => ?_)
  split
  · exact keeps_misuse ht
  · exact keeps_waitOwn ht

theorem keeps_execBwaitGen {a b : Code} {s : State} (h : s.Inv) : (execBwaitGen a b s).Keeps := by
  unfold execBwaitGen
  refine keeps_guardOps h (fun _ ht => ?_)
  dsimp only
  split
  · exact keeps_misuse ht
  · split
    · exact keeps_misuse ht
    · split
      · exact keeps_stallOn ht
      · exact .next (inv_advance ht)

theorem keeps_execBarw {p : BitVec 6} {a : Code} {s : State} (h : s.Inv) : (execBarw p a s).Keeps := by
  unfold execBarw
  refine keeps_guardOps h (fun _ ht => ?_)
  dsimp only
  split
  · split
    · exact keeps_stallOn ht
    · exact .next (inv_advance (inv_updBar ht))
  · split
    · next he =>
        exact (gives_arrive ht).of_error he
    · next he =>
        split
        · exact keeps_stallOn (inv_updBar ((gives_arrive ht).of_ok he))
        · exact .next (inv_advance ((gives_arrive ht).of_ok he))

theorem inv_dropMarks {s : State} (h : s.Inv) : s.dropMarks.Inv := by
  unfold State.dropMarks
  dsimp only
  split
  · exact inv_updWg h
  · exact h

theorem keeps_baddInstr {a b : Code} {toE : Bool} {s : State} (h : s.Inv) : (baddInstr a b toE s).Keeps := by
  unfold baddInstr
  refine keeps_guardOps h (fun _ ht => ?_)
  dsimp only
  split
  · exact keeps_misuse ht
  · split
    · split
      · exact keeps_misuse ht
      · split
        · exact keeps_misuse ht
        · exact .next (inv_advance (inv_updBar ht))
    · split
      · exact keeps_misuse ht
      · split
        · exact keeps_misuse ht
        · exact .next (inv_advance (inv_updBar ht))

theorem keeps_execBaddx {a b : Code} {s : State} (h : s.Inv) : (execBaddx a b s).Keeps := by
  unfold execBaddx
  exact keeps_baddInstr h

theorem keeps_execBaddxE {a b : Code} {s : State} (h : s.Inv) : (execBaddxE a b s).Keeps := by
  unfold execBaddxE
  exact keeps_baddInstr h

theorem keeps_btestInstr {a b : Code} {i : Nat} {s : State} (h : s.Inv) : (btestInstr a b i s).Keeps := by
  unfold btestInstr
  exact keeps_guardOps h (fun _ ht => keeps_finishWith ht)

theorem keeps_execBtest {a b : Code} {s : State} (h : s.Inv) : (execBtest a b s).Keeps := by
  unfold execBtest
  exact keeps_btestInstr h

theorem keeps_execBtestWord1 {a b : Code} {s : State} (h : s.Inv) : (execBtestWord1 a b s).Keeps := by
  unfold execBtestWord1
  exact keeps_btestInstr h

theorem inv_trapDeadlock {s : State} {wid : Nat} (h : s.Inv) : (s.trapDeadlock wid).Inv := by
  unfold State.trapDeadlock
  refine inv_foldl (fun _ _ ht => ?_) h
  dsimp only
  split
  · exact ht
  · exact inv_trapWaiting (inv_updGangAt (inv_update ht))

theorem inv_updGroup {s : State} {k : Nat} {f : NamedGroup → NamedGroup} (h : s.Inv) : (s.updGroup k f).Inv :=
  h.of_mem rfl

theorem keeps_withGroup {s : State} {a : Code} {body : Nat → Nat → Nat → State → Res} (h : s.Inv)
    (hb : ∀ gid e k t, t.Inv → (body gid e k t).Keeps) : (withGroup s a body).Keeps := by
  unfold withGroup
  dsimp only
  split
  · exact keeps_misuse h
  · exact hb _ _ _ _ h

theorem keeps_execNgjoin {a : Code} {s : State} (h : s.Inv) : (execNgjoin a s).Keeps := by
  unfold execNgjoin
  refine keeps_guardOps h (fun _ ht => ?_)
  refine keeps_withGroup ht (fun _ _ _ _ ht1 => ?_)
  dsimp only
  split
  · exact keeps_misuse ht1
  · split
    · split
      · exact keeps_misuse ht1
      · split
        · split
          · exact keeps_misuse ht1
          · exact .next (inv_advance (inv_updGroup ht1))
        · split
          · exact keeps_misuse ht1
          · exact .next (inv_advance (inv_updGroup ht1))
    · split
      · exact keeps_misuse ht1
      · split
        · split
          · exact keeps_misuse ht1
          · exact .next (inv_advance (inv_updGroup ht1))
        · split
          · exact keeps_misuse ht1
          · exact .next (inv_advance (inv_updGroup ht1))

theorem keeps_execNgjoinLeave {a : Code} {s : State} (h : s.Inv) : (execNgjoinLeave a s).Keeps := by
  unfold execNgjoinLeave
  refine keeps_guardOps h (fun _ ht => ?_)
  refine keeps_withGroup ht (fun _ _ _ _ ht1 => ?_)
  dsimp only
  refine .next (inv_advance ?_)
  split
  · split
    · exact inv_updGroup ht1
    · exact ht1
  · exact ht1

theorem gives_ngArrive {s : State} {ps : BitVec 6} {gid e k : Nat} (h : s.Inv) :
    Gives Res.Keeps State.Inv (s.ngArrive ps gid e k) := by
  unfold State.ngArrive
  dsimp only
  split
  · exact .error (keeps_trapNow h)
  · split
    · exact .error (keeps_misuse h)
    · split
      · exact .error (keeps_misuse h)
      · split
        · exact .error (keeps_takeReport h)
        · split
          · next he2 =>
              exact .error ((gives_arrivePaths h).of_error he2)
          · next he2 =>
              split
              · exact .error (keeps_stallOn ((gives_arrivePaths h).of_ok he2))
              · split
                · exact .error (keeps_stallOn ((gives_arrivePaths h).of_ok he2))
                · split
                  · next he3 =>
                      exact .error ((gives_release ((gives_arrivePaths h).of_ok he2)).of_error he3)
                  · next he3 =>
                      exact .ok (inv_updGroup ((gives_release ((gives_arrivePaths h).of_ok he2)).of_ok he3))

theorem keeps_execNgarv {p : BitVec 6} {a : Code} {s : State} (h : s.Inv) : (execNgarv p a s).Keeps := by
  unfold execNgarv
  refine keeps_guardOps h (fun _ ht => ?_)
  split
  · exact keeps_trapNow ht
  · refine keeps_withGroup ht (fun _ _ _ _ ht1 => ?_)
    split
    · next he =>
        exact (gives_ngArrive ht1).of_error he
    · next he =>
        exact .next (inv_advance ((gives_ngArrive ht1).of_ok he))

theorem keeps_ngWaiting {s : State} {a : Code} {body : NgPlace → Nat → Nat → Nat → State → Res} (h : s.Inv)
    (hb : ∀ p gid e k t, t.Inv → (body p gid e k t).Keeps) : (ngWaiting s a body).Keeps := by
  unfold ngWaiting
  refine keeps_withGroup h (fun _ _ _ _ ht => ?_)
  split
  · exact keeps_misuse ht
  · split
    · exact hb _ _ _ _ _ ht
    · exact keeps_misuse ht

theorem keeps_execNgwait {a : Code} {s : State} (h : s.Inv) : (execNgwait a s).Keeps := by
  unfold execNgwait
  refine keeps_guardOps h (fun _ ht => ?_)
  refine keeps_ngWaiting ht (fun _ _ _ _ _ ht1 => ?_)
  split
  · exact keeps_stallOn ht1
  · exact .next (inv_advance (inv_acquireActs ht1))

theorem keeps_execNgwaitGen {a b : Code} {s : State} (h : s.Inv) : (execNgwaitGen a b s).Keeps := by
  unfold execNgwaitGen
  refine keeps_guardOps h (fun _ ht => ?_)
  refine keeps_ngWaiting ht (fun _ _ _ _ _ ht1 => ?_)
  dsimp only
  split
  · exact keeps_misuse ht1
  · split
    · exact keeps_stallOn ht1
    · exact .next (inv_advance (inv_acquireActs ht1))

theorem keeps_execNgwaitRead {a b : Code} {s : State} (h : s.Inv) : (execNgwaitRead a b s).Keeps := by
  unfold execNgwaitRead
  exact keeps_guardOps h (fun _ ht => keeps_withGroup ht (fun _ _ _ _ ht1 => keeps_finishWith ht1))

theorem inv_setMask {s : State} {k node m : Nat} (h : s.Inv) : (s.setMask k node m).Inv := by
  unfold State.setMask
  exact inv_updGroup h

theorem keeps_execBsetm {a b : Code} {s : State} (h : s.Inv) : (execBsetm a b s).Keeps := by
  unfold execBsetm
  refine keeps_guardOps h (fun _ ht => ?_)
  refine keeps_withGroup ht (fun _ _ _ _ ht1 => ?_)
  dsimp only
  split
  · exact keeps_misuse ht1
  · split
    · split
      · exact keeps_misuse ht1
      · split
        · split
          · exact keeps_misuse ht1
          · exact .next (inv_advance (inv_updGroup (inv_setMask ht1)))
        · split
          · exact keeps_misuse ht1
          · exact .next (inv_advance (inv_updGroup (inv_setMask ht1)))
    · split
      · exact keeps_misuse ht1
      · split
        · split
          · exact keeps_misuse ht1
          · exact .next (inv_advance (inv_updGroup (inv_setMask ht1)))
        · split
          · exact keeps_misuse ht1
          · exact .next (inv_advance (inv_updGroup (inv_setMask ht1)))

theorem keeps_execBsetmDevice {a b : Code} {s : State} (h : s.Inv) : (execBsetmDevice a b s).Keeps := by
  unfold execBsetmDevice
  refine keeps_guardOps h (fun _ ht => ?_)
  refine keeps_withGroup ht (fun _ _ _ _ ht1 => ?_)
  dsimp only
  split
  · exact keeps_misuse ht1
  · split
    · exact keeps_misuse ht1
    · exact .next (inv_advance (inv_setMask ht1))

theorem keeps_execBsetmRoot {a b : Code} {s : State} (h : s.Inv) : (execBsetmRoot a b s).Keeps := by
  unfold execBsetmRoot
  refine keeps_guardOps h (fun _ ht => ?_)
  refine keeps_withGroup ht (fun _ _ _ _ ht1 => ?_)
  dsimp only
  split
  · exact keeps_misuse ht1
  · split
    · exact .next (inv_advance (inv_setMask ht1))
    · exact .next (inv_advance (inv_send ht1))

theorem inv_wakeWaiter {s : State} {part gid key : Nat} (h : s.Inv) : (s.wakeWaiter part gid key).Inv := by
  unfold State.wakeWaiter
  dsimp only
  split
  · exact inv_updGangAt (inv_acquireActs h)
  · exact h

theorem inv_endGeneration {s : State} {part gid : Nat} (h : s.Inv) : (s.endGeneration part gid).Inv := by
  unfold State.endGeneration
  exact inv_foldl (fun _ _ ht => inv_wakeWaiter ht) (inv_updGroup h)

theorem inv_holdPlaces {s : State} {wid : Nat} (h : s.Inv) : (s.holdPlaces wid).Inv := by
  unfold State.holdPlaces
  dsimp only
  refine inv_foldl (fun _ _ ht => ?_) h
  split
  · split
    · exact inv_updGroup ht
    · exact ht
  · exact ht

theorem inv_settleGroups {s : State} {w : Workgroup} {key : Nat} (h : s.Inv) : (s.settleGroups w key).Inv := by
  unfold State.settleGroups
  refine inv_foldl (fun _ _ ht => ?_) h
  dsimp only
  split
  · exact ht
  · split
    · exact ht
    · split
      · exact ht
      · exact inv_updGroup ht

theorem inv_groupRetire {s : State} {wid : Nat} (h : s.Inv) : (s.groupRetire wid).Inv := by
  unfold State.groupRetire
  exact inv_settleGroups h

end Sys2Proof.Machine
end

section
/-! O7, Cells: the canonical form of local memory is kept by trigger cells, and runs of bytes of the device. -/

namespace Sys2Proof.Machine

theorem inv_farBytes {s : State} {n : Nat} (h : s.Inv) : (s.farBytes n).1.Inv :=
  h.of_mem rfl

theorem inv_refuseDirect {s : State} {part cls pasid kind : Nat} {x : Reach} (h : s.Inv) :
    (s.refuseDirect part cls pasid kind x).Inv := by
  unfold State.refuseDirect
  split
  · exact inv_alarm h
  · exact h.of_mem rfl
  · exact h

theorem inv_readPieces {part cls pasid : Nat} {l : List (Nat × Nat × Nat)} {s : State} (h : s.Inv) :
    (State.readPieces part cls pasid l s).1.Inv := by
  induction l generalizing s with
  | nil =>
    unfold State.readPieces
    exact h
  | cons _ _ ih =>
    unfold State.readPieces
    dsimp only
    split
    · exact h
    · split
      · exact h
      · next he =>
          split
          · exact ih ((gives_translateIo h).of_ok he)
          · exact ih (inv_farBytes ((gives_translateIo h).of_ok he))
          · exact inv_refuseDirect ((gives_translateIo h).of_ok he)

theorem inv_readRun {s : State} {part cls pasid va n : Nat} (h : s.Inv) : (s.readRun part cls pasid va n).1.Inv := by
  unfold State.readRun
  exact inv_readPieces h

theorem inv_dirRead {s : State} {part cls pasid va n : Nat} (h : s.Inv) : (s.dirRead part cls pasid va n).1.Inv := by
  unfold State.dirRead
  dsimp only
  exact inv_readRun h

theorem inv_writePlaces {part cls pasid : Nat} {l : List (Nat × Nat × Nat)} {s : State} (h : s.Inv) :
    (State.writePlaces part cls pasid l s).1.Inv := by
  induction l generalizing s with
  | nil =>
    unfold State.writePlaces
    exact h
  | cons _ _ ih =>
    unfold State.writePlaces
    dsimp only
    split
    · exact h
    · split
      · exact h
      · next he =>
          split
          · exact ih ((gives_translateIo h).of_ok he)
          · exact ih ((gives_translateIo h).of_ok he)
          · exact inv_refuseDirect ((gives_translateIo h).of_ok he)

theorem inv_writeRun {s : State} {op part cls pasid va : Nat} {bs : List Byte} (h : s.Inv) :
    (s.writeRun op part cls pasid va bs).1.Inv := by
  unfold State.writeRun
  dsimp only
  split
  · next he =>
      exact inv_fst he (inv_writePlaces h)
  · next he =>
      dsimp only
      refine inv_foldl (fun _ _ ht => ?_) (inv_fst he (inv_writePlaces h))
      split
      · exact inv_writeHomeList ht
      · exact inv_send ht
      · exact ht

theorem inv_dirWrite {s : State} {part cls pasid va : Nat} {bs : List Byte} (h : s.Inv) :
    (s.dirWrite part cls pasid va bs).1.Inv := by
  unfold State.dirWrite
  dsimp only
  exact inv_writeRun h

theorem inv_notice {s : State} {part reason what pend counter : Nat} (h : s.Inv) :
    (s.notice part reason what pend counter).Inv := by
  unfold State.notice
  dsimp only
  split
  · exact inv_updPart h
  · exact inv_updPart (inv_writeHomeNum (inv_updPart h))

theorem inv_cellOvf {s : State} {k reason : Nat} (h : s.Inv) : (s.cellOvf k reason).Inv := by
  unfold State.cellOvf
  dsimp only
  split
  · exact inv_notice (inv_setCell h)
  · exact inv_setCell h

theorem inv_copyFire {s : State} {k : Nat} (h : s.Inv) : (s.copyFire k).1.Inv := by
  unfold State.copyFire
  dsimp only
  split
  · exact inv_cellOvf h
  · split
    · exact inv_cellOvf (inv_dirRead h)
    · split
      · exact inv_cellOvf (inv_dirRead (inv_dirRead h))
      · split
        · exact h
        · exact inv_updQueue (inv_dirRead (inv_dirRead h))

theorem inv_fireOnce {s : State} {k : Nat} (h : s.Inv) : (s.fireOnce k).Inv := by
  unfold State.fireOnce
  dsimp only
  refine inv_setCell ?_
  split
  · exact inv_cellOvf h
  · split
    · split
      · exact inv_cellOvf h
      · exact inv_setCell h
    · split
      · exact inv_copyFire h
      · split
        · exact inv_cellOvf (inv_copyFire h)
        · exact inv_setCell (inv_copyFire h)

theorem inv_fireLoop {k n : Nat} {s : State} (h : s.Inv) : (State.fireLoop k n s).Inv := by
  induction n generalizing s with
  | zero =>
    unfold State.fireLoop
    exact h
  | succ _ ih =>
    unfold State.fireLoop
    dsimp only
    split
    · exact ih (inv_fireOnce h)
    · exact h

theorem inv_raiseCell {s : State} {k n : Nat} (h : s.Inv) : (s.raiseCell k n).Inv := by
  unfold State.raiseCell
  dsimp only
  refine inv_fireLoop ?_
  split
  · exact inv_cellOvf (inv_setCell h)
  · exact inv_setCell h

theorem keeps_execPendingFireCopy {cell : Nat} {s : State} (h : s.Inv) : (execPendingFireCopy cell s).Keeps := by
  unfold execPendingFireCopy
  dsimp only
  split
  · exact .next h
  · refine .next ?_
    split
    · exact inv_setCell (inv_copyFire h)
    · exact h

theorem inv_armCell {s : State} {k : Nat} {b : List Byte} {pasid part : Nat} (h : s.Inv) :
    (s.armCell k b pasid part).Inv := by
  unfold State.armCell
  exact inv_fireLoop (inv_setCell h)

end Sys2Proof.Machine
end

section
/-! O7, Gleaner: the canonical form of local memory is kept by the Gleaner. -/

namespace Sys2Proof.Machine

theorem inv_farOutcome {s : State} (h : s.Inv) : s.farOutcome.1.Inv := by
  unfold State.farOutcome
  dsimp only
  exact h.of_mem rfl

theorem gives_engTranslate {s : State} {g : Agent} {va : Nat} {a : Acc} (h : s.Inv) :
    Gives (fun _ => True) (fun r => r.1.Inv) (s.engTranslate g va a) := by
  have hc := gives_translateCluster (missed := false) (cl := clusterOfCore g.core) (pasid := g.pasid) (va := va) (a := a) h
  unfold State.engTranslate
  split
  · cases he : s.translateCluster false (clusterOfCore g.core) g.pasid va a with
    | error c => exact .error trivial
    | ok r => exact .ok (hc.of_ok he)
  · exact gives_xlate h

theorem inv_engRead {s : State} {g : Agent} {n : Nat} {x : Loc} (h : s.Inv) : (s.engRead g n x).1.Inv := by
  unfold State.engRead
  dsimp only
  split
  · exact h
  · split
    · exact h
    · next he =>
        split
        · exact (gives_engTranslate h).of_ok he
        · split
          · exact inv_farBytes (inv_farOutcome ((gives_engTranslate h).of_ok he))
          · exact inv_farOutcome ((gives_engTranslate h).of_ok he)
        · exact (gives_engTranslate h).of_ok he
        · exact inv_update ((gives_engTranslate h).of_ok he)

theorem inv_updCmd {s : State} {core id : Nat} {f : Gcmd → Gcmd} (h : s.Inv) : (s.updCmd core id f).Inv := by
  unfold State.updCmd
  exact inv_updCore h

theorem inv_engWrite {s : State} {g : Agent} {bs : List Byte} {x : Loc} (h : s.Inv) : (s.engWrite g bs x).1.Inv := by
  unfold State.engWrite
  dsimp only
  split
  · exact inv_tileBankWrite h
  · split
    · exact h
    · next he =>
        split
        · dsimp only
          split
          · exact inv_updCmd ((gives_engTranslate h).of_ok he)
          · exact inv_writeWide ((gives_engTranslate h).of_ok he)
        · exact inv_send (inv_flushLine ((gives_engTranslate h).of_ok he))
        · exact (gives_engTranslate h).of_ok he
        · exact (gives_engTranslate h).of_ok he

theorem inv_moveUnit {s : State} {g : Agent} {src dst : Loc} {n : Nat} (h : s.Inv) : (s.moveUnit g src dst n).1.Inv := by
  unfold State.moveUnit
  dsimp only
  split
  · exact h.of_mem rfl
  · next he =>
      split
      · exact h.of_mem rfl
      · next he1 =>
          exact inv_fst he1 (inv_engWrite (inv_fst he (inv_engRead h)))

theorem inv_moveRun {g : Agent} {src dst : Loc} {n n1 n2 : Nat} {s : State} (h : s.Inv) :
    (State.moveRun g src dst n n1 n2 s).1.Inv := by
  induction n1 generalizing n2 s with
  | zero =>
    unfold State.moveRun
    exact h
  | succ _ ih =>
    unfold State.moveRun
    dsimp only
    split
    · exact h
    · split
      · next he =>
          exact inv_fst he (inv_moveUnit h)
      · next he =>
          split
          · exact h.of_mem rfl
          · exact ih (inv_fst he (inv_moveUnit h))

theorem inv_moveAll {s : State} {g : Agent} {src dst : Loc} {n : Nat} (h : s.Inv) : (s.moveAll g src dst n).1.Inv := by
  unfold State.moveAll
  exact inv_moveRun h

theorem inv_endCmd {s : State} {core : Nat} {c : Gcmd} {state cause : Nat} (h : s.Inv) :
    (s.endCmd core c state cause).Inv := by
  unfold State.endCmd
  exact inv_updCore h

theorem inv_lowerIssuers {s : State} {c : Gcmd} (h : s.Inv) : (s.lowerIssuers c).Inv := by
  unfold State.lowerIssuers
  exact inv_foldl (fun _ _ ht => inv_updGangAt ht) h

theorem inv_creditCmd {s : State} {c : Gcmd} {f : Bar → Bar} (h : s.Inv) : (s.creditCmd c f).Inv := by
  unfold State.creditCmd
  split
  · exact inv_updWgAt h
  · exact h

theorem inv_enqueue {s : State} {core : Nat} {c : Gcmd} (h : s.Inv) : (s.enqueue core c).Inv := by
  unfold State.enqueue
  exact inv_updCore h

theorem keeps_gleanerInstr {kind : Nat} {a b : Code} {s : State} (h : s.Inv) : (gleanerInstr kind a b s).Keeps := by
  unfold gleanerInstr
  refine keeps_guardOps h (fun _ ht => ?_)
  dsimp only
  refine keeps_engineOr ht ?_
  split
  · exact keeps_trapNow ht
  · split
    · exact keeps_trapNow ht
    · split
      · split
        · exact keeps_stallOn ht
        · split
          · exact keeps_stallOn ht
          · split
            · split
              · split
                · exact keeps_stallOn ht
                · refine .next (inv_updGang ?_)
                  split
                  · exact inv_updWg (inv_enqueue (inv_takeId ht))
                  · exact inv_enqueue (inv_takeId ht)
              · split
                · exact keeps_stallOn ht
                · refine .next (inv_updGang ?_)
                  split
                  · exact inv_updWg (inv_enqueue (inv_takeId ht))
                  · exact inv_enqueue (inv_takeId ht)
            · split
              · split
                · exact keeps_stallOn ht
                · refine .next (inv_updGang ?_)
                  split
                  · exact inv_updWg (inv_enqueue (inv_takeId ht))
                  · exact inv_enqueue (inv_takeId ht)
              · split
                · exact keeps_stallOn ht
                · refine .next (inv_updGang ?_)
                  split
                  · exact inv_updWg (inv_enqueue (inv_takeId ht))
                  · exact inv_enqueue (inv_takeId ht)
      · split
        · exact keeps_stallOn ht
        · split
          · exact keeps_stallOn ht
          · split
            · split
              · split
                · exact keeps_stallOn ht
                · refine .next (inv_updGang ?_)
                  split
                  · exact inv_updWg (inv_enqueue (inv_takeId ht))
                  · exact inv_enqueue (inv_takeId ht)
              · split
                · exact keeps_stallOn ht
                · refine .next (inv_updGang ?_)
                  split
                  · exact inv_updWg (inv_enqueue (inv_takeId ht))
                  · exact inv_enqueue (inv_takeId ht)
            · split
              · split
                · exact keeps_stallOn ht
                · refine .next (inv_updGang ?_)
                  split
                  · exact inv_updWg (inv_enqueue (inv_takeId ht))
                  · exact inv_enqueue (inv_takeId ht)
              · split
                · exact keeps_stallOn ht
                · refine .next (inv_updGang ?_)
                  split
                  · exact inv_updWg (inv_enqueue (inv_takeId ht))
                  · exact inv_enqueue (inv_takeId ht)

theorem keeps_execCpy {a b : Code} {s : State} (h : s.Inv) : (execCpy a b s).Keeps := by
  unfold execCpy
  exact keeps_gleanerInstr h

theorem keeps_execGath {a b : Code} {s : State} (h : s.Inv) : (execGath a b s).Keeps := by
  unfold execGath
  exact keeps_gleanerInstr h

theorem keeps_execScat {a b : Code} {s : State} (h : s.Inv) : (execScat a b s).Keeps := by
  unfold execScat
  exact keeps_gleanerInstr h

theorem keeps_execMcast {a b : Code} {s : State} (h : s.Inv) : (execMcast a b s).Keeps := by
  unfold execMcast
  exact keeps_gleanerInstr h

theorem keeps_execSclp {a b : Code} {s : State} (h : s.Inv) : (execSclp a b s).Keeps := by
  unfold execSclp
  exact keeps_gleanerInstr h

theorem inv_tryCollective {s : State} {wid : Nat} (h : s.Inv) : (s.tryCollective wid).Inv := by
  unfold State.tryCollective
  dsimp only
  split
  · exact h
  · split
    · exact inv_foldl (fun _ _ ht => inv_takeTrap (inv_updGangAt (inv_update ht))) (inv_updWgAt h)
    · split
      · exact h
      · exact inv_foldl (fun _ _ ht => inv_updGangAt ht) (inv_updWgAt (inv_enqueue (inv_takeId h)))

theorem keeps_execCpyc {x c : BitVec 1} {gb : BitVec 4} {a b : Code} {s : State} (h : s.Inv) :
    (execCpyc x c gb a b s).Keeps := by
  unfold execCpyc
  dsimp only
  split
  · exact keeps_illegal h
  · refine keeps_guardOps h (fun _ ht => ?_)
    split
    · exact keeps_trapNow ht
    · refine keeps_engineOr ht ?_
      split
      · exact keeps_stallOn ht
      · exact .next (inv_tryCollective (inv_updWg (inv_stall ht)))

theorem keeps_execGqry {a b : Code} {s : State} (h : s.Inv) : (execGqry a b s).Keeps := by
  unfold execGqry
  refine keeps_guardOps h (fun _ ht => ?_)
  dsimp only
  split
  · exact keeps_trapNow ht
  · exact keeps_finishWith ht

theorem inv_payOwed {s : State} {c : Gcmd} (h : s.Inv) : (s.payOwed c).Inv := by
  unfold State.payOwed
  split
  · exact inv_creditCmd h
  · split
    · exact inv_creditCmd h
    · exact inv_creditCmd h

theorem inv_cancelCmd {s : State} {core : Nat} {c : Gcmd} (h : s.Inv) : (s.cancelCmd core c).Inv := by
  unfold State.cancelCmd
  exact inv_lowerIssuers (inv_endCmd (inv_payOwed h))

theorem keeps_execGcncl {a b : Code} {s : State} (h : s.Inv) : (execGcncl a b s).Keeps := by
  unfold execGcncl
  refine keeps_guardOps h (fun _ ht => ?_)
  dsimp only
  split
  · split
    · exact keeps_stallOn (inv_updCmd ht)
    · exact keeps_finishWith (inv_cancelCmd ht)
  · exact keeps_finishWith ht

theorem keeps_execGleanerCommandStart {core : Nat} {s : State} (h : s.Inv) : (execGleanerCommandStart core s).Keeps := by
  unfold execGleanerCommandStart
  refine .next ?_
  split
  · exact inv_updCmd h
  · exact h

theorem inv_cmdAlarm {s : State} {core : Nat} {c : Gcmd} {r : Option (Option Nat × Nat × Acc)} (h : s.Inv) :
    (s.cmdAlarm core c r).Inv := by
  unfold State.cmdAlarm
  dsimp only
  split
  · exact h
  · split
    · exact h
    · exact inv_updCmd (inv_alarm h)

theorem inv_parkCmd {s : State} {core : Nat} {c : Gcmd} {at_ progress cause : Nat} {acc : Acc} {va : Nat} (h : s.Inv) :
    (s.parkCmd core c at_ progress cause acc va).Inv := by
  unfold State.parkCmd
  exact inv_tfqWrite (inv_updCmd h)

theorem inv_failPart {s : State} {core : Nat} {c : Gcmd} {part size : Nat} {t : TrapReq} (h : s.Inv) :
    (s.failPart core c part size t).Inv := by
  unfold State.failPart
  dsimp only
  split
  · exact inv_creditCmd (inv_updCmd h)
  · split
    · exact inv_creditCmd (inv_updCmd h)
    · exact inv_updCmd h

theorem keeps_execCopyUnit {core ticket : Nat} {s : State} (h : s.Inv) : (execCopyUnit core ticket s).Keeps := by
  unfold execCopyUnit
  split
  · exact .next h
  · split
    · exact .next h
    · split
      · exact .next h
      · split
        · next he2 =>
            exact .next (inv_updCmd (inv_fst he2 (inv_moveUnit h)))
        · next he2 =>
            exact .next (inv_parkCmd (inv_fst he2 (inv_moveUnit h)))
        · next he2 =>
            exact .next (inv_failPart (inv_cmdAlarm (inv_fst he2 (inv_moveUnit h))))

theorem inv_releaseHeld {s : State} {core : Nat} {c : Gcmd} {i : Nat} (h : s.Inv) : (s.releaseHeld core c i).Inv := by
  unfold State.releaseHeld
  exact inv_foldl (fun _ _ ht => inv_writeWide ht) (inv_updCmd h)

theorem inv_partDone {s : State} {core : Nat} {c : Gcmd} {i : Nat} (h : s.Inv) : (s.partDone core c i).Inv := by
  unfold State.partDone
  dsimp only
  split
  · exact h
  · split
    · exact inv_creditCmd (inv_updCmd (inv_releaseHeld h))
    · exact inv_creditCmd (inv_updCmd (inv_releaseHeld h))

theorem inv_movePart {s : State} {c : Gcmd} {i : Nat} {src dst : Loc} {n : Nat} (h : s.Inv) :
    (s.movePart c i src dst n).1.Inv := by
  unfold State.movePart
  dsimp only
  split
  · exact inv_moveAll h
  · exact inv_moveAll h

theorem keeps_execGatherRow {core ticket row : Nat} {s : State} (h : s.Inv) : (execGatherRow core ticket row s).Keeps := by
  unfold execGatherRow
  dsimp only
  split
  · exact .next h
  · split
    · exact .next h
    · split
      · split
        · exact .next (inv_partDone h)
        · split
          · exact .next (inv_failPart h)
          · split
            · next he2 =>
                refine .next (inv_partDone ?_)
                split at he2
                · exact inv_fst he2 (inv_movePart h)
                · exact inv_fst he2 (inv_movePart h)
            · next he2 =>
                refine .next (inv_parkCmd ?_)
                split at he2
                · exact inv_fst he2 (inv_movePart h)
                · exact inv_fst he2 (inv_movePart h)
            · next he2 =>
                refine .next (inv_failPart (inv_cmdAlarm ?_))
                split at he2
                · exact inv_fst he2 (inv_movePart h)
                · exact inv_fst he2 (inv_movePart h)
      · split
        · exact .next (inv_partDone h)
        · split
          · exact .next (inv_failPart h)
          · split
            · next he1 =>
                refine .next (inv_partDone ?_)
                split at he1
                · exact inv_fst he1 (inv_movePart h)
                · exact inv_fst he1 (inv_movePart h)
            · next he1 =>
                refine .next (inv_parkCmd ?_)
                split at he1
                · exact inv_fst he1 (inv_movePart h)
                · exact inv_fst he1 (inv_movePart h)
            · next he1 =>
                refine .next (inv_failPart (inv_cmdAlarm ?_))
                split at he1
                · exact inv_fst he1 (inv_movePart h)
                · exact inv_fst he1 (inv_movePart h)

theorem keeps_execMulticastAck {core ticket receiver : Nat} {s : State} (h : s.Inv) :
    (execMulticastAck core ticket receiver s).Keeps := by
  unfold execMulticastAck
  dsimp only
  split
  · exact .next h
  · split
    · exact .next h
    · split
      · next he1 =>
          exact .next (inv_partDone (inv_fst he1 (inv_movePart h)))
      · next he1 =>
          exact .next (inv_parkCmd (inv_fst he1 (inv_movePart h)))
      · next he1 =>
          exact .next (inv_failPart (inv_cmdAlarm (inv_fst he1 (inv_movePart h))))

theorem inv_engReadRun {g : Agent} {l : List (Nat × Nat × Nat)} {s : State} (h : s.Inv) : (State.engReadRun g l s).1.Inv := by
  induction l generalizing s with
  | nil =>
    unfold State.engReadRun
    exact h
  | cons _ _ ih =>
    unfold State.engReadRun
    split
    · next he =>
        exact inv_fst he (inv_engRead h)
    · next he =>
        split
        · next he1 =>
            exact inv_fst he1 (ih (inv_fst he (inv_engRead h)))
        · next he1 =>
            exact inv_fst he1 (ih (inv_fst he (inv_engRead h)))

theorem inv_readLines {g : Agent} {src stride n n1 : Nat} {s : State} (h : s.Inv) :
    (State.readLines g src stride n n1 s).1.Inv := by
  induction n1 generalizing s with
  | zero =>
    unfold State.readLines
    exact h
  | succ _ ih =>
    unfold State.readLines
    split
    · next he =>
        exact inv_fst he (ih h)
    · next he =>
        split
        · next he1 =>
            exact inv_fst he1 (inv_engReadRun (inv_fst he (ih h)))
        · next he1 =>
            exact inv_fst he1 (inv_engReadRun (inv_fst he (ih h)))

theorem inv_placedForm {s : State} {g : Agent} {src layout limit : Nat} (h : s.Inv) :
    (s.placedForm g src layout limit).1.Inv := by
  unfold State.placedForm
  dsimp only
  split
  · next he =>
      exact inv_fst he (inv_engReadRun h)
  · next he =>
      split
      · exact inv_fst he (inv_engReadRun h)
      · split
        · next he1 =>
            exact inv_fst he1 (inv_readLines (inv_fst he (inv_engReadRun h)))
        · next he1 =>
            split
            · next he2 =>
                exact inv_fst he2 (inv_engReadRun (inv_fst he1 (inv_readLines (inv_fst he (inv_engReadRun h)))))
            · next he2 =>
                exact inv_fst he2 (inv_engReadRun (inv_fst he1 (inv_readLines (inv_fst he (inv_engReadRun h)))))

theorem inv_strike {s : State} {cl level word : Nat} (h : s.Inv) : (s.strike cl level word).Inv := by
  unfold State.strike
  exact inv_updCluster h

theorem inv_sclWrite {s : State} {cl : Nat} {t : Tile} {off : Nat} {bs : List Byte} (h : s.Inv) :
    (s.sclWrite cl t off bs).Inv := by
  unfold State.sclWrite
  exact inv_updCluster h

theorem keeps_execScalePlacement {core ticket : Nat} {s : State} (h : s.Inv) : (execScalePlacement core ticket s).Keeps := by
  unfold execScalePlacement
  dsimp only
  split
  · exact .next h
  · split
    · exact .next h
    · split
      · split
        · exact .next (inv_updCmd (inv_sclWrite (inv_placedForm h)))
        · exact .next h
      · exact .next (inv_parkCmd (h.of_mem rfl))
      · exact .next (inv_failPart (inv_cmdAlarm (h.of_mem rfl)))

theorem inv_reportCmd {s : State} {key : Nat} {c : Gcmd} {t : TrapReq} (h : s.Inv) : (s.reportCmd key c t).Inv := by
  unfold State.reportCmd
  exact inv_updGangAt h

theorem keeps_execGleanerCommandCompletion {core ticket : Nat} {s : State} (h : s.Inv) :
    (execGleanerCommandCompletion core ticket s).Keeps := by
  unfold execGleanerCommandCompletion
  dsimp only
  split
  · exact .next h
  · split
    · exact .next h
    · refine .next (inv_lowerIssuers (inv_endCmd ?_))
      split
      · refine inv_foldl (fun _ _ ht => inv_reportCmd ht) ?_
        split
        · refine inv_raiseCell ?_
          split
          · exact inv_creditCmd h
          · exact h
        · split
          · exact inv_creditCmd h
          · exact h
      · split
        · refine inv_raiseCell ?_
          split
          · exact inv_creditCmd h
          · exact h
        · split
          · exact inv_creditCmd h
          · exact h

theorem inv_gleanerFail {s : State} {core : Nat} {c : Gcmd} {cause va : Nat} (h : s.Inv) :
    (s.gleanerFail core c cause va).Inv := by
  unfold State.gleanerFail
  exact inv_updCmd (inv_failPart h)

theorem inv_endCancelled {s : State} {core : Nat} {c : Gcmd} (h : s.Inv) : (s.endCancelled core c).Inv := by
  unfold State.endCancelled
  exact inv_foldl (fun _ _ ht => inv_updGangAt ht) (inv_cancelCmd h)

theorem inv_cmdAnswer {s : State} {core : Nat} {c : Gcmd} {m : Msg} {status : Nat} (h : s.Inv) :
    (s.cmdAnswer core c m status).Inv := by
  unfold State.cmdAnswer
  dsimp only
  split
  · split
    · exact inv_endCancelled (inv_failPart h)
    · exact inv_failPart h
  · split
    · split
      · exact inv_endCancelled (inv_partDone h)
      · exact inv_partDone h
    · split
      · exact inv_endCancelled h
      · exact h

theorem finds_cmdEvent {s : State} {core : Nat} {c : Gcmd} (h : s.Inv) : Finds Res.Keeps (s.cmdEvent core c) := by
  unfold State.cmdEvent
  split
  · exact .none
  · split
    · exact .some (keeps_execGleanerCommandCompletion h)
    · split
      · exact finds_map (fun _ => keeps_execCopyUnit h)
      · split
        · exact .some (keeps_execScalePlacement h)
        · refine finds_map (fun _ => ?_)
          split
          · exact keeps_execMulticastAck h
          · exact keeps_execGatherRow h

theorem finds_gleanerEvent {s : State} {core : Nat} (h : s.Inv) : Finds Res.Keeps (s.gleanerEvent core) := by
  unfold State.gleanerEvent
  split
  · next he =>
      exact .some ((finds_findSome? (fun _ => finds_cmdEvent h)).of_some he)
  · split
    · exact .some (keeps_execGleanerCommandStart h)
    · exact .none

end Sys2Proof.Machine
end

section
/-! O7, Expand: the canonical form of local memory is kept by expand groups, selection and hash tables. -/

namespace Sys2Proof.Machine

theorem keeps_xMisuse {sub : Nat} {s : State} (h : s.Inv) : (xMisuse sub s).Keeps := by
  unfold xMisuse
  exact keeps_trapNow h

theorem inv_installGroup {s : State} {wid : Nat} {x : XGroup} (h : s.Inv) : (s.installGroup wid x).Inv := by
  unfold State.installGroup
  exact inv_updWgAt (inv_foldl (fun _ _ ht => inv_updGangAt ht) h)

theorem keeps_execExpb {d a b : Code} {s : State} (h : s.Inv) : (execExpb d a b s).Keeps := by
  unfold execExpb
  refine keeps_guardOps h (fun _ ht => ?_)
  refine keeps_heldOr ht ?_
  dsimp only
  split
  · exact keeps_trapNow ht
  · split
    · exact keeps_trapNow ht
    · exact .next (inv_updGang (inv_installGroup ht))

theorem inv_leaveFormation {s : State} {wid : Nat} {f : XForming} (h : s.Inv) : (s.leaveFormation wid f).Inv := by
  unfold State.leaveFormation
  exact inv_updGangAt (inv_updWgAt h)

theorem inv_trapFormation {s : State} {wid : Nat} {ms : List Nat} {t : TrapReq} (h : s.Inv) :
    (s.trapFormation wid ms t).Inv := by
  unfold State.trapFormation
  refine inv_foldl (fun _ _ ht => ?_) h
  dsimp only
  split
  · exact ht
  · exact inv_takeTrap (inv_updGangAt (inv_update (inv_leaveFormation ht)))

theorem inv_tryFormation {s : State} {wid : Nat} (h : s.Inv) : (s.tryFormation wid).Inv := by
  unfold State.tryFormation
  dsimp only
  split
  · exact inv_trapFormation h
  · split
    · exact h
    · split
      · exact inv_trapFormation h
      · split
        · exact inv_trapFormation h
        · exact inv_foldl (fun _ _ ht => inv_updGangAt ht) (inv_updWgAt (inv_installGroup h))

theorem keeps_execExpbG {d a b : Code} {s : State} (h : s.Inv) : (execExpbG d a b s).Keeps := by
  unfold execExpbG
  refine keeps_guardOps h (fun _ ht => ?_)
  refine keeps_heldOr ht ?_
  dsimp only
  split
  · exact keeps_trapNow ht
  · split
    · exact keeps_xMisuse ht
    · exact .next (inv_tryFormation (inv_updGang (inv_updWg (inv_stall ht))))

theorem keeps_withXGroup {s : State} {body : XGroup → State → Res} (h : s.Inv) (hb : ∀ x t, t.Inv → (body x t).Keeps) :
    (withXGroup s body).Keeps := by
  unfold withXGroup
  dsimp only
  split
  · exact keeps_trapNow (inv_updGang h)
  · split
    · exact keeps_xMisuse h
    · split
      · exact keeps_xMisuse h
      · exact hb _ _ h

theorem keeps_execExpn {d a : Code} {s : State} (h : s.Inv) : (execExpn d a s).Keeps := by
  unfold execExpn
  refine keeps_guardOps h (fun _ ht => ?_)
  refine keeps_heldOr ht ?_
  dsimp only
  split
  · exact keeps_trapNow ht
  · exact keeps_withXGroup ht (fun _ _ ht1 => keeps_finishWith ht1)

theorem inv_segrLane {x : XGroup} {d a : Code} {l : Nat} {s : State} (h : s.Inv) : (segrLane x d a l s).1.Inv := by
  unfold segrLane
  dsimp only
  exact inv_setGangAt h

theorem inv_segrLanes {x : XGroup} {d a : Code} {l : List Nat} {s : State} (h : s.Inv) : (segrLanes x d a l s).1.Inv := by
  induction l generalizing s with
  | nil =>
    unfold segrLanes
    exact h
  | cons _ _ ih =>
    unfold segrLanes
    dsimp only
    exact ih (inv_segrLane h)

theorem keeps_execSegr {d a : Code} {s : State} (h : s.Inv) : (execSegr d a s).Keeps := by
  unfold execSegr
  refine keeps_guardOps h (fun _ ht => ?_)
  refine keeps_heldOr ht ?_
  dsimp only
  split
  · split
    · split
      · exact keeps_trapNow ht
      · refine keeps_withXGroup ht (fun _ _ ht1 => ?_)
        split
        · exact keeps_trapNow (inv_updGang ht1)
        · refine keeps_guardLanes ht1 (keeps_guardLanes ht1 ?_)
          split
          · exact .next (inv_advance (inv_updGang (inv_segrLanes ht1)))
          · exact keeps_trapNow (inv_updGang ht1)
    · split
      · exact keeps_trapNow ht
      · refine keeps_withXGroup ht (fun _ _ ht1 => ?_)
        split
        · exact keeps_trapNow (inv_updGang ht1)
        · refine keeps_guardLanes ht1 (keeps_guardLanes ht1 ?_)
          split
          · exact .next (inv_advance (inv_updGang (inv_segrLanes ht1)))
          · exact keeps_trapNow (inv_updGang ht1)
  · split
    · exact keeps_trapNow ht
    · refine keeps_withXGroup ht (fun _ _ ht1 => ?_)
      split
      · exact keeps_trapNow (inv_updGang ht1)
      · refine keeps_guardLanes ht1 (keeps_guardLanes ht1 ?_)
        split
        · exact .next (inv_advance (inv_updGang (inv_segrLanes ht1)))
        · exact keeps_trapNow (inv_updGang ht1)

theorem keeps_execXsave {a : Code} {n : BitVec 6} {sp : BitVec 1} {s : State} (h : s.Inv) : (execXsave a n sp s).Keeps := by
  unfold execXsave
  dsimp only
  split
  · exact keeps_illegal h
  · refine keeps_guardOps h (fun _ ht => ?_)
    split
    · exact keeps_trapNow ht
    · refine keeps_withXGroup ht (fun _ _ ht1 => ?_)
      refine keeps_guardLanes ht1 (keeps_heldOr ht1 ?_)
      split
      · exact keeps_trapNow ht1
      · split
        · exact keeps_stallOn ht1
        · split
          · exact .next (inv_park ht1)
          · split
            · exact keeps_stallOn ht1
            · exact .next
                (inv_advance
                (inv_updGang
                (inv_afterLanes
                (inv_foldl (fun _ _ ht2 => inv_storeAt ht2)
                (inv_updGang (inv_update (inv_translateLanes (inv_countMem ht1))))))))

theorem inv_restoreGroup {s : State} {wid : Nat} {x : XGroup} {b : List Byte} (h : s.Inv) : (s.restoreGroup wid x b).Inv := by
  unfold State.restoreGroup
  exact inv_foldl (fun _ _ ht => inv_updGangAt ht) (inv_updWgAt h)

theorem gives_readImage {code : Nat} {l : List (Target × Nat × Nat)} {s : State} (h : s.Inv) :
    Gives (fun _e => True) (fun r => r.1.Inv) (State.readImage code l s) := by
  induction l generalizing s with
  | nil =>
    unfold State.readImage
    exact .ok h
  | cons _ _ ih =>
    unfold State.readImage
    dsimp only
    split
    · exact .error trivial
    · next he =>
        split
        · exact .error trivial
        · next he1 =>
            refine .ok ?_
            dsimp only
            refine (ih ?_).of_ok he1
            split at he
            · split at he
              · injection he with he
                exact inv_fst he (inv_loadAt h)
              · cases he
            · cases he
            · cases he
            · injection he with he
              exact inv_fst he (inv_loadAt h)

theorem keeps_execXrst {a : Code} {n : BitVec 6} {sp : BitVec 1} {s : State} (h : s.Inv) : (execXrst a n sp s).Keeps := by
  unfold execXrst
  dsimp only
  split
  · exact keeps_illegal h
  · refine keeps_guardOps h (fun _ ht => ?_)
    split
    · exact keeps_trapNow ht
    · refine keeps_withXGroup ht (fun _ _ ht1 => ?_)
      refine keeps_guardLanes ht1 (keeps_heldOr ht1 ?_)
      split
      · exact keeps_trapNow ht1
      · split
        · exact keeps_stallOn ht1
        · split
          · exact .next (inv_park ht1)
          · split
            · exact keeps_stallOn ht1
            · split
              · exact keeps_runStop ht1
              · next he2 =>
                  split
                  · exact keeps_xMisuse ht1
                  · exact .next
                      (inv_advance
                      (inv_restoreGroup
                      (inv_updGang (inv_update ((gives_readImage (inv_translateLanes (inv_countMem ht1))).of_ok he2)))))

theorem inv_spendTies {s : State} (h : s.Inv) : s.spendTies.Inv :=
  h.of_mem rfl

theorem keeps_selectEnd {s : State} {d a : Code} {es : List (Nat × Ent)} (h : s.Inv) : (selectEnd s d a es).Keeps := by
  unfold selectEnd
  exact keeps_finishWith (inv_spendTies h)

theorem keeps_execVsort {d a : Code} {s : State} (h : s.Inv) : (execVsort d a s).Keeps := by
  unfold execVsort
  refine keeps_guardOps h (fun _ ht => ?_)
  refine keeps_heldOr ht ?_
  split
  · exact keeps_trapNow ht
  · exact keeps_selectEnd ht

theorem keeps_execVtopk {d a b : Code} {s : State} (h : s.Inv) : (execVtopk d a b s).Keeps := by
  unfold execVtopk
  refine keeps_guardOps h (fun _ ht => ?_)
  refine keeps_heldOr ht ?_
  dsimp only
  split
  · exact keeps_trapNow ht
  · split
    · exact keeps_xMisuse ht
    · exact keeps_selectEnd ht

theorem inv_barnWrite {s : State} {l : Loc} {bs : List Byte} (h : s.Inv) : (s.barnWrite l bs).Inv := by
  unfold State.barnWrite
  split
  · exact inv_tileBankWrite h
  · exact h

theorem keeps_execTkmrg {d a b : Code} {s : State} (h : s.Inv) : (execTkmrg d a b s).Keeps := by
  unfold execTkmrg
  refine keeps_guardOps h (fun _ ht => ?_)
  refine keeps_engineOr ht ?_
  dsimp only
  split
  · exact keeps_trapNow ht
  · split
    · exact keeps_trapNow ht
    · split
      · exact keeps_xMisuse ht
      · exact keeps_finishWith (inv_barnWrite (inv_update (inv_drainQueues ht)))

theorem inv_giveLists {s : State} {key : Nat} {merged : Option (List Byte)} (h : s.Inv) : (s.giveLists key merged).Inv := by
  unfold State.giveLists
  dsimp only
  refine inv_updGroup (inv_foldl (fun _ _ ht => ?_) h)
  split
  · exact inv_barnWrite ht
  · exact ht

theorem inv_completeGroup {s : State} {key : Nat} {others : List (List Byte)} (h : s.Inv) :
    (s.completeGroup key others).Inv := by
  unfold State.completeGroup
  exact inv_update (inv_endGeneration (inv_giveLists h))

theorem inv_nodeArrive {s : State} {part gid node : Nat} (h : s.Inv) : (s.nodeArrive part gid node).Inv := by
  unfold State.nodeArrive
  dsimp only
  split
  · exact h
  · split
    · exact inv_updGroup h
    · split
      · split
        · exact inv_updGroup (inv_updGroup h)
        · exact inv_send (inv_updGroup h)
      · exact h

theorem keeps_execNamedGroupNodeArrival {part gid node : Nat} {s : State} (h : s.Inv) :
    (execNamedGroupNodeArrival part gid node s).Keeps := by
  unfold execNamedGroupNodeArrival
  exact .next (inv_nodeArrive h)

theorem keeps_execNamedGroupCompletion {part gid : Nat} {s : State} (h : s.Inv) :
    (execNamedGroupCompletion part gid s).Keeps := by
  unfold execNamedGroupCompletion
  dsimp only
  split
  · exact .next h
  · exact .next (inv_completeGroup (inv_foldl (fun _ _ ht => inv_send ht) h))

theorem keeps_execCtopk {d a b : Code} {s : State} (h : s.Inv) : (execCtopk d a b s).Keeps := by
  unfold execCtopk
  refine keeps_guardOps h (fun _ ht => ?_)
  refine keeps_engineOr ht ?_
  dsimp only
  split
  · exact keeps_trapNow ht
  · refine keeps_withGroup ht (fun _ _ _ _ ht1 => ?_)
    split
    · split
      · exact keeps_stallOn ht1
      · exact keeps_xMisuse (inv_updGroup ht1)
      · exact keeps_finishWith (inv_acquireActs (inv_updGroup ht1))
    · split
      · exact keeps_trapNow ht1
      · split
        · next he2 =>
            exact (gives_ngArrive ht1).of_error he2
        · next he2 =>
            split
            · exact keeps_trapNow (inv_drainQueues ((gives_ngArrive ht1).of_ok he2))
            · exact keeps_stallOn (inv_updGroup (inv_drainQueues ((gives_ngArrive ht1).of_ok he2)))

theorem keeps_execHinit {a b : Code} {s : State} (h : s.Inv) : (execHinit a b s).Keeps := by
  unfold execHinit
  refine keeps_guardOps h (fun _ ht => ?_)
  refine keeps_engineOr ht ?_
  dsimp only
  split
  · exact keeps_trapNow ht
  · split
    · exact keeps_xMisuse ht
    · exact .next (inv_advance (inv_barnWrite (inv_drainQueues ht)))

theorem inv_hashFlag {s : State} {x : HashTab} {b : Nat} (h : s.Inv) : (s.hashFlag x b).Inv := by
  unfold State.hashFlag
  exact inv_barnWrite h

theorem inv_hashLane {x : HashTab} {kind n w : Nat} {s : State} (h : s.Inv) : (hashLane x kind n w s).1.Inv := by
  unfold hashLane
  dsimp only
  split
  · dsimp only
    split
    · exact h
    · exact inv_hashFlag h
  · split
    · dsimp only
      split
      · exact inv_barnWrite h
      · exact h
    · split
      · exact h
      · exact inv_barnWrite (inv_barnWrite (inv_barnWrite h))
    · dsimp only
      split
      · exact h
      · exact inv_hashFlag h

theorem inv_hashLanes {x : HashTab} {kind : Nat} {key val : Nat → Nat} {l : List Nat} {s : State} (h : s.Inv) :
    (hashLanes x kind key val l s).1.Inv := by
  induction l generalizing s with
  | nil =>
    unfold hashLanes
    exact h
  | cons _ _ ih =>
    unfold hashLanes
    dsimp only
    exact ih (inv_hashLane h)

theorem keeps_hashRun {x : HashTab} {kind : Nat} {k v : Code} {s : State} (h : s.Inv) : (hashRun x kind k v s).Keeps := by
  unfold hashRun
  exact keeps_finishWith (inv_hashLanes (inv_drainQueues h))

theorem keeps_hashInstr {kind : Nat} {loc k v : Code} {s : State} (h : s.Inv) : (hashInstr kind loc k v s).Keeps := by
  unfold hashInstr
  refine keeps_guardOps h (fun _ ht => ?_)
  refine keeps_engineOr ht ?_
  dsimp only
  split
  · exact keeps_trapNow ht
  · split
    · exact keeps_xMisuse ht
    · split
      · exact keeps_trapNow ht
      · exact keeps_guardOps ht (fun _ ht1 => keeps_hashRun ht1)

theorem keeps_execHins {d a b : Code} {s : State} (h : s.Inv) : (execHins d a b s).Keeps := by
  unfold execHins
  exact keeps_hashInstr h

theorem keeps_execHacc {d a b : Code} {s : State} (h : s.Inv) : (execHacc d a b s).Keeps := by
  unfold execHacc
  exact keeps_hashInstr h

theorem keeps_execHfind {d a b : Code} {s : State} (h : s.Inv) : (execHfind d a b s).Keeps := by
  unfold execHfind
  exact keeps_hashInstr h

end Sys2Proof.Machine
end

section
/-! O7, Thresher: the canonical form of local memory is kept by the Thresher. -/

namespace Sys2Proof.Machine

theorem inv_updMop {s : State} {cl slot : Nat} {f : Mentry → Mentry} (h : s.Inv) : (s.updMop cl slot f).Inv := by
  unfold State.updMop
  exact inv_updCluster h

theorem keeps_postMop {e : Mentry} {s : State} (h : s.Inv) : (postMop e s).Keeps := by
  unfold postMop
  dsimp only
  split
  · exact keeps_stallOn h
  · split
    · exact keeps_stallOn h
    · exact .next (inv_updGang (inv_updCluster (inv_takeId h)))

theorem keeps_execMloop {a : Code} {s : State} (h : s.Inv) : (execMloop a s).Keeps := by
  unfold execMloop
  refine keeps_guardOps h (fun _ ht => ?_)
  refine keeps_engineOr ht ?_
  dsimp only
  split
  · exact keeps_trapNow ht
  · split
    · exact keeps_trapNow ht
    · split
      · exact keeps_trapNow ht
      · split
        · exact keeps_trapNow ht
        · exact keeps_postMop ht

theorem keeps_execMdrain {z sh : BitVec 1} {a b : Code} {s : State} (h : s.Inv) : (execMdrain z sh a b s).Keeps := by
  unfold execMdrain
  refine keeps_guardOps h (fun _ ht => ?_)
  refine keeps_engineOr ht ?_
  dsimp only
  split
  · exact keeps_trapNow ht
  · split
    · exact keeps_trapNow ht
    · split
      · exact keeps_trapNow ht
      · exact keeps_postMop ht

theorem keeps_execMzero {a : Code} {s : State} (h : s.Inv) : (execMzero a s).Keeps := by
  unfold execMzero
  refine keeps_guardOps h (fun _ ht => ?_)
  refine keeps_engineOr ht ?_
  split
  · exact keeps_trapNow ht
  · exact keeps_postMop ht

theorem keeps_imageInstr {op : Nat} {a b : Code} {s : State} (h : s.Inv) : (imageInstr op a b s).Keeps := by
  unfold imageInstr
  refine keeps_guardOps h (fun _ ht => ?_)
  refine keeps_engineOr ht ?_
  dsimp only
  split
  · exact keeps_trapNow ht
  · split
    · exact keeps_trapNow ht
    · exact keeps_postMop ht

theorem keeps_execMsave {a b : Code} {s : State} (h : s.Inv) : (execMsave a b s).Keeps := by
  unfold execMsave
  exact keeps_imageInstr h

theorem keeps_execMrestore {a b : Code} {s : State} (h : s.Inv) : (execMrestore a b s).Keeps := by
  unfold execMrestore
  exact keeps_imageInstr h

theorem keeps_execTacc {d a b : Code} {s : State} (h : s.Inv) : (execTacc d a b s).Keeps := by
  unfold execTacc
  refine keeps_guardOps h (fun _ ht => ?_)
  refine keeps_engineOr ht ?_
  dsimp only
  split
  · exact keeps_trapNow ht
  · split
    · exact keeps_trapNow ht
    · exact keeps_postMop ht

theorem keeps_eventInstr {a : Code} {body : Nat → State → Res} {s : State} (h : s.Inv)
    (hb : ∀ n t, t.Inv → (body n t).Keeps) : (eventInstr a body s).Keeps := by
  unfold eventInstr
  refine keeps_guardOps h (fun _ ht => ?_)
  dsimp only
  split
  · exact keeps_trapNow ht
  · exact hb _ _ ht

theorem inv_leaveTable {s : State} {cl : Nat} {e : Mentry} {fail : Option TrapReq} (h : s.Inv) :
    (s.leaveTable cl e fail).Inv := by
  unfold State.leaveTable
  dsimp only
  refine inv_updGangAt ?_
  split
  · exact inv_updGangAt (inv_updCluster h)
  · exact inv_updCluster h

theorem inv_mopAlarm {s : State} {e : Mentry} {r : Option (Option Nat × Nat × Acc)} (h : s.Inv) : (s.mopAlarm e r).Inv := by
  unfold State.mopAlarm
  split
  · exact h
  · exact inv_alarm h

theorem inv_parkMop {s : State} {cl : Nat} {e : Mentry} {cause : Nat} {acc : Acc} {va : Nat} (h : s.Inv) :
    (s.parkMop cl e cause acc va).Inv := by
  unfold State.parkMop
  exact inv_tfqWrite (inv_updCluster h)

theorem inv_killFor {s : State} {e : Mentry} (h : s.Inv) : (s.killFor e).Inv :=
  h.of_mem rfl

theorem inv_startEntry {s : State} {cl : Nat} {e : Mentry} (h : s.Inv) : (s.startEntry cl e).Inv := by
  unfold State.startEntry
  dsimp only
  split
  · exact inv_leaveTable (inv_killFor (inv_updCluster h))
  · split
    · exact inv_updCluster h
    · exact inv_leaveTable (inv_updCluster h)

theorem inv_startEligible {cl : Nat} {s : State} {e : Mentry} (h : s.Inv) : (State.startEligible cl s e).Inv := by
  unfold State.startEligible
  split
  · exact inv_startEntry h
  · exact h

theorem inv_startAll {s : State} {cl : Nat} (h : s.Inv) : (s.startAll cl).Inv := by
  unfold State.startAll
  exact inv_foldl (fun _ _ ht => inv_startEligible ht) h

theorem inv_observeEvent {s : State} {core n : Nat} (h : s.Inv) : (s.observeEvent core n).Inv := by
  unfold State.observeEvent
  split
  · exact h
  · exact inv_acquireActs h

theorem inv_wakeAtEvent {n : Nat} {b : Block} {s : State} {key : Nat} (h : s.Inv) : (State.wakeAtEvent n b s key).Inv := by
  unfold State.wakeAtEvent
  exact inv_updGangAt (inv_observeEvent h)

theorem inv_wakeReaders {cl : Nat} {s : State} {n : Nat} (h : s.Inv) : (State.wakeReaders cl s n).Inv := by
  unfold State.wakeReaders
  split
  · refine inv_foldl (fun _ _ ht => ?_) h
    refine inv_foldl (fun _ _ ht1 => ?_) ht
    split
    · exact inv_wakeAtEvent ht1
    · exact ht1
  · exact h

theorem inv_wakeClearer {cl : Nat} {s : State} {n : Nat} (h : s.Inv) : (State.wakeClearer cl s n).Inv := by
  unfold State.wakeClearer
  split
  · exact inv_updCluster (inv_wakeAtEvent h)
  · exact h

theorem inv_settleRounds {cl n : Nat} {s : State} (h : s.Inv) : (State.settleRounds cl n s).Inv := by
  induction n generalizing s with
  | zero =>
    unfold State.settleRounds
    exact h
  | succ _ ih =>
    unfold State.settleRounds
    dsimp only
    split
    · exact inv_foldl (fun _ _ ht => inv_wakeClearer ht) (inv_startAll (inv_foldl (fun _ _ ht => inv_wakeReaders ht) h))
    · exact ih (inv_foldl (fun _ _ ht => inv_wakeClearer ht) (inv_startAll (inv_foldl (fun _ _ ht => inv_wakeReaders ht) h)))

theorem inv_settleEvents {s : State} {cl : Nat} (h : s.Inv) : (s.settleEvents cl).Inv := by
  unfold State.settleEvents
  exact inv_settleRounds h

theorem keeps_execMloopEntryStart {cluster slot : Nat} {s : State} (h : s.Inv) :
    (execMloopEntryStart cluster slot s).Keeps := by
  unfold execMloopEntryStart
  split
  · exact .next h
  · split
    · exact .next h
    · exact .next (inv_settleEvents h)

theorem inv_takeEvents {s : State} {cl : Nat} {mask : BitVec 256} (h : s.Inv) : (s.takeEvents cl mask).Inv := by
  unfold State.takeEvents
  exact inv_updCluster (inv_startAll h)

theorem inv_endMop {s : State} {cl : Nat} {e : Mentry} {fail : Option TrapReq} (h : s.Inv) : (s.endMop cl e fail).Inv := by
  unfold State.endMop
  exact inv_settleEvents (inv_leaveTable h)

theorem inv_finishMop {s : State} {cl : Nat} {e : Mentry} {fail : Option TrapReq} (h : s.Inv) :
    (s.finishMop cl e fail).Inv := by
  unfold State.finishMop
  dsimp only
  split
  · exact inv_updMop h
  · exact inv_endMop h

theorem inv_mopError {s : State} {cl : Nat} {e : Mentry} {x : XErr} (h : s.Inv) : (s.mopError cl e x).Inv := by
  unfold State.mopError
  split
  · exact inv_parkMop h
  · exact inv_finishMop (inv_mopAlarm h)

theorem keeps_execEvset {a : Code} {s : State} (h : s.Inv) : (execEvset a s).Keeps := by
  unfold execEvset
  exact keeps_eventInstr h
    (fun _ _ ht => keeps_withRelease ht (fun _ ht1 => .next (inv_settleEvents (inv_advance (inv_updCluster ht1)))))

theorem keeps_execEvclr {a : Code} {s : State} (h : s.Inv) : (execEvclr a s).Keeps := by
  unfold execEvclr
  exact keeps_eventInstr h (fun _ _ ht => .next (inv_advance (inv_takeEvents ht)))

theorem keeps_evwaitInstr {clear : Bool} {a : Code} {s : State} (h : s.Inv) : (evwaitInstr clear a s).Keeps := by
  unfold evwaitInstr
  refine keeps_eventInstr h (fun _ _ ht => ?_)
  dsimp only
  split
  · split
    · exact keeps_stallOn ht
    · exact .next (inv_advance (inv_updGang (inv_takeEvents (inv_observeEvent ht))))
  · split
    · exact keeps_stallOn ht
    · exact .next (inv_advance (inv_updGang (inv_observeEvent ht)))

theorem keeps_execEvwait {a : Code} {s : State} (h : s.Inv) : (execEvwait a s).Keeps := by
  unfold execEvwait
  exact keeps_evwaitInstr h

theorem keeps_execEvwaitClear {a : Code} {s : State} (h : s.Inv) : (execEvwaitClear a s).Keeps := by
  unfold execEvwaitClear
  exact keeps_evwaitInstr h

theorem keeps_execThresherPassGrant {cluster : Nat} {s : State} (h : s.Inv) : (execThresherPassGrant cluster s).Keeps := by
  unfold execThresherPassGrant
  refine .next ?_
  split
  · exact inv_updCluster h
  · exact h

theorem inv_loadPanel {n : Nat} {s : State} {x : Mentry} (h : s.Inv) : (State.loadPanel n s x).1.Inv := by
  induction n generalizing s x with
  | zero =>
    unfold State.loadPanel
    exact h
  | succ _ ih =>
    unfold State.loadPanel
    dsimp only
    split
    · exact h
    · split
      · exact h
      · split
        · next he =>
            exact inv_fst he (inv_engReadRun h)
        · next he =>
            exact ih (inv_fst he (inv_engReadRun h))

theorem inv_runSteps {cl n : Nat} {s : State} {x : Mentry} {l : List (List Nat)} (h : s.Inv) :
    (State.runSteps cl n s x l).1.Inv := by
  induction n generalizing s x l with
  | zero =>
    unfold State.runSteps
    exact h
  | succ _ ih =>
    unfold State.runSteps
    split
    · exact ih h
    · split
      · next he =>
          exact inv_fst he (inv_loadPanel h)
      · next he =>
          split
          · exact inv_killFor (inv_fst he (inv_loadPanel h))
          · exact ih (inv_fst he (inv_loadPanel h))

theorem keeps_execThresherPassEnd {cluster : Nat} {s : State} (h : s.Inv) : (execThresherPassEnd cluster s).Keeps := by
  unfold execThresherPassEnd
  dsimp only
  split
  · exact .next h
  · split
    · exact .next (inv_updCluster h)
    · split
      · exact .next (inv_mopError (inv_updCluster (inv_runSteps h)))
      · refine .next ?_
        split
        · exact inv_finishMop (inv_updCluster (inv_runSteps h))
        · exact inv_updCluster (inv_runSteps h)

theorem inv_engWriteRun {g : Agent} {va : Nat} {bs : List Byte} {l : List (Nat × Nat × Nat)} {s : State} (h : s.Inv) :
    (State.engWriteRun g va bs l s).1.Inv := by
  induction l generalizing s with
  | nil =>
    unfold State.engWriteRun
    exact h
  | cons _ _ ih =>
    unfold State.engWriteRun
    split
    · next he =>
        exact inv_fst he (inv_engWrite h)
    · next he =>
        exact ih (inv_fst he (inv_engWrite h))

theorem inv_writeAll {g : Agent} {l : List (Nat × List Byte)} {s : State} (h : s.Inv) : (State.writeAll g l s).1.Inv := by
  induction l generalizing s with
  | nil =>
    unfold State.writeAll
    exact h
  | cons _ _ ih =>
    unfold State.writeAll
    split
    · exact h
    · split
      · exact h.of_mem rfl
      · next he =>
          split
          · exact h.of_mem rfl
          · exact ih (inv_fst he (inv_engWriteRun h))

theorem inv_drainLines {fmtC last : Nat} {vals : List (List FVal)} {n : Nat} {s : State} {x : Mentry} (h : s.Inv) :
    (State.drainLines fmtC last vals n s x).1.Inv := by
  induction n generalizing s x with
  | zero =>
    unfold State.drainLines
    exact h
  | succ _ ih =>
    unfold State.drainLines
    split
    · exact h
    · split
      · next he =>
          exact inv_fst he (inv_writeAll h)
      · next he =>
          exact ih (inv_fst he (inv_writeAll h))

theorem inv_imageLines {cl : Nat} {t : Tile} {n : Nat} {s : State} {x : Mentry} (h : s.Inv) :
    (State.imageLines cl t n s x).1.Inv := by
  induction n generalizing s x with
  | zero =>
    unfold State.imageLines
    exact h
  | succ _ ih =>
    unfold State.imageLines
    dsimp only
    split
    · exact h
    · split
      · exact h
      · split
        · exact inv_killFor h
        · split
          · split
            · next he1 =>
                exact inv_fst he1 (inv_writeAll h)
            · next he1 =>
                exact ih (inv_fst he1 (inv_writeAll h))
          · split
            · next he =>
                exact inv_fst he (inv_engReadRun h)
            · next he =>
                exact ih (inv_updCluster (inv_fst he (inv_engReadRun h)))

theorem keeps_execTilePortStart {cluster : Nat} {s : State} (h : s.Inv) : (execTilePortStart cluster s).Keeps := by
  unfold execTilePortStart
  dsimp only
  split
  · exact .next h
  · refine .next (inv_updCluster (inv_updMop ?_))
    split
    · exact inv_killFor h
    · exact h

theorem inv_clearTile {s : State} {cl : Nat} {e : Mentry} (h : s.Inv) : (s.clearTile cl e).Inv := by
  unfold State.clearTile
  exact inv_updCluster h

theorem inv_runDrain {s : State} {cl : Nat} {e : Mentry} (h : s.Inv) : (s.runDrain cl e).Inv := by
  unfold State.runDrain
  dsimp only
  split
  · exact inv_finishMop h
  · split
    · exact inv_finishMop h
    · split
      · refine inv_finishMop ?_
        split
        · exact inv_clearTile h
        · exact h
      · split
        · refine inv_finishMop ?_
          split
          · exact inv_clearTile h
          · exact h
        · split
          · next he =>
              exact inv_mopError (inv_fst he (inv_drainLines h))
          · next he =>
              refine inv_finishMop ?_
              split
              · exact inv_clearTile (inv_fst he (inv_drainLines h))
              · exact inv_fst he (inv_drainLines h)

theorem inv_runImage {s : State} {cl : Nat} {e : Mentry} (h : s.Inv) : (s.runImage cl e).Inv := by
  unfold State.runImage
  dsimp only
  split
  · exact inv_finishMop h
  · split
    · next he =>
        exact inv_mopError (inv_fst he (inv_imageLines h))
    · next he =>
        refine inv_finishMop ?_
        split
        · exact inv_updCluster (inv_fst he (inv_imageLines h))
        · exact inv_fst he (inv_imageLines h)

theorem inv_runTacc {s : State} {cl : Nat} {e : Mentry} (h : s.Inv) : (s.runTacc cl e).Inv := by
  unfold State.runTacc
  dsimp only
  split
  · exact inv_endMop (inv_killFor h)
  · exact inv_endMop (inv_updCluster h)

theorem keeps_execTileOperationComplete {cluster : Nat} {s : State} (h : s.Inv) :
    (execTileOperationComplete cluster s).Keeps := by
  unfold execTileOperationComplete
  dsimp only
  split
  · exact .next h
  · split
    · exact .next (inv_updCluster h)
    · refine .next ?_
      split
      · exact inv_runDrain h
      · split
        · exact inv_endMop (inv_clearTile h)
        · split
          · exact inv_runTacc h
          · exact inv_runImage h

theorem finds_thresherEvent {s : State} {cl : Nat} (h : s.Inv) : Finds Res.Keeps (s.thresherEvent cl) := by
  unfold State.thresherEvent
  dsimp only
  split
  · exact .some (keeps_execTileOperationComplete h)
  · split
    · exact .some (keeps_execThresherPassEnd h)
    · split
      · exact .some (keeps_execMloopEntryStart h)
      · split
        · exact .some (keeps_execThresherPassGrant h)
        · split
          · exact .some (keeps_execTilePortStart h)
          · exact .none

theorem inv_giveTile {s : State} {wid n : Nat} {t : Tile} (h : s.Inv) : (s.giveTile wid n t).Inv := by
  unfold State.giveTile
  dsimp only
  split
  · exact inv_updCluster (inv_updWgAt h)
  · split
    · exact inv_updCluster (inv_updWgAt h)
    · exact inv_updWgAt h

theorem keeps_execTalloc {d a b : Code} {s : State} (h : s.Inv) : (execTalloc d a b s).Keeps := by
  unfold execTalloc
  refine keeps_guardOps h (fun _ ht => ?_)
  dsimp only
  split
  · exact keeps_finishWith ht
  · split
    · exact keeps_finishWith ht
    · split
      · exact keeps_finishWith ht
      · exact keeps_finishWith (inv_giveTile ht)

theorem inv_freeTile {s : State} {wid n : Nat} (h : s.Inv) : (s.freeTile wid n).Inv := by
  unfold State.freeTile
  dsimp only
  split
  · exact h
  · split
    · exact inv_updCluster (inv_updWgAt h)
    · split
      · exact inv_updCluster (inv_updWgAt h)
      · exact inv_updWgAt h

theorem keeps_execTfree {a : Code} {s : State} (h : s.Inv) : (execTfree a s).Keeps := by
  unfold execTfree
  refine keeps_guardOps h (fun _ ht => ?_)
  dsimp only
  split
  · exact keeps_trapNow ht
  · split
    · exact keeps_stallOn ht
    · exact .next (inv_advance (inv_freeTile ht))

end Sys2Proof.Machine
end

section
/-! O7, Remote: the canonical form of local memory is kept by remote invocations. -/

namespace Sys2Proof.Machine

theorem finds_newHandle {s : State} {part kind issuer opid : Nat} (h : s.Inv) :
    Finds (fun r => r.2.Inv) (s.newHandle part kind issuer opid) := by
  unfold State.newHandle
  dsimp only
  split
  · exact .none
  · exact .some (inv_updSlot (inv_updPart h))

theorem inv_updExec {s : State} {x : DWord} {f : Exec → Exec} (h : s.Inv) : (s.updExec x f).Inv :=
  h.of_mem rfl

theorem inv_freeResult {s : State} {x : DWord} {done : Bool} (h : s.Inv) : (s.freeResult x done).Inv := by
  unfold State.freeResult
  dsimp only
  split
  · exact h
  · split
    · split
      · exact inv_updExec h
      · exact inv_updPart (inv_updExec h)
    · exact inv_updExec h

theorem inv_freeHandle {s : State} {k : Nat} {x : DWord} (h : s.Inv) : (s.freeHandle k x).Inv := by
  unfold State.freeHandle
  dsimp only
  split
  · exact inv_freeResult (inv_updSlot h)
  · exact inv_send (inv_updSlot h)

theorem inv_acceptHandle {s : State} {k : Nat} (h : s.Inv) : (s.acceptHandle k).Inv := by
  unfold State.acceptHandle
  dsimp only
  split
  · exact h
  · exact inv_updGangAt (inv_updSlot h)

theorem inv_breakOne {s : State} {x : DWord} {cause : Nat} (h : s.Inv) : (s.breakOne x cause).1.Inv := by
  unfold State.breakOne
  dsimp only
  split
  · exact inv_send (h.of_mem rfl)
  · split
    · exact h.of_mem rfl
    · split
      · exact h.of_mem rfl
      · dsimp only
        split
        · refine inv_freeHandle (inv_updSlot ?_)
          split
          · exact inv_send (inv_acceptHandle (h.of_mem rfl))
          · exact inv_acceptHandle (h.of_mem rfl)
        · refine inv_updSlot ?_
          split
          · exact inv_send (inv_acceptHandle (h.of_mem rfl))
          · exact inv_acceptHandle (h.of_mem rfl)

theorem inv_breakAll {n : Nat} {l : List (DWord × Nat)} {s : State} (h : s.Inv) : (State.breakAll n l s).Inv := by
  induction n generalizing l s with
  | zero => exact h
  | succ n ih =>
    cases l with
    | nil => exact h
    | cons x xs => exact ih (inv_breakOne h)

theorem inv_breakHandle {s : State} {x : DWord} {cause : Nat} (h : s.Inv) : (s.breakHandle x cause).Inv := by
  unfold State.breakHandle
  exact inv_breakAll h

theorem inv_dropMsg {s : State} {id : Nat} (h : s.Inv) : (s.dropMsg id).Inv :=
  h.of_mem rfl

theorem keeps_sendInvocation {dep : Bool} {b : Code} {loc dst : Nat} {up : DWord} {s : State} (h : s.Inv) :
    (sendInvocation dep b loc dst up s).Keeps := by
  unfold sendInvocation
  dsimp only
  split
  · exact keeps_finishWith h
  · next he =>
      exact .next (inv_updGang (inv_send (inv_takeId ((finds_newHandle h).of_some he))))

theorem keeps_invoke {dep : Bool} {a b : Code} {s : State} (h : s.Inv) : (invoke dep a b s).Keeps := by
  unfold invoke
  refine keeps_guardOps h (fun _ ht => ?_)
  refine keeps_engineOr ht ?_
  dsimp only
  split
  · exact keeps_trapNow ht
  · split
    · exact keeps_trapNow ht
    · split
      · exact keeps_trapNow ht
      · split
        · exact keeps_trapNow ht
        · split
          · exact keeps_trapNow ht
          · split
            · exact keeps_stallOn ht
            · split
              · exact keeps_sendInvocation ht
              · exact keeps_withRelease ht (fun _ ht1 => keeps_sendInvocation ht1)

theorem keeps_execRinv {a b : Code} {s : State} (h : s.Inv) : (execRinv a b s).Keeps := by
  unfold execRinv
  exact keeps_invoke h

theorem keeps_execRinvh {a b : Code} {s : State} (h : s.Inv) : (execRinvh a b s).Keeps := by
  unfold execRinvh
  exact keeps_invoke h

theorem inv_peerAlarm {s : State} {owner : Option Nat} {target src spart pasid kind : Nat} (h : s.Inv) :
    (s.peerAlarm owner target src spart pasid kind).Inv := by
  unfold State.peerAlarm
  dsimp only
  split
  · exact inv_update (inv_logSecurity h)
  · split
    · exact inv_logSecurity h
    · split
      · exact inv_updPart (inv_logSecurity h)
      · exact inv_logSecurity h

theorem inv_cellAlarm {s : State} {m : Msg} {kind : Nat} (h : s.Inv) : (s.cellAlarm m kind).Inv := by
  unfold State.cellAlarm
  dsimp only
  split
  · exact inv_alarm h
  · exact inv_peerAlarm h

theorem inv_acceptInvocation {s : State} {m : Msg} (h : s.Inv) : (s.acceptInvocation m).Inv := by
  unfold State.acceptInvocation
  dsimp only
  split
  · exact inv_breakHandle (inv_cellAlarm h)
  · split
    · exact inv_breakHandle h
    · split
      · exact inv_breakHandle h
      · split
        · exact inv_breakHandle (inv_dirWrite h)
        · split
          · split
            · exact inv_acceptHandle (inv_raiseCell (inv_update (inv_setCell (inv_dirWrite h))))
            · exact inv_raiseCell (inv_update (inv_setCell (inv_dirWrite h)))
          · exact inv_send (inv_raiseCell (inv_update (inv_setCell (inv_dirWrite h))))

theorem keeps_execInvocationArrival {msg : Nat} {s : State} (h : s.Inv) : (execInvocationArrival msg s).Keeps := by
  unfold execInvocationArrival
  split
  · exact .next h
  · split
    · exact .next h
    · exact .next (inv_acceptInvocation (inv_dropMsg h))

theorem inv_deliver {s : State} {m : Msg} (h : s.Inv) : (s.deliver m).Inv := by
  unfold State.deliver
  exact inv_update (inv_takeId h)

theorem inv_holdOrDeliver {s : State} {m : Msg} (h : s.Inv) : (s.holdOrDeliver m).Inv := by
  unfold State.holdOrDeliver
  split
  · split
    · split
      · exact inv_breakHandle h
      · exact h.of_mem rfl
    · exact inv_deliver h
    · exact inv_breakHandle h
  · exact inv_breakHandle h

theorem inv_forwardMsg {s : State} {x : HSlot} {m : Msg} (h : s.Inv) : (s.forwardMsg x m).Inv := by
  unfold State.forwardMsg
  dsimp only
  split
  · exact inv_holdOrDeliver h
  · exact inv_launchMsg (inv_takeId h)

theorem keeps_execDependentMessageAtHome {msg : Nat} {s : State} (h : s.Inv) : (execDependentMessageAtHome msg s).Keeps := by
  unfold execDependentMessageAtHome
  dsimp only
  split
  · exact .next h
  · split
    · exact .next h
    · split
      · exact .next (inv_holdOrDeliver (inv_dropMsg h))
      · split
        · exact .next h
        · split
          · exact .next (inv_breakHandle (inv_dropMsg h))
          · split
            · split
              · exact .next (inv_breakHandle (inv_dropMsg h))
              · exact .next (inv_updSlot (inv_dropMsg h))
            · split
              · exact .next (inv_breakHandle (inv_dropMsg h))
              · exact .next (inv_forwardMsg (inv_dropMsg h))

theorem keeps_execBindReport {msg : Nat} {s : State} (h : s.Inv) : (execBindReport msg s).Keeps := by
  unfold execBindReport
  dsimp only
  split
  · exact .next h
  · split
    · split
      · exact .next h
      · split
        · refine .next ?_
          split
          · exact inv_freeResult (inv_dropMsg h)
          · exact inv_send (inv_dropMsg h)
        · split
          · exact .next (inv_updSlot (inv_dropMsg h))
          · exact .next (inv_foldl (fun _ _ ht => inv_forwardMsg ht) (inv_updSlot (inv_dropMsg h)))
    · exact .next h

theorem inv_deliverHeld {s : State} {x : DWord} (h : s.Inv) : (s.deliverHeld x).Inv := by
  unfold State.deliverHeld
  exact inv_foldl (fun _ _ ht => inv_deliver ht) (h.of_mem rfl)

theorem inv_resultRecorded {s : State} {x : DWord} (h : s.Inv) : (s.resultRecorded x).Inv := by
  unfold State.resultRecorded
  exact inv_deliverHeld (inv_updExec h)

theorem inv_tellRecorded {s : State} {x : DWord} {dev : Nat} (h : s.Inv) : (s.tellRecorded x dev).Inv := by
  unfold State.tellRecorded
  dsimp only
  split
  · exact inv_resultRecorded h
  · exact inv_send h

theorem keeps_execResultPosted {msg : Nat} {s : State} (h : s.Inv) : (execResultPosted msg s).Keeps := by
  unfold execResultPosted
  dsimp only
  split
  · exact .next h
  · split
    · exact .next h
    · split
      · split
        · exact .next (inv_dropMsg h)
        · split
          · exact .next (inv_dropMsg h)
          · refine .next ?_
            split
            · exact inv_freeHandle (inv_tellRecorded (inv_updSlot (inv_dropMsg h)))
            · exact inv_tellRecorded (inv_updSlot (inv_dropMsg h))
      · refine .next ?_
        split
        · exact inv_breakHandle (inv_dropMsg h)
        · exact inv_foldl (fun _ _ ht => inv_breakHandle ht) (inv_updExec (inv_update (inv_dropMsg h)))
      · exact .next h

theorem keeps_execInvocationFabricTimeout {msg : Nat} {s : State} (h : s.Inv) :
    (execInvocationFabricTimeout msg s).Keeps := by
  unfold execInvocationFabricTimeout
  split
  · exact .next h
  · split
    · split
      · exact .next (inv_breakHandle (inv_dropMsg h))
      · exact .next h
    · split
      · exact .next (inv_breakHandle (inv_dropMsg h))
      · exact .next h

theorem inv_observeResult {s : State} {core dev : Nat} (h : s.Inv) : (s.observeResult core dev).Inv := by
  unfold State.observeResult
  exact inv_acquireActs h

theorem keeps_askHome {s : State} {x : DWord} {what : Nat} (h : s.Inv) : (s.askHome x what).Keeps := by
  unfold State.askHome
  exact keeps_stallOn (inv_send (inv_takeId h))

theorem keeps_statusInstr {wait : Bool} {d a : Code} {s : State} (h : s.Inv) : (statusInstr wait d a s).Keeps := by
  unfold statusInstr
  refine keeps_guardOps h (fun _ ht => ?_)
  refine keeps_heldOr ht ?_
  dsimp only
  split
  · exact keeps_trapNow ht
  · split
    · split
      · exact keeps_askHome ht
      · split
        · exact keeps_askHome (inv_updGang ht)
        · refine keeps_finishWith ?_
          split
          · exact inv_observeResult ht
          · exact ht
    · split
      · exact keeps_stallOn ht
      · refine keeps_finishWith ?_
        split
        · exact inv_observeResult ht
        · exact ht

theorem keeps_execRwait {d a : Code} {s : State} (h : s.Inv) : (execRwait d a s).Keeps := by
  unfold execRwait
  exact keeps_statusInstr h

theorem keeps_execRpoll {d a : Code} {s : State} (h : s.Inv) : (execRpoll d a s).Keeps := by
  unfold execRpoll
  exact keeps_statusInstr h

theorem keeps_postRget {s : State} {x : DWord} {barn : Bool} {dest : Nat} {regs : List Nat} (h : s.Inv) :
    (s.postRget x barn dest regs).Keeps := by
  unfold State.postRget
  dsimp only
  split
  · exact keeps_stallOn h
  · exact .next (inv_updGang (inv_send (inv_takeId h)))

theorem keeps_execRget {a b : Code} {s : State} (h : s.Inv) : (execRget a b s).Keeps := by
  unfold execRget
  refine keeps_guardOps h (fun _ ht => ?_)
  refine keeps_heldOr ht ?_
  split
  · exact keeps_trapNow ht
  · exact keeps_postRget ht

theorem keeps_execRgetBarn {a b : Code} {s : State} (h : s.Inv) : (execRgetBarn a b s).Keeps := by
  unfold execRgetBarn
  refine keeps_guardOps h (fun _ ht => ?_)
  refine keeps_engineOr ht ?_
  dsimp only
  split
  · exact keeps_trapNow ht
  · split
    · exact keeps_trapNow ht
    · exact keeps_postRget ht

theorem inv_endRget {s : State} {m : Msg} (h : s.Inv) : (s.endRget m).Inv := by
  unfold State.endRget
  exact inv_updGangAt h

theorem inv_failRget {s : State} {m : Msg} {sub state : Nat} (h : s.Inv) : (s.failRget m sub state).Inv := by
  unfold State.failRget
  exact inv_endRget (inv_updGangAt h)

theorem inv_endsRget {s : State} {m : Msg} {st dev : Nat} {bs : List Byte} (h : s.Inv) : (s.endsRget m st dev bs).Inv := by
  unfold State.endsRget
  dsimp only
  split
  · exact h
  · split
    · split
      · exact inv_endRget (inv_updGangAt (inv_observeResult h))
      · split
        · exact inv_failRget (inv_observeResult h)
        · split
          · exact inv_endRget (inv_tileBankWrite (inv_observeResult h))
          · exact inv_observeResult h
    · exact inv_failRget h

theorem inv_fetchResult {s : State} {m : Msg} {st dev : Nat} (h : s.Inv) : (s.fetchResult m st dev).Inv := by
  unfold State.fetchResult
  split
  · exact inv_endsRget h
  · exact inv_send h

theorem inv_answerRget {s : State} {m : Msg} (h : s.Inv) : (s.answerRget m).Inv := by
  unfold State.answerRget
  dsimp only
  split
  · exact inv_send h
  · split
    · exact inv_send h
    · exact inv_send h

theorem keeps_execRgetResultArrival {msg : Nat} {s : State} (h : s.Inv) : (execRgetResultArrival msg s).Keeps := by
  unfold execRgetResultArrival
  dsimp only
  split
  · exact .next h
  · split
    · split
      · exact .next h
      · refine .next ?_
        split
        · exact inv_answerRget (inv_dropMsg h)
        · split
          · exact inv_endsRget (inv_dropMsg h)
          · split
            · exact inv_endsRget (inv_dropMsg h)
            · exact inv_fetchResult (inv_dropMsg h)
    · exact .next h

theorem inv_dropHandle {s : State} {part : Nat} {x : DWord} (h : s.Inv) : (s.dropHandle part x).Inv := by
  unfold State.dropHandle
  split
  · exact h
  · split
    · exact inv_freeHandle h
    · exact inv_updSlot h

theorem keeps_execRdrop {a : Code} {s : State} (h : s.Inv) : (execRdrop a s).Keeps := by
  unfold execRdrop
  refine keeps_guardOps h (fun _ ht => ?_)
  refine keeps_heldOr ht ?_
  dsimp only
  split
  · exact keeps_trapNow ht
  · split
    · split
      · exact keeps_askHome ht
      · exact keeps_finishWith ht
    · exact .next (inv_advance (inv_dropHandle ht))

theorem inv_answerHome {s : State} {m : Msg} {what : Nat} (h : s.Inv) : (s.answerHome m what).Inv := by
  unfold State.answerHome
  dsimp only
  refine inv_send ?_
  split
  · exact inv_dropHandle (inv_dropMsg h)
  · exact inv_dropMsg h

theorem inv_homeAnswered {s : State} {m : Msg} {what data : Nat} (h : s.Inv) : (s.homeAnswered m what data).Inv := by
  unfold State.homeAnswered
  exact inv_updGangAt (inv_dropMsg h)

theorem inv_finishEntry {s : State} {x : Exec} (h : s.Inv) : (s.finishEntry x).Inv := by
  unfold State.finishEntry
  exact inv_setCell (inv_dirWrite h)

theorem inv_breakExec {s : State} {x : Exec} {cause : Nat} (h : s.Inv) : (s.breakExec x cause).Inv := by
  unfold State.breakExec
  dsimp only
  refine inv_breakHandle (inv_updExec ?_)
  split
  · exact inv_finishEntry h
  · exact h

theorem keeps_execRbind {a b : Code} {s : State} (h : s.Inv) : (execRbind a b s).Keeps := by
  unfold execRbind
  refine keeps_guardOps h (fun _ ht => ?_)
  refine keeps_heldOr ht ?_
  dsimp only
  split
  · exact keeps_trapNow ht
  · split
    · exact keeps_trapNow ht
    · split
      · exact keeps_finishWith ht
      · split
        · exact keeps_finishWith (inv_acquireActs (inv_send (inv_updExec (inv_updPart (inv_setCell (inv_dirWrite ht))))))
        · exact keeps_finishWith ht

theorem keeps_endInvocation {hd : DWord} {body : Exec → State → Res} {s : State} (h : s.Inv)
    (hb : ∀ x t, t.Inv → (body x t).Keeps) : (endInvocation hd body s).Keeps := by
  unfold endInvocation
  split
  · exact keeps_trapNow h
  · split
    · exact keeps_trapNow h
    · split
      · exact .next (inv_advance h)
      · exact keeps_withRelease h (fun _ ht => hb _ _ ht)

theorem keeps_execRput {a b : Code} {s : State} (h : s.Inv) : (execRput a b s).Keeps := by
  unfold execRput
  refine keeps_guardOps h (fun _ ht => ?_)
  refine keeps_heldOr ht ?_
  dsimp only
  split
  · exact keeps_trapNow ht
  · split
    · exact keeps_trapNow ht
    · exact keeps_endInvocation ht
        (fun _ _ ht1 => .next (inv_advance (inv_send (inv_finishEntry (inv_updExec (inv_writeWide ht1))))))

theorem keeps_execRfail {a b : Code} {s : State} (h : s.Inv) : (execRfail a b s).Keeps := by
  unfold execRfail
  refine keeps_guardOps h (fun _ ht => ?_)
  refine keeps_heldOr ht ?_
  dsimp only
  split
  · exact keeps_trapNow ht
  · exact keeps_endInvocation ht (fun _ _ ht1 => .next (inv_advance (inv_breakExec ht1)))

theorem keeps_execTcarm {a b : Code} {s : State} (h : s.Inv) : (execTcarm a b s).Keeps := by
  unfold execTcarm
  refine keeps_guardOps h (fun _ ht => ?_)
  refine keeps_heldOr ht ?_
  dsimp only
  split
  · exact keeps_trapNow ht
  · split
    · exact keeps_trapNow ht
    · split
      · exact keeps_trapNow ht
      · split
        · exact keeps_trapNow ht
        · split
          · exact keeps_trapNow ht
          · exact keeps_withRelease ht (fun _ ht1 => .next (inv_advance (inv_armCell ht1)))

theorem keeps_execTcadd {a b : Code} {s : State} (h : s.Inv) : (execTcadd a b s).Keeps := by
  unfold execTcadd
  refine keeps_guardOps h (fun _ ht => ?_)
  refine keeps_heldOr ht ?_
  dsimp only
  split
  · exact keeps_trapNow ht
  · split
    · exact keeps_trapNow ht
    · exact keeps_withRelease ht (fun _ ht1 => .next (inv_advance (inv_send ht1)))

theorem inv_inflog {s : State} {addr src cause kind pasid : Nat} (h : s.Inv) : (s.inflog addr src cause kind pasid).Inv := by
  unfold State.inflog
  dsimp only
  split
  · exact h.of_mem rfl
  · exact inv_update (inv_writeHomeNum h)

theorem inv_cellDrop {s : State} {m : Msg} (h : s.Inv) : (s.cellDrop m).Inv := by
  unfold State.cellDrop
  split
  · exact h
  · exact inv_inflog h

end Sys2Proof.Machine
end

section
/-! O7, Mirror: the canonical form of local memory is kept by mirrors. -/

namespace Sys2Proof.Machine

theorem inv_dropReadOnly {s : State} {core : Nat} (h : s.Inv) : (s.dropReadOnly core).Inv := by
  unfold State.dropReadOnly
  refine inv_foldl (fun _ _ ht => ?_) h
  split
  · split
    · exact ht
    · exact inv_flushLine ht
  · exact ht

theorem inv_wakeCovered {s : State} {c : Cover} (h : s.Inv) : (s.wakeCovered c).Inv := by
  unfold State.wakeCovered
  refine inv_foldl (fun _ _ ht => ?_) h
  dsimp only
  split
  · split
    · exact inv_updGangAt (inv_dropWatches ht)
    · exact ht
  · exact ht

theorem inv_invalidate {s : State} {c : Cover} (h : s.Inv) : (s.invalidate c).Inv := by
  unfold State.invalidate
  exact inv_wakeCovered (inv_foldl (fun _ _ ht => inv_dropReadOnly ht) (h.of_mem rfl))

theorem inv_startInval {s : State} {gang id : Nat} {c : Cover} (h : s.Inv) : (s.startInval gang id c).Inv := by
  unfold State.startInval
  exact inv_update (inv_invalidate h)

theorem inv_closeEntry {s : State} {die entry : Nat} (h : s.Inv) : (s.closeEntry die entry).Inv := by
  unfold State.closeEntry
  exact inv_updDie h

theorem inv_retryAgent {s : State} {a : TfqAgent} (h : s.Inv) : (s.retryAgent a).Inv := by
  unfold State.retryAgent
  dsimp only
  split
  · exact inv_updCmd h
  · split
    · exact inv_updCluster h
    · exact inv_updGangAt h

theorem inv_splitLeaf {s : State} {l : Leaf} {first : Nat} (h : s.Inv) : (s.splitLeaf l first).Inv := by
  unfold State.splitLeaf
  exact inv_writeHomeNum (inv_writeHomeList (inv_foldl (fun _ _ ht => inv_writeHomeList ht) (h.of_mem rfl)))

theorem inv_invalidatePage {s : State} {pasid va bits : Nat} (h : s.Inv) : (s.invalidatePage pasid va bits).1.Inv := by
  unfold State.invalidatePage
  dsimp only
  exact inv_startInval (inv_takeId h)

theorem inv_mirrorAct {s : State} {st : MirrorStep} {pasid va index : Nat} (h : s.Inv) :
    (s.mirrorAct st pasid va index).1.Inv := by
  unfold State.mirrorAct
  dsimp only
  split
  · split
    · split
      · exact inv_invalidatePage (inv_splitLeaf h)
      · exact h
    · exact h
  · dsimp only
    split
    · exact inv_writeHomeNum h
    · exact h
  · split
    · split
      · exact inv_invalidatePage (inv_writeHomeNum h)
      · exact h
    · exact h
  · exact inv_writeHomeNum h

theorem inv_updMirror {s : State} {id : Nat} {f : MirrorJob → MirrorJob} (h : s.Inv) : (s.updMirror id f).Inv :=
  h.of_mem rfl

theorem inv_mirrorOn {s : State} {j : MirrorJob} {index : Nat} {st : MirrorStep} {dev : Nat} (h : s.Inv) :
    (s.mirrorOn j index st dev).Inv := by
  unfold State.mirrorOn
  dsimp only
  split
  · exact inv_updMirror (inv_mirrorAct h)
  · exact inv_updMirror (inv_send h)

theorem inv_mirrorEverywhere {s : State} {j : MirrorJob} {index : Nat} {st : MirrorStep} (h : s.Inv) :
    (s.mirrorEverywhere j index st).Inv := by
  unfold State.mirrorEverywhere
  exact inv_foldl (fun _ _ ht => inv_mirrorOn ht) h

theorem inv_endMirror {s : State} {j : MirrorJob} (h : s.Inv) : (s.endMirror j).Inv := by
  unfold State.endMirror
  dsimp only
  split
  · exact h.of_mem rfl
  · split
    · exact inv_retryAgent (inv_closeEntry (h.of_mem rfl))
    · exact h.of_mem rfl

theorem inv_judgeMirror {s : State} {j : MirrorJob} (h : s.Inv) : (s.judgeMirror j).Inv := by
  unfold State.judgeMirror
  dsimp only
  split
  · exact inv_endMirror h
  · split
    · split
      · exact inv_mirrorEverywhere (h.of_mem rfl)
      · exact inv_mirrorOn (inv_updMirror h)
    · exact inv_endMirror h

theorem inv_mirrorStep {s : State} {j : MirrorJob} (h : s.Inv) : (s.mirrorStep j).Inv := by
  unfold State.mirrorStep
  split
  · exact inv_judgeMirror h
  · split
    · exact inv_mirrorEverywhere (inv_updMirror h)
    · split
      · exact inv_endMirror h
      · split
        · exact inv_mirrorOn h
        · exact inv_endMirror h
  · exact inv_mirrorEverywhere (inv_updMirror h)
  · exact inv_endMirror h

theorem inv_mirrorHeard {s : State} {id answer : Nat} (h : s.Inv) : (s.mirrorHeard id answer).Inv := by
  unfold State.mirrorHeard
  exact inv_foldl (fun _ _ ht => inv_send ht) (inv_update (h.of_mem rfl))

theorem inv_answerMirror {s : State} {m : Msg} {st : MirrorStep} {index tag : Nat} (h : s.Inv) :
    (s.answerMirror m st index tag).Inv := by
  unfold State.answerMirror
  dsimp only
  split
  · exact inv_send (inv_mirrorAct h)
  · exact inv_update (inv_mirrorAct h)

theorem inv_addMirror {s : State} {fault : Nat × Nat} {pasid va : Nat} (h : s.Inv) : (s.addMirror fault pasid va).Inv :=
  h.of_mem rfl

theorem inv_startMirror {s : State} {die : Nat} {a : TfqAgent} (h : s.Inv) : (s.startMirror die a).Inv := by
  unfold State.startMirror
  exact inv_updDie (inv_addMirror h)

end Sys2Proof.Machine
end

section
/-! O7, System: the canonical form of local memory is kept by system registers, maintenance and page walks. -/

namespace Sys2Proof.Machine

theorem keeps_execTrap {c : BitVec 16} {s : State} (h : s.Inv) : (execTrap c s).Keeps := by
  unfold execTrap
  exact keeps_trapNow h

theorem keeps_execTvec {l : BitVec 1} {a b : Code} {s : State} (h : s.Inv) : (execTvec l a b s).Keeps := by
  unfold execTvec
  refine keeps_guardOps h (fun _ ht => ?_)
  dsimp only
  split
  · exact keeps_trapNow ht
  · exact keeps_finishWith ht

theorem keeps_execTret {s : State} (h : s.Inv) : (execTret s).Keeps := by
  unfold execTret
  exact keeps_trapReturn h

theorem keeps_execTretSkip {s : State} (h : s.Inv) : (execTretSkip s).Keeps := by
  unfold execTretSkip
  exact keeps_trapReturn h

theorem keeps_execTdone {a : Code} {s : State} (h : s.Inv) : (execTdone a s).Keeps := by
  unfold execTdone
  refine keeps_guardOps h (fun _ ht => ?_)
  dsimp only
  split
  · exact keeps_trapNow ht
  · split
    · exact .next (inv_fatal ht)
    · split
      · next he1 =>
          split
          · exact .next ((keeps_fetchFar ht).inv he1)
          · exact .next (inv_fatal ht)
      · exact keeps_fetchFar ht
    · exact .next (inv_fatal ht)

theorem keeps_privilegeTrap {n : Code} {s : State} (h : s.Inv) : (privilegeTrap n s).Keeps := by
  unfold privilegeTrap
  exact keeps_trapNow h

theorem keeps_execSysrd {n a : Code} {s : State} (h : s.Inv) : (execSysrd n a s).Keeps := by
  unfold execSysrd
  dsimp only
  split
  · exact keeps_illegal h
  · refine keeps_guardOps h (fun _ ht => ?_)
    split
    · exact keeps_privilegeTrap ht
    · split
      · exact keeps_finishWith ht
      · exact keeps_finishWith ht

theorem inv_deliverAgent {s : State} {a : TfqAgent} (h : s.Inv) : (s.deliverAgent a).Inv := by
  unfold State.deliverAgent
  dsimp only
  split
  · exact inv_enterRecord (h.of_mem rfl)
  · exact h

theorem inv_failAgent {s : State} {a : TfqAgent} {fcause : Nat} (h : s.Inv) : (s.failAgent a fcause).Inv := by
  unfold State.failAgent
  dsimp only
  split
  · split
    · exact inv_gleanerFail h
    · exact h
  · split
    · exact inv_finishMop h
    · exact h

theorem keeps_execTfqReplyRetry {die entry : Nat} {s : State} (h : s.Inv) : (execTfqReplyRetry die entry s).Keeps := by
  unfold execTfqReplyRetry
  refine .next ?_
  split
  · exact inv_retryAgent (inv_closeEntry h)
  · exact h

theorem keeps_execTfqReplyDeliver {die entry : Nat} {s : State} (h : s.Inv) : (execTfqReplyDeliver die entry s).Keeps := by
  unfold execTfqReplyDeliver
  refine .next ?_
  split
  · split
    · exact inv_deliverAgent (inv_closeEntry h)
    · exact h
  · exact h

theorem keeps_execTfqReplyFail {die entry fcause : Nat} {s : State} (h : s.Inv) :
    (execTfqReplyFail die entry fcause s).Keeps := by
  unfold execTfqReplyFail
  refine .next ?_
  split
  · split
    · exact inv_failAgent (inv_closeEntry h)
    · exact h
  · exact h

theorem keeps_unresolved {s : State} {die : Nat} {a : TfqAgent} (h : s.Inv) : (s.unresolved die a).Keeps := by
  unfold State.unresolved
  split
  · exact keeps_execTfqReplyDeliver h
  · exact keeps_execTfqReplyFail h

theorem keeps_execPageRequestReply {die entry : Nat} {resolved : Bool} {s : State} (h : s.Inv) :
    (execPageRequestReply die entry resolved s).Keeps := by
  unfold execPageRequestReply
  dsimp only
  split
  · exact .next h
  · split
    · exact .next h
    · split
      · exact keeps_execTfqReplyRetry h
      · exact keeps_unresolved h

theorem inv_writeWaiting {die n : Nat} {s : State} (h : s.Inv) : (State.writeWaiting die n s).Inv := by
  induction n generalizing s with
  | zero =>
    unfold State.writeWaiting
    exact h
  | succ _ ih =>
    unfold State.writeWaiting
    split
    · exact h
    · split
      · exact h
      · exact ih (inv_tfqPut (inv_updDie h))

theorem keeps_execTfqHeadWrite {die : Nat} {value : Word} {s : State} (h : s.Inv) : (execTfqHeadWrite die value s).Keeps := by
  unfold execTfqHeadWrite
  exact .next (inv_writeWaiting (inv_updDie h))

theorem keeps_tfqReply {s : State} {die n : Nat} (h : s.Inv) : (s.tfqReply die n).Keeps := by
  unfold State.tfqReply
  dsimp only
  split
  · exact keeps_execTfqReplyRetry h
  · exact keeps_execTfqReplyDeliver h
  · exact keeps_execTfqReplyFail h
  · exact .next h

theorem inv_postPreempt {s : State} {wid : Nat} (h : s.Inv) : (s.postPreempt wid).Inv := by
  unfold State.postPreempt
  dsimp only
  split
  · exact h
  · exact inv_foldl (fun _ _ ht => inv_updGangAt ht) (inv_updWgAt h)

theorem keeps_execWgPreemptWrite {value : Word} {s : State} (h : s.Inv) : (execWgPreemptWrite value s).Keeps := by
  unfold execWgPreemptWrite
  refine .next ?_
  split
  · exact inv_postPreempt h
  · exact h

theorem inv_takePreempt {s : State} {key : Nat} {mask : DWord} (h : s.Inv) : (s.takePreempt key mask).Inv := by
  unfold State.takePreempt
  dsimp only
  refine inv_updGangAt (inv_updWgAt ?_)
  split
  · exact inv_leaveFormation (inv_dropWatches (inv_leaveSeat h))
  · exact inv_dropWatches (inv_leaveSeat h)

theorem keeps_execPreemptGraceExpiry {wid : Nat} {s : State} (h : s.Inv) : (execPreemptGraceExpiry wid s).Keeps := by
  unfold execPreemptGraceExpiry
  refine .next ?_
  split
  · exact h
  · refine inv_foldl (fun _ _ ht => ?_) h
    split
    · exact inv_takePreempt ht
    · exact ht

theorem keeps_execMpt {a : Code} {s : State} (h : s.Inv) : (execMpt a s).Keeps := by
  unfold execMpt
  refine keeps_guardOps h (fun _ ht => ?_)
  split
  · exact .next (inv_takePreempt ht)
  · exact .next (inv_advance ht)

theorem inv_keepChannel {s : State} {a : DWord} (h : s.Inv) : (s.keepChannel a).Inv := by
  unfold State.keepChannel
  split
  · exact h
  · exact h.of_mem rfl

theorem inv_setSysReg {s : State} {die n : Nat} {x : DWord} (h : s.Inv) : (s.setSysReg die n x).Inv := by
  unfold State.setSysReg
  dsimp only
  split
  · exact h.of_mem rfl
  · exact inv_updPart h
  · exact inv_updPart h
  · exact inv_updPart h
  · exact inv_keepChannel (h.of_mem rfl)
  · exact inv_keepChannel (h.of_mem rfl)
  · exact h.of_mem rfl
  · exact inv_keepChannel (h.of_mem rfl)
  · exact h.of_mem rfl
  · exact h.of_mem rfl
  · exact inv_keepChannel (h.of_mem rfl)
  · exact inv_keepChannel (inv_updDie h)
  · exact h

theorem keeps_execSyswr {n a : Code} {s : State} (h : s.Inv) : (execSyswr n a s).Keeps := by
  unfold execSyswr
  dsimp only
  split
  · exact keeps_illegal h
  · refine keeps_guardOps h (fun _ ht => ?_)
    split
    · exact keeps_privilegeTrap ht
    · split
      · split
        · exact keeps_trapNow ht
        · split
          · split
            · exact .next (inv_postPreempt (inv_advance ht))
            · exact keeps_trapNow ht
          · split
            · exact keeps_execTfqHeadWrite (inv_advance ht)
            · split
              · exact keeps_tfqReply (inv_advance ht)
              · exact .next (inv_advance (inv_setSysReg ht))
      · split
        · exact keeps_trapNow ht
        · split
          · split
            · exact .next (inv_postPreempt (inv_advance ht))
            · exact keeps_trapNow ht
          · split
            · exact keeps_execTfqHeadWrite (inv_advance ht)
            · split
              · exact keeps_tfqReply (inv_advance ht)
              · exact .next (inv_advance (inv_setSysReg ht))

theorem keeps_invalidateNow {c : Cover} {s : State} (h : s.Inv) : (invalidateNow c s).Keeps := by
  unfold invalidateNow
  exact keeps_withRelease h (fun _ ht => keeps_stallOn (inv_startInval (inv_takeId ht)))

theorem keeps_execTlbip {a b : Code} {s : State} (h : s.Inv) : (execTlbip a b s).Keeps := by
  unfold execTlbip
  refine keeps_guardOps h (fun _ ht => ?_)
  dsimp only
  split
  · exact keeps_privilegeTrap ht
  · split
    · exact keeps_trapNow ht
    · exact keeps_invalidateNow ht

theorem keeps_execTlbia {a : Code} {s : State} (h : s.Inv) : (execTlbia a s).Keeps := by
  unfold execTlbia
  refine keeps_guardOps h (fun _ ht => ?_)
  split
  · exact keeps_privilegeTrap ht
  · split
    · exact keeps_trapNow ht
    · exact keeps_invalidateNow ht

theorem keeps_execTlball {s : State} (h : s.Inv) : (execTlball s).Keeps := by
  unfold execTlball
  split
  · exact keeps_privilegeTrap h
  · exact keeps_invalidateNow h

theorem keeps_execTlbInvalidationComplete {gang id : Nat} {s : State} (h : s.Inv) :
    (execTlbInvalidationComplete gang id s).Keeps := by
  unfold execTlbInvalidationComplete
  refine .next ?_
  split
  · exact inv_mirrorHeard (inv_updGangAt (h.of_mem rfl))
  · exact h

theorem keeps_execFwcall {a b : Code} {s : State} (h : s.Inv) : (execFwcall a b s).Keeps := by
  unfold execFwcall
  exact keeps_guardOps h (fun _ ht => keeps_stallOn (inv_update (inv_takeId ht)))

theorem inv_fwAnswer {s : State} {c : FwCall} (h : s.Inv) : (s.fwAnswer c).1.Inv := by
  unfold State.fwAnswer
  dsimp only
  split
  · exact h
  · exact inv_updPart h
  · exact h
  · exact h

theorem keeps_execFwcallReply {gang : Nat} {s : State} (h : s.Inv) : (execFwcallReply gang s).Keeps := by
  unfold execFwcallReply
  dsimp only
  split
  · exact .next h
  · split
    · exact .next (inv_updGangAt (inv_fwAnswer (h.of_mem rfl)))
    · exact .next (h.of_mem rfl)

theorem keeps_execPageWalk {core pasid va access : Nat} {s : State} (h : s.Inv) :
    (execPageWalk core pasid va access s).Keeps := by
  unfold execPageWalk
  refine .next ?_
  split
  · next he =>
      exact inv_fillL1Tlb (inv_fillClusterTlb ((gives_walkDone h).of_ok he))
  · exact h

theorem inv_sweepTable {l : List (Nat × Nat × Nat)} {n : Nat} {s : State} (h : s.Inv) : (State.sweepTable l n s).Inv := by
  induction l generalizing n s with
  | nil =>
    unfold State.sweepTable
    exact h
  | cons _ _ ih =>
    unfold State.sweepTable
    refine inv_foldl (fun _ _ ht => ?_) h
    dsimp only
    split
    · exact ht
    · split
      · split
        · exact ht
        · exact inv_writeHomeNum ht
      · split
        · exact ht
        · exact ih ht

theorem keeps_execHeatSweep {s : State} (h : s.Inv) : (execHeatSweep s).Keeps := by
  unfold execHeatSweep
  dsimp only
  refine .next (inv_update (inv_foldl (fun _ _ ht => ?_) h))
  split
  · exact ht
  · exact inv_sweepTable ht

end Sys2Proof.Machine
end

section
/-! O7, Queues: the canonical form of local memory is kept by queues and packets. -/

namespace Sys2Proof.Machine

theorem inv_putWindowList {s : State} {a : Nat} {bs : List Byte} (h : s.Inv) : (s.putWindowList a bs).Inv :=
  h.of_mem rfl

theorem inv_resolves {s : State} {pasid : Nat} {x : IoErr} (h : s.Inv) : (s.resolves pasid x).1.Inv := by
  unfold State.resolves
  split
  · exact h
  · split
    · exact inv_addMirror h
    · split
      · exact h
      · exact h.of_mem rfl

theorem inv_frontWrite {s : State} {part pasid a : Nat} {bs : List Byte} (h : s.Inv) :
    (s.frontWrite part pasid a bs).Inv := by
  unfold State.frontWrite
  dsimp only
  split
  · exact h.of_mem rfl
  · split
    · next he =>
        exact inv_fst he (inv_writeRun h)
    · next he =>
        split
        · exact inv_update (inv_resolves (inv_fst he (inv_writeRun h)))
        · exact inv_resolves (inv_fst he (inv_writeRun h))

theorem inv_retryWrites {s : State} (h : s.Inv) : s.retryWrites.Inv := by
  unfold State.retryWrites
  exact inv_foldl (fun _ _ ht => inv_frontWrite ht) (h.of_mem rfl)

theorem inv_ringRead {s : State} {k off n : Nat} (h : s.Inv) : (s.ringRead k off n).1.Inv := by
  unfold State.ringRead
  dsimp only
  split
  · exact h
  · exact inv_readRun h

theorem inv_queueUnits {s : State} {k u n : Nat} (h : s.Inv) : (s.queueUnits k u n).1.Inv := by
  unfold State.queueUnits
  dsimp only
  split
  · next he =>
      exact inv_fst he (inv_ringRead h)
  · next he =>
      split
      · exact inv_fst he (inv_ringRead h)
      · split
        · next he1 =>
            exact inv_fst he1 (inv_ringRead (inv_fst he (inv_ringRead h)))
        · next he1 =>
            exact inv_fst he1 (inv_ringRead (inv_fst he (inv_ringRead h)))

theorem inv_readDoorbell {s : State} {k : Nat} (h : s.Inv) : (s.readDoorbell k).1.Inv := by
  unfold State.readDoorbell
  dsimp only
  split
  · exact h
  · exact inv_dirRead h

theorem inv_reportRead {s : State} {k : Nat} (h : s.Inv) : (s.reportRead k).Inv := by
  unfold State.reportRead
  dsimp only
  split
  · exact inv_putWindow h
  · exact inv_frontWrite h

theorem inv_head {s : State} {k : Nat} (h : s.Inv) : (s.head k).1.Inv := by
  unfold State.head
  dsimp only
  split
  · exact h
  · split
    · exact h
    · split
      · exact h
      · split
        · next he1 =>
            exact inv_fst he1 (inv_queueUnits h)
        · next he1 =>
            split
            · exact inv_fst he1 (inv_queueUnits h)
            · split
              · exact inv_fst he1 (inv_queueUnits h)
              · split
                · next he2 =>
                    exact inv_fst he2 (inv_queueUnits (inv_fst he1 (inv_queueUnits h)))
                · next he2 =>
                    exact inv_fst he2 (inv_queueUnits (inv_fst he1 (inv_queueUnits h)))

theorem inv_passUnits {s : State} {k n : Nat} (h : s.Inv) : (s.passUnits k n).Inv := by
  unfold State.passUnits
  exact inv_reportRead (inv_updQueue h)

theorem inv_takeHead {s : State} {k : Nat} {fed : Bool} {b : List Byte} (h : s.Inv) : (s.takeHead k fed b).Inv := by
  unfold State.takeHead
  split
  · exact inv_updQueue h
  · exact inv_passUnits h

theorem inv_endPacket {s : State} {k : Nat} {p : Packet} {cause result : Nat} {fatal : List Byte} (h : s.Inv) :
    (s.endPacket k p cause result fatal).Inv := by
  unfold State.endPacket
  dsimp only
  refine inv_updQueue ?_
  split
  · exact h
  · split
    · exact inv_putWindowList h
    · exact inv_frontWrite h

theorem inv_holdQueue {s : State} {k : Nat} (h : s.Inv) : (s.holdQueue k).Inv := by
  unfold State.holdQueue
  exact inv_updQueue h

theorem inv_stallQueue {s : State} {k : Nat} {e : IoErr} (h : s.Inv) : (s.stallQueue k e).Inv := by
  unfold State.stallQueue
  dsimp only
  split
  · exact inv_holdQueue h
  · split
    · exact inv_resolves (inv_holdQueue h)
    · exact inv_notice (inv_resolves (inv_holdQueue h))

theorem inv_skipBad {k n : Nat} {s : State} (h : s.Inv) : (State.skipBad k n s).Inv := by
  induction n generalizing s with
  | zero =>
    unfold State.skipBad
    exact h
  | succ _ ih =>
    unfold State.skipBad
    dsimp only
    split
    · exact h
    · next he =>
        exact inv_stallQueue (inv_fst he (inv_head h))
    · next he =>
        split
        · exact ih (inv_passUnits (inv_fst he (inv_head h)))
        · exact h
    · next he =>
        split
        · exact h
        · exact ih (inv_endPacket (inv_takeId (inv_takeHead (inv_fst he (inv_head h)))))

theorem inv_hearDoorbell {s : State} {k : Nat} (h : s.Inv) : (s.hearDoorbell k).Inv := by
  unfold State.hearDoorbell
  dsimp only
  split
  · exact h
  · exact inv_skipBad (inv_updQueue (inv_readDoorbell h))

theorem keeps_execDoorbellWrite {queue : Nat} {s : State} (h : s.Inv) : (execDoorbellWrite queue s).Keeps := by
  unfold execDoorbellWrite
  exact .next (inv_hearDoorbell h)

theorem inv_updPacket {s : State} {k id : Nat} {f : Packet → Packet} (h : s.Inv) : (s.updPacket k id f).Inv := by
  unfold State.updPacket
  exact inv_updQueue h

theorem inv_closePacket {s : State} {k : Nat} {p : Packet} {cause result : Nat} (h : s.Inv) :
    (s.closePacket k p cause result).Inv := by
  unfold State.closePacket
  split
  · exact inv_updPacket h
  · exact inv_endPacket h

theorem inv_faulted {s back : State} {k : Nat} {p : Packet} {e : IoErr} {result : Nat} (h : s.Inv) (h1 : back.Inv) :
    (s.faulted back k p e result).Inv := by
  unfold State.faulted
  dsimp only
  split
  · split
    · exact inv_updPacket (inv_update h1)
    · exact inv_holdQueue (inv_update h1)
  · exact inv_closePacket (inv_resolves h)

theorem keeps_startPacket {k : Nat} {isIt : Nat → List PField → Bool} {body : Packet → List PField → State → State → State}
    {s : State} (h : s.Inv) (hb : ∀ p fs t u, t.Inv → u.Inv → (body p fs t u).Inv) : (startPacket k isIt body s).Keeps := by
  unfold startPacket
  refine .next ?_
  dsimp only
  split
  · next he =>
      split
      · exact inv_skipBad (hb _ _ _ _ h (inv_updQueue (inv_takeId (inv_takeHead (inv_fst he (inv_head h))))))
      · exact h
  · exact h

theorem inv_condMask {p : Packet} {l : List (Nat × Nat)} {n : Nat} {s : State} (h : s.Inv) :
    (State.condMask p l n s).1.Inv := by
  induction l generalizing n s with
  | nil =>
    unfold State.condMask
    exact h
  | cons _ _ ih =>
    unfold State.condMask
    dsimp only
    split
    · next he =>
        exact inv_fst he (inv_readRun h)
    · next he =>
        exact ih (inv_fst he (inv_readRun h))

theorem inv_pollWait {s : State} {k : Nat} {p : Packet} (h : s.Inv) : (s.pollWait k p).Inv := by
  unfold State.pollWait
  dsimp only
  split
  · next he =>
      exact inv_faulted (inv_fst he (inv_condMask h)) (inv_fst he (inv_condMask h))
  · next he =>
      split
      · exact inv_endPacket (inv_fst he (inv_condMask h))
      · exact inv_updPacket (inv_fst he (inv_condMask h))

theorem keeps_execWaitAndPacket {queue : Nat} {s : State} (h : s.Inv) : (execWaitAndPacket queue s).Keeps := by
  unfold execWaitAndPacket
  exact keeps_startPacket h (fun _ _ _ _ _ ht1 => inv_pollWait ht1)

theorem keeps_execWaitAndPoll {queue pkt : Nat} {s : State} (h : s.Inv) : (execWaitAndPoll queue pkt s).Keeps := by
  unfold execWaitAndPoll
  refine .next ?_
  dsimp only
  split
  · exact inv_skipBad (inv_pollWait h)
  · exact h

theorem inv_pollQueue {s : State} {k : Nat} (h : s.Inv) : (s.pollQueue k).Inv := by
  unfold State.pollQueue
  exact inv_hearDoorbell (inv_foldl (fun _ _ ht => inv_pollWait ht) h)

theorem keeps_execQueuePoll {s : State} (h : s.Inv) : (execQueuePoll s).Keeps := by
  unfold execQueuePoll
  exact .next (inv_foldl (fun _ _ ht => inv_pollQueue ht) (inv_retryWrites h))

theorem keeps_execWaitAndTimeout {queue pkt : Nat} {s : State} (h : s.Inv) : (execWaitAndTimeout queue pkt s).Keeps := by
  unfold execWaitAndTimeout
  refine .next ?_
  dsimp only
  split
  · split
    · exact h
    · exact inv_skipBad (inv_endPacket h)
  · exact h

theorem keeps_execTriggerArmPacket {queue : Nat} {s : State} (h : s.Inv) : (execTriggerArmPacket queue s).Keeps := by
  unfold execTriggerArmPacket
  refine keeps_startPacket h (fun _ _ _ _ _ ht1 => ?_)
  dsimp only
  split
  · exact inv_endPacket (inv_armCell ht1)
  · exact inv_endPacket ht1

theorem inv_unitAlarm {s : State} {g : Agent} {x : XErr} (h : s.Inv) : (s.unitAlarm g x).Inv := by
  unfold State.unitAlarm
  split
  · exact inv_alarm h
  · exact h

theorem inv_copyUnits {g : Agent} {src dst : Loc} {n n1 n2 : Nat} {s : State} (h : s.Inv) :
    (State.copyUnits g src dst n n1 n2 s).1.Inv := by
  induction n1 generalizing n2 s with
  | zero =>
    unfold State.copyUnits
    exact h
  | succ _ ih =>
    unfold State.copyUnits
    dsimp only
    split
    · exact h
    · split
      · exact h
      · split
        · next he =>
            exact inv_unitAlarm (inv_fst he (inv_moveUnit h))
        · next he =>
            exact ih (inv_fst he (inv_moveUnit h))

theorem keeps_execCopyPacket {queue : Nat} {s : State} (h : s.Inv) : (execCopyPacket queue s).Keeps := by
  unfold execCopyPacket
  refine keeps_startPacket h (fun _ _ _ _ ht ht1 => ?_)
  dsimp only
  split
  · exact inv_closePacket (inv_copyUnits ht1)
  · exact inv_faulted (inv_copyUnits ht1) ht

theorem inv_signalAdd {s : State} {p : Packet} {a v : Nat} (h : s.Inv) : (s.signalAdd p a v).1.Inv := by
  unfold State.signalAdd
  dsimp only
  split
  · next he =>
      exact inv_fst he (inv_writePlaces h)
  · next he =>
      exact inv_send (inv_fst he (inv_writePlaces h))
  · next he =>
      split
      · next he1 =>
          exact inv_fst he1 (inv_readRun (inv_fst he (inv_writePlaces h)))
      · next he1 =>
          exact inv_writeRun (inv_fst he1 (inv_readRun (inv_fst he (inv_writePlaces h))))

theorem inv_signalWrite {s : State} {p : Packet} {fs : List PField} (h : s.Inv) : (s.signalWrite p fs).1.Inv := by
  unfold State.signalWrite
  dsimp only
  split
  · exact h
  · split
    · exact inv_writeRun h
    · exact inv_signalAdd h

theorem inv_signalRaise {s : State} {p : Packet} {fs : List PField} (h : s.Inv) : (s.signalRaise p fs).Inv := by
  unfold State.signalRaise
  dsimp only
  split
  · exact h
  · exact inv_send h

theorem inv_raiseHeld {s : State} {k : Nat} {p : Packet} (h : s.Inv) : (s.raiseHeld k p).Inv := by
  unfold State.raiseHeld
  split
  · exact inv_signalRaise (inv_updPacket h)
  · exact h

theorem inv_closePackets {s : State} (h : s.Inv) : s.closePackets.Inv := by
  unfold State.closePackets
  exact inv_foldl (fun _ _ ht => inv_foldl (fun _ _ ht1 => inv_closePacket (inv_raiseHeld ht1)) ht) h

theorem inv_packetFailed {s : State} {m : Msg} (h : s.Inv) : (s.packetFailed m).Inv := by
  unfold State.packetFailed
  dsimp only
  refine inv_foldl (fun _ _ ht => ?_) h
  split
  · exact inv_updPacket ht
  · exact ht

theorem keeps_execSignalPacket {queue : Nat} {s : State} (h : s.Inv) : (execSignalPacket queue s).Keeps := by
  unfold execSignalPacket
  refine keeps_startPacket h (fun _ _ _ _ ht ht1 => ?_)
  split
  · next he =>
      split
      · exact inv_updPacket (inv_closePacket (inv_fst he (inv_signalWrite ht1)))
      · exact inv_closePacket (inv_signalRaise (inv_fst he (inv_signalWrite ht1)))
  · next he =>
      exact inv_faulted (inv_fst he (inv_signalWrite ht1)) ht

theorem keeps_execTcaddArrival {msg : Nat} {s : State} (h : s.Inv) : (execTcaddArrival msg s).Keeps := by
  unfold execTcaddArrival
  dsimp only
  split
  · exact .next h
  · split
    · exact .next h
    · split
      · refine .next (inv_closePackets ?_)
        split
        · exact inv_cellDrop (inv_dropMsg h)
        · split
          · exact inv_cellDrop (inv_cellAlarm (inv_dropMsg h))
          · exact inv_raiseCell (inv_dropMsg h)
      · split
        · exact .next (inv_raiseCell (inv_dropMsg h))
        · exact .next (inv_cellDrop (inv_cellAlarm (inv_dropMsg h)))
      · exact .next h

theorem finds_msgEvent {s : State} {m : Msg} (h : s.Inv) : Finds Res.Keeps (s.msgEvent m) := by
  unfold State.msgEvent
  split
  · exact .none
  · split
    · split
      · exact .none
      · exact .some (keeps_execInvocationArrival h)
    · split
      · exact .none
      · exact .some (keeps_execDependentMessageAtHome h)
    · split
      · exact .none
      · exact .some (keeps_execDependentMessageAtHome h)
    · exact .some (keeps_execBindReport h)
    · split
      · exact .some (keeps_execResultPosted h)
      · exact .none
    · exact .some (keeps_execResultPosted h)
    · exact .some (keeps_execTcaddArrival h)
    · exact .some (keeps_execTcaddArrival h)
    · exact .some (.next (inv_answerHome h))
    · split
      · exact .none
      · exact .some (keeps_execRgetResultArrival h)
    · exact .none

end Sys2Proof.Machine
end

section
/-! O7, Launch: the canonical form of local memory is kept by launches and the dispatcher. -/

namespace Sys2Proof.Machine

theorem inv_configureGroup {s : State} {part : Nat} {r : Nat × Nat × Nat × Nat} (h : s.Inv) :
    (s.configureGroup part r).Inv := by
  unfold State.configureGroup
  dsimp only
  split
  · exact inv_updPart h
  · split
    · split
      · exact inv_setMask (inv_updPart h)
      · exact inv_send (inv_updPart h)
    · split
      · exact inv_setMask (inv_updPart h)
      · exact inv_send (inv_updPart h)

theorem inv_updLaunch {s : State} {id : Nat} {f : Launch → Launch} (h : s.Inv) : (s.updLaunch id f).Inv :=
  h.of_mem rfl

theorem inv_chosen {s : State} {die : Nat} {l : Launch} {cores : List Nat} (h : s.Inv) : (s.chosen die l cores).Inv :=
  h.of_mem rfl

theorem inv_charge {s : State} {die : Nat} {l : Launch} {cores : List Nat} (h : s.Inv) : (s.charge die l cores).Inv := by
  unfold State.charge
  exact inv_update (inv_updDie h)

theorem keeps_execDispatch {die : Nat} {s : State} (h : s.Inv) : (execDispatch die s).Keeps := by
  unfold execDispatch
  dsimp only
  split
  · exact .next h
  · refine .next ?_
    split
    · exact inv_chosen (inv_updDie (h.of_mem rfl))
    · exact inv_updDie (h.of_mem rfl)

theorem keeps_execHeadAgeing {die queue : Nat} {s : State} (h : s.Inv) : (execHeadAgeing die queue s).Keeps := by
  unfold execHeadAgeing
  refine .next ?_
  dsimp only
  split
  · exact h
  · split
    · exact inv_updLaunch h
    · split
      · exact inv_updDie (inv_updLaunch h)
      · exact inv_updLaunch h

theorem inv_reclaim {s : State} {core : Nat} {granules : List Nat} (h : s.Inv) : (s.reclaim core granules).Inv := by
  unfold State.reclaim
  refine inv_foldl (fun _ _ ht => ?_) h
  split
  · exact inv_flushLine ht
  · exact ht

theorem inv_zeroBarn {s : State} {core : Nat} {granules : List Nat} (h : s.Inv) : (s.zeroBarn core granules).Inv := by
  unfold State.zeroBarn
  exact inv_updCore (inv_drainInto h)

theorem inv_beginReclaim {s : State} {l : Launch} {cores : List Nat} (h : s.Inv) : (s.beginReclaim l cores).Inv := by
  unfold State.beginReclaim
  exact inv_foldl (fun _ _ ht => inv_updCore (inv_reclaim ht)) h

theorem inv_endReclaim {s : State} {cores : List Nat} (h : s.Inv) : (s.endReclaim cores).Inv := by
  unfold State.endReclaim
  exact inv_foldl (fun _ _ ht => inv_updCore ht) h

theorem inv_dropAdmission {s : State} {id : Nat} (h : s.Inv) : (s.dropAdmission id).Inv := by
  unfold State.dropAdmission
  split
  · split
    · exact inv_endReclaim (h.of_mem rfl)
    · exact h
  · exact h

theorem inv_joinRing {s : State} {core lg key : Nat} (h : s.Inv) : (s.joinRing core lg key).Inv := by
  unfold State.joinRing
  exact inv_updCore h

theorem inv_startGangs {l : Launch} {wid wgid first : Nat} {l1 : List (Nat × Nat)} {n : Nat} {s : State} (h : s.Inv) :
    (State.startGangs l wid wgid first l1 n s).Inv := by
  induction l1 generalizing n s with
  | nil =>
    unfold State.startGangs
    exact h
  | cons _ _ ih =>
    unfold State.startGangs
    exact ih (inv_fitRows (inv_joinRing (inv_setGangAt (inv_takeId h))))

theorem inv_admitOne {l : Launch} {wgid core nbhId : Nat} {nbh : Option Nat} {s : State} (h : s.Inv) :
    (State.admitOne l wgid core nbhId nbh s).Inv := by
  unfold State.admitOne
  exact inv_startGangs (inv_setWgAt (inv_takeId (inv_dropClean (inv_zeroBarn (inv_reclaim h)))))

theorem inv_admitAll {l : Launch} {l1 : List Nat} {n n1 : Nat} {s : State} (h : s.Inv) :
    (State.admitAll l l1 n n1 s).Inv := by
  induction l1 generalizing n n1 s with
  | nil =>
    unfold State.admitAll
    exact h
  | cons _ _ ih =>
    unfold State.admitAll
    dsimp only
    refine ih (inv_admitOne ?_)
    split
    · exact inv_takeId h
    · exact h

theorem inv_endReservation {s : State} {id : Nat} (h : s.Inv) : (s.endReservation id).Inv :=
  h.of_mem rfl

theorem keeps_execWorkgroupAdmission {launch : Nat} {cores : List Nat} {s : State} (h : s.Inv) :
    (execWorkgroupAdmission launch cores s).Keeps := by
  unfold execWorkgroupAdmission
  dsimp only
  split
  · exact .next h
  · split
    · exact .next h
    · split
      · exact .next (inv_dropAdmission h)
      · split
        · exact .next (inv_dropAdmission h)
        · split
          · exact .next (inv_beginReclaim h)
          · split
            · exact .next h
            · exact .next (inv_charge (inv_endReservation (inv_updLaunch (inv_admitAll (inv_dropAdmission h)))))

theorem inv_endLaunch {s : State} {l : Launch} {cause : Nat} {fatal : List Byte} (h : s.Inv) :
    (s.endLaunch l cause fatal).Inv := by
  unfold State.endLaunch
  dsimp only
  split
  · exact inv_endPacket (inv_endReservation (inv_dropAdmission (h.of_mem rfl)))
  · exact inv_endReservation (inv_dropAdmission (h.of_mem rfl))

theorem inv_raiseSuccessor {s : State} {l : Launch} (h : s.Inv) : (s.raiseSuccessor l).Inv := by
  unfold State.raiseSuccessor
  split
  · exact inv_raiseCell h
  · exact h

theorem inv_finishLaunch {s : State} {id : Nat} (h : s.Inv) : (s.finishLaunch id).Inv := by
  unfold State.finishLaunch
  split
  · exact h
  · split
    · refine inv_raiseSuccessor ?_
      split
      · exact inv_endLaunch h
      · exact inv_endLaunch h
      · exact inv_endLaunch h
    · exact h

theorem inv_orphanLines {s : State} {core slot : Nat} (h : s.Inv) : (s.orphanLines core slot).Inv := by
  unfold State.orphanLines
  exact inv_updCore h

theorem inv_freeWorkgroup {s : State} {wid : Nat} (h : s.Inv) : (s.freeWorkgroup wid).Inv := by
  unfold State.freeWorkgroup
  exact inv_update (inv_orphanLines (inv_foldl (fun _ _ ht => inv_freeTile ht) h))

theorem inv_retireWg {s : State} {wid : Nat} (h : s.Inv) : (s.retireWg wid).Inv := by
  unfold State.retireWg
  exact inv_updLaunch
    (inv_freeWorkgroup (inv_update (inv_foldl (fun _ _ ht => inv_breakExec ht) (inv_groupRetire (inv_releaseActs h)))))

theorem keeps_execWorkgroupRetirement {wid : Nat} {s : State} (h : s.Inv) : (execWorkgroupRetirement wid s).Keeps := by
  unfold execWorkgroupRetirement
  dsimp only
  split
  · refine .next ?_
    split
    · exact inv_finishLaunch (inv_retireWg h)
    · exact inv_releaseActs h
  · exact .next h

theorem inv_enterLaunch {s : State} {l : Launch} (h : s.Inv) : (s.enterLaunch l).Inv := by
  unfold State.enterLaunch
  exact inv_update (inv_foldl (fun _ _ ht => inv_configureGroup ht) h)

theorem keeps_execLaunchPacket {queue : Nat} {s : State} (h : s.Inv) : (execLaunchPacket queue s).Keeps := by
  unfold execLaunchPacket
  refine keeps_startPacket h (fun _ _ _ _ ht ht1 => ?_)
  dsimp only
  split
  · next he =>
      exact inv_faulted (inv_fst he (inv_readRun ht1)) ht
  · next he =>
      split
      · exact inv_endPacket (inv_takeId (inv_fst he (inv_readRun ht1)))
      · split
        · exact inv_endPacket (inv_takeId (inv_fst he (inv_readRun ht1)))
        · split
          · next he1 =>
              refine inv_faulted ?_ ht
              split at he1
              · exact inv_fst he1 (inv_takeId (inv_fst he (inv_readRun ht1)))
              · exact inv_fst he1 (inv_readRun (inv_takeId (inv_fst he (inv_readRun ht1))))
          · next he1 =>
              refine inv_updQueue (inv_enterLaunch ?_)
              split at he1
              · exact inv_fst he1 (inv_takeId (inv_fst he (inv_readRun ht1)))
              · exact inv_fst he1 (inv_readRun (inv_takeId (inv_fst he (inv_readRun ht1))))

end Sys2Proof.Machine
end

section
/-! O7, Plaquel: the canonical form of local memory is kept by native code. -/

namespace Sys2Proof.Machine

theorem inv_storeNative {s : State} {part : Nat} {x : PHeader} {b : List Byte} {digest : BitVec 256} (h : s.Inv) :
    (s.storeNative part x b digest).1.Inv := by
  unfold State.storeNative
  dsimp only
  exact inv_writeHomeList (inv_takeFresh (inv_takeFresh h))

theorem inv_cacheNative {s : State} {part : Nat} {n : Native} (h : s.Inv) : (s.cacheNative part n).Inv := by
  unfold State.cacheNative
  exact inv_updPart (h.of_mem rfl)

theorem inv_giveCode {s : State} {l : Launch} {n : Native} (h : s.Inv) : (s.giveCode l n).Inv := by
  unfold State.giveCode
  split
  · exact inv_endLaunch h
  · split
    · exact inv_endLaunch h
    · exact inv_updLaunch (inv_updPart h)

theorem inv_rereadImage {s back : State} {l : Launch} {e : IoErr} (h : s.Inv) (h1 : back.Inv) :
    (s.rereadImage back l e).Inv := by
  unfold State.rereadImage
  dsimp only
  split
  · exact inv_update h1
  · exact inv_endLaunch (inv_resolves h)

theorem inv_translateFor {s : State} {l : Launch} (h : s.Inv) : (s.translateFor l).Inv := by
  unfold State.translateFor
  dsimp only
  split
  · next he =>
      exact inv_rereadImage (inv_fst he (inv_readRun h)) h
  · next he =>
      split
      · exact inv_endLaunch (inv_fst he (inv_readRun h))
      · split
        · next he2 =>
            exact inv_rereadImage (inv_fst he2 (inv_readRun (inv_fst he (inv_readRun h)))) h
        · next he2 =>
            split
            · exact inv_giveCode (inv_updPart (inv_fst he2 (inv_readRun (inv_fst he (inv_readRun h)))))
            · split
              · exact inv_endLaunch (inv_fst he2 (inv_readRun (inv_fst he (inv_readRun h))))
              · exact inv_giveCode
                  (inv_updPart (inv_cacheNative (inv_storeNative (inv_fst he2 (inv_readRun (inv_fst he (inv_readRun h)))))))

theorem keeps_execPlaquelTranslation {launch : Nat} {s : State} (h : s.Inv) : (execPlaquelTranslation launch s).Keeps := by
  unfold execPlaquelTranslation
  refine .next ?_
  split
  · exact h
  · split
    · exact h
    · split
      · split
        · exact inv_giveCode (inv_updPart h)
        · exact inv_translateFor h
      · exact inv_translateFor h

end Sys2Proof.Machine
end

section
/-! O7, Partition: the canonical form of local memory is kept by partitions. -/

namespace Sys2Proof.Machine

theorem inv_stopQueue {s : State} {k : Nat} (h : s.Inv) : (s.stopQueue k).Inv := by
  unfold State.stopQueue
  exact inv_updQueue h

theorem inv_endRunning {s : State} {sel : Nat → Nat → Bool} {cause : Nat} (h : s.Inv) : (s.endRunning sel cause).Inv := by
  unfold State.endRunning
  exact inv_foldl (fun _ _ ht => inv_foldl (fun _ _ ht1 => inv_closePacket (inv_updPacket ht1)) ht) h

theorem inv_killWg {s : State} {wid : Nat} (h : s.Inv) : (s.killWg wid).Inv := by
  unfold State.killWg
  exact inv_endWorkgroup h

theorem inv_doomLaunches {s : State} {sel : Nat → Nat → Bool} {cause : Nat} (h : s.Inv) : (s.doomLaunches sel cause).Inv := by
  unfold State.doomLaunches
  exact inv_foldl (fun _ _ ht => inv_finishLaunch (inv_endReservation (inv_dropAdmission ht))) (h.of_mem rfl)

theorem inv_breakHeld {s : State} {x : DWord} (h : s.Inv) : (s.breakHeld x).Inv := by
  unfold State.breakHeld
  exact inv_foldl (fun _ _ ht => inv_breakHandle ht) (h.of_mem rfl)

theorem inv_dropSlot {s : State} {k : Nat} (h : s.Inv) : (s.dropSlot k).Inv := by
  unfold State.dropSlot
  dsimp only
  split
  · exact h
  · exact inv_foldl (fun _ _ ht => inv_breakHandle ht) (inv_breakHeld (inv_freeHandle (inv_acceptHandle h)))

theorem inv_breakService {s : State} {p : Nat} (h : s.Inv) : (s.breakService p).Inv := by
  unfold State.breakService
  exact inv_update (inv_foldl (fun _ _ ht => inv_breakHandle (inv_update ht)) (inv_foldl (fun _ _ ht => inv_breakExec ht) h))

theorem inv_flushPart {s : State} {p : Nat} (h : s.Inv) : (s.flushPart p).Inv := by
  unfold State.flushPart
  exact inv_foldl (fun _ _ ht => inv_foldl (fun _ _ ht1 => inv_flushLine ht1) ht) h

theorem inv_forgetChannels {s : State} {chs : List Nat} (h : s.Inv) : (s.forgetChannels chs).Inv :=
  memWf_filter _ _ h

theorem inv_dropSaved {s : State} {v : Saved} {cause : Nat} (h : s.Inv) : (s.dropSaved v cause).Inv := by
  unfold State.dropSaved
  exact inv_finishLaunch (inv_updLaunch (inv_update (inv_foldl (fun _ _ ht => inv_breakExec ht) (inv_settleGroups h))))

theorem inv_beginRemoval {s : State} {p : Nat} (h : s.Inv) : (s.beginRemoval p).Inv := by
  unfold State.beginRemoval
  exact inv_foldl (fun _ _ ht => inv_dropSlot ht)
    (inv_breakService
    (inv_foldl (fun _ _ ht => inv_dropSaved ht)
    (inv_doomLaunches
    (inv_foldl (fun _ _ ht => inv_killWg (inv_updWgAt ht)) (inv_foldl (fun _ _ ht => inv_stopQueue ht) h)))))

theorem inv_askRemoval {s : State} {op p pkt : Nat} (h : s.Inv) : (s.askRemoval op p pkt).Inv := by
  unfold State.askRemoval
  dsimp only
  refine inv_update ?_
  split
  · exact inv_beginRemoval h
  · exact h

theorem inv_endRemoval {s : State} {p : Nat} (h : s.Inv) : (s.endRemoval p).Inv := by
  unfold State.endRemoval
  dsimp only
  split
  · exact h
  · refine inv_updPart (inv_forgetChannels (inv_update (inv_endRunning (inv_foldl (fun _ _ ht => ?_) (inv_flushPart h)))))
    split
    · exact inv_endLaunch ht
    · exact inv_endLaunch ht

theorem inv_giveCells {s : State} {p first n : Nat} (h : s.Inv) : (s.giveCells p first n).Inv :=
  h.of_mem rfl

theorem inv_configurePart {s : State} {p : Nat} {fs : List PField} (h : s.Inv) : (s.configurePart p fs).Inv := by
  unfold State.configurePart
  exact inv_updPart (inv_putWindowList (inv_giveCells (inv_foldl (fun _ _ ht => inv_updCluster ht) (inv_forgetChannels h))))

theorem inv_beginTeardown {s : State} {pasid : Nat} (h : s.Inv) : (s.beginTeardown pasid).Inv := by
  unfold State.beginTeardown
  exact inv_foldl (fun _ _ ht => inv_dropSaved ht)
    (inv_endRunning
    (inv_doomLaunches
    (inv_foldl (fun _ _ ht => inv_killWg ht)
    (inv_foldl (fun _ _ ht => inv_breakExec ht) (inv_foldl (fun _ _ ht => inv_stopQueue ht) h)))))

theorem inv_tearEntry {s : State} {pasid pkt : Nat} (h : s.Inv) : (s.tearEntry pasid pkt).Inv := by
  unfold State.tearEntry
  exact inv_update (inv_startInval (inv_takeId (inv_writeHomeNum h)))

theorem inv_teardown {s : State} {pasid pkt : Nat} (h : s.Inv) : (s.teardown pasid pkt).Inv := by
  unfold State.teardown
  exact inv_update (inv_beginTeardown h)

theorem keeps_execTeardownComplete {pasid : Nat} {s : State} (h : s.Inv) : (execTeardownComplete pasid s).Keeps := by
  unfold execTeardownComplete
  dsimp only
  split
  · exact .next h
  · refine .next ?_
    split
    · exact inv_skipBad (inv_endPacket (h.of_mem rfl))
    · exact h.of_mem rfl

theorem keeps_partitionPacket {op k : Nat} {body : Nat → Packet → List PField → State → State} {s : State} (h : s.Inv)
    (hb : ∀ part p fs t, t.Inv → (body part p fs t).Inv) : (partitionPacket op k body s).Keeps := by
  unfold partitionPacket
  split
  · exact .next h
  · exact keeps_startPacket h (fun _ _ _ _ _ ht1 => hb _ _ _ _ ht1)

theorem inv_endAsked {s : State} {pkt : Nat} (h : s.Inv) : (s.endAsked pkt).Inv := by
  unfold State.endAsked
  dsimp only
  split
  · exact inv_skipBad (inv_endPacket h)
  · exact h

theorem inv_eraseKeys {s : State} : s.eraseKeys.Inv := memWf_reset

theorem inv_finishEnding {s : State} {e : Ending} (h : s.Inv) : (s.finishEnding e).Inv := by
  unfold State.finishEnding
  dsimp only
  split
  · exact inv_eraseKeys
  · refine inv_endAsked ?_
    split
    · exact inv_configurePart (inv_endRemoval (h.of_mem rfl))
    · exact inv_endRemoval (h.of_mem rfl)
  · exact inv_tearEntry (h.of_mem rfl)
  · exact inv_endAsked (inv_endRemoval (h.of_mem rfl))

theorem keeps_execPartitionConfigure {queue : Nat} {s : State} (h : s.Inv) : (execPartitionConfigure queue s).Keeps := by
  unfold execPartitionConfigure
  refine keeps_partitionPacket h (fun _ _ _ _ ht => ?_)
  split
  · exact inv_endPacket ht
  · split
    · exact inv_askRemoval ht
    · exact inv_endPacket (inv_configurePart ht)

theorem inv_onLivePart {s : State} {k part : Nat} {p : Packet} {body : State → State} (h : s.Inv)
    (hb : ∀ t, t.Inv → (body t).Inv) : (onLivePart s k part p body).Inv := by
  unfold onLivePart
  split
  · exact hb _ h
  · exact inv_endPacket h

theorem keeps_execPartitionRemove {queue : Nat} {s : State} (h : s.Inv) : (execPartitionRemove queue s).Keeps := by
  unfold execPartitionRemove
  exact keeps_partitionPacket h (fun _ _ _ _ ht => inv_onLivePart ht (fun _ ht1 => inv_askRemoval ht1))

theorem inv_writeDescriptor {s : State} {k : Nat} {d : List Byte} (h : s.Inv) : (s.writeDescriptor k d).Inv := by
  unfold State.writeDescriptor
  dsimp only
  split
  · exact inv_hearDoorbell (inv_reportRead (inv_updQueue h))
  · exact inv_reportRead (inv_updQueue h)

theorem keeps_execPartitionQueueDescriptor {queue : Nat} {s : State} (h : s.Inv) :
    (execPartitionQueueDescriptor queue s).Keeps := by
  unfold execPartitionQueueDescriptor
  refine keeps_partitionPacket h (fun _ _ _ _ ht => ?_)
  refine inv_onLivePart ht (fun _ ht1 => ?_)
  dsimp only
  split
  · exact inv_endPacket ht1
  · exact inv_endPacket (inv_writeDescriptor ht1)

theorem keeps_execPartitionTeardown {queue : Nat} {s : State} (h : s.Inv) : (execPartitionTeardown queue s).Keeps := by
  unfold execPartitionTeardown
  exact keeps_partitionPacket h (fun _ _ _ _ ht => inv_onLivePart ht (fun _ ht1 => inv_teardown ht1))

theorem keeps_execPartitionFlush {queue : Nat} {s : State} (h : s.Inv) : (execPartitionFlush queue s).Keeps := by
  unfold execPartitionFlush
  exact keeps_partitionPacket h (fun _ _ _ _ ht => inv_onLivePart ht (fun _ ht1 => inv_endPacket (inv_updPart ht1)))

theorem inv_carryAlarms {s : State} (h : s.Inv) : s.carryAlarms.Inv := by
  unfold State.carryAlarms
  dsimp only
  split
  · exact inv_update (inv_foldl (fun _ _ ht => inv_askRemoval ht) (h.of_mem rfl))
  · refine inv_foldl (fun _ _ ht => ?_) ?_
    · split
      · exact inv_teardown ht
      · exact ht
    · refine inv_foldl (fun _ _ ht => ?_) (h.of_mem rfl)
      split
      · exact inv_askRemoval ht
      · exact ht

end Sys2Proof.Machine
end

section
/-! O7, Preempt: the canonical form of local memory is kept by pre-emption. -/

namespace Sys2Proof.Machine

theorem inv_withdraw {s : State} {key : Nat} (h : s.Inv) : (s.withdraw key).Inv := by
  unfold State.withdraw
  exact inv_updGangAt (inv_update (inv_foldl (fun _ _ ht => inv_updGangAt ht) h))

theorem inv_renumber {s : State} {part old new : Nat} (h : s.Inv) : (s.renumber part old new).Inv :=
  h.of_mem rfl

theorem inv_vacate {s : State} {wid : Nat} (h : s.Inv) : (s.vacate wid).Inv := by
  unfold State.vacate
  exact inv_freeWorkgroup
    (inv_updCluster (inv_updCore (inv_foldl (fun _ _ ht => inv_dropWatches ht) (inv_updDie (h.of_mem rfl)))))

theorem inv_saveWorkgroup {s : State} {wid : Nat} {addr : DWord} (h : s.Inv) : (s.saveWorkgroup wid addr).Inv := by
  unfold State.saveWorkgroup
  exact inv_tfqWrite
    (inv_renumber
    (inv_update
    (inv_vacate
    (inv_writeHomeList
    (inv_takeId (inv_writeBackAll (inv_holdPlaces (inv_drainQueues (inv_foldl (fun _ _ ht => inv_withdraw ht) h)))))))))

theorem keeps_execPreemptionSave {wid : Nat} {s : State} (h : s.Inv) : (execPreemptionSave wid s).Keeps := by
  unfold execPreemptionSave
  refine .next ?_
  dsimp only
  split
  · split
    · split
      · exact inv_saveWorkgroup h
      · exact inv_writeBackAll h
    · exact h
  · exact h

theorem inv_reloadTile {s : State} {b : List Byte} {wid n : Nat} {t : Tile} {o : Nat} (h : s.Inv) :
    (s.reloadTile b wid n t o).1.Inv := by
  unfold State.reloadTile
  dsimp only
  split
  · exact inv_tileBankWrite (inv_giveTile h)
  · split
    · exact inv_sclWrite (inv_giveTile h)
    · exact inv_foldl (fun _ _ ht => inv_updCluster ht) (inv_giveTile h)

theorem inv_reloadTiles {b : List Byte} {wid : Nat} {l : List (Nat × Tile)} {x : Nat × Nat × Nat} {s : State} (h : s.Inv) :
    (State.reloadTiles b wid l x s).Inv := by
  induction l generalizing x s with
  | nil =>
    unfold State.reloadTiles
    exact h
  | cons _ _ ih =>
    unfold State.reloadTiles
    exact ih (inv_reloadTile h)

theorem inv_reloadGangs {b : List Byte} {wid first : Nat} {l : List SavedGang} {n : Nat} {s : State} (h : s.Inv) :
    (State.reloadGangs b wid first l n s).Inv := by
  induction l generalizing n s with
  | nil =>
    unfold State.reloadGangs
    exact h
  | cons _ _ ih =>
    unfold State.reloadGangs
    exact ih (inv_fitRows (inv_joinRing (inv_setGangAt (inv_takeId h))))

theorem inv_reloadEnded {s : State} {wid : Nat} {es : List (Nat × Nat × DWord)} (h : s.Inv) : (s.reloadEnded wid es).Inv := by
  unfold State.reloadEnded
  exact inv_foldl (fun _ _ ht => inv_setGangAt ht) h

theorem inv_reloadOps {cl wid : Nat} {l : List Mentry} {s : State} (h : s.Inv) : (State.reloadOps cl wid l s).Inv := by
  induction l generalizing s with
  | nil =>
    unfold State.reloadOps
    exact h
  | cons _ _ ih =>
    unfold State.reloadOps
    exact ih (inv_updCluster h)

theorem inv_reissueRget {s : State} {wid key : Nat} {e : Nat × Nat × Nat} {m : Option Msg} (h : s.Inv) :
    (s.reissueRget wid key e m).Inv := by
  unfold State.reissueRget
  exact inv_updGangAt (inv_send (inv_takeId h))

theorem inv_lateLists {s : State} {wid part : Nat} (h : s.Inv) : (s.lateLists wid part).Inv := by
  unfold State.lateLists
  refine inv_foldl (fun _ _ ht => ?_) h
  split
  · exact ht
  · refine inv_foldl (fun _ _ ht1 => ?_) ht
    split
    · split
      · exact inv_barnWrite ht1
      · exact ht1
    · exact ht1

theorem inv_restoreWorkgroup {s : State} {v : Saved} {core : Nat} (h : s.Inv) : (s.restoreWorkgroup v core).Inv := by
  unfold State.restoreWorkgroup
  dsimp only
  refine inv_foldl (fun _ _ ht => inv_foldl (fun _ _ ht1 => inv_reissueRget ht1) ht) ?_
  refine inv_lateLists (inv_renumber (inv_reloadOps (inv_updCore ?_)))
  split
  · exact inv_reloadGangs
      (inv_reloadEnded (inv_reloadTiles (inv_setWgAt (inv_update (inv_dropClean (inv_zeroBarn (inv_reclaim h)))))))
  · exact inv_updWgAt
      (inv_reloadGangs
      (inv_reloadEnded (inv_reloadTiles (inv_setWgAt (inv_update (inv_dropClean (inv_zeroBarn (inv_reclaim h))))))))

theorem keeps_execWorkgroupRestore {wid core : Nat} {s : State} (h : s.Inv) : (execWorkgroupRestore wid core s).Keeps := by
  unfold execWorkgroupRestore
  refine .next ?_
  dsimp only
  split
  · split
    · exact h
    · split
      · exact inv_restoreWorkgroup h
      · exact inv_reclaim h
  · exact h

end Sys2Proof.Machine
end

section
/-! O7, Fabric: the canonical form of local memory is kept by the fabric and the host. -/

namespace Sys2Proof.Machine

theorem inv_setRoute {s : State} {d mask : Nat} (h : s.Inv) : (s.setRoute d mask).Inv := by
  unfold State.setRoute
  exact inv_putWindow (h.of_mem rfl)

theorem inv_linkDown {s : State} {l : Nat} (h : s.Inv) : (s.linkDown l).Inv := by
  unfold State.linkDown
  dsimp only
  refine inv_foldl (fun _ _ ht => ?_) (inv_updLink h)
  split
  · exact inv_setRoute ht
  · exact ht

theorem inv_linkUp {s : State} {l far : Nat} (h : s.Inv) : (s.linkUp l far).Inv := by
  unfold State.linkUp
  dsimp only
  split
  · exact inv_updLink h
  · exact inv_setRoute (inv_updLink h)

theorem inv_logEvent {s : State} {kind : Nat} {data : List Byte} (h : s.Inv) : (s.logEvent kind data).Inv := by
  unfold State.logEvent
  exact inv_putWindowList (h.of_mem rfl)

theorem keeps_execLinkRecalibration {link : Nat} {far : Option Nat} {s : State} (h : s.Inv) :
    (execLinkRecalibration link far s).Keeps := by
  unfold execLinkRecalibration
  refine .next ?_
  split
  · exact h
  · split
    · exact inv_linkUp h
    · exact inv_logEvent (inv_linkDown h)

theorem keeps_execHeldMessageRelease {link : Nat} {s : State} (h : s.Inv) : (execHeldMessageRelease link s).Keeps := by
  unfold execHeldMessageRelease
  dsimp only
  refine .next ?_
  split
  · exact h
  · exact inv_updLink (h.of_mem rfl)

theorem inv_poisonLane {s : State} {m : Msg} {cause : Nat} {regs : List Nat} (h : s.Inv) :
    (s.poisonLane m cause regs).Inv := by
  unfold State.poisonLane
  dsimp only
  split
  · exact inv_reportPoison h
  · exact inv_updGang h

theorem inv_fillFrom {s : State} {m : Msg} {code : Nat} {page : Page} {keep : Bool} {bs : List Byte} (h : s.Inv) :
    (s.fillFrom m code page keep bs).Inv := by
  unfold State.fillFrom
  split
  · exact inv_l1FillFar h
  · exact h

theorem inv_laneValue {s : State} {m : Msg} {ok : Bool} {bs : List Byte} (h : s.Inv) : (s.laneValue m ok bs).Inv := by
  unfold State.laneValue
  dsimp only
  split
  · split
    · exact inv_updGang h
    · exact h
  · split
    · refine inv_updGang ?_
      split
      · exact inv_fillFrom h
      · exact h
    · split
      · exact inv_fillFrom h
      · exact h
  · exact inv_updGang h
  · split
    · split
      · split
        · refine inv_updGang ?_
          split
          · exact inv_updGang h
          · exact h
        · split
          · exact inv_updGang h
          · exact h
      · split
        · refine inv_updGang ?_
          split
          · exact inv_updGang h
          · exact h
        · split
          · exact inv_updGang h
          · exact h
    · split
      · split
        · refine inv_updGang ?_
          split
          · exact inv_updGang h
          · exact h
        · split
          · exact inv_updGang h
          · exact h
      · split
        · refine inv_updGang ?_
          split
          · exact inv_updGang h
          · exact h
        · split
          · exact inv_updGang h
          · exact h
  · exact h

theorem inv_noteReport {s : State} {dev cause : Nat} {n : StoreNote} (h : s.Inv) : (s.noteReport dev cause n).Inv := by
  unfold State.noteReport
  exact inv_updGangAt h

theorem inv_engineAnswer {s : State} {m : Msg} {status : Nat} (h : s.Inv) : (s.engineAnswer m status).Inv := by
  unfold State.engineAnswer
  dsimp only
  refine inv_closePackets ?_
  split
  · refine inv_foldl (fun _ _ ht => ?_) h
    split
    · exact inv_cmdAnswer ht
    · exact ht
  · refine inv_packetFailed (inv_update (inv_foldl (fun _ _ ht => ?_) h))
    split
    · exact inv_cmdAnswer ht
    · exact ht

theorem inv_laneDone {s : State} {m : Msg} {status : Nat} {bs : List Byte} (h : s.Inv) : (s.laneDone m status bs).Inv := by
  unfold State.laneDone
  dsimp only
  split
  · exact h
  · refine inv_update (inv_settle ?_)
    split
    · exact inv_updGang (inv_laneValue (h.of_mem rfl))
    · exact inv_poisonLane (inv_updGang (inv_laneValue (h.of_mem rfl)))

theorem inv_completeMsg {s : State} {m : Msg} {status : Nat} {bs : List Byte} (h : s.Inv) :
    (s.completeMsg m status bs).Inv := by
  unfold State.completeMsg
  dsimp only
  split
  · exact inv_mirrorHeard (inv_dropMsg h)
  · split
    · exact inv_homeAnswered (inv_dropMsg h)
    · exact inv_dropMsg h
  · split
    · exact inv_dropMsg h
    · split
      · exact inv_fetchResult (inv_dropMsg h)
      · exact inv_endsRget (inv_dropMsg h)
  · exact inv_update (inv_dropMsg h)
  · split
    · split
      · exact inv_dropMsg h
      · exact inv_foldl (fun _ _ ht => inv_noteReport ht) (inv_dropMsg h)
    · refine inv_settle ?_
      split
      · exact inv_dropMsg h
      · exact inv_foldl (fun _ _ ht => inv_noteReport ht) (inv_dropMsg h)
  · split
    · exact inv_dropMsg h
    · split
      · exact inv_fillFrom (inv_dropMsg h)
      · split
        · exact inv_updGangAt (inv_dropMsg h)
        · exact inv_dropMsg h
  · split
    · exact inv_update (inv_dropMsg h)
    · split
      · exact inv_closePackets (inv_dropMsg h)
      · split
        · exact inv_engineAnswer (inv_dropMsg h)
        · split
          · exact inv_laneDone (inv_dropMsg h)
          · exact inv_dropMsg h

theorem keeps_execInitiatorTimeout {msg : Nat} {s : State} (h : s.Inv) : (execInitiatorTimeout msg s).Keeps := by
  unfold execInitiatorTimeout
  refine .next ?_
  split
  · split
    · exact inv_completeMsg h
    · exact h
  · exact h

theorem inv_complete {s : State} {dst tag status data : Nat} (h : s.Inv) : (s.complete dst tag status data).Inv := by
  unfold State.complete
  exact inv_send h

theorem inv_hostAlarm {s : State} {owner : Option Nat} {addr src need : Nat} (h : s.Inv) :
    (s.hostAlarm owner addr src need).Inv := by
  unfold State.hostAlarm
  dsimp only
  split
  · split
    · exact inv_update (inv_logSecurity h)
    · exact inv_logSecurity h
  · split
    · exact inv_update (inv_logSecurity h)
    · exact inv_logSecurity h

theorem inv_poisonInbound {s : State} {x : Inbound} {cause : Nat} (h : s.Inv) : (s.poisonInbound x cause).Inv := by
  unfold State.poisonInbound
  dsimp only
  refine inv_complete ?_
  split
  · exact inv_inflog h
  · split
    · exact inv_hostAlarm (inv_inflog h)
    · exact inv_peerAlarm (inv_inflog h)

theorem inv_writeMasked {s : State} {line : Nat} {mask : BitVec 128} {bytes : Nat} (h : s.Inv) :
    (s.writeMasked line mask bytes).Inv := by
  unfold State.writeMasked
  exact inv_fireWatches (memWf_mergeDirty _ _ _ _ h)

theorem inv_performInbound {s : State} {x : Inbound} (h : s.Inv) : (s.performInbound x).1.Inv := by
  unfold State.performInbound
  dsimp only
  split
  · exact h
  · split
    · exact inv_enterWatch h
    · split
      · exact inv_writeMasked h
      · split
        · exact inv_writeHomeNum h
        · exact inv_writeHomeNum h

theorem inv_serve {s : State} {x : Inbound} (h : s.Inv) : (s.serve x).Inv := by
  unfold State.serve
  dsimp only
  split
  · exact inv_poisonInbound h
  · exact inv_complete (inv_performInbound h)

theorem keeps_execInboundAccess {src spart pasid kind addr size data : Nat} {s : State} (h : s.Inv) :
    (execInboundAccess src spart pasid kind addr size data s).Keeps := by
  unfold execInboundAccess
  refine .next ?_
  split
  · exact inv_serve (h.of_mem rfl)
  · exact inv_serve h

theorem keeps_execInboundTimeout {id : Nat} {s : State} (h : s.Inv) : (execInboundTimeout id s).Keeps := by
  unfold execInboundTimeout
  refine .next ?_
  split
  · exact inv_poisonInbound (h.of_mem rfl)
  · exact h

theorem inv_pointReached {s : State} (h : s.Inv) : s.pointReached.Inv := by
  unfold State.pointReached
  exact inv_logEvent (h.of_mem rfl)

theorem inv_startStep {s : State} {f v : Nat} (h : s.Inv) : (s.startStep f v).Inv := by
  unfold State.startStep
  dsimp only
  split
  · exact inv_pointReached (h.of_mem rfl)
  · split
    · exact h.of_mem rfl
    · split
      · exact h.of_mem rfl
      · split
        · exact h.of_mem rfl
        · exact h.of_mem rfl

theorem inv_endStep {s : State} (h : s.Inv) : s.endStep.Inv := by
  unfold State.endStep
  dsimp only
  split
  · split
    · exact inv_pointReached h
    · exact inv_startStep (inv_update (inv_pointReached h))
  · exact inv_pointReached h

theorem inv_dvfsReq {s : State} {value : Word} (h : s.Inv) : (s.dvfsReq value).Inv := by
  unfold State.dvfsReq
  dsimp only
  split
  · exact inv_logEvent (h.of_mem rfl)
  · split
    · exact inv_logEvent (h.of_mem rfl)
    · split
      · exact h.of_mem rfl
      · split
        · exact h.of_mem rfl
        · exact inv_startStep (h.of_mem rfl)

theorem inv_windowPut {s : State} {off : Nat} {b : Byte} (h : s.Inv) : (s.windowPut off b).Inv := by
  unfold State.windowPut
  dsimp only
  split
  · exact h.of_mem rfl
  · split
    · exact inv_update (inv_setRoute h)
    · exact h

theorem inv_startCommit {s : State} {part : Nat} (h : s.Inv) : (s.startCommit part).Inv := by
  unfold State.startCommit
  split
  · exact h
  · exact inv_putWindow (h.of_mem rfl)

theorem inv_setPowerCap {s : State} {n : Nat} (h : s.Inv) : (s.setPowerCap n).Inv := by
  unfold State.setPowerCap
  dsimp only
  split
  · exact inv_update (inv_putWindow h)
  · exact h

theorem inv_windowWrite {s : State} {off n : Nat} {x : DWord} (h : s.Inv) : (s.windowWrite off n x).Inv := by
  unfold State.windowWrite
  dsimp only
  split
  · refine inv_setPowerCap ?_
    split
    · refine inv_dvfsReq ?_
      split
      · exact inv_startCommit (inv_foldl (fun _ _ ht => inv_windowPut ht) h)
      · exact inv_foldl (fun _ _ ht => inv_windowPut ht) h
    · split
      · exact inv_startCommit (inv_foldl (fun _ _ ht => inv_windowPut ht) h)
      · exact inv_foldl (fun _ _ ht => inv_windowPut ht) h
  · split
    · refine inv_dvfsReq ?_
      split
      · exact inv_startCommit (inv_foldl (fun _ _ ht => inv_windowPut ht) h)
      · exact inv_foldl (fun _ _ ht => inv_windowPut ht) h
    · split
      · exact inv_startCommit (inv_foldl (fun _ _ ht => inv_windowPut ht) h)
      · exact inv_foldl (fun _ _ ht => inv_windowPut ht) h

theorem inv_commitPolicy {s : State} {part : Nat} (h : s.Inv) : (s.commitPolicy part).Inv := by
  unfold State.commitPolicy
  dsimp only
  split
  · exact h
  · split
    · exact inv_updPart (inv_putWindow (h.of_mem rfl))
    · exact inv_putWindow (h.of_mem rfl)

theorem inv_windowHost {s : State} {off n : Nat} {value : Option DWord} (h : s.Inv) : (s.windowHost off n value).1.Inv := by
  unfold State.windowHost
  dsimp only
  split
  · exact h
  · dsimp only
    split
    · exact inv_hearDoorbell (inv_windowWrite h)
    · exact inv_windowWrite h

theorem inv_windowAccess {s : State} {fn off n : Nat} {value : Option DWord} (h : s.Inv) :
    (s.windowAccess fn off n value).Inv := by
  unfold State.windowAccess
  dsimp only
  split
  · exact h
  · split
    · exact inv_update (inv_windowHost h)
    · exact inv_send (h.of_mem rfl)

theorem inv_sealedAccess {s : State} {fn off n : Nat} {x : DWord} {key : Nat} {tag : List Byte} (h : s.Inv) :
    (s.sealedAccess fn off n x key tag).Inv := by
  unfold State.sealedAccess
  dsimp only
  split
  · exact h
  · split
    · split
      · exact inv_update (inv_windowHost h)
      · exact h.of_mem rfl
    · exact inv_send (h.of_mem rfl)

theorem inv_windowAnswer {s : State} {m : Msg} {off n : Nat} {value : Option DWord} (h : s.Inv) :
    (s.windowAnswer m off n value).Inv := by
  unfold State.windowAnswer
  dsimp only
  split
  · exact inv_complete h
  · split
    · exact inv_complete h
    · exact inv_complete (inv_windowHost h)

theorem inv_answered {s : State} {x : DWord} (h : s.Inv) : (s.answered x).Inv :=
  h.of_mem rfl

theorem inv_groupNoticed {s : State} {part gid : Nat} {block : List Byte} (h : s.Inv) :
    (s.groupNoticed part gid block).Inv := by
  unfold State.groupNoticed
  exact inv_endGeneration (inv_giveLists h)

theorem inv_deviceArrived {s : State} {part gid src : Nat} {block : List Byte} (h : s.Inv) :
    (s.deviceArrived part gid src block).Inv := by
  unfold State.deviceArrived
  exact inv_updGroup h

theorem inv_wakeFar {s : State} {id code : Nat} (h : s.Inv) : (s.wakeFar id code).Inv := by
  unfold State.wakeFar
  exact inv_foldl (fun _ _ ht => inv_updGangAt ht) h

theorem inv_takeMsg {s : State} {m : Msg} (h : s.Inv) : (s.takeMsg m).Inv := by
  unfold State.takeMsg
  dsimp only
  split
  · split
    · exact inv_acceptHandle (inv_answered h)
    · exact inv_answered h
  · refine inv_freeResult ?_
    split
    · exact inv_deliverHeld h
    · exact inv_breakHeld h
  · exact inv_resultRecorded h
  · exact inv_wakeFar h
  · exact inv_answerMirror h
  · exact inv_windowAnswer h
  · exact inv_deviceArrived h
  · exact inv_groupNoticed h
  · split
    · exact inv_setMask h
    · exact h
  · refine inv_update ?_
    split
    · exact inv_answered (inv_takeId h)
    · exact inv_answered (inv_takeId h)
    · exact inv_answered (inv_takeId h)
    · exact inv_takeId h

theorem inv_takeAccess {s : State} {x : LumenHeader} {p : List Byte} (h : s.Inv) : (s.takeAccess x p).Inv := by
  unfold State.takeAccess
  exact inv_update (inv_takeId h)

theorem inv_refuseBlocked {s : State} {m : Msg} (h : s.Inv) : (s.refuseBlocked m).Inv := by
  unfold State.refuseBlocked
  split
  · exact inv_breakHandle h
  · exact inv_breakHandle h
  · exact inv_breakHandle h
  · exact h

theorem keeps_execLumenMessageReceive {link : Nat} {crcOk : Bool} {header : DWord} {payload : List Byte} {s : State}
    (h : s.Inv) :
    (execLumenMessageReceive link crcOk header payload s).Keeps := by
  unfold execLumenMessageReceive
  dsimp only
  split
  · exact .next h
  · split
    · refine .next ?_
      split
      · exact inv_linkDown h
      · exact inv_updLink h
    · split
      · exact .next (inv_logSecurity (inv_updLink h))
      · split
        · exact .next (inv_takeAccess (inv_updLink h))
        · split
          · refine .next ?_
            split
            · split
              · exact inv_completeMsg (inv_updLink h)
              · exact inv_updLink h
            · exact inv_updLink h
          · split
            · exact .next (inv_refuseBlocked (inv_updLink h))
            · exact .next (inv_takeMsg (inv_updLink h))

theorem inv_hostAccess {s : State} {write : Bool} {addr size data : Nat} (h : s.Inv) :
    (s.hostAccess write addr size data).Inv := by
  unfold State.hostAccess
  dsimp only
  split
  · exact h.of_mem rfl
  · split
    · split
      · exact inv_update (inv_hostAlarm h)
      · exact inv_update (inv_writeHomeNum h)
    · split
      · exact inv_update (inv_hostAlarm h)
      · split
        · split
          · exact h.of_mem rfl
          · exact h.of_mem rfl
        · split
          · exact h.of_mem rfl
          · exact h.of_mem rfl

theorem keeps_execHostBar0Access {write : Bool} {place size data : Nat} {s : State} (h : s.Inv) :
    (execHostBar0Access write place size data s).Keeps := by
  unfold execHostBar0Access
  dsimp only
  refine .next ?_
  split
  · exact h
  · split
    · exact inv_hostAccess h
    · split
      · exact h.of_mem rfl
      · exact inv_send (h.of_mem rfl)

theorem keeps_execRegisterWrite {window : Bool} {die number : Nat} {value : DWord} {s : State} (h : s.Inv) :
    (execRegisterWrite window die number value s).Keeps := by
  unfold execRegisterWrite
  refine .next ?_
  split
  · exact inv_windowWrite h
  · split
    · exact h
    · exact inv_setSysReg h

theorem keeps_execPolicyCommit {part : Nat} {s : State} (h : s.Inv) : (execPolicyCommit part s).Keeps := by
  unfold execPolicyCommit
  exact .next (inv_commitPolicy h)

theorem keeps_execAttestationRequest {nonce : List Byte} {key : Option (List Byte)} {s : State} (h : s.Inv) :
    (execAttestationRequest nonce key s).Keeps := by
  unfold execAttestationRequest
  dsimp only
  split
  · exact .next h
  · refine .next ?_
    split
    · exact inv_update (inv_putWindowList (inv_update (inv_takeFresh h)))
    · exact inv_putWindowList (inv_update (inv_takeFresh h))

theorem inv_bootLoader {s : State} {ok : Bool} (h : s.Inv) : (s.bootLoader ok).Inv := by
  unfold State.bootLoader
  split
  · exact h
  · exact inv_putWindow (h.of_mem rfl)

theorem keeps_execDeviceReset {pins : Nat} {bridge : Bool} {s : State} (h : s.Inv) :
    (execDeviceReset pins bridge s).Keeps := by
  unfold execDeviceReset
  dsimp only
  split
  · exact .next h
  · refine .next (inv_bootLoader (inv_foldl (fun _ _ ht => ?_) (inv_update inv_reset)))
    split
    · exact inv_linkUp ht
    · exact ht

end Sys2Proof.Machine
end

section
/-! O7, Housekeeping: the canonical form of local memory is kept by power and background activity. -/

namespace Sys2Proof.Machine

theorem keeps_execClockSwitchEnd {s : State} (h : s.Inv) : (execClockSwitchEnd s).Keeps := by
  unfold execClockSwitchEnd
  dsimp only
  refine .next ?_
  split
  · exact h
  · split
    · exact h.of_mem rfl
    · exact inv_endStep (h.of_mem rfl)

theorem keeps_execVoltageSlewEnd {s : State} (h : s.Inv) : (execVoltageSlewEnd s).Keeps := by
  unfold execVoltageSlewEnd
  dsimp only
  refine .next ?_
  split
  · exact h.of_mem rfl
  · split
    · exact inv_endStep (h.of_mem rfl)
    · exact h

theorem keeps_execDvfsReq {value : Word} {s : State} (h : s.Inv) : (execDvfsReq value s).Keeps := by
  unfold execDvfsReq
  exact .next (inv_dvfsReq h)

theorem keeps_execThermalThrottle {die temp : Nat} {s : State} (h : s.Inv) : (execThermalThrottle die temp s).Keeps := by
  unfold execThermalThrottle
  refine .next ?_
  dsimp only
  split
  · exact h
  · exact inv_startStep (inv_logEvent (h.of_mem rfl))

theorem keeps_execThrottleEnd {s : State} (h : s.Inv) : (execThrottleEnd s).Keeps := by
  unfold execThrottleEnd
  dsimp only
  refine .next ?_
  split
  · exact h
  · split
    · exact h.of_mem rfl
    · exact inv_startStep (h.of_mem rfl)

theorem keeps_execThermalShutdown {die temp : Nat} {s : State} (h : s.Inv) : (execThermalShutdown die temp s).Keeps := by
  unfold execThermalShutdown
  refine .next ?_
  dsimp only
  split
  · exact h
  · exact inv_logEvent (h.of_mem rfl)

theorem keeps_execPowerCapStep {average : Nat} {s : State} (h : s.Inv) : (execPowerCapStep average s).Keeps := by
  unfold execPowerCapStep
  dsimp only
  refine .next ?_
  split
  · exact h
  · split
    · split
      · exact h
      · exact inv_startStep (h.of_mem rfl)
    · split
      · split
        · exact inv_startStep (h.of_mem rfl)
        · exact inv_startStep (h.of_mem rfl)
      · exact h

theorem inv_rowCorrected {s : State} {line : Nat} (h : s.Inv) : (s.rowCorrected line).Inv := by
  unfold State.rowCorrected
  dsimp only
  split
  · exact h.of_mem rfl
  · split
    · exact inv_logEvent (h.of_mem rfl)
    · exact inv_logEvent (h.of_mem rfl)

theorem inv_countScrub {s : State} {stack : Nat} (h : s.Inv) : (s.countScrub stack).Inv := by
  unfold State.countScrub
  dsimp only
  split
  · exact h.of_mem rfl
  · exact h.of_mem rfl

theorem keeps_execPatrolScrub {line verdict : Nat} {s : State} (h : s.Inv) : (execPatrolScrub line verdict s).Keeps := by
  unfold execPatrolScrub
  dsimp only
  split
  · exact .next h
  · refine .next ?_
    split
    · exact inv_rowCorrected (inv_countScrub h)
    · split
      · exact inv_logEvent (inv_update (inv_countScrub h))
      · exact inv_countScrub h

theorem keeps_execRowActivationRefresh {_row : Nat} {s : State} (h : s.Inv) : (execRowActivationRefresh _row s).Keeps := by
  unfold execRowActivationRefresh
  exact .next h

theorem inv_payloadError {s : State} {pasid : Nat} {line : Option Nat} (h : s.Inv) : (s.payloadError pasid line).Inv := by
  unfold State.payloadError
  dsimp only
  refine inv_update ?_
  split
  · split
    · exact h
    · exact h.of_mem rfl
  · exact h

theorem keeps_execMeshFlitError {header : Bool} {die pasid : Nat} {found : List Nat} {s : State} (h : s.Inv) :
    (execMeshFlitError header die pasid found s).Keeps := by
  unfold execMeshFlitError
  refine .next ?_
  split
  · exact inv_payloadError h
  · split
    · exact inv_askRemoval h
    · exact inv_foldl (fun _ _ ht => inv_askRemoval ht) h

theorem keeps_execTelemetrySample {power inlet hot : Nat} {s : State} (h : s.Inv) :
    (execTelemetrySample power inlet hot s).Keeps := by
  unfold execTelemetrySample
  exact .next (inv_putWindow (inv_update (inv_putWindowList h)))

end Sys2Proof.Machine
end

section
/-! O7, Sprinter: the canonical form of local memory is kept by the sprinter. -/

namespace Sys2Proof.Machine

theorem inv_updSeat {s : State} {core lg : Nat} {f : Seat → Seat} (h : s.Inv) : (s.updSeat core lg f).Inv := by
  unfold State.updSeat
  exact inv_updCore h

theorem inv_renameWord {s : State} {core lg group : Nat} {pc : PcVal} {modes : List Word} {word : Word} (h : s.Inv) :
    (s.renameWord core lg group pc modes word).Inv := by
  unfold State.renameWord
  split
  · exact inv_updSeat h
  · exact h

theorem inv_squashAll {s : State} {key : Nat} (h : s.Inv) : (s.squashAll key).Inv := by
  unfold State.squashAll
  dsimp only
  split
  · exact inv_updSeat h
  · exact h

theorem inv_retireHead {s : State} {key : Nat} (h : s.Inv) : (s.retireHead key).Inv := by
  unfold State.retireHead
  dsimp only
  split
  · exact h
  · split
    · exact h
    · exact inv_updSeat (inv_updGangAt h)

theorem inv_atEntry {s : State} {key : Nat} {e : Renamed} (h : s.Inv) : (s.atEntry key e).Inv := by
  unfold State.atEntry
  exact inv_updGangAt (h.of_mem rfl)

theorem inv_enterWindow {s : State} {key : Nat} {word : Word} (h : s.Inv) : (s.enterWindow key word).Inv := by
  unfold State.enterWindow
  dsimp only
  split
  · exact h
  · split
    · exact inv_renameWord h
    · split
      · exact h
      · exact inv_renameWord (inv_squashAll h)

theorem finds_pastEntry {run : State → Word → Res} {key : Nat} {p : State × List Side} {e : Renamed} {next : Option PcVal}
    (hrun : ∀ t w, t.Inv → (run t w).Keeps) (h : p.1.Inv) :
    Finds (fun r => r.1.Inv) (State.pastEntry run key p e next) := by
  unfold State.pastEntry
  dsimp only
  split
  · exact .none
  · split
    · exact .none
    · split
      · split
        · exact .some (inv_updGangAt (inv_atEntry h))
        · exact finds_map (fun _ => inv_setGangAt (inv_atEntry h))
      · split
        · next he3 =>
            split
            · exact .some (inv_updGangAt ((hrun _ _ (inv_atEntry h)).inv he3))
            · exact finds_map (fun _ => inv_setGangAt (inv_atEntry h))
        · exact finds_map (fun _ => inv_setGangAt (inv_atEntry h))
      · exact finds_map (fun _ => inv_setGangAt (inv_atEntry h))

theorem finds_pastEntries {run : State → Word → Res} {key : Nat} {rest : List (Nat × PcVal)} {l : List Renamed}
    {p : State × List Side} (hrun : ∀ t w, t.Inv → (run t w).Keeps) (h : p.1.Inv) :
    Finds (fun r => r.1.Inv) (State.pastEntries run key rest l p) := by
  induction l generalizing p with
  | nil => exact .some h
  | cons e es ih => exact finds_bind (finds_pastEntry hrun h) (fun _ hp => ih hp)

theorem inv_rename {run : State → Word → Res} {s : State} {core lg group : Nat} {pc : PcVal} (h : s.Inv) :
    (State.rename run s core lg group pc).Inv := by
  unfold State.rename
  dsimp only
  split
  · exact h
  · split
    · exact h
    · split
      · exact inv_renameWord h
      · exact h

theorem finds_loadRun {x : Instr} {s : State} (h : s.Inv) : Finds Res.Keeps (loadRun x s) := by
  unfold loadRun
  split
  · exact .some (keeps_execLdb h)
  · exact .some (keeps_execLdbs h)
  · exact .some (keeps_execLdh h)
  · exact .some (keeps_execLdhs h)
  · exact .some (keeps_execLdw h)
  · exact .some (keeps_execLdd h)
  · exact .some (keeps_execLdq h)
  · exact .some (keeps_execXrst h)
  · exact .none

theorem inv_fetchLines {s : State} {ps : List (Place × Nat)} (h : s.Inv) : (s.fetchLines ps).Inv := by
  unfold State.fetchLines
  refine inv_foldl (fun _ _ ht => ?_) h
  split
  · split
    · split
      · exact inv_prefetchFar ht
      · exact ht
    · exact ht
  · exact ht

theorem inv_leaving {s v : State} (h : v.Inv) : (s.leaving v).Inv := by
  unfold State.leaving
  exact h.of_mem rfl

theorem inv_updEntry {s : State} {core lg i : Nat} {f : Renamed → Renamed} (h : s.Inv) : (s.updEntry core lg i f).Inv := by
  unfold State.updEntry
  exact inv_updSeat h

theorem finds_dispatchLoad {run : State → Word → Res} {s : State} {core lg i key : Nat} {e : Renamed} {j : Instr} {t : State}
    (hrun : ∀ t w, t.Inv → (run t w).Keeps) (h : s.Inv) : Finds State.Inv (State.dispatchLoad run s core lg i key e j t) := by
  unfold State.dispatchLoad
  dsimp only
  split
  · exact .none
  · split
    · exact .none
    · split
      · exact .none
      · split
        · next he2 =>
            split
            · exact .some (inv_updEntry (inv_leaving ((hrun _ _ (inv_atEntry (inv_setGangAt h))).inv he2)))
            · split
              · exact .some (inv_updEntry (inv_leaving (inv_fetchLines (inv_atEntry (inv_setGangAt h)))))
              · exact .none
        · exact .none

theorem finds_dispatchEntry {run : State → Word → Res} {s : State} {core lg i : Nat}
    (hrun : ∀ t w, t.Inv → (run t w).Keeps) (h : s.Inv) : Finds State.Inv (State.dispatchEntry run s core lg i) := by
  unfold State.dispatchEntry
  dsimp only
  split
  · split
    · exact .none
    · split
      · exact .none
      · split
        · exact .none
        · split
          · exact finds_dispatchLoad (fun _ _ ht => hrun _ _ ht) h
          · split
            · split
              · exact .none
              · exact .some (inv_updSeat (inv_updEntry h))
            · exact .none
          · exact .none
  · exact .none

theorem finds_dispatchOldest {run : State → Word → Res} {s : State} {core lg i : Nat}
    (hrun : ∀ t w, t.Inv → (run t w).Keeps) (h : s.Inv) : Finds State.Inv (State.dispatchOldest run s core lg i) := by
  unfold State.dispatchOldest
  split
  · exact .none
  · exact finds_dispatchEntry (fun _ _ ht => hrun _ _ ht) h

theorem inv_unfocus {t s : State} (h : t.Inv) : (t.unfocus s).Inv :=
  h.of_mem rfl

theorem inv_giveHead {s : State} {key : Nat} {i : Instr} {vals : List (Nat × DWord)} (h : s.Inv) :
    (s.giveHead key i vals).Inv := by
  unfold State.giveHead
  split
  · split
    · exact inv_restoreGroup h
    · exact h
  · exact inv_updGangAt h

theorem finds_rereadHead {s : State} {key : Nat} (h : s.Inv) : Finds State.Inv (s.rereadHead key) := by
  unfold State.rereadHead
  dsimp only
  split
  · exact .none
  · split
    · split
      · exact .none
      · split
        · exact .some (inv_unfocus (inv_retireHead (inv_updGangAt (inv_atEntry h))))
        · next he3 =>
            split
            · exact .none
            · split
              · exact .some
                  (inv_unfocus (inv_retireHead (inv_giveHead (((finds_loadRun (inv_atEntry h)).of_some he3).inv rfl))))
              · exact .some (inv_update (inv_updSeat (inv_squashAll h)))
        · exact .some (inv_update (inv_updSeat (inv_squashAll h)))
    · exact .none

theorem finds_retireRun {run : State → Word → Res} {s : State} {core lg : Nat}
    (hrun : ∀ t w, t.Inv → (run t w).Keeps) (h : s.Inv) : Finds State.Inv (State.retireRun run s core lg) := by
  unfold State.retireRun
  dsimp only
  split
  · split
    · exact .none
    · split
      · next he2 =>
          split
          · exact .none
          · refine .some (inv_unfocus ?_)
            split
            · exact inv_squashAll ((hrun _ _ (inv_dropMarks (inv_atEntry h))).inv he2)
            · exact inv_retireHead ((hrun _ _ (inv_dropMarks (inv_atEntry h))).inv he2)
      · exact .none
  · exact .none

theorem finds_retireEntry {run : State → Word → Res} {s : State} {core lg : Nat}
    (hrun : ∀ t w, t.Inv → (run t w).Keeps) (h : s.Inv) : Finds State.Inv (State.retireEntry run s core lg) := by
  unfold State.retireEntry
  split
  · next t he => exact .some ((finds_retireRun hrun h).of_some he)
  · exact finds_bind (Q := fun _ => True) (by cases (s.seatAt core lg).holder <;> constructor; trivial)
      (fun _ _ => finds_rereadHead h)

theorem keeps_execEarlyLoadReread {gang : Nat} {early : List (Nat × DWord)} {s : State} (h : s.Inv) :
    (execEarlyLoadReread gang early s).Keeps := by
  unfold execEarlyLoadReread
  refine .next ?_
  split
  · split
    · exact inv_getD (finds_rereadHead h) h
    · exact h
  · exact h

theorem keeps_execBranchMispredict {gang : Nat} {s : State} (h : s.Inv) : (execBranchMispredict gang s).Keeps := by
  unfold execBranchMispredict
  refine .next ?_
  split
  · split
    · exact h
    · exact inv_squashAll h
  · exact h

theorem inv_judgeHolder {s : State} {core lg n : Nat} {best : Option Nat} (h : s.Inv) :
    (s.judgeHolder core lg n best).Inv := by
  unfold State.judgeHolder
  dsimp only
  split
  · split
    · split
      · exact inv_updSeat (inv_updSeat h)
      · exact inv_updSeat h
    · split
      · exact inv_updSeat (inv_updSeat h)
      · exact inv_updSeat h
  · split
    · split
      · exact inv_updSeat (inv_updSeat h)
      · exact inv_updSeat h
    · split
      · exact inv_updSeat (inv_updSeat h)
      · exact inv_updSeat h
  · split
    · split
      · exact inv_updSeat (inv_updSeat h)
      · exact inv_updSeat h
    · split
      · exact inv_updSeat (inv_updSeat h)
      · exact inv_updSeat h

theorem keeps_execPromotionEvaluation {core lg : Nat} {s : State} (h : s.Inv) :
    (execPromotionEvaluation core lg s).Keeps := by
  unfold execPromotionEvaluation
  dsimp only
  refine .next ?_
  split
  · exact inv_judgeHolder h
  · split
    · split
      · exact inv_updSeat h
      · exact h
    · exact h

theorem keeps_execDemotion {core lg : Nat} {s : State} (h : s.Inv) : (execDemotion core lg s).Keeps := by
  unfold execDemotion
  dsimp only
  refine .next ?_
  split
  · split
    · exact inv_leaveSeat h
    · exact h
  · exact h

theorem finds_seatEvent {s : State} {core lg : Nat} (h : s.Inv) : Finds Res.Keeps (s.seatEvent core lg) := by
  unfold State.seatEvent
  dsimp only
  split
  · split
    · exact .some (keeps_execBranchMispredict h)
    · split
      · split
        · exact .some (keeps_execEarlyLoadReread h)
        · exact .none
      · exact .none
  · split
    · exact .some (keeps_execDemotion h)
    · exact .none
  · exact .none

end Sys2Proof.Machine
end

section
/-! O7, Events: the canonical form of local memory is kept by gang events. -/

namespace Sys2Proof.Machine

theorem keeps_execIllegalInstruction {word : Word} {s : State} (h : s.Inv) : (execIllegalInstruction word s).Keeps := by
  unfold execIllegalInstruction
  exact keeps_illegal (h.of_mem rfl)

theorem keeps_execMemoryOperationComplete {gang id : Nat} {s : State} (h : s.Inv) :
    (execMemoryOperationComplete gang id s).Keeps := by
  unfold execMemoryOperationComplete
  exact .next (inv_updGangAt (inv_runLate h))

theorem keeps_execRegangMerge {gang : Nat} {pc : PcVal} {s : State} (h : s.Inv) : (execRegangMerge gang pc s).Keeps := by
  unfold execRegangMerge
  exact .next (inv_updGangAt h)

theorem keeps_execGangEnd {gang : Nat} {s : State} (h : s.Inv) : (execGangEnd gang s).Keeps := by
  unfold execGangEnd
  refine .next ?_
  split
  · exact inv_endGang h
  · exact h

theorem inv_endRegrow {s : State} {key : Nat} {ok : Bool} (h : s.Inv) : (s.endRegrow key ok).Inv := by
  unfold State.endRegrow
  split
  · exact h
  · exact inv_fitRows (inv_updGangAt h)

theorem keeps_execRegrowGrant {core lg : Nat} {s : State} (h : s.Inv) : (execRegrowGrant core lg s).Keeps := by
  unfold execRegrowGrant
  refine .next ?_
  split
  · exact inv_endRegrow h
  · exact h

theorem keeps_execRegrowTimeout {gang : Nat} {s : State} (h : s.Inv) : (execRegrowTimeout gang s).Keeps := by
  unfold execRegrowTimeout
  refine .next ?_
  split
  · exact h
  · exact inv_endRegrow h

theorem keeps_execReleaseComplete {gang id : Nat} {s : State} (h : s.Inv) : (execReleaseComplete gang id s).Keeps := by
  unfold execReleaseComplete
  exact .next (inv_updGangAt (inv_runLate h))

theorem keeps_execMwaitTimeout {gang : Nat} {s : State} (h : s.Inv) : (execMwaitTimeout gang s).Keeps := by
  unfold execMwaitTimeout
  exact .next (inv_updGangAt h)

theorem keeps_execReuseClockAdvance {wid : Nat} {s : State} (h : s.Inv) : (execReuseClockAdvance wid s).Keeps := by
  unfold execReuseClockAdvance
  refine .next ?_
  split
  · exact inv_updWgAt h
  · exact h

theorem keeps_execGtAdvance {s : State} (h : s.Inv) : (execGtAdvance s).Keeps := by
  unfold execGtAdvance
  exact .next (h.of_mem rfl)

end Sys2Proof.Machine
end

section
/-! O7, Integer: the canonical form of local memory is kept by the integer words. -/

namespace Sys2Proof.Machine

theorem keeps_scalarForm {s : State} {d a b : Code} {f : Word → Word → Word} (h : s.Inv) :
    (scalarForm s d a b f).Keeps := by
  unfold scalarForm
  exact keeps_guardOps h (fun _ ht => keeps_finishWith ht)

theorem keeps_execSadd {d a b : Code} {s : State} (h : s.Inv) : (execSadd d a b s).Keeps := by
  unfold execSadd
  exact keeps_scalarForm h

theorem keeps_execSsub {d a b : Code} {s : State} (h : s.Inv) : (execSsub d a b s).Keeps := by
  unfold execSsub
  exact keeps_scalarForm h

theorem keeps_execSmul {d a b : Code} {s : State} (h : s.Inv) : (execSmul d a b s).Keeps := by
  unfold execSmul
  exact keeps_scalarForm h

theorem keeps_execSand {d a b : Code} {s : State} (h : s.Inv) : (execSand d a b s).Keeps := by
  unfold execSand
  exact keeps_scalarForm h

theorem keeps_execSor {d a b : Code} {s : State} (h : s.Inv) : (execSor d a b s).Keeps := by
  unfold execSor
  exact keeps_scalarForm h

theorem keeps_execSxor {d a b : Code} {s : State} (h : s.Inv) : (execSxor d a b s).Keeps := by
  unfold execSxor
  exact keeps_scalarForm h

theorem keeps_execSshl {d a b : Code} {s : State} (h : s.Inv) : (execSshl d a b s).Keeps := by
  unfold execSshl
  exact keeps_scalarForm h

theorem keeps_execSshr {d a b : Code} {s : State} (h : s.Inv) : (execSshr d a b s).Keeps := by
  unfold execSshr
  exact keeps_scalarForm h

theorem keeps_execSslt {d a b : Code} {s : State} (h : s.Inv) : (execSslt d a b s).Keeps := by
  unfold execSslt
  exact keeps_scalarForm h

theorem keeps_execSmovi {d : Code} {i : BitVec 16} {s : State} (h : s.Inv) : (execSmovi d i s).Keeps := by
  unfold execSmovi
  exact keeps_guardOps h (fun _ ht => keeps_finishWith ht)

theorem keeps_execSmovhi {d : Code} {i : BitVec 16} {s : State} (h : s.Inv) : (execSmovhi d i s).Keeps := by
  unfold execSmovhi
  exact keeps_guardOps h (fun _ ht => keeps_finishWith ht)

theorem keeps_execSread {d a b : Code} {s : State} (h : s.Inv) : (execSread d a b s).Keeps := by
  unfold execSread
  exact keeps_guardOps h (fun _ ht => keeps_guardLanes ht (keeps_finishWith ht))

theorem keeps_vecFinish {s : State} {d : Code} {x : Nat → DWord} (h : s.Inv) : (vecFinish s d x).Keeps := by
  unfold vecFinish
  exact keeps_finishWith h

theorem keeps_elemForm {s : State} {acc : Bool} {accepted : Nat → Bool} {d a b : Code}
    {f : Nat → Bool → Int → Int → Int → Nat} (h : s.Inv) :
    (elemForm s acc accepted d a b f).Keeps := by
  unfold elemForm
  exact keeps_guardOps h (fun _ ht => keeps_vecFinish ht)

theorem keeps_elemUnary {s : State} {d a : Code} {f : Nat → Bool → Int → Nat} (h : s.Inv) : (elemUnary s d a f).Keeps := by
  unfold elemUnary
  exact keeps_guardOps h (fun _ ht => keeps_vecFinish ht)

theorem keeps_execIadd {d a b : Code} {s : State} (h : s.Inv) : (execIadd d a b s).Keeps := by
  unfold execIadd
  exact keeps_elemForm h

theorem keeps_execIsub {d a b : Code} {s : State} (h : s.Inv) : (execIsub d a b s).Keeps := by
  unfold execIsub
  exact keeps_elemForm h

theorem keeps_execImul {d a b : Code} {s : State} (h : s.Inv) : (execImul d a b s).Keeps := by
  unfold execImul
  exact keeps_elemForm h

theorem keeps_execImulh {d a b : Code} {s : State} (h : s.Inv) : (execImulh d a b s).Keeps := by
  unfold execImulh
  exact keeps_elemForm h

theorem keeps_execImad {d a b : Code} {s : State} (h : s.Inv) : (execImad d a b s).Keeps := by
  unfold execImad
  exact keeps_elemForm h

theorem keeps_execImin {d a b : Code} {s : State} (h : s.Inv) : (execImin d a b s).Keeps := by
  unfold execImin
  exact keeps_elemForm h

theorem keeps_execImax {d a b : Code} {s : State} (h : s.Inv) : (execImax d a b s).Keeps := by
  unfold execImax
  exact keeps_elemForm h

theorem keeps_execIabs {d a : Code} {s : State} (h : s.Inv) : (execIabs d a s).Keeps := by
  unfold execIabs
  exact keeps_elemUnary h

theorem keeps_execIneg {d a : Code} {s : State} (h : s.Inv) : (execIneg d a s).Keeps := by
  unfold execIneg
  exact keeps_elemUnary h

theorem keeps_execIaddi {d : Code} {i : BitVec 16} {s : State} (h : s.Inv) : (execIaddi d i s).Keeps := by
  unfold execIaddi
  exact keeps_guardOps h (fun _ ht => keeps_vecFinish ht)

theorem keeps_execImadw {d a b : Code} {s : State} (h : s.Inv) : (execImadw d a b s).Keeps := by
  unfold execImadw
  exact keeps_guardOps h (fun _ ht => keeps_finishWith ht)

theorem keeps_execIaddc {d a b : Code} {s : State} (h : s.Inv) : (execIaddc d a b s).Keeps := by
  unfold execIaddc
  exact keeps_guardOps h (fun _ ht => keeps_finishWith ht)

theorem keeps_divForm {s : State} {d a b : Code} {f : Nat → Bool → Int → Int → Int → Nat} (h : s.Inv) :
    (divForm s d a b f).Keeps := by
  unfold divForm
  refine keeps_guardOps h (fun _ ht => ?_)
  split
  · exact keeps_elemForm ht
  · exact keeps_trapNow ht

theorem keeps_execIdiv {d a b : Code} {s : State} (h : s.Inv) : (execIdiv d a b s).Keeps := by
  unfold execIdiv
  exact keeps_divForm h

theorem keeps_execIrem {d a b : Code} {s : State} (h : s.Inv) : (execIrem d a b s).Keeps := by
  unfold execIrem
  exact keeps_divForm h

theorem keeps_compareForm {s : State} {d a b : Code} {f : Int → Int → Bool} (h : s.Inv) : (compareForm s d a b f).Keeps := by
  unfold compareForm
  exact keeps_guardOps h (fun _ ht => keeps_finishWith ht)

theorem keeps_execIcmpeq {d a b : Code} {s : State} (h : s.Inv) : (execIcmpeq d a b s).Keeps := by
  unfold execIcmpeq
  exact keeps_compareForm h

theorem keeps_execIcmpne {d a b : Code} {s : State} (h : s.Inv) : (execIcmpne d a b s).Keeps := by
  unfold execIcmpne
  exact keeps_compareForm h

theorem keeps_execIcmplt {d a b : Code} {s : State} (h : s.Inv) : (execIcmplt d a b s).Keeps := by
  unfold execIcmplt
  exact keeps_compareForm h

theorem keeps_execIcmple {d a b : Code} {s : State} (h : s.Inv) : (execIcmple d a b s).Keeps := by
  unfold execIcmple
  exact keeps_compareForm h

theorem keeps_selectForm {s : State} {accepted : Nat → Bool} {d a b : Code} (h : s.Inv) :
    (selectForm s accepted d a b).Keeps := by
  unfold selectForm
  exact keeps_guardOps h (fun _ ht => keeps_finishWith ht)

theorem keeps_execIsel {d a b : Code} {s : State} (h : s.Inv) : (execIsel d a b s).Keeps := by
  unfold execIsel
  exact keeps_selectForm h

theorem keeps_execImovi {d : Code} {i : BitVec 16} {s : State} (h : s.Inv) : (execImovi d i s).Keeps := by
  unfold execImovi
  exact keeps_guardOps h (fun _ ht => keeps_finishWith ht)

theorem keeps_execImovhi {d : Code} {i : BitVec 16} {s : State} (h : s.Inv) : (execImovhi d i s).Keeps := by
  unfold execImovhi
  exact keeps_guardOps h (fun _ ht => keeps_finishWith ht)

theorem keeps_execVbcst {d a : Code} {s : State} (h : s.Inv) : (execVbcst d a s).Keeps := by
  unfold execVbcst
  exact keeps_guardOps h (fun _ ht => keeps_vecFinish ht)

theorem keeps_bitForm {s : State} {d a b : Code} {f : DWord → DWord → DWord} (h : s.Inv) : (bitForm s d a b f).Keeps := by
  unfold bitForm
  exact keeps_guardOps h (fun _ ht => keeps_vecFinish ht)

theorem keeps_execAnd {d a b : Code} {s : State} (h : s.Inv) : (execAnd d a b s).Keeps := by
  unfold execAnd
  exact keeps_bitForm h

theorem keeps_execOr {d a b : Code} {s : State} (h : s.Inv) : (execOr d a b s).Keeps := by
  unfold execOr
  exact keeps_bitForm h

theorem keeps_execXor {d a b : Code} {s : State} (h : s.Inv) : (execXor d a b s).Keeps := by
  unfold execXor
  exact keeps_bitForm h

theorem keeps_shiftForm {s : State} {d a b : Code} {f : Nat → Bool → Int → Nat → Nat → Nat} (h : s.Inv) :
    (shiftForm s d a b f).Keeps := by
  unfold shiftForm
  exact keeps_guardOps h (fun _ ht => keeps_vecFinish ht)

theorem keeps_execShl {d a b : Code} {s : State} (h : s.Inv) : (execShl d a b s).Keeps := by
  unfold execShl
  exact keeps_shiftForm h

theorem keeps_execShr {d a b : Code} {s : State} (h : s.Inv) : (execShr d a b s).Keeps := by
  unfold execShr
  exact keeps_shiftForm h

theorem keeps_execSar {d a b : Code} {s : State} (h : s.Inv) : (execSar d a b s).Keeps := by
  unfold execSar
  exact keeps_shiftForm h

theorem keeps_execRol {d a b : Code} {s : State} (h : s.Inv) : (execRol d a b s).Keeps := by
  unfold execRol
  exact keeps_shiftForm h

theorem keeps_execRor {d a b : Code} {s : State} (h : s.Inv) : (execRor d a b s).Keeps := by
  unfold execRor
  exact keeps_shiftForm h

theorem keeps_bitsUnary {s : State} {d a : Code} {f : Nat → Nat → Nat} (h : s.Inv) : (bitsUnary s d a f).Keeps := by
  unfold bitsUnary
  exact keeps_guardOps h (fun _ ht => keeps_vecFinish ht)

theorem keeps_execBcnt {d a : Code} {s : State} (h : s.Inv) : (execBcnt d a s).Keeps := by
  unfold execBcnt
  exact keeps_bitsUnary h

theorem keeps_execClz {d a : Code} {s : State} (h : s.Inv) : (execClz d a s).Keeps := by
  unfold execClz
  exact keeps_bitsUnary h

theorem keeps_execBfe {d a b : Code} {s : State} (h : s.Inv) : (execBfe d a b s).Keeps := by
  unfold execBfe
  exact keeps_guardOps h (fun _ ht => keeps_vecFinish ht)

theorem keeps_execBfi {d a b : Code} {s : State} (h : s.Inv) : (execBfi d a b s).Keeps := by
  unfold execBfi
  exact keeps_guardOps h (fun _ ht => keeps_vecFinish ht)

theorem keeps_execLea {d a b : Code} {s : State} (h : s.Inv) : (execLea d a b s).Keeps := by
  unfold execLea
  exact keeps_guardOps h (fun _ ht => keeps_finishWith ht)

end Sys2Proof.Machine
end

section
/-! O7, FloatInstr: the canonical form of local memory is kept by the floating-point words. -/

namespace Sys2Proof.Machine

theorem keeps_floatForm {s : State} {op : FOp} {acc : Bool} {d a b : Code} (h : s.Inv) :
    (floatForm s op acc d a b).Keeps := by
  unfold floatForm
  exact keeps_guardOps h (fun _ ht => keeps_floatFinish ht)

theorem keeps_floatUnary {s : State} {op : FUn} {d a : Code} (h : s.Inv) : (floatUnary s op d a).Keeps := by
  unfold floatUnary
  exact keeps_guardOps h (fun _ ht => keeps_floatFinish ht)

theorem keeps_execFadd {d a b : Code} {s : State} (h : s.Inv) : (execFadd d a b s).Keeps := by
  unfold execFadd
  exact keeps_floatForm h

theorem keeps_execFsub {d a b : Code} {s : State} (h : s.Inv) : (execFsub d a b s).Keeps := by
  unfold execFsub
  exact keeps_floatForm h

theorem keeps_execFmul {d a b : Code} {s : State} (h : s.Inv) : (execFmul d a b s).Keeps := by
  unfold execFmul
  exact keeps_floatForm h

theorem keeps_execFfma {d a b : Code} {s : State} (h : s.Inv) : (execFfma d a b s).Keeps := by
  unfold execFfma
  exact keeps_floatForm h

theorem keeps_execFfms {d a b : Code} {s : State} (h : s.Inv) : (execFfms d a b s).Keeps := by
  unfold execFfms
  exact keeps_floatForm h

theorem keeps_execFnma {d a b : Code} {s : State} (h : s.Inv) : (execFnma d a b s).Keeps := by
  unfold execFnma
  exact keeps_floatForm h

theorem keeps_execFmin {d a b : Code} {s : State} (h : s.Inv) : (execFmin d a b s).Keeps := by
  unfold execFmin
  exact keeps_floatForm h

theorem keeps_execFmax {d a b : Code} {s : State} (h : s.Inv) : (execFmax d a b s).Keeps := by
  unfold execFmax
  exact keeps_floatForm h

theorem keeps_execFdiv {d a b : Code} {s : State} (h : s.Inv) : (execFdiv d a b s).Keeps := by
  unfold execFdiv
  exact keeps_floatForm h

theorem keeps_execFrcp {d a : Code} {s : State} (h : s.Inv) : (execFrcp d a s).Keeps := by
  unfold execFrcp
  exact keeps_floatUnary h

theorem keeps_execFrsq {d a : Code} {s : State} (h : s.Inv) : (execFrsq d a s).Keeps := by
  unfold execFrsq
  exact keeps_floatUnary h

theorem keeps_execFsqrt {d a : Code} {s : State} (h : s.Inv) : (execFsqrt d a s).Keeps := by
  unfold execFsqrt
  exact keeps_floatUnary h

theorem keeps_execFexp2 {d a : Code} {s : State} (h : s.Inv) : (execFexp2 d a s).Keeps := by
  unfold execFexp2
  exact keeps_floatUnary h

theorem keeps_execFlog2 {d a : Code} {s : State} (h : s.Inv) : (execFlog2 d a s).Keeps := by
  unfold execFlog2
  exact keeps_floatUnary h

theorem keeps_execFgetexp {d a : Code} {s : State} (h : s.Inv) : (execFgetexp d a s).Keeps := by
  unfold execFgetexp
  exact keeps_floatUnary h

theorem keeps_execFrint {d a : Code} {s : State} (h : s.Inv) : (execFrint d a s).Keeps := by
  unfold execFrint
  exact keeps_floatUnary h

theorem keeps_execFscale {d a b : Code} {s : State} (h : s.Inv) : (execFscale d a b s).Keeps := by
  unfold execFscale
  exact keeps_guardOps h (fun _ ht => keeps_floatFinish ht)

theorem keeps_halfForm {s : State} {op : FOp} {acc : Bool} {d a b : Code} (h : s.Inv) :
    (halfForm s op acc d a b).Keeps := by
  unfold halfForm
  exact keeps_guardOps h (fun _ ht => keeps_floatFinish ht)

theorem keeps_execFhadd {d a b : Code} {s : State} (h : s.Inv) : (execFhadd d a b s).Keeps := by
  unfold execFhadd
  exact keeps_halfForm h

theorem keeps_execFhmul {d a b : Code} {s : State} (h : s.Inv) : (execFhmul d a b s).Keeps := by
  unfold execFhmul
  exact keeps_halfForm h

theorem keeps_execFhfma {d a b : Code} {s : State} (h : s.Inv) : (execFhfma d a b s).Keeps := by
  unfold execFhfma
  exact keeps_halfForm h

theorem keeps_execFhmin {d a b : Code} {s : State} (h : s.Inv) : (execFhmin d a b s).Keeps := by
  unfold execFhmin
  exact keeps_halfForm h

theorem keeps_execFhmax {d a b : Code} {s : State} (h : s.Inv) : (execFhmax d a b s).Keeps := by
  unfold execFhmax
  exact keeps_halfForm h

theorem keeps_execFdot2 {d a b : Code} {s : State} (h : s.Inv) : (execFdot2 d a b s).Keeps := by
  unfold execFdot2
  exact keeps_guardOps h (fun _ ht => keeps_floatFinish ht)

theorem keeps_signForm {s : State} {d a : Code} {f : Nat → Nat → Nat} (h : s.Inv) : (signForm s d a f).Keeps := by
  unfold signForm
  exact keeps_guardOps h (fun _ ht => keeps_vecFinish ht)

theorem keeps_execFabs {d a : Code} {s : State} (h : s.Inv) : (execFabs d a s).Keeps := by
  unfold execFabs
  exact keeps_signForm h

theorem keeps_execFneg {d a : Code} {s : State} (h : s.Inv) : (execFneg d a s).Keeps := by
  unfold execFneg
  exact keeps_signForm h

theorem keeps_execFcopysign {d a b : Code} {s : State} (h : s.Inv) : (execFcopysign d a b s).Keeps := by
  unfold execFcopysign
  exact keeps_guardOps h (fun _ ht => keeps_vecFinish ht)

theorem keeps_execVmov {d a : Code} {s : State} (h : s.Inv) : (execVmov d a s).Keeps := by
  unfold execVmov
  exact keeps_guardOps h (fun _ ht => keeps_vecFinish ht)

theorem keeps_execFsel {d a b : Code} {s : State} (h : s.Inv) : (execFsel d a b s).Keeps := by
  unfold execFsel
  exact keeps_selectForm h

theorem keeps_floatCompare {s : State} {op : Nat} {d a b : Code} (h : s.Inv) : (floatCompare s op d a b).Keeps := by
  unfold floatCompare
  exact keeps_guardOps h (fun _ ht => keeps_floatFinish ht)

theorem keeps_execFcmpeq {d a b : Code} {s : State} (h : s.Inv) : (execFcmpeq d a b s).Keeps := by
  unfold execFcmpeq
  exact keeps_floatCompare h

theorem keeps_execFcmplt {d a b : Code} {s : State} (h : s.Inv) : (execFcmplt d a b s).Keeps := by
  unfold execFcmplt
  exact keeps_floatCompare h

theorem keeps_execFcmple {d a b : Code} {s : State} (h : s.Inv) : (execFcmple d a b s).Keeps := by
  unfold execFcmple
  exact keeps_floatCompare h

theorem keeps_execFcmpun {d a b : Code} {s : State} (h : s.Inv) : (execFcmpun d a b s).Keeps := by
  unfold execFcmpun
  exact keeps_floatCompare h

theorem keeps_execFclass {d a : Code} {s : State} (h : s.Inv) : (execFclass d a s).Keeps := by
  unfold execFclass
  exact keeps_guardOps h (fun _ ht => keeps_finishWith ht)

theorem keeps_execCvt {d a b : Code} {s : State} (h : s.Inv) : (execCvt d a b s).Keeps := by
  unfold execCvt
  dsimp only
  split
  · exact keeps_illegal h
  · exact keeps_guardOps h (fun _ ht => keeps_floatFinish ht)

theorem keeps_packForm {s : State} {ops : List Opnd} {d a : Code} {conv : State → Nat → Nat → Nat × Nat} (h : s.Inv) :
    (packForm s ops d a conv).Keeps := by
  unfold packForm
  exact keeps_guardOps h (fun _ ht => keeps_floatFinish ht)

theorem keeps_unpackForm {s : State} {ops : List Opnd} {d a : Code} {conv : State → Nat → Nat → Nat × Nat} (h : s.Inv) :
    (unpackForm s ops d a conv).Keeps := by
  unfold unpackForm
  exact keeps_guardOps h (fun _ ht => keeps_floatFinish ht)

theorem keeps_execCvtpk {d a : Code} {s : State} (h : s.Inv) : (execCvtpk d a s).Keeps := by
  unfold execCvtpk
  exact keeps_packForm h

theorem keeps_execUnpk {d a : Code} {s : State} (h : s.Inv) : (execUnpk d a s).Keeps := by
  unfold execUnpk
  exact keeps_unpackForm h

theorem keeps_execCvtq {d a b : Code} {s : State} (h : s.Inv) : (execCvtq d a b s).Keeps := by
  unfold execCvtq
  exact keeps_packForm h

theorem keeps_execCvtdq {d a b : Code} {s : State} (h : s.Inv) : (execCvtdq d a b s).Keeps := by
  unfold execCvtdq
  exact keeps_unpackForm h

end Sys2Proof.Machine
end

section
/-! O7, Dispatch: the canonical form of local memory is kept by the meaning of every instruction and event. -/

namespace Sys2Proof.Machine

theorem keeps_exec {i : Instr} {s : State} (h : s.Inv) : Res.Keeps (exec i s) := by
  unfold exec
  split
  · exact keeps_execBr h
  · exact keeps_execBrx h
  · exact keeps_execCall h
  · exact keeps_execCallx h
  · exact keeps_execRet h
  · exact keeps_execRegang h
  · exact keeps_execExit h
  · exact keeps_execNop h
  · exact keeps_execYield h
  · exact keeps_execPromo h
  · exact keeps_execPromoDemote h
  · exact keeps_execPand h
  · exact keeps_execPor h
  · exact keeps_execPxor h
  · exact keeps_execPnot h
  · exact keeps_execExsave h
  · exact keeps_execExand h
  · exact keeps_execExload h
  · exact keeps_execBallot h
  · exact keeps_execVote h
  · exact keeps_execPopc h
  · exact keeps_execMpfx h
  · exact keeps_execShfl h
  · exact keeps_execShfli h
  · exact keeps_execGred h
  · exact keeps_execPsets h
  · exact keeps_execMset h
  · exact keeps_execMsetg h
  · exact keeps_execMget h
  · exact keeps_execMsetr h
  · exact keeps_execWait h
  · exact keeps_execWaitr h
  · exact keeps_execRegrow h
  · exact keeps_execRegshr h
  · exact keeps_execFlget h
  · exact keeps_execFlclr h
  · exact keeps_execSadd h
  · exact keeps_execSsub h
  · exact keeps_execSmul h
  · exact keeps_execSand h
  · exact keeps_execSor h
  · exact keeps_execSxor h
  · exact keeps_execSshl h
  · exact keeps_execSshr h
  · exact keeps_execSslt h
  · exact keeps_execSmovi h
  · exact keeps_execSmovhi h
  · exact keeps_execSread h
  · exact keeps_execIadd h
  · exact keeps_execIsub h
  · exact keeps_execImul h
  · exact keeps_execImulh h
  · exact keeps_execImad h
  · exact keeps_execIdiv h
  · exact keeps_execIrem h
  · exact keeps_execImin h
  · exact keeps_execImax h
  · exact keeps_execIabs h
  · exact keeps_execIneg h
  · exact keeps_execIcmpeq h
  · exact keeps_execIcmpne h
  · exact keeps_execIcmplt h
  · exact keeps_execIcmple h
  · exact keeps_execIsel h
  · exact keeps_execImovi h
  · exact keeps_execImovhi h
  · exact keeps_execVbcst h
  · exact keeps_execIaddi h
  · exact keeps_execIaddc h
  · exact keeps_execImadw h
  · exact keeps_execAnd h
  · exact keeps_execOr h
  · exact keeps_execXor h
  · exact keeps_execShl h
  · exact keeps_execShr h
  · exact keeps_execSar h
  · exact keeps_execRol h
  · exact keeps_execRor h
  · exact keeps_execBcnt h
  · exact keeps_execClz h
  · exact keeps_execBfe h
  · exact keeps_execBfi h
  · exact keeps_execLea h
  · exact keeps_execCvt h
  · exact keeps_execCvtpk h
  · exact keeps_execUnpk h
  · exact keeps_execFrint h
  · exact keeps_execCvtq h
  · exact keeps_execCvtdq h
  · exact keeps_execFadd h
  · exact keeps_execFsub h
  · exact keeps_execFmul h
  · exact keeps_execFfma h
  · exact keeps_execFfms h
  · exact keeps_execFnma h
  · exact keeps_execFmin h
  · exact keeps_execFmax h
  · exact keeps_execFabs h
  · exact keeps_execFneg h
  · exact keeps_execVmov h
  · exact keeps_execFcmpeq h
  · exact keeps_execFcmplt h
  · exact keeps_execFcmple h
  · exact keeps_execFcmpun h
  · exact keeps_execFclass h
  · exact keeps_execFrcp h
  · exact keeps_execFrsq h
  · exact keeps_execFsqrt h
  · exact keeps_execFdiv h
  · exact keeps_execFexp2 h
  · exact keeps_execFlog2 h
  · exact keeps_execFhadd h
  · exact keeps_execFhmul h
  · exact keeps_execFhfma h
  · exact keeps_execFhmin h
  · exact keeps_execFhmax h
  · exact keeps_execFdot2 h
  · exact keeps_execFsel h
  · exact keeps_execFscale h
  · exact keeps_execFgetexp h
  · exact keeps_execFcopysign h
  · exact keeps_execLdb h
  · exact keeps_execLdbs h
  · exact keeps_execLdh h
  · exact keeps_execLdhs h
  · exact keeps_execLdw h
  · exact keeps_execLdd h
  · exact keeps_execLdq h
  · exact keeps_execLdAcq h
  · exact keeps_execStb h
  · exact keeps_execSth h
  · exact keeps_execStw h
  · exact keeps_execStd h
  · exact keeps_execStq h
  · exact keeps_execStRel h
  · exact keeps_execPref h
  · exact keeps_execPglob h
  · exact keeps_execAtadd h
  · exact keeps_execAtfadd h
  · exact keeps_execAtmin h
  · exact keeps_execAtmax h
  · exact keeps_execAtand h
  · exact keeps_execAtor h
  · exact keeps_execAtxor h
  · exact keeps_execAtxchg h
  · exact keeps_execAtcas h
  · exact keeps_execFenceAcq h
  · exact keeps_execFenceRel h
  · exact keeps_execFenceAcqrel h
  · exact keeps_execFenceSc h
  · exact keeps_execFencePath h
  · exact keeps_execMwatch h
  · exact keeps_execMwait h
  · exact keeps_execTick h
  · exact keeps_execCmaint h
  · exact keeps_execBinit h
  · exact keeps_execBarv h
  · exact keeps_execBwait h
  · exact keeps_execBwaitGen h
  · exact keeps_execBarw h
  · exact keeps_execBaddx h
  · exact keeps_execBaddxE h
  · exact keeps_execBtest h
  · exact keeps_execBtestWord1 h
  · exact keeps_execNgjoin h
  · exact keeps_execNgjoinLeave h
  · exact keeps_execNgarv h
  · exact keeps_execNgwait h
  · exact keeps_execNgwaitGen h
  · exact keeps_execNgwaitRead h
  · exact keeps_execBsetm h
  · exact keeps_execBsetmDevice h
  · exact keeps_execBsetmRoot h
  · exact keeps_execCpyc h
  · exact keeps_execCpy h
  · exact keeps_execGath h
  · exact keeps_execScat h
  · exact keeps_execMcast h
  · exact keeps_execSclp h
  · exact keeps_execGqry h
  · exact keeps_execGcncl h
  · exact keeps_execExpb h
  · exact keeps_execExpbG h
  · exact keeps_execExpn h
  · exact keeps_execSegr h
  · exact keeps_execXsave h
  · exact keeps_execXrst h
  · exact keeps_execVsort h
  · exact keeps_execVtopk h
  · exact keeps_execTkmrg h
  · exact keeps_execCtopk h
  · exact keeps_execHins h
  · exact keeps_execHacc h
  · exact keeps_execHfind h
  · exact keeps_execHinit h
  · exact keeps_execTalloc h
  · exact keeps_execTfree h
  · exact keeps_execMloop h
  · exact keeps_execMdrain h
  · exact keeps_execMzero h
  · exact keeps_execTacc h
  · exact keeps_execEvset h
  · exact keeps_execEvclr h
  · exact keeps_execEvwait h
  · exact keeps_execEvwaitClear h
  · exact keeps_execMpt h
  · exact keeps_execMsave h
  · exact keeps_execMrestore h
  · exact keeps_execRinv h
  · exact keeps_execRinvh h
  · exact keeps_execRwait h
  · exact keeps_execRpoll h
  · exact keeps_execRget h
  · exact keeps_execRgetBarn h
  · exact keeps_execRdrop h
  · exact keeps_execRbind h
  · exact keeps_execRput h
  · exact keeps_execRfail h
  · exact keeps_execTcarm h
  · exact keeps_execTcadd h
  · exact keeps_execTrap h
  · exact keeps_execTvec h
  · exact keeps_execTret h
  · exact keeps_execTretSkip h
  · exact keeps_execTdone h
  · exact keeps_execSysrd h
  · exact keeps_execSyswr h
  · exact keeps_execTlbip h
  · exact keeps_execTlbia h
  · exact keeps_execTlball h
  · exact keeps_execFwcall h
  · exact keeps_execRegangMerge h
  · exact keeps_execGangEnd h
  · exact keeps_execRegrowGrant h
  · exact keeps_execRegrowTimeout h
  · exact keeps_execPromotionEvaluation h
  · exact keeps_execDemotion h
  · exact keeps_execEarlyLoadReread h
  · exact keeps_execBranchMispredict h
  · exact keeps_execMemoryOperationComplete h
  · exact keeps_execReleaseComplete h
  · exact keeps_execMwaitTimeout h
  · exact keeps_execReuseClockAdvance h
  · exact keeps_execGtAdvance h
  · exact keeps_execPageWalk h
  · exact keeps_execHeatSweep h
  · exact keeps_execTlbInvalidationComplete h
  · exact keeps_execTeardownComplete h
  · exact keeps_execNamedGroupNodeArrival h
  · exact keeps_execNamedGroupCompletion h
  · exact keeps_execGleanerCommandStart h
  · exact keeps_execCopyUnit h
  · exact keeps_execGatherRow h
  · exact keeps_execMulticastAck h
  · exact keeps_execScalePlacement h
  · exact keeps_execGleanerCommandCompletion h
  · exact keeps_execMloopEntryStart h
  · exact keeps_execThresherPassGrant h
  · exact keeps_execThresherPassEnd h
  · exact keeps_execTilePortStart h
  · exact keeps_execTileOperationComplete h
  · exact keeps_execInvocationArrival h
  · exact keeps_execDependentMessageAtHome h
  · exact keeps_execBindReport h
  · exact keeps_execResultPosted h
  · exact keeps_execRgetResultArrival h
  · exact keeps_execInvocationFabricTimeout h
  · exact keeps_execTcaddArrival h
  · exact keeps_execPendingFireCopy h
  · exact keeps_execPreemptGraceExpiry h
  · exact keeps_execPreemptionSave h
  · exact keeps_execWorkgroupRestore h
  · exact keeps_execFwcallReply h
  · exact keeps_execPlaquelTranslation h
  · exact keeps_execDoorbellWrite h
  · exact keeps_execQueuePoll h
  · exact keeps_execLaunchPacket h
  · exact keeps_execWaitAndPacket h
  · exact keeps_execWaitAndPoll h
  · exact keeps_execWaitAndTimeout h
  · exact keeps_execTriggerArmPacket h
  · exact keeps_execCopyPacket h
  · exact keeps_execSignalPacket h
  · exact keeps_execPartitionConfigure h
  · exact keeps_execPartitionRemove h
  · exact keeps_execPartitionQueueDescriptor h
  · exact keeps_execPartitionTeardown h
  · exact keeps_execPartitionFlush h
  · exact keeps_execDispatch h
  · exact keeps_execWorkgroupAdmission h
  · exact keeps_execHeadAgeing h
  · exact keeps_execWorkgroupRetirement h
  · exact keeps_execWgPreemptWrite h
  · exact keeps_execTfqReplyRetry h
  · exact keeps_execTfqReplyDeliver h
  · exact keeps_execTfqReplyFail h
  · exact keeps_execTfqHeadWrite h
  · exact keeps_execRegisterWrite h
  · exact keeps_execPolicyCommit h
  · exact keeps_execHostBar0Access h
  · exact keeps_execAttestationRequest h
  · exact keeps_execDvfsReq h
  · exact keeps_execClockSwitchEnd h
  · exact keeps_execVoltageSlewEnd h
  · exact keeps_execThermalThrottle h
  · exact keeps_execThrottleEnd h
  · exact keeps_execThermalShutdown h
  · exact keeps_execPowerCapStep h
  · exact keeps_execTelemetrySample h
  · exact keeps_execPatrolScrub h
  · exact keeps_execRowActivationRefresh h
  · exact keeps_execMeshFlitError h
  · exact keeps_execLumenMessageReceive h
  · exact keeps_execHeldMessageRelease h
  · exact keeps_execLinkRecalibration h
  · exact keeps_execInboundAccess h
  · exact keeps_execInboundTimeout h
  · exact keeps_execInitiatorTimeout h
  · exact keeps_execDeviceReset h
  · exact keeps_execIllegalInstruction h
  · exact keeps_execPageRequestReply h

end Sys2Proof.Machine
end

section
/-! O7, Schedule: the canonical form of local memory is kept by the order of turns. -/

namespace Sys2Proof.Machine

theorem inv_setRun {s : State} {core lg n : Nat} (h : s.Inv) : (s.setRun core lg n).Inv := by
  unfold State.setRun
  exact inv_updCore h

theorem finds_takeSlot {s : State} {core lg : Nat} (h : s.Inv) : Finds (fun r => r.1.Inv) (s.takeSlot core lg) := by
  unfold State.takeSlot
  dsimp only
  split
  · split
    · split
      · split
        · exact .some (inv_updCore h)
        · exact .some (inv_setRun h)
      · exact .some (inv_setRun h)
    · split
      · exact .some (inv_updCore h)
      · exact .none
  · split
    · exact .some (inv_updCore h)
    · exact .none

theorem inv_idleSlot {s : State} {core lg : Nat} (h : s.Inv) : (s.idleSlot core lg).Inv := by
  unfold State.idleSlot
  exact inv_setRun h

theorem inv_focus {s : State} {key : Nat} (h : s.Inv) : (s.focus key).Inv := by
  unfold State.focus
  split
  · exact h.of_mem rfl
  · exact inv_dropMarks (inv_updGangAt (h.of_mem rfl))

theorem inv_countIssued {s : State} {core n : Nat} (h : s.Inv) : (s.countIssued core n).Inv := by
  unfold State.countIssued
  dsimp only
  split
  · exact h
  · exact h.of_mem rfl

theorem inv_afterIssue {s : State} {core key : Nat} {t : State} (h : t.Inv) : (s.afterIssue core key t).Inv := by
  unfold State.afterIssue
  dsimp only
  split
  · split
    · exact inv_updCore (inv_updGangAt h)
    · exact inv_countIssued (inv_retireHead h)
  · refine inv_countIssued ?_
    split
    · exact inv_squashAll h
    · exact inv_retireHead h

theorem finds_lateEvent {s : State} {k : Nat} (h : s.Inv) : Finds Res.Keeps (s.lateEvent k) := by
  unfold State.lateEvent
  dsimp only
  refine finds_map (fun _ => ?_)
  split
  · exact keeps_execReleaseComplete h
  · exact keeps_execMemoryOperationComplete h

theorem finds_gangEvent {s : State} {k : Nat} (h : s.Inv) : Finds Res.Keeps (s.gangEvent k) := by
  unfold State.gangEvent
  dsimp only
  split
  · exact .some (keeps_execMemoryOperationComplete h)
  · split
    · exact finds_lateEvent h
    · split
      · exact .some (keeps_execRegangMerge h)
      · split
        · exact .some (keeps_execGangEnd h)
        · exact .none

theorem finds_powerEvent {s : State} (h : s.Inv) : Finds Res.Keeps s.powerEvent := by
  unfold State.powerEvent
  split
  · exact .some (keeps_execVoltageSlewEnd h)
  · exact .none

theorem finds_wgEvent {s : State} {wid : Nat} (h : s.Inv) : Finds Res.Keeps (s.wgEvent wid) := by
  unfold State.wgEvent
  dsimp only
  split
  · exact .none
  · split
    · exact .some (keeps_execWorkgroupRetirement h)
    · split
      · exact .some (keeps_execPreemptionSave h)
      · split
        · exact .some (.next (inv_trapDeadlock h))
        · split
          · exact .some (.next (inv_tryCollective h))
          · split
            · exact .some (.next (inv_tryFormation h))
            · split
              · exact .some (keeps_execReuseClockAdvance h)
              · exact .none

theorem finds_coreEvent {s : State} {core : Nat} (h : s.Inv) : Finds Res.Keeps (s.coreEvent core) := by
  unfold State.coreEvent
  split
  · exact finds_seatEvent h
  · split
    · exact .some (keeps_execRegrowGrant h)
    · split
      · exact .some (keeps_execRegrowTimeout h)
      · exact finds_gleanerEvent h

theorem finds_groupEvent {s : State} {k : Nat} (h : s.Inv) : Finds Res.Keeps (s.groupEvent k) := by
  unfold State.groupEvent
  dsimp only
  split
  · exact .some (keeps_execNamedGroupNodeArrival h)
  · split
    · exact .some (keeps_execNamedGroupCompletion h)
    · exact .none

theorem finds_cellEvent {s : State} {k : Nat} (h : s.Inv) : Finds Res.Keeps (s.cellEvent k) := by
  unfold State.cellEvent
  split
  · exact .some (keeps_execPendingFireCopy h)
  · exact .none

theorem finds_headEvent {s : State} {k : Nat} (h : s.Inv) : Finds Res.Keeps (s.headEvent k) := by
  unfold State.headEvent
  dsimp only
  split
  · exact .none
  · exact .some (keeps_execDoorbellWrite h)
  · split
    · exact .some (keeps_execDoorbellWrite h)
    · exact .none
  · split
    · exact .none
    · split
      · exact .some (keeps_execDoorbellWrite h)
      · split
        · exact .some (keeps_execLaunchPacket h)
        · exact .some (keeps_execWaitAndPacket h)
        · exact .some (keeps_execTriggerArmPacket h)
        · exact .some (keeps_execCopyPacket h)
        · exact .some (keeps_execSignalPacket h)
        · split
          · exact .some (keeps_execPartitionConfigure h)
          · exact .some (keeps_execPartitionRemove h)
          · exact .some (keeps_execPartitionQueueDescriptor h)
          · exact .some (keeps_execPartitionTeardown h)
          · exact .some (keeps_execPartitionFlush h)

theorem finds_queueEvent {s : State} {k : Nat} (h : s.Inv) : Finds Res.Keeps (s.queueEvent k) := by
  unfold State.queueEvent
  dsimp only
  split
  · exact .some (keeps_execDoorbellWrite h)
  · split
    · exact .some (keeps_execWaitAndPoll h)
    · split
      · exact finds_headEvent h
      · exact .none

theorem finds_launchEvent {s : State} {l : Launch} (h : s.Inv) : Finds Res.Keeps (s.launchEvent l) := by
  unfold State.launchEvent
  dsimp only
  split
  · exact .some (keeps_execPlaquelTranslation h)
  · exact finds_map (fun _ => keeps_execHeadAgeing h)

theorem finds_dispatchEvent {s : State} (h : s.Inv) : Finds Res.Keeps s.dispatchEvent := by
  unfold State.dispatchEvent
  split
  · split
    · exact .none
    · exact .some (keeps_execWorkgroupAdmission h)
  · exact finds_map (fun _ => keeps_execDispatch h)

theorem finds_faultEvent {s : State} {die : Nat} (h : s.Inv) : Finds Res.Keeps (s.faultEvent die) := by
  unfold State.faultEvent
  dsimp only
  split
  · exact .some (.next (inv_startMirror h))
  · exact finds_map (fun _ => keeps_unresolved h)

theorem finds_mirrorEvent {s : State} (h : s.Inv) : Finds Res.Keeps s.mirrorEvent := by
  unfold State.mirrorEvent
  exact finds_map (fun _ => .next (inv_mirrorStep h))

theorem finds_fabricEvent {s : State} (h : s.Inv) : Finds Res.Keeps s.fabricEvent := by
  unfold State.fabricEvent
  split
  · next he =>
      exact .some ((finds_firstSome (fun _ _ => finds_msgEvent h)).of_some he)
  · split
    · exact .some (keeps_execInboundAccess h)
    · split
      · exact .some (keeps_execHeldMessageRelease h)
      · split
        · exact .some (keeps_execTlbInvalidationComplete h)
        · split
          · exact .some (keeps_execFwcallReply h)
          · exact finds_map (fun _ => keeps_execTeardownComplete h)

theorem finds_firmwareEvent {s : State} (h : s.Inv) : Finds Res.Keeps s.firmwareEvent := by
  unfold State.firmwareEvent
  split
  · exact .some (.next (inv_finishEnding h))
  · exact finds_map (fun _ => keeps_execPolicyCommit h)

/-- The device's own event that is due keeps the invariant, whichever it is. -/
theorem finds_dueEvent {s : State} (h : s.Inv) : Finds Res.Keeps s.dueEvent := by
  unfold State.dueEvent
  split
  · exact .some (Res.Keeps.next (inv_carryAlarms h))
  · refine finds_firstSome ?_
    simp only [List.forall_mem_cons, List.not_mem_nil, false_implies, implies_true, and_true]
    exact ⟨finds_powerEvent h, finds_firstSome (fun _ _ => finds_gangEvent h), finds_firstSome (fun _ _ => finds_lateEvent h),
      finds_firstSome (fun _ _ => finds_wgEvent h), finds_firstSome (fun _ _ => finds_coreEvent h),
      finds_firstSome (fun _ _ => finds_thresherEvent h), finds_firstSome
        (fun _ _ => finds_groupEvent h), finds_fabricEvent h,
      finds_firmwareEvent h, finds_firstSome (fun _ _ => finds_faultEvent h), finds_mirrorEvent h,
      finds_firstSome (fun _ _ => finds_cellEvent h), finds_firstSome (fun _ _ => finds_launchEvent h), finds_dispatchEvent h,
      finds_firstSome (fun _ _ => finds_queueEvent h)⟩

theorem finds_gangLimit {s : State} {k : Nat} (h : s.Inv) : Finds Res.Keeps (s.gangLimit k) := by
  unfold State.gangLimit
  dsimp only
  split
  · exact .some (keeps_execMwaitTimeout h)
  · split
    · exact .some (keeps_execRegrowTimeout h)
    · exact .none

theorem finds_queueLimit {s : State} {k : Nat} (h : s.Inv) : Finds Res.Keeps (s.queueLimit k) := by
  unfold State.queueLimit
  exact finds_map (fun _ => keeps_execWaitAndTimeout h)

theorem finds_launchLimit {s : State} {l : Launch} (h : s.Inv) : Finds Res.Keeps (s.launchLimit l) := by
  unfold State.launchLimit
  split
  · exact .none
  · exact finds_map (fun _ => keeps_execHeadAgeing h)

theorem finds_savedLimit {s : State} {v : Saved} (h : s.Inv) : Finds Res.Keeps (s.savedLimit v) := by
  unfold State.savedLimit
  exact finds_map (fun _ => keeps_execWorkgroupRestore h)

theorem finds_farLimit {s : State} (h : s.Inv) : Finds Res.Keeps s.farLimit := by
  unfold State.farLimit
  refine finds_map (fun _ => ?_)
  split
  · exact keeps_execInitiatorTimeout h
  · exact keeps_execInvocationFabricTimeout h

theorem finds_seatLimit {s : State} {core : Nat} (h : s.Inv) : Finds Res.Keeps (s.seatLimit core) := by
  unfold State.seatLimit
  exact finds_map (fun _ => keeps_execPromotionEvaluation h)

theorem finds_pollLimit {s : State} (h : s.Inv) : Finds Res.Keeps s.pollLimit := by
  unfold State.pollLimit
  split
  · exact .some (keeps_execQueuePoll h)
  · exact .none

theorem finds_limitEvent {s : State} (h : s.Inv) : Finds Res.Keeps s.limitEvent := by
  unfold State.limitEvent
  refine finds_firstSome ?_
  simp only [List.forall_mem_cons, List.not_mem_nil, false_implies, implies_true, and_true]
  exact ⟨finds_firstSome (fun _ _ => finds_seatLimit h), finds_firstSome (fun _ _ => finds_gangLimit h),
    finds_map (fun _ => keeps_execPreemptGraceExpiry h), finds_firstSome (fun _ _ => finds_queueLimit h),
    finds_firstSome (fun _ _ => finds_launchLimit h), finds_firstSome (fun _ _ => finds_savedLimit h), finds_farLimit h,
    finds_map (fun _ => keeps_execTeardownComplete h), finds_pollLimit h⟩

theorem keeps_idle {s : State} (h : s.Inv) : s.idle.Keeps := by
  unfold State.idle
  split
  · refine .next (inv_foldl (fun _ _ ht => ?_) h)
    split
    · exact ht
    · exact inv_drainQueues ht
  · exact keeps_getD (finds_limitEvent h) (.next h)

theorem inv_countCycles {s : State} {n : Nat} (h : s.Inv) : (s.countCycles n).Inv :=
  h.of_mem rfl

theorem inv_passTime {s : State} (h : s.Inv) : s.passTime.Inv := by
  unfold State.passTime
  exact inv_update (inv_countCycles h)

end Sys2Proof.Machine
end

section
/-! O7, Step: the canonical form of local memory is kept by the step. -/

namespace Sys2Proof.Machine

theorem keeps_runWord {s : State} {w : Word} (h : s.Inv) : Res.Keeps (runWord s w) := by
  unfold runWord
  split
  · exact keeps_exec h
  · exact keeps_execIllegalInstruction h

/-- The state after a fetch, with its word or without. -/
def Fetched.state : Fetched → State
  | .word s _ => s
  | .instead s => s

theorem inv_fetch {s : State} (h : s.Inv) : s.fetch.state.Inv := by
  unfold State.fetch
  dsimp only
  split
  · exact inv_park h
  · next t x he =>
    have ht : t.Inv := (gives_xlate h).of_ok he
    split
    · exact inv_update ht
    · split
      · exact inv_update ht
      · split
        · next u hu => exact (keeps_fetchFar (inv_update ht)).inv hu
        · exact ht
    · exact inv_takeTrap (inv_alarm (inv_update ht))
    · exact inv_takeTrap (inv_update ht)

theorem keeps_issueGang {s : State} {key : Nat} (h : s.Inv) : Res.Keeps (issueGang s key) := by
  have hf : (s.focus key).fetch.state.Inv := inv_fetch (inv_focus h)
  unfold issueGang
  split
  · next t w he =>
    rw [he] at hf
    exact keeps_runWord (inv_enterWindow hf)
  · next t he =>
    rw [he] at hf
    exact .next hf

theorem keeps_thenNext {r : Res} {f : State → State} (h : r.Keeps) (hf : ∀ t, t.Inv → (f t).Inv) :
    Res.Keeps (thenNext r f) := by
  cases h with
  | next h => exact .next (hf _ h)
  | fault => exact .fault
  | refused => exact .refused

theorem keeps_issueSlot {s : State} {core lg : Nat} (h : s.Inv) : Res.Keeps (issueSlot s core lg) := by
  unfold issueSlot
  split
  · exact .next (inv_idleSlot h)
  · next he =>
      exact keeps_thenNext (keeps_issueGang ((finds_takeSlot h).of_some he)) (fun _ ht => inv_afterIssue ht)

theorem inv_dispatchSlot {s : State} {core lg index : Nat} (h : s.Inv) : (dispatchSlot s core lg index).Inv := by
  unfold dispatchSlot
  dsimp only
  split
  · exact h
  · split
    · next he =>
        exact inv_countIssued (inv_setRun ((finds_dispatchOldest (fun _ _ ht => keeps_runWord ht) h).of_some he))
    · exact h

theorem keeps_runTurn {s : State} {x : Turn} (h : s.Inv) : Res.Keeps (runTurn s x) := by
  unfold runTurn
  split
  · exact keeps_exec h
  · exact keeps_issueSlot h
  · exact keeps_thenNext (keeps_issueSlot (h.of_mem rfl)) (fun _ ht => inv_update ht)
  · exact .next (inv_rename h)
  · exact .next (inv_dispatchSlot h)
  · exact .next (inv_getD (finds_retireEntry (fun _ _ ht => keeps_runWord ht) h) h)
  · exact .next (inv_drainOne h)
  · exact .next (inv_strike h)
  · refine .next ?_
    split
    · exact inv_mirrorStep h
    · exact h
  · exact .next (h.of_mem rfl)
  · exact .next (inv_windowAccess h)
  · exact .next (inv_sealedAccess h)
  · exact .next (h.of_mem rfl)

theorem finds_retireDue {s : State} (h : s.Inv) : Finds State.Inv (retireDue s) := by
  unfold retireDue
  exact finds_firstSome (fun _ _ => finds_firstSome (fun _ _ => finds_retireRun (fun _ _ ht => keeps_runWord ht) h))

theorem keeps_ownTurn {s : State} (h : s.Inv) : Res.Keeps (ownTurn s) := by
  unfold ownTurn
  split
  · next he =>
      exact (finds_dueEvent h).of_some he
  · next he1 =>
      exact .next ((finds_retireDue h).of_some he1)
  · exact keeps_runTurn (h.of_mem rfl)
  · exact keeps_idle h

theorem keeps_step {s0 : State} (h : s0.Inv) : Res.Keeps (step s0) := by
  unfold step
  dsimp only
  split
  · split
    · split
      · exact keeps_exec (inv_update (inv_passTime h))
      · exact .next (inv_windowAccess (inv_update (inv_passTime h)))
      · exact .fault
    · split
      · split
        · exact keeps_runTurn (inv_update (inv_passTime h))
        · exact .next (inv_update (inv_passTime h))
      · split
        · exact keeps_execClockSwitchEnd (inv_passTime h)
        · exact keeps_runTurn (inv_update (inv_passTime h))
  · split
    · exact .fault
    · split
      · exact .next (inv_passTime h)
      · split
        · exact keeps_execClockSwitchEnd (inv_passTime h)
        · exact keeps_ownTurn (inv_passTime h)

end Sys2Proof.Machine
end

section
/-! Every step keeps the canonical form of local memory. -/

namespace Sys2Proof.Machine

/-- Settles O7: each function that a step calls keeps the invariant, and memory is written by `putBytes`, `mergeDirty` and
filters alone. -/
theorem invKept : Obligations.InvKept :=
  fun _ _ h he => (keeps_step h).inv he

end Sys2Proof.Machine
end
